-- ==== Sys2Proof/Word.lean ====
section
/-! DEFINITION. The plain words of the block: bytes, 32-bit register words, the eighteen ports and the blocks of R402. -/

set_option Elab.async false

namespace Sys2Proof

/-- A byte, as mailbox entries, packets and flash hold it. -/
abbrev Byte := BitVec 8

/-- A 32-bit register or Almanac word. -/
abbrev Word := BitVec 32

/-- An upstream port, and the virtual hub behind it (R101). -/
inductive US where
  | us0
  | us1
  deriving DecidableEq, Repr

/-- A downstream port: index n names DS(n+1). -/
abbrev DS := Fin 16

/-- Any port, by the port index k of R343: 0 and 1 are US0 and US1, and n + 1 is DSn. -/
abbrev Port := Fin 18

/-- A block of R402. -/
inductive Block where
  | pmu | cru | sage | lovage | almanac | dmc | pkb | fab | sched | place | mbx | adc | psl | dpx | lio | vigil
  | us (u : US)
  | ds (d : DS)
  | chv (c : Fin 8)
  | thy (t : Fin 6)
  deriving DecidableEq, Repr

/-- The other upstream port. -/
def US.other : US → US
  | .us0 => .us1
  | .us1 => .us0

/-- The number of an upstream port, 0 or 1. -/
def US.idx : US → Fin 2
  | .us0 => 0
  | .us1 => 1

end Sys2Proof
end

