-- ==== Sys2Proof/Syntax.lean ====
section
/-! DEFINITION. The commands of the block: one constructor of Instr per row of spec/opcode_table.json, in the table's order.
The table gives the rows no operands; each constructor carries what the outside presents to the block with that operation
or event (assumption log, entry 1). -/

set_option Elab.async false

namespace Sys2Proof

/-- A transport that reaches the mailbox rings (chapter 18). -/
inductive Transport where
  | spit
  | i2ct
  | lmf (u : US)
  deriving DecidableEq, Repr

/-- The twelve modes of R379. -/
inductive Mode where
  | off | hibernate | standby | boot | suspend | eco | active | peak | vigil | degraded | service | safe
  deriving DecidableEq, Repr

/-- A Martar command as a ring carries it (R425): its ring, the transport that sent it where the ring is CMD0, FLAGS, TAG,
TARGET and payload. badWord is an Almanac word whose read-back fails while the command's writes run (R408, WRITE_VERIFY). -/
structure Req where
  ring : Fin 8
  via : Transport
  flags : BitVec 8
  tag : Word
  target : BitVec 16
  payload : List Byte
  badWord : Option Nat
  deriving DecidableEq, Repr

/-- How DRAM training ended (R85). -/
inductive Train where
  | full | fallback | fail
  deriving DecidableEq, Repr

/-- What a boot that starts now finds: the straps, the training, and after a sleep the AON_32K ticks counted on the
crystal and on the fallback up to the first edge, with the phase from TB_CLK's start to that edge in ns, and the ticks up to the
edge at which the wake was latched; and the Vigil contexts with an uncorrectable word, and with a CRC mismatch (R74, R85, R97, R394, R399). -/
structure BootIn where
  straps : BitVec 2
  asel : Bool
  train : Train
  nx : Nat
  nf : Nat
  psi : Nat
  wx : Nat
  eccBad : List Nat
  crcBad : List Nat
  deriving DecidableEq, Repr

/-- A PLL that unlocks (R408). -/
inductive Pll where
  | core | tb | ssTx
  deriving DecidableEq, Repr

/-- What a port's CC pins carry (R305, R310). -/
inductive CcPattern where
  | opn | rdOne | rdBoth | raOne | raBoth | rdRa | rp
  deriving DecidableEq, Repr

/-- The change bits of a hub port's status (R298). -/
inductive Change where
  | connection | enable | suspend | overCurrent | reset | l1 | bhReset | linkState | configError
  deriving DecidableEq, Repr

/-- The events of an owned port that may wake its host (R295). -/
inductive WakeEvent where
  | connect | disconnect | overCurrent
  deriving DecidableEq, Repr

/-- A feature of a virtual hub itself (R158, R294): U1_ENABLE, U2_ENABLE, DEVICE_REMOTE_WAKEUP, function remote wake. -/
inductive HubFeature where
  | u1Enable | u2Enable | remoteWake2 | funcWake3
  deriving DecidableEq, Repr

/-- What a device's descriptors say for the match of port guard rules (R125, R127): the device's IDs and class triple, and the
triple of each interface of configuration 1, by interface number. -/
structure DevId where
  vid : BitVec 16
  pid : BitVec 16
  triple : Byte × Byte × Byte
  ifaces : List (Byte × Byte × Byte × Byte)
  deriving DecidableEq, Repr

/-- The kind of a SuperSpeed header (R131–R148): data packet header, ACK, another transaction packet, link management. -/
inductive HdrKind where
  | dp | ack | tp (sub : Nat) | lmp
  deriving DecidableEq, Repr

/-- A SuperSpeed header: kind, route string, device address, endpoint and direction, SeqNum, NumP, data length, the retry flag of
an ACK, the Stream ID (R146, R147), and its link control word: the header sequence number of the link that carries it, and the
deferred and delayed bits. -/
structure SsHeader where
  kind : HdrKind
  route : Nat
  addr : Nat
  ep : Nat
  dirIn : Bool
  seq : Nat
  nump : Nat
  len : Nat
  retry : Bool := false
  stream : Nat := 0
  lseq : Nat := 0
  deferred : Bool
  delayed : Bool
  deriving DecidableEq, Repr

/-- A link command that acts on headers (R144): LGOOD names the header sequence number it acknowledges, LCRD the buffer it
returns. -/
inductive LinkCmd where
  | lgood (n : Nat)
  | lbad
  | lrty
  | lcrd (n : Nat)
  deriving DecidableEq, Repr

/-- How a downstream link leaves U0 (R160). -/
inductive LeaveCause where
  | exitFail | inactive | warmReset
  deriving DecidableEq, Repr

/-- An endpoint type. -/
inductive EpType where
  | control | iso | bulk | interrupt
  deriving DecidableEq, Repr

/-- An endpoint as a device's descriptors give it: interface and alternate setting, number, direction, type, wMaxPacketSize,
MaxBurst in packets, wBytesPerInterval, and the service interval in ns. -/
structure EpDesc where
  iface : Nat
  alt : Nat
  ep : Nat
  dirIn : Bool
  typ : EpType
  mps : Nat
  burst : Nat
  bytes : Nat
  interval : Nat
  deriving DecidableEq, Repr

/-- A USB 2.0 token (R166). -/
inductive Tok where
  | out | in_ | setup | ping
  deriving DecidableEq, Repr

/-- A USB 2.0 data PID. -/
inductive DPid where
  | data0 | data1 | data2 | mdata
  deriving DecidableEq, Repr

/-- A USB 2.0 handshake. -/
inductive Hsk where
  | ack | nak | stall | nyet | err
  deriving DecidableEq, Repr

/-- What a device or the controller answers in a USB 2.0 transaction. -/
inductive UsbResp where
  | data (p : DPid) (l : List Byte)
  | hs (h : Hsk)
  deriving DecidableEq, Repr

/-- A high-speed packet as the repeater sees it (R165, R166). The 19 bits of a SPLIT are its hub address and the rest. -/
inductive UsbPkt where
  | sof (frame : Nat)
  | token (t : Tok) (addr ep crc5 : Nat)
  | ext (addr ep crc5 : Nat)
  | split (hub rest crc5 : Nat)
  | data (p : DPid) (pidOk : Bool) (l : List Byte)
  | handshake (h : Hsk)
  | sub (attr crc5 : Nat)
  deriving DecidableEq, Repr

/-- Who sends a packet on the repeater path. -/
inductive HsSrc where
  | host (u : US)
  | dev (d : DS)
  deriving DecidableEq, Repr

/-- A setup packet. -/
structure Setup where
  bm : Nat
  req : Nat
  value : Nat
  index : Nat
  length : Nat
  deriving DecidableEq, Repr

/-- How a control transfer ended: completed, refused with STALL, or abandoned before its status stage (R243, R244). -/
inductive CtlEnd where
  | done | stall | abandoned
  deriving DecidableEq, Repr

/-- How the host of a hub is lost (R245). -/
inductive AbsCause where
  | timed | detach | vbusLoss
  deriving DecidableEq, Repr

/-- The answer to a proxy poll (R251): data with its PID or SeqNum, NAK or NRDY, STALL, or a bus error. -/
inductive PollResp where
  | data (seq : Nat) (l : List Byte)
  | nak | stall | busError
  deriving DecidableEq, Repr

/-- What the core regulator answers at BOOT step 8: OPERATION and VOUT_MODE (R65). -/
structure RegBoot where
  operation : Byte
  voutMode : Byte
  deriving DecidableEq, Repr

/-- A digital ball as the boundary register samples and drives it (R48, R495). -/
inductive Ball where
  | psc (p : Port)
  | psf (p : Port)
  | gpio (n : Fin 16)
  | kick (n : Fin 2)
  | sense (n : Fin 2)
  | hpd (i : Fin 2)
  | pwrReq | corePg | ddrResetN
  deriving DecidableEq, Repr

/-- An instruction of the TAP (R495). -/
inductive Jtag where
  | bypass | idcode | samplePreload | extest | clamp | highz | extestPulse | extestTrain
  deriving DecidableEq, Repr

/-- The commands, in the order of spec/opcode_table.json. -/
inductive Instr where
  /-- POR_N_ASSERT (R71). -/
  | porNAssert (cycles : Nat)
  /-- POR_N_RELEASE (R82). -/
  | porNRelease (b : BootIn)
  /-- VDD_AON_BROWNOUT (R71). -/
  | vddAonBrownout (ns : Nat)
  /-- LANE_SUPPLY_LOSS (R379). -/
  | laneSupplyLoss
  /-- SYS_RESET_N_FALL (R72). -/
  | sysResetNFall (cycles : Nat) (dmcOk : Bool)
  /-- SYS_RESET_N_RISE (R83). -/
  | sysResetNRise (b : BootIn)
  /-- BOOT_COMPLETE (R83). -/
  | bootComplete (reg : Option RegBoot)
  /-- UPSTREAM_CONNECT (R82). -/
  | upstreamConnect (u : US)
  /-- RECOV_LOAD (R81). -/
  | recovLoad
  /-- RECOV_FINISH (R81). -/
  | recovFinish (b : BootIn)
  /-- RECOV_ABORT (R81). -/
  | recovAbort
  /-- TRIAL_CONFIRM (R80). -/
  | trialConfirm
  /-- PLANNED_WARM_RESTART (R464). -/
  | plannedWarmRestart (dmcOk : Bool) (b : BootIn)
  /-- VDDIO_1V8_LOSS (R57). -/
  | vddio1v8Loss
  /-- CORE_PG_LOW (R67). -/
  | corePgLow (ns : Nat)
  /-- REF25_LOSS (R70). -/
  | ref25Loss (ns : Nat)
  /-- PLL_UNLOCK (R408). -/
  | pllUnlock (w : Pll)
  /-- XTAL32K_FAIL (R69). -/
  | xtal32kFail (ns : Nat)
  /-- XTAL32K_SWITCH_TO_CRYSTAL (R69). -/
  | xtal32kSwitchToCrystal (stableNs : Nat)
  /-- AON_RC_CALIBRATION (R69). -/
  | aonRcCalibration (ratioE6 : Nat)
  /-- AON_LOW (R408). -/
  | aonLow (ns : Nat)
  /-- CORE_REG_STATUS_POLL (R65). -/
  | coreRegStatusPoll (status : BitVec 16) (iout : Nat) (statusVout statusIout : Byte)
  /-- CORE_REG_TEMP_POLL (R65). -/
  | coreRegTempPoll (temp : Nat)
  /-- OPP_CHANGE_START (R387). -/
  | oppChangeStart (badOrder : Bool)
  /-- OPP_VOLTAGE_CONFIRMED (R66). -/
  | oppVoltageConfirmed (mv : Nat)
  /-- OPP_CONFIRM_TIMEOUT (R66). -/
  | oppConfirmTimeout
  /-- SUSPEND_ENTRY (R380). -/
  | suspendEntry
  /-- SUSPEND_WAKE (R390). -/
  | suspendWake (cls : Fin 16) (port : Nat) (detail : Nat)
  /-- SLEEP_ENTRY (R388). -/
  | sleepEntry (phi : Nat) (dmcOk : Bool) (b : BootIn)
  /-- LOVAGE_CC_SAMPLE (R310). -/
  | lovageCcSample (p : Port) (pattern : CcPattern) (b : BootIn)
  /-- WAKE_N_PULSE (R391). -/
  | wakeNPulse (gap : Nat) (width : Nat) (b : BootIn)
  /-- SPIT_CS_N_WAKE (R389). -/
  | spitCsNWake (b : BootIn)
  /-- RTC_ALARM (R392). -/
  | rtcAlarm (b : BootIn)
  /-- PS_ALERT_N (R343). -/
  | psAlertN (p : Port) (status : BitVec 16) (feFault : Bool) (tries : Nat) (b : BootIn)
  /-- LANE_TIME_EDGE_CORRECTION (R399). -/
  | laneTimeEdgeCorrection
  /-- PKB_SCRUB (R95). -/
  | pkbScrub (word : Nat) (flips : Nat) (overwritten : Bool)
  /-- DRAM_SCRUB_UNIT (R96). -/
  | dramScrubUnit (flips : List (Nat × Nat))
  /-- DRAM_REFRESH_RATE_READ (R85). -/
  | dramRefreshRateRead (mult : Nat)
  /-- SPILL_REFILL (R143). -/
  | spillRefill (epq : Nat)
  /-- SS_HEADER_DOWNSTREAM (R131). -/
  | ssHeaderDownstream (u : US) (h : SsHeader) (crcOk : Bool)
  /-- SS_HEADER_UPSTREAM (R133). -/
  | ssHeaderUpstream (d : DS) (h : SsHeader) (crcOk : Bool)
  /-- DPP_RECEIVED (R139). -/
  | dppReceived (p : Port) (data : List Byte) (crcOk : Bool)
  /-- ITP_RECEIVED (R134). -/
  | itpReceived (u : US) (stamp : Nat)
  /-- DEFERRED_HEADER_DELIVERY (R135). -/
  | deferredHeaderDelivery (d : DS)
  /-- EGRESS_SELECT (R200). -/
  | egressSelect (p : Port) (prio : Nat)
  /-- EGRESS_RECOVERY_CUT (R145). -/
  | egressRecoveryCut (p : Port)
  /-- FUNCTION_WAKE (R148). -/
  | functionWake (d : DS) (h : SsHeader)
  /-- DS_LINK_IDLE_TIMEOUT (R157). -/
  | dsLinkIdleTimeout (d : DS) (isU2 : Bool)
  /-- DS_DEVICE_LPM_REQUEST (R157). -/
  | dsDeviceLpmRequest (d : DS) (isU2 : Bool)
  /-- US_LINK_LPM_REQUEST (R158). -/
  | usLinkLpmRequest (u : US) (isU2 : Bool)
  /-- US_LINK_IDLE_TIMEOUT (R158). -/
  | usLinkIdleTimeout (u : US) (isU2 : Bool)
  /-- DS_LINK_LEAVES_U0 (R160). -/
  | dsLinkLeavesU0 (d : DS) (c : LeaveCause)
  /-- HS_PACKET_REPEAT (R165). -/
  | hsPacketRepeat (f : HsSrc) (k : UsbPkt)
  /-- SSPLIT_NON_PERIODIC (R175). -/
  | ssplitNonPeriodic (u : US) (v : Fin 15) (addr : Nat) (ep : Nat) (dirIn : Bool) (setup : Bool) (ctl : Bool) (low : Bool) (pid : DPid) (data : List Byte) (crcOk : Bool)
  /-- CSPLIT_NON_PERIODIC (R175). -/
  | csplitNonPeriodic (u : US) (v : Fin 15) (addr : Nat) (ep : Nat) (dirIn : Bool)
  /-- TT_TRANSACTION_START (R176). -/
  | ttTransactionStart (d : DS)
  /-- TT_TRANSACTION_END (R176). -/
  | ttTransactionEnd (d : DS) (r : Option UsbResp)
  /-- SSPLIT_PERIODIC (R179). -/
  | ssplitPeriodic (u : US) (v : Fin 15) (addr : Nat) (ep : Nat) (dirIn : Bool) (iso : Bool) (low : Bool) (pid : DPid) (data : List Byte)
  /-- CSPLIT_PERIODIC (R179). -/
  | csplitPeriodic (u : US) (v : Fin 15) (addr : Nat) (ep : Nat) (dirIn : Bool)
  /-- TT_PERIODIC_SLOT_RUN (R179). -/
  | ttPeriodicSlotRun (d : DS) (rs : List (Option UsbResp))
  /-- TT_SLOT_RESULT_EXPIRY (R180). -/
  | ttSlotResultExpiry (d : DS)
  /-- TT_FS_FRAME_START (R178). -/
  | ttFsFrameStart (u : US) (frame : Nat)
  /-- SPILLED_RESULT_FETCH (R177). -/
  | spilledResultFetch (d : DS) (addr : Nat) (ep : Nat)
  /-- BABBLE_DETECT (R187). -/
  | babbleDetect (d : DS) (cutPacket : Bool)
  /-- CLEAR_TT_BUFFER (R184). -/
  | clearTtBuffer (u : US) (wValue : Nat) (wIndex : Nat)
  /-- RESET_TT (R184). -/
  | resetTt (u : US) (wIndex : Nat)
  /-- GET_TT_STATE (R184). -/
  | getTtState (u : US) (wIndex : Nat)
  /-- STOP_TT (R184). -/
  | stopTt (u : US) (wIndex : Nat)
  /-- COMPANION_SET_INTERFACE (R182). -/
  | companionSetInterface (u : US) (alt : Nat)
  /-- PORT_RESET_REQUEST (R171). -/
  | portResetRequest (u : US) (v : Fin 15)
  /-- DEVICE_CHIRP_K (R171). -/
  | deviceChirpK (d : DS) (ns : Nat)
  /-- CHIRP_TIMEOUT (R172). -/
  | chirpTimeout (d : DS)
  /-- PORT_RESET_END (R171). -/
  | portResetEnd (d : DS) (hsIdle : Bool)
  /-- UPSTREAM_USB2_RESET (R173). -/
  | upstreamUsb2Reset (u : US) (chirpAnswered : Bool)
  /-- SS_HOT_RESET (R287). -/
  | ssHotReset (u : US) (v : Fin 15)
  /-- SS_WARM_RESET (R287). -/
  | ssWarmReset (u : US) (v : Fin 15)
  /-- SS_RESET_COMPLETE (R287). -/
  | ssResetComplete (d : DS) (reached : Bool)
  /-- EMPTY_SLOT_RESET_COMPLETE (R288). -/
  | emptySlotResetComplete (u : US) (v : Fin 15)
  /-- DS_LPM_TOKEN (R188). -/
  | dsLpmToken (d : DS) (viaTt : Bool) (addr : Nat) (answer : Option Hsk) (besl : Nat) (remoteWake : Bool)
  /-- CLEAR_PORT_L1 (R188). -/
  | clearPortL1 (u : US) (v : Fin 15)
  /-- L1_DEVICE_WAKE (R188). -/
  | l1DeviceWake (d : DS)
  /-- COMPANION_LPM (R189). -/
  | companionLpm (u : US) (linkState : Nat) (besl : Nat) (remoteWake : Bool)
  /-- COMPANION_L1_EXIT (R190). -/
  | companionL1Exit (u : US) (byDev : Option DS)
  /-- REFILL_TICK (R201). -/
  | refillTick
  /-- OBSERVE_SAMPLE (R211). -/
  | observeSample
  /-- PLACEMENT_AGENT_SAMPLE (R211). -/
  | placementAgentSample (loads : List (Nat × Nat)) (waits : List (Nat × (Nat × Nat)))
  /-- REBUILD_START (R220). -/
  | rebuildStart
  /-- DELTA_LOG_MERGE (R222). -/
  | deltaLogMerge
  /-- EQUINOX_SWAP (R221). -/
  | equinoxSwap
  /-- MINIMAL_SWAP (R224). -/
  | minimalSwap
  /-- HOST_ABSENCE (R245). -/
  | hostAbsence (u : US) (c : AbsCause)
  /-- SOF_KEEPING_START (R249). -/
  | sofKeepingStart (u : US)
  /-- KEPT_SOF (R249). -/
  | keptSof (u : US)
  /-- KEPT_PORT_SUSPEND (R249). -/
  | keptPortSuspend (u : US)
  /-- PROXY_POLL (R251). -/
  | proxyPoll (c : Fin 96) (ep : Nat) (r : PollResp)
  /-- HELD_DEVICE_REMOTE_WAKE (R251). -/
  | heldDeviceRemoteWake (d : DS)
  /-- PROXY_LPM_IDLE (R251). -/
  | proxyLpmIdle (d : DS) (answer : Option Hsk)
  /-- HUB_SET_CONFIGURATION (R247). -/
  | hubSetConfiguration (u : US) (ss : Bool) (addr : Nat) (value : Nat)
  /-- RETURNING_HOST_FIRST_PACKET (R258). -/
  | returningHostFirstPacket (u : US)
  /-- DEVICE_CONTROL_REQUEST (R258). -/
  | deviceControlRequest (u : US) (d : DS) (hubPort : Nat) (ss : Bool) (addr : Nat) (q : Setup) (data : List Byte) (fin : CtlEnd) (eps : List EpDesc)
  /-- ABSORBED_RESET_COMPLETE (R258). -/
  | absorbedResetComplete (d : DS) (hubPort : Nat) (ss : Bool)
  /-- HOLD_EXPIRY (R266). -/
  | holdExpiry (u : US) (b : BootIn)
  /-- FAILOVER_DECISION (R269). -/
  | failoverDecision (u : US)
  /-- FAILOVER_PORT_START (R273). -/
  | failoverPortStart (u : US)
  /-- FAILBACK_AUTO (R276). -/
  | failbackAuto (u : US)
  /-- FAILBACK_DEFER_TIMEOUT (R277). -/
  | failbackDeferTimeout (d : DS)
  /-- MOVE_OLD_OWNER_DISCONNECT (R118). -/
  | moveOldOwnerDisconnect (d : DS)
  /-- MOVE_DRAIN_COMPLETE (R118). -/
  | moveDrainComplete (d : DS)
  /-- HUB_RECONNECT (R108). -/
  | hubReconnect (u : US)
  /-- GET_PORT_VENDOR_STATUS (R129). -/
  | getPortVendorStatus (u : US) (ss : Bool) (wIndex : Nat)
  /-- CLEAR_PORT_VENDOR_STATUS (R129). -/
  | clearPortVendorStatus (u : US) (ss : Bool) (wIndex : Nat) (mask : BitVec 16)
  /-- SET_PORT_POWER (R113). -/
  | setPortPower (u : US) (ss : Bool) (v : Fin 15)
  /-- CLEAR_PORT_POWER (R113). -/
  | clearPortPower (u : US) (ss : Bool) (v : Fin 15)
  /-- SET_HUB_DEPTH (R131). -/
  | setHubDepth (u : US) (depth : Nat)
  /-- SET_PORT_U1_U2_TIMEOUT (R157). -/
  | setPortU1U2Timeout (u : US) (v : Fin 15) (isU2 : Bool) (value : Byte)
  /-- SET_PORT_REMOTE_WAKE_MASK (R295). -/
  | setPortRemoteWakeMask (u : US) (v : Fin 15) (mask : BitVec 3)
  /-- CLEAR_PORT_CHANGE_FEATURE (R298). -/
  | clearPortChangeFeature (u : US) (ss : Bool) (v : Fin 15) (c : Change)
  /-- HUB_STATUS_POLL (R298). -/
  | hubStatusPoll (u : US) (ss : Bool)
  /-- PORT_SUSPEND_REQUEST (R290). -/
  | portSuspendRequest (u : US) (ss : Bool) (v : Fin 15)
  /-- USB2_PORT_RESUME_REQUEST (R293). -/
  | usb2PortResumeRequest (u : US) (v : Fin 15)
  /-- USB2_PORT_RESUME_END (R293). -/
  | usb2PortResumeEnd (d : DS)
  /-- SS_PORT_RESUME_REQUEST (R293). -/
  | ssPortResumeRequest (u : US) (v : Fin 15)
  /-- COMPANION_UPSTREAM_SUSPEND (R291). -/
  | companionUpstreamSuspend (u : US)
  /-- SS_UPSTREAM_U3 (R291). -/
  | ssUpstreamU3 (u : US)
  /-- HOST_RESUME_K (R292). -/
  | hostResumeK (u : US) (ns : Nat)
  /-- HOST_U3_EXIT (R292). -/
  | hostU3Exit (u : US)
  /-- DEVICE_REMOTE_WAKE (R294). -/
  | deviceRemoteWake (d : DS) (ss : Bool) (ns : Nat)
  /-- HUB_EVENT_REMOTE_WAKE (R295). -/
  | hubEventRemoteWake (d : DS) (ss : Bool) (ev : WakeEvent)
  /-- SS_RECEIVER_DETECT_START (R285). -/
  | ssReceiverDetectStart (d : DS)
  /-- USB2_CONNECT (R285). -/
  | usb2Connect (d : DS) (low : Bool) (ns : Nat)
  /-- SS_LINK_UP (R285). -/
  | ssLinkUp (d : DS) (gen2 : Bool)
  /-- SS_TRAINING_FAIL (R286). -/
  | ssTrainingFail (d : DS)
  /-- IDENTITY_PROBE (R127). -/
  | identityProbe (d : DS) (id : DevId)
  /-- USB2_DISCONNECT (R289). -/
  | usb2Disconnect (d : DS) (ns : Nat)
  /-- SS_DISCONNECT (R289). -/
  | ssDisconnect (d : DS) (noTerm : Bool)
  /-- CC_PATTERN_CHANGE (R305). -/
  | ccPatternChange (p : Port) (pattern : CcPattern) (flip : Bool)
  /-- CC_ATTACH_DEBOUNCE (R306). -/
  | ccAttachDebounce (p : Port) (vbs : Nat) (wet : Option (Fin 4 × Nat))
  /-- CC_DETACH_DEBOUNCE (R306). -/
  | ccDetachDebounce (p : Port)
  /-- ERROR_RECOVERY_END (R306). -/
  | errorRecoveryEnd (p : Port)
  /-- DRP_TOGGLE (R308). -/
  | drpToggle (u : US)
  /-- DRP_ATTACH_DEBOUNCE (R308). -/
  | drpAttachDebounce (u : US) (vbs : Nat)
  /-- US_PARTNER_RP_CHANGE (R304). -/
  | usPartnerRpChange (u : US) (level : Fin 4)
  /-- US_SINK_VBUS_LOSS (R309). -/
  | usSinkVbusLoss (u : US)
  /-- HARDWARE_DETACH_GUARD (R302). -/
  | hardwareDetachGuard (p : Port)
  /-- FAST_REMOVAL (R349). -/
  | fastRemoval (p : Port) (vbs : Nat)
  /-- VCONN_STABLE (R313). -/
  | vconnStable (p : Port)
  /-- DISCOVER_IDENTITY_RETRY (R313). -/
  | discoverIdentityRetry (p : Port)
  /-- DISCOVERY_CUTOFF (R313). -/
  | discoveryCutoff (p : Port)
  /-- PD_MESSAGE_RECEIVED (R314). -/
  | pdMessageReceived (p : Port) (sop : Fin 5) (header : BitVec 16) (data : List Byte) (crcOk : Bool)
  /-- PD_TX_HANDOVER (R320). -/
  | pdTxHandover (p : Port)
  /-- PD_TX_GOODCRC_TIMEOUT (R315). -/
  | pdTxGoodcrcTimeout (p : Port)
  /-- PD_TX_DONE (R321). -/
  | pdTxDone (p : Port)
  /-- THYME_NOTICE (R301). -/
  | thymeNotice (p : Port)
  /-- HARD_RESET_RECEIVED (R327). -/
  | hardResetReceived (p : Port)
  /-- HARD_RESET_SENT (R347). -/
  | hardResetSent (p : Port)
  /-- CABLE_RESET_RECEIVED (R327). -/
  | cableResetReceived (u : US)
  /-- SOFT_RESET_RECEIVED (R314). -/
  | softResetReceived (p : Port)
  /-- THYME_ACTIVATION (R12). -/
  | thymeActivation (t : Fin 6)
  /-- GET_REVISION (R325). -/
  | getRevision (p : Port)
  /-- PD_REQUEST (R335). -/
  | pdRequest (p : Port)
  /-- BUDGET_REDUCTION (R339). -/
  | budgetReduction (p : Port)
  /-- REDUCTION_RESPONSE_TIMEOUT (R339). -/
  | reductionResponseTimeout (p : Port)
  /-- SOURCE_CAPS_SEND (R332). -/
  | sourceCapsSend (p : Port)
  /-- SOURCE_CAPS_RETRY (R337). -/
  | sourceCapsRetry (p : Port)
  /-- SINK_CAPABILITIES_RECEIVED (R338). -/
  | sinkCapabilitiesReceived (p : Port)
  /-- EPR_MODE_ENTER (R333). -/
  | eprModeEnter (p : Port)
  /-- EPR_MODE_EXIT (R333). -/
  | eprModeExit (p : Port)
  /-- EPR_KEEPALIVE (R336). -/
  | eprKeepalive (p : Port)
  /-- PPS_TIMEOUT (R336). -/
  | ppsTimeout (p : Port)
  /-- EPR_KEEPALIVE_TIMEOUT (R336). -/
  | eprKeepaliveTimeout (p : Port)
  /-- GET_SINK_CAP_ON_DS (R350). -/
  | getSinkCapOnDs (d : DS)
  /-- PR_SWAP_RECEIVED (R351). -/
  | prSwapReceived (p : Port)
  /-- DR_SWAP_RECEIVED (R282). -/
  | drSwapReceived (p : Port)
  /-- VCONN_SWAP_RECEIVED (R312). -/
  | vconnSwapReceived (p : Port)
  /-- SWAP_RESPONSE_RECEIVED (R353). -/
  | swapResponseReceived (u : US)
  /-- SWAP_WAIT_RETRY (R353). -/
  | swapWaitRetry (u : US) (jitter : Fin 51)
  /-- PR_SWAP_SEQUENCE (R352). -/
  | prSwapSequence (u : US)
  /-- DATA_ROLE_SWAP_REQUEST (R282). -/
  | dataRoleSwapRequest (u : US)
  /-- FRS_SIGNAL (R355). -/
  | frsSignal (u : US)
  /-- FR_SWAP_RECEIVED (R355). -/
  | frSwapReceived (u : US)
  /-- FR_SWAP_INIT_TIMEOUT (R355). -/
  | frSwapInitTimeout (u : US)
  /-- TRANSITION_LIMITS_WRITE (R341). -/
  | transitionLimitsWrite (p : Port)
  /-- ADC_CONVERSION (R342). -/
  | adcConversion (volts : List Nat)
  /-- TRANSITION_TIMEOUT (R341). -/
  | transitionTimeout (p : Port)
  /-- VBUS_OVP_TRIP (R344). -/
  | vbusOvpTrip (p : Port)
  /-- VBUS_UVP_TRIP (R344). -/
  | vbusUvpTrip (p : Port)
  /-- PSF_RISE (R346). -/
  | psfRise (p : Port) (status : Byte)
  /-- STAGE_OC_SHUTDOWN (R340). -/
  | stageOcShutdown (p : Port)
  /-- STAGE_STATUS_POLL (R344). -/
  | stageStatusPoll (p : Port) (status : BitVec 16) (tries : Nat)
  /-- STAGE_VOUT_IOUT_POLL (R344). -/
  | stageVoutIoutPoll (p : Port) (vout : Nat) (iout : Nat) (tries : Nat)
  /-- STAGE_TEMP_POLL (R344). -/
  | stageTempPoll (p : Port) (temp : Int) (tries : Nat)
  /-- PSI2C_BUS_STUCK (R408). -/
  | psi2cBusStuck
  /-- HARD_RESET_VBUS_OFF (R347). -/
  | hardResetVbusOff (p : Port)
  /-- HARD_RESET_RECOVER (R347). -/
  | hardResetRecover (p : Port)
  /-- GUARD_READING (R359). -/
  | guardReading (p : Port) (first : List Nat) (again : List Nat) (b : BootIn)
  /-- GUARD_WEEK_END (R364). -/
  | guardWeekEnd
  /-- DP_VDM_ACK (R368). -/
  | dpVdmAck (d : DS)
  /-- DP_ENTRY_START (R368). -/
  | dpEntryStart (d : DS)
  /-- DP_VDM_TIMEOUT (R368). -/
  | dpVdmTimeout (d : DS)
  /-- DP_ATTENTION (R371). -/
  | dpAttention (d : DS)
  /-- HPD_TIMER (R371). -/
  | hpdTimer (i : Fin 2)
  /-- DP_EXIT_MODE (R372). -/
  | dpExitMode (d : DS)
  /-- KICK_PULSE_END (R376). -/
  | kickPulseEnd (i : Fin 2)
  /-- DRAWER_REPORT (R376). -/
  | drawerReport (i : Fin 2)
  /-- LIO_SENSE_CHANGE (R375). -/
  | lioSenseChange (n : Fin 2) (level : Bool) (b : BootIn)
  /-- GPIO_EDGE (R374). -/
  | gpioEdge (n : Fin 16) (rising : Bool)
  /-- FAULT_LATCH (R409). -/
  | faultLatch (b : Block) (src : Fin 32) (unit : Nat) (persistent : Bool)
  /-- LEVEL_FAULT_REPEAT (R408). -/
  | levelFaultRepeat (b : Block) (src : Fin 32) (lasts : Bool)
  /-- SAGE_LOCKSTEP_MISMATCH (R11). -/
  | sageLockstepMismatch
  /-- SAGE_WATCHDOG (R408). -/
  | sageWatchdog (ms : Nat)
  /-- SAGE_TASK_LATE (R408). -/
  | sageTaskLate (service : Nat)
  /-- CHERVIL_HANG (R408). -/
  | chervilHang (c : Fin 8) (us : Nat)
  /-- THYME_HANG (R408). -/
  | thymeHang (t : Fin 6) (us : Nat)
  /-- FAB_ARB_STALL (R408). -/
  | fabArbStall (us : Nat)
  /-- TJ_SAMPLE (R511). -/
  | tjSample (tenths : Int)
  /-- SAFE_ENTRY (R416). -/
  | safeEntry (dmcOk : Bool)
  /-- SAFE_EXIT (R419). -/
  | safeExit (b : BootIn)
  /-- QUIET_PERIOD_END (R414). -/
  | quietPeriodEnd (b : Block) (reads : List (Nat × (Word × Word × Word)))
  /-- FAULT_AUTO_ACK (R410). -/
  | faultAutoAck (b : Block)
  /-- FLT_ACK_WRITE (R404). -/
  | fltAckWrite (b : Block) (v : Word)
  /-- FLT_FORCE_WRITE (R421). -/
  | fltForceWrite (b : Block) (v : Word)
  /-- AVAILABILITY_CHECKPOINT (R36). -/
  | availabilityCheckpoint
  /-- SPIT_FRAME (R434). -/
  | spitFrame (setup : Nat) (instr : Byte) (addr : Word) (data : List Byte) (reads : Nat) (b : BootIn)
  /-- RING_TAIL_WRITE (R424). -/
  | ringTailWrite (r : Fin 16) (v : BitVec 16)
  /-- RING_HEAD_WRITE (R424). -/
  | ringHeadWrite (r : Fin 16) (v : BitVec 16)
  /-- RING_CTRL_RUN (R435). -/
  | ringCtrlRun (r : Fin 16) (on : Bool)
  /-- RING_CTRL_RESET (R438). -/
  | ringCtrlReset (r : Fin 16)
  /-- RING_GEOM_WRITE (R423). -/
  | ringGeomWrite (r : Fin 16) (base : BitVec 10) (log2 : BitVec 4)
  /-- RING_ASSIGN_WRITE (R435). -/
  | ringAssignWrite (v : BitVec 6)
  /-- IRQ_STATUS_CLEAR (R435). -/
  | irqStatusClear (v : BitVec 12)
  /-- PRIO_DOORBELL (R435). -/
  | prioDoorbell (n : BitVec 5)
  /-- REGISTER_WRITE (R435). -/
  | registerWrite (addr : Word) (v : Word) (b : BootIn)
  /-- COMMAND_TAKE (R428). -/
  | commandTake (badWord : Option Nat)
  /-- CPL0_ENTRY_EXPIRY (R432). -/
  | cpl0EntryExpiry
  /-- I2CT_STATUS (R436). -/
  | i2ctStatus (addr : BitVec 7) (pec : Bool)
  /-- I2CT_CMD4_SUBMIT (R436). -/
  | i2ctCmd4Submit (addr : BitVec 7) (data : List Byte) (pec : Bool)
  /-- I2CT_CPL4_FETCH (R436). -/
  | i2ctCpl4Fetch (addr : BitVec 7) (pec : Bool)
  /-- I2CT_CMD0_SUBMIT (R436). -/
  | i2ctCmd0Submit (addr : BitVec 7) (data : List Byte) (pec : Bool)
  /-- I2CT_CPL0_FETCH (R436). -/
  | i2ctCpl0Fetch (addr : BitVec 7) (pec : Bool)
  /-- I2CT_BUS_TIMEOUT (R436). -/
  | i2ctBusTimeout (ms : Nat)
  /-- LMF_CMD0_SUBMIT (R437). -/
  | lmfCmd0Submit (u : US) (wLength : Nat) (data : List Byte)
  /-- LMF_CPL0_FETCH (R437). -/
  | lmfCpl0Fetch (u : US) (wLength : Nat)
  /-- LMF_RING_STATUS (R437). -/
  | lmfRingStatus (u : US)
  /-- LMF_RING_RESET (R437). -/
  | lmfRingReset (u : US)
  /-- LMF_BULK_OUT (R437). -/
  | lmfBulkOut (u : US) (packet : List Byte) (last : Bool)
  /-- LMF_BULK_IN (R437). -/
  | lmfBulkIn (u : US)
  /-- LMF_INTERRUPT_REPORT (R437). -/
  | lmfInterruptReport (u : US)
  /-- LMF_SET_CONFIGURATION (R439). -/
  | lmfSetConfiguration (u : US)
  /-- IDENTIFY (R449). -/
  | identify (r : Req)
  /-- MODE_REQUEST (R383). -/
  | modeRequest (r : Req)
  /-- MODE_STATUS (R449). -/
  | modeStatus (r : Req)
  /-- LANE_TIME_READ (R449). -/
  | laneTimeRead (r : Req)
  /-- WAKE_RECORD_READ (R449). -/
  | wakeRecordRead (r : Req)
  /-- PORT_ASSIGN (R451). -/
  | portAssign (r : Req)
  /-- PORT_STATUS (R452). -/
  | portStatus (r : Req)
  /-- GUARD_RULE_SET (R450). -/
  | guardRuleSet (r : Req)
  /-- SCHED_SET (R453). -/
  | schedSet (r : Req)
  /-- SHAPER_SET (R204). -/
  | shaperSet (r : Req)
  /-- POLICER_SET (R206). -/
  | policerSet (r : Req)
  /-- OBSERVE_READ (R454). -/
  | observeRead (r : Req)
  /-- PLACE_STATUS (R455). -/
  | placeStatus (r : Req)
  /-- PLACE_PIN (R231). -/
  | placePin (r : Req)
  /-- PLACE_REBUILD (R232). -/
  | placeRebuild (r : Req)
  /-- VIGIL_POLICY_SET (R238). -/
  | vigilPolicySet (r : Req)
  /-- VIGIL_ARM (R239). -/
  | vigilArm (r : Req)
  /-- VIGIL_STATUS (R457). -/
  | vigilStatus (r : Req)
  /-- CAPTURE_READ (R458). -/
  | captureRead (r : Req)
  /-- FAILOVER_SET (R268). -/
  | failoverSet (r : Req)
  /-- FAILBACK (R276). -/
  | failback (r : Req)
  /-- POWER_BUDGET_SET (R330). -/
  | powerBudgetSet (r : Req)
  /-- PORT_POWER_POLICY (R329). -/
  | portPowerPolicy (r : Req)
  /-- CONTRACT_STATUS (R460). -/
  | contractStatus (r : Req)
  /-- ROLE_SWAP (R351). -/
  | roleSwap (r : Req)
  /-- GUARD_STATUS (R365). -/
  | guardStatus (r : Req)
  /-- DP_ROUTE (R366). -/
  | dpRoute (r : Req)
  /-- DRAWER_KICK (R376). -/
  | drawerKick (r : Req)
  /-- FAULT_READ (R462). -/
  | faultRead (r : Req)
  /-- FAULT_ACK (R462). -/
  | faultAck (r : Req)
  /-- FAULT_INJECT (R421). -/
  | faultInject (r : Req)
  /-- FENCE (R415). -/
  | fence (r : Req)
  /-- UNFENCE (R415). -/
  | unfence (r : Req)
  /-- ALMANAC_READ (R463). -/
  | almanacRead (r : Req)
  /-- ALMANAC_WRITE (R463). -/
  | almanacWrite (r : Req)
  /-- ALMANAC_WEAR (R463). -/
  | almanacWear (r : Req)
  /-- FW_STAGE (R464). -/
  | fwStage (r : Req)
  /-- FW_ACTIVATE (R464). -/
  | fwActivate (r : Req)
  /-- FW_STATUS (R464). -/
  | fwStatus (r : Req)
  /-- LOOPBACK (R487). -/
  | loopback (r : Req)
  /-- ECHO (R465). -/
  | echo (r : Req)
  /-- PATTERN (R493). -/
  | pattern (r : Req)
  /-- REG_READ (R466). -/
  | regRead (r : Req)
  /-- REG_WRITE (R467). -/
  | regWrite (r : Req)
  /-- LOOPBACK_END (R487). -/
  | loopbackEnd (unit : Fin 19) (errors : Nat) (sink : Bool)
  /-- PATTERN_COMPLETE (R493). -/
  | patternComplete (dmc : Bool) (errors : Nat) (corrected : Nat) (first : Nat)
  /-- PKB_PATTERN_CELL_FREE (R494). -/
  | pkbPatternCellFree (cell : Nat) (errors : Nat) (corrected : Nat) (first : Nat)
  /-- PKB_PATTERN_TIMEOUT (R494). -/
  | pkbPatternTimeout
  /-- REMOTE_LOOPBACK_REQUEST (R488). -/
  | remoteLoopbackRequest (u : US)
  /-- COMPLIANCE_ENTRY (R490). -/
  | complianceEntry (u : US) (v : Option (Fin 15))
  /-- COMPLIANCE_PING_LFPS (R490). -/
  | compliancePingLfps (p : Port)
  /-- USB2_PORT_TEST (R491). -/
  | usb2PortTest (u : US) (v : Fin 15) (mode : Nat)
  /-- USB2_TEST_MODE_UPSTREAM (R491). -/
  | usb2TestModeUpstream (u : US) (mode : Nat)
  /-- BIST_MESSAGE (R492). -/
  | bistMessage (p : Port)
  /-- BIST_CARRIER_END (R492). -/
  | bistCarrierEnd (p : Port)
  /-- JTAG_INSTRUCTION (R496). -/
  | jtagInstruction (i : Jtag) (trst : Bool) (cells : List (Ball × Bool))
  /-- REF25_RETURN (R396). -/
  | ref25Return
  /-- SS_PLL_RELOCK (R408). -/
  | ssPllRelock
  /-- UPSTREAM_LINK_TRAINED (R153). -/
  | upstreamLinkTrained (u : US) (gen2 : Bool) (lanes : Nat)
  /-- UPSTREAM_LINK_INACTIVE (R245). -/
  | upstreamLinkInactive (u : US) (noTerm : Bool)
  /-- UPSTREAM_SS_RESET (R263). -/
  | upstreamSsReset (u : US) (warm : Bool)
  /-- LINK_COMMAND_RECEIVED (R144). -/
  | linkCommandReceived (p : Port) (c : LinkCmd)
  /-- HUB_SET_FEATURE (R158). -/
  | hubSetFeature (u : US) (f : HubFeature) (on : Bool)
  /-- HOST_RESUME_EOP (R292). -/
  | hostResumeEop (u : US)
  /-- HOST_CHIRP_KJ (R173). -/
  | hostChirpKj (u : US) (ns : Nat)
  /-- U3_EXIT_COMPLETE (R292). -/
  | u3ExitComplete (d : DS) (reached : Bool)
  /-- U3_ENTRY_COMPLETE (R290). -/
  | u3EntryComplete (d : DS) (acked : Bool)
  /-- PD_SENDER_RESPONSE_TIMEOUT (R326). -/
  | pdSenderResponseTimeout (p : Port)
  deriving DecidableEq, Repr

end Sys2Proof
end

