-- ==== Sys2Proof/Decode.lean ====
section
/-! DEFINITION. The block takes commands, not instruction words: spec/opcode_table.json gives no row any bits, so no word spells a
command. -/

set_option Elab.async false

namespace Sys2Proof

/-- The command that a word spells by the table's bits: none, since no row has any. -/
def decodeTableWord (_nbits _w : Nat) : Option Instr := none

end Sys2Proof
end

