-- ==== Sys2Proof/Config.lean ====
section
/-! DEFINITION. What the part's manufacture fixes, and the free values: constants without a body, so that no proof can see
what they are (assumption log, entries 2 and 3). -/

set_option Elab.async false

namespace Sys2Proof

/-- The grade of the part: true for I, false for C (R449, R511). Fixed at manufacture. -/
opaque Config.gradeI : Bool

/-- Which of the capacities of R84 the board fits: 0 for 2 GB, 1 for 4 GB, 2 for 8 GB. -/
opaque Config.dramFit : Fin 3

/-- The DRAM capacity in MB that IDENTIFY returns (R84, R449). -/
def Config.dramMb : BitVec 16 := BitVec.ofNat 16 (2048 * 2 ^ Config.dramFit.val)

/-- Byte i of the serial number that IDENTIFY returns (R449). Fixed at manufacture. -/
opaque Config.serial : Nat → BitVec 8

/-- The ContainerID of a virtual hub, from the serial number's bytes and the upstream port: R112 leaves the derivation open. -/
opaque Config.containerId : List (BitVec 8) → Nat → BitVec 128

/-- A truth value that the spec leaves open, one for each number of the state's free-value counter. -/
opaque Config.freeBool : Nat → Bool

/-- A byte that the spec leaves open, one for each number of the state's free-value counter. -/
opaque Config.freeByte : Nat → BitVec 8

/-- A word that the spec leaves open, one for each number of the state's free-value counter. -/
opaque Config.freeWord : Nat → BitVec 32

/-- A number that the spec leaves open, one for each number of the state's free-value counter. -/
opaque Config.freeNat : Nat → Nat

/-- The credits of a fabric credit pool beyond the first, which R17 leaves open: by virtual channel, and whether the pool is of a
response sub-channel. -/
opaque Config.fabCredits : Nat → Bool → Nat

/-- The Vigil context whose data a DRAM unit of the Vigil region holds, modulo 96: R91 leaves the place of each context open. -/
opaque Config.ctxOfUnit : Nat → Nat

end Sys2Proof
end

