-- ==== Sys2Proof/Machine/Bytes.lean ====
section
/-! DEFINITION. Byte strings, sparse memories in their canonical form, and the checks of the spec's formats: CRC-32C
(R426), CRC-8 (R89), SHA-256 and ECDSA P-256 (R78). -/

set_option Elab.async false

namespace Sys2Proof.Machine

/-! ### Sparse memories -/

/-- What a sparse memory reads at a key: the listed value, or the value an unlisted key reads as. -/
def sparseGet {β : Type} (d : β) : List (Nat × β) → Nat → β
  | [], _ => d
  | (k, v) :: t, a => if a = k then v else sparseGet d t a

/-- A write that keeps the canonical form: keys strictly rise and no entry equals the unlisted value. -/
def sparseSet {β : Type} [DecidableEq β] (d : β) : List (Nat × β) → Nat → β → List (Nat × β)
  | [], a, b => if b = d then [] else [(a, b)]
  | (k, v) :: t, a, b =>
    if a < k then (if b = d then (k, v) :: t else (a, b) :: (k, v) :: t)
    else if a = k then (if b = d then t else (k, b) :: t)
    else (k, v) :: sparseSet d t a b

/-- The canonical form of a sparse memory, every key at or above a bound. -/
def sparseWfFrom {β : Type} [DecidableEq β] (d : β) : Nat → List (Nat × β) → Bool
  | _, [] => true
  | lo, (k, v) :: t => decide (lo ≤ k) && decide (v ≠ d) && sparseWfFrom d (k + 1) t

/-- The canonical form of a sparse memory. -/
def sparseWf {β : Type} [DecidableEq β] (d : β) (m : List (Nat × β)) : Bool := sparseWfFrom d 0 m

/-- Bytes of a byte memory from an address on. -/
def memRead (d : Byte) (m : List (Nat × Byte)) (a : Nat) : Nat → List Byte
  | 0 => []
  | n + 1 => sparseGet d m a :: memRead d m (a + 1) n

/-- A byte string written at an address. -/
def memWrite (d : Byte) (m : List (Nat × Byte)) (a : Nat) : List Byte → List (Nat × Byte)
  | [] => m
  | b :: t => memWrite d (sparseSet d m a b) (a + 1) t

/-! ### Tables keyed by a number -/

/-- The entry of a table under a key. -/
def tabGet {β : Type} (t : List (Nat × β)) (k : Nat) : Option β :=
  match t with
  | [] => none
  | (j, v) :: r => if k = j then some v else tabGet r k

/-- A table without the entries of a key. -/
def tabDel {β : Type} (t : List (Nat × β)) (k : Nat) : List (Nat × β) := t.filter (fun e => e.1 ≠ k)

/-- A table with one entry put under a key, keys in ascending order. -/
def tabPut {β : Type} : List (Nat × β) → Nat → β → List (Nat × β)
  | [], k, v => [(k, v)]
  | (j, w) :: r, k, v =>
    if k < j then (k, v) :: (j, w) :: r
    else if k = j then (k, v) :: r
    else (j, w) :: tabPut r k v

/-! ### Byte strings -/

/-- A number as w little-endian bytes; higher bits are dropped. -/
def le (w n : Nat) : List Byte :=
  match w with
  | 0 => []
  | k + 1 => BitVec.ofNat 8 n :: le k (n / 256)

/-- The number that a little-endian byte string spells. -/
def leNat : List Byte → Nat
  | [] => 0
  | b :: t => b.toNat + 256 * leNat t

/-- The number that a big-endian byte string spells. -/
def beNat (l : List Byte) : Nat := l.foldl (fun n b => n * 256 + b.toNat) 0

/-- Bytes [off, off + w) of a string, absent bytes reading as 0. -/
def slice (l : List Byte) (off w : Nat) : List Byte :=
  let x := (l.drop off).take w
  x ++ List.replicate (w - x.length) 0

/-- The little-endian field of w bytes at an offset. -/
def fld (l : List Byte) (off w : Nat) : Nat := leNat (slice l off w)

/-- Bit i of a number. -/
def bit (n i : Nat) : Bool := (n / 2 ^ i) % 2 = 1

/-- The field [hi:lo] of a number. -/
def bits (n hi lo : Nat) : Nat := (n / 2 ^ lo) % 2 ^ (hi + 1 - lo)

/-- A truth value as a bit. -/
def b2n (b : Bool) : Nat := if b then 1 else 0

/-- A list cut into pieces of at most n elements, on fuel. -/
def chunksFuel {β : Type} (n : Nat) : Nat → List β → List (List β)
  | 0, _ => []
  | f + 1, l => if l.isEmpty then [] else l.take n :: chunksFuel n f (l.drop n)

/-- A list cut into pieces of at most n elements; the empty list is one empty piece. -/
def chunks {β : Type} (n : Nat) (l : List β) : List (List β) :=
  if l.isEmpty then [[]] else chunksFuel n l.length l

/-! ### CRC-32C (R426) and CRC-8 (R89) -/

/-- One bit of the reflected Castagnoli CRC. -/
def crcStep (c : Nat) : Nat := if c % 2 = 1 then (c / 2) ^^^ 0x82F63B78 else c / 2

/-- One byte of CRC-32C. -/
def crcByte (c : Nat) (b : Byte) : Nat :=
  crcStep (crcStep (crcStep (crcStep (crcStep (crcStep (crcStep (crcStep (c ^^^ b.toNat))))))))

/-- CRC-32C: polynomial 0x1EDC_6F41 bit-reflected, preset to ones, inverted (R426). -/
def crc32c (l : List Byte) : Nat := (l.foldl crcByte 0xFFFFFFFF) ^^^ 0xFFFFFFFF

/-- One bit of a CRC-8 with polynomial 0x07, the highest bit first. -/
def crc8Step (c : Nat) : Nat := if c ≥ 128 then (c * 2 % 256) ^^^ 0x07 else c * 2

/-- CRC-8, polynomial 0x07 (R89). PRESUMED: preset to zero, not inverted, the highest bit of each byte first (log entry 91). -/
def crc8 (l : List Nat) : Nat := l.foldl (fun c b => (crc8Step^[8]) (c ^^^ b)) 0

/-! ### SHA-256 (R78) -/

/-- The greatest r below 2 ^ f, above a start, whose k-th power is at most n, by its bits from the highest on. -/
def rootFrom (k n : Nat) : Nat → Nat → Nat
  | 0, r => r
  | f + 1, r => rootFrom k n f (if (r + 2 ^ f) ^ k ≤ n then r + 2 ^ f else r)

/-- A number has no divisor between 2 and itself. -/
def isPrime (n : Nat) : Bool := decide (2 ≤ n) && (List.range n).all (fun d => decide (d < 2) || n % d != 0)

/-- The primes below a bound. -/
def primesBelow (n : Nat) : List Nat := (List.range n).filter isPrime

/-- The first 32 bits behind the point of the k-th root of a number below 512. -/
def rootFrac (k n : Nat) : Nat := rootFrom k (n * 2 ^ (32 * k)) 37 0 % 2 ^ 32

/-- The round constants of SHA-256: the cube roots of the first 64 primes. -/
def shaK : List Nat := (primesBelow 312).map (rootFrac 3)

/-- The initial hash of SHA-256: the square roots of the first eight primes. -/
def shaH0 : List Nat := (primesBelow 20).map (rootFrac 2)

/-- The exclusive or of a word turned right by each amount of a list. -/
def turns (l : List Nat) (x : Nat) : Nat :=
  l.foldl (fun a n => a ^^^ ((x >>> n ||| x <<< (32 - n)) % 2 ^ 32)) 0

/-- The message schedule, newest word first, extended by n words. -/
def shaSched : Nat → List Nat → List Nat
  | 0, w => w
  | n + 1, w =>
    let old := w.getD 14 0
    let late := w.getD 1 0
    shaSched n ((w.getD 15 0 + w.getD 6 0 + (turns [7, 18] old ^^^ old >>> 3) + (turns [17, 19] late ^^^ late >>> 10)) % 2 ^ 32 :: w)

/-- Of two words the bits that a third selects: the first's where it is one. -/
def shaPick (m x y : Nat) : Nat := y ^^^ (m &&& (x ^^^ y))

/-- One round: the working words as two halves of four, newest first, with the round's constant and schedule word added. -/
def shaRound (h : List Nat × List Nat) (kw : Nat) : List Nat × List Nat :=
  let p := h.1
  let q := h.2
  let mix := q.getD 3 0 + kw + turns [6, 11, 25] (q.getD 0 0) + shaPick (q.getD 0 0) (q.getD 1 0) (q.getD 2 0)
  let major := shaPick (p.getD 0 0 ^^^ p.getD 1 0) (p.getD 2 0) (p.getD 1 0)
  (((mix + turns [2, 13, 22] (p.getD 0 0) + major) % 2 ^ 32) :: p.take 3, ((p.getD 3 0 + mix) % 2 ^ 32) :: q.take 3)

/-- One 64-byte block into the hash. -/
def shaBlock (h : List Nat) (blk : List Byte) : List Nat :=
  let w := (shaSched 48 ((chunks 4 blk).map beNat).reverse).reverse
  let z := (List.zipWith (· + ·) shaK w).foldl shaRound (h.take 4, h.drop 4)
  List.zipWith (fun a b => (a + b) % 2 ^ 32) h (z.1 ++ z.2)

/-- A number as w big-endian bytes. -/
def be (w n : Nat) : List Byte := (le w n).reverse

/-- SHA-256 of a byte string, 32 bytes. -/
def sha256 (l : List Byte) : List Byte :=
  let pad := (119 - l.length % 64) % 64
  let m := l ++ [0x80] ++ List.replicate pad 0 ++ be 8 (8 * l.length)
  ((chunks 64 m).foldl shaBlock shaH0).flatMap (be 4)

/-! ### ECDSA over P-256 (R78, step 3) -/

/-- The field prime of P-256. -/
def ecP : Nat := 0xffffffff00000001000000000000000000000000ffffffffffffffffffffffff
/-- The group order of P-256. -/
def ecN : Nat := 0xffffffff00000000ffffffffffffffffbce6faada7179e84f3b9cac2fc632551
/-- The curve constant b of P-256. -/
def ecB : Nat := 0x5ac635d8aa3a93e7b3ebbd55769886bc651d06b0cc53b0f63bce3c3e27d2604b
/-- The base point of P-256. -/
def ecG : Nat × Nat :=
  (0x6b17d1f2e12c4247f8bce6e563a440f277037d812deb33a0f4a13945d898c296,
   0x4fe342e2fe1a7f9b8ee7eb4a7c0f9e162bce33576b315ececbb6406837bf51f5)

/-- Modular power by squaring, on 256 bits of exponent as fuel. -/
def powMod (m : Nat) : Nat → Nat → Nat → Nat
  | 0, _, _ => 1 % m
  | f + 1, b, e =>
    let r := powMod m f (b * b % m) (e / 2)
    if e % 2 = 1 then r * b % m else r

/-- The inverse modulo a prime. -/
def invMod (m x : Nat) : Nat := powMod m 256 (x % m) (m - 2)

/-- Addition on P-256; none is the point at infinity. -/
def ecAdd (p q : Option (Nat × Nat)) : Option (Nat × Nat) :=
  match p, q with
  | none, q => q
  | p, none => p
  | some (x1, y1), some (x2, y2) =>
    if x1 = x2 ∧ (y1 + y2) % ecP = 0 then none
    else
      let l := if x1 = x2 then (3 * x1 * x1 + 3 * (ecP - 1)) % ecP * 1
               else (y2 + ecP - y1) % ecP
      let d := if x1 = x2 then 2 * y1 % ecP else (x2 + ecP - x1) % ecP
      let s := l * invMod ecP d % ecP
      let x3 := (s * s + 2 * ecP - x1 - x2) % ecP
      some (x3, (s * (x1 + ecP - x3) + ecP - y1) % ecP)

/-- Scalar multiplication, on fuel. -/
def ecMul : Nat → Nat → Option (Nat × Nat) → Option (Nat × Nat)
  | 0, _, _ => none
  | f + 1, k, p =>
    let r := ecMul f (k / 2) (ecAdd p p)
    if k % 2 = 1 then ecAdd r p else r

/-- ECDSA P-256 verification of a 64-byte signature (r, s) over a 32-byte hash with a 64-byte key (x, y). -/
def ecdsaOk (key sig hash : List Byte) : Bool :=
  let x := beNat (slice key 0 32)
  let y := beNat (slice key 32 32)
  let r := beNat (slice sig 0 32)
  let t := beNat (slice sig 32 32)
  let onCurve := decide (x < ecP ∧ y < ecP ∧ (y * y) % ecP = (x * x * x + 3 * (ecP - x) + ecB) % ecP)
  let inRange := decide (0 < r ∧ r < ecN ∧ 0 < t ∧ t < ecN)
  let w := invMod ecN t
  let e := beNat hash
  let p := ecAdd (ecMul 256 (e * w % ecN) (some ecG)) (ecMul 256 (r * w % ecN) (some (x, y)))
  onCurve && inRange && (match p with
    | none => false
    | some (px, _) => decide (px % ecN = r))

end Sys2Proof.Machine
end

