-- ==== Sys2Proof/Machine/State.lean ====
section
/-! DEFINITION. The whole state of the block as plain data, its faults and refusals, and the state right after reset. -/

set_option Elab.async false

namespace Sys2Proof.Machine

/-- Faults of a step. A block has no exception entry: what the spec calls a fault is a record in State, so no command of
the table ends a run. -/
inductive Fault where
  /-- Raised by no command: the spec gives every command of the table an effect. Safe. -/
  | unreachable
  deriving DecidableEq, Repr

/-- Refusals of a step. -/
inductive Refusal where
  /-- The command of that mnemonic has no meaning in the model yet. Raised by arms of Dispatch alone. Safe. -/
  | notModelled (mnemonic : String)
  deriving DecidableEq, Repr

/-- What a SuperSpeed pair of a port carries (R42, R43): a lane of SuperSpeed, a DisplayPort lane of an input, or nothing. -/
inductive PairUse where
  | idle
  | ss (lane : Nat)
  | dp (input : Fin 2) (lane : Nat)
  deriving DecidableEq, Repr

/-- What the block puts on its wires or answers with while it carries out one command: the model's own record of it. -/
inductive Out where
  /-- SPIT_SDO of a frame: the status byte and the bytes read (R434). -/
  | spit (status : Byte) (data : List Byte)
  /-- An I2CT answer: a block or word read (R436). -/
  | i2c (data : List Byte)
  /-- An I2CT NACK at the PEC byte (R436). -/
  | i2cNack
  /-- I2CT releases SCL and SDA (R436). -/
  | i2cRelease
  /-- The data stage of a control transfer to a host (R110, R437). -/
  | control (u : US) (data : List Byte)
  /-- A control transfer answered with STALL. -/
  | stall (u : US)
  /-- Bulk IN data from the LMF to its host (R437). -/
  | bulkIn (u : US) (data : List Byte)
  /-- NAK, or NRDY on a SuperSpeed link, from the LMF (R437). -/
  | nak (u : US)
  /-- A bulk OUT packet accepted by the LMF. -/
  | ack (u : US)
  /-- The LMF's 8-byte interrupt report (R437). -/
  | report (u : US) (data : List Byte)
  /-- A hub's status-change bitmap on its interrupt endpoint (R298). -/
  | hubStatus (u : US) (ss : Bool) (bitmap : Nat)
  /-- Upstream remote-wake signalling: K on the companion link, U3 exit LFPS on the SuperSpeed link (R294). -/
  | upWake (u : US) (ss : Bool)
  /-- A PMBus write to the core regulator on PMB: its command code, its data bytes and the PEC behind them (R65). -/
  | pmb (cmd : Nat) (data : List Byte) (pec : Byte)
  /-- A SuperSpeed header sent on a port without a payload: a transaction or link management packet, or a deferred header
  returned (R135, R136). -/
  | ssHeader (p : Port) (h : SsHeader)
  /-- A SuperSpeed data packet sent on a port; bad is an inverted CRC-32 (R139). -/
  | ssData (p : Port) (h : SsHeader) (data : List Byte) (bad : Bool)
  /-- A link command sent on a port: LGOOD and LCRD for a header that passed, LBAD for one that failed its CRC-16, LRTY before a
  resend (R23, R144). -/
  | linkCmd (p : Port) (c : LinkCmd)
  /-- An isochronous timestamp packet sent to a port (R134). -/
  | itp (d : DS) (stamp : Nat) (delayed : Bool)
  /-- A link power request answered (R157, R158). -/
  | lpmAnswer (p : Port) (accept : Bool)
  /-- A high-speed packet repeated on a port (R165). -/
  | usb2 (p : Port) (k : UsbPkt)
  /-- A packet that is cut by babble, ended upstream with a bit-stuff error (R187). -/
  | usb2Bad (u : US)
  /-- The answer of a TT to a start-split or complete-split (R175, R179). -/
  | split (u : US) (r : UsbResp)
  /-- A transaction a TT starts on a downstream bus, by the address on the wire, and whether PRE goes before it (R162, R176, R179, R183). -/
  | ttTrans (d : DS) (addr ep : Nat) (dirIn setup pre : Bool) (pid : DPid) (data : List Byte)
  /-- The full-speed SOF of a TT (R178), or a kept SOF or ITP (R249). -/
  | sof (d : DS) (frame : Nat)
  /-- The keep-alive EOP of a low-speed port (R178, R249). -/
  | keepAlive (d : DS)
  /-- Resume K driven on a port for a time in ns (R188). -/
  | resumeK (d : DS) (ns : Nat)
  /-- The answer to an LPM transaction addressed to the companion hub (R189). -/
  | lpm (u : US) (h : Hsk)
  /-- A control request forwarded to a device, by its device-side address (R258). -/
  | ctlForward (d : DS) (addr : Nat) (q : Setup)
  /-- The status-change report that the controller supplies for an external hub (R258). -/
  | extHubReport (u : US) (d : DS) (bitmap : Nat)
  /-- A PD message that the PHY transmits (R315, R318). -/
  | pd (p : Port) (sop header : Nat) (data : List Byte)
  /-- The GoodCRC of a received message (R314). -/
  | goodCrc (p : Port) (sop msgId : Nat)
  /-- Hard Reset sent by PHY command (R315). -/
  | hardReset (p : Port)
  /-- BIST carrier sent (R492). -/
  | carrier (p : Port)
  /-- A PMBus write to a port's power stage (R344); voltages in mV, currents in mA. -/
  | stage (p : Port) (code value : Nat)
  /-- A write of a port front-end's FE_CTRL bit (R346). -/
  | frontEnd (p : Port) (bit : Nat) (on : Bool)
  /-- A TAP instruction that takes effect, with the balls that it samples (R495). -/
  | tap (i : Jtag) (sampled : List (Ball × Bool))
  /-- The identification register shifted out (R495). -/
  | idcode (v : Nat)
  /-- What the crosspoint connects to the pairs TX1, RX1, TX2 and RX2 of a port, and AUX to its SBU pins, the Bool where swapped
  (R42, R43, R370). -/
  | crosspoint (d : DS) (pairs : List PairUse) (aux : Option (Fin 2 × Bool))
  /-- A proxy host's poll (R251). -/
  | poll (d : DS) (addr ep : Nat)
  deriving DecidableEq, Repr

/-! ### Mailbox transport (chapter 18) -/

/-- A completion or event before it is written into its ring (R425). -/
structure Entry where
  opcode : Nat
  flags : Nat
  tag : Nat
  status : Nat
  payload : List Byte
  dest : List Transport := []
  deriving DecidableEq, Repr

/-- One mailbox ring's registers (R424, R435). -/
structure Ring where
  base : Nat := 0
  log2 : Nat := 4
  head : Nat := 0
  tail : Nat := 0
  run : Bool := false
  err : Bool := false
  errCode : Nat := 0
  deriving DecidableEq, Repr

/-- A CPL0 entry not yet freed: its index, its slots, who has still to consume it, and when it was written (R432). -/
structure Cpl0Slot where
  idx : Nat
  slots : Nat
  waits : List Transport
  at_ : Nat
  deriving DecidableEq, Repr

/-- The work an ACCEPTED command has in progress (R429, R448). -/
inductive AccKey where
  | mode (id : Nat)
  | assign (p : DS)
  | reconnect (u : US) (port : Option Bool)
  | shaper (epq : Nat)
  | policer (epq : Nat)
  | pin (epq : Nat)
  | rebuild
  | failback (u : US)
  | budget
  | roleSwap (u : US)
  | dpRoute (i : Fin 2)
  | kick (d : Fin 2)
  | fwStage
  | fwThyme
  | loopback (unit : Nat)
  | pattern (b : Block)
  deriving DecidableEq, Repr

/-- An ACCEPTED command without its final completion (R429). -/
structure Acc where
  ring : Fin 8
  via : Transport
  opcode : Nat
  tag : Nat
  pchk : Bool
  key : AccKey
  deriving DecidableEq, Repr

/-- One LMF's transport state (R437). -/
structure Lmf where
  configured : Bool := false
  evLost : Bool := false
  cpl0Lost : Bool := false
  restarted : Bool := false
  merged : Nat := 0
  freed : Nat := 0
  lastReport : List Byte := List.replicate 8 0
  reportAt : Option Nat := none
  rx : List Byte := []
  resetDue : Bool := false
  deriving DecidableEq, Repr

/-- The mailbox block MBX (chapter 18). Rings 0–7 are CMD0–CMD7 and 8–15 are CPL0–CPL7 (R435). -/
structure Mbx where
  mem : List Host.Cell := []
  rings : Vector Ring 16
  irqStatus : BitVec 12 := 0
  irqEnable : BitVec 12 := 0xFFF
  assign : Vector Nat 3
  stage : List Host.Cell := []
  prioRefused : Bool := false
  frameErr : Bool := false
  cmd0Via : List (Nat × Transport) := []
  cpl0 : List Cpl0Slot := []
  cpl0Idx : Vector Nat 4
  waiting : Vector (List Entry) 8
  store : Vector (List Entry) 8
  acc : List Acc := []
  rr : Nat := 1
  i2cEvLost : Bool := false
  i2cCpl0Lost : Bool := false
  i2cPecErr : Bool := false
  lmf : Vector Lmf 2
  deriving DecidableEq, Repr

/-! ### Faults (chapter 17) -/

/-- A unit that a reaction takes out of service (R402). -/
inductive FUnit where
  | whole
  | epq (n : Nat)
  | cell (n : Nat)
  | page (n : Nat)
  | ctx (n : Nat)
  | ring (n : Nat)
  | word (n : Nat)
  | route (n : Nat)
  | output (n : Nat)
  | channel (n : Nat)
  | portOf (n : Nat)
  | txpll
  deriving DecidableEq, Repr

/-- One fenced unit: by a fault, by FENCE, held by the recovery limit, and whether its fence took VBUS away (R413). -/
structure Fenced where
  unit : FUnit
  byFault : Bool := false
  byCmd : Bool := false
  held : Bool := false
  vbusOff : Bool := false
  forced : Bool := false
  deriving DecidableEq, Repr

/-- Fault classes of R404: 0 none, 1 CE, 2 UC, 3 FT. -/
inductive FClass where
  | ce | uc | ft
  deriving DecidableEq, Repr

/-- One block's fault registers and recovery state (R404, R409–R414). -/
structure FltRec where
  source : Nat := 0
  cls : Option FClass := none
  conseq : Bool := false
  escalated : Bool := false
  unit : Nat := 0
  addr : Nat := 0
  time : Nat := 0
  pending : Bool := false
  overflow : Bool := false
  alsoCe : Bool := false
  alsoUc : Bool := false
  alsoFt : Bool := false
  quality : Nat := 0
  forced : Bool := false
  mask : Word := 0
  cause : Nat := 0
  ceCount : Nat := 0
  seen : Word := 0
  fenced : List Fenced := []
  reset : Bool := false
  quietEnd : Option Nat := none
  reactEnd : Nat := 0
  reactCls : Option FClass := none
  readmits : List Nat := []
  limitHeld : Bool := false
  kept : Bool := false
  safeCause : Bool := false
  leavesNone : Bool := false
  ackAt : Option Nat := none
  xqLast : Option (Nat × Nat) := none
  deriving DecidableEq, Repr

/-- A reaction shadow: the block whose reaction opened it, and its end; SAFE's has no end until its BOOT completes (R412). -/
structure Shadow where
  block : Block
  start : Nat
  stop : Option Nat
  every : Bool := false
  deriving DecidableEq, Repr

/-- A level source whose condition lasts: it raises again every 1 ms (R408). -/
structure LevelCond where
  block : Block
  source : Nat
  unit : Nat
  last : Nat
  deriving DecidableEq, Repr

/-- Fault handling across blocks. -/
structure Flt where
  recs : Vector FltRec 48
  shadows : List Shadow := []
  safePend : Option Block := none
  safeCause : Option Block := none
  safeAt : Nat := 0
  levels : List LevelCond := []
  deriving DecidableEq, Repr

/-! ### Almanac (chapter 20) -/

/-- The Almanac's words, their write counters and the words that read blank after an uncorrectable error (R472, R474). -/
structure Alm where
  words : List (Nat × Word) := []
  wear : List (Nat × Nat) := []
  lost : List Nat := []
  deriving DecidableEq, Repr

/-! ### Modes, lane time, reset and boot (chapters 3 and 16) -/

/-- A transition of the PMU, in progress or pending (R385): the MODE_REQUEST it answers, if any, and its wake alarm. -/
structure Trans where
  target : Mode
  opp : Nat
  req : Option Nat := none
  alarm : Nat := 0
  deriving DecidableEq, Repr

/-- Where an operating-point change stands (R387): clocks and voltage of the way, and its start. -/
structure OppChange where
  fromOpp : Nat
  toOpp : Nat
  raising : Bool
  startAt : Nat
  reverting : Bool := false
  deriving DecidableEq, Repr

/-- The power management unit (R379–R387). -/
structure Pmu where
  target : Mode := .boot
  targetOpp : Nat := 2
  reported : Mode := .boot
  opp : Nat := 2
  level : Nat := 1
  service : Bool := false
  suspendSince : Option Nat := none
  inProg : Option Trans := none
  pend : Option Trans := none
  change : Option OppChange := none
  oppLocked : Bool := false
  reqSeq : Nat := 0
  clkGated : Bool := false
  clkOpp : Nat := 2
  vcoreMv : Nat := 750
  failedOpp : Option (Mode × Nat) := none
  lastEvt : Nat × Nat := (3, 2)
  deriving DecidableEq, Repr

/-- The core regulator as the PMU reads and sets it over PMB (R65); exponent is that of LINEAR16 without its sign. -/
structure CoreReg where
  absent : Bool := false
  voutMv : Nat := 750
  rate : Nat := 0
  ovMv : Nat := 0
  uvMv : Nat := 0
  ocTenths : Option Nat := none
  status : BitVec 16 := 0
  iout : Nat := 0
  temp : Nat := 0
  operation : Byte := 0
  exponent : Nat := 9
  statusVout : Byte := 0
  statusIout : Byte := 0
  deriving DecidableEq, Repr

/-- Lane time's quality and what carries it across sleep (R395–R400). Ratios and bounds are held in millionths. -/
structure Clk where
  tbOn : Bool := true
  quality : Nat := 0
  interp : Bool := false
  edgeTo : Nat := 0
  boundE6 : Nat := 0
  epoch : Nat := 0
  refLost : Option Nat := none
  refBack : Option Nat := none
  frac : Nat := 0
  hold : Option Nat := none
  fallback : Bool := true
  calE6 : Nat := 25000000
  sleepQuality : Nat := 0
  sleepElapsed : Nat := 0
  le : Nat := 0
  phi : Nat := 0
  alarm : Nat := 0
  alarmTicks : Nat := 0
  corePllLock : Bool := true
  tbPllLock : Bool := true
  ssPllLock : Bool := true
  deriving DecidableEq, Repr

/-- The last-wake record (R393). -/
structure WakeRec where
  cls : Nat := 0
  modeLeft : Nat := 0
  port : Nat := 0
  coincident : Nat := 0
  strapError : Bool := false
  replayed : Bool := false
  quality : Nat := 0
  detail : Nat := 0
  time : Nat := 0
  epoch : Nat := 0
  also : Nat := 0
  deriving DecidableEq, Repr

/-- A wake latched by Lovage and not yet acted on (R390). -/
structure WakeLatch where
  cls : Nat
  port : Nat
  detail : Nat
  at_ : Nat
  replayed : Bool
  also : Nat := 0
  deriving DecidableEq, Repr

/-- The path that led into a BOOT (R82, R83, R470). -/
inductive BootPath where
  | cold | sysReset | safe | standby | hibernate | fwActivate
  deriving DecidableEq, Repr

/-- Rails, resets, straps and the boot in progress (chapter 3). -/
structure Sup where
  aon : Bool := true
  porLow : Bool := false
  sysLow : Bool := false
  pwrReq : Nat := 2
  memOn : Bool := true
  mainOn : Bool := true
  corePg : Bool := true
  straps : BitVec 2 := 0
  asel : Bool := false
  path : BootPath := .cold
  ready : Bool := false
  recovery : Bool := false
  trainOk : Bool := true
  dramRate : Nat := 6400
  selfRefresh : Bool := false
  retained : Bool := false
  enginesHeld : Bool := true
  ballsFloat : Bool := false
  latch : Option WakeLatch := none
  ccSeen : List (Nat × Nat) := []
  wakeEdges : Nat := 0
  wakeWindow : Nat := 0
  restartAt : Option Nat := none
  aonUvp : Bool := false
  deriving DecidableEq, Repr

/-- Flash, slots and firmware (R75–R81, R464). -/
structure Fw where
  flash : List Host.Cell := []
  running : Nat := 0
  bundle : Nat := 0
  rollback : Nat := 0
  keyIdx : Nat := 0
  thyHash : List Byte := []
  otherHash : List Byte := []
  thyBundle : Vector Nat 6
  trial : Bool := false
  trialRun : Nat := 0
  trialFrom : Option Nat := none
  tried0 : Bool := false
  tried1 : Bool := false
  stageSlot : Option Nat := none
  staged : Nat := 0
  thyMask : Nat := 0
  recDone : Bool := false
  recFail : Bool := false
  recStep : Nat := 0
  recOffset : Nat := 0
  recLength : Nat := 0
  recImage : List Host.Cell := []
  recTaken : Nat := 0
  deriving DecidableEq, Repr

/-- Availability counted in SRAM (R34–R36); held marks an interval that SERVICE interrupts (R35). -/
structure Avail where
  ns : Nat := 0
  since : Nat := 0
  events : Nat := 0
  openAt : Option Nat := none
  held : Bool := false
  waiting : List Nat := []
  forced : Bool := false
  lastCkpt : Option Nat := none
  ckpts : Nat := 0
  deriving DecidableEq, Repr

/-! ### Virtual hubs and ownership (chapter 5) -/

/-- The per-hub states of R103 and R247. -/
inductive HubState where
  | detached | attached | suspended | vigil | failedOver
  deriving DecidableEq, Repr

/-- What a slot of a slot list holds (R104). -/
inductive Slot where
  | lmf
  | port (d : DS)
  deriving DecidableEq, Repr

/-- What a virtual hub keeps of one virtual port, on its companion (2) and its SuperSpeed hub (3); overCur is PORT_OVER_CURRENT (R114). -/
structure SlotSt where
  power : Bool := true
  overCur : Bool := false
  chg2 : List Change := []
  chg3 : List Change := []
  emptyReset : Option Nat := none
  coincident : Bool := false
  wakeMask : Nat := 0
  u1 : Nat := 0
  u2 : Nat := 0
  deriving DecidableEq, Repr

/-- One virtual hub (R101, R247). -/
structure Hub where
  state : HubState := .detached
  conf : List Slot := []
  active : List Slot := []
  slots : Vector SlotSt 15
  connected : Bool := false
  everConnected : Bool := false
  configured : Bool := false
  reconnectAt : Option Nat := none
  addr2 : Nat := 0
  addr3 : Nat := 0
  depth : Nat := 0
  multiTt : Bool := true
  remoteWake2 : Bool := false
  funcWake3 : Bool := false
  u1Enable : Bool := false
  u2Enable : Bool := false
  hubChange : Bool := false
  deriving DecidableEq, Repr

/-- An ownership move in progress (R118). -/
structure Move where
  dest : Option US
  keep : Bool
  phase : Nat
  startAt : Nat
  cause : Nat := 0
  old : Option US
  deriving DecidableEq, Repr

/-- Ownership of the downstream ports and the sealed-port quotes (R105, R115, R123). -/
structure Own where
  owner : Vector (Option US) 16
  move : Vector (Option Move) 16
  fails : Vector Nat 16
  lockUntil : Vector Nat 16
  deriving DecidableEq, Repr

/-! ### Ports on their data lines (chapters 5, 6, 7 and 12) -/

/-- A SuperSpeed link's state as PORT_STATUS groups it (R452). -/
inductive Link where
  | u0 | u1 | u2 | u3 | inactive | rxDetect | polling | recovery | compliance | loopback | disabled
  deriving DecidableEq, Repr

/-- A USB 2.0 speed. -/
inductive Speed2 where
  | ls | fs | hs
  deriving DecidableEq, Repr

/-- What drives a port's resume K or U3 exit (R292–R294). -/
inductive ResumeKind where
  | host | hub | device
  deriving DecidableEq, Repr

/-- A downstream port's data lines. Of the two suspend marks of R290, one is the host's and one the hub's; late2 and late3 mark a
connection whose report waits for the hub's resume (R297) or for the hub to be attached (R119). movedIn is MOVED_IN (R129). -/
structure DsData where
  conn2 : Bool := false
  shown2 : Bool := false
  enable : Bool := false
  speed2 : Option Speed2 := none
  resetAt : Option Nat := none
  resetBy : ResumeKind := .host
  chirpAt : Option Nat := none
  chirpFail : Bool := false
  suspHost2 : Bool := false
  suspHub2 : Bool := false
  resumeAt : Option Nat := none
  resumeKind : ResumeKind := .host
  wakePend2 : Bool := false
  wakeOpen : Option Nat := none
  l1 : Bool := false
  l1Exit : Option Nat := none
  test2 : Nat := 0
  watch : Bool := false
  link : Link := .rxDetect
  gen : Nat := 0
  shown3 : Bool := false
  rxDet : Bool := false
  ssFailed : Bool := false
  suspHost3 : Bool := false
  suspHub3 : Bool := false
  wakePend3 : Bool := false
  u3Exit : Option ResumeKind := none
  u3Entry : Bool := false
  ssReset : Option (Bool × Nat) := none
  escalated : Bool := false
  rule : Option Nat := none
  quirks : Nat := 0
  probing : Bool := false
  probed : Bool := false
  babble : Nat := 0
  chirpTimeouts : Nat := 0
  coincident : Nat := 0
  lastRx : Nat := 0
  late2 : Bool := false
  late3 : Bool := false
  movedIn : Bool := false
  deriving DecidableEq, Repr

/-- An upstream port's two links to its host (R101, R163, R245); u3Want is an entry to U3 that waits for packets under way (R159). -/
structure UsData where
  speed2 : Nat := 0
  pullup : Bool := false
  ssTerm : Bool := false
  susp2 : Bool := false
  resume2 : Option Nat := none
  chirpK : Bool := false
  reset2 : Option Nat := none
  l1 : Bool := false
  test2 : Nat := 0
  link : Link := .rxDetect
  gen : Nat := 0
  lanes : Nat := 1
  susp3 : Bool := false
  u3Want : Bool := false
  upK : Option Nat := none
  upLfps : Bool := false
  wakeBy : Option DS := none
  lastSof : Option Nat := none
  lastIdle : Nat := 0
  deriving DecidableEq, Repr

/-! ### SuperSpeed forwarding, scheduling and placement (chapters 6, 8 and 9) -/

/-- Where a stored packet lies: waiting for a tag or for room (R30, R92), in PKB, or spilled to DRAM (R93). -/
inductive Loc where
  | waiting | pkb | dram
  deriving DecidableEq, Repr

/-- A data packet that the controller holds: its header as it will leave (R138, R152), the mark of a failed CRC-32 (R139), its
colour, its place, the Chervil that issued its tag (R13), the hub whose host its header was routed to (R132), its chain of PKB
cells (R92), and in DRAM the unit at which it starts (R143). -/
structure Pkt where
  h : SsHeader
  data : List Byte
  bad : Bool := false
  red : Bool := false
  at_ : Nat := 0
  loc : Loc := .pkb
  tag : Option (Fin 8) := none
  ingress : Port
  dest : Option US := none
  cells : List Nat := []
  unit : Nat := 0
  deriving DecidableEq, Repr

/-- A shaper or policer: its settings and its levels in 1/16 byte (R202, R205). Mode is ENABLE of a shaper, MODE of a policer. -/
structure Meter where
  cir : Nat := 0
  cbs : Nat := 0
  pir : Nat := 0
  pbs : Nat := 0
  mode : Nat := 0
  com : Nat := 0
  peak : Nat := 0
  deriving DecidableEq, Repr

/-- One sample of a queue (R211). -/
structure Sample where
  time : Nat
  cells : Nat
  spill : Nat
  charged : Nat
  packets : Nat
  red : Nat
  deriving DecidableEq, Repr

/-- An open endpoint queue: its endpoint (R213, R215), its placement (R216), its scheduling state (R197–R206), its packets in
arrival order, its spill extents with the units used of the last (R143), and its counters (R209–R211). Copies are the IN packets
not yet acknowledged by the host (R250). -/
structure Epq where
  port : DS
  hubPort : Nat := 0
  daddr : Nat
  ep : Nat
  dirIn : Bool
  ss : Bool
  typ : EpType
  mps : Nat := 0
  burst : Nat := 1
  bytes : Nat := 0
  interval : Nat := 0
  iface : Nat := 0
  alt : Nat := 0
  cls : Nat
  chv : Option (Fin 8) := none
  pool : Nat := 0
  pinChv : Option (Fin 8) := none
  pinPool : Option Nat := none
  evidence : Bool := false
  ctx : Nat := 0x7F
  weight : Nat := 0
  capTags : Nat := 32
  capPkb : Nat := 131072
  capSpill : Nat := 16777216
  shaper : Meter := {}
  shaperNew : Option Meter := none
  policer : Meter := {}
  policerNew : Option Meter := none
  lf : Nat := 0
  hf : Nat := 0
  tagged : Bool := false
  relink : Bool := false
  pkts : List Pkt := []
  copies : List Pkt := []
  extents : List Nat := []
  spillOff : Nat := 0
  reserved : Nat := 0
  short : Nat := 0
  packets : Nat := 0
  payload : Nat := 0
  charged : Nat := 0
  green : Nat := 0
  yellow : Nat := 0
  redN : Nat := 0
  hwCells : Nat := 0
  hwSpill : Nat := 0
  hwWait : Nat := 0
  waitFrom : Option Nat := none
  samples : List Sample := []
  sCharged : Nat := 0
  sPackets : Nat := 0
  sRed : Nat := 0
  tagHw : Nat := 0
  load : Nat := 0
  closed : Bool := false
  deriving DecidableEq, Repr

/-- What becomes of the data packet payload that follows a header (R136–R141). -/
inductive Disp where
  | cut (egress : Port)
  | store
  | drop
  deriving DecidableEq, Repr

/-- A data packet whose header has been judged and whose payload is still to come: its egress link and hub as looked up (R132),
and on a cut-through the Chervil that issued its tag (R13). -/
structure RxDp where
  h : SsHeader
  disp : Disp
  out : Port
  epq : Option Nat
  red : Bool
  dest : Option US := none
  tag : Option (Fin 8) := none
  deriving DecidableEq, Repr

/-- A SuperSpeed link of the controller (R144): transmit credits, the header sequence numbers of both directions, the LCRD to
send next and the one expected next, the mark that headers are ignored until LRTY, the retry buffer, headers that wait with the link they came on, the payload being received and the one
being sent, deferred headers (R135), the timestamp packet that waits for a boundary (R134), stored packets of no open queue,
and its egress scheduler's virtual clock and busy times (R197, R209). IdleFrom is when a packet last used the link (R157, R158). -/
structure SsLink where
  credits : Nat := 4
  rxSeq : Nat := 0
  txSeq : Nat := 0
  rxCrd : Nat := 0
  txCrd : Nat := 0
  rxIgnore : Bool := false
  retry : List SsHeader := []
  hdrWait : List (Port × SsHeader) := []
  rx : Option RxDp := none
  tx : Option (Option Nat) := none
  deferred : List (Port × SsHeader) := []
  itp : Option Nat := none
  loose : List Pkt := []
  exiting : Bool := false
  v : Nat := 0
  prioUsed : Nat := 0
  busy : List Nat := [0, 0, 0, 0, 0]
  idleFrom : Nat := 0
  deriving DecidableEq, Repr

/-- The fabric's arbiter (R17): which of VC1 to VC3 it serves next. A credit of a pool is out while data crosses; what holds one
is what stands between its header and its end in State, so no count is kept beside it. -/
structure Fab where
  next : Nat := 1
  deriving DecidableEq, Repr

/-- One translation entry (R217); endpoint values are indexed 2e + d, OFFSET in bits 4:0 and INVERT in bit 5. -/
structure TrEnt where
  haddr : Nat
  daddr : Nat
  port : DS
  hubPort : Nat
  depth : Nat
  ss : Bool
  hub : Bool
  park : Nat
  ep : List Nat
  deriving DecidableEq, Repr

/-- The scheduler block SCHED but for the queues and links (R161, R196, R211). -/
structure Sched where
  disc : List (Nat × Nat) := []
  discPort : List (Nat × Nat) := []
  ovh : List (Nat × Nat) := []
  ovhNew : List (Nat × Nat) := []
  spillPct : Nat := 75
  samplePeriod : Nat := 8
  sampleNew : Nat := 8
  sampleCount : Nat := 0
  tickAt : Nat := 0
  deriving DecidableEq, Repr

/-- One entry of the delta log (R222): the EPQ or the translation index, and whether it closed. -/
structure Delta where
  tr : Bool
  idx : Nat
  closed : Bool
  deriving DecidableEq, Repr

/-- A rebuild in progress (R220): T0, its step, its delta log, whether it is minimal, and the Chervils fenced since step 2. -/
structure Rebuild where
  t0 : Nat
  step : Nat
  minimal : Bool
  now_ : Bool
  log : List Delta
  moved : Nat := 0
  fenced : List (Fin 8) := []
  pins : List Nat := []
  trs : List Nat := []
  deriving DecidableEq, Repr

/-- The live tables' block PLACE but for the queues (R213–R237): active and shadow banks as the words of R215–R217. -/
structure Place where
  tr : List (Nat × TrEnt) := []
  trPend : List (Nat × Option TrEnt) := []
  trAt : Option Nat := none
  shIdx : List (Nat × Nat) := []
  shPl : List (Nat × Nat) := []
  shTr : List (Nat × TrEnt) := []
  pins : List (Nat × (Option (Option (Fin 8)) × Option (Option Nat))) := []
  rebuild : Option Rebuild := none
  nowReq : Bool := false
  frozen : Bool := false
  missed : Nat := 0
  swaps : Nat := 0
  minimal : Nat := 0
  restarts : Nat := 0
  abandoned : Nat := 0
  moves : Nat := 0
  lastSwap : Nat := 0
  load : List Nat := List.replicate 8 0
  tagHw : List Nat := List.replicate 8 0
  qload : List (Nat × Nat) := []
  qwait : List (Nat × (Nat × Nat)) := []
  readmitted : Bool := false
  deriving DecidableEq, Repr

/-- Packet memory and DRAM housekeeping (chapter 4). Of the stored words those are listed that have flipped bits, with the bits
that differ from what was written: DRAM codewords by word, unit tags by unit, PKB codewords by word (R88, R89, R95). -/
structure MemBlk where
  dramErr : List (Nat × Nat) := []
  tagErr : List (Nat × Nat) := []
  pkbErr : List (Nat × Nat) := []
  retiredCells : List Nat := []
  retiredPages : List Nat := []
  pkbSeen : List Nat := []
  dramSeen : List Nat := []
  dramUnit : Nat := 0
  refreshMult : Nat := 1
  deriving DecidableEq, Repr

/-! ### Transaction translators and the repeater (chapter 7) -/

/-- The state of a non-periodic TT buffer that is not free (R175). -/
inductive TtState where
  | pending | executing | done
  deriving DecidableEq, Repr

/-- A non-periodic TT buffer (R175, R176): host-side address, endpoint and direction; the result none is no device response. It is an
operation of its endpoint's queue: the tag and cells it holds (R19, R92), or the unit at which its data lies in DRAM (R177). A transaction on the
bus keeps the address and the IN invert bit that it found (R169, R185). -/
structure TtBuf where
  addr : Nat
  ep : Nat
  dirIn : Bool
  setup : Bool
  ctl : Bool
  low : Bool
  pid : DPid
  data : List Byte
  st : TtState := .pending
  result : Option UsbResp := none
  returned : Bool := false
  attempts : Nat := 0
  freeAtEnd : Bool := false
  spilled : Bool := false
  doneAt : Nat := 0
  daddr : Nat := 0
  inv : Bool := false
  epq : Option Nat := none
  tag : Option (Fin 8) := none
  cells : List Nat := []
  unit : Nat := 0
  deriving DecidableEq, Repr

/-- One transaction of the periodic pipeline (R179, R180), by the microframe it runs in, with the bytes of an isochronous result returned so
far; drop marks a start-split that found its slot full. -/
structure TtPer where
  slot : Nat
  addr : Nat
  ep : Nat
  dirIn : Bool
  iso : Bool
  pid : DPid := .data0
  data : List Byte
  result : Option UsbResp := none
  returned : Bool := false
  doneAt : Nat := 0
  low : Bool := false
  drop : Bool := false
  sent : Nat := 0
  epq : Option Nat := none
  tag : Option (Fin 8) := none
  deriving DecidableEq, Repr

/-- A port's transaction translator (R174–R180). -/
structure Tt where
  bufs : List TtBuf := []
  per : List TtPer := []
  stopped : Bool := false
  dropped : Nat := 0
  expired : Nat := 0
  frame : Nat := 0
  deriving DecidableEq, Repr

/-- What the rewrite stage latches for a token (R169): address as the device holds it, endpoint, direction, the entry's
INVERT bits of both directions, and the data packet that awaits its handshake. -/
structure HsLatch where
  daddr : Nat
  ep : Nat
  dirIn : Bool
  inv : Bool
  data : Option (DPid × List Byte) := none
  deriving DecidableEq, Repr

/-- The companion path of one downstream port. -/
structure Usb2 where
  tt : Tt := {}
  latch : Option HsLatch := none
  besl : Nat := 0
  l1Wake : Bool := false
  kept : Bool := false
  deriving DecidableEq, Repr

/-- The companion path of one upstream port: the count of its host's microframes (R178), the frame and the microframe in it, the last SOF, L1's remote-wake
leave (R190), SOF keeping (R249). -/
structure Us2 where
  uframe : Nat := 0
  frame : Nat := 0
  micro : Nat := 0
  lastSof : Option Nat := none
  l1Wake : Bool := false
  keep : Option Nat := none
  deriving DecidableEq, Repr

/-! ### Vigil (chapter 10) -/

/-- The states of a device context in use (R240). -/
inductive CtxSt where
  | building | ready | held | absorbing
  deriving DecidableEq, Repr

/-- The key of a request (R258): bmRequestType, bRequest, wValue and wIndex as far as the table names them. -/
abbrev ReqKey := Nat × Nat × Nat × Nat

/-- A journal entry (R243). -/
structure JEntry where
  key : ReqKey
  setup : Setup
  data : List Byte
  armed : Bool := false
  at_ : Nat := 0
  deriving DecidableEq, Repr

/-- An endpoint record of a shadow (R241); replayAt is when the host's first start-split of its replay arrived (R262). -/
structure EpRec where
  d : EpDesc
  opn : Bool := false
  halted : Bool := false
  dt : Nat := 0
  ht : Nat := 0
  evidence : Bool := false
  errs : Nat := 0
  stopped : Bool := false
  erdyWait : Bool := false
  adopted : Bool := true
  polledAt : Nat := 0
  replaying : Bool := false
  replayAt : Option Nat := none
  deriving DecidableEq, Repr

/-- A device context with its shadow (R240, R241). -/
structure Ctx where
  port : DS
  hubPort : Nat := 0
  speed : Nat := 0
  st : CtxSt := .building
  daddr : Option Nat := none
  haddr : Nat := 0
  translated : Bool := false
  config : Nat := 0
  alts : List (Nat × Nat) := []
  remoteWake : Bool := false
  u1 : Bool := false
  u2 : Bool := false
  funcSusp : List Nat := []
  suspended : Bool := false
  cache : List ((Nat × Nat) × List Byte) := []
  journal : List JEntry := []
  uncertain : List ReqKey := []
  used : List ReqKey := []
  eps : List EpRec := []
  descs : List EpDesc := []
  isHub : Bool := false
  depth : Nat := 0
  resetAt : Option Nat := none
  resetUsed : Bool := false
  resetWarm : Bool := false
  hubChg : Bool := false
  addrGot : Bool := false
  idleFrom : Nat := 0
  lpm : Bool := false
  quirks : Nat := 0
  rule : Option Nat := none
  deriving DecidableEq, Repr

/-- A capture record (R253) at its place in the ring; type 0 is PAD (R255). -/
structure CapRec where
  off : Nat
  size : Nat
  seq : Nat
  typ : Nat
  flags : Nat
  time : Nat
  hubPort : Nat
  daddr : Nat
  epdir : Nat
  epoch : Nat
  payload : List Byte
  damaged : Bool := false
  deriving DecidableEq, Repr

/-- A port's capture ring (R252–R256). Alloc is 0 allocated, 1 CAPTURE_SIZE 0, 2 does not fit. -/
structure CapRing where
  base : Nat := 0
  size : Nat := 0
  alloc : Nat := 1
  recs : List CapRec := []
  wr : Nat := 0
  nextSeq : Nat := 1
  readSeq : Nat := 1
  gap : Bool := false
  warned : Bool := false
  skipped : Nat := 0
  deriving DecidableEq, Repr

/-- The Vigil policy of a downstream port (R238). -/
structure PortPol where
  mode : Nat := 0
  autoArm : Bool := true
  replay : Bool := true
  replayAge : Nat := 120
  bulkPoll : Nat := 4
  capSize : Nat := 64
  capSet : Bool := false
  deriving DecidableEq, Repr

/-- Vigil's state of one virtual hub (R245, R246, R249, R258, R266). -/
structure VigHub where
  lastPkt : Option Nat := none
  absentFrom : Nat := 0
  episode : Nat := 0
  deadline : Option Nat := none
  returned : Bool := false
  deriving DecidableEq, Repr

/-- What has been read of a device's descriptors for the match of port guard rules, the rule that it matched, whether the match has been made,
and the rules written since its attach or port reset, which do not apply to it (R127, R128). -/
structure Seen where
  dev : Option (Nat × Nat × (Byte × Byte × Byte)) := none
  ifs : Option (List (Byte × Byte × Byte × Byte)) := none
  rule : Option Nat := none
  quirks : Nat := 0
  done : Bool := false
  skip : List Nat := []
  deriving DecidableEq, Repr

/-- Vigil: policies, arming, contexts, rings (chapter 10); epStart holds the episode start of each port by its index (R246, R274); idle counts the microframes of the ports that no hub owns (R118, R251). -/
structure Vig where
  pol : Vector PortPol 16
  tAbsent : Nat := 50
  hold : Nat := 600
  capRegion : Nat := 4
  regionInForce : Nat := 4
  regionSet : Bool := false
  armed : Vector Bool 16
  ctx : List (Nat × Ctx) := []
  lastRel : List (Nat × Nat) := []
  portRel : List (Nat × Nat) := []
  rings : Vector CapRing 16
  hub : Vector VigHub 2
  ctxBad : List Nat := []
  seen : List (Nat × Seen) := []
  idle : Us2 := {}
  epStart : List (Nat × Nat) := []
  deriving DecidableEq, Repr

/-! ### Upstream failover (chapter 11) -/

/-- A failover record (R268); times in their units of the record. -/
structure FoRec where
  partner : Option US := none
  delay : Nat := 25
  prio : List DS := []
  stagger : Nat := 10
  auto : Bool := true
  backDelay : Nat := 10
  deriving DecidableEq, Repr

/-- A fail-back under way (R276, R277): whether FAILBACK asked for it, the ports still to move, and those deferred with the
time their 2 s end. -/
structure Back where
  cmd : Bool
  queue : List DS
  deferred : List (DS × Nat) := []
  moved : Nat := 0
  nextAt : Nat := 0
  deriving DecidableEq, Repr

/-- Failover of one home hub (R269–R277). -/
structure FoHub where
  rcd : FoRec := {}
  absentAt : Option Nat := none
  waiting : Bool := false
  queue : List DS := []
  nextAt : Nat := 0
  outcomes : List (Nat × Nat) := []
  upFrom : Option Nat := none
  back : Option Back := none
  deriving DecidableEq, Repr

/-- Failover: each hub's part and the home hub of each failed-over port (R275). -/
structure Failover where
  hub : Vector FoHub 2
  home : Vector (Option US) 16
  deriving DecidableEq, Repr

/-! ### Type-C, PD and power (chapters 13 and 14) -/

/-- The Type-C states of a port (R306, R308). -/
inductive CcState where
  | unattached | waitSrc | waitSnk | attached | errorRecovery | trySrc | tryWaitSnk | trySnk | tryWaitSrc
  deriving DecidableEq, Repr

/-- A cable as discovery judges it (R313): kind 0 none, 1 passive, 2 active; current in mA and voltage in V. -/
structure Cable where
  kind : Nat := 0
  cur : Nat := 3000
  volt : Nat := 20
  epr : Bool := false
  speed : Nat := 0
  deriving DecidableEq, Repr

/-- A port's CC pins and Type-C state machine (R303–R313). Rp levels are 0 default, 1 1.5 A, 2 3.0 A; a partner's are one more,
0 being open (R304). -/
structure Tc where
  st : CcState := .unattached
  pattern : CcPattern := .opn
  flip : Bool := false
  since : Nat := 0
  lossAt : Option Nat := none
  src : Bool := false
  dfp : Bool := false
  drpSrc : Bool := false
  togAt : Nat := 0
  errAt : Option Nat := none
  vconn : Bool := false
  vconnAt : Option Nat := none
  rp : Nat := 0
  sinkTxNg : Bool := false
  partnerRp : Nat := 0
  accessory : Nat := 0
  debugAcc : Bool := false
  cable : Cable := {}
  discTries : Nat := 0
  discAt : Option Nat := none
  discDone : Bool := false
  vbus5At : Option Nat := none
  vbusWaits : Nat := 0
  waitCounted : Bool := false
  preCheck : Bool := false
  guardDetached : Bool := false
  initSrc : Bool := false
  deriving DecidableEq, Repr

/-- A PD message (R318): its SOP*, header and the bytes after it, with the lane time of its EOP; the BYTES of its frame descriptor; and by bits
the words of it in whose stages an error was corrected (R323). -/
structure PdMsg where
  sop : Nat
  header : Nat
  data : List Byte
  at_ : Nat := 0
  bytes : Nat := data.length + 2
  ce : Nat := 0
  deriving DecidableEq, Repr

/-- A notice to the Thyme (R321). -/
inductive Notice where
  | rxMsg (sop at_ : Nat)
  | txDone (result : Nat)
  | hardResetRx (at_ : Nat)
  | cableResetRx (at_ : Nat)
  | frsRx (at_ : Nat)
  | fastRemoval (at_ : Nat)
  deriving DecidableEq, Repr

/-- A port's BMC PHY, its message FIFOs and its protocol layer (R314–R325). A FIFO holds its messages whole; what does not fit in
16 stages waits in it with the producer stalled (R320). inHand is the message that the Thyme has read and has still to answer;
ams is the answer that it waits for: 0 none, 1 a Request, 2 Accept of its Soft_Reset, 3 sink capabilities, 4 a swap's answer,
5 a VDM, 6 a cable's VDM. chunk is what an extended message still has to send, rxChunk what has arrived of one; lineAt is when the
line was last busy. -/
structure PdPhy where
  tx : List PdMsg := []
  txStaged : Option PdMsg := none
  txStarted : Bool := false
  txTries : Nat := 0
  txAt : Nat := 0
  rx : List PdMsg := []
  rxStaged : Option PdMsg := none
  notices : List Notice := []
  rxRefused : Nat := 0
  lastId : List (Nat × Nat) := []
  nextId : List (Nat × Nat) := []
  inHand : Option PdMsg := none
  rev : Nat := 3
  ams : Nat := 0
  amsAt : Nat := 0
  bist : Nat := 0
  bistAt : Nat := 0
  lineAt : Nat := 0
  chunk : List Byte := []
  rxChunk : List Byte := []
  deriving DecidableEq, Repr

/-- A port's power policy (R329); CAP in 0.1 W. -/
structure PwrPol where
  populated : Bool := true
  on : Bool := true
  prio : Nat := 4
  cap : Nat := 1000
  offer : Nat := 7
  slew : Nat := 30
  pref : Nat := 0
  roles : Nat := 3
  frs : Bool := true
  deriving DecidableEq, Repr

/-- A contract (R335, R460): kind 0 none, 1 implicit, 2 fixed, 3 PPS, 4 EPR fixed, 5 AVS; mV, mA, and the current its PDO offered. -/
structure Contract where
  kind : Nat := 0
  volt : Nat := 0
  cur : Nat := 0
  pdoCur : Nat := 0
  deriving DecidableEq, Repr

/-- A VBUS transition (R341): voltages in mV, phase 0 before its limits are written and 1 after VOUT_COMMAND. -/
structure VTrans where
  fromMv : Nat
  toMv : Nat
  at_ : Nat
  delay : Nat
  phase : Nat := 0
  cmdAt : Nat := 0
  bound : Nat := 0
  deriving DecidableEq, Repr

/-- A role swap under way (R351–R355): 0 PR_Swap, 1 DR_Swap, 2 VCONN_Swap; ours says who asked, phase 0 awaits the answer. -/
structure Swap where
  kind : Nat
  ours : Bool
  phase : Nat := 0
  at_ : Nat := 0
  waits : Nat := 0
  deriving DecidableEq, Repr

/-- A port's power path: stage, front-end, contract and its record in the allocator (R329–R356). Power is in mW. hr is the step of
a Hard Reset with its lane time; reduce is 0 while tSinkTx runs and 1 once capabilities are sent; lost says that the port has lost
its power by POWER OFF, PORT_POWER or R263. -/
structure Pwr where
  pol : PwrPol := {}
  psc : Bool := false
  psf : Bool := false
  vout : Nat := 5000
  ov : Nat := 6000
  uv : Nat := 4000
  ocLimit : Nat := 0
  ocResp : Nat := 0xC0
  vbs : Nat := 0
  off0 : Bool := false
  offCharge : Nat := 0
  discharge : Bool := false
  con : Contract := {}
  newCon : Option Contract := none
  need : Nat := 0
  grant : Nat := 0
  shed : Bool := false
  lost : Bool := false
  heldOff : Bool := false
  epr : Bool := false
  eprAt : Nat := 0
  ppsAt : Nat := 0
  caps : List Nat := []
  capsDue : Option Nat := none
  capsLast : Nat := 0
  capsCount : Nat := 0
  hardCount : Nat := 0
  hr : Option (Nat × Nat) := none
  trans : Option VTrans := none
  mismatch : Bool := false
  waited : Bool := false
  reduce : Option (Nat × Nat) := none
  ocTimes : List Nat := []
  ocCount : Nat := 0
  readV : Option Nat := none
  readI : Option Nat := none
  temp : Option Int := none
  status : Nat := 0
  feStatus : Nat := 0
  snkEn : Bool := false
  frsArm : Bool := false
  frsCur : Nat := 0
  frs : Option Nat := none
  frsLost : Bool := false
  swap : Option Swap := none
  firstDone : Bool := false
  deriving DecidableEq, Repr

/-- The lane budget in mW, its reductions, the ADC's place in its schedule, and the end of the connector guard's present week (R330, R339,
R342, R364). -/
structure Lane where
  budget : Nat := 600000
  raise : Bool := false
  adcAt : Nat := 0
  adcSlot : Nat := 0
  adcSteady : Nat := 0
  adcTrans : Nat := 0
  weekAt : Nat := 604800000000000
  deriving DecidableEq, Repr

/-! ### Connector guard, display routing and lane I/O (chapter 15) -/

/-- A port's connector guard (R360–R365): state 0 DRY, 1 WET, 2 DRYING; per pin the last reading with its lane time, the weekly
minima newest first, and the present week's minimum, in units of 10 kΩ. -/
structure GuardPort where
  st : Nat := 0
  dry : Nat := 0
  reads : List (Nat × Nat) := List.replicate 4 (0xFFFF, 0)
  trend : List (List Nat) := List.replicate 4 (List.replicate 16 255)
  week : List (Option Nat) := List.replicate 4 none
  wets : Nat := 0
  holds : Nat := 0
  hold : Bool := false
  deriving DecidableEq, Repr

/-- A display input (R366–R372): its route; the entry's phase (0 none, 1–6 a VDM sent, 7 entered), assignment 1 C or 2 D; and its
HPD ball. -/
structure DpIn where
  port : Option DS := none
  pref : Nat := 0
  eq : Int := 0
  phase : Nat := 0
  assign : Nat := 0
  at_ : Nat := 0
  due : Option Nat := none
  caps : Nat := 0
  multi : Bool := false
  hpdSeen : Bool := false
  hpd : Bool := false
  lowAt : Option Nat := none
  irqAt : Option Nat := none
  irqLast : Option Nat := none
  irqPend : Bool := false
  deriving DecidableEq, Repr

/-- A drawer output (R376, R377): the pulse under way with its start and end, the interlock's end, and the report due 2 s after the
start with whether OPEN became 1. -/
structure Kick where
  pulse : Option (Nat × Nat) := none
  lockUntil : Nat := 0
  report : Option (Nat × Bool) := none
  silent : Bool := false
  deriving DecidableEq, Repr

/-- The lane I/O block (R374, R375). -/
structure Lio where
  dir : BitVec 16 := 0
  out : BitVec 16 := 0
  inp : BitVec 16 := 0
  pd : BitVec 16 := 0xFFFF
  edgeEn : Word := 0
  edge : BitVec 16 := 0
  pend : Word := 0
  pendAt : List (Nat × Nat) := []
  sense : BitVec 2 := 0
  pol : BitVec 2 := 0
  wake : BitVec 2 := 3
  kick : Vector Kick 2
  deriving DecidableEq, Repr

/-! ### Test and temperature (chapters 21 and 22) -/

/-- A loopback under way (R484–R487), by unit: port index, or 18 for DPX. -/
structure Loop where
  depth : Nat
  startAt : Nat
  dur : Nat
  deriving DecidableEq, Repr

/-- A pattern test under way (R493, R494): its range, start, and for PKB the cells tested with their counts. -/
structure Pat where
  pattern : Nat
  start : Nat
  bytes : Nat
  startAt : Nat
  tested : List Nat := []
  errors : Nat := 0
  first : Nat := 0
  deriving DecidableEq, Repr

/-- Tests under way and the TAP's instruction (R484–R496). -/
structure TestSt where
  loops : List (Nat × Loop) := []
  dmc : Option Pat := none
  pkb : Option Pat := none
  comp : List (Nat × Nat) := []
  slave : List US := []
  jtag : Jtag := .bypass
  cells : List (Ball × Bool) := []
  deriving DecidableEq, Repr

/-- The die temperature in 0.1 °C and which threshold may be raised again (R511). -/
structure Therm where
  temp : Int := 250
  warnOver : Bool := false
  tripOver : Bool := false
  deriving DecidableEq, Repr

/-- The whole state of the block. -/
structure State where
  pending : List Instr := []
  out : List Out := []
  now : Nat := 0
  freeSeq : Nat := 0
  mbx : Mbx
  flt : Flt
  alm : Alm := {}
  pmu : Pmu := {}
  reg : CoreReg := {}
  clk : Clk := {}
  wake : WakeRec := {}
  sup : Sup := {}
  fw : Fw
  avail : Avail := {}
  hubs : Vector Hub 2
  own : Own
  dsd : Vector DsData 16
  usd : Vector UsData 2
  epqs : List (Nat × Epq) := []
  links : Vector SsLink 18
  sched : Sched := {}
  place : Place := {}
  memb : MemBlk := {}
  fab : Fab := {}
  u2d : Vector Usb2 16
  u2u : Vector Us2 2
  vig : Vig
  fo : Failover
  tc : Vector Tc 18
  phy : Vector PdPhy 18
  pwr : Vector Pwr 18
  lane : Lane := {}
  guard : Vector GuardPort 18
  dp : Vector DpIn 2
  lio : Lio
  test : TestSt := {}
  therm : Therm := {}
  deriving DecidableEq, Repr

/-- The mailbox rings of a cold boot (R423): BASE and LOG2_DEPTH, SPIT's rings running (R435). -/
def coldRings : Vector Ring 16 :=
  #v[{ base := 0, log2 := 4, run := true }, { base := 32, log2 := 7, run := true },
     { base := 288, log2 := 7, run := true }, { base := 544, log2 := 7, run := true },
     { base := 800, log2 := 4, run := true }, { base := 832, log2 := 5, run := true },
     { base := 896, log2 := 5 }, { base := 960, log2 := 5 },
     { base := 16, log2 := 4, run := true }, { base := 160, log2 := 7, run := true },
     { base := 416, log2 := 7, run := true }, { base := 672, log2 := 7, run := true },
     { base := 816, log2 := 4, run := true }, { base := 864, log2 := 5, run := true },
     { base := 928, log2 := 5 }, { base := 992, log2 := 5 }]

/-- The mailbox block of a cold boot. -/
def coldMbx : Mbx :=
  { rings := coldRings, assign := #v[1, 0, 0], cpl0Idx := Vector.replicate 4 0, waiting := Vector.replicate 8 []
    store := Vector.replicate 8 [], lmf := Vector.replicate 2 {} }

/-- Fault records of a cold boot (R404, R420). -/
def coldFlt : Flt := { recs := Vector.replicate 48 {} }

/-- The slot list of a hub by default (R109). -/
def defaultSlots (u : US) : List Slot := match u with
  | .us0 => .lmf :: ([0, 1, 2, 3, 4, 5, 6, 7, 8, 9, 10, 11, 12, 13] : List DS).map .port
  | .us1 => .lmf :: ([14, 15, 0, 1, 2, 3, 4, 5, 6, 7, 8, 9, 10, 11] : List DS).map .port

/-- The owners by default (R109). -/
def defaultOwner : Vector (Option US) 16 :=
  #v[some .us0, some .us0, some .us0, some .us0, some .us0, some .us0, some .us0, some .us0, some .us0, some .us0,
     some .us0, some .us0, some .us0, some .us0, some .us1, some .us1]

/-- A port's power policy by default (R329). -/
def defaultPol (k : Fin 18) : PwrPol := if k.val < 2 then { prio := 1, cap := 600 } else {}

/-- The power paths of a cold boot. -/
def coldPwr : Vector Pwr 18 := Vector.ofFn (fun k => { pol := defaultPol k })

/-- The block right after reset. -/
def State.reset : State :=
  { mbx := coldMbx
    flt := coldFlt
    clk := { tbOn := false }
    sup := { porLow := true, pwrReq := 0, memOn := false, mainOn := false, corePg := false }
    fw := { thyBundle := Vector.replicate 6 0 }
    hubs := #v[{ conf := defaultSlots .us0, slots := Vector.replicate 15 {} },
               { conf := defaultSlots .us1, slots := Vector.replicate 15 {} }]
    own := { owner := defaultOwner, move := Vector.replicate 16 none, fails := Vector.replicate 16 0
             lockUntil := Vector.replicate 16 0 }
    dsd := Vector.replicate 16 {}
    usd := Vector.replicate 2 {}
    links := Vector.replicate 18 {}
    u2d := Vector.replicate 16 {}
    u2u := Vector.replicate 2 {}
    vig := { pol := Vector.replicate 16 {}, armed := Vector.replicate 16 false, rings := Vector.replicate 16 {}
             hub := Vector.replicate 2 {} }
    fo := { hub := Vector.replicate 2 {}, home := Vector.replicate 16 none }
    tc := Vector.replicate 18 {}
    phy := Vector.replicate 18 {}
    pwr := coldPwr
    guard := Vector.replicate 18 {}
    dp := Vector.replicate 2 {}
    lio := { kick := Vector.replicate 2 {} } }

end Sys2Proof.Machine
end

