-- ==== Sys2Proof/Machine/Ops.lean ====
section
/-! DEFINITION. The named operations that every family uses: port codes and block IDs (R7, R402), lane time (R9),
Almanac words (chapter 20), ring memory, completions and events (chapter 18, R469). -/

set_option Elab.async false

namespace Sys2Proof.Machine

/-! ### Ports and blocks -/

/-- The port code of R7. -/
def portCode (p : Port) : Nat := if p.val < 2 then 0x10 + p.val else 0x1F + p.val

/-- The port a code names (R7). -/
def codePort (c : Nat) : Option Port :=
  if c = 0x10 then some 0 else if c = 0x11 then some 1
  else if h : 0x21 ≤ c ∧ c ≤ 0x30 then some ⟨c - 0x1F, by omega⟩ else none

/-- The port index of a downstream port (R343). -/
def dsPort (d : DS) : Port := ⟨d.val + 2, by omega⟩

/-- The port index of an upstream port (R343). -/
def usPort (u : US) : Port := match u with
  | .us0 => 0
  | .us1 => 1

/-- The downstream port of an index, if it is one. -/
def portDs (p : Port) : Option DS := if h : 2 ≤ p.val then some ⟨p.val - 2, by omega⟩ else none

/-- The upstream port of an index, if it is one. -/
def portUs (p : Port) : Option US := if p.val = 0 then some .us0 else if p.val = 1 then some .us1 else none

/-- The downstream port a code names. -/
def codeDs (c : Nat) : Option DS := (codePort c).bind portDs

/-- The upstream port a code names. -/
def codeUs (c : Nat) : Option US := (codePort c).bind portUs

/-- The port code of a downstream port. -/
def dsCode (d : DS) : Nat := 0x21 + d.val

/-- The port code of an upstream port. -/
def usCode (u : US) : Nat := match u with
  | .us0 => 0x10
  | .us1 => 0x11

/-- Every port, in index order. -/
def allPorts : List Port := [0, 1, 2, 3, 4, 5, 6, 7, 8, 9, 10, 11, 12, 13, 14, 15, 16, 17]

/-- Every downstream port. -/
def allDs : List DS := [0, 1, 2, 3, 4, 5, 6, 7, 8, 9, 10, 11, 12, 13, 14, 15]

/-- The fault-record index of a block. -/
def blockIdx (b : Block) : Fin 48 := match b with
  | .pmu => 0 | .cru => 1 | .sage => 2 | .lovage => 3 | .almanac => 4 | .dmc => 5 | .pkb => 6 | .fab => 7
  | .sched => 8 | .place => 9 | .mbx => 10 | .adc => 11 | .psl => 12 | .dpx => 13 | .lio => 14 | .vigil => 15
  | .us .us0 => 16 | .us .us1 => 17
  | .ds d => ⟨18 + d.val, by omega⟩
  | .chv c => ⟨34 + c.val, by omega⟩
  | .thy t => ⟨42 + t.val, by omega⟩

/-- The block ID of R402. -/
def blockId (b : Block) : Nat := match b with
  | .us .us0 => 0x10 | .us .us1 => 0x11
  | .ds d => 0x21 + d.val
  | .chv c => 0x40 + c.val
  | .thy t => 0x48 + t.val
  | b => (blockIdx b).val

/-- Every block of R402, in ascending ID. -/
def allBlocks : List Block :=
  ([.pmu, .cru, .sage, .lovage, .almanac, .dmc, .pkb, .fab, .sched, .place, .mbx, .adc, .psl, .dpx, .lio, .vigil,
   .us .us0, .us .us1] : List Block) ++ allDs.map Block.ds ++
  ([.chv 0, .chv 1, .chv 2, .chv 3, .chv 4, .chv 5, .chv 6, .chv 7] : List Block) ++
  ([.thy 0, .thy 1, .thy 2, .thy 3, .thy 4, .thy 5] : List Block)

/-- The block an issued ID names (R402). -/
def idBlock (i : Nat) : Option Block := allBlocks.find? (fun b => blockId b = i)

/-- The block of a port. -/
def portBlock (p : Port) : Block :=
  match portUs p, portDs p with
  | some u, _ => .us u
  | _, some d => .ds d
  | _, _ => .pmu

/-- The Thyme that serves a port (R12). -/
def portThy (p : Port) : Fin 6 := if p.val ≤ 2 then 0 else ⟨(p.val - 3) / 3 + 1, by omega⟩

/-- The hub index of an upstream port. -/
def hubIdx (u : US) : Fin 2 := u.idx

/-! ### Lane time (R9) -/

/-- Lane time brought forward to an instant, where TB_CLK runs; it never runs backwards (R397). -/
def advanceTo (t : Nat) (s : State) : State := { s with now := if s.clk.tbOn then max s.now t else s.now }

/-- The half-open window [start, stop) of R8 holds an instant. -/
def inWindow (start stop now : Nat) : Bool := decide (start ≤ now ∧ now < stop)

/-- The lane-time quality in force (R398). -/
def laneQuality (s : State) : Nat :=
  if s.clk.interp then 1 else if s.clk.refLost.isSome then 2 else s.clk.quality

/-- A value the block puts on its wires or answers with. -/
def emit (o : Out) (s : State) : State := { s with out := s.out ++ [o] }

/-- The outputs of the command before are gone when a command begins. -/
def fresh (s : State) : State := { s with out := [] }

/-! ### Almanac words (R472–R474) -/

/-- The value a word reads: blank where it was never written or has lost its value (R472). -/
def almRead (s : State) (w : Nat) : Word :=
  if w ∈ s.alm.lost then 0xFFFFFFFF else sparseGet 0xFFFFFFFF s.alm.words w

/-- The writes carried out on a word (R474). -/
def almWear (s : State) (w : Nat) : Nat := sparseGet 0 s.alm.wear w

/-- A word that holds a value it never wrote as blank: bit pattern of ones (R472). -/
def blankWord : Word := 0xFFFFFFFF

/-- One write, not carried out where the value is the word's current one (R473). -/
def almWrite1 (a : Alm) (w : Nat) (v : Word) : Alm :=
  if w ∉ a.lost ∧ sparseGet 0xFFFFFFFF a.words w = v then a
  else { words := sparseSet 0xFFFFFFFF a.words w v
         wear := sparseSet 0 a.wear w (min 1000000 (sparseGet 0 a.wear w + 1))
         lost := a.lost.filter (· ≠ w) }

/-- A list of writes in order. -/
def almWriteAll (a : Alm) (l : List (Nat × Word)) : Alm := l.foldl (fun a e => almWrite1 a e.1 e.2) a

/-- Whether a list of writes, taken in order, would pass the endurance limit of some word (R474). -/
def almExhausted (a : Alm) (l : List (Nat × Word)) : Bool :=
  match l with
  | [] => false
  | e :: r =>
    (decide ((e.1 ∈ a.lost ∨ sparseGet 0xFFFFFFFF a.words e.1 ≠ e.2) ∧ sparseGet 0 a.wear e.1 ≥ 1000000))
      || almExhausted (almWrite1 a e.1 e.2) r

/-- The header word of a valid record with n data words (R475). -/
def recHeader (n : Nat) : Word := BitVec.ofNat 32 (0xA5 + n * 256)

/-- The data words that a packed byte string fills, zero-padded (R475). -/
def packWords (l : List Byte) : List Word :=
  (chunks 4 l).map (fun c => BitVec.ofNat 32 (leNat c))

/-- The writes that persist a record at a word, in the order of R476. -/
def recWrites (s : State) (base : Nat) (data : List Byte) : List (Nat × Word) :=
  let ws := packWords data
  let h := recHeader ws.length
  let cur := almRead s base
  let held := (List.range ws.length).map (fun i => almRead s (base + 1 + i))
  if cur = h ∧ held = ws then []
  else
    let inval := if cur.toNat % 256 = 0xA5 then [(base, BitVec.ofNat 32 (cur.toNat / 256 * 256))] else []
    inval ++ (ws.mapIdx (fun i w => (base + 1 + i, w))) ++ [(base, h)]

/-- The data bytes of the record at a word, or none where it is blank as a whole (R475). -/
def recRead (s : State) (base n : Nat) : Option (List Byte) :=
  if almRead s base = recHeader n then
    some ((List.range n).flatMap (fun i => le 4 (almRead s (base + 1 + i)).toNat))
  else none

/-- A value word's number, or none where the word is blank (R476). -/
def valueWord (s : State) (w : Nat) : Option Nat :=
  if almRead s w = blankWord then none else some (almRead s w).toNat

/-! ### Rings (R423–R432) -/

/-- The number of slots of a ring. -/
def ringDepth (r : Ring) : Nat := 2 ^ r.log2

/-- The slots a ring holds, modulo 65,536 (R424). -/
def ringCount (r : Ring) : Nat := (r.tail + 65536 - r.head) % 65536

/-- The free slots of a ring. -/
def ringFree (r : Ring) : Nat := ringDepth r - ringCount r

/-- The ring-memory address of index i of a ring (R424), counted from the start of ring memory. -/
def slotAddr (r : Ring) (i : Nat) : Nat := (r.base + i % ringDepth r) * 64

/-- The ring of a CMD number. -/
def cmdRing (k : Fin 8) : Fin 16 := ⟨k.val, by omega⟩

/-- The ring of a CPL number (R435). -/
def cplRing (k : Fin 8) : Fin 16 := ⟨k.val + 8, by omega⟩

/-- The pair number of a ring. -/
def ringPair (r : Fin 16) : Fin 8 := ⟨r.val % 8, by omega⟩

/-- The OWNER code of a ring pair: 0 none, 1 SPIT, 2 I2CT, 3 and 4 the LMFs, 5 every transport (R431, R435). -/
def pairOwner (m : Mbx) (k : Fin 8) : Nat :=
  match k.val with
  | 0 => 5
  | 1 => 1
  | 2 => 3
  | 3 => 4
  | 4 => 2
  | n => m.assign.getD (n - 5) 0

/-- A ring runs while RUN is 1 and it has a transport (R435). -/
def ringRuns (m : Mbx) (r : Fin 16) : Bool := m.rings[r].run && pairOwner m (ringPair r) != 0

/-- The slots of an entry with its payload check (R425). -/
def slotsFor (len : Nat) (pchk : Bool) : Nat := (16 + len + 4 * b2n pchk + 63) / 64

/-- The bytes of an entry, CHECK and payload check included, padded to whole slots (R425, R426). -/
def entryBytes (e : Entry) : List Byte :=
  let pchk := bit e.flags 0
  let n := slotsFor e.payload.length pchk
  let h := le 2 e.opcode ++ le 1 e.flags ++ le 1 n ++ le 4 e.tag ++ le 2 e.payload.length ++ le 2 e.status
  let body := h ++ le 4 (crc32c h) ++ e.payload ++ (if pchk then le 4 (crc32c e.payload) else [])
  body ++ List.replicate (64 * n - body.length) 0

/-- The slots of an entry. -/
def entrySlots (e : Entry) : Nat := slotsFor e.payload.length (bit e.flags 0)

/-- Slot contents written from an index on, wrapping from the ring's last slot to its first (R424). -/
def writeSlots (r : Ring) (mem : List Host.Cell) (i : Nat) : List (List Byte) → List Host.Cell
  | [] => mem
  | c :: t => writeSlots r (memWrite 0 mem (slotAddr r i) c) (i + 1) t

/-- The bytes of n slots of a ring from an index on. -/
def readSlots (r : Ring) (mem : List Host.Cell) (i : Nat) : Nat → List Byte
  | 0 => []
  | n + 1 => memRead 0 mem (slotAddr r i) 64 ++ readSlots r mem (i + 1) n

/-- IRQ_STATUS with a bit set (R435). -/
def setIrq (m : Mbx) (n : Nat) : Mbx := { m with irqStatus := m.irqStatus ||| BitVec.ofNat 12 (2 ^ n) }

/-- CPL_READY of a ring that SPIT owns (R435). -/
def cplReady (m : Mbx) (k : Fin 8) : Mbx :=
  { m with irqStatus :=
      if pairOwner m k = 1 ∨ pairOwner m k = 5 then m.irqStatus ||| BitVec.ofNat 12 (2 ^ k.val) else m.irqStatus }

/-- One entry written at a completion ring's TAIL, which then advances; on CPL0 the transports it waits for are
kept (R432). -/
def putEntry (now : Nat) (k : Fin 8) (e : Entry) (m : Mbx) : Mbx :=
  let i := cplRing k
  let r := m.rings[i]
  let n := entrySlots e
  let m1 := { m with
    mem := writeSlots r m.mem r.tail (chunks 64 (entryBytes e))
    rings := m.rings.set i { r with tail := (r.tail + n) % 65536 }
    cpl0 := if k.val = 0 then m.cpl0 ++ [{ idx := r.tail, slots := n, waits := e.dest, at_ := now }] else m.cpl0 }
  cplReady m1 k

/-- Whether a completion ring has room for an entry now. -/
def cplFits (m : Mbx) (k : Fin 8) (e : Entry) : Bool :=
  ringRuns m (cplRing k) && decide (entrySlots e ≤ ringFree m.rings[cplRing k])

/-- Entries of a list written while they fit, and those left over. -/
def flushList (now : Nat) (k : Fin 8) : List Entry → Mbx → Mbx × List Entry
  | [], m => (m, [])
  | e :: t, m =>
    if cplFits m k e then
      flushList now k t (putEntry now k e m)
    else (m, e :: t)

/-- Waiting results first, then stored events, as room frees (R430, R437). -/
def flushCpl (now : Nat) (k : Fin 8) (m : Mbx) : Mbx :=
  let a := flushList now k m.waiting[k] m
  let m1 := { a.1 with waiting := a.1.waiting.set k a.2 }
  if a.2.isEmpty then
    let b := flushList now k m1.store[k] m1
    { b.1 with store := b.1.store.set k b.2 }
  else m1

/-- An EVENTS_LOST event that carries the number merged (R437, R470). -/
def eventsLost (n : Nat) : Entry := { opcode := 0xFF03, flags := 4, tag := 0, status := 0, payload := le 4 n }

/-- The store after the oldest waiting events of a full store are merged into one EVENTS_LOST event (R437). -/
def mergeStore (l : List Entry) : List Entry × Nat :=
  match l with
  | a :: b :: t =>
    if a.opcode = 0xFF03 then (eventsLost (leNat a.payload + 1) :: t, 1)
    else (eventsLost 2 :: t, 2)
  | l => (l, 0)

/-- The loss flags of the transport that a ring belongs to (R435, R436, R437). -/
def markLost (k : Fin 8) (n : Nat) (m : Mbx) : Mbx :=
  if n = 0 then m
  else match pairOwner m k with
    | 1 => setIrq m 9
    | 2 => { m with i2cEvLost := true }
    | 3 => { m with lmf := m.lmf.set 0 { m.lmf[0] with evLost := true, merged := min 0xFFFF (m.lmf[0].merged + n) } }
    | 4 => { m with lmf := m.lmf.set 1 { m.lmf[1] with evLost := true, merged := min 0xFFFF (m.lmf[1].merged + n) } }
    | _ => setIrq { m with i2cEvLost := true } 9

/-- An event placed on a completion ring, through its 64-entry store (R437). -/
def pushEvent (now : Nat) (k : Fin 8) (e : Entry) (m : Mbx) : Mbx :=
  let full := decide (m.store[k].length ≥ 64)
  let g := if full then mergeStore m.store[k] else (m.store[k], 0)
  let m1 := markLost k g.2 { m with store := m.store.set k (g.1 ++ [e]) }
  flushCpl now k m1

/-- The entries of one completion on a completion ring (R429). -/
def pushCpl (now : Nat) (k : Fin 8) (es : List Entry) (m : Mbx) : Mbx :=
  flushCpl now k { m with waiting := m.waiting.set k (m.waiting[k] ++ es) }

/-! ### Events (R469, R470) -/

/-- The transports present for CPL0 events: SPIT and I2CT always, each LMF while its hub is configured (R432). -/
def presentAll (s : State) : List Transport :=
  [.spit, .i2ct] ++ (if s.hubs[0].configured then [.lmf .us0] else []) ++
    (if s.hubs[1].configured then [.lmf .us1] else [])

/-- An event of R470: EVENT set, TAG 0, STATUS 0. -/
def mkEvent (s : State) (code : Nat) (payload : List Byte) : Entry :=
  { opcode := code, flags := 4, tag := 0, status := 0, payload := payload, dest := presentAll s }

/-- *All rings* of R469. -/
def allRings (m : Mbx) : List (Fin 8) :=
  [1, 4] ++ ([5, 6, 7, 2, 3] : List (Fin 8)).filter (fun k => ringRuns m (cplRing k))

/-- An event placed on a list of rings. -/
def eventOn (ks : List (Fin 8)) (code : Nat) (payload : List Byte) (s : State) : State :=
  { s with mbx := ks.foldl (fun m k => pushEvent s.now k (mkEvent s code payload) m) s.mbx }

/-- An event on all rings, but those that carry the final completion that reports the same happening (R448). -/
def eventAll (skip : List (Fin 8)) (code : Nat) (payload : List Byte) (s : State) : State :=
  eventOn ((allRings s.mbx).filter (· ∉ skip)) code payload s

end Sys2Proof.Machine
end

