-- ==== Sys2Proof/Machine/Ecc.lean ====
section
/-! DEFINITION. The in-line ECC of DRAM and the SECDED of PKB: units and their places (R87), check bytes (R88), unit tags (R89), and how a
word with flipped bits decodes. -/

set_option Elab.async false

namespace Sys2Proof.Machine

/-! ### Units (R87) -/

/-- The unit of a usable address. -/
def unitOf (a : Nat) : Nat := a / 48

/-- The physical address of a usable one. -/
def physOf (a : Nat) : Nat := a / 48 * 64 + a % 48

/-- The channel of a unit: 0 is A, 1 is B. -/
def unitChannel (n : Nat) : Nat := n % 2

/-- The physical address of a unit's data word, of that word's check byte, and of the unit's tag. -/
def wordPhys (n w : Nat) : Nat := n * 64 + 4 * w

/-- The physical address of the check byte of a unit's data word. -/
def checkPhys (n w : Nat) : Nat := n * 64 + 48 + w

/-- The physical address of a unit's tag. -/
def tagPhys (n : Nat) : Nat := n * 64 + 60

/-- The first usable address of a DRAM page: 4 KB hold 64 units. -/
def pageStart (n : Nat) : Nat := n * 3072

/-- The page of a unit. -/
def unitPage (n : Nat) : Nat := n / 64

/-! ### SECDED codewords (R88) -/

/-- Bits set among the first n of a number. -/
def bitCount : Nat → Nat → Nat
  | 0, _ => 0
  | n + 1, x => x % 2 + bitCount n (x / 2)

/-- The positions of n data bits in an extended Hamming code, then those of its six checks, then the overall parity's. DESIGN CHOICE: the
spec names the code's size alone (log entry 91). -/
def codePos (n : Nat) : List Nat :=
  ((List.range 64).filter (fun p => decide (2 < p) && !([4, 8, 16, 32] : List Nat).contains p)).take n ++ [1, 2, 4, 8, 16, 32, 0]

/-- The syndrome of a word over the positions of its bits. -/
def syndrome : List Nat → Nat → Nat
  | [], _ => 0
  | p :: t, x => (if x % 2 = 1 then p else 0) ^^^ syndrome t (x / 2)

/-- The codeword of n data bits: six checks that bring the syndrome to 0, then even parity over all. -/
def encodeWord (n d : Nat) : Nat :=
  let c := d + 2 ^ n * syndrome (codePos n) d
  c + 2 ^ (n + 6) * (bitCount (n + 6) c % 2)

/-- How a codeword decodes. -/
inductive Decoded where
  | clean
  | corrected (bit : Nat)
  | uncorrectable
  deriving DecidableEq, Repr

/-- A codeword of n data bits decoded. The code is linear, so the bits that differ from what was written decode as the word does. -/
def decodeWord (n c : Nat) : Decoded :=
  let syn := syndrome (codePos n) c
  if bitCount (n + 7) c % 2 = 0 then (if syn = 0 then .clean else .uncorrectable)
  else match (codePos n).findIdx? (· == syn) with
    | some i => .corrected i
    | none => .uncorrectable

/-- Even parity over physical address bits [32:2] of a data word (R88). -/
def apar (phys : Nat) : Nat := bitCount 31 (phys / 4) % 2

/-- The check byte of a data word at a physical address: seven check bits and APAR (R88). -/
def checkByte (phys d : Nat) : Nat := encodeWord 33 (d % 2 ^ 32 + 2 ^ 32 * apar phys) / 2 ^ 33 + 128 * apar phys

/-- What a read of a DRAM word finds (R88, R99): the bits that differ from what was written, APAR being bit 32 of the codeword. -/
inductive WordRead where
  | clean
  | corrected (bit : Nat)
  | uncorrectable
  | addressError
  deriving DecidableEq, Repr

/-- A DRAM word read: the codeword is decoded, then the corrected APAR is compared with the address's (R88). -/
def readDram (mask : Nat) : WordRead :=
  match decodeWord 33 mask with
  | .uncorrectable => .uncorrectable
  | .clean => if bit mask 32 then .addressError else .clean
  | .corrected i => if bit (mask ^^^ 2 ^ i) 32 then .addressError else .corrected i

/-! ### Unit tags (R89) -/

/-- TCRC over bits [31:8] of a tag and its unit's number. -/
def tagCrc (hi unit : Nat) : Nat :=
  crc8 [hi / 65536 % 256, hi / 256 % 256, hi % 256, unit / 65536 % 256, unit / 256 % 256, unit % 256]

/-- The tag of a unit: OWNER, REGION and TCRC. -/
def unitTag (owner region unit : Nat) : Nat :=
  let hi := owner % 65536 * 256 + region % 256
  hi * 256 + tagCrc hi unit

/-- A tag as it stands in DRAM: its owner and its region, none where its TCRC fails. -/
def readTag (tag unit : Nat) : Option (Nat × Nat) :=
  if tag % 256 = tagCrc (tag / 256) unit then some (tag / 65536 % 65536, tag / 256 % 256) else none

end Sys2Proof.Machine
end

