-- ==== Sys2Proof/Machine/Flags.lean ====
section
/-! DEFINITION. The status words and flags that the spec computes from the state: modes (R379–R382), fault registers
(R404), fault sources and their units (R402, R407, R408), rings (R435) and IRQ_N (R405). -/

set_option Elab.async false

namespace Sys2Proof.Machine

/-! ### Modes -/

/-- The mode ID of R379. -/
def modeId (m : Mode) : Nat := match m with
  | .off => 0 | .hibernate => 1 | .standby => 2 | .boot => 3 | .suspend => 4 | .eco => 5 | .active => 6 | .peak => 7
  | .vigil => 8 | .degraded => 9 | .service => 10 | .safe => 11

/-- The mode an ID names. -/
def idMode (n : Nat) : Option Mode := match n with
  | 0 => some .off | 1 => some .hibernate | 2 => some .standby | 3 => some .boot | 4 => some .suspend
  | 5 => some .eco | 6 => some .active | 7 => some .peak | 8 => some .vigil | 9 => some .degraded
  | 10 => some .service | 11 => some .safe
  | _ => none

/-- The mode of a requested forwarding level: 0 ECO, 1 ACTIVE, 2 PEAK (R382). -/
def levelMode (l : Nat) : Mode := match l with
  | 0 => .eco
  | 2 => .peak
  | _ => .active

/-- The exclusive modes of R381. -/
def isExclusive (m : Mode) : Bool := match m with
  | .off | .hibernate | .standby | .boot | .suspend => true
  | _ => false

/-- Whether any unit of any block is fenced; retired cells and pages do not count (R379). -/
def anyFenced (s : State) : Bool := s.flt.recs.toList.any (fun r => !r.fenced.isEmpty)

/-- The VIGIL condition of R379: no hub ATTACHED or SUSPENDED, and at least one VIGIL or FAILED-OVER. -/
def vigilHolds (s : State) : Bool :=
  let hs := s.hubs.toList.map (·.state)
  !hs.any (fun h => h == .attached || h == .suspended) && hs.any (fun h => h == .vigil || h == .failedOver)

/-- Whether SAFE holds (R379). -/
def safeHolds (s : State) : Bool := s.flt.safeCause.isSome

/-- The run mode reported by the order of R381. -/
def runMode (s : State) : Mode :=
  if safeHolds s then .safe
  else if s.pmu.service then .service
  else if anyFenced s then .degraded
  else if vigilHolds s then .vigil
  else levelMode s.pmu.level

/-- The condition of SUSPEND but for its 2 ms (R380). -/
def suspendCond (s : State) : Bool :=
  let hs := s.hubs.toList.map (·.state)
  hs.any (· == .suspended) &&
    !hs.any (fun h => h == .attached || h == .vigil || h == .failedOver) &&
    !safeHolds s && !s.pmu.service && !anyFenced s

/-- The operating point of a mode (R379), every mode at OPP-N while the core regulator is absent (R381). -/
def modeOpp (locked : Bool) (m : Mode) : Nat :=
  if locked then (match m with | .off | .hibernate | .standby => 0 | _ => 2)
  else match m with
    | .off | .hibernate | .standby => 0
    | .suspend | .eco | .vigil | .safe => 1
    | .boot | .active | .degraded | .service => 2
    | .peak => 3

/-- Whether mode n holds, for PMU_MODE_STAT.FLAGS (R382). -/
def modeHolds (s : State) (m : Mode) : Bool :=
  if isExclusive s.pmu.reported then m == s.pmu.reported
  else match m with
    | .eco | .active | .peak => levelMode s.pmu.level == m
    | .vigil => vigilHolds s
    | .degraded => anyFenced s
    | .service => s.pmu.service
    | .safe => safeHolds s
    | _ => false

/-- Every mode, in ID order. -/
def allModes : List Mode :=
  [.off, .hibernate, .standby, .boot, .suspend, .eco, .active, .peak, .vigil, .degraded, .service, .safe]

/-- PMU_MODE_SEL (R382). -/
def modeSelWord (s : State) : Nat := modeId s.pmu.target + 16 * s.pmu.targetOpp

/-- The FLAGS field of PMU_MODE_STAT (R382). -/
def modeFlags (s : State) : Nat :=
  (allModes.map (fun m => b2n (modeHolds s m) * 2 ^ modeId m)).foldl (· + ·) 0

/-- PMU_MODE_STAT (R382). -/
def modeStatWord (s : State) : Nat :=
  modeId s.pmu.reported + 2 ^ 4 * s.pmu.opp + 2 ^ 6 * s.pmu.level + 2 ^ 8 * modeFlags s +
  2 ^ 20 * b2n s.pmu.inProg.isSome + 2 ^ 21 * b2n s.pmu.pend.isSome +
  2 ^ 22 * ((s.pmu.inProg.map (fun t => modeId t.target)).getD 0) +
  2 ^ 26 * ((s.pmu.pend.map (fun t => modeId t.target)).getD 0) + 2 ^ 30 * b2n s.pmu.oppLocked

/-! ### Fault classes, sources and units -/

/-- Class codes of R404. -/
def clsCode (c : FClass) : Nat := match c with
  | .ce => 1
  | .uc => 2
  | .ft => 3

/-- The privileged blocks of R402. -/
def privileged (b : Block) : Bool := match b with
  | .pmu | .cru | .sage | .almanac | .dmc => true
  | _ => false

/-- The class of RAM_UE (R402). -/
def ramUeClass (b : Block) : FClass := match b with
  | .pmu | .cru | .sage | .lovage | .almanac | .dmc | .pkb | .fab | .adc | .psl => .ft
  | _ => .uc

/-- Whether a block is a port block. -/
def isPortBlock (b : Block) : Bool := match b with
  | .us _ | .ds _ => true
  | _ => false

/-- The class of a source of a block, and whether it is only counted (R407, R408); none where it is not defined. -/
def srcClass (b : Block) (n : Nat) : Option (FClass × Bool) :=
  match n with
  | 0 => some (.ce, false)
  | 1 | 2 => some (.uc, false)
  | 3 => some (.ce, false)
  | 4 => some (ramUeClass b, false)
  | n => match b, n with
    | .pmu, 8 | .pmu, 9 | .pmu, 15 => some (.ft, false)
    | .pmu, 10 | .pmu, 11 | .pmu, 12 | .pmu, 13 => some (.uc, false)
    | .pmu, 14 => some (.ce, false)
    | .cru, 8 | .cru, 9 => some (.ft, false)
    | .cru, 10 => some (.uc, false)
    | .sage, 8 | .sage, 9 => some (.ft, false)
    | .sage, 10 => some (.uc, false)
    | .lovage, 8 | .lovage, 9 => some (.ce, false)
    | .almanac, 8 => some (.ce, false)
    | .almanac, 9 | .almanac, 10 => some (.uc, false)
    | .almanac, 11 => some (.ft, false)
    | .dmc, 8 | .dmc, 9 => some (.ce, false)
    | .dmc, 10 | .dmc, 11 | .dmc, 12 => some (.uc, false)
    | .dmc, 13 | .dmc, 14 | .dmc, 15 => some (.ft, false)
    | .pkb, 8 => some (.ce, false)
    | .pkb, 9 => some (.uc, false)
    | .pkb, 10 => some (.ft, false)
    | .fab, 8 => some (.uc, false)
    | .fab, 9 => some (.ft, false)
    | .adc, 8 => some (.uc, false)
    | .adc, 9 => some (.ft, false)
    | .psl, 8 => some (.ce, true)
    | .psl, 9 => some (.uc, false)
    | .psl, 10 => some (.ft, false)
    | .dpx, 8 => some (.uc, false)
    | .lio, 8 => some (.uc, false)
    | .vigil, 8 => some (.uc, false)
    | .us _, 8 | .ds _, 8 => some (.ce, true)
    | .us _, 9 | .us _, 10 | .us _, 11 | .us _, 12 | .us _, 13 => some (.uc, false)
    | .ds _, 9 | .ds _, 10 | .ds _, 11 | .ds _, 12 | .ds _, 13 => some (.uc, false)
    | .chv _, 8 | .thy _, 8 => some (.ft, false)
    | .chv _, 9 => some (.uc, false)
    | _, _ => none

/-- The six sources that leave nothing fenced (R408). -/
def leavesNothing (b : Block) (n : Nat) : Bool := match b, n with
  | .pmu, 10 | .pmu, 11 | .pmu, 12 | .pmu, 13 => true
  | .sage, 10 => true
  | .us _, 9 | .ds _, 9 => true
  | _, _ => false

/-- The sources that judge a level and raise again every 1 ms (R408). -/
def levelSource (b : Block) (n : Nat) : Bool := match b, n with
  | .pmu, 8 | .pmu, 9 | .cru, 8 | .cru, 9 | .cru, 10 | .psl, 10 => true
  | .us _, 11 | .ds _, 11 => true
  | _, _ => false

/-- The unit that a UC of a block fences (R402), by its number; in PLACE a number from 0x1000 on is a port's code (R214). -/
def blockUnit (b : Block) (n : Nat) : Option FUnit := match b with
  | .pmu | .sage | .lovage => none
  | .cru => some .txpll
  | .almanac => some (.word n)
  | .dmc => some (.page n)
  | .pkb => some (.cell n)
  | .fab => some (.portOf n)
  | .sched => some (.epq n)
  | .place => if n ≥ 0x1000 then some (.portOf (n - 0x1000)) else some (.epq n)
  | .mbx => some (.ring n)
  | .adc => some (.channel n)
  | .psl => some (.portOf n)
  | .dpx => some (.route n)
  | .lio => some (.output n)
  | .vigil => some (.ctx n)
  | .us _ | .ds _ | .chv _ | .thy _ => some .whole

/-- The unit that a UC source fences (R408), by the number it names. -/
def srcUnit (b : Block) (src n : Nat) : Option FUnit :=
  if leavesNothing b src then none
  else match b, src with
    | .dmc, 11 => some (.ctx n)
    | .chv _, 9 => some (.epq n)
    | _, _ => blockUnit b n

/-- Whether a source names a finer unit than its block (R462). -/
def namesFiner (b : Block) (src : Nat) : Bool := match b, src with
  | .pmu, 13 => false
  | .pmu, _ => false
  | .cru, _ | .lovage, _ => false
  | .sage, 10 => true
  | .sage, _ => false
  | .almanac, 11 => false
  | .dmc, 8 | .dmc, 14 | .dmc, 15 => false
  | .pkb, 10 => false
  | .fab, 9 => false
  | .adc, 9 => false
  | .psl, 10 => false
  | .us _, 8 | .us _, 9 | .ds _, 8 | .ds _, 9 => true
  | .us _, _ | .ds _, _ | .thy _, _ => false
  | .chv _, 9 => true
  | .chv _, _ => false
  | b, n => (srcClass b n).isSome

/-- The largest unit number a finer source can name. -/
def unitMax (b : Block) (src : Nat) : Nat := match b with
  | .sage => 31
  | .almanac => 4095
  | .dmc => if src = 11 then 95 else 0x1FFFFF
  | .pkb => 16383
  | .fab => 0x4D
  | .sched | .place | .chv _ => 511
  | .mbx => 15
  | .adc | .psl => 0x30
  | .dpx | .lio => 1
  | .vigil => 95
  | _ => 15

/-- Whether a source can name a unit number (R462). -/
def unitOk (b : Block) (src n : Nat) : Bool :=
  if namesFiner b src then
    (match b with
     | .adc | .psl => (codePort n).isSome
     | .fab => (idBlock n).isSome
     | _ => decide (n ≤ unitMax b src))
  else decide (n = blockId b)

/-- The default unit of a source (R462): unit 0 of a finer kind, of a port or block kind its first, else the block. -/
def defaultUnit (b : Block) (src : Nat) : Nat :=
  if namesFiner b src then (match b with | .adc | .psl => 0x10 | _ => 0) else blockId b

/-- FLT_FIRST.UNIT of a unit number: bits [32:13] of the address of a DRAM page, else the number (R404). -/
def unitCode (b : Block) (src n : Nat) : Nat :=
  if b = .dmc ∧ namesFiner b src ∧ src ≠ 11 then n / 2 % 2 ^ 20 else if b = .place ∧ n ≥ 0x1000 then n - 0x1000 else n % 2 ^ 20

/-- The dependency set of R402. -/
def depends (b other : Block) : Bool :=
  other != b && (match b with
  | .pmu | .cru | .sage | .almanac | .dmc => true
  | .lovage => other == .pmu || other == .adc
  | .pkb => other == .fab || other == .sched || other == .dmc || (match other with | .chv _ => true | _ => false) ||
      isPortBlock other
  | .fab => !privileged other
  | .sched => other == .fab || (match other with
      | .chv _ | .us _ => true
      | .ds d => decide (d.val < 8)
      | _ => false)
  | .place => other == .fab || other == .sched || (match other with | .chv _ => true | _ => false)
  | .mbx => other == .sage || (match other with | .us _ => true | _ => false)
  | .adc => other == .psl || isPortBlock other || (match other with | .thy _ => true | _ => false)
  | .psl => other == .adc || isPortBlock other || (match other with | .thy _ => true | _ => false)
  | .dpx => (match other with | .ds d => decide (d.val < 8) | _ => false)
  | .lio => false
  | .vigil => other == .sched || isPortBlock other || (match other with | .chv _ => true | _ => false)
  | .us _ => other == .fab || other == .sched || other == .mbx || other == .vigil || other == .thy 0
  | .ds d => other == .fab || other == .sched || other == .vigil || other == .psl ||
      other == .thy (portThy (dsPort d)) || (other == .dpx && decide (d.val < 8))
  | .chv _ => other == .fab || other == .pkb || other == .sched || other == .place || other == .vigil ||
      other == .dmc || isPortBlock other
  | .thy t => other == .psl || other == .adc || (match other with
      | .us u => decide (portThy (usPort u) = t)
      | .ds d => decide (portThy (dsPort d) = t)
      | _ => false))

/-! ### Fault registers -/

/-- A record with an acknowledgement that waited for its reaction now applied (R422). -/
def ackRec (r : FltRec) : FltRec :=
  { r with source := 0, cls := none, conseq := false, escalated := false, unit := 0, addr := 0, time := 0, pending := false
           overflow := false, alsoCe := false, alsoUc := false, alsoFt := false, quality := 0, forced := false
           cause := 0, seen := 0, kept := false, leavesNone := false, ackAt := none }

/-- A record as it stands at an instant. -/
def recAt (now : Nat) (r : FltRec) : FltRec :=
  match r.ackAt with
  | some t => if t ≤ now then ackRec r else r
  | none => r

/-- A block's fault record now. -/
def fltRec (s : State) (b : Block) : FltRec := recAt s.now s.flt.recs[blockIdx b]

/-- A block's fault record replaced. -/
def setRec (b : Block) (r : FltRec) (s : State) : State :=
  { s with flt := { s.flt with recs := s.flt.recs.set (blockIdx b) r } }

/-- FLT_RECOV.LIMIT of a block, from its fault policy word, its reset value where the word is blank (R404, R477). -/
def fltLimit (s : State) (b : Block) : Nat :=
  let d := if privileged b then 3 else 10
  match valueWord s (0x510 + 2 * blockId b) with
  | none => d
  | some w => if bits w 31 16 ≤ 1000 then bits w 31 16 else d

/-- FLT_QUIET.QUIET_UC in ms (R404). -/
def quietUc (s : State) (b : Block) : Nat :=
  match valueWord s (0x511 + 2 * blockId b) with
  | none => 2000
  | some w => if 100 ≤ bits w 15 0 ∧ bits w 15 0 ≤ 60000 then bits w 15 0 else 2000

/-- FLT_QUIET.QUIET_FT in ms (R404). -/
def quietFt (s : State) (b : Block) : Nat :=
  match valueWord s (0x511 + 2 * blockId b) with
  | none => 5000
  | some w => if 100 ≤ bits w 31 16 ∧ bits w 31 16 ≤ 60000 then bits w 31 16 else 5000

/-- FLT_RECOV.COUNT: re-admissions in the last 24 h of lane time (R414). -/
def fltCount (s : State) (b : Block) : Nat :=
  ((fltRec s b).readmits.filter (fun t => decide (s.now < t + 86400000000000 ∧ t < s.now + 1))).length

/-- A device-wide fault policy value in a range, its blank value otherwise (R410). -/
def policyWord (s : State) (w lo hi blank : Nat) : Nat :=
  match valueWord s w with
  | none => blank
  | some v => if lo ≤ v ∧ v ≤ hi then v else blank

/-- ACK_MODE is HOST (R410). The code of HOST is 1, of AUTO 0, in the order of its range. -/
def ackHost (s : State) : Bool := policyWord s 0x500 0 1 0 = 1

/-- ACK_HOLD in ns (R410). -/
def ackHoldNs (s : State) : Nat := policyWord s 0x501 1 600 10 * 100000000

/-- SHADOW in ns (R410). -/
def shadowNs (s : State) : Nat := policyWord s 0x502 1 500 20 * 100000

/-- TEST_ENABLE holds its enabling value (R410). -/
def testEnabled (s : State) : Bool := valueWord s 0x503 == some 0x7E57

/-- FLT_STATUS (R404). -/
def fltStatusWord (now : Nat) (r : FltRec) : Nat :=
  b2n r.pending + 2 * b2n r.overflow + 4 * b2n r.alsoCe + 8 * b2n r.alsoUc + 16 * b2n r.alsoFt +
  32 * b2n (!r.fenced.isEmpty) + 64 * b2n (match r.quietEnd with | some t => decide (now < t) | none => false) +
  128 * b2n r.limitHeld + 256 * r.quality + 1024 * b2n r.forced + 2048 * b2n (r.fenced.any (·.byCmd))

/-- The word at index i of a block's fault registers, offset 4 × i; the WO words read 0 (R404, R462). -/
def fltWord (s : State) (b : Block) (i : Nat) : Nat :=
  let r := fltRec s b
  match i with
  | 0 => r.unit + 2 ^ 20 * b2n r.escalated + 2 ^ 21 * b2n r.conseq +
         2 ^ 22 * ((r.cls.map clsCode).getD 0) + 2 ^ 24 * r.source
  | 1 => r.time % 2 ^ 32
  | 2 => r.time / 2 ^ 32 % 2 ^ 32
  | 3 => fltStatusWord s.now r
  | 6 => r.mask.toNat
  | 7 => min 0xFFFF (fltCount s b) + 2 ^ 16 * fltLimit s b
  | 8 => quietUc s b + 2 ^ 16 * quietFt s b
  | 9 => r.cause
  | 10 => r.ceCount
  | _ => 0

/-- The eleven words of a block's record (R462). -/
def fltRecord (s : State) (b : Block) : List Byte := (List.range 11).flatMap (fun i => le 4 (fltWord s b i))

/-- A block's fault line: PENDING, unless every source seen since the last acknowledgement is masked (R405). -/
def fltLine (s : State) (b : Block) : Bool :=
  let r := fltRec s b
  r.pending && (r.seen &&& ~~~r.mask) != 0

/-- IRQ_N is driven low (R81, R405, R435): in recovery while the load buffer is free. -/
def irqLow (s : State) : Bool :=
  (s.sup.recovery && !s.sup.ready && !s.fw.recDone) || (s.mbx.irqStatus &&& s.mbx.irqEnable) != 0 || allBlocks.any (fltLine s)

/-! ### Fenced units -/

/-- A unit of a block is fenced. -/
def unitFenced (s : State) (b : Block) (u : FUnit) : Bool :=
  (fltRec s b).reset || (fltRec s b).fenced.any (fun f => f.unit == u || f.unit == .whole)

/-- A whole port, engine or block is fenced: by its own record, or by the fabric port that serves it (R402). -/
def blockFenced (s : State) (b : Block) : Bool :=
  (fltRec s b).reset || (fltRec s b).fenced.any (·.unit == .whole) ||
    (fltRec s .fab).fenced.any (fun f => f.unit == .portOf (blockId b) || f.unit == .whole)

/-- A port is fenced: its own block, its PSL path, its VBS channel or its translation entries (R214, R402). -/
def portFenced (s : State) (p : Port) : Bool :=
  blockFenced s (portBlock p) ||
    (fltRec s .psl).fenced.any (fun f => f.unit == .portOf (portCode p) || f.unit == .whole) ||
    (fltRec s .place).fenced.any (fun f => f.unit == .portOf (portCode p)) ||
    (fltRec s .adc).fenced.any (fun f => f.unit == .channel (portCode p) || f.unit == .whole)

/-- A port's PSL path is fenced (R460). -/
def pslFenced (s : State) (p : Port) : Bool :=
  (fltRec s .psl).fenced.any (fun f => f.unit == .portOf (portCode p) || f.unit == .whole)

/-! ### Rings -/

/-- RING_CTRL (R435). -/
def ringCtrlWord (s : State) (r : Fin 16) : Nat :=
  let g := s.mbx.rings[r]
  b2n g.run + 4 * b2n g.err + 16 * g.errCode + 256 * pairOwner s.mbx (ringPair r)

/-- RING_GEOM (R435). -/
def ringGeomWord (s : State) (r : Fin 16) : Nat := s.mbx.rings[r].base + 1024 * s.mbx.rings[r].log2

end Sys2Proof.Machine
end

