-- ==== Sys2Proof/Machine/Latch.lean ====
section
/-! DEFINITION. Latching, merging, escalation, shadows, quiet periods, fencing and acknowledgement of fault records
(R405–R415), as operations on the records alone; what a fenced unit does elsewhere is in Reactions. -/

set_option Elab.async false

namespace Sys2Proof.Machine

/-- The FAULT event of R470. -/
def faultPayload (s : State) (b : Block) (reaction : Nat) : List Byte :=
  le 1 (blockId b) ++ le 1 reaction ++ [0, 0] ++ fltRecord s b

/-- A FAULT event on CPL0, and also on CPL1 for SAFE (R410, R470). -/
def faultEvent (b : Block) (reaction : Nat) (s : State) : State :=
  eventOn (if reaction = 3 then [0, 1] else [0]) 0xFF04 (faultPayload s b reaction) s

/-- The shadow open over a block now, if any (R412): the newest that covers it. -/
def shadowOver (s : State) (b : Block) : Option Block :=
  ((s.flt.shadows.filter (fun w =>
      decide (w.start ≤ s.now) && (match w.stop with | some t => decide (s.now < t) | none => true) &&
      (if w.every then w.block != b else depends w.block b))).getLast?).map (·.block)

/-- A higher class of two. -/
def clsMax (a b : FClass) : FClass := if clsCode a ≥ clsCode b then a else b

/-- What a raised source turned into: the class of the reaction it takes, if any, and whether it is consequential. -/
structure Raised where
  react : Option FClass
  conseq : Bool
  merged : Bool
  deriving DecidableEq, Repr

/-- The ALSO_SEEN bit of a class set (R409). -/
def alsoSeen (c : FClass) (r : FltRec) : FltRec :=
  match c with
  | .ce => { r with alsoCe := true, overflow := true }
  | .uc => { r with alsoUc := true, overflow := true }
  | .ft => { r with alsoFt := true, overflow := true }

/-- The bound within which a reaction completes (R411). -/
def reactNs (c : FClass) : Nat := match c with
  | .ce => 0
  | .uc => 2000
  | .ft => 5000

/-- A source marked as seen since the last acknowledgement (R405). -/
def markSeen (n : Nat) (r : FltRec) : FltRec := { r with seen := r.seen ||| BitVec.ofNat 32 (2 ^ n) }

/-- One latched source of a block (R409, R412): the record after it, and the reaction it takes. -/
def latchRec (now quality : Nat) (b : Block) (src unit : Nat) (forced : Bool) (shadow : Option Block) (c : FClass)
    (r : FltRec) : FltRec × Raised :=
  let r := markSeen src r
  if !r.pending then
    ({ r with source := src, cls := some c, conseq := shadow.isSome, escalated := false
              unit := unitCode b src unit
              addr := if b = .dmc ∧ namesFiner b src ∧ src ≠ 11 then unit * 4096 else 0
              time := now, pending := true, quality := quality, forced := forced
              cause := (shadow.map blockId).getD 0, kept := false, leavesNone := leavesNothing b src
              reactEnd := if shadow.isSome && c != .ft then r.reactEnd else now + reactNs c
              reactCls := if shadow.isSome && c != .ft then r.reactCls else some c },
     { react := if shadow.isSome && c != .ft then none else some c, conseq := shadow.isSome, merged := false })
  else if shadow.isSome then
    (alsoSeen c r, { react := if c = .ft then some .ft else none, conseq := true, merged := false })
  else if now < r.reactEnd then
    let prev := r.reactCls.getD .ce
    if clsCode c > clsCode prev then
      ({ (alsoSeen c r) with reactCls := some c, reactEnd := now + reactNs c },
       { react := some c, conseq := false, merged := true })
    else (alsoSeen c r, { react := none, conseq := false, merged := true })
  else if privileged b && r.cls == some c && !r.conseq && !r.kept && c != .ft then
    let up := if c = .ce then FClass.uc else FClass.ft
    ({ (alsoSeen up (alsoSeen c r)) with escalated := true, reactEnd := now + reactNs up, reactCls := some up },
     { react := some up, conseq := false, merged := false })
  else
    ({ (alsoSeen c r) with reactEnd := now + reactNs c, reactCls := some c },
     { react := some c, conseq := false, merged := false })

/-- A unit fenced in a record: by a fault, or by FENCE (R411, R415). -/
def fenceIn (u : FUnit) (byFault byCmd vbusOff forced : Bool) (r : FltRec) : FltRec :=
  if r.fenced.any (·.unit == u) then
    { r with fenced := r.fenced.map (fun f =>
        if f.unit == u then
          { f with byFault := f.byFault || byFault, byCmd := f.byCmd || byCmd, vbusOff := f.vbusOff || vbusOff
                   forced := f.forced && forced }
        else f) }
  else
    { r with fenced := r.fenced ++
        [{ unit := u, byFault := byFault, byCmd := byCmd, held := false, vbusOff := vbusOff, forced := forced }] }

/-- A quiet period started by a fault at an instant (R414): the block's period ends when every one so started has. -/
def startQuiet (stop : Nat) (r : FltRec) : FltRec :=
  { r with quietEnd := some (match r.quietEnd with | some t => max t stop | none => stop) }

/-- A shadow opened by the reaction of a whole block (R412). -/
def openShadow (b : Block) (s : State) : State :=
  let live := s.flt.shadows.filter (fun w => match w.stop with | some t => decide (s.now < t) | none => true)
  let w : Shadow := { block := b, start := s.now, stop := some (s.now + shadowNs s), every := false }
  { s with flt := { s.flt with shadows := live ++ [w] } }

/-- A unit that is a whole block: its fence opens a shadow (R412). -/
def isWhole (u : FUnit) : Bool := match u with
  | .whole => true
  | _ => false

/-- Whether the fence of a source takes VBUS away (R413). -/
def fenceCutsVbus (b : Block) (src : Nat) : Bool := match b, src with
  | .us _, 10 | .us _, 11 | .us _, 12 | .ds _, 10 | .ds _, 11 | .ds _, 12 => true
  | .psl, 9 => true
  | .adc, 8 => true
  | _, _ => false

/-- A CE counted in FLT_CE_COUNT, which saturates (R404, R406). -/
def countCe (b : Block) (s : State) : State :=
  let r := fltRec s b
  setRec b { r with ceCount := min 0xFFFFFFFF (r.ceCount + 1) } s

/-- The records of a reaction (R411, R412, R414): a UC fences its unit and starts QUIET_UC, an FT in a non-privileged
block fences it whole and starts QUIET_FT, and an FT in a privileged block asks for SAFE. -/
def reactRec (b : Block) (src unit : Nat) (forced : Bool) (c : FClass) (s : State) : State :=
  match c with
  | .ce => s
  | .uc =>
    match srcUnit b src unit with
    | none => s
    | some u =>
      let r := fenceIn u true false (fenceCutsVbus b src) forced (fltRec s b)
      let r := startQuiet (s.now + quietUc s b * 1000000) r
      let s := setRec b r s
      if isWhole u then openShadow b s else s
  | .ft =>
    if privileged b then
      let r := startQuiet (s.now + quietFt s b * 1000000) (fltRec s b)
      let s := setRec b r s
      if s.flt.safeCause.isSome then { s with flt := { s.flt with safeAt := s.now } }
      else { s with flt := { s.flt with safePend := if s.flt.safePend.isSome then s.flt.safePend else some b } }
    else
      let r := fenceIn .whole true false false forced (fltRec s b)
      let r := startQuiet (s.now + quietFt s b * 1000000) { r with reset := true }
      openShadow b (setRec b r s)

/-- The reaction code of a FAULT event (R470). -/
def reactionCode (b : Block) (src unit : Nat) (c : Option FClass) : Nat := match c with
  | none => 0
  | some .ce => 0
  | some .uc => if (srcUnit b src unit).isSome then 1 else 0
  | some .ft => if privileged b then 3 else 2

/-- A FAULT event reports a new record and each new fence (R410): a fault that only merges with an earlier one places none. -/
def reported (r r' : FltRec) : Bool :=
  !r.pending || r'.fenced.any (fun f => !r.fenced.any (·.unit == f.unit)) || (r'.reset && !r.reset)

/-- A source raised in a block (R406–R412): counted, latched, merged or escalated, with its records and its event. The
second part is the class of the reaction taken. -/
def raiseRec (b : Block) (src unit : Nat) (forced persistent : Bool) (s : State) : State × Option FClass :=
  match srcClass b src with
  | none => (s, none)
  | some (c, countedOnly) =>
    let s := if c = .ce then countCe b s else s
    if c = .ce ∧ (countedOnly = true ∨ persistent = false) then (s, none)
    else
      let x := latchRec s.now (laneQuality s) b src unit forced (shadowOver s b) c (fltRec s b)
      let s1 := setRec b x.1 s
      let s2 := match x.2.react with
        | some k => reactRec b src unit forced k s1
        | none => s1
      let code := reactionCode b src unit x.2.react
      (if code = 3 ∨ reported (fltRec s b) (fltRec s2 b) = false then s2 else faultEvent b code s2, x.2.react)

/-- Re-admission of the units of a block that a quiet period may re-admit (R414): those of FENCE and those held stay. -/
def readmitRec (r : FltRec) : FltRec :=
  { r with fenced := (r.fenced.filter (fun f => f.byCmd || f.held)).map (fun f => { f with byFault := f.held })
           reset := r.fenced.any (fun f => f.unit == .whole && f.held) && r.reset
           quietEnd := none }

/-- FLT_ACK (R404): at once, or when the reaction under way completes (R422). -/
def ackBlock (b : Block) (s : State) : State :=
  let r := fltRec s b
  setRec b (if s.now < r.reactEnd then { r with ackAt := some r.reactEnd } else ackRec r) s

/-- FLT_ACK.CE_CLEAR (R404). -/
def ceClear (b : Block) (s : State) : State := setRec b { fltRec s b with ceCount := 0 } s

end Sys2Proof.Machine
end

