-- ==== Sys2Proof/Machine/Operands.lean ====
section
/-! DEFINITION. The operand forms of Martar commands: mode classes, rings, lengths, reserved fields and targets (R425–R431,
R441–R448), and the completion that every command receives. -/

set_option Elab.async false

namespace Sys2Proof.Machine

/-! ### Status codes (R444) -/

def stOk : Nat := 0x0000
def stAccepted : Nat := 0x0001
def stBusy : Nat := 0x0101
def stSuperseded : Nat := 0x0102
def stBadOpcode : Nat := 0x0201
def stBadLength : Nat := 0x0202
def stBadCheck : Nat := 0x0203
def stBadTarget : Nat := 0x0204
def stMode : Nat := 0x0301
def stOwned : Nat := 0x0302
def stSealed : Nat := 0x0303
def stEndurance : Nat := 0x0401
def stFenced : Nat := 0x0501

/-- What a command answers: its status, its result in entries of its own or one to be cut, and the work it leaves in
progress where it is ACCEPTED (R429). -/
structure Reply where
  status : Nat
  parts : List (List Byte) := [[]]
  acc : Option AccKey := none
  deriving DecidableEq, Repr

/-- OK with a result. -/
def okR (p : List Byte) : Reply := { status := stOk, parts := [p] }

/-- A completion with an error status. -/
def errR (st : Nat) : Reply := { status := st }

/-- ACCEPTED, with the work in progress. -/
def accR (k : AccKey) : Reply := { status := stAccepted, acc := some k }

/-- The mode classes of R446; FAULT_INJECT has its own (R462). -/
inductive ModeClass where
  | any | bootRun | run | service | inject
  deriving DecidableEq, Repr

/-- What the tables of chapter 19 fix for a command besides its payload. -/
structure CmdSpec where
  opcode : Nat
  cls : ModeClass
  onCmd0 : Req → Bool := fun _ => false
  onI2ct : Bool := false
  safeOk : Req → Bool := fun _ => false
  lenOk : List Byte → Bool
  resvOk : List Byte → Bool := fun _ => true

/-- The payload has the fixed length n. -/
def len (n : Nat) (p : List Byte) : Bool := decide (p.length = n)

/-- A field of w bytes is zero. -/
def zeroAt (off w : Nat) (p : List Byte) : Bool := fld p off w == 0

/-- The ring accepts the command (R431). -/
def ringAccepts (c : CmdSpec) (r : Req) (m : Mbx) : Bool :=
  match r.ring.val with
  | 0 => c.onCmd0 r
  | 1 | 2 | 3 => true
  | 4 => c.onI2ct
  | _ => if pairOwner m r.ring = 2 then c.onI2ct else true

/-- The mode accepts the command (R418, R446, R462). -/
def modeOk (c : CmdSpec) (r : Req) (s : State) : Bool :=
  match s.pmu.reported with
  | .off | .hibernate | .standby => false
  | .safe => c.safeOk r && (r.ring.val == 0 || r.ring.val == 1)
  | .boot => s.sup.ready && (match c.cls with | .any | .bootRun => true | _ => false)
  | .service => true
  | _ => match c.cls with
    | .any | .bootRun | .run => true
    | .service => false
    | .inject => testEnabled s

/-- The virtual hub whose LMF ring a command came on, or none from a transport of the supervisor (R431). -/
def reqHub (r : Req) : Option US :=
  match r.ring.val with
  | 2 => some .us0
  | 3 => some .us1
  | 0 => (match r.via with | .lmf u => some u | _ => none)
  | _ => none

/-- The ring holds 32 ACCEPTED commands without a final completion (R437). -/
def accFull (r : Req) (s : State) : Bool := decide ((s.mbx.acc.filter (fun a => a.ring = r.ring)).length ≥ 32)

/-- Work of a kind is under way. -/
def accBusy (k : AccKey) (s : State) : Bool := s.mbx.acc.any (fun a => a.key == k)

/-- The first status whose check fails, if any: the checks stand in the order of R445. -/
def firstFail : List (Bool × Nat) → Option Nat
  | [] => none
  | (ok, st) :: t => if ok then firstFail t else some st

/-- The checks that every command passes first (R427, R431, R441, R446). -/
def precheck (c : CmdSpec) (r : Req) (s : State) : Option Nat :=
  firstFail
    [(decide (r.flags.toNat / 16 = 0), stBadOpcode), (ringAccepts c r s.mbx, stBadOpcode),
     (c.lenOk r.payload, stBadLength), (c.resvOk r.payload, stBadOpcode), (modeOk c r s, stMode)]

/-- The entries of a completion (R425, R429): a result longer than one entry continues with MORE. -/
def cplEntries (op flags tag status : Nat) (dest : List Transport) (pchk : Bool) (parts : List (List Byte)) :
    List Entry :=
  let ps := parts.flatMap (chunks (if pchk then 1004 else 1008))
  ps.mapIdx (fun i p =>
    { opcode := op, flags := flags + b2n pchk + (if i + 1 < ps.length then 8 else 0), tag := tag, status := status
      payload := p, dest := dest })

/-- The transport a completion on CPL0 is delivered to (R432). -/
def viaOf (r : Req) : List Transport := if r.ring.val = 0 then [r.via] else []

/-- The immediate completion of a command on its paired ring, and an ACCEPTED command kept (R429). -/
def postReply (op : Nat) (r : Req) (rep : Reply) (s : State) : State :=
  let pchk := r.flags.toNat % 2 == 1
  let m := pushCpl s.now r.ring (cplEntries op 0 r.tag.toNat rep.status (viaOf r) pchk rep.parts) s.mbx
  { s with mbx := match rep.acc with
      | none => m
      | some k => { m with acc := m.acc ++
          [{ ring := r.ring, via := r.via, opcode := op, tag := r.tag.toNat, pchk := pchk, key := k }] } }

/-- The result of a reply in bytes, header and payload check included (R436). -/
def replyBytes (r : Req) (rep : Reply) : Nat :=
  16 + (rep.parts.map List.length).foldl (· + ·) 0 + 4 * (r.flags.toNat % 2)

/-- A Martar command (R428, R429, R445): checked, carried out and completed; a command that fails a check changes nothing
else. On CMD4 a result longer than 255 bytes completes with BAD_LENGTH (R436). -/
def runCmd (c : CmdSpec) (f : Req → State → State × Reply) (r : Req) (s : State) : State :=
  let s := fresh s
  match precheck c r s with
  | some st => postReply c.opcode r (errR st) s
  | none =>
    let x := f r s
    if x.2.acc.isSome ∧ accFull r s then postReply c.opcode r (errR stBusy) s
    else if r.ring.val = 4 ∧ replyBytes r x.2 > 255 then postReply c.opcode r (errR stBadLength) s
    else postReply c.opcode r x.2 x.1

/-- The final completion of an ACCEPTED command (R429, R448): EVENT set, its own OPCODE and TAG, on the same ring. -/
def finalOf (a : Acc) (status : Nat) (payload : List Byte) (s : State) : State :=
  let es := cplEntries a.opcode 4 a.tag status (if a.ring.val = 0 then [a.via] else []) a.pchk [payload]
  { s with mbx := pushCpl s.now a.ring es { s.mbx with acc := s.mbx.acc.filter (· ≠ a) } }

/-- The final completions of the work under a key. -/
def finalCpl (k : AccKey) (status : Nat) (payload : List Byte) (s : State) : State :=
  (s.mbx.acc.filter (fun a => a.key = k)).foldl (fun s a => finalOf a status payload s) s

/-- The rings that carry the final completions of the work under a key (R448). -/
def accRings (k : AccKey) (s : State) : List (Fin 8) := (s.mbx.acc.filter (fun a => a.key = k)).map (·.ring)

/-- TARGET names neither a port nor a block (R442). -/
def noTarget (r : Req) : Bool := r.target == 0

/-- The low byte of TARGET, where the high byte is 0 (R425). -/
def targetByte (r : Req) : Option Nat := if r.target.toNat < 256 then some r.target.toNat else none

/-- The port that TARGET names. -/
def targetPort (r : Req) : Option Port := (targetByte r).bind codePort

/-- The downstream port that TARGET names. -/
def targetDs (r : Req) : Option DS := (targetByte r).bind codeDs

/-- The upstream port that TARGET names. -/
def targetUs (r : Req) : Option US := (targetByte r).bind codeUs

/-- The block that TARGET names (R402). -/
def targetBlock (r : Req) : Option Block := (targetByte r).bind idBlock

end Sys2Proof.Machine
end

