-- ==== Sys2Proof/Machine/RingOps.lean ====
section
/-! DEFINITION. What a transport does to the rings: doorbells, consumption, geometry, reset, the priority path, and the
registers and memory that SPIT reaches (R423, R424, R432–R438). -/

set_option Elab.async false

namespace Sys2Proof.Machine

/-- A ring's registers replaced. -/
def setRing (r : Fin 16) (g : Ring) (m : Mbx) : Mbx := { m with rings := m.rings.set r g }

/-- A ring's error code (R435). -/
def ringErr (r : Fin 16) (code : Nat) (m : Mbx) : Mbx :=
  setRing r { m.rings[r] with err := true, errCode := code } m

/-- SPIT owns a ring (R431). -/
def spitOwns (m : Mbx) (r : Fin 16) : Bool := pairOwner m (ringPair r) == 1

/-- A TAIL write by a producer (R424): the doorbell, or OVERRUN where the count would exceed DEPTH. -/
def tailWrite (r : Fin 16) (v : Nat) (m : Mbx) : Mbx :=
  let g := m.rings[r]
  if (v + 65536 - g.head) % 65536 > ringDepth g then ringErr r 1 m else setRing r { g with tail := v % 65536 } m

/-- Leading CPL0 entries that no transport waits for are freed (R432). -/
def trimCpl0 (m : Mbx) : Mbx :=
  let rest := m.cpl0.dropWhile (fun e => e.waits.isEmpty)
  let g := m.rings[(8 : Fin 16)]
  { m with cpl0 := rest
           rings := m.rings.set 8 { g with head := match rest with | e :: _ => e.idx | [] => g.tail } }

/-- The consumer number of a transport on CPL0. -/
def viaIdx (t : Transport) : Fin 4 := match t with
  | .spit => 0
  | .i2ct => 1
  | .lmf .us0 => 2
  | .lmf .us1 => 3

/-- A consumer's CPL0 index moved up to v: the entries that end at or below it are consumed (R432). -/
def cpl0Consume (t : Transport) (v : Nat) (m : Mbx) : Mbx :=
  trimCpl0 { m with
    cpl0Idx := m.cpl0Idx.set (viaIdx t) (v % 65536)
    cpl0 := m.cpl0.map (fun e =>
      if (v + 65536 - (e.idx + e.slots)) % 65536 < 32768 then { e with waits := e.waits.filter (· ≠ t) } else e) }

/-- A HEAD write by a consumer, which frees entries (R424); on CPL0 it is SPIT's own index (R435). -/
def headWrite (now : Nat) (r : Fin 16) (v : Nat) (m : Mbx) : Mbx :=
  if r.val = 8 then flushCpl now 0 (cpl0Consume .spit v m)
  else flushCpl now (ringPair r) (setRing r { m.rings[r] with head := v % 65536 } m)

/-- Two slot ranges overlap. -/
def overlaps (a la b lb : Nat) : Bool := decide (a < b + lb ∧ b < a + la)

/-- A ring's geometry fits ring memory and overlaps no other running ring (R423). -/
def geomOk (r : Fin 16) (m : Mbx) : Bool :=
  let g := m.rings[r]
  decide (g.base + ringDepth g ≤ 1024) &&
    (List.range 16).all (fun i =>
      if h : i < 16 then
        i == r.val || !m.rings[(⟨i, h⟩ : Fin 16)].run ||
          !overlaps g.base (ringDepth g) m.rings[(⟨i, h⟩ : Fin 16)].base (ringDepth m.rings[(⟨i, h⟩ : Fin 16)])
      else true)

/-- RING_CTRL.RUN (R423, R435): 1 starts the ring after its geometry check, 0 stops it. CMD0 and CPL0 admit none. -/
def runWrite (r : Fin 16) (on : Bool) (m : Mbx) : Mbx :=
  if (ringPair r).val = 0 then m
  else if on then
    (if geomOk r m then setRing r { m.rings[r] with run := true } m else ringErr r 2 m)
  else setRing r { m.rings[r] with run := false } m

/-- RING_GEOM (R423, R440): written only while the ring is stopped, else ERR_CODE GEOMETRY. -/
def geomWrite (r : Fin 16) (base log2 : Nat) (m : Mbx) : Mbx :=
  if (ringPair r).val = 0 then m
  else if m.rings[r].run = true ∨ log2 < 4 ∨ log2 > 10 then ringErr r 2 m
  else setRing r { m.rings[r] with base := base, log2 := log2 } m

/-- One field of RING_ASSIGN (R435): kept with FRAME_ERR for the reserved code, kept with ASSIGN while the pair runs. -/
def assignField (i : Fin 3) (v : Nat) (m : Mbx) : Mbx :=
  let c : Fin 16 := ⟨i.val + 5, by omega⟩
  let p : Fin 16 := ⟨i.val + 13, by omega⟩
  let m1 := if v = 3 then { m with frameErr := true } else m
  if m.rings[c].run || m.rings[p].run then ringErr p 5 (ringErr c 5 m1)
  else if v = 3 then m1
  else { m1 with assign := m1.assign.set i v }

/-- RING_ASSIGN (R435): each field on its own. -/
def assignWrite (v : Nat) (m : Mbx) : Mbx :=
  assignField 2 (bits v 5 4) (assignField 1 (bits v 3 2) (assignField 0 (bits v 1 0) m))

/-- The number of entries in n slots of a ring from an index on, by their SLOTS bytes, on fuel. -/
def countEntries (g : Ring) (mem : List Host.Cell) : Nat → Nat → Nat → Nat
  | 0, _, _ => 0
  | f + 1, i, n =>
    if n = 0 then 0
    else
      let k := max 1 (min 16 (sparseGet 0 mem (slotAddr g i + 3)).toNat)
      1 + countEntries g mem f (i + k) (n - k)

/-- A ring reset on one ring pair (R438): untaken commands and the completion ring's entries are dropped, the indices
become 0, and one RING_RESET event is the first entry. -/
def ringReset (now : Nat) (dest : List Transport) (k : Fin 8) (m : Mbx) : Mbx :=
  let c := cmdRing k
  let p := cplRing k
  let gc := m.rings[c]
  let gp := m.rings[p]
  let nc := countEntries gc m.mem 1024 gc.head (ringCount gc)
  let np := countEntries gp m.mem 1024 gp.head (ringCount gp)
  let m1 := setRing p { gp with head := 0, tail := 0 } (setRing c { gc with head := 0, tail := 0 } m)
  let m2 := if k.val = 0 then { m1 with cpl0 := [], cmd0Via := [], cpl0Idx := Vector.replicate 4 0 } else m1
  let e : Entry := { opcode := 0xFF02, flags := 4, tag := 0, status := 0, payload := le 2 nc ++ le 2 np, dest := dest }
  let w := m2.waiting[k]
  flushCpl now k { m2 with waiting := m2.waiting.set k (e :: w) }

/-- A CMD0 submission (R432): appended whole, or refused where CMD0 lacks room. The second part says that it was appended. -/
def cmd0Append (t : Transport) (l : List Byte) (m : Mbx) : Mbx × Bool :=
  let g := m.rings[(0 : Fin 16)]
  let n := (l.length + 63) / 64
  if n > ringFree g then (m, false)
  else
    let pad := l ++ List.replicate (64 * n - l.length) 0
    ({ m with mem := writeSlots g m.mem g.tail (chunks 64 pad)
              rings := m.rings.set 0 { g with tail := (g.tail + n) % 65536 }
              cmd0Via := m.cmd0Via ++ (List.range n).map (fun i => ((g.tail + i) % 65536, t)) }, true)

/-- PRIO_DOORBELL (R435): 1–16 slots submit the staged command, any other value sets FRAME_ERR. -/
def prioDoorbell (n : Nat) (m : Mbx) : Mbx :=
  if n = 0 ∨ n > 16 then { m with frameErr := true }
  else
    let x := cmd0Append .spit (memRead 0 m.stage 0 (64 * n)) m
    setIrq { x.1 with prioRefused := !x.2 } 11

/-- Bytes appended to a command ring by the transport logic, with one advance of TAIL (R436, R437). -/
def ringAppend (k : Fin 8) (l : List Byte) (m : Mbx) : Mbx :=
  let r := cmdRing k
  let g := m.rings[r]
  let n := (l.length + 63) / 64
  let pad := l ++ List.replicate (64 * n - l.length) 0
  { m with mem := writeSlots g m.mem g.tail (chunks 64 pad)
           rings := m.rings.set r { g with tail := (g.tail + n) % 65536 } }

/-- The oldest entry of a completion ring without padding, and its slots; none where the ring is empty (R436). -/
def oldestEntry (m : Mbx) (r : Fin 16) : Option (List Byte × Nat) :=
  let g := m.rings[r]
  if ringCount g = 0 then none
  else
    let a := slotAddr g g.head
    let n := max 1 (min 16 (sparseGet 0 m.mem (a + 3)).toNat)
    let raw := readSlots g m.mem g.head n
    let size := 16 + fld raw 8 2 + 4 * (fld raw 2 1 % 2)
    some (raw.take size, n)

/-- A transport's oldest CPL0 entry, whole slots, with its index and slots (R432). -/
def oldestCpl0 (t : Transport) (m : Mbx) : Option (List Byte × Cpl0Slot) :=
  match m.cpl0.find? (fun e => t ∈ e.waits) with
  | none => none
  | some e => some (readSlots m.rings[(8 : Fin 16)] m.mem e.idx e.slots, e)

/-! ### The SPIT address map (R434, R435, R480) -/

/-- The recovery status register (R81). -/
def recovStatusWord (s : State) : Nat :=
  b2n (s.sup.recovery && !s.fw.recDone) + 2 * b2n s.fw.recDone + 4 * b2n s.fw.recFail + 16 * s.fw.recStep

/-- A transport register word as SPIT reads it (R81, R435). -/
def transportReg (s : State) (a : Nat) : Nat :=
  if a = 0xF00 then recovStatusWord s
  else if a = 0xF04 then s.fw.recOffset
  else if a = 0xF08 then s.fw.recLength
  else if a = 0x000 then 0x4D540100
  else if a = 0x010 then s.mbx.irqStatus.toNat
  else if a = 0x014 then s.mbx.irqEnable.toNat
  else if a = 0x020 then s.mbx.assign[0] + 4 * s.mbx.assign[1] + 16 * s.mbx.assign[2]
  else if a = 0xC04 then 2 * b2n s.mbx.prioRefused
  else if h : 0x100 ≤ a ∧ a < 0x200 then
    let r : Fin 16 := ⟨(a - 0x100) / 16, by omega⟩
    match a % 16 with
    | 0 => ringGeomWord s r
    | 4 => if r.val = 8 then s.mbx.cpl0Idx[0] else s.mbx.rings[r].head
    | 8 => s.mbx.rings[r].tail
    | 12 => ringCtrlWord s r
    | _ => 0
  else 0

/-- The ring that owns a slot, by the geometry in force. -/
def slotRing (m : Mbx) (slot : Nat) : Option (Fin 16) :=
  ((List.range 16).filterMap (fun i =>
    if h : i < 16 then
      let g := m.rings[(⟨i, h⟩ : Fin 16)]
      if g.base ≤ slot ∧ slot < g.base + ringDepth g then some (⟨i, h⟩ : Fin 16) else none
    else none)).head?

/-- SPIT may read a byte of ring memory: a ring of its own, or CPL0 (R431, R434). -/
def spitReadable (s : State) (off : Nat) : Bool :=
  (s.sup.recovery && !s.sup.ready) ||
  (match slotRing s.mbx (off / 64) with
   | some r => pairOwner s.mbx (ringPair r) == 1 || r.val == 8
   | none => false)

/-- SPIT may write a byte of ring memory: a ring of its own (R434); in recovery the window is the load buffer (R81). -/
def spitWritable (s : State) (off : Nat) : Bool :=
  (s.sup.recovery && !s.sup.ready) ||
  (match slotRing s.mbx (off / 64) with
   | some r => pairOwner s.mbx (ringPair r) == 1
   | none => false)

/-- The block and register offset of a fault-register address (R403). -/
def fltAddr (a : Nat) : Option (Block × Nat) :=
  if 0x100000 ≤ a ∧ a < 0x150000 then (idBlock ((a - 0x100000) / 0x1000)).map (fun b => (b, a % 0x1000)) else none

/-- The Almanac word as SPIT and REG_READ return it: words 1–3 of an authorisation record read 0 (R479). -/
def almVisible (s : State) (w : Nat) : Nat :=
  if 0x30 ≤ w ∧ w < 0x70 ∧ w % 4 ≠ 0 then 0 else (almRead s w).toNat

/-- One byte as SPIT reads it (R434, R480). -/
def spitByte (s : State) (a : Nat) : Byte :=
  let ofWord (v : Nat) : Byte := BitVec.ofNat 8 (v / 256 ^ (a % 4))
  match fltAddr a with
  | some (b, off) => if off < 0x2C then ofWord (fltWord s b (off / 4)) else 0
  | none =>
    if a < 0x1000 then
      (if s.sup.ready || (s.sup.recovery && decide (0xF00 ≤ a ∧ a < 0xF10)) then ofWord (transportReg s (a / 4 * 4)) else 0)
    else if 0x10000 ≤ a ∧ a < 0x20000 then
      (if (s.sup.ready || s.sup.recovery) && spitReadable s (a - 0x10000) then sparseGet 0 s.mbx.mem (a - 0x10000) else 0)
    else if 0x400000 ≤ a ∧ a < 0x404000 then
      (if s.sup.ready then ofWord (almVisible s ((a - 0x400000) / 4)) else 0)
    else 0

/-- A frame addresses words that must be whole and aligned: transport, fault and Almanac addresses (R434, R480). -/
def wordSpace (a : Nat) : Bool :=
  decide (a < 0x1000) || (fltAddr a).isSome || decide (0x400000 ≤ a ∧ a < 0x404000)

end Sys2Proof.Machine
end

