-- ==== Sys2Proof/Machine/Transport.lean ====
section
/-! DEFINITION. The transport commands on rings and registers: SPIT's ring and register writes, and I2CT (R424, R432–R439). SPIT frames,
command takes and the LMFs' endpoints stand in files of their own. -/

set_option Elab.async false

namespace Sys2Proof.Machine

/-- What a command answers. -/
abbrev Res := Host.Outcome State Fault Refusal

/-- The mailbox block changed where the transports answer: from BOOT step 8 on (R434, R446). -/
def onMbx (f : Mbx → Mbx) (s : State) : State :=
  let s := fresh s
  { s with mbx := if s.sup.ready then f s.mbx else s.mbx }

/-! ### Ring registers over SPIT -/

/-- A write of RING_TAIL (R424, R435): the doorbell of one of SPIT's command rings; CMD0 and completion rings take none. -/
def tailReg (r : Fin 16) (v : Nat) (m : Mbx) : Mbx :=
  if r.val = 0 ∨ r.val ≥ 8 then m else if spitOwns m r then tailWrite r v m else ringErr r 4 m

/-- A write of RING_HEAD (R424, R435): entries of one of SPIT's completion rings are freed; command rings take none. -/
def headReg (now : Nat) (r : Fin 16) (v : Nat) (m : Mbx) : Mbx :=
  if r.val < 8 then m else if r.val = 8 ∨ spitOwns m r then headWrite now r v m else ringErr r 4 m

/-- A write of RING_CTRL.RUN (R423, R435). -/
def runReg (now : Nat) (r : Fin 16) (on : Bool) (m : Mbx) : Mbx := flushCpl now (ringPair r) (runWrite r on m)

/-- A write of 1 to RING_CTRL.RESET (R438); CMD0 and CPL0 admit none (R435). -/
def resetReg (now : Nat) (r : Fin 16) (m : Mbx) : Mbx := if (ringPair r).val = 0 then m else ringReset now [] (ringPair r) m

/-- RING_TAIL_WRITE. -/
def execRingTailWrite (r : Fin 16) (v : BitVec 16) (s : State) : Res := .next (onMbx (tailReg r v.toNat) s)

/-- RING_HEAD_WRITE. -/
def execRingHeadWrite (r : Fin 16) (v : BitVec 16) (s : State) : Res := .next (onMbx (headReg s.now r v.toNat) s)

/-- RING_CTRL_RUN. -/
def execRingCtrlRun (r : Fin 16) (on : Bool) (s : State) : Res := .next (onMbx (runReg s.now r on) s)

/-- RING_CTRL_RESET. -/
def execRingCtrlReset (r : Fin 16) (s : State) : Res := .next (onMbx (resetReg s.now r) s)

/-- RING_GEOM_WRITE (R423, R440). -/
def execRingGeomWrite (r : Fin 16) (base : BitVec 10) (log2 : BitVec 4) (s : State) : Res :=
  .next (onMbx (geomWrite r base.toNat log2.toNat) s)

/-- RING_ASSIGN_WRITE (R435). -/
def execRingAssignWrite (v : BitVec 6) (s : State) : Res := .next (onMbx (assignWrite v.toNat) s)

/-- IRQ_STATUS_CLEAR (R435): a 1 clears its bit. -/
def execIrqStatusClear (v : BitVec 12) (s : State) : Res :=
  .next (onMbx (fun m => { m with irqStatus := m.irqStatus &&& ~~~v }) s)

/-- PRIO_DOORBELL (R432, R435). -/
def execPrioDoorbell (n : BitVec 5) (s : State) : Res := .next (onMbx (prioDoorbell n.toNat) s)

/-- CPL0_ENTRY_EXPIRY (R432, R440): 1 s after it was written the oldest CPL0 entry is freed, and each transport that had not
consumed it finds CPL0_LOST. -/
def execCpl0EntryExpiry (s : State) : Res :=
  let s := fresh s
  match s.mbx.cpl0 with
  | [] => .next s
  | e :: rest =>
    let s := advanceTo (e.at_ + 1000000000) s
    let lost (t : Transport) : Bool := decide (t ∈ e.waits)
    let m := s.mbx
    let m := if lost .spit then setIrq m 8 else m
    let m := if lost .i2ct then { m with i2cCpl0Lost := true } else m
    let mark (i : Fin 2) (m : Mbx) : Mbx :=
      { m with lmf := m.lmf.set i { m.lmf[i] with cpl0Lost := true, freed := min 0xFFFF (m.lmf[i].freed + 1) } }
    let m := if lost (.lmf .us0) then mark 0 m else m
    let m := if lost (.lmf .us1) then mark 1 m else m
    .next { s with mbx := flushCpl s.now 0 (trimCpl0 { m with cpl0 := { e with waits := [] } :: rest }) }

/-! ### I2CT (R436) -/

/-- I2CT is served: from BOOT step 8, and not in SAFE (R418, R446). -/
def i2ctUp (s : State) : Bool := s.sup.ready && !safeHolds s

/-- The I2CT target address that I2CT_ASEL selected at BOOT (R48, R74). -/
def i2ctAddr (s : State) : BitVec 7 := if s.sup.asel then 0x2D else 0x2C

/-- A transaction with a wrong or missing PEC: NACKed, discarded, PEC_ERR set (R436). -/
def pecError (s : State) : State :=
  { (emit .i2cNack s) with mbx := { s.mbx with i2cPecErr := true } }

/-- The I2CT STATUS word (R436). -/
def i2ctStatusWord (s : State) : Nat :=
  let m := s.mbx
  b2n s.sup.ready + 2 * b2n (safeHolds s) + 4 * b2n (ringCount m.rings[(12 : Fin 16)] != 0) +
  8 * b2n (m.cpl0.any (fun e => decide (Transport.i2ct ∈ e.waits))) +
  16 * b2n (decide (ringFree m.rings[(4 : Fin 16)] ≥ 4)) + 32 * b2n m.i2cEvLost + 64 * b2n m.i2cCpl0Lost +
  128 * b2n m.i2cPecErr

/-- I2CT_STATUS (R436): the status word; bits 5–7 clear when read. It also answers in SAFE, where it shows SAFE. A
transaction to another address is not the controller's (R48). -/
def execI2ctStatus (addr : BitVec 7) (pec : Bool) (s : State) : Res :=
  let s := fresh s
  if addr ≠ i2ctAddr s then .next s
  else if !s.sup.ready then .next (emit .i2cNack s)
  else if !pec then .next (pecError s)
  else
    .next { (emit (.i2c (le 2 (i2ctStatusWord s))) s) with
      mbx := { s.mbx with i2cEvLost := false, i2cCpl0Lost := false, i2cPecErr := false } }

/-- I2CT_CMD4_SUBMIT (R436): a whole command padded into CMD4 with its doorbell, or NACK when CMD4 is full. -/
def execI2ctCmd4Submit (addr : BitVec 7) (data : List Byte) (pec : Bool) (s : State) : Res :=
  let s := fresh s
  if addr ≠ i2ctAddr s then .next s
  else if !i2ctUp s then .next (emit .i2cNack s)
  else if !pec then .next (pecError s)
  else if data.length < 16 ∨ data.length > 255 ∨ (data.length + 63) / 64 > ringFree s.mbx.rings[(4 : Fin 16)] then
    .next (emit .i2cNack s)
  else .next { s with mbx := ringAppend 4 data s.mbx }

/-- I2CT_CPL4_FETCH (R436): the oldest CPL4 entry without padding, consumed; a count of 0 means none. -/
def execI2ctCpl4Fetch (addr : BitVec 7) (pec : Bool) (s : State) : Res :=
  let s := fresh s
  if addr ≠ i2ctAddr s then .next s
  else if !i2ctUp s then .next (emit .i2cNack s)
  else if !pec then .next (pecError s)
  else match oldestEntry s.mbx 12 with
    | none => .next (emit (.i2c []) s)
    | some (b, n) =>
      .next { (emit (.i2c b) s) with mbx := headWrite s.now 12 (s.mbx.rings[(12 : Fin 16)].head + n) s.mbx }

/-- I2CT_CMD0_SUBMIT (R432, R436): a command through the priority path, or NACK when CMD0 is full. -/
def execI2ctCmd0Submit (addr : BitVec 7) (data : List Byte) (pec : Bool) (s : State) : Res :=
  let s := fresh s
  if addr ≠ i2ctAddr s then .next s
  else if !i2ctUp s then .next (emit .i2cNack s)
  else if !pec then .next (pecError s)
  else if data.length < 16 ∨ data.length > 255 then .next (emit .i2cNack s)
  else
    let x := cmd0Append .i2ct data s.mbx
    .next (if x.2 then { s with mbx := x.1 } else emit .i2cNack s)

/-- I2CT_CPL0_FETCH (R432, R436): I2CT's oldest CPL0 entry without padding, consumed. -/
def execI2ctCpl0Fetch (addr : BitVec 7) (pec : Bool) (s : State) : Res :=
  let s := fresh s
  if addr ≠ i2ctAddr s then .next s
  else if !i2ctUp s then .next (emit .i2cNack s)
  else if !pec then .next (pecError s)
  else match oldestCpl0 .i2ct s.mbx with
    | none => .next (emit (.i2c []) s)
    | some (raw, e) =>
      let size := 16 + fld raw 8 2 + 4 * (fld raw 2 1 % 2)
      .next { (emit (.i2c (raw.take size)) s) with
        mbx := flushCpl s.now 0 (cpl0Consume .i2ct (e.idx + e.slots) s.mbx) }

/-- I2CT_BUS_TIMEOUT (R436): SCL or SDA low for 35 ms makes I2CT release the bus and discard the transaction, so nothing of
it reaches the rings. -/
def execI2ctBusTimeout (ms : Nat) (s : State) : Res :=
  let s := fresh s
  .next (if ms ≥ 35 then emit .i2cRelease s else s)

/-! ### The LMFs (R437) -/

/-- The pair of an LMF's rings (R431). -/
def lmfPair (u : US) : Fin 8 := match u with
  | .us0 => 2
  | .us1 => 3

/-- The hub of an upstream port. -/
def hubOf (s : State) (u : US) : Hub := s.hubs[u.idx]

/-- An LMF can be reached: its hub is connected with the LMF in slot 1, the rings answer, and SAFE does not hold (R104,
R418, R446). -/
def lmfUp (s : State) (u : US) : Bool :=
  s.sup.ready && !safeHolds s && (hubOf s u).connected && (hubOf s u).active.head? == some .lmf

end Sys2Proof.Machine
end

