-- ==== Sys2Proof/Machine/AlmanacCmds.lean ====
section
/-! DEFINITION. The Almanac's words and access rules, and the commands that read it (R463, R472–R482). -/

set_option Elab.async false

namespace Sys2Proof.Machine

/-- A word that ALMANAC_WRITE may name: a listed word of R477; the others are reserved. -/
def almListed (w : Nat) : Bool :=
  decide (w = 0) || decide (0x010 ≤ w ∧ w < 0x071) || decide (0x100 ≤ w ∧ w < 0x105) ||
  decide (0x108 ≤ w ∧ w < 0x10D) || decide (0x110 ≤ w ∧ w < 0x115) || decide (0x120 ≤ w ∧ w < 0x127) ||
  decide (0x128 ≤ w ∧ w < 0x12F) || decide (w = 0x200 ∨ w = 0x201) || decide (0x210 ≤ w ∧ w < 0x258) ||
  decide (0x400 ≤ w ∧ w < 0x412) || decide (w = 0x420 ∨ w = 0x421) || decide (0x500 ≤ w ∧ w < 0x505) ||
  (decide (0x510 ≤ w ∧ w < 0x5B0) && (idBlock ((w - 0x510) / 2)).isSome) || decide (w = 0x600) ||
  decide (0x610 ≤ w ∧ w < 0x700) || decide (0x700 ≤ w ∧ w < 0xB03) || decide (0xB10 ≤ w ∧ w < 0xF00) &&
    decide (w < 0xB50 ∨ 0xC00 ≤ w) || decide (0xF00 ≤ w ∧ w < 0x1000)

/-- A word that ALMANAC_READ withholds: words 1–3 of an authorisation record (R479). -/
def almWithheld (w : Nat) : Bool := decide (0x030 ≤ w ∧ w < 0x070 ∧ w % 4 ≠ 0)

/-- The words of a hash of an image key (R477). -/
def hashWords (i : Nat) : List Nat := (List.range 8).map (fun j => 0x010 + 8 * i + j)

/-- The write rules of one image-key hash for the words [first, first + count) (R479). -/
def hashRuleOk (s : State) (first : Nat) (ws : List Word) (i : Nat) : Bool :=
  let hw := hashWords i
  let touched := hw.any (fun w => decide (first ≤ w ∧ w < first + ws.length))
  let whole := hw.all (fun w => decide (first ≤ w ∧ w < first + ws.length))
  let blank := hw.all (fun w => almRead s w == blankWord)
  let zeros := hw.all (fun w => ws.getD (w - first) blankWord == 0)
  !touched || (whole && (blank || (zeros && !(s.fw.keyIdx == i))))

/-- The access rules of R479 for a write of words from first on, from a ring: refused with NOT_PERMITTED_IN_MODE. -/
def almAccessOk (s : State) (ring : Fin 8) (first : Nat) (ws : List Word) : Bool :=
  let touches (lo hi : Nat) : Bool := decide (first < hi ∧ lo < first + ws.length)
  let service := s.pmu.reported == .service && ring.val == 1
  !touches 0 1 && !touches 0x070 0x071 && !touches 0xF00 0x1000 &&
    (!touches 0x010 0x070 || service) && (List.range 4).all (hashRuleOk s first ws)

/-- The value a write leaves in a word: MOVE_COUNT bits of an authorisation record are ignored (R479). -/
def almStored (s : State) (w : Nat) (v : Word) : Word :=
  if 0x030 ≤ w ∧ w < 0x070 ∧ w % 4 = 0 then
    let old := almRead s w
    let mc := if old = blankWord then 0 else old.toNat / 65536
    BitVec.ofNat 32 (v.toNat % 65536 + 65536 * mc)
  else v

/-- A word fenced by WORD_UE or WRITE_VERIFY (R408, R463). -/
def wordFenced (s : State) (w : Nat) : Bool := unitFenced s .almanac (.word w)

/-- The spec of ALMANAC_READ (R463). -/
def specAlmanacRead : CmdSpec := { opcode := 0x0901, cls := .bootRun, onI2ct := true, lenOk := len 4 }

/-- ALMANAC_READ (R463, R479). -/
def cmdAlmanacRead (r : Req) (s : State) : State × Reply :=
  let first := fld r.payload 0 2
  let count := fld r.payload 2 2
  let ws := (List.range count).map (first + ·)
  if !noTarget r || count = 0 || decide (count > 250) || decide (first + count > 4096) || ws.any almWithheld then
    (s, errR stBadTarget)
  else (s, okR (ws.flatMap (fun w => le 4 (almRead s w).toNat)))

/-- ALMANAC_READ. -/
def execAlmanacRead (r : Req) (s : State) : Res := .next (runCmd specAlmanacRead cmdAlmanacRead r s)

/-- The spec of ALMANAC_WEAR (R463). -/
def specAlmanacWear : CmdSpec := { opcode := 0x0903, cls := .bootRun, lenOk := len 4 }

/-- ALMANAC_WEAR (R463, R474). -/
def cmdAlmanacWear (r : Req) (s : State) : State × Reply :=
  let first := fld r.payload 0 2
  let count := fld r.payload 2 2
  if !noTarget r || count = 0 || decide (count > 250) || decide (first + count > 4096) then (s, errR stBadTarget)
  else (s, okR ((List.range count).flatMap (fun i => le 4 (almWear s (first + i)))))

/-- ALMANAC_WEAR. -/
def execAlmanacWear (r : Req) (s : State) : Res := .next (runCmd specAlmanacWear cmdAlmanacWear r s)

end Sys2Proof.Machine
end

