-- ==== Sys2Proof/Machine/SystemCmds.lean ====
section
/-! DEFINITION. The system commands that only read, and ECHO (R449, R465). -/

set_option Elab.async false

namespace Sys2Proof.Machine

/-- The spec of IDENTIFY (R449). -/
def specIdentify : CmdSpec :=
  { opcode := 0x0101, cls := .any, onI2ct := true, safeOk := fun _ => true, lenOk := len 0 }

/-- The IDENTIFY result, 62 bytes (R449). -/
def identifyResult (s : State) : List Byte :=
  le 4 0x7162 ++ le 2 0x00B0 ++ le 2 0x0100 ++ le 4 s.fw.bundle ++ le 4 s.fw.rollback ++ le 1 s.fw.running ++
  le 1 (b2n Config.gradeI) ++ le 2 Config.dramMb.toNat ++ le 2 s.sup.dramRate ++
  s.fw.thyBundle.toList.flatMap (le 4) ++ (List.range 16).map Config.serial

/-- IDENTIFY (R449). -/
def cmdIdentify (r : Req) (s : State) : State × Reply :=
  if noTarget r then (s, okR (identifyResult s)) else (s, errR stBadTarget)

/-- IDENTIFY. -/
def execIdentify (r : Req) (s : State) : Res := .next (runCmd specIdentify cmdIdentify r s)

/-- The spec of MODE_STATUS (R449). -/
def specModeStatus : CmdSpec :=
  { opcode := 0x0103, cls := .any, onI2ct := true, safeOk := fun _ => true, lenOk := len 0 }

/-- The counted unavailability so far, an open interval included (R34, R36). -/
def unavailNs (s : State) : Nat :=
  s.avail.ns + (match s.avail.openAt with | some t => s.now - t | none => 0)

/-- MODE_STATUS (R36, R382, R449). -/
def cmdModeStatus (r : Req) (s : State) : State × Reply :=
  if noTarget r then
    (s, okR (le 4 (modeStatWord s) ++ le 4 (modeSelWord s) ++ le 8 (unavailNs s) ++ le 8 s.avail.since ++
      le 4 s.avail.events))
  else (s, errR stBadTarget)

/-- MODE_STATUS. -/
def execModeStatus (r : Req) (s : State) : Res := .next (runCmd specModeStatus cmdModeStatus r s)

/-- The spec of LANE_TIME_READ (R449). -/
def specLaneTimeRead : CmdSpec :=
  { opcode := 0x0104, cls := .any, onI2ct := true, safeOk := fun _ => true, lenOk := len 0 }

/-- The bound of lane time in millionths of a ns: 2 % of a reference loss still running is part of it (R396, R398). -/
def boundNow (s : State) : Nat :=
  s.clk.boundE6 + (match s.clk.refLost with | some t => (s.now - t) * 20000 | none => 0)

/-- LANE_TIME_READ (R398, R449). -/
def cmdLaneTimeRead (r : Req) (s : State) : State × Reply :=
  if noTarget r then
    (s, okR (le 8 s.now ++ le 1 (laneQuality s) ++ [0] ++ le 2 s.clk.epoch ++
      le 4 (min 0xFFFFFFFF (boundNow s / 1000000)) ++ le 1 s.clk.sleepQuality ++ [0, 0, 0] ++
      le 8 s.clk.sleepElapsed))
  else (s, errR stBadTarget)

/-- LANE_TIME_READ. -/
def execLaneTimeRead (r : Req) (s : State) : Res := .next (runCmd specLaneTimeRead cmdLaneTimeRead r s)

/-- The spec of WAKE_RECORD_READ (R449). -/
def specWakeRecordRead : CmdSpec :=
  { opcode := 0x0105, cls := .any, onI2ct := true, safeOk := fun _ => true, lenOk := len 0 }

/-- The four words of the last-wake record (R393). -/
def wakeWords (w : WakeRec) : List Nat :=
  [w.cls + 2 ^ 4 * w.modeLeft + 2 ^ 8 * w.port + 2 ^ 16 * w.coincident + 2 ^ 24 * b2n w.strapError +
     2 ^ 25 * b2n w.replayed + 2 ^ 26 * w.quality + 2 ^ 28 * w.detail,
   w.time % 2 ^ 32, w.time / 2 ^ 32 % 2 ^ 32, w.epoch + 2 ^ 16 * w.also]

/-- WAKE_RECORD_READ (R393, R449). -/
def cmdWakeRecordRead (r : Req) (s : State) : State × Reply :=
  if noTarget r then (s, okR ((wakeWords s.wake).flatMap (le 4))) else (s, errR stBadTarget)

/-- WAKE_RECORD_READ. -/
def execWakeRecordRead (r : Req) (s : State) : Res := .next (runCmd specWakeRecordRead cmdWakeRecordRead r s)

/-- The spec of ECHO (R465). -/
def specEcho : CmdSpec :=
  { opcode := 0x0B02, cls := .any, onCmd0 := fun _ => true, onI2ct := true, safeOk := fun _ => true
    lenOk := fun p => decide (p.length ≤ 1008) }

/-- ECHO (R465): the same bytes. -/
def cmdEcho (r : Req) (s : State) : State × Reply :=
  if noTarget r then (s, okR r.payload) else (s, errR stBadTarget)

/-- ECHO. -/
def execEcho (r : Req) (s : State) : Res := .next (runCmd specEcho cmdEcho r s)

end Sys2Proof.Machine
end

