-- ==== Sys2Proof/Machine/Firmware.lean ====
section
/-! DEFINITION. The flash, its slot directory and images, verification, slot selection, recovery over SPIT and the firmware
commands (R75–R81, R464). -/

set_option Elab.async false

namespace Sys2Proof.Machine

/-! ### Directory (R76) -/

/-- Flash bytes; an erased byte reads 0xFF. -/
def flashRead (f : Fw) (a n : Nat) : List Byte := memRead 0xFF f.flash a n

/-- Bits of a flash byte cleared: programming works from 1 to 0 without an erase (R74). -/
def flashClear (a : Nat) (v : Byte) (f : Fw) : Fw :=
  { f with flash := sparseSet 0xFF f.flash a (sparseGet 0xFF f.flash a &&& v) }

/-- A flash range erased. -/
def flashErase (a n : Nat) (f : Fw) : Fw :=
  { f with flash := f.flash.filter (fun c => decide (c.1 < a ∨ a + n ≤ c.1)) }

/-- Bytes programmed into erased flash. -/
def flashProgram (a : Nat) (l : List Byte) (f : Fw) : Fw := { f with flash := memWrite 0xFF f.flash a l }

/-- A directory copy is valid: magic and check (R76). -/
def dirValid (f : Fw) (c : Nat) : Bool :=
  let b := flashRead f (c * 0x1000) 16
  fld b 0 4 == 0x52444C42 && fld b 12 4 == crc32c (b.take 12)

/-- The directory copy in use: the valid one of the higher sequence (R76). -/
def dirUse (f : Fw) : Option Nat :=
  let s (c : Nat) : Nat := fld (flashRead f (c * 0x1000) 16) 4 4
  match dirValid f 0, dirValid f 1 with
  | true, true => some (if s 1 > s 0 then 1 else 0)
  | true, false => some 0
  | false, true => some 1
  | false, false => none

/-- The active slot; slot A where no copy is valid. -/
def dirActive (f : Fw) : Nat := match dirUse f with
  | some c => if fld (flashRead f (c * 0x1000 + 8) 1) 0 1 = 1 then 1 else 0
  | none => 0

/-- A slot's state byte, any undefined value being BAD; EMPTY where no copy is valid (R76). -/
def slotState (f : Fw) (s : Nat) : Nat := match dirUse f with
  | some c =>
    let v := fld (flashRead f (c * 0x1000 + 0x10 + 2 * s) 1) 0 1
    if v = 0xFF ∨ v = 0x7F ∨ v = 0x3F ∨ v = 0x1F then v else 0x0F
  | none => 0xFF

/-- A slot's trial bits (R76). -/
def slotTrial (f : Fw) (s : Nat) : Nat := match dirUse f with
  | some c => fld (flashRead f (c * 0x1000 + 0x11 + 2 * s) 1) 0 1
  | none => 0xFF

/-- A slot's state changed in place by clearing bits (R76). -/
def setSlotState (s v : Nat) (f : Fw) : Fw := match dirUse f with
  | some c => flashClear (c * 0x1000 + 0x10 + 2 * s) (BitVec.ofNat 8 v) f
  | none => f

/-- A slot's trial bits changed in place by clearing bits. -/
def setSlotTrial (s v : Nat) (f : Fw) : Fw := match dirUse f with
  | some c => flashClear (c * 0x1000 + 0x11 + 2 * s) (BitVec.ofNat 8 v) f
  | none => f

/-- The directory rewritten: the older copy is erased and programmed with the sequence plus 1 (R76). DESIGN CHOICE: with no valid copy, copy 0 is
written with sequence 1, and a slot that the rewrite does not name, even the running one, reads EMPTY (log entry 85). -/
def dirRewrite (active sa ta sb tb : Nat) (f : Fw) : Fw :=
  let c := match dirUse f with | some 0 => 1 | _ => 0
  let seq := match dirUse f with | some u => fld (flashRead f (u * 0x1000) 16) 4 4 + 1 | none => 1
  let h := le 4 0x52444C42 ++ le 4 seq ++ le 1 active ++ [0xFF, 0xFF, 0xFF]
  flashProgram (c * 0x1000) (h ++ le 4 (crc32c h) ++ le 1 sa ++ le 1 ta ++ le 1 sb ++ le 1 tb)
    (flashErase (c * 0x1000) 0x1000 f)

/-! ### Images (R77, R78) -/

/-- The flash address of a slot (R75). -/
def slotBase (s : Nat) : Nat := if s = 0 then 0x10000 else 0x808000

/-- The size of a slot (R75). -/
def slotSize : Nat := 8355840

/-- The Almanac's rollback level, stored as its complement (R477). -/
def almRollback (s : State) : Nat := (~~~(almRead s 0)).toNat

/-- The image-key hash of a key index, first byte lowest, or none where it is blank (R477). -/
def keyHash (s : State) (i : Nat) : Option (List Byte) :=
  if (hashWords i).all (fun w => almRead s w == blankWord) then none
  else some ((hashWords i).flatMap (fun w => le 4 (almRead s w).toNat))

/-- Bytes of an image held in a byte memory at a base. -/
abbrev Img := Byte × List Host.Cell × Nat

/-- Bytes of an image. -/
def imgRead (i : Img) (off n : Nat) : List Byte := memRead i.1 i.2.1 (i.2.2 + off) n

/-- One component's entry: type, offset, length, hash (R77). -/
def component (i : Img) (n : Nat) : Nat × Nat × Nat × List Byte :=
  let e := imgRead i (0x60 + 44 * n) 44
  (fld e 0 2, fld e 4 4, fld e 8 4, slice e 12 32)

/-- The number of components. -/
def compCount (i : Img) : Nat := fld (imgRead i 6 2) 0 2

/-- The components of an image, in table order. -/
def components (i : Img) : List (Nat × Nat × Nat × List Byte) := (List.range (compCount i)).map (component i)

/-- The step of R78 at which an image fails, 0 where it passes. -/
def verifyStep (s : State) (i : Img) : Nat :=
  let h := imgRead i 0 0x200
  if !(fld h 0 4 == 0x4D494C42 && decide (1 ≤ compCount i ∧ compCount i ≤ 8) && decide (fld h 0x10 4 ≤ slotSize)) then 1
  else if !(decide (fld h 0x14 1 ≤ 3) && keyHash s (fld h 0x14 1) == some (sha256 (slice h 0x20 64))) then 2
  else if !ecdsaOk (slice h 0x20 64) (slice h 0x1C0 64) (sha256 (h.take 0x1C0)) then 3
  else if fld h 0x0C 4 < almRollback s then 4
  else if !(components i).all (fun c => sha256 (imgRead i c.2.1 c.2.2.1) == c.2.2.2) then 5
  else 0

/-- The hashes of the components of an image that are not Thyme firmware, and that of the Thyme firmware (R12, R464). -/
def hashesOf (i : Img) (thyme : Bool) : List Byte :=
  ((components i).filter (fun c => (c.1 == 2) == thyme)).flatMap (fun c => le 2 c.1 ++ c.2.2.2)

/-- What the running image leaves in the firmware state. -/
def runImage (slot : Nat) (i : Img) (f : Fw) : Fw :=
  let h := imgRead i 0 0x200
  let b := fld h 8 4
  { f with running := slot, bundle := b, rollback := fld h 0x0C 4, keyIdx := fld h 0x14 1
           thyHash := hashesOf i true, otherHash := hashesOf i false, thyBundle := Vector.replicate 6 b
           trialRun := 0, trialFrom := none }

/-- The image in a flash slot. -/
def slotImg (f : Fw) (s : Nat) : Img := (0xFF, f.flash, slotBase s)

/-- One candidate of select_boot_slot (R79): the firmware state after it, and whether it boots. -/
def trySlot (s : State) (f : Fw) (n : Nat) : Fw × Bool :=
  let noDir := (dirUse f).isNone
  let st := slotState f n
  if st = 0x3F ∧ slotTrial f n % 8 = 0 then (setSlotState n 0x0F f, false)
  else if st ≠ 0x3F ∧ st ≠ 0x1F ∧ noDir = false then (f, false)
  else
    let t := slotTrial f n
    let f1 := if st = 0x3F then setSlotTrial n (t &&& (t - 1)) f else f
    if verifyStep s (slotImg f1 n) = 0 then
      ({ runImage n (slotImg f1 n) f1 with trial := st == 0x3F }, true)
    else (setSlotState n 0x0F f1, false)

/-- The order in which slots are tried (R79): the slot in TRIAL state, the active slot, the other slot. -/
def slotOrder (f : Fw) : List Nat :=
  let tr := if slotState f 0 = 0x3F then [0] else if slotState f 1 = 0x3F then [1] else []
  if (dirUse f).isNone then [0, 1] else (tr ++ [dirActive f, 1 - dirActive f]).eraseDups

/-- select_boot_slot (R79): the firmware state, and whether a slot boots; none means recovery over SPIT. -/
def selectSlot (s : State) : Fw × Bool :=
  (slotOrder s.fw).foldl (fun a n => if a.2 then a else trySlot s a.1 n) (s.fw, false)

/-! ### Trial confirmation (R80) -/

/-- The modes in which a TRIAL slot's run counts (R80). -/
def trialMode (m : Mode) : Bool := match m with
  | .eco | .active | .peak | .vigil | .degraded => true
  | _ => false

/-- The rollback word of a level. -/
def rollbackWord (l : Nat) : Word := ~~~(BitVec.ofNat 32 l)

/-- The writes of a confirmation's second step: the rollback level rises where the image's is higher (R80). -/
def rollbackWrites (s : State) : List (Nat × Word) :=
  if s.fw.rollback > almRollback s then [(0, rollbackWord s.fw.rollback)] else []

/-- The rollback level of the image in a slot. -/
def slotLevel (f : Fw) (n : Nat) : Nat := fld (flashRead f (slotBase n + 0x0C) 4) 0 4

/-- The steps of R80: CONFIRMED and active, the rollback level raised, and the other slot BAD where its level is below. -/
def confirmSteps (s : State) : State :=
  let n := s.fw.running
  let o := 1 - n
  let f := dirRewrite n (if n = 0 then 0x1F else slotState s.fw 0) (slotTrial s.fw 0)
    (if n = 1 then 0x1F else slotState s.fw 1) (slotTrial s.fw 1) s.fw
  let s1 := { s with fw := { f with trial := false, trialRun := 0, trialFrom := none }
                     alm := almWriteAll s.alm (rollbackWrites s) }
  if slotState s1.fw o ≠ 0xFF ∧ slotLevel s1.fw o < almRollback s1 then
    { s1 with fw := setSlotState o 0x0F s1.fw } else s1

/-- Every configured upstream port, one marked populated (R60), has been connected at least once (R80). -/
def allConnectedOnce (s : State) : Bool :=
  [US.us0, US.us1].all (fun u => !(s.pwr[usPort u]).pol.populated || (hubOf s u).conf.isEmpty || (hubOf s u).everConnected)

/-- TRIAL_CONFIRM (R80, R474): after 10 min of qualifying run time; with the rollback word exhausted the slot stays TRIAL. -/
def execTrialConfirm (s : State) : Res :=
  let s := fresh s
  match s.fw.trialFrom with
  | none => .next s
  | some t =>
    if s.fw.trial && trialMode s.pmu.reported && allConnectedOnce s && !almExhausted s.alm (rollbackWrites s) then
      .next (confirmSteps (advanceTo (t + (600000000000 - s.fw.trialRun)) s))
    else .next s

/-! ### Firmware commands (R464) -/

/-- An activation is in progress. -/
def activating (s : State) : Bool := s.sup.restartAt.isSome || accBusy .fwThyme s

/-- The slot that FW_STAGE writes, or none while a TRIAL slot runs (R464). -/
def stageSlot (s : State) : Option Nat :=
  if s.fw.running = 2 then some (1 - dirActive s.fw)
  else if s.fw.trial then none
  else if dirActive s.fw = s.fw.running then some (1 - s.fw.running)
  else none

/-- The spec of FW_STAGE (R464). -/
def specFwStage : CmdSpec :=
  { opcode := 0x0A01, cls := .run, lenOk := fun p => decide (8 ≤ p.length ∧ p.length ≤ 1008)
    resvOk := fun p => zeroAt 5 3 p && decide (fld p 4 1 < 4) }

/-- The slot state of a directory in which one slot is EMPTY again. -/
def dirEmpty (n : Nat) (f : Fw) : Fw :=
  dirRewrite (dirActive f) (if n = 0 then 0xFF else slotState f 0) (if n = 0 then 0xFF else slotTrial f 0)
    (if n = 1 then 0xFF else slotState f 1) (if n = 1 then 0xFF else slotTrial f 1) f

/-- FW_STAGE (R464): a chunk into the free slot, erased on FIRST, verified on LAST. -/
def cmdFwStage (r : Req) (s : State) : State × Reply :=
  let off := fld r.payload 0 4
  let first := bit (fld r.payload 4 1) 0
  let last := bit (fld r.payload 4 1) 1
  let data := r.payload.drop 8
  let got := if first then 0 else s.fw.staged
  if !noTarget r || decide (off ≠ got) || decide (off + data.length > slotSize) then (s, errR stBadTarget)
  else match stageSlot s with
  | none => (s, errR stBusy)
  | some n =>
    if activating s || accBusy .fwStage s then (s, errR stBusy)
    else
      let f0 := if first then dirEmpty n (flashErase (slotBase n) slotSize s.fw) else s.fw
      let f1 := { flashProgram (slotBase n + off) data f0 with staged := off + data.length, stageSlot := some n }
      let f2 := if last then
          setSlotState n (if verifyStep { s with fw := f1 } (slotImg f1 n) = 0 then 0x7F else 0x0F) f1
        else f1
      ({ s with fw := f2 }, if first || last then accR .fwStage else okR [])

/-- The final completion of FW_STAGE: the slot's state and the step of R78 that failed (R464). -/
def finishFwStage (s : State) : State :=
  match s.fw.stageSlot with
  | none => s
  | some n =>
    let st := slotState s.fw n
    finalCpl .fwStage stOk [BitVec.ofNat 8 st, BitVec.ofNat 8 (if st = 0x0F then verifyStep s (slotImg s.fw n) else 0)] s

/-- FW_STAGE with the final completion that its erase or verification ends with. -/
def doFwStage (r : Req) (s : State) : State := finishFwStage (runCmd specFwStage cmdFwStage r s)

/-- FW_STAGE. -/
def execFwStage (r : Req) (s : State) : Res := .next (doFwStage r s)

/-- The STAGED slot, if any. -/
def stagedSlot (f : Fw) : Option Nat :=
  if slotState f 0 = 0x7F then some 0 else if slotState f 1 = 0x7F then some 1 else none

/-- A staged slot set to TRIAL with trial bits 0x07 (R464). -/
def setTrial (n : Nat) (f : Fw) : Fw := setSlotTrial n 0x07 (setSlotState n 0x3F f)

/-- The spec of FW_ACTIVATE (R464). -/
def specFwActivate : CmdSpec :=
  { opcode := 0x0A02, cls := .run, lenOk := len 4, resvOk := fun p => zeroAt 2 2 p && decide (fld p 1 1 < 64) }

/-- FW_ACTIVATE (R464): RESTART, THYME or CONFIRM. -/
def cmdFwActivate (r : Req) (s : State) : State × Reply :=
  let action := fld r.payload 0 1
  let mask := fld r.payload 1 1
  if !noTarget r || decide (action > 2) then (s, errR stBadTarget)
  else if action = 2 then
    if !(s.fw.trial && decide (s.fw.running < 2)) then (s, errR stBadTarget)
    else if activating s then (s, errR stBusy)
    else if almExhausted s.alm (rollbackWrites s) then (s, errR stEndurance)
    else (confirmSteps s, okR [])
  else match stagedSlot s.fw with
  | none => (s, errR stBadTarget)
  | some n =>
    if action = 1 ∧ hashesOf (slotImg s.fw n) false ≠ s.fw.otherHash then (s, errR stBadTarget)
    else if activating s then (s, errR stBusy)
    else if action = 0 then
      ({ s with fw := setTrial n s.fw, sup := { s.sup with restartAt := some (s.now + 10000000) } }, okR [])
    else
      ({ s with fw := { setTrial n s.fw with thyMask := mask, stageSlot := some n } }, accR .fwThyme)

/-- An activation that names no engine is done at once. -/
def finishFwActivate (s : State) : State :=
  if s.fw.thyMask = 0 ∧ accBusy .fwThyme s = true then finalCpl .fwThyme stOk [] s else s

/-- FW_ACTIVATE with its final completion where no engine is named. -/
def doFwActivate (r : Req) (s : State) : State := finishFwActivate (runCmd specFwActivate cmdFwActivate r s)

/-- FW_ACTIVATE. -/
def execFwActivate (r : Req) (s : State) : Res := .next (doFwActivate r s)

/-- The spec of FW_STATUS (R464). -/
def specFwStatus : CmdSpec := { opcode := 0x0A03, cls := .bootRun, lenOk := len 0 }

/-- The FW_STATUS result, 60 bytes (R464). -/
def fwStatusResult (s : State) : List Byte :=
  let slot (n : Nat) : List Byte := le 1 (slotState s.fw n) ++ le 1 (slotTrial s.fw n) ++ [0, 0] ++
    flashRead s.fw (slotBase n + 8) 4 ++ flashRead s.fw (slotBase n + 0x0C) 4
  slot 0 ++ slot 1 ++ le 1 (dirActive s.fw) ++ le 1 s.fw.running ++ [0, 0] ++ le 4 (almRollback s) ++
    le 4 s.fw.staged ++ s.fw.thyBundle.toList.flatMap (le 4)

/-- FW_STATUS (R464). -/
def cmdFwStatus (r : Req) (s : State) : State × Reply :=
  if noTarget r then (s, okR (fwStatusResult s)) else (s, errR stBadTarget)

/-- FW_STATUS. -/
def execFwStatus (r : Req) (s : State) : Res := .next (runCmd specFwStatus cmdFwStatus r s)

/-! ### Recovery over SPIT (R81) -/

/-- Recovery is running: no slot booted, or the straps ask for it (R74, R79, R81). -/
def inRecovery (s : State) : Bool := s.sup.recovery && !s.sup.ready

/-- RECOV_CTRL.LOAD (R81): the chunk of RECOV_LENGTH bytes in the load buffer is taken at RECOV_OFFSET. -/
def recovLoad (s : State) : State :=
  let n := s.fw.recLength
  if inRecovery s && decide (1 ≤ n ∧ n ≤ 65536) then
    { s with fw := { s.fw with recImage := memWrite 0 s.fw.recImage s.fw.recOffset (memRead 0 s.mbx.mem 0 n)
                               recTaken := s.fw.recTaken + n } }
  else s

/-- RECOV_LOAD. -/
def execRecovLoad (s : State) : Res := .next (recovLoad (fresh s))

/-- RECOV_CTRL.ABORT (R81): the chunks taken are discarded and FAIL cleared. -/
def recovAbort (s : State) : State :=
  if inRecovery s then { s with fw := { s.fw with recImage := [], recTaken := 0, recFail := false, recStep := 0 } } else s

/-- RECOV_ABORT. -/
def execRecovAbort (s : State) : Res := .next (recovAbort (fresh s))

end Sys2Proof.Machine
end

