-- ==== Sys2Proof/Machine/ModeOps.lean ====
section
/-! DEFINITION. What every change of a mode condition does: the reported mode, the PMU's pending place and the MODE event
(R379–R385), and the counting of availability (R34–R36). -/

set_option Elab.async false

namespace Sys2Proof.Machine

/-! ### The PMU's two places -/

/-- The level or SERVICE that a pending MODE_REQUEST asks for is met by a target of an operating point (R385). -/
def reqMet (t : Trans) (m : Mode) (opp : Nat) : Bool := t.target == m || t.opp == opp

/-- The final completion of a MODE_REQUEST (R449): RESULT and the reported mode. -/
def modeFinal (req : Option Nat) (status result : Nat) (s : State) : State :=
  match req with
  | none => s
  | some id =>
    finalCpl (.mode id) status (if status = stOk then le 1 result ++ le 1 (modeId s.pmu.reported) ++ [0, 0] else []) s

/-- The MODE event of a transition that has ended (R470), not on the ring of its final completion (R448). -/
def modeEvent (skip : List (Fin 8)) (s : State) : State :=
  if s.pmu.lastEvt = (modeId s.pmu.reported, s.pmu.opp) then s
  else
    let s1 := { s with pmu := { s.pmu with lastEvt := (modeId s.pmu.reported, s.pmu.opp) } }
    eventAll skip 0xFF05
      (le 1 (modeId s.pmu.reported) ++ le 1 s.pmu.opp ++ le 2 (modeFlags s) ++ le 8 s.now) s1

/-- The run time of a TRIAL slot carried over a change of the reported mode (R80). -/
def trialTick (old new : Mode) (s : State) : State :=
  if !s.fw.trial then s
  else match trialMode old, trialMode new with
    | true, false =>
      { s with fw := { s.fw with trialRun := s.fw.trialRun + (s.now - s.fw.trialFrom.getD s.now), trialFrom := none } }
    | false, true => { s with fw := { s.fw with trialFrom := some s.now } }
    | true, true => if s.fw.trialFrom.isSome then s else { s with fw := { s.fw with trialFrom := some s.now } }
    | false, false => s

/-- The transition that the reported mode now calls for takes the pending place (R385): a request it replaces completes
with SUPERSEDED unless the new target meets it. With the operating point already reached, the request completes at once. -/
def modeFollow (s : State) : State :=
  let m := s.pmu.reported
  let want := modeOpp s.pmu.oppLocked m
  let sleeping : Bool := match s.pmu.pend with
    | some t => t.target == .hibernate || t.target == .standby
    | none => false
  if s.pmu.inProg.isSome then
    match s.pmu.pend with
    | some t =>
      if sleeping then s
      else if reqMet t m want then { s with pmu := { s.pmu with pend := some { t with target := m, opp := want } } }
      else
        modeFinal t.req stSuperseded 0
          { s with pmu := { s.pmu with pend := some { target := m, opp := want, req := none } } }
    | none =>
      match s.pmu.inProg with
      | some t => if t.opp = want then s
        else { s with pmu := { s.pmu with pend := some { target := m, opp := want, req := none } } }
      | none => s
  else if want = s.pmu.opp then
    if sleeping then s
    else
      let pend := s.pmu.pend
      let sel := if m == .safe then s.pmu else { s.pmu with target := m, targetOpp := want }
      let s1 := { s with pmu := { sel with pend := none, failedOpp := none } }
      match pend with
      | none => modeEvent [] s1
      | some t =>
        let skip := match t.req with | some id => accRings (.mode id) s1 | none => []
        modeEvent skip (modeFinal t.req (if reqMet t m want then stOk else stSuperseded) 0 s1)
  else if s.pmu.failedOpp = some (m, want) ∧ s.pmu.pend.isNone then s
  else
    match s.pmu.pend with
    | some t =>
      if sleeping then s
      else if reqMet t m want then { s with pmu := { s.pmu with pend := some { t with target := m, opp := want } } }
      else
        modeFinal t.req stSuperseded 0
          { s with pmu := { s.pmu with pend := some { target := m, opp := want, req := none } } }
    | none => { s with pmu := { s.pmu with pend := some { target := m, opp := want, req := none } } }

/-- Nothing counts in SERVICE (R35): an interval that is open when it is entered is counted up to there, and counts on from its end. -/
def availService (old new : Mode) (s : State) : State :=
  if old != .service && new == .service then
    { s with avail := { s.avail with
        ns := s.avail.ns + (match s.avail.openAt with | some t => s.now - t | none => 0)
        held := s.avail.openAt.isSome, openAt := none } }
  else if old == .service && new != .service then
    { s with avail := { s.avail with held := false, openAt := if s.avail.held && !s.avail.waiting.isEmpty then some s.now else s.avail.openAt } }
  else s

/-- The reported mode brought up to date with its conditions (R379–R381, R385). -/
def modeSync (s : State) : State :=
  match s.pmu.reported with
  | .off | .hibernate | .standby | .boot => s
  | old =>
    let cond := suspendCond s
    if old == .suspend && cond then s
    else
      let m := runMode s
      let since := if cond then (if s.pmu.suspendSince.isSome then s.pmu.suspendSince else some s.now) else none
      let s1 := availService old m <| trialTick old m { s with pmu := { s.pmu with reported := m, suspendSince := since, clkGated := false } }
      modeFollow s1

/-! ### Availability (R34–R36) -/

/-- Ports that stop forwarding because of the controller: the counted interval opens with the first of them (R34). A forced
fault opens it uncounted; a real one in a forced interval starts the count (R421). Nothing counts in SERVICE (R35). -/
def availStop (ps : List Nat) (forced : Bool) (s : State) : State :=
  if ps.isEmpty || s.pmu.reported == .service then s
  else
    let w := s.avail.waiting ++ ps.filter (· ∉ s.avail.waiting)
    let a := { s.avail with waiting := w }
    let isOpen : Bool := !s.avail.waiting.isEmpty
    { s with avail :=
        if forced then { a with forced := if isOpen then a.forced else true }
        else if s.avail.openAt.isSome then a
        else { a with openAt := some s.now, events := a.events + 1, forced := false } }

/-- A port forwards again, or is no longer populated: with the last of them the interval closes (R34). -/
def availGo (p : Nat) (s : State) : State :=
  if p ∉ s.avail.waiting then s
  else
    let w := s.avail.waiting.filter (· ≠ p)
    let hold : Bool := safeHolds s || s.pmu.reported == .boot
    if w.isEmpty && !hold then
      { s with avail := { s.avail with waiting := [], forced := false, openAt := none
                                       ns := s.avail.ns + (match s.avail.openAt with | some t => s.now - t | none => 0) } }
    else { s with avail := { s.avail with waiting := w } }

end Sys2Proof.Machine
end

