-- ==== Sys2Proof/Machine/AlmanacWrite.lean ====
section
/-! DEFINITION. The commands that write the Almanac, and the writes that a PERSIST option makes (R447, R450, R463, R472–R476, R479). -/

set_option Elab.async false

namespace Sys2Proof.Machine

/-- How far a list of writes goes before a word whose read-back fails. -/
def beforeBad (bad : Option Nat) (l : List (Nat × Word)) : List (Nat × Word) :=
  match bad with
  | none => l
  | some w => l.takeWhile (fun e => e.1 ≠ w)

/-- The writes of a command carried out in order (R463, R476): a failed read-back ends them with WRITE_VERIFY, and whether
that word took its new value is left open (R408). The fenced word makes the mode DEGRADED (R379). The second part counts the words written. -/
def almCarry (l : List (Nat × Word)) (bad : Option Nat) (s : State) : State × Nat :=
  let done := beforeBad bad l
  let a := almWriteAll s.alm done
  match l.drop done.length with
  | [] => ({ s with alm := a }, done.length)
  | e :: _ =>
    let a' := if Config.freeBool s.freeSeq then almWrite1 a e.1 e.2 else a
    (modeSync (raiseRec .almanac 10 e.1 false true { s with alm := a', freeSeq := s.freeSeq + 1 }).1, done.length)

/-- A persistent write (R445, R447): refused whole where a word is fenced or would pass its endurance limit, and ended by a
failed read-back; the second part is its status. -/
def persist (l : List (Nat × Word)) (bad : Option Nat) (s : State) : State × Nat :=
  if l.any (fun e => wordFenced s e.1) then (s, stFenced)
  else if almExhausted s.alm l then (s, stEndurance)
  else
    let x := almCarry l bad s
    (x.1, if x.2 = l.length then stOk else stFenced)

/-- The spec of ALMANAC_WRITE (R463). -/
def specAlmanacWrite : CmdSpec :=
  { opcode := 0x0902, cls := .run, onI2ct := true
    lenOk := fun p => decide (8 ≤ p.length ∧ p.length ≤ 1004 ∧ p.length = 4 + 4 * fld p 2 2) }

/-- The words of an ALMANAC_WRITE. -/
def writeWords (r : Req) : List Word :=
  (List.range (fld r.payload 2 2)).map (fun i => BitVec.ofNat 32 (fld r.payload (4 + 4 * i) 4))

/-- ALMANAC_WRITE (R463, R479): every word is checked before any is written, in ascending order. -/
def cmdAlmanacWrite (r : Req) (s : State) : State × Reply :=
  let first := fld r.payload 0 2
  let ws := writeWords r
  let l := ws.mapIdx (fun i v => (first + i, almStored s (first + i) v))
  match firstFail
    [(almAccessOk s r.ring first ws, stMode),
     (noTarget r && decide (first + ws.length ≤ 4096) && l.all (fun e => almListed e.1), stBadTarget),
     (!l.any (fun e => wordFenced s e.1), stFenced), (!almExhausted s.alm l, stEndurance)] with
  | some st => (s, errR st)
  | none =>
    let x := almCarry l r.badWord s
    (x.1, { status := if x.2 = l.length then stOk else stFenced, parts := [le 2 x.2 ++ [0, 0]] })

/-- ALMANAC_WRITE. -/
def execAlmanacWrite (r : Req) (s : State) : Res := .next (runCmd specAlmanacWrite cmdAlmanacWrite r s)

/-- The spec of GUARD_RULE_SET (R450). -/
def specGuardRuleSet : CmdSpec :=
  { opcode := 0x0203, cls := .run, lenOk := len 20, resvOk := zeroAt 2 2 }

/-- A rule that has been written applies to no device that is present now (R128). -/
def skipRule (i : Nat) (s : State) : State :=
  let here := allDs.filter (fun d => (s.dsd[d].conn2 || s.dsd[d].shown3) && (tabGet s.vig.seen (d.val * 256)).isNone)
  let seen := here.foldl (fun l d => tabPut l (d.val * 256) {}) s.vig.seen
  { s with vig := { s.vig with
      seen := seen.map (fun e => (e.1, { e.2 with skip := i :: e.2.skip.filter (· ≠ i) })) } }

/-- GUARD_RULE_SET (R128, R450, R476): words 0–2 of the rule before word 3, after a first write that invalidates a valid rule. -/
def cmdGuardRuleSet (r : Req) (s : State) : State × Reply :=
  let i := fld r.payload 0 2
  let base := 0x700 + 4 * i
  let w (j : Nat) : Word := BitVec.ofNat 32 (fld r.payload (4 + 4 * j) 4)
  let cur (j : Nat) : Word := almRead s (base + j)
  if !noTarget r || decide (i > 255) then (s, errR stBadTarget)
  else
    let same := decide (cur 0 = w 0 ∧ cur 1 = w 1 ∧ cur 2 = w 2)
    let inval := if !same && (cur 3).toNat / 2 ^ 24 = 0x5A then [(base + 3, BitVec.ofNat 32 ((cur 3).toNat % 2 ^ 24))]
      else []
    let x := persist (inval ++ [(base, w 0), (base + 1, w 1), (base + 2, w 2), (base + 3, w 3)]) r.badWord s
    (if x.2 = stOk then skipRule i x.1 else x.1, errR x.2)

/-- GUARD_RULE_SET. -/
def execGuardRuleSet (r : Req) (s : State) : Res := .next (runCmd specGuardRuleSet cmdGuardRuleSet r s)

end Sys2Proof.Machine
end

