-- ==== Sys2Proof/Machine/PortOps.lean ====
section
/-! DEFINITION. Virtual hubs, slots, ownership and the data lines of a port: who presents what, change bits, port events,
port guard rules and the vendor status word (R104–R106, R125–R130, R298, R469). -/

set_option Elab.async false

namespace Sys2Proof.Machine

/-! ### Accessors -/

/-- A downstream port's data lines. -/
def dsOf (s : State) (d : DS) : DsData := s.dsd[d]

/-- A downstream port's data lines replaced. -/
def setDs (d : DS) (x : DsData) (s : State) : State := { s with dsd := s.dsd.set d x }

/-- A downstream port's data lines changed. -/
def modDs (d : DS) (f : DsData → DsData) (s : State) : State := { s with dsd := s.dsd.set d (f s.dsd[d]) }

/-- An upstream port's links. -/
def usOf (s : State) (u : US) : UsData := s.usd[u.idx]

/-- An upstream port's links changed. -/
def modUs (u : US) (f : UsData → UsData) (s : State) : State := { s with usd := s.usd.set u.idx (f s.usd[u.idx]) }

/-- A virtual hub changed. -/
def modHub (u : US) (f : Hub → Hub) (s : State) : State := { s with hubs := s.hubs.set u.idx (f s.hubs[u.idx]) }

/-- A virtual hub's state changed, and the mode conditions with it (R247, R379). -/
def setHubState (u : US) (h : HubState) (s : State) : State := modeSync (modHub u (fun x => { x with state := h }) s)

/-- The owner of a downstream port (R105). -/
def ownerOf (s : State) (d : DS) : Option US := s.own.owner[d]

/-- A downstream port's owner replaced. -/
def setOwner (d : DS) (o : Option US) (s : State) : State := { s with own := { s.own with owner := s.own.owner.set d o } }

/-- A port is sealed: its bit in the SEALED word, a blank word sealing none (R477). -/
def isSealed (s : State) (d : DS) : Bool :=
  almRead s 0x070 != blankWord && bit (almRead s 0x070).toNat d.val

/-! ### Checks of a target port (R111, R124, R445) -/

/-- The command came from the LMF of the hub that does not own the port (R111): an unowned port is free to both. -/
def elsewhere (r : Req) (s : State) (d : DS) : Bool := match reqHub r with
  | some u => ownerOf s d == some u.other
  | none => false

/-- The sealed and ownership checks of a downstream port: the status that fails, if any. -/
def dsGate (r : Req) (s : State) (d : DS) : Option Nat :=
  firstFail [(!isSealed s d, stSealed), (!elsewhere r s d, stOwned)]

/-- The ownership check of an upstream port: the other hub's is owned elsewhere. -/
def usGate (r : Req) (u : US) : Option Nat := if reqHub r == some u.other then some stOwned else none

/-- The checks of any port. -/
def portGate (r : Req) (s : State) (p : Port) : Option Nat :=
  match portDs p, portUs p with
  | some d, _ => dsGate r s d
  | _, some u => usGate r u
  | _, _ => none

/-! ### Slots (R104–R106) -/

/-- The slot number of a downstream port in a hub's slot list, counted from 0. -/
def slotOf (h : Hub) (d : DS) : Option (Fin 15) :=
  match h.active.findIdx? (· == .port d) with
  | some i => if hi : i < 15 then some ⟨i, hi⟩ else none
  | none => none

/-- What virtual port v + 1 of a hub holds. -/
def slotAt (s : State) (u : US) (v : Fin 15) : Option Slot := (hubOf s u).active[v.val]?

/-- The downstream port that a virtual port reaches: its slot holds the port and the hub owns it (R105, R106). -/
def ownedAt (s : State) (u : US) (v : Fin 15) : Option DS :=
  match slotAt s u v with
  | some (.port d) => if ownerOf s d = some u then some d else none
  | _ => none

/-- The slot state of a virtual port. -/
def slotSt (s : State) (u : US) (v : Fin 15) : SlotSt := (hubOf s u).slots[v]

/-- The slot state of a virtual port changed. -/
def modSlot (u : US) (v : Fin 15) (f : SlotSt → SlotSt) (s : State) : State :=
  modHub u (fun h => { h with slots := h.slots.set v (f h.slots[v]) }) s

/-- A change bit added to a set. -/
def addChange (c : Change) (l : List Change) : List Change := if c ∈ l then l else l ++ [c]

/-- A change bit set on a virtual port of the companion hub, or of the SuperSpeed hub (R298). -/
def chgSlot (u : US) (v : Fin 15) (ss : Bool) (c : Change) (s : State) : State :=
  modSlot u v (fun x => if ss then { x with chg3 := addChange c x.chg3 } else { x with chg2 := addChange c x.chg2 }) s

/-- The owning slot of a downstream port. -/
def owningSlot (s : State) (d : DS) : Option (US × Fin 15) :=
  match ownerOf s d with
  | none => none
  | some u => (slotOf (hubOf s u) d).map (fun v => (u, v))

/-- A change bit set on the owning slot (R298); a port that no hub owns sets none, and a companion hub at full speed shows every slot empty
(R163). -/
def chgPort (d : DS) (ss : Bool) (c : Change) (s : State) : State :=
  match owningSlot s d with
  | some (u, v) => if !ss && (usOf s u).speed2 == 1 then s else chgSlot u v ss c s
  | none => s

/-- PORT_OVER_CURRENT and its change bit on the owning slot of both hubs of the pair (R114). -/
def overCurrentOn (d : DS) (s : State) : State :=
  let s1 := match owningSlot s d with
    | some (u, v) => modSlot u v (fun x => { x with overCur := true }) s
    | none => s
  chgPort d true .overCurrent (chgPort d false .overCurrent s1)

/-- PORT_OVER_CURRENT cleared. DESIGN CHOICE: when VBUS is applied again (log entry 97). -/
def overCurrentOff (d : DS) (s : State) : State := match owningSlot s d with
  | some (u, v) => modSlot u v (fun x => { x with overCur := false }) s
  | none => s

/-- A move of the port has passed its step 2: neither hub presents it (R118). -/
def movingNow (s : State) (d : DS) : Bool := match s.own.move[d] with
  | some m => decide (m.phase ≥ 2)
  | none => false

/-- The port's device may be presented to its owner: not fenced (R55), not blocked (R126), no move past step 2, and no loopback on the
port (R483). -/
def presentable (s : State) (d : DS) : Bool :=
  !portFenced s (dsPort d) && !bit (dsOf s d).quirks 8 && !movingNow s d && (tabGet s.test.loops (d.val + 2)).isNone

/-! ### What a slot presents (R105, R110, R163, R297) -/

/-- The LMF enumerates on this hub of the pair: the SuperSpeed hub when that hub is enumerated, else the companion (R110). -/
def lmfHere (s : State) (u : US) (ss : Bool) : Bool := ss == ((usOf s u).link != .rxDetect)

/-- The port whose device a slot presents on one hub of the pair to its owner: powered, connected and presentable; a companion hub at full
speed presents every slot empty (R105, R163). -/
def shownHere (s : State) (u : US) (v : Fin 15) (ss : Bool) : Option DS :=
  match ownedAt s u v with
  | some d =>
    if (slotSt s u v).power && presentable s d && (if ss then (dsOf s d).shown3 else (dsOf s d).shown2 && (usOf s u).speed2 != 1) then some d
    else none
  | none => none

/-- A slot presents a connected device on one hub of the pair (R105): a port's, or the LMF. -/
def presents (s : State) (u : US) (ss : Bool) (v : Fin 15) : Bool := match slotAt s u v with
  | some .lmf => lmfHere s u ss
  | some (.port _) => (shownHere s u v ss).isSome
  | none => false

/-- The connections of a hub of the pair as its host finds them at its first read: C_PORT_CONNECTION on each slot that presents a device, no
other change bit (R105, R285). -/
def presentSlots (u : US) (ss : Bool) (s : State) : State :=
  modHub u (fun h => { h with slots := Vector.ofFn (fun v =>
    let l : List Change := if presents s u ss v then [.connection] else []
    if ss then { h.slots[v] with chg3 := l } else { h.slots[v] with chg2 := l }) }) s

/-- Connections that came while the hub was suspended, or before it was attached, are reported (R119, R297). -/
def presentWaiting (u : US) (s : State) : State :=
  allDs.foldl (fun s d =>
    let x := dsOf s d
    if ownerOf s d != some u then s
    else
      let go2 := x.late2 && !(usOf s u).susp2
      let go3 := x.late3 && !(usOf s u).susp3
      let s1 := if go2 && presentable s d then chgPort d false .connection s else s
      let s2 := if go3 && presentable s d then chgPort d true .connection s1 else s1
      modDs d (fun x => { x with late2 := x.late2 && !go2, late3 := x.late3 && !go3 }) s2) s

/-! ### Events of a port (R469, R470) -/

/-- *Port rings* of R469 for a downstream port. -/
def portRings (s : State) (d : DS) : List (Fin 8) :=
  let lmfOf (u : US) : Fin 8 := match u with | .us0 => 2 | .us1 => 3
  if isSealed s d then
    [1] ++ (match ownerOf s d with | some u => if ringRuns s.mbx (cplRing (lmfOf u)) then [lmfOf u] else [] | none => [])
  else
    (allRings s.mbx).filter (fun k => match ownerOf s d with
      | some .us0 => k.val != 3
      | some .us1 => k.val != 2
      | none => true)

/-- *Port rings* of R469 for any port; an upstream port is its own hub's. -/
def ringsOf (s : State) (p : Port) : List (Fin 8) :=
  match portDs p, portUs p with
  | some d, _ => portRings s d
  | _, some .us0 => (allRings s.mbx).filter (fun k => k.val != 3)
  | _, some .us1 => (allRings s.mbx).filter (fun k => k.val != 2)
  | _, _ => []

/-- A PORT event (R470), not on the rings that carry the final completion of the same happening (R448). -/
def portEvent (p : Port) (kind : Nat) (detail : List Byte) (skip : List (Fin 8)) (s : State) : State :=
  eventOn ((ringsOf s p).filter (· ∉ skip)) 0xFF06
    (le 1 (portCode p) ++ le 1 kind ++ [0, 0] ++ le 8 s.now ++ slice detail 0 8) s

/-! ### Port guard rules (R125–R128) -/

/-- Word j of rule i. -/
def ruleWord (s : State) (i j : Nat) : Nat := (almRead s (0x700 + 4 * i + j)).toNat

/-- A rule is valid: its TAG, and not blank (R125). -/
def ruleValid (s : State) (i : Nat) : Bool := bits (ruleWord s i 3) 31 24 == 0x5A

/-- A class triple matches the parts that a rule's word 1 selects (R125). -/
def tripleMatch (w1 : Nat) (t : Byte × Byte × Byte) : Bool :=
  (!bit w1 26 || t.1.toNat == bits w1 7 0) && (!bit w1 27 || t.2.1.toNat == bits w1 15 8) &&
    (!bit w1 28 || t.2.2.toNat == bits w1 23 16)

/-- A rule matches a device on a port (R125, R127). -/
def ruleMatches (s : State) (d : DS) (x : DevId) (i : Nat) : Bool :=
  let w0 := ruleWord s i 0
  let w1 := ruleWord s i 1
  let w2 := ruleWord s i 2
  let ports := bits w2 15 0
  let ifn := bits w2 23 16
  ruleValid s i && (ports == 0 || bit ports d.val) &&
    (!bit w1 24 || x.vid.toNat == bits w0 15 0) && (!bit w1 25 || x.pid.toNat == bits w0 31 16) &&
    (if bit w1 29 then
       x.ifaces.any (fun e => (ifn == 0xFF || e.1.toNat == ifn) && tripleMatch w1 e.2)
     else tripleMatch w1 x.triple)

/-- The first valid rule that matches (R127). -/
def firstRule (s : State) (d : DS) (x : DevId) : Option Nat := (List.range 256).find? (ruleMatches s d x)

/-- The quirks of a rule, FORCE_FS implying NO_SS (R126). -/
def ruleQuirks (s : State) (i : Nat) : Nat :=
  let q := bits (ruleWord s i 3) 8 0
  if bit q 0 then q ||| 2 else q

/-- Some valid rule carries FORCE_FS, NO_SS or BLOCK, so new devices are probed (R127). -/
def probeNeeded (s : State) : Bool :=
  (List.range 256).any (fun i => ruleValid s i && (bits (ruleWord s i 3) 8 0 &&& 0x103) != 0)

/-- The first match applied to a device; FORCE_FS and NO_SS only to one attached directly (R127, R128). -/
def applyRules (d : DS) (x : DevId) (direct : Bool) (s : State) : State :=
  match firstRule s d x with
  | some i =>
    modDs d (fun p => { p with rule := some i, quirks := if direct then ruleQuirks s i else ruleQuirks s i &&& 0x1FC }) s
  | none => s

/-! ### Host absence of SuperSpeed on a port (R102, R126, R285) -/

/-- A virtual hub's upstream link runs at USB 2.0 only (R102). -/
def usb2Only (s : State) (u : US) : Bool :=
  (hubOf s u).connected && (usOf s u).link == .rxDetect && (usOf s u).speed2 != 0

/-- SuperSpeed runs on a port: DS1–DS8, no NO_SS, and its owning hub's link is not at USB 2.0 only (R102, R285). -/
def ssAllowed (s : State) (d : DS) : Bool :=
  decide (d.val < 8) && !bit (dsOf s d).quirks 1 &&
    (match ownerOf s d with
     | some u => !usb2Only s u
     | none => true)

/-! ### Wake record (R393) -/

/-- The last-wake record written (R393). -/
def writeWake (cls port detail : Nat) (modeLeft : Mode) (replayed : Bool) (also coincident : Nat) (s : State) : State :=
  { s with wake := { s.wake with cls := cls, modeLeft := modeId modeLeft, port := port, coincident := coincident
                                 replayed := replayed, quality := laneQuality s, detail := detail, time := s.now
                                 epoch := s.clk.epoch, also := also } }

end Sys2Proof.Machine
end

