-- ==== Sys2Proof/Machine/SsOps.lean ====
section
/-! DEFINITION. Endpoint queues: their tags, cells and spill space (R13, R19, R30, R31, R91–R94, R140–R143), charged lengths,
policers, shapers and the weighted fair queue (R193–R206), SuperSpeed links and discards (R144, R161). -/

set_option Elab.async false

namespace Sys2Proof.Machine

/-! ### Accessors -/

/-- An endpoint queue by its number. -/
def epqOf (s : State) (q : Nat) : Option Epq := tabGet s.epqs q

/-- An endpoint queue changed. -/
def modEpq (q : Nat) (f : Epq → Epq) (s : State) : State :=
  { s with epqs := s.epqs.map (fun e => if e.1 = q then (e.1, f e.2) else e) }

/-- A SuperSpeed link. -/
def linkOf (s : State) (p : Port) : SsLink := s.links[p]

/-- A SuperSpeed link changed. -/
def modLink (p : Port) (f : SsLink → SsLink) (s : State) : State := { s with links := s.links.set p (f s.links[p]) }

/-- The link state of a port. -/
def linkState (s : State) (p : Port) : Link :=
  match portUs p, portDs p with
  | some u, _ => (usOf s u).link
  | _, some d => (dsOf s d).link
  | _, _ => .disabled

/-- A port's link state replaced. -/
def setLink (p : Port) (l : Link) (s : State) : State :=
  match portUs p, portDs p with
  | some u, _ => modUs u (fun x => { x with link := l }) s
  | _, some d => modDs d (fun x => { x with link := l }) s
  | _, _ => s

/-- The rate of a link: 1 Gen 1, 2 Gen 2, 3 Gen 2x2 (R153). -/
def linkRate (s : State) (p : Port) : Nat :=
  match portUs p, portDs p with
  | some u, _ => if (usOf s u).gen = 2 ∧ (usOf s u).lanes = 2 then 3 else (usOf s u).gen
  | _, some d => (dsOf s d).gen
  | _, _ => 0

/-- The open endpoint queue of a device-side endpoint (R213, R215): endpoint 0 has one entry, for both directions. -/
def findEpq (s : State) (d : DS) (daddr ep : Nat) (dirIn : Bool) : Option Nat :=
  (s.epqs.find? (fun e => !e.2.closed && e.2.port == d && e.2.daddr == daddr && e.2.ep == ep &&
    (ep == 0 || e.2.dirIn == dirIn))).map (·.1)

/-! ### Discards (R161) -/

/-- A count that saturates at 2³² − 1. -/
def sat32 (n : Nat) : Nat := min 0xFFFFFFFF n

/-- One packet counted under a code, against its ingress port and its queue (R161, R208). DESIGN CHOICE: the queue's counts stand under its EPQ, so
one opened later under the same EPQ shows what the one before it left (log entry 94). -/
def countDiscard (p : Port) (q : Option Nat) (code : Nat) (s : State) : State :=
  let k := p.val * 8 + code
  let dp := tabPut s.sched.discPort k (sat32 ((tabGet s.sched.discPort k).getD 0 + 1))
  let dq := match q with
    | some q => tabPut s.sched.disc (q * 8 + code) (sat32 ((tabGet s.sched.disc (q * 8 + code)).getD 0 + 1))
    | none => s.sched.disc
  { s with sched := { s.sched with disc := dq, discPort := dp } }

/-! ### Classes and charged length (R193, R195, R196) -/

/-- The class ID of an endpoint type (R193). -/
def clsOf (t : EpType) : Nat := match t with
  | .iso => 1
  | .interrupt => 2
  | .control => 3
  | .bulk => 4

/-- The default weight of a class (R193). -/
def clsWeight (c : Nat) : Nat := match c with
  | 1 => 128
  | 2 => 64
  | 3 => 32
  | _ => 8

/-- The default overhead of a row of R195. -/
def ovhDefault (row : Nat) : Nat := [52, 40, 55, 38, 20, 12, 10].getD row 0

/-- The overhead of a row on a link (R196). -/
def ovhOf (s : State) (p : Port) (row : Nat) : Nat := (tabGet s.sched.ovh (p.val * 8 + row)).getD (ovhDefault row)

/-- The charged length of a SuperSpeed data packet on a link (R195). -/
def ssCharged (s : State) (p : Port) (len : Nat) : Nat := len + ovhOf s p 0

/-- A queue's weight (R194, R206): a sealed port's queues run at their class's default. -/
def weightOf (s : State) (e : Epq) : Nat := if e.weight = 0 ∨ isSealed s e.port = true then clsWeight e.cls else e.weight

/-! ### Pools, cells, tags and spill (R19, R91–R94, R143) -/

/-- The 128-byte cells of a payload. -/
def cellsOf (n : Nat) : Nat := max 1 ((n + 127) / 128)

/-- The first cell and the size of a class's PKB pool (R92). -/
def poolRange (cls : Nat) : Nat × Nat := match cls with
  | 0 => (0, 512)
  | 3 => (512, 1024)
  | 4 => (5632, 10752)
  | _ => (1536, 4096)

/-- A cell lies in a range of cells. -/
def inCells (r : Nat × Nat) (n : Nat) : Bool := decide (r.1 ≤ n ∧ n < r.1 + r.2)

/-- The cells that no packet may take: retired (R100), fenced (R99), or in a pattern test (R493). Each counts against the part of its pool in which
its number lies, the sealed reserve too (R94). DEDUCED (log entry 92). -/
def deadCells (s : State) : List Nat :=
  s.memb.retiredCells ++
    (fltRec s .pkb).fenced.filterMap (fun f => match f.unit with | .cell n => some n | _ => none) ++
    (match s.test.pkb with | some t => t.tested | none => [])

/-- The cells that hold something: stored packets, packets of no open queue, and the work of the transaction translators (R92). -/
def heldCells (s : State) : List Nat :=
  s.epqs.flatMap (fun e => e.2.pkts.flatMap (·.cells)) ++ s.links.toList.flatMap (fun l => l.loose.flatMap (·.cells)) ++
    s.u2d.toList.flatMap (fun x => x.tt.bufs.flatMap (·.cells))

/-- The cells of a range that are not free. -/
def busyCells (s : State) (r : Nat × Nat) : List Nat :=
  let h := (heldCells s).filter (inCells r)
  h ++ (deadCells s).filter (fun n => inCells r n && !h.contains n)

/-- The free cells of a range. -/
def freeCells (s : State) (r : Nat × Nat) : Nat := r.2 - (busyCells s r).length

/-- The k lowest free cells of a range, as far as it has them. DESIGN CHOICE: the spec gives no order (log entry 92). -/
def lowestFree (s : State) (r : Nat × Nat) (k : Nat) : List Nat :=
  let b := busyCells s r
  ((List.range' r.1 (min r.2 (k + b.length))).filter (fun n => !b.contains n)).take k

/-- The ranges that a port's packets of a class take cells from, in their order (R92, R94): the last 512 cells of the bulk pool are the
sealed ports' alone. -/
def poolRanges (s : State) (cls : Nat) (d : DS) : List (Nat × Nat) :=
  if cls = 4 then (if isSealed s d then [(15872, 512), (5632, 10240)] else [(5632, 10240)]) else [poolRange cls]

/-- A chain of k cells for a port's packet of a class, if its pool has them (R92, R94). -/
def takeCells (s : State) (cls : Nat) (d : DS) (k : Nat) : Option (List Nat) :=
  let l := ((poolRanges s cls d).flatMap (fun r => lowestFree s r k)).take k
  if l.length = k then some l else none

/-- The cells a queue holds in PKB. -/
def epqCells (e : Epq) : Nat := (e.pkts.flatMap (·.cells)).length

/-- The payload bytes a queue holds at a place. -/
def epqBytes (e : Epq) (l : Loc) : Nat := (e.pkts.map (fun p => if p.loc = l then p.data.length else 0)).foldl (· + ·) 0

/-- The 48-byte units of a spilled packet: its header, its payload and its arrival time (R143). -/
def spillUnits (n : Nat) : Nat := (16 + n + 8 + 47) / 48

/-- The usable address at which the spill region begins: its nominal start rounded up to a unit (R91). -/
def spillStart (s : State) : Nat := ((88 + 64 * s.vig.regionInForce) * 1048576 + 47) / 48 * 48

/-- The extents of the spill region: 1,366 whole units each (R91, R143). -/
def spillExtents (s : State) : Nat := (Config.dramMb.toNat * 786432 - spillStart s) / 65568

/-- The first unit of an extent. -/
def extentUnit (s : State) (i : Nat) : Nat := spillStart s / 48 + 1366 * i

/-- An extent may be given to a queue: none of its pages is fenced or retired (R99, R100), and no pattern test reaches it (R493). -/
def extentOk (s : State) (i : Nat) : Bool :=
  let a := extentUnit s i
  let bad (n : Nat) : Bool := decide (n * 64 < a + 1366 ∧ a < n * 64 + 64)
  !s.memb.retiredPages.any bad &&
    !(fltRec s .dmc).fenced.any (fun f => match f.unit with | .page n => bad n | _ => false) &&
    (match s.test.dmc with
     | some t => !decide (t.start < (a + 1366) * 48 ∧ a * 48 < t.start + t.bytes)
     | none => true)

/-- The lowest extent that no queue holds. DESIGN CHOICE: the spec gives no order (log entry 92). -/
def freeExtent (s : State) : Option Nat :=
  (List.range (spillExtents s)).find? (fun i => extentOk s i && !s.epqs.any (fun e => e.2.extents.contains i))

/-- Room for n units in a queue's current extent, or in a new one where they do not fit whole: the unit, the extents and the units used of
the last (R143). -/
def spillRoom (s : State) (e : Epq) (n : Nat) : Option (Nat × List Nat × Nat) :=
  match e.extents.getLast? with
  | some i =>
    if e.spillOff + n ≤ 1366 then some (extentUnit s i + e.spillOff, e.extents, e.spillOff + n)
    else (freeExtent s).map (fun j => (extentUnit s j, e.extents ++ [j], n))
  | none => (freeExtent s).map (fun j => (extentUnit s j, [j], n))

/-- The units at which a queue's data in DRAM starts: packets, and spilled data of its translator (R177). -/
def spilledAt (s : State) (q : Nat) (e : Epq) : List Nat :=
  (e.pkts.filter (·.loc == .dram)).map (·.unit) ++
    (s.u2d[e.port]).tt.bufs.filterMap (fun b => if b.spilled && b.epq == some q then some b.unit else none)

/-- A queue's drained extents given back (R143). -/
def trimExtents (s : State) (x : Nat × Epq) : Nat × Epq :=
  if x.2.extents.isEmpty then x
  else
    let us := spilledAt s x.1 x.2
    let l := x.2.extents.filter (fun i => us.any (fun u => decide (extentUnit s i ≤ u ∧ u < extentUnit s i + 1366)))
    (x.1, { x.2 with extents := l, spillOff := if l.getLast? == x.2.extents.getLast? then x.2.spillOff else 1366 })

/-- A queue has data in DRAM (R93). -/
def inDram (s : State) (q : Nat) (e : Epq) : Bool := !(spilledAt s q e).isEmpty

/-- The bulk pool holds at least the spill threshold (R93). -/
def overThreshold (s : State) : Bool :=
  decide (((heldCells s).filter (inCells (5632, 10752))).length * 100 ≥ s.sched.spillPct * 10752)

/-! ### Virtual channels of the fabric (R17) -/

/-- The virtual channel of a class (R17, R193). -/
def vcOf (cls : Nat) : Nat := match cls with
  | 0 => 0
  | 3 => 1
  | 4 => 3
  | _ => 2

/-- The class of an open queue's traffic; what has no open queue yet is control traffic. -/
def clsAt (s : State) (q : Option Nat) : Nat := ((q.bind (epqOf s)).map (·.cls)).getD 3

/-- The credits of a pool (R17): one at least, and how many more the spec leaves open. -/
def fabPool (vc : Nat) (rsp : Bool) : Nat := 1 + Config.fabCredits vc rsp

/-- The credits of a pool that are out. A cut-through holds one of its request pool from its header to its end; every other crossing ends
within its row, the receiver returning the credit as it takes the data. -/
def fabHeld (s : State) (vc : Nat) (rsp : Bool) : Nat :=
  if rsp then 0
  else (s.links.toList.filter (fun l => match l.rx with
    | some r => (match r.disp with | .cut _ => vcOf (clsAt s r.epq) == vc | _ => false)
    | none => false)).length

/-- A pool has a credit to give. -/
def fabOpen (s : State) (vc : Nat) (rsp : Bool) : Bool := decide (fabHeld s vc rsp < fabPool vc rsp)

/-- The order in which the arbiter serves the channels: VC0 first, the others in turn (R17). -/
def fabOrder (s : State) : List Nat := match s.fab.next with
  | 2 => [0, 2, 3, 1]
  | 3 => [0, 3, 1, 2]
  | _ => [0, 1, 2, 3]

/-! ### Transaction tags (R13, R19) -/

/-- Tags of a class's pool (R19). -/
def tagPool (cls : Nat) : Nat := match cls with
  | 0 => 16
  | 3 => 64
  | 4 => 688
  | _ => 256

/-- Every operation outstanding that holds a tag: the virtual channel, and so the pool, of its class, and the Chervil that issued it. They are
packets stored or cut through, the work of the translators, and CMD0 entries not yet taken. -/
def tagsOut (s : State) : List (Nat × Option (Fin 8)) :=
  s.epqs.flatMap (fun e => (e.2.pkts.filter (·.tag.isSome)).map (fun p => (vcOf e.2.cls, p.tag))) ++
    s.links.toList.flatMap (fun l =>
      (l.loose.filter (·.loc == .pkb)).map (fun p => (1, p.tag)) ++
      (match l.rx with
       | some r => (match r.disp with | .cut _ => [(vcOf (clsAt s r.epq), r.tag)] | _ => [])
       | none => [])) ++
    s.u2d.toList.flatMap (fun x => x.tt.bufs.map (fun b => (if b.ctl then 1 else 3, b.tag)) ++ x.tt.per.map (fun b => (2, b.tag))) ++
    s.mbx.cmd0Via.map (fun _ => (0, none))

/-- The tags of a class's pool that are out. -/
def poolTags (s : State) (cls : Nat) : Nat := ((tagsOut s).filter (fun x => x.1 == vcOf cls)).length

/-- The tags a Chervil holds (R13). -/
def chvTags (s : State) (c : Fin 8) : Nat := ((tagsOut s).filter (fun x => x.2 == some c)).length

/-- A Chervil is fenced (R233). -/
def chvFenced (s : State) (c : Fin 8) : Bool := blockFenced s (.chv c)

/-- A tag of a class is free on a Chervil, or in the pool alone for work that no queue's Chervil issues (R13, R19). -/
def tagFree (s : State) (cls : Nat) (c : Option (Fin 8)) : Bool :=
  decide (poolTags s cls < tagPool cls) && (match c with | some c => decide (chvTags s c < 128) | none => true)

/-- The tags that a queue's packets hold. -/
def epqTags (e : Epq) : Nat := (e.pkts.filter (·.tag.isSome)).length

/-- An operation of a queue finds a tag (R13, R19, R31). A queue without a place stores its data without one (R235). -/
def queueTag (s : State) (e : Epq) : Bool :=
  e.chv.isNone || (tagFree s e.cls e.chv && decide (epqTags e < e.capTags))

/-! ### Eligibility and the weighted fair queue (R197–R200) -/

/-- The upstream port that a queue's data toward the host leaves on: its owner's. -/
def hostOf (s : State) (e : Epq) : Option US := ownerOf s e.port

/-- The egress link of a packet of a queue: toward the host, that of the hub to which its header was routed (R132). -/
def egressOf (_s : State) (e : Epq) (p : Pkt) : Option Port :=
  if (portUs p.ingress).isSome then some (dsPort e.port) else p.dest.map usPort

/-- The queue is fenced: in SCHED, PLACE or its Chervil (R402, R408). -/
def epqFenced (s : State) (q : Nat) (e : Epq) : Bool :=
  unitFenced s .sched (.epq q) || unitFenced s .place (.epq q) ||
    (match e.chv with
     | some c => chvFenced s c || (fltRec s (.chv c)).fenced.any (fun f => f.unit == .epq q)
     | none => false)

/-- A device of the port is served by the proxy host: its hub holds it in VIGIL, or no host owns it (R249, R251). -/
def portVigil (s : State) (d : DS) : Bool :=
  s.vig.ctx.any (fun c => c.2.port == d && c.2.st == .held) &&
    (match ownerOf s d with | some u => (hubOf s u).state != .attached | none => true)

/-- The shaper permits a length (R202). -/
def shaperOk (e : Epq) (len : Nat) : Bool := e.shaper.mode == 0 || decide (len * 16 ≤ e.shaper.com ∧ len * 16 ≤ e.shaper.peak)

/-- A link is open to a packet: in U0, with no entry to U3 under way (R159). -/
def linkOpen (s : State) (p : Port) : Bool :=
  linkState s p == .u0 && (match portDs p, portUs p with
    | some d, _ => !(dsOf s d).u3Entry
    | _, some u => !(usOf s u).u3Want
    | _, _ => true)

/-- A queue is eligible on a link (R198): its first packet is in PKB with its tag, and the fabric and the link have a credit (R17, R30). -/
def eligible (s : State) (q : Nat) (e : Epq) (l : Port) : Bool :=
  match e.pkts with
  | [] => false
  | p :: _ =>
    egressOf s e p == some l && p.loc == .pkb && p.tag.isSome && linkOpen s l && decide ((linkOf s l).credits > 0) &&
      fabOpen s (vcOf e.cls) false && shaperOk e (ssCharged s l p.data.length) && e.chv.isSome && !epqFenced s q e &&
      e.cls != 0 && !((portUs l).isSome && portVigil s e.port)

/-- Tag a is earlier than tag b, modulo 2⁴⁸ (R197). -/
def earlier (a b : Nat) : Bool := decide ((a + 2 ^ 48 - b % 2 ^ 48) % 2 ^ 48 ≥ 2 ^ 47)

/-- The later of two tags. -/
def laterOf (a b : Nat) : Nat := if earlier a b then b else a

/-- The finish tag of a length at a weight, from a start (R199). -/
def finishTag (start len w : Nat) : Nat := (start + (len * 65536 + w - 1) / w) % 2 ^ 48

/-- The head packet's finish tag set where it is not yet (R199): at the first packet on a new link, LF is set to V (R208). -/
def tagHead (q : Nat) (s : State) : State :=
  match epqOf s q with
  | none => s
  | some e =>
    match e.pkts with
    | [] => s
    | p :: _ =>
      if e.tagged then s
      else match egressOf s e p with
        | none => s
        | some l =>
          let v := (linkOf s l).v
          let lf := if e.relink then v else e.lf
          let n := ssCharged s l p.data.length * (if p.red then 4 else 1)
          modEpq q (fun x => { x with lf := lf, relink := false, tagged := true
                                      hf := finishTag (laterOf v lf) n (weightOf s e) }) s

/-- The tie-break of R194: class order, then the lower EPQ number. -/
def tieBefore (a b : Nat × Epq) : Bool := decide (a.2.cls < b.2.cls) || (a.2.cls == b.2.cls && decide (a.1 < b.1))

/-- The selected queue of a link (R200). -/
def wfqBest (s : State) (l : Port) : Option (Nat × Epq) :=
  (s.epqs.filter (fun e => eligible s e.1 e.2 l)).foldl (fun b e =>
    match b with
    | none => some e
    | some x => if earlier e.2.hf x.2.hf then some e else if e.2.hf == x.2.hf && tieBefore e x then some e else some x) none

/-- A level reduced, never below zero (R202). -/
def debit (m : Meter) (len : Nat) : Meter :=
  if m.mode = 0 then m else { m with com := m.com - len * 16, peak := m.peak - len * 16 }

/-! ### High-water marks (R210) -/

/-- A queue's marks brought up to date. -/
def touchEpq (q : Nat) (s : State) : State :=
  match epqOf s q with
  | none => s
  | some e =>
    let el : Bool := match e.pkts with
      | [] => true
      | p :: _ => (match egressOf s e p with | some l => eligible s q e l | none => false)
    let w := match e.waitFrom with | some t => (s.now - t) / 1000 | none => 0
    modEpq q (fun x => { x with
      hwCells := max x.hwCells (epqCells x), hwSpill := max x.hwSpill (epqBytes x .dram)
      tagHw := max x.tagHw (epqTags x)
      hwWait := max x.hwWait w
      waitFrom := if el then none else some (x.waitFrom.getD s.now) }) s

/-! ### Storing (R30, R31, R93, R94, R138–R142) -/

/-- A queue spills by its pool mode, its order and the threshold (R93, R94, R228). -/
def mustSpill (s : State) (q : Nat) (e : Epq) : Bool :=
  e.cls == 4 && !isSealed s e.port && (e.pool == 2 || inDram s q e || (e.pool == 1 && overThreshold s))

/-- The bound on a queue's stored data: MaxBurst packets and one more (R140, R141). -/
def storeBound (e : Epq) : Nat := (e.burst + 1) * e.mps

/-- A packet given its tag and its place, in the order of R30: DRAM space for a moment's tag, or cells and a tag that it keeps. -/
def placed (s : State) (q : Nat) (e : Epq) (p : Pkt) : Option (Pkt × List Nat × Nat) :=
  if !queueTag s e then none
  else if mustSpill s q e then
    (spillRoom s e (spillUnits p.data.length)).map (fun x => ({ p with loc := .dram, unit := x.1, tag := none }, x.2))
  else if e.cls = 4 ∧ (epqCells e + cellsOf p.data.length) * 128 > e.capPkb then none
  else (takeCells s e.cls e.port (cellsOf p.data.length)).map (fun l =>
    ({ p with loc := .pkb, cells := l, tag := e.chv }, e.extents, e.spillOff))

/-- Waiting packets of a queue placed in order, while tags and room last (R30), and tags given to stored ones that came without. -/
def admitWaiting (q : Nat) : Nat → State → State
  | 0, s => s
  | n + 1, s =>
    match epqOf s q with
    | none => s
    | some e =>
      match e.pkts.findIdx? (fun p => p.loc == .pkb && p.tag.isNone) with
      | some i =>
        if e.chv.isSome && queueTag s e then
          admitWaiting q n (modEpq q (fun x => { x with pkts := x.pkts.modify i (fun p => { p with tag := x.chv }) }) s)
        else s
      | none =>
        match e.pkts.findIdx? (·.loc == .waiting) with
        | none => s
        | some i =>
          match (e.pkts[i]?).bind (placed s q e) with
          | none => s
          | some x =>
            admitWaiting q n (modEpq q (fun y => { y with
              pkts := y.pkts.modify i (fun _ => x.1), extents := x.2.1, spillOff := x.2.2 }) s)

/-- The packets of a queue that wait for a tag or for room. -/
def waits (e : Epq) : Nat := (e.pkts.filter (fun p => p.loc == .waiting || (p.loc == .pkb && p.tag.isNone))).length

/-- The packets that wait on a virtual channel. -/
def vcWaits (s : State) (vc : Nat) : Nat := (s.epqs.map (fun e => if vcOf e.2.cls = vc then waits e.2 else 0)).foldl (· + ·) 0

/-- The waiting packets of one virtual channel, queue by queue. -/
def admitVc (vc : Nat) (s : State) : State :=
  s.epqs.foldl (fun s e =>
    if vcOf e.2.cls = vc ∧ waits e.2 ≠ 0 then touchEpq e.1 (tagHead e.1 (admitWaiting e.1 e.2.pkts.length s)) else s) s

/-- A stored packet of no open queue placed: a tag and cells of the control pool (R19, R92). -/
def placeLoose (s : State) (p : Pkt) : Option Pkt :=
  if tagFree s 3 none then
    (takeCells s 3 0 (cellsOf p.data.length)).map (fun l => { p with loc := .pkb, cells := l })
  else none

/-- The waiting packets of no open queue on one link, in order. -/
def admitLoose (p : Port) : Nat → State → State
  | 0, s => s
  | n + 1, s =>
    match (linkOf s p).loose.findIdx? (·.loc == .waiting) with
    | none => s
    | some i =>
      match ((linkOf s p).loose[i]?).bind (placeLoose s) with
      | none => s
      | some x => admitLoose p n (modLink p (fun l => { l with loose := l.loose.modify i (fun _ => x) }) s)

/-- The waiting packets of no open queue, link by link. -/
def admitLinks (s : State) : State :=
  allPorts.foldl (fun s p => if (linkOf s p).loose.isEmpty then s else admitLoose p (linkOf s p).loose.length s) s

/-- The fabric's round robin after it served a channel: the turn goes to the channel after the first one served (R17). -/
def fabTurn (s t : State) : State :=
  match (fabOrder s).find? (fun v => v != 0 && decide (vcWaits t v < vcWaits s v)) with
  | some v => { t with fab := { t.fab with next := v % 3 + 1 } }
  | none => t

/-- The waiting packets of the queues, channel by channel as the fabric's arbiter serves them (R17, R30). -/
def admitQueues (s : State) : State :=
  fabTurn s ((fabOrder s).foldl (fun s v => admitVc v s) s)

/-- A closed queue ends once it has drained (R219). -/
def endDrained (s : State) : State :=
  { s with epqs := s.epqs.filter (fun e => !(e.2.closed && e.2.pkts.isEmpty)) }

/-- What was released is given out: drained extents go back, waiting packets are admitted, and drained closed queues end. -/
def settle (s : State) : State :=
  endDrained (admitQueues (admitLinks { s with epqs := s.epqs.map (trimExtents s) }))

/-- The bytes of spill space that a queue's packets take. -/
def epqSpill (e : Epq) : Nat :=
  (e.pkts.map (fun p => if p.loc = .dram then spillUnits p.data.length * 48 else 0)).foldl (· + ·) 0

/-- A data packet stored in its queue (R138–R142): in PKB, spilled, or waiting for a tag or for room. What passes the bound of R140 by more
than a packet, or a cap of R31, is discarded; a packet that waits counts to its caps. The Bool says whether it was stored. -/
def enqueue (q : Nat) (p : Pkt) (s : State) : State × Bool :=
  match epqOf s q with
  | none => (s, false)
  | some e =>
    let n := p.data.length
    let all := (e.pkts.map (·.data.length)).foldl (· + ·) 0
    let spill := mustSpill s q e
    let wait := (e.pkts.filter (·.loc == .waiting))
    let waitCells := (wait.map (fun x => cellsOf x.data.length)).foldl (· + ·) 0
    let periodic := e.cls == 1 || e.cls == 2
    if periodic && decide (epqCells e + waitCells + cellsOf n > e.reserved) then (countDiscard p.ingress (some q) 5 s, false)
    else if (!periodic && decide (all + n > storeBound e)) || decide (epqTags e + wait.length + 1 > e.capTags) ||
        (spill && decide (epqSpill e + spillUnits n * 48 > e.capSpill)) ||
        (!spill && e.cls == 4 && decide ((epqCells e + waitCells + cellsOf n) * 128 > e.capPkb)) then
      (countDiscard p.ingress (some q) 4 s, false)
    else
      let k := { p with at_ := s.now }
      let x := match (if wait.isEmpty then placed s q e k else none) with
        | some x => x
        | none => ({ k with loc := .waiting }, e.extents, e.spillOff)
      (touchEpq q (tagHead q (modEpq q (fun y => { y with
        pkts := y.pkts ++ [x.1], extents := x.2.1, spillOff := x.2.2 }) s)), true)

/-- A data packet of no open queue stored at its egress link. -/
def storeLoose (out : Port) (p : Pkt) (s : State) : State :=
  let k := { p with at_ := s.now }
  let x := match (if (linkOf s out).loose.any (·.loc == .waiting) then none else placeLoose s k) with
    | some x => x
    | none => { k with loc := .waiting }
  modLink out (fun l => { l with loose := l.loose ++ [x] }) s

/-! ### Policing (R205) -/

/-- The colour of a data packet: 0 green, 1 yellow, 2 red, and the policer after it. -/
def policeColour (m : Meter) (len : Nat) : Nat × Meter :=
  if m.peak < len * 16 then (2, m)
  else if m.com < len * 16 then (1, { m with peak := m.peak - len * 16 })
  else (0, { m with peak := m.peak - len * 16, com := m.com - len * 16 })

/-- A data packet metered as it enters for a queue: its colour, counted (R205, R209). -/
def police (q : Nat) (len : Nat) (s : State) : State × Nat :=
  match epqOf s q with
  | none => (s, 0)
  | some e =>
    if e.policer.mode = 0 then (s, 0)
    else
      let x := policeColour e.policer len
      (modEpq q (fun y => { y with
        policer := x.2
        green := sat32 (y.green + b2n (x.1 == 0)), yellow := sat32 (y.yellow + b2n (x.1 == 1))
        redN := sat32 (y.redN + b2n (x.1 == 2)), sRed := y.sRed + b2n (x.1 == 2) }) s, x.1)

/-! ### Links and sending (R135, R144, R145, R158, R192) -/

/-- The header credits a partner gives at a link's rate (R144). -/
def maxCredits (s : State) (p : Port) : Nat := if linkRate s p = 3 then 7 else 4

/-- The number of header sequence numbers at a link's rate. PRESUMED: USB 3.2's, 8 at Gen 1 and 16 at Gen 2 (log entry 93). -/
def seqMod (s : State) (p : Port) : Nat := if linkRate s p ≤ 1 then 8 else 16

/-- A header that leaves on a link: the link's sequence number, a credit, and its place in the retry buffer (R144, R145). -/
def putHeader (p : Port) (h : SsHeader) (s : State) : SsHeader × State :=
  let k := { h with lseq := (linkOf s p).txSeq }
  (k, modLink p (fun x => { x with
    credits := x.credits - 1, txSeq := (x.txSeq + 1) % seqMod s p, retry := x.retry ++ [k], idleFrom := s.now }) s)

/-- A header received on a link (R23, R140, R144): one whose CRC-16 fails gets LBAD, and no header counts until LRTY; one out of sequence
brings the link to Recovery; else LGOOD, and its buffer goes back with LCRD at once. The Bool says that the header may be acted on.
PRESUMED: what USB 3.2 prescribes after LBAD and for a wrong sequence number (log entry 93). -/
def linkIn (p : Port) (h : SsHeader) (crcOk : Bool) (s : State) : State × Bool :=
  let l := linkOf s p
  if l.rxIgnore then (s, false)
  else if !crcOk then (emit (.linkCmd p .lbad) (modLink p (fun x => { x with rxIgnore := true }) s), false)
  else if h.lseq != l.rxSeq then (setLink p .recovery s, false)
  else
    (emit (.linkCmd p (.lcrd l.rxCrd)) (emit (.linkCmd p (.lgood l.rxSeq)) (modLink p (fun x => { x with
      rxSeq := (x.rxSeq + 1) % seqMod s p, rxCrd := (x.rxCrd + 1) % maxCredits s p, idleFrom := s.now }) s)), true)

/-- A link trained afresh: sequence numbers, credits and retry buffer begin anew (R144). -/
def freshLink (s : State) (p : Port) (l : SsLink) : SsLink :=
  { l with exiting := false, credits := maxCredits s p, retry := [], rxSeq := 0, txSeq := 0, rxCrd := 0, txCrd := 0, rxIgnore := false
           rx := none, tx := none, itp := none }

/-- The headers of the retry buffer sent again, without their payloads (R145). -/
def resend (p : Port) (s : State) : State := (linkOf s p).retry.foldl (fun s h => emit (.ssHeader p h) s) s

/-- A cut-through is under way toward a link (R137). -/
def cutting (s : State) (p : Port) : Bool :=
  s.links.toList.any (fun l => match l.rx with | some r => r.disp == .cut p | none => false)

/-- Headers that wait for a link are sent while it is in U0 and holds credits, on fuel. -/
def flushHdr (p : Port) : Nat → State → State
  | 0, s => s
  | n + 1, s =>
    let l := linkOf s p
    match l.hdrWait with
    | [] => s
    | h :: t =>
      if linkOpen s p && decide (l.credits > 0) && l.tx.isNone then
        let x := putHeader p h.2 (modLink p (fun x => { x with hdrWait := t }) s)
        flushHdr p n (emit (.ssHeader p x.1) x.2)
      else s

/-- A link in U1 or U2 starts its exit (R135, R158). -/
def startExit (p : Port) (s : State) : State :=
  if linkState s p == .u1 || linkState s p == .u2 then modLink p (fun x => { x with exiting := true }) (setLink p .recovery s)
  else s

/-- A header from a link sent on another at the next packet boundary, bringing that link out of U1 or U2. -/
def sendHeader (inn p : Port) (h : SsHeader) (s : State) : State :=
  let s1 := modLink p (fun x => { x with hdrWait := x.hdrWait ++ [(inn, h)] }) s
  startExit p (flushHdr p 64 s1)

/-- A transaction packet charged to its queue's finish tag, from the later of V and LF (R192, R200). -/
def chargeTp (q : Option Nat) (l : Port) (s : State) : State :=
  match q with
  | none => s
  | some q =>
    match epqOf s q with
    | none => s
    | some e => modEpq q (fun x => { x with lf := finishTag (laterOf (linkOf s l).v x.lf) (ovhOf s l 1) (weightOf s e) }) s

/-- Link time of a charged length in 1/65,536 tick, at the link's rate after SKP (R155, R209). -/
def busyUnits (s : State) (p : Port) (len : Nat) : Nat :=
  let bytesPerTick := match linkRate s p with
    | 3 => 295656
    | 2 => 147812
    | _ => 62156
  len * 65536 / bytesPerTick

/-- A data packet sent on a link: its header's credit and retry, shaper and counters (R145, R200, R209). -/
def sendData (q : Option Nat) (l : Port) (p : Pkt) (s : State) : State :=
  let n := ssCharged s l p.data.length
  let x := putHeader l p.h (modLink l (fun x => { x with tx := some q }) s)
  let s1 := emit (.ssData l x.1 p.data p.bad) x.2
  match q with
  | none => s1
  | some q =>
    match epqOf s1 q with
    | none => s1
    | some e =>
      let keep := (portUs l).isSome && (e.cls == 2 || e.cls == 4) && s.vig.armed[e.port]
      let s2 := modLink l (fun x => { x with v := e.hf, busy := x.busy.modify e.cls (· + busyUnits s l n) }) s1
      modEpq q (fun x => { x with
        lf := x.hf, tagged := false, shaper := debit x.shaper n
        packets := min (2 ^ 48 - 1) (x.packets + 1), payload := min (2 ^ 64 - 1) (x.payload + p.data.length)
        charged := min (2 ^ 64 - 1) (x.charged + n), sCharged := x.sCharged + n, sPackets := x.sPackets + 1
        copies := if keep then x.copies ++ [p] else x.copies }) s2

/-- The first packet of a queue leaves it. -/
def popHead (q : Nat) (s : State) : State := modEpq q (fun x => { x with pkts := x.pkts.drop 1, tagged := false }) s

/-! ### Packets of a port (R28, R29, R141, R160, R288) -/

/-- A packet from a host, toward the device. -/
def towardDevice (p : Pkt) : Bool := (portUs p.ingress).isSome

/-- The ingress port of what a link sends: for a downstream port its owner's, for an upstream port the queue's device. -/
def ingressOf (s : State) (p : Port) (q : Option Nat) : Port :=
  match portDs p, q.bind (epqOf s) with
  | some d, _ => (match ownerOf s d with | some u => usPort u | none => p)
  | none, some e => dsPort e.port
  | _, _ => p

/-- Packets of queues that a test selects are discarded, each counted under a code (R28, R161). -/
def dropPkts (f : Epq → Pkt → Bool) (code : Nat) (s : State) : State :=
  let hit := s.epqs.flatMap (fun e => (e.2.pkts.filter (f e.2)).map (fun p => (e.1, p)))
  let s1 := hit.foldl (fun s x => countDiscard x.2.ingress (some x.1) code s) s
  { s1 with epqs := s1.epqs.map (fun e =>
    if e.2.pkts.any (f e.2) then (e.1, { e.2 with pkts := e.2.pkts.filter (fun p => !f e.2 p), tagged := false }) else e) }

/-- Payloads that have still to arrive for a link are discarded as they come, counted now. -/
def dropComing (p : Port) (code : Nat) (s : State) : State :=
  allPorts.foldl (fun s i => match (linkOf s i).rx with
    | some r => if r.out == p && r.disp != .drop then
        modLink i (fun l => { l with rx := some { r with disp := .drop } }) (countDiscard i r.epq code s) else s
    | none => s) s

/-- Everything that a link holds or has under way is discarded and counted (R28, R161): waiting and deferred headers, packets of no open
queue, the payload being received, what comes for it, and the rest of the payload being sent. -/
def dropLink (p : Port) (code : Nat) (s : State) : State :=
  let l := linkOf s p
  let s1 := (l.hdrWait ++ l.deferred).foldl (fun s h => countDiscard h.1 none code s) s
  let s2 := l.loose.foldl (fun s k => countDiscard k.ingress none code s) s1
  let s3 := match l.rx with
    | some r => if r.disp != .drop then countDiscard p r.epq code s2 else s2
    | none => s2
  let s4 := match l.tx with
    | some q => if cutting s p then s3 else countDiscard (ingressOf s p q) q code s3
    | none => s3
  dropComing p code (modLink p (fun l => { l with
    hdrWait := [], deferred := [], loose := [], rx := none, tx := none, itp := none, exiting := false }) s4)

/-- Packets stored for a device are discarded with PORT_NOT_READY; those toward the host stay (R160). -/
def dropStored (d : DS) (s : State) : State :=
  settle (dropLink (dsPort d) 2 (dropPkts (fun e p => e.port == d && towardDevice p) 2 s))

/-- Everything for or from a downstream port is discarded (R29). -/
def dropPort (d : DS) (s : State) : State :=
  settle (dropLink (dsPort d) 2 (dropPkts (fun e _ => e.port == d) 2 s))

/-- Everything for a host is discarded (R29). -/
def dropHost (u : US) (s : State) : State :=
  settle (dropLink (usPort u) 2 (dropPkts (fun _ p => p.dest == some u && !towardDevice p) 2 s))

/-- A packet is coming for a link, or waits at it, or is being received or sent on it. -/
def linkBusy (s : State) (p : Port) : Bool :=
  (linkOf s p).tx.isSome || !(linkOf s p).hdrWait.isEmpty || (linkOf s p).rx.isSome || !(linkOf s p).loose.isEmpty ||
    s.links.toList.any (fun l => match l.rx with | some r => r.out == p && r.disp != .drop | none => false)

/-- A packet for or from the port is stored or under way (R157). -/
def portBusy (s : State) (d : DS) : Bool :=
  linkBusy s (dsPort d) || s.epqs.any (fun e => e.2.port == d && !e.2.pkts.isEmpty)

/-- A packet for the host of a hub is stored or under way (R158). -/
def hostBusy (s : State) (u : US) : Bool :=
  linkBusy s (usPort u) || s.epqs.any (fun e => e.2.pkts.any (fun p => p.dest == some u && !towardDevice p))

/-! ### Header rewrite (R149, R150) -/

/-- A nibble of a route string (R131). -/
def nibble (r i : Nat) : Nat := r / 16 ^ i % 16

/-- The translation entry of a host-side address on a port. -/
def trByHost (s : State) (d : DS) (ss : Bool) (a : Nat) : Option TrEnt :=
  (s.place.tr.find? (fun e => e.2.port == d && e.2.haddr == a && e.2.ss == ss)).map (·.2)

/-- The translation entry of a device-side address on a port. -/
def trByDev (s : State) (d : DS) (ss : Bool) (a : Nat) : Option TrEnt :=
  (s.place.tr.find? (fun e => e.2.port == d && e.2.daddr == a && e.2.ss == ss)).map (·.2)

/-- The endpoint byte of an entry (R217). -/
def trEp (t : TrEnt) (ep : Nat) (dirIn : Bool) : Nat := t.ep.getD (2 * ep + b2n dirIn) 0

/-- A header carries a SeqNum that is rewritten: data packets and ACK (R149). -/
def hasSeq (h : SsHeader) : Bool := match h.kind with
  | .dp | .ack => true
  | _ => false

end Sys2Proof.Machine
end

