-- ==== Sys2Proof/Machine/PlaceOps.lean ====
section
/-! DEFINITION. The live tables: opening and closing endpoints (R142, R207, R218, R219, R478), translation entries, the delta
log, rebuilds and swaps (R213–R237), and re-placement when a Chervil is fenced (R233–R236). -/

set_option Elab.async false

namespace Sys2Proof.Machine

/-! ### Entry words (R215–R217) -/

/-- The endpoint index entry of a queue (R215). -/
def idxWord (q : Nat) (e : Epq) : Nat :=
  dsCode e.port + 2 ^ 8 * (e.daddr % 128) + 2 ^ 15 * (e.ep % 16) + 2 ^ 19 * b2n (e.dirIn && e.ep != 0) + 2 ^ 20 + 2 ^ 21 * q

/-- The placement entry of a queue (R216). -/
def plWord (s : State) (e : Epq) : Nat :=
  1 + 2 * (match e.chv with | some c => c.val | none => 0) + 2 ^ 4 * e.pool + 2 ^ 6 * b2n e.pinChv.isSome +
  2 ^ 7 * b2n e.pinPool.isSome + 2 ^ 8 * e.cls + 2 ^ 11 * b2n (isSealed s e.port) + 2 ^ 12 * b2n e.evidence +
  2 ^ 13 * (e.hubPort % 16) + 2 ^ 17 * e.ctx

/-- The placement entry of an EPQ number: its reset value where the EPQ is not open (R216). -/
def plEntry (s : State) (q : Nat) : Nat := match epqOf s q with
  | some e => if e.closed then 0x7F * 2 ^ 17 else plWord s e
  | none => 0x7F * 2 ^ 17

/-- Word w of a translation entry (R217). -/
def trWord (t : TrEnt) (w : Nat) : Nat :=
  if w = 0 then
    1 + 2 * (t.haddr % 128) + 2 ^ 8 * (t.daddr % 128) + 2 ^ 15 * dsCode t.port + 2 ^ 23 * (t.hubPort % 16) +
      2 ^ 27 * (t.depth % 8) + 2 ^ 30 * b2n t.ss + 2 ^ 31 * b2n t.hub
  else if w = 1 then t.park
  else if 2 ≤ w ∧ w ≤ 9 then
    let i := (w - 2) * 4
    t.ep.getD i 0 + 2 ^ 8 * t.ep.getD (i + 1) 0 + 2 ^ 16 * t.ep.getD (i + 2) 0 + 2 ^ 24 * t.ep.getD (i + 3) 0
  else 0

/-! ### The delta log (R218, R222, R223) -/

/-- The block PLACE changed. -/
def modPlace (f : Place → Place) (s : State) : State := { s with place := f s.place }

/-- The active banks copied into the shadow banks (R220, step 2). -/
def copyShadow (s : State) : State :=
  modPlace (fun p => { p with
    shIdx := (s.epqs.filter (fun e => !e.2.closed)).map (fun e => (e.1, idxWord e.1 e.2))
    shPl := (s.epqs.filter (fun e => !e.2.closed)).map (fun e => (e.1, plWord s e.2))
    shTr := p.tr }) s

/-- A shadow placement entry's Chervil and pool mode replaced. -/
def setPl (w chv pool : Nat) : Nat := w - bits w 3 1 * 2 + chv * 2 - bits w 5 4 * 16 + pool * 16

/-- A Chervil's queues in the shadow. -/
def shCount (p : Place) (c : Fin 8) : Nat := (p.shPl.filter (fun e => bits e.2 3 1 == c.val && bit e.2 0)).length

/-- The pins of the pending list put into the shadow (R231): a pin to a fenced Chervil waits, and so does one to a Chervil that holds 64
other queues (R13). -/
def applyPins (s : State) : State :=
  s.place.pins.foldl (fun s x =>
    let ready : Bool := match x.2.1 with
      | some (some c) => !chvFenced s c &&
        (decide (shCount s.place c < 64) || bits ((tabGet s.place.shPl x.1).getD 0) 3 1 == c.val)
      | _ => true
    match tabGet s.place.shPl x.1, ready with
    | some w, true =>
      let w1 := match x.2.1 with
        | some (some c) => setPl (if bit w 6 then w else w + 64) c.val (bits w 5 4)
        | some none => if bit w 6 then w - 64 else w
        | none => w
      let w2 := match x.2.2 with
        | some (some m) => setPl (if bit w1 7 then w1 else w1 + 128) (bits w1 3 1) m
        | some none => if bit w1 7 then w1 - 128 else w1
        | none => w1
      modPlace (fun p => { p with
        shPl := tabPut p.shPl x.1 w2
        rebuild := p.rebuild.map (fun r => { r with pins := r.pins ++ [x.1] }) }) s
    | _, _ => s) s

/-- The translation changes of the pending list put into the shadow (R218). -/
def applyTrs (s : State) : State :=
  modPlace (fun p => { p with
    shTr := p.trPend.foldl (fun t x => match x.2 with | some e => tabPut t x.1 e | none => tabDel t x.1) p.shTr
    rebuild := p.rebuild.map (fun r => { r with trs := p.trPend.map (·.1) }) }) s

/-- A change that takes effect at once, noted while a rebuild is open (R218, R222, R223): the 65th restarts it from step 2; from
step 5 on it is written to both banks. -/
def noteDelta (x : Delta) (s : State) : State :=
  match s.place.rebuild with
  | none => s
  | some r =>
    if r.step ≥ 5 then
      if x.tr then modPlace (fun p => { p with shTr := match tabGet p.tr x.idx with
        | some e => if x.closed then tabDel p.shTr x.idx else tabPut p.shTr x.idx e
        | none => tabDel p.shTr x.idx }) s
      else match epqOf s x.idx, x.closed with
        | some e, false => modPlace (fun p => { p with
            shIdx := tabPut p.shIdx x.idx (idxWord x.idx e), shPl := tabPut p.shPl x.idx (plWord s e) }) s
        | _, _ => modPlace (fun p => { p with shIdx := tabDel p.shIdx x.idx, shPl := tabDel p.shPl x.idx }) s
    else if r.log.length ≥ 64 ∧ r.minimal = false then
      if s.now ≥ r.t0 + 2000000 then
        modPlace (fun p => { p with rebuild := none, abandoned := p.abandoned + 1, missed := p.missed + 1 }) s
      else
        applyTrs (applyPins (copyShadow (modPlace (fun p => { p with
          rebuild := some { r with log := [], step := 3, pins := [], trs := [], fenced := [] }
          restarts := p.restarts + 1 }) s)))
    else modPlace (fun p => { p with rebuild := some { r with log := r.log ++ [x] } }) s

/-! ### Placement of one queue (R219, R235) -/

/-- The queues a Chervil holds. -/
def chvCount (s : State) (c : Fin 8) : Nat := (s.epqs.filter (fun e => e.2.chv == some c)).length

/-- Every Chervil. -/
def allChv : List (Fin 8) := [0, 1, 2, 3, 4, 5, 6, 7]

/-- The Chervil of least load among those that a test admits, ties to the lower number. -/
def leastChv (load : List Nat) (ok : Fin 8 → Bool) : Option (Fin 8) :=
  (allChv.filter ok).foldl (fun b c => match b with
    | none => some c
    | some x => if load.getD c.val 0 < load.getD x.val 0 then some c else some x) none

/-- Where a queue that opens is placed (R219). -/
def pickChv (s : State) : Option (Fin 8) :=
  leastChv s.place.load (fun c => !chvFenced s c && decide (chvCount s c < 64))

/-! ### Meters (R203) -/

/-- The largest charged length of a queue (R195, R203). -/
def maxCharged (s : State) (e : Epq) : Nat :=
  let p := dsPort e.port
  if e.ss then e.mps + ovhOf s p 0
  else match (dsOf s e.port).speed2 with
    | some .hs => e.mps + (if e.cls = 1 then ovhOf s p 3 else ovhOf s p 2)
    | some .ls => 8 * (e.mps + ovhOf s p 5)
    | _ => e.mps + (if e.cls = 1 then ovhOf s p 6 else ovhOf s p 5)

/-- The values a setting uses (R203): PIR is at least CIR, and a size at least one refill and the largest packet. -/
def adjustMeter (s : State) (e : Epq) (m : Meter) : Meter :=
  let pir := max m.pir m.cir
  let big := maxCharged s e
  { m with pir := pir, cbs := max m.cbs ((m.cir + 15) / 16 + big), pbs := max m.pbs ((pir + 15) / 16 + big) }

/-- The policer mode in use for a requested one (R206): 2 marks, or only counts, where drop is not allowed. -/
def policerMode (e : Epq) (m : Nat) : Nat := if m = 1 ∧ (e.ss = false ∨ e.cls = 3 ∨ e.evidence = true) then 2 else m

/-- A meter's setting in force (R204): levels are cut to the new sizes, a newly enabled meter starts full. -/
def enterMeter (old new : Meter) : Meter :=
  if old.mode = 0 then { new with com := new.cbs * 16, peak := new.pbs * 16 }
  else { new with com := min old.com (new.cbs * 16), peak := min old.peak (new.pbs * 16) }

/-! ### Opening and closing (R142, R207, R219, R478) -/

/-- The cells that a periodic endpoint reserves: twice its wBytesPerInterval (R142). A USB 2.0 endpoint gives none; the packet of one
interval stands for it. DEDUCED (log entry 92). -/
def reserveNeed (x : EpDesc) : Nat := match x.typ with
  | .iso | .interrupt => (2 * (if x.bytes = 0 then x.mps else x.bytes) + 127) / 128
  | _ => 0

/-- The periodic cells that no endpoint has reserved. -/
def periodicFree (s : State) : Nat :=
  4096 - ((deadCells s).filter (inCells (poolRange 1))).length - (s.epqs.map (·.2.reserved)).foldl (· + ·) 0

/-- Word j of scheduler default entry i (R477). -/
def defWord (s : State) (i j : Nat) : Nat := (almRead s (0x610 + 16 * i + j)).toNat

/-- The first scheduler default entry for an endpoint (R478). -/
def defEntry (s : State) (d : DS) (hubPort ep : Nat) (dirIn : Bool) : Option Nat :=
  (List.range 15).find? (fun i =>
    let w := defWord s i 0
    bits w 7 0 == 0xA5 && bits w 15 8 == dsCode d && bits w 19 16 == hubPort && bits w 23 20 == ep && bit w 24 == dirIn)

/-- A meter from five words of a default entry (R478). -/
def defMeter (s : State) (i j : Nat) : Meter :=
  { cir := defWord s i j, cbs := defWord s i (j + 1), pir := defWord s i (j + 2), pbs := defWord s i (j + 3)
    mode := defWord s i (j + 4) % 4 }

/-- The held defaults applied to a queue that opens (R207, R478); a sealed port's queues take none (R206). -/
def applyDefaults (s : State) (e : Epq) : Epq :=
  match (if isSealed s e.port then none else defEntry s e.port e.hubPort e.ep e.dirIn) with
  | none => e
  | some i =>
    let w := defWord s i 0
    let e1 := if bit w 25 then
        let b := (List.range 3).flatMap (fun j => le 4 (defWord s i (1 + j)))
        let cap (n d : Nat) : Nat := if n = 0 then d else n
        { e with weight := fld b 0 1, capTags := cap (fld b 2 2) 32, capPkb := cap (fld b 4 4) 131072
                 capSpill := cap (fld b 8 4) 16777216 }
      else e
    let e2 := if bit w 26 ∧ e.cls ≠ 1 then
        let m := adjustMeter s e1 (defMeter s i 4)
        { e1 with shaper := enterMeter {} { m with mode := min 1 m.mode } } else e1
    if bit w 27 then
      let m := adjustMeter s e2 (defMeter s i 9)
      { e2 with policer := enterMeter {} { m with mode := policerMode e2 m.mode } }
    else e2

/-- Whether an interface's queues are evidence class (R126, R257). -/
def isEvidence (s : State) (d : DS) (quirks : Nat) (rule : Option Nat) (iface : Nat) : Bool :=
  bit quirks 5 && !isSealed s d && (match rule with
    | some i => bits (ruleWord s i 2) 23 16 == 0xFF || bits (ruleWord s i 2) 23 16 == iface
    | none => false)

/-- ENDPOINT_OPEN (R142, R219): the lowest free EPQ, a Chervil, a pool mode, reserved cells and the held defaults. -/
def openEpq (d : DS) (hubPort daddr ctx : Nat) (ss : Bool) (evidence : Bool) (x : EpDesc) (s : State) : State :=
  match (List.range 512).find? (fun q => (tabGet s.epqs q).isNone) with
  | none => s
  | some q =>
    let need := reserveNeed x
    let got := min need (periodicFree s)
    let e : Epq := { port := d, hubPort := hubPort, daddr := daddr, ep := x.ep, dirIn := x.dirIn, ss := ss, typ := x.typ
                     mps := x.mps, burst := max 1 x.burst, bytes := x.bytes, interval := x.interval, iface := x.iface
                     alt := x.alt, cls := clsOf x.typ, chv := pickChv s
                     pool := if x.typ = .bulk ∧ isSealed s d = false then 1 else 0
                     evidence := evidence, ctx := ctx, reserved := got, short := need - got }
    noteDelta { tr := false, idx := q, closed := false } { s with epqs := tabPut s.epqs q (applyDefaults s e) }

/-- A queue that waits for a Chervil is placed as soon as one has a free place (R235). DESIGN CHOICE: the lowest EPQ first, and on a
Chervil just re-admitted too (log entry 94). -/
def placeUnplaced (s : State) : State :=
  s.epqs.foldl (fun s e =>
    if e.2.chv.isNone && !e.2.closed then
      (match pickChv s with
       | some c => noteDelta { tr := false, idx := e.1, closed := false } (modEpq e.1 (fun x => { x with chv := some c }) s)
       | none => s)
    else s) s

/-- ENDPOINT_CLOSE (R142, R208, R218): tags, buckets, settings and reservations go; what waits for the host is still sent, and the
EPQ number is free once its last packet has left. -/
def closeEpq (q : Nat) (s : State) : State :=
  match epqOf s q with
  | none => s
  | some e =>
    let s0 := finalCpl (.shaper q) stSuperseded [] (finalCpl (.policer q) stSuperseded [] (finalCpl (.pin q) stSuperseded [] s))
    let out := e.pkts.filter towardDevice
    let s1 := out.foldl (fun s p => countDiscard p.ingress (some q) 2 s) s0
    let s2 := modEpq q (fun x => { x with closed := true, shaper := {}, shaperNew := none, policer := {}, policerNew := none
                                          weight := 0, reserved := 0, short := 0, samples := []
                                          pinChv := none, pinPool := none
                                          pkts := x.pkts.filter (fun p => !towardDevice p) }) s1
    let s3 := modPlace (fun p => { p with pins := tabDel p.pins q }) s2
    placeUnplaced (settle (noteDelta { tr := false, idx := q, closed := true } s3))

/-- The queues of a device closed that a test selects. -/
def closeWhere (f : Epq → Bool) (s : State) : State :=
  (s.epqs.filter (fun e => !e.2.closed && f e.2)).foldl (fun s e => closeEpq e.1 s) s

/-! ### Translation entries (R168, R218, R259, R260) -/

/-- The parking address of a port (R168): the highest from 1 to 127 that no device on it holds. -/
def parkAddr (s : State) (d : DS) : Nat :=
  (((List.range 127).map (fun i => 127 - i)).find? (fun a =>
    !s.vig.ctx.any (fun c => c.2.port == d && c.2.daddr == some a))).getD 127

/-- A translation change put into the pending list (R218): the last one for a context stands. -/
def trChange (c : Nat) (e : Option TrEnt) (s : State) : State :=
  modPlace (fun p => { p with
    trPend := tabPut p.trPend c e, trAt := some (p.trAt.getD s.now)
    rebuild := p.rebuild.map (fun r => { r with trs := r.trs.filter (· ≠ c) }) }) s

/-- A translation entry cleared at once in both banks (R218, R237). -/
def trClear (c : Nat) (s : State) : State :=
  noteDelta { tr := true, idx := c, closed := true }
    (modPlace (fun p => { p with tr := tabDel p.tr c, trPend := tabDel p.trPend c }) s)

/-! ### Rebuild and swap (R220–R229) -/

/-- The queue of one Chervil whose load is below a gap and nearest to half of it (R226). -/
def balanceQueue (s : State) (p : Place) (hi lo : Fin 8) (gap : Nat) (done : List Nat) : Option Nat :=
  let lod (q : Nat) : Nat := (tabGet p.qload q).getD 0
  let dist (q : Nat) : Nat := max (2 * lod q) gap - min (2 * lod q) gap
  let fits (q : Nat) : Bool := match epqOf s q with
    | some e => decide (e.tagHw + p.tagHw.getD lo.val 0 ≤ 128) && e.cls != 0
    | none => false
  ((p.shPl.filter (fun e => bits e.2 3 1 == hi.val && !bit e.2 6 && decide (lod e.1 < gap) && !done.contains e.1 &&
      fits e.1)).map (·.1)).foldl (fun b q => match b with
        | none => some q
        | some x => if dist q < dist x then some q else some x) none

/-- place_balance of R226, on its move cap as fuel. -/
def placeBalance (s : State) : Nat → Place → List Nat → Place × List Nat
  | 0, p, done => (p, done)
  | n + 1, p, done =>
    let hi := (allChv.filter (fun c => !chvFenced s c)).foldl (fun b c => match b with
      | none => some c
      | some x => if p.load.getD c.val 0 > p.load.getD x.val 0 then some c else some x) (none : Option (Fin 8))
    let lo := leastChv p.load (fun c => !chvFenced s c && decide (shCount p c < 64))
    match hi, lo with
    | some hi, some lo =>
      let gap := p.load.getD hi.val 0 - p.load.getD lo.val 0
      if gap ≤ 15 then (p, done)
      else match balanceQueue s p hi lo gap done with
        | none => (p, done)
        | some q =>
          let l := (tabGet p.qload q).getD 0
          let w := (tabGet p.shPl q).getD 0
          placeBalance s n { p with
            shPl := tabPut p.shPl q (setPl w lo.val (bits w 5 4))
            load := (p.load.modify hi.val (· - l)).modify lo.val (· + l) } (done ++ [q])
    | _, _ => (p, done)

/-- The pool mode that the agent sets for a bulk queue (R229). DESIGN CHOICE: a queue whose PKB_ONLY pin was cleared stays PKB_ONLY (log
entry 94). -/
def agentPool (pool wait cells : Nat) : Nat :=
  if pool = 1 ∧ wait > 500 ∧ cells > 64 then 2
  else if pool = 2 ∧ wait < 250 ∧ cells < 32 then 1
  else pool

/-- The agent's pool modes written to the shadow (R229), not where pinned. -/
def agentPools (s : State) (p : Place) : Place :=
  { p with shPl := p.shPl.map (fun e =>
      let w := e.2
      match tabGet p.qwait e.1, epqOf s e.1 with
      | some x, some q =>
        if q.cls = 4 ∧ isSealed s q.port = false ∧ bit w 7 = false then
          (e.1, setPl w (bits w 3 1) (agentPool (bits w 5 4) x.1 x.2))
        else e
      | _, _ => e) }

/-- Steps 1–4 of a rebuild (R220): the banks copied, the pending list applied, the agent's moves written to the shadow. -/
def beginRebuild (t0 : Nat) (nowTick : Bool) (s : State) : State :=
  let s1 := applyTrs (applyPins (copyShadow (modPlace (fun p => { p with
    rebuild := some { t0 := t0, step := 3, minimal := false, now_ := nowTick, log := [] } }) s)))
  if s1.place.frozen then s1
  else
    let x := placeBalance s1 (if s1.place.readmitted then 16 else 8) s1.place []
    modPlace (fun _ => agentPools s1 { x.1 with
      load := s1.place.load, readmitted := false
      rebuild := x.1.rebuild.map (fun r => { r with moved := x.2.length }) }) s1

/-- Step 5 (R222): the log applied to the shadow in order; a closed EPQ stays closed, and an entry that names a Chervil fenced
since step 2 is the active bank's. -/
def mergeLog (s : State) : State :=
  match s.place.rebuild with
  | none => s
  | some r =>
    let s1 := modPlace (fun p => { p with rebuild := some { r with step := 5, log := [] } }) s
    let s2 := r.log.foldl (fun s x => noteDelta x s) s1
    modPlace (fun p => { p with shPl := p.shPl.filterMap (fun e =>
      match epqOf s2 e.1 with
      | none => none
      | some q =>
        if q.closed then none
        else if allChv.any (fun c => c.val == bits e.2 3 1 && (chvFenced s2 c || r.fenced.contains c)) then
          some (e.1, plWord s2 q)
        else some e) }) s2

/-- A placement taken from the shadow at the swap (R227), on the Chervil that the Bool allows it. -/
def takeShadow (w : Nat) (room : Bool) (e : Epq) : Epq :=
  let c : Fin 8 := ⟨bits w 3 1, by unfold bits; exact Nat.mod_lt _ (by decide)⟩
  { e with chv := if e.chv.isNone || !room then e.chv else some c, pool := bits w 5 4
           pinChv := if bit w 6 then some c else none, pinPool := if bit w 7 then some (bits w 5 4) else none }

/-- The shadow's placements taken one queue after another, none past the 64 queues of its Chervil (R13). DESIGN CHOICE: a queue whose Chervil
is full at its turn stays where it is (log entry 94). -/
def takePlaces (s : State) : State :=
  s.epqs.foldl (fun s e => match tabGet s.place.shPl e.1 with
    | some w =>
      if e.2.closed then s
      else
        let c : Fin 8 := ⟨bits w 3 1, by unfold bits; exact Nat.mod_lt _ (by decide)⟩
        modEpq e.1 (takeShadow w (e.2.chv == some c || decide (chvCount s c < 64))) s
    | none => s) s

/-- The Equinox swap (R221, R227) and the completions of step 7 (R220, R231, R232). DESIGN CHOICE: the count of swaps takes in the minimal
ones (log entry 94). -/
def equinoxSwap (s : State) : State :=
  match s.place.rebuild with
  | none => s
  | some r =>
    let s1 := takePlaces s
    let s2 := modPlace (fun p => { p with
      tr := p.shTr, rebuild := none, missed := 0, lastSwap := s.now
      swaps := p.swaps + 1, minimal := p.minimal + b2n r.minimal, moves := p.moves + r.moved
      pins := p.pins.filter (fun x => !r.pins.contains x.1)
      trPend := p.trPend.filter (fun x => !r.trs.contains x.1)
      trAt := if (p.trPend.filter (fun x => !r.trs.contains x.1)).isEmpty then none else some s.now }) s1
    let s3 := r.pins.foldl (fun s q => finalCpl (.pin q) stOk (le 4 (plEntry s q)) s) s2
    let s4 := if r.now_ then finalCpl .rebuild stOk (le 8 s3.place.lastSwap) s3 else s3
    copyShadow (settle s4)

/-- A rebuild in progress abandoned (R224, R237). -/
def abandonRebuild (s : State) : State :=
  if s.place.rebuild.isSome then
    modPlace (fun p => { p with rebuild := none, abandoned := p.abandoned + 1, missed := p.missed + 1 }) s
  else s

/-! ### Re-placement (R233–R236) -/

/-- The queues of a fenced Chervil that find no place (R235): bulk first, highest EPQ first. -/
def leftOut (qs : List (Nat × Epq)) (room : Nat) : List Nat :=
  let bulk := ((qs.filter (fun e => e.2.cls == 4)).map (·.1)).reverse
  let rest := ((qs.filter (fun e => e.2.cls != 4)).map (·.1)).reverse
  (bulk ++ rest).take (qs.length - room)

/-- The tags of a fenced Chervil reclaimed (R233, R234): what they stood for keeps its cells, and takes a tag of its queue's new Chervil as
that Chervil's 128 allow (R13). -/
def reclaimTags (c : Fin 8) (s : State) : State :=
  { s with
    epqs := s.epqs.map (fun e => (e.1, { e.2 with pkts := e.2.pkts.map (fun p => if p.tag == some c then { p with tag := none } else p) }))
    u2d := s.u2d.map (fun x => { x with tt := { x.tt with
      bufs := x.tt.bufs.map (fun b => if b.tag == some c then { b with tag := none } else b)
      per := x.tt.per.map (fun b => if b.tag == some c then { b with tag := none } else b) } }) }

/-- The queues of a fenced Chervil placed again at once in the active bank, its tags reclaimed (R233, R234). -/
def rePlace (c : Fin 8) (s : State) : State :=
  let qs := s.epqs.filter (fun e => e.2.chv == some c)
  let room := (allChv.map (fun x => if x = c ∨ chvFenced s x then 0 else 64 - chvCount s x)).foldl (· + ·) 0
  let out := leftOut qs room
  let s0 := modPlace (fun p => { p with rebuild := p.rebuild.map (fun r => { r with fenced := r.fenced ++ [c] }) }) s
  let x := qs.foldl (fun (a : State × List Nat) e =>
    let target := if out.contains e.1 then none
      else leastChv a.2 (fun k => k != c && !chvFenced a.1 k && decide (chvCount a.1 k < 64))
    let s1 := modEpq e.1 (fun y => { y with chv := target }) a.1
    (noteDelta { tr := false, idx := e.1, closed := false } s1,
      match target with
      | some k => a.2.modify k.val (· + (tabGet a.1.place.qload e.1).getD 0)
      | none => a.2)) (s0, s0.place.load.set c.val 0)
  settle (modPlace (fun p => { p with load := x.2 }) (reclaimTags c x.1))

end Sys2Proof.Machine
end

