-- ==== Sys2Proof/Machine/VigilOps.lean ====
section
/-! DEFINITION. Vigil's operations: arming, contexts and shadows (R239–R244), capture rings (R252–R257), release (R264, R265),
episodes (R245–R250), translation values (R259, R260), and the transaction translators' clearing (R184, R185). -/

set_option Elab.async false

namespace Sys2Proof.Machine

/-! ### Transaction translators -/

/-- A downstream companion path changed. -/
def modU2d (d : DS) (f : Usb2 → Usb2) (s : State) : State := { s with u2d := s.u2d.set d (f s.u2d[d]) }

/-- An upstream companion path changed. -/
def modU2u (u : US) (f : Us2 → Us2) (s : State) : State := { s with u2u := s.u2u.set u.idx (f s.u2u[u.idx]) }

/-- A port's translator changed. -/
def modTt (d : DS) (f : Tt → Tt) (s : State) : State := modU2d d (fun x => { x with tt := f x.tt }) s

/-- Every buffer freed and the pipeline cleared, a transaction on the bus cut (R185). -/
def ttClear (d : DS) (s : State) : State := settle (modU2d d (fun x => { x with tt := { x.tt with bufs := [], per := [] }, latch := none }) s)

/-- RESET_TT (R184): every buffer freed, the pipeline cleared; a transaction on the bus ends with its result discarded. -/
def ttReset (d : DS) (s : State) : State :=
  settle (modTt d (fun t => { t with
    bufs := (t.bufs.filter (·.st == .executing)).map (fun b => { b with freeAtEnd := true }), per := [], stopped := false }) s)

/-- Step 2 of a move (R185): PENDING buffers and the pipeline cleared; a transaction on the bus finishes. -/
def ttMoved (d : DS) (s : State) : State :=
  settle (modTt d (fun t => { t with bufs := t.bufs.filter (·.st != .pending), per := [] }) s)

/-! ### Arming and contexts (R239, R240) -/

/-- A port's Vigil policy. -/
def polOf (s : State) (d : DS) : PortPol := s.vig.pol[d]

/-- Vigil's state changed. -/
def modVig (f : Vig → Vig) (s : State) : State := { s with vig := f s.vig }

/-- Vigil's state of a hub. -/
def vigHub (s : State) (u : US) : VigHub := s.vig.hub[u.idx]

/-- Vigil's state of a hub changed. -/
def modVigHub (u : US) (f : VigHub → VigHub) (s : State) : State :=
  modVig (fun v => { v with hub := v.hub.set u.idx (f v.hub[u.idx]) }) s

/-- A port is armed (R239): HOLD or ABSORB mode, armed, not sealed. -/
def isArmed (s : State) (d : DS) : Bool := s.vig.armed[d] && (polOf s d).mode != 0 && !isSealed s d

/-- A context by its number. -/
def ctxOf (s : State) (c : Nat) : Option Ctx := tabGet s.vig.ctx c

/-- A context changed. -/
def modCtx (c : Nat) (f : Ctx → Ctx) (s : State) : State :=
  modVig (fun v => { v with ctx := v.ctx.map (fun e => if e.1 = c then (e.1, f e.2) else e) }) s

/-- The contexts of a port, by number. -/
def portCtxs (s : State) (d : DS) : List (Nat × Ctx) := s.vig.ctx.filter (fun c => c.2.port == d)

/-- The context of a device of a port, by its external hub port and its bus. -/
def ctxAt (s : State) (d : DS) (hubPort : Nat) (ss : Bool) : Option (Nat × Ctx) :=
  s.vig.ctx.find? (fun c => c.2.port == d && c.2.hubPort == hubPort && decide (c.2.speed ≥ 3) == ss)

/-- The context of a device of a port, by its device-side address. -/
def ctxByAddr (s : State) (d : DS) (a : Nat) : Option (Nat × Ctx) :=
  s.vig.ctx.find? (fun c => c.2.port == d && c.2.daddr == some a)

/-- The quirks in force for a device: the port's for one attached directly, its context's behind an external hub (R128). -/
def devQuirks (s : State) (c : Ctx) : Nat := if c.hubPort = 0 then (dsOf s c.port).quirks else c.quirks

/-- The mode that a device is treated with: OFF under NO_PROXY, HOLD under NO_ABSORB (R239). -/
def devMode (s : State) (c : Ctx) : Nat :=
  if bit (devQuirks s c) 4 then 0
  else if bit (devQuirks s c) 3 then min 1 (polOf s c.port).mode
  else (polOf s c.port).mode

/-- Rewriting acts on a port (R6, R166): ABSORB mode, not sealed, a translated device present. -/
def rewriteOn (s : State) (d : DS) : Bool :=
  (polOf s d).mode == 2 && !isSealed s d && s.place.tr.any (fun e => e.2.port == d)

/-- The device of an entry takes no part in rewriting under NO_ABSORB (R6). -/
def trActs (s : State) (d : DS) (t : TrEnt) : Bool :=
  !bit (if t.hubPort = 0 then (dsOf s d).quirks else match ctxAt s d t.hubPort t.ss with | some c => c.2.quirks | none => 0) 3

/-- A SuperSpeed header to a device rewritten from its host's view (R6, R149, R150). -/
def rewriteDown (s : State) (u : US) (d : DS) (h : SsHeader) : SsHeader :=
  if !rewriteOn s d then h
  else match trByHost s d true h.addr with
    | none => h
    | some t =>
      if !trActs s d t then h
      else
        let off := trEp t h.ep h.dirIn % 32
        { h with addr := t.daddr, seq := if hasSeq h then (h.seq + off) % 32 else h.seq
                 route := if t.hubPort = 0 then h.route
                   else nibble h.route ((hubOf s u).depth + 1) * 16 ^ t.depth }

/-- A SuperSpeed header from a device rewritten for its host (R6, R149). -/
def rewriteUp (s : State) (d : DS) (h : SsHeader) : SsHeader :=
  if !rewriteOn s d then h
  else match trByDev s d true h.addr with
    | none => h
    | some t =>
      if !trActs s d t then h
      else { h with addr := t.haddr, seq := if hasSeq h then (h.seq + 32 - trEp t h.ep h.dirIn % 32) % 32 else h.seq }

/-- The code of a device's speed on one of a port's buses: 0 LS, 1 FS, 2 HS, 3 Gen 1, 4 Gen 2. -/
def portSpeed (s : State) (d : DS) (ss : Bool) : Nat :=
  if ss then (if (dsOf s d).gen = 2 then 4 else 3)
  else match (dsOf s d).speed2 with
    | some .hs => 2
    | some .fs => 1
    | _ => 0

/-- A free context given to a device of an armed port (R240): the lowest number free, at most 8 on a port. -/
def giveCtx (d : DS) (hubPort speed : Nat) (s : State) : State :=
  if !isArmed s d || (ctxAt s d hubPort (decide (speed ≥ 3))).isSome || decide ((portCtxs s d).length ≥ 8) then s
  else match (List.range 96).find? (fun c => (ctxOf s c).isNone && !s.vig.ctxBad.contains c) with
    | none => s
    | some c =>
      let hub := s.vig.ctx.find? (fun c => c.2.port == d && c.2.hubPort == 0 && decide (c.2.speed ≥ 3) == decide (speed ≥ 3))
      let x : Ctx := { port := d, hubPort := hubPort, speed := speed
                       depth := match hub with | some h => h.2.depth | none => 0 }
      modVig (fun v => { v with ctx := tabPut v.ctx c x }) s

/-- A device has arrived on one of a port's buses (R240). -/
def deviceArrived (d : DS) (ss : Bool) (s : State) : State := giveCtx d 0 (portSpeed s d ss) s

/-! ### Capture rings (R252–R255) -/

/-- LENGTH of a record (R253). -/
def capLen (pay : Nat) : Nat := 32 + 16 * ((pay + 4 + 15) / 16)

/-- Bytes of a ring not yet consumed. -/
def capUnread (r : CapRing) : Nat :=
  ((r.recs.filter (fun x => x.typ != 0 && decide (x.seq ≥ r.readSeq))).map (·.size)).foldl (· + ·) 0

/-- Records that a write of n bytes at an offset leaves. -/
def capKeep (off n : Nat) (l : List CapRec) : List CapRec := l.filter (fun x => !(decide (x.off < off + n ∧ off < x.off + x.size)))

/-- A record put at the ring's write place (R255): a PAD record before the ring's end where it would straddle it, the oldest
records overwritten, GAP where unread ones were. The Bool says that unread records were overwritten. -/
def capPut (r : CapRing) (x : CapRec) : CapRing × Bool :=
  let n := capLen x.payload.length
  let rest := r.size - r.wr
  let r1 := if n ≤ rest then r
    else
      let kept := capKeep r.wr rest r.recs
      let pad := if rest = 0 then [] else
        [{ x with off := r.wr, size := rest, seq := 0, typ := 0, flags := 0, payload := [], damaged := false }]
      { r with recs := kept ++ pad, wr := 0 }
  let kept := capKeep r1.wr n r1.recs
  let old := r.recs.filter (fun y => y.typ != 0 && decide (y.seq ≥ r.readSeq))
  let lost := decide ((kept.filter (fun y => y.typ != 0 && decide (y.seq ≥ r.readSeq))).length < old.length)
  let rec' := { x with off := r1.wr, size := n, seq := r.nextSeq, flags := x.flags + 8 * b2n (lost || r.gap) }
  let first := ((kept.filter (fun y => y.typ != 0)).map (·.seq)).foldl min r.nextSeq
  ({ r1 with recs := kept ++ [rec'], wr := r1.wr + n, nextSeq := r.nextSeq + 1, gap := false
             readSeq := if lost then max r.readSeq first else r.readSeq }, lost)

/-- A port's capture ring changed. -/
def modRing (d : DS) (f : CapRing → CapRing) (s : State) : State :=
  modVig (fun v => { v with rings := v.rings.set d (f v.rings[d]) }) s

/-- A CAPTURE event (R470). -/
def captureEvent (d : DS) (kind : Nat) (s : State) : State :=
  eventOn (portRings s d) 0xFF0C (le 1 (dsCode d) ++ le 1 kind ++ [0, 0] ++ le 8 s.vig.rings[d].nextSeq) s

/-- CAPTURE_RECORD_WRITE (R252–R255): a record written to the port's ring, where it has one. -/
def capture (d : DS) (typ flags hubPort daddr epdir time : Nat) (payload : List Byte) (s : State) : State :=
  let r := s.vig.rings[d]
  if r.alloc ≠ 0 ∨ isSealed s d = true then s
  else
    let x : CapRec := { off := 0, size := 0, seq := 0, typ := typ, flags := flags + 2 ^ 8 * laneQuality s, time := time
                        hubPort := hubPort, daddr := daddr, epdir := epdir, epoch := s.clk.epoch, payload := payload }
    let y := capPut r x
    let full := decide (capUnread y.1 * 4 ≥ y.1.size * 3)
    let s1 := modRing d (fun _ => { y.1 with warned := full }) s
    let s2 := if full && !r.warned then captureEvent d 0 s1 else s1
    if y.2 then captureEvent d 1 s2 else s2

/-- A DATA record of a device's IN endpoint (R253, R254, R257). -/
def captureData (c : Ctx) (ep flags : Nat) (time : Nat) (payload : List Byte) (s : State) : State :=
  let e := c.eps.find? (fun e => e.d.ep == ep && e.d.dirIn)
  let ev := match e with | some e => e.evidence | none => false
  let short := match e with | some e => decide (payload.length < e.d.mps) | none => false
  capture c.port 1 (flags + b2n ev + 128 * b2n short) c.hubPort (c.daddr.getD 0) (128 + ep) time payload s

/-! ### Release (R264, R265) -/

/-- A VIGIL event (R470). -/
def vigilEvent (ks : List (Fin 8)) (unit kind code ctx : Nat) (s : State) : State :=
  eventOn ks 0xFF08 (le 1 unit ++ le 1 kind ++ le 1 code ++ le 1 ctx ++ le 8 s.now) s

/-- Failover's part of a hub changed. -/
def modFo (u : US) (f : FoHub → FoHub) (s : State) : State :=
  { s with fo := { s.fo with hub := s.fo.hub.set u.idx (f s.fo.hub[u.idx]) } }

/-- The code of a hub's state (R457). -/
def hubStateCode (h : HubState) : Nat := match h with
  | .detached => 0
  | .attached => 1
  | .suspended => 2
  | .vigil => 3
  | .failedOver => 4

/-- A virtual hub's state changed, with its event and the mode that follows (R247, R470). -/
def hubTo (u : US) (h : HubState) (s : State) : State :=
  if (hubOf s u).state == h then s
  else
    let up := h == .attached || h == .suspended
    let s1 := modFo u (fun f => { f with upFrom := if up then some (f.upFrom.getD s.now) else none }) s
    setHubState u h (vigilEvent (allRings s.mbx) (usCode u) 0 (hubStateCode h) 0x7F s1)

/-- DEVICE_RELEASE of a device that has a context (R264, R265). -/
def releaseCtx (c reason : Nat) (s : State) : State :=
  match ctxOf s c with
  | none => s
  | some x =>
    let inEp := x.st == .held || x.st == .absorbing
    let a := x.daddr.getD 0
    let s1 := capture x.port 5 0 x.hubPort a 0 s.now (le 1 reason) s
    let s2 := if inEp then capture x.port 7 0 x.hubPort a 0 s1.now [] s1 else s1
    let s3 := vigilEvent (portRings s2 x.port) (dsCode x.port) 1 reason c s2
    let s4 := modVig (fun v => { v with
      ctx := tabDel v.ctx c, lastRel := tabPut v.lastRel c reason, portRel := tabPut v.portRel x.port.val reason }) s3
    let s5 := { s4 with epqs := s4.epqs.map (fun e => if e.2.ctx = c then (e.1, { e.2 with ctx := 0x7F }) else e) }
    let s6 := trClear c s5
    modU2d x.port (fun y => { y with kept := y.kept && (portCtxs s6 x.port).any (fun k => k.2.st == .held || k.2.st == .ready) }) s6

/-- A device released that has no context (R265). -/
def releaseBare (d : DS) (reason : Nat) (s : State) : State :=
  let s1 := capture d 5 0 0 0 0 s.now (le 1 reason) s
  vigilEvent (portRings s1 d) (dsCode d) 1 reason 0x7F (modVig (fun v => { v with portRel := tabPut v.portRel d.val reason }) s1)

/-- Every context of a port released. -/
def releasePort (d : DS) (reason : Nat) (s : State) : State :=
  (portCtxs s d).foldl (fun s c => releaseCtx c.1 reason s) s

/-- A device is present on a port. -/
def devicePresent (s : State) (d : DS) : Bool := (dsOf s d).shown2 || (dsOf s d).shown3

/-- The reason with which a loss releases a device that is not held (R265). -/
def lossReason (s : State) (d : DS) (c : Option Ctx) : Nat :=
  if isSealed s d then 3
  else if !isArmed s d then 1
  else match c with
    | none => if bit (dsOf s d).quirks 4 then 2 else 5
    | some x => if bit (devQuirks s x) 4 then 2 else if x.st == .building then 4 else 5

/-! ### Translation values (R168, R259, R260) -/

/-- The endpoint bytes of a device's entry (R217, R260): INVERT on USB 2.0, OFFSET on SuperSpeed, for open bulk and interrupt
endpoints (every endpoint on SuperSpeed). -/
def trBytes (c : Ctx) : List Nat :=
  (List.range 32).map (fun i =>
    match c.eps.find? (fun e => e.opn && e.d.ep == i / 2 && (e.d.dirIn == (i % 2 == 1))) with
    | some e =>
      if c.speed ≥ 3 then (e.dt + 32 - e.ht % 32) % 32
      else if e.d.typ == .bulk || e.d.typ == .interrupt then 32 * ((e.dt + e.ht) % 2) else 0
    | none => 0)

/-- The entry that a context calls for (R259, R260), none where it would change nothing. -/
def trWanted (s : State) (c : Ctx) : Option TrEnt :=
  match c.daddr with
  | none => none
  | some a =>
    let b := trBytes c
    if a = c.haddr ∧ b.all (· == 0) = true then none
    else some { haddr := c.haddr, daddr := a, port := c.port, hubPort := c.hubPort, depth := c.depth, ss := decide (c.speed ≥ 3)
                hub := c.isHub, park := parkAddr s c.port, ep := b }

/-- A translated context's entry recomputed, to take effect at a swap (R260). -/
def retranslate (c : Nat) (s : State) : State :=
  match ctxOf s c with
  | none => s
  | some x =>
    if !x.translated then s
    else
      let w := trWanted s x
      let cur := tabGet s.place.tr c
      let pend := tabGet s.place.trPend c
      if (match pend with | some p => p | none => cur) = w then s else trChange c w s

/-! ### Shadow tracking (R242) -/

/-- An endpoint record of a context changed. -/
def modEp (c ep : Nat) (dirIn : Bool) (f : EpRec → EpRec) (s : State) : State :=
  modCtx c (fun x => { x with eps := x.eps.map (fun e => if e.d.ep = ep ∧ e.d.dirIn = dirIn then f e else e) }) s

/-- A USB 2.0 toggle advanced on both sides (R242, R260). -/
def advToggle (e : EpRec) : EpRec := { e with dt := (e.dt + 1) % 2, ht := (e.ht + 1) % 2 }

/-- The next SeqNum of an endpoint known from an ACK, as the device holds it (R242). -/
def setSeq (n : Nat) (e : EpRec) : EpRec := { e with ht := (e.ht + 32 + n - e.dt % 32) % 32, dt := n % 32 }

/-! ### Presence (R245, R246) -/

/-- A valid packet from a host (R245, R246, R269): SOF keeping ends, a decision that waited in DELAY is cancelled, and the upstream
port forwards again (R34). -/
def hostSeen (u : US) (s : State) : State :=
  let s1 := modVigHub u (fun h => { h with lastPkt := some s.now, absentFrom := s.now }) s
  let s2 := modU2u u (fun x => { x with keep := none }) s1
  let s3 := modFo u (fun f => { f with absentAt := none }) s2
  availGo (usCode u) s3

/-- The hub holds something worth keeping (R247, R263): an armed owned port in HOLD or ABSORB with a context that is READY, HELD
or ABSORBING. -/
def hubHolds (s : State) (u : US) : Bool :=
  s.vig.ctx.any (fun c => ownerOf s c.2.port == some u && isArmed s c.2.port && devMode s c.2 != 0 && c.2.st != .building)

/-- The hub is suspended (R245, R247, R291): its companion pair suspended and its SuperSpeed link in U3 or untrained. -/
def hubSuspended (s : State) (u : US) : Bool :=
  (usOf s u).susp2 && ((usOf s u).link == .u3 || (usOf s u).link == .rxDetect || (usOf s u).link == .disabled)

/-- ATTACHED and SUSPENDED follow the suspended condition (R247). -/
def hubPresence (u : US) (s : State) : State :=
  match (hubOf s u).state, hubSuspended s u with
  | .attached, true => hubTo u .suspended s
  | .suspended, false => hubTo u .attached s
  | _, _ => s

/-- The device of a port is under Vigil: held, or kept alive by SOF keeping (R249, R251). -/
def underVigil (s : State) (d : DS) : Bool :=
  (portCtxs s d).any (fun c => c.2.st == .held) && portVigil s d || s.u2d[d].kept

/-! ### In-flight work captured (R250) -/

/-- Flags of a captured IN result: MIRROR, ORPHAN and POSSIBLE_DUP (R254). -/
def capFlags (dup orphan mirror : Bool) : Nat := 2 * b2n dup + 32 * b2n orphan + 16 * b2n mirror

/-- The TT's DONE results captured, and its OUT work freed (R250). -/
def captureTt (d : DS) (s : State) : State :=
  let t := s.u2d[d].tt
  let s1 := t.bufs.foldl (fun s b =>
    match b.st, b.result with
    | .done, some (.data _ l) =>
      (match (s.vig.ctx.find? (fun c => c.2.port == d && (c.2.haddr == b.addr && c.2.translated ||
            (!c.2.translated && c.2.daddr == some b.addr)))) with
       | some c => if b.dirIn && !b.ctl then captureData c.2 b.ep (capFlags b.returned false false) b.doneAt l s else s
       | none => s)
    | _, _ => s) s
  modTt d (fun t => { t with bufs := t.bufs.filter (fun b => b.st != .done) }) s1

/-- SuperSpeed IN data packets stored, or sent and not yet acknowledged, captured (R250). -/
def captureSs (d : DS) (s : State) : State :=
  (s.epqs.filter (fun e => e.2.port == d && e.2.dirIn && (e.2.cls == 2 || e.2.cls == 4))).foldl (fun s e =>
    match ctxByAddr s d e.2.daddr with
    | none => s
    | some c =>
      let s1 := e.2.copies.foldl (fun s p => captureData c.2 e.2.ep (capFlags true false false) p.at_ p.data s) s
      let s2 := (e.2.pkts.filter (fun p => !towardDevice p)).foldl
        (fun s p => captureData c.2 e.2.ep 0 p.at_ p.data s) s1
      settle (modEpq e.1 (fun x => { x with copies := [], pkts := x.pkts.filter towardDevice, tagged := false }) s2)) s

/-- Host-side values and marks of an interrupted absorption discarded (R248, R267, R274). -/
def toHeld (x : Ctx) : Ctx :=
  { x with st := .held, haddr := 0, resetAt := none, resetUsed := false, resetWarm := false, hubChg := false, addrGot := false
           used := []
           journal := x.journal.map (fun j => { j with armed := false })
           eps := x.eps.map (fun e => { e with errs := 0, stopped := e.halted, erdyWait := false, adopted := false
                                               replaying := false }) }

/-- A port's contexts made HELD, SOF kept (R251, R274). -/
def holdCtxs (d : DS) (s : State) : State :=
  let s1 := (portCtxs s d).foldl (fun s c =>
    if c.2.st == .ready || c.2.st == .absorbing || c.2.st == .held then modCtx c.1 toHeld s else s) s
  modU2d d (fun x => { x with kept := true }) s1

/-- A port's contexts made HELD (R250, R251), with its work in flight captured and its device awake but for selective suspend. -/
def holdPort (d : DS) (s : State) : State :=
  modDs d (fun x => { x with suspHub2 := false, suspHub3 := false
                             link := if x.link == .u3 && !x.suspHost3 then .u0 else x.link })
    (holdCtxs d (captureSs d (captureTt d s)))

/-- A port is in an episode: a device of it is HELD or ABSORBING (R246). -/
def inEpisode (s : State) (d : DS) : Bool := (portCtxs s d).any (fun c => c.2.st == .held || c.2.st == .absorbing)

/-- The episode start of a port (R246, R274): its own, or its hub's. -/
def portEpisode (s : State) (d : DS) : Nat :=
  (tabGet s.vig.epStart d.val).getD (match ownerOf s d with | some u => (vigHub s u).episode | none => 0)

/-- An episode of a port begins with its record, unless the port was in one, which goes on (R254, R267, R274). -/
def beginEpisode (was : Bool) (d : DS) (start : Nat) (s : State) : State :=
  if was then s
  else capture d 6 0 0 0 0 s.now (le 8 start) (modVig (fun v => { v with epStart := tabPut v.epStart d.val start }) s)

/-- The device of a context is behind an external hub that has no context, or whose own is among those that a loss releases (R265). -/
def hubGone (loose cs : List (Nat × Ctx)) (c : Nat × Ctx) : Bool :=
  c.2.hubPort != 0 &&
    (let same (k : Nat × Ctx) : Bool := k.2.hubPort == 0 && (decide (k.2.speed ≥ 3) == decide (c.2.speed ≥ 3))
     loose.any same || !cs.any same)

/-- One owned port of a hub whose host is lost: contexts that cannot be held are released, and with an external hub the devices behind it; the
others are held (R245, R246, R265). -/
def losePort (u : US) (holds : Bool) (episode : Nat) (d : DS) (s : State) : State :=
  if ownerOf s d != some u then s
  else
    let was := inEpisode s d
    let cs := portCtxs s d
    let loose := cs.filter (fun c => !(holds && isArmed s d && devMode s c.2 != 0 && c.2.st != .building))
    let tier := (cs.filter (fun c => !loose.contains c)).filter (hubGone loose cs)
    let s1 := loose.foldl (fun s c => releaseCtx c.1 (lossReason s d (some c.2)) s) s
    let s2 := tier.foldl (fun s c => releaseCtx c.1 6 s) s1
    let s3 := if cs.isEmpty && devicePresent s d then releaseBare d (lossReason s d none) s2 else s2
    if (portCtxs s3 d).isEmpty then s3
    else beginEpisode was d episode (holdPort d s3)

/-- VIGIL_ENTRY of a hub, or its end as DETACHED, when its host is judged absent (R247, R250, R251, R265). -/
def enterVigil (u : US) (episode : Nat) (s : State) : State :=
  let holds := hubHolds s u
  let goesOn := s.vig.ctx.any (fun c => ownerOf s c.2.port == some u && (c.2.st == .held || c.2.st == .absorbing))
  let s1 := modVigHub u (fun h => { h with episode := if goesOn then h.episode else episode, returned := false
                                           deadline := if goesOn then h.deadline else none }) s
  let s2 := allDs.foldl (fun s d => losePort u holds episode d s) s1
  if holds then
    hubTo u .vigil (modVigHub u (fun h => { h with deadline := some (h.deadline.getD (s2.now + s2.vig.hold * 1000000000)) }) s2)
  else hubTo u .detached s2

/-- A host restart (R263, R267): the hub's armed ports hold, every READY or ABSORBING context HELD. -/
def hostRestart (u : US) (s : State) : State :=
  match (hubOf s u).state with
  | .attached | .suspended => enterVigil u (((vigHub s u).lastPkt).getD s.now) s
  | _ =>
    allDs.foldl (fun s d =>
      if ownerOf s d == some u && isArmed s d && (portCtxs s d).any (fun c => c.2.st == .ready || c.2.st == .absorbing) then
        beginEpisode (inEpisode s d) d (((vigHub s u).lastPkt).getD s.now) (holdPort d s)
      else s) s

/-! ### Attach, detach and moves -/

/-- DETACH_REPORT (R289): connection and enable cleared with C_PORT_CONNECTION where they had been reported, packets, translator,
translation and contexts cleared, and the DETACH event. -/
def detachData (d : DS) (usb2 ss : Bool) (s : State) : State :=
  let x := dsOf s d
  let vis := presentable s d
  let s1 := if usb2 && x.shown2 && vis then chgPort d false .connection s else s
  let s2 := if ss && x.shown3 && vis then chgPort d true .connection s1 else s1
  let s3 := modDs d (fun x =>
    let a := if usb2 then { x with conn2 := false, shown2 := false, enable := false, speed2 := none, resetAt := none
                                   chirpAt := none, suspHost2 := false, suspHub2 := false, resumeAt := none
                                   wakePend2 := false, l1 := false, l1Exit := none, late2 := false } else x
    if ss then { a with link := if a.link == .disabled then .disabled else .rxDetect, gen := 0, shown3 := false
                        rxDet := false, suspHost3 := false, suspHub3 := false, wakePend3 := false, u3Exit := none
                        u3Entry := false, ssReset := none, ssFailed := false, late3 := false } else a) s2
  let gone := !(dsOf s3 d).shown2 && !(dsOf s3 d).shown3
  let s4 := if ss then dropStored d s3 else s3
  let s5 := if usb2 then ttClear d s4 else s4
  if !gone then s5
  else
    let s6 := (portCtxs s5 d).foldl (fun s c =>
      let a := capture d 4 0 c.2.hubPort (c.2.daddr.getD 0) 0 s.now [] s
      releaseCtx c.1 10 a) s5
    let s7 := closeWhere (fun e => e.port == d) s6
    let s8 := modVig (fun v => { v with seen := v.seen.filter (fun e => e.1 / 256 != d.val) })
      (modDs d (fun x => { x with rule := none, quirks := 0, probing := false, probed := false, wakeOpen := none }) s7)
    let s9 := if x.shown2 || x.shown3 then portEvent (dsPort d) 1 [] [] s8 else s8
    availGo (dsCode d) s9

/-- A quirk that keeps a device from a move with KEEP: NO_ABSORB or RESET_ON_MOVE (R117, R126). -/
def noKeep (q : Nat) : Bool := bit q 3 || bit q 6

/-- KEEP can be carried out as KEEP (R117), for the port's own device and those behind an external hub (R128). -/
def keepPossible (s : State) (d : DS) (o : Option US) : Bool :=
  isArmed s d && (polOf s d).mode == 2 && !(portCtxs s d).isEmpty && !noKeep (dsOf s d).quirks &&
    !(portCtxs s d).any (fun c => noKeep (devQuirks s c.2)) && !isSealed s d &&
    !((dsOf s d).shown3 && (match o with | some u => usb2Only s u | none => false))

/-- Step 2 of a move (R185, R274): PENDING buffers and the pipeline of the translator cleared; with KEEP the contexts are HELD from here, and the
port's episode begins where it is in none. -/
def moveHeld (d : DS) (keep : Bool) (s : State) : State :=
  if keep then beginEpisode (inEpisode s d) d s.now (holdCtxs d (ttMoved d s)) else ttMoved d s

/-- A move with KEEP at the end of its step 3 (R274): work in flight captured, and no SOF kept for a port that has a new owner. -/
def keepMoved (d : DS) (m : Move) (s : State) : State :=
  let s1 := captureSs d (captureTt d s)
  let s2 := match m.dest with
    | some _ => modU2d d (fun x => { x with kept := false }) s1
    | none => s1
  { s2 with epqs := s2.epqs.map (fun e => if e.2.port == d then (e.1, { e.2 with relink := true }) else e) }

/-- A move with RELEASE (R118, R265): contexts released, what is still stored for the port or its old host discarded. -/
def releaseMoved (d : DS) (_m : Move) (s : State) : State :=
  let s1 := dropPkts (fun e _ => e.port == d) 1 (releasePort d 12 s)
  ttClear d { s1 with epqs := s1.epqs.map (fun e =>
    if e.2.port == d then (e.1, { e.2 with copies := [], tagged := false, relink := true }) else e) }

/-- SuperSpeed termination withdrawn from the ports of a hub whose link runs at USB 2.0 only (R102): a device that had trained detaches there. -/
def withholdSs (u : US) (s : State) : State :=
  allDs.foldl (fun s d =>
    if ownerOf s d == some u && usb2Only s u && (dsOf s d).link != .rxDetect && (dsOf s d).link != .disabled then detachData d false true s
    else s) s

/-- The companion hub has come up (R102, R105, R110, R163). -/
def usb2Up (u : US) (s : State) : State := withholdSs u (presentSlots u false s)

/-- The SuperSpeed hub has come up (R105, R110): the LMF leaves the companion hub, where it had been presented there. -/
def ssUp (u : US) (s : State) : State :=
  let s1 := presentSlots u true s
  if (usOf s1 u).speed2 != 0 && (hubOf s1 u).active.head? == some .lmf then chgSlot u 0 false .connection s1 else s1

/-- A virtual hub connects to its host (R101, R108, R282): its slot list comes into force with fresh slots; it is connected only as UFP. -/
def hubConnect (u : US) (s : State) : State :=
  let s1 := modHub u (fun h => { h with connected := true, everConnected := true, active := h.conf, reconnectAt := none
                                        slots := Vector.replicate 15 {} }) s
  modUs u (fun x => { x with pullup := true, ssTerm := true }) s1

/-- A virtual hub disconnects from its host. -/
def hubDisconnect (u : US) (s : State) : State :=
  let s1 := modHub u (fun h => { h with connected := false, configured := false, addr2 := 0, addr3 := 0, depth := 0
                                        remoteWake2 := false, funcWake3 := false, u1Enable := false, u2Enable := false }) s
  modUs u (fun x => { x with pullup := false, ssTerm := false, speed2 := 0, susp2 := false, susp3 := false, u3Want := false, resume2 := none
                             reset2 := none, chirpK := false, l1 := false, link := .rxDetect, gen := 0, lanes := 1
                             upK := none, upLfps := false }) s1

/-! ### Upstream U3 (R159, R245, R291) -/

/-- Nothing is under way on a link, and its retry buffer is empty (R159). -/
def linkQuiet (s : State) (p : Port) : Bool :=
  (linkOf s p).tx.isNone && (linkOf s p).rx.isNone && (linkOf s p).retry.isEmpty && !cutting s p

/-- An upstream link enters U3, once nothing is under way on it: every owned SuperSpeed port in U0, U1 or U2 is put into U3 and
hub-suspended (R159, R291). -/
def enterU3 (u : US) (s : State) : State :=
  if !(usOf s u).u3Want || !linkQuiet s (usPort u) then s
  else
    let s1 := modUs u (fun x => { x with u3Want := false, susp3 := true, link := .u3 }) s
    hubPresence u (allDs.foldl (fun s d =>
      let x := dsOf s d
      if ownerOf s d == some u && (x.link == .u0 || x.link == .u1 || x.link == .u2) && !underVigil s d then
        modDs d (fun x => { x with link := .u3, suspHub3 := !x.suspHost3 }) s
      else s) s1)

/-- What waits for a link to fall quiet (R159). -/
def linkRested (p : Port) (s : State) : State := match portUs p with
  | some u => enterU3 u s
  | none => s

end Sys2Proof.Machine
end

