-- ==== Sys2Proof/Machine/Assign.lean ====
section
/-! DEFINITION. PORT_ASSIGN, ownership moves, slot lists and sealed ports (R104, R108, R115–R123, R450, R451). -/

set_option Elab.async false

namespace Sys2Proof.Machine

/-- The owner that a code names: 0x00 none, 0x10 US0, 0x11 US1 (R450). -/
def codeOwner (c : Nat) : Option (Option US) := match c with
  | 0x00 => some none
  | 0x10 => some (some .us0)
  | 0x11 => some (some .us1)
  | _ => none

/-- The code of an owner. -/
def ownerCode (o : Option US) : Nat := match o with
  | none => 0
  | some u => usCode u

/-- A slot entry: 0x01 is the LMF, in slot 1 only; else a DS port code (R451). -/
def slotEntry (i c : Nat) : Option Slot := if c = 1 then (if i = 0 then some .lmf else none) else (codeDs c).map .port

/-- The slot list that SLOT_COUNT and the SLOT bytes spell, or none where it breaks R104 or R451. -/
def parseSlots (count : Nat) (bs : List Byte) : Option (List Slot) :=
  let es := (List.range (min count 15)).map (fun i => slotEntry i (bs.getD i 0).toNat)
  let sl := es.filterMap id
  if count < 1 ∨ count > 15 ∨ sl.length ≠ count ∨ ¬ sl.Nodup ∨ (bs.drop count).any (· != 0) then none else some sl

/-- The authorisation record of a port: its first word's index, if it has one (R122). -/
def authRec (s : State) (d : DS) : Option Nat :=
  (List.range 16).find? (fun r => (almRead s (0x030 + 4 * r)).toNat % 256 = dsCode d)

/-- The quoted code matches the record's digest (R122). -/
def quoteOk (s : State) (d : DS) (r : Nat) (code : List Byte) : Bool :=
  let dg := sha256 (code ++ [BitVec.ofNat 8 (dsCode d)])
  leNat (dg.take 4) == (almRead s (0x031 + 4 * r)).toNat && leNat ((dg.drop 4).take 4) == (almRead s (0x032 + 4 * r)).toNat

/-- PERMIT allows a target (R122). -/
def permits (s : State) (r : Nat) (o : Option US) : Bool :=
  bit (almRead s (0x030 + 4 * r)).toNat (match o with | some .us0 => 8 | some .us1 => 9 | none => 10)

/-- A failed quote counted; the third in a row locks the port for 10 min (R123). -/
def quoteFailed (d : DS) (s : State) : State :=
  let n := s.own.fails[d] + 1
  { s with own := { s.own with
      fails := s.own.fails.set d (if n ≥ 3 then 0 else n)
      lockUntil := if n ≥ 3 then s.own.lockUntil.set d (s.now + 600000000000) else s.own.lockUntil } }

/-- The owner bytes of the Almanac, defaults where the record is blank (R109, R475, R477). -/
def almOwnerBytes (s : State) : List Byte :=
  match recRead s 0x110 4 with
  | some l => l.mapIdx (fun i b => if (codeOwner b.toNat).isSome then b
      else if i < 14 then 0x10 else 0x11)
  | none => List.replicate 14 0x10 ++ List.replicate 2 0x11

/-- The writes that persist a slot list (R477). -/
def slotWrites (s : State) (u : US) (count : Nat) (bs : List Byte) : List (Nat × Word) :=
  recWrites s (0x100 + 8 * u.idx.val) (le 1 count ++ slice bs 0 15)

/-- The writes that persist a port's owner (R477). -/
def ownerWrites (s : State) (d : DS) (o : Option US) : List (Nat × Word) :=
  recWrites s 0x110 ((almOwnerBytes s).set d.val (BitVec.ofNat 8 (ownerCode o)))

/-- A slot list set on a hub (R108): in force at its next connection, or at once while it is not connected. -/
def setSlots (u : US) (l : List Slot) (s : State) : State :=
  modHub u (fun h => { h with conf := l, active := if h.connected then h.active else l }) s

/-- A hub disconnected from its host for 10 ms (R108): to the devices of armed ports this is a host restart, so that the enumeration that
follows is absorbed. -/
def startReconnect (u : US) (s : State) : State :=
  let s1 := if hubHolds s u then hostRestart u s else s
  modHub u (fun h => { h with reconnectAt := some (s.now + 10000000) }) (dropHost u (hubDisconnect u s1))

/-- What a move's options do besides the move: the slot list, and RECONNECT on a connected hub (R108, R451). -/
def applySlots (u : Option US) (slots : Option (List Slot)) (reconnect : Bool) (s : State) : State :=
  match u with
  | none => s
  | some u =>
    let was := (hubOf s u).connected
    let s1 := match slots with | some l => setSlots u l s | none => s
    if reconnect && was then startReconnect u s1 else s1

/-- The spec of PORT_ASSIGN (R450). -/
def specPortAssign : CmdSpec :=
  { opcode := 0x0201, cls := .run, lenOk := len 36, resvOk := fun p => zeroAt 19 1 p && decide (fld p 2 1 < 32) }

/-- The result of PORT_ASSIGN (R450). -/
def assignResult (keep : Bool) (o : Option US) : List Byte := le 1 (b2n keep) ++ le 1 (ownerCode o) ++ [0, 0]

/-- PORT_ASSIGN with a slot list alone, on US0 or US1 (R451). -/
def assignSlots (r : Req) (u : US) (s : State) : State × Reply :=
  let p := r.payload
  let opts := fld p 2 1
  let bs := slice p 4 15
  match parseSlots (fld p 3 1) bs with
  | none => (s, errR stBadTarget)
  | some l =>
    if fld p 0 1 ≠ 0 ∨ fld p 1 1 ≠ 0 ∨ bit opts 2 = false ∨ bit opts 3 = true ∨ bit opts 4 = true ∨ fld p 20 16 ≠ 0 then
      (s, errR stBadTarget)
    else if reqHub r == some u.other then (s, errR stOwned)
    else
      let rec_ := bit opts 1 && (hubOf s u).connected
      if rec_ && accBusy (.reconnect u none) s then (s, errR stBusy)
      else
        let x := persist (if bit opts 0 then slotWrites s u (fld p 3 1) bs else []) r.badWord s
        if x.2 ≠ stOk then (x.1, errR x.2)
        else
          (applySlots (some u) (some l) (bit opts 1) x.1, if rec_ then accR (.reconnect u none) else okR (assignResult false none))

/-- The sealed-port checks of R123: none where they pass, else the state with the quote counted. -/
def sealCheck (r : Req) (d : DS) (o : Option US) (move : Bool) (s : State) : Option State :=
  match authRec s d with
  | none => some s
  | some k =>
    if r.ring.val ≠ 1 then some s
    else if s.now < s.own.lockUntil[d] then some s
    else if !quoteOk s d k (slice r.payload 20 16) then some (quoteFailed d s)
    else if move && !permits s k o then some s
    else none

/-- The MOVE_COUNT write of an authorised move (R122, R474). -/
def moveCountWrite (s : State) (d : DS) : List (Nat × Word) :=
  match authRec s d with
  | none => []
  | some k =>
    let w := (almRead s (0x030 + 4 * k)).toNat
    [(0x030 + 4 * k, BitVec.ofNat 32 (w % 65536 + 65536 * min 0xFFFF (w / 65536 + 1)))]

/-- PORT_ASSIGN on a downstream port (R115–R123, R451). -/
def assignPort (r : Req) (d : DS) (s : State) : State × Reply :=
  let p := r.payload
  let opts := fld p 2 1
  let bs := slice p 4 15
  let slotsOpt := bit opts 2
  let sealOpt := bit opts 3 || bit opts 4
  match codeOwner (fld p 0 1), parseSlots (fld p 3 1) bs with
  | none, _ => (s, errR stBadTarget)
  | some o, sl =>
    let cur := ownerOf s d
    let move := o != cur
    let list := match o with
      | none => some []
      | some u => if slotsOpt then sl else some (if (hubOf s u).connected then (hubOf s u).active else (hubOf s u).conf)
    let hasSlot := match o, list with
      | none, _ => true
      | some _, some l => l.contains (.port d)
      | some _, none => false
    let wasSealed := isSealed s d
    let sealedCmd := wasSealed || sealOpt
    if decide (fld p 1 1 > 1) || (slotsOpt && (sl.isNone || o.isNone)) || !hasSlot ||
       (sealOpt && (move || slotsOpt || (bit opts 3 && bit opts 4))) || (!sealedCmd && decide (fld p 20 16 ≠ 0)) then
      (s, errR stBadTarget)
    else
      match (if sealedCmd then sealCheck r d o move s else none) with
      | some s' => (s', errR stSealed)
      | none =>
        let s := if sealedCmd then { s with own := { s.own with fails := s.own.fails.set d 0 } } else s
        let elsewhere := match reqHub r with
          | some u => cur == some u.other || o == some u.other
          | none => false
        if elsewhere then (s, errR stOwned)
        else if portFenced s (dsPort d) then (s, errR stFenced)
        else if s.own.move[d].isSome then (s, errR stBusy)
        else
          let persistOpt := bit opts 0 || (wasSealed && move)
          let sealW := if bit opts 3 || bit opts 4 then
              let old := if almRead s 0x070 = blankWord then 0 else (almRead s 0x070).toNat
              let cleared := if bit old d.val then old - 2 ^ d.val else old
              [(0x070, BitVec.ofNat 32 (if bit opts 3 then cleared + 2 ^ d.val else cleared))]
            else []
          let ws := (if persistOpt then ownerWrites s d o else []) ++
            (match o with | some u => if slotsOpt && bit opts 0 then slotWrites s u (fld p 3 1) bs else [] | none => []) ++
            sealW ++ (if wasSealed && move then moveCountWrite s d else [])
          let x := persist ws r.badWord s
          if x.2 ≠ stOk then (x.1, errR x.2)
          else
            let rec_ := bit opts 1 && (match o with | some u => (hubOf s u).connected | none => false)
            let s0 := if bit opts 3 then releasePort d 3 x.1 else x.1
            let s1 := applySlots o (if slotsOpt then sl else none) (bit opts 1) s0
            let keep := fld p 1 1 = 1
            if !move then
              match o with
              | some u => if rec_ then (s1, accR (.reconnect u (some keep))) else (s1, okR (assignResult keep o))
              | none => (s1, okR (assignResult keep o))
            else
              let used := decide keep && !wasSealed && keepPossible s1 d o
              let m : Move := { dest := o, keep := used, phase := 1, startAt := s1.now, cause := 0, old := cur }
              ({ s1 with own := { s1.own with move := s1.own.move.set d (some m) } }, accR (.assign d))

/-- PORT_ASSIGN (R450, R451). -/
def cmdPortAssign (r : Req) (s : State) : State × Reply :=
  match targetDs r, targetUs r with
  | some d, _ => assignPort r d s
  | _, some u => assignSlots r u s
  | _, _ => (s, errR stBadTarget)

/-- PORT_ASSIGN. -/
def execPortAssign (r : Req) (s : State) : Res := .next (runCmd specPortAssign cmdPortAssign r s)

/-! ### The steps of a move (R118, R119) -/

/-- A move's record changed. -/
def setMove (d : DS) (m : Option Move) (s : State) : State := { s with own := { s.own with move := s.own.move.set d m } }

/-- MOVE_OLD_OWNER_DISCONNECT (R118, step 2): at the next microframe boundary the old owner's slot reports no connection and
admits no new transaction; the translator's PENDING buffers and its pipeline are cleared (R185). -/
def moveOldOwner (d : DS) (s : State) : State :=
  match s.own.move[d] with
  | none => s
  | some m =>
    if m.phase ≠ 1 then s
    else
      let s := advanceTo ((s.now + 124999) / 125000 * 125000) s
      let x := dsOf s d
      let s1 := if x.shown2 then chgPort d false .connection s else s
      let s2 := if x.shown3 then chgPort d true .connection s1 else s1
      setMove d (some { m with phase := 2, startAt := s.now }) (moveHeld d m.keep s2)

/-- MOVE_OLD_OWNER_DISCONNECT. -/
def execMoveOldOwnerDisconnect (d : DS) (s : State) : Res := .next (moveOldOwner d (fresh s))

/-- A port that a move has given to its new owner (R297): suspend marks and pending wakes cleared, and the port of an ATTACHED hub resumed. -/
def movedPort (d : DS) (s : State) : State :=
  let up : Bool := match ownerOf s d with | some u => (hubOf s u).state == .attached | none => false
  modDs d (fun x => { x with
    suspHost2 := false, suspHub2 := false, suspHost3 := false, suspHub3 := false, wakePend2 := false, wakePend3 := false, wakeOpen := none
    movedIn := true
    resumeAt := if up && (x.suspHost2 || x.suspHub2) then some s.now else x.resumeAt
    resumeKind := if up && (x.suspHost2 || x.suspHub2) then .device else x.resumeKind
    u3Exit := if up && x.link == .u3 then some .hub else x.u3Exit }) s

/-- Step 4 of a move (R118, R119, R157): U1 and U2 timeouts of the new slot are 0; it reports the connection where its hub is ATTACHED and
the port is not fenced, else once the hub is ATTACHED. -/
def moveShown (d : DS) (s : State) : State :=
  match ownerOf s d with
  | none => s
  | some u =>
    let a := match owningSlot s d with
      | some (u, v) => modSlot u v (fun x => { x with u1 := 0, u2 := 0 }) s
      | none => s
    let x := dsOf a d
    if (hubOf a u).state == .attached then
      if presentable a d then
        let b := if x.shown2 then chgPort d false .connection a else a
        if x.shown3 then chgPort d true .connection b else b
      else a
    else modDs d (fun x => { x with late2 := x.shown2, late3 := x.shown3 }) a

/-- MOVE_DRAIN_COMPLETE (R118, R119, R157, R274, R297): the new owner has the port, and the command's final completion is placed. -/
def moveDrained (d : DS) (s : State) : State :=
  match s.own.move[d] with
  | none => s
  | some m =>
    if m.phase ≠ 2 then s
    else
      let s1 := setMove d none (setOwner d m.dest s)
      let s2 := if m.keep then keepMoved d m s1 else releaseMoved d m s1
      let s3 := moveShown d (movedPort d s2)
      let s4 := match m.dest with | some u => withholdSs u s3 | none => s3
      let st := if portFenced s4 (dsPort d) then stFenced else stOk
      let skip := accRings (.assign d) s4
      let s5 := finalCpl (.assign d) st (assignResult m.keep m.dest) s4
      portEvent (dsPort d) 4 (le 1 (ownerCode m.dest)) skip s5

end Sys2Proof.Machine
end

