-- ==== Sys2Proof/Machine/LioOps.lean ====
section
/-! DEFINITION. Events of the lane I/O block (R374, R470). -/

set_option Elab.async false

namespace Sys2Proof.Machine

/-- A LANE_IO event on all rings (R470). -/
def laneIoEvent (kind index level edges : Nat) (s : State) : State :=
  eventAll [] 0xFF0A (le 1 kind ++ le 1 index ++ le 1 level ++ [0] ++ le 8 s.now ++ le 4 edges) s

/-- The drawer of an output is open: SENSEn equals SENSEn_POL (R374). -/
def drawerOpen (s : State) (i : Fin 2) : Bool := s.lio.sense.getLsbD i.val == s.lio.pol.getLsbD i.val

/-- A GPIO_EDGE event of a pin, with the edges seen; its tick is kept (R374). -/
def gpioEvent (n : Nat) (s : State) : State :=
  let s1 := { s with lio := { s.lio with
    pend := s.lio.pend &&& ~~~(BitVec.ofNat 32 (2 ^ n)), pendAt := tabPut s.lio.pendAt n (s.now / 125000) } }
  laneIoEvent 1 n 0 s1.lio.edge.toNat s1

/-- The edge events that a refill tick lets out, one a pin (R201, R374). -/
def gpioFlush (s : State) : State :=
  (List.range 16).foldl (fun s n =>
    if s.lio.pend.getLsbD n && tabGet s.lio.pendAt n != some (s.now / 125000) then gpioEvent n s else s) s

end Sys2Proof.Machine
end

