-- ==== Sys2Proof/Machine/Crossings.lean ====
section
/-! DEFINITION. The crossings between clock domains: their mechanisms, instances and depths (R21, R22). Of what they carry only the PD FIFOs hold
something between two rows (log entry 100). -/

set_option Elab.async false

namespace Sys2Proof.Machine

/-- The mechanisms of R21 and R22. -/
inductive CrossMech where
  | elastic | queue | pdFifo | twoFlop | threeFlop
  deriving DecidableEq, Repr

/-- The crossing families, in the order of R22's rows. The words toward the always-on domain and its single bits are two of them. -/
inductive Crossing where
  | ssElastic | ssLink | utmi | repeater | sage | chervil | thyme | pdPhy | dmc | dfi | laneTime | toAonWords | toAonBits | fromAon | spit | i2ct
  | qspi | i2cMaster | adc | tck
  deriving DecidableEq, Repr

/-- What R22 says of a family: its mechanism, its instances, and per direction its depth in words and a word's width in bits. The elastic buffers'
words are blocks, the PD FIFOs' stages. Instances are 0 where the rule counts none. -/
structure CrossSpec where
  mech : CrossMech
  instances : Nat
  depth : Nat := 0
  width : Nat := 0
  deriving DecidableEq, Repr

/-- The table of R22. -/
def crossing (c : Crossing) : CrossSpec := match c with
  | .ssElastic => ⟨.elastic, 11, 8, 0⟩
  | .ssLink => ⟨.queue, 10, 32, 256⟩
  | .utmi => ⟨.queue, 18, 16, 32⟩
  | .repeater => ⟨.queue, 32, 16, 8⟩
  | .sage => ⟨.queue, 1, 16, 256⟩
  | .chervil => ⟨.queue, 8, 32, 256⟩
  | .thyme => ⟨.queue, 6, 8, 64⟩
  | .pdPhy => ⟨.pdFifo, 18, 16, 40⟩
  | .dmc => ⟨.queue, 1, 64, 256⟩
  | .dfi => ⟨.queue, 2, 8, 128⟩
  | .laneTime => ⟨.queue, 0, 4, 64⟩
  | .toAonWords => ⟨.queue, 1, 4, 32⟩
  | .toAonBits => ⟨.threeFlop, 1, 0, 0⟩
  | .fromAon => ⟨.twoFlop, 1, 0, 0⟩
  | .spit => ⟨.queue, 1, 16, 32⟩
  | .i2ct => ⟨.queue, 1, 8, 32⟩
  | .qspi => ⟨.queue, 1, 32, 32⟩
  | .i2cMaster => ⟨.queue, 2, 8, 32⟩
  | .adc => ⟨.queue, 1, 16, 32⟩
  | .tck => ⟨.twoFlop, 0, 0, 0⟩

end Sys2Proof.Machine
end

