-- ==== Sys2Proof/Machine/MemOps.lean ====
section
/-! DEFINITION. What stands where in DRAM and PKB, and what an error there loses: regions and owners (R89, R91), tags as they stand, lost cells and units
(R99), and the words that a scrub finds (R88, R95, R96, R98). -/

set_option Elab.async false

namespace Sys2Proof.Machine

/-! ### Regions and owners (R89, R91) -/

/-- A nominal start rounded up to a unit (R91). -/
def roundUnit (a : Nat) : Nat := (a + 47) / 48 * 48

/-- The start of the descriptor rings. -/
def ringsStart : Nat := roundUnit 0x4000000

/-- The start of the Vigil region. -/
def vigilStart : Nat := roundUnit 0x5000000

/-- The region of a usable address, by its REGION code (R91). -/
def regionAt (s : State) (a : Nat) : Nat :=
  if spillStart s ≤ a then 5 else if roundUnit 0x5800000 ≤ a then 4 else if vigilStart ≤ a then 3 else if ringsStart ≤ a then 2 else 1

/-- The owner of a unit (R89): the context of a Vigil unit, which the spec's layout leaves open (log entry 91), the port of a capture ring, the
queue of a spill extent; 0 for firmware and rings, and where nothing is allocated. -/
def ownerAt (s : State) (n : Nat) : Nat :=
  let a := n * 48
  match regionAt s a with
  | 3 => Config.ctxOfUnit n % 96
  | 4 => ((allDs.find? (fun d => decide (s.vig.rings[d].alloc = 0 ∧ s.vig.rings[d].base < a + 48 ∧
      a < s.vig.rings[d].base + s.vig.rings[d].size))).map dsCode).getD 0
  | 5 => ((s.epqs.find? (fun e => e.2.extents.any (fun i => decide (extentUnit s i ≤ n ∧ n < extentUnit s i + 1366)))).map (·.1)).getD 0
  | _ => 0

/-- The tag of a unit as it stands in DRAM. -/
def tagAt (s : State) (n : Nat) : Nat := unitTag (ownerAt s n) (regionAt s (n * 48)) n ^^^ sparseGet 0 s.memb.tagErr n

/-- The owner and the region by which an error in a unit is judged: those of its tag, and the firmware's where the tag fails (R99). -/
def judgedAt (s : State) (n : Nat) : Nat × Nat := (readTag (tagAt s n) n).getD (0, 1)

/-! ### What an error loses (R99) -/

/-- An endpoint queue reset (R99): every packet it stores discarded with a counted reason. -/
def resetEpq (q : Nat) (s : State) : State :=
  match epqOf s q with
  | none => s
  | some e =>
    let s1 := e.pkts.foldl (fun s p => countDiscard p.ingress (some q) 7 s) s
    settle (modEpq q (fun x => { x with pkts := [], tagged := false }) s1)

/-- What lay in a PKB cell is discarded with a counted reason: a queue's packet, one of no open queue, or a translator's buffer. -/
def loseCell (n : Nat) (s : State) : State :=
  let s1 := dropPkts (fun _ p => p.cells.contains n) 7 s
  let s2 := allPorts.foldl (fun s p =>
    ((linkOf s p).loose.filter (·.cells.contains n)).foldl (fun s k => countDiscard k.ingress none 7 s)
      (modLink p (fun l => { l with loose := l.loose.filter (fun k => !k.cells.contains n) }) s)) s1
  settle (allDs.foldl (fun s d =>
    ((s.u2d[d]).tt.bufs.filter (·.cells.contains n)).foldl (fun s b => countDiscard (dsPort d) b.epq 7 s)
      (modTt d (fun t => { t with bufs := t.bufs.filter (fun b => !b.cells.contains n) }) s)) s2)

/-- The capture record that a unit holds is damaged. -/
def damageUnit (n : Nat) (s : State) : State :=
  allDs.foldl (fun s d => modRing d (fun r => { r with recs := r.recs.map (fun x =>
    if r.base + x.off < n * 48 + 48 ∧ n * 48 < r.base + x.off + x.size then { x with damaged := true } else x) }) s) s

/-- A context's copy in DRAM is lost, and its device released (R99). -/
def loseCtx (c : Nat) (s : State) : State :=
  modVig (fun v => { v with ctxBad := if c ∈ v.ctxBad then v.ctxBad else v.ctxBad ++ [c] }) (releaseCtx c 7 s)

/-- What an uncorrectable word or an address error in a unit loses, by the owner and the region of its tag (R99); a ring's queue is found by
its place. -/
def loseUnit (n : Nat) (s : State) : State :=
  let x := judgedAt s n
  match x.2 with
  | 2 => resetEpq ((n * 48 - ringsStart) / 32768) s
  | 3 => loseCtx x.1 s
  | 4 => damageUnit n s
  | 5 => resetEpq x.1 s
  | _ => s

/-- The DMC source that an error in a unit raises, and the unit number that it names (R99, R408). -/
def unitSource (s : State) (n : Nat) : Nat × Nat :=
  let x := judgedAt s n
  match x.2 with
  | 2 | 5 => (10, unitPage n)
  | 3 => (11, x.1)
  | 4 => (12, unitPage n)
  | _ => (13, unitPage n)

/-- The unit of a page that a latched error lies in, where only the page is named: a free one of the page's units of the regions that the source
covers (log entry 41). -/
def pickUnit (s : State) (page : Nat) (regions : List Nat) : Option Nat :=
  let l := ((List.range 64).map (fun i => page * 64 + i)).filter (fun n => regions.contains (judgedAt s n).2)
  l[Config.freeNat s.freeSeq % (max 1 l.length)]?

/-! ### Flipped bits (R88, R95, R96) -/

/-- Bits of a unit that have flipped since its last scrub: words 0–11 with their check bytes as codewords, 12 the tag. -/
def flipUnit (n : Nat) (flips : List (Nat × Nat)) (m : MemBlk) : MemBlk :=
  flips.foldl (fun m x =>
    if x.1 < 12 then { m with dramErr := sparseSet 0 m.dramErr (n * 12 + x.1) (sparseGet 0 m.dramErr (n * 12 + x.1) ^^^ x.2 % 2 ^ 40) }
    else if x.1 = 12 then { m with tagErr := sparseSet 0 m.tagErr n (sparseGet 0 m.tagErr n ^^^ x.2 % 2 ^ 32) }
    else m) m

/-- What the twelve words of a unit read as. -/
def unitReads (s : State) (n : Nat) : List (Nat × WordRead) :=
  (List.range 12).map (fun w => (n * 12 + w, readDram (sparseGet 0 s.memb.dramErr (n * 12 + w))))

/-- The words of a unit that a scrub corrects. -/
def correctedWords (l : List (Nat × WordRead)) : List (Nat × Nat) :=
  l.filterMap (fun x => match x.2 with | .corrected i => some (x.1, i) | _ => none)

/-- A unit holds a word that cannot be used (R99): uncorrectable, from the wrong address, or any under a tag that fails. -/
def unitBad (s : State) (n : Nat) (l : List (Nat × WordRead)) : Bool :=
  (readTag (tagAt s n) n).isNone || l.any (fun x => x.2 == .uncorrectable || x.2 == .addressError)

/-- Corrected words written back (R96). -/
def writeBack (l : List (Nat × Nat)) (m : MemBlk) : MemBlk :=
  l.foldl (fun m x => { m with dramErr := sparseSet 0 m.dramErr x.1 (sparseGet 0 m.dramErr x.1 ^^^ 2 ^ x.2) }) m

/-- The flipped bits of a cell or a page are gone once patterns have been written over it (R100). -/
def cleanUnit (b : Block) (n : Nat) (m : MemBlk) : MemBlk := match b with
  | .pkb => { m with pkbErr := m.pkbErr.filter (fun x => decide (x.1 / 32 ≠ n)) }
  | .dmc => { m with dramErr := m.dramErr.filter (fun x => decide (x.1 / 768 ≠ n)), tagErr := m.tagErr.filter (fun x => decide (x.1 / 64 ≠ n)) }
  | _ => m

end Sys2Proof.Machine
end

