-- ==== Sys2Proof/Machine/Failover.lean ====
section
/-! DEFINITION. Upstream failover and fail-back (R268–R284, R456). -/

set_option Elab.async false

namespace Sys2Proof.Machine

/-- Failover's part of a hub. -/
def foOf (s : State) (u : US) : FoHub := s.fo.hub[u.idx]

/-- The home hub of a failed-over port (R275). -/
def homeOf (s : State) (d : DS) : Option US := s.fo.home[d]

/-- The home record of a port replaced. -/
def setHome (d : DS) (h : Option US) (s : State) : State := { s with fo := { s.fo with home := s.fo.home.set d h } }

/-- The failed-over ports of a home hub. -/
def failedOver (s : State) (u : US) : List DS := allDs.filter (fun d => homeOf s d == some u)

/-- A hub's ports in PRIORITY order, an empty list meaning every owned port in slot order (R268). -/
def foList (s : State) (u : US) : List DS :=
  let p := (foOf s u).rcd.prio
  if p.isEmpty then
    (hubOf s u).active.filterMap (fun x => match x with
      | .port d => if ownerOf s d = some u then some d else none
      | .lmf => none)
  else p

/-- The deadline of a hub has passed (R266, R270). -/
def deadlinePast (s : State) (u : US) : Bool := match (vigHub s u).deadline with
  | some t => decide (t ≤ s.now)
  | none => false

/-- Some device on a port of the hub is HELD. -/
def hubHeld (s : State) (u : US) : Bool := s.vig.ctx.any (fun c => ownerOf s c.2.port == some u && c.2.st == .held)

/-- The state a hub without its host falls back to: VIGIL while a device is HELD and the deadline has not passed (R275). -/
def restState (s : State) (u : US) : HubState := if hubHeld s u && !deadlinePast s u then .vigil else .detached

/-- PARTNER_ABSENCE_RETURN (R121, R278): at the partner's absence each failed-over port returns to its home hub, contexts HELD. -/
def partnerLost (p : US) (s : State) : State :=
  let ds := allDs.filter (fun d => homeOf s d == some p.other && ownerOf s d == some p && !isSealed s d)
  if ds.isEmpty then s
  else
    let ep := ((vigHub s p).lastPkt).getD s.now
    let s1 := ds.foldl (fun s d => setHome d none (setOwner d (some p.other) (beginEpisode false d ep (holdPort d s)))) s
    let s2 := modVigHub p.other (fun h => { h with episode := ep }) s1
    if (hubOf s2 p.other).state == .failedOver then hubTo p.other (restState s2 p.other) s2 else s2

/-- A host of a hub is judged absent (R245, R247, R263, R269, R278, R282). -/
def hostLost (u : US) (s : State) : State :=
  match (hubOf s u).state with
  | .attached | .suspended =>
    let s1 := partnerLost u s
    let s2 := modHub u (fun h => { h with configured := false }) s1
    let s3 := enterVigil u (((vigHub s2 u).lastPkt).getD s2.now) s2
    if (foOf s3 u).rcd.partner.isSome then modFo u (fun f => { f with absentAt := some s3.now, waiting := false, back := none }) s3
    else modFo u (fun f => { f with back := none }) s3
  | _ => s

/-! ### The decision (R269, R270) -/

/-- The home hub may still fail over (R269, R270). -/
def homeOpen (s : State) (u : US) : Bool :=
  ((hubOf s u).state == .vigil || (hubOf s u).state == .detached) && !deadlinePast s u

/-- Failover starts (R271, R273). -/
def startFailover (u : US) (s : State) : State :=
  modFo u (fun f => { f with waiting := false, absentAt := none, queue := foList s u, nextAt := s.now, outcomes := [] }) s

/-- FAILOVER_DECISION (R269, R270): at the first refill tick at or after absence and DELAY. -/
def execFailoverDecision (u : US) (s : State) : Res :=
  let s := fresh s
  match (foOf s u).absentAt, (foOf s u).rcd.partner with
  | some t, some p =>
    let due := t + (foOf s u).rcd.delay * 10000000
    let s := advanceTo ((max due s.now + 124999) / 125000 * 125000) s
    if !homeOpen s u then .next (modFo u (fun f => { f with absentAt := none }) s)
    else
      let s1 := modFo u (fun f => { f with absentAt := none, waiting := true }) s
      .next (match (hubOf s p).state with
        | .attached => startFailover u s1
        | .suspended =>
          if (hubOf s p).remoteWake2 then
            modUs p (fun x => { x with upK := some s1.now }) (emit (.upWake p false) s1)
          else if (hubOf s p).funcWake3 then modUs p (fun x => { x with upLfps := true }) (emit (.upWake p true) s1)
          else s1
        | _ => s1)
  | _, _ => .next s

/-! ### Moves (R271–R274, R277) -/

/-- A port's move starts at step 2 of R118: the slot it leaves sets C_PORT_CONNECTION. -/
def startMove (d : DS) (dest old : US) (keep : Bool) (cause : Nat) (s : State) : State :=
  let x := dsOf s d
  let s1 := if x.shown2 then chgPort d false .connection s else s
  let s2 := if x.shown3 then chgPort d true .connection s1 else s1
  let m : Move := { dest := some dest, keep := keep, phase := 2, startAt := s2.now, cause := cause, old := some old }
  moveHeld d keep { s2 with own := { s2.own with move := s2.own.move.set d (some m) } }

/-- The outcome of a port at the decision (R271). -/
def foJudge (s : State) (u p : US) (d : DS) : Nat :=
  if ownerOf s d ≠ some u then 5
  else if isSealed s d then 4
  else if !(hubOf s p).active.contains (.port d) then 3
  else if portFenced s (dsPort d) then 6
  else if (portCtxs s d).any (fun c => c.2.st == .held) && keepPossible s d (some p) then 1
  else 2

/-- Ports of a failover taken in order, up to the first that moves (R271, R273), on fuel. -/
def foNext (u p : US) : Nat → State → State
  | 0, s => s
  | n + 1, s =>
    match (foOf s u).queue with
    | [] => s
    | d :: t =>
      if s.own.move[d].isSome then s
      else
        let c := foJudge s u p d
        let s1 := modFo u (fun f => { f with queue := t, outcomes := f.outcomes ++ [(dsCode d, c)] }) s
        if c = 3 ∨ c = 4 ∨ c = 5 then foNext u p n s1
        else
          let keep := decide (c ≠ 2) && keepPossible s1 d (some p)
          let s2 := setHome d (some u) (startMove d p u keep 1 s1)
          let s3 := hubTo u .failedOver s2
          modFo u (fun f => { f with nextAt := s3.now + f.rcd.stagger * 1000000 }) s3

/-- A device of a port is still ABSORBING (R277). -/
def absorbing (s : State) (d : DS) : Bool := (portCtxs s d).any (fun c => c.2.st == .absorbing)

/-- A fail-back that has nothing left completes (R276). -/
def backDone (u : US) (s : State) : State :=
  match (foOf s u).back with
  | none => s
  | some b =>
    if b.queue.isEmpty && b.deferred.isEmpty &&
        !allDs.any (fun d => match s.own.move[d] with | some m => m.cause == 2 && m.dest == some u | none => false) then
      finalCpl (.failback u) stOk (le 2 b.moved) (modFo u (fun f => { f with back := none }) s)
    else s

/-- Ports of a fail-back taken in order, up to the first that moves (R277), on fuel. -/
def backNext (u : US) : Nat → State → State
  | 0, s => s
  | n + 1, s =>
    match (foOf s u).back with
    | none => s
    | some b =>
      match b.queue with
      | [] => backDone u s
      | d :: t =>
        if s.own.move[d].isSome then s
        else
          let put (q : List DS) (df : List (DS × Nat)) (s : State) : State :=
            modFo u (fun f => { f with back := some { b with queue := q, deferred := df } }) s
          if homeOf s d ≠ some u ∨ ownerOf s d ≠ some u.other ∨ isSealed s d = true then backNext u n (put t b.deferred s)
          else if !(hubOf s u).active.contains (.port d) then backNext u n (setHome d none (put t b.deferred s))
          else if absorbing s d && !b.deferred.any (fun x => x.1 == d && decide (x.2 ≤ s.now)) then
            backNext u n (put t ((b.deferred.filter (·.1 != d)) ++ [(d, s.now + 2000000000)]) s)
          else
            let s1 := put t (b.deferred.filter (·.1 != d)) s
            let s2 := setHome d none (startMove d u u.other (keepPossible s1 d (some u)) 2 s1)
            modFo u (fun f => { f with back := f.back.map (fun b => { b with nextAt := s2.now + f.rcd.stagger * 1000000 }) }) s2

/-- FAILOVER_PORT_START (R270, R273, R277): STAGGER after the one before, the next listed port of a failover or of a fail-back starts
its move; a decision that waited for its partner starts when the partner is ATTACHED. -/
def execFailoverPortStart (u : US) (s : State) : Res :=
  let s := fresh s
  let f := foOf s u
  match f.back with
  | some b =>
    if (hubOf s u).state == .attached then
      let s1 := advanceTo b.nextAt s
      let back := b.deferred.filter (fun x => !absorbing s1 x.1)
      let s2 := modFo u (fun f => { f with back := some { b with
        queue := back.map (·.1) ++ b.queue, deferred := b.deferred.filter (fun x => absorbing s1 x.1) } }) s1
      .next (backNext u 32 s2)
    else .next s
  | none =>
    match f.rcd.partner with
    | none => .next s
    | some p =>
      let s0 := if f.waiting && (hubOf s p).state == .attached && homeOpen s u then startFailover u s else s
      if (foOf s0 u).queue.isEmpty || (hubOf s0 p).state != .attached ||
          !((hubOf s0 u).state == .vigil || (hubOf s0 u).state == .detached || (hubOf s0 u).state == .failedOver) then .next s0
      else .next (foNext u p 32 (advanceTo (foOf s0 u).nextAt s0))

/-- What a completed move does to failover (R273, R275–R277, R284): the event of the port, its home record, the home hub's state. -/
def failoverMoved (d : DS) (m : Option Move) (s : State) : State :=
  match m with
  | none => s
  | some m =>
    if s.own.move[d].isSome then s
    else if m.cause = 1 then
      let home := (homeOf s d).getD .us0
      let code := (((foOf s home).outcomes.find? (fun x => x.1 == dsCode d)).map (·.2)).getD (if m.keep then 1 else 2)
      vigilEvent (allRings s.mbx) (dsCode d) 3 code 0x7F s
    else if m.cause = 2 then
      let u := m.dest.getD .us0
      let skip := accRings (.failback u) s
      let s1 := vigilEvent ((allRings s.mbx).filter (· ∉ skip)) (dsCode d) 4 (if m.keep then 1 else 2) 0x7F s
      backDone u (modFo u (fun f => { f with back := f.back.map (fun b => { b with moved := b.moved ||| 2 ^ d.val }) }) s1)
    else
      match homeOf s d with
      | none => s
      | some h =>
        let s1 := setHome d none s
        if (failedOver s1 h).isEmpty && (hubOf s1 h).state == .failedOver then hubTo h (restState s1 h) s1 else s1

/-! ### Fail-back (R276, R277) -/

/-- The order of a fail-back: the PRIORITY list, then the other failed-over ports in slot order. -/
def backOrder (s : State) (u : US) : List DS :=
  let p := (foOf s u).rcd.prio.filter (fun d => homeOf s d == some u)
  p ++ (failedOver s u).filter (fun d => !p.contains d)

/-- A fail-back begins (R277): a suspended home hub is woken where its host enabled remote wake. -/
def startBack (u : US) (cmd : Bool) (ds : List DS) (s : State) : State :=
  let s1 := modFo u (fun f => { f with back := some { cmd := cmd, queue := ds, nextAt := s.now } }) s
  if (hubOf s u).state == .suspended && (hubOf s u).remoteWake2 then
    modUs u (fun x => { x with upK := some s1.now }) (emit (.upWake u false) s1)
  else s1

/-- FAILBACK_AUTO (R276): FAILBACK_DELAY after the home hub was ATTACHED or SUSPENDED without a break, at the refill tick. -/
def execFailbackAuto (u : US) (s : State) : Res :=
  let s := fresh s
  let f := foOf s u
  match f.upFrom with
  | none => .next s
  | some t =>
    if !f.rcd.auto || f.back.isSome || (failedOver s u).isEmpty then .next s
    else
      let due := t + f.rcd.backDelay * 1000000000
      let s1 := advanceTo ((max due s.now + 124999) / 125000 * 125000) s
      .next (startBack u false (backOrder s1 u) s1)

/-- FAILBACK_DEFER_TIMEOUT (R277): 2 s after it was deferred a port is moved back. -/
def execFailbackDeferTimeout (d : DS) (s : State) : Res :=
  let s := fresh s
  match homeOf s d with
  | none => .next s
  | some u =>
    match (foOf s u).back with
    | none => .next s
    | some b =>
      match b.deferred.find? (fun x => x.1 == d) with
      | none => .next s
      | some x =>
        let s1 := advanceTo x.2 s
        if (hubOf s1 u).state != .attached then .next s1
        else .next (backNext u 32 (modFo u (fun f => { f with back := some { b with queue := d :: b.queue } }) s1))

/-! ### Commands (R268, R276, R456) -/

/-- A list of DS port codes with COUNT, none where a code is no DS port, repeats, or a byte beyond COUNT is not 0. -/
def portList (count : Nat) (bs : List Byte) : Option (List DS) :=
  let ds := (bs.take count).filterMap (fun b => codeDs b.toNat)
  if count > 15 ∨ ds.length ≠ count ∨ ¬ ds.Nodup ∨ (bs.drop count).any (· != 0) = true then none else some ds

/-- The spec of FAILOVER_SET (R456). -/
def specFailoverSet : CmdSpec :=
  { opcode := 0x0505, cls := .run, lenOk := len 24, resvOk := fun p => decide (fld p 3 1 < 2) }

/-- The record that a payload without OPTIONS spells, each field out of range at its blank value (R268, R475). -/
def foRecord (u : US) (p : List Byte) : FoRec :=
  { partner := match codeUs (fld p 0 1) with | some x => if x = u then none else some x | none => none
    auto := fld p 1 1 != 0
    stagger := if fld p 2 1 ≤ 100 then fld p 2 1 else 10
    delay := if fld p 3 2 ≤ 1000 then fld p 3 2 else 25
    backDelay := if 1 ≤ fld p 5 2 ∧ fld p 5 2 ≤ 3600 then fld p 5 2 else 10
    prio := (portList (fld p 7 1) (slice p 8 15)).getD [] }

/-- FAILOVER_SET (R268, R456). -/
def cmdFailoverSet (r : Req) (s : State) : State × Reply :=
  let p := r.payload
  match targetUs r with
  | none => (s, errR stBadTarget)
  | some u =>
    let bs := slice p 0 3 ++ slice p 4 20
    if decide (fld p 0 1 ≠ 0 ∧ codeUs (fld p 0 1) ≠ some u.other) || decide (fld p 1 1 > 1) || decide (fld p 2 1 > 100) ||
        decide (fld p 4 2 > 1000) || decide (fld p 6 2 < 1) || decide (fld p 6 2 > 3600) ||
        (portList (fld p 8 1) (slice p 9 15)).isNone then (s, errR stBadTarget)
    else if reqHub r == some u.other then (s, errR stOwned)
    else
      let x := persist (if bit (fld p 3 1) 0 then recWrites s (0x120 + 8 * u.idx.val) bs else []) r.badWord s
      if x.2 ≠ stOk then (x.1, errR x.2)
      else (modFo u (fun f => { f with rcd := foRecord u bs }) x.1, okR [])

/-- FAILOVER_SET. -/
def execFailoverSet (r : Req) (s : State) : Res := .next (runCmd specFailoverSet cmdFailoverSet r s)

/-- The spec of FAILBACK (R456). -/
def specFailback : CmdSpec := { opcode := 0x0506, cls := .run, lenOk := len 16 }

/-- FAILBACK (R276, R456). -/
def cmdFailback (r : Req) (s : State) : State × Reply :=
  let p := r.payload
  match targetUs r with
  | none => (s, errR stBadTarget)
  | some u =>
    let all := backOrder s u
    match portList (fld p 0 1) (slice p 1 15) with
    | none => (s, errR stBadTarget)
    | some ds =>
      if all.isEmpty || ds.any (fun d => homeOf s d != some u) then (s, errR stBadTarget)
      else if reqHub r == some u.other then (s, errR stOwned)
      else if ((hubOf s u).state != .attached && (hubOf s u).state != .suspended) || (foOf s u).back.isSome then (s, errR stBusy)
      else (startBack u true (if ds.isEmpty then all else all.filter (fun d => ds.contains d)) s, accR (.failback u))

/-- FAILBACK. -/
def execFailback (r : Req) (s : State) : Res := .next (runCmd specFailback cmdFailback r s)

/-- A hub's failover record from the Almanac (R268, R477). -/
def loadFo (s : State) (u : US) : FoRec := match recRead s (0x120 + 8 * u.idx.val) 6 with
  | some l => foRecord u l
  | none => {}

end Sys2Proof.Machine
end

