-- ==== Sys2Proof/Machine/PowerOps.lean ====
section
/-! DEFINITION. What the Type-C, PD and power families share: the port's records, PD messages as the Thyme writes them, offers, charges and
the lane budget's allocator, the stage behind PSC, detach, ErrorRecovery and Hard Reset (chapters 13 and 14). The layouts of headers, data
objects and structured VDMs are those of USB Power Delivery, which the manual follows without repeating them (PRESUMED, log entry 40). -/

set_option Elab.async false

namespace Sys2Proof.Machine

/-! ### Records -/

/-- A port's Type-C state. -/
def tcOf (s : State) (p : Port) : Tc := s.tc[p]

/-- A port's Type-C state changed. -/
def modTc (p : Port) (f : Tc → Tc) (s : State) : State := { s with tc := s.tc.set p (f s.tc[p]) }

/-- A port's PHY. -/
def phyOf (s : State) (p : Port) : PdPhy := s.phy[p]

/-- A port's PHY changed. -/
def modPhy (p : Port) (f : PdPhy → PdPhy) (s : State) : State := { s with phy := s.phy.set p (f s.phy[p]) }

/-- A port's power path. -/
def pwrOf (s : State) (p : Port) : Pwr := s.pwr[p]

/-- A port's power path changed. -/
def modPwr (p : Port) (f : Pwr → Pwr) (s : State) : State := { s with pwr := s.pwr.set p (f s.pwr[p]) }

/-- A port's guard. -/
def guardOf (s : State) (p : Port) : GuardPort := s.guard[p]

/-- The checks of a command that a sealed port accepts from any ring (R111, R124). -/
def openGate (r : Req) (s : State) (p : Port) : Option Nat := match portDs p with
  | some d => if isSealed s d then none else dsGate r s d
  | none => portGate r s p

/-- The port is populated (R60, R329). -/
def populated (s : State) (p : Port) : Bool := (pwrOf s p).pol.populated

/-- The Thyme of a port is fenced or held in reset (R302): the engines are held in BOOT and asleep (R14), and run in SAFE (R356). -/
def thymeDown (s : State) (p : Port) : Bool := blockFenced s (.thy (portThy p)) || (s.sup.enginesHeld && s.pmu.reported != .safe)

/-- Attached as source. -/
def isSource (s : State) (p : Port) : Bool := (tcOf s p).st == .attached && (tcOf s p).src

/-- Attached as sink. -/
def isSink (s : State) (p : Port) : Bool := (tcOf s p).st == .attached && !(tcOf s p).src

/-- An explicit contract is in place. -/
def explicit (s : State) (p : Port) : Bool := decide ((pwrOf s p).con.kind ≥ 2)

/-- The partner is at PD Revision 3.x. -/
def rev3 (s : State) (p : Port) : Bool := (phyOf s p).rev == 3

/-- A pattern that shows a sink (R305). -/
def sinkPattern (c : CcPattern) : Bool := match c with
  | .rdOne | .rdRa => true
  | _ => false

/-! ### PD messages -/

/-- A header (R318): type, number of objects, extended; MessageID and revision from the port's state, roles on SOP. -/
def pdHeader (s : State) (p : Port) (sop typ n : Nat) (ext : Bool) (id : Nat) : Nat :=
  let t := tcOf s p
  typ + (if sop = 0 then 32 * b2n t.dfp + 256 * b2n t.src else 0) + 64 * ((phyOf s p).rev - 1) + 512 * id + 4096 * n +
    32768 * b2n ext

/-- A message written to the TX FIFO with its MessageID (R318). -/
def pdSend (p : Port) (sop typ : Nat) (ext : Bool) (data : List Byte) (s : State) : State :=
  let x := phyOf s p
  let id := (tabGet x.nextId sop).getD 0
  let m : PdMsg := { sop := sop, header := pdHeader s p sop typ (data.length / 4) ext id, data := data, at_ := s.now }
  modPhy p (fun x => { x with tx := x.tx ++ [m], nextId := tabPut x.nextId sop ((id + 1) % 8) }) s

/-- A control message on SOP. -/
def pdCtl (p : Port) (typ : Nat) (s : State) : State := pdSend p 0 typ false [] s

/-- A data message of whole objects on SOP. -/
def pdData (p : Port) (typ : Nat) (objs : List Nat) (s : State) : State := pdSend p 0 typ false (objs.flatMap (le 4)) s

/-- An EPR_Mode message: its action and data. -/
def eprMode (p : Port) (action data : Nat) (s : State) : State := pdData p 10 [action * 2 ^ 24 + data * 2 ^ 16] s

/-- Not_Supported, or Reject to a Revision 2.0 partner. -/
def notSupported (p : Port) (s : State) : State := pdCtl p (if rev3 s p then 16 else 4) s

/-- The header's message type. -/
def msgType (h : Nat) : Nat := bits h 4 0

/-- The header's number of data objects. -/
def msgObjs (h : Nat) : Nat := bits h 14 12

/-- The header's Extended bit. -/
def msgExt (h : Nat) : Bool := bit h 15

/-- Data object i of a message. -/
def pdObj (m : PdMsg) (i : Nat) : Nat := fld m.data (4 * i) 4

/-- A control message of a type. -/
def isCtl (m : PdMsg) (t : Nat) : Bool := !msgExt m.header && msgObjs m.header == 0 && msgType m.header == t

/-- A data message of a type. -/
def isData (m : PdMsg) (t : Nat) : Bool := !msgExt m.header && msgObjs m.header != 0 && msgType m.header == t

/-- An extended message of a type. -/
def isExt (m : PdMsg) (t : Nat) : Bool := msgExt m.header && msgType m.header == t

/-! ### FIFO words (R317–R319) -/

/-- The words a message fills (R318): the frame descriptor and its bytes. -/
def pdWords (m : PdMsg) : Nat := 1 + (m.data.length + 3) / 4

/-- The frame descriptor of a message (R318). -/
def frameDescriptor (m : PdMsg) : Nat := m.sop % 8 + 2 ^ 8 * (m.bytes % 256) + 2 ^ 16 * (m.header % 65536)

/-- The words of a message (R318): its descriptor, then its bytes in wire order, the last word padded with zeros. -/
def messageWords (m : PdMsg) : List Nat :=
  frameDescriptor m :: (List.range ((m.data.length + 3) / 4)).map (fun i => fld m.data (4 * i) 4)

/-- The 40-bit word that a read of a stage returns (R319): DATA, UE, CE, LAST and VALID. -/
def readWord (data : Nat) (ue ce last : Bool) : Nat :=
  (if ue then 0 else data % 2 ^ 32) + 2 ^ 36 * b2n ue + 2 ^ 37 * b2n ce + 2 ^ 38 * b2n last + 2 ^ 39

/-- What reads return of a message's words from the i-th on, the last of them with LAST. -/
def readsFrom (ce : Nat) : Nat → List Nat → List Nat
  | _, [] => []
  | i, [w] => [readWord w false (bit ce i) true]
  | i, w :: l => readWord w false (bit ce i) false :: readsFrom ce (i + 1) l

/-- What reads return of a message. -/
def messageReads (m : PdMsg) : List Nat := readsFrom m.ce 0 (messageWords m)

/-- A read of a FIFO (R319): the word at its head; of an empty FIFO every bit is 0, and nothing is removed. -/
def fifoRead (l : List PdMsg) : Nat := (l.flatMap messageReads).headD 0

/-- The message that the words read up to LAST spell, with the lane time of its notice (R318, R319). -/
def readMessage (at_ : Nat) (ws : List Nat) : PdMsg :=
  let d := ws.headD 0
  { sop := bits d 2 0, header := bits d 31 16, data := ((ws.drop 1).flatMap (fun w => le 4 w)).take (bits d 15 8 - 2), at_ := at_
    bytes := bits d 15 8 }

/-- A message whose word count matches its BYTES (R318). -/
def wordsMatch (m : PdMsg) : Bool := pdWords m == 1 + (m.bytes - 2 + 3) / 4 && decide (2 ≤ m.bytes ∧ m.bytes ≤ 30)

/-- The words a FIFO's messages fill. -/
def fifoWords (l : List PdMsg) : Nat := (l.map pdWords).foldl (· + ·) 0

/-! ### Notices and flushes (R321, R322) -/

/-- A notice to the Thyme, in order (R321). -/
def notice (p : Port) (n : Notice) (s : State) : State := modPhy p (fun x => { x with notices := x.notices ++ [n] }) s

/-- A flush of both FIFOs (R322): each TX message completes with the result, and no notice of a flushed message remains. -/
def flushPd (p : Port) (result : Nat) (s : State) : State :=
  modPhy p (fun x =>
    let n := x.tx.length + (if x.txStaged.isSome then 1 else 0)
    let keep := x.notices.filter (fun n => match n with | .rxMsg _ _ => false | _ => true)
    { x with tx := [], txStaged := none, txStarted := false, txTries := 0, rx := [], rxStaged := none, inHand := none
             ams := 0, chunk := [], rxChunk := [], notices := keep ++ List.replicate n (.txDone result) }) s

/-- The protocol layer reset on every SOP* (R327). -/
def resetPd (p : Port) (s : State) : State := modPhy p (fun x => { x with lastId := [], nextId := [], ams := 0 }) s

/-! ### Charges (R331) -/

/-- The floor of a port in mW. -/
def floorMw (p : Port) : Nat := if p.val < 10 then 4500 else 2500

/-- A port's CAP in mW. -/
def capMw (s : State) (p : Port) : Nat := (pwrOf s p).pol.cap * 100

/-- What a contract charges. -/
def conMw (p : Port) (c : Contract) : Nat := if c.kind < 2 then floorMw p else max (floorMw p) (c.volt * c.cur / 1000)

/-- The power a port is charged, in mW (R331, R348). -/
def chargeMw (s : State) (p : Port) : Nat :=
  let x := pwrOf s p
  if x.frsArm then 5 * x.frsCur
  else if x.off0 && !isSource s p then x.offCharge
  else if !isSource s p then 0
  else if x.hr.isSome then floorMw p
  else max (conMw p x.con) ((x.newCon.map (conMw p)).getD 0)

/-! ### The allocator (R338, R339) -/

/-- A port takes part in the allocator: sourcing, shed, or armed for Fast Role Swap. -/
def inAlloc (s : State) (p : Port) : Bool := isSource s p || (pwrOf s p).shed || (pwrOf s p).frsArm

/-- What the allocator gives a port before its need. -/
def allocFloor (s : State) (p : Port) : Nat := if (pwrOf s p).frsArm then 5 * (pwrOf s p).frsCur else floorMw p

/-- The allocator's ports by priority, then port code. -/
def allocPorts (s : State) : List Port :=
  (List.range 8).flatMap (fun q => allPorts.filter (fun p => inAlloc s p && (pwrOf s p).pol.prio == q))

/-- Ports shed from the last while their floors do not fit: those kept (last first), those shed, and what is left. -/
def shedLast (s : State) (left : Int) : List Port → List Port × List Port × Int
  | [] => ([], [], left)
  | p :: t => if left < 0 then let r := shedLast s (left + allocFloor s p) t; (r.1, p :: r.2.1, r.2.2) else (p :: t, [], left)

/-- Grants given in order from what is left. -/
def giveNeeds (s : State) : Nat → List Port → List (Port × Nat)
  | _, [] => []
  | left, p :: t =>
    let want := min (pwrOf s p).need (capMw s p) - allocFloor s p
    let give := min want left
    (p, allocFloor s p + give) :: giveNeeds s (left - give) t

/-- allocate_lane_budget (R338): the new grants and the ports shed. -/
def allocate (s : State) : List (Port × Nat) × List Port :=
  let ps := allocPorts s
  let left : Int := (s.lane.budget : Int) - ((ps.map (allocFloor s)).foldl (· + ·) 0 : Nat)
  let r := shedLast s left ps.reverse
  (giveNeeds s r.2.2.toNat r.1.reverse, r.2.1)

/-- The unallocated budget (R338), below 0 while reductions are outstanding. -/
def unallocInt (s : State) : Int :=
  (s.lane.budget : Int) -
    ((allPorts.map (fun p => max (chargeMw s p) (if inAlloc s p then (pwrOf s p).grant else 0))).foldl (· + ·) 0 : Nat)

/-- The unallocated budget as it is reported and offered. -/
def unalloc (s : State) : Nat := (unallocInt s).toNat

/-- The available power A of a port's offers (R332). -/
def availMw (s : State) (p : Port) : Nat := min (capMw s p) ((pwrOf s p).grant + unalloc s)

/-- A reduction of R339 is outstanding. -/
def reducing (s : State) : Bool := allPorts.any (fun p => (pwrOf s p).reduce.isSome)

/-- A CONTRACT event (R470). -/
def contractEvent (p : Port) (kind : Nat) (c : Contract) (s : State) : State :=
  eventOn (ringsOf s p) 0xFF07
    (le 1 (portCode p) ++ le 1 kind ++ [0, 0] ++ le 8 s.now ++ le 4 c.volt ++ le 4 c.cur) s

/-! ### The stage behind PSC (R340–R346) -/

/-- OVP of a steady contract in mV (R344). -/
def ovpMv (c : Contract) : Nat := c.volt * 110 / 100 + 500

/-- UVP of a steady contract in mV (R344). -/
def uvpMv (c : Contract) : Nat := if c.kind = 3 then 2800 else c.volt * 90 / 100 - 500

/-- Both limits of the stage written, each comparator threshold 1.0 V further out (R344). -/
def writeLimits (p : Port) (ov uv : Nat) (s : State) : State :=
  emit (.stage p 0x44 (uv - 1000)) (emit (.stage p 0x40 (ov + 1000)) (modPwr p (fun x => { x with ov := ov, uv := uv }) s))

/-- VOUT_COMMAND written. -/
def writeVolt (p : Port) (mv : Nat) (s : State) : State := emit (.stage p 0x21 mv) (modPwr p (fun x => { x with vout := mv }) s)

/-- The implicit contract's current at an Rp level (R331, R340). -/
def rpCur (p : Port) (rp : Nat) : Nat := match rp with
  | 0 => if p.val < 10 then 900 else 500
  | 1 => 1500
  | _ => 3000

/-- The stage's current limit of a contract (R340). -/
def writeOc (p : Port) (c : Contract) (s : State) : State :=
  let lim := if c.kind = 3 then c.cur else (if c.kind < 2 then rpCur p (tcOf s p).rp else c.pdoCur) * 11 / 10
  let resp := if c.kind = 3 then 0 else 0xC0
  emit (.stage p 0x47 resp) (emit (.stage p 0x46 lim) (modPwr p (fun x => { x with ocLimit := lim, ocResp := resp }) s))

/-- VCONN of a port off. -/
def vconnOff (p : Port) (s : State) : State :=
  let t := tcOf s p
  if !t.vconn then modTc p (fun t => { t with vconnAt := none, discAt := none }) s
  else emit (.frontEnd p (if t.flip then 3 else 4) false)
    (modTc p (fun t => { t with vconn := false, vconnAt := none, discAt := none }) s)

/-- VCONN to the pin that does not carry Rd (R312). -/
def vconnOn (p : Port) (s : State) : State :=
  emit (.frontEnd p (if (tcOf s p).flip then 3 else 4) true)
    (modTc p (fun t => { t with vconn := true, vconnAt := some s.now }) s)

/-- PSC low (R345, R346): the source switch opens, VCONN goes off, VBUS discharges, and the stage is set back to 5.0 V. -/
def pscLow (p : Port) (s : State) : State :=
  if !(pwrOf s p).psc then vconnOff p s
  else
    let s1 := vconnOff p (modPwr p (fun x => { x with psc := false, discharge := !x.snkEn, trans := none }) s)
    writeLimits p 6000 4000 (writeVolt p 5000 s1)

/-- PSC may rise: PSF low, the port not fenced, VDDIO_1V8 present, nothing shed, populated, the stage back at 5.0 V (R51, R57, R60, R345,
R346). -/
def pscMay (s : State) (p : Port) : Bool :=
  let x := pwrOf s p
  populated s p && !portFenced s p && !s.sup.ballsFloat && x.pol.on && !x.psf && !x.shed && !x.lost && !x.heldOff && x.vout == 5000

/-- PSC high at 5.0 V, with the source switch closed (R345, R346). -/
def pscHigh (p : Port) (s : State) : State :=
  if !pscMay s p then s
  else
    let s1 := match portDs p with | some d => overCurrentOff d s | none => s
    emit (.frontEnd p 0 true) (writeOc p {} (modPwr p (fun x => { x with psc := true, discharge := false }) s1))

/-! ### Carrying out a run (R339) -/

/-- What a reduction or any new offer asks of the port: its capabilities are due at a time. -/
def capsAt (p : Port) (t : Nat) (s : State) : State := modPwr p (fun x => { x with capsDue := some t }) s

/-- Contracts, transitions and negotiations of a port ended; the charge is held until VBUS is at vSafe0V (R331, R348). -/
def endContract (p : Port) (s : State) : State :=
  let c := chargeMw s p
  let on_ := (pwrOf s p).psc || decide ((pwrOf s p).vbs ≥ 800)
  modPwr p (fun x => { x with
    con := {}, newCon := none, need := 0, grant := 0, epr := false, caps := [], capsDue := none, capsCount := 0, hr := none
    mismatch := false, waited := false, reduce := none, frsArm := false, frs := none, swap := none, firstDone := false
    off0 := on_, offCharge := if on_ then c else 0 }) s

/-- The SuperSpeed pairs of a port that is in the other orientation (R42). -/
def flipSets (flip : Bool) (a b : List PairUse) : List PairUse := if flip then b ++ a else a ++ b

/-- A display input routed to a port whose Alt Mode or its entry ends (R372): HPD low, the crosspoint open, the event, and the final
completion of a DP_ROUTE that waits for the entry. -/
def dpLeaveOne (i : Fin 2) (cause : Nat) (s : State) : State :=
  let x := s.dp[i]
  match x.port with
  | none => s
  | some d =>
    if x.phase = 0 then s
    else
      let entered := x.phase == 7
      let y : DpIn := { x with
        phase := 0, assign := 0, due := none, hpdSeen := false, hpd := false, lowAt := none, irqAt := none, irqPend := false }
      let s0 := { s with dp := s.dp.set i y }
      let s1 := if entered then emit (.crosspoint d (flipSets (tcOf s0 (dsPort d)).flip [.ss 0, .ss 0] [.idle, .idle]) none) s0 else s0
      let skip := accRings (.dpRoute i) s1
      let s2 := if entered then s1 else finalCpl (.dpRoute i) stOk (le 1 1 ++ le 1 0 ++ le 1 cause ++ [0]) s1
      eventOn ((ringsOf s2 (dsPort d)).filter (· ∉ (if entered then [] else skip))) 0xFF0B
        (le 1 i.val ++ le 1 (dsCode d) ++ le 1 (if entered then 2 else 1) ++ le 1 cause ++ le 8 s.now) s2

/-- SuperSpeed of a port is withdrawn for pin assignment C, from Configure on (R43, R368). -/
def ssHeldByDp (s : State) (d : DS) : Bool :=
  s.dp.toList.any (fun x => x.port == some d && x.assign == 1 && decide (x.phase ≥ 6))

/-- The input whose Alt Mode has been entered on a port, with its assignment. -/
def dpOn (s : State) (d : DS) : Option (Fin 2 × Nat) :=
  if s.dp[(0 : Fin 2)].port == some d && s.dp[(0 : Fin 2)].phase == 7 then some (0, s.dp[(0 : Fin 2)].assign)
  else if s.dp[(1 : Fin 2)].port == some d && s.dp[(1 : Fin 2)].phase == 7 then some (1, s.dp[(1 : Fin 2)].assign)
  else none

/-- What the pairs TX1, RX1, TX2 and RX2 of a port carry, by its plug's orientation (R42, R43). US0 runs two lanes; elsewhere the orientation
mux selects the set that carries SuperSpeed. With assignment C all four carry DisplayPort, with D the set not selected for SuperSpeed. The order
of DisplayPort's lanes is that of VESA (PRESUMED, log entry 40). -/
def pairsOf (s : State) (p : Port) : List PairUse :=
  let flip := (tcOf s p).flip
  let ss (n : Nat) : List PairUse := [.ss n, .ss n]
  match portDs p with
  | none => if p.val = 0 then flipSets flip (ss 0) (ss 1) else flipSets flip (ss 0) [.idle, .idle]
  | some d =>
    if d.val ≥ 8 then []
    else match dpOn s d with
      | some (i, 1) => flipSets flip [.dp i 2, .dp i 3] [.dp i 1, .dp i 0]
      | some (i, _) => flipSets flip (ss 0) [.dp i 1, .dp i 0]
      | none => flipSets flip (ss 0) [.idle, .idle]

/-- A pair driven as an output: every TX pair, and an RX pair that carries DisplayPort, whose SuperSpeed receiver is disconnected (R43). -/
def pairOut (i : Nat) (u : PairUse) : Bool := decide (i % 2 = 0) || (match u with | .dp _ _ => true | _ => false)

/-- Alt Mode of a port ends (R372). -/
def dpLeave (p : Port) (cause : Nat) (s : State) : State :=
  match portDs p with
  | none => s
  | some d =>
    let go (i : Fin 2) (s : State) : State := if s.dp[i].port == some d then dpLeaveOne i cause s else s
    go 1 (go 0 s)

/-- Bits [1:0] of ROLES, VCONN and EPR mode as CONTRACT_STATUS gives them (R460). -/
def rolesByte (s : State) (p : Port) : Nat :=
  let t := tcOf s p
  if t.st == .attached then b2n t.src + 2 * b2n t.dfp + 4 * b2n t.vconn + 8 * b2n (pwrOf s p).epr else 0

/-- ROLE_SWAP of an upstream port completed with a result (R459). -/
def swapFinal (u : US) (result : Nat) (s : State) : State :=
  finalCpl (.roleSwap u) stOk (le 1 result ++ le 1 (rolesByte s (usPort u)) ++ [0, 0])
    (modPwr (usPort u) (fun x => { x with swap := none }) s)

/-- A swap under way ends without success (R354). -/
def swapFail (p : Port) (s : State) : State :=
  match portUs p with
  | some u => swapFinal u 4 s
  | none => s

/-- The data lines of a port whose VBUS goes (R289): a DS port's device detaches; an upstream hub disconnects. -/
def dataOff (p : Port) (s : State) : State :=
  match portDs p, portUs p with
  | some d, _ => detachData d true true (modDs d (fun x => { x with watch := false }) s)
  | _, some u => hubDisconnect u s
  | _, _ => s

/-- A port's power taken away (R361, R521, shed): PSC low, its contract ended, its device detached. -/
def cutPower (p : Port) (s : State) : State :=
  let s1 := swapFail p (dpLeave p 4 s)
  dataOff p (flushPd p 3 (pscLow p (endContract p s1)))

/-- A port back to its unattached state. -/
def toUnattached (p : Port) (s : State) : State :=
  modTc p (fun t => { t with st := .unattached, lossAt := none, since := s.now, src := false, dfp := false, rp := 0
                             sinkTxNg := false, debugAcc := false, cable := {}, discTries := 0, discAt := none, discDone := false
                             vbus5At := none, errAt := none, waitCounted := false, preCheck := false }) s

/-- ErrorRecovery (R306): both CC pins open, VBUS and VCONN off for tErrorRecovery. -/
def errorRecovery (p : Port) (s : State) : State :=
  let s1 := cutPower p s
  modTc p (fun t => { t with st := .errorRecovery, errAt := some s.now }) (toUnattached p s1)

/-- A port shed by the allocator (R338): switched off with its POWER state kept. -/
def shedPort (p : Port) (s : State) : State :=
  if (pwrOf s p).shed then s
  else if (pwrOf s p).frsArm then modPwr p (fun x => { x with frsArm := false, grant := 0 }) (pscLow p s)
  else
    let c := (pwrOf s p).con
    let s1 := toUnattached p (cutPower p s)
    contractEvent p 2 c (modPwr p (fun x => { x with shed := true }) s1)

/-- A new grant put in force: a lower one at once, with a reduction where the charge exceeds it; a higher one waits while any reduction
is outstanding (R339). -/
def setGrant (p : Port) (g : Nat) (s : State) : State :=
  let x := pwrOf s p
  if g < x.grant ∨ chargeMw s p > g then
    let need_ := decide (chargeMw s p > g) && !x.frsArm && explicit s p && x.reduce.isNone
    let s1 := modPwr p (fun x => { x with grant := g, reduce := if need_ then some (0, s.now) else x.reduce }) s
    if need_ && rev3 s p then modTc p (fun t => { t with sinkTxNg := true }) s1 else s1
  else if g = x.grant then s
  else if reducing s then { s with lane := { s.lane with raise := true } }
  else
    let was := decide (x.grant < x.need)
    let s1 := modPwr p (fun x => { x with grant := g }) s
    if was && explicit s p && x.con.kind != 0 then contractEvent p 3 x.con (capsAt p s.now s1) else s1

/-- Ports of a run whose grant falls first, then those whose grant rises. -/
def applyGrants (l : List (Port × Nat)) (s : State) : State :=
  let down := l.filter (fun e => e.2 < (pwrOf s e.1).grant || decide (chargeMw s e.1 > e.2))
  let up := l.filter (fun e => !(e.2 < (pwrOf s e.1).grant || decide (chargeMw s e.1 > e.2)))
  up.foldl (fun s e => setGrant e.1 e.2 s) (down.foldl (fun s e => setGrant e.1 e.2 s) s)

/-- A shed port that the run keeps returns by a fresh attach (R338, R521). -/
def unshed (p : Port) (s : State) : State :=
  if !(pwrOf s p).shed then s
  else
    let s1 := modPwr p (fun x => { x with shed := false, grant := 0 }) s
    let s2 := contractEvent p 3 {} s1
    if sinkPattern (tcOf s p).pattern then modTc p (fun t => { t with st := .errorRecovery, errAt := some s.now }) s2 else s2

/-- A run of the allocator (R338, R339); frozen in SAFE (R356). -/
def runAlloc (s : State) : State :=
  if safeHolds s then s
  else
    let r := allocate s
    let s1 := r.2.foldl (fun s p => shedPort p s) s
    let back := r.1.filter (fun e => (pwrOf s e.1).shed)
    let s2 := applyGrants (r.1.filter (fun e => !(pwrOf s e.1).shed)) s1
    back.foldl (fun s e => unshed e.1 s) s2

/-- The ports shown as shed, bit k for port index k (R459). -/
def shedMask (s : State) : Nat := (allPorts.map (fun p => b2n (pwrOf s p).shed * 2 ^ p.val)).foldl (· + ·) 0

/-- POWER_BUDGET_SET's final completion (R330, R459), once no reduction is outstanding. -/
def budgetDone (s : State) : State :=
  if reducing s then s else finalCpl .budget stOk (le 2 (unalloc s / 100) ++ [0, 0] ++ le 4 (shedMask s)) s

/-- A reduction that reached PS_RDY or Hard Reset (R339): with the last of them grants rise and POWER_BUDGET_SET completes. -/
def reduced (p : Port) (s : State) : State :=
  if (pwrOf s p).reduce.isNone then s
  else
    let s1 := modPwr p (fun x => { x with reduce := none }) s
    if reducing s1 then s1
    else
      let s2 := if s1.lane.raise then runAlloc { s1 with lane := { s1.lane with raise := false } } else s1
      budgetDone s2

/-- A run after an event on a port, and the reductions looked at again. -/
def powerRun (s : State) : State := runAlloc s

/-- ErrorRecovery of a port, its reduction ended and the allocator run. -/
def recover (p : Port) (s : State) : State :=
  let was := (pwrOf s p).reduce
  runAlloc (reduced p (modPwr p (fun x => { x with reduce := was }) (errorRecovery p s)))

/-! ### Hard Reset (R327, R347, R354) -/

/-- EPR mode ends (R333). -/
def eprEnd (p : Port) (s : State) : State :=
  if (pwrOf s p).epr then contractEvent p 6 (pwrOf s p).con (modPwr p (fun x => { x with epr := false }) s) else s

/-- The power role of an upstream port back to its initial one, where a Hard Reset ends a swap (R354). -/
def initialRole (p : Port) (s : State) : State :=
  let t := tcOf s p
  if (portUs p).isNone || (pwrOf s p).swap.isNone || t.st != .attached || t.src == t.initSrc then s
  else if t.initSrc then
    emit (.frontEnd p 1 false) (modPwr p (fun x => { x with snkEn := false }) (modTc p (fun t => { t with src := true }) s))
  else
    emit (.frontEnd p 1 true)
      (modPwr p (fun x => { x with snkEn := true, need := 0, grant := 0 }) (modTc p (fun t => { t with src := false, rp := 0 }) (pscLow p s)))

/-- A Hard Reset on a port, sent or received: FIFOs flushed, the protocol layer reset, a swap ended, Alt Mode ended; as source the charge
falls to the floor and tPSHardReset runs. After nHardResetCount without a contract the port enters ErrorRecovery. -/
def hardReset (p : Port) (s0 : State) : State :=
  let s := initialRole p s0
  let x := pwrOf s p
  let s1 := contractEvent p 4 x.con (eprEnd p (dpLeave p 5 (swapFail p (resetPd p (flushPd p 4 s)))))
  let s2 := modPwr p (fun x => { x with newCon := none, con := {}, mismatch := false, waited := false, capsDue := none, capsCount := 0
                                        frsArm := false, frs := none, trans := none }) s1
  if isSource s p then
    if x.hardCount ≥ 2 then recover p (modPwr p (fun x => { x with hardCount := 0 }) s2)
    else
      let s3 := modPwr p (fun x => { x with hr := some (1, s.now), hardCount := x.hardCount + 1, con := { kind := 1, volt := 5000 } }) s2
      let s4 := match portUs p with
        | some u => hubDisconnect u (modTc p (fun t => { t with dfp := true }) s3)
        | none => s3
      reduced p s4
  else
    match portUs p with
    | some u => modTc p (fun t => { t with dfp := false }) (if (tcOf s p).dfp then hubDisconnect u s2 else s2)
    | none => s2

/-- Hard Reset sent by PHY command (R315, R347). -/
def sendHardReset (p : Port) (s : State) : State := hardReset p (emit (.hardReset p) s)

/-! ### Detach (R302, R306, R309, R348) -/

/-- The upstream partner is gone (R245, R283). -/
def partnerGone (p : Port) (s : State) : State := match portUs p with
  | some u => hostLost u s
  | none => s

/-- A detach on CC: VBUS discharged, VCONN off, FIFOs flushed, the device detached, and the allocator run. -/
def detachPort (p : Port) (s : State) : State :=
  let was := (pwrOf s p).reduce
  let s1 := cutPower p s
  let s2 := modPwr p (fun x => { x with reduce := was, hardCount := 0, lost := false, snkEn := false }) s1
  let s3 := reduced p (toUnattached p (modPhy p (fun x => { x with rev := 3, lastId := [], nextId := [] }) s2))
  runAlloc (partnerGone p s3)

/-! ### Power lost and given back (R113, R263, R329, R521) -/

/-- A source port loses its power (R521): PSC low at once, no detach in transition, its device detached; it is charged 0 from vSafe0V. -/
def portOff (p : Port) (s : State) : State :=
  if isSource s p then
    let was := (pwrOf s p).reduce
    let s1 := toUnattached p (cutPower p s)
    let s2 := modPwr p (fun x => { x with lost := true, reduce := was }) s1
    runAlloc (reduced p s2)
  else modPwr p (fun x => { x with lost := true }) (pscLow p s)

/-- The fresh attach of a port that lost its power (R521), once POWER is ON and its owner's PORT_POWER is set. -/
def repower (p : Port) (s : State) : State :=
  let x := pwrOf s p
  let slotOn := match portDs p with
    | some d => (match owningSlot s d with | some (u, v) => (slotSt s u v).power | none => true)
    | none => true
  if (!x.lost && !x.heldOff) || !x.pol.on || !slotOn then s
  else
    let s1 := modPwr p (fun x => { x with lost := false, heldOff := false, ocTimes := [] }) s
    if sinkPattern (tcOf s p).pattern && (tcOf s p).st == .unattached then
      modTc p (fun t => { t with st := .errorRecovery, errAt := some s.now }) s1
    else s1

/-! ### Offers (R332–R334) -/

/-- A value rounded down to steps. -/
def stepDown (x n : Nat) : Nat := x / n * n

/-- A fixed PDO of mV and mA. -/
def pdoFixed (mv ma : Nat) : Nat := mv / 50 * 2 ^ 10 + ma / 10

/-- The current that a power allows at a voltage. -/
def maAt (mw mv : Nat) : Nat := mw * 1000 / mv

/-- EPR may be entered on the port, but for the contract that must be in place (R333). -/
def eprCapable (s : State) (p : Port) : Bool :=
  bit (pwrOf s p).pol.offer 1 && rev3 s p && (tcOf s p).cable.epr && !safeHolds s

/-- Position 1, the 5 V PDO (R332). -/
def pdo5 (s : State) (p : Port) (a : Nat) : Nat :=
  let i := max 500 (stepDown (min 3000 (min (tcOf s p).cable.cur (maAt a 5000))) 10)
  let ma := if capMw s p < floorMw p then 500 else i
  pdoFixed 5000 ma + 2 ^ 26 + (if (portUs p).isSome then 2 ^ 29 + 2 ^ 25 else 0) + (if eprCapable s p then 2 ^ 23 else 0)

/-- Positions 2–4: a fixed PDO, where its condition holds. -/
def pdoSpr (s : State) (p : Port) (a mv : Nat) : Option Nat :=
  let i := stepDown (min (tcOf s p).cable.cur (min (if mv = 20000 then 5000 else 3000) (maAt a mv))) 10
  if i ≥ 500 then some (pdoFixed mv i) else none

/-- Positions 5–7: a PPS APDO. -/
def pdoPps (s : State) (p : Port) (a vmax : Nat) : Option Nat :=
  let i := stepDown (min (tcOf s p).cable.cur (min 5000 (maAt a vmax))) 50
  if bit (pwrOf s p).pol.offer 0 && rev3 s p && decide (i ≥ 500) then
    some (3 * 2 ^ 30 + 2 ^ 27 + vmax / 100 * 2 ^ 17 + 33 * 2 ^ 8 + i / 50)
  else none

/-- Positions 8–10: an EPR fixed PDO. -/
def pdoEpr (s : State) (p : Port) (a mv : Nat) : Option Nat :=
  let i := stepDown (min (tcOf s p).cable.cur (min 5000 (maAt a mv))) 10
  if decide (i ≥ 500) && decide (mv ≤ (tcOf s p).cable.volt * 1000) && (decide (mv = 28000) || (portDs p).isSome) then
    some (pdoFixed mv i) else none

/-- Position 11: the EPR AVS APDO. -/
def pdoAvs (s : State) (p : Port) (a : Nat) : Option Nat :=
  let pdp := min 240 (min (a / 1000) ((tcOf s p).cable.cur * 48 / 1000))
  if bit (pwrOf s p).pol.offer 2 && (portDs p).isSome && decide (pdp ≥ 15) && decide ((tcOf s p).cable.volt ≥ 48) then
    some (3 * 2 ^ 30 + 2 ^ 28 + 480 * 2 ^ 17 + 150 * 2 ^ 8 + pdp) else none

/-- The seven SPR positions. -/
def sprPdos (s : State) (p : Port) (a : Nat) : List (Option Nat) :=
  [some (pdo5 s p a), pdoSpr s p a 9000, pdoSpr s p a 15000, pdoSpr s p a 20000, pdoPps s p a 11000, pdoPps s p a 16000,
   pdoPps s p a 21000]

/-- The four EPR positions. -/
def eprPdos (s : State) (p : Port) (a : Nat) : List (Option Nat) :=
  [pdoEpr s p a 28000, pdoEpr s p a 36000, pdoEpr s p a 48000, pdoAvs s p a]

/-- A list without its zeros at the end. -/
def trimZeros (l : List Nat) : List Nat := (l.reverse.dropWhile (· == 0)).reverse

/-- The objects offered (R332): in EPR mode the positions left out read 0, so that each stands at its own. -/
def offered (s : State) (p : Port) (a : Nat) : List Nat :=
  if (pwrOf s p).epr then trimZeros ((sprPdos s p a ++ eprPdos s p a).map (fun x => x.getD 0))
  else (sprPdos s p a).filterMap id

/-- Rp after Attached.SRC (R334): 3.0 A from 15 W, 1.5 A from 7.5 W; DS1–DS8 hold the default while charged only the floor. -/
def rpLevel (s : State) (p : Port) : Nat :=
  if 2 ≤ p.val ∧ p.val < 10 then 0
  else if availMw s p ≥ 15000 then 2 else if availMw s p ≥ 7500 then 1 else 0

/-- The provisional need at attach (R338); in SAFE a new attach is offered its floor (R356). -/
def provisional (p : Port) (s : State) : State :=
  if safeHolds s then modPwr p (fun x => { x with need := floorMw p, grant := floorMw p }) s
  else
    let u := (s.lane.budget : Int) - ((allPorts.map (fun q => if q = p then floorMw p
      else max (chargeMw s q) (if inAlloc s q then (pwrOf s q).grant else 0))).foldl (· + ·) 0 : Nat)
    runAlloc (modPwr p (fun x => { x with need := min (capMw s p) (floorMw p + u.toNat) }) s)

/-! ### What an unattached port sees (R305, R307, R308) -/

/-- A port may attach as source now: powered, its slot's power on, neither shed nor held off nor held open by the guard. -/
def attachMay (s : State) (p : Port) : Bool :=
  let slotOn := match portDs p with
    | some d => (match owningSlot s d with | some (u, v) => (slotSt s u v).power | none => true)
    | none => bit (pwrOf s p).pol.roles 1
  pscMay s p && slotOn && !(guardOf s p).hold

/-- The accessory code of a pattern (R307, R452). -/
def accessoryOf (c : CcPattern) : Nat := match c with
  | .raBoth => 1
  | .rdBoth => 2
  | _ => 0

/-- A pattern seen on an unattached DS port (R305, R307). -/
def dsSees (p : Port) (c : CcPattern) (s : State) : State :=
  let acc := accessoryOf c
  let s1 := modTc p (fun t => { t with accessory := acc }) s
  if acc ≠ 0 ∧ acc ≠ (tcOf s p).accessory then
    let s2 := portEvent p 6 [] [] s1
    if acc = 2 ∧ s.pmu.service = true ∧ attachMay s p = true then
      modTc p (fun t => { t with st := .waitSrc, since := s.now, lossAt := none, debugAcc := true }) s2
    else s2
  else if sinkPattern c && attachMay s p then
    modTc p (fun t => { t with st := .waitSrc, since := s.now, lossAt := none, debugAcc := false }) s1
  else s1

/-- A pattern seen on an unattached upstream port, by the termination it presents (R308). -/
def usSees (p : Port) (c : CcPattern) (s : State) : State :=
  let t := tcOf s p
  if t.drpSrc && sinkPattern c && attachMay s p then
    modTc p (fun t => { t with st := .waitSrc, since := s.now, lossAt := none }) s
  else if !t.drpSrc && c == .rp && bit (pwrOf s p).pol.roles 0 then
    modTc p (fun t => { t with st := .waitSnk, since := s.now, lossAt := none }) s
  else s

end Sys2Proof.Machine
end

