-- ==== Sys2Proof/Machine/TestOps.lean ====
section
/-! DEFINITION. The ends of loopbacks and pattern tests (R487, R493, R494, R499), as other families bring them about. -/

set_option Elab.async false

namespace Sys2Proof.Machine

/-- A loopback ended with its final completion (R465, R487); a link that was REMOTE retrains from Rx.Detect (R488). -/
def endLoop (unit bits errors status : Nat) (s : State) : State :=
  match tabGet s.test.loops unit with
  | none => s
  | some l =>
    let s1 := { s with test := { s.test with loops := tabDel s.test.loops unit } }
    let s2 := match (codePort (if unit < 2 then 0x10 + unit else 0x1F + unit)).bind portDs with
      | some d => if l.depth = 4 then modDs d (fun x => { x with link := .rxDetect, gen := 0 }) s1 else s1
      | none => s1
    finalCpl (.loopback unit) status (le 8 bits ++ le 4 errors ++ le 4 0) s2

/-- A loopback ended before its DURATION: the counts gathered so far are values that the spec leaves open (log entry 3). -/
def cutLoop (unit status : Nat) (s : State) : State :=
  endLoop unit (Config.freeNat s.freeSeq) (Config.freeNat (s.freeSeq + 1)) status { s with freeSeq := s.freeSeq + 2 }

/-- A tested range filled with zeros as it is released (R493): each word is written anew, with check bytes and tags that match. -/
def zeroFill (dmc : Bool) (p : Pat) (m : MemBlk) : MemBlk :=
  let inDram (unit : Nat) : Bool := decide (p.start ≤ unit * 48 ∧ unit * 48 < p.start + p.bytes)
  if dmc then
    { m with dramErr := m.dramErr.filter (fun e => !inDram (e.1 / 12)), tagErr := m.tagErr.filter (fun e => !inDram e.1)
             dramSeen := m.dramSeen.filter (fun k => !inDram (k / 12)) }
  else
    { m with pkbErr := m.pkbErr.filter (fun e => !p.tested.contains (e.1 / 32)), pkbSeen := m.pkbSeen.filter (fun k => !p.tested.contains (k / 32)) }

/-- A pattern test ended with its final completion (R465, R493): its range is filled with zeros and returns to allocation. -/
def endPattern (dmc : Bool) (errors first status : Nat) (s : State) : State :=
  let pay := le 4 errors ++ le 4 0 ++ le 8 first
  if dmc then
    (match s.test.dmc with
     | some p => finalCpl (.pattern .dmc) status pay { s with test := { s.test with dmc := none }, memb := zeroFill true p s.memb }
     | none => s)
  else
    (match s.test.pkb with
     | some p => finalCpl (.pattern .pkb) status pay { s with test := { s.test with pkb := none }, memb := zeroFill false p s.memb }
     | none => s)

/-- A pattern test ended early: on DMC the counts so far are values that the spec leaves open, on PKB those of the cells tested. -/
def cutPattern (dmc : Bool) (status : Nat) (s : State) : State :=
  if dmc then
    endPattern true (Config.freeNat s.freeSeq) (Config.freeNat (s.freeSeq + 1)) status { s with freeSeq := s.freeSeq + 2 }
  else
    match s.test.pkb with
    | some p => endPattern false p.errors p.first status s
    | none => s

/-- A loopback's unit is fenced: its port, or DPX in any of its units. -/
def loopFenced (s : State) (unit : Nat) : Bool :=
  if unit ≥ 18 then (fltRec s .dpx).reset || !(fltRec s .dpx).fenced.isEmpty
  else match codePort (if unit < 2 then 0x10 + unit else 0x1F + unit) with
    | some p => portFenced s p
    | none => false

/-- Tests whose unit a fault has fenced end with UNIT_FENCED (R499). -/
def testFences (s : State) : State :=
  let s1 := (s.test.loops.filter (fun l => loopFenced s l.1)).foldl (fun s l => cutLoop l.1 stFenced s) s
  if s1.test.pkb.isSome && blockFenced s1 .pkb then cutPattern false stFenced s1 else s1

/-- SERVICE has ended: every test ends at once with the counts so far (R499). -/
def serviceTestsEnd (s : State) : State :=
  let s1 := s.test.loops.foldl (fun s l => cutLoop l.1 stOk s) s
  let s2 := if s1.test.dmc.isSome then cutPattern true stOk s1 else s1
  if s2.test.pkb.isSome then cutPattern false stOk s2 else s2

/-- Tests end without a final completion, by SAFE or a restart (R499). -/
def dropTests (s : State) : State := { s with test := { jtag := s.test.jtag, cells := s.test.cells } }

end Sys2Proof.Machine
end

