-- ==== Sys2Proof/Machine/Reactions.lean ====
section
/-! DEFINITION. What a fault's reaction, a FENCE and a re-admission do outside the fault records: fenced ports, engines, memory, contexts and
routes (R55, R99, R100, R233, R302, R408, R411–R414, R417). -/

set_option Elab.async false

namespace Sys2Proof.Machine

/-! ### Data lost with an uncorrectable word (R21, R99, R323, R408) -/

/-- A PD message lost to an uncorrectable stage (R323): the RX side's first, or the TX side's, which completes with FLUSHED. -/
def losePd (p : Port) (tx : Bool) (s : State) : State :=
  if tx then
    if (phyOf s p).tx.isEmpty then s else notice p (.txDone 3) (modPhy p (fun x => { x with tx := x.tx.drop 1 }) s)
  else modPhy p (fun x =>
    let ns := match x.notices.findIdx? (fun n => match n with | .rxMsg _ _ => true | _ => false) with
      | some i => x.notices.eraseIdx i
      | none => x.notices
    { x with rx := x.rx.drop 1, notices := ns }) s

/-- A stage of the message at the RX FIFO's head was corrected (R323): which stage is free. -/
def correctPd (p : Port) (s : State) : State :=
  match (phyOf s p).rx with
  | [] => s
  | m :: l =>
    let i := Config.freeNat s.freeSeq % pdWords m
    modPhy p (fun x => { x with rx := { m with ce := if bit m.ce i then m.ce else m.ce + 2 ^ i } :: l }) { s with freeSeq := s.freeSeq + 1 }

/-- The payload that crosses a port's link now is lost with a word of a crossing queue (R21). DESIGN CHOICE: it is counted as MEMORY_UC
(log entry 92). -/
def loseCrossing (p : Port) (s : State) : State :=
  match (linkOf s p).rx with
  | some r => if r.disp == .drop then s
    else modLink p (fun l => { l with rx := some { r with disp := .drop } }) (countDiscard p r.epq 7 s)
  | none => s

/-- What an error in a DRAM page loses: that of the unit it lies in, where that is known, else of a free one of the page. -/
def loseInPage (at_ : Option Nat) (page : Nat) (regions : List Nat) (s : State) : State :=
  match at_ with
  | some n => loseUnit n s
  | none => match pickUnit s page regions with
    | some n => loseUnit n { s with freeSeq := s.freeSeq + 1 }
    | none => s

/-- What an error loses, whatever reaction it takes; at_ is the DRAM unit in which it lies, where that is known. -/
def dataLost (at_ : Option Nat) (b : Block) (src unit : Nat) (s : State) : State :=
  match b, src with
  | .almanac, 9 => { s with alm := { s.alm with lost := if unit ∈ s.alm.lost then s.alm.lost else s.alm.lost ++ [unit] } }
  | .pkb, 9 => loseCell unit s
  | .dmc, 10 => loseInPage at_ unit [2, 5] s
  | .dmc, 11 => loseCtx unit s
  | .dmc, 12 => loseInPage at_ unit [4] s
  | .vigil, 8 => releaseCtx unit 7 s
  | .us u, 1 => loseCrossing (usPort u) s
  | .ds d, 1 => loseCrossing (dsPort d) s
  | .us u, 8 => correctPd (usPort u) s
  | .ds d, 8 => correctPd (dsPort d) s
  | .us u, 9 => losePd (usPort u) (unit == 1) s
  | .ds d, 9 => losePd (dsPort d) (unit == 1) s
  | _, _ => s

/-! ### Units that are fenced and re-admitted -/

/-- The ports that forward something now (R34): populated, with a device, or with a host. -/
def fwdPorts (s : State) : List Nat :=
  (allDs.filter (fun d => populated s (dsPort d) && devicePresent s d)).map dsCode ++
    ([US.us0, US.us1].filter (fun u => populated s (usPort u) && ((hubOf s u).state == .attached || (hubOf s u).state == .suspended))).map
      usCode

/-- A port newly fenced (R55, R413): its hub shows the device disconnected; SuperSpeed is EI and USB 2.0 idle; its VBUS goes where the
fence takes it. The Bools say what had been shown. -/
def fencePort (p : Port) (was2 was3 cut : Bool) (s : State) : State :=
  let s1 := match portDs p, portUs p with
    | some d, _ =>
      let a := if was2 then chgPort d false .connection s else s
      let b := if was3 then chgPort d true .connection a else a
      let c := ttClear d (dropPort d b)
      modDs d (fun x => { x with
        enable := false, resetAt := none, chirpAt := none, l1 := false, l1Exit := none, ssReset := none, u3Exit := none
        rxDet := false, shown3 := false, gen := 0, link := if x.link == .disabled then .disabled else .rxDetect }) c
    | _, some u => dropHost u (hubDisconnect u s)
    | _, _ => s
  if cut && (tcOf s p).st == .attached then toUnattached p (cutPower p s1) else if cut then pscLow p s1 else s1

/-- A port re-admitted: presented again, or, where its fence took VBUS, attached afresh through ErrorRecovery (R413). -/
def readmitPort (p : Port) (cut : Bool) (s : State) : State :=
  if cut then
    if sinkPattern (tcOf s p).pattern then modTc p (fun t => { t with st := .errorRecovery, errAt := some s.now }) s else s
  else
    match portDs p, portUs p with
    | some d, _ => if (dsOf s d).shown2 && presentable s d then chgPort d false .connection s else s
    | _, some u =>
      if (tcOf s p).st == .attached && !(tcOf s p).dfp && !safeHolds s && s.pmu.reported != .boot then hubConnect u s else s
    | _, _ => s

/-- THYME_READMISSION (R302): a detach that the hardware guard saw is carried out, Soft_Reset goes out on every contracted port, and what an
unattached port's CC shows is looked at. -/
def thymeBack (t : Fin 6) (s : State) : State :=
  (allPorts.filter (fun p => portThy p == t)).foldl (fun s p =>
    if (tcOf s p).guardDetached then detachPort p (modTc p (fun x => { x with guardDetached := false }) s)
    else if explicit s p then
      modPhy p (fun x => { x with ams := 2, amsAt := s.now }) (pdCtl p 13 (resetPd p s))
    else if (tcOf s p).st == .unattached && populated s p then
      (if (portDs p).isSome then dsSees p (tcOf s p).pattern s else usSees p (tcOf s p).pattern s)
    else s) s

/-- Every Thyme. -/
def allThy : List (Fin 6) := [0, 1, 2, 3, 4, 5]

/-- The ports and engines that a change of the fault records fenced (R55, R233, R412), and the tests that it ends (R499). -/
def spreadFences (s0 : State) (cut forced : Bool) (s : State) : State :=
  let ports := allPorts.filter (fun p => portFenced s p && !portFenced s0 p)
  let chvs := allChv.filter (fun c => chvFenced s c && !chvFenced s0 c)
  let stop := ports.map portCode ++
    (s0.epqs.filter (fun e => match e.2.chv with | some c => chvs.contains c | none => false)).map (fun e => dsCode e.2.port)
  let s1 := availStop (stop.filter (fun c => (fwdPorts s0).contains c)) forced s
  let s2 := ports.foldl (fun s p =>
    let w := match portDs p with
      | some d => (presentable s0 d && (dsOf s0 d).shown2, presentable s0 d && (dsOf s0 d).shown3)
      | none => (false, false)
    fencePort p w.1 w.2 cut s) s1
  modeSync (testFences (chvs.foldl (fun s c => rePlace c s) s2))

/-- A fence of a block's record took VBUS away from a port (R413). -/
def cutBy (s : State) (p : Port) : Bool :=
  (fltRec s (portBlock p)).fenced.any (·.vbusOff) ||
    (fltRec s .psl).fenced.any (fun f => f.unit == .portOf (portCode p) || f.unit == .whole) ||
    (fltRec s .adc).fenced.any (fun f => f.unit == .channel (portCode p) || f.unit == .whole)

/-- The ports, engines and rings that a change of the fault records re-admitted (R236, R302, R413, R414, R439). DESIGN CHOICE: queues without a
place go to a re-admitted Chervil at once, by R235, before the rebuild of R236 (log entry 94). -/
def spreadReadmits (s0 s : State) : State :=
  let s1 := (allPorts.filter (fun p => portFenced s0 p && !portFenced s p)).foldl (fun s p => readmitPort p (cutBy s0 p) s) s
  let chvs := allChv.filter (fun c => chvFenced s0 c && !chvFenced s c)
  let s2 := if chvs.isEmpty then s1 else settle (placeUnplaced (modPlace (fun p => { p with readmitted := true }) s1))
  let s3 := (allThy.filter (fun t => blockFenced s0 (.thy t) && !blockFenced s (.thy t))).foldl (fun s t => thymeBack t s) s2
  let rings := ([0, 1, 2, 3, 4, 5, 6, 7] : List (Fin 8)).filter (fun k =>
    [k.val, k.val + 8].any (fun n => unitFenced s0 .mbx (.ring n) && !unitFenced s .mbx (.ring n)))
  let s4 := { s3 with mbx := rings.foldl (fun m k => ringReset s3.now (presentAll s3) k m) s3.mbx }
  modeSync (settle s4)

/-- PSC driven low on every port (R413, R417): contracts end. -/
def allPscLow (s : State) : State :=
  allPorts.foldl (fun s p => if isSource s p then toUnattached p (cutPower p s) else pscLow p s) s

/-- A kick output driven low at once (R408). -/
def kickLow (i : Fin 2) (s : State) : State :=
  { s with lio := { s.lio with kick := s.lio.kick.set i { s.lio.kick[i] with pulse := none } } }

/-- What a UC's unit, or an FT's block, stops besides ports and engines. -/
def unitEffects (b : Block) (ft : Bool) (unit : Nat) (s : State) : State :=
  match b with
  | .dpx => if ft then dpLeaveOne 1 1 (dpLeaveOne 0 1 s) else if unit = 0 then dpLeaveOne 0 1 s else dpLeaveOne 1 1 s
  | .lio => if ft then kickLow 1 (kickLow 0 s) else if unit = 0 then kickLow 0 s else kickLow 1 s
  | .cru =>
    let s1 := { s with clk := { s.clk with ssPllLock := false } }
    allDs.foldl (fun s d => if (dsOf s d).link == .disabled then s else detachData d false true s)
      (modUs .us1 (fun x => { x with link := .rxDetect, gen := 0 }) (modUs .us0 (fun x => { x with link := .rxDetect, gen := 0 }) s1))
  | .psl | .adc => if ft then allPscLow s else s
  | _ => s

/-- The ports that a fenced unit other than a port or an engine keeps from forwarding (R34). -/
def unitStops (b : Block) (ft : Bool) (unit : Nat) (s : State) : List Nat :=
  match b with
  | .pkb | .fab => if ft then fwdPorts s else []
  | .sched | .place => if ft then fwdPorts s else match epqOf s unit with | some e => [dsCode e.port] | none => []
  | .psl | .adc => if ft then fwdPorts s else []
  | .cru => (allDs.filter (fun d => (dsOf s d).shown3)).map dsCode
  | .chv _ => if ft then [] else match epqOf s unit with | some e => [dsCode e.port] | none => []
  | _ => []

/-- A level source's condition, which raises again every 1 ms while it lasts (R408). -/
def noteLevel (b : Block) (src unit : Nat) (forced : Bool) (s : State) : State :=
  if forced || !levelSource b src then s
  else
    let rest := s.flt.levels.filter (fun l => !(l.block == b && l.source == src))
    { s with flt := { s.flt with levels := rest ++ [{ block := b, source := src, unit := unit, last := s.now }] } }

/-- The page of a Vigil context with an uncorrectable word is fenced with it (R99, R408): the page of the error, or, where only the context is
named, a free one of the region (log entry 41). -/
def fenceCtxPage (at_ : Option Nat) (b : Block) (src : Nat) (forced : Bool) (s : State) : State :=
  if b = .dmc ∧ src = 11 then
    let n := at_.getD (unitOf vigilStart + Config.freeNat s.freeSeq % 174762)
    setRec b (fenceIn (.page (unitPage n)) true false false forced (fltRec s b)) { s with freeSeq := s.freeSeq + b2n at_.isNone }
  else s

/-- A fault raised (R406–R413, R417): its record, what it loses, and its reaction; at_ is the DRAM unit in which it lies, where that is known. -/
def raiseFaultAt (at_ : Option Nat) (b : Block) (src unit : Nat) (forced persistent : Bool) (s0 : State) : State :=
  let s := noteLevel b src unit forced s0
  let r := raiseRec b src unit forced persistent s
  let s1 := if (srcClass b src).isSome then dataLost at_ b src unit r.1 else s
  match r.2 with
  | some .uc =>
    if (srcUnit b src unit).isNone then s1
    else
      let s2 := availStop (unitStops b false unit s) forced (unitEffects b false unit (fenceCtxPage at_ b src forced s1))
      let s3 := spreadFences s (fenceCutsVbus b src) forced s2
      if safeHolds s && (b == .psl || b == .adc) then allPscLow s3 else s3
  | some .ft =>
    if privileged b then s1
    else
      let s2 := availStop (unitStops b true unit s) forced (unitEffects b true unit s1)
      let s3 := spreadFences s (b == .psl || b == .adc) forced s2
      if safeHolds s && (b == .psl || b == .adc) then allPscLow s3 else s3
  | _ => s1

/-- A fault raised whose unit says all there is to say of its place. -/
def raiseFault (b : Block) (src unit : Nat) (forced persistent : Bool) (s : State) : State :=
  raiseFaultAt none b src unit forced persistent s

/-- A fault of the hardware's own. -/
def fault (b : Block) (src unit : Nat) (s : State) : State := raiseFault b src unit false true s

/-! ### The retest of cells and pages (R100) -/

/-- The number of a cell or page. -/
def memUnit (u : FUnit) : Option Nat := match u with
  | .cell n => some n
  | .page n => some n
  | _ => none

/-- What the three patterns of R100 read back as, all zeros, all ones and an alternating one; a cell or page is listed where a word of it read
otherwise. -/
abbrev ReadBack := Nat × (Word × Word × Word)

/-- The three patterns came back clean. -/
def readsClean (r : ReadBack) : Bool := r.2 == (0, 0xFFFFFFFF, 0xAAAAAAAA)

/-- FENCED_MEMORY_RETEST (R100): each cell or page that a quiet period tests is written over, and retired until the next cold boot where a pattern
did not read back. -/
def retest (b : Block) (reads : List ReadBack) (s : State) : State :=
  let ns := (fltRec s b).fenced.filterMap (fun f => if f.byCmd || f.held then none else memUnit f.unit)
  let bad := ns.filter (fun n => reads.any (fun r => r.1 == n && !readsClean r))
  let m := ns.foldl (fun m n => cleanUnit b n m) s.memb
  match b with
  | .pkb => { s with memb := { m with retiredCells := m.retiredCells ++ bad } }
  | .dmc => { s with memb := { m with retiredPages := m.retiredPages ++ bad } }
  | _ => s

/-- The retirement limits of R100, raised where a retest passes them. -/
def retireLimit (b : Block) (before : MemBlk) (s : State) : State :=
  if b = .pkb ∧ s.memb.retiredCells.length > 256 ∧ before.retiredCells.length ≤ 256 then fault .pkb 10 (blockId .pkb) s
  else if b = .dmc ∧ s.memb.retiredPages.length > 1024 ∧ before.retiredPages.length ≤ 1024 then fault .dmc 15 (blockId .dmc) s
  else s

end Sys2Proof.Machine
end

