-- ==== Sys2Proof/Machine/WakeOps.lean ====
section
/-! DEFINITION. Wakes from SUSPEND and the last-wake record (R389, R390, R393), and the connector guard's state as other families use it
(R357–R363). -/

set_option Elab.async false

namespace Sys2Proof.Machine

/-! ### Wakes from SUSPEND (R390, R393) -/

/-- A sleep mode. -/
def sleepMode (m : Mode) : Bool := m == .hibernate || m == .standby

/-- A sleep entry is in progress. -/
def entering (s : State) : Bool := match s.pmu.inProg with
  | some t => sleepMode t.target
  | none => false

/-- A further class latched in the same AON_32K tick: the lowest class, and within it the lowest port, is the record's (R394). -/
def mergeLatch (l : WakeLatch) (cls port detail : Nat) : WakeLatch :=
  if cls < l.cls then { l with cls := cls, port := port, detail := detail, also := l.also ||| 2 ^ (l.cls - 1) }
  else if cls = l.cls then { l with port := min l.port port }
  else { l with also := l.also ||| 2 ^ (cls - 1) }

/-- A wake latched while a sleep entry is in progress (R390): the first stands, those of its tick are merged. -/
def latchWake (cls port detail : Nat) (s : State) : State :=
  let l := match s.sup.latch with
    | none => { cls := cls, port := port, detail := detail, at_ := s.now, replayed := true }
    | some l => if l.at_ = s.now then mergeLatch l cls port detail else l
  { s with sup := { s.sup with latch := some l } }

/-- The classes that wake a sleep mode (R389). -/
def wakesFrom (m : Mode) (cls : Nat) : Bool := decide (cls = 3 ∨ (5 ≤ cls ∧ cls ≤ 10)) || (cls == 11 && m == .standby)

/-- A wake source outside HIBERNATE and STANDBY: latched while a sleep entry is in progress (R390). In SUSPEND it is recorded, the clocks are
ungated, the requested level is raised, and the 2 ms of R380 are counted afresh. In every other mode the source raises its ordinary event
alone. -/
def suspendWake (cls port detail : Nat) (s : State) : State :=
  if entering s then
    (match s.pmu.inProg with
     | some t => if wakesFrom t.target cls then latchWake cls port detail s else s
     | none => s)
  else if s.pmu.reported != .suspend then s
  else
    let s1 := writeWake cls port detail .suspend false 0 0 s
    let m := runMode s1
    let s2 := trialTick .suspend m
      { s1 with pmu := { s1.pmu with reported := m, clkGated := false, suspendSince := some s.now } }
    modeFollow s2

/-- The resume of a suspended virtual hub is recorded (R393), with the port of a collision (R296). -/
def wakeRecorded (cls port detail coincident : Nat) (s : State) : State :=
  writeWake cls port detail s.pmu.reported false 0 coincident s

/-! ### The connector guard (R358–R363) -/

/-- A port's guard changed. -/
def modGuard (p : Port) (f : GuardPort → GuardPort) (s : State) : State := { s with guard := s.guard.set p (f s.guard[p]) }

/-- ACTION of a port (R363): 0 HOLD, 1 REPORT, 2 OFF; a blank word, or a value out of range, reads as HOLD. -/
def guardAction (s : State) (p : Port) : Nat := match valueWord s (0x400 + p.val) with
  | some n => if n ≤ 2 then n else 0
  | none => 0

/-- The guard pins of a port (R357): CC1, CC2, and SBU1, SBU2 on US0, US1 and DS1–DS8. -/
def guardPins (p : Port) : List Nat := if p.val < 10 then [0, 1, 2, 3] else [0, 1]

/-- A GUARD event (R470). -/
def guardEvent (p : Port) (pin reading : Nat) (s : State) : State :=
  eventOn (ringsOf s p) 0xFF09
    (le 1 (portCode p) ++ le 1 (guardOf s p).st ++ le 1 pin ++ [0] ++ le 8 s.now ++ le 2 reading ++ [0, 0]) s

/-- The guard's state changed, with its event; in SUSPEND the change is a wake of class 0x8 (R361, R389). -/
def guardTo (p : Port) (st dry pin reading : Nat) (s : State) : State :=
  let old := (guardOf s p).st
  let s1 := modGuard p (fun g => { g with st := st, dry := dry, wets := if st = 1 ∧ old = 0 then g.wets + 1 else g.wets }) s
  if old = st then s1 else suspendWake 8 (portCode p) 0 (guardEvent p pin reading s1)

/-- The removal of R361 on a port that becomes WET under HOLD: PSC low, CC held open, the contract and the device gone; a sink keeps its
host's VBUS. The removal is not counted under R34. -/
def guardRemoval (p : Port) (s : State) : State :=
  if isSink s p then s
  else
    let s1 := if isSource s p then detachPort p s else toUnattached p s
    modGuard p (fun g => { g with hold := true }) s1

/-- A confirming reading on a pin (R360, R361). -/
def becomeWet (p : Port) (pin reading : Nat) (s : State) : State :=
  let s1 := guardTo p 1 0 pin reading s
  if guardAction s p = 0 then guardRemoval p s1 else s1

end Sys2Proof.Machine
end

