-- ==== Sys2Proof/Machine/Typec.lean ====
section
/-! DEFINITION. Type-C detection: CC patterns, attach, detach, dual-role toggling, the hardware detach guard, fast removal and cable
discovery (R302–R313, R349, R362). -/

set_option Elab.async false

namespace Sys2Proof.Machine

/-! ### Attach (R306, R308, R312, R334, R338) -/

/-- A loopback at depths 1–3 ends as a sink reaches Attached.SRC (R487). -/
def attachEndsLoop (p : Port) (s : State) : State :=
  if (tabGet s.test.loops p.val).any (fun l => decide (l.depth < 4)) then cutLoop p.val stOk s else s

/-- Attached.SRC (R306): vSafe5V applied, VCONN to the Ra pin, the implicit contract, the provisional need and Rp. -/
def attachSrc (p : Port) (s0 : State) : State :=
  let s := attachEndsLoop p s0
  let ra := (tcOf s p).pattern == .rdRa
  let debug := (tcOf s p).debugAcc
  let s1 := modTc p (fun t => { t with
    st := .attached, src := true, dfp := true, initSrc := true, lossAt := none, rp := 0, sinkTxNg := false, vbus5At := none
    discTries := 0, discDone := !ra, discAt := none, cable := {}, preCheck := false, waitCounted := false }) s
  let s2 := modPwr p (fun x => { x with
    con := { kind := 1, volt := 5000, cur := rpCur p 0 }, newCon := none, grant := 0, off0 := false, offCharge := 0, hardCount := 0
    capsCount := 0, firstDone := false, hr := none, epr := false, reduce := none }) s1
  let s3 := modPhy p (fun x => { x with rev := 3, lastId := [], nextId := [], ams := 0 }) (pscHigh p (provisional p s2))
  let lvl := if debug then 0 else rpLevel s3 p
  let s4 := modPwr p (fun x => { x with con := { kind := 1, volt := 5000, cur := rpCur p lvl } })
    (modTc p (fun t => { t with rp := lvl }) s3)
  if ra && (pwrOf s4 p).psc then vconnOn p (writeOc p (pwrOf s4 p).con s4) else writeOc p (pwrOf s4 p).con s4

/-- Attached.SNK (R308): the sink switch closed; the controller is UFP. -/
def attachSnk (p : Port) (s : State) : State :=
  let s1 := modTc p (fun t => { t with
    st := .attached, src := false, dfp := false, initSrc := false, lossAt := none, sinkTxNg := false, cable := {}, discDone := true }) s
  let s2 := modPwr p (fun x => { x with
    snkEn := true, con := { kind := 1, volt := 5000 }, newCon := none, need := 0, grant := 0, hardCount := 0, firstDone := false }) s1
  emit (.frontEnd p 1 true) (modPhy p (fun x => { x with rev := 3, lastId := [], nextId := [], ams := 0 }) s2)

/-- The time since which a pattern is stable moves to now. -/
def markPattern (c : CcPattern) (flip : Bool) (t : Tc) (now : Nat) : Tc :=
  { t with pattern := c, flip := flip, since := if t.pattern == c then t.since else now }

/-- The pattern still shows what a state waits for or is attached to. -/
def patternHolds (t : Tc) (c : CcPattern) : Bool := match t.st with
  | .waitSnk => c == .rp
  | .attached => if t.src then (if t.debugAcc then c == .rdBoth else sinkPattern c) else true
  | _ => if t.debugAcc then c == .rdBoth else sinkPattern c

/-- CC_PATTERN_CHANGE (R305–R308): a sink pattern enters AttachWait, its loss starts tPDDebounce. On an attached source the Rd pin above
vOPEN starts it. A port that is unpopulated, or held open, presents no termination and sees nothing. -/
def execCcPatternChange (p : Port) (pattern : CcPattern) (flip : Bool) (s : State) : Res :=
  let s := fresh s
  let s1 := modTc p (fun t => if t.st == .attached then { t with pattern := pattern } else markPattern pattern flip t s.now) s
  let t := tcOf s1 p
  if !populated s p then .next s1
  else
    let s1 := if pattern == .opn then modPwr p (fun x => { x with shed := false }) s1 else s1
    match t.st with
    | .unattached =>
      if thymeDown s p then .next s1
      else .next (suspendWake 3 (portCode p) 0 (if (portDs p).isSome then dsSees p pattern s1 else usSees p pattern s1))
    | .errorRecovery | .trySrc | .trySnk | .tryWaitSnk | .tryWaitSrc => .next s1
    | _ =>
      let ok := patternHolds t pattern
      let s2 := modTc p (fun t => { t with lossAt := if ok then none else (if t.lossAt.isSome then t.lossAt else some s.now) }) s1
      .next (suspendWake 3 (portCode p) 0 s2)

/-- A reading of the pre-attach check is on a pin that carries no termination (R362). -/
def preCheckPin (p : Port) (t : Tc) (pin : Nat) : Bool :=
  (guardPins p).contains pin && (match pin with
    | 0 => t.flip && t.pattern != .rdRa
    | 1 => !t.flip && t.pattern != .rdRa
    | _ => true)

/-- CC_ATTACH_DEBOUNCE (R306, R362): the pattern stable for tCCDebounce and VBS in vSafe0V, the pre-attach check clean: Attached.SRC. -/
def execCcAttachDebounce (p : Port) (vbs : Nat) (wet : Option (Fin 4 × Nat)) (s : State) : Res :=
  let s := fresh s
  let t := tcOf s p
  if t.st != .waitSrc || t.lossAt.isSome || (portDs p).isNone || thymeDown s p || !attachMay s p then .next s
  else
    let s1 := modPwr p (fun x => { x with vbs := vbs }) (advanceTo (t.since + 120000000) s)
    if vbs ≥ 800 then
      .next (if t.waitCounted then s1
        else modTc p (fun t => { t with vbusWaits := t.vbusWaits + 1, waitCounted := true }) s1)
    else
      match wet with
      | some (pin, reading) =>
        if guardAction s p ≠ 2 ∧ preCheckPin p t pin.val = true ∧ reading < 82 then
          let s2 := becomeWet p pin.val reading s1
          if guardAction s p = 0 then .next (modGuard p (fun g => { g with holds := g.holds + 1 }) s2) else .next (attachSrc p s2)
        else .next (attachSrc p s1)
      | none => .next (attachSrc p s1)

/-- CC_DETACH_DEBOUNCE (R306, R309, R348): after tPDDebounce a wait ends, or an attached source detaches. -/
def execCcDetachDebounce (p : Port) (s : State) : Res :=
  let s := fresh s
  let t := tcOf s p
  match t.lossAt with
  | none => .next s
  | some t0 =>
    if thymeDown s p then .next s
    else
      let s1 := advanceTo (t0 + 12000000) s
      match t.st with
      | .waitSrc | .waitSnk => .next (toUnattached p s1)
      | .attached => .next (if t.src then detachPort p s1 else s1)
      | _ => .next s1

/-- ERROR_RECOVERY_END (R306, R521): after tErrorRecovery the port is unattached, and a sink still there enters AttachWait. -/
def execErrorRecoveryEnd (p : Port) (s : State) : Res :=
  let s := fresh s
  match (tcOf s p).st, (tcOf s p).errAt with
  | .errorRecovery, some t0 =>
    let s1 := toUnattached p (advanceTo (t0 + 30000000) s)
    .next (if !populated s1 p then s1
      else if (portDs p).isSome then dsSees p (tcOf s1 p).pattern s1 else usSees p (tcOf s1 p).pattern s1)
  | _, _ => .next s

/-! ### Dual role (R304, R308, R309) -/

/-- DRP_TOGGLE (R308): every half of tDRP an unattached upstream port changes between Rd and Rp. -/
def execDrpToggle (u : US) (s : State) : Res :=
  let s := fresh s
  let p := usPort u
  let t := tcOf s p
  if t.st != .unattached || !populated s p then .next s
  else
    let s1 := advanceTo (t.togAt + 31250000) s
    let s2 := modTc p (fun t => { t with drpSrc := !t.drpSrc, togAt := s1.now }) s1
    .next (usSees p (tcOf s2 p).pattern s2)

/-- A Try or TryWait state entered. -/
def tryTo (p : Port) (st : CcState) (s : State) : State :=
  modTc p (fun t => { t with st := st, togAt := s.now, since := s.now, lossAt := none, pattern := .opn }) s

/-- A Try step: attached where its pattern has been stable for long enough before the limit, else the next state at the limit. -/
def tryStep (p : Port) (ok : Bool) (deb limit : Nat) (att : State → State) (next : State → State) (s : State) : State :=
  let t := tcOf s p
  let s1 := advanceTo (if ok then min (t.since + deb) (t.togAt + limit) else t.togAt + limit) s
  if ok && decide (t.since + deb ≤ t.togAt + limit) then att s1 else next s1

/-- DRP_ATTACH_DEBOUNCE (R308, R349): after a detach in a transition a guard reading comes first. AttachWait ends by the port's preference, and each Try or TryWait state at its timer. -/
def execDrpAttachDebounce (u : US) (vbs : Nat) (s : State) : Res :=
  let s := fresh s
  let p := usPort u
  let t := tcOf s p
  let s0 := modPwr p (fun x => { x with vbs := vbs }) s
  let sink := sinkPattern t.pattern && decide (vbs < 800)
  let src := t.pattern == .rp && decide (vbs ≥ 4750)
  let pref := (pwrOf s p).pol.pref
  if thymeDown s p || !populated s p || t.preCheck then .next s
  else match t.st with
    | .waitSrc =>
      if t.lossAt.isSome || !sinkPattern t.pattern then .next s
      else
        let s1 := advanceTo (t.since + 120000000) s0
        .next (if vbs ≥ 800 then
            (if t.waitCounted then s1 else modTc p (fun t => { t with vbusWaits := t.vbusWaits + 1, waitCounted := true }) s1)
          else if pref = 2 then tryTo p .trySnk s1
          else if attachMay s p then attachSrc p s1 else s1)
    | .waitSnk =>
      if t.lossAt.isSome || !src then .next s0
      else
        let s1 := advanceTo (t.since + 120000000) s0
        .next (if pref = 1 && attachMay s p then tryTo p .trySrc s1 else attachSnk p s1)
    | .trySrc => .next (tryStep p (sink && attachMay s p) 15000000 100000000 (attachSrc p) (tryTo p .tryWaitSnk) s0)
    | .tryWaitSnk => .next (tryStep p src 120000000 500000000 (attachSnk p) (toUnattached p) s0)
    | .trySnk => .next (tryStep p src 15000000 100000000 (attachSnk p) (tryTo p .tryWaitSrc) s0)
    | .tryWaitSrc => .next (tryStep p (sink && attachMay s p) 15000000 800000000 (attachSrc p) (toUnattached p) s0)
    | _ => .next s

/-- US_PARTNER_RP_CHANGE (R304): the level that has held for 12 ms; 0 is open, then default, 1.5 A and 3.0 A. -/
def execUsPartnerRpChange (u : US) (level : Fin 4) (s : State) : Res :=
  let s := fresh s
  .next (if isSink s (usPort u) then modTc (usPort u) (fun t => { t with partnerRp := level.val }) s else s)

/-- US_SINK_VBUS_LOSS (R283, R309): VBUS below vSafe5V detaches a sink and its host is absent at once; while a Fast Role Swap is under way
neither happens. -/
def execUsSinkVbusLoss (u : US) (s : State) : Res :=
  let s := fresh s
  let p := usPort u
  if !isSink s p then .next s
  else if (pwrOf s p).frs.isSome || (pwrOf s p).swap.any (fun x => x.kind == 0 && x.phase != 0) then
    .next (modPwr p (fun x => { x with frsLost := true }) s)
  else .next (detachPort p s)

/-! ### Detach in hardware (R302, R311, R349) -/

/-- HARDWARE_DETACH_GUARD (R302): while the Thyme is fenced, Rd above vOPEN for 12 ms drives PSC low and takes VCONN off. -/
def execHardwareDetachGuard (p : Port) (s : State) : Res :=
  let s := fresh s
  match (tcOf s p).lossAt with
  | none => .next s
  | some t0 =>
    if !thymeDown s p || !isSource s p then .next s
    else .next (modTc p (fun t => { t with guardDetached := true }) (pscLow p (advanceTo (t0 + 12000000) s)))

/-- FAST_REMOVAL (R311, R349): during a transition PSC goes low in hardware; the port is unattached with its FIFOs flushed and its charge
released at once, and a guard measurement precedes the next attach. -/
def execFastRemoval (p : Port) (vbs : Nat) (s : State) : Res :=
  let s := fresh s
  match (pwrOf s p).trans with
  | none => .next s
  | some v =>
    if !isSource s p then .next s
    else
      let s1 := modPwr p (fun x => { x with vbs := vbs }) (modTc p (fun t => { t with pattern := .opn }) s)
      let s2 := if thymeDown s p then modTc p (fun t => { t with guardDetached := true }) (pscLow p s1)
        else
          let a := detachPort p (notice p (.fastRemoval s.now) s1)
          modTc p (fun t => { t with preCheck := true })
            (modPwr p (fun x => { x with off0 := false, offCharge := 0 }) (modPhy p (fun x => { x with notices := [] }) a))
      .next (portEvent p 2 (le 2 v.fromMv ++ le 2 v.toMv ++ le 2 vbs ++ [0, 0]) [] s2)

/-! ### Cable discovery (R313) -/

/-- Discover Identity on SOP', a structured VDM of SVID 0xFF00 (R313). -/
def discoverIdentity (p : Port) (s : State) : State :=
  let s1 := pdSend p 1 15 false (le 4 0xFF00A801) s
  let s2 := modTc p (fun t => { t with discTries := t.discTries + 1, discAt := some s.now }) s1
  modPhy p (fun x => { x with ams := 6, amsAt := s.now }) s2

/-- Discovery has concluded: the first capabilities may go out once VBUS is at vSafe5V (R313, R337). -/
def discoveryEnds (p : Port) (s : State) : State :=
  let s1 := modTc p (fun t => { t with discDone := true, discAt := none }) (modPhy p (fun x => { x with ams := if x.ams = 6 then 0 else x.ams }) s)
  if (tcOf s1 p).vbus5At.isSome && (pwrOf s1 p).con.kind == 1 && !(tcOf s1 p).debugAcc then capsAt p s.now s1 else s1

/-- VCONN_STABLE (R313): tVCONNStable after VCONN was applied, discovery starts; a debug accessory has no PD (R307). -/
def execVconnStable (p : Port) (s : State) : Res :=
  let s := fresh s
  match (tcOf s p).vconnAt with
  | none => .next s
  | some t0 =>
    if thymeDown s p then .next s
    else
      let s1 := modTc p (fun t => { t with vconnAt := none }) (advanceTo (t0 + 50000000) s)
      .next (if (tcOf s p).debugAcc || (tcOf s p).discDone then s1 else discoverIdentity p s1)

/-- DISCOVER_IDENTITY_RETRY (R313): every 45 ms, up to 20 attempts. -/
def execDiscoverIdentityRetry (p : Port) (s : State) : Res :=
  let s := fresh s
  match (tcOf s p).discAt with
  | none => .next s
  | some t0 =>
    if thymeDown s p || !(tcOf s p).vconn then .next s
    else
      let s1 := advanceTo (t0 + 45000000) s
      .next (if (tcOf s p).discTries ≥ 20 then discoveryEnds p s1 else discoverIdentity p s1)

/-- DISCOVERY_CUTOFF (R313, R337): 240 ms after vSafe5V discovery stops, the cable judged as one without an answer for the first offers; what
attempts remain resume once the first explicit contract is in place. -/
def execDiscoveryCutoff (p : Port) (s : State) : Res :=
  let s := fresh s
  match (tcOf s p).vbus5At with
  | none => .next s
  | some t0 =>
    if (tcOf s p).discDone || thymeDown s p then .next s
    else .next (discoveryEnds p (advanceTo (t0 + 240000000) s))

/-- After the first explicit contract, a discovery that was cut short resumes (R313). -/
def discoveryResumes (p : Port) (s : State) : State :=
  let t := tcOf s p
  if t.vconn && t.cable.kind == 0 && decide (t.discTries > 0 ∧ t.discTries < 20) then discoverIdentity p s else s

end Sys2Proof.Machine
end

