-- ==== Sys2Proof/Machine/Pd.lean ====
section
/-! DEFINITION. PD messaging: the BMC PHY, the message FIFOs, notices to the Thyme and its protocol layer (R301, R312–R328, R492). -/

set_option Elab.async false

namespace Sys2Proof.Machine

/-! ### FIFOs (R317, R320, R321) -/

/-- A staged message passes into the RX FIFO once it has room and a notice fits (R316, R320, R321). -/
def deliverRx (p : Port) (s : State) : State :=
  let x := phyOf s p
  match x.rxStaged with
  | none => s
  | some m =>
    if fifoWords x.rx + pdWords m ≤ (crossing .pdPhy).depth ∧ x.notices.length < 16 then
      modPhy p (fun x => { x with rx := x.rx ++ [m], rxStaged := none, notices := x.notices ++ [.rxMsg m.sop m.at_] }) s
    else s

/-- A staged transmission whose first bit has not gone out is discarded (R315); a swap request discarded so fails (R353). -/
def discardTx (p : Port) (s : State) : State :=
  let x := phyOf s p
  match x.txStaged with
  | none => s
  | some m =>
    if x.txStarted then s
    else
      let s1 := modPhy p (fun x => { x with txStaged := none, notices := x.notices ++ [.txDone 2] }) s
      let t := msgType m.header
      if m.sop = 0 ∧ msgObjs m.header = 0 ∧ 9 ≤ t ∧ t ≤ 11 ∧ (pwrOf s p).swap.any (·.ours) then swapFail p s1 else s1

/-- PD messages reach the port: it is attached, its PHY runs, and it is no debug accessory (R307). -/
def pdUp (s : State) (p : Port) : Bool := (tcOf s p).st == .attached && !(tcOf s p).debugAcc

/-- The keep-alives that a received message restarts at its EOP (R336): a message at the timer's end is late. -/
def restartTimers (p : Port) (m : PdMsg) (s : State) : State :=
  modPwr p (fun x => { x with
    eprAt := if x.epr && decide (m.sop = 0 ∧ s.now < x.eprAt + 900000000) then s.now else x.eprAt
    ppsAt := if x.con.kind == 3 && m.sop == 0 && (isData m 2 || isData m 9) && decide (s.now < x.ppsAt + 14000000000) then s.now else x.ppsAt }) s

/-- PD_MESSAGE_RECEIVED (R314–R316, R320, R328): a message whose CRC passes is staged and acknowledged, or refused while the buffer is
occupied; a repeated MessageID is acknowledged and dropped. SOP'' and the debug ordered sets are discarded, and SOP' is received only while
the port sources VCONN. -/
def execPdMessageReceived (p : Port) (sop : Fin 5) (header : BitVec 16) (data : List Byte) (crcOk : Bool) (s : State) : Res :=
  let s := fresh s
  if !pdUp s p || thymeDown s p || !crcOk || decide (sop.val > 1) || (sop.val == 1 && !(tcOf s p).vconn) then .next s
  else
    let s := suspendWake 4 (portCode p) 0 s
    let h := header.toNat
    let m : PdMsg := { sop := sop.val, header := h, data := data, at_ := s.now }
    let s1 := discardTx p (modPhy p (fun x => { x with lineAt := s.now }) s)
    if (phyOf s1 p).rxStaged.isSome then .next (modPhy p (fun x => { x with rxRefused := min 255 (x.rxRefused + 1) }) s1)
    else
      let id := bits h 11 9
      let soft := isCtl m 13
      let again := tabGet (phyOf s1 p).lastId sop.val == some id && !soft
      let s2 := emit (.goodCrc p sop.val id) s1
      if again || (phyOf s1 p).bist == 2 then .next s2
      else
        let s3 := modPhy p (fun x => { x with
          lastId := if soft then [] else tabPut x.lastId sop.val id
          rev := if sop.val = 0 ∧ bits h 7 6 = 1 then 2 else x.rev
          rxStaged := some m }) s2
        .next (deliverRx p (restartTimers p m s3))

/-- A message leaves TX staging for the line (R315). -/
def startTx (p : Port) (m : PdMsg) (s : State) : State :=
  emit (.pd p m.sop m.header m.data)
    (modPhy p (fun x => { x with txStarted := true, txTries := x.txTries + 1, txAt := s.now, lineAt := s.now }) s)

/-- A message that opens an AMS waits for tSinkTx after SinkTxNG, and as sink for SinkTxOk (R315). -/
def mayStart (s : State) (p : Port) (m : PdMsg) : Bool :=
  let t := msgType m.header
  let ams := decide (m.sop = 0) && !msgExt m.header && decide (msgObjs m.header = 0) && decide (9 ≤ t ∧ t ≤ 11)
  decide (m.at_ ≤ s.now) && (!ams || !rev3 s p || (tcOf s p).src || decide ((tcOf s p).partnerRp = 3))

/-- A 17th notice waits, and the PHY with it (R321). -/
def phyStalled (s : State) (p : Port) : Bool := decide ((phyOf s p).notices.length > 16)

/-- The next whole message taken into TX staging (R320); one whose word count does not match its BYTES is discarded as MALFORMED (R318). -/
def takeStaged (p : Port) (s : State) : State :=
  let x := phyOf s p
  match x.txStaged, x.tx with
  | none, m :: t =>
    if wordsMatch m then modPhy p (fun x => { x with tx := t, txStaged := some m, txStarted := false, txTries := 0 }) s
    else notice p (.txDone 5) (modPhy p (fun x => { x with tx := t }) s)
  | _, _ => s

/-- PD_TX_HANDOVER (R315, R320): the next whole message is taken into TX staging, and goes out once the line has been idle for
tInterFrameGap. -/
def execPdTxHandover (p : Port) (s : State) : Res :=
  let s := fresh s
  let x := phyOf s p
  let s1 := if phyStalled s p then s else takeStaged p s
  match (phyOf s1 p).txStaged with
  | none => .next s1
  | some m =>
    .next (if phyStalled s p || (phyOf s1 p).txStarted || decide (s1.now < x.lineAt + 30000) || !mayStart s1 p m then s1 else startTx p m s1)

/-- A transition to the contract being made begins at the GoodCRC of its Accept (R341): at once for a PPS step of at most 500 mV and for an
unchanged voltage, else after tSrcTransition. -/
def startTransition (p : Port) (s : State) : State :=
  let x := pwrOf s p
  match x.newCon with
  | none => s
  | some c =>
    let d := if c.volt ≥ x.vout then c.volt - x.vout else x.vout - c.volt
    let fast := decide (d = 0) || (c.kind == 3 && decide (d ≤ 500))
    modPwr p (fun x => { x with trans := some { fromMv := x.vout, toMv := c.volt, at_ := s.now, delay := if fast then 0 else 28000000 } }) s

/-- A swap's phase moved on. -/
def swapPhase (p : Port) (n : Nat) (s : State) : State :=
  modPwr p (fun x => { x with swap := x.swap.map (fun w => { w with phase := n, at_ := s.now }) }) s

/-- The data role of an upstream port changed (R282): its hub connects as UFP and is disconnected as DFP. -/
def setDataRole (u : US) (dfp : Bool) (s : State) : State :=
  let s1 := modTc (usPort u) (fun t => { t with dfp := dfp }) s
  if dfp then hubDisconnect u s1 else hubConnect u s1

/-- What a message that was acknowledged carries out. -/
def txSent (p : Port) (m : PdMsg) (s : State) : State :=
  let s1 := modPhy p (fun x => { x with amsAt := s.now }) s
  if m.sop ≠ 0 then s1
  else if isCtl m 3 then
    match (pwrOf s1 p).swap with
    | some w =>
      if w.ours || w.phase != 0 then startTransition p s1
      else match w.kind, portUs p with
        | 1, some u => setDataRole u (!(tcOf s1 p).dfp) (modPwr p (fun x => { x with swap := none }) s1)
        | 2, _ =>
          let s2 := modPwr p (fun x => { x with swap := none }) s1
          if (tcOf s2 p).vconn then vconnOff p s2 else pdCtl p 6 (vconnOn p s2)
        | _, _ => swapPhase p 1 s1
    | none => startTransition p s1
  else s1

/-- PD_TX_DONE (R315, R321): the partner's GoodCRC ends a message. -/
def execPdTxDone (p : Port) (s : State) : Res :=
  let s := fresh s
  let x := phyOf s p
  match x.txStaged with
  | none => .next s
  | some m =>
    if !x.txStarted then .next s
    else
      let s1 := modPhy p (fun x => { x with txStaged := none, txStarted := false, txTries := 0, lineAt := s.now }) s
      .next (txSent p m (notice p (.txDone 0) s1))

/-- The Thyme begins a Soft_Reset (R323, R326). -/
def softReset (p : Port) (s : State) : State :=
  let s1 := modPwr p (fun x => { x with newCon := if x.trans.isSome then x.newCon else none }) (resetPd p s)
  modPhy p (fun x => { x with ams := 2, amsAt := s.now, chunk := [], rxChunk := [] }) (pdCtl p 13 s1)

/-- A message without GoodCRC after its last try: Soft_Reset leads to Hard Reset; another message on SOP but Source_Capabilities to
Soft_Reset; on SOP' the discovery's own retries follow (R313, R326). -/
def txLost (p : Port) (m : PdMsg) (s : State) : State :=
  if m.sop ≠ 0 then s
  else if isCtl m 13 then sendHardReset p s
  else if isData m 1 then modPhy p (fun x => { x with ams := 0 }) s
  else softReset p s

/-- PD_TX_GOODCRC_TIMEOUT (R315): no GoodCRC within tReceive; the message is sent again, nRetryCount times in all. -/
def execPdTxGoodcrcTimeout (p : Port) (s : State) : Res :=
  let s := fresh s
  let x := phyOf s p
  match x.txStaged with
  | none => .next s
  | some m =>
    if !x.txStarted then .next s
    else
      let s1 := advanceTo (x.txAt + 1000000) s
      if x.txTries < (if x.rev = 3 ∨ m.sop = 1 then 3 else 4) then .next (startTx p m s1)
      else
        let s2 := modPhy p (fun x => { x with txStaged := none, txStarted := false, txTries := 0 }) s1
        .next (txLost p m (notice p (.txDone 1) s2))

/-- A Cable Reset received (R322, R327): both FIFOs flushed, the protocol layer of SOP' reset. -/
def cableReset (p : Port) (s : State) : State :=
  modPhy p (fun x => { x with lastId := tabDel x.lastId 1, nextId := tabDel x.nextId 1 }) (flushPd p 3 s)

/-! ### The Thyme's replies (R301) -/

/-- A structured VDM's command and its type: REQ 0, ACK 1, NAK 2, BUSY 3. -/
def vdmCmd (m : PdMsg) : Nat × Nat := (bits (pdObj m 0) 4 0, bits (pdObj m 0) 7 6)

/-- The SVID of a VDM. -/
def vdmSvid (m : PdMsg) : Nat := bits (pdObj m 0) 31 16

/-- A message that a row of its own answers: it stays in hand for that row. -/
def ownRow (s : State) (p : Port) (m : PdMsg) : Bool :=
  let src := isSource s p
  m.sop == 0 &&
    ((isData m 2 || isData m 9) && src || isData m 3 || isData m 4 || (isData m 10 && src && (bits (pdObj m 0) 31 24 == 1 || bits (pdObj m 0) 31 24 == 5)) ||
     isCtl m 9 || isCtl m 10 || isCtl m 11 || isCtl m 13 || isCtl m 24 || (isCtl m 19 && (portUs p).isSome) ||
     (isCtl m 8 && (portDs p).isSome) ||
     ((isCtl m 3 || isCtl m 4 || isCtl m 12 || isCtl m 16) &&
       (pwrOf s p).swap.any (fun w => w.ours && w.phase == 0)) ||
     (isExt m 16 && src && bits (fld m.data 0 4) 23 16 == 3) ||
     (isData m 15 && vdmSvid m != 0 && (portDs p).isSome && ((vdmCmd m).2 != 0 || (vdmCmd m).1 == 6 || (vdmCmd m).1 == 5)))

/-- The cable as its Discover Identity answer describes it (R313): the product type of the ID header, and the cable VDO. -/
def cableOf (m : PdMsg) : Cable :=
  let typ := bits (pdObj m 1) 29 27
  let v := pdObj m 4
  let cur := if bits v 6 5 = 2 then 5000 else 3000
  let volt := if typ = 4 then [20, 30, 40, 50].getD (bits v 10 9) 20 else if bits v 10 9 = 3 then 50 else 20
  if typ = 3 ∨ typ = 4 then
    { kind := typ - 2, cur := cur, volt := volt, epr := bit v 17, speed := bits v 2 0 }
  else {}

/-- A cable's answer (R313): the cable judged; one that permits more than the first offers leads to new capabilities. -/
def cableAnswer (p : Port) (m : PdMsg) (s : State) : State :=
  if (vdmCmd m).1 = 1 ∧ (vdmCmd m).2 = 1 ∧ vdmSvid m = 0xFF00 then
    let s1 := modTc p (fun t => { t with cable := cableOf m }) s
    if (tcOf s p).discDone then capsAt p s.now (modPhy p (fun x => { x with ams := if x.ams = 6 then 0 else x.ams }) s1)
    else discoveryEnds p s1
  else s

/-- An upstream sink's answer to the host's capabilities (R335): the 5 V PDO at 0.1 A, never with Capability Mismatch. -/
def sinkRequest (p : Port) (s : State) : State :=
  let s1 := pdData p 2 [2 ^ 28 + 2 ^ 25 + 10 * 2 ^ 10 + 10] s
  modPwr p (fun x => { x with newCon := some { kind := 2, volt := 5000, cur := 100, pdoCur := 100 } }) s1

/-- The host's PS_RDY puts an upstream sink's contract in place. -/
def sinkContract (p : Port) (s : State) : State :=
  match (pwrOf s p).newCon with
  | none => s
  | some c =>
    let s1 := contractEvent p 0 c (modPwr p (fun x => { x with con := c, newCon := none, firstDone := true, hardCount := 0 }) s)
    if (pwrOf s p).pol.frs && rev3 s p && !(pwrOf s p).frsArm then modPhy p (fun x => { x with ams := 3 }) (pdCtl p 8 s1) else s1

/-- The next chunk of an extended message (R325): at most 26 data bytes behind the extended header. -/
def sendChunk (p : Port) (typ num total : Nat) (part : List Byte) (s : State) : State :=
  let body := le 2 (total + num * 2 ^ 11 + 2 ^ 15) ++ part
  pdSend p 0 typ true (body ++ List.replicate ((4 - body.length % 4) % 4) 0) s

/-- An extended message received (R325): a chunk request, EPR control, or sink capabilities in chunks. -/
def extMessage (p : Port) (m : PdMsg) (s : State) : State :=
  let eh := fld m.data 0 2
  let src := isSource s p
  if msgType m.header = 17 ∧ bit eh 10 = true then
    if (phyOf s p).chunk.isEmpty then s
    else modPhy p (fun x => { x with chunk := [], ams := 1, amsAt := s.now })
      (sendChunk p 17 1 (26 + (phyOf s p).chunk.length) (phyOf s p).chunk s)
  else if msgType m.header = 16 ∧ src = true then
    match fld m.data 2 1 with
    | 1 => capsAt p s.now s
    | _ => notSupported p s
  else notSupported p s

/-- Power objects of a sink's capabilities, SPR or EPR, gathered from chunks. -/
def gatherCaps (p : Port) (m : PdMsg) (s : State) : State × Bool :=
  let eh := fld m.data 0 2
  let total := eh % 512
  let got := (phyOf s p).rxChunk ++ (m.data.drop 2).take 26
  if got.length ≥ total then (modPhy p (fun x => { x with rxChunk := got.take total }) s, true)
  else
    let req := le 2 (2 ^ 10 + (bits eh 14 11 + 1) * 2 ^ 11 + 2 ^ 15) ++ [0, 0]
    (modPhy p (fun x => { x with rxChunk := got }) (pdSend p 0 18 true req s), false)

/-- A message without a row of its own, as the Thyme answers it; what the policy of USB Power Delivery does with a message that the manual
does not name is Not_Supported. -/
def thymeReply (p : Port) (m : PdMsg) (s : State) : State :=
  let src := isSource s p
  let us := (portUs p).isSome
  if m.sop = 1 then cableAnswer p m s
  else if isCtl m 3 then
    if (phyOf s p).ams = 2 then
      let s1 := modPhy p (fun x => { x with ams := 0 }) s
      if src then capsAt p s.now s1 else s1
    else s
  else if isCtl m 4 ∨ isCtl m 12 ∨ isCtl m 16 then
    modPwr p (fun x => { x with newCon := if src then x.newCon else none }) (modPhy p (fun x => { x with ams := 0 }) s)
  else if isCtl m 6 then (if src then s else sinkContract p s)
  else if isCtl m 7 then (if src ∨ us then capsAt p s.now s else notSupported p s)
  else if isCtl m 8 then pdData p 4 [2 ^ 29 + 2 ^ 26 + 2 ^ 25 + pdoFixed 5000 100] s
  else if isData m 1 then (if src then notSupported p s else sinkRequest p s)
  else if isCtl m 5 ∨ isCtl m 2 then s
  else if msgExt m.header then extMessage p m s
  else notSupported p s

/-- A keep-alive had expired when a message arrived (R8, R336): the messages are judged by their lane times. -/
def keepLate (s : State) (p : Port) (m : PdMsg) : Bool :=
  let x := pwrOf s p
  (x.con.kind == 3 && decide (m.at_ ≥ x.ppsAt + 14000000000)) || (x.epr && decide (m.at_ ≥ x.eprAt + 900000000))

/-- THYME_NOTICE (R301, R319–R321, R336): the Thyme reads its oldest notice, and a message's words up to LAST. A message is answered at once, or
stays in hand for the row that answers it; until then no further notice is read, nor while a full TX FIFO stalls the Thyme. One that came after
a keep-alive had expired finds Hard Reset. -/
def execThymeNotice (p : Port) (s : State) : Res :=
  let s := fresh s
  let x := phyOf s p
  if thymeDown s p || x.inHand.isSome || decide (fifoWords x.tx > 16) then .next s
  else match x.notices with
    | [] => .next s
    | n :: t =>
      let s1 := modPhy p (fun x => { x with notices := t }) s
      match n with
      | .rxMsg _ t0 =>
        (match x.rx with
         | [] => .next (deliverRx p s1)
         | m0 :: r =>
           let m := readMessage t0 (messageReads m0)
           let s2 := deliverRx p (modPhy p (fun x => { x with rx := r }) s1)
           if keepLate s2 p m then .next (sendHardReset p s2)
           else if isExt m 18 && isSource s2 p then
             let g := gatherCaps p m s2
             .next (if g.2 then modPhy p (fun x => { x with inHand := some m }) g.1 else g.1)
           else if ownRow s2 p m then .next (modPhy p (fun x => { x with inHand := some m }) s2)
           else .next (thymeReply p m s2))
      | .hardResetRx _ => .next (deliverRx p (hardReset p s1))
      | .cableResetRx _ => .next (deliverRx p (cableReset p s1))
      | _ => .next (deliverRx p s1)

/-- A message in hand of one kind, taken for its row. -/
def takeHand (p : Port) (ok : PdMsg → Bool) (f : PdMsg → State → State) (s : State) : State :=
  match (phyOf s p).inHand with
  | none => s
  | some m => if ok m && !thymeDown s p then f m (modPhy p (fun x => { x with inHand := none }) s) else s

/-! ### Resets (R322, R327) -/

/-- HARD_RESET_RECEIVED (R322, R327, R328, R347): acted on at once; while the Thyme is fenced, once it runs again (R302). -/
def execHardResetReceived (p : Port) (s : State) : Res :=
  let s := fresh s
  if !pdUp s p then .next s
  else
    let s := modPhy p (fun x => { x with bist := 0 }) (suspendWake 4 (portCode p) 0 s)
    .next (if thymeDown s p then notice p (.hardResetRx s.now) (flushPd p 4 s) else hardReset p s)

/-- HARD_RESET_SENT (R327, R347). -/
def execHardResetSent (p : Port) (s : State) : Res :=
  let s := fresh s
  .next (if pdUp s p && !thymeDown s p then sendHardReset p s else s)

/-- CABLE_RESET_RECEIVED (R314, R322, R327): on an upstream port without VCONN; acted on at once, and while the
Thyme is fenced, once it runs again (R302). -/
def execCableResetReceived (u : US) (s : State) : Res :=
  let s := fresh s
  let p := usPort u
  if !pdUp s p || (tcOf s p).vconn then .next s
  else .next (if thymeDown s p then notice p (.cableResetRx s.now) s else cableReset p s)

/-- SOFT_RESET_RECEIVED (R314): every stored MessageID cleared, the protocol layer restarted, Accept sent, and a source's capabilities
after it. -/
def execSoftResetReceived (p : Port) (s : State) : Res :=
  .next (takeHand p (fun m => isCtl m 13) (fun _ s =>
    let s1 := pdCtl p 3 (resetPd p s)
    if isSource s p then capsAt p s.now s1 else s1) (fresh s))

/-- GET_REVISION (R325): Revision 3.2. -/
def execGetRevision (p : Port) (s : State) : Res :=
  .next (takeHand p (fun m => isCtl m 24) (fun _ s =>
    if rev3 s p then pdData p 12 [3 * 2 ^ 28 + 2 * 2 ^ 24 + 2 ^ 20] s else notSupported p s) (fresh s))

/-- PD_SENDER_RESPONSE_TIMEOUT (R326, R354): no expected reply within tSenderResponse, or a chunk within 27 ms: Soft_Reset inside an AMS,
Hard Reset where Soft_Reset itself went unanswered. -/
def execPdSenderResponseTimeout (p : Port) (s : State) : Res :=
  let s := fresh s
  let x := phyOf s p
  if x.ams = 0 ∨ thymeDown s p = true then .next s
  else
    let s1 := advanceTo (x.amsAt + (if x.chunk.isEmpty then 30000000 else 27000000)) s
    match x.ams with
    | 2 => .next (sendHardReset p s1)
    | 4 => .next (softReset p (swapFail p s1))
    | 5 | 6 => .next (modPhy p (fun x => { x with ams := 0 }) s1)
    | _ => .next (softReset p s1)

/-! ### Thyme firmware (R12, R301, R464) -/

/-- A PD atomic message sequence is in progress on a port. -/
def amsRuns (s : State) (p : Port) : Bool :=
  (phyOf s p).ams != 0 || (phyOf s p).inHand.isSome || (pwrOf s p).newCon.isSome || (pwrOf s p).swap.isSome

/-- THYME_ACTIVATION (R12, R464): new firmware in an engine whose ports have no AMS in progress; the last engine named completes
FW_ACTIVATE. VBUS, contracts and timers are held. -/
def execThymeActivation (t : Fin 6) (s : State) : Res :=
  let s := fresh s
  let busy := (allPorts.filter (fun p => portThy p == t)).any (amsRuns s)
  match s.fw.stageSlot with
  | none => .next s
  | some n =>
    if busy || !bit s.fw.thyMask t.val then .next s
    else
      let mask := s.fw.thyMask - 2 ^ t.val
      let b := fld (flashRead s.fw (slotBase n + 8) 4) 0 4
      let s1 := { s with fw := { s.fw with thyMask := mask, thyBundle := s.fw.thyBundle.set t b } }
      .next (if mask = 0 then finalCpl .fwThyme stOk [] s1 else s1)

/-! ### BIST (R492) -/

/-- BIST_MESSAGE (R492): only in SERVICE at vSafe5V. Carrier mode runs for 45 ms; test data discards every message until Hard Reset. -/
def execBistMessage (p : Port) (s : State) : Res :=
  .next (takeHand p (fun m => isData m 3) (fun m s =>
    let mode := bits (pdObj m 0) 31 28
    let ok := s.pmu.reported == .service && (pwrOf s p).vout == 5000
    if !ok then s
    else if mode = 5 then emit (.carrier p) (modPhy p (fun x => { x with bist := 1, bistAt := s.now }) s)
    else if mode = 8 then modPhy p (fun x => { x with bist := 2 }) s
    else s) (fresh s))

/-- BIST_CARRIER_END (R492). -/
def execBistCarrierEnd (p : Port) (s : State) : Res :=
  let s := fresh s
  let x := phyOf s p
  .next (if x.bist = 1 then modPhy p (fun x => { x with bist := 0 }) (advanceTo (x.bistAt + 45000000) s) else s)

end Sys2Proof.Machine
end

