-- ==== Sys2Proof/Machine/Display.lean ====
section
/-! DEFINITION. DisplayPort Alt Mode and its routes (R366–R373), the drawer outputs and the lane I/O block's edges (R374–R377), and the
connector guard's trend and status (R364, R365). The layouts of DisplayPort VDMs are the standard's (PRESUMED, log entry 40). -/

set_option Elab.async false

namespace Sys2Proof.Machine

/-! ### Alt Mode entry (R367, R368) -/

/-- A display input changed. -/
def modDp (i : Fin 2) (f : DpIn → DpIn) (s : State) : State := { s with dp := s.dp.set i (f s.dp[i]) }

/-- The input routed to a port. -/
def dpInput (s : State) (d : DS) : Option (Fin 2) :=
  if s.dp[(0 : Fin 2)].port == some d then some 0 else if s.dp[(1 : Fin 2)].port == some d then some 1 else none

/-- A structured VDM of version 2.1: SVID, object position, command and its type, with its objects. -/
def vdm (p : Port) (svid pos typ cmd : Nat) (objs : List Nat) (s : State) : State :=
  pdData p 15 ((svid * 2 ^ 16 + 0xA800 + pos * 2 ^ 8 + typ * 2 ^ 6 + cmd) :: objs) s

/-- A step of the entry: its VDM sent, and its reply awaited from now. -/
def dpStep (i : Fin 2) (d : DS) (phase svid pos cmd : Nat) (objs : List Nat) (s : State) : State :=
  modDp i (fun x => { x with phase := phase, at_ := s.now, due := none })
    (modPhy (dsPort d) (fun y => { y with ams := 5, amsAt := s.now }) (vdm (dsPort d) svid pos 0 cmd objs s))

/-- The entry, or the mode, ended by the controller (R372): Exit Mode where the mode had been entered at the partner. -/
def dpStop (i : Fin 2) (cause : Nat) (s : State) : State :=
  let x := s.dp[i]
  match x.port with
  | none => s
  | some d =>
    let p := dsPort d
    let s1 := if x.phase ≥ 5 ∧ (tcOf s p).st = .attached then vdm p 0xFF01 1 0 5 [] s else s
    dpLeaveOne i cause (modPhy p (fun y => { y with ams := if y.ams = 5 then 0 else y.ams }) s1)

/-- DP_ENTRY_START (R368): Discover Identity on SOP. -/
def execDpEntryStart (d : DS) (s : State) : Res :=
  let s := fresh s
  match dpInput s d with
  | none => .next s
  | some i =>
    match s.dp[i].due with
    | none => .next s
    | some t =>
      if s.dp[i].phase ≠ 0 ∨ !explicit s (dsPort d) ∨ thymeDown s (dsPort d) ∨ !isSource s (dsPort d) then .next s
      else .next (dpStep i d 1 0xFF00 0 1 [] (advanceTo t s))

/-- The SVID and command that each step's reply carries. -/
def dpExpect (phase : Nat) : Nat × Nat := match phase with
  | 1 => (0xFF00, 1)
  | 2 => (0xFF00, 2)
  | 3 => (0xFF01, 3)
  | 4 => (0xFF01, 4)
  | 5 => (0xFF01, 16)
  | _ => (0xFF01, 17)

/-- The pin assignments that a partner's DisplayPort capabilities offer as UFP_D: a receptacle's from bits [23:16], a plug's from
[15:8]. -/
def dpOffers (caps : Nat) : Nat := if bit caps 6 then bits caps 23 16 else bits caps 15 8

/-- The pin assignment chosen (R367): 1 C, 2 D, or none. -/
def dpChoose (pref caps : Nat) (multi : Bool) : Option Nat :=
  let c := bit (dpOffers caps) 2
  let d := bit (dpOffers caps) 3
  match pref with
  | 1 => if c then some 1 else none
  | 2 => if d then some 2 else none
  | _ => if multi && d then some 2 else if c then some 1 else none

/-- HPD driven by a state of the partner (R371). -/
def hpdState (i : Fin 2) (high : Bool) (s : State) : State :=
  let x := s.dp[i]
  if !high then
    modDp i (fun x => { x with hpdSeen := false, hpd := false, irqAt := none, irqPend := false
                               lowAt := if x.hpd then some s.now else x.lowAt }) s
  else if x.hpd then s
  else
    let early := match x.lowAt with | some t => decide (s.now < t + 2000000) | none => false
    modDp i (fun x => { x with hpdSeen := true, hpd := !early }) s

/-- IRQ_HPD (R371): a pulse, or one held pending; ignored with HPD low. -/
def hpdIrq (i : Fin 2) (s : State) : State :=
  let x := s.dp[i]
  if !x.hpd then s
  else
    let soon := x.irqAt.isSome || (match x.irqLast with | some t => decide (s.now < t + 2000000) | none => false)
    modDp i (fun x => if soon then { x with irqPend := true } else { x with irqAt := some s.now }) s

/-- What a DP Status carries: the HPD state, bit 7, and IRQ_HPD, bit 8. -/
def hpdStatus (i : Fin 2) (v : Nat) (s : State) : State :=
  let s1 := hpdState i (bit v 7) s
  if bit v 8 then hpdIrq i s1 else s1

/-- Configure acknowledged (R368): the crosspoint connected, the event or the final completion, and HPD. -/
def dpEntered (i : Fin 2) (d : DS) (s : State) : State :=
  let x := s.dp[i]
  let s1 := modDp i (fun x => { x with phase := 7 }) (modPhy (dsPort d) (fun y => { y with ams := 0 }) s)
  let skip := accRings (.dpRoute i) s1
  let s2 := finalCpl (.dpRoute i) stOk (le 1 0 ++ le 1 x.assign ++ [0, 0]) s1
  let s2 := emit (.crosspoint d (pairsOf s2 (dsPort d)) (some (i, (tcOf s2 (dsPort d)).flip))) s2
  let s3 := eventOn ((portRings s2 d).filter (· ∉ skip)) 0xFF0B (le 1 i.val ++ le 1 (dsCode d) ++ [0, 0] ++ le 8 s.now) s2
  if x.hpdSeen then hpdState i true s3 else s3

/-- The assignment judged after the partner's status, and Configure sent; with C a SuperSpeed connection is withdrawn (R367, R368). -/
def dpConfigure (i : Fin 2) (d : DS) (s : State) : State :=
  let x := s.dp[i]
  match dpChoose x.pref x.caps x.multi with
  | none => dpStop i 3 s
  | some a =>
    let s1 := dpStep i d 6 0xFF01 1 17 [2 + 2 ^ 2 + 2 ^ (9 + a)] (modDp i (fun x => { x with assign := a }) s)
    if a = 1 then detachData d false true s1 else s1

/-- An acknowledged step of the entry. -/
def dpAck (i : Fin 2) (d : DS) (m : PdMsg) (s : State) : State :=
  let x := s.dp[i]
  let objs := (List.range (msgObjs m.header - 1)).map (fun j => pdObj m (j + 1))
  match x.phase with
  | 1 => dpStep i d 2 0xFF00 0 2 [] s
  | 2 =>
    if objs.any (fun o => bits o 31 16 == 0xFF01 || bits o 15 0 == 0xFF01) then dpStep i d 3 0xFF01 0 3 [] s
    else modDp i (fun x => { x with phase := 0 }) (modPhy (dsPort d) (fun y => { y with ams := 0 }) s)
  | 3 =>
    let c := objs.headD 0
    if x.pref ≠ 0 ∧ (dpChoose x.pref c false).isNone then dpStop i 3 s
    else dpStep i d 4 0xFF01 1 4 [] (modDp i (fun x => { x with caps := c }) s)
  | 4 => dpStep i d 5 0xFF01 1 16 [1] s
  | 5 =>
    let v := objs.headD 0
    dpConfigure i d (modDp i (fun x => { x with multi := bit v 4, hpdSeen := bit v 7 }) s)
  | _ => dpEntered i d s

/-- DP_VDM_ACK (R368): a reply to the step that waits; one that is no ACK ends the entry. -/
def execDpVdmAck (d : DS) (s : State) : Res :=
  .next (takeHand (dsPort d) (fun m => isData m 15 && (vdmCmd m).2 != 0) (fun m s =>
    match dpInput s d with
    | none => s
    | some i =>
      let x := s.dp[i]
      if x.phase = 0 ∨ x.phase ≥ 7 ∨ (vdmSvid m, (vdmCmd m).1) ≠ dpExpect x.phase then s
      else if (vdmCmd m).2 = 1 then dpAck i d m s
      else dpStop i 2 s) (fresh s))

/-- DP_VDM_TIMEOUT (R326, R368): no reply within tVDMSenderResponse. -/
def execDpVdmTimeout (d : DS) (s : State) : Res :=
  let s := fresh s
  match dpInput s d with
  | none => .next s
  | some i =>
    let x := s.dp[i]
    if x.phase = 0 ∨ x.phase ≥ 7 then .next s else .next (dpStop i 1 (advanceTo (x.at_ + 27000000) s))

/-- DP_ATTENTION (R371): the status in an Attention message; before the mode is entered its HPD state is kept for step 7. -/
def execDpAttention (d : DS) (s : State) : Res :=
  .next (takeHand (dsPort d) (fun m => isData m 15 && vdmCmd m == (6, 0)) (fun m s =>
    match dpInput s d with
    | none => s
    | some i =>
      let v := pdObj m 1
      if vdmSvid m ≠ 0xFF01 ∨ msgObjs m.header < 2 then s
      else if s.dp[i].phase = 7 then hpdStatus i v s
      else modDp i (fun x => { x with hpdSeen := bit v 7 && decide (x.phase ≥ 5) }) s) (fresh s))

/-- HPD_TIMER (R371): the end of an IRQ pulse, of the spacing behind it, or of the minimum low. -/
def execHpdTimer (i : Fin 2) (s : State) : Res :=
  let s := fresh s
  let x := s.dp[i]
  match x.irqAt, x.irqPend, x.irqLast with
  | some t, _, _ =>
    let s1 := advanceTo (t + 750000) s
    .next (modDp i (fun x => { x with irqAt := none, irqLast := some s1.now }) s1)
  | none, true, some t =>
    let s1 := advanceTo (t + 2000000) s
    .next (modDp i (fun x => { x with irqAt := some s1.now, irqPend := false }) s1)
  | none, _, _ =>
    match x.lowAt with
    | some t =>
      if x.hpdSeen && !x.hpd && decide (x.phase = 7) then .next (modDp i (fun x => { x with hpd := true }) (advanceTo (t + 2000000) s))
      else .next s
    | none => .next s

/-- DP_EXIT_MODE (R372): the partner's Exit Mode, answered; detach, Hard Reset, a WET removal and a route change end the mode where they
are carried out. -/
def execDpExitMode (d : DS) (s : State) : Res :=
  let p := dsPort d
  .next (takeHand p (fun m => isData m 15 && vdmCmd m == (5, 0)) (fun m s =>
    match dpInput s d with
    | none => vdm p (vdmSvid m) 0 2 5 [] s
    | some i =>
      if s.dp[i].phase ≥ 5 then dpLeaveOne i 0 (vdm p (vdmSvid m) 1 1 5 [] s) else vdm p (vdmSvid m) 0 2 5 [] s) (fresh s))

/-! ### DP_ROUTE (R366, R461) -/

/-- The spec of DP_ROUTE (R461). -/
def specDpRoute : CmdSpec := { opcode := 0x0702, cls := .run, lenOk := len 8, resvOk := fun p => fld p 4 1 < 2 && zeroAt 5 3 p }

/-- A byte as a signed number. -/
def sbyte (n : Nat) : Int := if n < 128 then n else (n : Int) - 256

/-- DP_ROUTE's target and field ranges (R366). -/
def dpRouteOk (s : State) (r : Req) : Bool :=
  let f := r.payload
  let i := fld f 0 1
  let e := sbyte (fld f 3 1)
  noTarget r && decide (i ≤ 1) && decide (fld f 2 1 ≤ 2) && decide (-3 ≤ e ∧ e ≤ 3) &&
    (fld f 1 1 == 0 || (match codeDs (fld f 1 1) with
      | some d => decide (d.val < 8) && populated s (dsPort d) && s.dp[(if i = 0 then (1 : Fin 2) else 0)].port != some d
      | none => false))

/-- The gates of the ports that a route takes and leaves. -/
def dpGate (r : Req) (s : State) (i : Fin 2) : Option Nat :=
  match (codeDs (fld r.payload 1 1)).bind (dsGate r s) with
  | some st => some st
  | none => (s.dp[i].port).bind (dsGate r s)

/-- DP_ROUTE (R366): an earlier one that has not completed is superseded, and the old port is torn down. -/
def cmdDpRoute (r : Req) (s : State) : State × Reply :=
  if !dpRouteOk s r then (s, errR stBadTarget)
  else
    let f := r.payload
    let i : Fin 2 := if fld f 0 1 = 0 then 0 else 1
    let new := codeDs (fld f 1 1)
    match dpGate r s i with
    | some st => (s, errR st)
    | none =>
      if blockFenced s .dpx || unitFenced s .dpx (.route i.val) then (s, errR stFenced)
      else
        let word := fld f 1 1 + fld f 2 1 * 2 ^ 8 + fld f 3 1 % 8 * 2 ^ 12
        let w := if bit (fld f 4 1) 0 then persist [(0x420 + i.val, BitVec.ofNat 32 word)] r.badWord s else (s, stOk)
        if w.2 ≠ stOk then (w.1, errR w.2)
        else
          let s1 := dpStop i 0 (finalCpl (.dpRoute i) stSuperseded [] w.1)
          let up := match new with | some d => explicit s1 (dsPort d) && isSource s1 (dsPort d) | none => false
          (modDp i (fun x => { port := new, pref := fld f 2 1, eq := sbyte (fld f 3 1), due := if up then some s.now else none
                               lowAt := x.lowAt, irqLast := x.irqLast }) s1, accR (.dpRoute i))

/-- A route cleared completes at once (R366). -/
def dpCleared (i : Fin 2) (s : State) : State :=
  if s.dp[i].port.isNone then finalCpl (.dpRoute i) stOk (le 1 2 ++ [0, 0, 0]) s else s

/-- DP_ROUTE. -/
def execDpRoute (r : Req) (s : State) : Res := .next (dpCleared 1 (dpCleared 0 (runCmd specDpRoute cmdDpRoute r s)))

/-! ### The drawer outputs (R376, R377) -/

/-- The spec of DRAWER_KICK (R461). -/
def specDrawerKick : CmdSpec := { opcode := 0x0703, cls := .run, lenOk := len 4, resvOk := zeroAt 2 2 }

/-- A kick output changed. -/
def modKick (i : Fin 2) (f : Kick → Kick) (s : State) : State :=
  { s with lio := { s.lio with kick := s.lio.kick.set i (f s.lio.kick[i]) } }

/-- DRAWER_KICK (R376, R377): refused while either output pulses or its interlock is open. -/
def cmdDrawerKick (r : Req) (s : State) : State × Reply :=
  let n := fld r.payload 0 1
  let l := fld r.payload 1 1
  if !noTarget r || decide (n > 1 ∨ l < 5 ∨ l > 20) then (s, errR stBadTarget)
  else
    let i : Fin 2 := if n = 0 then 0 else 1
    if blockFenced s .lio || unitFenced s .lio (.output n) || s.sup.ballsFloat then (s, errR stFenced)
    else if s.lio.kick[(0 : Fin 2)].pulse.isSome || s.lio.kick[(1 : Fin 2)].pulse.isSome || decide (s.now < s.lio.kick[i].lockUntil) then
      (s, errR stBusy)
    else
      (modKick i (fun k => { k with
        pulse := some (s.now, s.now + l * 10000000), report := some (s.now, false), silent := false }) s, accR (.kick i))

/-- DRAWER_KICK. -/
def execDrawerKick (r : Req) (s : State) : Res := .next (runCmd specDrawerKick cmdDrawerKick r s)

/-- A pulse has reached its length (R376, R377): the interlock opens, and the event tells the start and OPEN, unless SAFE or a reset came
between (R378). -/
def kickEnds (i : Fin 2) (t0 t1 : Nat) (s : State) : State :=
  let s2 := modKick i (fun k => { k with pulse := none, lockUntil := t1 + 1000000000 }) s
  if s.lio.kick[i].silent then s2 else finalCpl (.kick i) stOk (le 8 t0 ++ le 1 (b2n (drawerOpen s2 i)) ++ [0, 0, 0]) s2

/-- KICK_PULSE_END (R376, R377). -/
def execKickPulseEnd (i : Fin 2) (s : State) : Res :=
  let s := fresh s
  match s.lio.kick[i].pulse with
  | none => .next s
  | some (t0, t1) => .next (kickEnds i t0 t1 (advanceTo t1 s))

/-- DRAWER_REPORT (R376): 2 s after the start. -/
def execDrawerReport (i : Fin 2) (s : State) : Res :=
  let s := fresh s
  match s.lio.kick[i].report with
  | none => .next s
  | some (t, opened) =>
    let s1 := modKick i (fun k => { k with report := none }) (advanceTo (t + 2000000000) s)
    .next (if s.lio.kick[i].silent then s1 else laneIoEvent 3 i.val (b2n opened) 0 s1)

/-- GPIO_EDGE (R374): an enabled edge of a pin is seen; its event goes out once a refill tick. -/
def execGpioEdge (n : Fin 16) (rising : Bool) (s : State) : Res :=
  let s := fresh s
  let on_ := s.lio.edgeEn.getLsbD (2 * n.val + (if rising then 0 else 1))
  let inp := if rising then s.lio.inp ||| BitVec.ofNat 16 (2 ^ n.val) else s.lio.inp &&& ~~~(BitVec.ofNat 16 (2 ^ n.val))
  let s1 := { s with lio := { s.lio with inp := inp } }
  match s.pmu.reported with
  | .off | .hibernate | .standby => .next s
  | _ =>
    if blockFenced s .lio then .next s
    else if !on_ then .next s1
    else
      let s2 := { s1 with lio := { s1.lio with edge := s1.lio.edge ||| BitVec.ofNat 16 (2 ^ n.val) } }
      .next (if tabGet s2.lio.pendAt n.val == some (s2.now / 125000) then
          { s2 with lio := { s2.lio with pend := s2.lio.pend ||| BitVec.ofNat 32 (2 ^ n.val) } }
        else gpioEvent n.val s2)

/-! ### The connector guard's trend and status (R364, R365) -/

/-- GUARD_WEEK_END (R364): each pin's weekly minimum enters its trend. A week without a reading counts as OPEN. -/
def execGuardWeekEnd (s : State) : Res :=
  let s := fresh s
  let s1 := advanceTo s.lane.weekAt s
  .next { s1 with
    lane := { s1.lane with weekAt := s1.lane.weekAt + 604800000000000 }
    guard := s1.guard.map (fun g => { g with
      trend := List.zipWith (fun (t : List Nat) (w : Option Nat) => (w.getD 255 :: t).take 16) g.trend g.week
      week := List.replicate 4 none }) }

/-- A pin is flagged CORRODING: its minimum fell in each of the last four weeks and lies below 2.0 MΩ (R364). -/
def corroding (t : List Nat) : Bool := match t with
  | a :: b :: c :: d :: e :: _ => decide (a < b ∧ b < c ∧ c < d ∧ d < e ∧ a < 200)
  | _ => false

/-- The spec of GUARD_STATUS (R461). -/
def specGuardStatus : CmdSpec := { opcode := 0x0701, cls := .run, onI2ct := true, lenOk := len 0 }

/-- The GUARD_STATUS result (R461). -/
def guardBytes (s : State) (p : Port) : List Byte :=
  let g := s.guard[p]
  let flags := ((List.range 4).map (fun i => b2n (corroding (g.trend.getD i [])) * 2 ^ i)).foldl (· + ·) 0
  le 1 g.st ++ le 1 g.dry ++ le 1 (guardAction s p) ++ le 1 flags ++
  (List.range 4).flatMap (fun i => let r := g.reads.getD i (0xFFFF, 0); le 2 r.1 ++ [0, 0] ++ le 8 r.2) ++
  (List.range 4).flatMap (fun i => (g.trend.getD i []).flatMap (le 1)) ++ le 4 g.wets ++ le 4 g.holds

/-- GUARD_STATUS (R365, R461). -/
def cmdGuardStatus (r : Req) (s : State) : State × Reply :=
  match targetPort r with
  | none => (s, errR stBadTarget)
  | some p =>
    match openGate r s p with
    | some st => (s, errR st)
    | none => (s, okR (guardBytes s p))

/-- GUARD_STATUS. -/
def execGuardStatus (r : Req) (s : State) : Res := .next (runCmd specGuardStatus cmdGuardStatus r s)

end Sys2Proof.Machine
end

