-- ==== Sys2Proof/Machine/TickOps.lean ====
section
/-! DEFINITION. What a refill tick does: overheads, settings, virtual clocks, tags and refills (R196, R197, R201–R204). -/

set_option Elab.async false

namespace Sys2Proof.Machine

/-! ### Refill tick (R196, R197, R201–R204) -/

/-- A meter after n refills (R203). -/
def refillMeter (n : Nat) (m : Meter) : Meter :=
  if m.mode = 0 then m
  else { m with com := min (m.com + m.cir * n) (m.cbs * 16), peak := min (m.peak + m.pir * n) (m.pbs * 16) }

/-- The QSEL of a queue (R443). -/
def qselBytes (e : Epq) : List Byte := le 1 e.hubPort ++ le 1 e.ep ++ le 1 (b2n e.dirIn) ++ [0]

/-- The values of a meter as a completion reports them (R203, R453). -/
def meterBytes (e : Epq) (m : Meter) : List Byte :=
  qselBytes e ++ le 4 m.cir ++ le 4 m.cbs ++ le 4 m.pir ++ le 4 m.pbs ++ le 1 m.mode ++ [0, 0, 0]

/-- SHAPER_SETTING_APPLY (R204): the last setting of a queue takes effect, and its command completes. -/
def applySetting (q : Nat) (s : State) : State :=
  match epqOf s q with
  | none => s
  | some e =>
    let s1 := match e.shaperNew with
      | none => s
      | some m =>
        let v := adjustMeter s e m
        finalCpl (.shaper q) stOk (meterBytes e v)
          (modEpq q (fun x => { x with shaper := enterMeter x.shaper v, shaperNew := none }) s)
    match e.policerNew with
    | none => s1
    | some m =>
      let v := adjustMeter s { e with shaper := e.shaper } { m with mode := policerMode e m.mode }
      finalCpl (.policer q) stOk (meterBytes e v)
        (modEpq q (fun x => { x with policer := enterMeter x.policer v, policerNew := none }) s1)

/-- The link whose scheduler orders a queue (R191). -/
def queueLink (s : State) (e : Epq) : Option Port :=
  match e.pkts with
  | p :: _ => egressOf s e p
  | [] => if e.dirIn then (hostOf s e).map usPort else some (dsPort e.port)

/-- Tags earlier than V raised to V (R197). -/
def raiseTags (q : Nat) (s : State) : State :=
  match epqOf s q with
  | none => s
  | some e =>
    match queueLink s e with
    | none => s
    | some l =>
      let v := (linkOf s l).v
      let el := eligible s q e l
      modEpq q (fun x => { x with lf := laterOf v x.lf, hf := if el then x.hf else laterOf v x.hf }) s

/-- A queue's meters after n refills. -/
def refillQueue (n : Nat) (x : Nat × Epq) : Nat × Epq :=
  (x.1, { x.2 with shaper := refillMeter n x.2.shaper, policer := refillMeter n x.2.policer })

/-- The priority class's share of a link starts anew (R32). -/
def noPrio (l : SsLink) : SsLink := { l with prioUsed := 0 }

/-- What a refill tick does at its lane time, for k periods since the last one. DESIGN CHOICE: settings that take effect at the tick are
applied before its refill (R204, log entry 94). -/
def doTick (t k : Nat) (s : State) : State :=
  let s0 := advanceTo t s
  let ovh := s0.sched.ovhNew.foldl (fun o x => tabPut o x.1 x.2) s0.sched.ovh
  let s1 := { s0 with sched := { s0.sched with ovh := ovh, ovhNew := [], tickAt := t, sampleCount := s0.sched.sampleCount + k } }
  let s2 := s1.epqs.foldl (fun s e => applySetting e.1 s) s1
  let s3 : State := { s2 with epqs := s2.epqs.map (refillQueue k), links := s2.links.map noPrio }
  s3.epqs.foldl (fun s e => touchEpq e.1 (raiseTags e.1 s)) s3

/-- A tick that falls at the present lane time and has not run is run before what happens at that time (R8, R204, R208). -/
def dueTick (s : State) : State :=
  if s.now % 125000 = 0 ∧ s.now > s.sched.tickAt then doTick s.now ((s.now - s.sched.tickAt) / 125000) s else s

end Sys2Proof.Machine
end

