-- ==== Sys2Proof/Machine/Superspeed.lean ====
section
/-! DEFINITION. SuperSpeed forwarding: headers, payloads, timestamps, egress, link commands and link power (R131–R160), and the
scrubbers and refill of packet memory (R85, R95, R96, R98, R143). -/

set_option Elab.async false

namespace Sys2Proof.Machine

/-! ### Judging a data packet (R136–R141, R205) -/

/-- The queue of a link is free for cut-through: U0, nothing under way, a credit, and nothing that waits (R23, R24, R136). -/
def egressFree (s : State) (l : Port) : Bool :=
  linkOpen s l && (linkOf s l).tx.isNone && (linkOf s l).hdrWait.isEmpty && (linkOf s l).loose.isEmpty &&
    decide ((linkOf s l).credits > 0) && !s.epqs.any (fun e => eligible s e.1 e.2 l)

/-- A data packet may be cut through (R136, R138, R198): besides the rates and the egress, its queue is empty and it finds a tag and a credit
of its virtual channel (R17, R30). -/
def cutOk (s : State) (q : Option Nat) (inn out : Port) (len : Nat) (rerouted : Bool) : Bool :=
  decide (linkRate s out ≤ linkRate s inn) && egressFree s out && !rerouted && fabOpen s (vcOf (clsAt s q)) false &&
    (match q.bind (epqOf s) with
     | some e => e.pkts.isEmpty && shaperOk e (ssCharged s out len) && e.chv.isSome && queueTag s e && !epqFenced s (q.getD 0) e
     | none => tagFree s 3 none)

/-- The header of a data packet judged: its colour, then cut-through, storage or discard; its payload follows (R132, R205). -/
def judgeData (inn out : Port) (q : Option Nat) (h : SsHeader) (rerouted : Bool) (s : State) : State :=
  let pol := match q with
    | some q => police q (ssCharged s inn h.len) s
    | none => (s, 0)
  let s1 := pol.1
  let e := q.bind (epqOf s1)
  let mode := match e with | some e => e.policer.mode | none => 0
  let r : RxDp := { h := h, disp := .drop, out := out, epq := q, red := pol.2 == 2, dest := portUs out }
  if pol.2 = 2 ∧ mode = 1 then modLink inn (fun l => { l with rx := some r }) (countDiscard inn q 4 s1)
  else if cutOk s1 q inn out h.len rerouted then
    modLink out (fun l => { l with tx := some q })
      (modLink inn (fun l => { l with rx := some { r with disp := .cut out, tag := e.bind (·.chv) } }) s1)
  else modLink inn (fun l => { l with rx := some { r with disp := .store } }) s1

/-- A header that is discarded: a data packet's payload goes with it. -/
def discardHeader (inn : Port) (q : Option Nat) (h : SsHeader) (code : Nat) (s : State) : State :=
  let s1 := countDiscard inn q code s
  if h.kind == .dp then modLink inn (fun l => { l with rx := some { h := h, disp := .drop, out := inn, epq := none, red := false } }) s1
  else s1

/-- A header held for a link that leaves U1 or U2, returned to its host with the deferred bit (R135). -/
def deferHeader (up p : Port) (h h1 : SsHeader) (s : State) : State :=
  modLink p (fun l => { l with deferred := l.deferred ++ [(up, { h1 with deferred := true })] })
    (emit (.ssHeader up { h with deferred := true }) s)

/-- A header for a port this hub owns (R135, R136, R149). -/
def forwardDown (u : US) (d : DS) (h : SsHeader) (s : State) : State :=
  let h1 := rewriteDown s u d h
  let q := findEpq s d h1.addr h1.ep h1.dirIn
  let up := usPort u
  let dp := dsPort d
  if portFenced s dp then discardHeader up q h 2 s
  else match (dsOf s d).link with
    | .u0 =>
      if h.kind == .dp then judgeData up dp q h1 (h1.route != h.route) s
      else sendHeader up dp h1 (chargeTp q dp s)
    | .recovery =>
      if (linkOf s dp).exiting then deferHeader up dp h h1 s
      else if h.kind == .dp then judgeData up dp q h1 (h1.route != h.route) s
      else sendHeader up dp h1 (chargeTp q dp s)
    | .u1 | .u2 => startExit dp (deferHeader up dp h h1 s)
    | .u3 => emit (.ssHeader up { h with deferred := true }) s
    | _ => discardHeader up q h 2 s

/-- The SuperSpeed IN endpoint of a device acknowledged by its host: the shadow follows, copies end, evidence is mirrored
(R242, R250, R257). -/
def ackFromHost (d : DS) (h : SsHeader) (s : State) : State :=
  match ctxByAddr s d h.addr with
  | none => s
  | some c =>
    let s1 := modEp c.1 h.ep true (setSeq h.seq) s
    match findEpq s1 d h.addr h.ep true with
    | none => s1
    | some q =>
      let e := epqOf s1 q
      let done : List Pkt := match e with
        | some e => e.copies.filter (fun p => decide ((p.h.seq + 32 - (rewriteUp s1 d h).seq % 32) % 32 ≥ 16))
        | none => []
      let ev := c.2.eps.any (fun x => x.d.ep == h.ep && x.d.dirIn && x.evidence)
      let s2 := if ev then done.foldl (fun s p => captureData c.2 h.ep 16 p.at_ p.data s) s1 else s1
      modEpq q (fun x => { x with copies := x.copies.filter (fun p => !done.contains p) }) s2

/-- A header that passed on an upstream link, dispatched on the nibble at the hub's depth (R131). -/
def routeDown (u : US) (h : SsHeader) (s : State) : State :=
  let n := nibble h.route (hubOf s u).depth
  if n = 0 then (if h.addr = (hubOf s u).addr3 then s else discardHeader (usPort u) none h 1 s)
  else match (hubOf s u).active[n - 1]? with
    | some .lmf => s
    | some (.port d) =>
      if ownerOf s d == some u && !movingNow s d then
        forwardDown u d h (if h.kind == .ack && h.dirIn then ackFromHost d (rewriteDown s u d h) s else s)
      else discardHeader (usPort u) none h 1 s
    | none => discardHeader (usPort u) none h 1 s

/-- SS_HEADER_DOWNSTREAM (R23, R131, R132, R135, R136, R144, R149): the link layer answers, then the header is dispatched. -/
def execSsHeaderDownstream (u : US) (h : SsHeader) (crcOk : Bool) (s : State) : Res :=
  let s := dueTick (fresh s)
  if (usOf s u).link != .u0 || !(hubOf s u).connected then .next s
  else
    let x := linkIn (usPort u) h crcOk s
    .next (if x.2 then routeDown u h (hostSeen u x.1) else x.1)

/-- A header that passed on a downstream link (R133): to the owning hub, to the proxy host, or discarded as NOT_OWNED. DESIGN CHOICE: so is
one whose owning hub is not connected to its host, where Vigil does not hold the port (log entry 95). -/
def routeUp (d : DS) (h : SsHeader) (s : State) : State :=
  let q := findEpq s d h.addr h.ep h.dirIn
  let s1 := if h.kind == .ack && !h.dirIn then
      (match ctxByAddr s d h.addr with
       | some c => modEp c.1 h.ep false (setSeq h.seq) s
       | none => s)
    else s
  if underVigil s1 d then (match h.kind, ctxByAddr s1 d h.addr with
    | .tp 3, some c => modEp c.1 h.ep true (fun e => { e with erdyWait := false }) s1
    | _, _ => s1)
  else match ownerOf s1 d with
    | none => discardHeader (dsPort d) q h 1 s1
    | some u =>
      if !(hubOf s1 u).connected then discardHeader (dsPort d) q h 1 s1
      else
        let h1 := rewriteUp s1 d h
        if h.kind == .dp then judgeData (dsPort d) (usPort u) q h1 false (startExit (usPort u) s1)
        else sendHeader (dsPort d) (usPort u) h1 (chargeTp q (usPort u) s1)

/-- SS_HEADER_UPSTREAM (R24, R133, R144, R149, R158). -/
def execSsHeaderUpstream (d : DS) (h : SsHeader) (crcOk : Bool) (s : State) : Res :=
  let s := dueTick (fresh s)
  if (dsOf s d).link != .u0 then .next s
  else
    let x := linkIn (dsPort d) h crcOk s
    .next (if x.2 then routeUp d h x.1 else x.1)

/-- The payload of a data packet that is stored (R138–R142): in its queue, or at its egress link where no queue is open. DPP_BAD counts what is
to be delivered (R161). -/
def storeData (r : RxDp) (k : Pkt) (s : State) : State :=
  match r.epq with
  | some q =>
    let x := enqueue q k s
    if k.bad && x.2 then countDiscard k.ingress r.epq 3 x.1 else x.1
  | none => storeLoose r.out k (if k.bad then countDiscard k.ingress none 3 s else s)

/-- DPP_RECEIVED (R137, R139, R145): the payload of the header judged last on its link. A bad CRC-32 is counted as DPP_BAD and
leaves with its CRC-32 inverted. -/
def execDppReceived (p : Port) (data : List Byte) (crcOk : Bool) (s : State) : Res :=
  let s := dueTick (fresh s)
  match (linkOf s p).rx with
  | none => .next s
  | some r =>
    let s1 := modLink p (fun l => { l with rx := none, idleFrom := s.now }) s
    let k : Pkt := { h := r.h, data := data, bad := !crcOk, red := r.red, at_ := s.now, ingress := p, dest := r.dest }
    match r.disp with
    | .drop => .next (linkRested p s1)
    | .store => .next (linkRested p (storeData r k s1))
    | .cut out =>
      let s2 := if crcOk then s1 else countDiscard p r.epq 3 s1
      let talk := match portDs p with | some d => availGo (dsCode d) s2 | none => s2
      (match r.epq with
       | none => .next (linkRested p (settle (sendData none out k talk)))
       | some q =>
         let s3 := tagHead q (modEpq q (fun x => { x with pkts := k :: x.pkts, tagged := false }) talk)
         .next (linkRested p (settle (popHead q (sendData (some q) out k s3)))))

/-- The timestamp packet that waits for a boundary of a link is sent, with the delayed bit (R134). DEDUCED: one that had to wait is later than
USB 3.2 permits for an undelayed one (log entry 95). -/
def flushItp (p : Port) (s : State) : State :=
  match (linkOf s p).itp, portDs p with
  | some n, some d =>
    if linkState s p == .u0 && (linkOf s p).tx.isNone then emit (.itp d n true) (modLink p (fun l => { l with itp := none }) s) else s
  | _, _ => s

/-- ITP_RECEIVED (R134): repeated to every owned port in U0, at once where its link is at a packet boundary; elsewhere it waits, and the next
one takes its place. -/
def execItpReceived (u : US) (stamp : Nat) (s : State) : Res :=
  let s := fresh s
  if (usOf s u).link != .u0 || !(hubOf s u).connected then .next s
  else
    .next (allDs.foldl (fun s d =>
      if ownerOf s d == some u && (dsOf s d).link == .u0 && !movingNow s d && !portFenced s (dsPort d) then
        (if (linkOf s (dsPort d)).tx.isNone then emit (.itp d stamp false) (modLink (dsPort d) (fun l => { l with itp := none }) s)
         else modLink (dsPort d) (fun l => { l with itp := some stamp }) s)
      else s) (hostSeen u s))

/-- DEFERRED_HEADER_DELIVERY (R135): the port has reached U0; the retry buffer and its deferred headers are sent. -/
def execDeferredHeaderDelivery (d : DS) (s : State) : Res :=
  let s := fresh s
  let p := dsPort d
  if !(linkOf s p).exiting then .next s
  else
    let hs := (linkOf s p).deferred
    let s1 := resend p (setLink p .u0 (modLink p (fun l => { l with exiting := false, deferred := [] }) s))
    .next (flushHdr p 64 (hs.foldl (fun s h => sendHeader h.1 p h.2 s) s1))

/-! ### Egress (R32, R145, R200) -/

/-- A packet that is granted is judged against ownership (R132): one from a host whose hub no longer owns the port, or toward such a
host, has been overtaken by a move. -/
def stillOwned (s : State) (e : Epq) (p : Pkt) : Bool :=
  match portUs p.ingress with
  | some u => ownerOf s e.port == some u && !movingNow s e.port
  | none => ownerOf s e.port == p.dest && !movingNow s e.port

/-- What becomes of a packet that a move has overtaken (R118, R132): data of a device that was kept is captured, all else is discarded. -/
def overtaken (q : Nat) (e : Epq) (p : Pkt) (s : State) : State :=
  match (if towardDevice p then none else ctxByAddr s e.port e.daddr) with
  | some c => if e.cls == 2 || e.cls == 4 then captureData c.2 e.ep 0 p.at_ p.data s else countDiscard p.ingress (some q) 1 s
  | none => countDiscard p.ingress (some q) 1 s

/-- The stored packet of no open queue that leaves a link next. -/
def sendLoose (p : Port) (s : State) : Option State :=
  match (linkOf s p).loose with
  | k :: t =>
    if k.loc == .pkb && linkOpen s p && decide ((linkOf s p).credits > 0) && (linkOf s p).tx.isNone && fabOpen s 1 false then
      some (settle (sendData none p k (modLink p (fun l => { l with loose := t }) s)))
    else none
  | [] => none

/-- The eligible queue with the earliest finish tag is served, if the link is free (R194, R200). -/
def serveQueue (p : Port) (s : State) : State :=
  let s1 := s.epqs.foldl (fun s e => tagHead e.1 s) s
  if (linkOf s1 p).tx.isSome then s1
  else match wfqBest s1 p with
    | none => s1
    | some e =>
      match e.2.pkts with
      | [] => s1
      | k :: _ =>
        if stillOwned s1 e.2 k then
          settle (touchEpq e.1 (tagHead e.1 (popHead e.1 (sendData (some e.1) p k (availGo (dsCode e.2.port) s1)))))
        else settle (tagHead e.1 (popHead e.1 (overtaken e.1 e.2 k s1)))

/-- EGRESS_SELECT (R32, R137, R192, R194, R200): at a packet boundary, which a cut-through under way does not give, a priority packet of prio
bytes within 16 KB a microframe; else what waits for the boundary, then a packet of no open queue (DESIGN CHOICE, log entry 22), then the
eligible queue with the earliest finish tag. -/
def execEgressSelect (p : Port) (prio : Nat) (s : State) : Res :=
  let s := dueTick (fresh s)
  if cutting s p then .next s
  else
    let s := linkRested p (settle (modLink p (fun l => { l with tx := none }) s))
    let l := linkOf s p
    if decide (prio > 0) && (portUs p).isSome && linkOpen s p && decide (l.credits > 0 ∧ l.prioUsed + prio ≤ 16384) then
      .next (modLink p (fun l => { l with prioUsed := l.prioUsed + prio, tx := some none
                                          busy := l.busy.modify 0 (· + busyUnits s p (prio + 52)) }) s)
    else
      let s1 := flushHdr p 64 (flushItp p s)
      .next (match sendLoose p s1 with
        | some t => t
        | none => serveQueue p s1)

/-- EGRESS_RECOVERY_CUT (R145): the link enters Recovery; the rest of the payload under way is not sent, and is counted as RECOVERY_CUT. -/
def execEgressRecoveryCut (p : Port) (s : State) : Res :=
  let s := fresh s
  match (linkOf s p).tx with
  | none => .next s
  | some q =>
    let s1 := setLink p .recovery (modLink p (fun l => { l with tx := none }) s)
    .next (if cutting s p then
        allPorts.foldl (fun s i => match (linkOf s i).rx with
          | some r => if r.disp == .cut p then
              modLink i (fun l => { l with rx := some { r with disp := .drop } }) (countDiscard i r.epq 6 s) else s
          | none => s) s1
      else countDiscard (ingressOf s p q) q 6 s1)

/-- LINK_COMMAND_RECEIVED (R144): LGOOD releases the oldest header of the retry buffer, LBAD has the buffer sent again behind LRTY, LRTY ends
the wait for it, LCRD returns a credit. PRESUMED: one out of sequence brings the link to Recovery, as USB 3.2 prescribes (log entry 93). -/
def execLinkCommandReceived (p : Port) (c : LinkCmd) (s : State) : Res :=
  let s := fresh s
  match c with
  | .lgood n => .next (match (linkOf s p).retry with
    | h :: t => if h.lseq = n then linkRested p (modLink p (fun l => { l with retry := t }) s) else setLink p .recovery s
    | [] => s)
  | .lbad => .next (resend p (emit (.linkCmd p .lrty) s))
  | .lrty => .next (modLink p (fun l => { l with rxIgnore := false }) s)
  | .lcrd n =>
    .next (if n = (linkOf s p).txCrd then
        flushHdr p 64 (modLink p (fun l => { l with
          credits := min (maxCredits s p) (l.credits + 1), txCrd := (l.txCrd + 1) % maxCredits s p }) s)
      else setLink p .recovery s)

/-- FUNCTION_WAKE (R148): forwarded once, when the owning hub's link is in U0, which it first brings out of U1 or U2; charged as a transaction
packet of the device (R192). -/
def execFunctionWake (d : DS) (h : SsHeader) (s : State) : Res :=
  let s := dueTick (fresh s)
  if (dsOf s d).link != .u0 || underVigil s d then .next s
  else match ownerOf s d with
    | none => .next (discardHeader (dsPort d) none h 1 s)
    | some u =>
      .next (if (hubOf s u).connected then
          sendHeader (dsPort d) (usPort u) (rewriteUp s d h) (chargeTp (findEpq s d h.addr h.ep h.dirIn) (usPort u) s)
        else discardHeader (dsPort d) none h 1 s)

/-! ### Link power (R157, R158, R160) -/

/-- The U1 or U2 timeout in force on a port: the owning host's, or the proxy host's (R157, R251). -/
def lpmTimeout (s : State) (d : DS) (isU2 : Bool) : Nat :=
  if underVigil s d then (if isU2 || bit (dsOf s d).quirks 2 then 0 else 40)
  else match owningSlot s d with
    | some (u, v) => if isU2 then (slotSt s u v).u2 else (slotSt s u v).u1
    | none => 0

/-- A port may enter a link power state (R157). -/
def dsLpmOk (s : State) (d : DS) (isU2 : Bool) : Bool := lpmTimeout s d isU2 != 0 && !portBusy s d

/-- DS_LINK_IDLE_TIMEOUT (R157): the port has been idle for its timeout. PRESUMED: U1 timeouts count 1 µs, U2 timeouts 256 µs, as USB 3.2 has
them (log entry 95). -/
def execDsLinkIdleTimeout (d : DS) (isU2 : Bool) (s : State) : Res :=
  let s := fresh s
  let l := (dsOf s d).link
  .next (if (l == .u0 || (isU2 && l == .u1)) && dsLpmOk s d isU2 then
      setLink (dsPort d) (if isU2 then .u2 else .u1)
        (advanceTo ((linkOf s (dsPort d)).idleFrom + lpmTimeout s d isU2 * (if isU2 then 256000 else 1000)) s)
    else s)

/-- DS_DEVICE_LPM_REQUEST (R157). -/
def execDsDeviceLpmRequest (d : DS) (isU2 : Bool) (s : State) : Res :=
  let s := fresh s
  if (dsOf s d).link != .u0 then .next s
  else
    let ok := dsLpmOk s d isU2
    let s1 := emit (.lpmAnswer (dsPort d) ok) s
    .next (if ok then setLink (dsPort d) (if isU2 then .u2 else .u1) s1 else s1)

/-- The upstream link may enter U1 or U2 (R158). -/
def usLpmOk (s : State) (u : US) (isU2 : Bool) : Bool :=
  (if isU2 then (hubOf s u).u2Enable else (hubOf s u).u1Enable) && !hostBusy s u &&
    allDs.all (fun d => ownerOf s d != some u || (match (dsOf s d).link with
      | .u1 | .u2 | .u3 => true
      | .u0 | .recovery => false
      | _ => true))

/-- US_LINK_LPM_REQUEST (R158). -/
def execUsLinkLpmRequest (u : US) (isU2 : Bool) (s : State) : Res :=
  let s := fresh s
  if (usOf s u).link != .u0 then .next s
  else
    let s := hostSeen u s
    let ok := usLpmOk s u isU2
    let s1 := emit (.lpmAnswer (usPort u) ok) s
    .next (if ok then setLink (usPort u) (if isU2 then .u2 else .u1) s1 else s1)

/-- US_LINK_IDLE_TIMEOUT (R158): 10 µs for U1, 1 ms for U2. -/
def execUsLinkIdleTimeout (u : US) (isU2 : Bool) (s : State) : Res :=
  let s := fresh s
  let l := (usOf s u).link
  .next (if (l == .u0 || (isU2 && l == .u1)) && usLpmOk s u isU2 then
      setLink (usPort u) (if isU2 then .u2 else .u1)
        (advanceTo ((linkOf s (usPort u)).idleFrom + (if isU2 then 1000000 else 10000)) s)
    else s)

/-- DS_LINK_LEAVES_U0 (R160, R298): stored packets for the device discarded, the change reported. -/
def execDsLinkLeavesU0 (d : DS) (c : LeaveCause) (s : State) : Res :=
  let s := fresh s
  match (dsOf s d).link with
  | .u0 | .u1 | .u2 | .recovery =>
    let s1 := dropStored d s
    .next (match c with
      | .warmReset => setLink (dsPort d) .polling s1
      | _ => chgPort d true .linkState (setLink (dsPort d) .inactive s1))
  | _ => .next s

/-! ### Upstream links (R153, R245) -/

/-- An upstream link has reached U0 out of U1, U2, U3 or Recovery: its rate and sequence numbers stand, and its retry buffer is sent again
(R145, R153). -/
def linkBack (u : US) (s : State) : State :=
  resend (usPort u) (modLink (usPort u) (fun l => { l with exiting := false }) (modUs u (fun x => { x with link := .u0 }) s))

/-- UPSTREAM_LINK_TRAINED (R145, R153): U0 at the trained rate, which only training from Rx.Detect changes; what waited is sent. -/
def execUpstreamLinkTrained (u : US) (gen2 : Bool) (lanes : Nat) (s : State) : Res :=
  let s := fresh s
  let x := usOf s u
  if !x.ssTerm || !s.clk.ssPllLock then .next s
  else match x.link with
    | .rxDetect | .polling | .inactive =>
      let s1 := modUs u (fun x => { x with link := .u0, gen := if gen2 then 2 else 1
                                           lanes := if u == .us0 && gen2 && decide (lanes = 2) then 2 else 1 }) s
      .next (hubPresence u (flushHdr (usPort u) 64 (ssUp u (modLink (usPort u) (freshLink s1 (usPort u)) s1))))
    | .u1 | .u2 | .u3 | .recovery => .next (hubPresence u (flushHdr (usPort u) 64 (linkBack u s)))
    | _ => .next s

/-- UPSTREAM_LINK_INACTIVE (R161, R245): the link drops to SS.Inactive or Rx.Detect, which ends a presence condition; what it held under way is
counted. -/
def execUpstreamLinkInactive (u : US) (noTerm : Bool) (s : State) : Res :=
  let s := fresh s
  match (usOf s u).link with
  | .rxDetect | .disabled => .next s
  | _ =>
    let s1 := modUs u (fun x => { x with link := if noTerm then .rxDetect else .inactive, susp3 := false, u3Want := false, upLfps := false
                                         gen := if noTerm then 0 else x.gen }) (dropLink (usPort u) 2 s)
    .next (hubPresence u (modVigHub u (fun h => { h with absentFrom := s.now }) (settle s1)))

/-! ### Packet memory (R85, R95, R96, R98, R143) -/

/-- Spilled packets of a queue copied back in order (R93, R143): up to two bursts ahead of the scheduler while the bulk pool is below the
threshold, each with a tag, cells within the queue's share, and the response credit of its DRAM data (R17, R30, R31). -/
def refill (q : Nat) : Nat → State → State
  | 0, s => s
  | n + 1, s =>
    match epqOf s q with
    | none => s
    | some e =>
      match e.pkts.findIdx? (·.loc == .dram), e.chv with
      | some i, some c =>
        let k := cellsOf (((e.pkts[i]?).map (·.data.length)).getD 0)
        if decide ((e.pkts.filter (·.loc == .pkb)).length < 2 * e.burst) && !overThreshold s && queueTag s e &&
            decide ((epqCells e + k) * 128 ≤ e.capPkb) && fabOpen s 3 true && !chvFenced s c then
          match takeCells s 4 e.port k with
          | some l =>
            refill q n (modEpq q (fun x => { x with
              pkts := x.pkts.modify i (fun p => { p with loc := .pkb, tag := some c, cells := l }) }) s)
          | none => s
        else s
      | _, _ => s

/-- SPILL_REFILL (R143): the extents that it drains go back. -/
def execSpillRefill (epq : Nat) (s : State) : Res := .next (settle (touchEpq epq (tagHead epq (refill epq 64 (fresh s)))))

/-- DRAM_REFRESH_RATE_READ (R85): the multiplier that the device reports is applied. -/
def execDramRefreshRateRead (mult : Nat) (s : State) : Res :=
  let s := fresh s
  .next (if s.sup.selfRefresh then s else { s with memb := { s.memb with refreshMult := mult } })

end Sys2Proof.Machine
end

