-- ==== Sys2Proof/Machine/Usb2Path.lean ====
section
/-! DEFINITION. The high-speed repeater with its rewrite stage (R162–R170, R242, R257) and the LPM of the companion path
(R188–R190). -/

set_option Elab.async false

namespace Sys2Proof.Machine

/-! ### CRC5 (R167) -/

/-- One bit of the USB CRC5, polynomial x⁵ + x² + 1, fed least significant bit first. -/
def crc5Step (c : Nat) (b : Bool) : Nat :=
  let fb := b != bit c 4
  let sh := c * 2 % 32
  if fb then sh ^^^ 5 else sh

/-- The CRC5 of n bits, its register with the bit that goes first on the wire as bit 4, inverted. -/
def crc5 (n v : Nat) : Nat := ((List.range n).foldl (fun c i => crc5Step c (bit v i)) 31) ^^^ 31

/-- A CRC5 field corrected by XOR for a changed field (R167): an error syndrome passes unchanged. -/
def fixCrc5 (n old new c : Nat) : Nat := c ^^^ crc5 n old ^^^ crc5 n new

/-! ### The rewrite stage (R166–R169) -/

/-- A device of a port holds an address that its host knows it by otherwise, and is rewritten: it is translated, or being absorbed. -/
def heldAside (s : State) (d : DS) (a : Nat) : Bool :=
  (portCtxs s d).any (fun c => c.2.daddr == some a && decide (c.2.speed < 3) && (c.2.translated || c.2.st == .absorbing) &&
    c.2.haddr != a && !bit (devQuirks s c.2) 3)

/-- The address a token carries downstream (R166, R168): device-side, parking, or unchanged. -/
def tokenAddr (s : State) (d : DS) (a : Nat) : Nat :=
  if !rewriteOn s d then a
  else match trByHost s d false a with
    | some t => if trActs s d t then t.daddr else a
    | none => if heldAside s d a then parkAddr s d else a

/-- The INVERT bit of a device-side endpoint, bulk and interrupt only (R166, R217). -/
def invertOf (s : State) (d : DS) (daddr ep : Nat) (dirIn : Bool) : Bool :=
  rewriteOn s d && ep != 0 && (match trByDev s d false daddr with
    | some t => !t.ss && trActs s d t && bit (trEp t ep dirIn) 5 &&
        (match findEpq s d daddr ep dirIn with
         | some q => (match epqOf s q with | some e => e.cls == 2 || e.cls == 4 | none => false)
         | none => true)
    | none => false)

/-- DATA0 and DATA1 exchanged. -/
def flipPid (p : DPid) : DPid := match p with
  | .data0 => .data1
  | .data1 => .data0
  | p => p

/-- The port hears its owning host's high-speed packets (R165): not while its exit from L1 still drives K (R188). -/
def hsOpen (s : State) (d : DS) : Bool :=
  let x := dsOf s d
  x.enable && x.speed2 == some .hs && !x.suspHost2 && !x.suspHub2 && !x.l1 &&
    (match x.l1Exit with | some t => decide (t ≤ s.now) | none => true) && x.resumeAt.isNone && x.resetAt.isNone &&
    x.test2 == 0 && !portFenced s (dsPort d) && !movingNow s d

/-- A token repeated to a port: the packet as it leaves, and the latch (R166, R169). -/
def downPacket (d : DS) (k : UsbPkt) (s : State) : State :=
  let x := s.u2d[d]
  match k with
  | .sof f => modU2d d (fun y => { y with latch := none }) (emit (.usb2 (dsPort d) (.sof f)) s)
  | .token t a e c =>
    let b := tokenAddr s d a
    let dirIn := t == .in_
    let l : HsLatch := { daddr := b, ep := e, dirIn := dirIn, inv := invertOf s d b e dirIn }
    modU2d d (fun y => { y with latch := some l })
      (emit (.usb2 (dsPort d) (.token t b e (fixCrc5 11 (a % 128 + 128 * (e % 16)) (b % 128 + 128 * (e % 16)) c))) s)
  | .ext a e c =>
    let b := tokenAddr s d a
    modU2d d (fun y => { y with latch := some { daddr := b, ep := e, dirIn := false, inv := false } })
      (emit (.usb2 (dsPort d) (.ext b e (fixCrc5 11 (a % 128 + 128 * (e % 16)) (b % 128 + 128 * (e % 16)) c))) s)
  | .split h r c =>
    let b := if rewriteOn s d then (match trByHost s d false h with
        | some t => if t.hub && trActs s d t then t.daddr else h
        | none => h) else h
    modU2d d (fun y => { y with latch := none })
      (emit (.usb2 (dsPort d) (.split b r (fixCrc5 19 (h % 128 + 128 * (r % 4096)) (b % 128 + 128 * (r % 4096)) c))) s)
  | .data p ok bs =>
    let inv := match x.latch with | some l => l.inv && !l.dirIn && ok | none => false
    modU2d d (fun y => { y with latch := y.latch.map (fun l => { l with data := some (p, bs) }) })
      (emit (.usb2 (dsPort d) (.data (if inv then flipPid p else p) ok bs)) s)
  | .handshake h => emit (.usb2 (dsPort d) (.handshake h)) s
  | .sub a c => emit (.usb2 (dsPort d) (.sub a c)) s

/-- A data packet on the repeater path metered at its PID (R206): colours are counted and nothing else changes. -/
def meterHs (d : DS) (l : HsLatch) (n : Nat) (s : State) : State :=
  match findEpq s d l.daddr l.ep l.dirIn with
  | none => s
  | some q =>
    match epqOf s q with
    | none => s
    | some e =>
      let len := n + ovhOf s (dsPort d) (if e.cls = 1 then 3 else 2)
      let s1 := (police q len s).1
      modEpq q (fun x => { x with packets := min (2 ^ 48 - 1) (x.packets + 1), payload := min (2 ^ 64 - 1) (x.payload + n)
                                  charged := min (2 ^ 64 - 1) (x.charged + len), sCharged := x.sCharged + len
                                  sPackets := x.sPackets + 1 }) s1

/-- The handshake that ends a transaction: the shadow's toggle, and the evidence mirror on the host's ACK (R242, R257). -/
def endTransaction (d : DS) (l : HsLatch) (fromHost : Bool) (h : Hsk) (s : State) : State :=
  let s1 := availGo (dsCode d) s
  match ctxByAddr s1 d l.daddr, l.data with
  | some c, some (_, bs) =>
    if l.dirIn && fromHost && h == .ack then
      let s2 := modEp c.1 l.ep true advToggle s1
      if c.2.eps.any (fun x => x.d.ep == l.ep && x.d.dirIn && x.evidence) then captureData c.2 l.ep 16 s2.now bs s2 else s2
    else if !l.dirIn && !fromHost && (h == .ack || h == .nyet) then modEp c.1 l.ep false advToggle s1
    else s1
  | _, _ => s1

/-- A SOF of a host (R178, R249). -/
def hostSof (u : US) (f : Nat) (s : State) : State :=
  let s1 := modU2u u (fun x => { x with
    uframe := x.uframe + 1, frame := f, lastSof := some s.now, keep := none
    micro := if f = x.frame then (x.micro + 1) % 8 else 0 }) s
  allDs.foldl (fun s d => if ownerOf s d == some u && !portVigil s d then modU2d d (fun x => { x with kept := false }) s else s) s1

/-- The time since the last SOF of a port's owning hub, in ns (R186); 0 where it has sent none. -/
def sinceSof (s : State) (d : DS) : Nat := match ownerOf s d with
  | some u => (match s.u2u[u.idx].lastSof with | some t => (s.now - t) % 125000 | none => 0)
  | none => 0

/-- The repeater is at or past EOF1 of the microframe: 59,440 of its 60,000 bit times (R186). -/
def hsPastEof1 (s : State) (d : DS) : Bool := decide (sinceSof s d * 480 ≥ 59440 * 1000)

/-- HS_PACKET_REPEAT (R162, R163, R165–R169, R186): from the owning host to its enabled high-speed ports, or from such a port to its
owner, with the rewrite of a translated device. -/
def execHsPacketRepeat (f : HsSrc) (k : UsbPkt) (s : State) : Res :=
  let s := fresh s
  match f with
  | .host u =>
    if !(hubOf s u).connected || (usOf s u).speed2 != 2 || (usOf s u).susp2 then .next s
    else
      let s0 := hostSeen u s
      let s1 := match k with | .sof n => hostSof u n s0 | _ => s0
      .next (allDs.foldl (fun s d =>
        if ownerOf s d == some u && hsOpen s d then
          let s2 := downPacket d k s
          match k, s.u2d[d].latch with
          | .data _ _ bs, some l => if l.dirIn then s2 else meterHs d l bs.length s2
          | .handshake h, some l => modU2d d (fun y => { y with latch := none }) (endTransaction d l true h s2)
          | _, _ => s2
        else s) s1)
  | .dev d =>
    if !hsOpen s d || underVigil s d || hsPastEof1 s d then .next s
    else match ownerOf s d with
      | none => .next s
      | some u =>
        if !(hubOf s u).connected || (usOf s u).speed2 != 2 then .next s
        else match k, s.u2d[d].latch with
          | .data p ok bs, some l =>
            let inv := l.inv && l.dirIn && ok
            let s1 := modU2d d (fun y => { y with latch := some { l with data := some (p, bs) } }) s
            .next (meterHs d l bs.length (emit (.usb2 (usPort u) (.data (if inv then flipPid p else p) ok bs)) s1))
          | .handshake h, some l =>
            .next (modU2d d (fun y => { y with latch := none })
              (endTransaction d l false h (emit (.usb2 (usPort u) k) s)))
          | _, _ => .next (emit (.usb2 (usPort u) k) s)

/-! ### Babble (R187) -/

/-- BABBLE_DETECT (R186, R187): a port transmitting upstream at EOF2 is disabled, its packet ended with a bit-stuff error, its TT
transaction ended and every other buffer freed; with nothing held a periodic complete-split gets ERR. -/
def execBabbleDetect (d : DS) (cutPacket : Bool) (s : State) : Res :=
  let s := fresh s
  if !(dsOf s d).enable then .next s
  else
    let s1 := modDs d (fun x => { x with enable := false, babble := x.babble + 1 }) s
    let s2 := chgPort d false .enable s1
    let s3 := match cutPacket && (dsOf s d).speed2 == some .hs, ownerOf s d with
      | true, some u => emit (.usb2Bad u) s2
      | _, _ => s2
    let s4 := modTt d (fun t => { t with
      bufs := (t.bufs.filter (·.st == .executing)).map (fun b => { b with st := .done, result := none })
      per := [] }) s3
    .next (portEvent (dsPort d) 5 [] [] (settle s4))

/-! ### LPM (R188–R190) -/

/-- The LPM attributes on the wire: bLinkState L1, BESL and remote wake. -/
def lpmAttr (besl : Nat) (remoteWake : Bool) : Nat := 1 + 16 * (besl % 16) + 256 * b2n remoteWake

/-- An EXT and an LPM token repeated to a port (R188): the first with the rewrite of R166. -/
def lpmTokens (d : DS) (addr besl : Nat) (remoteWake : Bool) (s : State) : State :=
  let attr := lpmAttr besl remoteWake
  downPacket d (.sub attr (crc5 11 attr)) (downPacket d (.ext addr 0 (crc5 11 (addr % 128))) s)

/-- DS_LPM_TOKEN (R188): repeated to the hub's high-speed devices; the ACK of the port's device puts it in L1. Through the TT it is answered
STALL. -/
def execDsLpmToken (d : DS) (viaTt : Bool) (addr : Nat) (answer : Option Hsk) (besl : Nat) (remoteWake : Bool) (s : State) : Res :=
  let s := fresh s
  match ownerOf s d with
  | none => .next s
  | some u =>
    if viaTt then .next (if (usOf s u).speed2 == 2 && (dsOf s d).enable then emit (.split u (.hs .stall)) (hostSeen u s) else s)
    else if !hsOpen s d || (usOf s u).speed2 != 2 then .next s
    else
      let s1 := allDs.foldl (fun s e => if ownerOf s e == some u && hsOpen s e then lpmTokens e addr besl remoteWake s else s) (hostSeen u s)
      .next (match answer with
        | some .ack => modU2d d (fun x => { x with besl := besl, l1Wake := remoteWake }) (modDs d (fun x => { x with l1 := true })
            (emit (.usb2 (usPort u) (.handshake .ack)) s1))
        | some h => emit (.usb2 (usPort u) (.handshake h)) s1
        | none => s1)

/-- The time that a BESL value names, in ns, at least 50 µs (R188). PRESUMED: the values of USB 2.0's LPM (log entry 96). -/
def beslNs (n : Nat) : Nat := max 50000 (([125, 150, 200, 300, 400, 500].getD n ((n - 5) * 1000)) * 1000)

/-- CLEAR_PORT_L1 (R188): the host's exit; resume K for the BESL time, at least 50 µs, then repeating resumes. -/
def execClearPortL1 (u : US) (v : Fin 15) (s : State) : Res :=
  let s := fresh s
  match ownedAt s u v with
  | none => .next s
  | some d =>
    let t := beslNs s.u2d[d].besl
    .next (if (hubOf s u).connected && (dsOf s d).l1 then
        emit (.resumeK d t) (modDs d (fun x => { x with l1 := false, l1Exit := some (s.now + t) }) s)
      else s)

/-- L1_DEVICE_WAKE (R188): a device enabled for remote wake returns the port to L0, and C_PORT_L1 is set. -/
def execL1DeviceWake (d : DS) (s : State) : Res :=
  let s := fresh s
  if !(dsOf s d).l1 || !s.u2d[d].l1Wake then .next s
  else .next (chgPort d false .l1 (modDs d (fun x => { x with l1 := false }) s))

/-- The companion hub can enter L1 (R189): an entry of which the LMF has received a part is its transfer in progress. -/
def companionIdle (s : State) (u : US) : Bool :=
  s.mbx.lmf[u.idx].rx.isEmpty && allDs.all (fun d => ownerOf s d != some u ||
    (let x := dsOf s d
     (x.l1 || x.suspHost2 || x.suspHub2 || !x.enable || !x.shown2) && s.u2d[d].tt.per.all (fun p => p.result.isSome) &&
       s.u2d[d].tt.bufs.all (fun b => b.st == .done)))

/-- COMPANION_LPM (R189): ACK enters L1; NYET where another condition fails; STALL for any other link state. -/
def execCompanionLpm (u : US) (linkState besl : Nat) (remoteWake : Bool) (s : State) : Res :=
  let s := fresh s
  if !(hubOf s u).connected || (usOf s u).susp2 || (usOf s u).l1 then .next s
  else
    let s := hostSeen u s
    if linkState ≠ 1 then .next (emit (.lpm u .stall) s)
    else if companionIdle s u then
      .next (modU2u u (fun x => { x with l1Wake := remoteWake }) (modUs u (fun x => { x with l1 := true }) (emit (.lpm u .ack) s)))
    else .next (emit (.lpm u .nyet) s)

/-- The wakes that waited for the host's resume of the hub (R190): their ports return to L0. -/
def waitingL1 (u : US) (s : State) : State :=
  allDs.foldl (fun s d =>
    if ownerOf s d == some u && (dsOf s d).wakePend2 && (dsOf s d).l1 then
      chgPort d false .l1 (modDs d (fun x => { x with l1 := false, wakePend2 := false }) s) else s) s

/-- COMPANION_L1_EXIT (R190): a host's resume, or a permitted remote wake of a device, propagated as 60 µs of upstream K; a wake
that is not permitted waits for the host. -/
def execCompanionL1Exit (u : US) (byDev : Option DS) (s : State) : Res :=
  let s := fresh s
  if !(usOf s u).l1 then .next s
  else match byDev with
    | none => .next (waitingL1 u (modUs u (fun x => { x with l1 := false }) (hostSeen u s)))
    | some d =>
      if ownerOf s d != some u then .next s
      else if s.u2u[u.idx].l1Wake then .next (emit (.upWake u false) (modUs u (fun x => { x with l1 := false }) s))
      else .next (modDs d (fun x => { x with wakePend2 := true }) s)

end Sys2Proof.Machine
end

