-- ==== Sys2Proof/Machine/TtPath.lean ====
section
/-! DEFINITION. The transaction translators: non-periodic buffers, the periodic pipeline, translation by store and forward,
replay, and the hub requests for them (R174–R185, R262). -/

set_option Elab.async false

namespace Sys2Proof.Machine

/-- The port that a virtual port's translator serves: owned, enabled at full or low speed, with the upstream pair at high
speed (R162, R163). -/
def ttPort (s : State) (u : US) (v : Fin 15) : Option DS :=
  match ownedAt s u v with
  | some d =>
    if (dsOf s d).enable && (dsOf s d).test2 == 0 && (dsOf s d).speed2 != some .hs && (usOf s u).speed2 == 2 && (hubOf s u).connected &&
       !portFenced s (dsPort d) && !movingNow s d then some d else none
  | none => none

/-- The device-side address that a token built by the TT carries (R183). -/
def ttAddr (s : State) (d : DS) (a : Nat) : Nat := tokenAddr s d a

/-- The buffer of an endpoint and direction (R175). -/
def ttMatch (addr ep : Nat) (dirIn : Bool) (b : TtBuf) : Bool := b.addr == addr && b.ep == ep && b.dirIn == dirIn

/-- A virtual port whose complete-splits are answered, with ERR where its translator holds nothing (R179, R185): owned, the upstream pair at
high speed. -/
def ttSlot (s : State) (u : US) (v : Fin 15) : Option DS :=
  if (usOf s u).speed2 == 2 && (hubOf s u).connected then ownedAt s u v else none

/-- The payload that a non-periodic buffer holds (R174). -/
def ttMax (low : Bool) : Nat := if low then 8 else 64

/-- The context a host-side address names on a port. -/
def ctxByHost (s : State) (d : DS) (a : Nat) : Option (Nat × Ctx) :=
  s.vig.ctx.find? (fun c => c.2.port == d && (if c.2.translated then c.2.haddr == a else c.2.daddr == some a))

/-! ### Replay (R262) -/

/-- A record that may be replayed to an endpoint (R262). -/
def replayable (s : State) (c : Ctx) (ep : Nat) (r : CapRec) : Bool :=
  r.typ == 1 && r.hubPort == c.hubPort && r.epdir == 128 + ep && some r.daddr == c.daddr && !bit r.flags 0 && !bit r.flags 4 &&
    !r.damaged && !bit r.flags 6 && decide (r.time ≥ portEpisode s c.port)

/-- A record was too old to be replayed when the first start-split of the replay arrived (R262). -/
def tooOld (s : State) (d : DS) (first : Nat) (r : CapRec) : Bool := decide (first > r.time + (polOf s d).replayAge * 1000000000)

/-- The episode of a device is open to replay: its host has absorbed its configuration (R258, R262). -/
def replays (s : State) (c : Ctx) (ep : Nat) : Bool :=
  (polOf s c.port).mode == 2 && (polOf s c.port).replay && c.st == .ready && decide (c.speed ≤ 1) &&
    c.eps.any (fun e => e.d.ep == ep && e.d.dirIn && e.opn && e.replaying)

/-- REPLAY_SPLIT (R262): the result of a start-split of a replaying endpoint: the next record with PID HT; after the last one, NAK
until the recomputed entry is in force, and then live data (none). -/
def replaySplit (d : DS) (addr ep : Nat) (s : State) : State × Option UsbResp :=
  match ctxByHost s d addr with
  | none => (s, none)
  | some c =>
    if !replays s c.2 ep then (s, none)
    else
      let at_ := (c.2.eps.find? (fun e => e.d.ep == ep && e.d.dirIn)).bind (·.replayAt)
      let first := at_.getD s.now
      let recs := s.vig.rings[d].recs.filter (replayable s c.2 ep)
      let s0 := if at_.isSome then s
        else modEp c.1 ep true (fun e => { e with replayAt := some s.now })
          (modRing d (fun r => { r with skipped := r.skipped + (recs.filter (tooOld s d first)).length }) s)
      match recs.find? (fun r => !tooOld s d first r) with
      | some r =>
        let ht := (c.2.eps.find? (fun e => e.d.ep == ep && e.d.dirIn)).map (·.ht)
        let s1 := modRing d (fun g => { g with recs := g.recs.map (fun x => if x.seq = r.seq ∧ x.typ = 1 then
          { x with flags := x.flags + 64 } else x) }) s0
        let s2 := modEp c.1 ep true (fun e => { e with ht := (e.ht + 1) % 2 }) s1
        (s2, some (.data (if ht = some 0 then .data0 else .data1) r.payload))
      | none =>
        let s1 := retranslate c.1 s0
        if (tabGet s1.place.trPend c.1).isSome then (s1, some (.hs .nak))
        else (modEp c.1 ep true (fun e => { e with replaying := false }) s1, none)

/-! ### Charges (R195, R206) -/

/-- A split phase on the upstream high-speed pair charged to its endpoint's queue: a high-speed transaction and its split token (R195). -/
def chargeSplit (u : US) (d : DS) (daddr ep : Nat) (dirIn : Bool) (n : Nat) (s : State) : State :=
  match findEpq s d daddr ep dirIn with
  | none => s
  | some q => modEpq q (fun x =>
      let len := n + ovhOf s (usPort u) (if x.cls = 1 then 3 else 2) + ovhOf s (usPort u) 4
      { x with charged := min (2 ^ 64 - 1) (x.charged + len), sCharged := x.sCharged + len }) s

/-! ### Non-periodic splits (R175, R177) -/

/-- What a new buffer takes, in the order of R30: a tag of its class's pool, then DRAM space for bulk OUT data that must spill (R93, R177), or
a cell of the class's pool (R174). -/
def ttRoom (s : State) (d : DS) (b : TtBuf) : Option (TtBuf × State) :=
  let cls := if b.ctl then 3 else 4
  let e := b.epq.bind (epqOf s)
  let chv := e.bind (·.chv)
  let cell : Option (TtBuf × State) := (takeCells s cls d 1).map (fun l => ({ b with tag := chv, cells := l }, s))
  if !tagFree s cls chv then none
  else match b.epq, e with
    | some q, some e =>
      if !b.dirIn && !b.ctl && mustSpill s q e then
        (spillRoom s e (spillUnits b.data.length)).map (fun x =>
          ({ b with tag := chv, spilled := true, unit := x.1 }, modEpq q (fun y => { y with extents := x.2.1, spillOff := x.2.2 }) s))
      else cell
    | _, _ => cell

/-- A buffer accepted in place of any that its endpoint held: the start-split is ACKed, and the buffer is PENDING, or DONE where replay
completes it; with no tag or room it is NAKed as where none is free. -/
def acceptSplit (u : US) (d : DS) (b : TtBuf) (s : State) : State :=
  match ttRoom (modTt d (fun t => { t with bufs := t.bufs.filter (fun x => !ttMatch b.addr b.ep b.dirIn x) }) s) d b with
  | none => emit (.split u (.hs .nak)) s
  | some y =>
    let x := if b.dirIn && !b.ctl then replaySplit d b.addr b.ep y.2 else (y.2, none)
    let b1 := match x.2 with
      | some r => { y.1 with st := .done, result := some r, doneAt := x.1.now }
      | none => y.1
    settle (emit (.split u (.hs .ack)) (modTt d (fun t => { t with bufs := t.bufs ++ [b1] }) x.1))

/-- SSPLIT_NON_PERIODIC (R175, R183, R184, R262). OUT data that a buffer cannot hold gets no response, as data that fails its CRC16 does
(R174). -/
def execSsplitNonPeriodic (u : US) (v : Fin 15) (addr ep : Nat) (dirIn setup ctl low : Bool) (pid : DPid) (data : List Byte)
    (crcOk : Bool) (s : State) : Res :=
  let s := fresh s
  match ttPort s u v with
  | none => .next s
  | some d =>
    let da := ttAddr s d addr
    let s := chargeSplit u d da ep dirIn (if dirIn then 0 else data.length) (hostSeen u s)
    let t := s.u2d[d].tt
    if !dirIn && (!crcOk || decide (data.length > ttMax low)) then .next s
    else if t.stopped then .next (emit (.split u (.hs .nak)) s)
    else
      let inv := !dirIn && !ctl && invertOf s d da ep false
      let b : TtBuf := { addr := addr, ep := ep, dirIn := dirIn, setup := setup, ctl := ctl, low := low
                         pid := if inv then flipPid pid else pid, data := data, epq := findEpq s d da ep dirIn }
      .next (match t.bufs.find? (ttMatch addr ep dirIn) with
        | none => if t.bufs.length < 16 then acceptSplit u d b s else emit (.split u (.hs .nak)) s
        | some x =>
          if setup then (if x.st == .executing then emit (.split u (.hs .nak)) s else acceptSplit u d b s)
          else if x.st == .done && x.returned then acceptSplit u d b s
          else emit (.split u (.hs .nak)) s)

/-- The first return of an IN result: evidence data is mirrored (R257). -/
def mirrorTt (d : DS) (addr ep : Nat) (r : UsbResp) (time : Nat) (s : State) : State :=
  match r, ctxByHost s d addr with
  | .data _ l, some c =>
    if c.2.eps.any (fun e => e.d.ep == ep && e.d.dirIn && e.evidence) then captureData c.2 ep 16 time l s else s
  | _, _ => s

/-- CSPLIT_NON_PERIODIC (R175, R177, R185): a buffer that was cleared while executing gives no response any more. -/
def execCsplitNonPeriodic (u : US) (v : Fin 15) (addr ep : Nat) (dirIn : Bool) (s : State) : Res :=
  let s := fresh s
  match ttPort s u v with
  | none => .next s
  | some d =>
    let s := chargeSplit u d (ttAddr s d addr) ep dirIn 0 (hostSeen u s)
    match s.u2d[d].tt.bufs.find? (fun b => ttMatch addr ep dirIn b && !b.freeAtEnd) with
    | none => .next s
    | some b =>
      match b.st, b.result with
      | .done, some r =>
        if b.spilled && b.dirIn then .next (emit (.split u (.hs .nyet)) s)
        else
          let s1 := if b.returned then s else mirrorTt d addr ep r b.doneAt s
          .next (emit (.split u r) (modTt d (fun t => { t with
            bufs := t.bufs.map (fun x => if ttMatch addr ep dirIn x then { x with returned := true } else x) }) s1))
      | .done, none => .next s
      | _, _ => .next (emit (.split u (.hs .nyet)) s)

/-- A spilled buffer's data brought back into a cell of PKB, where one is free (R177). -/
def unspill (s : State) (d : DS) (b : TtBuf) : Option TtBuf :=
  if b.spilled then (takeCells s 4 d 1).map (fun l => { b with spilled := false, cells := l }) else some b

/-- SPILLED_RESULT_FETCH (R177): a spilled result is back in PKB; its extent goes back where it is drained. -/
def execSpilledResultFetch (d : DS) (addr ep : Nat) (s : State) : Res :=
  let s := fresh s
  match s.u2d[d].tt.bufs.findIdx? (fun b => b.addr == addr && b.ep == ep && b.spilled) with
  | none => .next s
  | some i =>
    match (s.u2d[d].tt.bufs[i]?).bind (unspill s d) with
    | none => .next s
    | some b => .next (settle (modTt d (fun t => { t with bufs := t.bufs.modify i (fun _ => b) }) s))

/-! ### Running non-periodic work (R176, R183) -/

/-- The microframe that a port's owning host is in, by its count (R178). -/
def slotNow (s : State) (d : DS) : Nat := match ownerOf s d with | some u => s.u2u[u.idx].uframe | none => 0

/-- The queue of an endpoint may be served: its Chervil runs (R26). -/
def served (s : State) (d : DS) (daddr ep : Nat) (dirIn : Bool) : Bool :=
  match findEpq s d daddr ep dirIn with
  | some q => (match epqOf s q with | some e => e.chv.isSome && !epqFenced s q e | none => true)
  | none => true

/-- A periodic transaction of the pipeline that has still to run, whose Chervil can run it. -/
def perWaits (s : State) (d : DS) (p : TtPer) : Bool := p.result.isNone && served s d (ttAddr s d p.addr) p.ep p.dirIn

/-- A periodic transaction is ready to run (R176). -/
def periodicReady (s : State) (d : DS) : Bool := s.u2d[d].tt.per.any (fun p => perWaits s d p && decide (p.slot ≤ slotNow s d))

/-- The worst-case length of a transaction in FS bit times: token 35, data 35 and its payload, handshake 19, all at a bit-stuffing ratio of
7/6, turnaround 4 and gap 2; eight times that at low speed (R176, R195). DEDUCED: a payload as long as a buffer holds is taken for IN
(log entry 96). -/
def worstBits (b : TtBuf) : Nat :=
  let n := if b.dirIn then ttMax b.low else b.data.length
  (((35 + 35 + 8 * n + 19) * 7 + 5) / 6 + 6) * (if b.low then 8 else 1)

/-- The time since a frame of a port's owning hub began, in thousandths of a full-speed bit time (R178, R186). -/
def frameBits (s : State) (d : DS) : Nat := match ownerOf s d with
  | some u => ((s.u2u[u.idx].micro * 125000 + sinceSof s d) % 1000000) * 12
  | none => 0

/-- A transaction may start (R176, R186): it ends within its slot, or the next slot holds no periodic transaction; and it ends before EOF1,
32 bit times before the frame's end. -/
def fitsSlot (s : State) (d : DS) (b : TtBuf) : Bool :=
  (decide (sinceSof s d * 12 + worstBits b * 1000 < 1500000) ||
      !s.u2d[d].tt.per.any (fun p => p.result.isNone && p.slot == slotNow s d + 1)) &&
    decide (frameBits s d + worstBits b * 1000 < 11968000)

/-- A buffer whose transaction may go on the bus: PENDING, its Chervil runs and may issue it (R13, R26), it fits (R176, R186). -/
def ttMayStart (s : State) (d : DS) (b : TtBuf) : Bool :=
  b.st == .pending && served s d (ttAddr s d b.addr) b.ep b.dirIn && fitsSlot s d b &&
    (b.tag.isSome || (match (b.epq.bind (epqOf s)).bind (·.chv) with | some c => decide (chvTags s c < 128) | none => true))

/-- PRE goes before a low-speed transaction that runs on a full-speed bus: the device stands behind a full-speed hub (R162). -/
def needsPre (s : State) (d : DS) (low : Bool) : Bool := low && (dsOf s d).speed2 == some .fs

/-- TT_TRANSACTION_START (R162, R176, R183, R186): the oldest PENDING transaction that may start goes on the bus, and keeps the address and the
IN invert bit it finds. -/
def execTtTransactionStart (d : DS) (s : State) : Res :=
  let s := fresh s
  let t := s.u2d[d].tt
  if t.stopped || periodicReady s d || t.bufs.any (·.st == .executing) || !(dsOf s d).enable || (dsOf s d).test2 != 0 then .next s
  else match t.bufs.findIdx? (ttMayStart s d) with
    | none => .next s
    | some i =>
      match (t.bufs[i]?).bind (unspill s d) with
      | none => .next s
      | some b =>
        let da := ttAddr s d b.addr
        .next (settle (emit (.ttTrans d da b.ep b.dirIn b.setup (needsPre s d b.low) b.pid b.data)
          (modTt d (fun t => { t with bufs := t.bufs.modify i (fun _ => { b with
            st := .executing, attempts := b.attempts + 1, daddr := da, inv := b.dirIn && !b.ctl && invertOf s d da b.ep true
            tag := match b.tag with | some c => some c | none => (b.epq.bind (epqOf s)).bind (·.chv) }) }) s)))

/-- The meter of a TT path (R206), at the full- or low-speed overheads of R195. -/
def meterTt (d : DS) (daddr ep : Nat) (dirIn : Bool) (n : Nat) (s : State) : State :=
  match findEpq s d daddr ep dirIn with
  | none => s
  | some q =>
    match epqOf s q with
    | none => s
    | some e =>
      let base := n + ovhOf s (dsPort d) (if e.cls = 1 then 6 else 5)
      let len := if (dsOf s d).speed2 == some .ls then 8 * base else base
      modEpq q (fun x => { x with packets := min (2 ^ 48 - 1) (x.packets + 1), payload := min (2 ^ 64 - 1) (x.payload + n)
                                  charged := min (2 ^ 64 - 1) (x.charged + len), sCharged := x.sCharged + len
                                  sPackets := x.sPackets + 1 }) (police q len s).1

/-- The shadow's toggles after a transaction the TT ran (R242). -/
def ttShadow (d : DS) (daddr ep : Nat) (dirIn : Bool) (r : UsbResp) (s : State) : State :=
  match ctxByAddr s d daddr, r with
  | some c, .data _ _ => if dirIn then modEp c.1 ep true advToggle s else s
  | some c, .hs .ack => if dirIn then s else modEp c.1 ep false advToggle s
  | _, _ => s

/-- The result as the host sees it: an IN result's PID inverted where the IN invert bit is set (R183). -/
def ttResult (inv : Bool) (r : UsbResp) : UsbResp := match r with
  | .data p l => .data (if inv then flipPid p else p) l
  | r => r

/-- A DONE bulk IN result written to DRAM, where the rules of R93 send it there and there is room (R177). -/
def spillResult (b : TtBuf) (s : State) : TtBuf × State :=
  match b.epq, b.epq.bind (epqOf s), b.result with
  | some q, some e, some (.data _ l) =>
    if b.dirIn && !b.ctl && mustSpill s q e then
      (match spillRoom s e (spillUnits l.length) with
       | some x => ({ b with spilled := true, cells := [], unit := x.1 }, modEpq q (fun y => { y with extents := x.2.1, spillOff := x.2.2 }) s)
       | none => (b, s))
    else (b, s)
  | _, _, _ => (b, s)

/-- A device's answer that a buffer cannot hold is a bus error (R174). -/
def ttAnswer (b : TtBuf) (r : Option UsbResp) : Option UsbResp := match r with
  | some (.data p l) => if l.length ≤ ttMax b.low then some (.data p l) else none
  | r => r

/-- TT_TRANSACTION_END (R176, R177, R184, R185): the device's answer is the result; a bus error is attempted again, up to three times. -/
def execTtTransactionEnd (d : DS) (r : Option UsbResp) (s : State) : Res :=
  let s := fresh s
  match s.u2d[d].tt.bufs.findIdx? (·.st == .executing) with
  | none => .next s
  | some i =>
    match s.u2d[d].tt.bufs[i]? with
    | none => .next s
    | some b =>
      let put (b : TtBuf) (s : State) : State := modTt d (fun t => { t with bufs := t.bufs.modify i (fun _ => b) }) s
      if b.freeAtEnd then .next (settle (modTt d (fun t => { t with bufs := t.bufs.eraseIdx i }) s))
      else match ttAnswer b r with
        | some x =>
          let s1 := ttShadow d b.daddr b.ep b.dirIn x (availGo (dsCode d) s)
          let s2 := meterTt d b.daddr b.ep b.dirIn (match x with | .data _ l => l.length | _ => b.data.length) s1
          let y := spillResult { b with st := .done, result := some (ttResult b.inv x), returned := false, doneAt := s2.now } s2
          let s3 := settle (put y.1 y.2)
          .next (if portVigil s3 d then captureTt d s3 else s3)
        | none => .next (if b.attempts < 3 then put { b with st := .pending } s
            else put { b with st := .done, result := none, returned := false } s)

/-! ### The periodic pipeline (R178–R180) -/

/-- The bytes that a periodic start-split brings to its slot: OUT data, or the IN endpoint's packet size as far as a slot holds it (R179). -/
def perBytes (s : State) (d : DS) (addr ep : Nat) (dirIn : Bool) (data : List Byte) : Nat :=
  if dirIn then (match (findEpq s d (ttAddr s d addr) ep true).bind (epqOf s) with | some e => min e.mps 188 | none => 0)
  else data.length

/-- Bytes that a slot holds in a direction (R179). -/
def slotBytes (s : State) (d : DS) (slot : Nat) (dirIn : Bool) : Nat :=
  ((s.u2d[d].tt.per.filter (fun p => p.slot == slot && p.dirIn == dirIn && !p.drop)).map (fun p =>
    perBytes s d p.addr p.ep p.dirIn p.data)).foldl (· + ·) 0

/-- A slot, its endpoint's reservation (R142, R174) or the tags (R19) cannot take a periodic start-split. -/
def slotFull (s : State) (d : DS) (slot addr ep : Nat) (dirIn : Bool) (data : List Byte) : Bool :=
  let n := perBytes s d addr ep dirIn data
  let e := (findEpq s d (ttAddr s d addr) ep dirIn).bind (epqOf s)
  decide ((s.u2d[d].tt.per.filter (fun p => p.slot == slot && !p.drop)).length ≥ 16) || decide (slotBytes s d slot dirIn + n > 188) ||
    (match e with | some e => decide (e.reserved * 128 < n) | none => false) || !tagFree s 1 (e.bind (·.chv))

/-- SSPLIT_PERIODIC (R179, R184, R262): placed in the next slot, or dropped and counted; a dropped one's complete-splits find ERR. -/
def execSsplitPeriodic (u : US) (v : Fin 15) (addr ep : Nat) (dirIn iso low : Bool) (pid : DPid) (data : List Byte) (s : State) :
    Res :=
  let s := fresh s
  match ttPort s u v with
  | none => .next s
  | some d =>
    let da := ttAddr s d addr
    let s := chargeSplit u d da ep dirIn (if dirIn then 0 else data.length) (hostSeen u s)
    let slot := s.u2u[u.idx].uframe + 1
    let q := findEpq s d da ep dirIn
    let p : TtPer := { slot := slot, addr := addr, ep := ep, dirIn := dirIn, iso := iso, low := low, data := data, epq := q
                       pid := if !dirIn && !iso && invertOf s d da ep false then flipPid pid else pid }
    if s.u2d[d].tt.stopped then .next s
    else if slotFull s d slot addr ep dirIn data then
      .next (modTt d (fun t => { t with
        dropped := t.dropped + 1
        per := t.per ++ [{ p with data := [], drop := true, result := some (.hs .err), doneAt := s.now }] }) s)
    else
      let x := if dirIn && !iso then replaySplit d addr ep s else (s, none)
      .next (modTt d (fun t => { t with
        per := t.per ++ [{ p with result := x.2, doneAt := x.1.now, tag := (q.bind (epqOf s)).bind (·.chv) }] }) x.1)

/-- One transaction of the pipeline run: its token, and the device's answer or a bus error as its result. -/
def runPeriodic (d : DS) (p : TtPer) (r : Option UsbResp) (s : State) : State :=
  let da := ttAddr s d p.addr
  let res : UsbResp := match r with
    | some r => if p.iso && !p.dirIn then .hs .ack else ttResult (p.dirIn && invertOf s d da p.ep true) r
    | none => .hs .err
  let s1 := emit (.ttTrans d da p.ep p.dirIn false (needsPre s d p.low) p.pid p.data) s
  let s2 := match r with
    | some r => meterTt d da p.ep p.dirIn (match r with | .data _ l => l.length | _ => p.data.length)
        (if p.iso then s1 else ttShadow d da p.ep p.dirIn r (availGo (dsCode d) s1))
    | none => s1
  modTt d (fun t => { t with per := t.per.map (fun y => if y == p then { y with result := some res, doneAt := s2.now } else y) }) s2

/-- TT_PERIODIC_SLOT_RUN (R26, R179): the transactions of the current slot whose Chervil runs are run in arrival order, once each; none is a
bus error. -/
def execTtPeriodicSlotRun (d : DS) (rs : List (Option UsbResp)) (s : State) : Res :=
  let s := fresh s
  if (ownerOf s d).isNone || s.u2d[d].tt.stopped || !(dsOf s d).enable || (dsOf s d).test2 != 0 then .next s
  else
    let todo := s.u2d[d].tt.per.filter (fun p => perWaits s d p && decide (p.slot ≤ slotNow s d))
    .next (todo.zipIdx.foldl (fun s x => runPeriodic d x.1 (rs.getD x.2 none) s) s)

/-- The answer of a periodic result to its next complete-split (R179): an isochronous IN payload goes out in parts of 188 bytes, MDATA while
more follows and DATA0 for the last. DEDUCED: a part is what a microframe carries (log entry 96). -/
def perAnswer (p : TtPer) (r : UsbResp) : UsbResp := match r with
  | .data pid l =>
    if p.iso then (if p.sent + 188 < l.length then .data .mdata (slice l p.sent 188) else .data .data0 (l.drop p.sent))
    else .data pid l
  | r => r

/-- The part of an isochronous payload that stands before the next one once an answer is given; the last part stays the next. -/
def perSent (p : TtPer) (r : UsbResp) : Nat := match r with
  | .data _ l => if p.iso && decide (p.sent + 188 < l.length) then p.sent + 188 else p.sent
  | _ => p.sent

/-- CSPLIT_PERIODIC (R179, R180, R185): NYET before the transaction has run; then the result, which stays to the end of its slot's time; ERR
where nothing is held. -/
def execCsplitPeriodic (u : US) (v : Fin 15) (addr ep : Nat) (dirIn : Bool) (s : State) : Res :=
  let s := fresh s
  match ttSlot s u v with
  | none => .next s
  | some d =>
    let s := chargeSplit u d (ttAddr s d addr) ep dirIn 0 (hostSeen u s)
    let hit (p : TtPer) : Bool := p.addr == addr && p.ep == ep && p.dirIn == dirIn
    let l := s.u2d[d].tt.per
    match (if (ttPort s u v).isNone then none else match l.find? (fun p => hit p && !p.returned) with
        | some p => some p
        | none => l.reverse.find? hit) with
    | none => .next (emit (.split u (.hs .err)) s)
    | some p =>
      match p.result with
      | none => .next (emit (.split u (.hs .nyet)) s)
      | some r =>
        if p.iso && !dirIn then .next s
        else
          let s1 := if p.returned then s else mirrorTt d addr ep r p.doneAt s
          let last := perSent p r == p.sent
          .next (emit (.split u (perAnswer p r)) (modTt d (fun t => { t with
            per := t.per.map (fun y => if y == p then { y with sent := perSent p r, returned := p.returned || last } else y) }) s1))

/-- TT_SLOT_RESULT_EXPIRY (R180, R250): after the end of slot Y + 4 what the slot held is discarded and counted; a result never returned is
captured with ORPHAN on an armed port. -/
def execTtSlotResultExpiry (d : DS) (s : State) : Res :=
  let s := fresh s
  let old : List TtPer := s.u2d[d].tt.per.filter (fun p => decide (p.slot + 4 < slotNow s d))
  let s1 := old.foldl (fun s p =>
    match p.result, ctxByHost s d p.addr with
    | some (.data _ l), some c =>
      if isArmed s d && p.dirIn && !p.iso && !p.returned then captureData c.2 p.ep (capFlags p.returned true false) p.doneAt l s else s
    | _, _ => s) s
  .next (settle (modTt d (fun t => { t with
    expired := t.expired + (old.filter (!·.drop)).length, per := t.per.filter (fun p => !old.contains p) }) s1))

/-- TT_FS_FRAME_START (R178): at the SOF of microframe 0, which the repeater has counted, each TT of the hub sends its full-speed SOF, or its
low-speed keep-alive. -/
def execTtFsFrameStart (u : US) (frame : Nat) (s : State) : Res :=
  let s := fresh s
  if !(hubOf s u).connected || (usOf s u).speed2 != 2 || (usOf s u).susp2 then .next s
  else .next (allDs.foldl (fun s d =>
    let x := dsOf s d
    if ownerOf s d == some u && x.enable && x.test2 == 0 && x.speed2 != some .hs && !x.suspHost2 && !x.suspHub2 && !portFenced s (dsPort d) then
      emit (if x.speed2 == some .ls then .keepAlive d else .sof d frame) (modTt d (fun t => { t with frame := frame }) s)
    else s) (hostSeen u s))

/-! ### Hub requests (R182, R184) -/

/-- The translators that a TT request names (R182): the port of wIndex, or every owned one in single-TT operation with TT_port 1. DESIGN
CHOICE: in single-TT operation another TT_port names none, and the request completes without effect (log entry 96). -/
def ttTargets (s : State) (u : US) (wIndex : Nat) : List DS :=
  if (hubOf s u).multiTt then
    (if h : 1 ≤ wIndex ∧ wIndex ≤ 15 then (match ownedAt s u ⟨wIndex - 1, by omega⟩ with | some d => [d] | none => []) else [])
  else if wIndex = 1 then allDs.filter (fun d => ownerOf s d == some u)
  else []

/-- The buffer that wValue of CLEAR_TT_BUFFER names, in USB 2.0's layout: endpoint [3:0], address [10:4], type [12:11], direction
[15]. -/
def clearMatch (wValue : Nat) (b : TtBuf) : Bool :=
  b.ep == bits wValue 3 0 && b.addr == bits wValue 10 4 && (b.ctl || b.dirIn == bit wValue 15)

/-- CLEAR_TT_BUFFER (R184). -/
def execClearTtBuffer (u : US) (wValue wIndex : Nat) (s : State) : Res :=
  let s := fresh s
  if !(hubOf s u).connected then .next s
  else .next (emit (.control u []) (settle ((ttTargets s u wIndex).foldl (fun s d =>
    modTt d (fun t => { t with
      bufs := (t.bufs.filter (fun b => !(clearMatch wValue b && b.st != .executing))).map (fun b =>
        if clearMatch wValue b then { b with freeAtEnd := true } else b) }) s) s)))

/-- RESET_TT (R184). -/
def execResetTt (u : US) (wIndex : Nat) (s : State) : Res :=
  let s := fresh s
  if !(hubOf s u).connected then .next s
  else .next (emit (.control u []) ((ttTargets s u wIndex).foldl (fun s d => ttReset d s) s))

/-- GET_TT_STATE (R184): answered with STALL. -/
def execGetTtState (u : US) (wIndex : Nat) (s : State) : Res :=
  let s := fresh s
  .next (if (hubOf s u).connected && decide (wIndex < 65536) then emit (.stall u) s else s)

/-- STOP_TT (R184). -/
def execStopTt (u : US) (wIndex : Nat) (s : State) : Res :=
  let s := fresh s
  if !(hubOf s u).connected then .next s
  else .next (emit (.control u []) ((ttTargets s u wIndex).foldl (fun s d => modTt d (fun t => { t with stopped := true }) s) s))

/-- COMPANION_SET_INTERFACE (R182): alternate setting 0 is single-TT, 1 multi-TT; a change acts as RESET_TT on every owned port. -/
def execCompanionSetInterface (u : US) (alt : Nat) (s : State) : Res :=
  let s := fresh s
  if !(hubOf s u).connected then .next s
  else if alt > 1 then .next (emit (.stall u) s)
  else
    let s1 := emit (.control u []) s
    .next (if (hubOf s u).multiTt = decide (alt = 1) then s1
      else (allDs.filter (fun d => ownerOf s1 d == some u)).foldl (fun s d => ttReset d s)
        (modHub u (fun h => { h with multiTt := decide (alt = 1) }) s1))

end Sys2Proof.Machine
end

