-- ==== Sys2Proof/Machine/Vigil.lean ====
section
/-! DEFINITION. Vigil: SOF keeping and the proxy host (R249, R251), absorption of a returning host's enumeration (R258–R261), the
shadow's following of control requests (R241–R244), the hold deadline (R266) and the Vigil commands (R456–R458). -/

set_option Elab.async false

namespace Sys2Proof.Machine

/-! ### SOF keeping (R249) -/

/-- A port is kept for its absent host: armed, with a READY context (R249). -/
def keepable (s : State) (d : DS) : Bool := isArmed s d && (portCtxs s d).any (fun c => c.2.st == .ready)

/-- The device of a context sleeps: selectively suspended by its owning host (R251). -/
def ctxAsleep (s : State) (c : Ctx) : Bool :=
  c.suspended || (if c.speed ≥ 3 then (dsOf s c.port).suspHost3 else (dsOf s c.port).suspHost2)

/-- The port gets SOF or ITP from the controller: kept, or with a device that the proxy host serves (R249, R251). -/
def sofPort (s : State) (d : DS) : Bool :=
  !portFenced s (dsPort d) &&
    (s.u2d[d].kept || portVigil s d) && (portCtxs s d).any (fun c => !ctxAsleep s c.2 && (c.2.st == .held || c.2.st == .ready))

/-- The next refill tick at or after a lane time (R201). -/
def tickAfter (t : Nat) : Nat := (t + 124999) / 125000 * 125000

/-- The bus interval that an ITP names, from the microframe count (R251). -/
def itpStamp (x : Us2) : Nat := x.uframe % 16384

/-- The counts of a microframe made at a lane time, n after the last one (R249). -/
def frameStep (t n : Nat) (x : Us2) : Us2 :=
  let m := x.micro + n
  { x with uframe := x.uframe + n, micro := m % 8, frame := (x.frame + m / 8) % 2048, keep := some t }

/-- A microframe that the controller makes, on the ports that a test selects: SOF on high-speed ports, the frame's SOF on TT ports in
microframe 0, ITP on SuperSpeed links in U0 under Vigil (R249, R251); with it the port forwards again (R34). -/
def frameOut (sel : DS → Bool) (y : Us2) (s : State) : State :=
  allDs.foldl (fun s d =>
    if !sel d || !sofPort s d then s
    else
      let s2 :=
        if (dsOf s d).enable then
          (match (dsOf s d).speed2 with
           | some .hs => emit (.sof d y.frame) s
           | some v => if y.micro = 0 then emit (if v == .ls then .keepAlive d else .sof d y.frame) (modTt d (fun t => { t with frame := y.frame }) s) else s
           | none => s)
        else s
      availGo (dsCode d) (if (dsOf s2 d).link == .u0 && portVigil s2 d then emit (.itp d (itpStamp y) false) s2 else s2)) s

/-- A microframe on the ports of a hub, at a lane time, n after the last one. -/
def keptFrame (u : US) (t n : Nat) (s : State) : State :=
  let s0 := advanceTo t s
  let y := frameStep t n s0.u2u[u.idx]
  frameOut (fun d => ownerOf s0 d == some u) y (modU2u u (fun _ => y) s0)

/-- SOF_KEEPING_START (R249): after 250 µs without a host SOF the controller sends SOF itself, from the next refill tick. -/
def execSofKeepingStart (u : US) (s : State) : Res :=
  let s := fresh s
  let x := s.u2u[u.idx]
  match x.lastSof, x.keep with
  | some t, none =>
    let ds := allDs.filter (fun d => ownerOf s d == some u && keepable s d)
    if (usOf s u).speed2 != 2 || ds.isEmpty || (hubOf s u).state != .attached then .next s
    else
      let at_ := tickAfter (max (t + 250000) s.now)
      let s1 := ds.foldl (fun s d => modU2d d (fun y => { y with kept := true }) s) s
      .next (keptFrame u at_ (max 1 ((at_ - t) / 125000)) s1)
  | _, _ => .next s

/-- The kept microframe of a hub's ports, 125 µs after the last one; a hub in VIGIL whose SOF was not kept before starts at the next tick, and
under an attached hub the ports in step 2 of a move get it (R274). -/
def keptOwned (u : US) (s : State) : State :=
  if !allDs.any (fun d => ownerOf s d == some u && sofPort s d) then s
  else match s.u2u[u.idx].keep with
    | some t => keptFrame u (t + 125000) 1 s
    | none =>
      if (hubOf s u).state == .attached || (hubOf s u).state == .suspended then
        let x := s.u2u[u.idx]
        let t := tickAfter s.now
        frameOut (fun d => ownerOf s d == some u && movingNow s d) (frameStep t (max 1 ((t - x.lastSof.getD t) / 125000)) x) (advanceTo t s)
      else keptFrame u (tickAfter s.now) 1 s

/-- The kept microframe of the armed ports that no hub owns (R118). DESIGN CHOICE: they have a count of their own and are served with US0's
(log entry 98). -/
def keptIdle (s : State) : State :=
  if !allDs.any (fun d => ownerOf s d == none && sofPort s d) then modVig (fun v => { v with idle := { v.idle with keep := none } }) s
  else
    let t := match s.vig.idle.keep with | some t => t + 125000 | none => tickAfter s.now
    let s0 := advanceTo t s
    let y := frameStep t 1 s0.vig.idle
    frameOut (fun d => ownerOf s0 d == none) y (modVig (fun v => { v with idle := y }) s0)

/-- KEPT_SOF (R118, R249, R251). -/
def execKeptSof (u : US) (s : State) : Res :=
  let s1 := keptOwned u (fresh s)
  .next (if u == .us0 then keptIdle s1 else s1)

/-- KEPT_PORT_SUSPEND (R249): 3 ms of idle J with the SuperSpeed link in U3 or untrained end SOF keeping; the ports suspend. -/
def execKeptPortSuspend (u : US) (s : State) : Res :=
  let s := fresh s
  if s.u2u[u.idx].keep.isNone || !hubSuspended s u || (hubOf s u).state == .vigil then .next s
  else
    let s1 := modU2u u (fun x => { x with keep := none }) s
    .next (modeSync (allDs.foldl (fun s d =>
      if ownerOf s d == some u && s.u2d[d].kept then
        modDs d (fun x => { x with suspHub2 := x.enable }) (modU2d d (fun y => { y with kept := false }) s)
      else s) s1))

/-! ### The proxy host (R251) -/

/-- The poll interval of an endpoint: its service interval but no less than 1 ms, or BULK_POLL (R251). -/
def pollInterval (s : State) (d : DS) (e : EpRec) : Nat :=
  if e.d.typ == EpType.interrupt then max 1000000 e.d.interval else (polOf s d).bulkPoll * 1000000

/-- The queue of an endpoint that is polled, with its Chervil in service (R251, R267). -/
def pollQueue (s : State) (x : Ctx) (e : EpRec) : Option (Nat × Epq) :=
  match (findEpq s x.port (x.daddr.getD 0) e.d.ep true) with
  | some q => (epqOf s q).bind (fun k => if k.chv.isSome && !epqFenced s q k then some (q, k) else none)
  | none => none

/-- The proxy host polls the endpoint (R251, R267), while its engines run. -/
def polled (s : State) (x : Ctx) (e : EpRec) : Bool :=
  x.st == .held && !s.sup.enginesHeld && (pollQueue s x e).isSome && portVigil s x.port && !portFenced s (dsPort x.port) && !ctxAsleep s x && e.opn && e.d.dirIn &&
    (e.d.typ == .interrupt || e.d.typ == .bulk) && !e.halted && !e.stopped && !e.erdyWait

/-- Data of a poll received (R251): metered, captured, and DT advanced past what the device sent; a red packet of a policer that drops
is not taken (R206). -/
def pollData (c : Nat) (x : Ctx) (e : EpRec) (seq : Nat) (l : List Byte) (s : State) : State :=
  let q := findEpq s x.port (x.daddr.getD 0) e.d.ep true
  let ss := decide (x.speed ≥ 3)
  let y := match q with
    | some q => police q (if ss then ssCharged s (dsPort x.port) l.length
                          else l.length + ovhOf s (dsPort x.port) (if e.d.typ == EpType.interrupt then 3 else 2)) s
    | none => (s, 0)
  let drops : Bool := match q with
    | some q => (match epqOf s q with | some k => k.policer.mode == 1 && y.2 == 2 | none => false)
    | none => false
  if drops then y.1
  else
    let s1 := captureData x e.d.ep 0 y.1.now l y.1
    modEp c e.d.ep true (fun e => { e with dt := if ss then (seq + 1) % 32 else (seq + 1) % 2, adopted := true, errs := 0 }) s1

/-- The finish tag of an endpoint's next poll (R199, R251), by its class's default weight. DESIGN CHOICE: a poll is charged its maximum packet, as
its data is not known before it (log entry 98). -/
def pollTag (s : State) (x : Ctx) (k : Epq) : Nat :=
  let l := dsPort x.port
  finishTag (laterOf (linkOf s l).v k.lf) (if x.speed ≥ 3 then ssCharged s l k.mps else k.mps + ovhOf s l 2) (clsWeight k.cls)

/-- Of the polls of a port that are due together the endpoint's is the first (R194, R200, R251). -/
def pollFirst (s : State) (x : Ctx) (e : EpRec) : Bool :=
  match pollQueue s x e with
  | none => false
  | some k =>
    let t := max s.now (e.polledAt + pollInterval s x.port e)
    !(portCtxs s x.port).any (fun c => c.2.eps.any (fun f =>
      polled s c.2 f && decide (f.polledAt + pollInterval s x.port f ≤ t) &&
        (match pollQueue s c.2 f with
         | some j => earlier (pollTag s c.2 j.2) (pollTag s x k.2) || (pollTag s c.2 j.2 == pollTag s x k.2 && tieBefore j k)
         | none => false)))

/-- A poll that is made: V and LF advance (R200). -/
def pollServed (x : Ctx) (e : EpRec) (s : State) : State :=
  match pollQueue s x e with
  | none => s
  | some k =>
    let f := pollTag s x k.2
    modEpq k.1 (fun y => { y with lf := f, tagged := false }) (modLink (dsPort x.port) (fun l => { l with v := f }) s)

/-- What a poll brought (R251). -/
def pollResult (c : Nat) (x : Ctx) (e : EpRec) (r : PollResp) (s : State) : State :=
  let ep := e.d.ep
  let a := x.daddr.getD 0
  match r with
  | .data seq l => pollData c x e seq l s
  | .nak => if x.speed ≥ 3 then modEp c ep true (fun e => { e with erdyWait := true, errs := 0 }) s
      else modEp c ep true (fun e => { e with errs := 0 }) s
  | .stall => modEp c ep true (fun e => { e with halted := true, stopped := true }) (capture x.port 2 0 x.hubPort a (128 + ep) s.now [] s)
  | .busError =>
    let s1 := modEp c ep true (fun e => { e with errs := e.errs + 1 }) s
    if e.errs + 1 < 3 then s1
    else modEp c ep true (fun e => { e with stopped := true }) (capture x.port 3 0 x.hubPort a (128 + ep) s1.now [] s1)

/-- PROXY_POLL (R34, R251): one transaction of a HELD device's interrupt or bulk IN endpoint at its interval, in the order of R200. -/
def execProxyPoll (c : Fin 96) (ep : Nat) (r : PollResp) (s : State) : Res :=
  let s := fresh s
  match ctxOf s c.val with
  | none => .next s
  | some x =>
    match x.eps.find? (fun e => e.d.ep == ep && e.d.dirIn) with
    | none => .next s
    | some e =>
      if !polled s x e || !pollFirst s x e then .next s
      else
        let s1 := emit (.poll x.port (x.daddr.getD 0) ep) (pollServed x e (advanceTo (e.polledAt + pollInterval s x.port e) s))
        .next (pollResult c.val x e r (availGo (dsCode x.port) (modEp c.val ep true (fun e => { e with polledAt := s1.now }) s1)))

/-- HELD_DEVICE_REMOTE_WAKE (R251): a held device's remote wake is answered with resume and polling, and never signalled upstream. -/
def execHeldDeviceRemoteWake (d : DS) (s : State) : Res :=
  let s := fresh s
  if !portVigil s d then .next s
  else
    let s1 := (portCtxs s d).foldl (fun s c => if c.2.st == .held then modCtx c.1 (fun x => { x with suspended := false }) s else s) s
    .next (modDs d (fun x => { x with suspHost2 := false, suspHub2 := false, suspHost3 := false, suspHub3 := false
                                      link := if x.link == .u3 then .u0 else x.link }) s1)

/-- The device capabilities of a BOS descriptor, each by its bytes, on fuel. -/
def bosCaps : Nat → List Byte → List (List Byte)
  | 0, _ => []
  | n + 1, l => match l with
    | [] => []
    | b :: _ => if b.toNat < 2 then [] else l.take b.toNat :: bosCaps n (l.drop b.toNat)

/-- A BOS descriptor advertises LPM: a USB 2.0 extension capability with its LPM bit (R251; PRESUMED layout of USB 2.0). -/
def bosLpm (l : List Byte) : Bool := (bosCaps 64 l).any (fun c => fld c 1 1 == 0x10 && fld c 2 1 == 2 && bit (fld c 3 4) 1)

/-- PROXY_LPM_IDLE (R251): L1 with BESL 4 and remote wake, to a held high-speed device with LPM and no polled endpoint, idle 10 ms. -/
def execProxyLpmIdle (d : DS) (answer : Option Hsk) (s : State) : Res :=
  let s := fresh s
  match ctxAt s d 0 false with
  | none => .next s
  | some c =>
    let x := c.2
    let noPoll := !x.eps.any (fun e => polled s x e)
    let lpm := x.cache.any (fun e => e.1.1 / 256 == 15 && bosLpm e.2)
    if x.st != .held || !portVigil s d || x.speed != 2 || !noPoll || !lpm || bit (devQuirks s x) 2 || ctxAsleep s x ||
        (dsOf s d).l1 || portFenced s (dsPort d) then .next s
    else
      let s1 := advanceTo (x.idleFrom + 10000000) s
      .next (match answer with
        | some .ack => modCtx c.1 (fun x => { x with lpm := true })
            (modU2d d (fun y => { y with besl := 4, l1Wake := true }) (modDs d (fun y => { y with l1 := true }) s1))
        | _ => modCtx c.1 (fun x => { x with idleFrom := s1.now }) s1)

/-! ### The returning host (R258–R261) -/

/-- RETURNING_HOST_FIRST_PACKET (R258): the first valid packet to a hub in VIGIL. -/
def execReturningHostFirstPacket (u : US) (s : State) : Res :=
  let s := fresh s
  if (hubOf s u).state != .vigil || !(hubOf s u).connected then .next s
  else .next (modVigHub u (fun h => { h with returned := true }) (hostSeen u s))

/-! ### The hold deadline, and a host's configuration of its hub (R247, R266) -/

/-- The hold deadline of a hub runs (R266, R457): the hub is in VIGIL, or one of its devices is HELD or ABSORBING. -/
def deadlineRuns (s : State) (u : US) : Bool :=
  (vigHub s u).deadline.isSome && ((hubOf s u).state == .vigil ||
    s.vig.ctx.any (fun c => ownerOf s c.2.port == some u && (c.2.st == .held || c.2.st == .absorbing)))

/-- HOLD_EXPIRY (R266, R275): every HELD or ABSORBING device of the hub is released, and a hub in VIGIL is DETACHED. -/
def holdExpiry (u : US) (s : State) : State :=
  match (vigHub s u).deadline with
  | none => s
  | some t =>
    if !deadlineRuns s u then s
    else
      let s1 := advanceTo t s
      let s2 := (s1.vig.ctx.filter (fun c => ownerOf s1 c.2.port == some u && (c.2.st == .held || c.2.st == .absorbing))).foldl
        (fun s c => releaseCtx c.1 8 s) s1
      let s3 := modVigHub u (fun h => { h with deadline := none }) s2
      if (hubOf s3 u).state == .vigil then hubTo u .detached s3 else s3

/-- A hold deadline that has been reached is carried out before what happens at that time (R8, R266). -/
def holdDue (u : US) (s : State) : State := match (vigHub s u).deadline with
  | some t => if t ≤ s.now then holdExpiry u s else s
  | none => s

/-- HUB_SET_CONFIGURATION (R119, R247, R261, R266, R275): a host configures a hub of the virtual hub, which becomes ATTACHED; proxy polling
stops, and connections that waited for it are reported. -/
def execHubSetConfiguration (u : US) (ss : Bool) (addr value : Nat) (s : State) : Res :=
  let s := fresh s
  if !(hubOf s u).connected || safeHolds s then .next s
  else
    let s0 := hostSeen u (holdDue u s)
    let s1 := modHub u (fun h => if ss then { h with addr3 := addr } else { h with addr2 := addr }) s0
    if value = 0 then .next (modHub u (fun h => { h with configured := false }) s1)
    else
      let s2 := modHub u (fun h => { h with configured := true }) s1
      match (hubOf s2 u).state with
      | .attached | .suspended => .next (hubPresence u s2)
      | _ => .next (presentWaiting u (hubTo u .attached (modFo u (fun f => { f with absentAt := none, waiting := false, queue := [] }) s2)))

/-! ### Absorption (R258–R260) -/

/-- A device's requests are absorbed on this port (R238, R239, R258). -/
def absorbs (s : State) (x : Ctx) : Bool := isArmed s x.port && devMode s x == 2

/-- The end of a device's episode (R254, R258, R470): EPISODE_END, and the ABSORBED event. -/
def endEpisode (c : Nat) (x : Ctx) (s : State) : State :=
  let s1 := capture x.port 7 0 x.hubPort (x.daddr.getD 0) 0 s.now [] s
  vigilEvent (portRings s1 x.port) (dsCode x.port) 2 0 c s1

/-- An absorbed port reset (R258, R259): no reset reaches the device, which is translated with host-side address 0. -/
def absorbReset (c : Nat) (warm : Bool) (s : State) : State :=
  retranslate c (modCtx c (fun x => { x with haddr := 0, translated := true, resetAt := some s.now, resetUsed := true
                                             resetWarm := warm, addrGot := false }) s)

/-- The port reset of a device is absorbed (R258): HELD or ABSORBING, DADDR known, and none absorbed since the host returned. -/
def resetAbsorbed (s : State) (x : Ctx) : Bool :=
  absorbs s x && (x.st == .held || x.st == .absorbing) && x.daddr.isSome && !x.resetUsed

/-- A context freed by a port reset that the controller forwards (R240, R258): with RESET_FORWARDED where absorption was in force. -/
def freeCtx (c : Nat) (x : Ctx) (s : State) : State :=
  let inEp := x.st == .held || x.st == .absorbing
  if inEp && absorbs s x then releaseCtx c 9 s
  else
    let s1 := if inEp then endEpisode c x s else s
    let s2 := modVig (fun v => { v with ctx := tabDel v.ctx c }) s1
    let s3 := { s2 with epqs := s2.epqs.map (fun e => if e.2.ctx = c then (e.1, { e.2 with ctx := 0x7F }) else e) }
    trClear c s3

/-- What has been read of a device for guard rules, by its port and external hub port. -/
def seenOf (s : State) (d : DS) (hubPort : Nat) : Seen := (tabGet s.vig.seen (d.val * 256 + hubPort)).getD {}

/-- What has been read of a device replaced. -/
def putSeen (d : DS) (hubPort : Nat) (x : Seen) (s : State) : State :=
  modVig (fun v => { v with seen := tabPut v.seen (d.val * 256 + hubPort) x }) s

/-- A forwarded reset of a bus of a port, or of one external hub port: queues closed, contexts freed, new ones given (R142, R240). -/
def forwardReset (d : DS) (hubPort : Option Nat) (ss : Bool) (s : State) : State :=
  let hit (h : Nat) : Bool := match hubPort with | none => true | some p => h == p
  let s1 := closeWhere (fun e => e.port == d && e.ss == ss && hit e.hubPort) s
  let s2 := ((portCtxs s1 d).filter (fun c => decide (c.2.speed ≥ 3) == ss && hit c.2.hubPort)).foldl
    (fun s c => freeCtx c.1 c.2 s) s1
  modVig (fun v => { v with seen := v.seen.filter (fun e => !(e.1 / 256 == d.val && hit (e.1 % 256))) }) s2

/-- ABSORBED_RESET_COMPLETE (R258): 10 ms after the absorbed reset, 20 ms with SLOW_RESET, completion is reported at the shadow's
speed and the device is ABSORBING, its journal ARMED. -/
def execAbsorbedResetComplete (d : DS) (hubPort : Nat) (ss : Bool) (s : State) : Res :=
  let s := fresh s
  match ctxAt s d hubPort ss with
  | none => .next s
  | some c =>
    match c.2.resetAt with
    | none => .next s
    | some t =>
      let s1 := advanceTo (t + if bit (devQuirks s c.2) 7 then 20000000 else 10000000) s
      let s2 := modCtx c.1 (fun x => { x with
        st := .absorbing, resetAt := none, hubChg := decide (hubPort ≠ 0)
        journal := x.journal.map (fun j => { j with armed := true }) }) s1
      if hubPort ≠ 0 then
        .next (match ownerOf s2 d with | some u => emit (.extHubReport u d (2 ^ hubPort)) s2 | none => s2)
      else if ss then
        let s3 := chgPort d true .reset (modDs d (fun x => { x with link := .u0, suspHost3 := false, suspHub3 := false }) s2)
        .next (if c.2.resetWarm then chgPort d true .bhReset s3 else s3)
      else
        .next (chgPort d false .reset (modDs d (fun x => { x with enable := true, suspHost2 := false, suspHub2 := false, l1 := false }) s2))

/-! ### Control requests to a device (R241–R244, R258) -/

/-- A descriptor cached whole, from its own length fields (R241). -/
def cachedWhole (k : Nat) (l : List Byte) : Bool :=
  if k / 256 = 2 ∨ k / 256 = 15 then decide (l.length ≥ 4 ∧ l.length ≥ fld l 2 2)
  else if k / 256 = 0x22 then !l.isEmpty
  else !l.isEmpty && decide (l.length ≥ fld l 0 1)

/-- A request reads a descriptor of the kinds that the shadow caches (R241, R258). -/
def isGetDesc (q : Setup) : Bool :=
  q.req == 6 && (q.bm == 0x80 && (let t := q.value / 256; t == 1 || t == 2 || t == 3 || t == 15) ||
    q.bm == 0x81 && (q.value / 256 == 0x21 || q.value / 256 == 0x22))

/-- The descriptors of a configuration one after another, on fuel. -/
def descParts (l : List Byte) : List (List Byte) := bosCaps 256 l

/-- The cached configuration in force (R241). -/
def activeConfig (x : Ctx) : Option (List Byte) :=
  (x.cache.find? (fun e => e.1.1 / 256 == 2 && fld e.2 5 1 == x.config)).map (·.2)

/-- The class of an interface in the cached configuration. -/
def ifaceClass (x : Ctx) (i : Nat) : Option Nat :=
  ((activeConfig x).bind (fun l => (descParts l).find? (fun p => fld p 1 1 == 4 && fld p 2 1 == i))).map (fun p => fld p 5 1)

/-- The allow-listed class requests (R258), by their interface's class: HID SET_IDLE and SET_PROTOCOL, CDC SET_LINE_CODING and
SET_CONTROL_LINE_STATE. -/
def classSet (x : Ctx) (q : Setup) : Bool :=
  q.bm == 0x21 && (match ifaceClass x (q.index % 256) with
    | some 3 => q.req == 0x0A || q.req == 0x0B
    | some 2 => q.req == 0x20 || q.req == 0x22
    | _ => false)

/-- The class request that an allow-listed class read answers from (R258). -/
def classGet (x : Ctx) (q : Setup) : Option Nat :=
  if q.bm ≠ 0xA1 then none
  else match ifaceClass x (q.index % 256), q.req with
    | some 3, 0x02 => some 0x0A
    | some 3, 0x03 => some 0x0B
    | some 2, 0x21 => some 0x20
    | _, _ => none

/-- The standard state-changing requests of R258. -/
def stdSet (q : Setup) : Bool := decide (q.bm < 3) && [1, 3, 5, 7, 9, 11, 48, 49].contains q.req

/-- The key of a request (R258). -/
def reqKey (q : Setup) : ReqKey :=
  if q.bm = 0x21 then (q.bm, q.req, if q.req = 0x0A then q.value % 256 else 0, q.index % 256) else (q.bm, q.req, q.value, q.index)

/-- The journal entry of a class request. -/
def journalOf (x : Ctx) (req value index : Nat) : Option JEntry :=
  x.journal.find? (fun j => j.key == reqKey { bm := 0x21, req := req, value := value, index := index, length := 0 })

/-- The status of a device that the shadow answers (R258): self-powered from the cached configuration, remote wake, U1 and U2. -/
def devStatus (s : State) (x : Ctx) : Nat :=
  let own : Bool := match activeConfig x with
    | some l => bit (fld l 7 1) 6
    | none => Config.freeBool s.freeSeq
  b2n own + 2 * b2n x.remoteWake + (if x.speed ≥ 3 then 4 * b2n x.u1 + 8 * b2n x.u2 else 0)

/-- The endpoint that a wIndex names. -/
def isEp (index : Nat) (e : EpRec) : Bool := e.d.ep == index % 16 && e.d.dirIn == bit index 7

/-- A feature of the shadow that a request names, with its state (R258); none for one that is never absorbed. -/
def featState (x : Ctx) (q : Setup) : Option Bool :=
  match q.bm, q.value with
  | 0, 1 => some x.remoteWake
  | 0, 48 => some x.u1
  | 0, 49 => some x.u2
  | 1, 0 => some (x.funcSusp.contains (q.index % 256))
  | _, _ => none

/-- The answer of a read from the shadow, while the device is ABSORBING (R258). -/
def shadowRead (s : State) (x : Ctx) (q : Setup) : Option (List Byte) :=
  if x.st != .absorbing then none
  else if isGetDesc q then
    match x.cache.find? (fun e => e.1 == (q.value, q.index)) with
    | some e => if cachedWhole e.1.1 e.2 || decide (q.length ≤ e.2.length) then some e.2 else none
    | none => none
  else if q.bm = 0x80 ∧ q.req = 0 then some (le 2 (devStatus s x))
  else if q.bm = 0x81 ∧ q.req = 0 then some (le 2 (if x.funcSusp.contains (q.index % 256) then 2 else 0))
  else if q.bm = 0x82 ∧ q.req = 0 then some (le 2 (b2n (x.eps.any (fun e => isEp q.index e && e.halted))))
  else if q.bm = 0x80 ∧ q.req = 8 then some (le 1 x.config)
  else if q.bm = 0x81 ∧ q.req = 10 then some (le 1 ((tabGet x.alts q.index).getD 0))
  else match classGet x q with
    | none => none
    | some r => (journalOf x r q.value q.index).map (fun j =>
        if r = 0x20 then slice j.data 0 7
        else if r = 0x0A then le 1 (j.setup.value / 256) else le 1 (j.setup.value % 256))

/-- HT of the endpoints that a test selects becomes 0 (R258). -/
def zeroHt (f : EpRec → Bool) (x : Ctx) : Ctx := { x with eps := x.eps.map (fun e => if f e then { e with ht := 0 } else e) }

/-- DT and HT of the endpoints that a test selects become 0: device and host have both reset them (R258). -/
def zeroDt (f : EpRec → Bool) (x : Ctx) : Ctx := { x with eps := x.eps.map (fun e => if f e then { e with dt := 0, ht := 0 } else e) }

/-- What an absorbed state-changing request does to the shadow (R258), none where it is forwarded. -/
def absorbSet (x : Ctx) (q : Setup) (data : List Byte) : Option Ctx :=
  let key := reqKey q
  if x.used.contains key || x.uncertain.contains key then none
  else
    let y := { x with used := key :: x.used }
    if q.bm = 0 ∧ q.req = 5 then (if x.st == .absorbing then some { y with haddr := q.value % 128, addrGot := true } else none)
    else if q.bm = 0 ∧ q.req = 9 then
      (if q.value % 256 = x.config ∧ x.st ≠ .ready then
         some { y with
           st := .ready
           eps := y.eps.map (fun e => { e with ht := 0, replaying := e.d.dirIn && !e.evidence, replayAt := none }) }
       else none)
    else if q.bm = 1 ∧ q.req = 11 then
      (if q.value = (tabGet x.alts q.index).getD 0 then
         some (zeroHt (fun e => e.d.iface == q.index && e.d.alt == q.value) y) else none)
    else if q.bm = 2 ∧ q.req = 1 ∧ q.value = 0 then
      (if x.eps.any (fun e => isEp q.index e && !e.halted) then some (zeroHt (isEp q.index) y) else none)
    else if q.req = 1 ∨ q.req = 3 then
      (match featState x q with
       | some b => if b == (q.req == 3) then some y else none
       | none => none)
    else if classSet x q then
      (match journalOf x q.req q.value q.index with
       | some j =>
         if j.armed && (if q.req = 0x20 then slice j.data 0 7 == slice data 0 7 else j.setup.value == q.value) then some y else none
       | none => none)
    else none

/-- A request may be absorbed at all (R258): from the host's return to the end of the device's absorption; requests other than reads
also after the absorbed SET_CONFIGURATION, as the manual's example shows (DEDUCED). -/
def mayAbsorb (s : State) (x : Ctx) : Bool :=
  absorbs s x && (x.st == .held || x.st == .absorbing || x.st == .ready && x.resetUsed)

/-- The journal with a request entered (R243): the latest entry per key; of a full journal the least recently written class-request
entry goes, and where there is none the new request is not entered (DESIGN CHOICE). -/
def journalPut (now : Nat) (q : Setup) (data : List Byte) (l : List JEntry) : List JEntry :=
  let e : JEntry := { key := reqKey q, setup := q, data := data.take 16, at_ := now }
  let l1 := l.filter (fun j => j.key != e.key)
  if l1.length < 32 then l1 ++ [e]
  else
    let cls := l1.filter (fun j => j.key.1 == 0x21)
    match cls with
    | [] => l1
    | j :: t =>
      let old := t.foldl (fun a b => if b.at_ < a.at_ then b else a) j
      l1.filter (fun k => k.key != old.key) ++ [e]

/-- A descriptor entered into the cache (R241): in order of first read, up to 4 KB in all; a longer read of the same one replaces it. -/
def cachePut (k : Nat × Nat) (data : List Byte) (l : List ((Nat × Nat) × List Byte)) : List ((Nat × Nat) × List Byte) :=
  let others := ((l.filter (fun e => e.1 != k)).map (fun e => e.2.length)).foldl (· + ·) 0
  if data.isEmpty || decide (others + data.length > 4096) then l
  else match l.find? (fun e => e.1 == k) with
    | none => l ++ [(k, data)]
    | some e => if data.length > e.2.length then l.map (fun x => if x.1 == k then (k, data) else x) else l

/-- The endpoint records of a device after a configuration or an alternate setting is selected (R241). -/
def epRecs (s : State) (x : Ctx) (ds : List EpDesc) : List EpRec :=
  ds.map (fun e => { d := e, opn := true
                     evidence := isEvidence s x.port (if x.hubPort = 0 then (dsOf s x.port).quirks else x.quirks)
                       (if x.hubPort = 0 then (dsOf s x.port).rule else x.rule) e.iface })

/-- Port guard rules tried against what has been read of a device (R127): the first that matches, of those written before its attach or port
reset (R128); none while a rule before it waits for descriptors. -/
def ruleFor (s : State) (d : DS) (x : Seen) : Option (Option Nat) :=
  match x.dev with
  | none => none
  | some (vid, pid, t) =>
    let id : DevId := { vid := BitVec.ofNat 16 vid, pid := BitVec.ofNat 16 pid, triple := t, ifaces := x.ifs.getD [] }
    match (List.range 256).find? (fun i => ruleValid s i && !x.skip.contains i &&
        (ruleMatches s d id i || bit (ruleWord s i 1) 29 && x.ifs.isNone)) with
    | some i => if ruleMatches s d id i then some (some i) else none
    | none => some none

/-- GUARD_RULE_MATCH without a probe (R127, R128): made once, the quirks act from the moment the descriptors have been read. -/
def matchSeen (d : DS) (hubPort : Nat) (c : Option Nat) (s : State) : State :=
  let x := seenOf s d hubPort
  if x.done then s
  else match ruleFor s d x with
    | none => s
    | some r =>
      let q := match r with | some i => ruleQuirks s i | none => 0
      let qk := if hubPort = 0 then q else q &&& 0x1FC
      let s1 := putSeen d hubPort { x with rule := r, quirks := qk, done := true } s
      let s2 := if hubPort = 0 then modDs d (fun p => { p with rule := r, quirks := qk }) s1 else s1
      let s3 := match c with | some c => modCtx c (fun y => { y with rule := r, quirks := qk }) s2 | none => s2
      match c.bind (ctxOf s3) with
      | some y => modCtx (c.getD 0) (fun y => { y with eps := y.eps.map (fun e => { e with
          evidence := isEvidence s3 d qk r e.d.iface }) }) s3
      | none => s3

/-- The descriptors that a device returned, noted for guard rules (R127). -/
def noteDesc (d : DS) (hubPort : Nat) (q : Setup) (data : List Byte) (s : State) : State :=
  let x := seenOf s d hubPort
  let b (i : Nat) : Byte := data.getD i 0
  if q.value = 0x100 ∧ data.length ≥ 12 then
    putSeen d hubPort { x with dev := some (fld data 8 2, fld data 10 2, (b 4, b 5, b 6)) } s
  else if q.value = 0x200 ∧ cachedWhole 0x200 data then
    putSeen d hubPort { x with ifs := some (((descParts (data.take 1024)).filter (fun p => fld p 1 1 == 4)).map (fun p =>
      (p.getD 2 0, p.getD 5 0, p.getD 6 0, p.getD 7 0))) } s
  else s

/-- The rule and quirks of a device for the class of its queues (R126, R257). -/
def devRule (s : State) (d : DS) (hubPort : Nat) : Nat × Option Nat :=
  if hubPort = 0 then ((dsOf s d).quirks, (dsOf s d).rule) else ((seenOf s d hubPort).quirks, (seenOf s d hubPort).rule)

/-- The endpoints that a selection opens, and their queues (R142, R219). -/
def openAll (d : DS) (hubPort a ctx : Nat) (ss : Bool) (ds : List EpDesc) (s : State) : State :=
  let r := devRule s d hubPort
  ds.foldl (fun s e => openEpq d hubPort a ctx ss (isEvidence s d r.1 r.2 e.iface) e s) s

/-- The queue of a device's default control pipe. -/
def ep0 (ss : Bool) : EpDesc :=
  { iface := 0, alt := 0, ep := 0, dirIn := false, typ := .control, mps := if ss then 512 else 64, burst := 1, bytes := 0, interval := 0 }

/-- What a forwarded request that the device has completed does to queues (R142, R219, R258). -/
def reqQueues (d : DS) (hubPort a ctx : Nat) (ss : Bool) (q : Setup) (eps : List EpDesc) (s : State) : State :=
  let mine (e : Epq) : Bool := e.port == d && e.ss == ss && e.daddr == a
  if q.bm = 0 ∧ q.req = 5 then
    openAll d hubPort (q.value % 128) ctx ss [ep0 ss] (closeWhere (fun e => mine e && e.hubPort == hubPort) s)
  else if q.bm = 0 ∧ q.req = 9 then
    let s1 := closeWhere (fun e => mine e && e.ep != 0) s
    if q.value % 256 = 0 then s1 else openAll d hubPort a ctx ss (eps.filter (·.alt == 0)) s1
  else if q.bm = 1 ∧ q.req = 11 then
    openAll d hubPort a ctx ss (eps.filter (fun e => e.iface == q.index && e.alt == q.value))
      (closeWhere (fun e => mine e && e.ep != 0 && e.iface == q.index) s)
  else s

/-- What a forwarded request that the device has completed does to its shadow (R241, R243, R258). -/
def reqShadow (s : State) (q : Setup) (data : List Byte) (eps : List EpDesc) (x : Ctx) : Ctx :=
  let key := reqKey q
  let x0 := { x with uncertain := x.uncertain.filter (· != key) }
  let x1 := if stdSet q || classSet x q then { x0 with journal := journalPut s.now q data x0.journal } else x0
  if isGetDesc q then
    { x1 with
      cache := cachePut (q.value, q.index) (data.take q.length) x1.cache
      isHub := if q.value = 0x100 then fld data 4 1 == 9 else x1.isHub }
  else if q.bm = 0 ∧ q.req = 5 then
    { x1 with daddr := some (q.value % 128), haddr := if x1.translated then q.value % 128 else x1.haddr }
  else if q.bm = 0 ∧ q.req = 9 then
    let c := q.value % 256
    { x1 with config := c, alts := [], descs := eps, funcSusp := []
              eps := if c = 0 then [] else epRecs s x (eps.filter (·.alt == 0))
              cache := x1.cache.filter (fun e => e.1.1 / 256 != 2 || c == 0 || fld e.2 5 1 == c)
              st := if c ≠ 0 ∧ x1.daddr.isSome = true ∧ x1.st ≠ .held then .ready else x1.st }
  else if q.bm = 1 ∧ q.req = 11 then
    let ds := (if eps.isEmpty then x1.descs else eps).filter (fun e => e.iface == q.index && e.alt == q.value)
    { x1 with alts := tabPut x1.alts q.index q.value, eps := x1.eps.filter (fun e => e.d.iface != q.index) ++ epRecs s x ds }
  else if q.bm = 2 ∧ q.value = 0 ∧ q.req = 1 then
    zeroDt (isEp q.index) { x1 with eps := x1.eps.map (fun e => if isEp q.index e then { e with halted := false, stopped := false } else e) }
  else if q.bm = 2 ∧ q.value = 0 ∧ q.req = 3 then
    { x1 with eps := x1.eps.map (fun e => if isEp q.index e then { e with halted := true } else e) }
  else if q.req = 1 ∨ q.req = 3 then
    let on := q.req == 3
    (match q.bm, q.value with
     | 0, 1 => { x1 with remoteWake := on }
     | 0, 48 => { x1 with u1 := on }
     | 0, 49 => { x1 with u2 := on }
     | 1, 0 =>
       let i := q.index % 256
       let sus := on && bit (q.index / 256) 0
       { x1 with funcSusp := if sus then i :: x1.funcSusp.filter (· != i) else x1.funcSusp.filter (· != i) }
     | _, _ => x1)
  else if q.bm = 0x20 ∧ q.req = 12 ∧ x1.depth = 0 then { x1 with depth := q.value }
  else x1

/-- A request to an external hub about one of its ports (R258): its reset, suspend and status followed, or answered from the shadow of
the device behind it. The Bool says that it was absorbed. -/
def hubRequest (u : US) (d : DS) (ss : Bool) (q : Setup) (s : State) : State × Bool :=
  let p := q.index % 256
  match ctxAt s d p ss with
  | none => (s, false)
  | some c =>
    let x := c.2
    if q.bm = 0x23 ∧ q.req = 3 ∧ (q.value = 4 ∨ q.value = 28) then
      if resetAbsorbed s x then (absorbReset c.1 (q.value == 28) s, true) else (s, false)
    else if x.resetUsed && (x.resetAt.isSome || x.st == .absorbing) && x.st != .ready then
      if q.bm = 0xA3 ∧ q.req = 0 then
        let spd := if ss then 0 else if x.speed = 0 then 2 ^ 9 else if x.speed = 2 then 2 ^ 10 else 0
        let pow := if ss then 2 ^ 9 else 2 ^ 8
        let st := 1 + 2 * b2n x.resetAt.isNone + 16 * b2n x.resetAt.isSome + pow + spd
        (emit (.control u ((le 2 st ++ le 2 (16 * b2n x.hubChg + (if x.resetWarm && x.hubChg then 32 else 0))).take q.length)) s, true)
      else if q.bm = 0x23 ∧ q.req = 1 ∧ (q.value = 20 ∨ q.value = 29) ∧ x.hubChg = true then
        (emit (.control u []) (modCtx c.1 (fun x => { x with hubChg := false }) s), true)
      else (s, false)
    else (s, false)

/-- What a request forwarded to an external hub says of the devices behind it (R240, R241). -/
def hubFollow (d : DS) (ss : Bool) (q : Setup) (data : List Byte) (s : State) : State :=
  let p := q.index % 256
  if q.bm = 0x23 ∧ q.req = 3 ∧ (q.value = 4 ∨ q.value = 28) then
    let was := (ctxAt s d p ss).map (·.2.speed)
    giveCtx d p (was.getD (if ss then 3 else 1)) (forwardReset d (some p) ss s)
  else if q.bm = 0xA3 ∧ q.req = 0 then
    let st := fld data 0 2
    if bit st 0 then
      let spd := if ss then 3 else if bit st 9 then 0 else if bit st 10 then 2 else 1
      let s := if (tabGet s.vig.seen (d.val * 256 + p)).isNone then putSeen d p {} s else s
      match ctxAt s d p ss with
      | some c => modCtx c.1 (fun x => { x with speed := spd }) s
      | none => giveCtx d p spd s
    else
      let s1 := match ctxAt s d p ss with
        | some c => releaseCtx c.1 10 (capture d 4 0 p (c.2.daddr.getD 0) 0 s.now [] s)
        | none => s
      modVig (fun v => { v with seen := tabDel v.seen (d.val * 256 + p) }) (closeWhere (fun e => e.port == d && e.ss == ss && e.hubPort == p) s1)
  else if q.bm = 0x23 ∧ (q.req = 1 ∨ q.req = 3) ∧ q.value = 2 ∧ ss = false then
    match ctxAt s d p ss with
    | some c => modCtx c.1 (fun x => { x with suspended := q.req == 3 }) s
    | none => s
  else if q.bm = 0x23 ∧ q.req = 3 ∧ q.value = 5 ∧ ss = true then
    match ctxAt s d p ss with
    | some c => modCtx c.1 (fun x => { x with suspended := q.index / 256 == 3 }) s
    | none => s
  else s

/-- A request forwarded to the device (R243, R244, R258), by its device-side address, and what its end does. -/
def forwardReq (d : DS) (hubPort : Nat) (ss : Bool) (addr : Nat) (q : Setup) (data : List Byte) (fin : CtlEnd) (eps : List EpDesc)
    (s : State) : State :=
  let c := ctxAt s d hubPort ss
  let a := match c with
    | some c => if c.2.translated then c.2.daddr.getD 0 else c.2.daddr.getD addr
    | none => addr
  let s1 := emit (.ctlForward d a q) s
  match fin with
  | .stall => (match c with
    | some c => modCtx c.1 (fun x => { x with uncertain := x.uncertain.filter (· != reqKey q) }) s1
    | none => s1)
  | .abandoned => (match c with
    | some c =>
      if stdSet q || classSet c.2 q then
        let s2 := modCtx c.1 (fun x => { x with uncertain := reqKey q :: x.uncertain.filter (· != reqKey q) }) s1
        if q.bm = 0 ∧ q.req = 5 then modCtx c.1 (fun x => { x with daddr := none, st := .building }) s2 else s2
      else s1
    | none => s1)
  | .done =>
    let s2 := availGo (dsCode d) s1
    let s3 := if isGetDesc q then matchSeen d hubPort (c.map (·.1)) (noteDesc d hubPort q data s2) else s2
    let s4 := reqQueues d hubPort a (match c with | some c => c.1 | none => 0x7F) ss q eps s3
    match c with
    | none => if hubPort = 0 then hubFollow d ss q data s4 else s4
    | some c =>
      let was := c.2.st
      let s5 := retranslate c.1 (modCtx c.1 (reqShadow s4 q data eps) s4)
      let s6 := match ctxOf s5 c.1 with
        | some x => if was == .absorbing && x.st == .ready then endEpisode c.1 x s5 else s5
        | none => s5
      if hubPort = 0 && c.2.isHub then hubFollow d ss q data s6 else s6

/-- DEVICE_CONTROL_REQUEST (R243, R244, R258–R260): a whole control transfer from the owning host to a device, absorbed from its shadow
or forwarded; data is the data stage of the host or of the device, eps the endpoints that the device's descriptors give. -/
def execDeviceControlRequest (u : US) (d : DS) (hubPort : Nat) (ss : Bool) (addr : Nat) (q : Setup) (data : List Byte) (fin : CtlEnd)
    (eps : List EpDesc) (s : State) : Res :=
  let s := fresh s
  if ownerOf s d != some u || !(hubOf s u).connected || !presentable s d ||
      (if ss then (dsOf s d).link == .rxDetect || (dsOf s d).link == .disabled else !(dsOf s d).enable) then .next s
  else
    let s1 := hostSeen u s
    match ctxAt s1 d hubPort ss with
    | none =>
      .next (if bit (seenOf s1 d hubPort).quirks 8 then s1 else forwardReq d hubPort ss addr q data fin eps s1)
    | some c =>
      let x := c.2
      let known : Option Nat := if x.translated then some x.haddr else x.daddr
      if known.isSome && known != some addr && !(addr = 0 && x.st == .building) then .next s1
      else if bit (devQuirks s1 x) 8 then .next s1
      else
        let r : State × Bool := if hubPort = 0 && x.isHub then hubRequest u d ss q s1 else (s1, false)
        if r.2 then .next r.1
        else if mayAbsorb s1 x then
          match shadowRead s1 x q with
          | some l => .next ({ (emit (.control u (l.take q.length)) s1) with freeSeq := s1.freeSeq + 1 })
          | none =>
            match absorbSet x q data with
            | some y =>
              let s2 := retranslate c.1 (modCtx c.1 (fun _ => y) (emit (.control u []) s1))
              .next (if x.st != .ready && y.st == .ready then endEpisode c.1 y s2 else s2)
            | none => .next (forwardReq d hubPort ss addr q data fin eps s1)
        else .next (forwardReq d hubPort ss addr q data fin eps s1)

/-! ### Commands (R238, R239, R456–R458) -/

/-- The device form of VIGIL_POLICY_SET: no TARGET. -/
def specVigilPolicySet (r : Req) : CmdSpec :=
  { opcode := 0x0501, cls := .run, lenOk := len (if noTarget r then 12 else 10)
    resvOk := fun p => decide (fld p 0 1 < 2) && (if noTarget r then zeroAt 1 1 p && zeroAt 10 2 p else zeroAt 7 1 p) }

/-- Armed ports take contexts for the devices that they already hold (R240). -/
def armGive (d : DS) (s : State) : State :=
  let s1 := if (dsOf s d).shown2 then deviceArrived d false s else s
  if (dsOf s1 d).shown3 then deviceArrived d true s1 else s1

/-- VIGIL_POLICY_SET (R238, R456). -/
def cmdVigilPolicySet (r : Req) (s : State) : State × Reply :=
  let p := r.payload
  let keep := bit (fld p 0 1) 0
  if noTarget r then
    if decide (fld p 2 2 < 10) || decide (fld p 2 2 > 1000) || decide (fld p 4 4 < 1) || decide (fld p 4 4 > 86400) ||
        decide (fld p 8 2 < 1) || decide (fld p 8 2 > 16) then (s, errR stBadTarget)
    else
      let x := persist (if keep then recWrites s 0xB00 (slice p 2 8) else []) r.badWord s
      if x.2 ≠ stOk then (x.1, errR x.2)
      else (modVig (fun v => { v with tAbsent := fld p 2 2, hold := fld p 4 4, capRegion := fld p 8 2, regionSet := !keep }) x.1, okR [])
  else match targetDs r with
    | none => (s, errR stBadTarget)
    | some d =>
      match dsGate r s d with
      | some st => (s, errR st)
      | none =>
        if decide (fld p 1 1 > 2) || decide (fld p 2 1 > 1) || decide (fld p 3 1 > 1) || decide (fld p 4 2 < 1) ||
            decide (fld p 4 2 > 3600) || decide (fld p 6 1 < 1) || decide (fld p 8 2 > 1024) then (s, errR stBadTarget)
        else
          let x := persist (if keep then recWrites s (0xB10 + 4 * d.val) (slice p 1 6 ++ slice p 8 2) else []) r.badWord s
          if x.2 ≠ stOk then (x.1, errR x.2)
          else
            let pol : PortPol := { mode := fld p 1 1, autoArm := fld p 2 1 == 1, replay := fld p 3 1 == 1, replayAge := fld p 4 2
                                   bulkPoll := fld p 6 1, capSize := fld p 8 2, capSet := !keep }
            let s1 := modVig (fun v => { v with pol := v.pol.set d pol }) x.1
            let s2 := if pol.mode = 0 then ((portCtxs s1 d).filter (fun c => c.2.st == .held || c.2.st == .absorbing)).foldl
                (fun s c => releaseCtx c.1 1 s) s1 else armGive d s1
            (s2, okR [])

/-- VIGIL_POLICY_SET. -/
def execVigilPolicySet (r : Req) (s : State) : Res := .next (runCmd (specVigilPolicySet r) cmdVigilPolicySet r s)

/-- The spec of VIGIL_ARM. -/
def specVigilArm : CmdSpec := { opcode := 0x0502, cls := .run, lenOk := len 4 }

/-- One port armed or disarmed (R239): disarming releases what is held or absorbing. -/
def armPort (on : Bool) (d : DS) (s : State) : State :=
  let s1 := modVig (fun v => { v with armed := v.armed.set d on }) s
  if on then armGive d s1
  else ((portCtxs s1 d).filter (fun c => c.2.st == .held || c.2.st == .absorbing)).foldl (fun s c => releaseCtx c.1 11 s) s1

/-- VIGIL_ARM (R239, R456). -/
def cmdVigilArm (r : Req) (s : State) : State × Reply :=
  let p := r.payload
  let ds := allDs.filter (fun d => bit (fld p 0 2) d.val)
  if !noTarget r || decide (fld p 2 2 > 1) then (s, errR stBadTarget)
  else if ds.any (isSealed s) then (s, errR stSealed)
  else if ds.any (elsewhere r s) then (s, errR stOwned)
  else
    let on := fld p 2 2 == 1
    let s1 := ds.foldl (fun s d => armPort on d s) s
    (s1, okR (le 2 ((allDs.map (fun d => if isArmed s1 d then 2 ^ d.val else 0)).foldl (· + ·) 0)))

/-- VIGIL_ARM. -/
def execVigilArm (r : Req) (s : State) : Res := .next (runCmd specVigilArm cmdVigilArm r s)

/-- The spec of VIGIL_STATUS. -/
def specVigilStatus : CmdSpec := { opcode := 0x0503, cls := .run, lenOk := len 0 }

/-- The code of a context's state (R457). -/
def ctxCode (x : Ctx) : Nat := match x.st with
  | .building => 1
  | .ready => 2
  | .held => 3
  | .absorbing => 4

/-- The evidence endpoints of a context, by IN endpoint (R457). -/
def evidenceMask (x : Ctx) : Nat :=
  (List.range 16).foldl (fun n i => if x.eps.any (fun e => e.d.dirIn && e.d.ep == i && e.evidence) then n + 2 ^ i else n) 0

/-- The hub form of VIGIL_STATUS (R457). -/
def vigilHubForm (s : State) (u : US) : List Byte :=
  let outs := ((foOf s u).outcomes.take 15).flatMap (fun x => le 1 x.1 ++ le 1 x.2)
  le 1 (hubStateCode (hubOf s u).state) ++ le 1 (96 - s.vig.ctx.length - s.vig.ctxBad.length) ++ [0, 0] ++
    le 8 (vigHub s u).episode ++ le 8 (if deadlineRuns s u then (vigHub s u).deadline.getD 0 else 0) ++ slice outs 0 30

/-- The port form of VIGIL_STATUS (R457). -/
def vigilPortForm (s : State) (d : DS) : List Byte :=
  let r := s.vig.rings[d]
  let cs := portCtxs s d
  le 1 cs.length ++ le 1 (if isSealed s d then 1 else r.alloc) ++ [0, 0] ++ le 4 (if r.alloc = 0 then r.size else 0) ++ le 8 r.nextSeq ++
    le 4 r.skipped ++
    cs.flatMap (fun c => le 1 c.1 ++ le 1 (ctxCode c.2) ++ le 1 (c.2.daddr.getD 0) ++ le 1 (if c.2.translated then c.2.haddr else 0) ++
      le 1 c.2.hubPort ++ le 1 ((tabGet s.vig.lastRel c.1).getD 0) ++ le 2 (evidenceMask c.2))

/-- VIGIL_STATUS (R457). -/
def cmdVigilStatus (r : Req) (s : State) : State × Reply :=
  match targetPort r with
  | none => (s, errR stBadTarget)
  | some p =>
    match portGate r s p with
    | some st => (s, errR st)
    | none => match portDs p, portUs p with
      | some d, _ => (s, okR (vigilPortForm s d))
      | _, some u => (s, okR (vigilHubForm s u))
      | _, _ => (s, errR stBadTarget)

/-- VIGIL_STATUS. -/
def execVigilStatus (r : Req) (s : State) : Res := .next (runCmd specVigilStatus cmdVigilStatus r s)

/-- The bytes of a capture record (R253). -/
def capBytes (d : DS) (x : CapRec) : List Byte :=
  let n := capLen x.payload.length
  let head := le 4 (n + 2 ^ 16 * x.typ + 2 ^ 24)
  let body := le 8 x.seq ++ le 8 x.time ++ le 1 (dsCode d) ++ le 1 x.hubPort ++ le 1 x.daddr ++ le 1 x.epdir ++
    le 2 x.payload.length ++ le 2 x.epoch ++ x.payload ++ List.replicate (n - 36 - x.payload.length) 0
  head ++ le 4 (x.flags + 4 * b2n x.damaged) ++ body ++ le 4 (crc32c (head ++ body))

/-- The spec of CAPTURE_READ. -/
def specCaptureRead : CmdSpec :=
  { opcode := 0x0504, cls := .run, lenOk := len 12, resvOk := fun p => decide (fld p 10 1 < 4) && zeroAt 11 1 p }

/-- The records whose bytes fit in a stream of n bytes, whole. -/
def fitRecs : Nat → List CapRec → List CapRec
  | _, [] => []
  | n, x :: t => if capLen x.payload.length ≤ n then x :: fitRecs (n - capLen x.payload.length) t else []

/-- CAPTURE_READ (R256, R458). -/
def cmdCaptureRead (r : Req) (s : State) : State × Reply :=
  let p := r.payload
  match targetDs r with
  | none => (s, errR stBadTarget)
  | some d =>
    match dsGate r s d with
    | some st => (s, errR st)
    | none =>
      let g := s.vig.rings[d]
      if g.alloc ≠ 0 || decide (fld p 8 2 < 1) || decide (fld p 8 2 > 4096) then (s, errR stBadTarget)
      else
        let start := if fld p 0 8 = 0 then g.readSeq else fld p 0 8
        let part := if bit r.flags.toNat 0 then 976 else 992
        let sel := g.recs.filter (fun x => x.typ != 0 && decide (x.seq ≥ start) && (!bit (fld p 10 1) 1 || bit x.flags 0))
        let got := fitRecs (256 * part) (sel.take (fld p 8 2))
        let next := match got.getLast? with | some x => x.seq + 1 | none => g.nextSeq
        let cs := chunks part (got.flatMap (capBytes d))
        let ps := cs.mapIdx (fun i b =>
          le 2 i ++ [0, 0] ++ le 4 b.length ++ le 8 (if i + 1 = cs.length then next else 0) ++ b)
        let s1 := if bit (fld p 10 1) 0 && !got.isEmpty then
            modRing d (fun g =>
              let g1 := { g with readSeq := max g.readSeq next }
              { g1 with warned := decide (capUnread g1 * 4 ≥ g1.size * 3) }) s
          else s
        (s1, { status := stOk, parts := ps })

/-- CAPTURE_READ. -/
def execCaptureRead (r : Req) (s : State) : Res := .next (runCmd specCaptureRead cmdCaptureRead r s)

end Sys2Proof.Machine
end

