-- ==== Sys2Proof/Machine/PortView.lean ====
section
/-! DEFINITION. How a port shows itself: the vendor status word (R129, R130), connections reported at a resume (R297), and PORT_STATUS
(R452). -/

set_option Elab.async false

namespace Sys2Proof.Machine

/-! ### The vendor port status word (R129, R130) -/

/-- The word of a port as the hub that owns it presents it, with the flags of its slot (R129). -/
def vendorOwned (s : State) (d : DS) (sl : SlotSt) : Nat :=
  let x := dsOf s d
  let cs := portCtxs s d
  let pw := s.pwr[dsPort d]
  1 + 2 * b2n (isSealed s d) + 4 * b2n (cs.any (fun c => c.2.st == .held || c.2.st == .absorbing)) +
  8 * b2n (cs.any (fun c => c.2.translated)) + 16 * b2n sl.coincident + 32 * b2n (guardOf s (dsPort d)).hold +
  64 * b2n (decide (pw.grant < pw.need)) + 128 * b2n (portFenced s (dsPort d)) +
  256 * b2n (s.dp.toList.any (fun i => i.port == some d && i.phase == 7)) + 512 * b2n x.rule.isSome + 1024 * b2n (bit x.quirks 8) +
  2048 * b2n x.movedIn + 2 ^ 16 * dsCode d + 2 ^ 24 * (x.rule.getD 0)

/-- The word on a slot that the hub does not own (R130). -/
def vendorOther (s : State) (d : DS) : Nat := if isSealed s d then 0 else 2 ^ 16 * dsCode d

/-- The word that a virtual port of a hub returns; the LMF's slot is owned, with port code 0. -/
def vendorWord (s : State) (u : US) (v : Fin 15) : Nat :=
  match slotAt s u v with
  | some (.port d) => if ownerOf s d = some u then vendorOwned s d (slotSt s u v) else vendorOther s d
  | some .lmf => 1
  | none => 0

/-! ### The standard port status (R105, R114, R286, R290, R298) -/

/-- The bits of a list of flags, from bit 0. -/
def flagBits (l : List Bool) : Nat := l.foldr (fun b n => b2n b + 2 * n) 0

/-- What GetPortStatus returns of a virtual port on the companion hub, wPortStatus then wPortChange; an empty slot shows its power and changes
alone (R105). PRESUMED: the places of the bits are USB 2.0's (log entry 97). -/
def portStatus2 (s : State) (u : US) (v : Fin 15) : Nat × Nat :=
  let sl := slotSt s u v
  let st : Nat := match shownHere s u v false with
    | some d =>
      let x := dsOf s d
      flagBits [true, x.enable, x.suspHost2, sl.overCur, x.resetAt.isSome, x.l1, false, false, sl.power, x.speed2 == some .ls,
        x.speed2 == some .hs, decide (x.test2 ≠ 0)]
    | none => flagBits [slotAt s u v == some .lmf && lmfHere s u false, slotAt s u v == some .lmf && lmfHere s u false, false, sl.overCur,
        sl.emptyReset.isSome, false, false, false, sl.power]
  (st, flagBits (([.connection, .enable, .suspend, .overCurrent, .reset, .l1] : List Change).map (fun c => sl.chg2.contains c)))

/-- What GetPortStatus returns of a virtual port on the SuperSpeed hub; the link state of an empty slot is Rx.Detect (R288). PRESUMED: the
places of the bits are USB 3.2's (log entry 97). -/
def portStatus3 (s : State) (u : US) (v : Fin 15) : Nat × Nat :=
  let sl := slotSt s u v
  let link (l : Link) : Nat := match l with
    | .u0 => 0
    | .u1 => 1
    | .u2 => 2
    | .u3 => 3
    | .disabled => 4
    | .rxDetect => 5
    | .inactive => 6
    | .polling => 7
    | .recovery => 8
    | .compliance => 10
    | .loopback => 11
  let st : Nat := match shownHere s u v true with
    | some d =>
      let x := dsOf s d
      flagBits [true, decide (x.link != .inactive), false, sl.overCur, x.ssReset.isSome] + 32 * link x.link + 512 * b2n sl.power
    | none =>
      let lmf := slotAt s u v == some .lmf && lmfHere s u true
      flagBits [lmf, lmf, false, sl.overCur, false] + 32 * (if lmf then 0 else 5) + 512 * b2n sl.power
  (st, flagBits (([.connection, .overCurrent, .reset, .bhReset, .linkState, .configError] : List Change).mapIdx (fun i c =>
    (if i = 0 then [sl.chg3.contains c, false, false] else [sl.chg3.contains c])) |>.flatten))

/-! ### Upstream wakes (R294, R296) -/

/-- Upstream signalling of a remote wake, 100 µs after it was qualified (R294, R296): K on the companion link, U3 exit on the SuperSpeed
link, each where that link is suspended with its wake enabled. -/
def startUpWakes (s : State) : State :=
  allDs.foldl (fun s d =>
    match (dsOf s d).wakeOpen, ownerOf s d with
    | some t, some u =>
      if s.now < t + 100000 then s
      else
        let s1 := modDs d (fun x => { x with wakeOpen := none }) s
        let ss := (dsOf s d).u3Exit == some .device
        let s2 := emit (.upWake u ss) s1
        modUs u (fun x => if ss then { x with upLfps := true, wakeBy := some d } else { x with upK := some s.now, wakeBy := some d }) s2
    | _, _ => s) s

/-! ### PORT_STATUS (R452) -/

/-- The spec of PORT_STATUS (R450). -/
def specPortStatus : CmdSpec := { opcode := 0x0202, cls := .run, onI2ct := true, lenOk := len 0 }

/-- A link's state in LINK's code (R452). -/
def linkCode (l : Link) : Nat := match l with
  | .u0 => 0
  | .u1 => 1
  | .u2 => 2
  | .u3 => 3
  | .inactive => 4
  | .rxDetect => 5
  | _ => 6

/-- A Type-C state in CC_STATE's code (R452). -/
def ccCode (c : CcState) : Nat := match c with
  | .unattached => 0
  | .waitSrc | .waitSnk => 1
  | .attached => 2
  | .errorRecovery => 3
  | _ => 4

/-- A USB 2.0 speed in USB2_SPEED's code (R452). -/
def speedCode (x : Option Speed2) : Nat := match x with
  | none => 0
  | some .ls => 1
  | some .fs => 2
  | some .hs => 3

/-- The discards of a port by code, from 0x01 to 0x07 (R161). -/
def discardBytes (s : State) (p : Port) : List Byte :=
  (List.range 7).flatMap (fun i => le 4 ((tabGet s.sched.discPort (p.val * 8 + i + 1)).getD 0))

/-- The periodic cells that the endpoints of a port fall short of (R142). -/
def periodicShort (s : State) (p : Port) : Nat :=
  ((s.epqs.filter (fun e => dsPort e.2.port == p)).map (·.2.short)).foldl (· + ·) 0

/-- The PORT_STATUS result (R452). -/
def portBytes (s : State) (p : Port) : List Byte :=
  let t := s.tc[p]
  let tail (babble chirps coin : Nat) : List Byte :=
    le 4 babble ++ le 4 chirps ++ le 4 coin ++ le 4 s.pwr[p].ocCount ++ le 4 t.vbusWaits ++ le 4 (periodicShort s p)
  match portDs p, portUs p with
  | some d, _ =>
    let x := dsOf s d
    let word := match owningSlot s d with
      | some (u, v) => vendorOwned s d (slotSt s u v)
      | none => match ownerOf s d with
        | some _ => vendorOwned s d {}
        | none => vendorOther s d
    let own := match ownerOf s d with
      | some u => usCode u
      | none => 0
    le 4 word ++ le 1 own ++ le 1 x.gen ++ le 1 (speedCode x.speed2) ++ le 1 (linkCode x.link) ++ le 1 (ccCode t.st) ++ le 1 t.accessory ++
      [0, 0] ++ discardBytes s p ++ tail x.babble x.chirpTimeouts x.coincident
  | _, some u =>
    let x := usOf s u
    let sp := if x.gen = 2 ∧ x.lanes = 2 then 3 else x.gen
    let up := if x.speed2 = 2 then 3 else if x.speed2 = 1 then 2 else 0
    le 4 (2 ^ 16 * usCode u) ++ [0] ++ le 1 sp ++ le 1 up ++ le 1 (linkCode x.link) ++ le 1 (ccCode t.st) ++ [0] ++ le 1 x.speed2 ++
      le 1 (hubStateCode (hubOf s u).state) ++ discardBytes s p ++ tail 0 0 0
  | _, _ => []

/-- PORT_STATUS (R452). -/
def cmdPortStatus (r : Req) (s : State) : State × Reply :=
  match targetPort r with
  | none => (s, errR stBadTarget)
  | some p =>
    match openGate r s p with
    | some st => (s, errR st)
    | none => (s, okR (portBytes s p))

/-- PORT_STATUS. -/
def execPortStatus (r : Req) (s : State) : Res := .next (runCmd specPortStatus cmdPortStatus r s)

end Sys2Proof.Machine
end

