-- ==== Sys2Proof/Machine/Modes.lean ====
section
/-! DEFINITION. Mode requests, operating points, SUSPEND entry and lane time (R66, R380–R387, R395–R399, R449). -/

set_option Elab.async false

namespace Sys2Proof.Machine

/-! ### SERVICE -/

/-- SERVICE ends (R307, R499): tests end, and debug accessories, which attach only in SERVICE, are detached. -/
def serviceEnds (s : State) : State :=
  if !s.pmu.service then s
  else
    let s1 := serviceTestsEnd { s with pmu := { s.pmu with service := false } }
    allPorts.foldl (fun s p => if (tcOf s p).debugAcc then detachPort p s else s) s1

/-! ### MODE_REQUEST (R383, R385, R449) -/

/-- The spec of MODE_REQUEST (R449). -/
def specModeRequest : CmdSpec :=
  { opcode := 0x0102, cls := .bootRun, onCmd0 := fun _ => true, onI2ct := true, lenOk := len 12
    resvOk := fun p => zeroAt 2 2 p && decide (fld p 1 1 < 2) }

/-- The level a target mode names (R382). -/
def modeLevel (m : Mode) : Option Nat := match m with
  | .eco => some 0
  | .active => some 1
  | .peak => some 2
  | _ => none

/-- The mode accepts the target (R381, R383). -/
def targetAccepted (s : State) (m : Mode) : Bool :=
  match m with
  | .eco | .peak => !s.pmu.oppLocked && s.pmu.reported != .suspend
  | .active => s.pmu.reported != .suspend
  | .service => (match s.pmu.reported with
      | .eco | .active | .peak | .vigil | .degraded => true
      | _ => false)
  | .hibernate | .standby => s.pmu.reported != .boot
  | _ => true

/-- A request in the pending place; the request it replaces completes with SUPERSEDED (R385, R401). -/
def pendRequest (t : Trans) (s : State) : State :=
  modeFinal (s.pmu.pend.bind (·.req)) stSuperseded 0 { s with pmu := { s.pmu with pend := some t } }

/-- Sleep entry begins: it is the transition in progress, and Sage has written its target (R384, R388). -/
def beginSleep (t : Trans) (s : State) : State :=
  { s with pmu := { s.pmu with inProg := some { t with req := none }, target := t.target, targetOpp := 0 } }

/-- The result of MODE_REQUEST where no transition follows (R449). -/
def reached (s : State) : State × Reply := (s, okR (le 1 0 ++ le 1 (modeId s.pmu.reported) ++ [0, 0]))

/-- MODE_REQUEST for a sleep mode: in progress at once, or pending behind the transition that runs (R385, R388). -/
def requestSleep (t : Trans) (s : State) : State × Reply :=
  let id := s.pmu.reqSeq
  let s1 := { s with pmu := { s.pmu with reqSeq := id + 1 } }
  if s.pmu.inProg.isSome then (pendRequest { t with req := some id } s1, accR (.mode id))
  else
    let s2 := modeFinal (s1.pmu.pend.bind (·.req)) stSuperseded 0 { s1 with pmu := { s1.pmu with pend := none } }
    reached (beginSleep t s2)

/-- The level, or SERVICE, that a request sets (R381, R383). -/
def setTarget (m : Mode) (s : State) : State := match modeLevel m with
  | some l => let s1 := serviceEnds s; { s1 with pmu := { s1.pmu with level := l } }
  | none => { s with pmu := { s.pmu with service := true } }

/-- MODE_REQUEST for a level or SERVICE: pending until its operating point is confirmed, or done at once (R383, R385). -/
def requestRun (m : Mode) (s : State) : State × Reply :=
  let id := s.pmu.reqSeq
  let s0 := { s with pmu := { s.pmu with reqSeq := id + 1 } }
  if s.pmu.reported == .boot then
    (pendRequest { target := m, opp := modeOpp s.pmu.oppLocked m, req := some id } s0, accR (.mode id))
  else
    let s1 := setTarget m s0
    let want := modeOpp s1.pmu.oppLocked (runMode s1)
    if s1.pmu.inProg.isSome || s1.pmu.opp ≠ want then
      (modeSync (pendRequest { target := runMode s1, opp := want, req := some id } { s1 with pmu := { s1.pmu with failedOpp := none } }),
       accR (.mode id))
    else
      reached (modeSync (modeFinal (s1.pmu.pend.bind (·.req)) stSuperseded 0 { s1 with pmu := { s1.pmu with pend := none } }))

/-- MODE_REQUEST (R383, R385, R449). -/
def cmdModeRequest (r : Req) (s : State) : State × Reply :=
  let opts := fld r.payload 1 1
  let alarm := fld r.payload 4 8
  match idMode (fld r.payload 0 1) with
  | none => (s, errR stBadTarget)
  | some m =>
    let lvl := modeLevel m
    if !targetAccepted s m then (s, errR stMode)
    else if !noTarget r || !(lvl.isSome || sleepMode m || m == .service) || (alarm != 0 && !sleepMode m) || (bit opts 0 && lvl.isNone) then
      (s, errR stBadTarget)
    else if sleepMode m then requestSleep { target := m, opp := 0, req := none, alarm := alarm } s
    else if (requestRun m s).2.acc.isSome ∧ accFull r s = true then (s, errR stBusy)
    else
      let p := match lvl with
        | some l => if bit opts 0 then persist [(0x201, BitVec.ofNat 32 l)] r.badWord s else (s, stOk)
        | none => (s, stOk)
      if p.2 ≠ stOk then (p.1, errR p.2) else requestRun m p.1

/-- MODE_REQUEST. -/
def execModeRequest (r : Req) (s : State) : Res := .next (runCmd specModeRequest cmdModeRequest r s)

/-! ### Operating points (R66, R386, R387) -/

/-- The core voltage of an operating point in mV (R61). -/
def oppMv (o : Nat) : Nat := match o with
  | 1 => 650
  | 3 => 850
  | _ => 750

/-- A voltage in LINEAR16 with the exponent that the regulator reported, to the nearest step (R65). -/
def linear16 (s : State) (mv : Nat) : Nat := (mv * 2 ^ s.reg.exponent + 500) / 1000

/-- A PMBus write to the core regulator at address 0x40, with the PEC over the whole transaction (R65). The CRC-8 is SMBus's (PRESUMED, log
entry 40). -/
def pmbWrite (code : Nat) (data : List Byte) (s : State) : State :=
  emit (.pmb code data (BitVec.ofNat 8 (crc8 (0x80 :: code :: data.map (·.toNat))))) s

/-- VOUT_COMMAND on PMB (R65). -/
def writeVout (o : Nat) (s : State) : State :=
  { (pmbWrite 0x21 (le 2 (linear16 s (oppMv o))) s) with reg := { s.reg with voutMv := oppMv o } }

/-- The pending change of operating point begins (R384, R387): raising writes the voltage first, lowering switches the clocks first. -/
def startOpp (s : State) : State :=
  match s.pmu.pend with
  | none => s
  | some t =>
    if s.pmu.inProg.isSome ∨ t.opp = 0 ∨ t.opp = s.pmu.opp then s
    else
      let raising := decide (t.opp > s.pmu.opp)
      let safe := t.target == .safe
      writeVout t.opp { s with pmu := { s.pmu with
        inProg := some t, pend := none
        target := if safe then s.pmu.target else t.target
        targetOpp := if safe then s.pmu.targetOpp else t.opp
        clkOpp := if raising then s.pmu.clkOpp else t.opp
        change := some { fromOpp := s.pmu.opp, toOpp := t.opp, raising := raising, startAt := s.now } } }

/-- OPP_CHANGE_START (R384, R387). A firmware write that would break the order is refused and recorded as UC (R386). -/
def execOppChangeStart (badOrder : Bool) (s : State) : Res :=
  let s := fresh s
  .next (startOpp (if badOrder then fault .pmu 13 (blockId .pmu) s else s))

/-- What follows the end of a transition (R385): a pending sleep entry begins, with its request completed OK; a waiting SAFE is left to
SAFE_ENTRY; else the pending place is looked at again. -/
def transitionEnds (skip : List (Fin 8)) (s : State) : State :=
  let s1 := modeEvent skip s
  match s1.pmu.pend with
  | some t =>
    if sleepMode t.target then modeFinal t.req stOk 0 (beginSleep t { s1 with pmu := { s1.pmu with pend := none } })
    else modeFollow s1
  | none => modeFollow s1

/-- The rings of a transition's final completion. -/
def reqRings (s : State) : List (Fin 8) := match s.pmu.inProg.bind (·.req) with
  | some id => accRings (.mode id) s
  | none => []

/-- OPP_VOLTAGE_CONFIRMED (R66, R387): READ_VOUT within 3 % of the target with CORE_PG high switches the clocks and posts the result;
after a failed lowering it restores the previous frequencies. -/
def execOppVoltageConfirmed (mv : Nat) (s : State) : Res :=
  let s := fresh s
  match s.pmu.change with
  | none => .next s
  | some c =>
    let o := if c.reverting then c.fromOpp else c.toOpp
    if !s.sup.corePg || decide (mv * 100 < oppMv o * 97 ∨ mv * 100 > oppMv o * 103) then .next s
    else
      let req := s.pmu.inProg.bind (·.req)
      let s1 := { s with pmu := { s.pmu with opp := o, clkOpp := o, vcoreMv := oppMv o, change := none, inProg := none } }
      .next (transitionEnds (reqRings s) (modeFinal req stOk (b2n c.reverting) s1))

/-- OPP_CONFIRM_TIMEOUT (R66, R387): 300 µs after the voltage was commanded, the previous voltage is commanded and OPP_FAIL recorded;
raising keeps its clocks and fails at once, lowering restores them once that voltage is confirmed. -/
def execOppConfirmTimeout (s : State) : Res :=
  let s := fresh s
  match s.pmu.change with
  | none => .next s
  | some c =>
    if c.reverting then .next s
    else
      let s0 := advanceTo (c.startAt + 300000) s
      let mark := s0.pmu.inProg.map (fun t => (s0.pmu.reported, t.opp))
      let s1 := fault .pmu 10 (blockId .pmu) (writeVout c.fromOpp { s0 with pmu := { s0.pmu with failedOpp := mark } })
      if c.raising then
        let req := s1.pmu.inProg.bind (·.req)
        let s2 := { s1 with pmu := { s1.pmu with change := none, inProg := none } }
        .next (transitionEnds (reqRings s1) (modeFinal req stOk 1 s2))
      else .next { s1 with pmu := { s1.pmu with change := some { c with reverting := true } } }

/-! ### SUSPEND (R380, R387) -/

/-- SUSPEND_ENTRY (R379, R380): the condition has held for 2 ms; the PMU gates the clocks, and a rebuild under way is abandoned. -/
def execSuspendEntry (s : State) : Res :=
  let s := fresh s
  match s.pmu.suspendSince with
  | none => .next s
  | some t =>
    if !suspendCond s || entering s || isExclusive s.pmu.reported then .next s
    else
      let old := s.pmu.reported
      let s1 := abandonRebuild (advanceTo (t + 2000000) s)
      let s2 := trialTick old .suspend { s1 with pmu := { s1.pmu with reported := .suspend, clkGated := true } }
      .next (modeFollow s2)

/-! ### Lane time (R395–R400) -/

/-- round5 of a value in millionths of a ns (R399). -/
def round5 (x : Nat) : Nat := (x + 2500000) / 5000000 * 5

/-- One cycle of TB_CLK: lane time advances by 5 ns (R395); with the reference lost one AON_RC cycle advances it by the last calibration
(R396). The counter has 64 bits. Remote-wake signalling that is due starts (R294). -/
def tick (s : State) : State :=
  let s := fresh s
  if !s.clk.tbOn then s
  else if s.clk.refLost.isSome then
    let x := s.clk.frac + 5 * s.clk.calE6
    startUpWakes { s with now := (s.now + x / 1000000) % 2 ^ 64, clk := { s.clk with frac := x % 1000000 } }
  else startUpWakes { s with now := (s.now + 5) % 2 ^ 64 }

/-- A nominal RTC period in millionths of a ns (R399). -/
def rtcE6 : Nat := 30517578125

/-- restore_lane_time (R399): the interpolated estimate until the next AON_32K edge, and the value at that edge. -/
def restoreLaneTime (b : BootIn) (s : State) : State :=
  let pf := 244 * 5 * s.clk.calE6
  let elapsed := b.nx * rtcE6 + b.nf * pf - (s.clk.phi + b.psi) * 1000000
  let start := s.clk.le + round5 elapsed
  let est := s.clk.le - s.clk.phi + round5 ((b.nx + b.nf - 1) * rtcE6)
  let bound := s.clk.boundE6 + round5 (b.nx * rtcE6 * 5 / 100000) * 1000000 + (if b.nf > 0 then elapsed * 2 / 100 else 0)
  { s with now := max s.now est
           clk := { s.clk with
             tbOn := true, interp := true, edgeTo := start + b.psi, boundE6 := bound
             quality := if b.nf > 0 then 2 else s.clk.quality
             sleepQuality := if b.nf > 0 then 2 else 0, sleepElapsed := round5 elapsed } }

/-- LANE_TIME_EDGE_CORRECTION (R397, R399): at the first AON_32K edge lane time steps forward to the restored value. -/
def execLaneTimeEdgeCorrection (s : State) : Res :=
  let s := fresh s
  .next (if s.clk.interp then { s with now := max s.now s.clk.edgeTo, clk := { s.clk with interp := false } } else s)

end Sys2Proof.Machine
end

