-- ==== Sys2Proof/Machine/Power.lean ====
section
/-! DEFINITION. Power contracts: offers, Requests, EPR, keep-alives and reductions (R331–R339, R341), and role swaps (R350–R355). -/

set_option Elab.async false

namespace Sys2Proof.Machine

/-! ### Requests (R335) -/

/-- The contract that a Request asks for, of the object at its position: none where the offers do not admit it. -/
def requested (s : State) (p : Port) (m : PdMsg) : Option Contract :=
  let r := pdObj m 0
  let pos := bits r 31 28
  let o := (((pwrOf s p).caps)[pos - 1]?).getD 0
  if pos = 0 ∨ o = 0 then none
  else if bits o 31 30 = 0 then
    let ma := bits r 19 10 * 10
    if ma ≤ bits o 9 0 * 10 then
      some { kind := if pos ≥ 8 then 4 else 2, volt := bits o 19 10 * 50, cur := ma, pdoCur := bits o 9 0 * 10 }
    else none
  else if bits o 29 28 = 0 then
    let mv := bits r 20 9 * 20
    let ma := bits r 6 0 * 50
    if bits o 15 8 * 100 ≤ mv ∧ mv ≤ bits o 24 17 * 100 ∧ ma ≤ bits o 6 0 * 50 then
      some { kind := 3, volt := mv, cur := ma, pdoCur := bits o 6 0 * 50 } else none
  else
    let mv := bits r 20 9 * 25
    let ma := bits r 6 0 * 50
    let pdp := bits o 7 0 * 1000
    if bits o 15 8 * 100 ≤ mv ∧ mv ≤ bits o 25 17 * 100 ∧ mv % 100 = 0 ∧ mv * ma ≤ pdp * 1000 then
      some { kind := 5, volt := mv, cur := ma, pdoCur := min (tcOf s p).cable.cur (maAt pdp mv) } else none

/-- What the allocator can take from the ports behind one, down to their floors. -/
def takeable (s : State) (p : Port) : Nat :=
  ((((allocPorts s).dropWhile (· ≠ p)).drop 1).map (fun q => (pwrOf s q).grant - allocFloor s q)).foldl (· + ·) 0

/-- A Request accepted (R331, R335): its contract is charged from now on, beside the old one until PS_RDY. -/
def acceptRequest (p : Port) (c : Contract) (mis : Bool) (at_ : Nat) (s : State) : State :=
  let s1 := modPwr p (fun x => { x with
    newCon := some c, need := conMw p c, mismatch := mis, waited := false, capsDue := none
    ppsAt := if c.kind = 3 then at_ else x.ppsAt }) (pdCtl p 3 s)
  runAlloc s1

/-- A Request refused, and the capabilities of the mode in force after it (R335). -/
def rejectRequest (p : Port) (s : State) : State := capsAt p s.now (pdCtl p 4 s)

/-- A Request judged (R335, R356). -/
def judgeRequest (p : Port) (m : PdMsg) (s : State) : State :=
  let x := pwrOf s p
  match requested s p m with
  | none => rejectRequest p s
  | some c =>
    let w := conMw p c
    if x.waited && reducing s then pdCtl p 12 s
    else if w ≤ x.grant + (if safeHolds s || x.reduce.isSome then 0 else unalloc s) then
      acceptRequest p c (bit (pdObj m 0) 26) m.at_ s
    else if safeHolds s = false ∧ w ≤ capMw s p ∧ w ≤ x.grant + unalloc s + takeable s p then
      runAlloc (modPwr p (fun x => { x with need := w, waited := true }) (pdCtl p 12 s))
    else rejectRequest p s

/-- PD_REQUEST (R335): judged when it arrives; the wrong message for the mode in force is refused unjudged, and the copy in an EPR_Request
must equal the offered object. A Request inside a transition is out of place: Soft_Reset (R326). -/
def execPdRequest (p : Port) (s : State) : Res :=
  .next (takeHand p (fun m => (isData m 2 || isData m 9) && isSource s p) (fun m s =>
    let x := pwrOf s p
    let s1 := modPhy p (fun y => { y with ams := if y.ams = 1 then 0 else y.ams, chunk := [] }) s
    let epr := isData m 9
    let copyOk := !epr || decide (msgObjs m.header = 2 ∧ (x.caps[bits (pdObj m 0) 31 28 - 1]?) = some (pdObj m 1))
    if x.newCon.isSome then softReset p s1
    else if epr != x.epr || !copyOk then rejectRequest p s1
    else judgeRequest p m s1) (fresh s))

/-! ### Capabilities (R332, R337, R339) -/

/-- Source_Capabilities, or EPR_Source_Capabilities in two chunks, from an available power (R325, R332). -/
def sendCaps (p : Port) (a : Nat) (ams : Nat) (s : State) : State :=
  let objs := offered s p a
  let s1 := modPwr p (fun x => { x with caps := objs, capsDue := none, capsLast := s.now, capsCount := x.capsCount + 1 }) s
  if (pwrOf s p).epr then
    let data := objs.flatMap (le 4)
    modPhy p (fun x => { x with ams := ams, amsAt := s.now, chunk := data.drop 26 }) (sendChunk p 17 0 data.length (data.take 26) s1)
  else modPhy p (fun x => { x with ams := ams, amsAt := s.now, chunk := [] }) (pdData p 1 objs s1)

/-- Capabilities may go out: a source at vSafe5V with no Hard Reset or swap under way, its Thyme up. -/
def capsMay (s : State) (p : Port) : Bool :=
  isSource s p && !(tcOf s p).debugAcc && !thymeDown s p && (pwrOf s p).hr.isNone && (pwrOf s p).swap.isNone && (pwrOf s p).psc

/-- SOURCE_CAPS_SEND (R332). -/
def execSourceCapsSend (p : Port) (s : State) : Res :=
  let s := fresh s
  match (pwrOf s p).capsDue with
  | none => .next s
  | some t =>
    if !capsMay s p then .next s
    else
      let s1 := advanceTo t s
      .next (sendCaps p (if (pwrOf s1 p).reduce.isSome then min (capMw s1 p) (pwrOf s1 p).grant else availMw s1 p) 1 s1)

/-- SOURCE_CAPS_RETRY (R337): every 150 ms without a contract, up to nCapsCount. -/
def execSourceCapsRetry (p : Port) (s : State) : Res :=
  let s := fresh s
  let x := pwrOf s p
  if !capsMay s p || explicit s p || x.newCon.isSome || decide (x.capsCount = 0 ∨ x.capsCount ≥ 50) then .next s
  else
    let s1 := advanceTo (x.capsLast + 150000000) s
    .next (sendCaps p (availMw s1 p) 1 s1)

/-- BUDGET_REDUCTION (R339, R356): after tSinkTx, capabilities built from the grant alone; a transition that runs completes first. -/
def execBudgetReduction (p : Port) (s : State) : Res :=
  let s := fresh s
  match (pwrOf s p).reduce with
  | some (0, t) =>
    if !capsMay s p || (pwrOf s p).trans.isSome || (pwrOf s p).newCon.isSome then .next s
    else
      let s1 := advanceTo (if rev3 s p then t + 18000000 else s.now) s
      let s2 := sendCaps p (min (capMw s1 p) (pwrOf s1 p).grant) 0 s1
      .next (modPwr p (fun x => { x with reduce := some (1, s1.now) }) s2)
  | _ => .next s

/-- REDUCTION_RESPONSE_TIMEOUT (R339): no new contract within tSenderResponse. -/
def execReductionResponseTimeout (p : Port) (s : State) : Res :=
  let s := fresh s
  match (pwrOf s p).reduce with
  | some (1, t) =>
    if (pwrOf s p).newCon.isSome || thymeDown s p then .next s else .next (sendHardReset p (advanceTo (t + 30000000) s))
  | _ => .next s

/-- The power of one sink object in mW (R338): V × I for a fixed PDO, Vmax × Imax for an APDO, the power itself where the object holds
one. -/
def sinkMw (o : Nat) : Nat :=
  match bits o 31 30, bits o 29 28 with
  | 0, _ => bits o 19 10 * 50 * (bits o 9 0 * 10) / 1000
  | 1, _ => bits o 9 0 * 250
  | 2, _ => bits o 29 20 * 50 * (bits o 9 0 * 10) / 1000
  | _, 0 => bits o 24 17 * 100 * (bits o 6 0 * 50) / 1000
  | _, _ => bits o 7 0 * 1000

/-- The current that a sink's first object asks for in a Fast Role Swap, in mA. -/
def frsMa (p : Port) (o : Nat) : Nat := match bits o 24 23 with
  | 0 => 0
  | 1 => rpCur p 0
  | 2 => 1500
  | _ => 3000

/-- Fast Role Swap armed on an initial sink (R355): the stage at 5.0 V behind the open source switch, PSC high, FRS_ARM set. -/
def armFrs (p : Port) (o : Nat) (s : State) : State :=
  let x := pwrOf s p
  let ma := frsMa p o
  if isSink s p && !(tcOf s p).initSrc && explicit s p && x.pol.frs && bit x.pol.roles 1 && decide (ma > 0) && pscMay s p &&
      decide (5 * ma ≤ unalloc s) && !safeHolds s then
    emit (.frontEnd p 5 true)
      (modPwr p (fun x => { x with frsArm := true, frsCur := ma, grant := 5 * ma, need := 5 * ma, psc := true }) s)
  else s

/-- SINK_CAPABILITIES_RECEIVED (R338, R355): the largest power becomes the port's need and the allocator runs; a host's answer arms Fast Role
Swap on an upstream sink. -/
def execSinkCapabilitiesReceived (p : Port) (s : State) : Res :=
  .next (takeHand p (fun m => isData m 4 || isExt m 18) (fun m s =>
    let bytes := if isExt m 18 then (phyOf s p).rxChunk else m.data
    let objs := (List.range (bytes.length / 4)).map (fun i => fld bytes (4 * i) 4)
    let s1 := modTc p (fun t => { t with sinkTxNg := t.sinkTxNg && (pwrOf s p).reduce.isSome })
      (modPhy p (fun x => { x with ams := if x.ams = 3 then 0 else x.ams, rxChunk := [] }) s)
    if isSource s1 p then
      let w := min (capMw s p) ((objs.map sinkMw).foldl max 0)
      runAlloc (modPwr p (fun x => { x with need := w, mismatch := false }) s1)
    else armFrs p (objs.headD 0) s1) (fresh s))

/-! ### EPR and keep-alives (R333, R336) -/

/-- EPR_MODE_ENTER (R333): acknowledged and succeeded, or failed with its reason. -/
def execEprModeEnter (p : Port) (s : State) : Res :=
  .next (takeHand p (fun m => isData m 10 && bits (pdObj m 0) 31 24 == 1) (fun m s =>
    let x := pwrOf s p
    if !bit x.pol.offer 1 then eprMode p 4 5 s
    else if !(tcOf s p).cable.epr then eprMode p 4 1 s
    else if !isSource s p || x.epr || !explicit s p || x.newCon.isSome || !rev3 s p || safeHolds s then eprMode p 4 4 s
    else
      let s1 := eprMode p 3 0 (eprMode p 2 0 s)
      capsAt p s.now (contractEvent p 5 x.con (modPwr p (fun x => { x with epr := true, eprAt := m.at_ }) s1))) (fresh s))

/-- EPR_MODE_EXIT (R333): the capabilities of the mode in force follow. -/
def execEprModeExit (p : Port) (s : State) : Res :=
  .next (takeHand p (fun m => isData m 10 && bits (pdObj m 0) 31 24 == 5) (fun _ s =>
    if (pwrOf s p).epr then capsAt p s.now (eprEnd p s) else s) (fresh s))

/-- EPR_KEEPALIVE (R336): the timer was restarted as the message arrived. -/
def execEprKeepalive (p : Port) (s : State) : Res :=
  .next (takeHand p (fun m => isExt m 16 && bits (fld m.data 0 4) 23 16 == 3) (fun _ s =>
    if (pwrOf s p).epr then sendChunk p 16 0 2 [4, 0] s else notSupported p s) (fresh s))

/-- PPS_TIMEOUT (R336). -/
def execPpsTimeout (p : Port) (s : State) : Res :=
  let s := fresh s
  if (pwrOf s p).con.kind ≠ 3 ∨ thymeDown s p = true then .next s
  else .next (sendHardReset p (advanceTo ((pwrOf s p).ppsAt + 14000000000) s))

/-- EPR_KEEPALIVE_TIMEOUT (R336). -/
def execEprKeepaliveTimeout (p : Port) (s : State) : Res :=
  let s := fresh s
  if !(pwrOf s p).epr || thymeDown s p then .next s
  else .next (sendHardReset p (advanceTo ((pwrOf s p).eprAt + 900000000) s))

/-- GET_SINK_CAP_ON_DS (R350). -/
def execGetSinkCapOnDs (d : DS) (s : State) : Res :=
  .next (takeHand (dsPort d) (fun m => isCtl m 8) (fun _ s => notSupported (dsPort d) s) (fresh s))

/-! ### Role swaps (R282, R312, R350–R354) -/

/-- The control message of a swap: PR_Swap, DR_Swap, VCONN_Swap. -/
def swapMsg (kind : Nat) : Nat := match kind with
  | 0 => 10
  | 1 => 9
  | _ => 11

/-- The controller's own swap request written (R315, R353): as source it sets SinkTxNG and waits tSinkTx. -/
def sendSwap (p : Port) (kind : Nat) (s : State) : State :=
  let wait := (tcOf s p).src && rev3 s p
  let s1 := if wait then modTc p (fun t => { t with sinkTxNg := true }) s else s
  let s2 := pdCtl p (swapMsg kind) s1
  modPhy p (fun x => { x with
    ams := 4, amsAt := s.now
    tx := match x.tx.getLast? with
      | some m => x.tx.dropLast ++ [{ m with at_ := if wait then s.now + 18000000 else s.now }]
      | none => x.tx }) s2

/-- The controller's own swap answered, or given up. -/
def swapOver (u : US) (result : Nat) (s : State) : State :=
  swapFinal u result (modTc (usPort u) (fun t => { t with sinkTxNg := false })
    (modPhy (usPort u) (fun x => { x with ams := if x.ams = 4 then 0 else x.ams }) s))

/-- The controller's own request has not begun transmission. -/
def swapUnsent (s : State) (p : Port) (kind : Nat) : Bool :=
  (phyOf s p).tx.any (fun m => isCtl m (swapMsg kind)) ||
    ((phyOf s p).txStaged.any (fun m => isCtl m (swapMsg kind)) && !(phyOf s p).txStarted)

/-- A partner's swap request beside the controller's own (R353): one not yet sent is discarded, one that awaits Accept has the partner
wait. -/
def meetSwap (u : US) (f : State → State) (s : State) : State :=
  let p := usPort u
  match (pwrOf s p).swap with
  | none => f s
  | some w =>
    if w.ours && (w.phase == 2 || (w.phase == 0 && swapUnsent s p w.kind)) then
      f (swapOver u 4 (modPhy p (fun x => { x with
        tx := x.tx.filter (fun m => !isCtl m (swapMsg w.kind))
        txStaged := if x.txStaged.any (fun m => isCtl m (swapMsg w.kind)) && !x.txStarted then none else x.txStaged }) s))
    else pdCtl p 12 s

/-- A partner's swap accepted; it runs from the GoodCRC of the Accept. -/
def acceptSwap (p : Port) (kind : Nat) (s : State) : State :=
  pdCtl p 3 (modPwr p (fun x => { x with swap := some { kind := kind, ours := false, at_ := s.now } }) s)

/-- The port may become source now: SOURCE_OK, and the allocator can grant its floor (R351). -/
def mayBeSource (s : State) (p : Port) : Bool :=
  bit (pwrOf s p).pol.roles 1 && pscMay s p && ((pwrOf s p).frsArm || decide (floorMw p ≤ unalloc s)) && !safeHolds s

/-- PR_SWAP_RECEIVED (R350, R351, R353). -/
def execPrSwapReceived (p : Port) (s : State) : Res :=
  .next (takeHand p (fun m => isCtl m 10) (fun _ s =>
    match portUs p with
    | none => pdCtl p 4 s
    | some u => meetSwap u (fun s =>
      if (if isSource s p then bit (pwrOf s p).pol.roles 0 && (pwrOf s p).trans.isNone else mayBeSource s p) then acceptSwap p 0 s
      else pdCtl p 4 s) s) (fresh s))

/-- DR_SWAP_RECEIVED (R282, R350): refused where the controller would become DFP. -/
def execDrSwapReceived (p : Port) (s : State) : Res :=
  .next (takeHand p (fun m => isCtl m 9) (fun _ s =>
    match portUs p with
    | none => pdCtl p 4 s
    | some u => meetSwap u (fun s => if (tcOf s p).dfp then acceptSwap p 1 s else pdCtl p 4 s) s) (fresh s))

/-- VCONN_SWAP_RECEIVED (R312, R350). -/
def execVconnSwapReceived (p : Port) (s : State) : Res :=
  .next (takeHand p (fun m => isCtl m 11) (fun _ s =>
    match portUs p with
    | none => pdCtl p 4 s
    | some u => meetSwap u (acceptSwap p 2) s) (fresh s))

/-- An accepted swap of the controller's own carried out. -/
def swapAccepted (u : US) (w : Swap) (s : State) : State :=
  let p := usPort u
  match w.kind with
  | 0 => swapPhase p 1 s
  | 1 => swapOver u 0 (setDataRole u (!(tcOf s p).dfp) s)
  | _ => swapOver u 0 (if (tcOf s p).vconn then vconnOff p s else pdCtl p 6 (vconnOn p s))

/-- SWAP_RESPONSE_RECEIVED (R351, R353). -/
def execSwapResponseReceived (u : US) (s : State) : Res :=
  let p := usPort u
  let ours := (pwrOf s p).swap.any (fun w => w.ours && w.phase == 0)
  .next (takeHand p (fun m => ours && (isCtl m 3 || isCtl m 4 || isCtl m 12 || isCtl m 16)) (fun m s =>
    match (pwrOf s p).swap with
    | none => s
    | some w =>
      let s1 := modPhy p (fun x => { x with ams := 0 }) s
      if isCtl m 3 then swapAccepted u w s1
      else if isCtl m 4 then swapOver u 1 s1
      else if isCtl m 16 then swapOver u 2 s1
      else if w.waits ≥ 5 then swapOver u 3 s1
      else
        modTc p (fun t => { t with sinkTxNg := false })
          (modPwr p (fun x => { x with swap := some { w with phase := 2, waits := w.waits + 1, at_ := s.now } }) s1)) (fresh s))

/-- SWAP_WAIT_RETRY (R353): 100 ms plus a pseudo-random 0–50 ms after Wait. -/
def execSwapWaitRetry (u : US) (jitter : Fin 51) (s : State) : Res :=
  let s := fresh s
  let p := usPort u
  match (pwrOf s p).swap with
  | some w =>
    if !w.ours || w.phase != 2 || thymeDown s p then .next s
    else
      let s1 := advanceTo (w.at_ + (100 + jitter.val) * 1000000) s
      .next (sendSwap p w.kind (swapPhase p 0 s1))
  | none => .next s

/-- The controller is the new source (R331, R352): 5.0 V behind the closed source switch, the implicit contract and Rp, and capabilities. -/
def becomeSource (p : Port) (s : State) : State :=
  let s1 := modTc p (fun t => { t with src := true, sinkTxNg := false, vbus5At := none, discDone := true }) s
  let s2 := modPwr p (fun x => { x with
    snkEn := false, frsArm := false, con := { kind := 1, volt := 5000, cur := rpCur p 0 }, newCon := none, off0 := false, offCharge := 0
    capsCount := 0, reduce := none, hr := none }) s1
  let s3 := emit (.frontEnd p 0 true) (emit (.frontEnd p 1 false) (provisional p (pscHigh p s2)))
  let lvl := rpLevel s3 p
  let c : Contract := { kind := 1, volt := 5000, cur := rpCur p lvl }
  capsAt p s.now (writeOc p c (modPwr p (fun x => { x with con := c }) (modTc p (fun t => { t with rp := lvl }) s3)))

/-- The controller is the new sink: charged 0 from its PS_RDY. -/
def becomeSink (p : Port) (s : State) : State :=
  let s1 := eprEnd p (pscLow p s)
  let s2 := modPwr p (fun x => { x with
    con := { kind := 1, volt := 5000 }, newCon := none, need := 0, grant := 0, snkEn := true, caps := [], capsDue := none, capsCount := 0
    mismatch := false, waited := false, hr := none, off0 := false, offCharge := 0 }) s1
  let s3 := modTc p (fun t => { t with src := false, rp := 0, sinkTxNg := false, vbus5At := none }) s2
  runAlloc (reduced p (emit (.frontEnd p 1 true) s3))

/-- PR_SWAP_SEQUENCE (R352): the old source's VBUS falls to vSafe0V and its PS_RDY goes out; the new source follows after
tSwapSourceStart. The data role stays. -/
def execPrSwapSequence (u : US) (s : State) : Res :=
  let s := fresh s
  let p := usPort u
  match (pwrOf s p).swap with
  | some w =>
    if w.kind ≠ 0 ∨ w.phase ≠ 1 ∨ thymeDown s p = true then .next s
    else
      let s1 := resetPd p s
      .next (swapOver u 0 (if isSource s p then pdCtl p 6 (becomeSink p s1)
        else pdCtl p 6 (becomeSource p (advanceTo (s.now + 25000000) s1))))
  | none => .next s

/-- DATA_ROLE_SWAP_REQUEST (R282): a DFP upstream port asks for the UFP role once its explicit contract is in place. -/
def execDataRoleSwapRequest (u : US) (s : State) : Res :=
  let s := fresh s
  let p := usPort u
  if (tcOf s p).st != .attached || !(tcOf s p).dfp || !explicit s p || (pwrOf s p).newCon.isSome || (pwrOf s p).swap.isSome ||
      thymeDown s p then .next s
  else .next (sendSwap p 1 (modPwr p (fun x => { x with swap := some { kind := 1, ours := true, at_ := s.now } }) s))

/-! ### Fast Role Swap (R283, R355, R356) -/

/-- FRS_SIGNAL (R355, R356): FRS_GO ahead of any queued transaction; a ROLE_SWAP under way fails. -/
def execFrsSignal (u : US) (s : State) : Res :=
  let s := fresh s
  let p := usPort u
  if !(pwrOf s p).frsArm || !isSink s p || (pwrOf s p).frs.isSome then .next s
  else
    let s1 := swapFail p (notice p (.frsRx s.now) s)
    .next (emit (.frontEnd p 6 true) (modPwr p (fun x => { x with frs := some s.now, frsLost := false }) s1))

/-- FR_SWAP_RECEIVED (R283, R355): Accept, the host's PS_RDY, Rp and the controller's PS_RDY; the swap is no loss of VBUS. -/
def execFrSwapReceived (u : US) (s : State) : Res :=
  let p := usPort u
  .next (takeHand p (fun m => isCtl m 19) (fun _ s =>
    if (pwrOf s p).frs.isNone then notSupported p s
    else
      let s1 := modPwr p (fun x => { x with frs := none, frsLost := false }) (pdCtl p 3 s)
      pdCtl p 6 (becomeSource p (resetPd p s1))) (fresh s))

/-- FR_SWAP_INIT_TIMEOUT (R283, R355): no FR_Swap within tFRSwapInit; where VBUS fell the host is absent at once. -/
def execFrSwapInitTimeout (u : US) (s : State) : Res :=
  let s := fresh s
  let p := usPort u
  match (pwrOf s p).frs with
  | none => .next s
  | some t =>
    let lost := (pwrOf s p).frsLost
    let s1 := sendHardReset p (advanceTo (t + 15000000) s)
    let s2 := modPwr p (fun x => { x with frs := none, frsLost := false }) s1
    .next (if lost then detachPort p s2 else s2)

end Sys2Proof.Machine
end

