-- ==== Sys2Proof/Machine/PowerHw.lean ====
section
/-! DEFINITION. The power path's hardware: VBUS transitions, the ADC's schedule, trips, over-current, PSF, the PSL's polls, and Hard Reset on a
source (R340–R347). -/

set_option Elab.async false

namespace Sys2Proof.Machine

/-! ### Transitions (R341, R344) -/

/-- A port is in a VBUS transition. -/
def inTrans (s : State) (p : Port) : Bool := (pwrOf s p).trans.isSome

/-- How many ports are in transition. -/
def transCount (s : State) : Nat := (allPorts.filter (inTrans s)).length

/-- TRANSITION_LIMITS_WRITE (R341): the wider of the old and new windows, then VOUT_COMMAND; a fall of more than 5 V discharges. -/
def execTransitionLimitsWrite (p : Port) (s : State) : Res :=
  let s := fresh s
  let x := pwrOf s p
  match x.trans, x.newCon with
  | some v, some c =>
    if v.phase ≠ 0 ∨ thymeDown s p = true then .next s
    else
      let s1 := advanceTo (v.at_ + v.delay) s
      let d := if v.toMv ≥ v.fromMv then v.toMv - v.fromMv else v.fromMv - v.toMv
      let s2 := writeVolt p v.toMv (writeLimits p (max x.ov (ovpMv c)) (min x.uv (uvpMv c)) s1)
      let fall := decide (v.fromMv > v.toMv + 5000)
      let s3 := modPwr p (fun x => { x with
        discharge := fall
        trans := some { v with phase := 1, cmdAt := s1.now, bound := d * 1150 / max 1 x.pol.slew } }) s2
      .next (if fall then emit (.frontEnd p 2 true) s3 else s3)
  | _, _ => .next s

/-- A display route's entry is due at the PS_RDY of its port's first explicit contract (R368). -/
def dpWake (p : Port) (s : State) : State :=
  match portDs p with
  | none => s
  | some d =>
    let go (i : Fin 2) (s : State) : State :=
      let x := s.dp[i]
      if x.port == some d && x.phase == 0 && x.due.isNone then { s with dp := s.dp.set i { x with due := some s.now } } else s
    go 1 (go 0 s)

/-- Step 5 of a transition (R341): limits narrowed, the contract in place, PS_RDY; then what waits for a contract. While the Thyme is fenced
no PS_RDY is sent (R356). -/
def establish (p : Port) (c : Contract) (s : State) : State :=
  let x := pwrOf s p
  let kind := match x.reduce with | some (1, _) => 1 | _ => 0
  let s1 := writeOc p c (writeLimits p (ovpMv c) (uvpMv c) s)
  let s2 := modPwr p (fun x => { x with
    con := c, newCon := none, trans := none, hardCount := 0, firstDone := true, capsCount := 0
    reduce := match x.reduce with | some (0, _) => some (0, s.now) | r => r }) s1
  if thymeDown s p then s2
  else
    let s3 := if rev3 s p then modTc p (fun t => { t with rp := 2, sinkTxNg := kind == 0 && x.reduce.isSome }) s2 else s2
    let s4 := contractEvent p kind c (pdCtl p 6 s3)
    let s5 := if kind = 1 then reduced p s4 else s4
    let s6 := if x.mismatch then
        modPhy p (fun y => { y with ams := 3, amsAt := s.now }) (if x.epr then sendChunk p 16 0 2 [2, 0] s5 else pdCtl p 8 s5)
      else s5
    if x.firstDone then s6 else dpWake p (discoveryResumes p s6)

/-- A value lies within ±5 % of another (R341). -/
def within5 (v target : Nat) : Bool := decide (target * 95 ≤ v * 100 ∧ v * 100 ≤ target * 105)

/-- What a conversion of a port's VBS in transition shows. -/
def transSample (p : Port) (v : Nat) (s : State) : State :=
  let x := pwrOf s p
  match x.trans, x.newCon with
  | some t, some c =>
    if t.phase ≠ 1 then s
    else
      let near := decide (v ≤ c.volt + 500 ∧ c.volt ≤ v + 500)
      let s1 := if x.discharge && near then emit (.frontEnd p 2 false) (modPwr p (fun x => { x with discharge := false }) s) else s
      if within5 v c.volt then establish p c s1 else s1
  | _, _ => s

/-- VBUS seen at vSafe0V (R331, R347, R348): a charge held since a detach falls to 0; a Hard Reset's recovery counts from here. -/
def zeroSample (p : Port) (s : State) : State :=
  let x := pwrOf s p
  let s1 := if x.off0 then runAlloc (modPwr p (fun x => { x with off0 := false, offCharge := 0 }) s) else s
  match x.hr with
  | some (2, _) => modPwr p (fun x => { x with hr := some (3, s.now) }) s1
  | _ => s1

/-- VBUS seen at vSafe5V (R289, R337, R347): data lines are watched, VCONN comes back, and the first capabilities may go out. -/
def fiveSample (p : Port) (s : State) : State :=
  let x := pwrOf s p
  let t := tcOf s p
  if !isSource s p || !x.psc then s
  else
    let watch (s : State) : State := match portDs p with
      | some d => modDs d (fun y => { y with watch := true }) s
      | none => s
    match x.hr with
    | some (4, _) =>
      let s1 := modPwr p (fun x => { x with hr := none }) (watch s)
      capsAt p s.now (modTc p (fun t => { t with vbus5At := some s.now }) (if t.pattern == .rdRa then vconnOn p s1 else s1))
    | some _ => s
    | none =>
      if t.vbus5At.isSome || x.con.kind != 1 then s
      else
        let s1 := watch (modTc p (fun t => { t with vbus5At := some s.now }) s)
        if t.discDone && !t.debugAcc then capsAt p s.now s1 else s1

/-- A conversion of a port's VBS in mV. -/
def vbsSample (p : Port) (v : Nat) (s : State) : State :=
  let s1 := modPwr p (fun x => { x with vbs := v }) s
  let s2 := if v < 800 then zeroSample p s1 else if 4750 ≤ v ∧ v ≤ 5500 then fiveSample p s1 else s1
  transSample p v s2

/-! ### The ADC (R342) -/

/-- The next port in transition in port-code order, round-robin. -/
def nextTrans (s : State) : Option Port :=
  let l := allPorts.filter (inTrans s)
  match l.find? (fun p => decide (p.val > s.lane.adcTrans)) with
  | some p => some p
  | none => l.head?

/-- ADC_CONVERSION (R342): 1 µs each. Three conversions of a frame of four serve the ports in transition; every other conversion is of the
steady round of 20 channels. volts are the VBS inputs by port index. -/
def execAdcConversion (volts : List Nat) (s : State) : Res :=
  let s := fresh s
  let s1 := advanceTo (s.lane.adcAt + 1000) s
  let k := s1.lane
  let k1 := { k with adcAt := s1.now, adcSlot := (k.adcSlot + 1) % 4 }
  let next := nextTrans s
  if k.adcSlot < 3 ∧ next.isSome = true then
    match next with
    | none => .next s1
    | some p =>
      let s2 := { s1 with lane := { k1 with adcTrans := p.val } }
      .next (if unitFenced s .adc (.channel (portCode p)) then s2 else vbsSample p (volts.getD p.val 0) s2)
  else
    let s2 := { s1 with lane := { k1 with adcSteady := (k.adcSteady + 1) % 20 } }
    if h : k.adcSteady < 18 then
      let p : Port := ⟨k.adcSteady, h⟩
      .next (if unitFenced s .adc (.channel (portCode p)) then s2 else vbsSample p (volts.getD p.val 0) s2)
    else .next s2

/-- TRANSITION_TIMEOUT (R341): Hard Reset, and UC in the port's block. -/
def execTransitionTimeout (p : Port) (s : State) : Res :=
  let s := fresh s
  match (pwrOf s p).trans with
  | none => .next s
  | some v =>
    if v.phase ≠ 1 then .next s
    else
      let s1 := advanceTo (v.cmdAt + 2 * v.bound + 4000 * ((transCount s + 2) / 3)) s
      let s2 := if thymeDown s p then s1 else sendHardReset p s1
      .next (fault (portBlock p) 12 (blockId (portBlock p)) s2)

/-! ### Trips, over-current and PSF (R51, R114, R340, R344, R346) -/

/-- VBUS_OVP_TRIP (R344): PSC low in hardware, and UC in the port's block. -/
def execVbusOvpTrip (p : Port) (s : State) : Res :=
  .next (fault (portBlock p) 10 (blockId (portBlock p)) (pscLow p (fresh s)))

/-- An over-current condition as the owning hub shows it (R114). -/
def overCurrent (p : Port) (s : State) : State :=
  match portDs p with
  | some d => overCurrentOn d s
  | none => s

/-- An over-current shutdown (R340): counted and reported; ErrorRecovery, and held off after the third in 60 s. -/
def ocShutdown (p : Port) (s : State) : State :=
  if !isSource s p || !(pwrOf s p).psc then s
  else
    let times := ((pwrOf s p).ocTimes.filter (fun t => decide (s.now < t + 60000000000))) ++ [s.now]
    let s1 := emit (.stage p 0x03 0) (portEvent p 3 [] [] (overCurrent p s))
    recover p (modPwr p (fun x => { x with ocCount := x.ocCount + 1, ocTimes := times, heldOff := decide (times.length ≥ 3) }) s1)

/-- STAGE_OC_SHUTDOWN (R340); an alert in SUSPEND wakes (R389). -/
def execStageOcShutdown (p : Port) (s : State) : Res := .next (ocShutdown p (suspendWake 9 (portCode p) 0 (fresh s)))

/-- VBUS_UVP_TRIP (R344): outside a transition, below UVP for 1 ms. -/
def execVbusUvpTrip (p : Port) (s : State) : Res :=
  let s := fresh s
  .next (if inTrans s p then s else ocShutdown p s)

/-- PSF high on a populated port (R51, R114, R346): PSC low in hardware, ErrorRecovery, and UC in the port's block; PSC stays low until
re-admission. -/
def psfActs (p : Port) (s : State) : State :=
  let s1 := overCurrent p (pscLow p s)
  fault (portBlock p) 11 (blockId (portBlock p)) (if isSource s p then recover p s1 else s1)

/-- The controller sees a port's PSF: VDDIO_1V8 is present, and the port is populated (R50, R51, R60). -/
def psfSeen (s : State) (p : Port) : Bool := populated s p && s.sup.mainOn && !s.sup.ballsFloat

/-- PSF_RISE (R51, R346): the level is kept; one that is not seen acts once the rail is up, or the port marked populated (R50, R60). -/
def execPsfRise (p : Port) (status : Byte) (s : State) : Res :=
  let s := fresh s
  let s1 := modPwr p (fun x => { x with psf := true, feStatus := status.toNat % 128 }) s
  .next (if psfSeen s p then psfActs p (suspendWake 9 (portCode p) 1 s1) else s1)

/-! ### The PSL's polls (R343, R344) -/

/-- A transaction on PSI2C (R343): tries that failed count CE; after the fourth the port's PSC is low and the port is fenced. -/
def pslTry (p : Port) (tries : Nat) (ok : State → State) (s : State) : State :=
  let s1 := (List.range (min 3 tries)).foldl (fun s _ => fault .psl 8 (portCode p) s) s
  if tries ≥ 4 then fault .psl 9 (portCode p) (pscLow p s1) else ok s1

/-- The PSL reads a port's stage: it is populated, and its path is up. -/
def pslReads (s : State) (p : Port) : Bool := populated s p && !blockFenced s .psl && !pslFenced s p

/-- STAGE_STATUS_POLL (R344): STATUS_WORD; its IOUT_OC_FAULT bit is bit 4, as PMBus has it (PRESUMED, log entry 40). -/
def execStageStatusPoll (p : Port) (status : BitVec 16) (tries : Nat) (s : State) : Res :=
  let s := fresh s
  if !pslReads s p then .next s
  else .next (pslTry p tries (fun s =>
    let s1 := modPwr p (fun x => { x with status := status.toNat }) s
    if bit status.toNat 4 then ocShutdown p s1 else s1) s)

/-- STAGE_VOUT_IOUT_POLL (R344): of an attached port, in mV and mA. -/
def execStageVoutIoutPoll (p : Port) (vout iout tries : Nat) (s : State) : Res :=
  let s := fresh s
  if !pslReads s p || (tcOf s p).st != .attached then .next s
  else .next (pslTry p tries (modPwr p (fun x => { x with readV := some vout, readI := some iout })) s)

/-- STAGE_TEMP_POLL (R344): in 0.1 °C. -/
def execStageTempPoll (p : Port) (temp : Int) (tries : Nat) (s : State) : Res :=
  let s := fresh s
  if !pslReads s p then .next s
  else .next (pslTry p tries (modPwr p (fun x => { x with temp := some temp })) s)

/-- PSI2C_BUS_STUCK (R408). -/
def execPsi2cBusStuck (s : State) : Res := .next (fault .psl 10 (blockId .psl) (fresh s))

/-! ### Hard Reset on a source (R347) -/

/-- HARD_RESET_VBUS_OFF (R347): tPSHardReset after the Hard Reset, PSC low and VCONN off. -/
def execHardResetVbusOff (p : Port) (s : State) : Res :=
  let s := fresh s
  match (pwrOf s p).hr with
  | some (1, t) =>
    let s1 := dataOff p (pscLow p (advanceTo (t + 30000000) s))
    .next (modPwr p (fun x => { x with hr := some (2, s1.now) }) s1)
  | _ => .next s

/-- HARD_RESET_RECOVER (R347): tSrcRecover after vSafe0V, PSC high at 5.0 V. -/
def execHardResetRecover (p : Port) (s : State) : Res :=
  let s := fresh s
  match (pwrOf s p).hr with
  | some (3, t) =>
    let s1 := pscHigh p (modTc p (fun t => { t with vbus5At := none }) (advanceTo (t + 750000000) s))
    .next (modPwr p (fun x => { x with hr := some (4, s1.now) }) s1)
  | _ => .next s

end Sys2Proof.Machine
end

