-- ==== Sys2Proof/Machine/PowerCmds.lean ====
section
/-! DEFINITION. The power commands of group 0x06 (R329, R330, R351, R459, R460). -/

set_option Elab.async false

namespace Sys2Proof.Machine

/-! ### POWER_BUDGET_SET -/

/-- The spec of POWER_BUDGET_SET (R459). -/
def specPowerBudgetSet : CmdSpec := { opcode := 0x0601, cls := .run, onI2ct := true, lenOk := len 4, resvOk := fun p => fld p 2 1 < 2 && zeroAt 3 1 p }

/-- POWER_BUDGET_SET (R330): the run follows the acceptance; an earlier one that has not completed is superseded. -/
def cmdPowerBudgetSet (bad : Option Nat) (r : Req) (s : State) : State × Reply :=
  let b := fld r.payload 0 2
  if !noTarget r || decide (b > 30000) then (s, errR stBadTarget)
  else
    let w := if bit (fld r.payload 2 1) 0 then persist [(0x200, BitVec.ofNat 32 b)] bad s else (s, stOk)
    if w.2 ≠ stOk then (w.1, errR w.2)
    else
      let s1 := finalCpl .budget stSuperseded [] w.1
      (runAlloc { s1 with lane := { s1.lane with budget := b * 100 } }, accR .budget)

/-- POWER_BUDGET_SET (R330, R459). -/
def execPowerBudgetSet (r : Req) (s : State) : Res :=
  .next (budgetDone (runCmd specPowerBudgetSet (cmdPowerBudgetSet r.badWord) r s))

/-! ### PORT_POWER_POLICY -/

/-- The power-off form (R124, R459). -/
def powerOffForm (p : List Byte) : Bool := fld p 0 2 == 2 && fld p 4 1 == 0

/-- The spec of PORT_POWER_POLICY (R459). -/
def specPortPowerPolicy (r : Req) : CmdSpec :=
  { opcode := 0x0602, cls := if powerOffForm r.payload then .any else .run
    onCmd0 := fun r => powerOffForm r.payload, onI2ct := true, safeOk := fun r => powerOffForm r.payload
    lenOk := len 16, resvOk := fun p => decide (fld p 0 2 < 512) && fld p 2 1 < 2 && zeroAt 13 3 p }

/-- The fields of a policy in range (R329). -/
def policyOk (p : Port) (fields : Nat) (d : List Byte) : Bool :=
  let us := (portUs p).isSome
  let f (i : Nat) : Bool := !bit fields i
  (f 0 || decide (fld d 3 1 ≤ 1)) && (f 1 || decide (fld d 4 1 ≤ 1)) && (f 2 || decide (fld d 5 1 ≤ 7)) &&
  (f 3 || decide (fld d 6 2 ≤ (if us then 1400 else 2400))) && (f 4 || decide (fld d 8 1 ≤ 7)) &&
  (f 5 || decide (5 ≤ fld d 9 1 ∧ fld d 9 1 ≤ 30)) && (f 6 || (us && decide (fld d 10 1 ≤ 2))) &&
  (f 7 || (us && decide (fld d 11 1 ≤ 3))) && (f 8 || (us && decide (fld d 12 1 ≤ 1)))

/-- A policy with the selected fields applied. -/
def policyWith (fields : Nat) (d : List Byte) (x : PwrPol) : PwrPol :=
  let f (i : Nat) : Bool := bit fields i
  { populated := if f 0 then fld d 3 1 == 1 else x.populated
    on := if f 1 then fld d 4 1 == 1 else x.on
    prio := if f 2 then fld d 5 1 else x.prio
    cap := if f 3 then fld d 6 2 else x.cap
    offer := if f 4 then fld d 8 1 else x.offer
    slew := if f 5 then fld d 9 1 else x.slew
    pref := if f 6 then fld d 10 1 else x.pref
    roles := if f 7 then fld d 11 1 else x.roles
    frs := if f 8 then fld d 12 1 == 1 else x.frs }

/-- The bytes of a port's power record, without its header (R477). -/
def policyBytes (x : PwrPol) : List Byte :=
  le 1 (b2n x.populated) ++ le 1 (b2n x.on) ++ le 1 x.prio ++ le 2 x.cap ++ le 1 x.offer ++ le 1 x.slew ++ le 1 x.pref ++ le 1 x.roles ++
    le 1 (b2n x.frs)

/-- A port marked unpopulated (R60): its power goes, and what is attached to it is no longer seen. -/
def unpopulate (p : Port) (s : State) : State :=
  match (tcOf s p).st with
  | .unattached => portOff p s
  | .attached => if isSource s p then portOff p s else modPwr p (fun x => { x with lost := true }) (detachPort p s)
  | _ => toUnattached p (portOff p s)

/-- A policy put in force: what it takes away goes at once, what it gives back attaches afresh (R329, R521). -/
def policyApply (p : Port) (fields : Nat) (new : PwrPol) (s : State) : State :=
  let old := (pwrOf s p).pol
  let s1 := modPwr p (fun x => { x with pol := new }) s
  let s2 := if old.slew = new.slew then s1 else emit (.stage p 0x27 new.slew) s1
  let s3 := if !new.populated && old.populated then unpopulate p s2
    else if !new.on then (if old.on then portOff p s2 else s2)
    else if bit fields 1 || (new.populated && !old.populated) then repower p s2
    else s2
  let s4 := if (pwrOf s3 p).frsArm && !(new.frs && bit new.roles 1) then
      modPwr p (fun x => { x with frsArm := false, grant := 0, need := 0 }) (emit (.frontEnd p 5 false) (pscLow p s3)) else s3
  runAlloc (if new.populated && !old.populated && (pwrOf s4 p).psf && psfSeen s4 p then psfActs p s4 else s4)

/-- PORT_POWER_POLICY (R124, R329, R459). -/
def cmdPortPowerPolicy (bad : Option Nat) (r : Req) (s : State) : State × Reply :=
  match targetPort r with
  | none => (s, errR stBadTarget)
  | some p =>
    let fields := fld r.payload 0 2
    if !policyOk p fields r.payload then (s, errR stBadTarget)
    else
      match (if powerOffForm r.payload then openGate r s p else portGate r s p) with
      | some st => (s, errR st)
      | none =>
        let new := policyWith fields r.payload (pwrOf s p).pol
        let w := if bit (fld r.payload 2 1) 0 then persist (recWrites s (0x210 + 4 * p.val) (policyBytes new)) bad s else (s, stOk)
        if w.2 ≠ stOk then (w.1, errR w.2) else (policyApply p fields new w.1, okR [])

/-- PORT_POWER_POLICY (R329, R459). -/
def execPortPowerPolicy (r : Req) (s : State) : Res := .next (runCmd (specPortPowerPolicy r) (cmdPortPowerPolicy r.badWord) r s)

/-! ### CONTRACT_STATUS -/

/-- The spec of CONTRACT_STATUS (R459). -/
def specContractStatus : CmdSpec := { opcode := 0x0603, cls := .run, onI2ct := true, lenOk := len 0 }

/-- A reading, or the value that no reading takes (R460). -/
def readingWord (s : State) (p : Port) (x : Option Nat) : Nat :=
  if !populated s p || pslFenced s p then 0xFFFFFFFF else x.getD 0xFFFFFFFF

/-- A temperature in two's complement, or 0x8000. -/
def tempWord (s : State) (p : Port) : Nat :=
  if !populated s p || pslFenced s p then 0x8000
  else match (pwrOf s p).temp with
    | some t => (t % 65536).toNat
    | none => 0x8000

/-- The CONTRACT_STATUS result (R460). With nothing attached no cable is judged, and its fields are 0 (DEDUCED, log entry 72). -/
def contractBytes (s : State) (p : Port) : List Byte :=
  let x := pwrOf s p
  let c : Cable := if (tcOf s p).st == .attached then (tcOf s p).cable else { cur := 0, volt := 0 }
  le 1 (rolesByte s p) ++ le 1 x.con.kind ++ le 1 (phyOf s p).rev ++
  le 1 (b2n (decide (x.grant < x.need)) + 2 * b2n x.shed + 4 * b2n x.heldOff + 8 * b2n x.frsArm) ++
  le 4 x.con.volt ++ le 4 x.con.cur ++
  le 2 (chargeMw s p / 100) ++ le 2 (x.grant / 100) ++ le 2 (x.need / 100) ++ le 2 (unalloc s / 100) ++
  le 4 (readingWord s p x.readV) ++ le 4 (readingWord s p x.readI) ++ le 2 (tempWord s p) ++ le 2 c.cur ++ le 1 c.volt ++
  le 1 (c.kind + 4 * b2n c.epr + 16 * c.speed) ++ [0, 0]

/-- CONTRACT_STATUS (R460). -/
def cmdContractStatus (r : Req) (s : State) : State × Reply :=
  match targetPort r with
  | none => (s, errR stBadTarget)
  | some p =>
    match openGate r s p with
    | some st => (s, errR st)
    | none => (s, okR (contractBytes s p))

/-- CONTRACT_STATUS (R459, R460). -/
def execContractStatus (r : Req) (s : State) : Res := .next (runCmd specContractStatus cmdContractStatus r s)

/-! ### ROLE_SWAP -/

/-- The spec of ROLE_SWAP (R459). -/
def specRoleSwap : CmdSpec := { opcode := 0x0604, cls := .run, lenOk := len 4, resvOk := fun p => zeroAt 1 3 p }

/-- The answer of a swap that cannot be asked for, completed at once. -/
def swapRefused (s : State) (p : Port) : Bool :=
  (tcOf s p).st != .attached || !explicit s p || (pwrOf s p).newCon.isSome || (pwrOf s p).frs.isSome

/-- ROLE_SWAP (R351, R353, R459). -/
def cmdRoleSwap (r : Req) (s : State) : State × Reply :=
  match targetUs r with
  | none => (s, errR stBadTarget)
  | some u =>
    let p := usPort u
    let k := fld r.payload 0 1
    if k > 2 then (s, errR stBadTarget)
    else if (usGate r u).isSome then (s, errR stOwned)
    else if portFenced s p || thymeDown s p then (s, errR stFenced)
    else if (pwrOf s p).swap.isSome || accBusy (.roleSwap u) s then (s, errR stBusy)
    else if swapRefused s p then (s, accR (.roleSwap u))
    else (sendSwap p k (modPwr p (fun x => { x with swap := some { kind := k, ours := true, at_ := s.now } }) s), accR (.roleSwap u))

/-- A ROLE_SWAP that could not be asked for fails. -/
def roleSwapDone (u : US) (s : State) : State :=
  if (pwrOf s (usPort u)).swap.isNone && accBusy (.roleSwap u) s then swapFinal u 4 s else s

/-- ROLE_SWAP (R351, R459). -/
def execRoleSwap (r : Req) (s : State) : Res := .next (roleSwapDone .us1 (roleSwapDone .us0 (runCmd specRoleSwap cmdRoleSwap r s)))

end Sys2Proof.Machine
end

