-- ==== Sys2Proof/Machine/BootOps.lean ====
section
/-! DEFINITION. The operations of reset and BOOT: what each path keeps, the boot timeline up to its step 8, and the settings applied there
(R58, R71–R83, R97, R120, R252, R420, R439). -/

set_option Elab.async false

namespace Sys2Proof.Machine

/-! ### Cold boot (R71, R73, R400) -/

/-- The availability total of the last checkpoint (R36, R477). -/
def checkpointAvail (s : State) : Avail :=
  let w (i : Nat) : Nat := (valueWord s (0xF10 + i)).getD 0
  { ns := w 0 + 2 ^ 32 * w 1, events := w 2, ckpts := w 3 }

/-- Everything in its cold-boot state but what lies outside the block or is never erased: the Almanac, the flash, and the levels at PSF and
the LIO_GPIO inputs (R73). -/
def coldState (s : State) : State :=
  { State.reset with
    pending := s.pending
    out := s.out
    freeSeq := s.freeSeq
    alm := s.alm
    fw := { State.reset.fw with flash := s.fw.flash }
    pwr := Vector.ofFn (fun k => { (State.reset.pwr[k]) with psf := (s.pwr[k]).psf })
    lio := { State.reset.lio with inp := s.lio.inp }
    avail := checkpointAvail s }

/-- POR_N acted on: the cold-boot BOOT state with PWR_REQ low, until POR_N rises (R58, R71). -/
def porActs (s : State) : State :=
  let s1 := coldState s
  { s1 with sup := { s1.sup with porLow := true, pwrReq := 0, memOn := false, mainOn := false, corePg := false } }

/-- The counts of cold boots that the epoch ring holds, by its words; a blank word holds none (R400, R477). -/
def epochCount (s : State) (i : Nat) : Nat := (valueWord s (0xF00 + i)).getD 0

/-- The highest count held and its place in the ring. -/
def epochTop (s : State) : Nat × Nat :=
  (List.range 16).foldl (fun a i => if epochCount s i > a.1 then (epochCount s i, i) else a) (0, 15)

/-- A new epoch (R400, R474): the highest count plus 1 goes into the ring's next word that is not exhausted. -/
def newEpoch (s : State) : State :=
  let t := epochTop s
  let ws := ((List.range 16).map (fun j => 0xF00 + (t.2 + 1 + j) % 16)).filter (fun w => decide (almWear s w < 1000000))
  match ws with
  | [] => { s with clk := { s.clk with epoch := t.1 % 65536 } }
  | w :: _ =>
    { s with alm := almWrite1 s.alm w (BitVec.ofNat 32 (t.1 + 1)), clk := { s.clk with epoch := (t.1 + 1) % 65536 } }

/-! ### Engines held (R54, R58, R72) -/

/-- A downstream port's data lines while the engines are held: USB 2.0 idle, so that the device suspends, and a trained link in U3 (R54). -/
def lineHeld (x : DsData) : DsData :=
  let y := { x with
    resetAt := none, chirpAt := none, resumeAt := none, wakePend2 := false, wakeOpen := none, l1 := false, l1Exit := none, test2 := 0
    u3Exit := none, u3Entry := false, ssReset := none, wakePend3 := false, probing := false, suspHub2 := x.enable }
  match x.link with
  | .u0 | .u1 | .u2 | .recovery => { y with link := .u3, suspHub3 := true }
  | .polling | .compliance | .loopback => { y with link := .rxDetect, gen := 0 }
  | _ => y

/-- The upstream ports disconnected (R54): the instant at which forwarding stopped is kept for R248. -/
def upDown (s : State) : State :=
  let s1 := hubDisconnect .us1 (hubDisconnect .us0 s)
  modVigHub .us1 (fun h => { h with absentFrom := s.now }) (modVigHub .us0 (fun h => { h with absentFrom := s.now }) s1)

/-- Every link stops (R54, R70): the hubs disconnect, and the downstream data lines are held. -/
def linksStop (s : State) : State :=
  let s1 := upDown s
  { s1 with dsd := s1.dsd.map lineHeld }

/-- All engines held in reset: no packet moves, kick events are not sent, and tests end without a final completion. -/
def holdEngines (s : State) : State :=
  let s1 := dropTests (abandonRebuild (linksStop s))
  { s1 with sup := { s1.sup with enginesHeld := true }
            lio := { s1.lio with kick := s1.lio.kick.map (fun k => { k with silent := k.silent || k.pulse.isSome || k.report.isSome }) } }

/-! ### What a warm path keeps (R73, R97, R420) -/

/-- A UC or FT record is acknowledged with the re-admission of its units, under AUTO (R410): not a consequential one, one that left nothing
fenced, that of the FT that caused SAFE, or one whose units stay fenced. -/
def readmitAcks (r : FltRec) : Bool :=
  r.pending && (r.cls == some .uc || r.cls == some .ft) && !r.conseq && !r.leavesNone && !r.safeCause &&
    !r.fenced.any (fun f => f.byFault || f.held)

/-- A fault record carried over a restart: every unit fenced by a fault alone is re-admitted, and the record never escalates (R420). -/
def bootRec (auto : Bool) (r : FltRec) : FltRec :=
  let x := readmitRec r
  let y := if auto && readmitAcks x then ackRec x else x
  { y with kept := y.pending, reactEnd := 0, reactCls := none }

/-- Fault state over a restart. A port whose fence took its VBUS passes through ErrorRecovery (R413). -/
def bootFaults (s : State) : State :=
  let s1 := { s with flt := { s.flt with
    recs := (Vector.ofFn (fun i => recAt s.now (s.flt.recs[i]))).map (bootRec (!ackHost s))
    shadows := s.flt.shadows.filter (·.every), safePend := none, safeCause := none
    levels := s.flt.levels.filter (fun l => l.block != .pmu && l.block != .cru) } }
  (allPorts.filter (fun p => portFenced s p && !portFenced s1 p && cutBy s p)).foldl (fun s p => readmitPort p true s) s1

/-- The virtual hubs before they connect again (R102, R104). -/
def bootHub (h : Hub) : Hub := { conf := h.conf, slots := h.slots.map (fun x => { power := x.power }) }

/-- What BOOT builds afresh whatever the path: queues, links, tables, tests and hubs (R97, R161). -/
def bootFresh (s : State) : State :=
  { s with
    hubs := s.hubs.map bootHub
    own := { s.own with move := Vector.replicate 16 none }
    epqs := []
    links := Vector.replicate 18 {}
    sched := { disc := s.sched.disc, discPort := s.sched.discPort, tickAt := s.sched.tickAt }
    place := {}
    u2d := Vector.replicate 16 {}
    u2u := s.u2u.map (fun x => { uframe := x.uframe })
    fo := { s.fo with hub := Vector.replicate 2 {} }
    lane := { s.lane with raise := false }
    test := { jtag := s.test.jtag }
    fw := { s.fw with trialRun := 0, trialFrom := none, stageSlot := none, staged := 0, thyMask := 0, recDone := false, recFail := false
                      recStep := 0, recOffset := 0, recLength := 0, recImage := [], recTaken := 0 }
    tc := s.tc.map (fun t => if t.st == .unattached then { t with pattern := .opn } else t) }

/-- The ports after a sleep: every device, attachment and contract is gone; counters and the guard stay (R56, R73). -/
def sleepPorts (s : State) : State :=
  { s with
    dsd := s.dsd.map (fun x => { babble := x.babble, chirpTimeouts := x.chirpTimeouts, coincident := x.coincident })
    usd := Vector.replicate 2 {}
    tc := s.tc.map (fun t => { vbusWaits := t.vbusWaits })
    phy := s.phy.map (fun x => { rxRefused := x.rxRefused })
    pwr := s.pwr.map (fun x => { pol := x.pol, psf := x.psf, ocCount := x.ocCount, lost := x.lost })
    dp := s.dp.map (fun x => { port := x.port, pref := x.pref, eq := x.eq }) }

/-! ### The boot timeline (R74, R82, R83) -/

/-- REASON of RESTARTED (R470). -/
def reasonCode (p : BootPath) : Nat := match p with
  | .cold => 0
  | .sysReset => 1
  | .safe => 2
  | .standby => 3
  | .hibernate => 4
  | .fwActivate => 5

/-- Every ring reset at the start of step 8, headed by RESTARTED; geometry, RUN and assignment stay (R439). -/
def ringsRestart (s : State) : State :=
  let e := mkEvent s 0xFF01 (le 1 (reasonCode s.sup.path) ++ [0, 0, 0] ++ le 8 s.now)
  let m := s.mbx
  let m1 : Mbx := { m with
    rings := m.rings.map (fun g => { g with head := 0, tail := 0 })
    waiting := Vector.replicate 8 [e], store := Vector.replicate 8 [], cpl0 := [], cmd0Via := []
    cpl0Idx := Vector.replicate 4 0, acc := [], i2cEvLost := false, i2cCpl0Lost := false
    lmf := m.lmf.map (fun _ => { restarted := true }) }
  let m2 := ([0, 1, 2, 3, 4, 5, 6, 7] : List (Fin 8)).foldl (fun m k => flushCpl s.now k m) m1
  { s with mbx := setIrq m2 10 }

/-- DRAM at step 6 (R83, R85, R97): trained, or out of self-refresh with each kept context judged. -/
def dramStarts (b : BootIn) (s : State) : State :=
  match s.sup.path with
  | .cold | .hibernate =>
    let s1 := { s with sup := { s.sup with selfRefresh := false, retained := false, trainOk := b.train != .fail
                                           dramRate := if b.train == .full then 6400 else 5500 } }
    (match b.train with
     | .full => s1
     | .fallback => fault .dmc 8 (blockId .dmc) s1
     | .fail => fault .dmc 14 (blockId .dmc) s1)
  | _ =>
    let s1 := { s with sup := { s.sup with selfRefresh := false } }
    if !s.sup.retained then s1
    else
      let live (l : List Nat) : List Nat := l.filter (fun c => (ctxOf s c).isSome)
      let s2 := (live b.eccBad).foldl (fun s c => fault .dmc 11 c s) s1
      ((live b.crcBad).filter (fun c => !b.eccBad.contains c)).foldl (fun s c => fault .vigil 8 c s) s2

/-- From the image's start to the start of step 8: rings reset, DRAM up, the level read, commands served (R82, R379, R446). -/
def bootRest (b : BootIn) (s : State) : State :=
  let lvl := match valueWord s 0x201 with
    | some n => if n ≤ 2 then n else 1
    | none => 1
  let s1 := { s with sup := { s.sup with ready := true }, pmu := { s.pmu with level := lvl } }
  dramStarts b (ringsRestart s1)

/-- Straps sampled, and an image chosen, loaded and verified; else recovery over SPIT (R74, R78, R79, R81). -/
def bootImage (b : BootIn) (s : State) : State :=
  let x := if b.straps = 2 then (s.fw, false) else selectSlot s
  let s1 := { s with fw := x.1 }
  if x.2 then bootRest b s1 else { s1 with sup := { s1.sup with recovery := true } }

/-- A BOOT begins (R82, R83): rails up, straps sampled, PLLs locked; the mode is BOOT and every ACCEPTED command has ended (R448). -/
def bootBegins (path : BootPath) (b : BootIn) (s : State) : State :=
  { s with
    mbx := { s.mbx with acc := [] }
    sup := { s.sup with
      porLow := false, sysLow := false, pwrReq := 2, memOn := true, mainOn := true, corePg := true, straps := b.straps, asel := b.asel
      path := path, ready := false, recovery := false, enginesHeld := true, ballsFloat := false, restartAt := none, latch := none
      ccSeen := [], wakeEdges := 0, wakeWindow := 0 }
    pmu := { oppLocked := s.pmu.oppLocked, level := s.pmu.level, reqSeq := s.pmu.reqSeq }
    clk := { s.clk with corePllLock := true, tbPllLock := true, ssPllLock := true }
    wake := { s.wake with strapError := b.straps == 3 } }

/-- A cold boot (R82, R400): the wake record of UNKNOWN quality, lane time from 0 in a new epoch. -/
def bootCold (b : BootIn) (s : State) : State :=
  let s1 := newEpoch (coldState s)
  bootImage b (bootBegins .cold b { s1 with clk := { s1.clk with tbOn := true }, wake := { quality := 3 } })

/-- A warm restart (R73, R83): the PMU commands 0.75 V and waits for CORE_PG first. The upstream test mode ends with SYS_RESET_N alone (R491). -/
def bootWarm (path : BootPath) (b : BootIn) (s : State) : State :=
  let s1 := bootBegins path b (bootFaults (bootFresh (if s.reg.absent then s else writeVout 2 s)))
  let s2 := if path == .sysReset then { s1 with usd := s1.usd.map (fun x => { x with test2 := 0 }) } else s1
  bootImage b s2

/-- The lane time of the AON_32K edge at which a wake from sleep was latched (R394). -/
def edgeTime (n : Nat) (s : State) : Nat := s.clk.le - s.clk.phi + round5 (n * rtcE6)

/-- A wake from HIBERNATE or STANDBY (R83, R393, R399): lane time restored, the record written with the quality of the epoch after the
sleep, and the boot timeline begun. -/
def bootWake (l : WakeLatch) (b : BootIn) (s : State) : State :=
  let left := s.pmu.reported
  let s1 := restoreLaneTime b s
  let s2 := writeWake l.cls l.port l.detail left l.replayed l.also 0 s1
  let s3 := { s2 with wake := { s2.wake with time := l.at_, quality := s2.clk.quality } }
  let path := if left == .hibernate then BootPath.hibernate else .standby
  let s4 := sleepPorts (bootFaults (bootFresh s3))
  bootImage b (bootBegins path b s4)

/-! ### Settings applied at step 8 (R82, R477) -/

/-- A port's power policy as the Almanac holds it: each field out of its range takes its blank value (R329, R475, R477). -/
def almPolicy (s : State) (p : Port) : PwrPol :=
  match recRead s (0x210 + 4 * p.val) 3 with
  | none => defaultPol p
  | some l =>
    let d : List Byte := [0, 0, 0] ++ l
    let ok := ((List.range 9).map (fun i => b2n (policyOk p (2 ^ i) d) * 2 ^ i)).foldl (· + ·) 0
    policyWith ok d (defaultPol p)

/-- A value in a range, or its blank value. -/
def inRange (lo hi blank v : Nat) : Nat := if lo ≤ v ∧ v ≤ hi then v else blank

/-- The Vigil policy of a port (R238, R477). -/
def almVigil (s : State) (d : DS) : PortPol :=
  match recRead s (0xB10 + 4 * d.val) 2 with
  | none => {}
  | some l =>
    { mode := inRange 0 2 0 (fld l 0 1), autoArm := inRange 0 1 1 (fld l 1 1) == 1, replay := inRange 0 1 1 (fld l 2 1) == 1
      replayAge := inRange 1 3600 120 (fld l 3 2), bulkPoll := inRange 1 255 4 (fld l 5 1), capSize := inRange 0 1024 64 (fld l 6 2) }

/-- The path is a warm restart (R73). -/
def warmPath (s : State) : Bool := s.sup.path == .sysReset || s.sup.path == .safe || s.sup.path == .fwActivate

/-- The device part of the Vigil policy, every port's policy and its arming (R238, R239). A region size or a ring size that was set without
PERSIST takes effect at the warm restart that follows it (R91, R252). -/
def applyVigil (s : State) : State :=
  let warm := warmPath s
  let x := match recRead s 0xB00 2 with
    | none => (50, 600, 4)
    | some l => (inRange 10 1000 50 (fld l 0 2), inRange 1 86400 600 (fld l 2 4), inRange 1 16 4 (fld l 6 2))
  let pols := Vector.ofFn (fun d =>
    let new := almVigil s d
    if warm && (polOf s d).capSet then { new with capSize := (polOf s d).capSize } else new)
  let region := if warm && s.vig.regionSet then s.vig.capRegion else x.2.2
  modVig (fun v => { v with tAbsent := x.1, hold := x.2.1, capRegion := region, regionInForce := region, regionSet := false, pol := pols
                            armed := pols.map (·.autoArm) }) s

/-- The usable address of the capture region (R91). -/
def captureStart : Nat := (88 * 1048576 + 47) / 48 * 48

/-- The highest intact SEQ that a ring holds (R252, R253). -/
def topSeq (r : CapRing) : Nat := ((r.recs.filter (fun x => !x.damaged && x.typ != 0)).map (·.seq)).foldl max 0

/-- One ring laid out at a place (R252): kept where base and size stay, else empty with its SEQ continued. -/
def layRing (kept : Bool) (base size alloc : Nat) (r : CapRing) : CapRing :=
  let seq := if kept then topSeq r + 1 else 1
  if alloc ≠ 0 then { alloc := alloc, nextSeq := seq, readSeq := seq, gap := true }
  else if kept && r.alloc == 0 && r.base == base && r.size == size then { r with nextSeq := seq }
  else { base := base, size := size, alloc := 0, nextSeq := seq, readSeq := seq, gap := decide (seq ≠ 1) }

/-- The capture rings of some ports laid out one after another from an address (R252): a sealed port and size 0 have none, and a ring
that does not fit below the top gets none. -/
def layFrom (kept : Bool) (top : Nat) : List DS → Nat → State → State
  | [], _, s => s
  | d :: t, base, s =>
    let size := (polOf s d).capSize * 65536
    if size = 0 ∨ isSealed s d = true then layFrom kept top t base (modRing d (layRing kept 0 0 1) s)
    else if base + size > top then layFrom kept top t base (modRing d (layRing kept 0 0 2) s)
    else layFrom kept top t (base + size) (modRing d (layRing kept base size 0) s)

/-- The capture rings laid out in port-code order (R252). -/
def layRings (kept : Bool) (s : State) : State :=
  layFrom kept (captureStart + s.vig.regionInForce * 67108864) allDs captureStart s

/-- Slot lists from the Almanac; owners and home hubs as before a warm restart that kept the Vigil region, else the Almanac's (R109, R120). -/
def applyOwners (s : State) : State :=
  let list (u : US) : List Slot := match recRead s (0x100 + 8 * u.idx.val) 4 with
    | some l => (parseSlots (fld l 0 1) (slice l 1 15)).getD (defaultSlots u)
    | none => defaultSlots u
  let s1 := setSlots .us1 (list .us1) (setSlots .us0 (list .us0) s)
  let s2 := if warmPath s && s.sup.retained then s1
    else
      let bs := almOwnerBytes s1
      allDs.foldl (fun s d => setHome d none (setOwner d (((codeOwner (bs.getD d.val 0).toNat)).getD none) s)) s1
  modFo .us1 (fun f => { f with rcd := loadFo s2 .us1 }) (modFo .us0 (fun f => { f with rcd := loadFo s2 .us0 }) s2)

/-- The display route word of an input (R477). -/
def almRoute (s : State) (i : Fin 2) : Option DS × Nat × Int :=
  match valueWord s (0x420 + i.val) with
  | none => (none, 0, 0)
  | some w =>
    let d := (codeDs (bits w 7 0)).bind (fun d => if d.val < 8 then some d else none)
    let e : Int := if bits w 14 12 < 4 then bits w 14 12 else (bits w 14 12 : Int) - 8
    (d, inRange 0 2 0 (bits w 9 8), e)

/-- A display route restored (R366): one that stays keeps its state, any other is left first. -/
def applyRoute (i : Fin 2) (s : State) : State :=
  let r := almRoute s i
  if s.dp[i].port = r.1 then modDp i (fun x => { x with pref := r.2.1, eq := r.2.2 }) s
  else
    modDp i (fun x => { port := r.1, pref := r.2.1, eq := r.2.2, lowAt := x.lowAt, irqLast := x.irqLast, hpd := x.hpd })
      (dpLeaveOne i 0 s)

/-- Budget and port power policies (R329, R330), each stage's OPERATION and slew rate written (R344). -/
def applyPower (s : State) : State :=
  let b := match valueWord s 0x200 with
    | some n => if bits n 15 0 ≤ 30000 then bits n 15 0 else 6000
    | none => 6000
  let s1 := { s with lane := { s.lane with budget := b * 100 } }
  allPorts.foldl (fun s p =>
    let new := almPolicy s p
    let old := (pwrOf s p).pol
    let s1 := if new.populated then emit (.stage p 0x27 new.slew) (emit (.stage p 0x01 0x80) s) else s
    policyApply p (if old.on = new.on then 0 else 2) { new with slew := old.slew } s1 |> modPwr p (fun x => { x with pol := new })) s1

/-- Scheduler settings (R93, R196, R477), and the lane I/O registers but for SENSE and WAKE (R374, R375). -/
def applyIo (s : State) : State :=
  let w := valueWord s 0x600
  let pct := match w with | some n => inRange 25 95 75 (bits n 7 0) | none => 75
  let per := match w with | some n => inRange 1 4096 8 (bits n 28 16) | none => 8
  { s with sched := { s.sched with spillPct := pct, samplePeriod := per, sampleNew := per, ovh := [], ovhNew := [] }
           lio := { s.lio with dir := 0, out := 0, pd := 0xFFFF, edgeEn := 0, edge := 0, pend := 0, pendAt := [], pol := 0 } }

/-- VOUT_TRANSITION_RATE 2.0 mV/µs in LINEAR11, and a current limit in 0.1 A (R65; the format is PMBus's, PRESUMED, log entry 40). -/
def rateLinear11 : Nat := 2

/-- A current in 0.1 A in LINEAR11 with exponent −1, rounded down to half amperes, or with exponent 0 above its range. -/
def ocLinear11 (n : Nat) : Nat := if n / 5 < 1024 then 31 * 2048 + n / 5 else n / 10 % 1024

/-- The exponent that VOUT_MODE reports in LINEAR16: bits [4:0], in two's complement and at most 0, without its sign (R65; the layout is
PMBus's, PRESUMED, log entry 40). -/
def modeExponent (m : Byte) : Nat := if m.toNat % 32 = 0 then 0 else 32 - m.toNat % 32

/-- The core regulator configured (R65, R67): without its acknowledgement REG_ABSENT is latched and every mode runs at OPP-N. OPERATION and
VOUT_MODE are read, and the limits and the rate written in what they report. -/
def applyRegulator (x : Option RegBoot) (s0 : State) : State :=
  match x with
  | some x =>
    let s := { s0 with reg := { s0.reg with operation := x.operation, exponent := modeExponent x.voutMode } }
    let oc := match valueWord s 0x504 with
      | some n => if n ≤ 1000 then some n else none
      | none => none
    let s1 := pmbWrite 0x44 (le 2 (linear16 s 600)) (pmbWrite 0x40 (le 2 (linear16 s 950)) (pmbWrite 0x27 (le 2 rateLinear11) s))
    let s2 := match oc with
      | some n => pmbWrite 0x46 (le 2 (ocLinear11 n)) s1
      | none => s1
    { s2 with reg := { s2.reg with absent := false, voutMv := 750, rate := 2000, ovMv := 950, uvMv := 600, ocTenths := oc }
              pmu := { s2.pmu with oppLocked := false } }
  | none => fault .pmu 11 (blockId .pmu) { s0 with reg := { s0.reg with absent := true }, pmu := { s0.pmu with oppLocked := true } }

/-- A hub's hold deadline has passed. -/
def pastHold (s : State) (u : US) : Bool := match (vigHub s u).deadline with
  | some t => decide (t ≤ s.now)
  | none => false

/-- Contexts released after a STANDBY, whose devices lost VBUS at its entry (R266, R388); the owners are those before the BOOT. -/
def standbyContexts (s0 s : State) : State :=
  let s1 := s.vig.ctx.foldl (fun (t : State) (c : Nat × Ctx) =>
    let past : Bool := match ownerOf s0 c.2.port with
      | some u => pastHold t u && (c.2.st == .held || c.2.st == .absorbing)
      | none => false
    releaseCtx c.1 (if past then 8 else 10) t) s
  modVigHub .us1 (fun h => { h with deadline := none }) (modVigHub .us0 (fun h => { h with deadline := none }) s1)

/-- The queues and the translation entry of a kept context rebuilt (R219, R224). -/
def reopenCtx (c : Nat) (s : State) : State :=
  match ctxOf s c with
  | some x => match x.daddr with
    | some a =>
      let ss := decide (x.speed ≥ 3)
      let s1 := openAll x.port x.hubPort a c ss (ep0 ss :: (x.eps.filter (·.opn)).map (·.d)) s
      (match (if x.translated then trWanted s1 x else none) with
       | some t => modPlace (fun p => { p with tr := tabPut p.tr c t }) s1
       | none => s1)
    | none => s
  | none => s

/-- A hub after a warm restart (R248): a BUILDING context is released NOT_READY; with any other kept context the hub starts in VIGIL, each
of them HELD, the episode starting where forwarding stopped and a hold deadline set before kept. -/
def warmHub (u : US) (s : State) : State :=
  let mine (t : State) : List (Nat × Ctx) := t.vig.ctx.filter (fun c => ownerOf t c.2.port == some u)
  let s1 := ((mine s).filter (fun c => c.2.st == .building)).foldl (fun t c => releaseCtx c.1 4 t) s
  if (mine s1).isEmpty then s1
  else
    let start := (vigHub s1 u).absentFrom
    let s2 := modVigHub u (fun h => { h with episode := start, returned := false
                                             deadline := some (h.deadline.getD (s1.now + s1.vig.hold * 1000000000)) }) s1
    let s3 := (allDs.filter (fun d => ownerOf s2 d == some u && !(portCtxs s2 d).isEmpty)).foldl
      (fun t d => beginEpisode false d start (holdPort d t)) s2
    hubTo u .vigil s3

/-- Contexts after a warm restart (R97, R248): the proxy host takes the kept ones, hub by hub. -/
def warmContexts (s : State) : State :=
  let s2 := warmHub .us1 (warmHub .us0 s)
  s2.vig.ctx.foldl (fun t c => reopenCtx c.1 t) s2

/-- The Vigil contexts at the end of BOOT, by the path; the first state is that before the settings were applied. -/
def bootContexts (s0 s : State) : State :=
  match s.sup.path with
  | .cold | .hibernate => modVig (fun v => { v with ctx := [], seen := [], hub := Vector.replicate 2 {} }) s
  | .standby => standbyContexts s0 s
  | .sysReset | .safe | .fwActivate =>
    if s.sup.retained then warmContexts s else s.vig.ctx.foldl (fun t c => releaseCtx c.1 7 t) s

/-- The request that waited for the end of BOOT is acted on (R383). -/
def bootRequest (s : State) : State :=
  match s.pmu.pend with
  | none => s
  | some t =>
    let s1 := setTarget t.target s
    { s1 with pmu := { s1.pmu with pend := some { t with target := runMode s1, opp := modeOpp s1.pmu.oppLocked (runMode s1) } } }

/-- The block whose FT caused the SAFE that this BOOT ends (R412, R470). -/
def safeBlock (s : State) : Option Block := allBlocks.find? (fun b => (fltRec s b).safeCause)

end Sys2Proof.Machine
end

