-- ==== Sys2Proof/Machine/Boot.lean ====
section
/-! DEFINITION. Resets, supplies and BOOT as commands (R71–R83, R97, R248, R379). -/

set_option Elab.async false

namespace Sys2Proof.Machine

/-- POR_N_ASSERT (R58, R71): a low at 8 consecutive AON_RC edges is acted on, a shorter one ignored whole. -/
def execPorNAssert (cycles : Nat) (s : State) : Res :=
  let s := fresh s
  .next (if s.sup.aon && decide (cycles ≥ 8) then porActs s else s)

/-- VDD_AON_BROWNOUT (R71): VDD_AON below 0.72 V for 1 µs acts as POR_N low. -/
def execVddAonBrownout (ns : Nat) (s : State) : Res :=
  let s := fresh s
  .next (if s.sup.aon && decide (ns ≥ 1000) then porActs s else s)

/-- LANE_SUPPLY_LOSS (R64, R73, R379): the always-on rails are gone, and the mode is OFF. -/
def execLaneSupplyLoss (s : State) : Res :=
  let s1 := porActs (fresh s)
  .next { s1 with sup := { s1.sup with aon := false }, pmu := { s1.pmu with reported := .off, opp := 0 } }

/-- POR_N_RELEASE (R63, R82, R400): the always-on group is up and the cold boot begins. -/
def execPorNRelease (b : BootIn) (s : State) : Res :=
  let s := fresh s
  .next (if s.sup.porLow then bootCold b s else s)

/-- DRAM into self-refresh as the engines stop (R97): the retained flag stays as it is where DRAM is already so, or not yet up. -/
def selfRefreshIn (ok : Bool) (s : State) : State :=
  let keep := s.sup.selfRefresh || !s.sup.ready
  { s with sup := { s.sup with retained := if keep then s.sup.retained else ok, selfRefresh := true } }

/-- SYS_RESET_N_FALL (R58, R72): acted on after 8 AON_RC cycles, unless VDDIO_1V8 is absent or POR_N low; dmcOk says that DMC
completed its self-refresh entry (R97). -/
def execSysResetNFall (cycles : Nat) (dmcOk : Bool) (s : State) : Res :=
  let s := fresh s
  if decide (cycles < 8) || !s.sup.aon || s.sup.porLow || !s.sup.mainOn || s.sup.ballsFloat || s.sup.sysLow then .next s
  else
    let s1 := selfRefreshIn dmcOk (holdEngines s)
    .next { s1 with sup := { s1.sup with sysLow := true, ready := false, recovery := false }, pmu := { s1.pmu with reported := .boot } }

/-- SYS_RESET_N_RISE (R72, R83): the warm restart begins. -/
def execSysResetNRise (b : BootIn) (s : State) : Res :=
  let s := fresh s
  .next (if s.sup.sysLow then bootWarm .sysReset b s else s)

/-- PLANNED_WARM_RESTART (R464): 10 ms after the completion of FW_ACTIVATE. -/
def execPlannedWarmRestart (dmcOk : Bool) (b : BootIn) (s : State) : Res :=
  let s := fresh s
  match s.sup.restartAt with
  | none => .next s
  | some t => .next (bootWarm .fwActivate b (selfRefreshIn dmcOk (holdEngines (advanceTo t s))))

/-- RECOV_FINISH (R81): the image loaded over SPIT is verified and started, or its failed step shown. -/
def recovFinish (b : BootIn) (s : State) : State :=
  if !inRecovery s then s
  else
    let img : Img := (0, s.fw.recImage, 0)
    let n := verifyStep s img
    if n ≠ 0 then { s with fw := { s.fw with recFail := true, recStep := n } }
    else
      let f := runImage 2 img s.fw
      bootRest b { s with fw := { f with recDone := true, recFail := false, recStep := 0, trial := false } }

/-- RECOV_FINISH. -/
def execRecovFinish (b : BootIn) (s : State) : Res := .next (recovFinish b (fresh s))

/-- The interval of R34 ends with BOOT where no port waits to forward. -/
def availClose (s : State) : State :=
  if s.avail.waiting.isEmpty then
    { s with avail := { s.avail with openAt := none, forced := false
                                     ns := s.avail.ns + (match s.avail.openAt with | some t => s.now - t | none => 0) } }
  else s

/-- PSF high on a populated port when BOOT ends is a front-end fault (R51, R60). -/
def bootLevels (s : State) : State :=
  (allPorts.filter (fun p => (pwrOf s p).psf && psfSeen s p)).foldl (fun s p => psfActs p s) s

/-- A wake latched in BOOT is acted on when BOOT ends (R390): in a run mode its source raises its ordinary event alone, which for the lane
wake pattern is a lane I/O event (R391); the others raised theirs as they were seen. -/
def bootWakes (l : Option WakeLatch) (s : State) : State :=
  match l with
  | some x => if x.cls = 5 then laneIoEvent 2 0 0 0 s else s
  | none => s

/-- The end of step 8: settings in force, engines started, and the run mode reported (R82, R248, R379, R383, R412). -/
def bootEnds (reg : Option RegBoot) (s : State) : State :=
  let kept := s.sup.retained
  let s1 := layRings kept (applyVigil (applyPower (applyOwners s)))
  let s2 := applyRegulator reg (applyIo (applyRoute 1 (applyRoute 0 s1)))
  let s3 := bootContexts s { s2 with sup := { s2.sup with enginesHeld := false } }
  let s4 := if warmPath s then allThy.foldl (fun s t => thymeBack t s) s3 else s3
  let s5 := bootRequest s4
  let m := runMode s5
  let s6 := { s5 with
    pmu := { s5.pmu with reported := m, suspendSince := none }
    fw := { s5.fw with trialFrom := if s5.fw.trial && trialMode m then some s5.now else none }
    sup := { s5.sup with latch := none }
    flt := { s5.flt with shadows := [] } }
  let s7 := bootLevels (availClose (modeFollow s6))
  let s8 := bootWakes s.sup.latch s7
  match (if s.sup.path == .safe then safeBlock s8 else none) with
  | some blk => faultEvent blk 6 s8
  | none => s8

/-- BOOT_COMPLETE (R82). -/
def execBootComplete (reg : Option RegBoot) (s : State) : Res :=
  let s := fresh s
  .next (if s.pmu.reported == .boot && s.sup.ready && !s.sup.sysLow then bootEnds reg s else s)

/-- A hub may connect to its host (R82, R102). -/
def mayConnect (s : State) (u : US) : Bool :=
  (match s.pmu.reported with
   | .off | .hibernate | .standby | .boot | .safe => false
   | _ => true) &&
  (tcOf s (usPort u)).st == .attached && !(tcOf s (usPort u)).dfp && !(hubOf s u).connected && (hubOf s u).reconnectAt.isNone &&
  !portFenced s (usPort u) && populated s (usPort u)

/-- UPSTREAM_CONNECT (R82): the D_P pull-up and the SuperSpeed termination are applied on an attached upstream port. -/
def execUpstreamConnect (u : US) (s : State) : Res :=
  let s := fresh s
  .next (if mayConnect s u then hubConnect u s else s)

end Sys2Proof.Machine
end

