-- ==== Sys2Proof/Machine/Wakes.lean ====
section
/-! DEFINITION. Sleep entry, the wake sources, and the connector guard's readings (R266, R310, R343, R358–R363, R375, R388–R394). -/

set_option Elab.async false

namespace Sys2Proof.Machine

/-! ### Wakes (R389, R390, R394) -/

/-- HIBERNATE or STANDBY holds. -/
def asleep (s : State) : Bool := s.pmu.reported == .hibernate || s.pmu.reported == .standby

/-- A second wake of the tick whose wake this BOOT follows (R394). -/
def mergeWake (cls port detail : Nat) (s : State) : State :=
  let w := s.wake
  let l := mergeLatch { cls := w.cls, port := w.port, detail := w.detail, at_ := w.time, replayed := w.replayed, also := w.also } cls port detail
  { s with wake := { w with cls := l.cls, port := l.port, detail := l.detail, also := l.also } }

/-- A wake source takes effect by the mode (R389, R390). In BOOT a wake of the same tick joins the record,
and another is latched to BOOT's end; in a run mode the source raises
its ordinary event alone. -/
def raiseWake (cls port detail at_ : Nat) (b : BootIn) (s : State) : State :=
  match s.pmu.reported with
  | .hibernate | .standby => bootWake { cls := cls, port := port, detail := detail, at_ := at_, replayed := false } b s
  | .boot =>
    if (s.sup.path == .standby || s.sup.path == .hibernate) && s.wake.time == at_ && !s.wake.replayed then mergeWake cls port detail s
    else latchWake cls port detail s
  | _ => suspendWake cls port detail s

/-- SUSPEND_WAKE (R389, R390). -/
def execSuspendWake (cls : Fin 16) (port detail : Nat) (s : State) : Res :=
  let s := fresh s
  .next (if 1 ≤ cls.val ∧ cls.val ≤ 11 then suspendWake cls.val port detail s else s)

/-- SPIT_CS_N_WAKE (R54, R389): a falling edge is a wake alone. -/
def execSpitCsNWake (b : BootIn) (s : State) : Res :=
  let s := fresh s
  .next (raiseWake 6 0 0 (edgeTime b.wx s) b s)

/-- RTC_ALARM (R392): the edge of the converted count; with no alarm loaded there is none. -/
def execRtcAlarm (b : BootIn) (s : State) : Res :=
  let s := fresh s
  if s.clk.alarm = 0 then .next s
  else
    let s1 := { s with clk := { s.clk with alarm := 0 } }
    .next (raiseWake 7 0 0 (edgeTime s.clk.alarmTicks s) b (if asleep s then s1 else advanceTo s.clk.alarm s1))

/-- A code of a CC pattern, as Lovage keeps it between samples. -/
def patternCode (c : CcPattern) : Nat := match c with
  | .opn => 0
  | .rdOne => 1
  | .rdBoth => 2
  | .raOne => 3
  | .raBoth => 4
  | .rdRa => 5
  | .rp => 6

/-- LOVAGE_CC_SAMPLE (R310): a changed pattern seen on two consecutive samples is a wake of class 0x3. -/
def execLovageCcSample (p : Port) (c : CcPattern) (b : BootIn) (s : State) : Res :=
  let s := fresh s
  if !asleep s || !populated s p then .next s
  else
    let rest := s.sup.ccSeen.filter (fun e => e.1 ≠ p.val)
    if c == (tcOf s p).pattern then .next { s with sup := { s.sup with ccSeen := rest } }
    else if s.sup.ccSeen.contains (p.val, patternCode c) then
      .next (raiseWake 3 (portCode p) 0 (edgeTime b.wx s) b { s with sup := { s.sup with ccSeen := rest } })
    else .next { s with sup := { s.sup with ccSeen := rest ++ [(p.val, patternCode c)] } }

/-- WAKE_N_PULSE (R391): a low pulse by the time from the falling edge before it and its width. Three pulses of 1–5 ms that begin within 50 ms
are the lane wake pattern. -/
def execWakeNPulse (gap width : Nat) (b : BootIn) (s : State) : Res :=
  let s := fresh s
  if !s.sup.aon || s.sup.porLow then .next s
  else
    let inWin := decide (s.sup.wakeEdges > 0 ∧ s.sup.wakeWindow + gap < 50000000)
    let n := if inWin then s.sup.wakeEdges + 1 else 1
    let w := if inWin then s.sup.wakeWindow + gap else 0
    let ok := decide (1000000 ≤ width ∧ width ≤ 5000000)
    let s1 := { s with sup := { s.sup with wakeEdges := if ok && n != 3 then n else 0, wakeWindow := if ok && n != 3 then w else 0 } }
    if !(ok && n == 3) then .next s1
    else
      let run := !isExclusive s.pmu.reported
      .next (raiseWake 5 0 3 (edgeTime b.wx s1) b (if run then laneIoEvent 2 0 0 0 s1 else s1))

/-- PS_ALERT_N (R343, R389): a wake of class 0x9 while the lane sleeps; else the alerting device is found and read. -/
def execPsAlertN (p : Port) (status : BitVec 16) (feFault : Bool) (tries : Nat) (b : BootIn) (s : State) : Res :=
  let s := fresh s
  if asleep s then .next (raiseWake 9 0 0 (edgeTime b.wx s) b s)
  else
    let s1 := raiseWake 9 0 0 s.now b s
    if !pslReads s1 p || isExclusive s1.pmu.reported then .next s1
    else .next (pslTry p tries (fun t =>
      if feFault then modPwr p (fun x => { x with feStatus := status.toNat % 128 }) t
      else
        let t1 := modPwr p (fun x => { x with status := status.toNat }) t
        if bit status.toNat 4 then ocShutdown p t1 else t1) s1)

/-- HOLD_EXPIRY (R266, R388, R401): in STANDBY the deadline wakes the lane and the release follows BOOT; during entry to it, it is latched. -/
def execHoldExpiry (u : US) (b : BootIn) (s : State) : Res :=
  let s := fresh s
  if (vigHub s u).deadline.isNone then .next s
  else match s.pmu.reported with
    | .standby => .next (raiseWake 11 0 0 (edgeTime b.wx s) b s)
    | .off | .hibernate | .boot => .next s
    | _ =>
      if entering s then .next (suspendWake 11 0 0 s) else .next (if deadlineRuns s u then holdExpiry u (suspendWake 11 0 0 s) else s)

/-- LIO_SENSE_CHANGE (R375): the debounced level, its event, and a wake while SENSEn_WAKE is set. -/
def execLioSenseChange (n : Fin 2) (level : Bool) (b : BootIn) (s : State) : Res :=
  let s := fresh s
  if !s.sup.aon || s.sup.porLow || s.lio.sense.getLsbD n.val == level then .next s
  else
    let m : BitVec 2 := BitVec.ofNat 2 (2 ^ n.val)
    let s1 := { s with lio := { s.lio with sense := if level then s.lio.sense ||| m else s.lio.sense &&& ~~~m } }
    let s2 := modKick n (fun k => { k with report := k.report.map (fun r =>
      (r.1, r.2 || (drawerOpen s1 n && decide (s.now < r.1 + 2000000000)))) }) s1
    let s3 := if asleep s then s2 else laneIoEvent 0 n.val (b2n level) 0 s2
    .next (if s.lio.wake.getLsbD n.val then raiseWake 10 0 0 (if asleep s then edgeTime b.wx s else s.now) b s3 else s3)

/-! ### Sleep entry (R388) -/

/-- The RTC edge of a wake alarm: the smallest count whose edge falls at or after it (R392). -/
def alarmCount (alarm : Nat) (s : State) : Nat := ((alarm + s.clk.phi - s.clk.le) * 1000000 + rtcE6 - 1) / rtcE6

/-- Steps 2–4 of sleep entry: the hubs disconnected, every port and kick output low, DRAM in self-refresh or stopped (R56, R64, R388);
dmcOk says that DMC completed its self-refresh entry (R97). -/
def sleepStops (m : Mode) (dmcOk : Bool) (s : State) : State :=
  let stay := m == .standby
  let s1 := sleepPorts (dropTests (abandonRebuild (upDown s)))
  { s1 with
    lio := { s1.lio with kick := s1.lio.kick.map (fun k => { k with pulse := none, silent := true }) }
    vig := if stay then s1.vig else { s1.vig with ctx := [], seen := [], rings := s1.vig.rings.map (fun r => { r with recs := [] }) }
    sup := { s1.sup with selfRefresh := stay, retained := stay && dmcOk, ready := false, enginesHeld := true, mainOn := false, memOn := stay
                         corePg := false, pwrReq := if stay then 1 else 0, ccSeen := [] } }

/-- The sleep capture (R388): the last-entry time and phase, the time base and the interpolation off, the mailbox access state lost, the
target reported with the operating point at 0 and no request left. -/
def sleepCapture (t : Trans) (phi : Nat) (s : State) : State :=
  { s with
    clk := { s.clk with le := s.now, phi := min phi s.now, alarm := t.alarm, tbOn := false, interp := false }
    mbx := { s.mbx with acc := [] }
    pmu := { s.pmu with reported := t.target, opp := 0, inProg := none, pend := none, suspendSince := none, clkGated := false }
    flt := { s.flt with safePend := none, levels := [] } }

/-- The block as it stands asleep: lane time stopped, accepted commands dropped, the sleep mode reported (R388). -/
def fallAsleep (t : Trans) (phi : Nat) (dmcOk : Bool) (s : State) : State :=
  let s1 := sleepStops t.target dmcOk s
  trialTick s1.pmu.reported t.target (sleepCapture t phi s1)

/-- The alarm counted in Lovage ticks (R392). -/
def countAlarm (t : Trans) (s : State) : State := { s with clk := { s.clk with alarmTicks := alarmCount t.alarm s } }

/-- No alarm set (R392). -/
def dropAlarm (s : State) : State := { s with clk := { s.clk with alarm := 0 } }

/-- The alarm counted in Lovage; one that is due already is a latched wake (R392). -/
def setAlarm (t : Trans) (s : State) : State :=
  if t.alarm ≠ 0 ∧ t.alarm ≤ s.now then latchWake 7 0 0 (dropAlarm (countAlarm t s)) else countAlarm t s

/-- The entry waits for a running kick pulse to reach its programmed length (R56). -/
def waitKick (i : Fin 2) (s : State) : State :=
  match s.lio.kick[i].pulse with
  | some (t0, t1) => kickEnds i t0 t1 (advanceTo t1 s)
  | none => s

/-- SLEEP_ENTRY (R56, R388, R392, R399, R401): steps 2–6, the sleep capture with the phase given, and at once the exit where a wake was latched
meanwhile or the alarm lies behind. -/
def execSleepEntry (phi : Nat) (dmcOk : Bool) (b : BootIn) (s : State) : Res :=
  let s := fresh s
  match s.pmu.inProg with
  | none => .next s
  | some t =>
    if !sleepMode t.target || s.pmu.reported == .boot || s.sup.porLow then .next s
    else
      let s1 := setAlarm t (fallAsleep t phi dmcOk (waitKick 1 (waitKick 0 s)))
      match s1.sup.latch with
      | none => .next s1
      | some l => .next (bootWake l b s1)

/-! ### Connector guard readings (R358–R363) -/

/-- The CC pin that attachment left open: the other than that of the termination (R305, R359). -/
def openCcPin (s : State) (p : Port) : List Nat :=
  let t := tcOf s p
  match t.pattern with
  | .rdOne | .rp => [if t.flip then 0 else 1]
  | _ => []

/-- The pins of a scheduled reading (R359). -/
def pinsDue (s : State) (p : Port) : List Nat :=
  if (guardOf s p).st ≠ 0 ∨ (tcOf s p).st ≠ .attached then guardPins p
  else
    let dp := match portDs p with
      | some d => s.dp.toList.any (fun i => i.port == some d && i.phase == 7)
      | none => false
    openCcPin s p ++ ((guardPins p).filter (fun i => decide (i ≥ 2))).filter (fun _ => !dp)

/-- A pin showing Rd or Ra, on which no resistance is measured (R358). -/
def isTerm (code : Nat) : Bool := code == 0xFFFE

/-- A code below 200 kΩ, in steps of 2.44 kΩ (R358). -/
def isWet (code : Nat) : Bool := decide (code < 82)

/-- A code above 1 MΩ (R360). -/
def isDry (code : Nat) : Bool := !isTerm code && decide (code > 409)

/-- A code in the trend's units of 10 kΩ, 255 standing for OPEN (R364). -/
def trendUnits (code : Nat) : Nat := if code ≥ 1023 then 255 else code * 244 / 1000

/-- One pin's reading kept: the last value with its lane time, and the week's lowest but for TERM (R364). -/
def keepReading (p : Port) (pin code : Nat) (s : State) : State :=
  modGuard p (fun g => { g with
    reads := g.reads.set pin (code, s.now)
    week := if isTerm code then g.week
      else g.week.set pin (some (match g.week.getD pin none with
        | some w => min w (trendUnits code)
        | none => trendUnits code)) }) s

/-- A port whose guard no longer holds it presents its terminations again (R361). -/
def guardFree (p : Port) (s : State) : State :=
  if !(guardOf s p).hold then s
  else
    let s1 := modGuard p (fun g => { g with hold := false }) s
    if (tcOf s1 p).st ≠ .unattached then s1
    else if (portUs p).isSome then usSees p (tcOf s1 p).pattern s1 else dsSees p (tcOf s1 p).pattern s1

/-- The state after a reading (R360), asleep without its event, which has no ring to go to. -/
def guardMoves (p : Port) (wet : Option (Nat × Nat)) (dry : Bool) (s : State) : State :=
  let g := guardOf s p
  let toSt (st n pin code : Nat) (s : State) : State :=
    if asleep s then modGuard p (fun x => { x with st := st, dry := n, wets := if st = 1 ∧ g.st = 0 then x.wets + 1 else x.wets
                                                   hold := if st = 1 ∧ guardAction s p = 0 then true else x.hold }) s
    else guardTo p st n pin code s
  match g.st with
  | 0 => (match wet with
    | some (pin, code) => if asleep s then toSt 1 0 pin code s else becomeWet p pin code s
    | none => s)
  | 1 => if dry then toSt 2 1 0 (g.reads.getD 0 (0xFFFF, 0)).1 s else s
  | _ =>
    if !dry then
      (let x := wet.getD (0, (g.reads.getD 0 (0xFFFF, 0)).1)
       if asleep s then toSt 1 0 x.1 x.2 s else becomeWet p x.1 x.2 s)
    else if g.dry + 1 ≥ 3 then
      (let s1 := toSt 0 0 0 (g.reads.getD 0 (0xFFFF, 0)).1 s
       if asleep s then modGuard p (fun x => { x with hold := false }) s1 else guardFree p s1)
    else modGuard p (fun x => { x with dry := g.dry + 1 }) s

/-- GUARD_READING (R358–R363): each pin that is due is read, a wet reading is repeated at once, and the guard state follows. A change in
sleep is a wake of class 0x8. -/
def execGuardReading (p : Port) (first again : List Nat) (b : BootIn) (s : State) : Res :=
  let s := fresh s
  if !s.sup.aon || s.sup.porLow || !populated s p then .next s
  else if guardAction s p = 2 then
    let s1 := if (guardOf s p).st = 0 then s
      else if asleep s then modGuard p (fun g => { g with st := 0, dry := 0 }) s else guardTo p 0 0 0 0xFFFF s
    .next (if asleep s then modGuard p (fun g => { g with hold := false }) s1 else guardFree p s1)
  else
    let old := (guardOf s p).st
    let s := modTc p (fun t => { t with preCheck := false }) s
    let codes : List (Nat × Nat × Nat) := (pinsDue s p).mapIdx (fun i pin => (pin, first.getD i 1023, again.getD i 1023))
    let final (x : Nat × Nat × Nat) : Nat := if isWet x.2.1 then x.2.2 else x.2.1
    let s1 := codes.foldl (fun s x => keepReading p x.1 (final x) (if isWet x.2.1 then keepReading p x.1 x.2.1 s else s)) s
    let wet := (codes.find? (fun x => isWet x.2.1 && isWet x.2.2)).map (fun x => (x.1, x.2.2))
    let dry := codes.all (fun x => isTerm (final x) || isDry (final x))
    let s2 := guardMoves p wet dry s1
    let s3 := if guardAction s p ≠ 0 ∧ asleep s = false then guardFree p s2 else s2
    .next (if asleep s && (guardOf s3 p).st != old then raiseWake 8 (portCode p) 0 (edgeTime b.wx s3) b s3 else s3)

end Sys2Proof.Machine
end

