-- ==== Sys2Proof/Machine/Faults.lean ====
section
/-! DEFINITION. Faults as commands: detectors, SAFE and its exit, quiet periods, acknowledgement, injection, fencing by command, scrubbing
and the availability checkpoint (R36, R57, R95, R96, R98, R404–R422, R462, R511). -/

set_option Elab.async false

namespace Sys2Proof.Machine

/-! ### SAFE (R416–R419) -/

/-- PSL or ADC holds a UC or FT record that is pending, or has a unit fenced (R417). -/
def powerSuspect (s : State) (b : Block) : Bool :=
  let r := fltRec s b
  (r.pending && (r.cls == some .uc || r.cls == some .ft || r.alsoUc || r.alsoFt)) || !r.fenced.isEmpty || r.reset

/-- SAFE entered for a block's FT (R385, R412, R416–R418): whatever waited in the PMU is displaced, the engines and Sage stop, power goes
where R417 says, and DRAM keeps what it can. -/
def safeEnter (b : Block) (dmcOk : Bool) (s : State) : State :=
  let old := s.pmu.reported
  let s1 := modeFinal (s.pmu.pend.bind (·.req)) stSuperseded 0 { s with pmu := { s.pmu with pend := none, service := false } }
  let at_ := (fltRec s1 b).reactEnd - 5000
  let fwd := fwdPorts s1
  let s2 := { s1 with
    mbx := { s1.mbx with acc := [] }
    sup := { s1.sup with restartAt := none }
    pmu := { s1.pmu with reported := .safe, suspendSince := none, clkGated := false }
    flt := { s1.flt with
      safeCause := some b, safePend := none, safeAt := at_
      recs := s1.flt.recs.map (fun r => { r with safeCause := false })
      shadows := s1.flt.shadows ++ [{ block := b, start := s1.now, stop := none, every := true }] } }
  let s3 := setRec b { fltRec s2 b with safeCause := true } (availStop fwd (fltRec s2 b).forced s2)
  let s4 := holdEngines s3
  let s5 := if b == .pmu || powerSuspect s4 .psl || powerSuspect s4 .adc then allPscLow s4 else s4
  faultEvent b 3 (modeFollow (trialTick old .safe (selfRefreshIn dmcOk s5)))

/-- A mode in which the main group runs, so that an FT can enter SAFE. -/
def mayEnterSafe (s : State) : Bool := match s.pmu.reported with
  | .off | .hibernate | .standby | .safe => false
  | _ => s.pmu.inProg.isNone && s.pmu.change.isNone && !s.sup.porLow && !s.sup.sysLow

/-- SAFE_ENTRY (R385, R416): once no transition is in progress. -/
def execSafeEntry (dmcOk : Bool) (s : State) : Res :=
  let s := fresh s
  match s.flt.safePend with
  | none => .next s
  | some b => .next (if mayEnterSafe s then safeEnter b dmcOk s else s)

/-- An FT of a privileged block with SAFE entered at once, DMC completing its part; while a transition runs it waits (R385). -/
def fatal (b : Block) (src : Nat) (s : State) : State :=
  let s1 := fault b src (blockId b) s
  match s1.flt.safePend with
  | some c => if mayEnterSafe s1 then safeEnter c true s1 else s1
  | none => s1

/-- COUNT raised by a re-admission at an instant; those older than 24 h no longer count (R414). -/
def countReadmit (t : Nat) (r : FltRec) : FltRec :=
  { r with readmits := (r.readmits.filter (fun x => decide (t < x + 86400000000000))) ++ [t] }

/-- SAFE_EXIT (R70, R419): after the quiet period, with the reference present for 10 ms and COUNT below LIMIT; at the limit it stays. -/
def execSafeExit (b : BootIn) (s : State) : Res :=
  let s := fresh s
  match s.flt.safeCause with
  | none => .next s
  | some blk =>
    if s.pmu.reported != .safe || s.clk.refLost.isSome then .next s
    else
      let ref := match s.clk.refBack with
        | some t => t + 10000000
        | none => 0
      let s1 := advanceTo (max (s.flt.safeAt + quietFt s blk * 1000000) ref) s
      if fltCount s1 blk < fltLimit s1 blk then
        .next (bootWarm .safe b (setRec blk (countReadmit s1.now { fltRec s1 blk with limitHeld := false }) s1))
      else if (fltRec s1 blk).limitHeld then .next s1
      else .next (faultEvent blk 5 (setRec blk { fltRec s1 blk with limitHeld := true } s1))

/-! ### Detectors (R407, R408, R511) -/

/-- The unit that a source names: the block itself where it names no finer one. -/
def unitFor (b : Block) (src unit : Nat) : Nat := if namesFiner b src then unit else blockId b

/-- Whether a CE is latched: a crossing queue's on the second correction in one stage within 1 s, local SRAM's and a memory's where the
scrubber found it persistent, any other's always (R98, R406, R407). -/
def ceLatches (s : State) (b : Block) (src unit : Nat) (persistent : Bool) : Bool :=
  if src = 0 then
    (match (fltRec s b).xqLast with
     | some (u, t) => u == unit && decide (s.now < t + 1000000000)
     | none => false)
  else if src = 3 ∨ (b = .dmc ∧ src = 9) ∨ (b = .pkb ∧ src = 8) then persistent
  else true

/-- A detector's raise (R406–R409). -/
def detect (b : Block) (src unit : Nat) (forced persistent : Bool) (s : State) : State :=
  let u := unitFor b src unit
  let keep := ceLatches s b src u persistent
  let s1 := if src = 0 then setRec b { fltRec s b with xqLast := some (u, s.now) } s else s
  raiseFault b src u forced keep s1

/-- FAULT_LATCH (R409). A source that the block does not have, or a unit that the source cannot name, raises nothing. -/
def execFaultLatch (b : Block) (src : Fin 32) (unit : Nat) (persistent : Bool) (s : State) : Res :=
  let s := fresh s
  .next (if (srcClass b src.val).isSome && unitOk b src.val (unitFor b src.val unit) then detect b src.val unit false persistent s else s)

/-- A level source's condition is over. -/
def levelOver (b : Block) (src : Nat) (s : State) : State :=
  let s1 := { s with flt := { s.flt with levels := s.flt.levels.filter (fun l => !(l.block == b && l.source == src)) } }
  match b, src with
  | .pmu, 8 => { s1 with sup := { s1.sup with ballsFloat := false } }
  | .pmu, 9 => { s1 with sup := { s1.sup with corePg := true } }
  | .cru, 9 => { s1 with clk := { s1.clk with corePllLock := true, tbPllLock := true } }
  | .us u, 11 => modPwr (usPort u) (fun x => { x with psf := false, feStatus := 0 }) s1
  | .ds d, 11 => modPwr (dsPort d) (fun x => { x with psf := false, feStatus := 0 }) s1
  | _, _ => s1

/-- LEVEL_FAULT_REPEAT (R408): 1 ms after the last raise, again where the condition lasts. -/
def execLevelFaultRepeat (b : Block) (src : Fin 32) (lasts : Bool) (s : State) : Res :=
  let s := fresh s
  match s.flt.levels.find? (fun l => l.block == b && l.source == src.val) with
  | none => .next s
  | some l =>
    if !lasts then .next (levelOver b src.val s)
    else .next (raiseFault b src.val l.unit false true (advanceTo (l.last + 1000000) s))

/-- SAGE_LOCKSTEP_MISMATCH (R11). -/
def execSageLockstepMismatch (s : State) : Res := .next (fatal .sage 8 (fresh s))

/-- SAGE_WATCHDOG (R408). -/
def execSageWatchdog (ms : Nat) (s : State) : Res :=
  let s := fresh s
  .next (if ms ≥ 100 then fault .sage 9 (blockId .sage) s else s)

/-- SAGE_TASK_LATE (R408): the service is restarted at once, and nothing is fenced. -/
def execSageTaskLate (service : Nat) (s : State) : Res :=
  let s := fresh s
  .next (if unitOk .sage 10 service then fault .sage 10 service s else s)

/-- CHERVIL_HANG (R408): the row is raised while the engine holds issued work. -/
def execChervilHang (c : Fin 8) (us : Nat) (s : State) : Res :=
  let s := fresh s
  .next (if us ≥ 20 ∧ (fltRec s (.chv c)).reset = false then fault (.chv c) 8 (blockId (.chv c)) s else s)

/-- THYME_HANG (R408): the row is raised while a notice waits. -/
def execThymeHang (t : Fin 6) (us : Nat) (s : State) : Res :=
  let s := fresh s
  .next (if us ≥ 1000 ∧ (fltRec s (.thy t)).reset = false then fault (.thy t) 8 (blockId (.thy t)) s else s)

/-- FAB_ARB_STALL (R408): the row is raised while requests are eligible. -/
def execFabArbStall (us : Nat) (s : State) : Res :=
  let s := fresh s
  .next (if us ≥ 100 then fault .fab 9 (blockId .fab) s else s)

/-- TJ_WARN by grade, in 0.1 °C; TJ_TRIP lies 10 °C above (R511). -/
def tjWarn : Int := if Config.gradeI then 1250 else 1050

/-- TJ_SAMPLE (R511): each threshold is raised once at an upward crossing, and again only after 5 °C below it. The higher class is first. -/
def execTjSample (tenths : Int) (s : State) : Res :=
  let s := fresh s
  let w := tjWarn
  let trip := decide (tenths ≥ w + 100)
  let warn := decide (tenths ≥ w)
  let t := s.therm
  let s1 := { s with therm := {
    temp := tenths
    warnOver := if warn then true else if tenths ≤ w - 50 then false else t.warnOver
    tripOver := if trip then true else if tenths ≤ w + 50 then false else t.tripOver } }
  let s2 := if trip && !t.tripOver then fault .pmu 15 (blockId .pmu) s1 else s1
  .next (if warn && !t.warnOver then fault .pmu 14 (blockId .pmu) s2 else s2)

/-! ### Scrubbing (R95, R96, R98) -/

/-- A PKB word's flipped bits as they stand. -/
def setPkbErr (word mask : Nat) (s : State) : State := { s with memb := { s.memb with pkbErr := sparseSet 0 s.memb.pkbErr word mask } }

/-- Whether the pass corrected a PKB word, for the next pass. -/
def markPkb (word : Nat) (on : Bool) (s : State) : State :=
  let l := s.memb.pkbSeen.filter (· ≠ word)
  { s with memb := { s.memb with pkbSeen := if on then l ++ [word] else l } }

/-- PKB_SCRUB (R95, R98, R99): the word is decoded with the bits that have flipped in it since its last scrub. A correction is counted, latched
where the same word was corrected in the pass before, and written back; one that a foreground write overtook is dropped, the word being new.
An uncorrectable word loses its packet and fences its cell. -/
def execPkbScrub (word flips : Nat) (overwritten : Bool) (s : State) : Res :=
  let s := fresh s
  if asleep s || decide (word ≥ 524288) then .next s
  else
    let m := sparseGet 0 s.memb.pkbErr word ^^^ flips % 2 ^ 39
    let after (m : Nat) : Nat := if overwritten then 0 else m
    match decodeWord 32 m with
    | .clean => .next (setPkbErr word (after m) (markPkb word false s))
    | .corrected i =>
      .next (detect .pkb 8 (word / 32) false (s.memb.pkbSeen.contains word)
        (setPkbErr word (after (m ^^^ 2 ^ i)) (markPkb word true s)))
    | .uncorrectable => .next (fault .pkb 9 (word / 32) (setPkbErr word (after m) s))

/-- The units of the DRAM (R85, R87). -/
def dramUnits : Nat := Config.dramMb.toNat * 16384

/-- A unit withdrawn by a pattern test (R493, R499). -/
def withdrawn (s : State) (unit : Nat) : Bool := match s.test.dmc with
  | some t => decide (t.start ≤ unit * 48 ∧ unit * 48 < t.start + t.bytes)
  | none => false

/-- A scrub of one unit, a single step (R88–R90, R96, R98, R99): its tag and words are read; corrected words are written back, counted, and
latched where the pass before corrected them too; a bad unit raises its region's source once. -/
def scrubUnit (n : Nat) (s : State) : State :=
  let l := unitReads s n
  if (readTag (tagAt s n) n).isNone then raiseFaultAt (some n) .dmc 13 (unitPage n) false true s
  else
    let fix := correctedWords l
    let seen := s.memb.dramSeen
    let m := writeBack fix { s.memb with dramSeen := seen.filter (fun k => decide (k / 12 ≠ n)) ++ fix.map (·.1) }
    let s1 := fix.foldl (fun s x => detect .dmc 9 (unitPage n) false (seen.contains x.1) s) { s with memb := m }
    if unitBad s n l then
      let x := unitSource s n
      raiseFaultAt (some n) .dmc x.1 x.2 false true s1
    else s1

/-- DRAM_SCRUB_UNIT (R96, R98, R499): the next unit in turn, with the bits that have flipped in it since its last scrub; the scrubber stops in
self-refresh and skips what is withdrawn. -/
def execDramScrubUnit (flips : List (Nat × Nat)) (s : State) : Res :=
  let s := fresh s
  if s.sup.selfRefresh || !s.sup.ready || s.pmu.reported == .suspend then .next s
  else
    let u := s.memb.dramUnit
    let s1 := { s with memb := { flipUnit u flips s.memb with dramUnit := if u + 1 ≥ dramUnits then 0 else u + 1 } }
    .next (if withdrawn s u then s1 else scrubUnit u s1)

/-! ### Quiet periods (R100, R414) -/

/-- A unit that a quiet period may re-admit: fenced by a fault alone, and not held by the limit. -/
def mayReadmit (f : Fenced) : Bool := f.byFault && !f.byCmd && !f.held

/-- Units that count toward the limit are held by it (R414). -/
def holdRec (r : FltRec) : FltRec :=
  { r with limitHeld := true, fenced := r.fenced.map (fun f => if mayReadmit f && (memUnit f.unit).isNone then { f with held := true } else f) }

/-- The records of a block at the end of its quiet period (R100, R414): at the limit its units are held but for cells and pages, which are
always tested; else they are re-admitted together. -/
def quietEnds (b : Block) (reads : List ReadBack) (s : State) : State :=
  let r := fltRec s b
  let due := r.fenced.filter mayReadmit
  if due.isEmpty then setRec b { r with quietEnd := none } s
  else
    let counted := due.any (fun f => (memUnit f.unit).isNone)
    let limit := counted && decide (fltCount s b ≥ fltLimit s b)
    let r0 := if limit then holdRec r else if counted then countReadmit s.now r else r
    let s0 := if limit then faultEvent b 5 (setRec b { r0 with quietEnd := none } s) else s
    if limit && due.all (fun f => (memUnit f.unit).isNone) then s0
    else
      let r1 := readmitRec r0
      let s1 := faultEvent b 4 (setRec b r1 (retest b reads s0))
      let s2 := if !ackHost s && readmitAcks r1 then setRec b (ackRec (fltRec s1 b)) s1 else s1
      retireLimit b s.memb (spreadReadmits s s2)

/-- QUIET_PERIOD_END (R100, R414). In SAFE and asleep the restart re-admits. -/
def execQuietPeriodEnd (b : Block) (reads : List ReadBack) (s : State) : Res :=
  let s := fresh s
  match (fltRec s b).quietEnd with
  | none => .next s
  | some t =>
    if safeHolds s || asleep s || s.pmu.reported == .boot then .next s
    else .next (quietEnds b reads (advanceTo t s))

/-! ### Acknowledgement (R404, R410) -/

/-- FAULT_AUTO_ACK (R410): CE, consequential and nothing-fenced records ACK_HOLD after their latch, and the record of the FT that caused SAFE
after the BOOT that ended it. Other records are acknowledged with the re-admission of their units. -/
def execFaultAutoAck (b : Block) (s : State) : Res :=
  let s := fresh s
  let r := fltRec s b
  if ackHost s || !r.pending || safeHolds s || isExclusive s.pmu.reported && s.pmu.reported != .suspend then .next s
  else if r.safeCause then .next (setRec b { fltRec (ackBlock b s) b with safeCause := false } (ackBlock b s))
  else if r.cls == some .ce || r.conseq || r.leavesNone then .next (ackBlock b (advanceTo (r.time + ackHoldNs s) s))
  else .next s

/-- What a write of FLT_ACK does: ACK first, then CE_CLEAR. -/
def ackWrite (b : Block) (v : Nat) (s : State) : State :=
  let s1 := if bit v 0 then ackBlock b s else s
  if bit v 1 then ceClear b s1 else s1

/-- FLT_ACK_WRITE (R403, R404): over SPIT in every mode in which SPIT is powered. -/
def execFltAckWrite (b : Block) (v : Word) (s : State) : Res :=
  let s := fresh s
  .next (if s.sup.mainOn && !s.sup.porLow then ackWrite b v.toNat s else s)

/-! ### Forced faults (R421, R462) -/

/-- The sources that a mask names, the highest class first, then the lower number (R409). -/
def maskSources (b : Block) (mask : Nat) : List Nat :=
  let l := (List.range 32).filter (fun n => bit mask n && (srcClass b n).isSome)
  let of (c : FClass) : List Nat := l.filter (fun n => match srcClass b n with | some (k, _) => k == c | none => false)
  of .ft ++ of .uc ++ of .ce

/-- A source of the same cycle as a higher one: counted, marked as seen also, and without a reaction of its own (R409). -/
def alsoForced (b : Block) (n unit : Nat) (s : State) : State :=
  match srcClass b n with
  | none => s
  | some (c, countedOnly) =>
    let s1 := if c = .ce then countCe b s else s
    if c = .ce ∧ (countedOnly = true ∨ ceLatches s b n unit true = false) then s1
    else setRec b (alsoSeen c (markSeen n (fltRec s1 b))) s1

/-- Every masked source raised once, in one cycle of the block (R421). -/
def injectFaults (b : Block) (mask : Nat) (unit : Option Nat) (s : State) : State :=
  let u (n : Nat) : Nat := unit.getD (defaultUnit b n)
  match maskSources b mask with
  | [] => s
  | a :: l => l.foldl (fun s n => alsoForced b n (u n) s) (detect b a (u a) true true s)

/-- FLT_FORCE_WRITE (R404, R421): permitted in SERVICE, or with TEST_ENABLE set; the default units apply. -/
def execFltForceWrite (b : Block) (v : Word) (s : State) : Res :=
  let s := fresh s
  .next (if (s.pmu.reported == .service || testEnabled s) && !asleep s then injectFaults b v.toNat none s else s)

/-! ### Fault commands (R462) -/

/-- The spec of FAULT_READ. -/
def specFaultRead : CmdSpec :=
  { opcode := 0x0801, cls := .any, onCmd0 := fun _ => true, onI2ct := true, safeOk := fun _ => true, lenOk := len 0 }

/-- One entry of FAULT_READ, 56 bytes. -/
def faultEntry (s : State) (b : Block) : List Byte :=
  le 1 (blockId b) ++ [0, 0, 0] ++ fltRecord s b ++ le 8 (fltRec s b).addr

/-- A block placed in a list ordered by FLT_TIME and then by block ID (R405). -/
def insertByTime (s : State) (b : Block) : List Block → List Block
  | [] => [b]
  | c :: l => if (fltRec s b).time < (fltRec s c).time then b :: c :: l else c :: insertByTime s b l

/-- Every block with PENDING, in the order of R405. -/
def pendingBlocks (s : State) : List Block :=
  (allBlocks.filter (fun b => (fltRec s b).pending)).foldl (fun l b => insertByTime s b l) []

/-- FAULT_READ (R405, R462). -/
def cmdFaultRead (r : Req) (s : State) : State × Reply :=
  let l : Option (List Block) := if r.target.toNat = 0xFF then some (pendingBlocks s) else (targetBlock r).map (fun b => [b])
  match l with
  | none => (s, errR stBadTarget)
  | some bs => (s, okR (le 1 bs.length ++ [0, 0, 0] ++ bs.flatMap (faultEntry s)))

/-- FAULT_READ. -/
def execFaultRead (r : Req) (s : State) : Res := .next (runCmd specFaultRead cmdFaultRead r s)

/-- The spec of FAULT_ACK. -/
def specFaultAck : CmdSpec :=
  { opcode := 0x0802, cls := .any, onI2ct := true, safeOk := fun r => r.ring.val == 1, lenOk := len 4
    resvOk := fun p => decide (fld p 0 1 < 4) && zeroAt 1 3 p }

/-- FAULT_ACK (R462). -/
def cmdFaultAck (r : Req) (s : State) : State × Reply :=
  match targetBlock r with
  | none => (s, errR stBadTarget)
  | some b => (ackWrite b (fld r.payload 0 1) s, okR [])

/-- FAULT_ACK. -/
def execFaultAck (r : Req) (s : State) : Res := .next (runCmd specFaultAck cmdFaultAck r s)

/-- The spec of FAULT_INJECT. -/
def specFaultInject : CmdSpec := { opcode := 0x0803, cls := .inject, lenOk := len 8 }

/-- FAULT_INJECT (R421, R462). -/
def cmdFaultInject (r : Req) (s : State) : State × Reply :=
  let mask := fld r.payload 0 4
  let unit := fld r.payload 4 4
  let ns := (List.range 32).filter (fun n => bit mask n)
  match targetBlock r with
  | none => (s, errR stBadTarget)
  | some b =>
    if ns.any (fun n => (srcClass b n).isNone) || (unit != 0xFFFFFFFF && ns.any (fun n => !unitOk b n unit)) then (s, errR stBadTarget)
    else (injectFaults b mask (if unit = 0xFFFFFFFF then none else some unit) s, okR [])

/-- FAULT_INJECT. -/
def execFaultInject (r : Req) (s : State) : Res := .next (runCmd specFaultInject cmdFaultInject r s)

/-- The unit that FENCE names (R415, R462). -/
def fenceUnit (b : Block) (unit : Nat) : Option FUnit := match b with
  | .us _ | .ds _ | .chv _ | .thy _ => if unit = 0xFFFFFFFF then some .whole else none
  | .dpx => if unit ≤ 1 then some (.route unit) else none
  | .lio => if unit ≤ 1 then some (.output unit) else none
  | _ => none

/-- The block is the last unfenced Chervil. -/
def lastChervil (s : State) (b : Block) : Bool := match b with
  | .chv c => !chvFenced s c && allChv.all (fun x => x == c || chvFenced s x)
  | _ => false

/-- The block is that of a sealed port. -/
def blockSealed (s : State) (b : Block) : Bool := match b with
  | .ds d => isSealed s d
  | _ => false

/-- FENCE carried out (R410, R412, R413, R415): no fault is recorded, no availability counted, and a unit fenced already gives no further
event. -/
def fenceNow (b : Block) (u : FUnit) (unit : Nat) (s : State) : State :=
  let s1 := setRec b (fenceIn u false true false false (fltRec s b)) s
  let s2 := if isWhole u then openShadow b s1 else unitEffects b false unit s1
  let s3 := spreadFences s false true s2
  { (if (fltRec s b).fenced.any (·.unit == u) then s3 else faultEvent b 1 s3) with avail := s.avail }

/-- The spec of FENCE. -/
def specFence : CmdSpec := { opcode := 0x0804, cls := .run, onCmd0 := fun _ => true, lenOk := len 4 }

/-- FENCE (R415, R462). -/
def cmdFence (r : Req) (s : State) : State × Reply :=
  let unit := fld r.payload 0 4
  match targetBlock r with
  | none => (s, errR stBadTarget)
  | some b =>
    match fenceUnit b unit with
    | none => (s, errR stBadTarget)
    | some u =>
      if lastChervil s b then (s, errR stBadTarget)
      else if blockSealed s b then (s, errR stSealed)
      else (fenceNow b u unit s, okR [])

/-- FENCE. -/
def execFence (r : Req) (s : State) : Res := .next (runCmd specFence cmdFence r s)

/-- UNFENCE carried out (R415): every fenced unit of the block is re-admitted, and COUNT cleared; the record is left as it is. -/
def unfenceNow (b : Block) (s : State) : State :=
  let r := fltRec s b
  let s1 := setRec b { r with fenced := [], reset := false, quietEnd := none, limitHeld := false, readmits := [] } s
  let s2 := spreadReadmits s s1
  if r.fenced.isEmpty && !r.reset then s2 else faultEvent b 4 s2

/-- The spec of UNFENCE. -/
def specUnfence : CmdSpec :=
  { opcode := 0x0805, cls := .any, onCmd0 := fun _ => true, safeOk := fun _ => true, lenOk := len 0 }

/-- UNFENCE (R415, R462). -/
def cmdUnfence (r : Req) (s : State) : State × Reply :=
  match targetBlock r with
  | none => (s, errR stBadTarget)
  | some b => (unfenceNow b s, okR [])

/-- UNFENCE. -/
def execUnfence (r : Req) (s : State) : Res := .next (runCmd specUnfence cmdUnfence r s)

/-! ### Availability checkpoint (R36, R474) -/

/-- The words of a checkpoint: the counted ns, the events, and the checkpoints carried out (R477). -/
def checkpointWrites (s : State) : List (Nat × Word) :=
  let w (a v : Nat) : Nat × Word := (a, BitVec.ofNat 32 v)
  [w 0xF10 (unavailNs s), w 0xF11 (unavailNs s / 2 ^ 32), w 0xF12 s.avail.events, w 0xF13 (s.avail.ckpts + 1)]

/-- AVAILABILITY_CHECKPOINT (R36, R474): at most once per hour, and no more once a word is exhausted. -/
def execAvailabilityCheckpoint (s : State) : Res :=
  let s := fresh s
  let due := match s.avail.lastCkpt with
    | some t => decide (t + 3600000000000 ≤ s.now)
    | none => true
  if !due || asleep s || safeHolds s || !s.sup.ready || almExhausted s.alm (checkpointWrites s) then .next s
  else
    .next { s with alm := almWriteAll s.alm (checkpointWrites s)
                   avail := { s.avail with lastCkpt := some s.now, ckpts := s.avail.ckpts + 1 } }

end Sys2Proof.Machine
end

