-- ==== Sys2Proof/Machine/Clocks.lean ====
section
/-! DEFINITION. Supplies and clocks as the controller sees them: lost rails and references, unlocked PLLs, the 32.768 kHz fallback and
the core regulator's polls (R57, R65, R67, R69, R70, R396, R408). -/

set_option Elab.async false

namespace Sys2Proof.Machine

/-- The main group is up and no reset is held. -/
def mainUp (s : State) : Bool := s.sup.mainOn && !s.sup.porLow && !asleep s

/-- VDDIO_1V8_LOSS (R57): every VDDIO_1V8 output floats at once, the pull-downs hold PSC and the kick outputs low, and PMU records FT. -/
def execVddio1v8Loss (s : State) : Res :=
  let s := fresh s
  .next (if mainUp s && !s.sup.ballsFloat then
    fault .pmu 8 (blockId .pmu) (kickLow 1 (kickLow 0 (allPscLow { s with sup := { s.sup with ballsFloat := true } })))
  else s)

/-- CORE_PG_LOW (R67): 2 µs or more outside a transition is FT in PMU, and SAFE with PSC low. -/
def execCorePgLow (ns : Nat) (s : State) : Res :=
  let s := fresh s
  .next (if mainUp s && decide (ns ≥ 2000) && s.pmu.inProg.isNone && s.pmu.change.isNone then
    fatal .pmu 9 { s with sup := { s.sup with corePg := false } }
  else s)

/-- REF25_LOSS (R70, R396): no edge for 4 µs; lane time runs on from AON_RC, the core clocks run from the holdover oscillator at the frequencies
of OPP-L, the links stop, and CRU records FT. -/
def execRef25Loss (ns : Nat) (s : State) : Res :=
  let s := fresh s
  .next (if mainUp s && decide (ns ≥ 4000) && s.clk.refLost.isNone then
    fault .cru 8 (blockId .cru) (linksStop { s with
      clk := { s.clk with refLost := some s.now, refBack := none, frac := 0 }
      pmu := { s.pmu with clkOpp := 1 } })
  else s)

/-- REF25_RETURN (R70, R396, R398): TB_CLK resumes from the counter's value; ±2 % of the interval joins the bound, and the epoch stays
DEGRADED. -/
def execRef25Return (s : State) : Res :=
  let s := fresh s
  match s.clk.refLost with
  | none => .next s
  | some t =>
    .next (levelOver .cru 8 { s with clk := { s.clk with
      boundE6 := s.clk.boundE6 + (s.now - t) * 20000, quality := 2, refLost := none, refBack := some s.now } })

/-- PLL_UNLOCK (R408): FT for a core PLL or the TB_CLK PLL, UC for the SuperSpeed TX PLL, with every SuperSpeed link in EI. -/
def execPllUnlock (w : Pll) (s : State) : Res :=
  let s := fresh s
  if !mainUp s then .next s
  else match w with
    | .core => .next (fault .cru 9 (blockId .cru) { s with clk := { s.clk with corePllLock := false } })
    | .tb => .next (fault .cru 9 (blockId .cru) { s with clk := { s.clk with tbPllLock := false } })
    | .ssTx => .next (fault .cru 10 (blockId .cru) { s with clk := { s.clk with ssPllLock := false } })

/-- SS_PLL_RELOCK (R408): the SuperSpeed links leave EI. -/
def execSsPllRelock (s : State) : Res :=
  let s := fresh s
  .next (if mainUp s then levelOver .cru 10 { s with clk := { s.clk with ssPllLock := true } } else s)

/-- XTAL32K_FAIL (R69): an amplitude below threshold for 2 ms changes AON_32K to the fallback, with a CE in LOVAGE. -/
def execXtal32kFail (ns : Nat) (s : State) : Res :=
  let s := fresh s
  .next (if s.sup.aon && !s.sup.porLow && decide (ns ≥ 2000000) && !s.clk.fallback then
    fault .lovage 8 (blockId .lovage) { s with clk := { s.clk with fallback := true } }
  else s)

/-- XTAL32K_SWITCH_TO_CRYSTAL (R69): after the crystal has run stably for 1 s. -/
def execXtal32kSwitchToCrystal (stableNs : Nat) (s : State) : Res :=
  let s := fresh s
  .next (if s.sup.aon && !s.sup.porLow && decide (stableNs ≥ 1000000000) then { s with clk := { s.clk with fallback := false } } else s)

/-- AON_RC_CALIBRATION (R69): the ratio of TB_CLK to AON_RC in millionths, kept while the main group is present. -/
def execAonRcCalibration (ratioE6 : Nat) (s : State) : Res :=
  let s := fresh s
  .next (if mainUp s && s.clk.tbOn && s.clk.refLost.isNone then { s with clk := { s.clk with calE6 := ratioE6 } } else s)

/-- AON_LOW (R408): VDD_AON below 0.76 V for 1 ms. -/
def execAonLow (ns : Nat) (s : State) : Res :=
  let s := fresh s
  .next (if s.sup.aon && !s.sup.porLow && decide (ns ≥ 1000000) then fault .lovage 9 (blockId .lovage) s else s)

/-- STATUS_WORD reports a fault: any bit but BUSY, in the PMBus layout (PRESUMED, log entry 40). -/
def statusFault (w : BitVec 16) : Bool := (w &&& 0xFF7F) != 0

/-- The core regulator answers its polls (R65, R67). -/
def regPolled (s : State) : Bool := mainUp s && s.sup.ready && !s.reg.absent

/-- CORE_REG_STATUS_POLL (R65, R67): where STATUS_WORD shows a fault STATUS_VOUT and STATUS_IOUT are read; with CORE_PG high it is UC in PMU,
and CLEAR_FAULTS follows it. -/
def execCoreRegStatusPoll (status : BitVec 16) (iout : Nat) (statusVout statusIout : Byte) (s : State) : Res :=
  let s := fresh s
  if !regPolled s then .next s
  else
    let bad := statusFault status
    let s1 := { s with reg := { s.reg with
      status := status, iout := iout
      statusVout := if bad then statusVout else s.reg.statusVout
      statusIout := if bad then statusIout else s.reg.statusIout } }
    .next (if bad && s.sup.corePg then pmbWrite 0x03 [] (fault .pmu 12 (blockId .pmu) s1) else s1)

/-- CORE_REG_TEMP_POLL (R65). -/
def execCoreRegTempPoll (temp : Nat) (s : State) : Res :=
  let s := fresh s
  .next (if regPolled s then { s with reg := { s.reg with temp := temp } } else s)

end Sys2Proof.Machine
end

