-- ==== Sys2Proof/Machine/Descriptors.lean ====
section
/-! DEFINITION. The descriptor values of the virtual hubs and of their LMFs (R1, R110, R112, R154, R163). No row of the table reads a
descriptor: these are what a host's reads return. -/

set_option Elab.async false

namespace Sys2Proof.Machine

/-! ### The LMF (R110, R163) -/

/-- The LMF of a hub is enabled: slot 1 of the list in force holds it (R104, R110). -/
def lmfEnabled (s : State) (u : US) : Bool := (hubOf s u).active.head? == some .lmf

/-- The max packet of the LMF's bulk endpoints: SuperSpeed, high speed, or a companion hub at full speed (R110, R163). -/
def lmfBulkMps (s : State) (u : US) : Nat :=
  if lmfHere s u true then 1024 else if (usOf s u).speed2 = 1 then 64 else 512

/-- An endpoint as a descriptor gives it. -/
structure EpDescr where
  address : Nat
  typ : EpType
  mps : Nat
  interval : Nat := 0
  deriving DecidableEq, Repr

/-- What the descriptors of an LMF say (R110). -/
structure LmfDescr where
  idVendor : Nat := 0x3C91
  idProduct : Nat := 0x716C
  interface : Nat := 0
  triple : Nat × Nat × Nat := (0xFF, 0x4C, 0x01)
  endpoints : List EpDescr
  maxPower : Nat := 0
  deriving DecidableEq, Repr

/-- The LMF's descriptors: bulk endpoint 1 both ways, and interrupt endpoint 2 IN every microframe (R110). -/
def lmfDescr (s : State) (u : US) : LmfDescr :=
  { endpoints := [{ address := 0x01, typ := .bulk, mps := lmfBulkMps s u }, { address := 0x81, typ := .bulk, mps := lmfBulkMps s u },
                  { address := 0x82, typ := .interrupt, mps := 64, interval := 1 }] }

/-! ### The hubs (R1, R112) -/

/-- ASCII text as a list of bytes. -/
def ascii (t : String) : List Byte := t.toList.map (fun c => BitVec.ofNat 8 c.toNat)

/-- The serial number with the suffix of its upstream port (R112). -/
def hubSerial (u : US) : List Byte := (List.range 16).map Config.serial ++ ascii (match u with | .us0 => "-U0" | .us1 => "-U1")

/-- What the descriptors of one hub of the pair say of it (R112); what the spec does not list is as USB prescribes for a self-powered hub. -/
structure HubDescr where
  bcdUSB : Nat
  protocol : Nat
  idVendor : Nat := 0x3C91
  idProduct : Nat
  bcdDevice : Nat := 0x0420
  manufacturer : List Byte := ascii "Vangimar"
  product : List Byte := ascii "Brialor BL7162 Lane Hub"
  serial : List Byte
  containerId : BitVec 128
  attributes : Nat := 0xE0
  maxPower : Nat := 0
  alternates : List (Nat × Nat)
  ports : Nat
  characteristics : Nat
  pwrOn2PwrGood : Nat := 10
  contrCurrent : Nat := 0
  hdrDecLat : Option Nat
  hubDelay : Option Nat
  removable : Nat
  deriving DecidableEq, Repr

/-- wHubCharacteristics: individual port power switching, the compound-device bit, individual over-current protection; think time and port
indicators 0 (R112). -/
def hubCharacteristics (s : State) (u : US) : Nat := 1 + 4 * b2n (lmfEnabled s u) + 8

/-- The descriptors of a hub of the pair (R112). Alternates are the alternate settings of interface 0 with their protocols. -/
def hubDescr (s : State) (u : US) (ss : Bool) : HubDescr :=
  { bcdUSB := if ss then 0x0320 else 0x0210
    protocol := if ss then 3 else 2
    idProduct := if ss then 0x7162 else 0x7160
    serial := hubSerial u
    containerId := Config.containerId (List.range 16 |>.map Config.serial) u.idx.val
    alternates := if ss then [] else [(0, 1), (1, 2)]
    ports := (hubOf s u).active.length
    characteristics := hubCharacteristics s u
    hdrDecLat := if ss then some 1 else none
    hubDelay := if ss then some 250 else none
    removable := 2 * b2n (lmfEnabled s u) }

/-! ### The BOS descriptor of a SuperSpeed hub (R154) -/

/-- A sublink speed: its generation and its lanes, the same both ways. -/
abbrev Sublink := Nat × Nat

/-- The capabilities of a SuperSpeed hub's BOS descriptor (R154). -/
structure BosDescr where
  speedsSupported : Nat := 0x000E
  u1DevExitLat : Nat := 0x02
  u2DevExitLat : Nat := 0x0080
  sublinks : List Sublink
  containerId : BitVec 128
  deriving DecidableEq, Repr

/-- The BOS descriptor of a virtual hub's SuperSpeed hub (R154). -/
def bosDescr (s : State) (u : US) : BosDescr :=
  { sublinks := match u with
      | .us0 => [(1, 1), (2, 1), (2, 2)]
      | .us1 => [(1, 1), (2, 1)]
    containerId := (hubDescr s u true).containerId }

end Sys2Proof.Machine
end

