-- ==== Sys2Proof/Machine/LmfPath.lean ====
section
/-! DEFINITION. The LMFs' endpoints (R32, R110, R193, R437, R439). -/

set_option Elab.async false

namespace Sys2Proof.Machine

/-! ### Classes, tags and the priority bound (R19, R32, R193) -/

/-- Bytes of the priority class may cross an upstream link now: within 16 KB a microframe, with a tag of the class's pool (R19, R32). -/
def prioGo (s : State) (u : US) (n : Nat) : Bool := tagFree s 0 none && decide ((linkOf s (usPort u)).prioUsed + n ≤ 16384)

/-- Bytes of the priority class charged to an upstream link (R32). -/
def prioCharge (u : US) (n : Nat) (s : State) : State := modLink (usPort u) (fun l => { l with prioUsed := l.prioUsed + n }) s

/-- A bulk IN transfer in packets, ended by a short or a zero-length one (R110, R437). -/
def lmfPackets (u : US) (data : List Byte) (s : State) : State :=
  let m := lmfBulkMps s u
  let ps := chunks m data
  let s1 := ps.foldl (fun s p => emit (.bulkIn u p) s) s
  if data.length % m = 0 then emit (.bulkIn u []) s1 else s1

/-! ### Endpoints (R437, R439) -/

/-- An LMF's transport state replaced. -/
def setLmf (u : US) (l : Lmf) (m : Mbx) : Mbx := { m with lmf := m.lmf.set u.idx l }

/-- LMF_CMD0_SUBMIT (R32, R437): a command in whole slots to CMD0, or STALL; what passes the priority class's bound waits. -/
def execLmfCmd0Submit (u : US) (wLength : Nat) (data : List Byte) (s : State) : Res :=
  let s := dueTick (fresh s)
  if !lmfUp s u then .next s
  else if wLength = 0 ∨ wLength % 64 ≠ 0 ∨ wLength > 1024 then .next (emit (.stall u) s)
  else if !prioGo s u wLength then .next (emit (.nak u) s)
  else
    let x := cmd0Append (.lmf u) (slice data 0 wLength) s.mbx
    .next (if x.2 then { (emit (.control u []) (prioCharge u wLength s)) with mbx := x.1 } else emit (.stall u) s)

/-- The waiting CPL0 entries of an LMF that fit whole into the room left, oldest first (R437). -/
def takeCpl0 (u : US) (m : Mbx) : Nat → List Cpl0Slot → List Byte × Nat
  | _, [] => ([], 0)
  | room, e :: t =>
    if Transport.lmf u ∉ e.waits then takeCpl0 u m room t
    else if 64 * e.slots > room then ([], 0)
    else
      let x := takeCpl0 u m (room - 64 * e.slots) t
      (readSlots m.rings[(8 : Fin 16)] m.mem e.idx e.slots ++ x.1, if x.2 = 0 then e.idx + e.slots + 65536 else x.2)

/-- LMF_CPL0_FETCH (R32, R437): whole CPL0 entries of this LMF, consumed as they are returned. -/
def execLmfCpl0Fetch (u : US) (wLength : Nat) (s : State) : Res :=
  let s := dueTick (fresh s)
  if !lmfUp s u then .next s
  else if wLength < 64 ∨ wLength > 1024 ∨ wLength % 64 ≠ 0 then .next (emit (.stall u) s)
  else match oldestCpl0 (.lmf u) s.mbx with
    | none => .next (emit (.control u []) s)
    | some (_, e) =>
      if 64 * e.slots > wLength then .next (emit (.stall u) s)
      else
        let x := takeCpl0 u s.mbx wLength s.mbx.cpl0
        if !prioGo s u x.1.length then .next (emit (.nak u) s)
        else .next { (emit (.control u x.1) (prioCharge u x.1.length s)) with
          mbx := flushCpl s.now 0 (cpl0Consume (.lmf u) (x.2 % 65536) s.mbx) }

/-- LMF_RING_STATUS (R437): the indices and loss counts; reading clears the counts and the three flags. -/
def execLmfRingStatus (u : US) (s : State) : Res :=
  let s := dueTick (fresh s)
  if !lmfUp s u then .next s
  else
    let m := s.mbx
    let c := m.rings[cmdRing (lmfPair u)]
    let p := m.rings[cplRing (lmfPair u)]
    let l := m.lmf[u.idx]
    let d := le 2 c.head ++ le 2 c.tail ++ le 2 p.head ++ le 2 p.tail ++ le 2 m.cpl0Idx[viaIdx (.lmf u)] ++ le 2 0 ++
      le 2 l.merged ++ le 2 l.freed
    .next { (emit (.control u d) s) with
      mbx := setLmf u { l with merged := 0, freed := 0, evLost := false, cpl0Lost := false, restarted := false } m }

/-- LMF_RING_RESET (R437, R438): a ring reset on its own pair. -/
def execLmfRingReset (u : US) (s : State) : Res :=
  let s := dueTick (fresh s)
  if !lmfUp s u then .next s
  else .next { (emit (.control u []) s) with mbx := ringReset s.now [] (lmfPair u) s.mbx }

/-- LMF_BULK_OUT (R110, R437): one packet of a bulk OUT transfer, accepted while the command ring has room for it beside the slots
already received; at the transfer's end TAIL advances once. -/
def execLmfBulkOut (u : US) (packet : List Byte) (last : Bool) (s : State) : Res :=
  let s := dueTick (fresh s)
  if !lmfUp s u then .next s
  else
    let l := s.mbx.lmf[u.idx]
    let all := l.rx ++ packet
    if packet.length > lmfBulkMps s u then .next s
    else if (all.length + 63) / 64 > ringFree s.mbx.rings[cmdRing (lmfPair u)] || !tagFree s 3 none then .next (emit (.nak u) s)
    else if last then
      .next { (emit (.ack u) s) with mbx := setLmf u { l with rx := [] } (ringAppend (lmfPair u) all s.mbx) }
    else .next { (emit (.ack u) s) with mbx := setLmf u { l with rx := all } s.mbx }

/-- LMF_BULK_IN (R437): whole completion entries, each consumed as it is sent, to the last entry ready; NAK while none is. -/
def execLmfBulkIn (u : US) (s : State) : Res :=
  let s := dueTick (fresh s)
  if !lmfUp s u then .next s
  else
    let r := cplRing (lmfPair u)
    let g := s.mbx.rings[r]
    if ringCount g = 0 || !tagFree s 3 none then .next (emit (.nak u) s)
    else
      .next { (lmfPackets u (readSlots g s.mbx.mem g.head (ringCount g)) s) with
        mbx := headWrite s.now r g.tail s.mbx }

/-- The LMF's 8-byte report (R437). -/
def lmfReport (s : State) (u : US) : List Byte :=
  let m := s.mbx
  let p := m.rings[cplRing (lmfPair u)]
  let l := m.lmf[u.idx]
  le 2 (countEntries p m.mem 1024 p.head (ringCount p)) ++
  le 2 (m.cpl0.filter (fun e => decide (Transport.lmf u ∈ e.waits))).length ++
  le 2 (ringFree m.rings[cmdRing (lmfPair u)]) ++
  le 1 (b2n l.evLost + 2 * b2n l.cpl0Lost + 4 * b2n l.restarted) ++ [0]

/-- LMF_INTERRUPT_REPORT (R437): the report, at most once per microframe and only when a field has changed. -/
def execLmfInterruptReport (u : US) (s : State) : Res :=
  let s := dueTick (fresh s)
  if !lmfUp s u then .next s
  else
    let l := s.mbx.lmf[u.idx]
    let d := lmfReport s u
    if d = l.lastReport || l.reportAt == some (s.now / 125000) || !tagFree s 2 none then .next (emit (.nak u) s)
    else
      .next { (emit (.report u d) s) with
        mbx := setLmf u { l with lastReport := d, reportAt := some (s.now / 125000) } s.mbx }

/-- LMF_SET_CONFIGURATION (R439): after an upstream reset, the host's next configuration resets the LMF's rings. -/
def execLmfSetConfiguration (u : US) (s : State) : Res :=
  let s := dueTick (fresh s)
  if !lmfUp s u then .next s
  else
    let l := s.mbx.lmf[u.idx]
    let m := setLmf u { l with configured := true, resetDue := false, rx := [] } s.mbx
    .next { (emit (.control u []) s) with mbx := if l.resetDue then ringReset s.now [] (lmfPair u) m else m }

end Sys2Proof.Machine
end

