-- ==== Sys2Proof/Machine/Ports.lean ====
section
/-! DEFINITION. Hub requests on ports, attach and detach on the data lines, suspend, resume and remote wake, and status
change reporting (R108, R113, R127, R129, R285–R299). -/

set_option Elab.async false

namespace Sys2Proof.Machine

/-! ### Ownership moves and reconnection -/

/-- MOVE_DRAIN_COMPLETE, and what failover records of it (R273). -/
def execMoveDrainComplete (d : DS) (s : State) : Res :=
  let m := s.own.move[d]
  .next (failoverMoved d m (moveDrained d (fresh s)))

/-- HUB_RECONNECT (R108): after 10 ms disconnected the hub connects to its host again, with its new slot list. -/
def hubReconnect (u : US) (s : State) : State :=
  match (hubOf s u).reconnectAt with
  | none => s
  | some t =>
    let s := advanceTo t s
    let s1 := modHub u (fun h => { h with reconnectAt := none }) s
    let s2 := finalCpl (.reconnect u none) stOk (assignResult false none) (hubConnect u s1)
    finalCpl (.reconnect u (some true)) stOk (assignResult true (some u))
      (finalCpl (.reconnect u (some false)) stOk (assignResult false (some u)) s2)

/-- HUB_RECONNECT. -/
def execHubReconnect (u : US) (s : State) : Res := .next (hubReconnect u (fresh s))

/-! ### Vendor port status (R129, R130) -/

/-- The virtual port a wIndex names, or none for 0 or above the slot count. -/
def wIndexSlot (s : State) (u : US) (w : Nat) : Option (Fin 15) :=
  if h : 1 ≤ w ∧ w ≤ 15 then (if w ≤ (hubOf s u).active.length then some ⟨w - 1, by omega⟩ else none) else none

/-- The hub requests of a virtual hub are answered: it is connected to its host. -/
def hubUp (s : State) (u : US) (ss : Bool) : Bool :=
  (hubOf s u).connected && (!ss || (usOf s u).link != .rxDetect)

/-- GET_PORT_VENDOR_STATUS (R129): the vendor port status word, or STALL. -/
def execGetPortVendorStatus (u : US) (ss : Bool) (wIndex : Nat) (s : State) : Res :=
  let s := fresh s
  if !hubUp s u ss then .next s
  else match wIndexSlot s u wIndex with
    | none => .next (emit (.stall u) s)
    | some v => .next (emit (.control u (le 4 (vendorWord s u v))) s)

/-- CLEAR_PORT_VENDOR_STATUS (R129, R130): the RW1C bits that wValue names; no effect on a slot not owned. -/
def execClearPortVendorStatus (u : US) (ss : Bool) (wIndex : Nat) (mask : BitVec 16) (s : State) : Res :=
  let s := fresh s
  if !hubUp s u ss then .next s
  else match wIndexSlot s u wIndex with
    | none => .next (emit (.stall u) s)
    | some v =>
      let s1 := emit (.control u []) s
      .next (match ownedAt s u v with
        | some d =>
          modDs d (fun x => { x with movedIn := x.movedIn && !mask.getLsbD 11 })
            (modSlot u v (fun x => { x with coincident := x.coincident && !mask.getLsbD 4 }) s1)
        | none => s1)

/-! ### Port features (R113, R131, R157, R295, R298) -/

/-- SET_PORT_POWER (R113, R521): stored on the slot, and on an owned slot the port is powered again by a fresh attach. -/
def execSetPortPower (u : US) (ss : Bool) (v : Fin 15) (s : State) : Res :=
  let s := fresh s
  if !hubUp s u ss then .next s
  else
    let s1 := modSlot u v (fun x => { x with power := true }) s
    .next (match ownedAt s u v with
      | some d => repower (dsPort d) s1
      | none => s1)

/-- CLEAR_PORT_POWER (R113, R491): stored on the slot, and on an owned slot the stage is disabled, VBUS discharged and a test mode left. -/
def execClearPortPower (u : US) (ss : Bool) (v : Fin 15) (s : State) : Res :=
  let s := fresh s
  if !hubUp s u ss then .next s
  else
    let s1 := modSlot u v (fun x => { x with power := false }) s
    .next (match ownedAt s u v with
      | some d => portOff (dsPort d) (modDs d (fun x => { x with test2 := 0 }) s1)
      | none => s1)

/-- SET_HUB_DEPTH (R131): the route-string depth of the SuperSpeed hub. -/
def execSetHubDepth (u : US) (depth : Nat) (s : State) : Res :=
  let s := fresh s
  .next (if hubUp s u true then emit (.control u []) (modHub u (fun h => { h with depth := depth }) s) else s)

/-- SET_PORT_U1_U2_TIMEOUT (R157): the U1 or U2 timeout of a SuperSpeed hub port, kept by the owning host's slot. -/
def execSetPortU1U2Timeout (u : US) (v : Fin 15) (isU2 : Bool) (value : Byte) (s : State) : Res :=
  let s := fresh s
  .next (if hubUp s u true then
      modSlot u v (fun x => if isU2 then { x with u2 := value.toNat } else { x with u1 := value.toNat }) s
    else s)

/-- SET_PORT_REMOTE_WAKE_MASK (R295): connect, disconnect and over-current, in bits 0–2. -/
def execSetPortRemoteWakeMask (u : US) (v : Fin 15) (mask : BitVec 3) (s : State) : Res :=
  let s := fresh s
  .next (if hubUp s u true then modSlot u v (fun x => { x with wakeMask := mask.toNat }) s else s)

/-- CLEAR_PORT_CHANGE_FEATURE (R298). -/
def execClearPortChangeFeature (u : US) (ss : Bool) (v : Fin 15) (c : Change) (s : State) : Res :=
  let s := fresh s
  .next (if hubUp s u ss then
      modSlot u v (fun x =>
        if ss then { x with chg3 := x.chg3.filter (· ≠ c) } else { x with chg2 := x.chg2.filter (· ≠ c) }) s
    else s)

/-- The status-change bitmap of a hub: bit n is slot n (R298). -/
def statusBitmap (s : State) (u : US) (ss : Bool) : Nat :=
  ((List.range 15).map (fun i =>
    if h : i < 15 then
      let x := slotSt s u ⟨i, h⟩
      b2n (!(if ss then x.chg3 else x.chg2).isEmpty) * 2 ^ (i + 1)
    else 0)).foldl (· + ·) 0

/-- HUB_STATUS_POLL (R298): the bitmap, or NAK while no bit is set. -/
def execHubStatusPoll (u : US) (ss : Bool) (s : State) : Res :=
  let s := fresh s
  if !hubUp s u ss then .next s
  else
    let b := statusBitmap s u ss
    .next (if b = 0 then emit (.nak u) s else emit (.hubStatus u ss b) s)

/-! ### Attach on the data lines (R285, R286) -/

/-- The owning slot's report of a connection (R285, R298), and the PORT event of the attach; it waits while the hub is
suspended (R297) or the port cannot be presented. -/
def presentConn (d : DS) (ss : Bool) (s : State) : State :=
  let s0 := modDs d (fun x => if ss then { x with shown3 := true } else { x with shown2 := true }) s
  let held := match ownerOf s d with
    | some u => if ss then (usOf s u).susp3 else (usOf s u).susp2
    | none => false
  let s1 := if held then modDs d (fun x => if ss then { x with late3 := true } else { x with late2 := true }) s0
    else if presentable s0 d then chgPort d ss .connection s0 else s0
  let both := (dsOf s d).shown2 || (dsOf s d).shown3
  if both then s1 else portEvent (dsPort d) 0 [] [] (deviceArrived d ss s1)

/-- SS_RECEIVER_DETECT_START (R285, step 3). -/
def execSsReceiverDetectStart (d : DS) (s : State) : Res :=
  let s := fresh s
  let x := dsOf s d
  .next (if x.watch && !portFenced s (dsPort d) && ssAllowed s d && !ssHeldByDp s d && !x.ssFailed && x.link == .rxDetect && s.clk.ssPllLock then
      modDs d (fun x => { x with rxDet := true, link := .polling }) s
    else s)

/-- USB2_CONNECT (R285, steps 4 and 5): a pull-up held for 2.5 µs; reporting waits for the identity probe where it runs. -/
def execUsb2Connect (d : DS) (low : Bool) (ns : Nat) (s : State) : Res :=
  let s := fresh s
  let x := dsOf s d
  if !x.watch || x.conn2 || decide (ns < 2500) then .next s
  else
    let s1 := modDs d (fun x => { x with conn2 := true, speed2 := some (if low then .ls else .fs) }) s
    .next (if probeNeeded s && !x.probed then modDs d (fun x => { x with probing := true }) s1
      else presentConn d false s1)

/-- SS_LINK_UP (R145, R153, R285, steps 6 and 7): the link in U0 after Polling; or back in U0 after Recovery, where its retry buffer is sent
again. -/
def execSsLinkUp (d : DS) (gen2 : Bool) (s : State) : Res :=
  let s := fresh s
  let x := dsOf s d
  let p := dsPort d
  if x.link == .recovery && x.ssReset.isNone && !(linkOf s p).exiting then
    .next (flushHdr p 64 (resend p (modDs d (fun x => { x with link := .u0 }) s)))
  else if !x.rxDet || x.link != .polling || portFenced s p then .next s
  else
    let s0 := modDs d (fun x => { x with link := .u0, gen := if gen2 then 2 else 1, rxDet := false }) s
    let s1 := modLink p (freshLink s0 p) s0
    .next (if probeNeeded s && !x.probed then modDs d (fun x => { x with probing := true }) s1
      else presentConn d true s1)

/-- SS_TRAINING_FAIL (R286, R298): no second attempt until the next detach or warm reset. -/
def execSsTrainingFail (d : DS) (s : State) : Res :=
  let s := fresh s
  .next (if (dsOf s d).rxDet then
      chgPort d true .configError (modDs d (fun x => { x with rxDet := false, ssFailed := true, link := .rxDetect, gen := 0 }) s)
    else s)

/-- IDENTITY_PROBE (R127): the rules are matched from the probe's reads; the device is then reported, at the speed its match
calls for, unless BLOCK withholds it. -/
def execIdentityProbe (d : DS) (id : DevId) (s : State) : Res :=
  let s := fresh s
  if !(dsOf s d).probing then .next s
  else
    let s0 := modDs d (fun x => { x with probing := false, probed := true }) (applyRules d id true s)
    let q := (dsOf s0 d).quirks
    let s1 := putSeen d 0 { rule := (dsOf s0 d).rule, quirks := q, done := true } s0
    let s2 := modDs d (fun x => if bit q 1 then { x with link := .rxDetect, gen := 0, rxDet := false } else x) s1
    let x := dsOf s2 d
    let s3 := if x.conn2 && !x.shown2 then presentConn d false s2 else s2
    .next (if x.link == .u0 && !x.shown3 then presentConn d true s3 else s3)

/-! ### Detach (R289) -/

/-- USB2_DISCONNECT (R289): SE0 for 2.5 µs at full or low speed, or the high-speed envelope, outside reset; VBUS is kept. -/
def execUsb2Disconnect (d : DS) (ns : Nat) (s : State) : Res :=
  let s := fresh s
  let x := dsOf s d
  if !x.conn2 || x.resetAt.isSome || (x.speed2 != some .hs && decide (ns < 2500)) then .next s
  else .next (detachData d true false s)

/-- SS_DISCONNECT (R289): the link left U0 and receiver detection found no termination; with a termination found the link
is in SS.Inactive and the failure is reported (R160, R298). -/
def execSsDisconnect (d : DS) (noTerm : Bool) (s : State) : Res :=
  let s := fresh s
  let x := dsOf s d
  if x.link == .rxDetect || x.link == .polling then .next s
  else if noTerm then .next (detachData d false true s)
  else .next (chgPort d true .linkState (dropStored d (modDs d (fun x => { x with link := .inactive }) s)))

/-! ### Suspend (R290, R291) -/

/-- PORT_SUSPEND_REQUEST (R290): selective suspend; a SuperSpeed port enters U3 once the device has acknowledged. -/
def execPortSuspendRequest (u : US) (ss : Bool) (v : Fin 15) (s : State) : Res :=
  let s := fresh s
  if !hubUp s u ss then .next s
  else match ownedAt s u v with
    | none => .next s
    | some d =>
      let x := dsOf s d
      if ss then
        .next (if x.link == .u0 || x.link == .u1 || x.link == .u2 then
            modDs d (fun x => { x with u3Entry := true, suspHost3 := true }) s
          else s)
      else .next (if x.enable && x.resetAt.isNone then modDs d (fun x => { x with suspHost2 := true }) s else s)

/-- U3_ENTRY_COMPLETE (R159, R160, R290): acknowledged, the link is in U3, which it asks for only once nothing is under way; else it enters
SS.Inactive with C_PORT_LINK_STATE. -/
def execU3EntryComplete (d : DS) (acked : Bool) (s : State) : Res :=
  let s := fresh s
  if !(dsOf s d).u3Entry || (acked && !linkQuiet s (dsPort d)) then .next s
  else if acked then .next (modDs d (fun x => { x with u3Entry := false, link := .u3 }) s)
  else .next (chgPort d true .linkState (dropStored d
    (modDs d (fun x => { x with u3Entry := false, link := .inactive, suspHost3 := false, suspHub3 := false }) s)))

/-- COMPANION_UPSTREAM_SUSPEND (R245, R291): every owned port that is enabled and not host-suspended is hub-suspended; a
port still driving its own resume is marked when that ends (R297). -/
def execCompanionUpstreamSuspend (u : US) (s : State) : Res :=
  let s := fresh s
  if !(hubOf s u).connected then .next s
  else
    let s1 := modUs u (fun x => { x with susp2 := true, l1 := false }) s
    let s2 := allDs.foldl (fun s d =>
      let x := dsOf s d
      if ownerOf s d == some u && x.enable && !x.suspHost2 && x.resumeAt.isNone && !underVigil s d then
        modDs d (fun x => { x with suspHub2 := true }) s
      else s) s1
    .next (hubPresence u s2)

/-- SS_UPSTREAM_U3 (R159, R245, R291): the upstream link enters U3 once every packet under way and its retry buffer are through. -/
def execSsUpstreamU3 (u : US) (s : State) : Res :=
  let s := fresh s
  if !(hubOf s u).connected then .next s
  else .next (enterU3 u (modUs u (fun x => { x with u3Want := true }) s))

/-! ### Resume (R292, R293, R296) -/

/-- The owned port whose wake is qualified and whose upstream signalling has not started (R296). -/
def collidingPort (s : State) (u : US) : Option DS :=
  allDs.find? (fun d => ownerOf s d == some u &&
    (match (dsOf s d).wakeOpen with | some t => inWindow t (t + 100000) s.now | none => false))

/-- A collision recorded (R296): COINCIDENT_WAKE on the waking port's slot, counted, and no upstream signal for it. -/
def recordCollision (d : DS) (s : State) : State :=
  let s1 := modDs d (fun x => { x with coincident := x.coincident + 1, wakeOpen := none }) s
  match owningSlot s1 d with
  | some (u, v) => modSlot u v (fun x => { x with coincident := true }) s1
  | none => s1

/-- A host's resume of its hub recorded and, from SUSPEND, acted on as a wake (R296, R390, R393). -/
def hostResumeWake (u : US) (cls : Nat) (s : State) : State :=
  let c := collidingPort s u
  let s1 := match c with | some d => recordCollision d s | none => s
  wakeRecorded cls (usCode u) 0 ((c.map dsCode).getD 0) s1

/-- HOST_RESUME_K (R292): K on every owned port that is hub-suspended; K held for 2.5 µs is recognised. -/
def execHostResumeK (u : US) (ns : Nat) (s : State) : Res :=
  let s := fresh s
  if !(usOf s u).susp2 || decide (ns < 2500) then .next s
  else
    let s1 := hostResumeWake u 1 s
    let s2 := modUs u (fun x => { x with susp2 := false, resume2 := some s.now, upK := none }) s1
    let s3 := allDs.foldl (fun s d =>
      let x := dsOf s d
      if ownerOf s d == some u && x.suspHub2 && x.resumeAt.isNone then
        modDs d (fun x => { x with resumeAt := some s.now, resumeKind := .hub }) s
      else s) s2
    .next (hubPresence u s3)

/-- HOST_RESUME_EOP (R292): each port that the hub resumes ends its K, and traffic resumes; wake-pending ports finish. -/
def execHostResumeEop (u : US) (s : State) : Res :=
  let s := fresh s
  if (usOf s u).resume2.isNone then .next s
  else
    let s1 := modUs u (fun x => { x with resume2 := none, lastSof := some s.now }) s
    .next (presentWaiting u (allDs.foldl (fun s d =>
      let x := dsOf s d
      if ownerOf s d == some u && (x.suspHub2 || x.wakePend2) then
        modDs d (fun x => { x with suspHub2 := false, wakePend2 := false
                                   resumeAt := if x.resumeKind == .hub then none else x.resumeAt }) s
      else s) s1))

/-- HOST_U3_EXIT (R292, steps 5 and 6): the upstream link in U0 starts the U3 exit of every hub-suspended owned port. -/
def execHostU3Exit (u : US) (s : State) : Res :=
  let s := fresh s
  if !(usOf s u).susp3 then .next s
  else
    let s1 := hostResumeWake u 2 s
    let s2 := modUs u (fun x => { x with susp3 := false, link := .u0, upLfps := false }) s1
    let s3 := allDs.foldl (fun s d =>
      let x := dsOf s d
      if ownerOf s d == some u && x.suspHub3 && x.link == .u3 && x.u3Exit.isNone then
        modDs d (fun x => { x with u3Exit := some .hub }) s
      else if ownerOf s d == some u && x.wakePend3 then
        modDs d (fun x => { x with wakePend3 := false, suspHub3 := false }) s
      else s) s2
    .next (presentWaiting u (hubPresence u s3))

/-- USB2_PORT_RESUME_REQUEST (R293): K for 20.0–20.5 ms; on a hub-suspended port the request completes at once. -/
def execUsb2PortResumeRequest (u : US) (v : Fin 15) (s : State) : Res :=
  let s := fresh s
  if !hubUp s u false then .next s
  else match ownedAt s u v with
    | none => .next s
    | some d =>
      let x := dsOf s d
      if x.suspHub2 then .next (modDs d (fun x => { x with suspHost2 := false }) s)
      else if x.suspHost2 && x.resumeAt.isNone then
        .next (modDs d (fun x => { x with resumeAt := some s.now, resumeKind := .host, suspHost2 := false }) s)
      else .next s

/-- USB2_PORT_RESUME_END (R293, R294, R297): 20.0 ms of K and the EOP; a host-suspended port sets C_PORT_SUSPEND, and a hub
suspended meanwhile marks the port. -/
def execUsb2PortResumeEnd (d : DS) (s : State) : Res :=
  let s := fresh s
  let x := dsOf s d
  match x.resumeAt with
  | none => .next s
  | some t =>
    if x.resumeKind == .hub then .next s
    else
      let s := advanceTo (t + 20000000) s
      let change := x.resumeKind == .host || x.suspHost2
      let hubDown := match ownerOf s d with | some u => (usOf s u).susp2 | none => false
      let s1 := modDs d (fun x => { x with resumeAt := none, suspHost2 := false, suspHub2 := hubDown }) s
      .next (if change then chgPort d false .suspend s1 else s1)

/-- SS_PORT_RESUME_REQUEST (R293): the port's U3 exit starts; on a hub-suspended port the request completes at once. -/
def execSsPortResumeRequest (u : US) (v : Fin 15) (s : State) : Res :=
  let s := fresh s
  if !hubUp s u true then .next s
  else match ownedAt s u v with
    | none => .next s
    | some d =>
      let x := dsOf s d
      if x.suspHub3 then .next (modDs d (fun x => { x with suspHost3 := false }) s)
      else if x.link == .u3 && x.u3Exit.isNone then
        .next (modDs d (fun x => { x with u3Exit := some .host, suspHost3 := false }) s)
      else .next s

/-- U3_EXIT_COMPLETE (R292–R294): in U0 the suspend marks clear, with C_PORT_LINK_STATE for a device's own resume; a failed
exit enters SS.Inactive and sets it. -/
def execU3ExitComplete (d : DS) (reached : Bool) (s : State) : Res :=
  let s := fresh s
  let x := dsOf s d
  match x.u3Exit with
  | none => .next s
  | some k =>
    let s0 := modDs d (fun x => { x with u3Exit := none }) s
    if !reached then
      .next (chgPort d true .linkState (dropStored d
        (modDs d (fun x => { x with link := .inactive, suspHost3 := false, suspHub3 := false }) s0)))
    else
      let s1 := modDs d (fun x => { x with link := .u0, suspHub3 := x.wakePend3, suspHost3 := false }) s0
      .next (if k == .device && (x.suspHost3 || !x.wakePend3) then chgPort d true .linkState s1 else s1)

/-! ### Remote wake (R294, R295) -/

/-- The hub lets a wake on one of its links through (R294). -/
def wakeEnabled (s : State) (u : US) (ss : Bool) : Bool :=
  if ss then (hubOf s u).funcWake3 else (hubOf s u).remoteWake2

/-- DEVICE_REMOTE_WAKE (R294, R296, R297, R299): the port's own resume starts; a suspended hub with remote wake enabled
opens the window before its upstream signalling, else the wake is pending until the hub's next resume. -/
def execDeviceRemoteWake (d : DS) (ss : Bool) (ns : Nat) (s : State) : Res :=
  let s := fresh s
  let x := dsOf s d
  let asleep := if ss then x.link == .u3 && x.u3Exit.isNone else (x.suspHost2 || x.suspHub2) && x.resumeAt.isNone
  let pend := if ss then x.wakePend3 else x.wakePend2
  if !asleep || pend || (!ss && decide (ns < 2500)) then .next s
  else if underVigil s d then .next s
  else
    let s := suspendWake (if ss then 2 else 1) (dsCode d) 0 s
    let s1 := modDs d (fun x =>
      if ss then { x with u3Exit := some .device }
      else { x with resumeAt := some s.now, resumeKind := .device }) s
    let hubDown := match ownerOf s d with
      | some u => if ss then (usOf s u).susp3 else (usOf s u).susp2
      | none => false
    match ownerOf s d with
    | none => .next s1
    | some u =>
      if !hubDown then .next s1
      else if wakeEnabled s u ss then .next (modDs d (fun x => { x with wakeOpen := some s.now }) s1)
      else .next (modDs d (fun x => if ss then { x with wakePend3 := true } else { x with wakePend2 := true }) s1)

/-- HUB_EVENT_REMOTE_WAKE (R295): a connect, disconnect or over-current on an owned port of a suspended hub with remote wake
enabled signals upstream; the SuperSpeed hub only for events in the port's mask. -/
def execHubEventRemoteWake (d : DS) (ss : Bool) (ev : WakeEvent) (s : State) : Res :=
  let s := fresh s
  match owningSlot s d with
  | none => .next s
  | some (u, v) =>
    let down := if ss then (usOf s u).susp3 else (usOf s u).susp2
    let n := match ev with | .connect => 0 | .disconnect => 1 | .overCurrent => 2
    let allowed := wakeEnabled s u ss && (!ss || bit (slotSt s u v).wakeMask n)
    if !down || !allowed then .next s
    else
      let s1 := emit (.upWake u ss) (suspendWake (if ss then 2 else 1) (dsCode d) 0 s)
      .next (modUs u (fun x => if ss then { x with upLfps := true, wakeBy := some d }
        else { x with upK := some s.now, wakeBy := some d }) s1)

/-- HUB_SET_FEATURE (R158, R294): a feature of the virtual hub itself. -/
def execHubSetFeature (u : US) (f : HubFeature) (on : Bool) (s : State) : Res :=
  let s := fresh s
  if !hubUp s u (match f with | .remoteWake2 => false | _ => true) then .next s
  else
    .next (modHub u (fun h => match f with
      | .u1Enable => { h with u1Enable := on }
      | .u2Enable => { h with u2Enable := on }
      | .remoteWake2 => { h with remoteWake2 := on }
      | .funcWake3 => { h with funcWake3 := on }) s)

end Sys2Proof.Machine
end

