-- ==== Sys2Proof/Machine/Balls.lean ====
section
/-! DEFINITION. The balls: the rails that each mode has, the state of each ball group by mode, and the levels of the digital balls, which boundary
scan samples and drives (R48, R50, R51, R53–R55, R57, R58, R63, R495, R496). -/

set_option Elab.async false

namespace Sys2Proof.Machine

/-! ### Rails and ball states (R50, R53–R55) -/

/-- A group of rails (R50, R61). -/
inductive RailGroup where
  | aon | a33 | memory | main
  deriving DecidableEq, Repr

/-- The rails that a mode has (R50). -/
def modeRail (m : Mode) : RailGroup → Bool
  | .aon | .a33 => m != .off
  | .memory => m != .off && m != .hibernate
  | .main => m != .off && m != .hibernate && m != .standby

/-- A group of balls: the rows of R54. -/
inductive BallGroup where
  | usSs | dsSs | usUsb2 | dsUsb2 | usCc | dsCc | sbu | vbs | psf | psc | dpin | hpd | lpddr5 | qspi | spit | aonIn | pwrReq | buses | gpio
  | kick | resetIn
  deriving DecidableEq, Repr

/-- A ball's state: the codes of R53, with the pull-down of LIO_GPIO in BOOT, and in BOOT and SAFE a kick output that is low once a started pulse
is over. -/
inductive BallCode where
  | u | fn | z | low | ei | u3 | disc | idle | sus | rpSample | drpSample | rd | opn | gd | ret | input | hold | zDown | lowAfterPulse
  deriving DecidableEq, Repr

/-- The state of a ball group in BOOT, after a cold boot or a warm restart (R54). -/
def bootCode (warm : Bool) (g : BallGroup) : BallCode :=
  let held (c : BallCode) : BallCode := if warm then .hold else c
  match g with
  | .usSs => .ei
  | .dsSs => if warm then .u3 else .ei
  | .usUsb2 => .disc
  | .dsUsb2 => .idle
  | .usCc => held .rd
  | .dsCc => held .opn
  | .sbu | .dpin => held .z
  | .psc | .hpd => held .low
  | .gpio => .zDown
  | .kick => if warm then .lowAfterPulse else .low
  | _ => .fn

/-- The state of a ball group asleep (R54). -/
def sleepCode (standby : Bool) (g : BallGroup) : BallCode := match g with
  | .usCc => .drpSample
  | .dsCc => .rpSample
  | .sbu => .gd
  | .vbs => .z
  | .lpddr5 => if standby then .ret else .u
  | .aonIn => .input
  | .pwrReq => .fn
  | _ => .u

/-- The state of a ball group in SUSPEND (R54). -/
def suspendCode (g : BallGroup) : BallCode := match g with
  | .usSs | .dsSs => .u3
  | .usUsb2 | .dsUsb2 => .sus
  | .lpddr5 => .ret
  | .qspi => .z
  | .gpio => .hold
  | _ => .fn

/-- The state of a ball group in SAFE (R54); PSC holds but where R417 drives it low. -/
def safeCode (g : BallGroup) : BallCode := match g with
  | .usSs => .ei
  | .dsSs => .u3
  | .usUsb2 => .disc
  | .dsUsb2 => .idle
  | .psc | .gpio => .hold
  | .qspi => .z
  | .kick => .lowAfterPulse
  | _ => .fn

/-- The state of a ball group in a mode (R54). -/
def ballCode (m : Mode) (warm : Bool) (g : BallGroup) : BallCode := match m with
  | .off => .u
  | .hibernate => sleepCode false g
  | .standby => sleepCode true g
  | .boot => bootCode warm g
  | .suspend => suspendCode g
  | .safe => safeCode g
  | _ => .fn

/-- A group of balls on VDDIO_1V8 alone (R48), which float when that rail is lost (R57). -/
def onIo18 (g : BallGroup) : Bool := match g with
  | .psf | .psc | .qspi | .spit | .buses | .gpio | .kick | .resetIn => true
  | _ => false

/-- The state of a ball group now: SYS_RESET_N low gives that of BOOT in a warm restart (R58). -/
def ballNow (s : State) (g : BallGroup) : BallCode :=
  if s.sup.ballsFloat && onIo18 g then .u else ballCode s.pmu.reported (s.sup.sysLow || (warmPath s && !s.sup.porLow)) g

/-- The state of a port's balls: a fenced one's are disabled (R55). -/
def portBall (s : State) (p : Port) (g : BallGroup) : BallCode :=
  if portFenced s p && !isExclusive s.pmu.reported then
    (match g with
     | .usSs | .dsSs => .ei
     | .usUsb2 => .disc
     | .dsUsb2 => .idle
     | _ => ballNow s g)
  else ballNow s g

/-! ### Levels of digital balls -/

/-- The LIO_GPIO that are outputs now: none while the balls are Z (R54, R58). -/
def gpioDir (s : State) : BitVec 16 := match ballNow s .gpio with
  | .fn | .hold => s.lio.dir
  | _ => 0

/-- The level that the controller drives on a ball by its function; none where it drives none. -/
def functionLevel (s : State) (b : Ball) : Option Bool := match b with
  | .psc p => if ballNow s .psc = .u then none else some (pwrOf s p).psc
  | .gpio n => if (gpioDir s).getLsbD n.val then some (s.lio.out.getLsbD n.val) else none
  | .kick n => if ballNow s .kick = .u then none else some s.lio.kick[n].pulse.isSome
  | .hpd i => if ballNow s .hpd = .u then none else some (s.dp[i].hpd && s.dp[i].irqAt.isNone)
  | .pwrReq => if s.sup.aon then some (decide (s.sup.pwrReq = 2)) else none
  | .ddrResetN => if s.sup.aon then some s.sup.memOn else none
  | .psf _ | .sense _ | .corePg => none

/-- The level at an input as the outside sets it; a ball that nothing drives is held low by its pull (R52, R57). -/
def inputLevel (s : State) (b : Ball) : Bool := match b with
  | .psf p => (pwrOf s p).psf
  | .gpio n => s.lio.inp.getLsbD n.val
  | .sense n => s.lio.sense.getLsbD n.val
  | .corePg => s.sup.corePg
  | _ => false

/-- The level at a ball by its function. -/
def ballLevel (s : State) (b : Ball) : Bool := (functionLevel s b).getD (inputLevel s b)

/-! ### Boundary scan (R495, R496) -/

/-- An instruction that takes effect only in recovery with no image started (R496). -/
def drivesBalls (i : Jtag) : Bool := match i with
  | .bypass | .idcode | .samplePreload => false
  | .extest | .clamp | .highz | .extestPulse | .extestTrain => true

/-- Boundary scan drives balls: recovery with no image started (R496). -/
def scanRuns (s : State) : Bool := inRecovery s && !s.fw.recDone

/-- Every ball of the boundary register, as far as its level is state. -/
def allBalls : List Ball :=
  allPorts.map .psc ++ allPorts.map .psf ++ (List.ofFn (fun n : Fin 16 => Ball.gpio n)) ++
    [.kick 0, .kick 1, .sense 0, .sense 1, .hpd 0, .hpd 1, .pwrReq, .corePg, .ddrResetN]

/-- What the boundary register captures. -/
def sampleBalls (s : State) : List (Ball × Bool) := allBalls.map (fun b => (b, ballLevel s b))

/-- The level that boundary scan drives on a ball: its cell's, or none under HIGHZ (R495). -/
def cellLevel (s : State) (b : Ball) : Option Bool :=
  if s.test.jtag = .highz then none else (s.test.cells.find? (fun c => c.1 == b)).map (·.2)

/-- The level driven on a ball (R51, R496): in every state PSF takes its PSC low in hardware, and DDR_RESET_N is driven only with VDDQ_DDR. -/
def drivenLevel (s : State) (b : Ball) : Option Bool :=
  let x := if drivesBalls s.test.jtag && scanRuns s then cellLevel s b else functionLevel s b
  match b with
  | .psc p => x.map (fun v => v && !(pwrOf s p).psf)
  | .ddrResetN => if drivesBalls s.test.jtag && scanRuns s && !s.sup.memOn then none else x
  | _ => x

end Sys2Proof.Machine
end

