-- ==== Sys2Proof/Machine/TestCmds.lean ====
section
/-! DEFINITION. LOOPBACK, PATTERN, the standard test modes and boundary scan (R465, R483–R496, R499). -/

set_option Elab.async false

namespace Sys2Proof.Machine

/-! ### LOOPBACK (R484–R488) -/

/-- The unit that LOOPBACK names: a port by its index, or 18 for DPX. -/
def loopUnit (r : Req) : Option Nat :=
  if targetBlock r == some .dpx then some 18 else (targetPort r).map (·.val)

/-- The depths that a unit offers (R484); depth 0 ends a loopback on each. -/
def depthOffered (unit depth : Nat) : Bool :=
  if depth = 0 then true
  else if unit ≥ 18 then depth == 3
  else if unit < 2 then decide (depth ≤ 3)
  else if unit < 10 then decide (depth ≤ 4)
  else decide (depth ≤ 2)

/-- The gate of a unit: DPX has none. -/
def loopGate (r : Req) (s : State) : Option Nat := match targetPort r with
  | some p => portGate r s p
  | none => none

/-- The unit is in use, so that a depth other than 0 answers BUSY_RETRY (R486). -/
def loopBusy (s : State) (unit depth : Nat) : Bool :=
  (tabGet s.test.loops unit).isSome || accBusy (.loopback unit) s ||
  (if h : unit < 18 then
     let p : Port := ⟨unit, h⟩
     match portDs p, portUs p with
     | some d, _ =>
       if depth = 4 then (dsOf s d).link != .u0 || (ownerOf s d).isSome
       else (tcOf s p).st == .attached
     | _, some u => (hubOf s u).state != .detached
     | _, _ => false
   else s.dp.toList.any (fun x => x.phase == 7))

/-- The spec of LOOPBACK (R465). -/
def specLoopback : CmdSpec := { opcode := 0x0B01, cls := .service, lenOk := len 8, resvOk := zeroAt 1 3 }

/-- A loopback set up (R487, R488): at REMOTE the link is held in Loopback. -/
def startLoop (unit depth ms : Nat) (s : State) : State :=
  let s1 := { s with test := { s.test with
    loops := tabPut s.test.loops unit { depth := depth, startAt := s.now, dur := ms * 1000000 } } }
  if h : 2 ≤ unit ∧ unit < 18 ∧ depth = 4 then modDs ⟨unit - 2, by omega⟩ (fun x => { x with link := .loopback }) s1 else s1

/-- LOOPBACK (R465, R484–R487). -/
def cmdLoopback (r : Req) (s : State) : State × Reply :=
  let depth := fld r.payload 0 1
  match loopUnit r with
  | none => (s, errR stBadTarget)
  | some unit =>
    if !depthOffered unit depth then (s, errR stBadTarget)
    else match loopGate r s with
      | some st => (s, errR st)
      | none =>
        if depth = 0 then (cutLoop unit stOk s, okR [])
        else if loopFenced s unit then (s, errR stFenced)
        else if loopBusy s unit depth then (s, errR stBusy)
        else (startLoop unit depth (fld r.payload 4 4) s, accR (.loopback unit))

/-- LOOPBACK. -/
def execLoopback (r : Req) (s : State) : Res := .next (runCmd specLoopback cmdLoopback r s)

/-- The payload bits of one lane in 128b/132b data blocks over a time in ns, its rate in tenths of a bit per ns (R485). -/
def laneBits (tenths ns : Nat) : Nat := tenths * ns / 1320 * 128

/-- BITS of a loopback that ran its DURATION (R485): at PMA and REMOTE by the rate of its path; at FABRIC and PCS the payload of the test
packets is left open by the spec. -/
def loopBits (s : State) (unit : Nat) (l : Loop) : Nat :=
  if l.depth ≤ 2 then Config.freeNat s.freeSeq
  else if unit ≥ 18 then 8 * laneBits 81 l.dur
  else if unit = 0 then 2 * laneBits 100 l.dur
  else laneBits 100 l.dur

/-- LOOPBACK_END (R487, R499): at the end of DURATION, or at once when a sink reaches Attached.SRC, or when the partner leaves REMOTE. -/
def execLoopbackEnd (unit : Fin 19) (errors : Nat) (sink : Bool) (s : State) : Res :=
  let s := fresh s
  match tabGet s.test.loops unit.val with
  | none => .next s
  | some l =>
    let early := endLoop unit.val (Config.freeNat s.freeSeq) (sat32 errors) stOk { s with freeSeq := s.freeSeq + 1 }
    let gone : Bool := match (if h : unit.val < 18 then portDs ⟨unit.val, h⟩ else none) with
      | some d => l.depth == 4 && (dsOf s d).link != .loopback
      | none => false
    if gone then .next early
    else if sink then .next (if l.depth < 4 ∧ 2 ≤ unit.val ∧ unit.val < 18 then early else s)
    else if l.dur = 0 then .next s
    else
      let s1 := advanceTo (l.startAt + l.dur) s
      .next (endLoop unit.val (loopBits s1 unit.val l) (sat32 errors) stOk { s1 with freeSeq := s1.freeSeq + 1 })

/-- REMOTE_LOOPBACK_REQUEST (R488): an upstream port acts as loopback slave in every run mode and in SUSPEND. -/
def execRemoteLoopbackRequest (u : US) (s : State) : Res :=
  let s := fresh s
  let x := usOf s u
  if (isExclusive s.pmu.reported && s.pmu.reported != .suspend) || safeHolds s || !x.ssTerm || x.link == .rxDetect || x.link == .disabled then
    .next s
  else
    .next (modUs u (fun x => { x with link := .loopback })
      { s with test := { s.test with slave := s.test.slave.filter (· != u) ++ [u] } })

/-! ### PATTERN (R493, R494) -/

/-- The spec of PATTERN (R465). -/
def specPattern : CmdSpec := { opcode := 0x0B03, cls := .service, lenOk := len 20, resvOk := zeroAt 1 3 }

/-- The end of the usable addresses (R85, R87). -/
def usableEnd : Nat := Config.dramMb.toNat * 3 / 4 * 1048576

/-- A range of whole steps within limits. -/
def patternIn (lo hi step start bytes : Nat) : Bool :=
  start % step == 0 && bytes % step == 0 && decide (lo ≤ start ∧ start + bytes ≤ hi)

/-- A range of usable addresses overlaps an extent that holds spilled data (R493). -/
def spillMeets (s : State) (start bytes : Nat) : Bool :=
  s.epqs.any (fun e => e.2.extents.any (fun i =>
    decide (extentUnit s i * 48 < start + bytes ∧ start < (extentUnit s i + 1366) * 48)))

/-- PATTERN (R465, R493, R494). -/
def cmdPattern (r : Req) (s : State) : State × Reply :=
  let p := r.payload
  let t : Pat := { pattern := fld p 0 1, start := fld p 4 8, bytes := fld p 12 8, startAt := s.now }
  if t.pattern > 4 then (s, errR stBadTarget)
  else match targetBlock r with
    | some .dmc =>
      if !patternIn (spillStart s) usableEnd 48 t.start t.bytes then (s, errR stBadTarget)
      else if blockFenced s .dmc then (s, errR stFenced)
      else if s.test.dmc.isSome || accBusy (.pattern .dmc) s || spillMeets s t.start t.bytes then (s, errR stBusy)
      else ({ s with test := { s.test with dmc := some t } }, accR (.pattern .dmc))
    | some .pkb =>
      if !patternIn 0xB0000 0x1F0000 128 t.start t.bytes then (s, errR stBadTarget)
      else if blockFenced s .pkb then (s, errR stFenced)
      else if s.test.pkb.isSome || accBusy (.pattern .pkb) s then (s, errR stBusy)
      else ({ s with test := { s.test with pkb := some t } }, accR (.pattern .pkb))
    | _ => (s, errR stBadTarget)

/-- PATTERN. -/
def execPattern (r : Req) (s : State) : Res := .next (runCmd specPattern cmdPattern r s)

/-- Corrections of a test counted in the block's FLT_CE_COUNT, without a latch (R493). -/
def countTest (b : Block) (n : Nat) (s : State) : State :=
  let r := fltRec s b
  setRec b { r with ceCount := min 0xFFFFFFFF (r.ceCount + n) } s

/-- Every cell of a PKB range has been tested. -/
def cellsTested (p : Pat) : Bool := decide (p.tested.length * 128 ≥ p.bytes)

/-- PATTERN_COMPLETE (R493, R494): the range returns to allocation and the counts are reported, on PKB those of its cells. -/
def execPatternComplete (dmc : Bool) (errors corrected first : Nat) (s : State) : Res :=
  let s := fresh s
  if dmc then
    .next (if s.test.dmc.isSome then
      endPattern true (sat32 errors) (if errors = 0 then 0 else first) stOk (countTest .dmc corrected s)
    else s)
  else match s.test.pkb with
    | none => .next s
    | some p => .next (if cellsTested p then endPattern false (sat32 p.errors) p.first stOk s else s)

/-- PKB_PATTERN_CELL_FREE (R494): a cell of the range is withdrawn as it falls free, and tested once; one that holds a packet, or is fenced or retired, is not free. -/
def execPkbPatternCellFree (cell errors corrected first : Nat) (s : State) : Res :=
  let s := fresh s
  match s.test.pkb with
  | none => .next s
  | some p =>
    if p.start ≤ cell * 128 ∧ cell * 128 < p.start + p.bytes ∧ (heldCells s ++ deadCells s).contains cell = false then
      .next { countTest .pkb corrected s with test := { s.test with pkb := some { p with
        tested := p.tested ++ [cell], errors := p.errors + errors
        first := if p.errors = 0 ∧ errors ≠ 0 then first else p.first } } }
    else .next s

/-- PKB_PATTERN_TIMEOUT (R494): a cell that has not fallen free within 1 s ends the test with BUSY_RETRY and the counts so far. -/
def execPkbPatternTimeout (s : State) : Res :=
  let s := fresh s
  match s.test.pkb with
  | none => .next s
  | some p => .next (if cellsTested p then s else cutPattern false stBusy (advanceTo (p.startAt + 1000000000) s))

/-! ### Standard test modes (R490, R491) -/

/-- A port's link in Compliance Mode, from its first pattern. -/
def enterComp (p : Port) (s : State) : State :=
  let s1 := { s with test := { s.test with comp := tabPut s.test.comp p.val 0 } }
  match portDs p, portUs p with
  | some d, _ => modDs d (fun x => { x with link := .compliance, rxDet := false }) (if (dsOf s1 d).shown3 then detachData d false true s1 else s1)
  | _, some u => modUs u (fun x => { x with link := .compliance }) s1
  | _, _ => s1

/-- COMPLIANCE_ENTRY (R490): the first Polling.LFPS timeout of an upstream port, or a host's request for a DS1–DS8 port that its hub owns;
on another slot the request acts on the slot only. -/
def execComplianceEntry (u : US) (v : Option (Fin 15)) (s : State) : Res :=
  let s := fresh s
  match v with
  | none =>
    let x := usOf s u
    .next (if x.ssTerm && s.clk.ssPllLock && (x.link == .rxDetect || x.link == .polling) then enterComp (usPort u) s else s)
  | some v =>
    if !hubUp s u true then .next s
    else
      let s1 := hostSeen u (emit (.control u []) s)
      .next (match ownedAt s u v with
        | some d => if d.val < 8 ∧ !ssHeldByDp s1 d ∧ !portFenced s1 (dsPort d) ∧ !movingNow s1 d then enterComp (dsPort d) s1 else s1
        | none => s1)

/-- COMPLIANCE_PING_LFPS (R490): the number of patterns advanced since the entry; which pattern that is USB 3.2 defines. -/
def execCompliancePingLfps (p : Port) (s : State) : Res :=
  let s := fresh s
  let on : Bool := match portDs p, portUs p with
    | some d, _ => (dsOf s d).link == .compliance
    | _, some u => (usOf s u).link == .compliance
    | _, _ => false
  .next (if on then
    { s with test := { s.test with comp := tabPut s.test.comp p.val ((tabGet s.test.comp p.val).getD 0 + 1) } }
  else s)

/-- A USB 2.0 test mode by its selector: Test_J, Test_K, Test_SE0_NAK, Test_Packet, Test_Force_Enable. -/
def testMode (m : Nat) : Bool := decide (1 ≤ m ∧ m ≤ 5)

/-- Every port of the hub is suspended, disabled or not connected, and none resumes (R491, R499). -/
def quietPorts (s : State) (u : US) : Bool :=
  allDs.all (fun d => ownerOf s d != some u ||
    (let x := dsOf s d
     x.resumeAt.isNone && (x.suspHost2 || !x.enable || !x.shown2)))

/-- The port is under Vigil or absorption (R491). -/
def heldHere (s : State) (d : DS) : Bool :=
  underVigil s d || (portCtxs s d).any (fun c => c.2.st == .held || c.2.st == .absorbing)

/-- USB2_PORT_TEST (R491, R499). -/
def execUsb2PortTest (u : US) (v : Fin 15) (mode : Nat) (s : State) : Res :=
  let s := fresh s
  if !hubUp s u false then .next s
  else
    let s1 := hostSeen u s
    match ownedAt s u v with
    | none => .next (emit (.control u []) s1)
    | some d =>
      .next (if !testMode mode || !quietPorts s1 u || heldHere s1 d || portFenced s1 (dsPort d) then emit (.stall u) s1
        else modDs d (fun x => { x with test2 := mode }) (emit (.control u []) s1))

/-- USB2_TEST_MODE_UPSTREAM (R491): it ends only on SYS_RESET_N or POR_N. -/
def execUsb2TestModeUpstream (u : US) (mode : Nat) (s : State) : Res :=
  let s := fresh s
  if !hubUp s u false then .next s
  else
    let s1 := hostSeen u s
    .next (if testMode mode then modUs u (fun x => { x with test2 := mode }) (emit (.control u []) s1) else emit (.stall u) s1)

/-! ### Boundary scan (R495, R496) -/

/-- JTAG_INSTRUCTION (R495, R496): JTAG_TRST_N low resets the test logic, whose instruction is then IDCODE (PRESUMED, log entry 40). Otherwise an
instruction that would drive balls is executed as BYPASS but in recovery; cells is what the boundary register is loaded with. -/
def execJtagInstruction (i : Jtag) (trst : Bool) (cells : List (Ball × Bool)) (s : State) : Res :=
  let s := fresh s
  if !s.sup.mainOn || s.sup.ballsFloat then .next s
  else if !trst then .next { s with test := { s.test with jtag := .idcode, cells := [] } }
  else
    let j := if drivesBalls i && !scanRuns s then Jtag.bypass else i
    let s1 := { s with test := { s.test with jtag := j, cells := if j = .bypass ∨ j = .idcode then s.test.cells else cells } }
    match j with
    | .bypass => .next (emit (.tap .bypass []) s1)
    | .idcode => .next (emit (.idcode 0x171629E7) s1)
    | _ => .next (emit (.tap j (sampleBalls s)) s1)

end Sys2Proof.Machine
end

