-- ==== Sys2Proof/Machine/RegSpace.lean ====
section
/-! DEFINITION. The register window of Martar, and SPIT frames with the registers and memory that they reach (R81, R324, R374, R382, R403,
R404, R434, R435, R466–R468, R480, R507). -/

set_option Elab.async false

namespace Sys2Proof.Machine

/-! ### Block registers (R324, R374, R382, R468) -/

/-- The PD FIFO state of a port (R324). -/
def fifoWord (s : State) (p : Port) : Nat :=
  let x := phyOf s p
  min 16 (fifoWords x.tx) + 2 ^ 5 * b2n x.txStaged.isSome + 2 ^ 8 * min 16 (fifoWords x.rx) + 2 ^ 13 * b2n x.rxStaged.isSome +
  2 ^ 16 * min 7 x.rx.length + 2 ^ 19 * min 16 x.notices.length + 2 ^ 24 * min 255 x.rxRefused

/-- The drawer word of LIO at 0x020 (R374). -/
def drawerWord (s : State) : Nat :=
  b2n s.lio.kick[(0 : Fin 2)].pulse.isSome + 2 * b2n s.lio.kick[(1 : Fin 2)].pulse.isSome + 4 * s.lio.sense.toNat +
  16 * b2n (drawerOpen s 0) + 32 * b2n (drawerOpen s 1) + 256 * s.lio.pol.toNat + 4096 * s.lio.wake.toNat

/-- An LIO register (R374): at the ball an output reads the level that it drives. -/
def lioReg (s : State) (off : Nat) : Option Nat := match off with
  | 0x000 => some s.lio.dir.toNat
  | 0x004 => some s.lio.out.toNat
  | 0x008 => some ((s.lio.inp &&& ~~~(gpioDir s)) ||| (s.lio.out &&& gpioDir s)).toNat
  | 0x00C => some s.lio.pd.toNat
  | 0x010 => some s.lio.edgeEn.toNat
  | 0x014 => some s.lio.edge.toNat
  | 0x020 => some (drawerWord s)
  | _ => none

/-- A word of the live tables, and of the shadow bank 0x8000 above (R215–R217, R468). -/
def placeReg (s : State) (off : Nat) : Option Nat :=
  let o := off % 0x8000
  let sh := decide (off ≥ 0x8000)
  if off ≥ 0x10000 then none
  else if 0x1000 ≤ o ∧ o < 0x1800 then
    let i := (o - 0x1000) / 4
    some (if sh then (tabGet s.place.shIdx i).getD 0
      else match epqOf s i with
        | some e => if e.closed then 0 else idxWord i e
        | none => 0)
  else if 0x2000 ≤ o ∧ o < 0x2800 then
    let e := (o - 0x2000) / 4
    some (if sh then (tabGet s.place.shPl e).getD (0x7F * 2 ^ 17) else plEntry s e)
  else if 0x4000 ≤ o ∧ o < 0x5800 then
    let c := (o - 0x4000) / 64
    let w := (o - 0x4000) % 64 / 4
    some (((tabGet (if sh then s.place.shTr else s.place.tr) c).map (fun t => trWord t w)).getD 0)
  else none

/-- A block register by its offset; none where the spec defines no register. -/
def blockReg (s : State) (b : Block) (off : Nat) : Option Nat := match b with
  | .pmu => if off = 0 then some (modeSelWord s) else if off = 4 then some (modeStatWord s) else none
  | .lio => lioReg s off
  | .place => placeReg s off
  | .us u => if off = 0x800 then some (fifoWord s (usPort u)) else none
  | .ds d => if off = 0x800 then some (fifoWord s (dsPort d)) else none
  | _ => none

/-- A register of either space. -/
def spaceReg (s : State) (b : Block) (space off : Nat) : Option Nat :=
  if space = 0 then blockReg s b off
  else if space = 1 ∧ off < 0x2C then some (fltWord s b (off / 4))
  else none

/-- The words of a range, where each is a defined register (R467). -/
def spaceWords (s : State) (b : Block) (space : Nat) : Nat → Nat → Option (List Nat)
  | _, 0 => some []
  | off, n + 1 => match spaceReg s b space off, spaceWords s b space (off + 4) n with
    | some w, some l => some (w :: l)
    | _, _ => none

/-- The spec of REG_READ (R466). -/
def specRegRead : CmdSpec := { opcode := 0x0C01, cls := .bootRun, lenOk := len 8, resvOk := zeroAt 1 1 }

/-- REG_READ (R466–R468). -/
def cmdRegRead (r : Req) (s : State) : State × Reply :=
  let p := r.payload
  let space := fld p 0 1
  let n := fld p 2 2
  let off := fld p 4 4
  match targetBlock r with
  | none => (s, errR stBadTarget)
  | some b =>
    if n < 1 ∨ n > 250 ∨ off % 4 ≠ 0 then (s, errR stBadTarget)
    else match spaceWords s b space off n with
      | none => (s, errR stBadTarget)
      | some ws => if space = 0 ∧ blockSealed s b then (s, errR stSealed) else (s, okR (ws.flatMap (le 4)))

/-- REG_READ. -/
def execRegRead (r : Req) (s : State) : Res := .next (runCmd specRegRead cmdRegRead r s)

/-! ### Register writes (R374, R404, R467) -/

/-- LIO registers that accept a write (R374). -/
def lioWritable (off : Nat) : Bool := decide (off ∈ ([0x000, 0x004, 0x00C, 0x010, 0x014, 0x020] : List Nat))

/-- A write of an LIO register (R374). -/
def lioWrite (off : Nat) (v : Nat) (s : State) : State :=
  let l := s.lio
  let w : BitVec 16 := BitVec.ofNat 16 v
  match off with
  | 0x000 => { s with lio := { l with dir := w } }
  | 0x004 => { s with lio := { l with out := w } }
  | 0x00C => { s with lio := { l with pd := w } }
  | 0x010 => { s with lio := { l with edgeEn := BitVec.ofNat 32 v } }
  | 0x014 => { s with lio := { l with edge := l.edge &&& ~~~w } }
  | 0x020 => { s with lio := { l with pol := BitVec.ofNat 2 (v / 256), wake := BitVec.ofNat 2 (v / 4096) } }
  | _ => s

/-- A value that a fault register accepts (R404, R467). -/
def fltWriteOk (off v : Nat) : Bool := match off with
  | 0x10 | 0x14 | 0x18 => true
  | 0x1C => decide (bits v 31 16 ≤ 1000)
  | 0x20 => decide (100 ≤ bits v 15 0 ∧ bits v 15 0 ≤ 60000 ∧ 100 ≤ bits v 31 16 ∧ bits v 31 16 ≤ 60000)
  | _ => false

/-- The Almanac words of the RP fields (R404, R447, R477). -/
def rpWrites (b : Block) (off v : Nat) : List (Nat × Word) := match off with
  | 0x1C => [(0x510 + 2 * blockId b, BitVec.ofNat 32 (bits v 31 16 * 65536))]
  | 0x20 => [(0x511 + 2 * blockId b, BitVec.ofNat 32 v)]
  | _ => []

/-- FLT_FORCE may be written (R421). -/
def mayForce (s : State) : Bool := s.pmu.reported == .service || testEnabled s

/-- A write of a fault register that is not RP (R404). -/
def fltWrite (b : Block) (off v : Nat) (s : State) : State := match off with
  | 0x10 => ackWrite b v s
  | 0x14 => if mayForce s then injectFaults b v none s else s
  | 0x18 => setRec b { fltRec s b with mask := BitVec.ofNat 32 v } s
  | _ => s

/-- The offsets of a write with their words. -/
def writePairs (off : Nat) : List Byte → List (Nat × Nat)
  | a :: b :: c :: d :: t => (off, leNat [a, b, c, d]) :: writePairs (off + 4) t
  | _ => []

/-- The status of a REG_WRITE before anything is written (R421, R445, R467). A sealed port's block space holds nothing writable, so SEALED
stands before the refusal of an RO register. -/
def regWriteFail (s : State) (b : Block) (space : Nat) (l : List (Nat × Nat)) : Option Nat :=
  let force := space == 1 && l.any (fun e => e.1 == 0x14)
  firstFail
    [(!(space == 0 && privileged b && s.pmu.reported != .service), stMode),
     (!(force && !mayForce s), stMode),
     (l.all (fun e => e.1 % 4 == 0 && (spaceReg s b space e.1).isSome), stBadTarget),
     (!(space == 0 && blockSealed s b), stSealed),
     (l.all (fun e => if space = 0 then b == .lio && lioWritable e.1 else fltWriteOk e.1 e.2), stBadTarget)]

/-- The spec of REG_WRITE (R466). -/
def specRegWrite : CmdSpec :=
  { opcode := 0x0C02, cls := .run, resvOk := zeroAt 1 1
    lenOk := fun p => decide (12 ≤ p.length ∧ p.length ≤ 1004 ∧ p.length = 8 + 4 * fld p 2 2) }

/-- REG_WRITE (R447, R466, R467): every word is checked, and the words are then written in ascending order. -/
def cmdRegWrite (r : Req) (s : State) : State × Reply :=
  let space := fld r.payload 0 1
  let l := writePairs (fld r.payload 4 4) (r.payload.drop 8)
  match targetBlock r with
  | none => (s, errR stBadTarget)
  | some b =>
    match regWriteFail s b space l with
    | some st => (s, errR st)
    | none =>
      if space = 0 then (l.foldl (fun s e => lioWrite e.1 e.2 s) s, okR [])
      else
        let x := persist (l.flatMap (fun e => rpWrites b e.1 e.2)) r.badWord s
        if x.2 ≠ stOk then (x.1, errR x.2)
        else (l.foldl (fun s e => fltWrite b e.1 e.2 s) x.1, okR [])

/-- REG_WRITE. -/
def execRegWrite (r : Req) (s : State) : Res := .next (runCmd specRegWrite cmdRegWrite r s)

/-! ### Transport registers (R81, R435) -/

/-- RECOV_CTRL (R81). -/
def recovCtrl (b : BootIn) (v : Nat) (s : State) : State :=
  let s1 := if bit v 0 then recovLoad s else s
  let s2 := if bit v 1 then recovFinish b s1 else s1
  if bit v 2 then recovAbort s2 else s2

/-- RING_CTRL (R435): ERROR is cleared by a 1, RUN takes its value, and RESET acts last. -/
def ctrlReg (now : Nat) (r : Fin 16) (v : Nat) (m : Mbx) : Mbx :=
  let m1 := if bit v 2 then setRing r { m.rings[r] with err := false, errCode := 0 } m else m
  let m2 := if bit v 0 == m1.rings[r].run then m1 else runReg now r (bit v 0) m1
  if bit v 1 then resetReg now r m2 else m2

/-- A word written to a transport register from BOOT step 8 on (R435). -/
def mbxWrite (now a v : Nat) (m : Mbx) : Mbx :=
  if a = 0x010 then { m with irqStatus := m.irqStatus &&& ~~~(BitVec.ofNat 12 v) }
  else if a = 0x014 then { m with irqEnable := BitVec.ofNat 12 v }
  else if a = 0x020 then assignWrite v m
  else if a = 0xC00 then prioDoorbell (v % 32) m
  else if 0x800 ≤ a ∧ a < 0xC00 then { m with stage := memWrite 0 m.stage (a - 0x800) (le 4 v) }
  else if h : 0x100 ≤ a ∧ a < 0x200 then
    let r : Fin 16 := ⟨(a - 0x100) / 16, by omega⟩
    match a % 16 with
    | 0 => geomWrite r (bits v 9 0) (bits v 13 10) m
    | 4 => headReg now r (v % 65536) m
    | 8 => tailReg r (v % 65536) m
    | 12 => ctrlReg now r v m
    | _ => m
  else m

/-- A word written to an address of the transport registers (R81, R434, R435). -/
def transportWrite (b : BootIn) (a v : Nat) (s : State) : State :=
  if a = 0xF04 then (if inRecovery s then { s with fw := { s.fw with recOffset := v % 2 ^ 23 } } else s)
  else if a = 0xF08 then (if inRecovery s then { s with fw := { s.fw with recLength := v % 2 ^ 17 } } else s)
  else if a = 0xF0C then recovCtrl b v s
  else if s.sup.ready then { s with mbx := mbxWrite s.now a v s.mbx }
  else s

/-- The main group is powered and no reset is held, so that registers answer (R403, R434, R507). -/
def spitPowered (s : State) : Bool :=
  s.sup.mainOn && !s.sup.porLow && !s.sup.sysLow && !s.sup.ballsFloat && !asleep s && s.pmu.reported != .off

/-- REG_WRITE is accepted now (R446). -/
def regWritable (s : State) : Bool := s.pmu.reported != .boot && s.pmu.reported != .safe

/-- REGISTER_WRITE (R403, R404, R435): a word stored in a writable register that no other row writes, named by its address in the map. A transport
register is written over SPIT; FLT_MASK, which SPIT only reads (R15, R403), takes the store that REG_WRITE makes of it. FLT_ACK and FLT_FORCE have
rows of their own, and the persistent fields are written by REG_WRITE alone. -/
def execRegisterWrite (addr v : Word) (b : BootIn) (s : State) : Res :=
  let s := fresh s
  let a := addr.toNat
  if !spitPowered s || a % 4 != 0 then .next s
  else match fltAddr a with
    | some (blk, off) => .next (if off = 0x18 && regWritable s then fltWrite blk off v.toNat s else s)
    | none => .next (if a < 0x1000 then transportWrite b a v.toNat s else s)

/-! ### SPIT frames (R434, R480, R507) -/

/-- FRAME_ERR set (R434). -/
def frameError (s : State) : State := { s with mbx := { s.mbx with frameErr := true } }

/-- A whole aligned word written over SPIT (R403, R434, R435, R480): of the fault registers FLT_ACK alone, and the Almanac window none. -/
def spitWord (b : BootIn) (a v : Nat) (s : State) : State :=
  match fltAddr a with
  | some (blk, off) => if off = 0x10 then ackWrite blk v s else s
  | none => if a < 0x1000 then transportWrite b a v s else frameError s

/-- A byte written to ring memory, where SPIT owns the ring, or to the load buffer in recovery (R81, R434). -/
def spitByteWrite (a : Nat) (x : Byte) (s : State) : State :=
  if 0x10000 ≤ a ∧ a < 0x20000 ∧ (s.sup.ready || s.sup.recovery) = true ∧ spitWritable s (a - 0x10000) = true then
    { s with mbx := { s.mbx with mem := sparseSet 0 s.mbx.mem (a - 0x10000) x } }
  else s

/-- The data of a WRITE frame in ascending address order (R434); a word cut short is discarded. On fuel. -/
def spitWrite (b : BootIn) : Nat → Nat → List Byte → State → State
  | 0, _, _, s => s
  | _ + 1, _, [], s => s
  | f + 1, a, x :: t, s =>
    if wordSpace a then
      (if t.length < 3 then s else spitWrite b f (a + 4) (t.drop 3) (spitWord b a (leNat (x :: t.take 3)) s))
    else spitWrite b f (a + 1) t (spitByteWrite a x s)

/-- The SPIT status byte (R434). -/
def spitStatus (s : State) : Byte :=
  BitVec.ofNat 8 (b2n s.sup.ready + 2 * b2n (irqLow s) + 4 * b2n (safeHolds s) + 8 * b2n s.mbx.frameErr)

/-- SPIT_FRAME (R434, R480, R507): setup is the time in ns from the fall of SPIT_CS_N to the first SCK edge. In SUSPEND the fall is a wake, and
a frame that starts within 5 µs of it is ignored. -/
def execSpitFrame (setup : Nat) (instr : Byte) (addr : Word) (data : List Byte) (reads : Nat) (b : BootIn) (s : State) : Res :=
  let s := fresh s
  if !spitPowered s then .next s
  else
    let susp := s.pmu.reported == .suspend
    let s1 := if susp then suspendWake 6 0 0 s else s
    if susp && decide (setup < 5000) then .next (frameError s1)
    else
      let a := addr.toNat
      let bad := wordSpace a && a % 4 != 0
      let s2 := { s1 with mbx := { s1.mbx with frameErr := false } }
      if instr = 0x0B then
        let l := if bad then List.replicate reads 0 else (List.range reads).map (fun i => spitByte s2 ((a + i) % 2 ^ 32))
        .next (emit (.spit (spitStatus s1) l) (if bad then frameError s2 else s2))
      else
        let s3 := emit (.spit (spitStatus s1) []) s2
        .next (if instr = 0x02 ∧ bad = false then spitWrite b data.length a data s3 else frameError s3)

end Sys2Proof.Machine
end

