-- ==== Sys2Proof/Machine/Resets.lean ====
section
/-! DEFINITION. Port resets and upstream resets (R119, R171–R173, R185, R258, R263, R287, R288), and the absence of a host (R245). -/

set_option Elab.async false

namespace Sys2Proof.Machine

/-! ### USB 2.0 port reset (R171, R172, R288) -/

/-- What a forwarded USB 2.0 reset does at its step 1 (R185, R263, R288): resume cut, suspend and wakes cleared, the TT and the stored
work of the device gone, its queues closed and its context freed. -/
def startReset (d : DS) (by_ : ResumeKind) (s : State) : State :=
  let s1 := forwardReset d none false (ttClear d s)
  modDs d (fun x => { x with
    resetAt := some s.now, resetBy := by_, chirpAt := none, chirpFail := false, enable := false, suspHost2 := false, suspHub2 := false
    resumeAt := none, wakePend2 := false, wakeOpen := none, l1 := false, l1Exit := none }) s1

/-- PORT_RESET_REQUEST (R119, R171, R258, R263, R288): absorbed, driven, or completed as a reset of an empty port. -/
def execPortResetRequest (u : US) (v : Fin 15) (s : State) : Res :=
  let s := fresh s
  if !hubUp s u false then .next s
  else
    let s := hostSeen u s
    match shownHere s u v false with
    | none => .next (modSlot u v (fun x => { x with emptyReset := some s.now }) s)
    | some d =>
      match ctxAt s d 0 false with
      | some c => .next (if resetAbsorbed s c.2 then absorbReset c.1 false s else startReset d .host s)
      | none => .next (startReset d .host s)

/-- DEVICE_CHIRP_K (R171, R172): recognised from 2.5 µs; with FORCE_FS, and from a low-speed device, nothing follows. -/
def execDeviceChirpK (d : DS) (ns : Nat) (s : State) : Res :=
  let s := fresh s
  let x := dsOf s d
  match x.resetAt with
  | none => .next s
  | some t =>
    if bit x.quirks 0 || x.speed2 == some .ls || x.chirpFail || decide (ns < 2500) || decide (s.now ≥ t + 7000000) then .next s
    else .next (modDs d (fun x => { x with chirpAt := some s.now }) s)

/-- CHIRP_TIMEOUT (R172): a chirp K still continuous 7.0 ms after step 1. -/
def execChirpTimeout (d : DS) (s : State) : Res :=
  let s := fresh s
  match (dsOf s d).resetAt with
  | none => .next s
  | some t =>
    if (dsOf s d).chirpFail then .next s
    else .next (modDs d (fun x => { x with chirpFail := true, chirpAt := none, chirpTimeouts := x.chirpTimeouts + 1 })
      (advanceTo (t + 7000000) s))

/-- PORT_RESET_END (R171, R172): 10 ms after step 1, 20 ms with SLOW_RESET, the port is enabled at the speed that the chirp decided. -/
def execPortResetEnd (d : DS) (hsIdle : Bool) (s : State) : Res :=
  let s := fresh s
  let x := dsOf s d
  match x.resetAt with
  | none => .next s
  | some t =>
    let s1 := advanceTo (t + if bit x.quirks 7 then 20000000 else 10000000) s
    let sp : Speed2 := if x.chirpAt.isSome && !x.chirpFail && hsIdle then .hs else if x.speed2 == some .ls then .ls else .fs
    let s2 := modDs d (fun x => { x with resetAt := none, chirpAt := none, chirpFail := false, enable := true, speed2 := some sp }) s1
    .next (deviceArrived d false (if x.resetBy == .host then chgPort d false .reset s2 else s2))

/-- EMPTY_SLOT_RESET_COMPLETE (R288): 10.0 ms after the request. -/
def execEmptySlotResetComplete (u : US) (v : Fin 15) (s : State) : Res :=
  let s := fresh s
  match (slotSt s u v).emptyReset with
  | none => .next s
  | some t => .next (chgSlot u v false .reset (modSlot u v (fun x => { x with emptyReset := none }) (advanceTo (t + 10000000) s)))

/-! ### SuperSpeed resets (R287, R288) -/

/-- A forwarded SuperSpeed reset begun. -/
def startSsReset (d : DS) (warm : Bool) (s : State) : State :=
  let s1 := forwardReset d none true (dropStored d s)
  modDs d (fun x => { x with
    ssReset := some (warm, s.now), escalated := false, suspHost3 := false, suspHub3 := false, wakePend3 := false, wakeOpen := none
    u3Exit := none, u3Entry := false, ssFailed := x.ssFailed && !warm, link := if warm then .polling else .recovery }) s1

/-- A reset of the SuperSpeed hub on a slot: an empty one completes at once with the link at Rx.Detect. -/
def ssReset (u : US) (v : Fin 15) (warm : Bool) (s : State) : State :=
  if !hubUp s u true then s
  else
    let s := hostSeen u s
    let empty (s : State) : State := let a := chgSlot u v true .reset s; if warm then chgSlot u v true .bhReset a else a
    match ownedAt s u v with
    | none => empty s
    | some d =>
      let x := dsOf s d
      let up := x.link != .rxDetect && x.link != .disabled
      if !presentable s d then empty s
      else if !warm && !up then empty s
      else if warm && !up && !(x.ssFailed && x.watch) then empty s
      else match ctxAt s d 0 true with
        | some c => if resetAbsorbed s c.2 then absorbReset c.1 warm s else startSsReset d warm s
        | none => startSsReset d warm s

/-- SS_HOT_RESET (R119, R258, R287, R288). -/
def execSsHotReset (u : US) (v : Fin 15) (s : State) : Res := .next (ssReset u v false (fresh s))

/-- SS_WARM_RESET (R119, R258, R287, R288). -/
def execSsWarmReset (u : US) (v : Fin 15) (s : State) : Res := .next (ssReset u v true (fresh s))

/-- SS_RESET_COMPLETE (R287): U0 reached, or a hot reset escalated after 20 ms, or a warm reset given up 360 ms after its LFPS. -/
def execSsResetComplete (d : DS) (reached : Bool) (s : State) : Res :=
  let s := fresh s
  match (dsOf s d).ssReset with
  | none => .next s
  | some (warm, t) =>
    if reached then
      let was := (dsOf s d).shown3
      let s0 := modDs d (fun x => { x with ssReset := none, escalated := false, link := .u0, gen := if x.gen = 0 then 1 else x.gen }) s
      let s1 := modLink (dsPort d) (freshLink s0 (dsPort d)) s0
      let s2 := chgPort d true .reset (if warm then chgPort d true .bhReset s1 else s1)
      .next (if was then deviceArrived d true s2 else presentConn d true s2)
    else if !warm then
      let s1 := advanceTo (t + 20000000) s
      .next (modDs d (fun x => { x with ssReset := some (true, s1.now), escalated := true, link := .polling }) s1)
    else .next (detachData d false true (advanceTo (t + 440000000) s))

/-! ### Upstream resets (R173, R185, R263) -/

/-- The powered-off state of every owned port, until the host sets PORT_POWER (R113, R263). -/
def powerOffAll (u : US) (s : State) : State :=
  allDs.foldl (fun s d =>
    match owningSlot s d with
    | some (w, v) => if w = u then portOff (dsPort d) (modSlot u v (fun x => { x with power := false }) s) else s
    | none => s) s

/-- What every upstream reset does (R185, R263, R439): the LMF's transfers aborted and its rings due for a reset, the translators reset but
on ports held under absorption, a host restart or the powered-off state, and every port out of its test mode (R491). -/
def upstreamReset (u : US) (s : State) : State :=
  let l := s.mbx.lmf[u.idx]
  let restart := hubHolds s u
  let s1 := { s with mbx := { s.mbx with lmf := s.mbx.lmf.set u.idx { l with configured := false, resetDue := true, rx := [] } } }
  let s2 := allDs.foldl (fun s d =>
    if ownerOf s d == some u && !(restart && isArmed s d && !(portCtxs s d).isEmpty) then ttReset d s else s) s1
  let s3 := if restart then hostRestart u s2 else powerOffAll u s2
  let s3 := allDs.foldl (fun s d => if ownerOf s d == some u then modDs d (fun x => { x with test2 := 0 }) s else s) s3
  hostSeen u (modHub u (fun h => { h with configured := false }) s3)

/-- UPSTREAM_USB2_RESET (R163, R173): the chirp handshake; without the host's answer the pair stays at full speed. DESIGN CHOICE: the hub's
alternate setting is then 1, multi-TT, until a SET_INTERFACE (R182, log entry 96). -/
def execUpstreamUsb2Reset (u : US) (chirpAnswered : Bool) (s : State) : Res :=
  let s := fresh s
  if !(usOf s u).pullup && (usOf s u).speed2 != 2 then .next s
  else
    let s1 := upstreamReset u (hostResumeCut u s)
    let s2 := modHub u (fun h => { h with addr2 := 0, remoteWake2 := false, multiTt := true }) s1
    let s3 := modUs u (fun x => { x with
      susp2 := false, l1 := false, resume2 := none, upK := none, reset2 := some s.now, chirpK := chirpAnswered
      speed2 := 1, pullup := true }) s2
    .next (if chirpAnswered then s3 else usb2Up u s3)
where
  /-- Suspend marks that the reset ends. -/
  hostResumeCut (u : US) (s : State) : State :=
    allDs.foldl (fun s d => if ownerOf s d == some u then modDs d (fun x => { x with suspHub2 := false, wakePend2 := false }) s else s) s

/-- HOST_CHIRP_KJ (R173): three K-J pairs within 2.0 ms of the end of the controller's chirp K put the pair at high speed, its D_P pull-up
removed; later ones leave it at full speed. -/
def execHostChirpKj (u : US) (ns : Nat) (s : State) : Res :=
  let s := fresh s
  .next (if (usOf s u).chirpK then usb2Up u (modUs u (fun x =>
      if ns ≤ 2000000 then { x with chirpK := false, reset2 := none, speed2 := 2, pullup := false }
      else { x with chirpK := false, reset2 := none }) s) else s)

/-- UPSTREAM_SS_RESET (R131, R144, R157, R263, R295): a hot or warm reset of the SuperSpeed hub; its link begins anew. -/
def execUpstreamSsReset (u : US) (warm : Bool) (s : State) : Res :=
  let s := fresh s
  if !(usOf s u).ssTerm then .next s
  else
    let s1 := upstreamReset u s
    let s2 := modHub u (fun h => { h with
      addr3 := 0, depth := 0, funcWake3 := false, u1Enable := false, u2Enable := false
      slots := h.slots.map (fun x => { x with wakeMask := 0, u1 := 0, u2 := 0 }) }) s1
    let s3 := modUs u (fun x => { x with susp3 := false, u3Want := false, upLfps := false, link := if warm then .polling else .u0 }) (dropLink (usPort u) 2 s2)
    let s4 := settle (modLink (usPort u) (freshLink s3 (usPort u)) s3)
    .next (if warm then s4 else ssUp u s4)

/-! ### Absence (R245) -/

/-- The upstream links show the host present: the SuperSpeed link by its state, or a link or pair in a test (R245, R489). -/
def linkPresent (s : State) (u : US) : Bool := (usOf s u).test2 != 0 || (match (usOf s u).link with
  | .u0 | .u1 | .u2 | .u3 | .recovery | .polling | .compliance | .loopback => true
  | _ => false)

/-- HOST_ABSENCE (R245): after T_ABSENT without a presence condition, or at once on detach, or on loss of VBUS where the port is sink. -/
def execHostAbsence (u : US) (c : AbsCause) (s : State) : Res :=
  let s := fresh s
  match c with
  | .detach => .next (hostLost u s)
  | .vbusLoss => .next (if isSink s (usPort u) && (pwrOf s (usPort u)).frs.isNone then hostLost u s else s)
  | .timed =>
    if linkPresent s u || hubSuspended s u then .next s
    else .next (hostLost u (advanceTo ((vigHub s u).absentFrom + s.vig.tAbsent * 10000000) s))

end Sys2Proof.Machine
end

