-- ==== Sys2Proof/Machine/SchedCmds.lean ====
section
/-! DEFINITION. The refill tick, samples, the placement agent and the commands of groups 0x03 and 0x04 (R196, R201–R212, R220–R232,
R453–R455). -/

set_option Elab.async false

namespace Sys2Proof.Machine

/-! ### Refill tick and samples (R201, R211, R225) -/

/-- REFILL_TICK (R201): the next whole multiple of 125,000 ns. -/
def execRefillTick (s : State) : Res :=
  let s := fresh s
  if !s.clk.tbOn then .next s
  else
    let t := max ((s.sched.tickAt / 125000 + 1) * 125000) (s.now / 125000 * 125000)
    .next (gpioFlush (doTick t ((t - s.sched.tickAt) / 125000) s))

/-- OBSERVE_SAMPLE (R211): after SAMPLE_PERIOD ticks every open queue is sampled; 64 samples are kept. -/
def execObserveSample (s : State) : Res :=
  let s := fresh s
  if s.sched.sampleCount < s.sched.samplePeriod then .next s
  else
    let t := s.sched.tickAt
    .next { s with
      sched := { s.sched with sampleCount := 0, samplePeriod := s.sched.sampleNew }
      epqs := s.epqs.map (fun e : Nat × Epq =>
        let x : Sample := { time := t, cells := epqCells e.2, spill := epqBytes e.2 .dram, charged := e.2.sCharged
                            packets := e.2.sPackets, red := e.2.sRed }
        let l := e.2.samples ++ [x]
        (e.1, { e.2 with samples := l.drop (l.length - 64), sCharged := 0, sPackets := 0, sRed := 0 })) }

/-- PLACEMENT_AGENT_SAMPLE (R211, R225): the measurements of the closed window: queue loads in percent, and the wait and mean cells of
each queue; engine loads are their sums. -/
def execPlacementAgentSample (loads : List (Nat × Nat)) (waits : List (Nat × (Nat × Nat))) (s : State) : Res :=
  let s := fresh s
  let sum (f : Epq → Nat → Nat) (c : Fin 8) : Nat :=
    (s.epqs.map (fun e => if e.2.chv = some c then f e.2 e.1 else 0)).foldl (· + ·) 0
  .next { s with
    place := { s.place with
      qload := loads, qwait := waits
      load := allChv.map (fun c => min 100 (sum (fun _ q => (tabGet loads q).getD 0) c))
      tagHw := allChv.map (fun c => min 128 (sum (fun e _ => e.tagHw) c)) }
    epqs := s.epqs.map (fun e : Nat × Epq => (e.1, { e.2 with tagHw := (e.2.pkts.filter (·.tag.isSome)).length })) }

/-! ### Rebuilds (R220–R224, R237) -/

/-- The agent runs: forwarding modes, Sage clocked. -/
def agentRuns (s : State) : Bool := match s.pmu.reported with
  | .off | .hibernate | .standby | .boot | .suspend | .safe => false
  | _ => s.clk.tbOn

/-- REBUILD_START (R220): at the next multiple of 2 ms, or at the tick of a NOW; a rebuild still open is replaced (R223). DESIGN CHOICE: a NOW too
abandons a rebuild that its tick finds open, and a NOW whose rebuild is abandoned stays ACCEPTED until a later one (R232, log entry 94). -/
def execRebuildStart (s : State) : Res :=
  let s := fresh s
  if !agentRuns s then .next s
  else
    let p := if s.place.nowReq then 125000 else 2000000
    let t := (s.now + p - 1) / p * p
    let s1 := abandonRebuild (advanceTo t s)
    .next (beginRebuild t s1.place.nowReq (modPlace (fun p => { p with nowReq := false }) s1))

/-- DELTA_LOG_MERGE (R222). -/
def execDeltaLogMerge (s : State) : Res :=
  let s := fresh s
  match s.place.rebuild with
  | some r => .next (if r.step = 3 ∧ agentRuns s = true then mergeLog s else s)
  | none => .next s

/-- EQUINOX_SWAP (R221): at the next refill tick after the merge. -/
def execEquinoxSwap (s : State) : Res :=
  let s := fresh s
  match s.place.rebuild with
  | some r =>
    .next (if r.step = 5 ∧ agentRuns s = true then equinoxSwap (advanceTo ((s.now + 124999) / 125000 * 125000) s) else s)
  | none => .next s

/-- MINIMAL_SWAP (R224): after three windows without a swap, or for a translation change that waits; steps 2, 3 and 5 of a swap
without load moves, which the next Equinox swap ends. -/
def execMinimalSwap (s : State) : Res :=
  let s := fresh s
  if !agentRuns s || (decide (s.place.missed < 3) && s.place.trAt.isNone) then .next s
  else
    let s1 := match s.place.rebuild with
      | some _ => abandonRebuild s
      | none => s
    let s2 := applyTrs (applyPins (copyShadow (modPlace (fun p => { p with
      rebuild := some { t0 := s1.now, step := 5, minimal := true, now_ := false, log := [] } }) s1)))
    .next s2

/-! ### Queue selectors (R443) -/

/-- The open queue that a QSEL at an offset names on a port. -/
def qselQueue (s : State) (d : DS) (p : List Byte) (off : Nat) : Option (Nat × Epq) :=
  let dir := fld p (off + 2) 1
  if dir > 1 then none
  else s.epqs.find? (fun e => !e.2.closed && e.2.port == d && e.2.hubPort == fld p off 1 && e.2.ep == fld p (off + 1) 1 &&
    (e.2.ep == 0 || e.2.dirIn == decide (dir = 1)))

/-! ### SCHED_SET (R196, R453) -/

/-- The length and the reserved fields of SCHED_SET's forms (R453): KIND is judged before LENGTH. -/
def schedLenOk (p : List Byte) : Bool :=
  p.length != 0 && (match fld p 0 1 with
    | 0 => len 20 p
    | 1 => len 8 p
    | 2 => len 6 p
    | _ => true)

/-- The reserved fields of SCHED_SET. -/
def schedResvOk (p : List Byte) : Bool := match fld p 0 1 with
  | 0 => zeroAt 1 3 p && zeroAt 7 1 p && zeroAt 9 1 p
  | 1 => zeroAt 1 3 p && zeroAt 5 1 p
  | 2 => zeroAt 1 3 p
  | _ => true

/-- The spec of SCHED_SET (R453). -/
def specSchedSet : CmdSpec := { opcode := 0x0301, cls := .run, lenOk := schedLenOk, resvOk := schedResvOk }

/-- SCHED_SET (R31, R93, R194, R196, R211, R453). -/
def cmdSchedSet (r : Req) (s : State) : State × Reply :=
  let p := r.payload
  match fld p 0 1 with
  | 0 =>
    (match targetDs r with
     | none => (s, errR stBadTarget)
     | some d =>
       if fld p 10 2 > 1024 then (s, errR stBadTarget)
       else match qselQueue s d p 4, dsGate r s d with
         | none, _ => (s, errR stBadTarget)
         | some _, some st => (s, errR st)
         | some q, none =>
           let cap (n dflt : Nat) : Nat := if n = 0 then dflt else n
           let s1 := settle (modEpq q.1 (fun e => { e with
             weight := fld p 8 1, capTags := cap (fld p 10 2) 32, capPkb := cap (fld p 12 4) 131072
             capSpill := cap (fld p 16 4) 16777216 }) s)
           let e := (epqOf s1 q.1).getD q.2
           (s1, okR (slice p 0 8 ++ le 1 e.weight ++ [0] ++ le 2 e.capTags ++ le 4 e.capPkb ++ le 4 e.capSpill)))
  | 1 =>
    if !noTarget r || decide (fld p 4 1 < 25) || decide (fld p 4 1 > 95) || decide (fld p 6 2 < 1) || decide (fld p 6 2 > 4096) then
      (s, errR stBadTarget)
    else ({ s with sched := { s.sched with spillPct := fld p 4 1, sampleNew := fld p 6 2 } }, okR p)
  | 2 =>
    (match targetPort r with
     | none => (s, errR stBadTarget)
     | some l =>
       if fld p 4 1 > 6 ∨ l.val > 9 then (s, errR stBadTarget)
       else match portGate r s l with
         | some st => (s, errR st)
         | none =>
           let s1 := dueTick s
           ({ s1 with sched := { s1.sched with ovhNew := tabPut s1.sched.ovhNew (l.val * 8 + fld p 4 1) (fld p 5 1) } }, okR p))
  | _ => (s, errR stBadTarget)

/-- SCHED_SET. -/
def execSchedSet (r : Req) (s : State) : Res := .next (runCmd specSchedSet cmdSchedSet r s)

/-! ### SHAPER_SET and POLICER_SET (R202–R206, R453) -/

/-- A meter's fields in a payload. -/
def meterOf (p : List Byte) : Meter :=
  { cir := fld p 4 4, cbs := fld p 8 4, pir := fld p 12 4, pbs := fld p 16 4, mode := fld p 20 1 }

/-- The ranges of R202. -/
def meterOk (m : Meter) (top : Nat) : Bool :=
  decide (m.cir ≤ 0x0FFFFFFF ∧ m.cbs ≤ 16777215 ∧ m.pir ≤ 0x0FFFFFFF ∧ m.pbs ≤ 16777215 ∧ m.mode ≤ top)

/-- The spec of SHAPER_SET (R453). -/
def specShaperSet : CmdSpec :=
  { opcode := 0x0302, cls := .run, lenOk := len 24, resvOk := fun p => zeroAt 3 1 p && zeroAt 21 3 p }

/-- SHAPER_SET (R202, R204): in force at the next refill tick; an earlier one completes with SUPERSEDED. -/
def cmdShaperSet (r : Req) (s : State) : State × Reply :=
  match targetDs r with
  | none => (s, errR stBadTarget)
  | some d =>
    let m := meterOf r.payload
    match qselQueue s d r.payload 0 with
    | none => (s, errR stBadTarget)
    | some q =>
      if !meterOk m 1 || q.2.cls == 1 || q.2.cls == 0 then (s, errR stBadTarget)
      else match dsGate r s d with
        | some st => (s, errR st)
        | none =>
          let s1 := finalCpl (.shaper q.1) stSuperseded [] (dueTick s)
          (modEpq q.1 (fun e => { e with shaperNew := some m }) s1, accR (.shaper q.1))

/-- SHAPER_SET. -/
def execShaperSet (r : Req) (s : State) : Res := .next (runCmd specShaperSet cmdShaperSet r s)

/-- The spec of POLICER_SET (R453). -/
def specPolicerSet : CmdSpec :=
  { opcode := 0x0303, cls := .run, lenOk := len 24, resvOk := fun p => zeroAt 3 1 p && zeroAt 21 3 p }

/-- POLICER_SET (R204–R206). -/
def cmdPolicerSet (r : Req) (s : State) : State × Reply :=
  match targetDs r with
  | none => (s, errR stBadTarget)
  | some d =>
    let m := meterOf r.payload
    match qselQueue s d r.payload 0 with
    | none => (s, errR stBadTarget)
    | some q =>
      if !meterOk m 2 || q.2.cls == 0 then (s, errR stBadTarget)
      else match dsGate r s d with
        | some st => (s, errR st)
        | none =>
          let s1 := finalCpl (.policer q.1) stSuperseded [] (dueTick s)
          (modEpq q.1 (fun e => { e with policerNew := some m }) s1, accR (.policer q.1))

/-- POLICER_SET. -/
def execPolicerSet (r : Req) (s : State) : Res := .next (runCmd specPolicerSet cmdPolicerSet r s)

/-! ### OBSERVE_READ (R209–R212, R454) -/

/-- The spec of OBSERVE_READ (R453). -/
def specObserveRead : CmdSpec :=
  { opcode := 0x0304, cls := .run, lenOk := len 8
    resvOk := fun p => zeroAt 3 1 p && zeroAt 5 3 p && decide (fld p 4 1 < 8) }

/-- The queue part of the result (R454). -/
def queuePart (s : State) (q : Nat) (e : Epq) : List Byte :=
  le 8 e.packets ++ le 8 e.payload ++ le 8 e.charged ++ le 4 e.green ++ le 4 e.yellow ++ le 4 e.redN ++
    ((List.range 7).flatMap (fun i => le 4 ((tabGet s.sched.disc (q * 8 + i + 1)).getD 0))) ++
    le 4 e.hwCells ++ le 4 (sat32 e.hwWait) ++ le 8 e.hwSpill

/-- The samples of a queue (R454). -/
def samplePart (e : Epq) : List Byte :=
  le 1 e.samples.length ++ [0, 0, 0] ++ e.samples.flatMap (fun x =>
    le 8 x.time ++ le 4 x.cells ++ le 4 x.spill ++ le 4 x.charged ++ le 4 x.packets ++ le 4 x.red ++ [0, 0, 0, 0])

/-- OBSERVE_READ (R210–R212, R454). -/
def cmdObserveRead (r : Req) (s : State) : State × Reply :=
  let p := r.payload
  let o := fld p 4 1
  if bit o 2 then
    match targetPort r with
    | none => (s, errR stBadTarget)
    | some l =>
      if l.val > 9 ∨ bit o 1 = true ∨ fld p 0 4 ≠ 0 then (s, errR stBadTarget)
      else match portGate r s l with
        | some st => (s, errR st)
        | none => (s, okR ((linkOf s l).busy.flatMap (le 8)))
  else
    match targetDs r with
    | none => (s, errR stBadTarget)
    | some d =>
      match dsGate r s d, qselQueue s d p 0 with
      | some st, some _ => (s, errR st)
      | _, none => (s, errR stBadTarget)
      | none, some q =>
        let s1 := touchEpq q.1 s
        let e := (epqOf s1 q.1).getD q.2
        let body := queuePart s1 q.1 e ++ (if bit o 1 then samplePart e else [])
        let s2 := if bit o 0 then
            modEpq q.1 (fun x => { x with hwCells := epqCells x, hwSpill := epqBytes x .dram, hwWait := 0
                                          waitFrom := x.waitFrom.map (fun _ => s1.now) }) s1
          else s1
        (s2, okR body)

/-- OBSERVE_READ. -/
def execObserveRead (r : Req) (s : State) : Res := .next (runCmd specObserveRead cmdObserveRead r s)

/-! ### Placement commands (R231, R232, R455) -/

/-- The spec of PLACE_STATUS (R455). -/
def specPlaceStatus : CmdSpec := { opcode := 0x0401, cls := .run, lenOk := len 4 }

/-- PLACE_STATUS (R232, R455). -/
def cmdPlaceStatus (r : Req) (s : State) : State × Reply :=
  let a := fld r.payload 0 2
  let n := fld r.payload 2 2
  if !noTarget r || decide (a + n > 512) then (s, errR stBadTarget)
  else
    let p := s.place
    (s, okR (le 4 p.swaps ++ le 4 p.minimal ++ le 4 p.restarts ++ le 4 p.abandoned ++ le 4 p.moves ++ le 1 (b2n p.frozen) ++
      [0, 0, 0] ++ le 8 p.lastSwap ++ p.load.flatMap (le 1) ++ p.tagHw.flatMap (le 1) ++
      (List.range n).flatMap (fun i => le 4 (plEntry s (a + i)))))

/-- PLACE_STATUS. -/
def execPlaceStatus (r : Req) (s : State) : Res := .next (runCmd specPlaceStatus cmdPlaceStatus r s)

/-- Queues pinned to a Chervil, those that wait for a swap included (R231). -/
def pinCount (s : State) (c : Fin 8) (skip : Nat) : Nat :=
  (s.epqs.filter (fun e => e.1 != skip && (match tabGet s.place.pins e.1 with
    | some (some t, _) => t == some c
    | _ => e.2.pinChv == some c))).length

/-- The spec of PLACE_PIN (R455). -/
def specPlacePin : CmdSpec :=
  { opcode := 0x0402, cls := .run, lenOk := len 8
    resvOk := fun p => zeroAt 3 1 p && decide (fld p 4 1 < 4) && decide (fld p 5 1 < 4) }

/-- PLACE_PIN (R229, R231): at the next swap; a second one for the queue replaces the first. -/
def cmdPlacePin (r : Req) (s : State) : State × Reply :=
  match targetDs r with
  | none => (s, errR stBadTarget)
  | some d =>
    let p := r.payload
    let set := fld p 4 1
    let clr := fld p 5 1
    match qselQueue s d p 0 with
    | none => (s, errR stBadTarget)
    | some q =>
      if h : fld p 6 1 < 8 then
        let c : Fin 8 := ⟨fld p 6 1, h⟩
        let sealed_ := isSealed s d
        if decide (fld p 7 1 > 2) || (set &&& clr) != 0 || (bit set 1 && fld p 7 1 == 2 && q.2.cls != 4) ||
            (bit set 0 && !sealed_ && decide (pinCount s c q.1 ≥ 48)) then (s, errR stBadTarget)
        else match dsGate r s d with
          | some st => (s, errR st)
          | none =>
            let pc : Option (Option (Fin 8)) := if bit set 0 then some (some c) else if bit clr 0 then some none else none
            let pp : Option (Option Nat) := if bit set 1 then some (some (fld p 7 1)) else if bit clr 1 then some none else none
            let s1 := finalCpl (.pin q.1) stSuperseded [] s
            (modPlace (fun x => { x with
              pins := tabPut x.pins q.1 (pc, pp)
              rebuild := x.rebuild.map (fun b => { b with pins := b.pins.filter (· ≠ q.1) }) }) s1, accR (.pin q.1))
      else (s, errR stBadTarget)

/-- PLACE_PIN. -/
def execPlacePin (r : Req) (s : State) : Res := .next (runCmd specPlacePin cmdPlacePin r s)

/-- The spec of PLACE_REBUILD (R455). -/
def specPlaceRebuild : CmdSpec := { opcode := 0x0403, cls := .run, lenOk := len 4, resvOk := zeroAt 1 3 }

/-- PLACE_REBUILD (R232). -/
def cmdPlaceRebuild (r : Req) (s : State) : State × Reply :=
  if !noTarget r then (s, errR stBadTarget)
  else match fld r.payload 0 1 with
    | 0 => (modPlace (fun p => { p with nowReq := true, rebuild := p.rebuild.map (fun b => { b with now_ := false }) })
        (finalCpl .rebuild stSuperseded [] s), accR .rebuild)
    | 1 => (modPlace (fun p => { p with frozen := true }) s, okR [])
    | 2 => (modPlace (fun p => { p with frozen := false }) s, okR [])
    | _ => (s, errR stBadTarget)

/-- PLACE_REBUILD. -/
def execPlaceRebuild (r : Req) (s : State) : Res := .next (runCmd specPlaceRebuild cmdPlaceRebuild r s)

end Sys2Proof.Machine
end

