-- ==== Sys2Proof/Machine/Take.lean ====
section
/-! DEFINITION. Sage taking a command from the rings (R425–R431, R439, R446). -/

set_option Elab.async false

namespace Sys2Proof.Machine

/-- The meaning of an opcode (chapter 19); none where the opcode does not exist. -/
def serveOp (op : Nat) (r : Req) (s : State) : Option Res := match op with
  | 0x0101 => some (execIdentify r s)
  | 0x0102 => some (execModeRequest r s)
  | 0x0103 => some (execModeStatus r s)
  | 0x0104 => some (execLaneTimeRead r s)
  | 0x0105 => some (execWakeRecordRead r s)
  | 0x0201 => some (execPortAssign r s)
  | 0x0202 => some (execPortStatus r s)
  | 0x0203 => some (execGuardRuleSet r s)
  | 0x0301 => some (execSchedSet r s)
  | 0x0302 => some (execShaperSet r s)
  | 0x0303 => some (execPolicerSet r s)
  | 0x0304 => some (execObserveRead r s)
  | 0x0401 => some (execPlaceStatus r s)
  | 0x0402 => some (execPlacePin r s)
  | 0x0403 => some (execPlaceRebuild r s)
  | 0x0501 => some (execVigilPolicySet r s)
  | 0x0502 => some (execVigilArm r s)
  | 0x0503 => some (execVigilStatus r s)
  | 0x0504 => some (execCaptureRead r s)
  | 0x0505 => some (execFailoverSet r s)
  | 0x0506 => some (execFailback r s)
  | 0x0601 => some (execPowerBudgetSet r s)
  | 0x0602 => some (execPortPowerPolicy r s)
  | 0x0603 => some (execContractStatus r s)
  | 0x0604 => some (execRoleSwap r s)
  | 0x0701 => some (execGuardStatus r s)
  | 0x0702 => some (execDpRoute r s)
  | 0x0703 => some (execDrawerKick r s)
  | 0x0801 => some (execFaultRead r s)
  | 0x0802 => some (execFaultAck r s)
  | 0x0803 => some (execFaultInject r s)
  | 0x0804 => some (execFence r s)
  | 0x0805 => some (execUnfence r s)
  | 0x0901 => some (execAlmanacRead r s)
  | 0x0902 => some (execAlmanacWrite r s)
  | 0x0903 => some (execAlmanacWear r s)
  | 0x0A01 => some (execFwStage r s)
  | 0x0A02 => some (execFwActivate r s)
  | 0x0A03 => some (execFwStatus r s)
  | 0x0B01 => some (execLoopback r s)
  | 0x0B02 => some (execEcho r s)
  | 0x0B03 => some (execPattern r s)
  | 0x0C01 => some (execRegRead r s)
  | 0x0C02 => some (execRegWrite r s)
  | _ => none

/-- The bytes of the largest result that the immediate completion of a command can carry, as the command is written (R430): none where
it answers ACCEPTED or a status alone. -/
def resultBytes (op target : Nat) (p : List Byte) : Nat := match op with
  | 0x0101 => 62
  | 0x0102 => 4
  | 0x0103 | 0x0104 => 28
  | 0x0105 => 16
  | 0x0202 => 64
  | 0x0301 => p.length
  | 0x0304 => if bit (fld p 4 1) 2 then 40 else if bit (fld p 4 1) 1 then 1008 else 80
  | 0x0401 => 48 + 4 * fld p 2 2
  | 0x0502 => 2
  | 0x0503 => if target = 0x10 ∨ target = 0x11 then 50 else 84
  | 0x0504 => 1008
  | 0x0603 => 36
  | 0x0701 => 124
  | 0x0801 => if target = 0xFF then 1008 else 60
  | 0x0901 | 0x0903 | 0x0C01 => 4 * fld p 2 2
  | 0x0902 => 4
  | 0x0A03 => 60
  | 0x0B02 => p.length
  | _ => 0

/-- The header checks of R428 on the slot at an index. -/
def headerOk (g : Ring) (mem : List Host.Cell) (i : Nat) : Bool :=
  let h := readSlots g mem i 1
  crc32c (h.take 12) == fld h 12 4

/-- Slots from an index on whose header check fails, up to TAIL (R428). -/
def badSlots (g : Ring) (mem : List Host.Cell) : Nat → Nat → Nat
  | 0, _ => 0
  | n + 1, i => if headerOk g mem i then 0 else 1 + badSlots g mem n (i + 1)

/-- What Sage finds at the head of a command ring (R428): the slots it consumes, and the request or the completion it answers. -/
inductive Head where
  | bad (skipped : Nat)
  | wrong (slots status op : Nat) (flags : Byte) (tag : Word)
  | cmd (slots op : Nat) (r : Req)
  deriving DecidableEq, Repr

/-- The transport that sent a command (R432): on CMD0 the one recorded with its slot. -/
def senderOf (m : Mbx) (k : Fin 8) : Transport :=
  if k.val = 0 then ((m.cmd0Via.find? (fun e => e.1 == (m.rings[(0 : Fin 16)]).head)).map (·.2)).getD .spit
  else match pairOwner m k with
    | 2 => .i2ct
    | 3 => .lmf .us0
    | 4 => .lmf .us1
    | _ => .spit

/-- The head of a command ring that is not empty (R425, R426, R428). -/
def readHead (m : Mbx) (k : Fin 8) (badWord : Option Nat) : Head :=
  let g := m.rings[cmdRing k]
  let count := ringCount g
  if !headerOk g m.mem g.head then .bad (1 + badSlots g m.mem (count - 1) (g.head + 1))
  else
    let h := readSlots g m.mem g.head 1
    let op := fld h 0 2
    let flags : Byte := BitVec.ofNat 8 (fld h 2 1)
    let tag : Word := BitVec.ofNat 32 (fld h 4 4)
    let n := fld h 3 1
    let len := fld h 8 2
    let pchk := bit flags.toNat 0
    if n < 1 ∨ n > 16 ∨ n ≠ slotsFor len pchk ∨ n > count then .wrong (max 1 (min n count)) stBadLength op flags tag
    else
      let raw := readSlots g m.mem g.head n
      let p := slice raw 16 len
      if pchk && crc32c p != fld raw (16 + len) 4 then .wrong n stBadCheck op flags tag
      else .cmd n op { ring := k, via := senderOf m k, flags := flags, tag := tag, target := BitVec.ofNat 16 (fld h 10 2)
                       payload := p, badWord := badWord }

/-- The slots of the first entry of the immediate completion (R430). -/
def firstSlots (h : Head) : Nat := match h with
  | .bad _ => 1
  | .wrong .. => 1
  | .cmd _ op r =>
    let pchk := bit r.flags.toNat 0
    slotsFor (min (if pchk then 1004 else 1008) (resultBytes op r.target.toNat r.payload)) pchk

/-- A ring of a fenced pair is not taken from (R430, R439). -/
def pairFenced (s : State) (k : Fin 8) : Bool :=
  unitFenced s .mbx (.ring k.val) || unitFenced s .mbx (.ring (k.val + 8))

/-- Sage may take from a ring (R427, R430, R435). -/
def mayTake (s : State) (k : Fin 8) : Bool :=
  let m := s.mbx
  let g := m.rings[cmdRing k]
  ringCount g != 0 && ringRuns m (cmdRing k) && ringRuns m (cplRing k) && !pairFenced s k &&
  (let h := readHead m k none
   let barrier := match h with
     | .cmd _ _ r => bit r.flags.toNat 1
     | .wrong _ _ _ f _ => bit f.toNat 1
     | .bad _ => false
   m.waiting[k].isEmpty && decide (firstSlots h ≤ ringFree m.rings[cplRing k]) && !(barrier && m.acc.any (fun a => a.ring == k)))

/-- The order in which the rings are looked at (R418, R430): CMD0, then CMD1–CMD7 in turn; in SAFE CMD0 and CMD1 alone. -/
def takeOrder (s : State) : List (Fin 8) :=
  if safeHolds s then [0, 1]
  else 0 :: (List.range 7).map (fun i => ⟨(s.mbx.rr + 6 + i) % 7 + 1, by omega⟩)

/-- The slots of a command consumed (R428): HEAD advances past them, and the turn passes to the next ring. -/
def consume (k : Fin 8) (n : Nat) (m : Mbx) : Mbx :=
  let g := m.rings[cmdRing k]
  let gone (i : Nat) : Bool := decide ((i + 65536 - g.head) % 65536 < n)
  { m with rings := m.rings.set (cmdRing k) { g with head := (g.head + n) % 65536 }
           cmd0Via := if k.val = 0 then m.cmd0Via.filter (fun e => !gone e.1) else m.cmd0Via
           rr := if k.val = 0 then m.rr else k.val % 7 + 1 }

/-- A completion whose command was not carried out, on the paired ring (R428). -/
def refuseTake (k : Fin 8) (via : Transport) (op status : Nat) (flags : Byte) (tag : Word) (payload : List Byte) (s : State) : State :=
  let r : Req := { ring := k, via := via, flags := flags, tag := tag, target := 0, payload := [], badWord := none }
  postReply op r { status := status, parts := [payload] } s

/-- One command taken from a ring (R428, R429). -/
def takeFrom (k : Fin 8) (badWord : Option Nat) (s : State) : Res :=
  let via := senderOf s.mbx k
  match readHead s.mbx k badWord with
  | .bad n => .next (refuseTake k via 0 stBadCheck 0 0 (le 2 n) { s with mbx := consume k n s.mbx })
  | .wrong n st op f t => .next (refuseTake k via op st f t [] { s with mbx := consume k n s.mbx })
  | .cmd n op r =>
    let s1 := { s with mbx := consume k n s.mbx }
    match serveOp op r s1 with
    | some x => x
    | none => .next (refuseTake k via op stBadOpcode r.flags r.tag [] s1)

/-- COMMAND_TAKE (R428–R431, R446): rings are served from BOOT step 8 on, and not in sleep; with nothing to take nothing happens. -/
def execCommandTake (badWord : Option Nat) (s : State) : Res :=
  let s := fresh s
  if !s.sup.ready || asleep s || s.sup.sysLow || s.sup.porLow || s.pmu.reported == .off then .next s
  else match (takeOrder s).find? (mayTake s) with
    | none => .next s
    | some k => takeFrom k badWord s

end Sys2Proof.Machine
end

