-- ==== Sys2Proof/Machine/Dispatch.lean ====
section
/-! DEFINITION. One arm per command: the direct call of its meaning, or its rejection by name. -/

namespace Sys2Proof.Machine

/-- The effect of a command on everything but the queue. -/
def exec (i : Instr) (s : State) : Host.Outcome State Fault Refusal :=
  match i with
  | .porNAssert cycles => Sys2Proof.Machine.execPorNAssert cycles s
  | .porNRelease b => Sys2Proof.Machine.execPorNRelease b s
  | .vddAonBrownout ns => Sys2Proof.Machine.execVddAonBrownout ns s
  | .laneSupplyLoss => Sys2Proof.Machine.execLaneSupplyLoss s
  | .sysResetNFall cycles dmcOk => Sys2Proof.Machine.execSysResetNFall cycles dmcOk s
  | .sysResetNRise b => Sys2Proof.Machine.execSysResetNRise b s
  | .bootComplete reg => Sys2Proof.Machine.execBootComplete reg s
  | .upstreamConnect u => Sys2Proof.Machine.execUpstreamConnect u s
  | .recovLoad => Sys2Proof.Machine.execRecovLoad s
  | .recovFinish b => Sys2Proof.Machine.execRecovFinish b s
  | .recovAbort => Sys2Proof.Machine.execRecovAbort s
  | .trialConfirm => Sys2Proof.Machine.execTrialConfirm s
  | .plannedWarmRestart dmcOk b => Sys2Proof.Machine.execPlannedWarmRestart dmcOk b s
  | .vddio1v8Loss => Sys2Proof.Machine.execVddio1v8Loss s
  | .corePgLow ns => Sys2Proof.Machine.execCorePgLow ns s
  | .ref25Loss ns => Sys2Proof.Machine.execRef25Loss ns s
  | .pllUnlock w => Sys2Proof.Machine.execPllUnlock w s
  | .xtal32kFail ns => Sys2Proof.Machine.execXtal32kFail ns s
  | .xtal32kSwitchToCrystal stableNs => Sys2Proof.Machine.execXtal32kSwitchToCrystal stableNs s
  | .aonRcCalibration ratioE6 => Sys2Proof.Machine.execAonRcCalibration ratioE6 s
  | .aonLow ns => Sys2Proof.Machine.execAonLow ns s
  | .coreRegStatusPoll status iout vout iout2 => Sys2Proof.Machine.execCoreRegStatusPoll status iout vout iout2 s
  | .coreRegTempPoll temp => Sys2Proof.Machine.execCoreRegTempPoll temp s
  | .oppChangeStart badOrder => Sys2Proof.Machine.execOppChangeStart badOrder s
  | .oppVoltageConfirmed mv => Sys2Proof.Machine.execOppVoltageConfirmed mv s
  | .oppConfirmTimeout => Sys2Proof.Machine.execOppConfirmTimeout s
  | .suspendEntry => Sys2Proof.Machine.execSuspendEntry s
  | .suspendWake cls port detail => Sys2Proof.Machine.execSuspendWake cls port detail s
  | .sleepEntry phi dmcOk b => Sys2Proof.Machine.execSleepEntry phi dmcOk b s
  | .lovageCcSample p pattern b => Sys2Proof.Machine.execLovageCcSample p pattern b s
  | .wakeNPulse gap width b => Sys2Proof.Machine.execWakeNPulse gap width b s
  | .spitCsNWake b => Sys2Proof.Machine.execSpitCsNWake b s
  | .rtcAlarm b => Sys2Proof.Machine.execRtcAlarm b s
  | .psAlertN p status feFault tries b => Sys2Proof.Machine.execPsAlertN p status feFault tries b s
  | .laneTimeEdgeCorrection => Sys2Proof.Machine.execLaneTimeEdgeCorrection s
  | .pkbScrub word flips overwritten => Sys2Proof.Machine.execPkbScrub word flips overwritten s
  | .dramScrubUnit flips => Sys2Proof.Machine.execDramScrubUnit flips s
  | .dramRefreshRateRead mult => Sys2Proof.Machine.execDramRefreshRateRead mult s
  | .spillRefill epq => Sys2Proof.Machine.execSpillRefill epq s
  | .ssHeaderDownstream u h crcOk => Sys2Proof.Machine.execSsHeaderDownstream u h crcOk s
  | .ssHeaderUpstream d h crcOk => Sys2Proof.Machine.execSsHeaderUpstream d h crcOk s
  | .dppReceived p data crcOk => Sys2Proof.Machine.execDppReceived p data crcOk s
  | .itpReceived u stamp => Sys2Proof.Machine.execItpReceived u stamp s
  | .deferredHeaderDelivery d => Sys2Proof.Machine.execDeferredHeaderDelivery d s
  | .egressSelect p prio => Sys2Proof.Machine.execEgressSelect p prio s
  | .egressRecoveryCut p => Sys2Proof.Machine.execEgressRecoveryCut p s
  | .functionWake d h => Sys2Proof.Machine.execFunctionWake d h s
  | .dsLinkIdleTimeout d isU2 => Sys2Proof.Machine.execDsLinkIdleTimeout d isU2 s
  | .dsDeviceLpmRequest d isU2 => Sys2Proof.Machine.execDsDeviceLpmRequest d isU2 s
  | .usLinkLpmRequest u isU2 => Sys2Proof.Machine.execUsLinkLpmRequest u isU2 s
  | .usLinkIdleTimeout u isU2 => Sys2Proof.Machine.execUsLinkIdleTimeout u isU2 s
  | .dsLinkLeavesU0 d c => Sys2Proof.Machine.execDsLinkLeavesU0 d c s
  | .hsPacketRepeat f k => Sys2Proof.Machine.execHsPacketRepeat f k s
  | .ssplitNonPeriodic u v addr ep dirIn setup ctl low pid data crcOk => Sys2Proof.Machine.execSsplitNonPeriodic u v addr ep dirIn setup ctl low pid data crcOk s
  | .csplitNonPeriodic u v addr ep dirIn => Sys2Proof.Machine.execCsplitNonPeriodic u v addr ep dirIn s
  | .ttTransactionStart d => Sys2Proof.Machine.execTtTransactionStart d s
  | .ttTransactionEnd d r => Sys2Proof.Machine.execTtTransactionEnd d r s
  | .ssplitPeriodic u v addr ep dirIn iso low pid data => Sys2Proof.Machine.execSsplitPeriodic u v addr ep dirIn iso low pid data s
  | .csplitPeriodic u v addr ep dirIn => Sys2Proof.Machine.execCsplitPeriodic u v addr ep dirIn s
  | .ttPeriodicSlotRun d rs => Sys2Proof.Machine.execTtPeriodicSlotRun d rs s
  | .ttSlotResultExpiry d => Sys2Proof.Machine.execTtSlotResultExpiry d s
  | .ttFsFrameStart u frame => Sys2Proof.Machine.execTtFsFrameStart u frame s
  | .spilledResultFetch d addr ep => Sys2Proof.Machine.execSpilledResultFetch d addr ep s
  | .babbleDetect d cutPacket => Sys2Proof.Machine.execBabbleDetect d cutPacket s
  | .clearTtBuffer u wValue wIndex => Sys2Proof.Machine.execClearTtBuffer u wValue wIndex s
  | .resetTt u wIndex => Sys2Proof.Machine.execResetTt u wIndex s
  | .getTtState u wIndex => Sys2Proof.Machine.execGetTtState u wIndex s
  | .stopTt u wIndex => Sys2Proof.Machine.execStopTt u wIndex s
  | .companionSetInterface u alt => Sys2Proof.Machine.execCompanionSetInterface u alt s
  | .portResetRequest u v => Sys2Proof.Machine.execPortResetRequest u v s
  | .deviceChirpK d ns => Sys2Proof.Machine.execDeviceChirpK d ns s
  | .chirpTimeout d => Sys2Proof.Machine.execChirpTimeout d s
  | .portResetEnd d hsIdle => Sys2Proof.Machine.execPortResetEnd d hsIdle s
  | .upstreamUsb2Reset u chirpAnswered => Sys2Proof.Machine.execUpstreamUsb2Reset u chirpAnswered s
  | .ssHotReset u v => Sys2Proof.Machine.execSsHotReset u v s
  | .ssWarmReset u v => Sys2Proof.Machine.execSsWarmReset u v s
  | .ssResetComplete d reached => Sys2Proof.Machine.execSsResetComplete d reached s
  | .emptySlotResetComplete u v => Sys2Proof.Machine.execEmptySlotResetComplete u v s
  | .dsLpmToken d viaTt addr answer besl remoteWake => Sys2Proof.Machine.execDsLpmToken d viaTt addr answer besl remoteWake s
  | .clearPortL1 u v => Sys2Proof.Machine.execClearPortL1 u v s
  | .l1DeviceWake d => Sys2Proof.Machine.execL1DeviceWake d s
  | .companionLpm u linkState besl remoteWake => Sys2Proof.Machine.execCompanionLpm u linkState besl remoteWake s
  | .companionL1Exit u byDev => Sys2Proof.Machine.execCompanionL1Exit u byDev s
  | .refillTick => Sys2Proof.Machine.execRefillTick s
  | .observeSample => Sys2Proof.Machine.execObserveSample s
  | .placementAgentSample loads waits => Sys2Proof.Machine.execPlacementAgentSample loads waits s
  | .rebuildStart => Sys2Proof.Machine.execRebuildStart s
  | .deltaLogMerge => Sys2Proof.Machine.execDeltaLogMerge s
  | .equinoxSwap => Sys2Proof.Machine.execEquinoxSwap s
  | .minimalSwap => Sys2Proof.Machine.execMinimalSwap s
  | .hostAbsence u c => Sys2Proof.Machine.execHostAbsence u c s
  | .sofKeepingStart u => Sys2Proof.Machine.execSofKeepingStart u s
  | .keptSof u => Sys2Proof.Machine.execKeptSof u s
  | .keptPortSuspend u => Sys2Proof.Machine.execKeptPortSuspend u s
  | .proxyPoll c ep r => Sys2Proof.Machine.execProxyPoll c ep r s
  | .heldDeviceRemoteWake d => Sys2Proof.Machine.execHeldDeviceRemoteWake d s
  | .proxyLpmIdle d answer => Sys2Proof.Machine.execProxyLpmIdle d answer s
  | .hubSetConfiguration u ss addr value => Sys2Proof.Machine.execHubSetConfiguration u ss addr value s
  | .returningHostFirstPacket u => Sys2Proof.Machine.execReturningHostFirstPacket u s
  | .deviceControlRequest u d hubPort ss addr q data fin eps => Sys2Proof.Machine.execDeviceControlRequest u d hubPort ss addr q data fin eps s
  | .absorbedResetComplete d hubPort ss => Sys2Proof.Machine.execAbsorbedResetComplete d hubPort ss s
  | .holdExpiry u b => Sys2Proof.Machine.execHoldExpiry u b s
  | .failoverDecision u => Sys2Proof.Machine.execFailoverDecision u s
  | .failoverPortStart u => Sys2Proof.Machine.execFailoverPortStart u s
  | .failbackAuto u => Sys2Proof.Machine.execFailbackAuto u s
  | .failbackDeferTimeout d => Sys2Proof.Machine.execFailbackDeferTimeout d s
  | .moveOldOwnerDisconnect d => Sys2Proof.Machine.execMoveOldOwnerDisconnect d s
  | .moveDrainComplete d => Sys2Proof.Machine.execMoveDrainComplete d s
  | .hubReconnect u => Sys2Proof.Machine.execHubReconnect u s
  | .getPortVendorStatus u ss wIndex => Sys2Proof.Machine.execGetPortVendorStatus u ss wIndex s
  | .clearPortVendorStatus u ss wIndex mask => Sys2Proof.Machine.execClearPortVendorStatus u ss wIndex mask s
  | .setPortPower u ss v => Sys2Proof.Machine.execSetPortPower u ss v s
  | .clearPortPower u ss v => Sys2Proof.Machine.execClearPortPower u ss v s
  | .setHubDepth u depth => Sys2Proof.Machine.execSetHubDepth u depth s
  | .setPortU1U2Timeout u v isU2 value => Sys2Proof.Machine.execSetPortU1U2Timeout u v isU2 value s
  | .setPortRemoteWakeMask u v mask => Sys2Proof.Machine.execSetPortRemoteWakeMask u v mask s
  | .clearPortChangeFeature u ss v c => Sys2Proof.Machine.execClearPortChangeFeature u ss v c s
  | .hubStatusPoll u ss => Sys2Proof.Machine.execHubStatusPoll u ss s
  | .portSuspendRequest u ss v => Sys2Proof.Machine.execPortSuspendRequest u ss v s
  | .usb2PortResumeRequest u v => Sys2Proof.Machine.execUsb2PortResumeRequest u v s
  | .usb2PortResumeEnd d => Sys2Proof.Machine.execUsb2PortResumeEnd d s
  | .ssPortResumeRequest u v => Sys2Proof.Machine.execSsPortResumeRequest u v s
  | .companionUpstreamSuspend u => Sys2Proof.Machine.execCompanionUpstreamSuspend u s
  | .ssUpstreamU3 u => Sys2Proof.Machine.execSsUpstreamU3 u s
  | .hostResumeK u ns => Sys2Proof.Machine.execHostResumeK u ns s
  | .hostU3Exit u => Sys2Proof.Machine.execHostU3Exit u s
  | .deviceRemoteWake d ss ns => Sys2Proof.Machine.execDeviceRemoteWake d ss ns s
  | .hubEventRemoteWake d ss ev => Sys2Proof.Machine.execHubEventRemoteWake d ss ev s
  | .ssReceiverDetectStart d => Sys2Proof.Machine.execSsReceiverDetectStart d s
  | .usb2Connect d low ns => Sys2Proof.Machine.execUsb2Connect d low ns s
  | .ssLinkUp d gen2 => Sys2Proof.Machine.execSsLinkUp d gen2 s
  | .ssTrainingFail d => Sys2Proof.Machine.execSsTrainingFail d s
  | .identityProbe d id => Sys2Proof.Machine.execIdentityProbe d id s
  | .usb2Disconnect d ns => Sys2Proof.Machine.execUsb2Disconnect d ns s
  | .ssDisconnect d noTerm => Sys2Proof.Machine.execSsDisconnect d noTerm s
  | .ccPatternChange p pattern flip => Sys2Proof.Machine.execCcPatternChange p pattern flip s
  | .ccAttachDebounce p vbs wet => Sys2Proof.Machine.execCcAttachDebounce p vbs wet s
  | .ccDetachDebounce p => Sys2Proof.Machine.execCcDetachDebounce p s
  | .errorRecoveryEnd p => Sys2Proof.Machine.execErrorRecoveryEnd p s
  | .drpToggle u => Sys2Proof.Machine.execDrpToggle u s
  | .drpAttachDebounce u vbs => Sys2Proof.Machine.execDrpAttachDebounce u vbs s
  | .usPartnerRpChange u level => Sys2Proof.Machine.execUsPartnerRpChange u level s
  | .usSinkVbusLoss u => Sys2Proof.Machine.execUsSinkVbusLoss u s
  | .hardwareDetachGuard p => Sys2Proof.Machine.execHardwareDetachGuard p s
  | .fastRemoval p vbs => Sys2Proof.Machine.execFastRemoval p vbs s
  | .vconnStable p => Sys2Proof.Machine.execVconnStable p s
  | .discoverIdentityRetry p => Sys2Proof.Machine.execDiscoverIdentityRetry p s
  | .discoveryCutoff p => Sys2Proof.Machine.execDiscoveryCutoff p s
  | .pdMessageReceived p sop header data crcOk => Sys2Proof.Machine.execPdMessageReceived p sop header data crcOk s
  | .pdTxHandover p => Sys2Proof.Machine.execPdTxHandover p s
  | .pdTxGoodcrcTimeout p => Sys2Proof.Machine.execPdTxGoodcrcTimeout p s
  | .pdTxDone p => Sys2Proof.Machine.execPdTxDone p s
  | .thymeNotice p => Sys2Proof.Machine.execThymeNotice p s
  | .hardResetReceived p => Sys2Proof.Machine.execHardResetReceived p s
  | .hardResetSent p => Sys2Proof.Machine.execHardResetSent p s
  | .cableResetReceived u => Sys2Proof.Machine.execCableResetReceived u s
  | .softResetReceived p => Sys2Proof.Machine.execSoftResetReceived p s
  | .thymeActivation t => Sys2Proof.Machine.execThymeActivation t s
  | .getRevision p => Sys2Proof.Machine.execGetRevision p s
  | .pdRequest p => Sys2Proof.Machine.execPdRequest p s
  | .budgetReduction p => Sys2Proof.Machine.execBudgetReduction p s
  | .reductionResponseTimeout p => Sys2Proof.Machine.execReductionResponseTimeout p s
  | .sourceCapsSend p => Sys2Proof.Machine.execSourceCapsSend p s
  | .sourceCapsRetry p => Sys2Proof.Machine.execSourceCapsRetry p s
  | .sinkCapabilitiesReceived p => Sys2Proof.Machine.execSinkCapabilitiesReceived p s
  | .eprModeEnter p => Sys2Proof.Machine.execEprModeEnter p s
  | .eprModeExit p => Sys2Proof.Machine.execEprModeExit p s
  | .eprKeepalive p => Sys2Proof.Machine.execEprKeepalive p s
  | .ppsTimeout p => Sys2Proof.Machine.execPpsTimeout p s
  | .eprKeepaliveTimeout p => Sys2Proof.Machine.execEprKeepaliveTimeout p s
  | .getSinkCapOnDs d => Sys2Proof.Machine.execGetSinkCapOnDs d s
  | .prSwapReceived p => Sys2Proof.Machine.execPrSwapReceived p s
  | .drSwapReceived p => Sys2Proof.Machine.execDrSwapReceived p s
  | .vconnSwapReceived p => Sys2Proof.Machine.execVconnSwapReceived p s
  | .swapResponseReceived u => Sys2Proof.Machine.execSwapResponseReceived u s
  | .swapWaitRetry u jitter => Sys2Proof.Machine.execSwapWaitRetry u jitter s
  | .prSwapSequence u => Sys2Proof.Machine.execPrSwapSequence u s
  | .dataRoleSwapRequest u => Sys2Proof.Machine.execDataRoleSwapRequest u s
  | .frsSignal u => Sys2Proof.Machine.execFrsSignal u s
  | .frSwapReceived u => Sys2Proof.Machine.execFrSwapReceived u s
  | .frSwapInitTimeout u => Sys2Proof.Machine.execFrSwapInitTimeout u s
  | .transitionLimitsWrite p => Sys2Proof.Machine.execTransitionLimitsWrite p s
  | .adcConversion volts => Sys2Proof.Machine.execAdcConversion volts s
  | .transitionTimeout p => Sys2Proof.Machine.execTransitionTimeout p s
  | .vbusOvpTrip p => Sys2Proof.Machine.execVbusOvpTrip p s
  | .vbusUvpTrip p => Sys2Proof.Machine.execVbusUvpTrip p s
  | .psfRise p status => Sys2Proof.Machine.execPsfRise p status s
  | .stageOcShutdown p => Sys2Proof.Machine.execStageOcShutdown p s
  | .stageStatusPoll p status tries => Sys2Proof.Machine.execStageStatusPoll p status tries s
  | .stageVoutIoutPoll p vout iout tries => Sys2Proof.Machine.execStageVoutIoutPoll p vout iout tries s
  | .stageTempPoll p temp tries => Sys2Proof.Machine.execStageTempPoll p temp tries s
  | .psi2cBusStuck => Sys2Proof.Machine.execPsi2cBusStuck s
  | .hardResetVbusOff p => Sys2Proof.Machine.execHardResetVbusOff p s
  | .hardResetRecover p => Sys2Proof.Machine.execHardResetRecover p s
  | .guardReading p first again b => Sys2Proof.Machine.execGuardReading p first again b s
  | .guardWeekEnd => Sys2Proof.Machine.execGuardWeekEnd s
  | .dpVdmAck d => Sys2Proof.Machine.execDpVdmAck d s
  | .dpEntryStart d => Sys2Proof.Machine.execDpEntryStart d s
  | .dpVdmTimeout d => Sys2Proof.Machine.execDpVdmTimeout d s
  | .dpAttention d => Sys2Proof.Machine.execDpAttention d s
  | .hpdTimer x => Sys2Proof.Machine.execHpdTimer x s
  | .dpExitMode d => Sys2Proof.Machine.execDpExitMode d s
  | .kickPulseEnd x => Sys2Proof.Machine.execKickPulseEnd x s
  | .drawerReport x => Sys2Proof.Machine.execDrawerReport x s
  | .lioSenseChange n level b => Sys2Proof.Machine.execLioSenseChange n level b s
  | .gpioEdge n rising => Sys2Proof.Machine.execGpioEdge n rising s
  | .faultLatch b src unit persistent => Sys2Proof.Machine.execFaultLatch b src unit persistent s
  | .levelFaultRepeat b src lasts => Sys2Proof.Machine.execLevelFaultRepeat b src lasts s
  | .sageLockstepMismatch => Sys2Proof.Machine.execSageLockstepMismatch s
  | .sageWatchdog ms => Sys2Proof.Machine.execSageWatchdog ms s
  | .sageTaskLate service => Sys2Proof.Machine.execSageTaskLate service s
  | .chervilHang c us => Sys2Proof.Machine.execChervilHang c us s
  | .thymeHang t us => Sys2Proof.Machine.execThymeHang t us s
  | .fabArbStall us => Sys2Proof.Machine.execFabArbStall us s
  | .tjSample tenths => Sys2Proof.Machine.execTjSample tenths s
  | .safeEntry dmcOk => Sys2Proof.Machine.execSafeEntry dmcOk s
  | .safeExit b => Sys2Proof.Machine.execSafeExit b s
  | .quietPeriodEnd b reads => Sys2Proof.Machine.execQuietPeriodEnd b reads s
  | .faultAutoAck b => Sys2Proof.Machine.execFaultAutoAck b s
  | .fltAckWrite b v => Sys2Proof.Machine.execFltAckWrite b v s
  | .fltForceWrite b v => Sys2Proof.Machine.execFltForceWrite b v s
  | .availabilityCheckpoint => Sys2Proof.Machine.execAvailabilityCheckpoint s
  | .spitFrame setup instr addr data reads b => Sys2Proof.Machine.execSpitFrame setup instr addr data reads b s
  | .ringTailWrite r v => Sys2Proof.Machine.execRingTailWrite r v s
  | .ringHeadWrite r v => Sys2Proof.Machine.execRingHeadWrite r v s
  | .ringCtrlRun r on => Sys2Proof.Machine.execRingCtrlRun r on s
  | .ringCtrlReset r => Sys2Proof.Machine.execRingCtrlReset r s
  | .ringGeomWrite r base log2 => Sys2Proof.Machine.execRingGeomWrite r base log2 s
  | .ringAssignWrite v => Sys2Proof.Machine.execRingAssignWrite v s
  | .irqStatusClear v => Sys2Proof.Machine.execIrqStatusClear v s
  | .prioDoorbell n => Sys2Proof.Machine.execPrioDoorbell n s
  | .registerWrite addr v b => Sys2Proof.Machine.execRegisterWrite addr v b s
  | .commandTake badWord => Sys2Proof.Machine.execCommandTake badWord s
  | .cpl0EntryExpiry => Sys2Proof.Machine.execCpl0EntryExpiry s
  | .i2ctStatus addr pec => Sys2Proof.Machine.execI2ctStatus addr pec s
  | .i2ctCmd4Submit addr data pec => Sys2Proof.Machine.execI2ctCmd4Submit addr data pec s
  | .i2ctCpl4Fetch addr pec => Sys2Proof.Machine.execI2ctCpl4Fetch addr pec s
  | .i2ctCmd0Submit addr data pec => Sys2Proof.Machine.execI2ctCmd0Submit addr data pec s
  | .i2ctCpl0Fetch addr pec => Sys2Proof.Machine.execI2ctCpl0Fetch addr pec s
  | .i2ctBusTimeout ms => Sys2Proof.Machine.execI2ctBusTimeout ms s
  | .lmfCmd0Submit u wLength data => Sys2Proof.Machine.execLmfCmd0Submit u wLength data s
  | .lmfCpl0Fetch u wLength => Sys2Proof.Machine.execLmfCpl0Fetch u wLength s
  | .lmfRingStatus u => Sys2Proof.Machine.execLmfRingStatus u s
  | .lmfRingReset u => Sys2Proof.Machine.execLmfRingReset u s
  | .lmfBulkOut u packet last => Sys2Proof.Machine.execLmfBulkOut u packet last s
  | .lmfBulkIn u => Sys2Proof.Machine.execLmfBulkIn u s
  | .lmfInterruptReport u => Sys2Proof.Machine.execLmfInterruptReport u s
  | .lmfSetConfiguration u => Sys2Proof.Machine.execLmfSetConfiguration u s
  | .identify r => Sys2Proof.Machine.execIdentify r s
  | .modeRequest r => Sys2Proof.Machine.execModeRequest r s
  | .modeStatus r => Sys2Proof.Machine.execModeStatus r s
  | .laneTimeRead r => Sys2Proof.Machine.execLaneTimeRead r s
  | .wakeRecordRead r => Sys2Proof.Machine.execWakeRecordRead r s
  | .portAssign r => Sys2Proof.Machine.execPortAssign r s
  | .portStatus r => Sys2Proof.Machine.execPortStatus r s
  | .guardRuleSet r => Sys2Proof.Machine.execGuardRuleSet r s
  | .schedSet r => Sys2Proof.Machine.execSchedSet r s
  | .shaperSet r => Sys2Proof.Machine.execShaperSet r s
  | .policerSet r => Sys2Proof.Machine.execPolicerSet r s
  | .observeRead r => Sys2Proof.Machine.execObserveRead r s
  | .placeStatus r => Sys2Proof.Machine.execPlaceStatus r s
  | .placePin r => Sys2Proof.Machine.execPlacePin r s
  | .placeRebuild r => Sys2Proof.Machine.execPlaceRebuild r s
  | .vigilPolicySet r => Sys2Proof.Machine.execVigilPolicySet r s
  | .vigilArm r => Sys2Proof.Machine.execVigilArm r s
  | .vigilStatus r => Sys2Proof.Machine.execVigilStatus r s
  | .captureRead r => Sys2Proof.Machine.execCaptureRead r s
  | .failoverSet r => Sys2Proof.Machine.execFailoverSet r s
  | .failback r => Sys2Proof.Machine.execFailback r s
  | .powerBudgetSet r => Sys2Proof.Machine.execPowerBudgetSet r s
  | .portPowerPolicy r => Sys2Proof.Machine.execPortPowerPolicy r s
  | .contractStatus r => Sys2Proof.Machine.execContractStatus r s
  | .roleSwap r => Sys2Proof.Machine.execRoleSwap r s
  | .guardStatus r => Sys2Proof.Machine.execGuardStatus r s
  | .dpRoute r => Sys2Proof.Machine.execDpRoute r s
  | .drawerKick r => Sys2Proof.Machine.execDrawerKick r s
  | .faultRead r => Sys2Proof.Machine.execFaultRead r s
  | .faultAck r => Sys2Proof.Machine.execFaultAck r s
  | .faultInject r => Sys2Proof.Machine.execFaultInject r s
  | .fence r => Sys2Proof.Machine.execFence r s
  | .unfence r => Sys2Proof.Machine.execUnfence r s
  | .almanacRead r => Sys2Proof.Machine.execAlmanacRead r s
  | .almanacWrite r => Sys2Proof.Machine.execAlmanacWrite r s
  | .almanacWear r => Sys2Proof.Machine.execAlmanacWear r s
  | .fwStage r => Sys2Proof.Machine.execFwStage r s
  | .fwActivate r => Sys2Proof.Machine.execFwActivate r s
  | .fwStatus r => Sys2Proof.Machine.execFwStatus r s
  | .loopback r => Sys2Proof.Machine.execLoopback r s
  | .echo r => Sys2Proof.Machine.execEcho r s
  | .pattern r => Sys2Proof.Machine.execPattern r s
  | .regRead r => Sys2Proof.Machine.execRegRead r s
  | .regWrite r => Sys2Proof.Machine.execRegWrite r s
  | .loopbackEnd unit errors sink => Sys2Proof.Machine.execLoopbackEnd unit errors sink s
  | .patternComplete dmc errors corrected first => Sys2Proof.Machine.execPatternComplete dmc errors corrected first s
  | .pkbPatternCellFree cell errors corrected first => Sys2Proof.Machine.execPkbPatternCellFree cell errors corrected first s
  | .pkbPatternTimeout => Sys2Proof.Machine.execPkbPatternTimeout s
  | .remoteLoopbackRequest u => Sys2Proof.Machine.execRemoteLoopbackRequest u s
  | .complianceEntry u v => Sys2Proof.Machine.execComplianceEntry u v s
  | .compliancePingLfps p => Sys2Proof.Machine.execCompliancePingLfps p s
  | .usb2PortTest u v mode => Sys2Proof.Machine.execUsb2PortTest u v mode s
  | .usb2TestModeUpstream u mode => Sys2Proof.Machine.execUsb2TestModeUpstream u mode s
  | .bistMessage p => Sys2Proof.Machine.execBistMessage p s
  | .bistCarrierEnd p => Sys2Proof.Machine.execBistCarrierEnd p s
  | .jtagInstruction x trst cells => Sys2Proof.Machine.execJtagInstruction x trst cells s
  | .ref25Return => Sys2Proof.Machine.execRef25Return s
  | .ssPllRelock => Sys2Proof.Machine.execSsPllRelock s
  | .upstreamLinkTrained u gen2 lanes => Sys2Proof.Machine.execUpstreamLinkTrained u gen2 lanes s
  | .upstreamLinkInactive u noTerm => Sys2Proof.Machine.execUpstreamLinkInactive u noTerm s
  | .upstreamSsReset u warm => Sys2Proof.Machine.execUpstreamSsReset u warm s
  | .linkCommandReceived p c => Sys2Proof.Machine.execLinkCommandReceived p c s
  | .hubSetFeature u f on => Sys2Proof.Machine.execHubSetFeature u f on s
  | .hostResumeEop u => Sys2Proof.Machine.execHostResumeEop u s
  | .hostChirpKj u ns => Sys2Proof.Machine.execHostChirpKj u ns s
  | .u3ExitComplete d reached => Sys2Proof.Machine.execU3ExitComplete d reached s
  | .u3EntryComplete d acked => Sys2Proof.Machine.execU3EntryComplete d acked s
  | .pdSenderResponseTimeout p => Sys2Proof.Machine.execPdSenderResponseTimeout p s

end Sys2Proof.Machine
end

