-- ==== Sys2Proof/Safety.lean ====
section
/-! DEFINITION. The terms in which statements speak: the parts of the state, what a command leaves as it was, what a command
answers, and the forms that every step keeps. -/

set_option Elab.async false

namespace Sys2Proof.Machine

/-- The parts of the state, one for each field. -/
inductive Fld where
  | pending | out | now | freeSeq | mbx | flt | alm | pmu | reg | clk | wake | sup | fw | avail
  | hubs | own | dsd | usd | epqs | links | sched | place | memb | fab | u2d | u2u | vig | fo | tc
  | phy | pwr | lane | guard | dp | lio | test | therm
  deriving DecidableEq, Repr

/-- One part of a state beside the reset values of all others, so that two states agree in a part where these are equal. -/
def Fld.only (k : Fld) (s : State) : State := match k with
  | .pending => { State.reset with pending := s.pending }
  | .out => { State.reset with out := s.out }
  | .now => { State.reset with now := s.now }
  | .freeSeq => { State.reset with freeSeq := s.freeSeq }
  | .mbx => { State.reset with mbx := s.mbx }
  | .flt => { State.reset with flt := s.flt }
  | .alm => { State.reset with alm := s.alm }
  | .pmu => { State.reset with pmu := s.pmu }
  | .reg => { State.reset with reg := s.reg }
  | .clk => { State.reset with clk := s.clk }
  | .wake => { State.reset with wake := s.wake }
  | .sup => { State.reset with sup := s.sup }
  | .fw => { State.reset with fw := s.fw }
  | .avail => { State.reset with avail := s.avail }
  | .hubs => { State.reset with hubs := s.hubs }
  | .own => { State.reset with own := s.own }
  | .dsd => { State.reset with dsd := s.dsd }
  | .usd => { State.reset with usd := s.usd }
  | .epqs => { State.reset with epqs := s.epqs }
  | .links => { State.reset with links := s.links }
  | .sched => { State.reset with sched := s.sched }
  | .place => { State.reset with place := s.place }
  | .memb => { State.reset with memb := s.memb }
  | .fab => { State.reset with fab := s.fab }
  | .u2d => { State.reset with u2d := s.u2d }
  | .u2u => { State.reset with u2u := s.u2u }
  | .vig => { State.reset with vig := s.vig }
  | .fo => { State.reset with fo := s.fo }
  | .tc => { State.reset with tc := s.tc }
  | .phy => { State.reset with phy := s.phy }
  | .pwr => { State.reset with pwr := s.pwr }
  | .lane => { State.reset with lane := s.lane }
  | .guard => { State.reset with guard := s.guard }
  | .dp => { State.reset with dp := s.dp }
  | .lio => { State.reset with lio := s.lio }
  | .test => { State.reset with test := s.test }
  | .therm => { State.reset with therm := s.therm }

/-- The state t agrees with the state s in every part but those listed. -/
def Frame (l : List Fld) (s t : State) : Prop := ∀ k, k ∉ l → k.only t = k.only s

/-- A command answers a next state, changes no part of the state but those listed, and the next state is as said. -/
def Runs (i : Instr) (s : State) (l : List Fld) (P : State → Prop) : Prop :=
  ∃ t, exec i s = .next t ∧ Frame l s t ∧ P t

/-- A Martar command passes the checks that every command passes first (R427, R431, R441, R446). -/
abbrev Passes (c : CmdSpec) (r : Req) (s : State) : Prop := precheck c r s = none

/-- A result fits what its ring carries: on CMD4 no more than 255 bytes (R436). -/
abbrev FitsRing (r : Req) (rep : Reply) : Prop := r.ring.val = 4 → replyBytes r rep ≤ 255

/-- The state once the Thyme has taken the message in hand (R320). -/
def handed (p : Port) (s : State) : State := modPhy p (fun x => { x with inHand := none }) (fresh s)

/-- The state in which a sleep entry goes on: the running kick pulses have reached their lengths (R56). -/
def kicksEnded (s : State) : State := waitKick 1 (waitKick 0 (fresh s))

/-- The state in which a packet's command takes effect: a tick that is due at the present lane time has run (R8). -/
def begun (s : State) : State := dueTick (fresh s)

/-- The state in which a split phase is answered: its host heard, its bytes charged to the endpoint's queue (R195, R249). -/
def splitSeen (u : US) (d : DS) (a e : Nat) (i : Bool) (n : Nat) (s : State) : State :=
  chargeSplit u d (ttAddr s d a) e i n (hostSeen u (fresh s))

/-- A link's egress once the packet before is sent: freed, waiting packets admitted (R136, R200). -/
def egressFreed (p : Port) (s : State) : State :=
  linkRested p (settle (modLink p (fun l => { l with tx := none }) (begun s)))

/-- A link's egress with its waiting timestamp and headers sent (R134, R192). -/
def egressReady (p : Port) (s : State) : State := flushHdr p 64 (flushItp p (egressFreed p s))

/-- A link's egress with every queue's head tagged, ready for the choice of R200. -/
def egressTagged (p : Port) (s : State) : State :=
  (egressReady p s).epqs.foldl (fun y e => tagHead e.1 y) (egressReady p s)

/-- The sparse memories of the mailbox stand in canonical form. -/
def MbxOk (m : Mbx) : Prop := sparseWf 0 m.mem = true ∧ sparseWf 0 m.stage = true

/-- The flash array and the recovery image stand in canonical form. -/
def FwOk (f : Fw) : Prop := sparseWf 0xFF f.flash = true ∧ sparseWf 0 f.recImage = true

/-- The Almanac's words and write counters stand in canonical form, and no word has carried more writes than R474 allows. -/
def AlmOk (a : Alm) : Prop :=
  sparseWf 0xFFFFFFFF a.words = true ∧ sparseWf 0 a.wear = true ∧ ∀ w, sparseGet 0 a.wear w ≤ 1000000

/-- The flipped bits of the DRAM's words and tags and of PKB's words stand in canonical form. -/
def MemOk (m : MemBlk) : Prop := sparseWf 0 m.dramErr = true ∧ sparseWf 0 m.tagErr = true ∧ sparseWf 0 m.pkbErr = true

/-- Every sparse memory of the block stands in canonical form, and the Almanac keeps its endurance limit. -/
def Canon (s : State) : Prop := MbxOk s.mbx ∧ FwOk s.fw ∧ AlmOk s.alm ∧ MemOk s.memb


/-- The parts of the state that a command may change. -/
def mayChange (i : Instr) : List Fld := match i with
  | .getTtState _ _ | .getPortVendorStatus _ _ _ | .hubStatusPoll _ _ | .i2ctBusTimeout _ =>
    [.out]
  | .ringTailWrite _ _ | .ringHeadWrite _ _ | .ringCtrlRun _ _ | .ringCtrlReset _ | .ringGeomWrite _ _ _
  | .ringAssignWrite _ | .irqStatusClear _ | .prioDoorbell _ | .i2ctStatus _ _ | .i2ctCmd4Submit _ _ _
  | .i2ctCpl4Fetch _ _ | .i2ctCmd0Submit _ _ _ | .i2ctCpl0Fetch _ _ | .identify _ | .modeStatus _ | .laneTimeRead _
  | .wakeRecordRead _ | .portStatus _ | .placeStatus _ | .vigilStatus _ | .contractStatus _ | .guardStatus _
  | .faultRead _ | .almanacRead _ | .almanacWear _ | .fwStatus _ | .echo _ | .regRead _ =>
    [.out, .mbx]
  | .fltAckWrite _ _ =>
    [.out, .flt]
  | .coreRegTempPoll _ =>
    [.out, .reg]
  | .xtal32kSwitchToCrystal _ | .aonRcCalibration _ =>
    [.out, .clk]
  | .recovLoad | .recovAbort =>
    [.out, .fw]
  | .setHubDepth _ _ | .setPortU1U2Timeout _ _ _ _ | .setPortRemoteWakeMask _ _ _ | .clearPortChangeFeature _ _ _ _
  | .hubSetFeature _ _ _ =>
    [.out, .hubs]
  | .deviceChirpK _ _ | .clearPortL1 _ _ | .portSuspendRequest _ _ _ | .usb2PortResumeRequest _ _
  | .ssPortResumeRequest _ _ | .ssReceiverDetectStart _ =>
    [.out, .dsd]
  | .deltaLogMerge | .minimalSwap =>
    [.out, .place]
  | .dramRefreshRateRead _ =>
    [.out, .memb]
  | .stopTt _ _ =>
    [.out, .u2d]
  | .usPartnerRpChange _ _ =>
    [.out, .tc]
  | .pdTxHandover _ | .cableResetReceived _ | .getRevision _ | .eprKeepalive _ | .getSinkCapOnDs _ | .bistMessage _ =>
    [.out, .phy]
  | .compliancePingLfps _ | .jtagInstruction _ _ _ =>
    [.out, .test]
  | .cpl0EntryExpiry =>
    [.out, .now, .mbx]
  | .faultAutoAck _ =>
    [.out, .now, .flt]
  | .laneTimeEdgeCorrection =>
    [.out, .now, .clk]
  | .emptySlotResetComplete _ _ =>
    [.out, .now, .hubs]
  | .chirpTimeout _ =>
    [.out, .now, .dsd]
  | .rebuildStart =>
    [.out, .now, .place]
  | .drpToggle _ =>
    [.out, .now, .tc]
  | .bistCarrierEnd _ =>
    [.out, .now, .phy]
  | .transitionLimitsWrite _ =>
    [.out, .now, .pwr]
  | .hpdTimer _ =>
    [.out, .now, .dp]
  | .faultAck _ =>
    [.out, .mbx, .flt]
  | .oppVoltageConfirmed _ =>
    [.out, .mbx, .pmu]
  | .thymeActivation _ | .fwStage _ =>
    [.out, .mbx, .fw]
  | .observeRead _ =>
    [.out, .mbx, .epqs]
  | .placePin _ | .placeRebuild _ =>
    [.out, .mbx, .place]
  | .captureRead _ =>
    [.out, .mbx, .vig]
  | .gpioEdge _ _ | .drawerKick _ =>
    [.out, .mbx, .lio]
  | .pattern _ =>
    [.out, .mbx, .test]
  | .pkbPatternCellFree _ _ _ _ =>
    [.out, .flt, .test]
  | .availabilityCheckpoint =>
    [.out, .alm, .avail]
  | .l1DeviceWake _ | .clearPortVendorStatus _ _ _ _ | .ssTrainingFail _ =>
    [.out, .hubs, .dsd]
  | .upstreamConnect _ =>
    [.out, .hubs, .usd]
  | .dsDeviceLpmRequest _ _ =>
    [.out, .dsd, .usd]
  | .heldDeviceRemoteWake _ =>
    [.out, .dsd, .vig]
  | .remoteLoopbackRequest _ =>
    [.out, .usd, .test]
  | .observeSample =>
    [.out, .epqs, .sched]
  | .placementAgentSample _ _ =>
    [.out, .epqs, .place]
  | .softResetReceived _ =>
    [.out, .phy, .pwr]
  | .dpAttention _ =>
    [.out, .phy, .dp]
  | .errorRecoveryEnd _ =>
    [.out, .now, .mbx, .tc]
  | .kickPulseEnd _ | .drawerReport _ =>
    [.out, .now, .mbx, .lio]
  | .trialConfirm =>
    [.out, .now, .alm, .fw]
  | .usb2PortResumeEnd _ =>
    [.out, .now, .hubs, .dsd]
  | .dsLinkIdleTimeout _ _ | .usLinkIdleTimeout _ _ =>
    [.out, .now, .dsd, .usd]
  | .failoverDecision _ | .failbackAuto _ =>
    [.out, .now, .usd, .fo]
  | .vconnStable _ =>
    [.out, .now, .tc, .phy]
  | .hardwareDetachGuard _ =>
    [.out, .now, .tc, .pwr]
  | .budgetReduction _ | .sourceCapsSend _ | .sourceCapsRetry _ =>
    [.out, .now, .phy, .pwr]
  | .dpEntryStart _ =>
    [.out, .now, .phy, .dp]
  | .guardWeekEnd =>
    [.out, .now, .lane, .guard]
  | .failback _ =>
    [.out, .mbx, .usd, .fo]
  | .eprModeEnter _ | .eprModeExit _ | .frsSignal _ =>
    [.out, .mbx, .phy, .pwr]
  | .dpExitMode _ =>
    [.out, .mbx, .phy, .dp]
  | .hostResumeEop _ =>
    [.out, .hubs, .dsd, .usd]
  | .setPortPower _ _ _ =>
    [.out, .hubs, .tc, .pwr]
  | .deferredHeaderDelivery _ =>
    [.out, .dsd, .usd, .links]
  | .spillRefill _ =>
    [.out, .epqs, .links, .fab]
  | .dataRoleSwapRequest _ =>
    [.out, .tc, .phy, .pwr]
  | .hubReconnect _ =>
    [.out, .now, .mbx, .hubs, .usd]
  | .dpVdmTimeout _ =>
    [.out, .now, .mbx, .phy, .dp]
  | .sofKeepingStart _ =>
    [.out, .now, .avail, .u2d, .u2u]
  | .portResetEnd _ _ | .absorbedResetComplete _ _ _ =>
    [.out, .now, .hubs, .dsd, .vig]
  | .hardResetRecover _ =>
    [.out, .now, .hubs, .tc, .pwr]
  | .proxyLpmIdle _ _ =>
    [.out, .now, .dsd, .u2d, .vig]
  | .discoverIdentityRetry _ | .discoveryCutoff _ | .swapWaitRetry _ _ =>
    [.out, .now, .tc, .phy, .pwr]
  | .loopback _ =>
    [.out, .freeSeq, .mbx, .dsd, .test]
  | .patternComplete _ _ _ _ =>
    [.out, .mbx, .flt, .memb, .test]
  | .fwActivate _ =>
    [.out, .mbx, .alm, .sup, .fw]
  | .usb2Connect _ _ _ | .identityProbe _ _ =>
    [.out, .mbx, .hubs, .dsd, .vig]
  | .prSwapReceived _ | .drSwapReceived _ | .vconnSwapReceived _ | .roleSwap _ =>
    [.out, .mbx, .tc, .phy, .pwr]
  | .ref25Return | .ssPllRelock =>
    [.out, .flt, .clk, .sup, .pwr]
  | .ttPeriodicSlotRun _ _ =>
    [.out, .avail, .epqs, .u2d, .vig]
  | .returningHostFirstPacket _ =>
    [.out, .avail, .u2u, .vig, .fo]
  | .egressRecoveryCut _ =>
    [.out, .dsd, .usd, .links, .sched]
  | .ttTransactionStart _ | .spilledResultFetch _ _ _ | .clearTtBuffer _ _ _ | .resetTt _ _ =>
    [.out, .epqs, .links, .fab, .u2d]
  | .loopbackEnd _ _ _ =>
    [.out, .now, .freeSeq, .mbx, .dsd, .test]
  | .pkbPatternTimeout =>
    [.out, .now, .freeSeq, .mbx, .memb, .test]
  | .suspendEntry =>
    [.out, .now, .mbx, .pmu, .fw, .place]
  | .lmfCmd0Submit _ _ _ | .lmfCpl0Fetch _ _ | .lmfRingStatus _ | .lmfRingReset _ | .lmfBulkOut _ _ _ | .lmfBulkIn _
  | .lmfInterruptReport _ | .lmfSetConfiguration _ | .shaperSet _ | .policerSet _ =>
    [.out, .now, .mbx, .epqs, .links, .sched]
  | .keptSof _ =>
    [.out, .now, .avail, .u2d, .u2u, .vig]
  | .suspendWake _ _ _ =>
    [.out, .mbx, .pmu, .wake, .sup, .fw]
  | .ssLinkUp _ _ =>
    [.out, .mbx, .hubs, .dsd, .links, .vig]
  | .vigilArm _ =>
    [.out, .mbx, .epqs, .place, .u2d, .vig]
  | .usb2PortTest _ _ _ =>
    [.out, .avail, .dsd, .u2u, .vig, .fo]
  | .companionLpm _ _ _ _ | .usb2TestModeUpstream _ _ =>
    [.out, .avail, .usd, .u2u, .vig, .fo]
  | .itpReceived _ _ =>
    [.out, .avail, .links, .u2u, .vig, .fo]
  | .ttFsFrameStart _ _ =>
    [.out, .avail, .u2d, .u2u, .vig, .fo]
  | .pdTxDone _ =>
    [.out, .hubs, .usd, .tc, .phy, .pwr]
  | .companionSetInterface _ _ =>
    [.out, .hubs, .epqs, .links, .fab, .u2d]
  | .proxyPoll _ _ _ =>
    [.out, .now, .mbx, .avail, .epqs, .links, .vig]
  | .schedSet _ =>
    [.out, .now, .mbx, .epqs, .links, .sched, .fab]
  | .refillTick =>
    [.out, .now, .mbx, .epqs, .links, .sched, .lio]
  | .equinoxSwap =>
    [.out, .now, .mbx, .epqs, .links, .place, .fab]
  | .deviceRemoteWake _ _ _ =>
    [.out, .mbx, .pmu, .wake, .sup, .fw, .dsd]
  | .hubEventRemoteWake _ _ _ =>
    [.out, .mbx, .pmu, .wake, .sup, .fw, .usd]
  | .swapResponseReceived _ =>
    [.out, .mbx, .hubs, .usd, .tc, .phy, .pwr]
  | .ttSlotResultExpiry _ =>
    [.out, .mbx, .epqs, .links, .fab, .u2d, .vig]
  | .usLinkLpmRequest _ _ =>
    [.out, .avail, .dsd, .usd, .u2u, .vig, .fo]
  | .dsLpmToken _ _ _ _ _ _ =>
    [.out, .avail, .dsd, .u2d, .u2u, .vig, .fo]
  | .u3ExitComplete _ _ | .u3EntryComplete _ _ =>
    [.out, .hubs, .dsd, .epqs, .links, .sched, .fab]
  | .functionWake _ _ =>
    [.out, .now, .mbx, .dsd, .usd, .epqs, .links, .sched]
  | .almanacWrite _ =>
    [.out, .freeSeq, .mbx, .flt, .alm, .pmu, .fw, .avail]
  | .ccPatternChange _ _ _ =>
    [.out, .mbx, .pmu, .wake, .sup, .fw, .tc, .pwr]
  | .pdMessageReceived _ _ _ _ _ =>
    [.out, .mbx, .pmu, .wake, .sup, .fw, .phy, .pwr]
  | .keptPortSuspend _ =>
    [.out, .mbx, .pmu, .fw, .avail, .dsd, .u2d, .u2u]
  | .ttTransactionEnd _ _ =>
    [.out, .mbx, .avail, .epqs, .links, .fab, .u2d, .vig]
  | .hsPacketRepeat _ _ | .csplitNonPeriodic _ _ _ _ _ | .csplitPeriodic _ _ _ _ _ =>
    [.out, .mbx, .avail, .epqs, .u2d, .u2u, .vig, .fo]
  | .babbleDetect _ _ =>
    [.out, .mbx, .hubs, .dsd, .epqs, .links, .fab, .u2d]
  | .companionL1Exit _ _ =>
    [.out, .avail, .hubs, .dsd, .usd, .u2u, .vig, .fo]
  | .ssplitPeriodic _ _ _ _ _ _ _ _ _ =>
    [.out, .avail, .epqs, .place, .u2d, .u2u, .vig, .fo]
  | .dsLinkLeavesU0 _ _ =>
    [.out, .hubs, .dsd, .usd, .epqs, .links, .sched, .fab]
  | .ssHeaderUpstream _ _ _ =>
    [.out, .now, .mbx, .dsd, .usd, .epqs, .links, .sched, .vig]
  | .guardRuleSet _ =>
    [.out, .freeSeq, .mbx, .flt, .alm, .pmu, .fw, .avail, .vig]
  | .failoverSet _ =>
    [.out, .freeSeq, .mbx, .flt, .alm, .pmu, .fw, .avail, .fo]
  | .companionUpstreamSuspend _ | .ssUpstreamU3 _ =>
    [.out, .mbx, .pmu, .fw, .avail, .hubs, .dsd, .usd, .fo]
  | .upstreamLinkTrained _ _ _ =>
    [.out, .mbx, .pmu, .fw, .avail, .hubs, .usd, .links, .fo]
  | .moveOldOwnerDisconnect _ =>
    [.out, .now, .mbx, .hubs, .own, .epqs, .links, .fab, .u2d, .vig]
  | .dpRoute _ =>
    [.out, .freeSeq, .mbx, .flt, .alm, .pmu, .fw, .avail, .phy, .dp]
  | .hostResumeK _ _ | .hostU3Exit _ =>
    [.out, .mbx, .pmu, .wake, .fw, .avail, .hubs, .dsd, .usd, .fo]
  | .linkCommandReceived _ _ =>
    [.out, .mbx, .pmu, .fw, .avail, .hubs, .dsd, .usd, .links, .fo]
  | .sysResetNFall _ _ =>
    [.out, .pmu, .sup, .hubs, .dsd, .usd, .place, .vig, .lio, .test]
  | .ssplitNonPeriodic _ _ _ _ _ _ _ _ _ _ _ =>
    [.out, .avail, .epqs, .links, .place, .fab, .u2d, .u2u, .vig, .fo]
  | .failbackDeferTimeout _ =>
    [.out, .now, .mbx, .hubs, .own, .epqs, .links, .fab, .u2d, .vig, .fo]
  | .ssHeaderDownstream _ _ _ =>
    [.out, .now, .mbx, .avail, .dsd, .usd, .epqs, .links, .sched, .u2u, .vig, .fo]
  | .vigilPolicySet _ =>
    [.out, .freeSeq, .mbx, .flt, .alm, .pmu, .fw, .avail, .epqs, .place, .u2d, .vig]
  | .usb2Disconnect _ _ | .ssDisconnect _ _ =>
    [.out, .mbx, .avail, .hubs, .dsd, .epqs, .links, .sched, .place, .fab, .u2d, .vig]
  | .ssResetComplete _ _ =>
    [.out, .now, .mbx, .avail, .hubs, .dsd, .epqs, .links, .sched, .place, .fab, .u2d, .vig]
  | .upstreamLinkInactive _ _ =>
    [.out, .mbx, .pmu, .fw, .avail, .hubs, .usd, .epqs, .links, .sched, .fab, .vig, .fo]
  | .hostChirpKj _ _ =>
    [.out, .mbx, .avail, .hubs, .dsd, .usd, .epqs, .links, .sched, .place, .fab, .u2d, .vig]
  | .failoverPortStart _ =>
    [.out, .now, .mbx, .pmu, .fw, .avail, .hubs, .own, .epqs, .links, .fab, .u2d, .vig, .fo]
  | .dppReceived _ _ _ =>
    [.out, .now, .mbx, .pmu, .fw, .avail, .hubs, .dsd, .usd, .epqs, .links, .sched, .fab, .fo]
  | .hubSetConfiguration _ _ _ _ =>
    [.out, .now, .mbx, .pmu, .fw, .avail, .hubs, .dsd, .epqs, .place, .u2d, .u2u, .vig, .fo]
  | .deviceControlRequest _ _ _ _ _ _ _ _ _ =>
    [.out, .freeSeq, .mbx, .avail, .dsd, .epqs, .links, .sched, .place, .fab, .u2d, .u2u, .vig, .fo]
  | .portResetRequest _ _ | .ssHotReset _ _ | .ssWarmReset _ _ =>
    [.out, .mbx, .avail, .hubs, .dsd, .epqs, .links, .sched, .place, .fab, .u2d, .u2u, .vig, .fo]
  | .dpVdmAck _ =>
    [.out, .mbx, .avail, .hubs, .dsd, .epqs, .links, .sched, .place, .fab, .u2d, .vig, .phy, .dp]
  | .egressSelect _ _ =>
    [.out, .now, .mbx, .pmu, .fw, .avail, .hubs, .dsd, .usd, .epqs, .links, .sched, .fab, .vig, .fo]
  | .hostAbsence _ _ =>
    [.out, .now, .mbx, .pmu, .fw, .avail, .hubs, .own, .dsd, .epqs, .links, .place, .fab, .u2d, .vig, .fo]
  | .hardResetVbusOff _ =>
    [.out, .now, .mbx, .avail, .hubs, .dsd, .usd, .epqs, .links, .sched, .place, .fab, .u2d, .vig, .tc, .pwr]
  | .moveDrainComplete _ =>
    [.out, .mbx, .pmu, .fw, .avail, .hubs, .own, .dsd, .epqs, .links, .sched, .place, .fab, .u2d, .vig, .fo]
  | .complianceEntry _ _ =>
    [.out, .mbx, .avail, .hubs, .dsd, .usd, .epqs, .links, .sched, .place, .fab, .u2d, .u2u, .vig, .fo, .test]
  | .clearPortPower _ _ _ | .thymeNotice _ | .hardResetSent _ | .pdRequest _ | .sinkCapabilitiesReceived _
  | .frSwapReceived _ | .vbusUvpTrip _ =>
    [.out, .mbx, .avail, .hubs, .dsd, .usd, .epqs, .links, .sched, .place, .fab, .u2d, .vig, .tc, .phy, .pwr, .lane, .dp]
  | .pdTxGoodcrcTimeout _ | .reductionResponseTimeout _ | .ppsTimeout _ | .eprKeepaliveTimeout _ | .prSwapSequence _
  | .adcConversion _ | .pdSenderResponseTimeout _ =>
    [.out, .now, .mbx, .avail, .hubs, .dsd, .usd, .epqs, .links, .sched, .place, .fab, .u2d, .vig, .tc, .phy, .pwr,
    .lane, .dp]
  | .portAssign _ =>
    [.out, .freeSeq, .mbx, .flt, .alm, .pmu, .fw, .avail, .hubs, .own, .dsd, .usd, .epqs, .links, .sched, .place, .fab,
    .u2d, .vig, .fo]
  | .drpAttachDebounce _ _ =>
    [.out, .now, .freeSeq, .mbx, .avail, .hubs, .dsd, .usd, .epqs, .links, .sched, .place, .fab, .u2d, .vig, .tc, .phy,
    .pwr, .lane, .dp, .test]
  | .hardResetReceived _ | .stageOcShutdown _ =>
    [.out, .mbx, .pmu, .wake, .sup, .fw, .avail, .hubs, .dsd, .usd, .epqs, .links, .sched, .place, .fab, .u2d, .vig, .tc,
    .phy, .pwr, .lane, .dp]
  | .usSinkVbusLoss _ | .fastRemoval _ _ =>
    [.out, .mbx, .pmu, .fw, .avail, .hubs, .own, .dsd, .usd, .epqs, .links, .sched, .place, .fab, .u2d, .vig, .fo, .tc,
    .phy, .pwr, .lane, .dp]
  | .upstreamUsb2Reset _ _ | .upstreamSsReset _ _ =>
    [.out, .mbx, .pmu, .fw, .avail, .hubs, .dsd, .usd, .epqs, .links, .sched, .place, .fab, .u2d, .u2u, .vig, .fo, .tc,
    .phy, .pwr, .lane, .dp]
  | .ccDetachDebounce _ | .frSwapInitTimeout _ =>
    [.out, .now, .mbx, .pmu, .fw, .avail, .hubs, .own, .dsd, .usd, .epqs, .links, .sched, .place, .fab, .u2d, .vig, .fo,
    .tc, .phy, .pwr, .lane, .dp]
  | .powerBudgetSet _ =>
    [.out, .freeSeq, .mbx, .flt, .alm, .pmu, .fw, .avail, .hubs, .dsd, .usd, .epqs, .links, .sched, .place, .fab, .u2d,
    .vig, .tc, .phy, .pwr, .lane, .dp]
  | .safeEntry _ =>
    [.out, .mbx, .flt, .pmu, .sup, .fw, .avail, .hubs, .dsd, .usd, .epqs, .links, .sched, .place, .fab, .u2d, .vig, .tc,
    .phy, .pwr, .dp, .lio, .test]
  | .unfence _ =>
    [.out, .mbx, .flt, .pmu, .fw, .avail, .hubs, .own, .dsd, .usd, .epqs, .links, .sched, .place, .fab, .u2d, .vig, .fo,
    .tc, .phy, .pwr, .lane, .dp]
  | .fence _ =>
    [.out, .freeSeq, .mbx, .flt, .pmu, .clk, .fw, .avail, .hubs, .dsd, .usd, .epqs, .links, .sched, .place, .memb, .fab,
    .u2d, .vig, .tc, .phy, .pwr, .dp, .lio, .test]
  | .ref25Loss _ | .pllUnlock _ | .xtal32kFail _ | .aonLow _ | .pkbScrub _ _ _ | .dramScrubUnit _ | .vbusOvpTrip _
  | .stageVoutIoutPoll _ _ _ _ | .stageTempPoll _ _ _ | .psi2cBusStuck | .faultLatch _ _ _ _ | .sageWatchdog _
  | .sageTaskLate _ | .chervilHang _ _ | .thymeHang _ _ | .fabArbStall _ | .fltForceWrite _ _ | .faultInject _
  | .regWrite _ =>
    [.out, .freeSeq, .mbx, .flt, .alm, .pmu, .clk, .fw, .avail, .hubs, .dsd, .usd, .epqs, .links, .sched, .place, .memb,
    .fab, .u2d, .vig, .tc, .phy, .pwr, .dp, .lio, .test]
  | .coreRegStatusPoll _ _ _ _ | .oppChangeStart _ =>
    [.out, .freeSeq, .mbx, .flt, .alm, .pmu, .reg, .clk, .fw, .avail, .hubs, .dsd, .usd, .epqs, .links, .sched, .place,
    .memb, .fab, .u2d, .vig, .tc, .phy, .pwr, .dp, .lio, .test]
  | .recovFinish _ | .vddio1v8Loss | .corePgLow _ | .sageLockstepMismatch | .registerWrite _ _ _ =>
    [.out, .freeSeq, .mbx, .flt, .alm, .pmu, .clk, .sup, .fw, .avail, .hubs, .dsd, .usd, .epqs, .links, .sched, .place,
    .memb, .fab, .u2d, .vig, .tc, .phy, .pwr, .dp, .lio, .test]
  | .stageStatusPoll _ _ _ =>
    [.out, .freeSeq, .mbx, .flt, .alm, .pmu, .clk, .fw, .avail, .hubs, .dsd, .usd, .epqs, .links, .sched, .place, .memb,
    .fab, .u2d, .vig, .tc, .phy, .pwr, .lane, .dp, .lio, .test]
  | .tjSample _ =>
    [.out, .freeSeq, .mbx, .flt, .alm, .pmu, .clk, .fw, .avail, .hubs, .dsd, .usd, .epqs, .links, .sched, .place, .memb,
    .fab, .u2d, .vig, .tc, .phy, .pwr, .dp, .lio, .test, .therm]
  | .modeRequest _ =>
    [.out, .freeSeq, .mbx, .flt, .alm, .pmu, .fw, .avail, .hubs, .own, .dsd, .usd, .epqs, .links, .sched, .place, .memb,
    .fab, .u2d, .vig, .fo, .tc, .phy, .pwr, .lane, .dp, .test]
  | .oppConfirmTimeout =>
    [.out, .now, .freeSeq, .mbx, .flt, .alm, .pmu, .reg, .clk, .fw, .avail, .hubs, .dsd, .usd, .epqs, .links, .sched,
    .place, .memb, .fab, .u2d, .vig, .tc, .phy, .pwr, .dp, .lio, .test]
  | .levelFaultRepeat _ _ _ =>
    [.out, .now, .freeSeq, .mbx, .flt, .alm, .pmu, .clk, .sup, .fw, .avail, .hubs, .dsd, .usd, .epqs, .links, .sched,
    .place, .memb, .fab, .u2d, .vig, .tc, .phy, .pwr, .dp, .lio, .test]
  | .transitionTimeout _ =>
    [.out, .now, .freeSeq, .mbx, .flt, .alm, .pmu, .clk, .fw, .avail, .hubs, .dsd, .usd, .epqs, .links, .sched, .place,
    .memb, .fab, .u2d, .vig, .tc, .phy, .pwr, .lane, .dp, .lio, .test]
  | .ccAttachDebounce _ _ _ =>
    [.out, .now, .freeSeq, .mbx, .pmu, .wake, .sup, .fw, .avail, .hubs, .own, .dsd, .usd, .epqs, .links, .sched, .place,
    .fab, .u2d, .vig, .fo, .tc, .phy, .pwr, .lane, .guard, .dp, .test]
  | .spitFrame _ _ _ _ _ _ =>
    [.out, .freeSeq, .mbx, .flt, .alm, .pmu, .clk, .wake, .sup, .fw, .avail, .hubs, .dsd, .usd, .epqs, .links, .sched,
    .place, .memb, .fab, .u2d, .vig, .tc, .phy, .pwr, .dp, .lio, .test]
  | .psfRise _ _ =>
    [.out, .freeSeq, .mbx, .flt, .alm, .pmu, .clk, .wake, .sup, .fw, .avail, .hubs, .dsd, .usd, .epqs, .links, .sched,
    .place, .memb, .fab, .u2d, .vig, .tc, .phy, .pwr, .lane, .dp, .lio, .test]
  | .portPowerPolicy _ =>
    [.out, .freeSeq, .mbx, .flt, .alm, .pmu, .clk, .fw, .avail, .hubs, .own, .dsd, .usd, .epqs, .links, .sched, .place,
    .memb, .fab, .u2d, .vig, .fo, .tc, .phy, .pwr, .lane, .dp, .lio, .test]
  | .quietPeriodEnd _ _ =>
    [.out, .now, .freeSeq, .mbx, .flt, .alm, .pmu, .clk, .fw, .avail, .hubs, .own, .dsd, .usd, .epqs, .links, .sched,
    .place, .memb, .fab, .u2d, .vig, .fo, .tc, .phy, .pwr, .lane, .dp, .lio, .test]
  | .commandTake _ =>
    [.out, .now, .freeSeq, .mbx, .flt, .alm, .pmu, .clk, .sup, .fw, .avail, .hubs, .own, .dsd, .usd, .epqs, .links,
    .sched, .place, .memb, .fab, .u2d, .vig, .fo, .tc, .phy, .pwr, .lane, .dp, .lio, .test]
  | .bootComplete _ =>
    [.out, .freeSeq, .mbx, .flt, .alm, .pmu, .reg, .clk, .sup, .fw, .avail, .hubs, .own, .dsd, .usd, .epqs, .links,
    .sched, .place, .memb, .fab, .u2d, .vig, .fo, .tc, .phy, .pwr, .lane, .dp, .lio, .test]
  | .sleepEntry _ _ _ | .lovageCcSample _ _ _ | .wakeNPulse _ _ _ | .spitCsNWake _ | .rtcAlarm _ | .psAlertN _ _ _ _ _
  | .holdExpiry _ _ | .lioSenseChange _ _ _ =>
    [.out, .now, .freeSeq, .mbx, .flt, .alm, .pmu, .clk, .wake, .sup, .fw, .avail, .hubs, .own, .dsd, .usd, .epqs,
    .links, .sched, .place, .memb, .fab, .u2d, .u2u, .vig, .fo, .tc, .phy, .pwr, .lane, .dp, .lio, .test]
  | .sysResetNRise _ =>
    [.out, .freeSeq, .mbx, .flt, .alm, .pmu, .reg, .clk, .wake, .sup, .fw, .avail, .hubs, .own, .dsd, .usd, .epqs,
    .links, .sched, .place, .memb, .fab, .u2d, .u2u, .vig, .fo, .tc, .phy, .pwr, .lane, .dp, .lio, .test]
  | .plannedWarmRestart _ _ | .safeExit _ =>
    [.out, .now, .freeSeq, .mbx, .flt, .alm, .pmu, .reg, .clk, .wake, .sup, .fw, .avail, .hubs, .own, .dsd, .usd, .epqs,
    .links, .sched, .place, .memb, .fab, .u2d, .u2u, .vig, .fo, .tc, .phy, .pwr, .lane, .dp, .lio, .test]
  | .guardReading _ _ _ _ =>
    [.out, .now, .freeSeq, .mbx, .flt, .alm, .pmu, .clk, .wake, .sup, .fw, .avail, .hubs, .own, .dsd, .usd, .epqs,
    .links, .sched, .place, .memb, .fab, .u2d, .u2u, .vig, .fo, .tc, .phy, .pwr, .lane, .guard, .dp, .lio, .test]
  | .porNAssert _ | .porNRelease _ | .vddAonBrownout _ | .laneSupplyLoss =>
    [.out, .now, .freeSeq, .mbx, .flt, .alm, .pmu, .reg, .clk, .wake, .sup, .fw, .avail, .hubs, .own, .dsd, .usd, .epqs,
    .links, .sched, .place, .memb, .fab, .u2d, .u2u, .vig, .fo, .tc, .phy, .pwr, .lane, .guard, .dp, .lio, .test,
    .therm]

/-- What the tables of chapter 19 fix for the command of a row, and the command; none for a row that is no Martar command. -/
def checkedCmd (i : Instr) : Option (CmdSpec × Req) := match i with
  | .identify r => some (specIdentify, r)
  | .modeRequest r => some (specModeRequest, r)
  | .modeStatus r => some (specModeStatus, r)
  | .laneTimeRead r => some (specLaneTimeRead, r)
  | .wakeRecordRead r => some (specWakeRecordRead, r)
  | .portAssign r => some (specPortAssign, r)
  | .portStatus r => some (specPortStatus, r)
  | .guardRuleSet r => some (specGuardRuleSet, r)
  | .schedSet r => some (specSchedSet, r)
  | .shaperSet r => some (specShaperSet, r)
  | .policerSet r => some (specPolicerSet, r)
  | .observeRead r => some (specObserveRead, r)
  | .placeStatus r => some (specPlaceStatus, r)
  | .placePin r => some (specPlacePin, r)
  | .placeRebuild r => some (specPlaceRebuild, r)
  | .vigilPolicySet r => some (specVigilPolicySet r, r)
  | .vigilArm r => some (specVigilArm, r)
  | .vigilStatus r => some (specVigilStatus, r)
  | .captureRead r => some (specCaptureRead, r)
  | .failoverSet r => some (specFailoverSet, r)
  | .failback r => some (specFailback, r)
  | .powerBudgetSet r => some (specPowerBudgetSet, r)
  | .portPowerPolicy r => some (specPortPowerPolicy r, r)
  | .contractStatus r => some (specContractStatus, r)
  | .roleSwap r => some (specRoleSwap, r)
  | .guardStatus r => some (specGuardStatus, r)
  | .dpRoute r => some (specDpRoute, r)
  | .drawerKick r => some (specDrawerKick, r)
  | .faultRead r => some (specFaultRead, r)
  | .faultAck r => some (specFaultAck, r)
  | .faultInject r => some (specFaultInject, r)
  | .fence r => some (specFence, r)
  | .unfence r => some (specUnfence, r)
  | .almanacRead r => some (specAlmanacRead, r)
  | .almanacWrite r => some (specAlmanacWrite, r)
  | .almanacWear r => some (specAlmanacWear, r)
  | .fwStage r => some (specFwStage, r)
  | .fwActivate r => some (specFwActivate, r)
  | .fwStatus r => some (specFwStatus, r)
  | .loopback r => some (specLoopback, r)
  | .echo r => some (specEcho, r)
  | .pattern r => some (specPattern, r)
  | .regRead r => some (specRegRead, r)
  | .regWrite r => some (specRegWrite, r)
  | _ => none

/-- What a row does once its command is completed: work that was over when it was accepted receives its final completion. -/
def afterCmd (i : Instr) (s : State) : State := match i with
  | .powerBudgetSet _ => budgetDone s
  | .roleSwap _ => roleSwapDone .us1 (roleSwapDone .us0 s)
  | .dpRoute _ => dpCleared 1 (dpCleared 0 s)
  | .fwStage _ => finishFwStage s
  | .fwActivate _ => finishFwActivate s
  | _ => s

/-- The commands that SAFE accepts on CMD1 and on CMD0 (R418). -/
def safeRow (i : Instr) (ring : Fin 8) : Bool := match i with
  | .faultRead _ | .unfence _ | .echo _ => ring == 0 || ring == 1
  | .portPowerPolicy r => powerOffForm r.payload && (ring == 0 || ring == 1)
  | .faultAck _ | .identify _ | .modeStatus _ | .laneTimeRead _ | .wakeRecordRead _ => ring == 1
  | _ => false

/-- A downstream port in Attached is source and DFP (R350). -/
def DsSource (s : State) : Prop :=
  ∀ d : DS, (tcOf s (dsPort d)).st = .attached → (tcOf s (dsPort d)).src = true ∧ (tcOf s (dsPort d)).dfp = true

/-- The state once SPIT_CS_N has fallen: in SUSPEND the fall is a wake (R380, R507). -/
def spitWoken (s : State) : State := if s.pmu.reported == .suspend then suspendWake 6 0 0 (fresh s) else fresh s

/-- A queue answers a QSEL (R443): open, on the port, with the external hub port, endpoint number and direction that it names. -/
def QselNames (d : DS) (p : List Byte) (off : Nat) (e : Epq) : Prop :=
  e.closed = false ∧ e.port = d ∧ e.hubPort = fld p off 1 ∧ e.ep = fld p (off + 1) 1 ∧
    (fld p (off + 2) 1 = 0 ∨ fld p (off + 2) 1 = 1) ∧ (e.ep = 0 ∨ e.dirIn = decide (fld p (off + 2) 1 = 1))

end Sys2Proof.Machine
end

