-- ==== Sys2Proof/Certificates/Slice0/Obligations.lean ====
section
/-! DEFINITION. The statements for the provers: what every command does where its conditions hold, and what every step keeps. -/

set_option Elab.async false

open Sys2Proof Sys2Proof.Machine

/-- Power-on reset, brownout, supply loss and SYS_RESET_N, each with its effect (R71, R58, R379, R72, R73). -/
def Obligations.PowerOnResetPathsRun : Prop :=
  (∀ (s : State) (n : Nat), s.sup.aon = true ∧ 8 ≤ n →
      Runs (.porNAssert n) s [.out, .now, .freeSeq, .mbx, .flt, .alm, .pmu, .reg, .clk, .wake, .sup, .fw, .avail, .hubs, .own, .dsd, .usd, .epqs, .links, .sched, .place, .memb, .fab, .u2d, .u2u, .vig, .fo, .tc, .phy, .pwr, .lane, .guard, .dp, .lio, .test, .therm]
      (fun t => t.sup.porLow = true ∧ t.sup.pwrReq = 0 ∧ t.sup.ready = false ∧ t.alm = s.alm ∧ t.fw.flash = s.fw.flash ∧ ∀ p : Port, (pwrOf t p).psc = false)) ∧
  (∀ (s : State) (n : Nat), s.sup.aon = true ∧ 1000 ≤ n →
      Runs (.vddAonBrownout n) s [.out, .now, .freeSeq, .mbx, .flt, .alm, .pmu, .reg, .clk, .wake, .sup, .fw, .avail, .hubs, .own, .dsd, .usd, .epqs, .links, .sched, .place, .memb, .fab, .u2d, .u2u, .vig, .fo, .tc, .phy, .pwr, .lane, .guard, .dp, .lio, .test, .therm]
      (fun t => t.sup.porLow = true ∧ t.sup.pwrReq = 0 ∧ t.sup.ready = false ∧ t.alm = s.alm ∧ t.fw.flash = s.fw.flash ∧ ∀ p : Port, (pwrOf t p).psc = false)) ∧
  (∀ (s : State), Runs (.laneSupplyLoss) s [.out, .now, .freeSeq, .mbx, .flt, .alm, .pmu, .reg, .clk, .wake, .sup, .fw, .avail, .hubs, .own, .dsd, .usd, .epqs, .links, .sched, .place, .memb, .fab, .u2d, .u2u, .vig, .fo, .tc, .phy, .pwr, .lane, .guard, .dp, .lio, .test, .therm]
      (fun t => t.sup.aon = false ∧ t.pmu.reported = .off ∧ t.alm = s.alm ∧ t.fw.flash = s.fw.flash ∧ ∀ p : Port, (pwrOf t p).psc = false)) ∧
  (∀ (s : State) (b : BootIn), s.sup.porLow = true →
      Runs (.porNRelease b) s [.out, .now, .freeSeq, .mbx, .flt, .alm, .pmu, .reg, .clk, .wake, .sup, .fw, .avail, .hubs, .own, .dsd, .usd, .epqs, .links, .sched, .place, .memb, .fab, .u2d, .u2u, .vig, .fo, .tc, .phy, .pwr, .lane, .guard, .dp, .lio, .test, .therm]
      (fun t => t = bootCold b (fresh s))) ∧
  (∀ (s : State) (n : Nat) (ok : Bool), 8 ≤ n ∧ s.sup.aon = true ∧ s.sup.porLow = false ∧ s.sup.mainOn = true ∧ s.sup.ballsFloat = false ∧ s.sup.sysLow = false →
      Runs (.sysResetNFall n ok) s [.out, .pmu, .sup, .hubs, .dsd, .usd, .place, .vig, .lio, .test]
      (fun t => t.sup.sysLow = true ∧ t.sup.ready = false ∧ t.sup.selfRefresh = true ∧ (s.sup.selfRefresh = false ∧ s.sup.ready = true → t.sup.retained = ok) ∧ t.sup.enginesHeld = true ∧ t.pmu.reported = .boot)) ∧
  (∀ (s : State) (b : BootIn), s.sup.sysLow = true →
      Runs (.sysResetNRise b) s [.out, .freeSeq, .mbx, .flt, .alm, .pmu, .reg, .clk, .wake, .sup, .fw, .avail, .hubs, .own, .dsd, .usd, .epqs, .links, .sched, .place, .memb, .fab, .u2d, .u2u, .vig, .fo, .tc, .phy, .pwr, .lane, .dp, .lio, .test]
      (fun t => t = bootWarm .sysReset b (fresh s))) ∧
  (∀ (s : State) (ok : Bool) (b : BootIn) (x : Nat), s.sup.restartAt = some x →
      Runs (.plannedWarmRestart ok b) s [.out, .now, .freeSeq, .mbx, .flt, .alm, .pmu, .reg, .clk, .wake, .sup, .fw, .avail, .hubs, .own, .dsd, .usd, .epqs, .links, .sched, .place, .memb, .fab, .u2d, .u2u, .vig, .fo, .tc, .phy, .pwr, .lane, .dp, .lio, .test]
      (fun t => t = bootWarm .fwActivate b (selfRefreshIn ok (holdEngines (advanceTo x (fresh s))))))

/-- Boot completion, the upstream connect, recovery loading and trial confirmation, each with its effect (R83, R82, R81, R80).
-/
def Obligations.BootAndRecoveryRun : Prop :=
  (∀ (s : State) (a : Option RegBoot), s.pmu.reported = .boot ∧ s.sup.ready = true ∧ s.sup.sysLow = false →
      Runs (.bootComplete a) s [.out, .freeSeq, .mbx, .flt, .alm, .pmu, .reg, .clk, .sup, .fw, .avail, .hubs, .own, .dsd, .usd, .epqs, .links, .sched, .place, .memb, .fab, .u2d, .vig, .fo, .tc, .phy, .pwr, .lane, .dp, .lio, .test]
      (fun t => t = bootEnds a (fresh s))) ∧
  (∀ (s : State) (u : US), mayConnect s u = true →
      Runs (.upstreamConnect u) s [.out, .hubs, .usd]
      (fun t => (hubOf t u).connected = true ∧ (hubOf t u).active = (hubOf s u).conf ∧ (usOf t u).pullup = true ∧ (usOf t u).ssTerm = true)) ∧
  (∀ (s : State), inRecovery s = true ∧ 1 ≤ s.fw.recLength ∧ s.fw.recLength ≤ 65536 →
      Runs (.recovLoad) s [.out, .fw]
      (fun t => t.fw.recTaken = s.fw.recTaken + s.fw.recLength ∧ t.fw.recImage = memWrite 0 s.fw.recImage s.fw.recOffset (memRead 0 s.mbx.mem 0 s.fw.recLength))) ∧
  (∀ (s : State) (b : BootIn), inRecovery s = true →
      Runs (.recovFinish b) s [.out, .freeSeq, .mbx, .flt, .alm, .pmu, .clk, .sup, .fw, .avail, .hubs, .dsd, .usd, .epqs, .links, .sched, .place, .memb, .fab, .u2d, .vig, .tc, .phy, .pwr, .dp, .lio, .test]
      (fun t => t = (if verifyStep (fresh s) (0, s.fw.recImage, 0) = 0 then bootRest b { fresh s with fw := { runImage 2 (0, s.fw.recImage, 0) s.fw with recDone := true, recFail := false, recStep := 0, trial := false } } else { fresh s with fw := { s.fw with recFail := true, recStep := verifyStep (fresh s) (0, s.fw.recImage, 0) } }))) ∧
  (∀ (s : State), inRecovery s = true →
      Runs (.recovAbort) s [.out, .fw]
      (fun t => t.fw.recImage = [] ∧ t.fw.recTaken = 0 ∧ t.fw.recFail = false ∧ t.fw.recStep = 0)) ∧
  (∀ (s : State) (x : Nat), s.fw.trialFrom = some x ∧ s.fw.trial = true ∧ trialMode s.pmu.reported = true ∧ allConnectedOnce s = true ∧ almExhausted s.alm (rollbackWrites s) = false →
      Runs (.trialConfirm) s [.out, .now, .alm, .fw]
      (fun t => t = confirmSteps (advanceTo (x + (600000000000 - s.fw.trialRun)) (fresh s))))

/-- Supply, reference, PLL and AON events and the regulator polls, each with its effect (R57, R67, R70, R408, R69, R65). -/
def Obligations.ClockAndRegulatorEventsRun : Prop :=
  (∀ (s : State), mainUp s = true ∧ s.sup.ballsFloat = false →
      Runs (.vddio1v8Loss) s [.out, .freeSeq, .mbx, .flt, .alm, .pmu, .clk, .sup, .fw, .avail, .hubs, .dsd, .usd, .epqs, .links, .sched, .place, .memb, .fab, .u2d, .vig, .tc, .phy, .pwr, .dp, .lio, .test]
      (fun t => t = fault .pmu 8 (blockId .pmu) (kickLow 1 (kickLow 0 (allPscLow { fresh s with sup := { s.sup with ballsFloat := true } }))))) ∧
  (∀ (s : State) (n : Nat), mainUp s = true ∧ 2000 ≤ n ∧ s.pmu.inProg = none ∧ s.pmu.change = none →
      Runs (.corePgLow n) s [.out, .freeSeq, .mbx, .flt, .alm, .pmu, .clk, .sup, .fw, .avail, .hubs, .dsd, .usd, .epqs, .links, .sched, .place, .memb, .fab, .u2d, .vig, .tc, .phy, .pwr, .dp, .lio, .test]
      (fun t => t = fatal .pmu 9 { fresh s with sup := { s.sup with corePg := false } })) ∧
  (∀ (s : State) (n : Nat), mainUp s = true ∧ 4000 ≤ n ∧ s.clk.refLost = none →
      Runs (.ref25Loss n) s [.out, .freeSeq, .mbx, .flt, .alm, .pmu, .clk, .fw, .avail, .hubs, .dsd, .usd, .epqs, .links, .sched, .place, .memb, .fab, .u2d, .vig, .tc, .phy, .pwr, .dp, .lio, .test]
      (fun t => t = fault .cru 8 (blockId .cru) (linksStop { fresh s with clk := { s.clk with refLost := some s.now, refBack := none, frac := 0 }, pmu := { s.pmu with clkOpp := 1 } }))) ∧
  (∀ (s : State) (w : Pll), mainUp s = true →
      Runs (.pllUnlock w) s [.out, .freeSeq, .mbx, .flt, .alm, .pmu, .clk, .fw, .avail, .hubs, .dsd, .usd, .epqs, .links, .sched, .place, .memb, .fab, .u2d, .vig, .tc, .phy, .pwr, .dp, .lio, .test]
      (fun t => t = (match w with | .core => fault .cru 9 (blockId .cru) { fresh s with clk := { s.clk with corePllLock := false } } | .tb => fault .cru 9 (blockId .cru) { fresh s with clk := { s.clk with tbPllLock := false } } | .ssTx => fault .cru 10 (blockId .cru) { fresh s with clk := { s.clk with ssPllLock := false } }))) ∧
  (∀ (s : State) (n : Nat), s.sup.aon = true ∧ s.sup.porLow = false ∧ 2000000 ≤ n ∧ s.clk.fallback = false →
      Runs (.xtal32kFail n) s [.out, .freeSeq, .mbx, .flt, .alm, .pmu, .clk, .fw, .avail, .hubs, .dsd, .usd, .epqs, .links, .sched, .place, .memb, .fab, .u2d, .vig, .tc, .phy, .pwr, .dp, .lio, .test]
      (fun t => t = fault .lovage 8 (blockId .lovage) { fresh s with clk := { s.clk with fallback := true } })) ∧
  (∀ (s : State) (n : Nat), s.sup.aon = true ∧ s.sup.porLow = false ∧ 1000000000 ≤ n →
      Runs (.xtal32kSwitchToCrystal n) s [.out, .clk]
      (fun t => t = { s with out := [], clk := { s.clk with fallback := false } })) ∧
  (∀ (s : State) (n : Nat), mainUp s = true ∧ s.clk.tbOn = true ∧ s.clk.refLost = none →
      Runs (.aonRcCalibration n) s [.out, .clk]
      (fun t => t = { s with out := [], clk := { s.clk with calE6 := n } })) ∧
  (∀ (s : State) (n : Nat), s.sup.aon = true ∧ s.sup.porLow = false ∧ 1000000 ≤ n →
      Runs (.aonLow n) s [.out, .freeSeq, .mbx, .flt, .alm, .pmu, .clk, .fw, .avail, .hubs, .dsd, .usd, .epqs, .links, .sched, .place, .memb, .fab, .u2d, .vig, .tc, .phy, .pwr, .dp, .lio, .test]
      (fun t => t = fault .lovage 9 (blockId .lovage) (fresh s))) ∧
  (∀ (s : State) (w : BitVec 16) (n : Nat) (v i : Byte), regPolled s = true →
      Runs (.coreRegStatusPoll w n v i) s [.out, .freeSeq, .mbx, .flt, .alm, .pmu, .reg, .clk, .fw, .avail, .hubs, .dsd, .usd, .epqs, .links, .sched, .place, .memb, .fab, .u2d, .vig, .tc, .phy, .pwr, .dp, .lio, .test]
      (fun t => t = (let s1 := { fresh s with reg := { s.reg with status := w, iout := n, statusVout := (if statusFault w then v else s.reg.statusVout), statusIout := (if statusFault w then i else s.reg.statusIout) } }; if statusFault w = true ∧ s.sup.corePg = true then pmbWrite 0x03 [] (fault .pmu 12 (blockId .pmu) s1) else s1))) ∧
  (∀ (s : State) (n : Nat), regPolled s = true →
      Runs (.coreRegTempPoll n) s [.out, .reg]
      (fun t => t = { s with out := [], reg := { s.reg with temp := n } }))

/-- Operating-point changes, SUSPEND and its wakes, each with its effect (R387, R66, R380, R390, R399). -/
def Obligations.OperatingPointAndSuspendRun : Prop :=
  (∀ (s : State) (e : Bool) (x : Trans), s.pmu.pend = some x ∧ s.pmu.inProg = none ∧ x.opp ≠ 0 ∧ x.opp ≠ s.pmu.opp ∧ e = false →
      Runs (.oppChangeStart e) s [.out, .freeSeq, .mbx, .flt, .alm, .pmu, .reg, .clk, .fw, .avail, .hubs, .dsd, .usd, .epqs, .links, .sched, .place, .memb, .fab, .u2d, .vig, .tc, .phy, .pwr, .dp, .lio, .test]
      (fun t => t.pmu.inProg = some x ∧ t.pmu.pend = none ∧ t.reg.voutMv = oppMv x.opp ∧ t.pmu.clkOpp = (if s.pmu.opp < x.opp then s.pmu.clkOpp else x.opp) ∧ t.pmu.change = some { fromOpp := s.pmu.opp, toOpp := x.opp, raising := decide (x.opp > s.pmu.opp), startAt := s.now })) ∧
  (∀ (s : State) (n y : Nat) (x : OppChange), s.pmu.change = some x ∧ y = (if x.reverting then x.fromOpp else x.toOpp) ∧ s.sup.corePg = true ∧ oppMv y * 97 ≤ n * 100 ∧ n * 100 ≤ oppMv y * 103 →
      Runs (.oppVoltageConfirmed n) s [.out, .mbx, .pmu]
      (fun t => t = transitionEnds (reqRings s) (modeFinal (s.pmu.inProg.bind (·.req)) stOk (b2n x.reverting) { fresh s with pmu := { s.pmu with opp := y, clkOpp := y, vcoreMv := oppMv y, change := none, inProg := none } }))) ∧
  (∀ (s : State) (x : OppChange), s.pmu.change = some x ∧ x.reverting = false →
      Runs (.oppConfirmTimeout) s [.out, .now, .freeSeq, .mbx, .flt, .alm, .pmu, .reg, .clk, .fw, .avail, .hubs, .dsd, .usd, .epqs, .links, .sched, .place, .memb, .fab, .u2d, .vig, .tc, .phy, .pwr, .dp, .lio, .test]
      (fun t => t = (let s0 := advanceTo (x.startAt + 300000) (fresh s); let s1 := fault .pmu 10 (blockId .pmu) (writeVout x.fromOpp { s0 with pmu := { s0.pmu with failedOpp := s0.pmu.inProg.map (fun y => (s0.pmu.reported, y.opp)) } }); if x.raising then transitionEnds (reqRings s1) (modeFinal (s1.pmu.inProg.bind (·.req)) stOk 1 { s1 with pmu := { s1.pmu with change := none, inProg := none } }) else { s1 with pmu := { s1.pmu with change := some { x with reverting := true } } }))) ∧
  (∀ (s : State) (x : Nat), s.pmu.suspendSince = some x ∧ suspendCond s = true ∧ entering s = false ∧ isExclusive s.pmu.reported = false →
      Runs (.suspendEntry) s [.out, .now, .mbx, .pmu, .fw, .place]
      (fun t => t = (let s1 := abandonRebuild (advanceTo (x + 2000000) (fresh s)); modeFollow (trialTick s.pmu.reported .suspend { s1 with pmu := { s1.pmu with reported := .suspend, clkGated := true } })))) ∧
  (∀ (s : State) (c : Fin 16) (p d : Nat), 1 ≤ c.val ∧ c.val ≤ 11 ∧ s.pmu.reported = .suspend ∧ entering s = false →
      Runs (.suspendWake c p d) s [.out, .mbx, .pmu, .wake, .sup, .fw]
      (fun t => t = suspendWake c.val p d (fresh s))) ∧
  (∀ (s : State), s.clk.interp = true →
      Runs (.laneTimeEdgeCorrection) s [.out, .now, .clk]
      (fun t => t = { s with out := [], now := max s.now s.clk.edgeTo, clk := { s.clk with interp := false } }))

/-- The entry into sleep and the wakes out of it, each with its effect (R388, R310, R391, R389, R392, R343). -/
def Obligations.SleepAndWakesRun : Prop :=
  (∀ (s : State) (n : Nat) (ok : Bool) (b : BootIn) (x : Trans), s.pmu.inProg = some x ∧ sleepMode x.target = true ∧ s.pmu.reported ≠ .boot ∧ s.sup.porLow = false ∧ (kicksEnded s).sup.latch = none ∧ (x.alarm = 0 ∨ (kicksEnded s).now < x.alarm) →
      Runs (.sleepEntry n ok b) s [.out, .now, .freeSeq, .mbx, .flt, .alm, .pmu, .clk, .wake, .sup, .fw, .avail, .hubs, .own, .dsd, .usd, .epqs, .links, .sched, .place, .memb, .fab, .u2d, .u2u, .vig, .fo, .tc, .phy, .pwr, .lane, .dp, .lio, .test]
      (fun t => t.clk.alarm = x.alarm ∧ t.pmu.reported = x.target ∧ t.pmu.opp = 0 ∧ t.pmu.inProg = none ∧ t.pmu.pend = none ∧ t.clk.tbOn = false ∧ t.clk.le = (kicksEnded s).now ∧ t.mbx.acc = [] ∧ t.sup.mainOn = false ∧ t.sup.memOn = (x.target == .standby) ∧ t.sup.retained = (x.target == .standby && ok))) ∧
  (∀ (s : State) (p : Port) (c : CcPattern) (b : BootIn), asleep s = true ∧ populated s p = true ∧ c ≠ (tcOf s p).pattern ∧ s.sup.ccSeen.contains (p.val, patternCode c) = true →
      Runs (.lovageCcSample p c b) s [.out, .now, .freeSeq, .mbx, .flt, .alm, .pmu, .clk, .wake, .sup, .fw, .avail, .hubs, .own, .dsd, .usd, .epqs, .links, .sched, .place, .memb, .fab, .u2d, .u2u, .vig, .fo, .tc, .phy, .pwr, .lane, .dp, .lio, .test]
      (fun t => t = raiseWake 3 (portCode p) 0 (edgeTime b.wx s) b { fresh s with sup := { s.sup with ccSeen := s.sup.ccSeen.filter (fun e => e.1 ≠ p.val) } })) ∧
  (∀ (s : State) (g w : Nat) (b : BootIn), s.sup.aon = true ∧ s.sup.porLow = false ∧ s.sup.wakeEdges = 2 ∧ s.sup.wakeWindow + g < 50000000 ∧ 1000000 ≤ w ∧ w ≤ 5000000 ∧ asleep s = true →
      Runs (.wakeNPulse g w b) s [.out, .now, .freeSeq, .mbx, .flt, .alm, .pmu, .clk, .wake, .sup, .fw, .avail, .hubs, .own, .dsd, .usd, .epqs, .links, .sched, .place, .memb, .fab, .u2d, .u2u, .vig, .fo, .tc, .phy, .pwr, .lane, .dp, .lio, .test]
      (fun t => t = raiseWake 5 0 3 (edgeTime b.wx s) b { fresh s with sup := { s.sup with wakeEdges := 0, wakeWindow := 0 } })) ∧
  (∀ (s : State) (b : BootIn), asleep s = true →
      Runs (.spitCsNWake b) s [.out, .now, .freeSeq, .mbx, .flt, .alm, .pmu, .clk, .wake, .sup, .fw, .avail, .hubs, .own, .dsd, .usd, .epqs, .links, .sched, .place, .memb, .fab, .u2d, .u2u, .vig, .fo, .tc, .phy, .pwr, .lane, .dp, .lio, .test]
      (fun t => t = raiseWake 6 0 0 (edgeTime b.wx s) b (fresh s))) ∧
  (∀ (s : State) (b : BootIn), s.clk.alarm ≠ 0 ∧ asleep s = true →
      Runs (.rtcAlarm b) s [.out, .now, .freeSeq, .mbx, .flt, .alm, .pmu, .clk, .wake, .sup, .fw, .avail, .hubs, .own, .dsd, .usd, .epqs, .links, .sched, .place, .memb, .fab, .u2d, .u2u, .vig, .fo, .tc, .phy, .pwr, .lane, .dp, .lio, .test]
      (fun t => t = raiseWake 7 0 0 (edgeTime s.clk.alarmTicks s) b { fresh s with clk := { s.clk with alarm := 0 } })) ∧
  (∀ (s : State) (p : Port) (w : BitVec 16) (f : Bool) (n : Nat) (b : BootIn), asleep s = true →
      Runs (.psAlertN p w f n b) s [.out, .now, .freeSeq, .mbx, .flt, .alm, .pmu, .clk, .wake, .sup, .fw, .avail, .hubs, .own, .dsd, .usd, .epqs, .links, .sched, .place, .memb, .fab, .u2d, .u2u, .vig, .fo, .tc, .phy, .pwr, .lane, .dp, .lio, .test]
      (fun t => t = raiseWake 9 0 0 (edgeTime b.wx s) b (fresh s)))

/-- Scrubs, the refresh-rate read and the spill refill, each with its effect (R95, R96, R85, R143). -/
def Obligations.MemoryHousekeepingRuns : Prop :=
  (∀ (s : State) (w n : Nat) (o : Bool), asleep s = false ∧ w < 524288 →
      Runs (.pkbScrub w n o) s [.out, .freeSeq, .mbx, .flt, .alm, .pmu, .clk, .fw, .avail, .hubs, .dsd, .usd, .epqs, .links, .sched, .place, .memb, .fab, .u2d, .vig, .tc, .phy, .pwr, .dp, .lio, .test]
      (fun t => t = (let m := sparseGet 0 s.memb.pkbErr w ^^^ n % 2 ^ 39; let k : Nat → Nat := fun x => if o then 0 else x; match decodeWord 32 m with | .clean => setPkbErr w (k m) (markPkb w false (fresh s)) | .corrected i => detect .pkb 8 (w / 32) false (s.memb.pkbSeen.contains w) (setPkbErr w (k (m ^^^ 2 ^ i)) (markPkb w true (fresh s))) | .uncorrectable => fault .pkb 9 (w / 32) (setPkbErr w (k m) (fresh s))))) ∧
  (∀ (s : State) (l : List (Nat × Nat)), s.sup.selfRefresh = false ∧ s.sup.ready = true ∧ s.pmu.reported ≠ .suspend →
      Runs (.dramScrubUnit l) s [.out, .freeSeq, .mbx, .flt, .alm, .pmu, .clk, .fw, .avail, .hubs, .dsd, .usd, .epqs, .links, .sched, .place, .memb, .fab, .u2d, .vig, .tc, .phy, .pwr, .dp, .lio, .test]
      (fun t => t = (let u := s.memb.dramUnit; let s1 := { fresh s with memb := { flipUnit u l s.memb with dramUnit := if u + 1 ≥ dramUnits then 0 else u + 1 } }; if withdrawn s u then s1 else scrubUnit u s1))) ∧
  (∀ (s : State) (n : Nat), s.sup.selfRefresh = false →
      Runs (.dramRefreshRateRead n) s [.out, .memb]
      (fun t => t = { s with out := [], memb := { s.memb with refreshMult := n } })) ∧
  (∀ (s : State) (q i : Nat) (e : Epq) (c : Fin 8) (l : List Nat), epqOf s q = some e ∧ e.pkts.findIdx? (fun x => x.loc == .dram) = some i ∧ e.chv = some c ∧ (e.pkts.filter (fun x => x.loc == .pkb)).length < 2 * e.burst ∧ overThreshold s = false ∧ queueTag s e = true ∧ (epqCells e + cellsOf (((e.pkts[i]?).map (·.data.length)).getD 0)) * 128 ≤ e.capPkb ∧ fabOpen s 3 true = true ∧ chvFenced s c = false ∧ takeCells s 4 e.port (cellsOf (((e.pkts[i]?).map (·.data.length)).getD 0)) = some l →
      Runs (.spillRefill q) s [.out, .epqs, .links, .fab]
      (fun t => t = settle (touchEpq q (tagHead q (refill q 63 (modEpq q (fun x => { x with pkts := x.pkts.modify i (fun y => { y with loc := .pkb, tag := some c, cells := l }) }) (fresh s)))))))

/-- Headers, payloads, timestamps and deferred headers on the SuperSpeed path, each with its effect (R131, R133, R139, R134,
R135, R148). -/
def Obligations.SuperspeedForwardingRuns : Prop :=
  (∀ (s : State) (u : US) (h : SsHeader) (d : DS) (n : Nat), (usOf s u).link = .u0 ∧ (hubOf s u).connected = true ∧ (linkIn (usPort u) h true (begun s)).2 = true ∧ nibble h.route (hubOf s u).depth = n + 1 ∧ (hubOf s u).active[n]? = some (.port d) ∧ ownerOf s d = some u ∧ movingNow s d = false →
      Runs (.ssHeaderDownstream u h true) s [.out, .now, .mbx, .avail, .dsd, .usd, .epqs, .links, .sched, .u2u, .vig, .fo]
      (fun t => t = (let s1 := hostSeen u (linkIn (usPort u) h true (begun s)).1; forwardDown u d h (if h.kind == .ack && h.dirIn then ackFromHost d (rewriteDown s1 u d h) s1 else s1)))) ∧
  (∀ (s : State) (u : US) (h : SsHeader) (b : Bool), (usOf s u).link = .u0 ∧ (hubOf s u).connected = true ∧ (linkIn (usPort u) h b (begun s)).2 = false →
      Runs (.ssHeaderDownstream u h b) s [.out, .now, .mbx, .avail, .dsd, .usd, .epqs, .links, .sched, .u2u, .vig, .fo]
      (fun t => t = (linkIn (usPort u) h b (begun s)).1)) ∧
  (∀ (s : State) (d : DS) (h : SsHeader) (u : US), (dsOf s d).link = .u0 ∧ (linkIn (dsPort d) h true (begun s)).2 = true ∧ underVigil s d = false ∧ ownerOf s d = some u ∧ (hubOf s u).connected = true ∧ h.kind ≠ .ack →
      Runs (.ssHeaderUpstream d h true) s [.out, .now, .mbx, .dsd, .usd, .epqs, .links, .sched, .vig]
      (fun t => t = (let s1 := (linkIn (dsPort d) h true (begun s)).1; let q := findEpq s1 d h.addr h.ep h.dirIn; let h1 := rewriteUp s1 d h; if h.kind == .dp then judgeData (dsPort d) (usPort u) q h1 false (startExit (usPort u) s1) else sendHeader (dsPort d) (usPort u) h1 (chargeTp q (usPort u) s1)))) ∧
  (∀ (s : State) (d : DS) (h : SsHeader) (b : Bool), (dsOf s d).link = .u0 ∧ (linkIn (dsPort d) h b (begun s)).2 = false →
      Runs (.ssHeaderUpstream d h b) s [.out, .now, .mbx, .dsd, .usd, .epqs, .links, .sched, .vig]
      (fun t => t = (linkIn (dsPort d) h b (begun s)).1)) ∧
  (∀ (s : State) (p : Port) (l : List Byte) (c : Bool) (x : RxDp), (linkOf (begun s) p).rx = some x ∧ x.disp = .store →
      Runs (.dppReceived p l c) s [.out, .now, .mbx, .pmu, .fw, .avail, .hubs, .dsd, .usd, .epqs, .links, .sched, .fab, .fo]
      (fun t => t = (let s1 := modLink p (fun y => { y with rx := none, idleFrom := (begun s).now }) (begun s); linkRested p (storeData x { h := x.h, data := l, bad := !c, red := x.red, at_ := (begun s).now, ingress := p, dest := x.dest } s1)))) ∧
  (∀ (s : State) (p : Port) (l : List Byte) (c : Bool) (x : RxDp) (o : Port), (linkOf (begun s) p).rx = some x ∧ x.disp = .cut o →
      Runs (.dppReceived p l c) s [.out, .now, .mbx, .pmu, .fw, .avail, .hubs, .dsd, .usd, .epqs, .links, .sched, .fab, .fo]
      (fun t => t = (let s1 := modLink p (fun y => { y with rx := none, idleFrom := (begun s).now }) (begun s); let k : Pkt := { h := x.h, data := l, bad := !c, red := x.red, at_ := (begun s).now, ingress := p, dest := x.dest }; let s2 := if c then s1 else countDiscard p x.epq 3 s1; let s3 := match portDs p with | some d => availGo (dsCode d) s2 | none => s2; linkRested p (settle (match x.epq with | none => sendData none o k s3 | some q => popHead q (sendData (some q) o k (tagHead q (modEpq q (fun y => { y with pkts := k :: y.pkts, tagged := false }) s3)))))))) ∧
  (∀ (s : State) (p : Port) (l : List Byte) (c : Bool) (x : RxDp), (linkOf (begun s) p).rx = some x ∧ x.disp = .drop →
      Runs (.dppReceived p l c) s [.out, .now, .mbx, .pmu, .fw, .avail, .hubs, .dsd, .usd, .epqs, .links, .sched, .fab, .fo]
      (fun t => t = linkRested p (modLink p (fun y => { y with rx := none, idleFrom := (begun s).now }) (begun s)))) ∧
  (∀ (s : State) (u : US) (n : Nat), (usOf s u).link = .u0 ∧ (hubOf s u).connected = true →
      Runs (.itpReceived u n) s [.out, .avail, .links, .u2u, .vig, .fo]
      (fun t => t = allDs.foldl (fun y d => if ownerOf y d == some u && (dsOf y d).link == .u0 && !movingNow y d && !portFenced y (dsPort d) then (if (linkOf y (dsPort d)).tx.isNone then emit (.itp d n false) (modLink (dsPort d) (fun l => { l with itp := none }) y) else modLink (dsPort d) (fun l => { l with itp := some n }) y) else y) (hostSeen u (fresh s)))) ∧
  (∀ (s : State) (d : DS), (linkOf s (dsPort d)).exiting = true →
      Runs (.deferredHeaderDelivery d) s [.out, .dsd, .usd, .links]
      (fun t => t = flushHdr (dsPort d) 64 ((linkOf s (dsPort d)).deferred.foldl (fun y h => sendHeader h.1 (dsPort d) h.2 y) (resend (dsPort d) (setLink (dsPort d) .u0 (modLink (dsPort d) (fun l => { l with exiting := false, deferred := [] }) (fresh s))))))) ∧
  (∀ (s : State) (d : DS) (h : SsHeader) (u : US), (dsOf s d).link = .u0 ∧ underVigil s d = false ∧ ownerOf s d = some u ∧ (hubOf s u).connected = true →
      Runs (.functionWake d h) s [.out, .now, .mbx, .dsd, .usd, .epqs, .links, .sched]
      (fun t => t = sendHeader (dsPort d) (usPort u) (rewriteUp (begun s) d h) (chargeTp (findEpq (begun s) d h.addr h.ep h.dirIn) (usPort u) (begun s)))) ∧
  (∀ (s : State) (p : Port) (h : SsHeader) (l : List SsHeader), (linkOf s p).retry = h :: l →
      Runs (.linkCommandReceived p (.lgood h.lseq)) s [.out, .mbx, .pmu, .fw, .avail, .hubs, .dsd, .usd, .links, .fo]
      (fun t => t = linkRested p (modLink p (fun x => { x with retry := l }) (fresh s)))) ∧
  (∀ (s : State) (p : Port) (n : Nat) (h : SsHeader) (l : List SsHeader), (linkOf s p).retry = h :: l ∧ h.lseq ≠ n →
      Runs (.linkCommandReceived p (.lgood n)) s [.out, .mbx, .pmu, .fw, .avail, .hubs, .dsd, .usd, .links, .fo]
      (fun t => t = setLink p .recovery (fresh s))) ∧
  (∀ (s : State) (p : Port), Runs (.linkCommandReceived p .lbad) s [.out, .mbx, .pmu, .fw, .avail, .hubs, .dsd, .usd, .links, .fo]
      (fun t => t = (linkOf s p).retry.foldl (fun y h => emit (.ssHeader p h) y) (emit (.linkCmd p .lrty) (fresh s)))) ∧
  (∀ (s : State) (p : Port), Runs (.linkCommandReceived p .lrty) s [.out, .mbx, .pmu, .fw, .avail, .hubs, .dsd, .usd, .links, .fo]
      (fun t => t = modLink p (fun l => { l with rxIgnore := false }) (fresh s))) ∧
  (∀ (s : State) (p : Port), Runs (.linkCommandReceived p (.lcrd (linkOf s p).txCrd)) s [.out, .mbx, .pmu, .fw, .avail, .hubs, .dsd, .usd, .links, .fo]
      (fun t => t = flushHdr p 64 (modLink p (fun l => { l with credits := min (maxCredits s p) (l.credits + 1), txCrd := (l.txCrd + 1) % maxCredits s p }) (fresh s)))) ∧
  (∀ (s : State) (p : Port) (n : Nat), n ≠ (linkOf s p).txCrd →
      Runs (.linkCommandReceived p (.lcrd n)) s [.out, .mbx, .pmu, .fw, .avail, .hubs, .dsd, .usd, .links, .fo]
      (fun t => t = setLink p .recovery (fresh s)))

/-- Egress, recovery, and the U1, U2 and inactive states of the links, each with its effect (R200, R145, R157, R158, R160). -/
def Obligations.SuperspeedLinkStatesRun : Prop :=
  (∀ (s : State) (p : Port) (n : Nat), cutting (begun s) p = true →
      Runs (.egressSelect p n) s [.out, .now, .mbx, .pmu, .fw, .avail, .hubs, .dsd, .usd, .epqs, .links, .sched, .fab, .vig, .fo]
      (fun t => t = begun s)) ∧
  (∀ (s : State) (p : Port) (n : Nat), cutting (begun s) p = false ∧ 0 < n ∧ (portUs p).isSome = true ∧ linkOpen (egressFreed p s) p = true ∧ 0 < (linkOf (egressFreed p s) p).credits ∧ (linkOf (egressFreed p s) p).prioUsed + n ≤ 16384 →
      Runs (.egressSelect p n) s [.out, .now, .mbx, .pmu, .fw, .avail, .hubs, .dsd, .usd, .epqs, .links, .sched, .fab, .vig, .fo]
      (fun t => t = (let s1 := egressFreed p s; modLink p (fun l => { l with prioUsed := l.prioUsed + n, tx := some none, busy := l.busy.modify 0 (· + busyUnits s1 p (n + 52)) }) s1))) ∧
  (∀ (s t1 : State) (p : Port), cutting (begun s) p = false ∧ sendLoose p (egressReady p s) = some t1 →
      Runs (.egressSelect p 0) s [.out, .now, .mbx, .pmu, .fw, .avail, .hubs, .dsd, .usd, .epqs, .links, .sched, .fab, .vig, .fo]
      (fun t => t = t1)) ∧
  (∀ (s : State) (p : Port), cutting (begun s) p = false ∧ sendLoose p (egressReady p s) = none ∧ wfqBest (egressTagged p s) p = none →
      Runs (.egressSelect p 0) s [.out, .now, .mbx, .pmu, .fw, .avail, .hubs, .dsd, .usd, .epqs, .links, .sched, .fab, .vig, .fo]
      (fun t => t = egressTagged p s)) ∧
  (∀ (s : State) (p : Port) (e : Nat × Epq) (x : Pkt) (l : List Pkt), cutting (begun s) p = false ∧ sendLoose p (egressReady p s) = none ∧ (linkOf (egressTagged p s) p).tx = none ∧ wfqBest (egressTagged p s) p = some e ∧ e.2.pkts = x :: l →
      Runs (.egressSelect p 0) s [.out, .now, .mbx, .pmu, .fw, .avail, .hubs, .dsd, .usd, .epqs, .links, .sched, .fab, .vig, .fo]
      (fun t => t = (let s1 := egressTagged p s; if stillOwned s1 e.2 x then settle (touchEpq e.1 (tagHead e.1 (popHead e.1 (sendData (some e.1) p x (availGo (dsCode e.2.port) s1))))) else settle (tagHead e.1 (popHead e.1 (overtaken e.1 e.2 x s1)))))) ∧
  (∀ (s : State) (p : Port) (q : Option Nat), (linkOf s p).tx = some q ∧ cutting s p = false →
      Runs (.egressRecoveryCut p) s [.out, .dsd, .usd, .links, .sched]
      (fun t => t = countDiscard (ingressOf s p q) q 6 (setLink p .recovery (modLink p (fun l => { l with tx := none }) (fresh s))))) ∧
  (∀ (s : State) (p : Port) (q : Option Nat), (linkOf s p).tx = some q ∧ cutting s p = true →
      Runs (.egressRecoveryCut p) s [.out, .dsd, .usd, .links, .sched]
      (fun t => t = allPorts.foldl (fun y i => match (linkOf y i).rx with | some r => if r.disp == .cut p then modLink i (fun l => { l with rx := some { r with disp := .drop } }) (countDiscard i r.epq 6 y) else y | none => y) (setLink p .recovery (modLink p (fun l => { l with tx := none }) (fresh s))))) ∧
  (∀ (s : State) (d : DS) (b : Bool), ((dsOf s d).link = .u0 ∨ (b = true ∧ (dsOf s d).link = .u1)) ∧ dsLpmOk s d b = true →
      Runs (.dsLinkIdleTimeout d b) s [.out, .now, .dsd, .usd]
      (fun t => t = setLink (dsPort d) (if b then .u2 else .u1) (advanceTo ((linkOf s (dsPort d)).idleFrom + lpmTimeout s d b * (if b then 256000 else 1000)) (fresh s)))) ∧
  (∀ (s : State) (d : DS) (b : Bool), (dsOf s d).link = .u0 →
      Runs (.dsDeviceLpmRequest d b) s [.out, .dsd, .usd]
      (fun t => t = (let s1 := emit (.lpmAnswer (dsPort d) (dsLpmOk s d b)) (fresh s); if dsLpmOk s d b then setLink (dsPort d) (if b then .u2 else .u1) s1 else s1))) ∧
  (∀ (s : State) (u : US) (b : Bool), (usOf s u).link = .u0 →
      Runs (.usLinkLpmRequest u b) s [.out, .avail, .dsd, .usd, .u2u, .vig, .fo]
      (fun t => t = (let s1 := emit (.lpmAnswer (usPort u) (usLpmOk (hostSeen u (fresh s)) u b)) (hostSeen u (fresh s)); if usLpmOk (hostSeen u (fresh s)) u b then setLink (usPort u) (if b then .u2 else .u1) s1 else s1))) ∧
  (∀ (s : State) (u : US) (b : Bool), ((usOf s u).link = .u0 ∨ (b = true ∧ (usOf s u).link = .u1)) ∧ usLpmOk s u b = true →
      Runs (.usLinkIdleTimeout u b) s [.out, .now, .dsd, .usd]
      (fun t => t = setLink (usPort u) (if b then .u2 else .u1) (advanceTo ((linkOf s (usPort u)).idleFrom + (if b then 1000000 else 10000)) (fresh s)))) ∧
  (∀ (s : State) (d : DS) (c : LeaveCause), ((dsOf s d).link = .u0 ∨ (dsOf s d).link = .u1 ∨ (dsOf s d).link = .u2 ∨ (dsOf s d).link = .recovery) →
      Runs (.dsLinkLeavesU0 d c) s [.out, .hubs, .dsd, .usd, .epqs, .links, .sched, .fab]
      (fun t => t = (match c with | .warmReset => setLink (dsPort d) .polling (dropStored d (fresh s)) | _ => chgPort d true .linkState (setLink (dsPort d) .inactive (dropStored d (fresh s))))))

/-- High-speed packets on the repeater path, babble and LPM tokens, each with its effect (R165, R187, R188, R189, R190). -/
def Obligations.RepeatedPacketsRun : Prop :=
  (∀ (s : State) (u : US) (k : UsbPkt), (hubOf s u).connected = true ∧ (usOf s u).speed2 = 2 ∧ (usOf s u).susp2 = false →
      Runs (.hsPacketRepeat (.host u) k) s [.out, .mbx, .avail, .epqs, .u2d, .u2u, .vig, .fo]
      (fun t => t = allDs.foldl (fun y d => if ownerOf y d == some u && hsOpen y d then (let y2 := downPacket d k y; match k, y.u2d[d].latch with | .data _ _ bs, some l => if l.dirIn then y2 else meterHs d l bs.length y2 | .handshake h, some l => modU2d d (fun x => { x with latch := none }) (endTransaction d l true h y2) | _, _ => y2) else y) (match k with | .sof n => hostSof u n (hostSeen u (fresh s)) | _ => hostSeen u (fresh s)))) ∧
  (∀ (s : State) (d : DS) (k : UsbPkt) (u : US), hsOpen s d = true ∧ underVigil s d = false ∧ hsPastEof1 s d = false ∧ ownerOf s d = some u ∧ (hubOf s u).connected = true ∧ (usOf s u).speed2 = 2 ∧ s.u2d[d].latch = none →
      Runs (.hsPacketRepeat (.dev d) k) s [.out, .mbx, .avail, .epqs, .u2d, .u2u, .vig, .fo]
      (fun t => t = emit (.usb2 (usPort u) k) (fresh s))) ∧
  (∀ (s : State) (d : DS) (b : Bool), (dsOf s d).enable = true →
      Runs (.babbleDetect d b) s [.out, .mbx, .hubs, .dsd, .epqs, .links, .fab, .u2d]
      (fun t => (dsOf t d).enable = false ∧ (dsOf t d).babble = (dsOf s d).babble + 1)) ∧
  (∀ (s : State) (d : DS) (v : Bool) (x : Nat) (a : Option Hsk) (n : Nat) (w : Bool) (u : US), ownerOf s d = some u ∧ v = false ∧ hsOpen s d = true ∧ (usOf s u).speed2 = 2 →
      Runs (.dsLpmToken d v x a n w) s [.out, .avail, .dsd, .u2d, .u2u, .vig, .fo]
      (fun t => t = (let s1 := allDs.foldl (fun y e => if ownerOf y e == some u && hsOpen y e then lpmTokens e x n w y else y) (hostSeen u (fresh s)); match a with | some .ack => modU2d d (fun y => { y with besl := n, l1Wake := w }) (modDs d (fun y => { y with l1 := true }) (emit (.usb2 (usPort u) (.handshake .ack)) s1)) | some h => emit (.usb2 (usPort u) (.handshake h)) s1 | none => s1))) ∧
  (∀ (s : State) (d : DS) (v : Bool) (x : Nat) (a : Option Hsk) (n : Nat) (w : Bool) (u : US), ownerOf s d = some u ∧ v = true ∧ (usOf s u).speed2 = 2 ∧ (dsOf s d).enable = true →
      Runs (.dsLpmToken d v x a n w) s [.out, .avail, .dsd, .u2d, .u2u, .vig, .fo]
      (fun t => t = emit (.split u (.hs .stall)) (hostSeen u (fresh s)))) ∧
  (∀ (s : State) (u : US) (v : Fin 15) (d : DS), ownedAt s u v = some d ∧ (hubOf s u).connected = true ∧ (dsOf s d).l1 = true →
      Runs (.clearPortL1 u v) s [.out, .dsd]
      (fun t => (dsOf t d).l1 = false ∧ (dsOf t d).l1Exit = some (s.now + beslNs s.u2d[d].besl) ∧ t.out = [.resumeK d (beslNs s.u2d[d].besl)] ∧ ∀ e, e ≠ d → dsOf t e = dsOf s e)) ∧
  (∀ (s : State) (d : DS), (dsOf s d).l1 = true ∧ s.u2d[d].l1Wake = true →
      Runs (.l1DeviceWake d) s [.out, .hubs, .dsd]
      (fun t => t = chgPort d false .l1 (modDs d (fun x => { x with l1 := false }) (fresh s)))) ∧
  (∀ (s : State) (u : US) (n b : Nat) (w : Bool), (hubOf s u).connected = true ∧ (usOf s u).susp2 = false ∧ (usOf s u).l1 = false →
      Runs (.companionLpm u n b w) s [.out, .avail, .usd, .u2u, .vig, .fo]
      (fun t => t = (let s1 := hostSeen u (fresh s); if n ≠ 1 then emit (.lpm u .stall) s1 else if companionIdle s1 u then modU2u u (fun x => { x with l1Wake := w }) (modUs u (fun x => { x with l1 := true }) (emit (.lpm u .ack) s1)) else emit (.lpm u .nyet) s1))) ∧
  (∀ (s : State) (u : US) (x : Option DS), (usOf s u).l1 = true ∧ x = none →
      Runs (.companionL1Exit u x) s [.out, .avail, .hubs, .dsd, .usd, .u2u, .vig, .fo]
      (fun t => t = waitingL1 u (modUs u (fun y => { y with l1 := false }) (hostSeen u (fresh s))))) ∧
  (∀ (s : State) (u : US) (x : Option DS) (d : DS), (usOf s u).l1 = true ∧ x = some d ∧ ownerOf s d = some u →
      Runs (.companionL1Exit u x) s [.out, .avail, .hubs, .dsd, .usd, .u2u, .vig, .fo]
      (fun t => t = (if s.u2u[u.idx].l1Wake then emit (.upWake u false) (modUs u (fun y => { y with l1 := false }) (fresh s)) else modDs d (fun y => { y with wakePend2 := true }) (fresh s))))

/-- Splits, translator transactions and frames, each with its effect (R175, R176, R179, R178). -/
def Obligations.TranslatorsRun : Prop :=
  (∀ (s : State) (u : US) (v : Fin 15) (a e : Nat) (i p c l : Bool) (k : DPid) (b : List Byte) (o : Bool) (d : DS), ttPort s u v = some d ∧ (i = true ∨ (o = true ∧ b.length ≤ ttMax l)) ∧ s.u2d[d].tt.stopped = true →
      Runs (.ssplitNonPeriodic u v a e i p c l k b o) s [.out, .avail, .epqs, .links, .place, .fab, .u2d, .u2u, .vig, .fo]
      (fun t => t = emit (.split u (.hs .nak)) (splitSeen u d a e i (if i then 0 else b.length) s))) ∧
  (∀ (s : State) (u : US) (v : Fin 15) (a e : Nat) (i p c l : Bool) (k : DPid) (b : List Byte) (o : Bool) (d : DS), ttPort s u v = some d ∧ (i = true ∨ (o = true ∧ b.length ≤ ttMax l)) ∧ s.u2d[d].tt.stopped = false ∧ s.u2d[d].tt.bufs.length < 16 ∧ s.u2d[d].tt.bufs.find? (ttMatch a e i) = none →
      Runs (.ssplitNonPeriodic u v a e i p c l k b o) s [.out, .avail, .epqs, .links, .place, .fab, .u2d, .u2u, .vig, .fo]
      (fun t => t = (let s1 := splitSeen u d a e i (if i then 0 else b.length) s; acceptSplit u d { addr := a, ep := e, dirIn := i, setup := p, ctl := c, low := l, pid := (if !i && !c && invertOf s1 d (ttAddr s d a) e false then flipPid k else k), data := b, epq := findEpq s1 d (ttAddr s d a) e i } s1))) ∧
  (∀ (s : State) (u : US) (v : Fin 15) (a e : Nat) (i p c l : Bool) (k : DPid) (b : List Byte) (o : Bool) (d : DS), ttPort s u v = some d ∧ (i = true ∨ (o = true ∧ b.length ≤ ttMax l)) ∧ s.u2d[d].tt.stopped = false ∧ 16 ≤ s.u2d[d].tt.bufs.length ∧ s.u2d[d].tt.bufs.find? (ttMatch a e i) = none →
      Runs (.ssplitNonPeriodic u v a e i p c l k b o) s [.out, .avail, .epqs, .links, .place, .fab, .u2d, .u2u, .vig, .fo]
      (fun t => t = emit (.split u (.hs .nak)) (splitSeen u d a e i (if i then 0 else b.length) s))) ∧
  (∀ (s : State) (u : US) (v : Fin 15) (a e : Nat) (i : Bool) (d : DS) (b : TtBuf), ttPort s u v = some d ∧ s.u2d[d].tt.bufs.find? (fun x => ttMatch a e i x && !x.freeAtEnd) = some b ∧ (b.st = .pending ∨ b.st = .executing) →
      Runs (.csplitNonPeriodic u v a e i) s [.out, .mbx, .avail, .epqs, .u2d, .u2u, .vig, .fo]
      (fun t => t = emit (.split u (.hs .nyet)) (splitSeen u d a e i 0 s))) ∧
  (∀ (s : State) (u : US) (v : Fin 15) (a e : Nat) (i : Bool) (d : DS) (b : TtBuf) (r : UsbResp), ttPort s u v = some d ∧ s.u2d[d].tt.bufs.find? (fun x => ttMatch a e i x && !x.freeAtEnd) = some b ∧ b.st = .done ∧ b.result = some r ∧ (b.spilled = false ∨ b.dirIn = false) →
      Runs (.csplitNonPeriodic u v a e i) s [.out, .mbx, .avail, .epqs, .u2d, .u2u, .vig, .fo]
      (fun t => t = (let s1 := splitSeen u d a e i 0 s; emit (.split u r) (modTt d (fun y => { y with bufs := y.bufs.map (fun x => if ttMatch a e i x then { x with returned := true } else x) }) (if b.returned then s1 else mirrorTt d a e r b.doneAt s1))))) ∧
  (∀ (s : State) (d : DS) (b : TtBuf), s.u2d[d].tt.bufs = [b] ∧ ttMayStart s d b = true ∧ b.spilled = false ∧ s.u2d[d].tt.stopped = false ∧ periodicReady s d = false ∧ (dsOf s d).enable = true ∧ (dsOf s d).test2 = 0 →
      Runs (.ttTransactionStart d) s [.out, .epqs, .links, .fab, .u2d]
      (fun t => t.u2d[d].tt.bufs = [{ b with st := .executing, attempts := b.attempts + 1, daddr := ttAddr s d b.addr, inv := b.dirIn && !b.ctl && invertOf s d (ttAddr s d b.addr) b.ep true, tag := (match b.tag with | some c => some c | none => (b.epq.bind (epqOf s)).bind (·.chv)) }] ∧ t.out = [.ttTrans d (ttAddr s d b.addr) b.ep b.dirIn b.setup (needsPre s d b.low) b.pid b.data])) ∧
  (∀ (s : State) (d : DS) (r : Option UsbResp) (b : TtBuf), s.u2d[d].tt.bufs = [b] ∧ b.st = .executing ∧ b.freeAtEnd = false ∧ ttAnswer b r = none →
      Runs (.ttTransactionEnd d r) s [.out, .mbx, .avail, .epqs, .links, .fab, .u2d, .vig]
      (fun t => t.u2d[d].tt.bufs = [if b.attempts < 3 then { b with st := .pending } else { b with st := .done, result := none, returned := false }])) ∧
  (∀ (s : State) (d : DS) (r : Option UsbResp) (b : TtBuf) (x : UsbResp), s.u2d[d].tt.bufs = [b] ∧ b.st = .executing ∧ b.freeAtEnd = false ∧ ttAnswer b r = some x →
      Runs (.ttTransactionEnd d r) s [.out, .mbx, .avail, .epqs, .links, .fab, .u2d, .vig]
      (fun t => t = (let s2 := meterTt d b.daddr b.ep b.dirIn (match x with | .data _ l => l.length | _ => b.data.length) (ttShadow d b.daddr b.ep b.dirIn x (availGo (dsCode d) (fresh s))); let y := spillResult { b with st := .done, result := some (ttResult b.inv x), returned := false, doneAt := s2.now } s2; let s3 := settle (modTt d (fun z => { z with bufs := z.bufs.modify 0 (fun _ => y.1) }) y.2); if portVigil s3 d then captureTt d s3 else s3))) ∧
  (∀ (s : State) (d : DS) (r : Option UsbResp) (b : TtBuf), s.u2d[d].tt.bufs = [b] ∧ b.st = .executing ∧ b.freeAtEnd = true →
      Runs (.ttTransactionEnd d r) s [.out, .mbx, .avail, .epqs, .links, .fab, .u2d, .vig]
      (fun t => t = settle (modTt d (fun y => { y with bufs := [] }) (fresh s)))) ∧
  (∀ (s : State) (u : US) (n : Nat), (hubOf s u).connected = true ∧ (usOf s u).speed2 = 2 ∧ (usOf s u).susp2 = false →
      Runs (.ttFsFrameStart u n) s [.out, .avail, .u2d, .u2u, .vig, .fo]
      (fun t => t = allDs.foldl (fun y d => if ownerOf y d == some u && (dsOf y d).enable && (dsOf y d).test2 == 0 && (dsOf y d).speed2 != some .hs && !(dsOf y d).suspHost2 && !(dsOf y d).suspHub2 && !portFenced y (dsPort d) then emit (if (dsOf y d).speed2 == some .ls then .keepAlive d else .sof d n) (modTt d (fun x => { x with frame := n }) y) else y) (hostSeen u (fresh s))))

/-- Periodic splits and the requests on a translator, each with its effect (R179, R180, R177, R184, R182). -/
def Obligations.PeriodicTranslatorRuns : Prop :=
  (∀ (s : State) (u : US) (v : Fin 15) (a e : Nat) (i o l : Bool) (k : DPid) (b : List Byte) (d : DS), ttPort s u v = some d ∧ s.u2d[d].tt.stopped = true →
      Runs (.ssplitPeriodic u v a e i o l k b) s [.out, .avail, .epqs, .place, .u2d, .u2u, .vig, .fo]
      (fun t => t = splitSeen u d a e i (if i then 0 else b.length) s)) ∧
  (∀ (s : State) (u : US) (v : Fin 15) (a e : Nat) (i o l : Bool) (k : DPid) (b : List Byte) (d : DS), ttPort s u v = some d ∧ s.u2d[d].tt.stopped = false ∧ slotFull (splitSeen u d a e i (if i then 0 else b.length) s) d (s.u2u[u.idx].uframe + 1) a e i b = true →
      Runs (.ssplitPeriodic u v a e i o l k b) s [.out, .avail, .epqs, .place, .u2d, .u2u, .vig, .fo]
      (fun t => t.u2d[d].tt.dropped = s.u2d[d].tt.dropped + 1 ∧ ∃ x : TtPer, t.u2d[d].tt.per = s.u2d[d].tt.per ++ [x] ∧ x.drop = true ∧ x.slot = s.u2u[u.idx].uframe + 1 ∧ x.addr = a ∧ x.ep = e ∧ x.dirIn = i ∧ x.data = [] ∧ x.result = some (.hs .err))) ∧
  (∀ (s : State) (u : US) (v : Fin 15) (a e : Nat) (o l : Bool) (k : DPid) (b : List Byte) (d : DS), ttPort s u v = some d ∧ s.u2d[d].tt.stopped = false ∧ slotFull (splitSeen u d a e false b.length s) d (s.u2u[u.idx].uframe + 1) a e false b = false →
      Runs (.ssplitPeriodic u v a e false o l k b) s [.out, .avail, .epqs, .place, .u2d, .u2u, .vig, .fo]
      (fun t => t = (let s1 := splitSeen u d a e false b.length s; let q := findEpq s1 d (ttAddr s d a) e false; modTt d (fun y => { y with per := y.per ++ [{ slot := s1.u2u[u.idx].uframe + 1, addr := a, ep := e, dirIn := false, iso := o, low := l, pid := (if !o && invertOf s1 d (ttAddr s d a) e false then flipPid k else k), data := b, epq := q, result := none, doneAt := s1.now, tag := (q.bind (epqOf s1)).bind (·.chv) }] }) s1))) ∧
  (∀ (s : State) (u : US) (v : Fin 15) (a e : Nat) (i : Bool) (d : DS), ttSlot s u v = some d ∧ s.u2d[d].tt.per = [] →
      Runs (.csplitPeriodic u v a e i) s [.out, .mbx, .avail, .epqs, .u2d, .u2u, .vig, .fo]
      (fun t => t = emit (.split u (.hs .err)) (splitSeen u d a e i 0 s))) ∧
  (∀ (s : State) (u : US) (v : Fin 15) (a e : Nat) (d : DS) (x : TtPer) (r : UsbResp), ttSlot s u v = some d ∧ (ttPort s u v).isSome = true ∧ s.u2d[d].tt.per = [x] ∧ x.addr = a ∧ x.ep = e ∧ x.dirIn = true ∧ x.result = some r →
      Runs (.csplitPeriodic u v a e true) s [.out, .mbx, .avail, .epqs, .u2d, .u2u, .vig, .fo]
      (fun t => t = (let s1 := splitSeen u d a e true 0 s; emit (.split u (perAnswer x r)) (modTt d (fun y => { y with per := y.per.map (fun z => if z == x then { z with sent := perSent x r, returned := x.returned || perSent x r == x.sent } else z) }) (if x.returned then s1 else mirrorTt d a e r x.doneAt s1))))) ∧
  (∀ (s : State) (d : DS) (l : List (Option UsbResp)) (u : US) (x : TtPer), ownerOf s d = some u ∧ s.u2d[d].tt.stopped = false ∧ (dsOf s d).enable = true ∧ (dsOf s d).test2 = 0 ∧ s.u2d[d].tt.per = [x] ∧ perWaits s d x = true ∧ x.slot ≤ s.u2u[u.idx].uframe ∧ l.getD 0 none = none →
      Runs (.ttPeriodicSlotRun d l) s [.out, .avail, .epqs, .u2d, .vig]
      (fun t => t.u2d[d].tt.per = [{ x with result := some (.hs .err), doneAt := s.now }] ∧ t.out = [.ttTrans d (ttAddr s d x.addr) x.ep x.dirIn false (needsPre s d x.low) x.pid x.data])) ∧
  (∀ (s : State) (d : DS) (l : List (Option UsbResp)) (u : US) (x : TtPer) (r : UsbResp), ownerOf s d = some u ∧ s.u2d[d].tt.stopped = false ∧ (dsOf s d).enable = true ∧ (dsOf s d).test2 = 0 ∧ s.u2d[d].tt.per = [x] ∧ perWaits s d x = true ∧ x.slot ≤ s.u2u[u.idx].uframe ∧ l.getD 0 none = some r ∧ x.iso = true →
      Runs (.ttPeriodicSlotRun d l) s [.out, .avail, .epqs, .u2d, .vig]
      (fun t => t.u2d[d].tt.per = [{ x with result := some (if x.dirIn then ttResult (invertOf s d (ttAddr s d x.addr) x.ep true) r else .hs .ack), doneAt := s.now }])) ∧
  (∀ (s : State) (d : DS) (u : US), ownerOf s d = some u →
      Runs (.ttSlotResultExpiry d) s [.out, .mbx, .epqs, .links, .fab, .u2d, .vig]
      (fun t => t.u2d[d].tt.per = s.u2d[d].tt.per.filter (fun p => !decide (p.slot + 4 < s.u2u[u.idx].uframe)) ∧ t.u2d[d].tt.expired = s.u2d[d].tt.expired + ((s.u2d[d].tt.per.filter (fun p => decide (p.slot + 4 < s.u2u[u.idx].uframe))).filter (fun p => !p.drop)).length)) ∧
  (∀ (s : State) (d : DS) (a e i : Nat) (b c : TtBuf), s.u2d[d].tt.bufs.findIdx? (fun x => x.addr == a && x.ep == e && x.spilled) = some i ∧ s.u2d[d].tt.bufs[i]? = some b ∧ unspill s d b = some c →
      Runs (.spilledResultFetch d a e) s [.out, .epqs, .links, .fab, .u2d]
      (fun t => t = settle (modTt d (fun y => { y with bufs := y.bufs.modify i (fun _ => c) }) (fresh s)))) ∧
  (∀ (s : State) (u : US) (v i : Nat), (hubOf s u).connected = true →
      Runs (.clearTtBuffer u v i) s [.out, .epqs, .links, .fab, .u2d]
      (fun t => t = emit (.control u []) (settle ((ttTargets s u i).foldl (fun y d => modTt d (fun t => { t with bufs := (t.bufs.filter (fun b => !(clearMatch v b && b.st != .executing))).map (fun b => if clearMatch v b then { b with freeAtEnd := true } else b) }) y) (fresh s))))) ∧
  (∀ (s : State) (u : US) (i : Nat), (hubOf s u).connected = true →
      Runs (.resetTt u i) s [.out, .epqs, .links, .fab, .u2d]
      (fun t => t = emit (.control u []) ((ttTargets s u i).foldl (fun y d => ttReset d y) (fresh s)))) ∧
  (∀ (s : State) (u : US) (i : Nat), (hubOf s u).connected = true ∧ i < 65536 →
      Runs (.getTtState u i) s [.out]
      (fun t => t = { s with out := [.stall u] })) ∧
  (∀ (s : State) (u : US) (i : Nat), (hubOf s u).connected = true →
      Runs (.stopTt u i) s [.out, .u2d]
      (fun t => t = emit (.control u []) ((ttTargets s u i).foldl (fun y d => modTt d (fun t => { t with stopped := true }) y) (fresh s)))) ∧
  (∀ (s : State) (u : US) (n : Nat), (hubOf s u).connected = true →
      Runs (.companionSetInterface u n) s [.out, .hubs, .epqs, .links, .fab, .u2d]
      (fun t => t = (if n > 1 then emit (.stall u) (fresh s) else let s1 := emit (.control u []) (fresh s); if (hubOf s u).multiTt = decide (n = 1) then s1 else (allDs.filter (fun d => ownerOf s1 d == some u)).foldl (fun y d => ttReset d y) (modHub u (fun h => { h with multiTt := decide (n = 1) }) s1))))

/-- USB 2.0 resets of ports and hubs and the SuperSpeed resets, each with its effect (R171, R172, R173, R287, R288). -/
def Obligations.PortResetsRun : Prop :=
  (∀ (s : State) (u : US) (v : Fin 15), hubUp s u false = true ∧ shownHere (hostSeen u (fresh s)) u v false = none →
      Runs (.portResetRequest u v) s [.out, .mbx, .avail, .hubs, .dsd, .epqs, .links, .sched, .place, .fab, .u2d, .u2u, .vig, .fo]
      (fun t => t = modSlot u v (fun x => { x with emptyReset := some s.now }) (hostSeen u (fresh s)))) ∧
  (∀ (s : State) (u : US) (v : Fin 15) (d : DS), hubUp s u false = true ∧ shownHere (hostSeen u (fresh s)) u v false = some d ∧ (∀ c, ctxAt (hostSeen u (fresh s)) d 0 false = some c → resetAbsorbed (hostSeen u (fresh s)) c.2 = false) →
      Runs (.portResetRequest u v) s [.out, .mbx, .avail, .hubs, .dsd, .epqs, .links, .sched, .place, .fab, .u2d, .u2u, .vig, .fo]
      (fun t => t = startReset d .host (hostSeen u (fresh s)))) ∧
  (∀ (s : State) (u : US) (v : Fin 15) (d : DS) (c : Nat × Ctx), hubUp s u false = true ∧ shownHere (hostSeen u (fresh s)) u v false = some d ∧ ctxAt (hostSeen u (fresh s)) d 0 false = some c ∧ resetAbsorbed (hostSeen u (fresh s)) c.2 = true →
      Runs (.portResetRequest u v) s [.out, .mbx, .avail, .hubs, .dsd, .epqs, .links, .sched, .place, .fab, .u2d, .u2u, .vig, .fo]
      (fun t => t = absorbReset c.1 false (hostSeen u (fresh s)))) ∧
  (∀ (s : State) (d : DS) (n x : Nat), (dsOf s d).resetAt = some x ∧ bit (dsOf s d).quirks 0 = false ∧ (dsOf s d).speed2 ≠ some .ls ∧ (dsOf s d).chirpFail = false ∧ 2500 ≤ n ∧ s.now < x + 7000000 →
      Runs (.deviceChirpK d n) s [.out, .dsd]
      (fun t => (dsOf t d).chirpAt = some s.now ∧ ∀ e, e ≠ d → dsOf t e = dsOf s e)) ∧
  (∀ (s : State) (d : DS) (x : Nat), (dsOf s d).resetAt = some x ∧ (dsOf s d).chirpFail = false →
      Runs (.chirpTimeout d) s [.out, .now, .dsd]
      (fun t => (dsOf t d).chirpFail = true ∧ (dsOf t d).chirpAt = none ∧ (dsOf t d).chirpTimeouts = (dsOf s d).chirpTimeouts + 1 ∧ (s.clk.tbOn = true → x + 7000000 ≤ t.now))) ∧
  (∀ (s : State) (d : DS) (h : Bool) (x : Nat), (dsOf s d).resetAt = some x →
      Runs (.portResetEnd d h) s [.out, .now, .hubs, .dsd, .vig]
      (fun t => t = (let s1 := advanceTo (x + if bit (dsOf s d).quirks 7 then 20000000 else 10000000) (fresh s); let v : Speed2 := if (dsOf s d).chirpAt.isSome && !(dsOf s d).chirpFail && h then .hs else if (dsOf s d).speed2 == some .ls then .ls else .fs; let s2 := modDs d (fun y => { y with resetAt := none, chirpAt := none, chirpFail := false, enable := true, speed2 := some v }) s1; deviceArrived d false (if (dsOf s d).resetBy == .host then chgPort d false .reset s2 else s2)))) ∧
  (∀ (s : State) (u : US) (b : Bool), ((usOf s u).pullup = true ∨ (usOf s u).speed2 = 2) →
      Runs (.upstreamUsb2Reset u b) s [.out, .mbx, .pmu, .fw, .avail, .hubs, .dsd, .usd, .epqs, .links, .sched, .place, .fab, .u2d, .u2u, .vig, .fo, .tc, .phy, .pwr, .lane, .dp]
      (fun t => (usOf t u).reset2 = some s.now ∧ (usOf t u).chirpK = b ∧ (usOf t u).speed2 = 1 ∧ (usOf t u).susp2 = false ∧ (usOf t u).l1 = false ∧ (hubOf t u).addr2 = 0 ∧ (hubOf t u).remoteWake2 = false ∧ (hubOf t u).multiTt = true)) ∧
  (∀ (s : State) (u : US) (n : Nat), (usOf s u).chirpK = true ∧ n ≤ 2000000 →
      Runs (.hostChirpKj u n) s [.out, .mbx, .avail, .hubs, .dsd, .usd, .epqs, .links, .sched, .place, .fab, .u2d, .vig]
      (fun t => usOf t u = { usOf s u with chirpK := false, reset2 := none, speed2 := 2, pullup := false } ∧ usOf t u.other = usOf s u.other)) ∧
  (∀ (s : State) (u : US) (n : Nat), (usOf s u).chirpK = true ∧ 2000000 < n →
      Runs (.hostChirpKj u n) s [.out, .mbx, .avail, .hubs, .dsd, .usd, .epqs, .links, .sched, .place, .fab, .u2d, .vig]
      (fun t => usOf t u = { usOf s u with chirpK := false, reset2 := none } ∧ usOf t u.other = usOf s u.other)) ∧
  (∀ (s : State) (u : US) (v : Fin 15) (d : DS), hubUp s u true = true ∧ ownedAt s u v = some d ∧ presentable s d = true ∧ ((dsOf s d).link ≠ .rxDetect ∧ (dsOf s d).link ≠ .disabled) ∧ (∀ c, ctxAt (hostSeen u (fresh s)) d 0 true = some c → resetAbsorbed (hostSeen u (fresh s)) c.2 = false) →
      Runs (.ssHotReset u v) s [.out, .mbx, .avail, .hubs, .dsd, .epqs, .links, .sched, .place, .fab, .u2d, .u2u, .vig, .fo]
      (fun t => t = startSsReset d false (hostSeen u (fresh s)))) ∧
  (∀ (s : State) (u : US) (v : Fin 15) (d : DS) (c : Nat × Ctx), hubUp s u true = true ∧ ownedAt s u v = some d ∧ presentable s d = true ∧ ((dsOf s d).link ≠ .rxDetect ∧ (dsOf s d).link ≠ .disabled) ∧ ctxAt (hostSeen u (fresh s)) d 0 true = some c ∧ resetAbsorbed (hostSeen u (fresh s)) c.2 = true →
      Runs (.ssHotReset u v) s [.out, .mbx, .avail, .hubs, .dsd, .epqs, .links, .sched, .place, .fab, .u2d, .u2u, .vig, .fo]
      (fun t => t = absorbReset c.1 false (hostSeen u (fresh s)))) ∧
  (∀ (s : State) (u : US) (v : Fin 15), hubUp s u true = true ∧ (ownedAt s u v = none ∨ ∃ d, ownedAt s u v = some d ∧ presentable s d = false) →
      Runs (.ssHotReset u v) s [.out, .mbx, .avail, .hubs, .dsd, .epqs, .links, .sched, .place, .fab, .u2d, .u2u, .vig, .fo]
      (fun t => t = chgSlot u v true .reset (hostSeen u (fresh s)))) ∧
  (∀ (s : State) (u : US) (v : Fin 15) (d : DS), hubUp s u true = true ∧ ownedAt s u v = some d ∧ presentable s d = true ∧ (((dsOf s d).link ≠ .rxDetect ∧ (dsOf s d).link ≠ .disabled) ∨ ((dsOf s d).ssFailed = true ∧ (dsOf s d).watch = true)) ∧ (∀ c, ctxAt (hostSeen u (fresh s)) d 0 true = some c → resetAbsorbed (hostSeen u (fresh s)) c.2 = false) →
      Runs (.ssWarmReset u v) s [.out, .mbx, .avail, .hubs, .dsd, .epqs, .links, .sched, .place, .fab, .u2d, .u2u, .vig, .fo]
      (fun t => t = startSsReset d true (hostSeen u (fresh s)))) ∧
  (∀ (s : State) (u : US) (v : Fin 15) (d : DS) (c : Nat × Ctx), hubUp s u true = true ∧ ownedAt s u v = some d ∧ presentable s d = true ∧ (((dsOf s d).link ≠ .rxDetect ∧ (dsOf s d).link ≠ .disabled) ∨ ((dsOf s d).ssFailed = true ∧ (dsOf s d).watch = true)) ∧ ctxAt (hostSeen u (fresh s)) d 0 true = some c ∧ resetAbsorbed (hostSeen u (fresh s)) c.2 = true →
      Runs (.ssWarmReset u v) s [.out, .mbx, .avail, .hubs, .dsd, .epqs, .links, .sched, .place, .fab, .u2d, .u2u, .vig, .fo]
      (fun t => t = absorbReset c.1 true (hostSeen u (fresh s)))) ∧
  (∀ (s : State) (u : US) (v : Fin 15), hubUp s u true = true ∧ (ownedAt s u v = none ∨ ∃ d, ownedAt s u v = some d ∧ presentable s d = false) →
      Runs (.ssWarmReset u v) s [.out, .mbx, .avail, .hubs, .dsd, .epqs, .links, .sched, .place, .fab, .u2d, .u2u, .vig, .fo]
      (fun t => t = chgSlot u v true .bhReset (chgSlot u v true .reset (hostSeen u (fresh s))))) ∧
  (∀ (s : State) (d : DS) (b w : Bool) (x : Nat), (dsOf s d).ssReset = some (w, x) →
      Runs (.ssResetComplete d b) s [.out, .now, .mbx, .avail, .hubs, .dsd, .epqs, .links, .sched, .place, .fab, .u2d, .vig]
      (fun t => t = (if b then (let s0 := modDs d (fun y => { y with ssReset := none, escalated := false, link := .u0, gen := if y.gen = 0 then 1 else y.gen }) (fresh s); let s1 := modLink (dsPort d) (freshLink s0 (dsPort d)) s0; let s2 := chgPort d true .reset (if w then chgPort d true .bhReset s1 else s1); if (dsOf s d).shown3 then deviceArrived d true s2 else presentConn d true s2) else if w = false then (let s1 := advanceTo (x + 20000000) (fresh s); modDs d (fun y => { y with ssReset := some (true, s1.now), escalated := true, link := .polling }) s1) else detachData d false true (advanceTo (x + 440000000) (fresh s))))) ∧
  (∀ (s : State) (u : US) (v : Fin 15) (x : Nat), (slotSt s u v).emptyReset = some x →
      Runs (.emptySlotResetComplete u v) s [.out, .now, .hubs]
      (fun t => t = chgSlot u v false .reset (modSlot u v (fun y => { y with emptyReset := none }) (advanceTo (x + 10000000) (fresh s))))) ∧
  (∀ (s : State) (u : US) (w : Bool), (usOf s u).ssTerm = true →
      Runs (.upstreamSsReset u w) s [.out, .mbx, .pmu, .fw, .avail, .hubs, .dsd, .usd, .epqs, .links, .sched, .place, .fab, .u2d, .u2u, .vig, .fo, .tc, .phy, .pwr, .lane, .dp]
      (fun t => (hubOf t u).addr3 = 0 ∧ (hubOf t u).depth = 0 ∧ (hubOf t u).funcWake3 = false ∧ (hubOf t u).u1Enable = false ∧ (hubOf t u).u2Enable = false ∧ (∀ v : Fin 15, (slotSt t u v).wakeMask = 0 ∧ (slotSt t u v).u1 = 0 ∧ (slotSt t u v).u2 = 0) ∧ (usOf t u).susp3 = false ∧ (usOf t u).link = (if w then .polling else .u0)))

/-- The refill tick, the samples and the steps of a rebuild, each with its effect (R196, R211, R220, R222, R221, R224). -/
def Obligations.SchedulerAndTablesRun : Prop :=
  (∀ (s : State), s.clk.tbOn = true →
      Runs (.refillTick) s [.out, .now, .mbx, .epqs, .links, .sched, .lio]
      (fun t => t = (let n := max ((s.sched.tickAt / 125000 + 1) * 125000) (s.now / 125000 * 125000); gpioFlush (doTick n ((n - s.sched.tickAt) / 125000) (fresh s))))) ∧
  (∀ (s : State), s.sched.samplePeriod ≤ s.sched.sampleCount →
      Runs (.observeSample) s [.out, .epqs, .sched]
      (fun t => t.sched = { s.sched with sampleCount := 0, samplePeriod := s.sched.sampleNew } ∧ (∀ e ∈ t.epqs, e.2.samples.length ≤ 64 ∧ e.2.sCharged = 0 ∧ e.2.sPackets = 0 ∧ e.2.sRed = 0) ∧ t.epqs.map Prod.fst = s.epqs.map Prod.fst)) ∧
  (∀ (s : State) (a : List (Nat × Nat)) (b : List (Nat × (Nat × Nat))), Runs (.placementAgentSample a b) s [.out, .epqs, .place]
      (fun t => t.place.qload = a ∧ t.place.qwait = b ∧ (∀ x ∈ t.place.load, x ≤ 100) ∧ (∀ x ∈ t.place.tagHw, x ≤ 128))) ∧
  (∀ (s : State), agentRuns s = true →
      Runs (.rebuildStart) s [.out, .now, .place]
      (fun t => t = (let p := if s.place.nowReq then 125000 else 2000000; let n := (s.now + p - 1) / p * p; let s1 := abandonRebuild (advanceTo n (fresh s)); beginRebuild n s1.place.nowReq (modPlace (fun x => { x with nowReq := false }) s1)))) ∧
  (∀ (s : State) (x : Rebuild), s.place.rebuild = some x ∧ x.step = 3 ∧ agentRuns s = true →
      Runs (.deltaLogMerge) s [.out, .place]
      (fun t => t = mergeLog (fresh s) ∧ t.place.rebuild = some { x with step := 5, log := [] })) ∧
  (∀ (s : State) (x : Rebuild), s.place.rebuild = some x ∧ x.step = 5 ∧ agentRuns s = true →
      Runs (.equinoxSwap) s [.out, .now, .mbx, .epqs, .links, .place, .fab]
      (fun t => t = equinoxSwap (advanceTo ((s.now + 124999) / 125000 * 125000) (fresh s)) ∧ t.place.rebuild = none ∧ t.place.tr = s.place.shTr ∧ t.place.swaps = s.place.swaps + 1 ∧ t.place.minimal = s.place.minimal + b2n x.minimal)) ∧
  (∀ (s : State), agentRuns s = true ∧ (3 ≤ s.place.missed ∨ s.place.trAt ≠ none) →
      Runs (.minimalSwap) s [.out, .place]
      (fun t => t = (let s1 := (match s.place.rebuild with | some _ => abandonRebuild (fresh s) | none => fresh s); applyTrs (applyPins (copyShadow (modPlace (fun p => { p with rebuild := some { t0 := s1.now, step := 5, minimal := true, now_ := false, log := [] } }) s1))))))

/-- Host absence, kept SOFs and the proxy host, each with its effect (R245, R249, R251). -/
def Obligations.AbsenceAndProxyRun : Prop :=
  (∀ (s : State) (u : US) (c : AbsCause), c = .detach →
      Runs (.hostAbsence u c) s [.out, .now, .mbx, .pmu, .fw, .avail, .hubs, .own, .dsd, .epqs, .links, .place, .fab, .u2d, .vig, .fo]
      (fun t => t = hostLost u (fresh s))) ∧
  (∀ (s : State) (u : US) (c : AbsCause), c = .vbusLoss ∧ isSink s (usPort u) = true ∧ (pwrOf s (usPort u)).frs = none →
      Runs (.hostAbsence u c) s [.out, .now, .mbx, .pmu, .fw, .avail, .hubs, .own, .dsd, .epqs, .links, .place, .fab, .u2d, .vig, .fo]
      (fun t => t = hostLost u (fresh s))) ∧
  (∀ (s : State) (u : US) (c : AbsCause), c = .timed ∧ linkPresent s u = false ∧ hubSuspended s u = false →
      Runs (.hostAbsence u c) s [.out, .now, .mbx, .pmu, .fw, .avail, .hubs, .own, .dsd, .epqs, .links, .place, .fab, .u2d, .vig, .fo]
      (fun t => t = hostLost u (advanceTo ((vigHub s u).absentFrom + s.vig.tAbsent * 10000000) (fresh s)))) ∧
  (∀ (s : State) (u : US) (x : Nat), s.u2u[u.idx].lastSof = some x ∧ s.u2u[u.idx].keep = none ∧ (usOf s u).speed2 = 2 ∧ (hubOf s u).state = .attached ∧ (allDs.filter (fun d => ownerOf s d == some u && keepable s d)) ≠ [] →
      Runs (.sofKeepingStart u) s [.out, .now, .avail, .u2d, .u2u]
      (fun t => t = (let n := tickAfter (max (x + 250000) s.now); keptFrame u n (max 1 ((n - x) / 125000)) ((allDs.filter (fun d => ownerOf s d == some u && keepable s d)).foldl (fun y d => modU2d d (fun z => { z with kept := true }) y) (fresh s))))) ∧
  (∀ (s : State) (u : US) (x : Nat), allDs.any (fun d => ownerOf s d == some u && sofPort s d) = true ∧ s.u2u[u.idx].keep = some x →
      Runs (.keptSof u) s [.out, .now, .avail, .u2d, .u2u, .vig]
      (fun t => t = (let s1 := keptFrame u (x + 125000) 1 (fresh s); if u = .us0 then keptIdle s1 else s1))) ∧
  (∀ (s : State) (u : US) (x : Nat), s.u2u[u.idx].keep = some x ∧ hubSuspended s u = true ∧ (hubOf s u).state ≠ .vigil →
      Runs (.keptPortSuspend u) s [.out, .mbx, .pmu, .fw, .avail, .dsd, .u2d, .u2u]
      (fun t => t = modeSync (allDs.foldl (fun y d => if ownerOf y d == some u && y.u2d[d].kept then modDs d (fun z => { z with suspHub2 := z.enable }) (modU2d d (fun z => { z with kept := false }) y) else y) (modU2u u (fun z => { z with keep := none }) (fresh s))))) ∧
  (∀ (s : State) (c : Fin 96) (n : Nat) (r : PollResp) (x : Ctx) (e : EpRec), ctxOf s c.val = some x ∧ x.eps.find? (fun z => z.d.ep == n && z.d.dirIn) = some e ∧ polled s x e = true ∧ pollFirst s x e = true →
      Runs (.proxyPoll c n r) s [.out, .now, .mbx, .avail, .epqs, .links, .vig]
      (fun t => t = (let s1 := emit (.poll x.port (x.daddr.getD 0) n) (pollServed x e (advanceTo (e.polledAt + pollInterval s x.port e) (fresh s))); let s2 := availGo (dsCode x.port) (modEp c.val n true (fun z => { z with polledAt := s1.now }) s1); match r with | .data k l => pollData c.val x e k l s2 | .nak => modEp c.val n true (fun z => if x.speed ≥ 3 then { z with erdyWait := true, errs := 0 } else { z with errs := 0 }) s2 | .stall => modEp c.val n true (fun z => { z with halted := true, stopped := true }) (capture x.port 2 0 x.hubPort (x.daddr.getD 0) (128 + n) s2.now [] s2) | .busError => let s3 := modEp c.val n true (fun z => { z with errs := z.errs + 1 }) s2; if e.errs + 1 < 3 then s3 else modEp c.val n true (fun z => { z with stopped := true }) (capture x.port 3 0 x.hubPort (x.daddr.getD 0) (128 + n) s3.now [] s3)))) ∧
  (∀ (s : State) (d : DS), portVigil s d = true →
      Runs (.heldDeviceRemoteWake d) s [.out, .dsd, .vig]
      (fun t => (dsOf t d).suspHost2 = false ∧ (dsOf t d).suspHub2 = false ∧ (dsOf t d).suspHost3 = false ∧ (dsOf t d).suspHub3 = false ∧ (dsOf t d).link = (if (dsOf s d).link = .u3 then .u0 else (dsOf s d).link))) ∧
  (∀ (s : State) (d : DS) (a : Option Hsk) (c : Nat × Ctx), ctxAt s d 0 false = some c ∧ c.2.st = .held ∧ portVigil s d = true ∧ c.2.speed = 2 ∧ c.2.eps.any (fun e => polled s c.2 e) = false ∧ c.2.cache.any (fun e => e.1.1 / 256 == 15 && bosLpm e.2) = true ∧ bit (devQuirks s c.2) 2 = false ∧ ctxAsleep s c.2 = false ∧ (dsOf s d).l1 = false ∧ portFenced s (dsPort d) = false →
      Runs (.proxyLpmIdle d a) s [.out, .now, .dsd, .u2d, .vig]
      (fun t => t = (let s1 := advanceTo (c.2.idleFrom + 10000000) (fresh s); if a = some .ack then modCtx c.1 (fun x => { x with lpm := true }) (modU2d d (fun y => { y with besl := 4, l1Wake := true }) (modDs d (fun y => { y with l1 := true }) s1)) else modCtx c.1 (fun x => { x with idleFrom := s1.now }) s1)))

/-- The configuration of a hub, the returning host and its control requests, each with its effect (R247, R258). -/
def Obligations.ReturningHostRuns : Prop :=
  (∀ (s : State) (u : US) (b : Bool) (a v : Nat), (hubOf s u).connected = true ∧ safeHolds s = false →
      Runs (.hubSetConfiguration u b a v) s [.out, .now, .mbx, .pmu, .fw, .avail, .hubs, .dsd, .epqs, .place, .u2d, .u2u, .vig, .fo]
      (fun t => (if b then (hubOf t u).addr3 else (hubOf t u).addr2) = a ∧ (hubOf t u).configured = decide (v ≠ 0))) ∧
  (∀ (s : State) (u : US), (hubOf s u).state = .vigil ∧ (hubOf s u).connected = true →
      Runs (.returningHostFirstPacket u) s [.out, .avail, .u2u, .vig, .fo]
      (fun t => t = modVigHub u (fun h => { h with returned := true }) (hostSeen u (fresh s)))) ∧
  (∀ (s : State) (u : US) (d : DS) (n : Nat) (b : Bool) (a : Nat) (q : Setup) (l : List Byte) (f : CtlEnd) (e : List EpDesc), ownerOf s d = some u ∧ (hubOf s u).connected = true ∧ presentable s d = true ∧ b = false ∧ (dsOf s d).enable = true ∧ ctxAt (hostSeen u (fresh s)) d n false = none ∧ bit (seenOf (hostSeen u (fresh s)) d n).quirks 8 = false →
      Runs (.deviceControlRequest u d n b a q l f e) s [.out, .freeSeq, .mbx, .avail, .dsd, .epqs, .links, .sched, .place, .fab, .u2d, .u2u, .vig, .fo]
      (fun t => t = forwardReq d n b a q l f e (hostSeen u (fresh s)))) ∧
  (∀ (s : State) (u : US) (d : DS) (n : Nat) (b : Bool) (a : Nat) (q : Setup) (l : List Byte) (f : CtlEnd) (e : List EpDesc) (c : Nat × Ctx), ownerOf s d = some u ∧ (hubOf s u).connected = true ∧ presentable s d = true ∧ b = false ∧ (dsOf s d).enable = true ∧ ctxAt (hostSeen u (fresh s)) d n false = some c ∧ c.2.isHub = false ∧ c.2.translated = false ∧ c.2.daddr = some a ∧ bit (devQuirks (hostSeen u (fresh s)) c.2) 8 = false ∧ mayAbsorb (hostSeen u (fresh s)) c.2 = false →
      Runs (.deviceControlRequest u d n b a q l f e) s [.out, .freeSeq, .mbx, .avail, .dsd, .epqs, .links, .sched, .place, .fab, .u2d, .u2u, .vig, .fo]
      (fun t => t = forwardReq d n b a q l f e (hostSeen u (fresh s)))) ∧
  (∀ (s : State) (u : US) (d : DS) (n : Nat) (b : Bool) (a : Nat) (q : Setup) (l : List Byte) (f : CtlEnd) (e : List EpDesc) (c : Nat × Ctx) (x : List Byte), ownerOf s d = some u ∧ (hubOf s u).connected = true ∧ presentable s d = true ∧ b = false ∧ (dsOf s d).enable = true ∧ ctxAt (hostSeen u (fresh s)) d n false = some c ∧ c.2.isHub = false ∧ c.2.translated = false ∧ c.2.daddr = some a ∧ bit (devQuirks (hostSeen u (fresh s)) c.2) 8 = false ∧ mayAbsorb (hostSeen u (fresh s)) c.2 = true ∧ shadowRead (hostSeen u (fresh s)) c.2 q = some x →
      Runs (.deviceControlRequest u d n b a q l f e) s [.out, .freeSeq, .mbx, .avail, .dsd, .epqs, .links, .sched, .place, .fab, .u2d, .u2u, .vig, .fo]
      (fun t => t = (let s1 := hostSeen u (fresh s); { emit (.control u (x.take q.length)) s1 with freeSeq := s1.freeSeq + 1 }))) ∧
  (∀ (s : State) (u : US) (d : DS) (n : Nat) (b : Bool) (a : Nat) (q : Setup) (l : List Byte) (f : CtlEnd) (e : List EpDesc) (c : Nat × Ctx) (y : Ctx), ownerOf s d = some u ∧ (hubOf s u).connected = true ∧ presentable s d = true ∧ b = false ∧ (dsOf s d).enable = true ∧ ctxAt (hostSeen u (fresh s)) d n false = some c ∧ c.2.isHub = false ∧ c.2.translated = false ∧ c.2.daddr = some a ∧ bit (devQuirks (hostSeen u (fresh s)) c.2) 8 = false ∧ mayAbsorb (hostSeen u (fresh s)) c.2 = true ∧ shadowRead (hostSeen u (fresh s)) c.2 q = none ∧ absorbSet c.2 q l = some y →
      Runs (.deviceControlRequest u d n b a q l f e) s [.out, .freeSeq, .mbx, .avail, .dsd, .epqs, .links, .sched, .place, .fab, .u2d, .u2u, .vig, .fo]
      (fun t => t = (let s2 := retranslate c.1 (modCtx c.1 (fun _ => y) (emit (.control u []) (hostSeen u (fresh s)))); if c.2.st ≠ .ready ∧ y.st = .ready then endEpisode c.1 y s2 else s2))) ∧
  (∀ (s : State) (d : DS) (n : Nat) (b : Bool) (c : Nat × Ctx) (x : Nat), ctxAt s d n b = some c ∧ c.2.resetAt = some x →
      Runs (.absorbedResetComplete d n b) s [.out, .now, .hubs, .dsd, .vig]
      (fun t => t = (let s1 := modCtx c.1 (fun y => { y with st := .absorbing, resetAt := none, hubChg := decide (n ≠ 0), journal := y.journal.map (fun j => { j with armed := true }) }) (advanceTo (x + if bit (devQuirks s c.2) 7 then 20000000 else 10000000) (fresh s)); if n ≠ 0 then (match ownerOf s1 d with | some u => emit (.extHubReport u d (2 ^ n)) s1 | none => s1) else if b then (let s2 := chgPort d true .reset (modDs d (fun y => { y with link := .u0, suspHost3 := false, suspHub3 := false }) s1); if c.2.resetWarm then chgPort d true .bhReset s2 else s2) else chgPort d false .reset (modDs d (fun y => { y with enable := true, suspHost2 := false, suspHub2 := false, l1 := false }) s1))))

/-- Hold expiry, failover and fail-back, port moves and hub reconnects, each with its effect (R266, R269, R273, R276, R277,
R118, R108). -/
def Obligations.FailoverAndMovesRun : Prop :=
  (∀ (s : State) (u : US) (b : BootIn) (x : Nat), (vigHub s u).deadline = some x ∧ s.pmu.reported = .standby →
      Runs (.holdExpiry u b) s [.out, .now, .freeSeq, .mbx, .flt, .alm, .pmu, .clk, .wake, .sup, .fw, .avail, .hubs, .own, .dsd, .usd, .epqs, .links, .sched, .place, .memb, .fab, .u2d, .u2u, .vig, .fo, .tc, .phy, .pwr, .lane, .dp, .lio, .test]
      (fun t => t = raiseWake 11 0 0 (edgeTime b.wx s) b (fresh s))) ∧
  (∀ (s : State) (u : US) (b : BootIn) (x : Nat), (vigHub s u).deadline = some x ∧ s.pmu.reported = .vigil ∧ entering s = false ∧ deadlineRuns s u = true →
      Runs (.holdExpiry u b) s [.out, .now, .freeSeq, .mbx, .flt, .alm, .pmu, .clk, .wake, .sup, .fw, .avail, .hubs, .own, .dsd, .usd, .epqs, .links, .sched, .place, .memb, .fab, .u2d, .u2u, .vig, .fo, .tc, .phy, .pwr, .lane, .dp, .lio, .test]
      (fun t => t = holdExpiry u (suspendWake 11 0 0 (fresh s)))) ∧
  (∀ (s : State) (u p : US) (x : Nat), (foOf s u).absentAt = some x ∧ (foOf s u).rcd.partner = some p →
      Runs (.failoverDecision u) s [.out, .now, .usd, .fo]
      (fun t => t = (let s0 := advanceTo ((max (x + (foOf s u).rcd.delay * 10000000) s.now + 124999) / 125000 * 125000) (fresh s); if homeOpen s0 u = false then modFo u (fun f => { f with absentAt := none }) s0 else let s1 := modFo u (fun f => { f with absentAt := none, waiting := true }) s0; match (hubOf s0 p).state with | .attached => startFailover u s1 | .suspended => if (hubOf s0 p).remoteWake2 then modUs p (fun y => { y with upK := some s1.now }) (emit (.upWake p false) s1) else if (hubOf s0 p).funcWake3 then modUs p (fun y => { y with upLfps := true }) (emit (.upWake p true) s1) else s1 | _ => s1))) ∧
  (∀ (s : State) (u p : US), (foOf s u).back = none ∧ (foOf s u).rcd.partner = some p ∧ (foOf s u).waiting = false ∧ (foOf s u).queue ≠ [] ∧ (hubOf s p).state = .attached ∧ ((hubOf s u).state = .vigil ∨ (hubOf s u).state = .detached ∨ (hubOf s u).state = .failedOver) →
      Runs (.failoverPortStart u) s [.out, .now, .mbx, .pmu, .fw, .avail, .hubs, .own, .epqs, .links, .fab, .u2d, .vig, .fo]
      (fun t => t = foNext u p 32 (advanceTo (foOf s u).nextAt (fresh s)))) ∧
  (∀ (s : State) (u : US) (x : Back), (foOf s u).back = some x ∧ (hubOf s u).state = .attached →
      Runs (.failoverPortStart u) s [.out, .now, .mbx, .pmu, .fw, .avail, .hubs, .own, .epqs, .links, .fab, .u2d, .vig, .fo]
      (fun t => t = (let s1 := advanceTo x.nextAt (fresh s); backNext u 32 (modFo u (fun f => { f with back := some { x with queue := (x.deferred.filter (fun y => !absorbing s1 y.1)).map (·.1) ++ x.queue, deferred := x.deferred.filter (fun y => absorbing s1 y.1) } }) s1)))) ∧
  (∀ (s : State) (u : US) (x : Nat), (foOf s u).upFrom = some x ∧ (foOf s u).rcd.auto = true ∧ (foOf s u).back = none ∧ failedOver s u ≠ [] →
      Runs (.failbackAuto u) s [.out, .now, .usd, .fo]
      (fun t => t = (let s1 := advanceTo ((max (x + (foOf s u).rcd.backDelay * 1000000000) s.now + 124999) / 125000 * 125000) (fresh s); startBack u false (backOrder s1 u) s1))) ∧
  (∀ (s : State) (d : DS) (u : US) (x : Back) (y : Nat), homeOf s d = some u ∧ (foOf s u).back = some x ∧ x.deferred.find? (fun z => z.1 == d) = some (d, y) ∧ (hubOf s u).state = .attached →
      Runs (.failbackDeferTimeout d) s [.out, .now, .mbx, .hubs, .own, .epqs, .links, .fab, .u2d, .vig, .fo]
      (fun t => t = backNext u 32 (modFo u (fun f => { f with back := some { x with queue := d :: x.queue } }) (advanceTo y (fresh s))))) ∧
  (∀ (s : State) (d : DS) (m : Move), s.own.move[d] = some m ∧ m.phase = 1 →
      Runs (.moveOldOwnerDisconnect d) s [.out, .now, .mbx, .hubs, .own, .epqs, .links, .fab, .u2d, .vig]
      (fun t => (∃ n, t.own.move[d] = some { m with phase := 2, startAt := n }))) ∧
  (∀ (s : State) (d : DS) (m : Move), s.own.move[d] = some m ∧ m.phase = 2 →
      Runs (.moveDrainComplete d) s [.out, .mbx, .pmu, .fw, .avail, .hubs, .own, .dsd, .epqs, .links, .sched, .place, .fab, .u2d, .vig, .fo]
      (fun t => t.own = { s.own with owner := s.own.owner.set d m.dest, move := s.own.move.set d none } ∧ t = failoverMoved d (some m) (let s1 := setMove d none (setOwner d m.dest (fresh s)); let s2 := movedPort d (if m.keep then keepMoved d m s1 else releaseMoved d m s1); let s3 := moveShown d s2; let s4 := (match m.dest with | some u => withholdSs u s3 | none => s3); portEvent (dsPort d) 4 (le 1 (ownerCode m.dest)) (accRings (.assign d) s4) (finalCpl (.assign d) (if portFenced s4 (dsPort d) then stFenced else stOk) (assignResult m.keep m.dest) s4)))) ∧
  (∀ (s : State) (u : US) (x : Nat), (hubOf s u).reconnectAt = some x →
      Runs (.hubReconnect u) s [.out, .now, .mbx, .hubs, .usd]
      (fun t => (hubOf t u).connected = true ∧ (hubOf t u).active = (hubOf s u).conf ∧ (hubOf t u).reconnectAt = none ∧ (usOf t u).pullup = true ∧ (usOf t u).ssTerm = true ∧ t = finalCpl (.reconnect u (some true)) stOk (assignResult true (some u)) (finalCpl (.reconnect u (some false)) stOk (assignResult false (some u)) (finalCpl (.reconnect u none) stOk (assignResult false none) (hubConnect u (modHub u (fun h => { h with reconnectAt := none }) (advanceTo x (fresh s))))))))

/-- Vendor port status, port power, depths, timeouts, masks and change features, each with its effect (R129, R113, R131, R157,
R295, R298). -/
def Obligations.HubPortRequestsRun : Prop :=
  (∀ (s : State) (u : US) (b : Bool) (n : Nat), hubUp s u b = true →
      Runs (.getPortVendorStatus u b n) s [.out]
      (fun t => t = { s with out := [match wIndexSlot s u n with | none => .stall u | some v => .control u (le 4 (vendorWord s u v))] })) ∧
  (∀ (s : State) (u : US) (b : Bool) (n : Nat) (m : BitVec 16) (v : Fin 15) (d : DS), hubUp s u b = true ∧ wIndexSlot s u n = some v ∧ ownedAt s u v = some d →
      Runs (.clearPortVendorStatus u b n m) s [.out, .hubs, .dsd]
      (fun t => t = modDs d (fun x => { x with movedIn := x.movedIn && !m.getLsbD 11 }) (modSlot u v (fun x => { x with coincident := x.coincident && !m.getLsbD 4 }) (emit (.control u []) (fresh s))))) ∧
  (∀ (s : State) (u : US) (b : Bool) (n : Nat) (m : BitVec 16) (v : Fin 15), hubUp s u b = true ∧ wIndexSlot s u n = some v ∧ ownedAt s u v = none →
      Runs (.clearPortVendorStatus u b n m) s [.out, .hubs, .dsd]
      (fun t => t = emit (.control u []) (fresh s))) ∧
  (∀ (s : State) (u : US) (b : Bool) (v : Fin 15), hubUp s u b = true →
      Runs (.setPortPower u b v) s [.out, .hubs, .tc, .pwr]
      (fun t => t = (match ownedAt s u v with | some d => repower (dsPort d) (modSlot u v (fun x => { x with power := true }) (fresh s)) | none => modSlot u v (fun x => { x with power := true }) (fresh s)))) ∧
  (∀ (s : State) (u : US) (b : Bool) (v : Fin 15), hubUp s u b = true →
      Runs (.clearPortPower u b v) s [.out, .mbx, .avail, .hubs, .dsd, .usd, .epqs, .links, .sched, .place, .fab, .u2d, .vig, .tc, .phy, .pwr, .lane, .dp]
      (fun t => t = (match ownedAt s u v with | some d => portOff (dsPort d) (modDs d (fun x => { x with test2 := 0 }) (modSlot u v (fun x => { x with power := false }) (fresh s))) | none => modSlot u v (fun x => { x with power := false }) (fresh s)))) ∧
  (∀ (s : State) (u : US) (n : Nat), hubUp s u true = true →
      Runs (.setHubDepth u n) s [.out, .hubs]
      (fun t => (hubOf t u).depth = n ∧ t.out = [.control u []] ∧ hubOf t u.other = hubOf s u.other)) ∧
  (∀ (s : State) (u : US) (v : Fin 15) (b : Bool) (n : Byte), hubUp s u true = true →
      Runs (.setPortU1U2Timeout u v b n) s [.out, .hubs]
      (fun t => slotSt t u v = (if b then { slotSt s u v with u2 := n.toNat } else { slotSt s u v with u1 := n.toNat }) ∧ ∀ w, w ≠ v → slotSt t u w = slotSt s u w)) ∧
  (∀ (s : State) (u : US) (v : Fin 15) (m : BitVec 3), hubUp s u true = true →
      Runs (.setPortRemoteWakeMask u v m) s [.out, .hubs]
      (fun t => slotSt t u v = { slotSt s u v with wakeMask := m.toNat } ∧ ∀ w, w ≠ v → slotSt t u w = slotSt s u w)) ∧
  (∀ (s : State) (u : US) (b : Bool) (v : Fin 15) (c : Change), hubUp s u b = true →
      Runs (.clearPortChangeFeature u b v c) s [.out, .hubs]
      (fun t => slotSt t u v = (if b then { slotSt s u v with chg3 := (slotSt s u v).chg3.filter (· ≠ c) } else { slotSt s u v with chg2 := (slotSt s u v).chg2.filter (· ≠ c) }) ∧ ∀ w, w ≠ v → slotSt t u w = slotSt s u w)) ∧
  (∀ (s : State) (u : US) (b : Bool), hubUp s u b = true →
      Runs (.hubStatusPoll u b) s [.out]
      (fun t => t = { s with out := [if statusBitmap s u b = 0 then .nak u else .hubStatus u b (statusBitmap s u b)] })) ∧
  (∀ (s : State) (u : US) (f : HubFeature) (b : Bool), hubUp s u (match f with | .remoteWake2 => false | _ => true) = true →
      Runs (.hubSetFeature u f b) s [.out, .hubs]
      (fun t => hubOf t u = (match f with | .u1Enable => { hubOf s u with u1Enable := b } | .u2Enable => { hubOf s u with u2Enable := b } | .remoteWake2 => { hubOf s u with remoteWake2 := b } | .funcWake3 => { hubOf s u with funcWake3 := b }) ∧ hubOf t u.other = hubOf s u.other))

/-- Suspend and resume of ports and of the hub, with remote wake, each with its effect (R290, R293, R291, R292, R294, R295). -/
def Obligations.SuspendAndResumeRun : Prop :=
  (∀ (s : State) (u : US) (b : Bool) (v : Fin 15) (d : DS), hubUp s u b = true ∧ ownedAt s u v = some d →
      Runs (.portSuspendRequest u b v) s [.out, .dsd]
      (fun t => t = (if b then (if (dsOf s d).link = .u0 ∨ (dsOf s d).link = .u1 ∨ (dsOf s d).link = .u2 then modDs d (fun x => { x with u3Entry := true, suspHost3 := true }) (fresh s) else fresh s) else if (dsOf s d).enable = true ∧ (dsOf s d).resetAt = none then modDs d (fun x => { x with suspHost2 := true }) (fresh s) else fresh s))) ∧
  (∀ (s : State) (u : US) (v : Fin 15) (d : DS), hubUp s u false = true ∧ ownedAt s u v = some d ∧ (dsOf s d).suspHub2 = false ∧ (dsOf s d).suspHost2 = true ∧ (dsOf s d).resumeAt = none →
      Runs (.usb2PortResumeRequest u v) s [.out, .dsd]
      (fun t => dsOf t d = { dsOf s d with resumeAt := some s.now, resumeKind := .host, suspHost2 := false } ∧ ∀ e, e ≠ d → dsOf t e = dsOf s e)) ∧
  (∀ (s : State) (u : US) (v : Fin 15) (d : DS), hubUp s u false = true ∧ ownedAt s u v = some d ∧ (dsOf s d).suspHub2 = true →
      Runs (.usb2PortResumeRequest u v) s [.out, .dsd]
      (fun t => dsOf t d = { dsOf s d with suspHost2 := false } ∧ ∀ e, e ≠ d → dsOf t e = dsOf s e)) ∧
  (∀ (s : State) (d : DS) (x : Nat), (dsOf s d).resumeAt = some x ∧ (dsOf s d).resumeKind ≠ .hub →
      Runs (.usb2PortResumeEnd d) s [.out, .now, .hubs, .dsd]
      (fun t => t = (let s0 := advanceTo (x + 20000000) (fresh s); let s1 := modDs d (fun y => { y with resumeAt := none, suspHost2 := false, suspHub2 := (match ownerOf s0 d with | some u => (usOf s0 u).susp2 | none => false) }) s0; if (dsOf s d).resumeKind = .host ∨ (dsOf s d).suspHost2 = true then chgPort d false .suspend s1 else s1))) ∧
  (∀ (s : State) (u : US) (v : Fin 15) (d : DS), hubUp s u true = true ∧ ownedAt s u v = some d ∧ (dsOf s d).suspHub3 = false ∧ (dsOf s d).link = .u3 ∧ (dsOf s d).u3Exit = none →
      Runs (.ssPortResumeRequest u v) s [.out, .dsd]
      (fun t => dsOf t d = { dsOf s d with u3Exit := some .host, suspHost3 := false } ∧ ∀ e, e ≠ d → dsOf t e = dsOf s e)) ∧
  (∀ (s : State) (u : US), (hubOf s u).connected = true →
      Runs (.companionUpstreamSuspend u) s [.out, .mbx, .pmu, .fw, .avail, .hubs, .dsd, .usd, .fo]
      (fun t => t = hubPresence u (allDs.foldl (fun y d => if ownerOf y d == some u && (dsOf y d).enable && !(dsOf y d).suspHost2 && (dsOf y d).resumeAt.isNone && !underVigil y d then modDs d (fun x => { x with suspHub2 := true }) y else y) (modUs u (fun x => { x with susp2 := true, l1 := false }) (fresh s))))) ∧
  (∀ (s : State) (u : US), (hubOf s u).connected = true ∧ linkQuiet s (usPort u) = true →
      Runs (.ssUpstreamU3 u) s [.out, .mbx, .pmu, .fw, .avail, .hubs, .dsd, .usd, .fo]
      (fun t => t = hubPresence u (allDs.foldl (fun y d => if ownerOf y d == some u && ((dsOf y d).link == .u0 || (dsOf y d).link == .u1 || (dsOf y d).link == .u2) && !underVigil y d then modDs d (fun x => { x with link := .u3, suspHub3 := !x.suspHost3 }) y else y) (modUs u (fun x => { x with u3Want := false, susp3 := true, link := .u3 }) (fresh s))))) ∧
  (∀ (s : State) (u : US) (n : Nat), (usOf s u).susp2 = true ∧ 2500 ≤ n →
      Runs (.hostResumeK u n) s [.out, .mbx, .pmu, .wake, .fw, .avail, .hubs, .dsd, .usd, .fo]
      (fun t => t = (let s2 := modUs u (fun x => { x with susp2 := false, resume2 := some s.now, upK := none }) (hostResumeWake u 1 (fresh s)); hubPresence u (allDs.foldl (fun y d => if ownerOf y d == some u && (dsOf y d).suspHub2 && (dsOf y d).resumeAt.isNone then modDs d (fun x => { x with resumeAt := some y.now, resumeKind := .hub }) y else y) s2)))) ∧
  (∀ (s : State) (u : US), (usOf s u).susp3 = true →
      Runs (.hostU3Exit u) s [.out, .mbx, .pmu, .wake, .fw, .avail, .hubs, .dsd, .usd, .fo]
      (fun t => t = (let s2 := modUs u (fun x => { x with susp3 := false, link := .u0, upLfps := false }) (hostResumeWake u 2 (fresh s)); presentWaiting u (hubPresence u (allDs.foldl (fun y d => if ownerOf y d == some u && (dsOf y d).suspHub3 && (dsOf y d).link == .u3 && (dsOf y d).u3Exit.isNone then modDs d (fun x => { x with u3Exit := some .hub }) y else if ownerOf y d == some u && (dsOf y d).wakePend3 then modDs d (fun x => { x with wakePend3 := false, suspHub3 := false }) y else y) s2))))) ∧
  (∀ (s : State) (u : US) (x : Nat), (usOf s u).resume2 = some x →
      Runs (.hostResumeEop u) s [.out, .hubs, .dsd, .usd]
      (fun t => t = presentWaiting u (allDs.foldl (fun y d => if ownerOf y d == some u && ((dsOf y d).suspHub2 || (dsOf y d).wakePend2) then modDs d (fun z => { z with suspHub2 := false, wakePend2 := false, resumeAt := if z.resumeKind == .hub then none else z.resumeAt }) y else y) (modUs u (fun z => { z with resume2 := none, lastSof := some s.now }) (fresh s))))) ∧
  (∀ (s : State) (d : DS) (b : Bool) (k : ResumeKind), (dsOf s d).u3Exit = some k →
      Runs (.u3ExitComplete d b) s [.out, .hubs, .dsd, .epqs, .links, .sched, .fab]
      (fun t => t = (let s0 := modDs d (fun x => { x with u3Exit := none }) (fresh s); if b = false then chgPort d true .linkState (dropStored d (modDs d (fun x => { x with link := .inactive, suspHost3 := false, suspHub3 := false }) s0)) else let s1 := modDs d (fun x => { x with link := .u0, suspHub3 := x.wakePend3, suspHost3 := false }) s0; if k = .device ∧ ((dsOf s d).suspHost3 = true ∨ (dsOf s d).wakePend3 = false) then chgPort d true .linkState s1 else s1))) ∧
  (∀ (s : State) (d : DS) (b : Bool), (dsOf s d).u3Entry = true ∧ (b = false ∨ linkQuiet s (dsPort d) = true) →
      Runs (.u3EntryComplete d b) s [.out, .hubs, .dsd, .epqs, .links, .sched, .fab]
      (fun t => t = (if b then modDs d (fun x => { x with u3Entry := false, link := .u3 }) (fresh s) else chgPort d true .linkState (dropStored d (modDs d (fun x => { x with u3Entry := false, link := .inactive, suspHost3 := false, suspHub3 := false }) (fresh s))))))

/-- Remote wakes of devices, hub-event wakes and the data-line side of an attach, each with its effect (R294, R295, R285, R286,
R127, R289). -/
def Obligations.WakesOfDevicesAndAttachRun : Prop :=
  (∀ (s : State) (d : DS) (b : Bool) (n : Nat), b = false ∧ ((dsOf s d).suspHost2 = true ∨ (dsOf s d).suspHub2 = true) ∧ (dsOf s d).resumeAt = none ∧ (dsOf s d).wakePend2 = false ∧ 2500 ≤ n ∧ underVigil s d = false ∧ ownerOf s d = none →
      Runs (.deviceRemoteWake d b n) s [.out, .mbx, .pmu, .wake, .sup, .fw, .dsd]
      (fun t => t = modDs d (fun x => { x with resumeAt := some s.now, resumeKind := .device }) (suspendWake 1 (dsCode d) 0 (fresh s)))) ∧
  (∀ (s : State) (d : DS) (b : Bool) (n : Nat) (u : US), b = true ∧ (dsOf s d).link = .u3 ∧ (dsOf s d).u3Exit = none ∧ (dsOf s d).wakePend3 = false ∧ underVigil s d = false ∧ ownerOf s d = some u →
      Runs (.deviceRemoteWake d b n) s [.out, .mbx, .pmu, .wake, .sup, .fw, .dsd]
      (fun t => t = (let s1 := modDs d (fun x => { x with u3Exit := some .device }) (suspendWake 2 (dsCode d) 0 (fresh s)); if (usOf s u).susp3 = false then s1 else if wakeEnabled s1 u true then modDs d (fun x => { x with wakeOpen := some s1.now }) s1 else modDs d (fun x => { x with wakePend3 := true }) s1))) ∧
  (∀ (s : State) (d : DS) (b : Bool) (e : WakeEvent) (u : US) (v : Fin 15), owningSlot s d = some (u, v) ∧ (if b then (usOf s u).susp3 else (usOf s u).susp2) = true ∧ wakeEnabled s u b = true ∧ (b = false ∨ bit (slotSt s u v).wakeMask (match e with | .connect => 0 | .disconnect => 1 | .overCurrent => 2) = true) →
      Runs (.hubEventRemoteWake d b e) s [.out, .mbx, .pmu, .wake, .sup, .fw, .usd]
      (fun t => t = modUs u (fun x => if b then { x with upLfps := true, wakeBy := some d } else { x with upK := some s.now, wakeBy := some d }) (emit (.upWake u b) (suspendWake (if b then 2 else 1) (dsCode d) 0 (fresh s))))) ∧
  (∀ (s : State) (d : DS), (dsOf s d).watch = true ∧ portFenced s (dsPort d) = false ∧ ssAllowed s d = true ∧ ssHeldByDp s d = false ∧ (dsOf s d).ssFailed = false ∧ (dsOf s d).link = .rxDetect ∧ s.clk.ssPllLock = true →
      Runs (.ssReceiverDetectStart d) s [.out, .dsd]
      (fun t => dsOf t d = { dsOf s d with rxDet := true, link := .polling } ∧ ∀ e, e ≠ d → dsOf t e = dsOf s e)) ∧
  (∀ (s : State) (d : DS) (b : Bool) (n : Nat), (dsOf s d).watch = true ∧ (dsOf s d).conn2 = false ∧ 2500 ≤ n →
      Runs (.usb2Connect d b n) s [.out, .mbx, .hubs, .dsd, .vig]
      (fun t => t = (let s1 := modDs d (fun x => { x with conn2 := true, speed2 := some (if b then .ls else .fs) }) (fresh s); if probeNeeded s = true ∧ (dsOf s d).probed = false then modDs d (fun x => { x with probing := true }) s1 else presentConn d false s1))) ∧
  (∀ (s : State) (d : DS) (b : Bool), (dsOf s d).rxDet = true ∧ (dsOf s d).link = .polling ∧ portFenced s (dsPort d) = false →
      Runs (.ssLinkUp d b) s [.out, .mbx, .hubs, .dsd, .links, .vig]
      (fun t => t = (let s0 := modDs d (fun x => { x with link := .u0, gen := if b then 2 else 1, rxDet := false }) (fresh s); let s1 := modLink (dsPort d) (freshLink s0 (dsPort d)) s0; if probeNeeded s = true ∧ (dsOf s d).probed = false then modDs d (fun x => { x with probing := true }) s1 else presentConn d true s1))) ∧
  (∀ (s : State) (d : DS) (b : Bool), (dsOf s d).link = .recovery ∧ (dsOf s d).ssReset = none ∧ (linkOf s (dsPort d)).exiting = false →
      Runs (.ssLinkUp d b) s [.out, .mbx, .hubs, .dsd, .links, .vig]
      (fun t => t = flushHdr (dsPort d) 64 (resend (dsPort d) (modDs d (fun x => { x with link := .u0 }) (fresh s))))) ∧
  (∀ (s : State) (d : DS), (dsOf s d).rxDet = true →
      Runs (.ssTrainingFail d) s [.out, .hubs, .dsd]
      (fun t => dsOf t d = { dsOf s d with rxDet := false, ssFailed := true, link := .rxDetect, gen := 0 } ∧ ∀ e, e ≠ d → dsOf t e = dsOf s e)) ∧
  (∀ (s : State) (d : DS) (i : DevId), (dsOf s d).probing = true →
      Runs (.identityProbe d i) s [.out, .mbx, .hubs, .dsd, .vig]
      (fun t => t = (let s0 := modDs d (fun x => { x with probing := false, probed := true }) (applyRules d i true (fresh s)); let s1 := putSeen d 0 { rule := (dsOf s0 d).rule, quirks := (dsOf s0 d).quirks, done := true } s0; let s2 := modDs d (fun x => if bit (dsOf s0 d).quirks 1 then { x with link := .rxDetect, gen := 0, rxDet := false } else x) s1; let s3 := if (dsOf s2 d).conn2 && !(dsOf s2 d).shown2 then presentConn d false s2 else s2; if (dsOf s2 d).link == .u0 && !(dsOf s2 d).shown3 then presentConn d true s3 else s3))) ∧
  (∀ (s : State) (d : DS) (n : Nat), (dsOf s d).conn2 = true ∧ (dsOf s d).resetAt = none ∧ ((dsOf s d).speed2 = some .hs ∨ 2500 ≤ n) →
      Runs (.usb2Disconnect d n) s [.out, .mbx, .avail, .hubs, .dsd, .epqs, .links, .sched, .place, .fab, .u2d, .vig]
      (fun t => t = detachData d true false (fresh s))) ∧
  (∀ (s : State) (d : DS) (b : Bool), (dsOf s d).link ≠ .rxDetect ∧ (dsOf s d).link ≠ .polling →
      Runs (.ssDisconnect d b) s [.out, .mbx, .avail, .hubs, .dsd, .epqs, .links, .sched, .place, .fab, .u2d, .vig]
      (fun t => t = (if b then detachData d false true (fresh s) else chgPort d true .linkState (dropStored d (modDs d (fun x => { x with link := .inactive }) (fresh s))))))

/-- The Type-C state machine of a port, each event with its effect (R305, R306, R308, R304, R309, R302, R349, R313). -/
def Obligations.TypecStateMachineRuns : Prop :=
  (∀ (s : State) (p : Port) (c : CcPattern) (f : Bool), populated s p = false →
      Runs (.ccPatternChange p c f) s [.out, .mbx, .pmu, .wake, .sup, .fw, .tc, .pwr]
      (fun t => t = modTc p (fun x => if x.st == .attached then { x with pattern := c } else markPattern c f x s.now) (fresh s))) ∧
  (∀ (s : State) (p : Port) (c : CcPattern) (f : Bool), populated s p = true ∧ (tcOf s p).st = .unattached ∧ thymeDown s p = false ∧ c ≠ .opn →
      Runs (.ccPatternChange p c f) s [.out, .mbx, .pmu, .wake, .sup, .fw, .tc, .pwr]
      (fun t => t = (let s1 := modTc p (fun x => markPattern c f x s.now) (fresh s); suspendWake 3 (portCode p) 0 (if (portDs p).isSome then dsSees p c s1 else usSees p c s1)))) ∧
  (∀ (s : State) (p : Port) (v : Nat) (w : Option (Fin 4 × Nat)), (tcOf s p).st = .waitSrc ∧ (tcOf s p).lossAt = none ∧ (portDs p).isSome = true ∧ thymeDown s p = false ∧ attachMay s p = true ∧ v < 800 ∧ w = none →
      Runs (.ccAttachDebounce p v w) s [.out, .now, .freeSeq, .mbx, .pmu, .wake, .sup, .fw, .avail, .hubs, .own, .dsd, .usd, .epqs, .links, .sched, .place, .fab, .u2d, .vig, .fo, .tc, .phy, .pwr, .lane, .guard, .dp, .test]
      (fun t => t = attachSrc p (modPwr p (fun x => { x with vbs := v }) (advanceTo ((tcOf s p).since + 120000000) (fresh s))))) ∧
  (∀ (s : State) (p : Port) (v : Nat) (w : Option (Fin 4 × Nat)), (tcOf s p).st = .waitSrc ∧ (tcOf s p).lossAt = none ∧ (portDs p).isSome = true ∧ thymeDown s p = false ∧ attachMay s p = true ∧ 800 ≤ v ∧ (tcOf s p).waitCounted = false →
      Runs (.ccAttachDebounce p v w) s [.out, .now, .freeSeq, .mbx, .pmu, .wake, .sup, .fw, .avail, .hubs, .own, .dsd, .usd, .epqs, .links, .sched, .place, .fab, .u2d, .vig, .fo, .tc, .phy, .pwr, .lane, .guard, .dp, .test]
      (fun t => t = (let s1 := modPwr p (fun x => { x with vbs := v }) (advanceTo ((tcOf s p).since + 120000000) (fresh s)); modTc p (fun x => { x with vbusWaits := x.vbusWaits + 1, waitCounted := true }) s1))) ∧
  (∀ (s : State) (p : Port) (x : Nat), (tcOf s p).lossAt = some x ∧ thymeDown s p = false →
      Runs (.ccDetachDebounce p) s [.out, .now, .mbx, .pmu, .fw, .avail, .hubs, .own, .dsd, .usd, .epqs, .links, .sched, .place, .fab, .u2d, .vig, .fo, .tc, .phy, .pwr, .lane, .dp]
      (fun t => t = (let s1 := advanceTo (x + 12000000) (fresh s); match (tcOf s p).st with | .waitSrc | .waitSnk => toUnattached p s1 | .attached => if (tcOf s p).src then detachPort p s1 else s1 | _ => s1))) ∧
  (∀ (s : State) (p : Port) (x : Nat), (tcOf s p).st = .errorRecovery ∧ (tcOf s p).errAt = some x →
      Runs (.errorRecoveryEnd p) s [.out, .now, .mbx, .tc]
      (fun t => t = (let s1 := toUnattached p (advanceTo (x + 30000000) (fresh s)); if populated s1 p = false then s1 else if (portDs p).isSome then dsSees p (tcOf s1 p).pattern s1 else usSees p (tcOf s1 p).pattern s1))) ∧
  (∀ (s : State) (u : US), (tcOf s (usPort u)).st = .unattached ∧ populated s (usPort u) = true →
      Runs (.drpToggle u) s [.out, .now, .tc]
      (fun t => t = (let s1 := advanceTo ((tcOf s (usPort u)).togAt + 31250000) (fresh s); let s2 := modTc (usPort u) (fun x => { x with drpSrc := !x.drpSrc, togAt := s1.now }) s1; usSees (usPort u) (tcOf s2 (usPort u)).pattern s2))) ∧
  (∀ (s : State) (u : US) (v : Nat), thymeDown s (usPort u) = false ∧ populated s (usPort u) = true ∧ (tcOf s (usPort u)).preCheck = false ∧ (tcOf s (usPort u)).st = .waitSnk ∧ (tcOf s (usPort u)).lossAt = none ∧ (tcOf s (usPort u)).pattern = .rp ∧ 4750 ≤ v ∧ (pwrOf s (usPort u)).pol.pref ≠ 1 →
      Runs (.drpAttachDebounce u v) s [.out, .now, .freeSeq, .mbx, .avail, .hubs, .dsd, .usd, .epqs, .links, .sched, .place, .fab, .u2d, .vig, .tc, .phy, .pwr, .lane, .dp, .test]
      (fun t => t = attachSnk (usPort u) (advanceTo ((tcOf s (usPort u)).since + 120000000) (modPwr (usPort u) (fun x => { x with vbs := v }) (fresh s))))) ∧
  (∀ (s : State) (u : US) (l : Fin 4), isSink s (usPort u) = true →
      Runs (.usPartnerRpChange u l) s [.out, .tc]
      (fun t => tcOf t (usPort u) = { tcOf s (usPort u) with partnerRp := l.val } ∧ ∀ q, q ≠ usPort u → tcOf t q = tcOf s q)) ∧
  (∀ (s : State) (u : US), isSink s (usPort u) = true →
      Runs (.usSinkVbusLoss u) s [.out, .mbx, .pmu, .fw, .avail, .hubs, .own, .dsd, .usd, .epqs, .links, .sched, .place, .fab, .u2d, .vig, .fo, .tc, .phy, .pwr, .lane, .dp]
      (fun t => t = (if (pwrOf s (usPort u)).frs.isSome = true ∨ (pwrOf s (usPort u)).swap.any (fun x => x.kind == 0 && x.phase != 0) = true then modPwr (usPort u) (fun x => { x with frsLost := true }) (fresh s) else detachPort (usPort u) (fresh s)))) ∧
  (∀ (s : State) (p : Port) (x : Nat), (tcOf s p).lossAt = some x ∧ thymeDown s p = true ∧ isSource s p = true →
      Runs (.hardwareDetachGuard p) s [.out, .now, .tc, .pwr]
      (fun t => t = modTc p (fun y => { y with guardDetached := true }) (pscLow p (advanceTo (x + 12000000) (fresh s))))) ∧
  (∀ (s : State) (p : Port) (v : Nat) (x : VTrans), (pwrOf s p).trans = some x ∧ isSource s p = true ∧ thymeDown s p = true →
      Runs (.fastRemoval p v) s [.out, .mbx, .pmu, .fw, .avail, .hubs, .own, .dsd, .usd, .epqs, .links, .sched, .place, .fab, .u2d, .vig, .fo, .tc, .phy, .pwr, .lane, .dp]
      (fun t => t = portEvent p 2 (le 2 x.fromMv ++ le 2 x.toMv ++ le 2 v ++ [0, 0]) [] (modTc p (fun y => { y with guardDetached := true }) (pscLow p (modPwr p (fun y => { y with vbs := v }) (modTc p (fun y => { y with pattern := .opn }) (fresh s))))))) ∧
  (∀ (s : State) (p : Port) (v : Nat) (x : VTrans), (pwrOf s p).trans = some x ∧ isSource s p = true ∧ thymeDown s p = false →
      Runs (.fastRemoval p v) s [.out, .mbx, .pmu, .fw, .avail, .hubs, .own, .dsd, .usd, .epqs, .links, .sched, .place, .fab, .u2d, .vig, .fo, .tc, .phy, .pwr, .lane, .dp]
      (fun t => t = (let a := detachPort p (notice p (.fastRemoval s.now) (modPwr p (fun y => { y with vbs := v }) (modTc p (fun y => { y with pattern := .opn }) (fresh s)))); portEvent p 2 (le 2 x.fromMv ++ le 2 x.toMv ++ le 2 v ++ [0, 0]) [] (modTc p (fun y => { y with preCheck := true }) (modPwr p (fun y => { y with off0 := false, offCharge := 0 }) (modPhy p (fun y => { y with notices := [] }) a)))))) ∧
  (∀ (s : State) (p : Port) (x : Nat), (tcOf s p).vconnAt = some x ∧ thymeDown s p = false →
      Runs (.vconnStable p) s [.out, .now, .tc, .phy]
      (fun t => t = (let s1 := modTc p (fun y => { y with vconnAt := none }) (advanceTo (x + 50000000) (fresh s)); if (tcOf s p).debugAcc = true ∨ (tcOf s p).discDone = true then s1 else discoverIdentity p s1))) ∧
  (∀ (s : State) (p : Port) (x : Nat), (tcOf s p).discAt = some x ∧ thymeDown s p = false ∧ (tcOf s p).vconn = true →
      Runs (.discoverIdentityRetry p) s [.out, .now, .tc, .phy, .pwr]
      (fun t => t = (let s1 := advanceTo (x + 45000000) (fresh s); if 20 ≤ (tcOf s p).discTries then discoveryEnds p s1 else discoverIdentity p s1))) ∧
  (∀ (s : State) (p : Port) (x : Nat), (tcOf s p).vbus5At = some x ∧ (tcOf s p).discDone = false ∧ thymeDown s p = false →
      Runs (.discoveryCutoff p) s [.out, .now, .tc, .phy, .pwr]
      (fun t => t = discoveryEnds p (advanceTo (x + 240000000) (fresh s))))

/-- PD messages on the line, in the FIFOs and in the hands of the Thyme, each event with its effect (R314, R320, R315, R321,
R301, R327, R347, R325, R12). -/
def Obligations.PdMessagesRun : Prop :=
  (∀ (s : State) (p : Port) (o : Fin 5) (h : BitVec 16) (l : List Byte) (c : Bool), pdUp s p = true ∧ thymeDown s p = false ∧ c = true ∧ o.val = 0 ∧ s.pmu.reported ≠ .suspend ∧ entering s = false ∧ (phyOf s p).rxStaged ≠ none →
      Runs (.pdMessageReceived p o h l c) s [.out, .mbx, .pmu, .wake, .sup, .fw, .phy, .pwr]
      (fun t => t = modPhy p (fun x => { x with rxRefused := min 255 (x.rxRefused + 1) }) (discardTx p (modPhy p (fun x => { x with lineAt := s.now }) (fresh s))))) ∧
  (∀ (s : State) (p : Port) (o : Fin 5) (h : BitVec 16) (l : List Byte) (c : Bool), pdUp s p = true ∧ thymeDown s p = false ∧ c = true ∧ o.val = 0 ∧ s.pmu.reported ≠ .suspend ∧ entering s = false ∧ (phyOf s p).rxStaged = none ∧ (phyOf s p).bist = 2 →
      Runs (.pdMessageReceived p o h l c) s [.out, .mbx, .pmu, .wake, .sup, .fw, .phy, .pwr]
      (fun t => t = emit (.goodCrc p 0 (bits h.toNat 11 9)) (discardTx p (modPhy p (fun x => { x with lineAt := s.now }) (fresh s))))) ∧
  (∀ (s : State) (p : Port) (m : PdMsg) (l : List PdMsg), (phyOf s p).tx = m :: l ∧ (phyOf s p).txStaged = none ∧ phyStalled s p = false ∧ wordsMatch m = true →
      Runs (.pdTxHandover p) s [.out, .phy]
      (fun t => t = (let s1 := modPhy p (fun x => { x with tx := l, txStaged := some m, txStarted := false, txTries := 0 }) (fresh s); if s.now < (phyOf s p).lineAt + 30000 ∨ mayStart s1 p m = false then s1 else startTx p m s1))) ∧
  (∀ (s : State) (p : Port) (m : PdMsg), (phyOf s p).txStaged = some m ∧ (phyOf s p).txStarted = true →
      Runs (.pdTxGoodcrcTimeout p) s [.out, .now, .mbx, .avail, .hubs, .dsd, .usd, .epqs, .links, .sched, .place, .fab, .u2d, .vig, .tc, .phy, .pwr, .lane, .dp]
      (fun t => t = (let s1 := advanceTo ((phyOf s p).txAt + 1000000) (fresh s); if (phyOf s p).txTries < (if (phyOf s p).rev = 3 ∨ m.sop = 1 then 3 else 4) then startTx p m s1 else txLost p m (notice p (.txDone 1) (modPhy p (fun x => { x with txStaged := none, txStarted := false, txTries := 0 }) s1))))) ∧
  (∀ (s : State) (p : Port) (m : PdMsg), (phyOf s p).txStaged = some m ∧ (phyOf s p).txStarted = true →
      Runs (.pdTxDone p) s [.out, .hubs, .usd, .tc, .phy, .pwr]
      (fun t => t = txSent p m (notice p (.txDone 0) (modPhy p (fun x => { x with txStaged := none, txStarted := false, txTries := 0, lineAt := s.now }) (fresh s))))) ∧
  (∀ (s : State) (p : Port) (n : Notice) (l : List Notice), thymeDown s p = false ∧ (phyOf s p).inHand = none ∧ fifoWords (phyOf s p).tx ≤ 16 ∧ (phyOf s p).notices = n :: l →
      Runs (.thymeNotice p) s [.out, .mbx, .avail, .hubs, .dsd, .usd, .epqs, .links, .sched, .place, .fab, .u2d, .vig, .tc, .phy, .pwr, .lane, .dp]
      (fun t => t = (let s1 := modPhy p (fun x => { x with notices := l }) (fresh s); match n with | .rxMsg _ t0 => (match (phyOf s p).rx with | [] => deliverRx p s1 | m0 :: r => (let m := readMessage t0 (messageReads m0); let s2 := deliverRx p (modPhy p (fun x => { x with rx := r }) s1); if keepLate s2 p m then sendHardReset p s2 else if isExt m 18 && isSource s2 p then (if (gatherCaps p m s2).2 then modPhy p (fun x => { x with inHand := some m }) (gatherCaps p m s2).1 else (gatherCaps p m s2).1) else if ownRow s2 p m then modPhy p (fun x => { x with inHand := some m }) s2 else thymeReply p m s2)) | .hardResetRx _ => deliverRx p (hardReset p s1) | .cableResetRx _ => deliverRx p (cableReset p s1) | _ => deliverRx p s1))) ∧
  (∀ (s : State) (p : Port), pdUp s p = true →
      Runs (.hardResetReceived p) s [.out, .mbx, .pmu, .wake, .sup, .fw, .avail, .hubs, .dsd, .usd, .epqs, .links, .sched, .place, .fab, .u2d, .vig, .tc, .phy, .pwr, .lane, .dp]
      (fun t => t = (let s1 := modPhy p (fun x => { x with bist := 0 }) (suspendWake 4 (portCode p) 0 (fresh s)); if thymeDown s1 p then notice p (.hardResetRx s1.now) (flushPd p 4 s1) else hardReset p s1))) ∧
  (∀ (s : State) (p : Port), pdUp s p = true ∧ thymeDown s p = false →
      Runs (.hardResetSent p) s [.out, .mbx, .avail, .hubs, .dsd, .usd, .epqs, .links, .sched, .place, .fab, .u2d, .vig, .tc, .phy, .pwr, .lane, .dp]
      (fun t => t = sendHardReset p (fresh s))) ∧
  (∀ (s : State) (u : US), pdUp s (usPort u) = true ∧ (tcOf s (usPort u)).vconn = false ∧ thymeDown s (usPort u) = false →
      Runs (.cableResetReceived u) s [.out, .phy]
      (fun t => t = modPhy (usPort u) (fun x => { x with lastId := tabDel x.lastId 1, nextId := tabDel x.nextId 1 }) (flushPd (usPort u) 3 (fresh s)))) ∧
  (∀ (s : State) (p : Port) (m : PdMsg), (phyOf s p).inHand = some m ∧ thymeDown s p = false ∧ isCtl m 13 = true →
      Runs (.softResetReceived p) s [.out, .phy, .pwr]
      (fun t => t = (let s1 := pdCtl p 3 (resetPd p (handed p s)); if isSource (handed p s) p then capsAt p s.now s1 else s1))) ∧
  (∀ (s : State) (p : Port) (m : PdMsg), (phyOf s p).inHand = some m ∧ thymeDown s p = false ∧ isCtl m 24 = true →
      Runs (.getRevision p) s [.out, .phy]
      (fun t => t = (if rev3 s p then pdData p 12 [3 * 2 ^ 28 + 2 * 2 ^ 24 + 2 ^ 20] (handed p s) else notSupported p (handed p s)))) ∧
  (∀ (s : State) (i : Fin 6) (n : Nat), s.fw.stageSlot = some n ∧ (allPorts.filter (fun p => portThy p == i)).any (amsRuns s) = false ∧ bit s.fw.thyMask i.val = true →
      Runs (.thymeActivation i) s [.out, .mbx, .fw]
      (fun t => t = (let k := s.fw.thyMask - 2 ^ i.val; let s1 := { fresh s with fw := { s.fw with thyMask := k, thyBundle := s.fw.thyBundle.set i (fld (flashRead s.fw (slotBase n + 8) 4) 0 4) } }; if k = 0 then finalCpl .fwThyme stOk [] s1 else s1))) ∧
  (∀ (s : State) (p : Port) (o : Fin 5) (h : BitVec 16) (l : List Byte) (c : Bool), pdUp s p = true ∧ thymeDown s p = false ∧ c = true ∧ o.val = 0 ∧ s.pmu.reported ≠ .suspend ∧ entering s = false ∧ (phyOf s p).rxStaged = none ∧ (phyOf s p).bist ≠ 2 ∧ tabGet (phyOf s p).lastId 0 ≠ some (bits h.toNat 11 9) →
      Runs (.pdMessageReceived p o h l c) s [.out, .mbx, .pmu, .wake, .sup, .fw, .phy, .pwr]
      (fun t => t = deliverRx p (restartTimers p ({ sop := 0, header := h.toNat, data := l, at_ := s.now } : PdMsg) (modPhy p (fun x => { x with lastId := if isCtl ({ sop := 0, header := h.toNat, data := l, at_ := s.now } : PdMsg) 13 then [] else tabPut x.lastId 0 (bits h.toNat 11 9), rev := if bits h.toNat 7 6 = 1 then 2 else x.rev, rxStaged := some ({ sop := 0, header := h.toNat, data := l, at_ := s.now } : PdMsg) }) (emit (.goodCrc p 0 (bits h.toNat 11 9)) (discardTx p (modPhy p (fun x => { x with lineAt := s.now }) (fresh s))))))))

/-- Capabilities, requests, reductions and the EPR and PPS keep-alives of a source, each with its effect (R335, R339, R332,
R337, R338, R333, R336, R350). -/
def Obligations.SourceContractsRun : Prop :=
  (∀ (s : State) (p : Port) (m : PdMsg), (phyOf s p).inHand = some m ∧ thymeDown s p = false ∧ (isData m 2 = true ∨ isData m 9 = true) ∧ isSource s p = true →
      Runs (.pdRequest p) s [.out, .mbx, .avail, .hubs, .dsd, .usd, .epqs, .links, .sched, .place, .fab, .u2d, .vig, .tc, .phy, .pwr, .lane, .dp]
      (fun t => t = (let s0 := handed p s; let x := pwrOf s p; let s1 := modPhy p (fun y => { y with ams := if y.ams = 1 then 0 else y.ams, chunk := [] }) s0; if x.newCon.isSome then softReset p s1 else if isData m 9 != x.epr || !(!isData m 9 || decide (msgObjs m.header = 2 ∧ (x.caps[bits (pdObj m 0) 31 28 - 1]?) = some (pdObj m 1))) then rejectRequest p s1 else judgeRequest p m s1))) ∧
  (∀ (s : State) (p : Port) (x : Nat), (pwrOf s p).reduce = some (0, x) ∧ capsMay s p = true ∧ (pwrOf s p).trans = none ∧ (pwrOf s p).newCon = none →
      Runs (.budgetReduction p) s [.out, .now, .phy, .pwr]
      (fun t => t = (let s1 := advanceTo (if rev3 s p then x + 18000000 else s.now) (fresh s); modPwr p (fun y => { y with reduce := some (1, s1.now) }) (sendCaps p (min (capMw s1 p) (pwrOf s1 p).grant) 0 s1)))) ∧
  (∀ (s : State) (p : Port) (x : Nat), (pwrOf s p).reduce = some (1, x) ∧ (pwrOf s p).newCon = none ∧ thymeDown s p = false →
      Runs (.reductionResponseTimeout p) s [.out, .now, .mbx, .avail, .hubs, .dsd, .usd, .epqs, .links, .sched, .place, .fab, .u2d, .vig, .tc, .phy, .pwr, .lane, .dp]
      (fun t => t = sendHardReset p (advanceTo (x + 30000000) (fresh s)))) ∧
  (∀ (s : State) (p : Port) (x : Nat), (pwrOf s p).capsDue = some x ∧ capsMay s p = true →
      Runs (.sourceCapsSend p) s [.out, .now, .phy, .pwr]
      (fun t => t = (let s1 := advanceTo x (fresh s); sendCaps p (if (pwrOf s1 p).reduce.isSome then min (capMw s1 p) (pwrOf s1 p).grant else availMw s1 p) 1 s1))) ∧
  (∀ (s : State) (p : Port), capsMay s p = true ∧ explicit s p = false ∧ (pwrOf s p).newCon = none ∧ 0 < (pwrOf s p).capsCount ∧ (pwrOf s p).capsCount < 50 →
      Runs (.sourceCapsRetry p) s [.out, .now, .phy, .pwr]
      (fun t => t = (let s1 := advanceTo ((pwrOf s p).capsLast + 150000000) (fresh s); sendCaps p (availMw s1 p) 1 s1))) ∧
  (∀ (s : State) (p : Port) (m : PdMsg), (phyOf s p).inHand = some m ∧ thymeDown s p = false ∧ isData m 4 = true ∧ isSource s p = true →
      Runs (.sinkCapabilitiesReceived p) s [.out, .mbx, .avail, .hubs, .dsd, .usd, .epqs, .links, .sched, .place, .fab, .u2d, .vig, .tc, .phy, .pwr, .lane, .dp]
      (fun t => t = (let s0 := handed p s; let s1 := modTc p (fun x => { x with sinkTxNg := x.sinkTxNg && (pwrOf s p).reduce.isSome }) (modPhy p (fun x => { x with ams := if x.ams = 3 then 0 else x.ams, rxChunk := [] }) s0); let l := if isExt m 18 then (phyOf s p).rxChunk else m.data; runAlloc (modPwr p (fun x => { x with need := min (capMw s p) ((((List.range (l.length / 4)).map (fun i => fld l (4 * i) 4)).map sinkMw).foldl max 0), mismatch := false }) s1)))) ∧
  (∀ (s : State) (d : DS) (m : PdMsg), (phyOf s (dsPort d)).inHand = some m ∧ thymeDown s (dsPort d) = false ∧ isCtl m 8 = true →
      Runs (.getSinkCapOnDs d) s [.out, .phy]
      (fun t => t = notSupported (dsPort d) (handed (dsPort d) s))) ∧
  (∀ (s : State) (p : Port) (m : PdMsg), (phyOf s p).inHand = some m ∧ thymeDown s p = false ∧ isData m 10 = true ∧ bits (pdObj m 0) 31 24 = 1 →
      Runs (.eprModeEnter p) s [.out, .mbx, .phy, .pwr]
      (fun t => t = (let s1 := handed p s; let x := pwrOf s p; if bit x.pol.offer 1 = false then eprMode p 4 5 s1 else if (tcOf s p).cable.epr = false then eprMode p 4 1 s1 else if isSource s p = false ∨ x.epr = true ∨ explicit s p = false ∨ x.newCon.isSome = true ∨ rev3 s p = false ∨ safeHolds s = true then eprMode p 4 4 s1 else capsAt p s.now (contractEvent p 5 x.con (modPwr p (fun y => { y with epr := true, eprAt := m.at_ }) (eprMode p 3 0 (eprMode p 2 0 s1))))))) ∧
  (∀ (s : State) (p : Port) (m : PdMsg), (phyOf s p).inHand = some m ∧ thymeDown s p = false ∧ isData m 10 = true ∧ bits (pdObj m 0) 31 24 = 5 →
      Runs (.eprModeExit p) s [.out, .mbx, .phy, .pwr]
      (fun t => t = (if (pwrOf s p).epr then capsAt p s.now (eprEnd p (handed p s)) else handed p s))) ∧
  (∀ (s : State) (p : Port) (m : PdMsg), (phyOf s p).inHand = some m ∧ thymeDown s p = false ∧ isExt m 16 = true ∧ bits (fld m.data 0 4) 23 16 = 3 →
      Runs (.eprKeepalive p) s [.out, .phy]
      (fun t => t = (if (pwrOf s p).epr then sendChunk p 16 0 2 [4, 0] (handed p s) else notSupported p (handed p s)))) ∧
  (∀ (s : State) (p : Port), (pwrOf s p).con.kind = 3 ∧ thymeDown s p = false →
      Runs (.ppsTimeout p) s [.out, .now, .mbx, .avail, .hubs, .dsd, .usd, .epqs, .links, .sched, .place, .fab, .u2d, .vig, .tc, .phy, .pwr, .lane, .dp]
      (fun t => t = sendHardReset p (advanceTo ((pwrOf s p).ppsAt + 14000000000) (fresh s)))) ∧
  (∀ (s : State) (p : Port), (pwrOf s p).epr = true ∧ thymeDown s p = false →
      Runs (.eprKeepaliveTimeout p) s [.out, .now, .mbx, .avail, .hubs, .dsd, .usd, .epqs, .links, .sched, .place, .fab, .u2d, .vig, .tc, .phy, .pwr, .lane, .dp]
      (fun t => t = sendHardReset p (advanceTo ((pwrOf s p).eprAt + 900000000) (fresh s))))

/-- Power, data and VCONN role swaps and fast role swap, each with its effect (R350, R282, R312, R351, R353, R352, R355, R356,
R283). -/
def Obligations.RoleSwapsRun : Prop :=
  (∀ (s : State) (p : Port) (m : PdMsg), (phyOf s p).inHand = some m ∧ thymeDown s p = false ∧ isCtl m 10 = true ∧ portUs p = none →
      Runs (.prSwapReceived p) s [.out, .mbx, .tc, .phy, .pwr]
      (fun t => t = pdCtl p 4 (handed p s))) ∧
  (∀ (s : State) (p : Port) (m : PdMsg) (u : US), (phyOf s p).inHand = some m ∧ thymeDown s p = false ∧ isCtl m 10 = true ∧ portUs p = some u ∧ (pwrOf s p).swap = none →
      Runs (.prSwapReceived p) s [.out, .mbx, .tc, .phy, .pwr]
      (fun t => t = (if (if isSource s p then bit (pwrOf s p).pol.roles 0 && (pwrOf s p).trans.isNone else mayBeSource (handed p s) p) then acceptSwap p 0 (handed p s) else pdCtl p 4 (handed p s)))) ∧
  (∀ (s : State) (p : Port) (m : PdMsg), (phyOf s p).inHand = some m ∧ thymeDown s p = false ∧ isCtl m 9 = true ∧ portUs p = none →
      Runs (.drSwapReceived p) s [.out, .mbx, .tc, .phy, .pwr]
      (fun t => t = pdCtl p 4 (handed p s))) ∧
  (∀ (s : State) (p : Port) (m : PdMsg) (u : US), (phyOf s p).inHand = some m ∧ thymeDown s p = false ∧ isCtl m 9 = true ∧ portUs p = some u ∧ (pwrOf s p).swap = none →
      Runs (.drSwapReceived p) s [.out, .mbx, .tc, .phy, .pwr]
      (fun t => t = (if (tcOf s p).dfp then acceptSwap p 1 (handed p s) else pdCtl p 4 (handed p s)))) ∧
  (∀ (s : State) (p : Port) (m : PdMsg), (phyOf s p).inHand = some m ∧ thymeDown s p = false ∧ isCtl m 11 = true ∧ portUs p = none →
      Runs (.vconnSwapReceived p) s [.out, .mbx, .tc, .phy, .pwr]
      (fun t => t = pdCtl p 4 (handed p s))) ∧
  (∀ (s : State) (p : Port) (m : PdMsg) (u : US), (phyOf s p).inHand = some m ∧ thymeDown s p = false ∧ isCtl m 11 = true ∧ portUs p = some u ∧ (pwrOf s p).swap = none →
      Runs (.vconnSwapReceived p) s [.out, .mbx, .tc, .phy, .pwr]
      (fun t => t = acceptSwap p 2 (handed p s))) ∧
  (∀ (s : State) (u : US) (m : PdMsg) (w : Swap), (phyOf s (usPort u)).inHand = some m ∧ thymeDown s (usPort u) = false ∧ (pwrOf s (usPort u)).swap = some w ∧ w.ours = true ∧ w.phase = 0 ∧ isCtl m 3 = true →
      Runs (.swapResponseReceived u) s [.out, .mbx, .hubs, .usd, .tc, .phy, .pwr]
      (fun t => t = swapAccepted u w (modPhy (usPort u) (fun x => { x with ams := 0 }) (handed (usPort u) s)))) ∧
  (∀ (s : State) (u : US) (m : PdMsg) (w : Swap), (phyOf s (usPort u)).inHand = some m ∧ thymeDown s (usPort u) = false ∧ (pwrOf s (usPort u)).swap = some w ∧ w.ours = true ∧ w.phase = 0 ∧ (isCtl m 4 = true ∨ isCtl m 16 = true) ∧ isCtl m 3 = false →
      Runs (.swapResponseReceived u) s [.out, .mbx, .hubs, .usd, .tc, .phy, .pwr]
      (fun t => t = swapOver u (if isCtl m 4 then 1 else 2) (modPhy (usPort u) (fun x => { x with ams := 0 }) (handed (usPort u) s)))) ∧
  (∀ (s : State) (u : US) (m : PdMsg) (w : Swap), (phyOf s (usPort u)).inHand = some m ∧ thymeDown s (usPort u) = false ∧ (pwrOf s (usPort u)).swap = some w ∧ w.ours = true ∧ w.phase = 0 ∧ isCtl m 12 = true ∧ isCtl m 3 = false ∧ isCtl m 4 = false ∧ isCtl m 16 = false ∧ w.waits < 5 →
      Runs (.swapResponseReceived u) s [.out, .mbx, .hubs, .usd, .tc, .phy, .pwr]
      (fun t => t = (let p := usPort u; modTc p (fun x => { x with sinkTxNg := false }) (modPwr p (fun x => { x with swap := some { w with phase := 2, waits := w.waits + 1, at_ := s.now } }) (modPhy p (fun x => { x with ams := 0 }) (handed p s)))))) ∧
  (∀ (s : State) (u : US) (j : Fin 51) (w : Swap), (pwrOf s (usPort u)).swap = some w ∧ w.ours = true ∧ w.phase = 2 ∧ thymeDown s (usPort u) = false →
      Runs (.swapWaitRetry u j) s [.out, .now, .tc, .phy, .pwr]
      (fun t => t = sendSwap (usPort u) w.kind (swapPhase (usPort u) 0 (advanceTo (w.at_ + (100 + j.val) * 1000000) (fresh s))))) ∧
  (∀ (s : State) (u : US) (w : Swap), (pwrOf s (usPort u)).swap = some w ∧ w.kind = 0 ∧ w.phase = 1 ∧ thymeDown s (usPort u) = false →
      Runs (.prSwapSequence u) s [.out, .now, .mbx, .avail, .hubs, .dsd, .usd, .epqs, .links, .sched, .place, .fab, .u2d, .vig, .tc, .phy, .pwr, .lane, .dp]
      (fun t => t = (let p := usPort u; let s1 := resetPd p (fresh s); swapOver u 0 (if isSource s p then pdCtl p 6 (becomeSink p s1) else pdCtl p 6 (becomeSource p (advanceTo (s.now + 25000000) s1)))))) ∧
  (∀ (s : State) (u : US), (tcOf s (usPort u)).st = .attached ∧ (tcOf s (usPort u)).dfp = true ∧ explicit s (usPort u) = true ∧ (pwrOf s (usPort u)).newCon = none ∧ (pwrOf s (usPort u)).swap = none ∧ thymeDown s (usPort u) = false →
      Runs (.dataRoleSwapRequest u) s [.out, .tc, .phy, .pwr]
      (fun t => t = sendSwap (usPort u) 1 (modPwr (usPort u) (fun x => { x with swap := some { kind := 1, ours := true, at_ := s.now } }) (fresh s)))) ∧
  (∀ (s : State) (u : US), (pwrOf s (usPort u)).frsArm = true ∧ isSink s (usPort u) = true ∧ (pwrOf s (usPort u)).frs = none →
      Runs (.frsSignal u) s [.out, .mbx, .phy, .pwr]
      (fun t => t = (let p := usPort u; emit (.frontEnd p 6 true) (modPwr p (fun x => { x with frs := some s.now, frsLost := false }) (swapFail p (notice p (.frsRx s.now) (fresh s))))))) ∧
  (∀ (s : State) (u : US) (m : PdMsg), (phyOf s (usPort u)).inHand = some m ∧ thymeDown s (usPort u) = false ∧ isCtl m 19 = true ∧ (pwrOf s (usPort u)).frs ≠ none →
      Runs (.frSwapReceived u) s [.out, .mbx, .avail, .hubs, .dsd, .usd, .epqs, .links, .sched, .place, .fab, .u2d, .vig, .tc, .phy, .pwr, .lane, .dp]
      (fun t => t = (let p := usPort u; pdCtl p 6 (becomeSource p (resetPd p (modPwr p (fun x => { x with frs := none, frsLost := false }) (pdCtl p 3 (handed p s)))))))) ∧
  (∀ (s : State) (u : US) (m : PdMsg), (phyOf s (usPort u)).inHand = some m ∧ thymeDown s (usPort u) = false ∧ isCtl m 19 = true ∧ (pwrOf s (usPort u)).frs = none →
      Runs (.frSwapReceived u) s [.out, .mbx, .avail, .hubs, .dsd, .usd, .epqs, .links, .sched, .place, .fab, .u2d, .vig, .tc, .phy, .pwr, .lane, .dp]
      (fun t => t = notSupported (usPort u) (handed (usPort u) s))) ∧
  (∀ (s : State) (u : US) (x : Nat), (pwrOf s (usPort u)).frs = some x →
      Runs (.frSwapInitTimeout u) s [.out, .now, .mbx, .pmu, .fw, .avail, .hubs, .own, .dsd, .usd, .epqs, .links, .sched, .place, .fab, .u2d, .vig, .fo, .tc, .phy, .pwr, .lane, .dp]
      (fun t => t = (let p := usPort u; let s1 := modPwr p (fun y => { y with frs := none, frsLost := false }) (sendHardReset p (advanceTo (x + 15000000) (fresh s))); if (pwrOf s p).frsLost then detachPort p s1 else s1)))

/-- Voltage transitions, conversions, trips, stage polls and the VBUS side of Hard Reset, each with its effect (R341, R342,
R344, R346, R340, R347, R389, R51). -/
def Obligations.VoltageTransitionsAndStagesRun : Prop :=
  (∀ (s : State) (p : Port) (v : VTrans) (c : Contract), (pwrOf s p).trans = some v ∧ (pwrOf s p).newCon = some c ∧ v.phase = 0 ∧ thymeDown s p = false →
      Runs (.transitionLimitsWrite p) s [.out, .now, .pwr]
      (fun t => t = (let x := pwrOf s p; let s1 := advanceTo (v.at_ + v.delay) (fresh s); let d := if v.fromMv ≤ v.toMv then v.toMv - v.fromMv else v.fromMv - v.toMv; let s2 := modPwr p (fun y => { y with discharge := decide (v.fromMv > v.toMv + 5000), trans := some { v with phase := 1, cmdAt := s1.now, bound := d * 1150 / max 1 y.pol.slew } }) (writeVolt p v.toMv (writeLimits p (max x.ov (ovpMv c)) (min x.uv (uvpMv c)) s1)); if v.fromMv > v.toMv + 5000 then emit (.frontEnd p 2 true) s2 else s2))) ∧
  (∀ (s : State) (v : List Nat) (p : Port), s.lane.adcSlot < 3 ∧ nextTrans s = some p ∧ unitFenced s .adc (.channel (portCode p)) = false →
      Runs (.adcConversion v) s [.out, .now, .mbx, .avail, .hubs, .dsd, .usd, .epqs, .links, .sched, .place, .fab, .u2d, .vig, .tc, .phy, .pwr, .lane, .dp]
      (fun t => t = (let s1 := advanceTo (s.lane.adcAt + 1000) (fresh s); vbsSample p (v.getD p.val 0) { s1 with lane := { s1.lane with adcAt := s1.now, adcSlot := (s1.lane.adcSlot + 1) % 4, adcTrans := p.val } }))) ∧
  (∀ (s : State) (v : List Nat) (p : Port), ¬(s.lane.adcSlot < 3 ∧ (nextTrans s).isSome = true) ∧ s.lane.adcSteady = p.val ∧ unitFenced s .adc (.channel (portCode p)) = false →
      Runs (.adcConversion v) s [.out, .now, .mbx, .avail, .hubs, .dsd, .usd, .epqs, .links, .sched, .place, .fab, .u2d, .vig, .tc, .phy, .pwr, .lane, .dp]
      (fun t => t = (let s1 := advanceTo (s.lane.adcAt + 1000) (fresh s); vbsSample p (v.getD p.val 0) { s1 with lane := { s1.lane with adcAt := s1.now, adcSlot := (s1.lane.adcSlot + 1) % 4, adcSteady := (s1.lane.adcSteady + 1) % 20 } }))) ∧
  (∀ (s : State) (p : Port) (v : VTrans), (pwrOf s p).trans = some v ∧ v.phase = 1 →
      Runs (.transitionTimeout p) s [.out, .now, .freeSeq, .mbx, .flt, .alm, .pmu, .clk, .fw, .avail, .hubs, .dsd, .usd, .epqs, .links, .sched, .place, .memb, .fab, .u2d, .vig, .tc, .phy, .pwr, .lane, .dp, .lio, .test]
      (fun t => t = (let s1 := advanceTo (v.cmdAt + 2 * v.bound + 4000 * ((transCount s + 2) / 3)) (fresh s); fault (portBlock p) 12 (blockId (portBlock p)) (if thymeDown s p then s1 else sendHardReset p s1)))) ∧
  (∀ (s : State) (p : Port), Runs (.vbusOvpTrip p) s [.out, .freeSeq, .mbx, .flt, .alm, .pmu, .clk, .fw, .avail, .hubs, .dsd, .usd, .epqs, .links, .sched, .place, .memb, .fab, .u2d, .vig, .tc, .phy, .pwr, .dp, .lio, .test]
      (fun t => t = fault (portBlock p) 10 (blockId (portBlock p)) (pscLow p (fresh s)))) ∧
  (∀ (s : State) (p : Port), inTrans s p = false →
      Runs (.vbusUvpTrip p) s [.out, .mbx, .avail, .hubs, .dsd, .usd, .epqs, .links, .sched, .place, .fab, .u2d, .vig, .tc, .phy, .pwr, .lane, .dp]
      (fun t => t = ocShutdown p (fresh s))) ∧
  (∀ (s : State) (p : Port), inTrans s p = true →
      Runs (.vbusUvpTrip p) s [.out, .mbx, .avail, .hubs, .dsd, .usd, .epqs, .links, .sched, .place, .fab, .u2d, .vig, .tc, .phy, .pwr, .lane, .dp]
      (fun t => t = fresh s)) ∧
  (∀ (s : State) (p : Port) (b : Byte), psfSeen s p = true →
      Runs (.psfRise p b) s [.out, .freeSeq, .mbx, .flt, .alm, .pmu, .clk, .wake, .sup, .fw, .avail, .hubs, .dsd, .usd, .epqs, .links, .sched, .place, .memb, .fab, .u2d, .vig, .tc, .phy, .pwr, .lane, .dp, .lio, .test]
      (fun t => t = (let s0 := suspendWake 9 (portCode p) 1 (modPwr p (fun x => { x with psf := true, feStatus := b.toNat % 128 }) (fresh s)); let s1 := overCurrent p (pscLow p s0); fault (portBlock p) 11 (blockId (portBlock p)) (if isSource s0 p then recover p s1 else s1)))) ∧
  (∀ (s : State) (p : Port) (b : Byte), psfSeen s p = false →
      Runs (.psfRise p b) s [.out, .freeSeq, .mbx, .flt, .alm, .pmu, .clk, .wake, .sup, .fw, .avail, .hubs, .dsd, .usd, .epqs, .links, .sched, .place, .memb, .fab, .u2d, .vig, .tc, .phy, .pwr, .lane, .dp, .lio, .test]
      (fun t => t = modPwr p (fun x => { x with psf := true, feStatus := b.toNat % 128 }) (fresh s))) ∧
  (∀ (s : State) (p : Port), Runs (.stageOcShutdown p) s [.out, .mbx, .pmu, .wake, .sup, .fw, .avail, .hubs, .dsd, .usd, .epqs, .links, .sched, .place, .fab, .u2d, .vig, .tc, .phy, .pwr, .lane, .dp]
      (fun t => t = ocShutdown p (suspendWake 9 (portCode p) 0 (fresh s)))) ∧
  (∀ (s : State) (p : Port) (w : BitVec 16) (n : Nat), pslReads s p = true ∧ n < 4 →
      Runs (.stageStatusPoll p w n) s [.out, .freeSeq, .mbx, .flt, .alm, .pmu, .clk, .fw, .avail, .hubs, .dsd, .usd, .epqs, .links, .sched, .place, .memb, .fab, .u2d, .vig, .tc, .phy, .pwr, .lane, .dp, .lio, .test]
      (fun t => t = (let s1 := modPwr p (fun x => { x with status := w.toNat }) ((List.range n).foldl (fun y _ => fault .psl 8 (portCode p) y) (fresh s)); if bit w.toNat 4 then ocShutdown p s1 else s1))) ∧
  (∀ (s : State) (p : Port) (v i n : Nat), pslReads s p = true ∧ (tcOf s p).st = .attached ∧ n < 4 →
      Runs (.stageVoutIoutPoll p v i n) s [.out, .freeSeq, .mbx, .flt, .alm, .pmu, .clk, .fw, .avail, .hubs, .dsd, .usd, .epqs, .links, .sched, .place, .memb, .fab, .u2d, .vig, .tc, .phy, .pwr, .dp, .lio, .test]
      (fun t => t = modPwr p (fun x => { x with readV := some v, readI := some i }) ((List.range n).foldl (fun y _ => fault .psl 8 (portCode p) y) (fresh s)))) ∧
  (∀ (s : State) (p : Port) (x : Int) (n : Nat), pslReads s p = true ∧ 4 ≤ n →
      Runs (.stageTempPoll p x n) s [.out, .freeSeq, .mbx, .flt, .alm, .pmu, .clk, .fw, .avail, .hubs, .dsd, .usd, .epqs, .links, .sched, .place, .memb, .fab, .u2d, .vig, .tc, .phy, .pwr, .dp, .lio, .test]
      (fun t => t = fault .psl 9 (portCode p) (pscLow p ((List.range 3).foldl (fun y _ => fault .psl 8 (portCode p) y) (fresh s))))) ∧
  (∀ (s : State) (p : Port) (x : Int) (n : Nat), pslReads s p = true ∧ n = 0 →
      Runs (.stageTempPoll p x n) s [.out, .freeSeq, .mbx, .flt, .alm, .pmu, .clk, .fw, .avail, .hubs, .dsd, .usd, .epqs, .links, .sched, .place, .memb, .fab, .u2d, .vig, .tc, .phy, .pwr, .dp, .lio, .test]
      (fun t => t = modPwr p (fun y => { y with temp := some x }) (fresh s))) ∧
  (∀ (s : State), Runs (.psi2cBusStuck) s [.out, .freeSeq, .mbx, .flt, .alm, .pmu, .clk, .fw, .avail, .hubs, .dsd, .usd, .epqs, .links, .sched, .place, .memb, .fab, .u2d, .vig, .tc, .phy, .pwr, .dp, .lio, .test]
      (fun t => t = fault .psl 10 (blockId .psl) (fresh s))) ∧
  (∀ (s : State) (p : Port) (x : Nat), (pwrOf s p).hr = some (1, x) →
      Runs (.hardResetVbusOff p) s [.out, .now, .mbx, .avail, .hubs, .dsd, .usd, .epqs, .links, .sched, .place, .fab, .u2d, .vig, .tc, .pwr]
      (fun t => t = (let s1 := dataOff p (pscLow p (advanceTo (x + 30000000) (fresh s))); modPwr p (fun y => { y with hr := some (2, s1.now) }) s1))) ∧
  (∀ (s : State) (p : Port) (x : Nat), (pwrOf s p).hr = some (3, x) →
      Runs (.hardResetRecover p) s [.out, .now, .hubs, .tc, .pwr]
      (fun t => t = (let s1 := pscHigh p (modTc p (fun y => { y with vbus5At := none }) (advanceTo (x + 750000000) (fresh s))); modPwr p (fun y => { y with hr := some (4, s1.now) }) s1)))

/-- Moisture guard readings and trends, DisplayPort messages and hot-plug detect, each with its effect (R358, R363, R364, R368,
R371, R372, R326). -/
def Obligations.GuardAndDisplayRun : Prop :=
  (∀ (s : State) (p : Port) (f a : List Nat) (b : BootIn), s.sup.aon = true ∧ s.sup.porLow = false ∧ populated s p = true ∧ guardAction s p = 2 ∧ asleep s = false ∧ (guardOf s p).st ≠ 0 →
      Runs (.guardReading p f a b) s [.out, .now, .freeSeq, .mbx, .flt, .alm, .pmu, .clk, .wake, .sup, .fw, .avail, .hubs, .own, .dsd, .usd, .epqs, .links, .sched, .place, .memb, .fab, .u2d, .u2u, .vig, .fo, .tc, .phy, .pwr, .lane, .guard, .dp, .lio, .test]
      (fun t => t = guardFree p (guardTo p 0 0 0 0xFFFF (fresh s)))) ∧
  (∀ (s : State) (p : Port) (f a : List Nat) (b : BootIn), s.sup.aon = true ∧ s.sup.porLow = false ∧ populated s p = true ∧ guardAction s p = 0 ∧ asleep s = false →
      Runs (.guardReading p f a b) s [.out, .now, .freeSeq, .mbx, .flt, .alm, .pmu, .clk, .wake, .sup, .fw, .avail, .hubs, .own, .dsd, .usd, .epqs, .links, .sched, .place, .memb, .fab, .u2d, .u2u, .vig, .fo, .tc, .phy, .pwr, .lane, .guard, .dp, .lio, .test]
      (fun t => t = (let l := (pinsDue s p).mapIdx (fun i pin => (pin, f.getD i 1023, a.getD i 1023)); let s1 := l.foldl (fun y x => keepReading p x.1 (if isWet x.2.1 then x.2.2 else x.2.1) (if isWet x.2.1 then keepReading p x.1 x.2.1 y else y)) (modTc p (fun x => { x with preCheck := false }) (fresh s)); guardMoves p ((l.find? (fun x => isWet x.2.1 && isWet x.2.2)).map (fun x => (x.1, x.2.2))) (l.all (fun x => isTerm (if isWet x.2.1 then x.2.2 else x.2.1) || isDry (if isWet x.2.1 then x.2.2 else x.2.1))) s1))) ∧
  (∀ (s : State), Runs (.guardWeekEnd) s [.out, .now, .lane, .guard]
      (fun t => t = (let s1 := advanceTo s.lane.weekAt (fresh s); { s1 with lane := { s1.lane with weekAt := s1.lane.weekAt + 604800000000000 }, guard := s1.guard.map (fun g => { g with trend := List.zipWith (fun (l : List Nat) (w : Option Nat) => (w.getD 255 :: l).take 16) g.trend g.week, week := List.replicate 4 none }) }))) ∧
  (∀ (s : State) (d : DS) (i : Fin 2) (x : Nat), dpInput s d = some i ∧ s.dp[i].due = some x ∧ s.dp[i].phase = 0 ∧ explicit s (dsPort d) = true ∧ thymeDown s (dsPort d) = false ∧ isSource s (dsPort d) = true →
      Runs (.dpEntryStart d) s [.out, .now, .phy, .dp]
      (fun t => t = dpStep i d 1 0xFF00 0 1 [] (advanceTo x (fresh s)))) ∧
  (∀ (s : State) (d : DS) (m : PdMsg) (i : Fin 2), (phyOf s (dsPort d)).inHand = some m ∧ thymeDown s (dsPort d) = false ∧ isData m 15 = true ∧ (vdmCmd m).2 = 1 ∧ dpInput s d = some i ∧ s.dp[i].phase ≠ 0 ∧ s.dp[i].phase < 7 ∧ (vdmSvid m, (vdmCmd m).1) = dpExpect s.dp[i].phase →
      Runs (.dpVdmAck d) s [.out, .mbx, .avail, .hubs, .dsd, .epqs, .links, .sched, .place, .fab, .u2d, .vig, .phy, .dp]
      (fun t => t = dpAck i d m (handed (dsPort d) s))) ∧
  (∀ (s : State) (d : DS) (m : PdMsg) (i : Fin 2), (phyOf s (dsPort d)).inHand = some m ∧ thymeDown s (dsPort d) = false ∧ isData m 15 = true ∧ 2 ≤ (vdmCmd m).2 ∧ dpInput s d = some i ∧ s.dp[i].phase ≠ 0 ∧ s.dp[i].phase < 7 ∧ (vdmSvid m, (vdmCmd m).1) = dpExpect s.dp[i].phase →
      Runs (.dpVdmAck d) s [.out, .mbx, .avail, .hubs, .dsd, .epqs, .links, .sched, .place, .fab, .u2d, .vig, .phy, .dp]
      (fun t => t = dpStop i 2 (handed (dsPort d) s))) ∧
  (∀ (s : State) (d : DS) (i : Fin 2), dpInput s d = some i ∧ s.dp[i].phase ≠ 0 ∧ s.dp[i].phase < 7 →
      Runs (.dpVdmTimeout d) s [.out, .now, .mbx, .phy, .dp]
      (fun t => t = dpStop i 1 (advanceTo (s.dp[i].at_ + 27000000) (fresh s)))) ∧
  (∀ (s : State) (d : DS) (m : PdMsg) (i : Fin 2), (phyOf s (dsPort d)).inHand = some m ∧ thymeDown s (dsPort d) = false ∧ isData m 15 = true ∧ vdmCmd m = (6, 0) ∧ dpInput s d = some i ∧ vdmSvid m = 0xFF01 ∧ 2 ≤ msgObjs m.header ∧ s.dp[i].phase = 7 →
      Runs (.dpAttention d) s [.out, .phy, .dp]
      (fun t => t = hpdStatus i (pdObj m 1) (handed (dsPort d) s))) ∧
  (∀ (s : State) (d : DS) (m : PdMsg) (i : Fin 2), (phyOf s (dsPort d)).inHand = some m ∧ thymeDown s (dsPort d) = false ∧ isData m 15 = true ∧ vdmCmd m = (6, 0) ∧ dpInput s d = some i ∧ vdmSvid m = 0xFF01 ∧ 2 ≤ msgObjs m.header ∧ s.dp[i].phase ≠ 7 →
      Runs (.dpAttention d) s [.out, .phy, .dp]
      (fun t => t = modDp i (fun x => { x with hpdSeen := bit (pdObj m 1) 7 && decide (5 ≤ x.phase) }) (handed (dsPort d) s))) ∧
  (∀ (s : State) (i : Fin 2) (x : Nat), s.dp[i].irqAt = some x →
      Runs (.hpdTimer i) s [.out, .now, .dp]
      (fun t => t = (let s1 := advanceTo (x + 750000) (fresh s); modDp i (fun y => { y with irqAt := none, irqLast := some s1.now }) s1))) ∧
  (∀ (s : State) (i : Fin 2) (x : Nat), s.dp[i].irqAt = none ∧ s.dp[i].irqPend = true ∧ s.dp[i].irqLast = some x →
      Runs (.hpdTimer i) s [.out, .now, .dp]
      (fun t => t = (let s1 := advanceTo (x + 2000000) (fresh s); modDp i (fun y => { y with irqAt := some s1.now, irqPend := false }) s1))) ∧
  (∀ (s : State) (i : Fin 2) (x : Nat), s.dp[i].irqAt = none ∧ s.dp[i].irqPend = false ∧ s.dp[i].lowAt = some x ∧ s.dp[i].hpdSeen = true ∧ s.dp[i].hpd = false ∧ s.dp[i].phase = 7 →
      Runs (.hpdTimer i) s [.out, .now, .dp]
      (fun t => t = modDp i (fun y => { y with hpd := true }) (advanceTo (x + 2000000) (fresh s)))) ∧
  (∀ (s : State) (d : DS) (m : PdMsg) (i : Fin 2), (phyOf s (dsPort d)).inHand = some m ∧ thymeDown s (dsPort d) = false ∧ isData m 15 = true ∧ vdmCmd m = (5, 0) ∧ dpInput s d = some i ∧ 5 ≤ s.dp[i].phase →
      Runs (.dpExitMode d) s [.out, .mbx, .phy, .dp]
      (fun t => t = dpLeaveOne i 0 (vdm (dsPort d) (vdmSvid m) 1 1 5 [] (handed (dsPort d) s)))) ∧
  (∀ (s : State) (d : DS) (m : PdMsg), (phyOf s (dsPort d)).inHand = some m ∧ thymeDown s (dsPort d) = false ∧ isData m 15 = true ∧ vdmCmd m = (5, 0) ∧ dpInput s d = none →
      Runs (.dpExitMode d) s [.out, .mbx, .phy, .dp]
      (fun t => t = vdm (dsPort d) (vdmSvid m) 0 2 5 [] (handed (dsPort d) s)))

/-- Drawer kick, sense inputs and GPIO edges, each with its effect (R376, R377, R378, R375, R374). -/
def Obligations.LaneIoRuns : Prop :=
  (∀ (s : State) (i : Fin 2) (x : Nat × Nat), s.lio.kick[i].pulse = some x →
      Runs (.kickPulseEnd i) s [.out, .now, .mbx, .lio]
      (fun t => t = (let s1 := modKick i (fun k => { k with pulse := none, lockUntil := x.2 + 1000000000 }) (advanceTo x.2 (fresh s)); if s.lio.kick[i].silent then s1 else finalCpl (.kick i) stOk (le 8 x.1 ++ le 1 (b2n (drawerOpen s1 i)) ++ [0, 0, 0]) s1))) ∧
  (∀ (s : State) (i : Fin 2) (x : Nat) (b : Bool), s.lio.kick[i].report = some (x, b) →
      Runs (.drawerReport i) s [.out, .now, .mbx, .lio]
      (fun t => t = (let s1 := modKick i (fun k => { k with report := none }) (advanceTo (x + 2000000000) (fresh s)); if s.lio.kick[i].silent then s1 else laneIoEvent 3 i.val (b2n b) 0 s1))) ∧
  (∀ (s : State) (n : Fin 2) (l : Bool) (b : BootIn), s.sup.aon = true ∧ s.sup.porLow = false ∧ s.lio.sense.getLsbD n.val ≠ l ∧ asleep s = false ∧ s.lio.wake.getLsbD n.val = false →
      Runs (.lioSenseChange n l b) s [.out, .now, .freeSeq, .mbx, .flt, .alm, .pmu, .clk, .wake, .sup, .fw, .avail, .hubs, .own, .dsd, .usd, .epqs, .links, .sched, .place, .memb, .fab, .u2d, .u2u, .vig, .fo, .tc, .phy, .pwr, .lane, .dp, .lio, .test]
      (fun t => t = (let s1 := { fresh s with lio := { s.lio with sense := if l then s.lio.sense ||| BitVec.ofNat 2 (2 ^ n.val) else s.lio.sense &&& ~~~(BitVec.ofNat 2 (2 ^ n.val)) } }; laneIoEvent 0 n.val (b2n l) 0 (modKick n (fun k => { k with report := k.report.map (fun r => (r.1, r.2 || (drawerOpen s1 n && decide (s.now < r.1 + 2000000000)))) }) s1)))) ∧
  (∀ (s : State) (n : Fin 2) (l : Bool) (b : BootIn), s.sup.aon = true ∧ s.sup.porLow = false ∧ s.lio.sense.getLsbD n.val ≠ l ∧ asleep s = true ∧ s.lio.wake.getLsbD n.val = true →
      Runs (.lioSenseChange n l b) s [.out, .now, .freeSeq, .mbx, .flt, .alm, .pmu, .clk, .wake, .sup, .fw, .avail, .hubs, .own, .dsd, .usd, .epqs, .links, .sched, .place, .memb, .fab, .u2d, .u2u, .vig, .fo, .tc, .phy, .pwr, .lane, .dp, .lio, .test]
      (fun t => t = (let s1 := { fresh s with lio := { s.lio with sense := if l then s.lio.sense ||| BitVec.ofNat 2 (2 ^ n.val) else s.lio.sense &&& ~~~(BitVec.ofNat 2 (2 ^ n.val)) } }; let s2 := modKick n (fun k => { k with report := k.report.map (fun r => (r.1, r.2 || (drawerOpen s1 n && decide (s.now < r.1 + 2000000000)))) }) s1; raiseWake 10 0 0 (edgeTime b.wx s2) b s2))) ∧
  (∀ (s : State) (n : Fin 16) (e : Bool), s.pmu.reported = .active ∧ blockFenced s .lio = false ∧ s.lio.edgeEn.getLsbD (2 * n.val + (if e then 0 else 1)) = true ∧ tabGet s.lio.pendAt n.val ≠ some (s.now / 125000) →
      Runs (.gpioEdge n e) s [.out, .mbx, .lio]
      (fun t => t = gpioEvent n.val { fresh s with lio := { s.lio with inp := (if e then s.lio.inp ||| BitVec.ofNat 16 (2 ^ n.val) else s.lio.inp &&& ~~~(BitVec.ofNat 16 (2 ^ n.val))), edge := s.lio.edge ||| BitVec.ofNat 16 (2 ^ n.val) } })) ∧
  (∀ (s : State) (n : Fin 16) (e : Bool), s.pmu.reported = .active ∧ blockFenced s .lio = false ∧ s.lio.edgeEn.getLsbD (2 * n.val + (if e then 0 else 1)) = true ∧ tabGet s.lio.pendAt n.val = some (s.now / 125000) →
      Runs (.gpioEdge n e) s [.out, .mbx, .lio]
      (fun t => t.out = [] ∧ t.lio.edge = s.lio.edge ||| BitVec.ofNat 16 (2 ^ n.val) ∧ t.lio.pend = s.lio.pend ||| BitVec.ofNat 32 (2 ^ n.val) ∧ t.mbx = s.mbx))

/-- Faults as the blocks raise them, their repetition and the temperature thresholds, each with its effect (R408, R409, R11,
R511). -/
def Obligations.FaultsRun : Prop :=
  (∀ (s : State) (b : Block) (k : Fin 32) (n : Nat) (p : Bool), (srcClass b k.val).isSome = true ∧ unitOk b k.val (unitFor b k.val n) = true →
      Runs (.faultLatch b k n p) s [.out, .freeSeq, .mbx, .flt, .alm, .pmu, .clk, .fw, .avail, .hubs, .dsd, .usd, .epqs, .links, .sched, .place, .memb, .fab, .u2d, .vig, .tc, .phy, .pwr, .dp, .lio, .test]
      (fun t => t = detect b k.val n false p (fresh s))) ∧
  (∀ (s : State) (b : Block) (k : Fin 32) (n : Nat) (p : Bool), srcClass b k.val = none →
      Runs (.faultLatch b k n p) s [.out, .freeSeq, .mbx, .flt, .alm, .pmu, .clk, .fw, .avail, .hubs, .dsd, .usd, .epqs, .links, .sched, .place, .memb, .fab, .u2d, .vig, .tc, .phy, .pwr, .dp, .lio, .test]
      (fun t => t = fresh s)) ∧
  (∀ (s : State) (b : Block) (k : Fin 32) (l : Bool) (x : LevelCond), s.flt.levels.find? (fun y => y.block == b && y.source == k.val) = some x →
      Runs (.levelFaultRepeat b k l) s [.out, .now, .freeSeq, .mbx, .flt, .alm, .pmu, .clk, .sup, .fw, .avail, .hubs, .dsd, .usd, .epqs, .links, .sched, .place, .memb, .fab, .u2d, .vig, .tc, .phy, .pwr, .dp, .lio, .test]
      (fun t => t = (if l then raiseFault b k.val x.unit false true (advanceTo (x.last + 1000000) (fresh s)) else levelOver b k.val (fresh s)))) ∧
  (∀ (s : State), Runs (.sageLockstepMismatch) s [.out, .freeSeq, .mbx, .flt, .alm, .pmu, .clk, .sup, .fw, .avail, .hubs, .dsd, .usd, .epqs, .links, .sched, .place, .memb, .fab, .u2d, .vig, .tc, .phy, .pwr, .dp, .lio, .test]
      (fun t => t = fatal .sage 8 (fresh s))) ∧
  (∀ (s : State) (n : Nat), 100 ≤ n →
      Runs (.sageWatchdog n) s [.out, .freeSeq, .mbx, .flt, .alm, .pmu, .clk, .fw, .avail, .hubs, .dsd, .usd, .epqs, .links, .sched, .place, .memb, .fab, .u2d, .vig, .tc, .phy, .pwr, .dp, .lio, .test]
      (fun t => t = fault .sage 9 (blockId .sage) (fresh s))) ∧
  (∀ (s : State) (n : Nat), unitOk .sage 10 n = true →
      Runs (.sageTaskLate n) s [.out, .freeSeq, .mbx, .flt, .alm, .pmu, .clk, .fw, .avail, .hubs, .dsd, .usd, .epqs, .links, .sched, .place, .memb, .fab, .u2d, .vig, .tc, .phy, .pwr, .dp, .lio, .test]
      (fun t => t = fault .sage 10 n (fresh s))) ∧
  (∀ (s : State) (c : Fin 8) (n : Nat), 20 ≤ n ∧ (fltRec s (.chv c)).reset = false →
      Runs (.chervilHang c n) s [.out, .freeSeq, .mbx, .flt, .alm, .pmu, .clk, .fw, .avail, .hubs, .dsd, .usd, .epqs, .links, .sched, .place, .memb, .fab, .u2d, .vig, .tc, .phy, .pwr, .dp, .lio, .test]
      (fun t => t = fault (.chv c) 8 (blockId (.chv c)) (fresh s))) ∧
  (∀ (s : State) (i : Fin 6) (n : Nat), 1000 ≤ n ∧ (fltRec s (.thy i)).reset = false →
      Runs (.thymeHang i n) s [.out, .freeSeq, .mbx, .flt, .alm, .pmu, .clk, .fw, .avail, .hubs, .dsd, .usd, .epqs, .links, .sched, .place, .memb, .fab, .u2d, .vig, .tc, .phy, .pwr, .dp, .lio, .test]
      (fun t => t = fault (.thy i) 8 (blockId (.thy i)) (fresh s))) ∧
  (∀ (s : State) (n : Nat), 100 ≤ n →
      Runs (.fabArbStall n) s [.out, .freeSeq, .mbx, .flt, .alm, .pmu, .clk, .fw, .avail, .hubs, .dsd, .usd, .epqs, .links, .sched, .place, .memb, .fab, .u2d, .vig, .tc, .phy, .pwr, .dp, .lio, .test]
      (fun t => t = fault .fab 9 (blockId .fab) (fresh s))) ∧
  (∀ (s : State) (x : Int), x < tjWarn ∧ tjWarn - 50 < x →
      Runs (.tjSample x) s [.out, .freeSeq, .mbx, .flt, .alm, .pmu, .clk, .fw, .avail, .hubs, .dsd, .usd, .epqs, .links, .sched, .place, .memb, .fab, .u2d, .vig, .tc, .phy, .pwr, .dp, .lio, .test, .therm]
      (fun t => t.therm = { temp := x, warnOver := s.therm.warnOver, tripOver := (if x ≤ tjWarn + 50 then false else s.therm.tripOver) } ∧ t.flt = s.flt ∧ t.out = [])) ∧
  (∀ (s : State) (x : Int), tjWarn ≤ x ∧ x < tjWarn + 100 ∧ s.therm.warnOver = false →
      Runs (.tjSample x) s [.out, .freeSeq, .mbx, .flt, .alm, .pmu, .clk, .fw, .avail, .hubs, .dsd, .usd, .epqs, .links, .sched, .place, .memb, .fab, .u2d, .vig, .tc, .phy, .pwr, .dp, .lio, .test, .therm]
      (fun t => t = fault .pmu 14 (blockId .pmu) { fresh s with therm := { temp := x, warnOver := true, tripOver := (if x ≤ tjWarn + 50 then false else s.therm.tripOver) } })) ∧
  (∀ (s : State) (x : Int), tjWarn + 100 ≤ x ∧ s.therm.tripOver = false ∧ s.therm.warnOver = true →
      Runs (.tjSample x) s [.out, .freeSeq, .mbx, .flt, .alm, .pmu, .clk, .fw, .avail, .hubs, .dsd, .usd, .epqs, .links, .sched, .place, .memb, .fab, .u2d, .vig, .tc, .phy, .pwr, .dp, .lio, .test, .therm]
      (fun t => t = fault .pmu 15 (blockId .pmu) { fresh s with therm := { temp := x, warnOver := true, tripOver := true } }))

/-- SAFE and its exit, quiet periods and the acknowledgement of faults, each with its effect (R385, R416, R419, R414, R410,
R403, R404, R36, R474). -/
def Obligations.SafeAndAcknowledgementRun : Prop :=
  (∀ (s : State) (d : Bool) (b : Block), s.flt.safePend = some b ∧ mayEnterSafe s = true →
      Runs (.safeEntry d) s [.out, .mbx, .flt, .pmu, .sup, .fw, .avail, .hubs, .dsd, .usd, .epqs, .links, .sched, .place, .fab, .u2d, .vig, .tc, .phy, .pwr, .dp, .lio, .test]
      (fun t => t = safeEnter b d (fresh s))) ∧
  (∀ (s : State) (b : BootIn) (k : Block), s.flt.safeCause = some k ∧ s.pmu.reported = .safe ∧ s.clk.refLost = none ∧ fltCount s k < fltLimit s k →
      Runs (.safeExit b) s [.out, .now, .freeSeq, .mbx, .flt, .alm, .pmu, .reg, .clk, .wake, .sup, .fw, .avail, .hubs, .own, .dsd, .usd, .epqs, .links, .sched, .place, .memb, .fab, .u2d, .u2u, .vig, .fo, .tc, .phy, .pwr, .lane, .dp, .lio, .test]
      (fun t => t = (let x := match s.clk.refBack with | some y => y + 10000000 | none => 0; let s1 := advanceTo (max (s.flt.safeAt + quietFt s k * 1000000) x) (fresh s); bootWarm .safe b (setRec k (countReadmit s1.now { fltRec s1 k with limitHeld := false }) s1)))) ∧
  (∀ (s : State) (b : BootIn) (k : Block), s.flt.safeCause = some k ∧ s.pmu.reported = .safe ∧ s.clk.refLost = none ∧ fltLimit s k ≤ fltCount s k ∧ (fltRec s k).limitHeld = false →
      Runs (.safeExit b) s [.out, .now, .freeSeq, .mbx, .flt, .alm, .pmu, .reg, .clk, .wake, .sup, .fw, .avail, .hubs, .own, .dsd, .usd, .epqs, .links, .sched, .place, .memb, .fab, .u2d, .u2u, .vig, .fo, .tc, .phy, .pwr, .lane, .dp, .lio, .test]
      (fun t => t = (let x := match s.clk.refBack with | some y => y + 10000000 | none => 0; let s1 := advanceTo (max (s.flt.safeAt + quietFt s k * 1000000) x) (fresh s); faultEvent k 5 (setRec k { fltRec s1 k with limitHeld := true } s1)))) ∧
  (∀ (s : State) (b : Block) (l : List ReadBack) (x : Nat), (fltRec s b).quietEnd = some x ∧ safeHolds s = false ∧ asleep s = false ∧ s.pmu.reported ≠ .boot →
      Runs (.quietPeriodEnd b l) s [.out, .now, .freeSeq, .mbx, .flt, .alm, .pmu, .clk, .fw, .avail, .hubs, .own, .dsd, .usd, .epqs, .links, .sched, .place, .memb, .fab, .u2d, .vig, .fo, .tc, .phy, .pwr, .lane, .dp, .lio, .test]
      (fun t => t = quietEnds b l (advanceTo x (fresh s)))) ∧
  (∀ (s : State) (b : Block), ackHost s = false ∧ (fltRec s b).pending = true ∧ safeHolds s = false ∧ (isExclusive s.pmu.reported = false ∨ s.pmu.reported = .suspend) ∧ (fltRec s b).safeCause = false ∧ ((fltRec s b).cls = some .ce ∨ (fltRec s b).conseq = true ∨ (fltRec s b).leavesNone = true) →
      Runs (.faultAutoAck b) s [.out, .now, .flt]
      (fun t => t = ackBlock b (advanceTo ((fltRec s b).time + ackHoldNs s) (fresh s)))) ∧
  (∀ (s : State) (b : Block) (v : Word), s.sup.mainOn = true ∧ s.sup.porLow = false →
      Runs (.fltAckWrite b v) s [.out, .flt]
      (fun t => t = ackWrite b v.toNat (fresh s))) ∧
  (∀ (s : State) (b : Block) (v : Word), (s.pmu.reported = .service ∨ testEnabled s = true) ∧ asleep s = false →
      Runs (.fltForceWrite b v) s [.out, .freeSeq, .mbx, .flt, .alm, .pmu, .clk, .fw, .avail, .hubs, .dsd, .usd, .epqs, .links, .sched, .place, .memb, .fab, .u2d, .vig, .tc, .phy, .pwr, .dp, .lio, .test]
      (fun t => t = injectFaults b v.toNat none (fresh s))) ∧
  (∀ (s : State) (b : Block) (v : Word), s.pmu.reported ≠ .service ∧ testEnabled s = false →
      Runs (.fltForceWrite b v) s [.out, .freeSeq, .mbx, .flt, .alm, .pmu, .clk, .fw, .avail, .hubs, .dsd, .usd, .epqs, .links, .sched, .place, .memb, .fab, .u2d, .vig, .tc, .phy, .pwr, .dp, .lio, .test]
      (fun t => t = fresh s)) ∧
  (∀ (s : State) (x : Nat), s.avail.lastCkpt = some x ∧ x + 3600000000000 ≤ s.now ∧ asleep s = false ∧ safeHolds s = false ∧ s.sup.ready = true ∧ almExhausted s.alm (checkpointWrites s) = false →
      Runs (.availabilityCheckpoint) s [.out, .alm, .avail]
      (fun t => t = { fresh s with alm := almWriteAll s.alm (checkpointWrites s), avail := { s.avail with lastCkpt := some s.now, ckpts := s.avail.ckpts + 1 } }))

/-- SPIT frames and the writes of transport registers, each with its effect (R434, R480, R403, R404, R435, R423, R440, R432). -/
def Obligations.RegistersOverSpitRun : Prop :=
  (∀ (s : State) (n : Nat) (i : Byte) (a : Word) (l : List Byte) (r : Nat) (b : BootIn), spitPowered s = true ∧ s.pmu.reported = .suspend ∧ n < 5000 →
      Runs (.spitFrame n i a l r b) s [.out, .freeSeq, .mbx, .flt, .alm, .pmu, .clk, .wake, .sup, .fw, .avail, .hubs, .dsd, .usd, .epqs, .links, .sched, .place, .memb, .fab, .u2d, .vig, .tc, .phy, .pwr, .dp, .lio, .test]
      (fun t => t = frameError (suspendWake 6 0 0 (fresh s)))) ∧
  (∀ (s : State) (n : Nat) (i : Byte) (a : Word) (l : List Byte) (r : Nat) (b : BootIn), spitPowered s = true ∧ s.pmu.reported ≠ .suspend ∧ i = 0x0B ∧ ¬(wordSpace a.toNat = true ∧ a.toNat % 4 ≠ 0) →
      Runs (.spitFrame n i a l r b) s [.out, .freeSeq, .mbx, .flt, .alm, .pmu, .clk, .wake, .sup, .fw, .avail, .hubs, .dsd, .usd, .epqs, .links, .sched, .place, .memb, .fab, .u2d, .vig, .tc, .phy, .pwr, .dp, .lio, .test]
      (fun t => t = (let s1 := { fresh s with mbx := { s.mbx with frameErr := false } }; emit (.spit (spitStatus s) ((List.range r).map (fun j => spitByte s1 ((a.toNat + j) % 2 ^ 32)))) s1))) ∧
  (∀ (s : State) (n : Nat) (i : Byte) (a : Word) (l : List Byte) (r : Nat) (b : BootIn), spitPowered s = true ∧ s.pmu.reported ≠ .suspend ∧ i = 0x0B ∧ wordSpace a.toNat = true ∧ a.toNat % 4 ≠ 0 →
      Runs (.spitFrame n i a l r b) s [.out, .freeSeq, .mbx, .flt, .alm, .pmu, .clk, .wake, .sup, .fw, .avail, .hubs, .dsd, .usd, .epqs, .links, .sched, .place, .memb, .fab, .u2d, .vig, .tc, .phy, .pwr, .dp, .lio, .test]
      (fun t => t.out = [.spit (spitStatus s) (List.replicate r 0)] ∧ t.mbx = { s.mbx with frameErr := true })) ∧
  (∀ (s : State) (n : Nat) (i : Byte) (a : Word) (l : List Byte) (r : Nat) (b : BootIn), spitPowered s = true ∧ s.pmu.reported ≠ .suspend ∧ i = 0x02 ∧ ¬(wordSpace a.toNat = true ∧ a.toNat % 4 ≠ 0) →
      Runs (.spitFrame n i a l r b) s [.out, .freeSeq, .mbx, .flt, .alm, .pmu, .clk, .wake, .sup, .fw, .avail, .hubs, .dsd, .usd, .epqs, .links, .sched, .place, .memb, .fab, .u2d, .vig, .tc, .phy, .pwr, .dp, .lio, .test]
      (fun t => t = spitWrite b l.length a.toNat l (emit (.spit (spitStatus s) []) { fresh s with mbx := { s.mbx with frameErr := false } }))) ∧
  (∀ (s : State) (n : Nat) (i : Byte) (a : Word) (l : List Byte) (r : Nat) (b : BootIn), spitPowered s = true ∧ s.pmu.reported ≠ .suspend ∧ i ≠ 0x02 ∧ i ≠ 0x0B →
      Runs (.spitFrame n i a l r b) s [.out, .freeSeq, .mbx, .flt, .alm, .pmu, .clk, .wake, .sup, .fw, .avail, .hubs, .dsd, .usd, .epqs, .links, .sched, .place, .memb, .fab, .u2d, .vig, .tc, .phy, .pwr, .dp, .lio, .test]
      (fun t => t = frameError (emit (.spit (spitStatus s) []) { fresh s with mbx := { s.mbx with frameErr := false } }))) ∧
  (∀ (s : State) (a v : Word) (b : BootIn), spitPowered s = true ∧ a.toNat % 4 = 0 ∧ fltAddr a.toNat = none ∧ a.toNat < 0x1000 →
      Runs (.registerWrite a v b) s [.out, .freeSeq, .mbx, .flt, .alm, .pmu, .clk, .sup, .fw, .avail, .hubs, .dsd, .usd, .epqs, .links, .sched, .place, .memb, .fab, .u2d, .vig, .tc, .phy, .pwr, .dp, .lio, .test]
      (fun t => t = transportWrite b a.toNat v.toNat (fresh s))) ∧
  (∀ (s : State) (a v : Word) (b : BootIn) (k : Block) (o : Nat), spitPowered s = true ∧ a.toNat % 4 = 0 ∧ fltAddr a.toNat = some (k, o) ∧ o = 0x18 ∧ regWritable s = true →
      Runs (.registerWrite a v b) s [.out, .freeSeq, .mbx, .flt, .alm, .pmu, .clk, .sup, .fw, .avail, .hubs, .dsd, .usd, .epqs, .links, .sched, .place, .memb, .fab, .u2d, .vig, .tc, .phy, .pwr, .dp, .lio, .test]
      (fun t => t = fltWrite k 0x18 v.toNat (fresh s))) ∧
  (∀ (s : State) (a v : Word) (b : BootIn) (k : Block) (o : Nat), spitPowered s = true ∧ a.toNat % 4 = 0 ∧ fltAddr a.toNat = some (k, o) ∧ o ≠ 0x18 →
      Runs (.registerWrite a v b) s [.out, .freeSeq, .mbx, .flt, .alm, .pmu, .clk, .sup, .fw, .avail, .hubs, .dsd, .usd, .epqs, .links, .sched, .place, .memb, .fab, .u2d, .vig, .tc, .phy, .pwr, .dp, .lio, .test]
      (fun t => t = fresh s)) ∧
  (∀ (s : State) (a v : Word) (b : BootIn), a.toNat % 4 ≠ 0 →
      Runs (.registerWrite a v b) s [.out, .freeSeq, .mbx, .flt, .alm, .pmu, .clk, .sup, .fw, .avail, .hubs, .dsd, .usd, .epqs, .links, .sched, .place, .memb, .fab, .u2d, .vig, .tc, .phy, .pwr, .dp, .lio, .test]
      (fun t => t = fresh s)) ∧
  (∀ (s : State) (r : Fin 16) (v : BitVec 16), s.sup.ready = true ∧ r.val ≠ 0 ∧ r.val < 8 →
      Runs (.ringTailWrite r v) s [.out, .mbx]
      (fun t => t = { fresh s with mbx := (if spitOwns s.mbx r = false then ringErr r 4 s.mbx else if (v.toNat + 65536 - s.mbx.rings[r].head) % 65536 > ringDepth s.mbx.rings[r] then ringErr r 1 s.mbx else setRing r { s.mbx.rings[r] with tail := v.toNat } s.mbx) })) ∧
  (∀ (s : State) (r : Fin 16) (v : BitVec 16), s.sup.ready = true ∧ 8 < r.val →
      Runs (.ringHeadWrite r v) s [.out, .mbx]
      (fun t => t = { fresh s with mbx := (if spitOwns s.mbx r then flushCpl s.now (ringPair r) (setRing r { s.mbx.rings[r] with head := v.toNat } s.mbx) else ringErr r 4 s.mbx) })) ∧
  (∀ (s : State) (r : Fin 16) (v : BitVec 16), s.sup.ready = true ∧ r.val = 8 →
      Runs (.ringHeadWrite r v) s [.out, .mbx]
      (fun t => t = { fresh s with mbx := flushCpl s.now 0 (cpl0Consume .spit v.toNat s.mbx) })) ∧
  (∀ (s : State) (r : Fin 16) (b : Bool), s.sup.ready = true ∧ (ringPair r).val ≠ 0 →
      Runs (.ringCtrlRun r b) s [.out, .mbx]
      (fun t => t = { fresh s with mbx := flushCpl s.now (ringPair r) (if b ∧ geomOk r s.mbx = false then ringErr r 2 s.mbx else setRing r { s.mbx.rings[r] with run := b } s.mbx) })) ∧
  (∀ (s : State) (r : Fin 16), s.sup.ready = true ∧ (ringPair r).val ≠ 0 →
      Runs (.ringCtrlReset r) s [.out, .mbx]
      (fun t => t = { fresh s with mbx := ringReset s.now [] (ringPair r) s.mbx })) ∧
  (∀ (s : State) (r : Fin 16) (a : BitVec 10) (n : BitVec 4), s.sup.ready = true ∧ (ringPair r).val ≠ 0 →
      Runs (.ringGeomWrite r a n) s [.out, .mbx]
      (fun t => t = { fresh s with mbx := (if s.mbx.rings[r].run = true ∨ n.toNat < 4 ∨ 10 < n.toNat then ringErr r 2 s.mbx else setRing r { s.mbx.rings[r] with base := a.toNat, log2 := n.toNat } s.mbx) })) ∧
  (∀ (s : State) (v : BitVec 6), s.sup.ready = true →
      Runs (.ringAssignWrite v) s [.out, .mbx]
      (fun t => t = { fresh s with mbx := assignField 2 (bits v.toNat 5 4) (assignField 1 (bits v.toNat 3 2) (assignField 0 (bits v.toNat 1 0) s.mbx)) })) ∧
  (∀ (s : State) (v : BitVec 12), s.sup.ready = true →
      Runs (.irqStatusClear v) s [.out, .mbx]
      (fun t => t = { fresh s with mbx := { s.mbx with irqStatus := s.mbx.irqStatus &&& ~~~v } })) ∧
  (∀ (s : State) (n : BitVec 5), s.sup.ready = true ∧ n ≠ 0 ∧ n.toNat ≤ 16 →
      Runs (.prioDoorbell n) s [.out, .mbx]
      (fun t => t = (let x := cmd0Append .spit (memRead 0 s.mbx.stage 0 (64 * n.toNat)) s.mbx; { fresh s with mbx := setIrq { x.1 with prioRefused := !x.2 } 11 }))) ∧
  (∀ (s : State) (n : BitVec 5), s.sup.ready = true ∧ (n = 0 ∨ 16 < n.toNat) →
      Runs (.prioDoorbell n) s [.out, .mbx]
      (fun t => t = { fresh s with mbx := { s.mbx with frameErr := true } }))

/-- COMMAND_TAKE, the expiry of CPL0 entries and the transactions of I2CT, each with its effect (R428, R432, R440, R436). -/
def Obligations.I2ctAndPriorityRun : Prop :=
  (∀ (s : State) (b : Option Nat) (k : Fin 8) (n op st : Nat) (f : Byte) (g : Word), s.sup.ready = true ∧ asleep s = false ∧ s.sup.sysLow = false ∧ s.sup.porLow = false ∧ s.pmu.reported ≠ .off ∧ (takeOrder s).find? (mayTake s) = some k ∧ readHead s.mbx k b = .wrong n st op f g →
      Runs (.commandTake b) s [.out, .now, .freeSeq, .mbx, .flt, .alm, .pmu, .clk, .sup, .fw, .avail, .hubs, .own, .dsd, .usd, .epqs, .links, .sched, .place, .memb, .fab, .u2d, .vig, .fo, .tc, .phy, .pwr, .lane, .dp, .lio, .test]
      (fun t => t = (let r : Req := { ring := k, via := senderOf s.mbx k, flags := f, tag := g, target := 0, payload := [], badWord := none }; postReply op r (errR st) { fresh s with mbx := consume k n s.mbx }))) ∧
  (∀ (s : State) (b : Option Nat) (k : Fin 8) (n : Nat), s.sup.ready = true ∧ asleep s = false ∧ s.sup.sysLow = false ∧ s.sup.porLow = false ∧ s.pmu.reported ≠ .off ∧ (takeOrder s).find? (mayTake s) = some k ∧ readHead s.mbx k b = .bad n →
      Runs (.commandTake b) s [.out, .now, .freeSeq, .mbx, .flt, .alm, .pmu, .clk, .sup, .fw, .avail, .hubs, .own, .dsd, .usd, .epqs, .links, .sched, .place, .memb, .fab, .u2d, .vig, .fo, .tc, .phy, .pwr, .lane, .dp, .lio, .test]
      (fun t => t = (let r : Req := { ring := k, via := senderOf s.mbx k, flags := 0, tag := 0, target := 0, payload := [], badWord := none }; postReply 0 r { status := stBadCheck, parts := [le 2 n] } { fresh s with mbx := consume k n s.mbx }))) ∧
  (∀ (s : State) (b : Option Nat) (k : Fin 8) (n : Nat) (r : Req), s.sup.ready = true ∧ asleep s = false ∧ s.sup.sysLow = false ∧ s.sup.porLow = false ∧ s.pmu.reported ≠ .off ∧ (takeOrder s).find? (mayTake s) = some k ∧ readHead s.mbx k b = .cmd n 0x0B02 r ∧ Passes specEcho r s ∧ noTarget r = true ∧ FitsRing r (okR r.payload) →
      Runs (.commandTake b) s [.out, .now, .freeSeq, .mbx, .flt, .alm, .pmu, .clk, .sup, .fw, .avail, .hubs, .own, .dsd, .usd, .epqs, .links, .sched, .place, .memb, .fab, .u2d, .vig, .fo, .tc, .phy, .pwr, .lane, .dp, .lio, .test]
      (fun t => t = postReply 0x0B02 r (okR r.payload) { fresh s with mbx := consume k n s.mbx })) ∧
  (∀ (s : State) (b : Option Nat), (takeOrder s).find? (mayTake s) = none →
      Runs (.commandTake b) s [.out, .now, .freeSeq, .mbx, .flt, .alm, .pmu, .clk, .sup, .fw, .avail, .hubs, .own, .dsd, .usd, .epqs, .links, .sched, .place, .memb, .fab, .u2d, .vig, .fo, .tc, .phy, .pwr, .lane, .dp, .lio, .test]
      (fun t => t = fresh s)) ∧
  (∀ (s : State) (e : Cpl0Slot) (l : List Cpl0Slot), s.mbx.cpl0 = e :: l →
      Runs (.cpl0EntryExpiry) s [.out, .now, .mbx]
      (fun t => t = (let lost : Transport → Bool := fun x => decide (x ∈ e.waits); let s1 := advanceTo (e.at_ + 1000000000) (fresh s); let m1 := if lost .spit then setIrq s1.mbx 8 else s1.mbx; let m2 := if lost .i2ct then { m1 with i2cCpl0Lost := true } else m1; let mark : Fin 2 → Mbx → Mbx := fun i m => { m with lmf := m.lmf.set i { m.lmf[i] with cpl0Lost := true, freed := min 0xFFFF (m.lmf[i].freed + 1) } }; let m3 := if lost (.lmf .us0) then mark 0 m2 else m2; let m4 := if lost (.lmf .us1) then mark 1 m3 else m3; { s1 with mbx := flushCpl s1.now 0 (trimCpl0 { m4 with cpl0 := { e with waits := [] } :: l }) }))) ∧
  (∀ (s : State) (a : BitVec 7) (pec : Bool), a = i2ctAddr s ∧ s.sup.ready = true ∧ pec = true →
      Runs (.i2ctStatus a pec) s [.out, .mbx]
      (fun t => t = { fresh s with out := [.i2c (le 2 (i2ctStatusWord s))], mbx := { s.mbx with i2cEvLost := false, i2cCpl0Lost := false, i2cPecErr := false } })) ∧
  (∀ (s : State) (a : BitVec 7) (pec : Bool), a = i2ctAddr s ∧ s.sup.ready = true ∧ pec = false →
      Runs (.i2ctStatus a pec) s [.out, .mbx]
      (fun t => t = { fresh s with out := [.i2cNack], mbx := { s.mbx with i2cPecErr := true } })) ∧
  (∀ (s : State) (a : BitVec 7) (l : List Byte) (pec : Bool), a = i2ctAddr s ∧ i2ctUp s = true ∧ pec = true ∧ 16 ≤ l.length ∧ l.length ≤ 255 ∧ (l.length + 63) / 64 ≤ ringFree s.mbx.rings[(4 : Fin 16)] →
      Runs (.i2ctCmd4Submit a l pec) s [.out, .mbx]
      (fun t => t = { fresh s with mbx := ringAppend 4 l s.mbx })) ∧
  (∀ (s : State) (a : BitVec 7) (l : List Byte) (pec : Bool), a = i2ctAddr s ∧ i2ctUp s = true ∧ pec = true ∧ ringFree s.mbx.rings[(4 : Fin 16)] < (l.length + 63) / 64 →
      Runs (.i2ctCmd4Submit a l pec) s [.out, .mbx]
      (fun t => t = { fresh s with out := [.i2cNack] })) ∧
  (∀ (s : State) (a : BitVec 7) (pec : Bool) (x : List Byte × Nat), a = i2ctAddr s ∧ i2ctUp s = true ∧ pec = true ∧ oldestEntry s.mbx 12 = some x →
      Runs (.i2ctCpl4Fetch a pec) s [.out, .mbx]
      (fun t => t = { fresh s with out := [.i2c x.1], mbx := headWrite s.now 12 (s.mbx.rings[(12 : Fin 16)].head + x.2) s.mbx })) ∧
  (∀ (s : State) (a : BitVec 7) (pec : Bool), a = i2ctAddr s ∧ i2ctUp s = true ∧ pec = true ∧ oldestEntry s.mbx 12 = none →
      Runs (.i2ctCpl4Fetch a pec) s [.out, .mbx]
      (fun t => t = { fresh s with out := [.i2c []] })) ∧
  (∀ (s : State) (a : BitVec 7) (l : List Byte) (pec : Bool), a = i2ctAddr s ∧ i2ctUp s = true ∧ pec = true ∧ 16 ≤ l.length ∧ l.length ≤ 255 ∧ (cmd0Append .i2ct l s.mbx).2 = true →
      Runs (.i2ctCmd0Submit a l pec) s [.out, .mbx]
      (fun t => t = { fresh s with mbx := (cmd0Append .i2ct l s.mbx).1 })) ∧
  (∀ (s : State) (a : BitVec 7) (pec : Bool) (x : List Byte × Cpl0Slot), a = i2ctAddr s ∧ i2ctUp s = true ∧ pec = true ∧ oldestCpl0 .i2ct s.mbx = some x →
      Runs (.i2ctCpl0Fetch a pec) s [.out, .mbx]
      (fun t => t = { fresh s with out := [.i2c (x.1.take (16 + fld x.1 8 2 + 4 * (fld x.1 2 1 % 2)))], mbx := flushCpl s.now 0 (cpl0Consume .i2ct (x.2.idx + x.2.slots) s.mbx) })) ∧
  (∀ (s : State) (n : Nat), 35 ≤ n →
      Runs (.i2ctBusTimeout n) s [.out]
      (fun t => t = { fresh s with out := [.i2cRelease] })) ∧
  (∀ (s : State) (a : BitVec 7) (pec : Bool), a ≠ i2ctAddr s →
      Runs (.i2ctStatus a pec) s [.out, .mbx]
      (fun t => t = fresh s)) ∧
  (∀ (s : State) (a : BitVec 7) (l : List Byte) (pec : Bool), a ≠ i2ctAddr s →
      Runs (.i2ctCmd4Submit a l pec) s [.out, .mbx]
      (fun t => t = fresh s)) ∧
  (∀ (s : State) (a : BitVec 7) (pec : Bool), a ≠ i2ctAddr s →
      Runs (.i2ctCpl4Fetch a pec) s [.out, .mbx]
      (fun t => t = fresh s)) ∧
  (∀ (s : State) (a : BitVec 7) (l : List Byte) (pec : Bool), a ≠ i2ctAddr s →
      Runs (.i2ctCmd0Submit a l pec) s [.out, .mbx]
      (fun t => t = fresh s)) ∧
  (∀ (s : State) (a : BitVec 7) (pec : Bool), a ≠ i2ctAddr s →
      Runs (.i2ctCpl0Fetch a pec) s [.out, .mbx]
      (fun t => t = fresh s))

/-- The control, bulk and interrupt transfers of the LMF, each with its effect (R437, R438, R439, R432). -/
def Obligations.LmfTransportRuns : Prop :=
  (∀ (s : State) (u : US) (n : Nat) (l : List Byte), lmfUp (begun s) u = true ∧ n ≠ 0 ∧ n % 64 = 0 ∧ n ≤ 1024 ∧ prioGo (begun s) u n = true →
      Runs (.lmfCmd0Submit u n l) s [.out, .now, .mbx, .epqs, .links, .sched]
      (fun t => t = (let x := cmd0Append (.lmf u) (slice l 0 n) (begun s).mbx; if x.2 then { emit (.control u []) (prioCharge u n (begun s)) with mbx := x.1 } else emit (.stall u) (begun s)))) ∧
  (∀ (s : State) (u : US) (n : Nat) (l : List Byte), lmfUp (begun s) u = true ∧ (n = 0 ∨ n % 64 ≠ 0 ∨ 1024 < n) →
      Runs (.lmfCmd0Submit u n l) s [.out, .now, .mbx, .epqs, .links, .sched]
      (fun t => t = emit (.stall u) (begun s))) ∧
  (∀ (s : State) (u : US) (n : Nat) (l : List Byte), lmfUp (begun s) u = true ∧ n ≠ 0 ∧ n % 64 = 0 ∧ n ≤ 1024 ∧ prioGo (begun s) u n = false →
      Runs (.lmfCmd0Submit u n l) s [.out, .now, .mbx, .epqs, .links, .sched]
      (fun t => t = emit (.nak u) (begun s))) ∧
  (∀ (s : State) (u : US) (n : Nat) (x : List Byte × Cpl0Slot), lmfUp (begun s) u = true ∧ 64 ≤ n ∧ n ≤ 1024 ∧ n % 64 = 0 ∧ oldestCpl0 (.lmf u) (begun s).mbx = some x ∧ 64 * x.2.slots ≤ n ∧ prioGo (begun s) u (takeCpl0 u (begun s).mbx n (begun s).mbx.cpl0).1.length = true →
      Runs (.lmfCpl0Fetch u n) s [.out, .now, .mbx, .epqs, .links, .sched]
      (fun t => t = (let y := takeCpl0 u (begun s).mbx n (begun s).mbx.cpl0; { emit (.control u y.1) (prioCharge u y.1.length (begun s)) with mbx := flushCpl (begun s).now 0 (cpl0Consume (.lmf u) (y.2 % 65536) (begun s).mbx) }))) ∧
  (∀ (s : State) (u : US), lmfUp (begun s) u = true →
      Runs (.lmfRingStatus u) s [.out, .now, .mbx, .epqs, .links, .sched]
      (fun t => t = (let m := (begun s).mbx; let c := m.rings[cmdRing (lmfPair u)]; let p := m.rings[cplRing (lmfPair u)]; let l := m.lmf[u.idx]; { emit (.control u (le 2 c.head ++ le 2 c.tail ++ le 2 p.head ++ le 2 p.tail ++ le 2 m.cpl0Idx[viaIdx (.lmf u)] ++ le 2 0 ++ le 2 l.merged ++ le 2 l.freed)) (begun s) with mbx := setLmf u { l with merged := 0, freed := 0, evLost := false, cpl0Lost := false, restarted := false } m }))) ∧
  (∀ (s : State) (u : US), lmfUp (begun s) u = true →
      Runs (.lmfRingReset u) s [.out, .now, .mbx, .epqs, .links, .sched]
      (fun t => t = { emit (.control u []) (begun s) with mbx := ringReset (begun s).now [] (lmfPair u) (begun s).mbx })) ∧
  (∀ (s : State) (u : US) (l : List Byte) (e : Bool), lmfUp (begun s) u = true ∧ l.length ≤ lmfBulkMps (begun s) u ∧ (((begun s).mbx.lmf[u.idx].rx ++ l).length + 63) / 64 ≤ ringFree (begun s).mbx.rings[cmdRing (lmfPair u)] ∧ tagFree (begun s) 3 none = true →
      Runs (.lmfBulkOut u l e) s [.out, .now, .mbx, .epqs, .links, .sched]
      (fun t => t = (let m := (begun s).mbx; let x := m.lmf[u.idx]; { emit (.ack u) (begun s) with mbx := if e then setLmf u { x with rx := [] } (ringAppend (lmfPair u) (x.rx ++ l) m) else setLmf u { x with rx := x.rx ++ l } m }))) ∧
  (∀ (s : State) (u : US) (l : List Byte) (e : Bool), lmfUp (begun s) u = true ∧ l.length ≤ lmfBulkMps (begun s) u ∧ (ringFree (begun s).mbx.rings[cmdRing (lmfPair u)] < (((begun s).mbx.lmf[u.idx].rx ++ l).length + 63) / 64 ∨ tagFree (begun s) 3 none = false) →
      Runs (.lmfBulkOut u l e) s [.out, .now, .mbx, .epqs, .links, .sched]
      (fun t => t = emit (.nak u) (begun s))) ∧
  (∀ (s : State) (u : US), lmfUp (begun s) u = true ∧ ringCount (begun s).mbx.rings[cplRing (lmfPair u)] ≠ 0 ∧ tagFree (begun s) 3 none = true →
      Runs (.lmfBulkIn u) s [.out, .now, .mbx, .epqs, .links, .sched]
      (fun t => t = (let r := cplRing (lmfPair u); let m := (begun s).mbx; let g := m.rings[r]; { lmfPackets u (readSlots g m.mem g.head (ringCount g)) (begun s) with mbx := headWrite (begun s).now r g.tail m }))) ∧
  (∀ (s : State) (u : US), lmfUp (begun s) u = true ∧ (ringCount (begun s).mbx.rings[cplRing (lmfPair u)] = 0 ∨ tagFree (begun s) 3 none = false) →
      Runs (.lmfBulkIn u) s [.out, .now, .mbx, .epqs, .links, .sched]
      (fun t => t = emit (.nak u) (begun s))) ∧
  (∀ (s : State) (u : US), lmfUp (begun s) u = true ∧ lmfReport (begun s) u ≠ (begun s).mbx.lmf[u.idx].lastReport ∧ (begun s).mbx.lmf[u.idx].reportAt ≠ some ((begun s).now / 125000) ∧ tagFree (begun s) 2 none = true →
      Runs (.lmfInterruptReport u) s [.out, .now, .mbx, .epqs, .links, .sched]
      (fun t => t = (let d := lmfReport (begun s) u; { emit (.report u d) (begun s) with mbx := setLmf u { (begun s).mbx.lmf[u.idx] with lastReport := d, reportAt := some ((begun s).now / 125000) } (begun s).mbx }))) ∧
  (∀ (s : State) (u : US), lmfUp (begun s) u = true →
      Runs (.lmfSetConfiguration u) s [.out, .now, .mbx, .epqs, .links, .sched]
      (fun t => t = (let l := (begun s).mbx.lmf[u.idx]; let m := setLmf u { l with configured := true, resetDue := false, rx := [] } (begun s).mbx; { emit (.control u []) (begun s) with mbx := if l.resetDue then ringReset (begun s).now [] (lmfPair u) m else m })))

/-- IDENTIFY, the mode commands, the reads of lane time and wake record, and ECHO, each with its effect (R449, R424, R394, R400,
R429). -/
def Obligations.SystemCommandsRun : Prop :=
  (∀ (s : State) (r : Req), Passes specIdentify r s ∧ noTarget r = true ∧ FitsRing r (okR (identifyResult s)) →
      Runs (.identify r) s [.out, .mbx]
      (fun t => t = postReply 0x0101 r (okR (identifyResult s)) (fresh s))) ∧
  (∀ (s : State) (r : Req), Passes specModeStatus r s ∧ noTarget r = true ∧ FitsRing r (okR (le 4 (modeStatWord s) ++ le 4 (modeSelWord s) ++ le 8 (unavailNs s) ++ le 8 s.avail.since ++ le 4 s.avail.events)) →
      Runs (.modeStatus r) s [.out, .mbx]
      (fun t => t = postReply 0x0103 r (okR (le 4 (modeStatWord s) ++ le 4 (modeSelWord s) ++ le 8 (unavailNs s) ++ le 8 s.avail.since ++ le 4 s.avail.events)) (fresh s))) ∧
  (∀ (s : State) (r : Req), Passes specLaneTimeRead r s ∧ noTarget r = true ∧ FitsRing r (okR (le 8 s.now ++ le 1 (laneQuality s) ++ [0] ++ le 2 s.clk.epoch ++ le 4 (min 0xFFFFFFFF (boundNow s / 1000000)) ++ le 1 s.clk.sleepQuality ++ [0, 0, 0] ++ le 8 s.clk.sleepElapsed)) →
      Runs (.laneTimeRead r) s [.out, .mbx]
      (fun t => t = postReply 0x0104 r (okR (le 8 s.now ++ le 1 (laneQuality s) ++ [0] ++ le 2 s.clk.epoch ++ le 4 (min 0xFFFFFFFF (boundNow s / 1000000)) ++ le 1 s.clk.sleepQuality ++ [0, 0, 0] ++ le 8 s.clk.sleepElapsed)) (fresh s))) ∧
  (∀ (s : State) (r : Req), Passes specWakeRecordRead r s ∧ noTarget r = true ∧ FitsRing r (okR ((wakeWords s.wake).flatMap (le 4))) →
      Runs (.wakeRecordRead r) s [.out, .mbx]
      (fun t => t = postReply 0x0105 r (okR ((wakeWords s.wake).flatMap (le 4))) (fresh s))) ∧
  (∀ (s : State) (r : Req), Passes specEcho r s ∧ noTarget r = true ∧ FitsRing r (okR r.payload) →
      Runs (.echo r) s [.out, .mbx]
      (fun t => t = postReply 0x0B02 r (okR r.payload) (fresh s))) ∧
  (∀ (s : State) (r : Req) (m : Mode), Passes specModeRequest r s ∧ accFull r s = false ∧ idMode (fld r.payload 0 1) = some m ∧ targetAccepted s m = true ∧ noTarget r = true ∧ (modeLevel m).isSome = true ∧ sleepMode m = false ∧ fld r.payload 4 8 = 0 ∧ bit (fld r.payload 1 1) 0 = false ∧ FitsRing r (requestRun m (fresh s)).2 →
      Runs (.modeRequest r) s [.out, .freeSeq, .mbx, .flt, .alm, .pmu, .fw, .avail, .hubs, .own, .dsd, .usd, .epqs, .links, .sched, .place, .memb, .fab, .u2d, .vig, .fo, .tc, .phy, .pwr, .lane, .dp, .test]
      (fun t => t = postReply 0x0102 r (requestRun m (fresh s)).2 (requestRun m (fresh s)).1)) ∧
  (∀ (s : State) (r : Req) (m : Mode), Passes specModeRequest r s ∧ accFull r s = false ∧ idMode (fld r.payload 0 1) = some m ∧ targetAccepted s m = true ∧ noTarget r = true ∧ (modeLevel m).isSome = false ∧ sleepMode m = true ∧ bit (fld r.payload 1 1) 0 = false ∧ FitsRing r (requestSleep { target := m, opp := 0, req := none, alarm := fld r.payload 4 8 } (fresh s)).2 →
      Runs (.modeRequest r) s [.out, .freeSeq, .mbx, .flt, .alm, .pmu, .fw, .avail, .hubs, .own, .dsd, .usd, .epqs, .links, .sched, .place, .memb, .fab, .u2d, .vig, .fo, .tc, .phy, .pwr, .lane, .dp, .test]
      (fun t => t = postReply 0x0102 r (requestSleep { target := m, opp := 0, req := none, alarm := fld r.payload 4 8 } (fresh s)).2 (requestSleep { target := m, opp := 0, req := none, alarm := fld r.payload 4 8 } (fresh s)).1))

/-- PORT_ASSIGN, PORT_STATUS, GUARD_RULE_SET and GUARD_STATUS, each with its effect (R450, R451, R461, R476). -/
def Obligations.PortAndGuardCommandsRun : Prop :=
  (∀ (s : State) (r : Req) (d : DS) (o : Option US), Passes specPortAssign r s ∧ accFull r s = false ∧ targetDs r = some d ∧ codeOwner (fld r.payload 0 1) = some o ∧ o ≠ ownerOf s d ∧ (∀ u, o = some u → (if (hubOf s u).connected then (hubOf s u).active else (hubOf s u).conf).contains (.port d) = true) ∧ fld r.payload 1 1 ≤ 1 ∧ fld r.payload 2 1 = 0 ∧ fld r.payload 20 16 = 0 ∧ isSealed s d = false ∧ (∀ u, reqHub r = some u → ownerOf s d ≠ some u.other ∧ o ≠ some u.other) ∧ portFenced s (dsPort d) = false ∧ s.own.move[d] = none →
      Runs (.portAssign r) s [.out, .freeSeq, .mbx, .flt, .alm, .pmu, .fw, .avail, .hubs, .own, .dsd, .usd, .epqs, .links, .sched, .place, .fab, .u2d, .vig, .fo]
      (fun t => t = postReply 0x0201 r (accR (.assign d)) { fresh s with own := { s.own with move := s.own.move.set d (some { dest := o, keep := decide (fld r.payload 1 1 = 1) && keepPossible s d o, phase := 1, startAt := s.now, cause := 0, old := ownerOf s d }) } })) ∧
  (∀ (s : State) (r : Req) (p : Port), Passes specPortStatus r s ∧ targetPort r = some p ∧ openGate r s p = none ∧ FitsRing r (okR (portBytes s p)) →
      Runs (.portStatus r) s [.out, .mbx]
      (fun t => t = postReply 0x0202 r (okR (portBytes s p)) (fresh s))) ∧
  (∀ (s : State) (r : Req), Passes specGuardRuleSet r s ∧ noTarget r = true ∧ fld r.payload 0 2 ≤ 255 ∧ r.badWord = none ∧ (almRead s (0x700 + 4 * fld r.payload 0 2 + 3)).toNat / 2 ^ 24 ≠ 0x5A ∧ FitsRing r (okR []) →
      Runs (.guardRuleSet r) s [.out, .freeSeq, .mbx, .flt, .alm, .pmu, .fw, .avail, .vig]
      (fun t => t = (let b := 0x700 + 4 * fld r.payload 0 2; let x := persist ((List.range 4).map (fun j => (b + j, BitVec.ofNat 32 (fld r.payload (4 + 4 * j) 4)))) none (fresh s); postReply 0x0203 r (errR x.2) (if x.2 = stOk then skipRule (fld r.payload 0 2) x.1 else x.1)))) ∧
  (∀ (s : State) (r : Req) (p : Port), Passes specGuardStatus r s ∧ targetPort r = some p ∧ openGate r s p = none ∧ FitsRing r (okR (guardBytes s p)) →
      Runs (.guardStatus r) s [.out, .mbx]
      (fun t => t = postReply 0x0701 r (okR (guardBytes s p)) (fresh s)))

/-- The scheduling, metering and observation commands, each with its effect (R452, R453, R216, R212). -/
def Obligations.SchedulingCommandsRun : Prop :=
  (∀ (s : State) (r : Req), Passes specSchedSet r s ∧ fld r.payload 0 1 = 1 ∧ noTarget r = true ∧ 25 ≤ fld r.payload 4 1 ∧ fld r.payload 4 1 ≤ 95 ∧ 1 ≤ fld r.payload 6 2 ∧ fld r.payload 6 2 ≤ 4096 ∧ FitsRing r (okR r.payload) →
      Runs (.schedSet r) s [.out, .now, .mbx, .epqs, .links, .sched, .fab]
      (fun t => t = postReply 0x0301 r (okR r.payload) { fresh s with sched := { s.sched with spillPct := fld r.payload 4 1, sampleNew := fld r.payload 6 2 } })) ∧
  (∀ (s : State) (r : Req) (d : DS) (q : Nat × Epq), Passes specSchedSet r s ∧ fld r.payload 0 1 = 0 ∧ targetDs r = some d ∧ fld r.payload 10 2 ≤ 1024 ∧ qselQueue s d r.payload 4 = some q ∧ dsGate r s d = none ∧ r.ring.val ≠ 4 →
      Runs (.schedSet r) s [.out, .now, .mbx, .epqs, .links, .sched, .fab]
      (fun t => t = (let c : Nat → Nat → Nat := fun n k => if n = 0 then k else n; let s1 := settle (modEpq q.1 (fun e => { e with weight := fld r.payload 8 1, capTags := c (fld r.payload 10 2) 32, capPkb := c (fld r.payload 12 4) 131072, capSpill := c (fld r.payload 16 4) 16777216 }) (fresh s)); let e := (epqOf s1 q.1).getD q.2; postReply 0x0301 r (okR (slice r.payload 0 8 ++ le 1 e.weight ++ [0] ++ le 2 e.capTags ++ le 4 e.capPkb ++ le 4 e.capSpill)) s1))) ∧
  (∀ (s : State) (r : Req) (d : DS) (q : Nat × Epq), Passes specShaperSet r s ∧ accFull r s = false ∧ targetDs r = some d ∧ qselQueue s d r.payload 0 = some q ∧ meterOk (meterOf r.payload) 1 = true ∧ 2 ≤ q.2.cls ∧ dsGate r s d = none →
      Runs (.shaperSet r) s [.out, .now, .mbx, .epqs, .links, .sched]
      (fun t => t = postReply 0x0302 r (accR (.shaper q.1)) (modEpq q.1 (fun e => { e with shaperNew := some (meterOf r.payload) }) (finalCpl (.shaper q.1) stSuperseded [] (dueTick (fresh s)))))) ∧
  (∀ (s : State) (r : Req) (d : DS) (q : Nat × Epq), Passes specPolicerSet r s ∧ accFull r s = false ∧ targetDs r = some d ∧ qselQueue s d r.payload 0 = some q ∧ meterOk (meterOf r.payload) 2 = true ∧ q.2.cls ≠ 0 ∧ dsGate r s d = none →
      Runs (.policerSet r) s [.out, .now, .mbx, .epqs, .links, .sched]
      (fun t => t = postReply 0x0303 r (accR (.policer q.1)) (modEpq q.1 (fun e => { e with policerNew := some (meterOf r.payload) }) (finalCpl (.policer q.1) stSuperseded [] (dueTick (fresh s)))))) ∧
  (∀ (s : State) (r : Req) (p : Port), Passes specObserveRead r s ∧ bit (fld r.payload 4 1) 2 = true ∧ bit (fld r.payload 4 1) 1 = false ∧ fld r.payload 0 4 = 0 ∧ targetPort r = some p ∧ p.val ≤ 9 ∧ portGate r s p = none ∧ FitsRing r (okR ((linkOf s p).busy.flatMap (le 8))) →
      Runs (.observeRead r) s [.out, .mbx, .epqs]
      (fun t => t = postReply 0x0304 r (okR ((linkOf s p).busy.flatMap (le 8))) (fresh s))) ∧
  (∀ (s : State) (r : Req) (d : DS) (q : Nat × Epq), Passes specObserveRead r s ∧ bit (fld r.payload 4 1) 2 = false ∧ bit (fld r.payload 4 1) 0 = false ∧ targetDs r = some d ∧ dsGate r s d = none ∧ qselQueue s d r.payload 0 = some q ∧ r.ring.val ≠ 4 →
      Runs (.observeRead r) s [.out, .mbx, .epqs]
      (fun t => t = (let s1 := touchEpq q.1 (fresh s); let e := (epqOf s1 q.1).getD q.2; postReply 0x0304 r (okR (queuePart s1 q.1 e ++ (if bit (fld r.payload 4 1) 1 then samplePart e else []))) s1)))

/-- The placement commands, each with its effect (R454, R223, R225). -/
def Obligations.PlacementCommandsRun : Prop :=
  (∀ (s : State) (r : Req), Passes specPlaceStatus r s ∧ noTarget r = true ∧ fld r.payload 0 2 + fld r.payload 2 2 ≤ 512 →
      Runs (.placeStatus r) s [.out, .mbx]
      (fun t => t = (let p := s.place; postReply 0x0401 r (okR (le 4 p.swaps ++ le 4 p.minimal ++ le 4 p.restarts ++ le 4 p.abandoned ++ le 4 p.moves ++ le 1 (b2n p.frozen) ++ [0, 0, 0] ++ le 8 p.lastSwap ++ p.load.flatMap (le 1) ++ p.tagHw.flatMap (le 1) ++ (List.range (fld r.payload 2 2)).flatMap (fun i => le 4 (plEntry s (fld r.payload 0 2 + i))))) (fresh s)))) ∧
  (∀ (s : State) (r : Req) (d : DS) (q : Nat × Epq), Passes specPlacePin r s ∧ accFull r s = false ∧ targetDs r = some d ∧ qselQueue s d r.payload 0 = some q ∧ fld r.payload 4 1 = 2 ∧ fld r.payload 5 1 = 0 ∧ fld r.payload 6 1 < 8 ∧ fld r.payload 7 1 ≤ 1 ∧ dsGate r s d = none →
      Runs (.placePin r) s [.out, .mbx, .place]
      (fun t => t = postReply 0x0402 r (accR (.pin q.1)) (modPlace (fun x => { x with pins := tabPut x.pins q.1 (none, some (some (fld r.payload 7 1))), rebuild := x.rebuild.map (fun b => { b with pins := b.pins.filter (· ≠ q.1) }) }) (finalCpl (.pin q.1) stSuperseded [] (fresh s))))) ∧
  (∀ (s : State) (r : Req), Passes specPlaceRebuild r s ∧ accFull r s = false ∧ noTarget r = true ∧ fld r.payload 0 1 = 0 →
      Runs (.placeRebuild r) s [.out, .mbx, .place]
      (fun t => t = postReply 0x0403 r (accR .rebuild) (modPlace (fun p => { p with nowReq := true, rebuild := p.rebuild.map (fun b => { b with now_ := false }) }) (finalCpl .rebuild stSuperseded [] (fresh s))))) ∧
  (∀ (s : State) (r : Req), Passes specPlaceRebuild r s ∧ noTarget r = true ∧ (fld r.payload 0 1 = 1 ∨ fld r.payload 0 1 = 2) →
      Runs (.placeRebuild r) s [.out, .mbx, .place]
      (fun t => t = postReply 0x0403 r (okR []) (modPlace (fun p => { p with frozen := decide (fld r.payload 0 1 = 1) }) (fresh s))))

/-- The Vigil and failover commands, each with its effect (R455, R456, R457, R458, R239, R261). -/
def Obligations.VigilCommandsRun : Prop :=
  (∀ (s : State) (r : Req), Passes (specVigilPolicySet r) r s ∧ noTarget r = true ∧ bit (fld r.payload 0 1) 0 = false ∧ 10 ≤ fld r.payload 2 2 ∧ fld r.payload 2 2 ≤ 1000 ∧ 1 ≤ fld r.payload 4 4 ∧ fld r.payload 4 4 ≤ 86400 ∧ 1 ≤ fld r.payload 8 2 ∧ fld r.payload 8 2 ≤ 16 →
      Runs (.vigilPolicySet r) s [.out, .freeSeq, .mbx, .flt, .alm, .pmu, .fw, .avail, .epqs, .place, .u2d, .vig]
      (fun t => t = postReply 0x0501 r (okR []) (modVig (fun v => { v with tAbsent := fld r.payload 2 2, hold := fld r.payload 4 4, capRegion := fld r.payload 8 2, regionSet := true }) (fresh s)))) ∧
  (∀ (s : State) (r : Req), Passes specVigilArm r s ∧ noTarget r = true ∧ fld r.payload 2 2 ≤ 1 ∧ (allDs.filter (fun d => bit (fld r.payload 0 2) d.val)).any (isSealed s) = false ∧ (allDs.filter (fun d => bit (fld r.payload 0 2) d.val)).any (elsewhere r s) = false →
      Runs (.vigilArm r) s [.out, .mbx, .epqs, .place, .u2d, .vig]
      (fun t => t = (let s1 := (allDs.filter (fun d => bit (fld r.payload 0 2) d.val)).foldl (fun y d => armPort (fld r.payload 2 2 == 1) d y) (fresh s); postReply 0x0502 r (okR (le 2 ((allDs.map (fun d => if isArmed s1 d then 2 ^ d.val else 0)).foldl (· + ·) 0))) s1))) ∧
  (∀ (s : State) (r : Req) (d : DS), Passes specVigilStatus r s ∧ targetDs r = some d ∧ dsGate r s d = none ∧ FitsRing r (okR (vigilPortForm s d)) →
      Runs (.vigilStatus r) s [.out, .mbx]
      (fun t => t = postReply 0x0503 r (okR (vigilPortForm s d)) (fresh s))) ∧
  (∀ (s : State) (r : Req) (u : US), Passes specVigilStatus r s ∧ targetUs r = some u ∧ usGate r u = none ∧ FitsRing r (okR (vigilHubForm s u)) →
      Runs (.vigilStatus r) s [.out, .mbx]
      (fun t => t = postReply 0x0503 r (okR (vigilHubForm s u)) (fresh s))) ∧
  (∀ (s : State) (r : Req) (d : DS), Passes specCaptureRead r s ∧ targetDs r = some d ∧ dsGate r s d = none ∧ s.vig.rings[d].alloc = 0 ∧ 1 ≤ fld r.payload 8 2 ∧ fld r.payload 8 2 ≤ 4096 ∧ bit (fld r.payload 10 1) 0 = false →
      Runs (.captureRead r) s [.out, .mbx, .vig]
      (fun t => t = (let g := s.vig.rings[d]; let start := if fld r.payload 0 8 = 0 then g.readSeq else fld r.payload 0 8; let part := if bit r.flags.toNat 0 then 976 else 992; let sel := g.recs.filter (fun x => x.typ != 0 && decide (x.seq ≥ start) && (!bit (fld r.payload 10 1) 1 || bit x.flags 0)); let got := fitRecs (256 * part) (sel.take (fld r.payload 8 2)); let next := match got.getLast? with | some x => x.seq + 1 | none => g.nextSeq; let cs := chunks part (got.flatMap (capBytes d)); postReply 0x0504 r { status := stOk, parts := cs.mapIdx (fun i b => le 2 i ++ [0, 0] ++ le 4 b.length ++ le 8 (if i + 1 = cs.length then next else 0) ++ b) } (fresh s)))) ∧
  (∀ (s : State) (r : Req) (u : US), Passes specFailoverSet r s ∧ targetUs r = some u ∧ reqHub r ≠ some u.other ∧ (fld r.payload 0 1 = 0 ∨ codeUs (fld r.payload 0 1) = some u.other) ∧ fld r.payload 1 1 ≤ 1 ∧ fld r.payload 2 1 ≤ 100 ∧ bit (fld r.payload 3 1) 0 = false ∧ fld r.payload 4 2 ≤ 1000 ∧ 1 ≤ fld r.payload 6 2 ∧ fld r.payload 6 2 ≤ 3600 ∧ (portList (fld r.payload 8 1) (slice r.payload 9 15)).isSome = true →
      Runs (.failoverSet r) s [.out, .freeSeq, .mbx, .flt, .alm, .pmu, .fw, .avail, .fo]
      (fun t => t = postReply 0x0505 r (okR []) (modFo u (fun f => { f with rcd := foRecord u (slice r.payload 0 3 ++ slice r.payload 4 20) }) (fresh s)))) ∧
  (∀ (s : State) (r : Req) (u : US) (l : List DS), Passes specFailback r s ∧ accFull r s = false ∧ targetUs r = some u ∧ reqHub r ≠ some u.other ∧ portList (fld r.payload 0 1) (slice r.payload 1 15) = some l ∧ backOrder s u ≠ [] ∧ l.any (fun d => homeOf s d != some u) = false ∧ ((hubOf s u).state = .attached ∨ (hubOf s u).state = .suspended) ∧ (foOf s u).back = none →
      Runs (.failback r) s [.out, .mbx, .usd, .fo]
      (fun t => t = postReply 0x0506 r (accR (.failback u)) (startBack u true (if l.isEmpty then backOrder s u else (backOrder s u).filter (fun d => l.contains d)) (fresh s))))

/-- The power, role-swap, display-route and drawer commands, each with its effect (R459, R460, R330, R329, R351, R461). -/
def Obligations.PowerAndDisplayCommandsRun : Prop :=
  (∀ (s : State) (r : Req), Passes specPowerBudgetSet r s ∧ accFull r s = false ∧ noTarget r = true ∧ fld r.payload 0 2 ≤ 30000 ∧ bit (fld r.payload 2 1) 0 = false →
      Runs (.powerBudgetSet r) s [.out, .freeSeq, .mbx, .flt, .alm, .pmu, .fw, .avail, .hubs, .dsd, .usd, .epqs, .links, .sched, .place, .fab, .u2d, .vig, .tc, .phy, .pwr, .lane, .dp]
      (fun t => t = (let s1 := finalCpl .budget stSuperseded [] (fresh s); budgetDone (postReply 0x0601 r (accR .budget) (runAlloc { s1 with lane := { s1.lane with budget := fld r.payload 0 2 * 100 } }))))) ∧
  (∀ (s : State) (r : Req) (p : Port), Passes (specPortPowerPolicy r) r s ∧ targetPort r = some p ∧ policyOk p (fld r.payload 0 2) r.payload = true ∧ (if powerOffForm r.payload then openGate r s p else portGate r s p) = none ∧ bit (fld r.payload 2 1) 0 = false →
      Runs (.portPowerPolicy r) s [.out, .freeSeq, .mbx, .flt, .alm, .pmu, .clk, .fw, .avail, .hubs, .own, .dsd, .usd, .epqs, .links, .sched, .place, .memb, .fab, .u2d, .vig, .fo, .tc, .phy, .pwr, .lane, .dp, .lio, .test]
      (fun t => t = postReply 0x0602 r (okR []) (policyApply p (fld r.payload 0 2) (policyWith (fld r.payload 0 2) r.payload (pwrOf s p).pol) (fresh s)))) ∧
  (∀ (s : State) (r : Req) (p : Port), Passes specContractStatus r s ∧ targetPort r = some p ∧ openGate r s p = none ∧ FitsRing r (okR (contractBytes s p)) →
      Runs (.contractStatus r) s [.out, .mbx]
      (fun t => t = postReply 0x0603 r (okR (contractBytes s p)) (fresh s))) ∧
  (∀ (s : State) (r : Req) (u : US), Passes specRoleSwap r s ∧ accFull r s = false ∧ targetUs r = some u ∧ usGate r u = none ∧ fld r.payload 0 1 ≤ 2 ∧ portFenced s (usPort u) = false ∧ thymeDown s (usPort u) = false ∧ (pwrOf s (usPort u)).swap = none ∧ accBusy (.roleSwap u) s = false ∧ swapRefused s (usPort u) = false →
      Runs (.roleSwap r) s [.out, .mbx, .tc, .phy, .pwr]
      (fun t => t = roleSwapDone .us1 (roleSwapDone .us0 (postReply 0x0604 r (accR (.roleSwap u)) (sendSwap (usPort u) (fld r.payload 0 1) (modPwr (usPort u) (fun x => { x with swap := some { kind := fld r.payload 0 1, ours := true, at_ := s.now } }) (fresh s))))))) ∧
  (∀ (s : State) (r : Req) (i : Fin 2), Passes specDpRoute r s ∧ accFull r s = false ∧ dpRouteOk s r = true ∧ fld r.payload 0 1 = i.val ∧ dpGate r s i = none ∧ blockFenced s .dpx = false ∧ unitFenced s .dpx (.route i.val) = false ∧ bit (fld r.payload 4 1) 0 = false →
      Runs (.dpRoute r) s [.out, .freeSeq, .mbx, .flt, .alm, .pmu, .fw, .avail, .phy, .dp]
      (fun t => t = (let s1 := dpStop i 0 (finalCpl (.dpRoute i) stSuperseded [] (fresh s)); let o := codeDs (fld r.payload 1 1); let b := match o with | some d => explicit s1 (dsPort d) && isSource s1 (dsPort d) | none => false; dpCleared 1 (dpCleared 0 (postReply 0x0702 r (accR (.dpRoute i)) (modDp i (fun x => { port := o, pref := fld r.payload 2 1, eq := sbyte (fld r.payload 3 1), due := if b then some s.now else none, lowAt := x.lowAt, irqLast := x.irqLast }) s1)))))) ∧
  (∀ (s : State) (r : Req) (i : Fin 2), Passes specDrawerKick r s ∧ accFull r s = false ∧ noTarget r = true ∧ fld r.payload 0 1 = i.val ∧ 5 ≤ fld r.payload 1 1 ∧ fld r.payload 1 1 ≤ 20 ∧ blockFenced s .lio = false ∧ unitFenced s .lio (.output i.val) = false ∧ s.sup.ballsFloat = false ∧ s.lio.kick[(0 : Fin 2)].pulse = none ∧ s.lio.kick[(1 : Fin 2)].pulse = none ∧ s.lio.kick[i].lockUntil ≤ s.now →
      Runs (.drawerKick r) s [.out, .mbx, .lio]
      (fun t => t = postReply 0x0703 r (accR (.kick i)) (modKick i (fun k => { k with pulse := some (s.now, s.now + fld r.payload 1 1 * 10000000), report := some (s.now, false), silent := false }) (fresh s))))

/-- The fault and fence commands, each with its effect (R462, R421, R403, R404). -/
def Obligations.FaultAndFenceCommandsRun : Prop :=
  (∀ (s : State) (r : Req) (b : Block), Passes specFaultRead r s ∧ r.target ≠ 0xFF ∧ targetBlock r = some b ∧ FitsRing r (okR ([1, 0, 0, 0] ++ faultEntry s b)) →
      Runs (.faultRead r) s [.out, .mbx]
      (fun t => t = postReply 0x0801 r (okR ([1, 0, 0, 0] ++ faultEntry s b)) (fresh s))) ∧
  (∀ (s : State) (r : Req), Passes specFaultRead r s ∧ r.target = 0xFF ∧ FitsRing r (okR (le 1 (pendingBlocks s).length ++ [0, 0, 0] ++ (pendingBlocks s).flatMap (faultEntry s))) →
      Runs (.faultRead r) s [.out, .mbx]
      (fun t => t = postReply 0x0801 r (okR (le 1 (pendingBlocks s).length ++ [0, 0, 0] ++ (pendingBlocks s).flatMap (faultEntry s))) (fresh s))) ∧
  (∀ (s : State) (r : Req) (b : Block), Passes specFaultAck r s ∧ targetBlock r = some b ∧ FitsRing r (okR []) →
      Runs (.faultAck r) s [.out, .mbx, .flt]
      (fun t => t = postReply 0x0802 r (okR []) (ackWrite b (fld r.payload 0 1) (fresh s)))) ∧
  (∀ (s : State) (r : Req) (b : Block), Passes specFaultInject r s ∧ targetBlock r = some b ∧ (∀ n < 32, bit (fld r.payload 0 4) n = true → (srcClass b n).isSome = true) ∧ fld r.payload 4 4 = 0xFFFFFFFF →
      Runs (.faultInject r) s [.out, .freeSeq, .mbx, .flt, .alm, .pmu, .clk, .fw, .avail, .hubs, .dsd, .usd, .epqs, .links, .sched, .place, .memb, .fab, .u2d, .vig, .tc, .phy, .pwr, .dp, .lio, .test]
      (fun t => t = postReply 0x0803 r (okR []) (injectFaults b (fld r.payload 0 4) none (fresh s)))) ∧
  (∀ (s : State) (r : Req) (b : Block) (k : FUnit), Passes specFence r s ∧ targetBlock r = some b ∧ fenceUnit b (fld r.payload 0 4) = some k ∧ lastChervil s b = false ∧ blockSealed s b = false →
      Runs (.fence r) s [.out, .freeSeq, .mbx, .flt, .pmu, .clk, .fw, .avail, .hubs, .dsd, .usd, .epqs, .links, .sched, .place, .memb, .fab, .u2d, .vig, .tc, .phy, .pwr, .dp, .lio, .test]
      (fun t => t = postReply 0x0804 r (okR []) (fenceNow b k (fld r.payload 0 4) (fresh s)))) ∧
  (∀ (s : State) (r : Req) (b : Block), Passes specUnfence r s ∧ targetBlock r = some b →
      Runs (.unfence r) s [.out, .mbx, .flt, .pmu, .fw, .avail, .hubs, .own, .dsd, .usd, .epqs, .links, .sched, .place, .fab, .u2d, .vig, .fo, .tc, .phy, .pwr, .lane, .dp]
      (fun t => t = postReply 0x0805 r (okR []) (unfenceNow b (fresh s))))

/-- The Almanac and firmware commands, each with its effect (R463, R464, R473, R474, R477, R481). -/
def Obligations.AlmanacAndFirmwareCommandsRun : Prop :=
  (∀ (s : State) (r : Req), Passes specAlmanacRead r s ∧ noTarget r = true ∧ 1 ≤ fld r.payload 2 2 ∧ fld r.payload 2 2 ≤ 250 ∧ fld r.payload 0 2 + fld r.payload 2 2 ≤ 4096 ∧ ((List.range (fld r.payload 2 2)).map (fld r.payload 0 2 + ·)).any almWithheld = false ∧ FitsRing r (okR (((List.range (fld r.payload 2 2)).map (fld r.payload 0 2 + ·)).flatMap (fun w => le 4 (almRead s w).toNat))) →
      Runs (.almanacRead r) s [.out, .mbx]
      (fun t => t = postReply 0x0901 r (okR (((List.range (fld r.payload 2 2)).map (fld r.payload 0 2 + ·)).flatMap (fun w => le 4 (almRead s w).toNat))) (fresh s))) ∧
  (∀ (s : State) (r : Req), Passes specAlmanacWrite r s ∧ almAccessOk s r.ring (fld r.payload 0 2) (writeWords r) = true ∧ noTarget r = true ∧ fld r.payload 0 2 + (writeWords r).length ≤ 4096 ∧ ((writeWords r).mapIdx (fun i v => (fld r.payload 0 2 + i, almStored s (fld r.payload 0 2 + i) v))).all (fun e => almListed e.1) = true ∧ ((writeWords r).mapIdx (fun i v => (fld r.payload 0 2 + i, almStored s (fld r.payload 0 2 + i) v))).any (fun e => wordFenced s e.1) = false ∧ almExhausted s.alm ((writeWords r).mapIdx (fun i v => (fld r.payload 0 2 + i, almStored s (fld r.payload 0 2 + i) v))) = false →
      Runs (.almanacWrite r) s [.out, .freeSeq, .mbx, .flt, .alm, .pmu, .fw, .avail]
      (fun t => t = (let l := (writeWords r).mapIdx (fun i v => (fld r.payload 0 2 + i, almStored s (fld r.payload 0 2 + i) v)); let x := almCarry l r.badWord (fresh s); postReply 0x0902 r { status := if x.2 = l.length then stOk else stFenced, parts := [le 2 x.2 ++ [0, 0]] } x.1))) ∧
  (∀ (s : State) (r : Req), Passes specAlmanacWear r s ∧ noTarget r = true ∧ 1 ≤ fld r.payload 2 2 ∧ fld r.payload 2 2 ≤ 250 ∧ fld r.payload 0 2 + fld r.payload 2 2 ≤ 4096 ∧ FitsRing r (okR ((List.range (fld r.payload 2 2)).flatMap (fun i => le 4 (almWear s (fld r.payload 0 2 + i))))) →
      Runs (.almanacWear r) s [.out, .mbx]
      (fun t => t = postReply 0x0903 r (okR ((List.range (fld r.payload 2 2)).flatMap (fun i => le 4 (almWear s (fld r.payload 0 2 + i))))) (fresh s))) ∧
  (∀ (s : State) (r : Req) (n : Nat), Passes specFwStage r s ∧ accFull r s = false ∧ noTarget r = true ∧ fld r.payload 0 4 = 0 ∧ bit (fld r.payload 4 1) 0 = true ∧ bit (fld r.payload 4 1) 1 = false ∧ (r.payload.drop 8).length ≤ slotSize ∧ stageSlot s = some n ∧ activating s = false ∧ accBusy .fwStage s = false →
      Runs (.fwStage r) s [.out, .mbx, .fw]
      (fun t => t = finishFwStage (postReply 0x0A01 r (accR .fwStage) { fresh s with fw := { flashProgram (slotBase n) (r.payload.drop 8) (dirEmpty n (flashErase (slotBase n) slotSize s.fw)) with staged := (r.payload.drop 8).length, stageSlot := some n } }))) ∧
  (∀ (s : State) (r : Req) (n : Nat), Passes specFwStage r s ∧ noTarget r = true ∧ fld r.payload 0 4 = s.fw.staged ∧ bit (fld r.payload 4 1) 0 = false ∧ bit (fld r.payload 4 1) 1 = false ∧ s.fw.staged + (r.payload.drop 8).length ≤ slotSize ∧ stageSlot s = some n ∧ activating s = false ∧ accBusy .fwStage s = false →
      Runs (.fwStage r) s [.out, .mbx, .fw]
      (fun t => t = finishFwStage (postReply 0x0A01 r (okR []) { fresh s with fw := { flashProgram (slotBase n + s.fw.staged) (r.payload.drop 8) s.fw with staged := s.fw.staged + (r.payload.drop 8).length, stageSlot := some n } }))) ∧
  (∀ (s : State) (r : Req) (n : Nat), Passes specFwActivate r s ∧ noTarget r = true ∧ fld r.payload 0 1 = 0 ∧ stagedSlot s.fw = some n ∧ activating s = false →
      Runs (.fwActivate r) s [.out, .mbx, .alm, .sup, .fw]
      (fun t => t = finishFwActivate (postReply 0x0A02 r (okR []) { fresh s with fw := setTrial n s.fw, sup := { s.sup with restartAt := some (s.now + 10000000) } }))) ∧
  (∀ (s : State) (r : Req), Passes specFwActivate r s ∧ noTarget r = true ∧ fld r.payload 0 1 = 2 ∧ s.fw.trial = true ∧ s.fw.running < 2 ∧ activating s = false ∧ almExhausted s.alm (rollbackWrites s) = false →
      Runs (.fwActivate r) s [.out, .mbx, .alm, .sup, .fw]
      (fun t => t = finishFwActivate (postReply 0x0A02 r (okR []) (confirmSteps (fresh s))))) ∧
  (∀ (s : State) (r : Req), Passes specFwStatus r s ∧ noTarget r = true ∧ FitsRing r (okR (fwStatusResult s)) →
      Runs (.fwStatus r) s [.out, .mbx]
      (fun t => t = postReply 0x0A03 r (okR (fwStatusResult s)) (fresh s)))

/-- LOOPBACK, PATTERN, REG_READ and REG_WRITE, each with its effect (R485, R487, R493, R465). -/
def Obligations.TestAndRegisterCommandsRun : Prop :=
  (∀ (s : State) (r : Req) (n : Nat), Passes specLoopback r s ∧ accFull r s = false ∧ loopUnit r = some n ∧ fld r.payload 0 1 ≠ 0 ∧ depthOffered n (fld r.payload 0 1) = true ∧ loopGate r s = none ∧ loopFenced s n = false ∧ loopBusy s n (fld r.payload 0 1) = false →
      Runs (.loopback r) s [.out, .freeSeq, .mbx, .dsd, .test]
      (fun t => t = postReply 0x0B01 r (accR (.loopback n)) (startLoop n (fld r.payload 0 1) (fld r.payload 4 4) (fresh s)))) ∧
  (∀ (s : State) (r : Req), Passes specPattern r s ∧ accFull r s = false ∧ fld r.payload 0 1 ≤ 4 ∧ targetBlock r = some .pkb ∧ patternIn 0xB0000 0x1F0000 128 (fld r.payload 4 8) (fld r.payload 12 8) = true ∧ blockFenced s .pkb = false ∧ s.test.pkb = none ∧ accBusy (.pattern .pkb) s = false →
      Runs (.pattern r) s [.out, .mbx, .test]
      (fun t => t = postReply 0x0B03 r (accR (.pattern .pkb)) { fresh s with test := { s.test with pkb := some { pattern := fld r.payload 0 1, start := fld r.payload 4 8, bytes := fld r.payload 12 8, startAt := s.now } } })) ∧
  (∀ (s : State) (r : Req), Passes specPattern r s ∧ accFull r s = false ∧ fld r.payload 0 1 ≤ 4 ∧ targetBlock r = some .dmc ∧ patternIn (spillStart s) usableEnd 48 (fld r.payload 4 8) (fld r.payload 12 8) = true ∧ blockFenced s .dmc = false ∧ s.test.dmc = none ∧ accBusy (.pattern .dmc) s = false ∧ spillMeets s (fld r.payload 4 8) (fld r.payload 12 8) = false →
      Runs (.pattern r) s [.out, .mbx, .test]
      (fun t => t = postReply 0x0B03 r (accR (.pattern .dmc)) { fresh s with test := { s.test with dmc := some { pattern := fld r.payload 0 1, start := fld r.payload 4 8, bytes := fld r.payload 12 8, startAt := s.now } } })) ∧
  (∀ (s : State) (r : Req) (b : Block) (l : List Nat), Passes specRegRead r s ∧ targetBlock r = some b ∧ 1 ≤ fld r.payload 2 2 ∧ fld r.payload 2 2 ≤ 250 ∧ fld r.payload 4 4 % 4 = 0 ∧ spaceWords s b (fld r.payload 0 1) (fld r.payload 4 4) (fld r.payload 2 2) = some l ∧ (fld r.payload 0 1 ≠ 0 ∨ blockSealed s b = false) ∧ FitsRing r (okR (l.flatMap (le 4))) →
      Runs (.regRead r) s [.out, .mbx]
      (fun t => t = postReply 0x0C01 r (okR (l.flatMap (le 4))) (fresh s))) ∧
  (∀ (s : State) (r : Req), Passes specRegWrite r s ∧ targetBlock r = some .lio ∧ fld r.payload 0 1 = 0 ∧ regWriteFail s .lio 0 (writePairs (fld r.payload 4 4) (r.payload.drop 8)) = none →
      Runs (.regWrite r) s [.out, .freeSeq, .mbx, .flt, .alm, .pmu, .clk, .fw, .avail, .hubs, .dsd, .usd, .epqs, .links, .sched, .place, .memb, .fab, .u2d, .vig, .tc, .phy, .pwr, .dp, .lio, .test]
      (fun t => t = postReply 0x0C02 r (okR []) ((writePairs (fld r.payload 4 4) (r.payload.drop 8)).foldl (fun y e => lioWrite e.1 e.2 y) (fresh s)))) ∧
  (∀ (s : State) (r : Req) (b : Block), Passes specRegWrite r s ∧ targetBlock r = some b ∧ fld r.payload 0 1 = 1 ∧ regWriteFail s b 1 (writePairs (fld r.payload 4 4) (r.payload.drop 8)) = none ∧ (persist ((writePairs (fld r.payload 4 4) (r.payload.drop 8)).flatMap (fun e => rpWrites b e.1 e.2)) r.badWord (fresh s)).2 = stOk →
      Runs (.regWrite r) s [.out, .freeSeq, .mbx, .flt, .alm, .pmu, .clk, .fw, .avail, .hubs, .dsd, .usd, .epqs, .links, .sched, .place, .memb, .fab, .u2d, .vig, .tc, .phy, .pwr, .dp, .lio, .test]
      (fun t => t = (let l := writePairs (fld r.payload 4 4) (r.payload.drop 8); postReply 0x0C02 r (okR []) (l.foldl (fun y e => fltWrite b e.1 e.2 y) (persist (l.flatMap (fun e => rpWrites b e.1 e.2)) r.badWord (fresh s)).1))))

/-- Loopback and pattern ends, loopback, compliance, test-mode and BIST events and the JTAG port, each with its effect (R487,
R493, R494, R488, R490, R491, R492, R495, R499). -/
def Obligations.TestEventsRun : Prop :=
  (∀ (s : State) (n : Fin 19) (e : Nat) (b : Bool) (l : Loop), tabGet s.test.loops n.val = some l ∧ b = false ∧ l.dur ≠ 0 ∧ l.depth ≠ 4 →
      Runs (.loopbackEnd n e b) s [.out, .now, .freeSeq, .mbx, .dsd, .test]
      (fun t => t = (let s1 := advanceTo (l.startAt + l.dur) (fresh s); endLoop n.val (loopBits s1 n.val l) (sat32 e) stOk { s1 with freeSeq := s1.freeSeq + 1 }))) ∧
  (∀ (s : State) (b : Bool) (e c f : Nat), b = true ∧ s.test.dmc ≠ none →
      Runs (.patternComplete b e c f) s [.out, .mbx, .flt, .memb, .test]
      (fun t => t = endPattern true (sat32 e) (if e = 0 then 0 else f) stOk (countTest .dmc c (fresh s)))) ∧
  (∀ (s : State) (b : Bool) (e c f : Nat) (p : Pat), b = false ∧ s.test.pkb = some p ∧ cellsTested p = true →
      Runs (.patternComplete b e c f) s [.out, .mbx, .flt, .memb, .test]
      (fun t => t = endPattern false (sat32 p.errors) p.first stOk (fresh s))) ∧
  (∀ (s : State) (c e k f : Nat) (p : Pat), s.test.pkb = some p ∧ p.start ≤ c * 128 ∧ c * 128 < p.start + p.bytes ∧ (heldCells (fresh s) ++ deadCells (fresh s)).contains c = false →
      Runs (.pkbPatternCellFree c e k f) s [.out, .flt, .test]
      (fun t => t = { countTest .pkb k (fresh s) with test := { s.test with pkb := some { p with tested := p.tested ++ [c], errors := p.errors + e, first := if p.errors = 0 ∧ e ≠ 0 then f else p.first } } })) ∧
  (∀ (s : State) (p : Pat), s.test.pkb = some p ∧ cellsTested p = false →
      Runs (.pkbPatternTimeout) s [.out, .now, .freeSeq, .mbx, .memb, .test]
      (fun t => t = cutPattern false stBusy (advanceTo (p.startAt + 1000000000) (fresh s)))) ∧
  (∀ (s : State) (u : US), (isExclusive s.pmu.reported = false ∨ s.pmu.reported = .suspend) ∧ safeHolds s = false ∧ (usOf s u).ssTerm = true ∧ (usOf s u).link ≠ .rxDetect ∧ (usOf s u).link ≠ .disabled →
      Runs (.remoteLoopbackRequest u) s [.out, .usd, .test]
      (fun t => t = modUs u (fun x => { x with link := .loopback }) { fresh s with test := { s.test with slave := s.test.slave.filter (· != u) ++ [u] } })) ∧
  (∀ (s : State) (u : US) (v : Option (Fin 15)), v = none ∧ (usOf s u).ssTerm = true ∧ s.clk.ssPllLock = true ∧ ((usOf s u).link = .rxDetect ∨ (usOf s u).link = .polling) →
      Runs (.complianceEntry u v) s [.out, .mbx, .avail, .hubs, .dsd, .usd, .epqs, .links, .sched, .place, .fab, .u2d, .u2u, .vig, .fo, .test]
      (fun t => t = enterComp (usPort u) (fresh s))) ∧
  (∀ (s : State) (u : US) (v : Option (Fin 15)) (w : Fin 15) (d : DS), v = some w ∧ hubUp s u true = true ∧ ownedAt s u w = some d ∧ d.val < 8 ∧ ssHeldByDp (hostSeen u (emit (.control u []) (fresh s))) d = false ∧ portFenced (hostSeen u (emit (.control u []) (fresh s))) (dsPort d) = false ∧ movingNow (hostSeen u (emit (.control u []) (fresh s))) d = false →
      Runs (.complianceEntry u v) s [.out, .mbx, .avail, .hubs, .dsd, .usd, .epqs, .links, .sched, .place, .fab, .u2d, .u2u, .vig, .fo, .test]
      (fun t => t = enterComp (dsPort d) (hostSeen u (emit (.control u []) (fresh s))))) ∧
  (∀ (s : State) (p : Port) (d : DS), portDs p = some d ∧ (dsOf s d).link = .compliance →
      Runs (.compliancePingLfps p) s [.out, .test]
      (fun t => t = { fresh s with test := { s.test with comp := tabPut s.test.comp p.val ((tabGet s.test.comp p.val).getD 0 + 1) } })) ∧
  (∀ (s : State) (u : US) (v : Fin 15) (n : Nat) (d : DS), hubUp s u false = true ∧ ownedAt s u v = some d →
      Runs (.usb2PortTest u v n) s [.out, .avail, .dsd, .u2u, .vig, .fo]
      (fun t => t = (let s1 := hostSeen u (fresh s); if !testMode n || !quietPorts s1 u || heldHere s1 d || portFenced s1 (dsPort d) then emit (.stall u) s1 else modDs d (fun x => { x with test2 := n }) (emit (.control u []) s1)))) ∧
  (∀ (s : State) (u : US) (n : Nat), hubUp s u false = true ∧ testMode n = true →
      Runs (.usb2TestModeUpstream u n) s [.out, .avail, .usd, .u2u, .vig, .fo]
      (fun t => t = modUs u (fun x => { x with test2 := n }) (emit (.control u []) (hostSeen u (fresh s))))) ∧
  (∀ (s : State) (p : Port) (m : PdMsg), (phyOf s p).inHand = some m ∧ thymeDown s p = false ∧ isData m 3 = true ∧ s.pmu.reported = .service ∧ (pwrOf s p).vout = 5000 ∧ bits (pdObj m 0) 31 28 = 5 →
      Runs (.bistMessage p) s [.out, .phy]
      (fun t => t = emit (.carrier p) (modPhy p (fun x => { x with bist := 1, bistAt := s.now }) (handed p s)))) ∧
  (∀ (s : State) (p : Port) (m : PdMsg), (phyOf s p).inHand = some m ∧ thymeDown s p = false ∧ isData m 3 = true ∧ s.pmu.reported = .service ∧ (pwrOf s p).vout = 5000 ∧ bits (pdObj m 0) 31 28 = 8 →
      Runs (.bistMessage p) s [.out, .phy]
      (fun t => t = modPhy p (fun x => { x with bist := 2 }) (handed p s))) ∧
  (∀ (s : State) (p : Port) (m : PdMsg), (phyOf s p).inHand = some m ∧ thymeDown s p = false ∧ isData m 3 = true ∧ s.pmu.reported ≠ .service →
      Runs (.bistMessage p) s [.out, .phy]
      (fun t => t = handed p s)) ∧
  (∀ (s : State) (p : Port), (phyOf s p).bist = 1 →
      Runs (.bistCarrierEnd p) s [.out, .now, .phy]
      (fun t => t = modPhy p (fun x => { x with bist := 0 }) (advanceTo ((phyOf s p).bistAt + 45000000) (fresh s)))) ∧
  (∀ (s : State) (i : Jtag) (r : Bool) (l : List (Ball × Bool)), s.sup.mainOn = true ∧ s.sup.ballsFloat = false ∧ r = true ∧ i = .idcode →
      Runs (.jtagInstruction i r l) s [.out, .test]
      (fun t => t = { fresh s with out := [.idcode 0x171629E7], test := { s.test with jtag := .idcode } })) ∧
  (∀ (s : State) (i : Jtag) (r : Bool) (l : List (Ball × Bool)), s.sup.mainOn = true ∧ s.sup.ballsFloat = false ∧ r = true ∧ i = .bypass →
      Runs (.jtagInstruction i r l) s [.out, .test]
      (fun t => t = { fresh s with out := [.tap .bypass []], test := { s.test with jtag := .bypass } })) ∧
  (∀ (s : State) (i : Jtag) (r : Bool) (l : List (Ball × Bool)), s.sup.mainOn = true ∧ s.sup.ballsFloat = false ∧ r = true ∧ (i = .samplePreload ∨ (drivesBalls i = true ∧ scanRuns (fresh s) = true)) →
      Runs (.jtagInstruction i r l) s [.out, .test]
      (fun t => t = { fresh s with out := [.tap i (sampleBalls (fresh s))], test := { s.test with jtag := i, cells := l } })) ∧
  (∀ (s : State) (i : Jtag) (r : Bool) (l : List (Ball × Bool)), s.sup.mainOn = true ∧ s.sup.ballsFloat = false ∧ r = true ∧ drivesBalls i = true ∧ scanRuns (fresh s) = false →
      Runs (.jtagInstruction i r l) s [.out, .test]
      (fun t => t = { fresh s with out := [.tap .bypass []], test := { s.test with jtag := .bypass } })) ∧
  (∀ (s : State) (i : Jtag) (r : Bool) (l : List (Ball × Bool)), s.sup.mainOn = true ∧ s.sup.ballsFloat = false ∧ r = false →
      Runs (.jtagInstruction i r l) s [.out, .test]
      (fun t => t = { fresh s with test := { s.test with jtag := .idcode, cells := [] } }))

/-- The return of the reference, SuperSpeed PLL and upstream links, and the PD response timer, each with its effect (R396, R398,
R408, R153, R245, R326, R354). -/
def Obligations.LinksAndPdTimersRun : Prop :=
  (∀ (s : State) (x : Nat), s.clk.refLost = some x →
      Runs (.ref25Return) s [.out, .flt, .clk, .sup, .pwr]
      (fun t => t = levelOver .cru 8 { fresh s with clk := { s.clk with boundE6 := s.clk.boundE6 + (s.now - x) * 20000, quality := 2, refLost := none, refBack := some s.now } })) ∧
  (∀ (s : State), mainUp s = true →
      Runs (.ssPllRelock) s [.out, .flt, .clk, .sup, .pwr]
      (fun t => t = levelOver .cru 10 { fresh s with clk := { s.clk with ssPllLock := true } })) ∧
  (∀ (s : State) (u : US) (g : Bool) (n : Nat), (usOf s u).ssTerm = true ∧ s.clk.ssPllLock = true ∧ ((usOf s u).link = .u1 ∨ (usOf s u).link = .u2 ∨ (usOf s u).link = .u3 ∨ (usOf s u).link = .recovery) →
      Runs (.upstreamLinkTrained u g n) s [.out, .mbx, .pmu, .fw, .avail, .hubs, .usd, .links, .fo]
      (fun t => t = hubPresence u (flushHdr (usPort u) 64 (linkBack u (fresh s))))) ∧
  (∀ (s : State) (u : US) (g : Bool) (n : Nat), (usOf s u).ssTerm = true ∧ s.clk.ssPllLock = true ∧ ((usOf s u).link = .rxDetect ∨ (usOf s u).link = .polling ∨ (usOf s u).link = .inactive) →
      Runs (.upstreamLinkTrained u g n) s [.out, .mbx, .pmu, .fw, .avail, .hubs, .usd, .links, .fo]
      (fun t => t = (let s1 := modUs u (fun x => { x with link := .u0, gen := if g then 2 else 1, lanes := if u == .us0 && g && decide (n = 2) then 2 else 1 }) (fresh s); hubPresence u (flushHdr (usPort u) 64 (ssUp u (modLink (usPort u) (freshLink s1 (usPort u)) s1)))))) ∧
  (∀ (s : State) (u : US) (b : Bool), (usOf s u).link ≠ .rxDetect ∧ (usOf s u).link ≠ .disabled →
      Runs (.upstreamLinkInactive u b) s [.out, .mbx, .pmu, .fw, .avail, .hubs, .usd, .epqs, .links, .sched, .fab, .vig, .fo]
      (fun t => t = hubPresence u (modVigHub u (fun h => { h with absentFrom := s.now }) (settle (modUs u (fun x => { x with link := if b then .rxDetect else .inactive, susp3 := false, u3Want := false, upLfps := false, gen := if b then 0 else x.gen }) (dropLink (usPort u) 2 (fresh s))))))) ∧
  (∀ (s : State) (p : Port), thymeDown s p = false ∧ (phyOf s p).ams = 2 →
      Runs (.pdSenderResponseTimeout p) s [.out, .now, .mbx, .avail, .hubs, .dsd, .usd, .epqs, .links, .sched, .place, .fab, .u2d, .vig, .tc, .phy, .pwr, .lane, .dp]
      (fun t => t = sendHardReset p (advanceTo ((phyOf s p).amsAt + (if (phyOf s p).chunk.isEmpty then 30000000 else 27000000)) (fresh s)))) ∧
  (∀ (s : State) (p : Port), thymeDown s p = false ∧ (phyOf s p).ams = 4 →
      Runs (.pdSenderResponseTimeout p) s [.out, .now, .mbx, .avail, .hubs, .dsd, .usd, .epqs, .links, .sched, .place, .fab, .u2d, .vig, .tc, .phy, .pwr, .lane, .dp]
      (fun t => t = softReset p (swapFail p (advanceTo ((phyOf s p).amsAt + (if (phyOf s p).chunk.isEmpty then 30000000 else 27000000)) (fresh s))))) ∧
  (∀ (s : State) (p : Port), thymeDown s p = false ∧ ((phyOf s p).ams = 1 ∨ (phyOf s p).ams = 3) →
      Runs (.pdSenderResponseTimeout p) s [.out, .now, .mbx, .avail, .hubs, .dsd, .usd, .epqs, .links, .sched, .place, .fab, .u2d, .vig, .tc, .phy, .pwr, .lane, .dp]
      (fun t => t = softReset p (advanceTo ((phyOf s p).amsAt + (if (phyOf s p).chunk.isEmpty then 30000000 else 27000000)) (fresh s))))

/-- A step takes the first of the waiting commands and carries it out with the rest of the queue; the queue is the model's own
(log entry 4). -/
def Obligations.StepRunsTheFrontCommand : Prop :=
  ∀ (c : Instr) (l : List Instr) (s : State), step { s with pending := c :: l } = exec c { s with pending := l }

/-- An empty queue ticks: one cycle of TB_CLK, or of AON_RC by its last calibration (R395, R396); that an empty queue is what
ticks is the model's choice (log entry 4). -/
def Obligations.EmptyQueueTicks : Prop :=
  ∀ s : State, s.pending = [] →
    step s = .next (tick s) ∧
    (s.clk.tbOn = false → tick s = fresh s) ∧
    (s.clk.tbOn = true → s.clk.refLost = none →
      (tick s).now = (s.now + 5) % 2 ^ 64 ∧ Frame [.out, .now, .dsd, .usd] s (tick s)) ∧
    (∀ x, s.clk.tbOn = true → s.clk.refLost = some x →
      (tick s).now = (s.now + (s.clk.frac + 5 * s.clk.calE6) / 1000000) % 2 ^ 64 ∧
      (tick s).clk.frac = (s.clk.frac + 5 * s.clk.calE6) % 1000000 ∧ Frame [.out, .now, .clk, .dsd, .usd] s (tick s))

/-- Every command of the table answers a next state from every state, no part but those named for it changes, and the queue
stays (R427, R428, R446); which parts are named is the list mayChange. -/
def Obligations.EveryCommandAnswersAndKeepsItsFrame : Prop :=
  ∀ (i : Instr) (s : State), Runs i s (mayChange i) (fun t => t.pending = s.pending)

/-- The invariants that EveryStepKeepsCanon and DownstreamPortsStaySources speak of hold at reset. -/
def Obligations.ReservedStateHoldsAtReset : Prop :=
  Canon State.reset ∧ DsSource State.reset ∧ State.reset.pending = []

/-- Every step keeps the canonical form of the sparse memories, and no Almanac word ever carries more writes than R474 allows;
the canonical form is the model's own (log entry 7). -/
def Obligations.EveryStepKeepsCanon : Prop :=
  ∀ s t : State, Canon s → step s = .next t → Canon t

/-- A Martar command that fails one of the checks every command passes first completes with that status (R445); with no accepted
command under way nothing but the mailbox changes. -/
def Obligations.RefusedCommandChangesNothing : Prop :=
  ∀ (i : Instr) (c : CmdSpec) (r : Req) (s : State) (st : Nat), checkedCmd i = some (c, r) → precheck c r s = some st →
    exec i s = .next (afterCmd i (postReply c.opcode r (errR st) (fresh s))) ∧
    (s.mbx.acc = [] → Runs i s [.out, .mbx] (fun t => t.mbx.acc = [] ∧ t.out = []))

/-- The opcode at the head of a ring selects exactly the row of the command table that carries it (R425, R441). -/
def Obligations.EveryOpcodeRunsItsRow : Prop :=
  (∀ (i : Instr) (c : CmdSpec) (r : Req) (s : State), checkedCmd i = some (c, r) → serveOp c.opcode r s = some (exec i s)) ∧
    (∀ (n : Nat) (r : Req) (s : State), (∀ (i : Instr) (c : CmdSpec), checkedCmd i = some (c, r) → c.opcode ≠ n) → serveOp n r s = none)

/-- COMMAND_TAKE carries out the row of the command that stands at the head of the ring whose turn it is, with that command
consumed (R428, R430). -/
def Obligations.TakenCommandRunsItsRow : Prop :=
  ∀ (b : Option Nat) (s : State) (i : Instr) (c : CmdSpec) (k : Fin 8) (n : Nat) (r : Req),
    s.sup.ready = true → asleep s = false → s.sup.sysLow = false → s.sup.porLow = false → s.pmu.reported ≠ .off →
    (takeOrder s).find? (mayTake s) = some k → readHead s.mbx k b = .cmd n c.opcode r → checkedCmd i = some (c, r) →
    exec (.commandTake b) s = exec i { fresh s with mbx := consume k n s.mbx }

/-- What stands at the head of a ring and is no command of the table is consumed and answered with the status of R428. -/
def Obligations.BadHeadIsSkippedAndAnswered : Prop :=
  ∀ (b : Option Nat) (s : State) (k : Fin 8),
    s.sup.ready = true → asleep s = false → s.sup.sysLow = false → s.sup.porLow = false → s.pmu.reported ≠ .off →
    (takeOrder s).find? (mayTake s) = some k →
    (∀ n, readHead s.mbx k b = .bad n → exec (.commandTake b) s =
      .next (refuseTake k (senderOf s.mbx k) 0 stBadCheck 0 0 (le 2 n) { fresh s with mbx := consume k n s.mbx })) ∧
    (∀ n st op f t, readHead s.mbx k b = .wrong n st op f t → exec (.commandTake b) s =
      .next (refuseTake k (senderOf s.mbx k) op st f t [] { fresh s with mbx := consume k n s.mbx })) ∧
    (∀ n op r, readHead s.mbx k b = .cmd n op r → (∀ i c, checkedCmd i = some (c, r) → c.opcode ≠ op) →
      exec (.commandTake b) s =
        .next (refuseTake k (senderOf s.mbx k) op stBadOpcode r.flags r.tag [] { fresh s with mbx := consume k n s.mbx }))

/-- The port codes of R7 and the block IDs of R402. -/
def Obligations.PortCodesNameThePorts : Prop :=
  (∀ p : Port, codePort (portCode p) = some p) ∧ (∀ d : DS, portCode (dsPort d) = 0x21 + d.val) ∧
    portCode (usPort .us0) = 0x10 ∧ portCode (usPort .us1) = 0x11 ∧ codePort 0 = none ∧
    (∀ n, 0x12 ≤ n → n ≤ 0x1F → codePort n = none) ∧ (∀ n, 0x31 ≤ n → n ≤ 0x3F → codePort n = none) ∧
    (∀ b : Block, idBlock (blockId b) = some b) ∧ (∀ d : DS, blockId (.ds d) = portCode (dsPort d))

/-- The reset values of the register tables of R374, R382, R404, R423 and R435; the remaining reset values are the model's (log
entries 5 to 8) and are not said here. -/
def Obligations.ResetLeavesTheStatedValues : Prop :=
  modeSelWord State.reset = 0x23 ∧ modeStatWord State.reset = 0x863 ∧
    (∀ b : Block, ∀ i ∈ [0, 1, 2, 3, 6, 9, 10], fltWord State.reset b i = 0) ∧
    (∀ b : Block, fltWord State.reset b 7 = (if privileged b then 3 else 10) * 2 ^ 16) ∧
    (∀ b : Block, fltWord State.reset b 8 = 2000 + 5000 * 2 ^ 16) ∧
    transportReg State.reset 0x000 = 0x4D540100 ∧ transportReg State.reset 0x010 = 0 ∧ transportReg State.reset 0x014 = 0x0FFF ∧
    transportReg State.reset 0x020 = 1 ∧ transportReg State.reset 0xC04 = 0 ∧
    (∀ r : Fin 16, transportReg State.reset (0x104 + 16 * r.val) = 0 ∧ transportReg State.reset (0x108 + 16 * r.val) = 0) ∧
    (∀ r : Fin 16, spitOwns State.reset.mbx r = true → transportReg State.reset (0x10C + 16 * r.val) % 256 = 1) ∧
    (List.range 16).map (fun r => transportReg State.reset (0x100 + 16 * r) % 1024) =
      [0, 32, 288, 544, 800, 832, 896, 960, 16, 160, 416, 672, 816, 864, 928, 992] ∧
    (List.range 16).map (fun r => 2 ^ (transportReg State.reset (0x100 + 16 * r) / 1024)) =
      [16, 128, 128, 128, 16, 32, 32, 32, 16, 128, 128, 128, 16, 32, 32, 32] ∧
    [0x000, 0x004, 0x00C, 0x010, 0x014].map (lioReg State.reset) = [some 0, some 0, some 0xFFFF, some 0, some 0] ∧
    (drawerWord State.reset / 256) = 0x30 ∧ State.reset.pending = []

/-- R418: what SAFE accepts, on which ring, and that it serves no other transport. -/
def Obligations.SafeAcceptsItsCommandsAlone : Prop :=
  (∀ (i : Instr) (c : CmdSpec) (r : Req) (s : State), checkedCmd i = some (c, r) → s.pmu.reported = .safe →
      r.flags.toNat / 16 = 0 → ringAccepts c r s.mbx = true → c.lenOk r.payload = true → c.resvOk r.payload = true →
      (safeRow i r.ring = true → precheck c r s = none) ∧
      (safeRow i r.ring = false → precheck c r s = some stMode ∧
        exec i s = .next (afterCmd i (postReply c.opcode r (errR stMode) (fresh s))))) ∧
    (∀ (i : Instr) (c : CmdSpec) (r : Req) (m : Mbx), checkedCmd i = some (c, r) → safeRow i r.ring = true → ringAccepts c r m = true) ∧
    (∀ s : State, safeHolds s = true → takeOrder s = [0, 1] ∧ i2ctUp s = false ∧ ∀ u : US, lmfUp s u = false)

/-- R443: what a queue selector names, and the status of one that names no open endpoint queue. -/
def Obligations.QselNamesAnOpenQueueOrBadTarget : Prop :=
  (∀ (s : State) (d : DS) (p : List Byte) (off n : Nat) (e : Epq), qselQueue s d p off = some (n, e) →
      (n, e) ∈ s.epqs ∧ QselNames d p off e) ∧
    (∀ (s : State) (d : DS) (p : List Byte) (off : Nat), qselQueue s d p off = none → ∀ x ∈ s.epqs, ¬ QselNames d p off x.2) ∧
    (∀ (r : Req) (s : State) (d : DS), targetDs r = some d →
      (Passes specSchedSet r s → fld r.payload 0 1 = 0 → qselQueue s d r.payload 4 = none →
        exec (.schedSet r) s = .next (postReply 0x0301 r (errR stBadTarget) (fresh s))) ∧
      (qselQueue s d r.payload 0 = none →
        (Passes specShaperSet r s → exec (.shaperSet r) s = .next (postReply 0x0302 r (errR stBadTarget) (fresh s))) ∧
        (Passes specPolicerSet r s → exec (.policerSet r) s = .next (postReply 0x0303 r (errR stBadTarget) (fresh s))) ∧
        (Passes specObserveRead r s → bit (fld r.payload 4 1) 2 = false →
          exec (.observeRead r) s = .next (postReply 0x0304 r (errR stBadTarget) (fresh s))) ∧
        (Passes specPlacePin r s → exec (.placePin r) s = .next (postReply 0x0402 r (errR stBadTarget) (fresh s)))))

/-- R480: the Almanac window of SPIT, in every mode in which SPIT is powered. -/
def Obligations.AlmanacWindowIsReadOnlyOverSpit : Prop :=
  ∀ (setup : Nat) (a : Word) (data : List Byte) (n : Nat) (b : BootIn) (s : State), spitPowered s = true →
    (s.pmu.reported = .suspend → 5000 ≤ setup) → 0x400000 ≤ a.toNat →
    (4 ≤ data.length → a.toNat + data.length ≤ 0x404000 →
      exec (.spitFrame setup 0x02 a data n b) s = .next (frameError
        (emit (.spit (spitStatus (spitWoken s)) []) (spitWoken s)))) ∧
    (a.toNat < 0x404000 → a.toNat % 4 ≠ 0 →
      exec (.spitFrame setup 0x0B a data n b) s = .next (frameError
        (emit (.spit (spitStatus (spitWoken s)) (List.replicate n 0)) (spitWoken s)))) ∧
    (a.toNat + 4 ≤ 0x404000 → a.toNat % 4 = 0 →
      exec (.spitFrame setup 0x0B a data 4 b) s = .next (emit (.spit (spitStatus (spitWoken s))
        (if s.sup.ready = true then le 4 (almVisible s ((a.toNat - 0x400000) / 4)) else [0, 0, 0, 0]))
        { spitWoken s with mbx := { (spitWoken s).mbx with frameErr := false } }))

/-- R130: the vendor port status word of a slot that the virtual hub does not own. -/
def Obligations.UnownedSlotShowsItsPortCode : Prop :=
  ∀ (u : US) (ss : Bool) (v : Fin 15) (d : DS) (mask : BitVec 16) (s : State), hubUp s u ss = true →
    v.val < (hubOf s u).active.length → slotAt s u v = some (.port d) → ownerOf s d ≠ some u →
    exec (.getPortVendorStatus u ss (v.val + 1)) s =
      .next (emit (.control u (le 4 (if isSealed s d then 0 else 2 ^ 16 * (0x21 + d.val)))) (fresh s)) ∧
    exec (.clearPortVendorStatus u ss (v.val + 1) mask) s = .next (emit (.control u []) (fresh s))

/-- R350: a downstream port that is attached is source and DFP after every step, refuses the swaps, and is no target of
ROLE_SWAP. -/
def Obligations.DownstreamPortsStaySources : Prop :=
  (∀ s t : State, DsSource s → step s = .next t → DsSource t) ∧
    (∀ (d : DS) (s : State) (m : PdMsg), (phyOf s (dsPort d)).inHand = some m → thymeDown s (dsPort d) = false →
      (isCtl m 10 = true → exec (.prSwapReceived (dsPort d)) s = .next (pdCtl (dsPort d) 4 (handed (dsPort d) s))) ∧
      (isCtl m 9 = true → exec (.drSwapReceived (dsPort d)) s = .next (pdCtl (dsPort d) 4 (handed (dsPort d) s))) ∧
      (isCtl m 11 = true → exec (.vconnSwapReceived (dsPort d)) s = .next (pdCtl (dsPort d) 4 (handed (dsPort d) s))) ∧
      (isCtl m 8 = true → exec (.getSinkCapOnDs d) s =
        .next (pdCtl (dsPort d) (if (phyOf s (dsPort d)).rev = 3 then 16 else 4) (handed (dsPort d) s)))) ∧
    (∀ (r : Req) (s : State) (d : DS), Passes specRoleSwap r s → targetDs r = some d →
      exec (.roleSwap r) s = .next (afterCmd (.roleSwap r) (postReply 0x0604 r (errR stBadTarget) (fresh s))))

/-- A codeword of 33 bits decodes clean as it was written, and with any one of its 40 bits flipped it decodes as the correction of that bit
(R88). The places of the check bits are the model's choice (log entry 91); the clauses hold of any such code. -/
def Obligations.OneFlippedBitIsCorrected : Prop :=
  (∀ d : Nat, d < 2 ^ 33 → decodeWord 33 (encodeWord 33 d) = .clean) ∧
  (∀ (d : Nat) (i : Fin 40), d < 2 ^ 33 → decodeWord 33 (encodeWord 33 d ^^^ 2 ^ i.val) = .corrected i.val)

/-- The tag of a unit, read at that unit, names the owner and the region it was written with (R89). -/
def Obligations.UnitTagNamesItsOwner : Prop :=
  ∀ owner region unit : Nat, readTag (unitTag owner region unit) unit = some (owner % 65536, region % 256)
end

