-- ==== Sys2Proof/Laws/State.lean ====
section
/-! SUPPORT. One lemma per field for the record update of that field, for the updates of several fields that the meanings make, for the
empty outputs of a new command, and for what a frame says. -/

set_option Elab.async false

namespace Sys2Proof.Machine

@[simp] theorem only_pending (j : Fld) (s : State) (v) (h : j ≠ .pending) : j.only { s with pending := v } = j.only s := by
  cases j <;> first | rfl | exact absurd rfl h
@[simp] theorem only_out (j : Fld) (s : State) (v) (h : j ≠ .out) : j.only { s with out := v } = j.only s := by
  cases j <;> first | rfl | exact absurd rfl h
@[simp] theorem only_now (j : Fld) (s : State) (v) (h : j ≠ .now) : j.only { s with now := v } = j.only s := by
  cases j <;> first | rfl | exact absurd rfl h
@[simp] theorem only_freeSeq (j : Fld) (s : State) (v) (h : j ≠ .freeSeq) : j.only { s with freeSeq := v } = j.only s := by
  cases j <;> first | rfl | exact absurd rfl h
@[simp] theorem only_mbx (j : Fld) (s : State) (v) (h : j ≠ .mbx) : j.only { s with mbx := v } = j.only s := by
  cases j <;> first | rfl | exact absurd rfl h
@[simp] theorem only_flt (j : Fld) (s : State) (v) (h : j ≠ .flt) : j.only { s with flt := v } = j.only s := by
  cases j <;> first | rfl | exact absurd rfl h
@[simp] theorem only_alm (j : Fld) (s : State) (v) (h : j ≠ .alm) : j.only { s with alm := v } = j.only s := by
  cases j <;> first | rfl | exact absurd rfl h
@[simp] theorem only_pmu (j : Fld) (s : State) (v) (h : j ≠ .pmu) : j.only { s with pmu := v } = j.only s := by
  cases j <;> first | rfl | exact absurd rfl h
@[simp] theorem only_reg (j : Fld) (s : State) (v) (h : j ≠ .reg) : j.only { s with reg := v } = j.only s := by
  cases j <;> first | rfl | exact absurd rfl h
@[simp] theorem only_clk (j : Fld) (s : State) (v) (h : j ≠ .clk) : j.only { s with clk := v } = j.only s := by
  cases j <;> first | rfl | exact absurd rfl h
@[simp] theorem only_wake (j : Fld) (s : State) (v) (h : j ≠ .wake) : j.only { s with wake := v } = j.only s := by
  cases j <;> first | rfl | exact absurd rfl h
@[simp] theorem only_sup (j : Fld) (s : State) (v) (h : j ≠ .sup) : j.only { s with sup := v } = j.only s := by
  cases j <;> first | rfl | exact absurd rfl h
@[simp] theorem only_fw (j : Fld) (s : State) (v) (h : j ≠ .fw) : j.only { s with fw := v } = j.only s := by
  cases j <;> first | rfl | exact absurd rfl h
@[simp] theorem only_avail (j : Fld) (s : State) (v) (h : j ≠ .avail) : j.only { s with avail := v } = j.only s := by
  cases j <;> first | rfl | exact absurd rfl h
@[simp] theorem only_hubs (j : Fld) (s : State) (v) (h : j ≠ .hubs) : j.only { s with hubs := v } = j.only s := by
  cases j <;> first | rfl | exact absurd rfl h
@[simp] theorem only_own (j : Fld) (s : State) (v) (h : j ≠ .own) : j.only { s with own := v } = j.only s := by
  cases j <;> first | rfl | exact absurd rfl h
@[simp] theorem only_dsd (j : Fld) (s : State) (v) (h : j ≠ .dsd) : j.only { s with dsd := v } = j.only s := by
  cases j <;> first | rfl | exact absurd rfl h
@[simp] theorem only_usd (j : Fld) (s : State) (v) (h : j ≠ .usd) : j.only { s with usd := v } = j.only s := by
  cases j <;> first | rfl | exact absurd rfl h
@[simp] theorem only_epqs (j : Fld) (s : State) (v) (h : j ≠ .epqs) : j.only { s with epqs := v } = j.only s := by
  cases j <;> first | rfl | exact absurd rfl h
@[simp] theorem only_links (j : Fld) (s : State) (v) (h : j ≠ .links) : j.only { s with links := v } = j.only s := by
  cases j <;> first | rfl | exact absurd rfl h
@[simp] theorem only_sched (j : Fld) (s : State) (v) (h : j ≠ .sched) : j.only { s with sched := v } = j.only s := by
  cases j <;> first | rfl | exact absurd rfl h
@[simp] theorem only_place (j : Fld) (s : State) (v) (h : j ≠ .place) : j.only { s with place := v } = j.only s := by
  cases j <;> first | rfl | exact absurd rfl h
@[simp] theorem only_memb (j : Fld) (s : State) (v) (h : j ≠ .memb) : j.only { s with memb := v } = j.only s := by
  cases j <;> first | rfl | exact absurd rfl h
@[simp] theorem only_fab (j : Fld) (s : State) (v) (h : j ≠ .fab) : j.only { s with fab := v } = j.only s := by
  cases j <;> first | rfl | exact absurd rfl h
@[simp] theorem only_u2d (j : Fld) (s : State) (v) (h : j ≠ .u2d) : j.only { s with u2d := v } = j.only s := by
  cases j <;> first | rfl | exact absurd rfl h
@[simp] theorem only_u2u (j : Fld) (s : State) (v) (h : j ≠ .u2u) : j.only { s with u2u := v } = j.only s := by
  cases j <;> first | rfl | exact absurd rfl h
@[simp] theorem only_vig (j : Fld) (s : State) (v) (h : j ≠ .vig) : j.only { s with vig := v } = j.only s := by
  cases j <;> first | rfl | exact absurd rfl h
@[simp] theorem only_fo (j : Fld) (s : State) (v) (h : j ≠ .fo) : j.only { s with fo := v } = j.only s := by
  cases j <;> first | rfl | exact absurd rfl h
@[simp] theorem only_tc (j : Fld) (s : State) (v) (h : j ≠ .tc) : j.only { s with tc := v } = j.only s := by
  cases j <;> first | rfl | exact absurd rfl h
@[simp] theorem only_phy (j : Fld) (s : State) (v) (h : j ≠ .phy) : j.only { s with phy := v } = j.only s := by
  cases j <;> first | rfl | exact absurd rfl h
@[simp] theorem only_pwr (j : Fld) (s : State) (v) (h : j ≠ .pwr) : j.only { s with pwr := v } = j.only s := by
  cases j <;> first | rfl | exact absurd rfl h
@[simp] theorem only_lane (j : Fld) (s : State) (v) (h : j ≠ .lane) : j.only { s with lane := v } = j.only s := by
  cases j <;> first | rfl | exact absurd rfl h
@[simp] theorem only_guard (j : Fld) (s : State) (v) (h : j ≠ .guard) : j.only { s with guard := v } = j.only s := by
  cases j <;> first | rfl | exact absurd rfl h
@[simp] theorem only_dp (j : Fld) (s : State) (v) (h : j ≠ .dp) : j.only { s with dp := v } = j.only s := by
  cases j <;> first | rfl | exact absurd rfl h
@[simp] theorem only_lio (j : Fld) (s : State) (v) (h : j ≠ .lio) : j.only { s with lio := v } = j.only s := by
  cases j <;> first | rfl | exact absurd rfl h
@[simp] theorem only_test (j : Fld) (s : State) (v) (h : j ≠ .test) : j.only { s with test := v } = j.only s := by
  cases j <;> first | rfl | exact absurd rfl h
@[simp] theorem only_therm (j : Fld) (s : State) (v) (h : j ≠ .therm) : j.only { s with therm := v } = j.only s := by
  cases j <;> first | rfl | exact absurd rfl h

@[simp] theorem only_now_clk (j : Fld) (s : State) (v0) (v1) (h0 : j ≠ .now) (h1 : j ≠ .clk) :
    j.only { s with now := v0, clk := v1 } = j.only s := by
  cases j <;> first | rfl | contradiction
@[simp] theorem only_freeSeq_alm (j : Fld) (s : State) (v0) (v1) (h0 : j ≠ .freeSeq) (h1 : j ≠ .alm) :
    j.only { s with freeSeq := v0, alm := v1 } = j.only s := by
  cases j <;> first | rfl | contradiction
@[simp] theorem only_alm_clk (j : Fld) (s : State) (v0) (v1) (h0 : j ≠ .alm) (h1 : j ≠ .clk) :
    j.only { s with alm := v0, clk := v1 } = j.only s := by
  cases j <;> first | rfl | contradiction
@[simp] theorem only_alm_fw (j : Fld) (s : State) (v0) (v1) (h0 : j ≠ .alm) (h1 : j ≠ .fw) :
    j.only { s with alm := v0, fw := v1 } = j.only s := by
  cases j <;> first | rfl | contradiction
@[simp] theorem only_alm_avail (j : Fld) (s : State) (v0) (v1) (h0 : j ≠ .alm) (h1 : j ≠ .avail) :
    j.only { s with alm := v0, avail := v1 } = j.only s := by
  cases j <;> first | rfl | contradiction
@[simp] theorem only_pmu_reg (j : Fld) (s : State) (v0) (v1) (h0 : j ≠ .pmu) (h1 : j ≠ .reg) :
    j.only { s with pmu := v0, reg := v1 } = j.only s := by
  cases j <;> first | rfl | contradiction
@[simp] theorem only_pmu_clk (j : Fld) (s : State) (v0) (v1) (h0 : j ≠ .pmu) (h1 : j ≠ .clk) :
    j.only { s with pmu := v0, clk := v1 } = j.only s := by
  cases j <;> first | rfl | contradiction
@[simp] theorem only_pmu_sup (j : Fld) (s : State) (v0) (v1) (h0 : j ≠ .pmu) (h1 : j ≠ .sup) :
    j.only { s with pmu := v0, sup := v1 } = j.only s := by
  cases j <;> first | rfl | contradiction
@[simp] theorem only_clk_wake (j : Fld) (s : State) (v0) (v1) (h0 : j ≠ .clk) (h1 : j ≠ .wake) :
    j.only { s with clk := v0, wake := v1 } = j.only s := by
  cases j <;> first | rfl | contradiction
@[simp] theorem only_sup_fw (j : Fld) (s : State) (v0) (v1) (h0 : j ≠ .sup) (h1 : j ≠ .fw) :
    j.only { s with sup := v0, fw := v1 } = j.only s := by
  cases j <;> first | rfl | contradiction
@[simp] theorem only_sup_lio (j : Fld) (s : State) (v0) (v1) (h0 : j ≠ .sup) (h1 : j ≠ .lio) :
    j.only { s with sup := v0, lio := v1 } = j.only s := by
  cases j <;> first | rfl | contradiction
@[simp] theorem only_epqs_links (j : Fld) (s : State) (v0) (v1) (h0 : j ≠ .epqs) (h1 : j ≠ .links) :
    j.only { s with epqs := v0, links := v1 } = j.only s := by
  cases j <;> first | rfl | contradiction
@[simp] theorem only_epqs_sched (j : Fld) (s : State) (v0) (v1) (h0 : j ≠ .epqs) (h1 : j ≠ .sched) :
    j.only { s with epqs := v0, sched := v1 } = j.only s := by
  cases j <;> first | rfl | contradiction
@[simp] theorem only_epqs_place (j : Fld) (s : State) (v0) (v1) (h0 : j ≠ .epqs) (h1 : j ≠ .place) :
    j.only { s with epqs := v0, place := v1 } = j.only s := by
  cases j <;> first | rfl | contradiction
@[simp] theorem only_epqs_u2d (j : Fld) (s : State) (v0) (v1) (h0 : j ≠ .epqs) (h1 : j ≠ .u2d) :
    j.only { s with epqs := v0, u2d := v1 } = j.only s := by
  cases j <;> first | rfl | contradiction
@[simp] theorem only_sched_lio (j : Fld) (s : State) (v0) (v1) (h0 : j ≠ .sched) (h1 : j ≠ .lio) :
    j.only { s with sched := v0, lio := v1 } = j.only s := by
  cases j <;> first | rfl | contradiction
@[simp] theorem only_memb_test (j : Fld) (s : State) (v0) (v1) (h0 : j ≠ .memb) (h1 : j ≠ .test) :
    j.only { s with memb := v0, test := v1 } = j.only s := by
  cases j <;> first | rfl | contradiction
@[simp] theorem only_lane_guard (j : Fld) (s : State) (v0) (v1) (h0 : j ≠ .lane) (h1 : j ≠ .guard) :
    j.only { s with lane := v0, guard := v1 } = j.only s := by
  cases j <;> first | rfl | contradiction
@[simp] theorem only_sup_vig_lio (j : Fld) (s : State) (v0) (v1) (v2) (h0 : j ≠ .sup) (h1 : j ≠ .vig) (h2 : j ≠ .lio) :
    j.only { s with sup := v0, vig := v1, lio := v2 } = j.only s := by
  cases j <;> first | rfl | contradiction
@[simp] theorem only_mbx_flt_pmu_clk (j : Fld) (s : State) (v0) (v1) (v2) (v3) (h0 : j ≠ .mbx) (h1 : j ≠ .flt) (h2 : j ≠ .pmu) (h3 : j ≠ .clk) :
    j.only { s with mbx := v0, flt := v1, pmu := v2, clk := v3 } = j.only s := by
  cases j <;> first | rfl | contradiction
@[simp] theorem only_mbx_flt_pmu_sup (j : Fld) (s : State) (v0) (v1) (v2) (v3) (h0 : j ≠ .mbx) (h1 : j ≠ .flt) (h2 : j ≠ .pmu) (h3 : j ≠ .sup) :
    j.only { s with mbx := v0, flt := v1, pmu := v2, sup := v3 } = j.only s := by
  cases j <;> first | rfl | contradiction
@[simp] theorem only_flt_pmu_sup_fw (j : Fld) (s : State) (v0) (v1) (v2) (v3) (h0 : j ≠ .flt) (h1 : j ≠ .pmu) (h2 : j ≠ .sup) (h3 : j ≠ .fw) :
    j.only { s with flt := v0, pmu := v1, sup := v2, fw := v3 } = j.only s := by
  cases j <;> first | rfl | contradiction
@[simp] theorem only_fw_avail_pwr_lio (j : Fld) (s : State) (v0) (v1) (v2) (v3) (h0 : j ≠ .fw) (h1 : j ≠ .avail) (h2 : j ≠ .pwr) (h3 : j ≠ .lio) :
    j.only { s with fw := v0, avail := v1, pwr := v2, lio := v3 } = j.only s := by
  cases j <;> first | rfl | contradiction
@[simp] theorem only_mbx_pmu_clk_wake_sup (j : Fld) (s : State) (v0) (v1) (v2) (v3) (v4) (h0 : j ≠ .mbx) (h1 : j ≠ .pmu) (h2 : j ≠ .clk) (h3 : j ≠ .wake) (h4 : j ≠ .sup) :
    j.only { s with mbx := v0, pmu := v1, clk := v2, wake := v3, sup := v4 } = j.only s := by
  cases j <;> first | rfl | contradiction
@[simp] theorem only_dsd_usd_tc_phy_pwr_dp (j : Fld) (s : State) (v0) (v1) (v2) (v3) (v4) (v5) (h0 : j ≠ .dsd) (h1 : j ≠ .usd) (h2 : j ≠ .tc) (h3 : j ≠ .phy) (h4 : j ≠ .pwr) (h5 : j ≠ .dp) :
    j.only { s with dsd := v0, usd := v1, tc := v2, phy := v3, pwr := v4, dp := v5 } = j.only s := by
  cases j <;> first | rfl | contradiction
@[simp] theorem only_fw_hubs_own_epqs_links_sched_place_u2d_u2u_fo_tc_lane_test (j : Fld) (s : State) (v0) (v1) (v2) (v3) (v4) (v5) (v6) (v7) (v8) (v9) (v10) (v11) (v12) (h0 : j ≠ .fw) (h1 : j ≠ .hubs) (h2 : j ≠ .own) (h3 : j ≠ .epqs) (h4 : j ≠ .links) (h5 : j ≠ .sched) (h6 : j ≠ .place) (h7 : j ≠ .u2d) (h8 : j ≠ .u2u) (h9 : j ≠ .fo) (h10 : j ≠ .tc) (h11 : j ≠ .lane) (h12 : j ≠ .test) :
    j.only { s with fw := v0, hubs := v1, own := v2, epqs := v3, links := v4, sched := v5, place := v6, u2d := v7, u2u := v8, fo := v9, tc := v10, lane := v11, test := v12 } = j.only s := by
  cases j <;> first | rfl | contradiction

@[simp] theorem only_ite (j : Fld) (c : Prop) [Decidable c] (a b : State) :
    j.only (if c then a else b) = if c then j.only a else j.only b := by
  split <;> rfl

@[simp] theorem fst_ite {α β : Type} (c : Prop) [Decidable c] (a b : α × β) :
    (if c then a else b).1 = if c then a.1 else b.1 := by
  split <;> rfl

/-- A fold keeps a part that each of its steps keeps. -/
@[simp] theorem foldl_only {α : Type} (j : Fld) (g : State → α → State) (h : ∀ s x, j.only (g s x) = j.only s) (l : List α)
    (s : State) : j.only (l.foldl g s) = j.only s := by
  induction l generalizing s with
  | nil => rfl
  | cons a t ih => simp [ih, h]

/-- A fold over a state and a count keeps a part of the state that each of its steps keeps. -/
@[simp] theorem foldl_fst_only {α β : Type} (j : Fld) (g : State × β → α → State × β) (h : ∀ s x, j.only (g s x).1 = j.only s.1)
    (l : List α) (s : State × β) : j.only (l.foldl g s).1 = j.only s.1 := by
  induction l generalizing s with
  | nil => rfl
  | cons a t ih => simp [ih, h]

/-! ### Frames -/

theorem Frame.refl (l : List Fld) (s : State) : Frame l s s := fun _ _ => rfl

theorem Frame.trans {l : List Fld} {s t u : State} (h : Frame l s t) (g : Frame l t u) : Frame l s u :=
  fun j hj => (g j hj).trans (h j hj)

theorem Frame.mono {l m : List Fld} {s t : State} (h : Frame l s t) (hlm : ∀ j, j ∈ l → j ∈ m) : Frame m s t :=
  fun j hj => h j (fun hl => hj (hlm j hl))

theorem Frame.pending_eq {l : List Fld} {s t : State} (h : Frame l s t) (hf : .pending ∉ l) : t.pending = s.pending := by
  have e := congrArg State.pending (h .pending hf)
  exact e
theorem Frame.out_eq {l : List Fld} {s t : State} (h : Frame l s t) (hf : .out ∉ l) : t.out = s.out := by
  have e := congrArg State.out (h .out hf)
  exact e
theorem Frame.now_eq {l : List Fld} {s t : State} (h : Frame l s t) (hf : .now ∉ l) : t.now = s.now := by
  have e := congrArg State.now (h .now hf)
  exact e
theorem Frame.freeSeq_eq {l : List Fld} {s t : State} (h : Frame l s t) (hf : .freeSeq ∉ l) : t.freeSeq = s.freeSeq := by
  have e := congrArg State.freeSeq (h .freeSeq hf)
  exact e
theorem Frame.mbx_eq {l : List Fld} {s t : State} (h : Frame l s t) (hf : .mbx ∉ l) : t.mbx = s.mbx := by
  have e := congrArg State.mbx (h .mbx hf)
  exact e
theorem Frame.flt_eq {l : List Fld} {s t : State} (h : Frame l s t) (hf : .flt ∉ l) : t.flt = s.flt := by
  have e := congrArg State.flt (h .flt hf)
  exact e
theorem Frame.alm_eq {l : List Fld} {s t : State} (h : Frame l s t) (hf : .alm ∉ l) : t.alm = s.alm := by
  have e := congrArg State.alm (h .alm hf)
  exact e
theorem Frame.pmu_eq {l : List Fld} {s t : State} (h : Frame l s t) (hf : .pmu ∉ l) : t.pmu = s.pmu := by
  have e := congrArg State.pmu (h .pmu hf)
  exact e
theorem Frame.reg_eq {l : List Fld} {s t : State} (h : Frame l s t) (hf : .reg ∉ l) : t.reg = s.reg := by
  have e := congrArg State.reg (h .reg hf)
  exact e
theorem Frame.clk_eq {l : List Fld} {s t : State} (h : Frame l s t) (hf : .clk ∉ l) : t.clk = s.clk := by
  have e := congrArg State.clk (h .clk hf)
  exact e
theorem Frame.wake_eq {l : List Fld} {s t : State} (h : Frame l s t) (hf : .wake ∉ l) : t.wake = s.wake := by
  have e := congrArg State.wake (h .wake hf)
  exact e
theorem Frame.sup_eq {l : List Fld} {s t : State} (h : Frame l s t) (hf : .sup ∉ l) : t.sup = s.sup := by
  have e := congrArg State.sup (h .sup hf)
  exact e
theorem Frame.fw_eq {l : List Fld} {s t : State} (h : Frame l s t) (hf : .fw ∉ l) : t.fw = s.fw := by
  have e := congrArg State.fw (h .fw hf)
  exact e
theorem Frame.avail_eq {l : List Fld} {s t : State} (h : Frame l s t) (hf : .avail ∉ l) : t.avail = s.avail := by
  have e := congrArg State.avail (h .avail hf)
  exact e
theorem Frame.hubs_eq {l : List Fld} {s t : State} (h : Frame l s t) (hf : .hubs ∉ l) : t.hubs = s.hubs := by
  have e := congrArg State.hubs (h .hubs hf)
  exact e
theorem Frame.own_eq {l : List Fld} {s t : State} (h : Frame l s t) (hf : .own ∉ l) : t.own = s.own := by
  have e := congrArg State.own (h .own hf)
  exact e
theorem Frame.dsd_eq {l : List Fld} {s t : State} (h : Frame l s t) (hf : .dsd ∉ l) : t.dsd = s.dsd := by
  have e := congrArg State.dsd (h .dsd hf)
  exact e
theorem Frame.usd_eq {l : List Fld} {s t : State} (h : Frame l s t) (hf : .usd ∉ l) : t.usd = s.usd := by
  have e := congrArg State.usd (h .usd hf)
  exact e
theorem Frame.epqs_eq {l : List Fld} {s t : State} (h : Frame l s t) (hf : .epqs ∉ l) : t.epqs = s.epqs := by
  have e := congrArg State.epqs (h .epqs hf)
  exact e
theorem Frame.links_eq {l : List Fld} {s t : State} (h : Frame l s t) (hf : .links ∉ l) : t.links = s.links := by
  have e := congrArg State.links (h .links hf)
  exact e
theorem Frame.sched_eq {l : List Fld} {s t : State} (h : Frame l s t) (hf : .sched ∉ l) : t.sched = s.sched := by
  have e := congrArg State.sched (h .sched hf)
  exact e
theorem Frame.place_eq {l : List Fld} {s t : State} (h : Frame l s t) (hf : .place ∉ l) : t.place = s.place := by
  have e := congrArg State.place (h .place hf)
  exact e
theorem Frame.memb_eq {l : List Fld} {s t : State} (h : Frame l s t) (hf : .memb ∉ l) : t.memb = s.memb := by
  have e := congrArg State.memb (h .memb hf)
  exact e
theorem Frame.fab_eq {l : List Fld} {s t : State} (h : Frame l s t) (hf : .fab ∉ l) : t.fab = s.fab := by
  have e := congrArg State.fab (h .fab hf)
  exact e
theorem Frame.u2d_eq {l : List Fld} {s t : State} (h : Frame l s t) (hf : .u2d ∉ l) : t.u2d = s.u2d := by
  have e := congrArg State.u2d (h .u2d hf)
  exact e
theorem Frame.u2u_eq {l : List Fld} {s t : State} (h : Frame l s t) (hf : .u2u ∉ l) : t.u2u = s.u2u := by
  have e := congrArg State.u2u (h .u2u hf)
  exact e
theorem Frame.vig_eq {l : List Fld} {s t : State} (h : Frame l s t) (hf : .vig ∉ l) : t.vig = s.vig := by
  have e := congrArg State.vig (h .vig hf)
  exact e
theorem Frame.fo_eq {l : List Fld} {s t : State} (h : Frame l s t) (hf : .fo ∉ l) : t.fo = s.fo := by
  have e := congrArg State.fo (h .fo hf)
  exact e
theorem Frame.tc_eq {l : List Fld} {s t : State} (h : Frame l s t) (hf : .tc ∉ l) : t.tc = s.tc := by
  have e := congrArg State.tc (h .tc hf)
  exact e
theorem Frame.phy_eq {l : List Fld} {s t : State} (h : Frame l s t) (hf : .phy ∉ l) : t.phy = s.phy := by
  have e := congrArg State.phy (h .phy hf)
  exact e
theorem Frame.pwr_eq {l : List Fld} {s t : State} (h : Frame l s t) (hf : .pwr ∉ l) : t.pwr = s.pwr := by
  have e := congrArg State.pwr (h .pwr hf)
  exact e
theorem Frame.lane_eq {l : List Fld} {s t : State} (h : Frame l s t) (hf : .lane ∉ l) : t.lane = s.lane := by
  have e := congrArg State.lane (h .lane hf)
  exact e
theorem Frame.guard_eq {l : List Fld} {s t : State} (h : Frame l s t) (hf : .guard ∉ l) : t.guard = s.guard := by
  have e := congrArg State.guard (h .guard hf)
  exact e
theorem Frame.dp_eq {l : List Fld} {s t : State} (h : Frame l s t) (hf : .dp ∉ l) : t.dp = s.dp := by
  have e := congrArg State.dp (h .dp hf)
  exact e
theorem Frame.lio_eq {l : List Fld} {s t : State} (h : Frame l s t) (hf : .lio ∉ l) : t.lio = s.lio := by
  have e := congrArg State.lio (h .lio hf)
  exact e
theorem Frame.test_eq {l : List Fld} {s t : State} (h : Frame l s t) (hf : .test ∉ l) : t.test = s.test := by
  have e := congrArg State.test (h .test hf)
  exact e
theorem Frame.therm_eq {l : List Fld} {s t : State} (h : Frame l s t) (hf : .therm ∉ l) : t.therm = s.therm := by
  have e := congrArg State.therm (h .therm hf)
  exact e

/-! ### A new command -/

@[simp] theorem fresh_out (s : State) : (fresh s).out = [] := rfl
@[simp] theorem fresh_pending (s : State) : (fresh s).pending = s.pending := rfl
@[simp] theorem fresh_now (s : State) : (fresh s).now = s.now := rfl
@[simp] theorem fresh_freeSeq (s : State) : (fresh s).freeSeq = s.freeSeq := rfl
@[simp] theorem fresh_mbx (s : State) : (fresh s).mbx = s.mbx := rfl
@[simp] theorem fresh_flt (s : State) : (fresh s).flt = s.flt := rfl
@[simp] theorem fresh_alm (s : State) : (fresh s).alm = s.alm := rfl
@[simp] theorem fresh_pmu (s : State) : (fresh s).pmu = s.pmu := rfl
@[simp] theorem fresh_reg (s : State) : (fresh s).reg = s.reg := rfl
@[simp] theorem fresh_clk (s : State) : (fresh s).clk = s.clk := rfl
@[simp] theorem fresh_wake (s : State) : (fresh s).wake = s.wake := rfl
@[simp] theorem fresh_sup (s : State) : (fresh s).sup = s.sup := rfl
@[simp] theorem fresh_fw (s : State) : (fresh s).fw = s.fw := rfl
@[simp] theorem fresh_avail (s : State) : (fresh s).avail = s.avail := rfl
@[simp] theorem fresh_hubs (s : State) : (fresh s).hubs = s.hubs := rfl
@[simp] theorem fresh_own (s : State) : (fresh s).own = s.own := rfl
@[simp] theorem fresh_dsd (s : State) : (fresh s).dsd = s.dsd := rfl
@[simp] theorem fresh_usd (s : State) : (fresh s).usd = s.usd := rfl
@[simp] theorem fresh_epqs (s : State) : (fresh s).epqs = s.epqs := rfl
@[simp] theorem fresh_links (s : State) : (fresh s).links = s.links := rfl
@[simp] theorem fresh_sched (s : State) : (fresh s).sched = s.sched := rfl
@[simp] theorem fresh_place (s : State) : (fresh s).place = s.place := rfl
@[simp] theorem fresh_memb (s : State) : (fresh s).memb = s.memb := rfl
@[simp] theorem fresh_fab (s : State) : (fresh s).fab = s.fab := rfl
@[simp] theorem fresh_u2d (s : State) : (fresh s).u2d = s.u2d := rfl
@[simp] theorem fresh_u2u (s : State) : (fresh s).u2u = s.u2u := rfl
@[simp] theorem fresh_vig (s : State) : (fresh s).vig = s.vig := rfl
@[simp] theorem fresh_fo (s : State) : (fresh s).fo = s.fo := rfl
@[simp] theorem fresh_tc (s : State) : (fresh s).tc = s.tc := rfl
@[simp] theorem fresh_phy (s : State) : (fresh s).phy = s.phy := rfl
@[simp] theorem fresh_pwr (s : State) : (fresh s).pwr = s.pwr := rfl
@[simp] theorem fresh_lane (s : State) : (fresh s).lane = s.lane := rfl
@[simp] theorem fresh_guard (s : State) : (fresh s).guard = s.guard := rfl
@[simp] theorem fresh_dp (s : State) : (fresh s).dp = s.dp := rfl
@[simp] theorem fresh_lio (s : State) : (fresh s).lio = s.lio := rfl
@[simp] theorem fresh_test (s : State) : (fresh s).test = s.test := rfl
@[simp] theorem fresh_therm (s : State) : (fresh s).therm = s.therm := rfl

end Sys2Proof.Machine
end

