-- ==== Sys2Proof/Laws/Frames.lean ====
section
/-! SUPPORT. Frame lemmas: for each operation on the state, in the order in which they call each other, the parts it may touch. A part
whose name stands in no hypothesis reads after the operation as before. -/

set_option Elab.async false

namespace Sys2Proof.Machine


/-! ### Ops -/

@[simp] theorem advanceTo_only (j : Fld) (t : Nat) (s : State) (h_now : j ≠ .now) :
    j.only (advanceTo t s) = j.only s := by
  simp [advanceTo, *]
@[simp] theorem emit_only (j : Fld) (o : Out) (s : State) (h_out : j ≠ .out) :
    j.only (emit o s) = j.only s := by
  simp [emit, *]
@[simp] theorem fresh_only (j : Fld) (s : State) (h_out : j ≠ .out) :
    j.only (fresh s) = j.only s := by
  simp [fresh, *]
@[simp] theorem eventOn_only (j : Fld) (ks : List (Fin 8)) (code : Nat) (payload : List Byte) (s : State) (h_mbx : j ≠ .mbx) :
    j.only (eventOn ks code payload s) = j.only s := by
  simp [eventOn, *]
@[simp] theorem eventAll_only (j : Fld) (skip : List (Fin 8)) (code : Nat) (payload : List Byte) (s : State) (h_mbx : j ≠ .mbx) :
    j.only (eventAll skip code payload s) = j.only s := by
  simp [eventAll, *]

/-! ### Flags -/

@[simp] theorem setRec_only (j : Fld) (b : Block) (r : FltRec) (s : State) (h_flt : j ≠ .flt) :
    j.only (setRec b r s) = j.only s := by
  simp [setRec, *]

/-! ### Latch -/

@[simp] theorem faultEvent_only (j : Fld) (b : Block) (reaction : Nat) (s : State) (h_mbx : j ≠ .mbx) :
    j.only (faultEvent b reaction s) = j.only s := by
  simp [faultEvent, *]
@[simp] theorem openShadow_only (j : Fld) (b : Block) (s : State) (h_flt : j ≠ .flt) :
    j.only (openShadow b s) = j.only s := by
  simp [openShadow, *]
@[simp] theorem countCe_only (j : Fld) (b : Block) (s : State) (h_flt : j ≠ .flt) :
    j.only (countCe b s) = j.only s := by
  simp [countCe, *]
@[simp] theorem reactRec_only (j : Fld) (b : Block) (src unit : Nat) (forced : Bool) (c : FClass) (s : State) (h_flt : j ≠ .flt) :
    j.only (reactRec b src unit forced c s) = j.only s := by
  unfold reactRec
  (try simp [*]) <;> repeat' ((first | split | intro _) <;> try simp [*])
@[simp] theorem raiseRec_only (j : Fld) (b : Block) (src unit : Nat) (forced persistent : Bool) (s : State) (h_mbx : j ≠ .mbx)
    (h_flt : j ≠ .flt) :
    j.only (raiseRec b src unit forced persistent s).1 = j.only s := by
  unfold raiseRec
  (try simp [*]) <;> repeat' ((first | split | intro _) <;> try simp [*])
@[simp] theorem ackBlock_only (j : Fld) (b : Block) (s : State) (h_flt : j ≠ .flt) :
    j.only (ackBlock b s) = j.only s := by
  simp [ackBlock, *]
@[simp] theorem ceClear_only (j : Fld) (b : Block) (s : State) (h_flt : j ≠ .flt) :
    j.only (ceClear b s) = j.only s := by
  simp [ceClear, *]

/-! ### Operands -/

@[simp] theorem postReply_only (j : Fld) (op : Nat) (r : Req) (rep : Reply) (s : State) (h_mbx : j ≠ .mbx) :
    j.only (postReply op r rep s) = j.only s := by
  simp [postReply, *]
@[simp] theorem runCmd_only (j : Fld) (c : CmdSpec) (f : Req → State → State × Reply) (r : Req) (s : State)
    (hf : ∀ r t, j.only (f r t).1 = j.only t) (h_out : j ≠ .out) (h_mbx : j ≠ .mbx) :
    j.only (runCmd c f r s) = j.only s := by
  unfold runCmd
  (try simp [*]) <;> repeat' ((first | split | intro _) <;> try simp [*])
@[simp] theorem finalOf_only (j : Fld) (a : Machine.Acc) (status : Nat) (payload : List Byte) (s : State) (h_mbx : j ≠ .mbx) :
    j.only (finalOf a status payload s) = j.only s := by
  simp [finalOf, *]
@[simp] theorem finalCpl_only (j : Fld) (k : AccKey) (status : Nat) (payload : List Byte) (s : State) (h_mbx : j ≠ .mbx) :
    j.only (finalCpl k status payload s) = j.only s := by
  simp [finalCpl, *]

/-! ### Transport -/

@[simp] theorem onMbx_only (j : Fld) (f : Mbx → Mbx) (s : State) (h_out : j ≠ .out) (h_mbx : j ≠ .mbx) :
    j.only (onMbx f s) = j.only s := by
  unfold onMbx
  ((try simp [*]) <;> repeat' ((first | split | intro _) <;> try simp [*])) <;> (cases j <;> first | rfl | contradiction)
@[simp] theorem pecError_only (j : Fld) (s : State) (h_out : j ≠ .out) (h_mbx : j ≠ .mbx) :
    j.only (pecError s) = j.only s := by
  simp [pecError, *]

/-! ### AlmanacCmds -/

@[simp] theorem cmdAlmanacRead_only (j : Fld) (r : Req) (s : State) :
    j.only (cmdAlmanacRead r s).1 = j.only s := by
  simp [cmdAlmanacRead, *]
@[simp] theorem cmdAlmanacWear_only (j : Fld) (r : Req) (s : State) :
    j.only (cmdAlmanacWear r s).1 = j.only s := by
  simp [cmdAlmanacWear, *]

/-! ### SystemCmds -/

@[simp] theorem cmdIdentify_only (j : Fld) (r : Req) (s : State) :
    j.only (cmdIdentify r s).1 = j.only s := by
  simp [cmdIdentify, *]
@[simp] theorem cmdModeStatus_only (j : Fld) (r : Req) (s : State) :
    j.only (cmdModeStatus r s).1 = j.only s := by
  simp [cmdModeStatus, *]
@[simp] theorem cmdLaneTimeRead_only (j : Fld) (r : Req) (s : State) :
    j.only (cmdLaneTimeRead r s).1 = j.only s := by
  simp [cmdLaneTimeRead, *]
@[simp] theorem cmdWakeRecordRead_only (j : Fld) (r : Req) (s : State) :
    j.only (cmdWakeRecordRead r s).1 = j.only s := by
  simp [cmdWakeRecordRead, *]
@[simp] theorem cmdEcho_only (j : Fld) (r : Req) (s : State) :
    j.only (cmdEcho r s).1 = j.only s := by
  simp [cmdEcho, *]

/-! ### Firmware -/

@[simp] theorem confirmSteps_only (j : Fld) (s : State) (h_alm : j ≠ .alm) (h_fw : j ≠ .fw) :
    j.only (confirmSteps s) = j.only s := by
  simp [confirmSteps, *]
@[simp] theorem cmdFwStage_only (j : Fld) (r : Req) (s : State) (h_fw : j ≠ .fw) :
    j.only (cmdFwStage r s).1 = j.only s := by
  unfold cmdFwStage
  (try simp [*]) <;> repeat' ((first | split | intro _) <;> try simp [*])
@[simp] theorem finishFwStage_only (j : Fld) (s : State) (h_mbx : j ≠ .mbx) :
    j.only (finishFwStage s) = j.only s := by
  unfold finishFwStage
  (try simp [*]) <;> repeat' ((first | split | intro _) <;> try simp [*])
@[simp] theorem doFwStage_only (j : Fld) (r : Req) (s : State) (h_out : j ≠ .out) (h_mbx : j ≠ .mbx) (h_fw : j ≠ .fw) :
    j.only (doFwStage r s) = j.only s := by
  simp [doFwStage, *]
@[simp] theorem cmdFwActivate_only (j : Fld) (r : Req) (s : State) (h_alm : j ≠ .alm) (h_sup : j ≠ .sup) (h_fw : j ≠ .fw) :
    j.only (cmdFwActivate r s).1 = j.only s := by
  unfold cmdFwActivate
  (try simp [*]) <;> repeat' ((first | split | intro _) <;> try simp [*])
@[simp] theorem finishFwActivate_only (j : Fld) (s : State) (h_mbx : j ≠ .mbx) :
    j.only (finishFwActivate s) = j.only s := by
  simp [finishFwActivate, *]
@[simp] theorem doFwActivate_only (j : Fld) (r : Req) (s : State) (h_out : j ≠ .out) (h_mbx : j ≠ .mbx) (h_alm : j ≠ .alm)
    (h_sup : j ≠ .sup) (h_fw : j ≠ .fw) :
    j.only (doFwActivate r s) = j.only s := by
  simp [doFwActivate, *]
@[simp] theorem cmdFwStatus_only (j : Fld) (r : Req) (s : State) :
    j.only (cmdFwStatus r s).1 = j.only s := by
  simp [cmdFwStatus, *]
@[simp] theorem recovLoad_only (j : Fld) (s : State) (h_fw : j ≠ .fw) :
    j.only (recovLoad s) = j.only s := by
  simp [recovLoad, *]
@[simp] theorem recovAbort_only (j : Fld) (s : State) (h_fw : j ≠ .fw) :
    j.only (recovAbort s) = j.only s := by
  simp [recovAbort, *]

/-! ### ModeOps -/

@[simp] theorem modeFinal_only (j : Fld) (req : Option Nat) (status result : Nat) (s : State) (h_mbx : j ≠ .mbx) :
    j.only (modeFinal req status result s) = j.only s := by
  unfold modeFinal
  (try simp [*]) <;> repeat' ((first | split | intro _) <;> try simp [*])
@[simp] theorem modeEvent_only (j : Fld) (skip : List (Fin 8)) (s : State) (h_mbx : j ≠ .mbx) (h_pmu : j ≠ .pmu) :
    j.only (modeEvent skip s) = j.only s := by
  simp [modeEvent, *]
@[simp] theorem trialTick_only (j : Fld) (old new : Mode) (s : State) (h_fw : j ≠ .fw) :
    j.only (trialTick old new s) = j.only s := by
  unfold trialTick
  (try simp [*]) <;> repeat' ((first | split | intro _) <;> try simp [*])
@[simp] theorem modeFollow_only (j : Fld) (s : State) (h_mbx : j ≠ .mbx) (h_pmu : j ≠ .pmu) :
    j.only (modeFollow s) = j.only s := by
  unfold modeFollow
  (try simp [*]) <;> repeat' ((first | split | intro _) <;> try simp [*])
@[simp] theorem availService_only (j : Fld) (old new : Mode) (s : State) (h_avail : j ≠ .avail) :
    j.only (availService old new s) = j.only s := by
  unfold availService
  (try simp [*]) <;> repeat' ((first | split | intro _) <;> try simp [*])
@[simp] theorem modeSync_only (j : Fld) (s : State) (h_mbx : j ≠ .mbx) (h_pmu : j ≠ .pmu) (h_fw : j ≠ .fw)
    (h_avail : j ≠ .avail) :
    j.only (modeSync s) = j.only s := by
  unfold modeSync
  (try simp [*]) <;> repeat' ((first | split | intro _) <;> try simp [*])
@[simp] theorem availStop_only (j : Fld) (ps : List Nat) (forced : Bool) (s : State) (h_avail : j ≠ .avail) :
    j.only (availStop ps forced s) = j.only s := by
  simp [availStop, *]
@[simp] theorem availGo_only (j : Fld) (p : Nat) (s : State) (h_avail : j ≠ .avail) :
    j.only (availGo p s) = j.only s := by
  simp [availGo, *]

/-! ### AlmanacWrite -/

@[simp] theorem almCarry_only (j : Fld) (l : List (Nat × Word)) (bad : Option Nat) (s : State) (h_freeSeq : j ≠ .freeSeq)
    (h_mbx : j ≠ .mbx) (h_flt : j ≠ .flt) (h_alm : j ≠ .alm) (h_pmu : j ≠ .pmu) (h_fw : j ≠ .fw) (h_avail : j ≠ .avail) :
    j.only (almCarry l bad s).1 = j.only s := by
  unfold almCarry
  (try simp [*]) <;> repeat' ((first | split | intro _) <;> try simp [*])
@[simp] theorem persist_only (j : Fld) (l : List (Nat × Word)) (bad : Option Nat) (s : State) (h_freeSeq : j ≠ .freeSeq)
    (h_mbx : j ≠ .mbx) (h_flt : j ≠ .flt) (h_alm : j ≠ .alm) (h_pmu : j ≠ .pmu) (h_fw : j ≠ .fw) (h_avail : j ≠ .avail) :
    j.only (persist l bad s).1 = j.only s := by
  simp [persist, *]
@[simp] theorem cmdAlmanacWrite_only (j : Fld) (r : Req) (s : State) (h_freeSeq : j ≠ .freeSeq) (h_mbx : j ≠ .mbx)
    (h_flt : j ≠ .flt) (h_alm : j ≠ .alm) (h_pmu : j ≠ .pmu) (h_fw : j ≠ .fw) (h_avail : j ≠ .avail) :
    j.only (cmdAlmanacWrite r s).1 = j.only s := by
  unfold cmdAlmanacWrite
  (try simp [*]) <;> repeat' ((first | split | intro _) <;> try simp [*])
@[simp] theorem skipRule_only (j : Fld) (i : Nat) (s : State) (h_vig : j ≠ .vig) :
    j.only (skipRule i s) = j.only s := by
  unfold skipRule
  (try simp [*]) <;> repeat' ((first | split | intro _) <;> try simp [*])
@[simp] theorem cmdGuardRuleSet_only (j : Fld) (r : Req) (s : State) (h_freeSeq : j ≠ .freeSeq) (h_mbx : j ≠ .mbx)
    (h_flt : j ≠ .flt) (h_alm : j ≠ .alm) (h_pmu : j ≠ .pmu) (h_fw : j ≠ .fw) (h_avail : j ≠ .avail) (h_vig : j ≠ .vig) :
    j.only (cmdGuardRuleSet r s).1 = j.only s := by
  simp [cmdGuardRuleSet, *]

/-! ### PortOps -/

@[simp] theorem setDs_only (j : Fld) (d : DS) (x : DsData) (s : State) (h_dsd : j ≠ .dsd) :
    j.only (setDs d x s) = j.only s := by
  simp [setDs, *]
@[simp] theorem modDs_only (j : Fld) (d : DS) (f : DsData → DsData) (s : State) (h_dsd : j ≠ .dsd) :
    j.only (modDs d f s) = j.only s := by
  simp [modDs, *]
@[simp] theorem modUs_only (j : Fld) (u : US) (f : UsData → UsData) (s : State) (h_usd : j ≠ .usd) :
    j.only (modUs u f s) = j.only s := by
  simp [modUs, *]
@[simp] theorem modHub_only (j : Fld) (u : US) (f : Hub → Hub) (s : State) (h_hubs : j ≠ .hubs) :
    j.only (modHub u f s) = j.only s := by
  simp [modHub, *]
@[simp] theorem setHubState_only (j : Fld) (u : US) (h : HubState) (s : State) (h_mbx : j ≠ .mbx) (h_pmu : j ≠ .pmu)
    (h_fw : j ≠ .fw) (h_avail : j ≠ .avail) (h_hubs : j ≠ .hubs) :
    j.only (setHubState u h s) = j.only s := by
  simp [setHubState, *]
@[simp] theorem setOwner_only (j : Fld) (d : DS) (o : Option US) (s : State) (h_own : j ≠ .own) :
    j.only (setOwner d o s) = j.only s := by
  simp [setOwner, *]
@[simp] theorem modSlot_only (j : Fld) (u : US) (v : Fin 15) (f : SlotSt → SlotSt) (s : State) (h_hubs : j ≠ .hubs) :
    j.only (modSlot u v f s) = j.only s := by
  simp [modSlot, *]
@[simp] theorem chgSlot_only (j : Fld) (u : US) (v : Fin 15) (ss : Bool) (c : Change) (s : State) (h_hubs : j ≠ .hubs) :
    j.only (chgSlot u v ss c s) = j.only s := by
  simp [chgSlot, *]
@[simp] theorem chgPort_only (j : Fld) (d : DS) (ss : Bool) (c : Change) (s : State) (h_hubs : j ≠ .hubs) :
    j.only (chgPort d ss c s) = j.only s := by
  unfold chgPort
  (try simp [*]) <;> repeat' ((first | split | intro _) <;> try simp [*])
@[simp] theorem overCurrentOn_only (j : Fld) (d : DS) (s : State) (h_hubs : j ≠ .hubs) :
    j.only (overCurrentOn d s) = j.only s := by
  unfold overCurrentOn
  (try simp [*]) <;> repeat' ((first | split | intro _) <;> try simp [*])
@[simp] theorem overCurrentOff_only (j : Fld) (d : DS) (s : State) (h_hubs : j ≠ .hubs) :
    j.only (overCurrentOff d s) = j.only s := by
  unfold overCurrentOff
  (try simp [*]) <;> repeat' ((first | split | intro _) <;> try simp [*])
@[simp] theorem presentSlots_only (j : Fld) (u : US) (ss : Bool) (s : State) (h_hubs : j ≠ .hubs) :
    j.only (presentSlots u ss s) = j.only s := by
  unfold presentSlots
  (try simp [*]) <;> repeat' ((first | split | intro _) <;> try simp [*])
@[simp] theorem presentWaiting_only (j : Fld) (u : US) (s : State) (h_hubs : j ≠ .hubs) (h_dsd : j ≠ .dsd) :
    j.only (presentWaiting u s) = j.only s := by
  simp [presentWaiting, *]
@[simp] theorem portEvent_only (j : Fld) (p : Port) (kind : Nat) (detail : List Byte) (skip : List (Fin 8)) (s : State)
    (h_mbx : j ≠ .mbx) :
    j.only (portEvent p kind detail skip s) = j.only s := by
  simp [portEvent, *]
@[simp] theorem applyRules_only (j : Fld) (d : DS) (x : DevId) (direct : Bool) (s : State) (h_dsd : j ≠ .dsd) :
    j.only (applyRules d x direct s) = j.only s := by
  unfold applyRules
  (try simp [*]) <;> repeat' ((first | split | intro _) <;> try simp [*])
@[simp] theorem writeWake_only (j : Fld) (cls port detail : Nat) (modeLeft : Mode) (replayed : Bool) (also coincident : Nat)
    (s : State) (h_wake : j ≠ .wake) :
    j.only (writeWake cls port detail modeLeft replayed also coincident s) = j.only s := by
  simp [writeWake, *]

/-! ### SsOps -/

@[simp] theorem modEpq_only (j : Fld) (q : Nat) (f : Epq → Epq) (s : State) (h_epqs : j ≠ .epqs) :
    j.only (modEpq q f s) = j.only s := by
  simp [modEpq, *]
@[simp] theorem modLink_only (j : Fld) (p : Port) (f : SsLink → SsLink) (s : State) (h_links : j ≠ .links) :
    j.only (modLink p f s) = j.only s := by
  simp [modLink, *]
@[simp] theorem setLink_only (j : Fld) (p : Port) (l : Link) (s : State) (h_dsd : j ≠ .dsd) (h_usd : j ≠ .usd) :
    j.only (setLink p l s) = j.only s := by
  unfold setLink
  (try simp [*]) <;> repeat' ((first | split | intro _) <;> try simp [*])
@[simp] theorem countDiscard_only (j : Fld) (p : Port) (q : Option Nat) (code : Nat) (s : State) (h_sched : j ≠ .sched) :
    j.only (countDiscard p q code s) = j.only s := by
  simp [countDiscard, *]
@[simp] theorem tagHead_only (j : Fld) (q : Nat) (s : State) (h_epqs : j ≠ .epqs) :
    j.only (tagHead q s) = j.only s := by
  unfold tagHead
  (try simp [*]) <;> repeat' ((first | split | intro _) <;> try simp [*])
@[simp] theorem touchEpq_only (j : Fld) (q : Nat) (s : State) (h_epqs : j ≠ .epqs) :
    j.only (touchEpq q s) = j.only s := by
  unfold touchEpq
  (try simp [*]) <;> repeat' ((first | split | intro _) <;> try simp [*])
@[simp] theorem admitWaiting_only (j : Fld) (q x1 : Nat) (x2 : State) (h_epqs : j ≠ .epqs) :
    j.only (admitWaiting q x1 x2) = j.only x2 := by
  induction x1 generalizing x2 with
  | zero => rfl
  | succ n ih =>
    unfold admitWaiting
    (try simp [*]) <;> repeat' ((first | split | intro _) <;> try simp [*])
@[simp] theorem admitVc_only (j : Fld) (vc : Nat) (s : State) (h_epqs : j ≠ .epqs) :
    j.only (admitVc vc s) = j.only s := by
  unfold admitVc
  (try simp [*]) <;> repeat' ((first | split | intro _) <;> try simp [*])
@[simp] theorem admitLoose_only (j : Fld) (p : Port) (x1 : Nat) (x2 : State) (h_links : j ≠ .links) :
    j.only (admitLoose p x1 x2) = j.only x2 := by
  induction x1 generalizing x2 with
  | zero => rfl
  | succ n ih =>
    unfold admitLoose
    (try simp [*]) <;> repeat' ((first | split | intro _) <;> try simp [*])
@[simp] theorem admitLinks_only (j : Fld) (s : State) (h_links : j ≠ .links) :
    j.only (admitLinks s) = j.only s := by
  unfold admitLinks
  (try simp [*]) <;> repeat' ((first | split | intro _) <;> try simp [*])
@[simp] theorem fabTurn_only (j : Fld) (s t : State) (h_fab : j ≠ .fab) :
    j.only (fabTurn s t) = j.only t := by
  unfold fabTurn
  split
  · exact only_fab j _ _ h_fab
  · rfl
@[simp] theorem admitQueues_only (j : Fld) (s : State) (h_epqs : j ≠ .epqs) (h_fab : j ≠ .fab) :
    j.only (admitQueues s) = j.only s := by
  unfold admitQueues
  (try simp [*]) <;> repeat' ((first | split | intro _) <;> try simp [*])
@[simp] theorem endDrained_only (j : Fld) (s : State) (h_epqs : j ≠ .epqs) :
    j.only (endDrained s) = j.only s := by
  unfold endDrained
  (try simp [*]) <;> repeat' ((first | split | intro _) <;> try simp [*])
@[simp] theorem settle_only (j : Fld) (s : State) (h_epqs : j ≠ .epqs) (h_links : j ≠ .links) (h_fab : j ≠ .fab) :
    j.only (settle s) = j.only s := by
  unfold settle
  simp [*]
@[simp] theorem enqueue_only (j : Fld) (q : Nat) (p : Pkt) (s : State) (h_epqs : j ≠ .epqs) (h_sched : j ≠ .sched) :
    j.only (enqueue q p s).1 = j.only s := by
  unfold enqueue
  (try simp [*]) <;> repeat' ((first | split | intro _) <;> try simp [*])
@[simp] theorem storeLoose_only (j : Fld) (out : Port) (p : Pkt) (s : State) (h_links : j ≠ .links) :
    j.only (storeLoose out p s) = j.only s := by
  unfold storeLoose
  (try simp [*]) <;> repeat' ((first | split | intro _) <;> try simp [*])
@[simp] theorem police_only (j : Fld) (q len : Nat) (s : State) (h_epqs : j ≠ .epqs) :
    j.only (police q len s).1 = j.only s := by
  unfold police
  (try simp [*]) <;> repeat' ((first | split | intro _) <;> try simp [*])
@[simp] theorem putHeader_only (j : Fld) (p : Port) (h : SsHeader) (s : State) (h_links : j ≠ .links) :
    j.only (putHeader p h s).2 = j.only s := by
  unfold putHeader
  (try simp [*]) <;> repeat' ((first | split | intro _) <;> try simp [*])
@[simp] theorem linkIn_only (j : Fld) (p : Port) (h : SsHeader) (crcOk : Bool) (s : State) (h_out : j ≠ .out) (h_dsd : j ≠ .dsd)
    (h_usd : j ≠ .usd) (h_links : j ≠ .links) :
    j.only (linkIn p h crcOk s).1 = j.only s := by
  unfold linkIn
  (try simp [*]) <;> repeat' ((first | split | intro _) <;> try simp [*])
@[simp] theorem resend_only (j : Fld) (p : Port) (s : State) (h_out : j ≠ .out) :
    j.only (resend p s) = j.only s := by
  unfold resend
  (try simp [*]) <;> repeat' ((first | split | intro _) <;> try simp [*])
@[simp] theorem flushHdr_only (j : Fld) (p : Port) (x1 : Nat) (x2 : State) (h_out : j ≠ .out) (h_links : j ≠ .links) :
    j.only (flushHdr p x1 x2) = j.only x2 := by
  induction x1 generalizing x2 with
  | zero => rfl
  | succ n ih =>
    unfold flushHdr
    (try simp [*]) <;> repeat' ((first | split | intro _) <;> try simp [*])
@[simp] theorem startExit_only (j : Fld) (p : Port) (s : State) (h_dsd : j ≠ .dsd) (h_usd : j ≠ .usd) (h_links : j ≠ .links) :
    j.only (startExit p s) = j.only s := by
  simp [startExit, *]
@[simp] theorem sendHeader_only (j : Fld) (inn p : Port) (h : SsHeader) (s : State) (h_out : j ≠ .out) (h_dsd : j ≠ .dsd)
    (h_usd : j ≠ .usd) (h_links : j ≠ .links) :
    j.only (sendHeader inn p h s) = j.only s := by
  simp [sendHeader, *]
@[simp] theorem chargeTp_only (j : Fld) (q : Option Nat) (l : Port) (s : State) (h_epqs : j ≠ .epqs) :
    j.only (chargeTp q l s) = j.only s := by
  unfold chargeTp
  (try simp [*]) <;> repeat' ((first | split | intro _) <;> try simp [*])
@[simp] theorem sendData_only (j : Fld) (q : Option Nat) (l : Port) (p : Pkt) (s : State) (h_out : j ≠ .out)
    (h_epqs : j ≠ .epqs) (h_links : j ≠ .links) :
    j.only (sendData q l p s) = j.only s := by
  unfold sendData
  (try simp [*]) <;> repeat' ((first | split | intro _) <;> try simp [*])
@[simp] theorem popHead_only (j : Fld) (q : Nat) (s : State) (h_epqs : j ≠ .epqs) :
    j.only (popHead q s) = j.only s := by
  simp [popHead, *]
@[simp] theorem dropPkts_only (j : Fld) (f : Epq → Pkt → Bool) (code : Nat) (s : State) (h_epqs : j ≠ .epqs)
    (h_sched : j ≠ .sched) :
    j.only (dropPkts f code s) = j.only s := by
  unfold dropPkts
  (try simp [*]) <;> repeat' ((first | split | intro _) <;> try simp [*])
@[simp] theorem dropComing_only (j : Fld) (p : Port) (code : Nat) (s : State) (h_links : j ≠ .links) (h_sched : j ≠ .sched) :
    j.only (dropComing p code s) = j.only s := by
  unfold dropComing
  refine foldl_only j _ (fun s x => ?_) _ _
  (try simp [*]) <;> repeat' ((first | split | intro _) <;> try simp [*])
@[simp] theorem dropLink_only (j : Fld) (p : Port) (code : Nat) (s : State) (h_links : j ≠ .links) (h_sched : j ≠ .sched) :
    j.only (dropLink p code s) = j.only s := by
  unfold dropLink
  (try simp [*]) <;> repeat' ((first | split | intro _) <;> try simp [*])
@[simp] theorem dropStored_only (j : Fld) (d : DS) (s : State) (h_epqs : j ≠ .epqs) (h_links : j ≠ .links)
    (h_sched : j ≠ .sched) (h_fab : j ≠ .fab) :
    j.only (dropStored d s) = j.only s := by
  simp [dropStored, *]
@[simp] theorem dropPort_only (j : Fld) (d : DS) (s : State) (h_epqs : j ≠ .epqs) (h_links : j ≠ .links) (h_sched : j ≠ .sched)
    (h_fab : j ≠ .fab) :
    j.only (dropPort d s) = j.only s := by
  unfold dropPort
  (try simp [*]) <;> repeat' ((first | split | intro _) <;> try simp [*])
@[simp] theorem dropHost_only (j : Fld) (u : US) (s : State) (h_epqs : j ≠ .epqs) (h_links : j ≠ .links) (h_sched : j ≠ .sched)
    (h_fab : j ≠ .fab) :
    j.only (dropHost u s) = j.only s := by
  unfold dropHost
  (try simp [*]) <;> repeat' ((first | split | intro _) <;> try simp [*])

/-! ### PlaceOps -/

@[simp] theorem modPlace_only (j : Fld) (f : Place → Place) (s : State) (h_place : j ≠ .place) :
    j.only (modPlace f s) = j.only s := by
  simp [modPlace, *]
@[simp] theorem copyShadow_only (j : Fld) (s : State) (h_place : j ≠ .place) :
    j.only (copyShadow s) = j.only s := by
  simp [copyShadow, *]
@[simp] theorem applyPins_only (j : Fld) (s : State) (h_place : j ≠ .place) :
    j.only (applyPins s) = j.only s := by
  unfold applyPins
  simp only []
  refine (foldl_only j _ (fun s x => ?_) _ _).trans ?_ <;> (try simp [*]) <;> repeat' ((first | split | intro _) <;> try simp [*])
@[simp] theorem applyTrs_only (j : Fld) (s : State) (h_place : j ≠ .place) :
    j.only (applyTrs s) = j.only s := by
  simp [applyTrs, *]
@[simp] theorem noteDelta_only (j : Fld) (x : Delta) (s : State) (h_place : j ≠ .place) :
    j.only (noteDelta x s) = j.only s := by
  unfold noteDelta
  (try simp [*]) <;> repeat' ((first | split | intro _) <;> try simp [*])
@[simp] theorem openEpq_only (j : Fld) (d : DS) (hubPort daddr ctx : Nat) (ss evidence : Bool) (x : EpDesc) (s : State)
    (h_epqs : j ≠ .epqs) (h_place : j ≠ .place) :
    j.only (openEpq d hubPort daddr ctx ss evidence x s) = j.only s := by
  unfold openEpq
  (try simp [*]) <;> repeat' ((first | split | intro _) <;> try simp [*])
@[simp] theorem placeUnplaced_only (j : Fld) (s : State) (h_epqs : j ≠ .epqs) (h_place : j ≠ .place) :
    j.only (placeUnplaced s) = j.only s := by
  unfold placeUnplaced
  refine (foldl_only j _ (fun s x => ?_) _ _).trans ?_ <;> (try simp [*]) <;> repeat' ((first | split | intro _) <;> try simp [*])
@[simp] theorem closeEpq_only (j : Fld) (q : Nat) (s : State) (h_mbx : j ≠ .mbx) (h_epqs : j ≠ .epqs) (h_links : j ≠ .links)
    (h_sched : j ≠ .sched) (h_place : j ≠ .place) (h_fab : j ≠ .fab) :
    j.only (closeEpq q s) = j.only s := by
  unfold closeEpq
  (try simp [*]) <;> repeat' ((first | split | intro _) <;> try simp [*])
@[simp] theorem closeWhere_only (j : Fld) (f : Epq → Bool) (s : State) (h_mbx : j ≠ .mbx) (h_epqs : j ≠ .epqs)
    (h_links : j ≠ .links) (h_sched : j ≠ .sched) (h_place : j ≠ .place) (h_fab : j ≠ .fab) :
    j.only (closeWhere f s) = j.only s := by
  simp [closeWhere, *]
@[simp] theorem trChange_only (j : Fld) (c : Nat) (e : Option TrEnt) (s : State) (h_place : j ≠ .place) :
    j.only (trChange c e s) = j.only s := by
  simp [trChange, *]
@[simp] theorem trClear_only (j : Fld) (c : Nat) (s : State) (h_place : j ≠ .place) :
    j.only (trClear c s) = j.only s := by
  simp [trClear, *]
@[simp] theorem beginRebuild_only (j : Fld) (t0 : Nat) (nowTick : Bool) (s : State) (h_place : j ≠ .place) :
    j.only (beginRebuild t0 nowTick s) = j.only s := by
  simp [beginRebuild, *]
@[simp] theorem mergeLog_only (j : Fld) (s : State) (h_place : j ≠ .place) :
    j.only (mergeLog s) = j.only s := by
  unfold mergeLog
  (try simp [*]) <;> repeat' ((first | split | intro _) <;> try simp [*])
@[simp] theorem takePlaces_only (j : Fld) (s : State) (h_epqs : j ≠ .epqs) :
    j.only (takePlaces s) = j.only s := by
  unfold takePlaces
  refine foldl_only j _ (fun s x => ?_) _ _
  (try simp [*]) <;> repeat' ((first | split | intro _) <;> try simp [*])
@[simp] theorem equinoxSwap_only (j : Fld) (s : State) (h_mbx : j ≠ .mbx) (h_epqs : j ≠ .epqs) (h_links : j ≠ .links)
    (h_place : j ≠ .place) (h_fab : j ≠ .fab) :
    j.only (equinoxSwap s) = j.only s := by
  unfold equinoxSwap
  (try simp [*]) <;> repeat' ((first | split | intro _) <;> try simp [*])
@[simp] theorem abandonRebuild_only (j : Fld) (s : State) (h_place : j ≠ .place) :
    j.only (abandonRebuild s) = j.only s := by
  simp [abandonRebuild, *]
@[simp] theorem reclaimTags_only (j : Fld) (c : Fin 8) (s : State) (h_epqs : j ≠ .epqs) (h_u2d : j ≠ .u2d) :
    j.only (reclaimTags c s) = j.only s := by
  unfold reclaimTags
  (try simp [*]) <;> repeat' ((first | split | intro _) <;> try simp [*])
@[simp] theorem rePlace_only (j : Fld) (c : Fin 8) (s : State) (h_epqs : j ≠ .epqs) (h_links : j ≠ .links)
    (h_place : j ≠ .place) (h_fab : j ≠ .fab) (h_u2d : j ≠ .u2d) :
    j.only (rePlace c s) = j.only s := by
  simp [rePlace, *]

/-! ### VigilOps -/

@[simp] theorem modU2d_only (j : Fld) (d : DS) (f : Usb2 → Usb2) (s : State) (h_u2d : j ≠ .u2d) :
    j.only (modU2d d f s) = j.only s := by
  simp [modU2d, *]
@[simp] theorem modU2u_only (j : Fld) (u : US) (f : Us2 → Us2) (s : State) (h_u2u : j ≠ .u2u) :
    j.only (modU2u u f s) = j.only s := by
  simp [modU2u, *]
@[simp] theorem modTt_only (j : Fld) (d : DS) (f : Tt → Tt) (s : State) (h_u2d : j ≠ .u2d) :
    j.only (modTt d f s) = j.only s := by
  simp [modTt, *]
@[simp] theorem ttClear_only (j : Fld) (d : DS) (s : State) (h_epqs : j ≠ .epqs) (h_links : j ≠ .links) (h_fab : j ≠ .fab)
    (h_u2d : j ≠ .u2d) :
    j.only (ttClear d s) = j.only s := by
  simp [ttClear, *]
@[simp] theorem ttReset_only (j : Fld) (d : DS) (s : State) (h_epqs : j ≠ .epqs) (h_links : j ≠ .links) (h_fab : j ≠ .fab)
    (h_u2d : j ≠ .u2d) :
    j.only (ttReset d s) = j.only s := by
  simp [ttReset, *]
@[simp] theorem ttMoved_only (j : Fld) (d : DS) (s : State) (h_epqs : j ≠ .epqs) (h_links : j ≠ .links) (h_fab : j ≠ .fab)
    (h_u2d : j ≠ .u2d) :
    j.only (ttMoved d s) = j.only s := by
  unfold ttMoved
  (try simp [*]) <;> repeat' ((first | split | intro _) <;> try simp [*])
@[simp] theorem modVig_only (j : Fld) (f : Vig → Vig) (s : State) (h_vig : j ≠ .vig) :
    j.only (modVig f s) = j.only s := by
  simp [modVig, *]
@[simp] theorem modVigHub_only (j : Fld) (u : US) (f : VigHub → VigHub) (s : State) (h_vig : j ≠ .vig) :
    j.only (modVigHub u f s) = j.only s := by
  simp [modVigHub, *]
@[simp] theorem modCtx_only (j : Fld) (c : Nat) (f : Ctx → Ctx) (s : State) (h_vig : j ≠ .vig) :
    j.only (modCtx c f s) = j.only s := by
  simp [modCtx, *]
@[simp] theorem giveCtx_only (j : Fld) (d : DS) (hubPort speed : Nat) (s : State) (h_vig : j ≠ .vig) :
    j.only (giveCtx d hubPort speed s) = j.only s := by
  unfold giveCtx
  (try simp [*]) <;> repeat' ((first | split | intro _) <;> try simp [*])
@[simp] theorem deviceArrived_only (j : Fld) (d : DS) (ss : Bool) (s : State) (h_vig : j ≠ .vig) :
    j.only (deviceArrived d ss s) = j.only s := by
  simp [deviceArrived, *]
@[simp] theorem modRing_only (j : Fld) (d : DS) (f : CapRing → CapRing) (s : State) (h_vig : j ≠ .vig) :
    j.only (modRing d f s) = j.only s := by
  simp [modRing, *]
@[simp] theorem captureEvent_only (j : Fld) (d : DS) (kind : Nat) (s : State) (h_mbx : j ≠ .mbx) :
    j.only (captureEvent d kind s) = j.only s := by
  simp [captureEvent, *]
@[simp] theorem capture_only (j : Fld) (d : DS) (typ flags hubPort daddr epdir time : Nat) (payload : List Byte) (s : State)
    (h_mbx : j ≠ .mbx) (h_vig : j ≠ .vig) :
    j.only (capture d typ flags hubPort daddr epdir time payload s) = j.only s := by
  simp [capture, *]
@[simp] theorem captureData_only (j : Fld) (c : Ctx) (ep flags time : Nat) (payload : List Byte) (s : State) (h_mbx : j ≠ .mbx)
    (h_vig : j ≠ .vig) :
    j.only (captureData c ep flags time payload s) = j.only s := by
  simp [captureData, *]
@[simp] theorem vigilEvent_only (j : Fld) (ks : List (Fin 8)) (unit kind code ctx : Nat) (s : State) (h_mbx : j ≠ .mbx) :
    j.only (vigilEvent ks unit kind code ctx s) = j.only s := by
  simp [vigilEvent, *]
@[simp] theorem modFo_only (j : Fld) (u : US) (f : FoHub → FoHub) (s : State) (h_fo : j ≠ .fo) :
    j.only (modFo u f s) = j.only s := by
  simp [modFo, *]
@[simp] theorem hubTo_only (j : Fld) (u : US) (h : HubState) (s : State) (h_mbx : j ≠ .mbx) (h_pmu : j ≠ .pmu) (h_fw : j ≠ .fw)
    (h_avail : j ≠ .avail) (h_hubs : j ≠ .hubs) (h_fo : j ≠ .fo) :
    j.only (hubTo u h s) = j.only s := by
  simp [hubTo, *]
@[simp] theorem releaseCtx_only (j : Fld) (c reason : Nat) (s : State) (h_mbx : j ≠ .mbx) (h_epqs : j ≠ .epqs)
    (h_place : j ≠ .place) (h_u2d : j ≠ .u2d) (h_vig : j ≠ .vig) :
    j.only (releaseCtx c reason s) = j.only s := by
  unfold releaseCtx
  (try simp [*]) <;> repeat' ((first | split | intro _) <;> try simp [*])
@[simp] theorem releaseBare_only (j : Fld) (d : DS) (reason : Nat) (s : State) (h_mbx : j ≠ .mbx) (h_vig : j ≠ .vig) :
    j.only (releaseBare d reason s) = j.only s := by
  simp [releaseBare, *]
@[simp] theorem releasePort_only (j : Fld) (d : DS) (reason : Nat) (s : State) (h_mbx : j ≠ .mbx) (h_epqs : j ≠ .epqs)
    (h_place : j ≠ .place) (h_u2d : j ≠ .u2d) (h_vig : j ≠ .vig) :
    j.only (releasePort d reason s) = j.only s := by
  simp [releasePort, *]
@[simp] theorem retranslate_only (j : Fld) (c : Nat) (s : State) (h_place : j ≠ .place) :
    j.only (retranslate c s) = j.only s := by
  unfold retranslate
  (try simp [*]) <;> repeat' ((first | split | intro _) <;> try simp [*])
@[simp] theorem modEp_only (j : Fld) (c ep : Nat) (dirIn : Bool) (f : EpRec → EpRec) (s : State) (h_vig : j ≠ .vig) :
    j.only (modEp c ep dirIn f s) = j.only s := by
  simp [modEp, *]
@[simp] theorem hostSeen_only (j : Fld) (u : US) (s : State) (h_avail : j ≠ .avail) (h_u2u : j ≠ .u2u) (h_vig : j ≠ .vig)
    (h_fo : j ≠ .fo) :
    j.only (hostSeen u s) = j.only s := by
  simp [hostSeen, *]
@[simp] theorem hubPresence_only (j : Fld) (u : US) (s : State) (h_mbx : j ≠ .mbx) (h_pmu : j ≠ .pmu) (h_fw : j ≠ .fw)
    (h_avail : j ≠ .avail) (h_hubs : j ≠ .hubs) (h_fo : j ≠ .fo) :
    j.only (hubPresence u s) = j.only s := by
  unfold hubPresence
  (try simp [*]) <;> repeat' ((first | split | intro _) <;> try simp [*])
@[simp] theorem captureTt_only (j : Fld) (d : DS) (s : State) (h_mbx : j ≠ .mbx) (h_u2d : j ≠ .u2d) (h_vig : j ≠ .vig) :
    j.only (captureTt d s) = j.only s := by
  unfold captureTt
  refine (modTt_only j _ _ _ h_u2d).trans ((foldl_only j _ (fun s x => ?_) _ _)) <;> (try simp [*]) <;> repeat' ((first | split | intro _) <;> try simp [*])
@[simp] theorem captureSs_only (j : Fld) (d : DS) (s : State) (h_mbx : j ≠ .mbx) (h_epqs : j ≠ .epqs) (h_links : j ≠ .links)
    (h_fab : j ≠ .fab) (h_vig : j ≠ .vig) :
    j.only (captureSs d s) = j.only s := by
  unfold captureSs
  simp only []
  refine (foldl_only j _ (fun s x => ?_) _ _).trans ?_ <;> (try simp [*]) <;> repeat' ((first | split | intro _) <;> try simp [*])
@[simp] theorem holdCtxs_only (j : Fld) (d : DS) (s : State) (h_u2d : j ≠ .u2d) (h_vig : j ≠ .vig) :
    j.only (holdCtxs d s) = j.only s := by
  unfold holdCtxs
  (try simp [*]) <;> repeat' ((first | split | intro _) <;> try simp [*])
@[simp] theorem holdPort_only (j : Fld) (d : DS) (s : State) (h_mbx : j ≠ .mbx) (h_dsd : j ≠ .dsd) (h_epqs : j ≠ .epqs)
    (h_links : j ≠ .links) (h_fab : j ≠ .fab) (h_u2d : j ≠ .u2d) (h_vig : j ≠ .vig) :
    j.only (holdPort d s) = j.only s := by
  simp [holdPort, *]
@[simp] theorem beginEpisode_only (j : Fld) (was : Bool) (d : DS) (start : Nat) (s : State) (h_mbx : j ≠ .mbx)
    (h_vig : j ≠ .vig) :
    j.only (beginEpisode was d start s) = j.only s := by
  unfold beginEpisode
  (try simp [*]) <;> repeat' ((first | split | intro _) <;> try simp [*])
@[simp] theorem losePort_only (j : Fld) (u : US) (holds : Bool) (episode : Nat) (d : DS) (s : State) (h_mbx : j ≠ .mbx)
    (h_dsd : j ≠ .dsd) (h_epqs : j ≠ .epqs) (h_links : j ≠ .links) (h_place : j ≠ .place) (h_fab : j ≠ .fab) (h_u2d : j ≠ .u2d)
    (h_vig : j ≠ .vig) :
    j.only (losePort u holds episode d s) = j.only s := by
  simp [losePort, *]
@[simp] theorem enterVigil_only (j : Fld) (u : US) (episode : Nat) (s : State) (h_mbx : j ≠ .mbx) (h_pmu : j ≠ .pmu)
    (h_fw : j ≠ .fw) (h_avail : j ≠ .avail) (h_hubs : j ≠ .hubs) (h_dsd : j ≠ .dsd) (h_epqs : j ≠ .epqs) (h_links : j ≠ .links)
    (h_place : j ≠ .place) (h_fab : j ≠ .fab) (h_u2d : j ≠ .u2d) (h_vig : j ≠ .vig) (h_fo : j ≠ .fo) :
    j.only (enterVigil u episode s) = j.only s := by
  simp [enterVigil, *]
@[simp] theorem hostRestart_only (j : Fld) (u : US) (s : State) (h_mbx : j ≠ .mbx) (h_pmu : j ≠ .pmu) (h_fw : j ≠ .fw)
    (h_avail : j ≠ .avail) (h_hubs : j ≠ .hubs) (h_dsd : j ≠ .dsd) (h_epqs : j ≠ .epqs) (h_links : j ≠ .links)
    (h_place : j ≠ .place) (h_fab : j ≠ .fab) (h_u2d : j ≠ .u2d) (h_vig : j ≠ .vig) (h_fo : j ≠ .fo) :
    j.only (hostRestart u s) = j.only s := by
  unfold hostRestart
  (try simp [*]) <;> repeat' ((first | split | intro _) <;> try simp [*])
@[simp] theorem detachData_only (j : Fld) (d : DS) (usb2 ss : Bool) (s : State) (h_mbx : j ≠ .mbx) (h_avail : j ≠ .avail)
    (h_hubs : j ≠ .hubs) (h_dsd : j ≠ .dsd) (h_epqs : j ≠ .epqs) (h_links : j ≠ .links) (h_sched : j ≠ .sched)
    (h_place : j ≠ .place) (h_fab : j ≠ .fab) (h_u2d : j ≠ .u2d) (h_vig : j ≠ .vig) :
    j.only (detachData d usb2 ss s) = j.only s := by
  simp [detachData, *]
@[simp] theorem moveHeld_only (j : Fld) (d : DS) (keep : Bool) (s : State) (h_mbx : j ≠ .mbx) (h_epqs : j ≠ .epqs)
    (h_links : j ≠ .links) (h_fab : j ≠ .fab) (h_u2d : j ≠ .u2d) (h_vig : j ≠ .vig) :
    j.only (moveHeld d keep s) = j.only s := by
  unfold moveHeld
  (try simp [*]) <;> repeat' ((first | split | intro _) <;> try simp [*])
@[simp] theorem keepMoved_only (j : Fld) (d : DS) (m : Move) (s : State) (h_mbx : j ≠ .mbx) (h_epqs : j ≠ .epqs)
    (h_links : j ≠ .links) (h_fab : j ≠ .fab) (h_u2d : j ≠ .u2d) (h_vig : j ≠ .vig) :
    j.only (keepMoved d m s) = j.only s := by
  unfold keepMoved
  (try simp [*]) <;> repeat' ((first | split | intro _) <;> try simp [*])
@[simp] theorem releaseMoved_only (j : Fld) (d : DS) (_m : Move) (s : State) (h_mbx : j ≠ .mbx) (h_epqs : j ≠ .epqs)
    (h_links : j ≠ .links) (h_sched : j ≠ .sched) (h_place : j ≠ .place) (h_fab : j ≠ .fab) (h_u2d : j ≠ .u2d)
    (h_vig : j ≠ .vig) :
    j.only (releaseMoved d _m s) = j.only s := by
  simp [releaseMoved, *]
@[simp] theorem withholdSs_only (j : Fld) (u : US) (s : State) (h_mbx : j ≠ .mbx) (h_avail : j ≠ .avail) (h_hubs : j ≠ .hubs)
    (h_dsd : j ≠ .dsd) (h_epqs : j ≠ .epqs) (h_links : j ≠ .links) (h_sched : j ≠ .sched) (h_place : j ≠ .place)
    (h_fab : j ≠ .fab) (h_u2d : j ≠ .u2d) (h_vig : j ≠ .vig) :
    j.only (withholdSs u s) = j.only s := by
  unfold withholdSs
  (try simp [*]) <;> repeat' ((first | split | intro _) <;> try simp [*])
@[simp] theorem usb2Up_only (j : Fld) (u : US) (s : State) (h_mbx : j ≠ .mbx) (h_avail : j ≠ .avail) (h_hubs : j ≠ .hubs)
    (h_dsd : j ≠ .dsd) (h_epqs : j ≠ .epqs) (h_links : j ≠ .links) (h_sched : j ≠ .sched) (h_place : j ≠ .place)
    (h_fab : j ≠ .fab) (h_u2d : j ≠ .u2d) (h_vig : j ≠ .vig) :
    j.only (usb2Up u s) = j.only s := by
  unfold usb2Up
  (try simp [*]) <;> repeat' ((first | split | intro _) <;> try simp [*])
@[simp] theorem ssUp_only (j : Fld) (u : US) (s : State) (h_hubs : j ≠ .hubs) :
    j.only (ssUp u s) = j.only s := by
  unfold ssUp
  (try simp [*]) <;> repeat' ((first | split | intro _) <;> try simp [*])
@[simp] theorem hubConnect_only (j : Fld) (u : US) (s : State) (h_hubs : j ≠ .hubs) (h_usd : j ≠ .usd) :
    j.only (hubConnect u s) = j.only s := by
  simp [hubConnect, *]
@[simp] theorem hubDisconnect_only (j : Fld) (u : US) (s : State) (h_hubs : j ≠ .hubs) (h_usd : j ≠ .usd) :
    j.only (hubDisconnect u s) = j.only s := by
  simp [hubDisconnect, *]
@[simp] theorem enterU3_only (j : Fld) (u : US) (s : State) (h_mbx : j ≠ .mbx) (h_pmu : j ≠ .pmu) (h_fw : j ≠ .fw)
    (h_avail : j ≠ .avail) (h_hubs : j ≠ .hubs) (h_dsd : j ≠ .dsd) (h_usd : j ≠ .usd) (h_fo : j ≠ .fo) :
    j.only (enterU3 u s) = j.only s := by
  unfold enterU3
  (try simp [*]) <;> repeat' ((first | split | intro _) <;> try simp [*])
@[simp] theorem linkRested_only (j : Fld) (p : Port) (s : State) (h_mbx : j ≠ .mbx) (h_pmu : j ≠ .pmu) (h_fw : j ≠ .fw)
    (h_avail : j ≠ .avail) (h_hubs : j ≠ .hubs) (h_dsd : j ≠ .dsd) (h_usd : j ≠ .usd) (h_fo : j ≠ .fo) :
    j.only (linkRested p s) = j.only s := by
  unfold linkRested
  (try simp [*]) <;> repeat' ((first | split | intro _) <;> try simp [*])

/-! ### Assign -/

@[simp] theorem quoteFailed_only (j : Fld) (d : DS) (s : State) (h_own : j ≠ .own) :
    j.only (quoteFailed d s) = j.only s := by
  simp [quoteFailed, *]
@[simp] theorem setSlots_only (j : Fld) (u : US) (l : List Slot) (s : State) (h_hubs : j ≠ .hubs) :
    j.only (setSlots u l s) = j.only s := by
  simp [setSlots, *]
@[simp] theorem startReconnect_only (j : Fld) (u : US) (s : State) (h_mbx : j ≠ .mbx) (h_pmu : j ≠ .pmu) (h_fw : j ≠ .fw)
    (h_avail : j ≠ .avail) (h_hubs : j ≠ .hubs) (h_dsd : j ≠ .dsd) (h_usd : j ≠ .usd) (h_epqs : j ≠ .epqs)
    (h_links : j ≠ .links) (h_sched : j ≠ .sched) (h_place : j ≠ .place) (h_fab : j ≠ .fab) (h_u2d : j ≠ .u2d)
    (h_vig : j ≠ .vig) (h_fo : j ≠ .fo) :
    j.only (startReconnect u s) = j.only s := by
  simp [startReconnect, *]
@[simp] theorem applySlots_only (j : Fld) (u : Option US) (slots : Option (List Slot)) (reconnect : Bool) (s : State)
    (h_mbx : j ≠ .mbx) (h_pmu : j ≠ .pmu) (h_fw : j ≠ .fw) (h_avail : j ≠ .avail) (h_hubs : j ≠ .hubs) (h_dsd : j ≠ .dsd)
    (h_usd : j ≠ .usd) (h_epqs : j ≠ .epqs) (h_links : j ≠ .links) (h_sched : j ≠ .sched) (h_place : j ≠ .place)
    (h_fab : j ≠ .fab) (h_u2d : j ≠ .u2d) (h_vig : j ≠ .vig) (h_fo : j ≠ .fo) :
    j.only (applySlots u slots reconnect s) = j.only s := by
  unfold applySlots
  (try simp [*]) <;> repeat' ((first | split | intro _) <;> try simp [*])
@[simp] theorem assignSlots_only (j : Fld) (r : Req) (u : US) (s : State) (h_freeSeq : j ≠ .freeSeq) (h_mbx : j ≠ .mbx)
    (h_flt : j ≠ .flt) (h_alm : j ≠ .alm) (h_pmu : j ≠ .pmu) (h_fw : j ≠ .fw) (h_avail : j ≠ .avail) (h_hubs : j ≠ .hubs)
    (h_dsd : j ≠ .dsd) (h_usd : j ≠ .usd) (h_epqs : j ≠ .epqs) (h_links : j ≠ .links) (h_sched : j ≠ .sched)
    (h_place : j ≠ .place) (h_fab : j ≠ .fab) (h_u2d : j ≠ .u2d) (h_vig : j ≠ .vig) (h_fo : j ≠ .fo) :
    j.only (assignSlots r u s).1 = j.only s := by
  unfold assignSlots
  (try simp [*]) <;> repeat' ((first | split | intro _) <;> try simp [*])
/-- A sealed port's command that its authenticator turns away changes only the failures counted. -/
theorem sealGate_only (j : Fld) {c : Prop} [Decidable c] (r : Req) (d : DS) (o : Option US) (m : Bool) (s s' : State)
    (h_freeSeq : j ≠ .freeSeq) (h_mbx : j ≠ .mbx) (h_flt : j ≠ .flt) (h_own : j ≠ .own)
    (h : (if c then sealCheck r d o m s else none) = some s') : j.only s' = j.only s := by
  split at h
  · unfold sealCheck at h
    (repeat' split at h) <;> simp_all <;> (subst h; simp [*])
  · contradiction
@[simp] theorem assignPort_only (j : Fld) (r : Req) (d : DS) (s : State) (h_freeSeq : j ≠ .freeSeq) (h_mbx : j ≠ .mbx)
    (h_flt : j ≠ .flt) (h_alm : j ≠ .alm) (h_pmu : j ≠ .pmu) (h_fw : j ≠ .fw) (h_avail : j ≠ .avail) (h_hubs : j ≠ .hubs)
    (h_own : j ≠ .own) (h_dsd : j ≠ .dsd) (h_usd : j ≠ .usd) (h_epqs : j ≠ .epqs) (h_links : j ≠ .links) (h_sched : j ≠ .sched)
    (h_place : j ≠ .place) (h_fab : j ≠ .fab) (h_u2d : j ≠ .u2d) (h_vig : j ≠ .vig) (h_fo : j ≠ .fo) :
    j.only (assignPort r d s).1 = j.only s := by
  unfold assignPort
  (((try simp [*]) <;> repeat' ((first | split | intro _) <;> try simp [*]))) <;> exact sealGate_only j _ _ _ _ _ _ h_freeSeq h_mbx h_flt h_own (by assumption)
@[simp] theorem cmdPortAssign_only (j : Fld) (r : Req) (s : State) (h_freeSeq : j ≠ .freeSeq) (h_mbx : j ≠ .mbx)
    (h_flt : j ≠ .flt) (h_alm : j ≠ .alm) (h_pmu : j ≠ .pmu) (h_fw : j ≠ .fw) (h_avail : j ≠ .avail) (h_hubs : j ≠ .hubs)
    (h_own : j ≠ .own) (h_dsd : j ≠ .dsd) (h_usd : j ≠ .usd) (h_epqs : j ≠ .epqs) (h_links : j ≠ .links) (h_sched : j ≠ .sched)
    (h_place : j ≠ .place) (h_fab : j ≠ .fab) (h_u2d : j ≠ .u2d) (h_vig : j ≠ .vig) (h_fo : j ≠ .fo) :
    j.only (cmdPortAssign r s).1 = j.only s := by
  unfold cmdPortAssign
  (try simp [*]) <;> repeat' ((first | split | intro _) <;> try simp [*])
@[simp] theorem setMove_only (j : Fld) (d : DS) (m : Option Move) (s : State) (h_own : j ≠ .own) :
    j.only (setMove d m s) = j.only s := by
  simp [setMove, *]
@[simp] theorem moveOldOwner_only (j : Fld) (d : DS) (s : State) (h_now : j ≠ .now) (h_mbx : j ≠ .mbx) (h_hubs : j ≠ .hubs)
    (h_own : j ≠ .own) (h_epqs : j ≠ .epqs) (h_links : j ≠ .links) (h_fab : j ≠ .fab) (h_u2d : j ≠ .u2d) (h_vig : j ≠ .vig) :
    j.only (moveOldOwner d s) = j.only s := by
  unfold moveOldOwner
  (try simp [*]) <;> repeat' ((first | split | intro _) <;> try simp [*])
@[simp] theorem movedPort_only (j : Fld) (d : DS) (s : State) (h_dsd : j ≠ .dsd) :
    j.only (movedPort d s) = j.only s := by
  unfold movedPort
  (try simp [*]) <;> repeat' ((first | split | intro _) <;> try simp [*])
@[simp] theorem moveShown_only (j : Fld) (d : DS) (s : State) (h_hubs : j ≠ .hubs) (h_dsd : j ≠ .dsd) :
    j.only (moveShown d s) = j.only s := by
  unfold moveShown
  (try simp [*]) <;> repeat' ((first | split | intro _) <;> try simp [*])
@[simp] theorem moveDrained_only (j : Fld) (d : DS) (s : State) (h_mbx : j ≠ .mbx) (h_avail : j ≠ .avail) (h_hubs : j ≠ .hubs)
    (h_own : j ≠ .own) (h_dsd : j ≠ .dsd) (h_epqs : j ≠ .epqs) (h_links : j ≠ .links) (h_sched : j ≠ .sched)
    (h_place : j ≠ .place) (h_fab : j ≠ .fab) (h_u2d : j ≠ .u2d) (h_vig : j ≠ .vig) :
    j.only (moveDrained d s) = j.only s := by
  unfold moveDrained
  (try simp [*]) <;> repeat' ((first | split | intro _) <;> try simp [*])

/-! ### Failover -/

@[simp] theorem setHome_only (j : Fld) (d : DS) (h : Option US) (s : State) (h_fo : j ≠ .fo) :
    j.only (setHome d h s) = j.only s := by
  simp [setHome, *]
@[simp] theorem partnerLost_only (j : Fld) (p : US) (s : State) (h_mbx : j ≠ .mbx) (h_pmu : j ≠ .pmu) (h_fw : j ≠ .fw)
    (h_avail : j ≠ .avail) (h_hubs : j ≠ .hubs) (h_own : j ≠ .own) (h_dsd : j ≠ .dsd) (h_epqs : j ≠ .epqs)
    (h_links : j ≠ .links) (h_fab : j ≠ .fab) (h_u2d : j ≠ .u2d) (h_vig : j ≠ .vig) (h_fo : j ≠ .fo) :
    j.only (partnerLost p s) = j.only s := by
  simp [partnerLost, *]
@[simp] theorem hostLost_only (j : Fld) (u : US) (s : State) (h_mbx : j ≠ .mbx) (h_pmu : j ≠ .pmu) (h_fw : j ≠ .fw)
    (h_avail : j ≠ .avail) (h_hubs : j ≠ .hubs) (h_own : j ≠ .own) (h_dsd : j ≠ .dsd) (h_epqs : j ≠ .epqs)
    (h_links : j ≠ .links) (h_place : j ≠ .place) (h_fab : j ≠ .fab) (h_u2d : j ≠ .u2d) (h_vig : j ≠ .vig) (h_fo : j ≠ .fo) :
    j.only (hostLost u s) = j.only s := by
  unfold hostLost
  (try simp [*]) <;> repeat' ((first | split | intro _) <;> try simp [*])
@[simp] theorem startFailover_only (j : Fld) (u : US) (s : State) (h_fo : j ≠ .fo) :
    j.only (startFailover u s) = j.only s := by
  simp [startFailover, *]
@[simp] theorem startMove_only (j : Fld) (d : DS) (dest old : US) (keep : Bool) (cause : Nat) (s : State) (h_mbx : j ≠ .mbx)
    (h_hubs : j ≠ .hubs) (h_own : j ≠ .own) (h_epqs : j ≠ .epqs) (h_links : j ≠ .links) (h_fab : j ≠ .fab) (h_u2d : j ≠ .u2d)
    (h_vig : j ≠ .vig) :
    j.only (startMove d dest old keep cause s) = j.only s := by
  simp [startMove, *]
@[simp] theorem foNext_only (j : Fld) (u p : US) (x2 : Nat) (x3 : State) (h_mbx : j ≠ .mbx) (h_pmu : j ≠ .pmu) (h_fw : j ≠ .fw)
    (h_avail : j ≠ .avail) (h_hubs : j ≠ .hubs) (h_own : j ≠ .own) (h_epqs : j ≠ .epqs) (h_links : j ≠ .links)
    (h_fab : j ≠ .fab) (h_u2d : j ≠ .u2d) (h_vig : j ≠ .vig) (h_fo : j ≠ .fo) :
    j.only (foNext u p x2 x3) = j.only x3 := by
  induction x2 generalizing x3 with
  | zero => rfl
  | succ n ih =>
    unfold foNext
    (try simp [*]) <;> repeat' ((first | split | intro _) <;> try simp [*])
@[simp] theorem backDone_only (j : Fld) (u : US) (s : State) (h_mbx : j ≠ .mbx) (h_fo : j ≠ .fo) :
    j.only (backDone u s) = j.only s := by
  unfold backDone
  (try simp [*]) <;> repeat' ((first | split | intro _) <;> try simp [*])
@[simp] theorem backNext_only (j : Fld) (u : US) (x1 : Nat) (x2 : State) (h_mbx : j ≠ .mbx) (h_hubs : j ≠ .hubs)
    (h_own : j ≠ .own) (h_epqs : j ≠ .epqs) (h_links : j ≠ .links) (h_fab : j ≠ .fab) (h_u2d : j ≠ .u2d) (h_vig : j ≠ .vig)
    (h_fo : j ≠ .fo) :
    j.only (backNext u x1 x2) = j.only x2 := by
  induction x1 generalizing x2 with
  | zero => rfl
  | succ n ih =>
    unfold backNext
    (try simp [*]) <;> repeat' ((first | split | intro _) <;> try simp [*])
@[simp] theorem failoverMoved_only (j : Fld) (d : DS) (m : Option Move) (s : State) (h_mbx : j ≠ .mbx) (h_pmu : j ≠ .pmu)
    (h_fw : j ≠ .fw) (h_avail : j ≠ .avail) (h_hubs : j ≠ .hubs) (h_fo : j ≠ .fo) :
    j.only (failoverMoved d m s) = j.only s := by
  unfold failoverMoved
  (try simp [*]) <;> repeat' ((first | split | intro _) <;> try simp [*])
@[simp] theorem startBack_only (j : Fld) (u : US) (cmd : Bool) (ds : List DS) (s : State) (h_out : j ≠ .out) (h_usd : j ≠ .usd)
    (h_fo : j ≠ .fo) :
    j.only (startBack u cmd ds s) = j.only s := by
  simp [startBack, *]
@[simp] theorem cmdFailoverSet_only (j : Fld) (r : Req) (s : State) (h_freeSeq : j ≠ .freeSeq) (h_mbx : j ≠ .mbx)
    (h_flt : j ≠ .flt) (h_alm : j ≠ .alm) (h_pmu : j ≠ .pmu) (h_fw : j ≠ .fw) (h_avail : j ≠ .avail) (h_fo : j ≠ .fo) :
    j.only (cmdFailoverSet r s).1 = j.only s := by
  unfold cmdFailoverSet
  (try simp [*]) <;> repeat' ((first | split | intro _) <;> try simp [*])
@[simp] theorem cmdFailback_only (j : Fld) (r : Req) (s : State) (h_out : j ≠ .out) (h_usd : j ≠ .usd) (h_fo : j ≠ .fo) :
    j.only (cmdFailback r s).1 = j.only s := by
  unfold cmdFailback
  (try simp [*]) <;> repeat' ((first | split | intro _) <;> try simp [*])

/-! ### Usb2Path -/

@[simp] theorem downPacket_only (j : Fld) (d : DS) (k : UsbPkt) (s : State) (h_out : j ≠ .out) (h_u2d : j ≠ .u2d) :
    j.only (downPacket d k s) = j.only s := by
  unfold downPacket
  (try simp [*]) <;> repeat' ((first | split | intro _) <;> try simp [*])
@[simp] theorem meterHs_only (j : Fld) (d : DS) (l : HsLatch) (n : Nat) (s : State) (h_epqs : j ≠ .epqs) :
    j.only (meterHs d l n s) = j.only s := by
  unfold meterHs
  (try simp [*]) <;> repeat' ((first | split | intro _) <;> try simp [*])
@[simp] theorem endTransaction_only (j : Fld) (d : DS) (l : HsLatch) (fromHost : Bool) (h : Hsk) (s : State) (h_mbx : j ≠ .mbx)
    (h_avail : j ≠ .avail) (h_vig : j ≠ .vig) :
    j.only (endTransaction d l fromHost h s) = j.only s := by
  unfold endTransaction
  (try simp [*]) <;> repeat' ((first | split | intro _) <;> try simp [*])
@[simp] theorem hostSof_only (j : Fld) (u : US) (f : Nat) (s : State) (h_u2d : j ≠ .u2d) (h_u2u : j ≠ .u2u) :
    j.only (hostSof u f s) = j.only s := by
  simp [hostSof, *]
@[simp] theorem lpmTokens_only (j : Fld) (d : DS) (addr besl : Nat) (remoteWake : Bool) (s : State) (h_out : j ≠ .out)
    (h_u2d : j ≠ .u2d) :
    j.only (lpmTokens d addr besl remoteWake s) = j.only s := by
  unfold lpmTokens
  (try simp [*]) <;> repeat' ((first | split | intro _) <;> try simp [*])
@[simp] theorem waitingL1_only (j : Fld) (u : US) (s : State) (h_hubs : j ≠ .hubs) (h_dsd : j ≠ .dsd) :
    j.only (waitingL1 u s) = j.only s := by
  unfold waitingL1
  (try simp [*]) <;> repeat' ((first | split | intro _) <;> try simp [*])

/-! ### TtPath -/

@[simp] theorem replaySplit_only (j : Fld) (d : DS) (addr ep : Nat) (s : State) (h_place : j ≠ .place) (h_vig : j ≠ .vig) :
    j.only (replaySplit d addr ep s).1 = j.only s := by
  unfold replaySplit
  (try simp [*]) <;> repeat' ((first | split | intro _) <;> try simp [*])
@[simp] theorem chargeSplit_only (j : Fld) (u : US) (d : DS) (daddr ep : Nat) (dirIn : Bool) (n : Nat) (s : State)
    (h_epqs : j ≠ .epqs) :
    j.only (chargeSplit u d daddr ep dirIn n s) = j.only s := by
  unfold chargeSplit
  (try simp [*]) <;> repeat' ((first | split | intro _) <;> try simp [*])
/-- Room for a split's buffer changes nothing but the spill space its queue takes. -/
theorem ttRoom_only (j : Fld) (s : State) (d : DS) (b : TtBuf) (y : TtBuf × State) (h_epqs : j ≠ .epqs) (h : ttRoom s d b = some y) :
    j.only y.2 = j.only s := by
  unfold ttRoom at h
  extract_lets cls e chv cell at h
  have hc : cell = some y → j.only y.2 = j.only s := by
    intro h
    obtain ⟨l, -, rfl⟩ := Option.map_eq_some_iff.mp h
    rfl
  split at h
  · cases h
  split at h
  · split at h
    · obtain ⟨x, -, rfl⟩ := Option.map_eq_some_iff.mp h
      exact modEpq_only j _ _ _ h_epqs
    · exact hc h
  · exact hc h
@[simp] theorem acceptSplit_only (j : Fld) (u : US) (d : DS) (b : TtBuf) (s : State) (h_out : j ≠ .out) (h_epqs : j ≠ .epqs)
    (h_links : j ≠ .links) (h_place : j ≠ .place) (h_fab : j ≠ .fab) (h_u2d : j ≠ .u2d) (h_vig : j ≠ .vig) :
    j.only (acceptSplit u d b s) = j.only s := by
  unfold acceptSplit
  split
  · simp [*]
  · rename_i y h
    have e := (ttRoom_only j _ d b y h_epqs h).trans (modTt_only j _ _ _ h_u2d)
    clear h
    (try simp [*]) <;> repeat' ((first | split | intro _) <;> try simp [*])
@[simp] theorem mirrorTt_only (j : Fld) (d : DS) (addr ep : Nat) (r : UsbResp) (time : Nat) (s : State) (h_mbx : j ≠ .mbx)
    (h_vig : j ≠ .vig) :
    j.only (mirrorTt d addr ep r time s) = j.only s := by
  unfold mirrorTt
  (try simp [*]) <;> repeat' ((first | split | intro _) <;> try simp [*])
@[simp] theorem meterTt_only (j : Fld) (d : DS) (daddr ep : Nat) (dirIn : Bool) (n : Nat) (s : State) (h_epqs : j ≠ .epqs) :
    j.only (meterTt d daddr ep dirIn n s) = j.only s := by
  unfold meterTt
  (try simp [*]) <;> repeat' ((first | split | intro _) <;> try simp [*])
@[simp] theorem ttShadow_only (j : Fld) (d : DS) (daddr ep : Nat) (dirIn : Bool) (r : UsbResp) (s : State) (h_vig : j ≠ .vig) :
    j.only (ttShadow d daddr ep dirIn r s) = j.only s := by
  unfold ttShadow
  (try simp [*]) <;> repeat' ((first | split | intro _) <;> try simp [*])
@[simp] theorem spillResult_only (j : Fld) (b : TtBuf) (s : State) (h_epqs : j ≠ .epqs) :
    j.only (spillResult b s).2 = j.only s := by
  unfold spillResult
  (try simp [*]) <;> repeat' ((first | split | intro _) <;> try simp [*])
@[simp] theorem runPeriodic_only (j : Fld) (d : DS) (p : TtPer) (r : Option UsbResp) (s : State) (h_out : j ≠ .out)
    (h_avail : j ≠ .avail) (h_epqs : j ≠ .epqs) (h_u2d : j ≠ .u2d) (h_vig : j ≠ .vig) :
    j.only (runPeriodic d p r s) = j.only s := by
  unfold runPeriodic
  (try simp [*]) <;> repeat' ((first | split | intro _) <;> try simp [*])

/-! ### TickOps -/

@[simp] theorem applySetting_only (j : Fld) (q : Nat) (s : State) (h_mbx : j ≠ .mbx) (h_epqs : j ≠ .epqs) :
    j.only (applySetting q s) = j.only s := by
  unfold applySetting
  (try simp [*]) <;> repeat' ((first | split | intro _) <;> try simp [*])
@[simp] theorem raiseTags_only (j : Fld) (q : Nat) (s : State) (h_epqs : j ≠ .epqs) :
    j.only (raiseTags q s) = j.only s := by
  unfold raiseTags
  (try simp [*]) <;> repeat' ((first | split | intro _) <;> try simp [*])
@[simp] theorem doTick_only (j : Fld) (t k : Nat) (s : State) (h_now : j ≠ .now) (h_mbx : j ≠ .mbx) (h_epqs : j ≠ .epqs)
    (h_links : j ≠ .links) (h_sched : j ≠ .sched) :
    j.only (doTick t k s) = j.only s := by
  simp [doTick, *]
@[simp] theorem dueTick_only (j : Fld) (s : State) (h_now : j ≠ .now) (h_mbx : j ≠ .mbx) (h_epqs : j ≠ .epqs)
    (h_links : j ≠ .links) (h_sched : j ≠ .sched) :
    j.only (dueTick s) = j.only s := by
  simp [dueTick, *]

/-! ### Superspeed -/

@[simp] theorem judgeData_only (j : Fld) (inn out : Port) (q : Option Nat) (h : SsHeader) (rerouted : Bool) (s : State)
    (h_epqs : j ≠ .epqs) (h_links : j ≠ .links) (h_sched : j ≠ .sched) :
    j.only (judgeData inn out q h rerouted s) = j.only s := by
  unfold judgeData
  (try simp [*]) <;> repeat' ((first | split | intro _) <;> try simp [*])
@[simp] theorem discardHeader_only (j : Fld) (inn : Port) (q : Option Nat) (h : SsHeader) (code : Nat) (s : State)
    (h_links : j ≠ .links) (h_sched : j ≠ .sched) :
    j.only (discardHeader inn q h code s) = j.only s := by
  simp [discardHeader, *]
@[simp] theorem deferHeader_only (j : Fld) (up p : Port) (h h1 : SsHeader) (s : State) (h_out : j ≠ .out) (h_links : j ≠ .links) :
    j.only (deferHeader up p h h1 s) = j.only s := by
  unfold deferHeader
  (try simp [*]) <;> repeat' ((first | split | intro _) <;> try simp [*])
@[simp] theorem forwardDown_only (j : Fld) (u : US) (d : DS) (h : SsHeader) (s : State) (h_out : j ≠ .out) (h_dsd : j ≠ .dsd)
    (h_usd : j ≠ .usd) (h_epqs : j ≠ .epqs) (h_links : j ≠ .links) (h_sched : j ≠ .sched) :
    j.only (forwardDown u d h s) = j.only s := by
  unfold forwardDown
  (try simp [*]) <;> repeat' ((first | split | intro _) <;> try simp [*])
@[simp] theorem ackFromHost_only (j : Fld) (d : DS) (h : SsHeader) (s : State) (h_mbx : j ≠ .mbx) (h_epqs : j ≠ .epqs)
    (h_vig : j ≠ .vig) :
    j.only (ackFromHost d h s) = j.only s := by
  unfold ackFromHost
  (try simp [*]) <;> repeat' ((first | split | intro _) <;> try simp [*])
@[simp] theorem routeDown_only (j : Fld) (u : US) (h : SsHeader) (s : State) (h_out : j ≠ .out) (h_mbx : j ≠ .mbx)
    (h_dsd : j ≠ .dsd) (h_usd : j ≠ .usd) (h_epqs : j ≠ .epqs) (h_links : j ≠ .links) (h_sched : j ≠ .sched) (h_vig : j ≠ .vig) :
    j.only (routeDown u h s) = j.only s := by
  unfold routeDown
  (try simp [*]) <;> repeat' ((first | split | intro _) <;> try simp [*])
@[simp] theorem routeUp_only (j : Fld) (d : DS) (h : SsHeader) (s : State) (h_out : j ≠ .out) (h_dsd : j ≠ .dsd)
    (h_usd : j ≠ .usd) (h_epqs : j ≠ .epqs) (h_links : j ≠ .links) (h_sched : j ≠ .sched) (h_vig : j ≠ .vig) :
    j.only (routeUp d h s) = j.only s := by
  unfold routeUp
  (try simp [*]) <;> repeat' ((first | split | intro _) <;> try simp [*])
@[simp] theorem storeData_only (j : Fld) (r : RxDp) (k : Pkt) (s : State) (h_epqs : j ≠ .epqs) (h_links : j ≠ .links)
    (h_sched : j ≠ .sched) :
    j.only (storeData r k s) = j.only s := by
  unfold storeData
  (try simp [*]) <;> repeat' ((first | split | intro _) <;> try simp [*])
@[simp] theorem flushItp_only (j : Fld) (p : Port) (s : State) (h_out : j ≠ .out) (h_links : j ≠ .links) :
    j.only (flushItp p s) = j.only s := by
  unfold flushItp
  (try simp [*]) <;> repeat' ((first | split | intro _) <;> try simp [*])
@[simp] theorem overtaken_only (j : Fld) (q : Nat) (e : Epq) (p : Pkt) (s : State) (h_mbx : j ≠ .mbx) (h_sched : j ≠ .sched)
    (h_vig : j ≠ .vig) :
    j.only (overtaken q e p s) = j.only s := by
  unfold overtaken
  (try simp [*]) <;> repeat' ((first | split | intro _) <;> try simp [*])
/-- A packet of no open queue goes out as one of a queue does. -/
theorem sendLoose_only (j : Fld) (p : Port) (s t : State) (h_out : j ≠ .out) (h_epqs : j ≠ .epqs) (h_links : j ≠ .links)
    (h_sched : j ≠ .sched) (h_fab : j ≠ .fab) (h : sendLoose p s = some t) : j.only t = j.only s := by
  unfold sendLoose at h
  (repeat' split at h) <;> simp_all <;> (subst h; simp [*])
@[simp] theorem serveQueue_only (j : Fld) (p : Port) (s : State) (h_out : j ≠ .out) (h_mbx : j ≠ .mbx) (h_avail : j ≠ .avail)
    (h_epqs : j ≠ .epqs) (h_links : j ≠ .links) (h_sched : j ≠ .sched) (h_fab : j ≠ .fab) (h_vig : j ≠ .vig) :
    j.only (serveQueue p s) = j.only s := by
  unfold serveQueue
  extract_lets s1
  have e1 : j.only s1 = j.only s := foldl_only j _ (fun s x => tagHead_only j _ s h_epqs) _ _
  (try simp [*]) <;> repeat' ((first | split | intro _) <;> try simp [*])
@[simp] theorem linkBack_only (j : Fld) (u : US) (s : State) (h_out : j ≠ .out) (h_usd : j ≠ .usd) (h_links : j ≠ .links) :
    j.only (linkBack u s) = j.only s := by
  unfold linkBack
  (try simp [*]) <;> repeat' ((first | split | intro _) <;> try simp [*])
@[simp] theorem refill_only (j : Fld) (q x1 : Nat) (x2 : State) (h_epqs : j ≠ .epqs) :
    j.only (refill q x1 x2) = j.only x2 := by
  induction x1 generalizing x2 with
  | zero => rfl
  | succ n ih =>
    unfold refill
    (try simp [*]) <;> repeat' ((first | split | intro _) <;> try simp [*])

/-! ### Vigil -/

@[simp] theorem frameOut_only (j : Fld) (sel : DS → Bool) (y : Us2) (s : State) (h_out : j ≠ .out) (h_avail : j ≠ .avail)
    (h_u2d : j ≠ .u2d) :
    j.only (frameOut sel y s) = j.only s := by
  unfold frameOut
  refine foldl_only j _ (fun s x => ?_) _ _
  simp only []
  (try simp [*]) <;> repeat' ((first | split | intro _) <;> try simp [*])
@[simp] theorem keptFrame_only (j : Fld) (u : US) (t n : Nat) (s : State) (h_out : j ≠ .out) (h_now : j ≠ .now)
    (h_avail : j ≠ .avail) (h_u2d : j ≠ .u2d) (h_u2u : j ≠ .u2u) :
    j.only (keptFrame u t n s) = j.only s := by
  unfold keptFrame
  refine (foldl_only j _ (fun s x => ?_) _ _).trans ?_ <;> (try simp [*]) <;> repeat' ((first | split | intro _) <;> try simp [*])
@[simp] theorem keptOwned_only (j : Fld) (u : US) (s : State) (h_out : j ≠ .out) (h_now : j ≠ .now) (h_avail : j ≠ .avail)
    (h_u2d : j ≠ .u2d) (h_u2u : j ≠ .u2u) :
    j.only (keptOwned u s) = j.only s := by
  unfold keptOwned
  (try simp [*]) <;> repeat' ((first | split | intro _) <;> try simp [*])
@[simp] theorem keptIdle_only (j : Fld) (s : State) (h_out : j ≠ .out) (h_now : j ≠ .now) (h_avail : j ≠ .avail)
    (h_u2d : j ≠ .u2d) (h_vig : j ≠ .vig) :
    j.only (keptIdle s) = j.only s := by
  unfold keptIdle
  (try simp [*]) <;> repeat' ((first | split | intro _) <;> try simp [*])
@[simp] theorem pollData_only (j : Fld) (c : Nat) (x : Ctx) (e : EpRec) (seq : Nat) (l : List Byte) (s : State)
    (h_mbx : j ≠ .mbx) (h_epqs : j ≠ .epqs) (h_vig : j ≠ .vig) :
    j.only (pollData c x e seq l s) = j.only s := by
  unfold pollData
  (try simp [*]) <;> repeat' ((first | split | intro _) <;> try simp [*])
@[simp] theorem pollServed_only (j : Fld) (x : Ctx) (e : EpRec) (s : State) (h_epqs : j ≠ .epqs) (h_links : j ≠ .links) :
    j.only (pollServed x e s) = j.only s := by
  unfold pollServed
  (try simp [*]) <;> repeat' ((first | split | intro _) <;> try simp [*])
@[simp] theorem pollResult_only (j : Fld) (c : Nat) (x : Ctx) (e : EpRec) (r : PollResp) (s : State) (h_mbx : j ≠ .mbx)
    (h_epqs : j ≠ .epqs) (h_vig : j ≠ .vig) :
    j.only (pollResult c x e r s) = j.only s := by
  unfold pollResult
  (try simp [*]) <;> repeat' ((first | split | intro _) <;> try simp [*])
@[simp] theorem holdExpiry_only (j : Fld) (u : US) (s : State) (h_now : j ≠ .now) (h_mbx : j ≠ .mbx) (h_pmu : j ≠ .pmu)
    (h_fw : j ≠ .fw) (h_avail : j ≠ .avail) (h_hubs : j ≠ .hubs) (h_epqs : j ≠ .epqs) (h_place : j ≠ .place) (h_u2d : j ≠ .u2d)
    (h_vig : j ≠ .vig) (h_fo : j ≠ .fo) :
    j.only (holdExpiry u s) = j.only s := by
  unfold holdExpiry
  (try simp [*]) <;> repeat' ((first | split | intro _) <;> try simp [*])
@[simp] theorem holdDue_only (j : Fld) (u : US) (s : State) (h_now : j ≠ .now) (h_mbx : j ≠ .mbx) (h_pmu : j ≠ .pmu)
    (h_fw : j ≠ .fw) (h_avail : j ≠ .avail) (h_hubs : j ≠ .hubs) (h_epqs : j ≠ .epqs) (h_place : j ≠ .place) (h_u2d : j ≠ .u2d)
    (h_vig : j ≠ .vig) (h_fo : j ≠ .fo) :
    j.only (holdDue u s) = j.only s := by
  unfold holdDue
  (try simp [*]) <;> repeat' ((first | split | intro _) <;> try simp [*])
@[simp] theorem endEpisode_only (j : Fld) (c : Nat) (x : Ctx) (s : State) (h_mbx : j ≠ .mbx) (h_vig : j ≠ .vig) :
    j.only (endEpisode c x s) = j.only s := by
  simp [endEpisode, *]
@[simp] theorem absorbReset_only (j : Fld) (c : Nat) (warm : Bool) (s : State) (h_place : j ≠ .place) (h_vig : j ≠ .vig) :
    j.only (absorbReset c warm s) = j.only s := by
  simp [absorbReset, *]
@[simp] theorem freeCtx_only (j : Fld) (c : Nat) (x : Ctx) (s : State) (h_mbx : j ≠ .mbx) (h_epqs : j ≠ .epqs)
    (h_place : j ≠ .place) (h_u2d : j ≠ .u2d) (h_vig : j ≠ .vig) :
    j.only (freeCtx c x s) = j.only s := by
  simp [freeCtx, *]
@[simp] theorem putSeen_only (j : Fld) (d : DS) (hubPort : Nat) (x : Seen) (s : State) (h_vig : j ≠ .vig) :
    j.only (putSeen d hubPort x s) = j.only s := by
  simp [putSeen, *]
@[simp] theorem forwardReset_only (j : Fld) (d : DS) (hubPort : Option Nat) (ss : Bool) (s : State) (h_mbx : j ≠ .mbx)
    (h_epqs : j ≠ .epqs) (h_links : j ≠ .links) (h_sched : j ≠ .sched) (h_place : j ≠ .place) (h_fab : j ≠ .fab)
    (h_u2d : j ≠ .u2d) (h_vig : j ≠ .vig) :
    j.only (forwardReset d hubPort ss s) = j.only s := by
  simp [forwardReset, *]
@[simp] theorem matchSeen_only (j : Fld) (d : DS) (hubPort : Nat) (c : Option Nat) (s : State) (h_dsd : j ≠ .dsd)
    (h_vig : j ≠ .vig) :
    j.only (matchSeen d hubPort c s) = j.only s := by
  unfold matchSeen
  (try simp [*]) <;> repeat' ((first | split | intro _) <;> try simp [*])
@[simp] theorem noteDesc_only (j : Fld) (d : DS) (hubPort : Nat) (q : Setup) (data : List Byte) (s : State) (h_vig : j ≠ .vig) :
    j.only (noteDesc d hubPort q data s) = j.only s := by
  simp [noteDesc, *]
@[simp] theorem openAll_only (j : Fld) (d : DS) (hubPort a ctx : Nat) (ss : Bool) (ds : List EpDesc) (s : State)
    (h_epqs : j ≠ .epqs) (h_place : j ≠ .place) :
    j.only (openAll d hubPort a ctx ss ds s) = j.only s := by
  simp [openAll, *]
@[simp] theorem reqQueues_only (j : Fld) (d : DS) (hubPort a ctx : Nat) (ss : Bool) (q : Setup) (eps : List EpDesc) (s : State)
    (h_mbx : j ≠ .mbx) (h_epqs : j ≠ .epqs) (h_links : j ≠ .links) (h_sched : j ≠ .sched) (h_place : j ≠ .place)
    (h_fab : j ≠ .fab) :
    j.only (reqQueues d hubPort a ctx ss q eps s) = j.only s := by
  simp [reqQueues, *]
@[simp] theorem hubRequest_only (j : Fld) (u : US) (d : DS) (ss : Bool) (q : Setup) (s : State) (h_out : j ≠ .out)
    (h_place : j ≠ .place) (h_vig : j ≠ .vig) :
    j.only (hubRequest u d ss q s).1 = j.only s := by
  unfold hubRequest
  (try simp [*]) <;> repeat' ((first | split | intro _) <;> try simp [*])
@[simp] theorem hubFollow_only (j : Fld) (d : DS) (ss : Bool) (q : Setup) (data : List Byte) (s : State) (h_mbx : j ≠ .mbx)
    (h_epqs : j ≠ .epqs) (h_links : j ≠ .links) (h_sched : j ≠ .sched) (h_place : j ≠ .place) (h_fab : j ≠ .fab)
    (h_u2d : j ≠ .u2d) (h_vig : j ≠ .vig) :
    j.only (hubFollow d ss q data s) = j.only s := by
  unfold hubFollow
  (try simp [*]) <;> repeat' ((first | split | intro _) <;> try simp [*])
@[simp] theorem forwardReq_only (j : Fld) (d : DS) (hubPort : Nat) (ss : Bool) (addr : Nat) (q : Setup) (data : List Byte)
    (fin : CtlEnd) (eps : List EpDesc) (s : State) (h_out : j ≠ .out) (h_mbx : j ≠ .mbx) (h_avail : j ≠ .avail)
    (h_dsd : j ≠ .dsd) (h_epqs : j ≠ .epqs) (h_links : j ≠ .links) (h_sched : j ≠ .sched) (h_place : j ≠ .place)
    (h_fab : j ≠ .fab) (h_u2d : j ≠ .u2d) (h_vig : j ≠ .vig) :
    j.only (forwardReq d hubPort ss addr q data fin eps s) = j.only s := by
  unfold forwardReq
  (try simp [*]) <;> repeat' ((first | split | intro _) <;> try simp [*])
@[simp] theorem armGive_only (j : Fld) (d : DS) (s : State) (h_vig : j ≠ .vig) :
    j.only (armGive d s) = j.only s := by
  simp [armGive, *]
@[simp] theorem cmdVigilPolicySet_only (j : Fld) (r : Req) (s : State) (h_freeSeq : j ≠ .freeSeq) (h_mbx : j ≠ .mbx)
    (h_flt : j ≠ .flt) (h_alm : j ≠ .alm) (h_pmu : j ≠ .pmu) (h_fw : j ≠ .fw) (h_avail : j ≠ .avail) (h_epqs : j ≠ .epqs)
    (h_place : j ≠ .place) (h_u2d : j ≠ .u2d) (h_vig : j ≠ .vig) :
    j.only (cmdVigilPolicySet r s).1 = j.only s := by
  unfold cmdVigilPolicySet
  (try simp [*]) <;> repeat' ((first | split | intro _) <;> try simp [*])
@[simp] theorem armPort_only (j : Fld) (on : Bool) (d : DS) (s : State) (h_mbx : j ≠ .mbx) (h_epqs : j ≠ .epqs)
    (h_place : j ≠ .place) (h_u2d : j ≠ .u2d) (h_vig : j ≠ .vig) :
    j.only (armPort on d s) = j.only s := by
  simp [armPort, *]
@[simp] theorem cmdVigilArm_only (j : Fld) (r : Req) (s : State) (h_mbx : j ≠ .mbx) (h_epqs : j ≠ .epqs) (h_place : j ≠ .place)
    (h_u2d : j ≠ .u2d) (h_vig : j ≠ .vig) :
    j.only (cmdVigilArm r s).1 = j.only s := by
  simp [cmdVigilArm, *]
@[simp] theorem cmdVigilStatus_only (j : Fld) (r : Req) (s : State) :
    j.only (cmdVigilStatus r s).1 = j.only s := by
  unfold cmdVigilStatus
  (try simp [*]) <;> repeat' ((first | split | intro _) <;> try simp [*])
@[simp] theorem cmdCaptureRead_only (j : Fld) (r : Req) (s : State) (h_vig : j ≠ .vig) :
    j.only (cmdCaptureRead r s).1 = j.only s := by
  unfold cmdCaptureRead
  (try simp [*]) <;> repeat' ((first | split | intro _) <;> try simp [*])

/-! ### PowerOps -/

@[simp] theorem modTc_only (j : Fld) (p : Port) (f : Tc → Tc) (s : State) (h_tc : j ≠ .tc) :
    j.only (modTc p f s) = j.only s := by
  simp [modTc, *]
@[simp] theorem modPhy_only (j : Fld) (p : Port) (f : PdPhy → PdPhy) (s : State) (h_phy : j ≠ .phy) :
    j.only (modPhy p f s) = j.only s := by
  simp [modPhy, *]
@[simp] theorem modPwr_only (j : Fld) (p : Port) (f : Pwr → Pwr) (s : State) (h_pwr : j ≠ .pwr) :
    j.only (modPwr p f s) = j.only s := by
  simp [modPwr, *]
@[simp] theorem pdSend_only (j : Fld) (p : Port) (sop typ : Nat) (ext : Bool) (data : List Byte) (s : State) (h_phy : j ≠ .phy) :
    j.only (pdSend p sop typ ext data s) = j.only s := by
  simp [pdSend, *]
@[simp] theorem pdCtl_only (j : Fld) (p : Port) (typ : Nat) (s : State) (h_phy : j ≠ .phy) :
    j.only (pdCtl p typ s) = j.only s := by
  simp [pdCtl, *]
@[simp] theorem pdData_only (j : Fld) (p : Port) (typ : Nat) (objs : List Nat) (s : State) (h_phy : j ≠ .phy) :
    j.only (pdData p typ objs s) = j.only s := by
  simp [pdData, *]
@[simp] theorem eprMode_only (j : Fld) (p : Port) (action data : Nat) (s : State) (h_phy : j ≠ .phy) :
    j.only (eprMode p action data s) = j.only s := by
  simp [eprMode, *]
@[simp] theorem notSupported_only (j : Fld) (p : Port) (s : State) (h_phy : j ≠ .phy) :
    j.only (notSupported p s) = j.only s := by
  simp [notSupported, *]
@[simp] theorem notice_only (j : Fld) (p : Port) (n : Notice) (s : State) (h_phy : j ≠ .phy) :
    j.only (notice p n s) = j.only s := by
  simp [notice, *]
@[simp] theorem flushPd_only (j : Fld) (p : Port) (result : Nat) (s : State) (h_phy : j ≠ .phy) :
    j.only (flushPd p result s) = j.only s := by
  simp [flushPd, *]
@[simp] theorem resetPd_only (j : Fld) (p : Port) (s : State) (h_phy : j ≠ .phy) :
    j.only (resetPd p s) = j.only s := by
  simp [resetPd, *]
@[simp] theorem contractEvent_only (j : Fld) (p : Port) (kind : Nat) (c : Contract) (s : State) (h_mbx : j ≠ .mbx) :
    j.only (contractEvent p kind c s) = j.only s := by
  simp [contractEvent, *]
@[simp] theorem writeLimits_only (j : Fld) (p : Port) (ov uv : Nat) (s : State) (h_out : j ≠ .out) (h_pwr : j ≠ .pwr) :
    j.only (writeLimits p ov uv s) = j.only s := by
  simp [writeLimits, *]
@[simp] theorem writeVolt_only (j : Fld) (p : Port) (mv : Nat) (s : State) (h_out : j ≠ .out) (h_pwr : j ≠ .pwr) :
    j.only (writeVolt p mv s) = j.only s := by
  simp [writeVolt, *]
@[simp] theorem writeOc_only (j : Fld) (p : Port) (c : Contract) (s : State) (h_out : j ≠ .out) (h_pwr : j ≠ .pwr) :
    j.only (writeOc p c s) = j.only s := by
  simp [writeOc, *]
@[simp] theorem vconnOff_only (j : Fld) (p : Port) (s : State) (h_out : j ≠ .out) (h_tc : j ≠ .tc) :
    j.only (vconnOff p s) = j.only s := by
  simp [vconnOff, *]
@[simp] theorem vconnOn_only (j : Fld) (p : Port) (s : State) (h_out : j ≠ .out) (h_tc : j ≠ .tc) :
    j.only (vconnOn p s) = j.only s := by
  simp [vconnOn, *]
@[simp] theorem pscLow_only (j : Fld) (p : Port) (s : State) (h_out : j ≠ .out) (h_tc : j ≠ .tc) (h_pwr : j ≠ .pwr) :
    j.only (pscLow p s) = j.only s := by
  simp [pscLow, *]
@[simp] theorem pscHigh_only (j : Fld) (p : Port) (s : State) (h_out : j ≠ .out) (h_hubs : j ≠ .hubs) (h_pwr : j ≠ .pwr) :
    j.only (pscHigh p s) = j.only s := by
  unfold pscHigh
  (try simp [*]) <;> repeat' ((first | split | intro _) <;> try simp [*])
@[simp] theorem capsAt_only (j : Fld) (p : Port) (t : Nat) (s : State) (h_pwr : j ≠ .pwr) :
    j.only (capsAt p t s) = j.only s := by
  simp [capsAt, *]
@[simp] theorem endContract_only (j : Fld) (p : Port) (s : State) (h_pwr : j ≠ .pwr) :
    j.only (endContract p s) = j.only s := by
  simp [endContract, *]
@[simp] theorem dpLeaveOne_only (j : Fld) (i : Fin 2) (cause : Nat) (s : State) (h_out : j ≠ .out) (h_mbx : j ≠ .mbx)
    (h_dp : j ≠ .dp) :
    j.only (dpLeaveOne i cause s) = j.only s := by
  unfold dpLeaveOne
  (try simp [*]) <;> repeat' ((first | split | intro _) <;> try simp [*])
@[simp] theorem dpLeave_only (j : Fld) (p : Port) (cause : Nat) (s : State) (h_out : j ≠ .out) (h_mbx : j ≠ .mbx)
    (h_dp : j ≠ .dp) :
    j.only (dpLeave p cause s) = j.only s := by
  unfold dpLeave
  (try simp [*]) <;> repeat' ((first | split | intro _) <;> try simp [*])
@[simp] theorem swapFinal_only (j : Fld) (u : US) (result : Nat) (s : State) (h_mbx : j ≠ .mbx) (h_pwr : j ≠ .pwr) :
    j.only (swapFinal u result s) = j.only s := by
  simp [swapFinal, *]
@[simp] theorem swapFail_only (j : Fld) (p : Port) (s : State) (h_mbx : j ≠ .mbx) (h_pwr : j ≠ .pwr) :
    j.only (swapFail p s) = j.only s := by
  unfold swapFail
  (try simp [*]) <;> repeat' ((first | split | intro _) <;> try simp [*])
@[simp] theorem dataOff_only (j : Fld) (p : Port) (s : State) (h_mbx : j ≠ .mbx) (h_avail : j ≠ .avail) (h_hubs : j ≠ .hubs)
    (h_dsd : j ≠ .dsd) (h_usd : j ≠ .usd) (h_epqs : j ≠ .epqs) (h_links : j ≠ .links) (h_sched : j ≠ .sched)
    (h_place : j ≠ .place) (h_fab : j ≠ .fab) (h_u2d : j ≠ .u2d) (h_vig : j ≠ .vig) :
    j.only (dataOff p s) = j.only s := by
  unfold dataOff
  (try simp [*]) <;> repeat' ((first | split | intro _) <;> try simp [*])
@[simp] theorem cutPower_only (j : Fld) (p : Port) (s : State) (h_out : j ≠ .out) (h_mbx : j ≠ .mbx) (h_avail : j ≠ .avail)
    (h_hubs : j ≠ .hubs) (h_dsd : j ≠ .dsd) (h_usd : j ≠ .usd) (h_epqs : j ≠ .epqs) (h_links : j ≠ .links)
    (h_sched : j ≠ .sched) (h_place : j ≠ .place) (h_fab : j ≠ .fab) (h_u2d : j ≠ .u2d) (h_vig : j ≠ .vig) (h_tc : j ≠ .tc)
    (h_phy : j ≠ .phy) (h_pwr : j ≠ .pwr) (h_dp : j ≠ .dp) :
    j.only (cutPower p s) = j.only s := by
  simp [cutPower, *]
@[simp] theorem toUnattached_only (j : Fld) (p : Port) (s : State) (h_tc : j ≠ .tc) :
    j.only (toUnattached p s) = j.only s := by
  simp [toUnattached, *]
@[simp] theorem errorRecovery_only (j : Fld) (p : Port) (s : State) (h_out : j ≠ .out) (h_mbx : j ≠ .mbx) (h_avail : j ≠ .avail)
    (h_hubs : j ≠ .hubs) (h_dsd : j ≠ .dsd) (h_usd : j ≠ .usd) (h_epqs : j ≠ .epqs) (h_links : j ≠ .links)
    (h_sched : j ≠ .sched) (h_place : j ≠ .place) (h_fab : j ≠ .fab) (h_u2d : j ≠ .u2d) (h_vig : j ≠ .vig) (h_tc : j ≠ .tc)
    (h_phy : j ≠ .phy) (h_pwr : j ≠ .pwr) (h_dp : j ≠ .dp) :
    j.only (errorRecovery p s) = j.only s := by
  simp [errorRecovery, *]
@[simp] theorem shedPort_only (j : Fld) (p : Port) (s : State) (h_out : j ≠ .out) (h_mbx : j ≠ .mbx) (h_avail : j ≠ .avail)
    (h_hubs : j ≠ .hubs) (h_dsd : j ≠ .dsd) (h_usd : j ≠ .usd) (h_epqs : j ≠ .epqs) (h_links : j ≠ .links)
    (h_sched : j ≠ .sched) (h_place : j ≠ .place) (h_fab : j ≠ .fab) (h_u2d : j ≠ .u2d) (h_vig : j ≠ .vig) (h_tc : j ≠ .tc)
    (h_phy : j ≠ .phy) (h_pwr : j ≠ .pwr) (h_dp : j ≠ .dp) :
    j.only (shedPort p s) = j.only s := by
  simp [shedPort, *]
@[simp] theorem setGrant_only (j : Fld) (p : Port) (g : Nat) (s : State) (h_mbx : j ≠ .mbx) (h_tc : j ≠ .tc) (h_pwr : j ≠ .pwr)
    (h_lane : j ≠ .lane) :
    j.only (setGrant p g s) = j.only s := by
  simp [setGrant, *]
@[simp] theorem applyGrants_only (j : Fld) (l : List (Port × Nat)) (s : State) (h_mbx : j ≠ .mbx) (h_tc : j ≠ .tc)
    (h_pwr : j ≠ .pwr) (h_lane : j ≠ .lane) :
    j.only (applyGrants l s) = j.only s := by
  simp [applyGrants, *]
@[simp] theorem unshed_only (j : Fld) (p : Port) (s : State) (h_mbx : j ≠ .mbx) (h_tc : j ≠ .tc) (h_pwr : j ≠ .pwr) :
    j.only (unshed p s) = j.only s := by
  simp [unshed, *]
@[simp] theorem runAlloc_only (j : Fld) (s : State) (h_out : j ≠ .out) (h_mbx : j ≠ .mbx) (h_avail : j ≠ .avail)
    (h_hubs : j ≠ .hubs) (h_dsd : j ≠ .dsd) (h_usd : j ≠ .usd) (h_epqs : j ≠ .epqs) (h_links : j ≠ .links)
    (h_sched : j ≠ .sched) (h_place : j ≠ .place) (h_fab : j ≠ .fab) (h_u2d : j ≠ .u2d) (h_vig : j ≠ .vig) (h_tc : j ≠ .tc)
    (h_phy : j ≠ .phy) (h_pwr : j ≠ .pwr) (h_lane : j ≠ .lane) (h_dp : j ≠ .dp) :
    j.only (runAlloc s) = j.only s := by
  simp [runAlloc, *]
@[simp] theorem budgetDone_only (j : Fld) (s : State) (h_mbx : j ≠ .mbx) :
    j.only (budgetDone s) = j.only s := by
  simp [budgetDone, *]
@[simp] theorem reduced_only (j : Fld) (p : Port) (s : State) (h_out : j ≠ .out) (h_mbx : j ≠ .mbx) (h_avail : j ≠ .avail)
    (h_hubs : j ≠ .hubs) (h_dsd : j ≠ .dsd) (h_usd : j ≠ .usd) (h_epqs : j ≠ .epqs) (h_links : j ≠ .links)
    (h_sched : j ≠ .sched) (h_place : j ≠ .place) (h_fab : j ≠ .fab) (h_u2d : j ≠ .u2d) (h_vig : j ≠ .vig) (h_tc : j ≠ .tc)
    (h_phy : j ≠ .phy) (h_pwr : j ≠ .pwr) (h_lane : j ≠ .lane) (h_dp : j ≠ .dp) :
    j.only (reduced p s) = j.only s := by
  simp [reduced, *]
@[simp] theorem powerRun_only (j : Fld) (s : State) (h_out : j ≠ .out) (h_mbx : j ≠ .mbx) (h_avail : j ≠ .avail)
    (h_hubs : j ≠ .hubs) (h_dsd : j ≠ .dsd) (h_usd : j ≠ .usd) (h_epqs : j ≠ .epqs) (h_links : j ≠ .links)
    (h_sched : j ≠ .sched) (h_place : j ≠ .place) (h_fab : j ≠ .fab) (h_u2d : j ≠ .u2d) (h_vig : j ≠ .vig) (h_tc : j ≠ .tc)
    (h_phy : j ≠ .phy) (h_pwr : j ≠ .pwr) (h_lane : j ≠ .lane) (h_dp : j ≠ .dp) :
    j.only (powerRun s) = j.only s := by
  simp [powerRun, *]
@[simp] theorem recover_only (j : Fld) (p : Port) (s : State) (h_out : j ≠ .out) (h_mbx : j ≠ .mbx) (h_avail : j ≠ .avail)
    (h_hubs : j ≠ .hubs) (h_dsd : j ≠ .dsd) (h_usd : j ≠ .usd) (h_epqs : j ≠ .epqs) (h_links : j ≠ .links)
    (h_sched : j ≠ .sched) (h_place : j ≠ .place) (h_fab : j ≠ .fab) (h_u2d : j ≠ .u2d) (h_vig : j ≠ .vig) (h_tc : j ≠ .tc)
    (h_phy : j ≠ .phy) (h_pwr : j ≠ .pwr) (h_lane : j ≠ .lane) (h_dp : j ≠ .dp) :
    j.only (recover p s) = j.only s := by
  simp [recover, *]
@[simp] theorem eprEnd_only (j : Fld) (p : Port) (s : State) (h_mbx : j ≠ .mbx) (h_pwr : j ≠ .pwr) :
    j.only (eprEnd p s) = j.only s := by
  simp [eprEnd, *]
@[simp] theorem initialRole_only (j : Fld) (p : Port) (s : State) (h_out : j ≠ .out) (h_tc : j ≠ .tc) (h_pwr : j ≠ .pwr) :
    j.only (initialRole p s) = j.only s := by
  unfold initialRole
  (try simp [*]) <;> repeat' ((first | split | intro _) <;> try simp [*])
@[simp] theorem hardReset_only (j : Fld) (p : Port) (s0 : State) (h_out : j ≠ .out) (h_mbx : j ≠ .mbx) (h_avail : j ≠ .avail)
    (h_hubs : j ≠ .hubs) (h_dsd : j ≠ .dsd) (h_usd : j ≠ .usd) (h_epqs : j ≠ .epqs) (h_links : j ≠ .links)
    (h_sched : j ≠ .sched) (h_place : j ≠ .place) (h_fab : j ≠ .fab) (h_u2d : j ≠ .u2d) (h_vig : j ≠ .vig) (h_tc : j ≠ .tc)
    (h_phy : j ≠ .phy) (h_pwr : j ≠ .pwr) (h_lane : j ≠ .lane) (h_dp : j ≠ .dp) :
    j.only (hardReset p s0) = j.only s0 := by
  unfold hardReset
  (try simp [*]) <;> repeat' ((first | split | intro _) <;> try simp [*])
@[simp] theorem sendHardReset_only (j : Fld) (p : Port) (s : State) (h_out : j ≠ .out) (h_mbx : j ≠ .mbx) (h_avail : j ≠ .avail)
    (h_hubs : j ≠ .hubs) (h_dsd : j ≠ .dsd) (h_usd : j ≠ .usd) (h_epqs : j ≠ .epqs) (h_links : j ≠ .links)
    (h_sched : j ≠ .sched) (h_place : j ≠ .place) (h_fab : j ≠ .fab) (h_u2d : j ≠ .u2d) (h_vig : j ≠ .vig) (h_tc : j ≠ .tc)
    (h_phy : j ≠ .phy) (h_pwr : j ≠ .pwr) (h_lane : j ≠ .lane) (h_dp : j ≠ .dp) :
    j.only (sendHardReset p s) = j.only s := by
  simp [sendHardReset, *]
@[simp] theorem partnerGone_only (j : Fld) (p : Port) (s : State) (h_mbx : j ≠ .mbx) (h_pmu : j ≠ .pmu) (h_fw : j ≠ .fw)
    (h_avail : j ≠ .avail) (h_hubs : j ≠ .hubs) (h_own : j ≠ .own) (h_dsd : j ≠ .dsd) (h_epqs : j ≠ .epqs)
    (h_links : j ≠ .links) (h_place : j ≠ .place) (h_fab : j ≠ .fab) (h_u2d : j ≠ .u2d) (h_vig : j ≠ .vig) (h_fo : j ≠ .fo) :
    j.only (partnerGone p s) = j.only s := by
  unfold partnerGone
  (try simp [*]) <;> repeat' ((first | split | intro _) <;> try simp [*])
@[simp] theorem detachPort_only (j : Fld) (p : Port) (s : State) (h_out : j ≠ .out) (h_mbx : j ≠ .mbx) (h_pmu : j ≠ .pmu)
    (h_fw : j ≠ .fw) (h_avail : j ≠ .avail) (h_hubs : j ≠ .hubs) (h_own : j ≠ .own) (h_dsd : j ≠ .dsd) (h_usd : j ≠ .usd)
    (h_epqs : j ≠ .epqs) (h_links : j ≠ .links) (h_sched : j ≠ .sched) (h_place : j ≠ .place) (h_fab : j ≠ .fab)
    (h_u2d : j ≠ .u2d) (h_vig : j ≠ .vig) (h_fo : j ≠ .fo) (h_tc : j ≠ .tc) (h_phy : j ≠ .phy) (h_pwr : j ≠ .pwr)
    (h_lane : j ≠ .lane) (h_dp : j ≠ .dp) :
    j.only (detachPort p s) = j.only s := by
  simp [detachPort, *]
@[simp] theorem portOff_only (j : Fld) (p : Port) (s : State) (h_out : j ≠ .out) (h_mbx : j ≠ .mbx) (h_avail : j ≠ .avail)
    (h_hubs : j ≠ .hubs) (h_dsd : j ≠ .dsd) (h_usd : j ≠ .usd) (h_epqs : j ≠ .epqs) (h_links : j ≠ .links)
    (h_sched : j ≠ .sched) (h_place : j ≠ .place) (h_fab : j ≠ .fab) (h_u2d : j ≠ .u2d) (h_vig : j ≠ .vig) (h_tc : j ≠ .tc)
    (h_phy : j ≠ .phy) (h_pwr : j ≠ .pwr) (h_lane : j ≠ .lane) (h_dp : j ≠ .dp) :
    j.only (portOff p s) = j.only s := by
  simp [portOff, *]
@[simp] theorem repower_only (j : Fld) (p : Port) (s : State) (h_tc : j ≠ .tc) (h_pwr : j ≠ .pwr) :
    j.only (repower p s) = j.only s := by
  simp [repower, *]
@[simp] theorem provisional_only (j : Fld) (p : Port) (s : State) (h_out : j ≠ .out) (h_mbx : j ≠ .mbx) (h_avail : j ≠ .avail)
    (h_hubs : j ≠ .hubs) (h_dsd : j ≠ .dsd) (h_usd : j ≠ .usd) (h_epqs : j ≠ .epqs) (h_links : j ≠ .links)
    (h_sched : j ≠ .sched) (h_place : j ≠ .place) (h_fab : j ≠ .fab) (h_u2d : j ≠ .u2d) (h_vig : j ≠ .vig) (h_tc : j ≠ .tc)
    (h_phy : j ≠ .phy) (h_pwr : j ≠ .pwr) (h_lane : j ≠ .lane) (h_dp : j ≠ .dp) :
    j.only (provisional p s) = j.only s := by
  simp [provisional, *]
@[simp] theorem dsSees_only (j : Fld) (p : Port) (c : CcPattern) (s : State) (h_mbx : j ≠ .mbx) (h_tc : j ≠ .tc) :
    j.only (dsSees p c s) = j.only s := by
  simp [dsSees, *]
@[simp] theorem usSees_only (j : Fld) (p : Port) (c : CcPattern) (s : State) (h_tc : j ≠ .tc) :
    j.only (usSees p c s) = j.only s := by
  simp [usSees, *]

/-! ### TestOps -/

@[simp] theorem endLoop_only (j : Fld) (unit bits errors status : Nat) (s : State) (h_mbx : j ≠ .mbx) (h_dsd : j ≠ .dsd)
    (h_test : j ≠ .test) :
    j.only (endLoop unit bits errors status s) = j.only s := by
  unfold endLoop
  (try simp [*]) <;> repeat' ((first | split | intro _) <;> try simp [*])
@[simp] theorem cutLoop_only (j : Fld) (unit status : Nat) (s : State) (h_freeSeq : j ≠ .freeSeq) (h_mbx : j ≠ .mbx)
    (h_dsd : j ≠ .dsd) (h_test : j ≠ .test) :
    j.only (cutLoop unit status s) = j.only s := by
  simp [cutLoop, *]
@[simp] theorem endPattern_only (j : Fld) (dmc : Bool) (errors first status : Nat) (s : State) (h_mbx : j ≠ .mbx)
    (h_memb : j ≠ .memb) (h_test : j ≠ .test) :
    j.only (endPattern dmc errors first status s) = j.only s := by
  unfold endPattern
  (try simp [*]) <;> repeat' ((first | split | intro _) <;> try simp [*])
@[simp] theorem cutPattern_only (j : Fld) (dmc : Bool) (status : Nat) (s : State) (h_freeSeq : j ≠ .freeSeq) (h_mbx : j ≠ .mbx)
    (h_memb : j ≠ .memb) (h_test : j ≠ .test) :
    j.only (cutPattern dmc status s) = j.only s := by
  unfold cutPattern
  (try simp [*]) <;> repeat' ((first | split | intro _) <;> try simp [*])
@[simp] theorem testFences_only (j : Fld) (s : State) (h_freeSeq : j ≠ .freeSeq) (h_mbx : j ≠ .mbx) (h_dsd : j ≠ .dsd)
    (h_memb : j ≠ .memb) (h_test : j ≠ .test) :
    j.only (testFences s) = j.only s := by
  simp [testFences, *]
@[simp] theorem serviceTestsEnd_only (j : Fld) (s : State) (h_freeSeq : j ≠ .freeSeq) (h_mbx : j ≠ .mbx) (h_dsd : j ≠ .dsd)
    (h_memb : j ≠ .memb) (h_test : j ≠ .test) :
    j.only (serviceTestsEnd s) = j.only s := by
  simp [serviceTestsEnd, *]
@[simp] theorem dropTests_only (j : Fld) (s : State) (h_test : j ≠ .test) :
    j.only (dropTests s) = j.only s := by
  simp [dropTests, *]

/-! ### MemOps -/

@[simp] theorem resetEpq_only (j : Fld) (q : Nat) (s : State) (h_epqs : j ≠ .epqs) (h_links : j ≠ .links) (h_sched : j ≠ .sched)
    (h_fab : j ≠ .fab) :
    j.only (resetEpq q s) = j.only s := by
  unfold resetEpq
  (try simp [*]) <;> repeat' ((first | split | intro _) <;> try simp [*])
@[simp] theorem loseCell_only (j : Fld) (n : Nat) (s : State) (h_epqs : j ≠ .epqs) (h_links : j ≠ .links) (h_sched : j ≠ .sched)
    (h_fab : j ≠ .fab) (h_u2d : j ≠ .u2d) :
    j.only (loseCell n s) = j.only s := by
  unfold loseCell
  refine (settle_only j _ h_epqs h_links h_fab).trans ((foldl_only j _ (fun s x => ?_) _ _).trans ((foldl_only j _ (fun s x => ?_) _ _).trans ?_)) <;> simp [*]
@[simp] theorem damageUnit_only (j : Fld) (n : Nat) (s : State) (h_vig : j ≠ .vig) :
    j.only (damageUnit n s) = j.only s := by
  unfold damageUnit
  (try simp [*]) <;> repeat' ((first | split | intro _) <;> try simp [*])
@[simp] theorem loseCtx_only (j : Fld) (c : Nat) (s : State) (h_mbx : j ≠ .mbx) (h_epqs : j ≠ .epqs) (h_place : j ≠ .place)
    (h_u2d : j ≠ .u2d) (h_vig : j ≠ .vig) :
    j.only (loseCtx c s) = j.only s := by
  unfold loseCtx
  (try simp [*]) <;> repeat' ((first | split | intro _) <;> try simp [*])
@[simp] theorem loseUnit_only (j : Fld) (n : Nat) (s : State) (h_mbx : j ≠ .mbx) (h_epqs : j ≠ .epqs) (h_links : j ≠ .links)
    (h_sched : j ≠ .sched) (h_place : j ≠ .place) (h_fab : j ≠ .fab) (h_u2d : j ≠ .u2d) (h_vig : j ≠ .vig) :
    j.only (loseUnit n s) = j.only s := by
  unfold loseUnit
  (try simp [*]) <;> repeat' ((first | split | intro _) <;> try simp [*])

/-! ### Reactions -/

@[simp] theorem losePd_only (j : Fld) (p : Port) (tx : Bool) (s : State) (h_phy : j ≠ .phy) :
    j.only (losePd p tx s) = j.only s := by
  simp [losePd, *]
@[simp] theorem correctPd_only (j : Fld) (p : Port) (s : State) (h_freeSeq : j ≠ .freeSeq) (h_phy : j ≠ .phy) :
    j.only (correctPd p s) = j.only s := by
  unfold correctPd
  (try simp [*]) <;> repeat' ((first | split | intro _) <;> try simp [*])
@[simp] theorem loseCrossing_only (j : Fld) (p : Port) (s : State) (h_links : j ≠ .links) (h_sched : j ≠ .sched) :
    j.only (loseCrossing p s) = j.only s := by
  unfold loseCrossing
  (try simp [*]) <;> repeat' ((first | split | intro _) <;> try simp [*])
@[simp] theorem loseInPage_only (j : Fld) (at_ : Option Nat) (page : Nat) (regions : List Nat) (s : State)
    (h_freeSeq : j ≠ .freeSeq) (h_mbx : j ≠ .mbx) (h_epqs : j ≠ .epqs) (h_links : j ≠ .links) (h_sched : j ≠ .sched)
    (h_place : j ≠ .place) (h_fab : j ≠ .fab) (h_u2d : j ≠ .u2d) (h_vig : j ≠ .vig) :
    j.only (loseInPage at_ page regions s) = j.only s := by
  unfold loseInPage
  (try simp [*]) <;> repeat' ((first | split | intro _) <;> try simp [*])
@[simp] theorem dataLost_only (j : Fld) (at_ : Option Nat) (b : Block) (src unit : Nat) (s : State) (h_freeSeq : j ≠ .freeSeq)
    (h_mbx : j ≠ .mbx) (h_alm : j ≠ .alm) (h_epqs : j ≠ .epqs) (h_links : j ≠ .links) (h_sched : j ≠ .sched)
    (h_place : j ≠ .place) (h_fab : j ≠ .fab) (h_u2d : j ≠ .u2d) (h_vig : j ≠ .vig) (h_phy : j ≠ .phy) :
    j.only (dataLost at_ b src unit s) = j.only s := by
  unfold dataLost
  (try simp [*]) <;> repeat' ((first | split | intro _) <;> try simp [*])
@[simp] theorem fencePort_only (j : Fld) (p : Port) (was2 was3 cut : Bool) (s : State) (h_out : j ≠ .out) (h_mbx : j ≠ .mbx)
    (h_avail : j ≠ .avail) (h_hubs : j ≠ .hubs) (h_dsd : j ≠ .dsd) (h_usd : j ≠ .usd) (h_epqs : j ≠ .epqs)
    (h_links : j ≠ .links) (h_sched : j ≠ .sched) (h_place : j ≠ .place) (h_fab : j ≠ .fab) (h_u2d : j ≠ .u2d)
    (h_vig : j ≠ .vig) (h_tc : j ≠ .tc) (h_phy : j ≠ .phy) (h_pwr : j ≠ .pwr) (h_dp : j ≠ .dp) :
    j.only (fencePort p was2 was3 cut s) = j.only s := by
  unfold fencePort
  (try simp [*]) <;> repeat' ((first | split | intro _) <;> try simp [*])
@[simp] theorem readmitPort_only (j : Fld) (p : Port) (cut : Bool) (s : State) (h_hubs : j ≠ .hubs) (h_usd : j ≠ .usd)
    (h_tc : j ≠ .tc) :
    j.only (readmitPort p cut s) = j.only s := by
  unfold readmitPort
  (try simp [*]) <;> repeat' ((first | split | intro _) <;> try simp [*])
@[simp] theorem thymeBack_only (j : Fld) (t : Fin 6) (s : State) (h_out : j ≠ .out) (h_mbx : j ≠ .mbx) (h_pmu : j ≠ .pmu)
    (h_fw : j ≠ .fw) (h_avail : j ≠ .avail) (h_hubs : j ≠ .hubs) (h_own : j ≠ .own) (h_dsd : j ≠ .dsd) (h_usd : j ≠ .usd)
    (h_epqs : j ≠ .epqs) (h_links : j ≠ .links) (h_sched : j ≠ .sched) (h_place : j ≠ .place) (h_fab : j ≠ .fab)
    (h_u2d : j ≠ .u2d) (h_vig : j ≠ .vig) (h_fo : j ≠ .fo) (h_tc : j ≠ .tc) (h_phy : j ≠ .phy) (h_pwr : j ≠ .pwr)
    (h_lane : j ≠ .lane) (h_dp : j ≠ .dp) :
    j.only (thymeBack t s) = j.only s := by
  simp [thymeBack, *]
@[simp] theorem spreadFences_only (j : Fld) (s0 : State) (cut forced : Bool) (s : State) (h_out : j ≠ .out)
    (h_freeSeq : j ≠ .freeSeq) (h_mbx : j ≠ .mbx) (h_pmu : j ≠ .pmu) (h_fw : j ≠ .fw) (h_avail : j ≠ .avail)
    (h_hubs : j ≠ .hubs) (h_dsd : j ≠ .dsd) (h_usd : j ≠ .usd) (h_epqs : j ≠ .epqs) (h_links : j ≠ .links)
    (h_sched : j ≠ .sched) (h_place : j ≠ .place) (h_memb : j ≠ .memb) (h_fab : j ≠ .fab) (h_u2d : j ≠ .u2d) (h_vig : j ≠ .vig)
    (h_tc : j ≠ .tc) (h_phy : j ≠ .phy) (h_pwr : j ≠ .pwr) (h_dp : j ≠ .dp) (h_test : j ≠ .test) :
    j.only (spreadFences s0 cut forced s) = j.only s := by
  simp [spreadFences, *]
@[simp] theorem spreadReadmits_only (j : Fld) (s0 s : State) (h_out : j ≠ .out) (h_mbx : j ≠ .mbx) (h_pmu : j ≠ .pmu)
    (h_fw : j ≠ .fw) (h_avail : j ≠ .avail) (h_hubs : j ≠ .hubs) (h_own : j ≠ .own) (h_dsd : j ≠ .dsd) (h_usd : j ≠ .usd)
    (h_epqs : j ≠ .epqs) (h_links : j ≠ .links) (h_sched : j ≠ .sched) (h_place : j ≠ .place) (h_fab : j ≠ .fab)
    (h_u2d : j ≠ .u2d) (h_vig : j ≠ .vig) (h_fo : j ≠ .fo) (h_tc : j ≠ .tc) (h_phy : j ≠ .phy) (h_pwr : j ≠ .pwr)
    (h_lane : j ≠ .lane) (h_dp : j ≠ .dp) :
    j.only (spreadReadmits s0 s) = j.only s := by
  unfold spreadReadmits
  extract_lets s1 chvs s2 s3 rings s4
  have e1 : j.only s1 = j.only s := foldl_only j _ (fun s x => by simp [*]) _ _
  have e2 : j.only s2 = j.only s := by
    unfold s2
    (try simp [*]) <;> repeat' ((first | split | intro _) <;> try simp [*])
  have e3 : j.only s3 = j.only s := (foldl_only j _ (fun s x => by simp [*]) _ _).trans e2
  have e4 : j.only s4 = j.only s := (only_mbx _ _ _ h_mbx).trans e3
  simp [*]
@[simp] theorem allPscLow_only (j : Fld) (s : State) (h_out : j ≠ .out) (h_mbx : j ≠ .mbx) (h_avail : j ≠ .avail)
    (h_hubs : j ≠ .hubs) (h_dsd : j ≠ .dsd) (h_usd : j ≠ .usd) (h_epqs : j ≠ .epqs) (h_links : j ≠ .links)
    (h_sched : j ≠ .sched) (h_place : j ≠ .place) (h_fab : j ≠ .fab) (h_u2d : j ≠ .u2d) (h_vig : j ≠ .vig) (h_tc : j ≠ .tc)
    (h_phy : j ≠ .phy) (h_pwr : j ≠ .pwr) (h_dp : j ≠ .dp) :
    j.only (allPscLow s) = j.only s := by
  simp [allPscLow, *]
@[simp] theorem kickLow_only (j : Fld) (i : Fin 2) (s : State) (h_lio : j ≠ .lio) :
    j.only (kickLow i s) = j.only s := by
  simp [kickLow, *]
@[simp] theorem unitEffects_only (j : Fld) (b : Block) (ft : Bool) (unit : Nat) (s : State) (h_out : j ≠ .out)
    (h_mbx : j ≠ .mbx) (h_clk : j ≠ .clk) (h_avail : j ≠ .avail) (h_hubs : j ≠ .hubs) (h_dsd : j ≠ .dsd) (h_usd : j ≠ .usd)
    (h_epqs : j ≠ .epqs) (h_links : j ≠ .links) (h_sched : j ≠ .sched) (h_place : j ≠ .place) (h_fab : j ≠ .fab)
    (h_u2d : j ≠ .u2d) (h_vig : j ≠ .vig) (h_tc : j ≠ .tc) (h_phy : j ≠ .phy) (h_pwr : j ≠ .pwr) (h_dp : j ≠ .dp)
    (h_lio : j ≠ .lio) :
    j.only (unitEffects b ft unit s) = j.only s := by
  unfold unitEffects
  (try simp [*]) <;> repeat' ((first | split | intro _) <;> try simp [*])
@[simp] theorem noteLevel_only (j : Fld) (b : Block) (src unit : Nat) (forced : Bool) (s : State) (h_flt : j ≠ .flt) :
    j.only (noteLevel b src unit forced s) = j.only s := by
  simp [noteLevel, *]
@[simp] theorem fenceCtxPage_only (j : Fld) (at_ : Option Nat) (b : Block) (src : Nat) (forced : Bool) (s : State)
    (h_freeSeq : j ≠ .freeSeq) (h_flt : j ≠ .flt) :
    j.only (fenceCtxPage at_ b src forced s) = j.only s := by
  simp [fenceCtxPage, *]
@[simp] theorem raiseFaultAt_only (j : Fld) (at_ : Option Nat) (b : Block) (src unit : Nat) (forced persistent : Bool)
    (s0 : State) (h_out : j ≠ .out) (h_freeSeq : j ≠ .freeSeq) (h_mbx : j ≠ .mbx) (h_flt : j ≠ .flt) (h_alm : j ≠ .alm)
    (h_pmu : j ≠ .pmu) (h_clk : j ≠ .clk) (h_fw : j ≠ .fw) (h_avail : j ≠ .avail) (h_hubs : j ≠ .hubs) (h_dsd : j ≠ .dsd)
    (h_usd : j ≠ .usd) (h_epqs : j ≠ .epqs) (h_links : j ≠ .links) (h_sched : j ≠ .sched) (h_place : j ≠ .place)
    (h_memb : j ≠ .memb) (h_fab : j ≠ .fab) (h_u2d : j ≠ .u2d) (h_vig : j ≠ .vig) (h_tc : j ≠ .tc) (h_phy : j ≠ .phy)
    (h_pwr : j ≠ .pwr) (h_dp : j ≠ .dp) (h_lio : j ≠ .lio) (h_test : j ≠ .test) :
    j.only (raiseFaultAt at_ b src unit forced persistent s0) = j.only s0 := by
  unfold raiseFaultAt
  (try simp [*]) <;> repeat' ((first | split | intro _) <;> try simp [*])
@[simp] theorem raiseFault_only (j : Fld) (b : Block) (src unit : Nat) (forced persistent : Bool) (s : State) (h_out : j ≠ .out)
    (h_freeSeq : j ≠ .freeSeq) (h_mbx : j ≠ .mbx) (h_flt : j ≠ .flt) (h_alm : j ≠ .alm) (h_pmu : j ≠ .pmu) (h_clk : j ≠ .clk)
    (h_fw : j ≠ .fw) (h_avail : j ≠ .avail) (h_hubs : j ≠ .hubs) (h_dsd : j ≠ .dsd) (h_usd : j ≠ .usd) (h_epqs : j ≠ .epqs)
    (h_links : j ≠ .links) (h_sched : j ≠ .sched) (h_place : j ≠ .place) (h_memb : j ≠ .memb) (h_fab : j ≠ .fab)
    (h_u2d : j ≠ .u2d) (h_vig : j ≠ .vig) (h_tc : j ≠ .tc) (h_phy : j ≠ .phy) (h_pwr : j ≠ .pwr) (h_dp : j ≠ .dp)
    (h_lio : j ≠ .lio) (h_test : j ≠ .test) :
    j.only (raiseFault b src unit forced persistent s) = j.only s := by
  unfold raiseFault
  (try simp [*]) <;> repeat' ((first | split | intro _) <;> try simp [*])
@[simp] theorem fault_only (j : Fld) (b : Block) (src unit : Nat) (s : State) (h_out : j ≠ .out) (h_freeSeq : j ≠ .freeSeq)
    (h_mbx : j ≠ .mbx) (h_flt : j ≠ .flt) (h_alm : j ≠ .alm) (h_pmu : j ≠ .pmu) (h_clk : j ≠ .clk) (h_fw : j ≠ .fw)
    (h_avail : j ≠ .avail) (h_hubs : j ≠ .hubs) (h_dsd : j ≠ .dsd) (h_usd : j ≠ .usd) (h_epqs : j ≠ .epqs)
    (h_links : j ≠ .links) (h_sched : j ≠ .sched) (h_place : j ≠ .place) (h_memb : j ≠ .memb) (h_fab : j ≠ .fab)
    (h_u2d : j ≠ .u2d) (h_vig : j ≠ .vig) (h_tc : j ≠ .tc) (h_phy : j ≠ .phy) (h_pwr : j ≠ .pwr) (h_dp : j ≠ .dp)
    (h_lio : j ≠ .lio) (h_test : j ≠ .test) :
    j.only (fault b src unit s) = j.only s := by
  simp [fault, *]
@[simp] theorem retest_only (j : Fld) (b : Block) (reads : List ReadBack) (s : State) (h_memb : j ≠ .memb) :
    j.only (retest b reads s) = j.only s := by
  unfold retest
  (try simp [*]) <;> repeat' ((first | split | intro _) <;> try simp [*])
@[simp] theorem retireLimit_only (j : Fld) (b : Block) (before : MemBlk) (s : State) (h_out : j ≠ .out)
    (h_freeSeq : j ≠ .freeSeq) (h_mbx : j ≠ .mbx) (h_flt : j ≠ .flt) (h_alm : j ≠ .alm) (h_pmu : j ≠ .pmu) (h_clk : j ≠ .clk)
    (h_fw : j ≠ .fw) (h_avail : j ≠ .avail) (h_hubs : j ≠ .hubs) (h_dsd : j ≠ .dsd) (h_usd : j ≠ .usd) (h_epqs : j ≠ .epqs)
    (h_links : j ≠ .links) (h_sched : j ≠ .sched) (h_place : j ≠ .place) (h_memb : j ≠ .memb) (h_fab : j ≠ .fab)
    (h_u2d : j ≠ .u2d) (h_vig : j ≠ .vig) (h_tc : j ≠ .tc) (h_phy : j ≠ .phy) (h_pwr : j ≠ .pwr) (h_dp : j ≠ .dp)
    (h_lio : j ≠ .lio) (h_test : j ≠ .test) :
    j.only (retireLimit b before s) = j.only s := by
  simp [retireLimit, *]

/-! ### WakeOps -/

@[simp] theorem latchWake_only (j : Fld) (cls port detail : Nat) (s : State) (h_sup : j ≠ .sup) :
    j.only (latchWake cls port detail s) = j.only s := by
  simp [latchWake, *]
@[simp] theorem suspendWake_only (j : Fld) (cls port detail : Nat) (s : State) (h_mbx : j ≠ .mbx) (h_pmu : j ≠ .pmu)
    (h_wake : j ≠ .wake) (h_sup : j ≠ .sup) (h_fw : j ≠ .fw) :
    j.only (suspendWake cls port detail s) = j.only s := by
  unfold suspendWake
  (try simp [*]) <;> repeat' ((first | split | intro _) <;> try simp [*])
@[simp] theorem wakeRecorded_only (j : Fld) (cls port detail coincident : Nat) (s : State) (h_wake : j ≠ .wake) :
    j.only (wakeRecorded cls port detail coincident s) = j.only s := by
  simp [wakeRecorded, *]
@[simp] theorem modGuard_only (j : Fld) (p : Port) (f : GuardPort → GuardPort) (s : State) (h_guard : j ≠ .guard) :
    j.only (modGuard p f s) = j.only s := by
  simp [modGuard, *]
@[simp] theorem guardEvent_only (j : Fld) (p : Port) (pin reading : Nat) (s : State) (h_mbx : j ≠ .mbx) :
    j.only (guardEvent p pin reading s) = j.only s := by
  simp [guardEvent, *]
@[simp] theorem guardTo_only (j : Fld) (p : Port) (st dry pin reading : Nat) (s : State) (h_mbx : j ≠ .mbx) (h_pmu : j ≠ .pmu)
    (h_wake : j ≠ .wake) (h_sup : j ≠ .sup) (h_fw : j ≠ .fw) (h_guard : j ≠ .guard) :
    j.only (guardTo p st dry pin reading s) = j.only s := by
  simp [guardTo, *]
@[simp] theorem guardRemoval_only (j : Fld) (p : Port) (s : State) (h_out : j ≠ .out) (h_mbx : j ≠ .mbx) (h_pmu : j ≠ .pmu)
    (h_fw : j ≠ .fw) (h_avail : j ≠ .avail) (h_hubs : j ≠ .hubs) (h_own : j ≠ .own) (h_dsd : j ≠ .dsd) (h_usd : j ≠ .usd)
    (h_epqs : j ≠ .epqs) (h_links : j ≠ .links) (h_sched : j ≠ .sched) (h_place : j ≠ .place) (h_fab : j ≠ .fab)
    (h_u2d : j ≠ .u2d) (h_vig : j ≠ .vig) (h_fo : j ≠ .fo) (h_tc : j ≠ .tc) (h_phy : j ≠ .phy) (h_pwr : j ≠ .pwr)
    (h_lane : j ≠ .lane) (h_guard : j ≠ .guard) (h_dp : j ≠ .dp) :
    j.only (guardRemoval p s) = j.only s := by
  simp [guardRemoval, *]
@[simp] theorem becomeWet_only (j : Fld) (p : Port) (pin reading : Nat) (s : State) (h_out : j ≠ .out) (h_mbx : j ≠ .mbx)
    (h_pmu : j ≠ .pmu) (h_wake : j ≠ .wake) (h_sup : j ≠ .sup) (h_fw : j ≠ .fw) (h_avail : j ≠ .avail) (h_hubs : j ≠ .hubs)
    (h_own : j ≠ .own) (h_dsd : j ≠ .dsd) (h_usd : j ≠ .usd) (h_epqs : j ≠ .epqs) (h_links : j ≠ .links) (h_sched : j ≠ .sched)
    (h_place : j ≠ .place) (h_fab : j ≠ .fab) (h_u2d : j ≠ .u2d) (h_vig : j ≠ .vig) (h_fo : j ≠ .fo) (h_tc : j ≠ .tc)
    (h_phy : j ≠ .phy) (h_pwr : j ≠ .pwr) (h_lane : j ≠ .lane) (h_guard : j ≠ .guard) (h_dp : j ≠ .dp) :
    j.only (becomeWet p pin reading s) = j.only s := by
  simp [becomeWet, *]

/-! ### PortView -/

@[simp] theorem startUpWakes_only (j : Fld) (s : State) (h_out : j ≠ .out) (h_dsd : j ≠ .dsd) (h_usd : j ≠ .usd) :
    j.only (startUpWakes s) = j.only s := by
  unfold startUpWakes
  simp only []
  refine (foldl_only j _ (fun s x => ?_) _ _).trans ?_ <;> (try simp [*]) <;> repeat' ((first | split | intro _) <;> try simp [*])
@[simp] theorem cmdPortStatus_only (j : Fld) (r : Req) (s : State) :
    j.only (cmdPortStatus r s).1 = j.only s := by
  unfold cmdPortStatus
  (try simp [*]) <;> repeat' ((first | split | intro _) <;> try simp [*])

/-! ### Modes -/

@[simp] theorem serviceEnds_only (j : Fld) (s : State) (h_out : j ≠ .out) (h_freeSeq : j ≠ .freeSeq) (h_mbx : j ≠ .mbx)
    (h_pmu : j ≠ .pmu) (h_fw : j ≠ .fw) (h_avail : j ≠ .avail) (h_hubs : j ≠ .hubs) (h_own : j ≠ .own) (h_dsd : j ≠ .dsd)
    (h_usd : j ≠ .usd) (h_epqs : j ≠ .epqs) (h_links : j ≠ .links) (h_sched : j ≠ .sched) (h_place : j ≠ .place)
    (h_memb : j ≠ .memb) (h_fab : j ≠ .fab) (h_u2d : j ≠ .u2d) (h_vig : j ≠ .vig) (h_fo : j ≠ .fo) (h_tc : j ≠ .tc)
    (h_phy : j ≠ .phy) (h_pwr : j ≠ .pwr) (h_lane : j ≠ .lane) (h_dp : j ≠ .dp) (h_test : j ≠ .test) :
    j.only (serviceEnds s) = j.only s := by
  simp [serviceEnds, *]
@[simp] theorem pendRequest_only (j : Fld) (t : Machine.Trans) (s : State) (h_mbx : j ≠ .mbx) (h_pmu : j ≠ .pmu) :
    j.only (pendRequest t s) = j.only s := by
  simp [pendRequest, *]
@[simp] theorem beginSleep_only (j : Fld) (t : Machine.Trans) (s : State) (h_pmu : j ≠ .pmu) :
    j.only (beginSleep t s) = j.only s := by
  simp [beginSleep, *]
@[simp] theorem reached_only (j : Fld) (s : State) :
    j.only (reached s).1 = j.only s := by
  simp [reached, *]
@[simp] theorem requestSleep_only (j : Fld) (t : Machine.Trans) (s : State) (h_mbx : j ≠ .mbx) (h_pmu : j ≠ .pmu) :
    j.only (requestSleep t s).1 = j.only s := by
  simp [requestSleep, *]
@[simp] theorem setTarget_only (j : Fld) (m : Mode) (s : State) (h_out : j ≠ .out) (h_freeSeq : j ≠ .freeSeq) (h_mbx : j ≠ .mbx)
    (h_pmu : j ≠ .pmu) (h_fw : j ≠ .fw) (h_avail : j ≠ .avail) (h_hubs : j ≠ .hubs) (h_own : j ≠ .own) (h_dsd : j ≠ .dsd)
    (h_usd : j ≠ .usd) (h_epqs : j ≠ .epqs) (h_links : j ≠ .links) (h_sched : j ≠ .sched) (h_place : j ≠ .place)
    (h_memb : j ≠ .memb) (h_fab : j ≠ .fab) (h_u2d : j ≠ .u2d) (h_vig : j ≠ .vig) (h_fo : j ≠ .fo) (h_tc : j ≠ .tc)
    (h_phy : j ≠ .phy) (h_pwr : j ≠ .pwr) (h_lane : j ≠ .lane) (h_dp : j ≠ .dp) (h_test : j ≠ .test) :
    j.only (setTarget m s) = j.only s := by
  unfold setTarget
  (try simp [*]) <;> repeat' ((first | split | intro _) <;> try simp [*])
@[simp] theorem requestRun_only (j : Fld) (m : Mode) (s : State) (h_out : j ≠ .out) (h_freeSeq : j ≠ .freeSeq)
    (h_mbx : j ≠ .mbx) (h_pmu : j ≠ .pmu) (h_fw : j ≠ .fw) (h_avail : j ≠ .avail) (h_hubs : j ≠ .hubs) (h_own : j ≠ .own)
    (h_dsd : j ≠ .dsd) (h_usd : j ≠ .usd) (h_epqs : j ≠ .epqs) (h_links : j ≠ .links) (h_sched : j ≠ .sched)
    (h_place : j ≠ .place) (h_memb : j ≠ .memb) (h_fab : j ≠ .fab) (h_u2d : j ≠ .u2d) (h_vig : j ≠ .vig) (h_fo : j ≠ .fo)
    (h_tc : j ≠ .tc) (h_phy : j ≠ .phy) (h_pwr : j ≠ .pwr) (h_lane : j ≠ .lane) (h_dp : j ≠ .dp) (h_test : j ≠ .test) :
    j.only (requestRun m s).1 = j.only s := by
  simp [requestRun, *]
@[simp] theorem cmdModeRequest_only (j : Fld) (r : Req) (s : State) (h_out : j ≠ .out) (h_freeSeq : j ≠ .freeSeq)
    (h_mbx : j ≠ .mbx) (h_flt : j ≠ .flt) (h_alm : j ≠ .alm) (h_pmu : j ≠ .pmu) (h_fw : j ≠ .fw) (h_avail : j ≠ .avail)
    (h_hubs : j ≠ .hubs) (h_own : j ≠ .own) (h_dsd : j ≠ .dsd) (h_usd : j ≠ .usd) (h_epqs : j ≠ .epqs) (h_links : j ≠ .links)
    (h_sched : j ≠ .sched) (h_place : j ≠ .place) (h_memb : j ≠ .memb) (h_fab : j ≠ .fab) (h_u2d : j ≠ .u2d) (h_vig : j ≠ .vig)
    (h_fo : j ≠ .fo) (h_tc : j ≠ .tc) (h_phy : j ≠ .phy) (h_pwr : j ≠ .pwr) (h_lane : j ≠ .lane) (h_dp : j ≠ .dp)
    (h_test : j ≠ .test) :
    j.only (cmdModeRequest r s).1 = j.only s := by
  unfold cmdModeRequest
  (try simp [*]) <;> repeat' ((first | split | intro _) <;> try simp [*])
@[simp] theorem pmbWrite_only (j : Fld) (code : Nat) (data : List Byte) (s : State) (h_out : j ≠ .out) :
    j.only (pmbWrite code data s) = j.only s := by
  unfold pmbWrite
  (try simp [*]) <;> repeat' ((first | split | intro _) <;> try simp [*])
@[simp] theorem writeVout_only (j : Fld) (o : Nat) (s : State) (h_out : j ≠ .out) (h_reg : j ≠ .reg) :
    j.only (writeVout o s) = j.only s := by
  simp [writeVout, *]
@[simp] theorem startOpp_only (j : Fld) (s : State) (h_out : j ≠ .out) (h_pmu : j ≠ .pmu) (h_reg : j ≠ .reg) :
    j.only (startOpp s) = j.only s := by
  unfold startOpp
  (try simp [*]) <;> repeat' ((first | split | intro _) <;> try simp [*])
@[simp] theorem transitionEnds_only (j : Fld) (skip : List (Fin 8)) (s : State) (h_mbx : j ≠ .mbx) (h_pmu : j ≠ .pmu) :
    j.only (transitionEnds skip s) = j.only s := by
  unfold transitionEnds
  (try simp [*]) <;> repeat' ((first | split | intro _) <;> try simp [*])
@[simp] theorem tick_only (j : Fld) (s : State) (h_out : j ≠ .out) (h_now : j ≠ .now) (h_clk : j ≠ .clk) (h_dsd : j ≠ .dsd)
    (h_usd : j ≠ .usd) :
    j.only (tick s) = j.only s := by
  unfold tick
  ((try simp [*]) <;> repeat' ((first | split | intro _) <;> try simp [*])) <;> (cases j <;> first | rfl | contradiction)
@[simp] theorem restoreLaneTime_only (j : Fld) (b : BootIn) (s : State) (h_now : j ≠ .now) (h_clk : j ≠ .clk) :
    j.only (restoreLaneTime b s) = j.only s := by
  simp [restoreLaneTime, *]

/-! ### Typec -/

@[simp] theorem attachEndsLoop_only (j : Fld) (p : Port) (s : State) (h_freeSeq : j ≠ .freeSeq) (h_mbx : j ≠ .mbx)
    (h_dsd : j ≠ .dsd) (h_test : j ≠ .test) :
    j.only (attachEndsLoop p s) = j.only s := by
  unfold attachEndsLoop
  (try simp [*]) <;> repeat' ((first | split | intro _) <;> try simp [*])
@[simp] theorem attachSrc_only (j : Fld) (p : Port) (s0 : State) (h_out : j ≠ .out) (h_freeSeq : j ≠ .freeSeq)
    (h_mbx : j ≠ .mbx) (h_avail : j ≠ .avail) (h_hubs : j ≠ .hubs) (h_dsd : j ≠ .dsd) (h_usd : j ≠ .usd) (h_epqs : j ≠ .epqs)
    (h_links : j ≠ .links) (h_sched : j ≠ .sched) (h_place : j ≠ .place) (h_fab : j ≠ .fab) (h_u2d : j ≠ .u2d)
    (h_vig : j ≠ .vig) (h_tc : j ≠ .tc) (h_phy : j ≠ .phy) (h_pwr : j ≠ .pwr) (h_lane : j ≠ .lane) (h_dp : j ≠ .dp)
    (h_test : j ≠ .test) :
    j.only (attachSrc p s0) = j.only s0 := by
  simp [attachSrc, *]
@[simp] theorem attachSnk_only (j : Fld) (p : Port) (s : State) (h_out : j ≠ .out) (h_tc : j ≠ .tc) (h_phy : j ≠ .phy)
    (h_pwr : j ≠ .pwr) :
    j.only (attachSnk p s) = j.only s := by
  simp [attachSnk, *]
@[simp] theorem tryTo_only (j : Fld) (p : Port) (st : CcState) (s : State) (h_tc : j ≠ .tc) :
    j.only (tryTo p st s) = j.only s := by
  simp [tryTo, *]
@[simp] theorem tryStep_only (j : Fld) (p : Port) (ok : Bool) (deb limit : Nat) (att next : State → State) (s : State)
    (hf : ∀ t, j.only (att t) = j.only t) (hg : ∀ t, j.only (next t) = j.only t) (h_now : j ≠ .now) :
    j.only (tryStep p ok deb limit att next s) = j.only s := by
  simp [tryStep, *]
@[simp] theorem discoverIdentity_only (j : Fld) (p : Port) (s : State) (h_tc : j ≠ .tc) (h_phy : j ≠ .phy) :
    j.only (discoverIdentity p s) = j.only s := by
  simp [discoverIdentity, *]
@[simp] theorem discoveryEnds_only (j : Fld) (p : Port) (s : State) (h_tc : j ≠ .tc) (h_phy : j ≠ .phy) (h_pwr : j ≠ .pwr) :
    j.only (discoveryEnds p s) = j.only s := by
  simp [discoveryEnds, *]
@[simp] theorem discoveryResumes_only (j : Fld) (p : Port) (s : State) (h_tc : j ≠ .tc) (h_phy : j ≠ .phy) :
    j.only (discoveryResumes p s) = j.only s := by
  simp [discoveryResumes, *]

/-! ### Pd -/

@[simp] theorem deliverRx_only (j : Fld) (p : Port) (s : State) (h_phy : j ≠ .phy) :
    j.only (deliverRx p s) = j.only s := by
  unfold deliverRx
  (try simp [*]) <;> repeat' ((first | split | intro _) <;> try simp [*])
@[simp] theorem discardTx_only (j : Fld) (p : Port) (s : State) (h_mbx : j ≠ .mbx) (h_phy : j ≠ .phy) (h_pwr : j ≠ .pwr) :
    j.only (discardTx p s) = j.only s := by
  unfold discardTx
  (try simp [*]) <;> repeat' ((first | split | intro _) <;> try simp [*])
@[simp] theorem restartTimers_only (j : Fld) (p : Port) (m : PdMsg) (s : State) (h_pwr : j ≠ .pwr) :
    j.only (restartTimers p m s) = j.only s := by
  simp [restartTimers, *]
@[simp] theorem startTx_only (j : Fld) (p : Port) (m : PdMsg) (s : State) (h_out : j ≠ .out) (h_phy : j ≠ .phy) :
    j.only (startTx p m s) = j.only s := by
  simp [startTx, *]
@[simp] theorem takeStaged_only (j : Fld) (p : Port) (s : State) (h_phy : j ≠ .phy) :
    j.only (takeStaged p s) = j.only s := by
  unfold takeStaged
  (try simp [*]) <;> repeat' ((first | split | intro _) <;> try simp [*])
@[simp] theorem startTransition_only (j : Fld) (p : Port) (s : State) (h_pwr : j ≠ .pwr) :
    j.only (startTransition p s) = j.only s := by
  unfold startTransition
  (try simp [*]) <;> repeat' ((first | split | intro _) <;> try simp [*])
@[simp] theorem swapPhase_only (j : Fld) (p : Port) (n : Nat) (s : State) (h_pwr : j ≠ .pwr) :
    j.only (swapPhase p n s) = j.only s := by
  simp [swapPhase, *]
@[simp] theorem setDataRole_only (j : Fld) (u : US) (dfp : Bool) (s : State) (h_hubs : j ≠ .hubs) (h_usd : j ≠ .usd)
    (h_tc : j ≠ .tc) :
    j.only (setDataRole u dfp s) = j.only s := by
  simp [setDataRole, *]
@[simp] theorem txSent_only (j : Fld) (p : Port) (m : PdMsg) (s : State) (h_out : j ≠ .out) (h_hubs : j ≠ .hubs)
    (h_usd : j ≠ .usd) (h_tc : j ≠ .tc) (h_phy : j ≠ .phy) (h_pwr : j ≠ .pwr) :
    j.only (txSent p m s) = j.only s := by
  unfold txSent
  (try simp [*]) <;> repeat' ((first | split | intro _) <;> try simp [*])
@[simp] theorem softReset_only (j : Fld) (p : Port) (s : State) (h_phy : j ≠ .phy) (h_pwr : j ≠ .pwr) :
    j.only (softReset p s) = j.only s := by
  simp [softReset, *]
@[simp] theorem txLost_only (j : Fld) (p : Port) (m : PdMsg) (s : State) (h_out : j ≠ .out) (h_mbx : j ≠ .mbx)
    (h_avail : j ≠ .avail) (h_hubs : j ≠ .hubs) (h_dsd : j ≠ .dsd) (h_usd : j ≠ .usd) (h_epqs : j ≠ .epqs)
    (h_links : j ≠ .links) (h_sched : j ≠ .sched) (h_place : j ≠ .place) (h_fab : j ≠ .fab) (h_u2d : j ≠ .u2d)
    (h_vig : j ≠ .vig) (h_tc : j ≠ .tc) (h_phy : j ≠ .phy) (h_pwr : j ≠ .pwr) (h_lane : j ≠ .lane) (h_dp : j ≠ .dp) :
    j.only (txLost p m s) = j.only s := by
  simp [txLost, *]
@[simp] theorem cableReset_only (j : Fld) (p : Port) (s : State) (h_phy : j ≠ .phy) :
    j.only (cableReset p s) = j.only s := by
  unfold cableReset
  (try simp [*]) <;> repeat' ((first | split | intro _) <;> try simp [*])
@[simp] theorem cableAnswer_only (j : Fld) (p : Port) (m : PdMsg) (s : State) (h_tc : j ≠ .tc) (h_phy : j ≠ .phy)
    (h_pwr : j ≠ .pwr) :
    j.only (cableAnswer p m s) = j.only s := by
  simp [cableAnswer, *]
@[simp] theorem sinkRequest_only (j : Fld) (p : Port) (s : State) (h_phy : j ≠ .phy) (h_pwr : j ≠ .pwr) :
    j.only (sinkRequest p s) = j.only s := by
  simp [sinkRequest, *]
@[simp] theorem sinkContract_only (j : Fld) (p : Port) (s : State) (h_mbx : j ≠ .mbx) (h_phy : j ≠ .phy) (h_pwr : j ≠ .pwr) :
    j.only (sinkContract p s) = j.only s := by
  unfold sinkContract
  (try simp [*]) <;> repeat' ((first | split | intro _) <;> try simp [*])
@[simp] theorem sendChunk_only (j : Fld) (p : Port) (typ num total : Nat) (part : List Byte) (s : State) (h_phy : j ≠ .phy) :
    j.only (sendChunk p typ num total part s) = j.only s := by
  simp [sendChunk, *]
@[simp] theorem extMessage_only (j : Fld) (p : Port) (m : PdMsg) (s : State) (h_phy : j ≠ .phy) (h_pwr : j ≠ .pwr) :
    j.only (extMessage p m s) = j.only s := by
  unfold extMessage
  (try simp [*]) <;> repeat' ((first | split | intro _) <;> try simp [*])
@[simp] theorem gatherCaps_only (j : Fld) (p : Port) (m : PdMsg) (s : State) (h_phy : j ≠ .phy) :
    j.only (gatherCaps p m s).1 = j.only s := by
  simp [gatherCaps, *]
@[simp] theorem thymeReply_only (j : Fld) (p : Port) (m : PdMsg) (s : State) (h_mbx : j ≠ .mbx) (h_tc : j ≠ .tc)
    (h_phy : j ≠ .phy) (h_pwr : j ≠ .pwr) :
    j.only (thymeReply p m s) = j.only s := by
  simp [thymeReply, *]
@[simp] theorem takeHand_only (j : Fld) (p : Port) (ok : PdMsg → Bool) (f : PdMsg → State → State) (s : State)
    (hf : ∀ m t, j.only (f m t) = j.only t) (h_phy : j ≠ .phy) :
    j.only (takeHand p ok f s) = j.only s := by
  unfold takeHand
  (try simp [*]) <;> repeat' ((first | split | intro _) <;> try simp [*])

/-! ### LioOps -/

@[simp] theorem laneIoEvent_only (j : Fld) (kind index level edges : Nat) (s : State) (h_mbx : j ≠ .mbx) :
    j.only (laneIoEvent kind index level edges s) = j.only s := by
  simp [laneIoEvent, *]
@[simp] theorem gpioEvent_only (j : Fld) (n : Nat) (s : State) (h_mbx : j ≠ .mbx) (h_lio : j ≠ .lio) :
    j.only (gpioEvent n s) = j.only s := by
  simp [gpioEvent, *]
@[simp] theorem gpioFlush_only (j : Fld) (s : State) (h_mbx : j ≠ .mbx) (h_lio : j ≠ .lio) :
    j.only (gpioFlush s) = j.only s := by
  simp [gpioFlush, *]

/-! ### Display -/

@[simp] theorem modDp_only (j : Fld) (i : Fin 2) (f : DpIn → DpIn) (s : State) (h_dp : j ≠ .dp) :
    j.only (modDp i f s) = j.only s := by
  simp [modDp, *]
@[simp] theorem vdm_only (j : Fld) (p : Port) (svid pos typ cmd : Nat) (objs : List Nat) (s : State) (h_phy : j ≠ .phy) :
    j.only (vdm p svid pos typ cmd objs s) = j.only s := by
  simp [vdm, *]
@[simp] theorem dpStep_only (j : Fld) (i : Fin 2) (d : DS) (phase svid pos cmd : Nat) (objs : List Nat) (s : State)
    (h_phy : j ≠ .phy) (h_dp : j ≠ .dp) :
    j.only (dpStep i d phase svid pos cmd objs s) = j.only s := by
  simp [dpStep, *]
@[simp] theorem dpStop_only (j : Fld) (i : Fin 2) (cause : Nat) (s : State) (h_out : j ≠ .out) (h_mbx : j ≠ .mbx)
    (h_phy : j ≠ .phy) (h_dp : j ≠ .dp) :
    j.only (dpStop i cause s) = j.only s := by
  unfold dpStop
  (try simp [*]) <;> repeat' ((first | split | intro _) <;> try simp [*])
@[simp] theorem hpdState_only (j : Fld) (i : Fin 2) (high : Bool) (s : State) (h_dp : j ≠ .dp) :
    j.only (hpdState i high s) = j.only s := by
  simp [hpdState, *]
@[simp] theorem hpdIrq_only (j : Fld) (i : Fin 2) (s : State) (h_dp : j ≠ .dp) :
    j.only (hpdIrq i s) = j.only s := by
  simp [hpdIrq, *]
@[simp] theorem hpdStatus_only (j : Fld) (i : Fin 2) (v : Nat) (s : State) (h_dp : j ≠ .dp) :
    j.only (hpdStatus i v s) = j.only s := by
  simp [hpdStatus, *]
@[simp] theorem dpEntered_only (j : Fld) (i : Fin 2) (d : DS) (s : State) (h_out : j ≠ .out) (h_mbx : j ≠ .mbx)
    (h_phy : j ≠ .phy) (h_dp : j ≠ .dp) :
    j.only (dpEntered i d s) = j.only s := by
  simp [dpEntered, *]
@[simp] theorem dpConfigure_only (j : Fld) (i : Fin 2) (d : DS) (s : State) (h_out : j ≠ .out) (h_mbx : j ≠ .mbx)
    (h_avail : j ≠ .avail) (h_hubs : j ≠ .hubs) (h_dsd : j ≠ .dsd) (h_epqs : j ≠ .epqs) (h_links : j ≠ .links)
    (h_sched : j ≠ .sched) (h_place : j ≠ .place) (h_fab : j ≠ .fab) (h_u2d : j ≠ .u2d) (h_vig : j ≠ .vig) (h_phy : j ≠ .phy)
    (h_dp : j ≠ .dp) :
    j.only (dpConfigure i d s) = j.only s := by
  unfold dpConfigure
  (try simp [*]) <;> repeat' ((first | split | intro _) <;> try simp [*])
@[simp] theorem dpAck_only (j : Fld) (i : Fin 2) (d : DS) (m : PdMsg) (s : State) (h_out : j ≠ .out) (h_mbx : j ≠ .mbx)
    (h_avail : j ≠ .avail) (h_hubs : j ≠ .hubs) (h_dsd : j ≠ .dsd) (h_epqs : j ≠ .epqs) (h_links : j ≠ .links)
    (h_sched : j ≠ .sched) (h_place : j ≠ .place) (h_fab : j ≠ .fab) (h_u2d : j ≠ .u2d) (h_vig : j ≠ .vig) (h_phy : j ≠ .phy)
    (h_dp : j ≠ .dp) :
    j.only (dpAck i d m s) = j.only s := by
  unfold dpAck
  (try simp [*]) <;> repeat' ((first | split | intro _) <;> try simp [*])
@[simp] theorem cmdDpRoute_only (j : Fld) (r : Req) (s : State) (h_out : j ≠ .out) (h_freeSeq : j ≠ .freeSeq) (h_mbx : j ≠ .mbx)
    (h_flt : j ≠ .flt) (h_alm : j ≠ .alm) (h_pmu : j ≠ .pmu) (h_fw : j ≠ .fw) (h_avail : j ≠ .avail) (h_phy : j ≠ .phy)
    (h_dp : j ≠ .dp) :
    j.only (cmdDpRoute r s).1 = j.only s := by
  unfold cmdDpRoute
  (try simp [*]) <;> repeat' ((first | split | intro _) <;> try simp [*])
@[simp] theorem dpCleared_only (j : Fld) (i : Fin 2) (s : State) (h_mbx : j ≠ .mbx) :
    j.only (dpCleared i s) = j.only s := by
  simp [dpCleared, *]
@[simp] theorem modKick_only (j : Fld) (i : Fin 2) (f : Kick → Kick) (s : State) (h_lio : j ≠ .lio) :
    j.only (modKick i f s) = j.only s := by
  simp [modKick, *]
@[simp] theorem cmdDrawerKick_only (j : Fld) (r : Req) (s : State) (h_lio : j ≠ .lio) :
    j.only (cmdDrawerKick r s).1 = j.only s := by
  simp [cmdDrawerKick, *]
@[simp] theorem kickEnds_only (j : Fld) (i : Fin 2) (t0 t1 : Nat) (s : State) (h_mbx : j ≠ .mbx) (h_lio : j ≠ .lio) :
    j.only (kickEnds i t0 t1 s) = j.only s := by
  unfold kickEnds
  (try simp [*]) <;> repeat' ((first | split | intro _) <;> try simp [*])
@[simp] theorem cmdGuardStatus_only (j : Fld) (r : Req) (s : State) :
    j.only (cmdGuardStatus r s).1 = j.only s := by
  unfold cmdGuardStatus
  (try simp [*]) <;> repeat' ((first | split | intro _) <;> try simp [*])

/-! ### Power -/

@[simp] theorem acceptRequest_only (j : Fld) (p : Port) (c : Contract) (mis : Bool) (at_ : Nat) (s : State) (h_out : j ≠ .out)
    (h_mbx : j ≠ .mbx) (h_avail : j ≠ .avail) (h_hubs : j ≠ .hubs) (h_dsd : j ≠ .dsd) (h_usd : j ≠ .usd) (h_epqs : j ≠ .epqs)
    (h_links : j ≠ .links) (h_sched : j ≠ .sched) (h_place : j ≠ .place) (h_fab : j ≠ .fab) (h_u2d : j ≠ .u2d)
    (h_vig : j ≠ .vig) (h_tc : j ≠ .tc) (h_phy : j ≠ .phy) (h_pwr : j ≠ .pwr) (h_lane : j ≠ .lane) (h_dp : j ≠ .dp) :
    j.only (acceptRequest p c mis at_ s) = j.only s := by
  simp [acceptRequest, *]
@[simp] theorem rejectRequest_only (j : Fld) (p : Port) (s : State) (h_phy : j ≠ .phy) (h_pwr : j ≠ .pwr) :
    j.only (rejectRequest p s) = j.only s := by
  simp [rejectRequest, *]
@[simp] theorem judgeRequest_only (j : Fld) (p : Port) (m : PdMsg) (s : State) (h_out : j ≠ .out) (h_mbx : j ≠ .mbx)
    (h_avail : j ≠ .avail) (h_hubs : j ≠ .hubs) (h_dsd : j ≠ .dsd) (h_usd : j ≠ .usd) (h_epqs : j ≠ .epqs)
    (h_links : j ≠ .links) (h_sched : j ≠ .sched) (h_place : j ≠ .place) (h_fab : j ≠ .fab) (h_u2d : j ≠ .u2d)
    (h_vig : j ≠ .vig) (h_tc : j ≠ .tc) (h_phy : j ≠ .phy) (h_pwr : j ≠ .pwr) (h_lane : j ≠ .lane) (h_dp : j ≠ .dp) :
    j.only (judgeRequest p m s) = j.only s := by
  unfold judgeRequest
  (try simp [*]) <;> repeat' ((first | split | intro _) <;> try simp [*])
@[simp] theorem sendCaps_only (j : Fld) (p : Port) (a ams : Nat) (s : State) (h_phy : j ≠ .phy) (h_pwr : j ≠ .pwr) :
    j.only (sendCaps p a ams s) = j.only s := by
  simp [sendCaps, *]
@[simp] theorem armFrs_only (j : Fld) (p : Port) (o : Nat) (s : State) (h_out : j ≠ .out) (h_pwr : j ≠ .pwr) :
    j.only (armFrs p o s) = j.only s := by
  simp [armFrs, *]
@[simp] theorem sendSwap_only (j : Fld) (p : Port) (kind : Nat) (s : State) (h_tc : j ≠ .tc) (h_phy : j ≠ .phy) :
    j.only (sendSwap p kind s) = j.only s := by
  simp [sendSwap, *]
@[simp] theorem swapOver_only (j : Fld) (u : US) (result : Nat) (s : State) (h_mbx : j ≠ .mbx) (h_tc : j ≠ .tc)
    (h_phy : j ≠ .phy) (h_pwr : j ≠ .pwr) :
    j.only (swapOver u result s) = j.only s := by
  simp [swapOver, *]
@[simp] theorem meetSwap_only (j : Fld) (u : US) (f : State → State) (s : State) (hf : ∀ t, j.only (f t) = j.only t)
    (h_mbx : j ≠ .mbx) (h_tc : j ≠ .tc) (h_phy : j ≠ .phy) (h_pwr : j ≠ .pwr) :
    j.only (meetSwap u f s) = j.only s := by
  unfold meetSwap
  (try simp [*]) <;> repeat' ((first | split | intro _) <;> try simp [*])
@[simp] theorem acceptSwap_only (j : Fld) (p : Port) (kind : Nat) (s : State) (h_phy : j ≠ .phy) (h_pwr : j ≠ .pwr) :
    j.only (acceptSwap p kind s) = j.only s := by
  simp [acceptSwap, *]
@[simp] theorem swapAccepted_only (j : Fld) (u : US) (w : Swap) (s : State) (h_out : j ≠ .out) (h_mbx : j ≠ .mbx)
    (h_hubs : j ≠ .hubs) (h_usd : j ≠ .usd) (h_tc : j ≠ .tc) (h_phy : j ≠ .phy) (h_pwr : j ≠ .pwr) :
    j.only (swapAccepted u w s) = j.only s := by
  unfold swapAccepted
  (try simp [*]) <;> repeat' ((first | split | intro _) <;> try simp [*])
@[simp] theorem becomeSource_only (j : Fld) (p : Port) (s : State) (h_out : j ≠ .out) (h_mbx : j ≠ .mbx) (h_avail : j ≠ .avail)
    (h_hubs : j ≠ .hubs) (h_dsd : j ≠ .dsd) (h_usd : j ≠ .usd) (h_epqs : j ≠ .epqs) (h_links : j ≠ .links)
    (h_sched : j ≠ .sched) (h_place : j ≠ .place) (h_fab : j ≠ .fab) (h_u2d : j ≠ .u2d) (h_vig : j ≠ .vig) (h_tc : j ≠ .tc)
    (h_phy : j ≠ .phy) (h_pwr : j ≠ .pwr) (h_lane : j ≠ .lane) (h_dp : j ≠ .dp) :
    j.only (becomeSource p s) = j.only s := by
  simp [becomeSource, *]
@[simp] theorem becomeSink_only (j : Fld) (p : Port) (s : State) (h_out : j ≠ .out) (h_mbx : j ≠ .mbx) (h_avail : j ≠ .avail)
    (h_hubs : j ≠ .hubs) (h_dsd : j ≠ .dsd) (h_usd : j ≠ .usd) (h_epqs : j ≠ .epqs) (h_links : j ≠ .links)
    (h_sched : j ≠ .sched) (h_place : j ≠ .place) (h_fab : j ≠ .fab) (h_u2d : j ≠ .u2d) (h_vig : j ≠ .vig) (h_tc : j ≠ .tc)
    (h_phy : j ≠ .phy) (h_pwr : j ≠ .pwr) (h_lane : j ≠ .lane) (h_dp : j ≠ .dp) :
    j.only (becomeSink p s) = j.only s := by
  simp [becomeSink, *]

/-! ### PowerHw -/

@[simp] theorem dpWake_only (j : Fld) (p : Port) (s : State) (h_dp : j ≠ .dp) :
    j.only (dpWake p s) = j.only s := by
  unfold dpWake
  (try simp [*]) <;> repeat' ((first | split | intro _) <;> try simp [*])
@[simp] theorem establish_only (j : Fld) (p : Port) (c : Contract) (s : State) (h_out : j ≠ .out) (h_mbx : j ≠ .mbx)
    (h_avail : j ≠ .avail) (h_hubs : j ≠ .hubs) (h_dsd : j ≠ .dsd) (h_usd : j ≠ .usd) (h_epqs : j ≠ .epqs)
    (h_links : j ≠ .links) (h_sched : j ≠ .sched) (h_place : j ≠ .place) (h_fab : j ≠ .fab) (h_u2d : j ≠ .u2d)
    (h_vig : j ≠ .vig) (h_tc : j ≠ .tc) (h_phy : j ≠ .phy) (h_pwr : j ≠ .pwr) (h_lane : j ≠ .lane) (h_dp : j ≠ .dp) :
    j.only (establish p c s) = j.only s := by
  simp [establish, *]
@[simp] theorem transSample_only (j : Fld) (p : Port) (v : Nat) (s : State) (h_out : j ≠ .out) (h_mbx : j ≠ .mbx)
    (h_avail : j ≠ .avail) (h_hubs : j ≠ .hubs) (h_dsd : j ≠ .dsd) (h_usd : j ≠ .usd) (h_epqs : j ≠ .epqs)
    (h_links : j ≠ .links) (h_sched : j ≠ .sched) (h_place : j ≠ .place) (h_fab : j ≠ .fab) (h_u2d : j ≠ .u2d)
    (h_vig : j ≠ .vig) (h_tc : j ≠ .tc) (h_phy : j ≠ .phy) (h_pwr : j ≠ .pwr) (h_lane : j ≠ .lane) (h_dp : j ≠ .dp) :
    j.only (transSample p v s) = j.only s := by
  unfold transSample
  (try simp [*]) <;> repeat' ((first | split | intro _) <;> try simp [*])
@[simp] theorem zeroSample_only (j : Fld) (p : Port) (s : State) (h_out : j ≠ .out) (h_mbx : j ≠ .mbx) (h_avail : j ≠ .avail)
    (h_hubs : j ≠ .hubs) (h_dsd : j ≠ .dsd) (h_usd : j ≠ .usd) (h_epqs : j ≠ .epqs) (h_links : j ≠ .links)
    (h_sched : j ≠ .sched) (h_place : j ≠ .place) (h_fab : j ≠ .fab) (h_u2d : j ≠ .u2d) (h_vig : j ≠ .vig) (h_tc : j ≠ .tc)
    (h_phy : j ≠ .phy) (h_pwr : j ≠ .pwr) (h_lane : j ≠ .lane) (h_dp : j ≠ .dp) :
    j.only (zeroSample p s) = j.only s := by
  unfold zeroSample
  (try simp [*]) <;> repeat' ((first | split | intro _) <;> try simp [*])
@[simp] theorem fiveSample_only (j : Fld) (p : Port) (s : State) (h_out : j ≠ .out) (h_dsd : j ≠ .dsd) (h_tc : j ≠ .tc)
    (h_pwr : j ≠ .pwr) :
    j.only (fiveSample p s) = j.only s := by
  unfold fiveSample
  (try simp [*]) <;> repeat' ((first | split | intro _) <;> try simp [*])
@[simp] theorem vbsSample_only (j : Fld) (p : Port) (v : Nat) (s : State) (h_out : j ≠ .out) (h_mbx : j ≠ .mbx)
    (h_avail : j ≠ .avail) (h_hubs : j ≠ .hubs) (h_dsd : j ≠ .dsd) (h_usd : j ≠ .usd) (h_epqs : j ≠ .epqs)
    (h_links : j ≠ .links) (h_sched : j ≠ .sched) (h_place : j ≠ .place) (h_fab : j ≠ .fab) (h_u2d : j ≠ .u2d)
    (h_vig : j ≠ .vig) (h_tc : j ≠ .tc) (h_phy : j ≠ .phy) (h_pwr : j ≠ .pwr) (h_lane : j ≠ .lane) (h_dp : j ≠ .dp) :
    j.only (vbsSample p v s) = j.only s := by
  simp [vbsSample, *]
@[simp] theorem overCurrent_only (j : Fld) (p : Port) (s : State) (h_hubs : j ≠ .hubs) :
    j.only (overCurrent p s) = j.only s := by
  unfold overCurrent
  (try simp [*]) <;> repeat' ((first | split | intro _) <;> try simp [*])
@[simp] theorem ocShutdown_only (j : Fld) (p : Port) (s : State) (h_out : j ≠ .out) (h_mbx : j ≠ .mbx) (h_avail : j ≠ .avail)
    (h_hubs : j ≠ .hubs) (h_dsd : j ≠ .dsd) (h_usd : j ≠ .usd) (h_epqs : j ≠ .epqs) (h_links : j ≠ .links)
    (h_sched : j ≠ .sched) (h_place : j ≠ .place) (h_fab : j ≠ .fab) (h_u2d : j ≠ .u2d) (h_vig : j ≠ .vig) (h_tc : j ≠ .tc)
    (h_phy : j ≠ .phy) (h_pwr : j ≠ .pwr) (h_lane : j ≠ .lane) (h_dp : j ≠ .dp) :
    j.only (ocShutdown p s) = j.only s := by
  simp [ocShutdown, *]
@[simp] theorem psfActs_only (j : Fld) (p : Port) (s : State) (h_out : j ≠ .out) (h_freeSeq : j ≠ .freeSeq) (h_mbx : j ≠ .mbx)
    (h_flt : j ≠ .flt) (h_alm : j ≠ .alm) (h_pmu : j ≠ .pmu) (h_clk : j ≠ .clk) (h_fw : j ≠ .fw) (h_avail : j ≠ .avail)
    (h_hubs : j ≠ .hubs) (h_dsd : j ≠ .dsd) (h_usd : j ≠ .usd) (h_epqs : j ≠ .epqs) (h_links : j ≠ .links)
    (h_sched : j ≠ .sched) (h_place : j ≠ .place) (h_memb : j ≠ .memb) (h_fab : j ≠ .fab) (h_u2d : j ≠ .u2d) (h_vig : j ≠ .vig)
    (h_tc : j ≠ .tc) (h_phy : j ≠ .phy) (h_pwr : j ≠ .pwr) (h_lane : j ≠ .lane) (h_dp : j ≠ .dp) (h_lio : j ≠ .lio)
    (h_test : j ≠ .test) :
    j.only (psfActs p s) = j.only s := by
  unfold psfActs
  (try simp [*]) <;> repeat' ((first | split | intro _) <;> try simp [*])
@[simp] theorem pslTry_only (j : Fld) (p : Port) (tries : Nat) (ok : State → State) (s : State)
    (hf : ∀ t, j.only (ok t) = j.only t) (h_out : j ≠ .out) (h_freeSeq : j ≠ .freeSeq) (h_mbx : j ≠ .mbx) (h_flt : j ≠ .flt)
    (h_alm : j ≠ .alm) (h_pmu : j ≠ .pmu) (h_clk : j ≠ .clk) (h_fw : j ≠ .fw) (h_avail : j ≠ .avail) (h_hubs : j ≠ .hubs)
    (h_dsd : j ≠ .dsd) (h_usd : j ≠ .usd) (h_epqs : j ≠ .epqs) (h_links : j ≠ .links) (h_sched : j ≠ .sched)
    (h_place : j ≠ .place) (h_memb : j ≠ .memb) (h_fab : j ≠ .fab) (h_u2d : j ≠ .u2d) (h_vig : j ≠ .vig) (h_tc : j ≠ .tc)
    (h_phy : j ≠ .phy) (h_pwr : j ≠ .pwr) (h_dp : j ≠ .dp) (h_lio : j ≠ .lio) (h_test : j ≠ .test) :
    j.only (pslTry p tries ok s) = j.only s := by
  simp [pslTry, *]

/-! ### PowerCmds -/

@[simp] theorem cmdPowerBudgetSet_only (j : Fld) (bad : Option Nat) (r : Req) (s : State) (h_out : j ≠ .out)
    (h_freeSeq : j ≠ .freeSeq) (h_mbx : j ≠ .mbx) (h_flt : j ≠ .flt) (h_alm : j ≠ .alm) (h_pmu : j ≠ .pmu) (h_fw : j ≠ .fw)
    (h_avail : j ≠ .avail) (h_hubs : j ≠ .hubs) (h_dsd : j ≠ .dsd) (h_usd : j ≠ .usd) (h_epqs : j ≠ .epqs)
    (h_links : j ≠ .links) (h_sched : j ≠ .sched) (h_place : j ≠ .place) (h_fab : j ≠ .fab) (h_u2d : j ≠ .u2d)
    (h_vig : j ≠ .vig) (h_tc : j ≠ .tc) (h_phy : j ≠ .phy) (h_pwr : j ≠ .pwr) (h_lane : j ≠ .lane) (h_dp : j ≠ .dp) :
    j.only (cmdPowerBudgetSet bad r s).1 = j.only s := by
  simp [cmdPowerBudgetSet, *]
@[simp] theorem unpopulate_only (j : Fld) (p : Port) (s : State) (h_out : j ≠ .out) (h_mbx : j ≠ .mbx) (h_pmu : j ≠ .pmu)
    (h_fw : j ≠ .fw) (h_avail : j ≠ .avail) (h_hubs : j ≠ .hubs) (h_own : j ≠ .own) (h_dsd : j ≠ .dsd) (h_usd : j ≠ .usd)
    (h_epqs : j ≠ .epqs) (h_links : j ≠ .links) (h_sched : j ≠ .sched) (h_place : j ≠ .place) (h_fab : j ≠ .fab)
    (h_u2d : j ≠ .u2d) (h_vig : j ≠ .vig) (h_fo : j ≠ .fo) (h_tc : j ≠ .tc) (h_phy : j ≠ .phy) (h_pwr : j ≠ .pwr)
    (h_lane : j ≠ .lane) (h_dp : j ≠ .dp) :
    j.only (unpopulate p s) = j.only s := by
  unfold unpopulate
  (try simp [*]) <;> repeat' ((first | split | intro _) <;> try simp [*])
@[simp] theorem policyApply_only (j : Fld) (p : Port) (fields : Nat) (new : PwrPol) (s : State) (h_out : j ≠ .out)
    (h_freeSeq : j ≠ .freeSeq) (h_mbx : j ≠ .mbx) (h_flt : j ≠ .flt) (h_alm : j ≠ .alm) (h_pmu : j ≠ .pmu) (h_clk : j ≠ .clk)
    (h_fw : j ≠ .fw) (h_avail : j ≠ .avail) (h_hubs : j ≠ .hubs) (h_own : j ≠ .own) (h_dsd : j ≠ .dsd) (h_usd : j ≠ .usd)
    (h_epqs : j ≠ .epqs) (h_links : j ≠ .links) (h_sched : j ≠ .sched) (h_place : j ≠ .place) (h_memb : j ≠ .memb)
    (h_fab : j ≠ .fab) (h_u2d : j ≠ .u2d) (h_vig : j ≠ .vig) (h_fo : j ≠ .fo) (h_tc : j ≠ .tc) (h_phy : j ≠ .phy)
    (h_pwr : j ≠ .pwr) (h_lane : j ≠ .lane) (h_dp : j ≠ .dp) (h_lio : j ≠ .lio) (h_test : j ≠ .test) :
    j.only (policyApply p fields new s) = j.only s := by
  simp [policyApply, *]
@[simp] theorem cmdPortPowerPolicy_only (j : Fld) (bad : Option Nat) (r : Req) (s : State) (h_out : j ≠ .out)
    (h_freeSeq : j ≠ .freeSeq) (h_mbx : j ≠ .mbx) (h_flt : j ≠ .flt) (h_alm : j ≠ .alm) (h_pmu : j ≠ .pmu) (h_clk : j ≠ .clk)
    (h_fw : j ≠ .fw) (h_avail : j ≠ .avail) (h_hubs : j ≠ .hubs) (h_own : j ≠ .own) (h_dsd : j ≠ .dsd) (h_usd : j ≠ .usd)
    (h_epqs : j ≠ .epqs) (h_links : j ≠ .links) (h_sched : j ≠ .sched) (h_place : j ≠ .place) (h_memb : j ≠ .memb)
    (h_fab : j ≠ .fab) (h_u2d : j ≠ .u2d) (h_vig : j ≠ .vig) (h_fo : j ≠ .fo) (h_tc : j ≠ .tc) (h_phy : j ≠ .phy)
    (h_pwr : j ≠ .pwr) (h_lane : j ≠ .lane) (h_dp : j ≠ .dp) (h_lio : j ≠ .lio) (h_test : j ≠ .test) :
    j.only (cmdPortPowerPolicy bad r s).1 = j.only s := by
  unfold cmdPortPowerPolicy
  (try simp [*]) <;> repeat' ((first | split | intro _) <;> try simp [*])
@[simp] theorem cmdContractStatus_only (j : Fld) (r : Req) (s : State) :
    j.only (cmdContractStatus r s).1 = j.only s := by
  unfold cmdContractStatus
  (try simp [*]) <;> repeat' ((first | split | intro _) <;> try simp [*])
@[simp] theorem cmdRoleSwap_only (j : Fld) (r : Req) (s : State) (h_tc : j ≠ .tc) (h_phy : j ≠ .phy) (h_pwr : j ≠ .pwr) :
    j.only (cmdRoleSwap r s).1 = j.only s := by
  unfold cmdRoleSwap
  (try simp [*]) <;> repeat' ((first | split | intro _) <;> try simp [*])
@[simp] theorem roleSwapDone_only (j : Fld) (u : US) (s : State) (h_mbx : j ≠ .mbx) (h_pwr : j ≠ .pwr) :
    j.only (roleSwapDone u s) = j.only s := by
  simp [roleSwapDone, *]

/-! ### BootOps -/

@[simp] theorem coldState_only (j : Fld) (s : State) (h_out : j ≠ .out) (h_now : j ≠ .now) (h_freeSeq : j ≠ .freeSeq)
    (h_mbx : j ≠ .mbx) (h_flt : j ≠ .flt) (h_alm : j ≠ .alm) (h_pmu : j ≠ .pmu) (h_reg : j ≠ .reg) (h_clk : j ≠ .clk)
    (h_wake : j ≠ .wake) (h_sup : j ≠ .sup) (h_fw : j ≠ .fw) (h_avail : j ≠ .avail) (h_hubs : j ≠ .hubs) (h_own : j ≠ .own)
    (h_dsd : j ≠ .dsd) (h_usd : j ≠ .usd) (h_epqs : j ≠ .epqs) (h_links : j ≠ .links) (h_sched : j ≠ .sched)
    (h_place : j ≠ .place) (h_memb : j ≠ .memb) (h_fab : j ≠ .fab) (h_u2d : j ≠ .u2d) (h_u2u : j ≠ .u2u) (h_vig : j ≠ .vig)
    (h_fo : j ≠ .fo) (h_tc : j ≠ .tc) (h_phy : j ≠ .phy) (h_pwr : j ≠ .pwr) (h_lane : j ≠ .lane) (h_guard : j ≠ .guard)
    (h_dp : j ≠ .dp) (h_lio : j ≠ .lio) (h_test : j ≠ .test) (h_therm : j ≠ .therm) :
    j.only (coldState s) = j.only s := by
  cases j <;> first | contradiction | rfl
@[simp] theorem porActs_only (j : Fld) (s : State) (h_out : j ≠ .out) (h_now : j ≠ .now) (h_freeSeq : j ≠ .freeSeq)
    (h_mbx : j ≠ .mbx) (h_flt : j ≠ .flt) (h_alm : j ≠ .alm) (h_pmu : j ≠ .pmu) (h_reg : j ≠ .reg) (h_clk : j ≠ .clk)
    (h_wake : j ≠ .wake) (h_sup : j ≠ .sup) (h_fw : j ≠ .fw) (h_avail : j ≠ .avail) (h_hubs : j ≠ .hubs) (h_own : j ≠ .own)
    (h_dsd : j ≠ .dsd) (h_usd : j ≠ .usd) (h_epqs : j ≠ .epqs) (h_links : j ≠ .links) (h_sched : j ≠ .sched)
    (h_place : j ≠ .place) (h_memb : j ≠ .memb) (h_fab : j ≠ .fab) (h_u2d : j ≠ .u2d) (h_u2u : j ≠ .u2u) (h_vig : j ≠ .vig)
    (h_fo : j ≠ .fo) (h_tc : j ≠ .tc) (h_phy : j ≠ .phy) (h_pwr : j ≠ .pwr) (h_lane : j ≠ .lane) (h_guard : j ≠ .guard)
    (h_dp : j ≠ .dp) (h_lio : j ≠ .lio) (h_test : j ≠ .test) (h_therm : j ≠ .therm) :
    j.only (porActs s) = j.only s := by
  cases j <;> first | contradiction | rfl
@[simp] theorem newEpoch_only (j : Fld) (s : State) (h_alm : j ≠ .alm) (h_clk : j ≠ .clk) :
    j.only (newEpoch s) = j.only s := by
  unfold newEpoch
  (try simp [*]) <;> repeat' ((first | split | intro _) <;> try simp [*])
@[simp] theorem upDown_only (j : Fld) (s : State) (h_hubs : j ≠ .hubs) (h_usd : j ≠ .usd) (h_vig : j ≠ .vig) :
    j.only (upDown s) = j.only s := by
  simp [upDown, *]
@[simp] theorem linksStop_only (j : Fld) (s : State) (h_hubs : j ≠ .hubs) (h_dsd : j ≠ .dsd) (h_usd : j ≠ .usd)
    (h_vig : j ≠ .vig) :
    j.only (linksStop s) = j.only s := by
  unfold linksStop
  (try simp [*]) <;> repeat' ((first | split | intro _) <;> try simp [*])
@[simp] theorem holdEngines_only (j : Fld) (s : State) (h_sup : j ≠ .sup) (h_hubs : j ≠ .hubs) (h_dsd : j ≠ .dsd)
    (h_usd : j ≠ .usd) (h_place : j ≠ .place) (h_vig : j ≠ .vig) (h_lio : j ≠ .lio) (h_test : j ≠ .test) :
    j.only (holdEngines s) = j.only s := by
  simp [holdEngines, *]
@[simp] theorem bootFaults_only (j : Fld) (s : State) (h_flt : j ≠ .flt) (h_hubs : j ≠ .hubs) (h_usd : j ≠ .usd)
    (h_tc : j ≠ .tc) :
    j.only (bootFaults s) = j.only s := by
  simp [bootFaults, *]
@[simp] theorem bootFresh_only (j : Fld) (s : State) (h_fw : j ≠ .fw) (h_hubs : j ≠ .hubs) (h_own : j ≠ .own)
    (h_epqs : j ≠ .epqs) (h_links : j ≠ .links) (h_sched : j ≠ .sched) (h_place : j ≠ .place) (h_u2d : j ≠ .u2d)
    (h_u2u : j ≠ .u2u) (h_fo : j ≠ .fo) (h_tc : j ≠ .tc) (h_lane : j ≠ .lane) (h_test : j ≠ .test) :
    j.only (bootFresh s) = j.only s := by
  simp [bootFresh, *]
@[simp] theorem sleepPorts_only (j : Fld) (s : State) (h_dsd : j ≠ .dsd) (h_usd : j ≠ .usd) (h_tc : j ≠ .tc) (h_phy : j ≠ .phy)
    (h_pwr : j ≠ .pwr) (h_dp : j ≠ .dp) :
    j.only (sleepPorts s) = j.only s := by
  simp [sleepPorts, *]
@[simp] theorem ringsRestart_only (j : Fld) (s : State) (h_mbx : j ≠ .mbx) :
    j.only (ringsRestart s) = j.only s := by
  simp [ringsRestart, *]
@[simp] theorem dramStarts_only (j : Fld) (b : BootIn) (s : State) (h_out : j ≠ .out) (h_freeSeq : j ≠ .freeSeq)
    (h_mbx : j ≠ .mbx) (h_flt : j ≠ .flt) (h_alm : j ≠ .alm) (h_pmu : j ≠ .pmu) (h_clk : j ≠ .clk) (h_sup : j ≠ .sup)
    (h_fw : j ≠ .fw) (h_avail : j ≠ .avail) (h_hubs : j ≠ .hubs) (h_dsd : j ≠ .dsd) (h_usd : j ≠ .usd) (h_epqs : j ≠ .epqs)
    (h_links : j ≠ .links) (h_sched : j ≠ .sched) (h_place : j ≠ .place) (h_memb : j ≠ .memb) (h_fab : j ≠ .fab)
    (h_u2d : j ≠ .u2d) (h_vig : j ≠ .vig) (h_tc : j ≠ .tc) (h_phy : j ≠ .phy) (h_pwr : j ≠ .pwr) (h_dp : j ≠ .dp)
    (h_lio : j ≠ .lio) (h_test : j ≠ .test) :
    j.only (dramStarts b s) = j.only s := by
  unfold dramStarts
  (try simp [*]) <;> repeat' ((first | split | intro _) <;> try simp [*])
@[simp] theorem bootRest_only (j : Fld) (b : BootIn) (s : State) (h_out : j ≠ .out) (h_freeSeq : j ≠ .freeSeq)
    (h_mbx : j ≠ .mbx) (h_flt : j ≠ .flt) (h_alm : j ≠ .alm) (h_pmu : j ≠ .pmu) (h_clk : j ≠ .clk) (h_sup : j ≠ .sup)
    (h_fw : j ≠ .fw) (h_avail : j ≠ .avail) (h_hubs : j ≠ .hubs) (h_dsd : j ≠ .dsd) (h_usd : j ≠ .usd) (h_epqs : j ≠ .epqs)
    (h_links : j ≠ .links) (h_sched : j ≠ .sched) (h_place : j ≠ .place) (h_memb : j ≠ .memb) (h_fab : j ≠ .fab)
    (h_u2d : j ≠ .u2d) (h_vig : j ≠ .vig) (h_tc : j ≠ .tc) (h_phy : j ≠ .phy) (h_pwr : j ≠ .pwr) (h_dp : j ≠ .dp)
    (h_lio : j ≠ .lio) (h_test : j ≠ .test) :
    j.only (bootRest b s) = j.only s := by
  simp [bootRest, *]
@[simp] theorem bootImage_only (j : Fld) (b : BootIn) (s : State) (h_out : j ≠ .out) (h_freeSeq : j ≠ .freeSeq)
    (h_mbx : j ≠ .mbx) (h_flt : j ≠ .flt) (h_alm : j ≠ .alm) (h_pmu : j ≠ .pmu) (h_clk : j ≠ .clk) (h_sup : j ≠ .sup)
    (h_fw : j ≠ .fw) (h_avail : j ≠ .avail) (h_hubs : j ≠ .hubs) (h_dsd : j ≠ .dsd) (h_usd : j ≠ .usd) (h_epqs : j ≠ .epqs)
    (h_links : j ≠ .links) (h_sched : j ≠ .sched) (h_place : j ≠ .place) (h_memb : j ≠ .memb) (h_fab : j ≠ .fab)
    (h_u2d : j ≠ .u2d) (h_vig : j ≠ .vig) (h_tc : j ≠ .tc) (h_phy : j ≠ .phy) (h_pwr : j ≠ .pwr) (h_dp : j ≠ .dp)
    (h_lio : j ≠ .lio) (h_test : j ≠ .test) :
    j.only (bootImage b s) = j.only s := by
  simp [bootImage, *]
@[simp] theorem bootBegins_only (j : Fld) (path : BootPath) (b : BootIn) (s : State) (h_mbx : j ≠ .mbx) (h_pmu : j ≠ .pmu)
    (h_clk : j ≠ .clk) (h_wake : j ≠ .wake) (h_sup : j ≠ .sup) :
    j.only (bootBegins path b s) = j.only s := by
  simp [bootBegins, *]
@[simp] theorem bootCold_only (j : Fld) (b : BootIn) (s : State) (h_out : j ≠ .out) (h_now : j ≠ .now)
    (h_freeSeq : j ≠ .freeSeq) (h_mbx : j ≠ .mbx) (h_flt : j ≠ .flt) (h_alm : j ≠ .alm) (h_pmu : j ≠ .pmu) (h_reg : j ≠ .reg)
    (h_clk : j ≠ .clk) (h_wake : j ≠ .wake) (h_sup : j ≠ .sup) (h_fw : j ≠ .fw) (h_avail : j ≠ .avail) (h_hubs : j ≠ .hubs)
    (h_own : j ≠ .own) (h_dsd : j ≠ .dsd) (h_usd : j ≠ .usd) (h_epqs : j ≠ .epqs) (h_links : j ≠ .links) (h_sched : j ≠ .sched)
    (h_place : j ≠ .place) (h_memb : j ≠ .memb) (h_fab : j ≠ .fab) (h_u2d : j ≠ .u2d) (h_u2u : j ≠ .u2u) (h_vig : j ≠ .vig)
    (h_fo : j ≠ .fo) (h_tc : j ≠ .tc) (h_phy : j ≠ .phy) (h_pwr : j ≠ .pwr) (h_lane : j ≠ .lane) (h_guard : j ≠ .guard)
    (h_dp : j ≠ .dp) (h_lio : j ≠ .lio) (h_test : j ≠ .test) (h_therm : j ≠ .therm) :
    j.only (bootCold b s) = j.only s := by
  simp [bootCold, *]
@[simp] theorem bootWarm_only (j : Fld) (path : BootPath) (b : BootIn) (s : State) (h_out : j ≠ .out) (h_freeSeq : j ≠ .freeSeq)
    (h_mbx : j ≠ .mbx) (h_flt : j ≠ .flt) (h_alm : j ≠ .alm) (h_pmu : j ≠ .pmu) (h_reg : j ≠ .reg) (h_clk : j ≠ .clk)
    (h_wake : j ≠ .wake) (h_sup : j ≠ .sup) (h_fw : j ≠ .fw) (h_avail : j ≠ .avail) (h_hubs : j ≠ .hubs) (h_own : j ≠ .own)
    (h_dsd : j ≠ .dsd) (h_usd : j ≠ .usd) (h_epqs : j ≠ .epqs) (h_links : j ≠ .links) (h_sched : j ≠ .sched)
    (h_place : j ≠ .place) (h_memb : j ≠ .memb) (h_fab : j ≠ .fab) (h_u2d : j ≠ .u2d) (h_u2u : j ≠ .u2u) (h_vig : j ≠ .vig)
    (h_fo : j ≠ .fo) (h_tc : j ≠ .tc) (h_phy : j ≠ .phy) (h_pwr : j ≠ .pwr) (h_lane : j ≠ .lane) (h_dp : j ≠ .dp)
    (h_lio : j ≠ .lio) (h_test : j ≠ .test) :
    j.only (bootWarm path b s) = j.only s := by
  simp [bootWarm, *]
@[simp] theorem bootWake_only (j : Fld) (l : WakeLatch) (b : BootIn) (s : State) (h_out : j ≠ .out) (h_now : j ≠ .now)
    (h_freeSeq : j ≠ .freeSeq) (h_mbx : j ≠ .mbx) (h_flt : j ≠ .flt) (h_alm : j ≠ .alm) (h_pmu : j ≠ .pmu) (h_clk : j ≠ .clk)
    (h_wake : j ≠ .wake) (h_sup : j ≠ .sup) (h_fw : j ≠ .fw) (h_avail : j ≠ .avail) (h_hubs : j ≠ .hubs) (h_own : j ≠ .own)
    (h_dsd : j ≠ .dsd) (h_usd : j ≠ .usd) (h_epqs : j ≠ .epqs) (h_links : j ≠ .links) (h_sched : j ≠ .sched)
    (h_place : j ≠ .place) (h_memb : j ≠ .memb) (h_fab : j ≠ .fab) (h_u2d : j ≠ .u2d) (h_u2u : j ≠ .u2u) (h_vig : j ≠ .vig)
    (h_fo : j ≠ .fo) (h_tc : j ≠ .tc) (h_phy : j ≠ .phy) (h_pwr : j ≠ .pwr) (h_lane : j ≠ .lane) (h_dp : j ≠ .dp)
    (h_lio : j ≠ .lio) (h_test : j ≠ .test) :
    j.only (bootWake l b s) = j.only s := by
  simp [bootWake, *]
@[simp] theorem applyVigil_only (j : Fld) (s : State) (h_vig : j ≠ .vig) :
    j.only (applyVigil s) = j.only s := by
  simp [applyVigil, *]
@[simp] theorem layFrom_only (j : Fld) (kept : Bool) (top : Nat) (l : List DS) (base : Nat) (s : State) (h_vig : j ≠ .vig) :
    j.only (layFrom kept top l base s) = j.only s := by
  induction l generalizing base s with
  | nil => rfl
  | cons d t ih =>
    unfold layFrom
    extract_lets size
    split
    · rw [ih, modRing_only j _ _ _ h_vig]
    split <;> rw [ih, modRing_only j _ _ _ h_vig]
@[simp] theorem layRings_only (j : Fld) (kept : Bool) (s : State) (h_vig : j ≠ .vig) :
    j.only (layRings kept s) = j.only s :=
  layFrom_only j kept _ allDs _ s h_vig
@[simp] theorem applyOwners_only (j : Fld) (s : State) (h_hubs : j ≠ .hubs) (h_own : j ≠ .own) (h_fo : j ≠ .fo) :
    j.only (applyOwners s) = j.only s := by
  simp [applyOwners, *]
@[simp] theorem applyRoute_only (j : Fld) (i : Fin 2) (s : State) (h_out : j ≠ .out) (h_mbx : j ≠ .mbx) (h_dp : j ≠ .dp) :
    j.only (applyRoute i s) = j.only s := by
  simp [applyRoute, *]
@[simp] theorem applyPower_only (j : Fld) (s : State) (h_out : j ≠ .out) (h_freeSeq : j ≠ .freeSeq) (h_mbx : j ≠ .mbx)
    (h_flt : j ≠ .flt) (h_alm : j ≠ .alm) (h_pmu : j ≠ .pmu) (h_clk : j ≠ .clk) (h_fw : j ≠ .fw) (h_avail : j ≠ .avail)
    (h_hubs : j ≠ .hubs) (h_own : j ≠ .own) (h_dsd : j ≠ .dsd) (h_usd : j ≠ .usd) (h_epqs : j ≠ .epqs) (h_links : j ≠ .links)
    (h_sched : j ≠ .sched) (h_place : j ≠ .place) (h_memb : j ≠ .memb) (h_fab : j ≠ .fab) (h_u2d : j ≠ .u2d) (h_vig : j ≠ .vig)
    (h_fo : j ≠ .fo) (h_tc : j ≠ .tc) (h_phy : j ≠ .phy) (h_pwr : j ≠ .pwr) (h_lane : j ≠ .lane) (h_dp : j ≠ .dp)
    (h_lio : j ≠ .lio) (h_test : j ≠ .test) :
    j.only (applyPower s) = j.only s := by
  simp [applyPower, *]
@[simp] theorem applyIo_only (j : Fld) (s : State) (h_sched : j ≠ .sched) (h_lio : j ≠ .lio) :
    j.only (applyIo s) = j.only s := by
  simp [applyIo, *]
@[simp] theorem applyRegulator_only (j : Fld) (x : Option RegBoot) (s0 : State) (h_out : j ≠ .out) (h_freeSeq : j ≠ .freeSeq)
    (h_mbx : j ≠ .mbx) (h_flt : j ≠ .flt) (h_alm : j ≠ .alm) (h_pmu : j ≠ .pmu) (h_reg : j ≠ .reg) (h_clk : j ≠ .clk)
    (h_fw : j ≠ .fw) (h_avail : j ≠ .avail) (h_hubs : j ≠ .hubs) (h_dsd : j ≠ .dsd) (h_usd : j ≠ .usd) (h_epqs : j ≠ .epqs)
    (h_links : j ≠ .links) (h_sched : j ≠ .sched) (h_place : j ≠ .place) (h_memb : j ≠ .memb) (h_fab : j ≠ .fab)
    (h_u2d : j ≠ .u2d) (h_vig : j ≠ .vig) (h_tc : j ≠ .tc) (h_phy : j ≠ .phy) (h_pwr : j ≠ .pwr) (h_dp : j ≠ .dp)
    (h_lio : j ≠ .lio) (h_test : j ≠ .test) :
    j.only (applyRegulator x s0) = j.only s0 := by
  unfold applyRegulator
  (try simp [*]) <;> repeat' ((first | split | intro _) <;> try simp [*])
@[simp] theorem standbyContexts_only (j : Fld) (s0 s : State) (h_mbx : j ≠ .mbx) (h_epqs : j ≠ .epqs) (h_place : j ≠ .place)
    (h_u2d : j ≠ .u2d) (h_vig : j ≠ .vig) :
    j.only (standbyContexts s0 s) = j.only s := by
  simp [standbyContexts, *]
@[simp] theorem reopenCtx_only (j : Fld) (c : Nat) (s : State) (h_epqs : j ≠ .epqs) (h_place : j ≠ .place) :
    j.only (reopenCtx c s) = j.only s := by
  unfold reopenCtx
  (try simp [*]) <;> repeat' ((first | split | intro _) <;> try simp [*])
@[simp] theorem warmHub_only (j : Fld) (u : US) (s : State) (h_mbx : j ≠ .mbx) (h_pmu : j ≠ .pmu) (h_fw : j ≠ .fw)
    (h_avail : j ≠ .avail) (h_hubs : j ≠ .hubs) (h_dsd : j ≠ .dsd) (h_epqs : j ≠ .epqs) (h_links : j ≠ .links)
    (h_place : j ≠ .place) (h_fab : j ≠ .fab) (h_u2d : j ≠ .u2d) (h_vig : j ≠ .vig) (h_fo : j ≠ .fo) :
    j.only (warmHub u s) = j.only s := by
  simp [warmHub, *]
@[simp] theorem warmContexts_only (j : Fld) (s : State) (h_mbx : j ≠ .mbx) (h_pmu : j ≠ .pmu) (h_fw : j ≠ .fw)
    (h_avail : j ≠ .avail) (h_hubs : j ≠ .hubs) (h_dsd : j ≠ .dsd) (h_epqs : j ≠ .epqs) (h_links : j ≠ .links)
    (h_place : j ≠ .place) (h_fab : j ≠ .fab) (h_u2d : j ≠ .u2d) (h_vig : j ≠ .vig) (h_fo : j ≠ .fo) :
    j.only (warmContexts s) = j.only s := by
  simp [warmContexts, *]
@[simp] theorem bootContexts_only (j : Fld) (s0 s : State) (h_mbx : j ≠ .mbx) (h_pmu : j ≠ .pmu) (h_fw : j ≠ .fw)
    (h_avail : j ≠ .avail) (h_hubs : j ≠ .hubs) (h_dsd : j ≠ .dsd) (h_epqs : j ≠ .epqs) (h_links : j ≠ .links)
    (h_place : j ≠ .place) (h_fab : j ≠ .fab) (h_u2d : j ≠ .u2d) (h_vig : j ≠ .vig) (h_fo : j ≠ .fo) :
    j.only (bootContexts s0 s) = j.only s := by
  unfold bootContexts
  (try simp [*]) <;> repeat' ((first | split | intro _) <;> try simp [*])
@[simp] theorem bootRequest_only (j : Fld) (s : State) (h_out : j ≠ .out) (h_freeSeq : j ≠ .freeSeq) (h_mbx : j ≠ .mbx)
    (h_pmu : j ≠ .pmu) (h_fw : j ≠ .fw) (h_avail : j ≠ .avail) (h_hubs : j ≠ .hubs) (h_own : j ≠ .own) (h_dsd : j ≠ .dsd)
    (h_usd : j ≠ .usd) (h_epqs : j ≠ .epqs) (h_links : j ≠ .links) (h_sched : j ≠ .sched) (h_place : j ≠ .place)
    (h_memb : j ≠ .memb) (h_fab : j ≠ .fab) (h_u2d : j ≠ .u2d) (h_vig : j ≠ .vig) (h_fo : j ≠ .fo) (h_tc : j ≠ .tc)
    (h_phy : j ≠ .phy) (h_pwr : j ≠ .pwr) (h_lane : j ≠ .lane) (h_dp : j ≠ .dp) (h_test : j ≠ .test) :
    j.only (bootRequest s) = j.only s := by
  unfold bootRequest
  (try simp [*]) <;> repeat' ((first | split | intro _) <;> try simp [*])

/-! ### Boot -/

@[simp] theorem selfRefreshIn_only (j : Fld) (ok : Bool) (s : State) (h_sup : j ≠ .sup) :
    j.only (selfRefreshIn ok s) = j.only s := by
  simp [selfRefreshIn, *]
@[simp] theorem recovFinish_only (j : Fld) (b : BootIn) (s : State) (h_out : j ≠ .out) (h_freeSeq : j ≠ .freeSeq)
    (h_mbx : j ≠ .mbx) (h_flt : j ≠ .flt) (h_alm : j ≠ .alm) (h_pmu : j ≠ .pmu) (h_clk : j ≠ .clk) (h_sup : j ≠ .sup)
    (h_fw : j ≠ .fw) (h_avail : j ≠ .avail) (h_hubs : j ≠ .hubs) (h_dsd : j ≠ .dsd) (h_usd : j ≠ .usd) (h_epqs : j ≠ .epqs)
    (h_links : j ≠ .links) (h_sched : j ≠ .sched) (h_place : j ≠ .place) (h_memb : j ≠ .memb) (h_fab : j ≠ .fab)
    (h_u2d : j ≠ .u2d) (h_vig : j ≠ .vig) (h_tc : j ≠ .tc) (h_phy : j ≠ .phy) (h_pwr : j ≠ .pwr) (h_dp : j ≠ .dp)
    (h_lio : j ≠ .lio) (h_test : j ≠ .test) :
    j.only (recovFinish b s) = j.only s := by
  simp [recovFinish, *]
@[simp] theorem availClose_only (j : Fld) (s : State) (h_avail : j ≠ .avail) :
    j.only (availClose s) = j.only s := by
  simp [availClose, *]
@[simp] theorem bootLevels_only (j : Fld) (s : State) (h_out : j ≠ .out) (h_freeSeq : j ≠ .freeSeq) (h_mbx : j ≠ .mbx)
    (h_flt : j ≠ .flt) (h_alm : j ≠ .alm) (h_pmu : j ≠ .pmu) (h_clk : j ≠ .clk) (h_fw : j ≠ .fw) (h_avail : j ≠ .avail)
    (h_hubs : j ≠ .hubs) (h_dsd : j ≠ .dsd) (h_usd : j ≠ .usd) (h_epqs : j ≠ .epqs) (h_links : j ≠ .links)
    (h_sched : j ≠ .sched) (h_place : j ≠ .place) (h_memb : j ≠ .memb) (h_fab : j ≠ .fab) (h_u2d : j ≠ .u2d) (h_vig : j ≠ .vig)
    (h_tc : j ≠ .tc) (h_phy : j ≠ .phy) (h_pwr : j ≠ .pwr) (h_lane : j ≠ .lane) (h_dp : j ≠ .dp) (h_lio : j ≠ .lio)
    (h_test : j ≠ .test) :
    j.only (bootLevels s) = j.only s := by
  unfold bootLevels
  (try simp [*]) <;> repeat' ((first | split | intro _) <;> try simp [*])
@[simp] theorem bootWakes_only (j : Fld) (l : Option WakeLatch) (s : State) (h_mbx : j ≠ .mbx) :
    j.only (bootWakes l s) = j.only s := by
  unfold bootWakes
  (try simp [*]) <;> repeat' ((first | split | intro _) <;> try simp [*])
@[simp] theorem bootEnds_only (j : Fld) (reg : Option RegBoot) (s : State) (h_out : j ≠ .out) (h_freeSeq : j ≠ .freeSeq)
    (h_mbx : j ≠ .mbx) (h_flt : j ≠ .flt) (h_alm : j ≠ .alm) (h_pmu : j ≠ .pmu) (h_reg : j ≠ .reg) (h_clk : j ≠ .clk)
    (h_sup : j ≠ .sup) (h_fw : j ≠ .fw) (h_avail : j ≠ .avail) (h_hubs : j ≠ .hubs) (h_own : j ≠ .own) (h_dsd : j ≠ .dsd)
    (h_usd : j ≠ .usd) (h_epqs : j ≠ .epqs) (h_links : j ≠ .links) (h_sched : j ≠ .sched) (h_place : j ≠ .place)
    (h_memb : j ≠ .memb) (h_fab : j ≠ .fab) (h_u2d : j ≠ .u2d) (h_vig : j ≠ .vig) (h_fo : j ≠ .fo) (h_tc : j ≠ .tc)
    (h_phy : j ≠ .phy) (h_pwr : j ≠ .pwr) (h_lane : j ≠ .lane) (h_dp : j ≠ .dp) (h_lio : j ≠ .lio) (h_test : j ≠ .test) :
    j.only (bootEnds reg s) = j.only s := by
  unfold bootEnds
  (try simp [*]) <;> repeat' ((first | split | intro _) <;> try simp [*])

/-! ### Wakes -/

@[simp] theorem mergeWake_only (j : Fld) (cls port detail : Nat) (s : State) (h_wake : j ≠ .wake) :
    j.only (mergeWake cls port detail s) = j.only s := by
  simp [mergeWake, *]
@[simp] theorem raiseWake_only (j : Fld) (cls port detail at_ : Nat) (b : BootIn) (s : State) (h_out : j ≠ .out)
    (h_now : j ≠ .now) (h_freeSeq : j ≠ .freeSeq) (h_mbx : j ≠ .mbx) (h_flt : j ≠ .flt) (h_alm : j ≠ .alm) (h_pmu : j ≠ .pmu)
    (h_clk : j ≠ .clk) (h_wake : j ≠ .wake) (h_sup : j ≠ .sup) (h_fw : j ≠ .fw) (h_avail : j ≠ .avail) (h_hubs : j ≠ .hubs)
    (h_own : j ≠ .own) (h_dsd : j ≠ .dsd) (h_usd : j ≠ .usd) (h_epqs : j ≠ .epqs) (h_links : j ≠ .links) (h_sched : j ≠ .sched)
    (h_place : j ≠ .place) (h_memb : j ≠ .memb) (h_fab : j ≠ .fab) (h_u2d : j ≠ .u2d) (h_u2u : j ≠ .u2u) (h_vig : j ≠ .vig)
    (h_fo : j ≠ .fo) (h_tc : j ≠ .tc) (h_phy : j ≠ .phy) (h_pwr : j ≠ .pwr) (h_lane : j ≠ .lane) (h_dp : j ≠ .dp)
    (h_lio : j ≠ .lio) (h_test : j ≠ .test) :
    j.only (raiseWake cls port detail at_ b s) = j.only s := by
  unfold raiseWake
  (try simp [*]) <;> repeat' ((first | split | intro _) <;> try simp [*])
@[simp] theorem sleepStops_only (j : Fld) (m : Mode) (dmcOk : Bool) (s : State) (h_sup : j ≠ .sup) (h_hubs : j ≠ .hubs)
    (h_dsd : j ≠ .dsd) (h_usd : j ≠ .usd) (h_place : j ≠ .place) (h_vig : j ≠ .vig) (h_tc : j ≠ .tc) (h_phy : j ≠ .phy)
    (h_pwr : j ≠ .pwr) (h_dp : j ≠ .dp) (h_lio : j ≠ .lio) (h_test : j ≠ .test) :
    j.only (sleepStops m dmcOk s) = j.only s := by
  simp [sleepStops, *]
@[simp] theorem sleepCapture_only (j : Fld) (t : Machine.Trans) (phi : Nat) (s : State) (h_mbx : j ≠ .mbx) (h_flt : j ≠ .flt)
    (h_pmu : j ≠ .pmu) (h_clk : j ≠ .clk) :
    j.only (sleepCapture t phi s) = j.only s := by
  exact only_mbx_flt_pmu_clk j _ _ _ _ _ h_mbx h_flt h_pmu h_clk
@[simp] theorem fallAsleep_only (j : Fld) (t : Machine.Trans) (phi : Nat) (dmcOk : Bool) (s : State) (h_mbx : j ≠ .mbx)
    (h_flt : j ≠ .flt) (h_pmu : j ≠ .pmu) (h_clk : j ≠ .clk) (h_sup : j ≠ .sup) (h_fw : j ≠ .fw) (h_hubs : j ≠ .hubs)
    (h_dsd : j ≠ .dsd) (h_usd : j ≠ .usd) (h_place : j ≠ .place) (h_vig : j ≠ .vig) (h_tc : j ≠ .tc) (h_phy : j ≠ .phy)
    (h_pwr : j ≠ .pwr) (h_dp : j ≠ .dp) (h_lio : j ≠ .lio) (h_test : j ≠ .test) :
    j.only (fallAsleep t phi dmcOk s) = j.only s := by
  unfold fallAsleep
  simp [*]
@[simp] theorem countAlarm_only (j : Fld) (t : Machine.Trans) (s : State) (h_clk : j ≠ .clk) :
    j.only (countAlarm t s) = j.only s :=
  only_clk j _ _ h_clk
@[simp] theorem dropAlarm_only (j : Fld) (s : State) (h_clk : j ≠ .clk) :
    j.only (dropAlarm s) = j.only s :=
  only_clk j _ _ h_clk
@[simp] theorem setAlarm_only (j : Fld) (t : Machine.Trans) (s : State) (h_clk : j ≠ .clk) (h_sup : j ≠ .sup) :
    j.only (setAlarm t s) = j.only s := by
  unfold setAlarm
  split <;> simp [*]
@[simp] theorem waitKick_only (j : Fld) (i : Fin 2) (s : State) (h_now : j ≠ .now) (h_mbx : j ≠ .mbx) (h_lio : j ≠ .lio) :
    j.only (waitKick i s) = j.only s := by
  unfold waitKick
  (try simp [*]) <;> repeat' ((first | split | intro _) <;> try simp [*])
@[simp] theorem keepReading_only (j : Fld) (p : Port) (pin code : Nat) (s : State) (h_guard : j ≠ .guard) :
    j.only (keepReading p pin code s) = j.only s := by
  simp [keepReading, *]
@[simp] theorem guardFree_only (j : Fld) (p : Port) (s : State) (h_mbx : j ≠ .mbx) (h_tc : j ≠ .tc) (h_guard : j ≠ .guard) :
    j.only (guardFree p s) = j.only s := by
  simp [guardFree, *]
@[simp] theorem guardMoves_only (j : Fld) (p : Port) (wet : Option (Nat × Nat)) (dry : Bool) (s : State) (h_out : j ≠ .out)
    (h_mbx : j ≠ .mbx) (h_pmu : j ≠ .pmu) (h_wake : j ≠ .wake) (h_sup : j ≠ .sup) (h_fw : j ≠ .fw) (h_avail : j ≠ .avail)
    (h_hubs : j ≠ .hubs) (h_own : j ≠ .own) (h_dsd : j ≠ .dsd) (h_usd : j ≠ .usd) (h_epqs : j ≠ .epqs) (h_links : j ≠ .links)
    (h_sched : j ≠ .sched) (h_place : j ≠ .place) (h_fab : j ≠ .fab) (h_u2d : j ≠ .u2d) (h_vig : j ≠ .vig) (h_fo : j ≠ .fo)
    (h_tc : j ≠ .tc) (h_phy : j ≠ .phy) (h_pwr : j ≠ .pwr) (h_lane : j ≠ .lane) (h_guard : j ≠ .guard) (h_dp : j ≠ .dp) :
    j.only (guardMoves p wet dry s) = j.only s := by
  unfold guardMoves
  (try simp [*]) <;> repeat' ((first | split | intro _) <;> try simp [*])

/-! ### Faults -/

@[simp] theorem safeEnter_only (j : Fld) (b : Block) (dmcOk : Bool) (s : State) (h_out : j ≠ .out) (h_mbx : j ≠ .mbx)
    (h_flt : j ≠ .flt) (h_pmu : j ≠ .pmu) (h_sup : j ≠ .sup) (h_fw : j ≠ .fw) (h_avail : j ≠ .avail) (h_hubs : j ≠ .hubs)
    (h_dsd : j ≠ .dsd) (h_usd : j ≠ .usd) (h_epqs : j ≠ .epqs) (h_links : j ≠ .links) (h_sched : j ≠ .sched)
    (h_place : j ≠ .place) (h_fab : j ≠ .fab) (h_u2d : j ≠ .u2d) (h_vig : j ≠ .vig) (h_tc : j ≠ .tc) (h_phy : j ≠ .phy)
    (h_pwr : j ≠ .pwr) (h_dp : j ≠ .dp) (h_lio : j ≠ .lio) (h_test : j ≠ .test) :
    j.only (safeEnter b dmcOk s) = j.only s := by
  simp [safeEnter, *]
@[simp] theorem fatal_only (j : Fld) (b : Block) (src : Nat) (s : State) (h_out : j ≠ .out) (h_freeSeq : j ≠ .freeSeq)
    (h_mbx : j ≠ .mbx) (h_flt : j ≠ .flt) (h_alm : j ≠ .alm) (h_pmu : j ≠ .pmu) (h_clk : j ≠ .clk) (h_sup : j ≠ .sup)
    (h_fw : j ≠ .fw) (h_avail : j ≠ .avail) (h_hubs : j ≠ .hubs) (h_dsd : j ≠ .dsd) (h_usd : j ≠ .usd) (h_epqs : j ≠ .epqs)
    (h_links : j ≠ .links) (h_sched : j ≠ .sched) (h_place : j ≠ .place) (h_memb : j ≠ .memb) (h_fab : j ≠ .fab)
    (h_u2d : j ≠ .u2d) (h_vig : j ≠ .vig) (h_tc : j ≠ .tc) (h_phy : j ≠ .phy) (h_pwr : j ≠ .pwr) (h_dp : j ≠ .dp)
    (h_lio : j ≠ .lio) (h_test : j ≠ .test) :
    j.only (fatal b src s) = j.only s := by
  unfold fatal
  (try simp [*]) <;> repeat' ((first | split | intro _) <;> try simp [*])
@[simp] theorem detect_only (j : Fld) (b : Block) (src unit : Nat) (forced persistent : Bool) (s : State) (h_out : j ≠ .out)
    (h_freeSeq : j ≠ .freeSeq) (h_mbx : j ≠ .mbx) (h_flt : j ≠ .flt) (h_alm : j ≠ .alm) (h_pmu : j ≠ .pmu) (h_clk : j ≠ .clk)
    (h_fw : j ≠ .fw) (h_avail : j ≠ .avail) (h_hubs : j ≠ .hubs) (h_dsd : j ≠ .dsd) (h_usd : j ≠ .usd) (h_epqs : j ≠ .epqs)
    (h_links : j ≠ .links) (h_sched : j ≠ .sched) (h_place : j ≠ .place) (h_memb : j ≠ .memb) (h_fab : j ≠ .fab)
    (h_u2d : j ≠ .u2d) (h_vig : j ≠ .vig) (h_tc : j ≠ .tc) (h_phy : j ≠ .phy) (h_pwr : j ≠ .pwr) (h_dp : j ≠ .dp)
    (h_lio : j ≠ .lio) (h_test : j ≠ .test) :
    j.only (detect b src unit forced persistent s) = j.only s := by
  simp [detect, *]
@[simp] theorem levelOver_only (j : Fld) (b : Block) (src : Nat) (s : State) (h_flt : j ≠ .flt) (h_clk : j ≠ .clk)
    (h_sup : j ≠ .sup) (h_pwr : j ≠ .pwr) :
    j.only (levelOver b src s) = j.only s := by
  unfold levelOver
  ((try simp [*]) <;> (repeat' (split <;> try simp [*]))) <;> (cases j <;> first | rfl | contradiction)
@[simp] theorem setPkbErr_only (j : Fld) (word mask : Nat) (s : State) (h_memb : j ≠ .memb) :
    j.only (setPkbErr word mask s) = j.only s := by
  unfold setPkbErr
  (try simp [*]) <;> repeat' ((first | split | intro _) <;> try simp [*])
@[simp] theorem markPkb_only (j : Fld) (word : Nat) (on : Bool) (s : State) (h_memb : j ≠ .memb) :
    j.only (markPkb word on s) = j.only s := by
  unfold markPkb
  (try simp [*]) <;> repeat' ((first | split | intro _) <;> try simp [*])
@[simp] theorem scrubUnit_only (j : Fld) (n : Nat) (s : State) (h_out : j ≠ .out) (h_freeSeq : j ≠ .freeSeq) (h_mbx : j ≠ .mbx)
    (h_flt : j ≠ .flt) (h_alm : j ≠ .alm) (h_pmu : j ≠ .pmu) (h_clk : j ≠ .clk) (h_fw : j ≠ .fw) (h_avail : j ≠ .avail)
    (h_hubs : j ≠ .hubs) (h_dsd : j ≠ .dsd) (h_usd : j ≠ .usd) (h_epqs : j ≠ .epqs) (h_links : j ≠ .links)
    (h_sched : j ≠ .sched) (h_place : j ≠ .place) (h_memb : j ≠ .memb) (h_fab : j ≠ .fab) (h_u2d : j ≠ .u2d) (h_vig : j ≠ .vig)
    (h_tc : j ≠ .tc) (h_phy : j ≠ .phy) (h_pwr : j ≠ .pwr) (h_dp : j ≠ .dp) (h_lio : j ≠ .lio) (h_test : j ≠ .test) :
    j.only (scrubUnit n s) = j.only s := by
  unfold scrubUnit
  (try simp [*]) <;> repeat' ((first | split | intro _) <;> try simp [*])
@[simp] theorem quietEnds_only (j : Fld) (b : Block) (reads : List ReadBack) (s : State) (h_out : j ≠ .out)
    (h_freeSeq : j ≠ .freeSeq) (h_mbx : j ≠ .mbx) (h_flt : j ≠ .flt) (h_alm : j ≠ .alm) (h_pmu : j ≠ .pmu) (h_clk : j ≠ .clk)
    (h_fw : j ≠ .fw) (h_avail : j ≠ .avail) (h_hubs : j ≠ .hubs) (h_own : j ≠ .own) (h_dsd : j ≠ .dsd) (h_usd : j ≠ .usd)
    (h_epqs : j ≠ .epqs) (h_links : j ≠ .links) (h_sched : j ≠ .sched) (h_place : j ≠ .place) (h_memb : j ≠ .memb)
    (h_fab : j ≠ .fab) (h_u2d : j ≠ .u2d) (h_vig : j ≠ .vig) (h_fo : j ≠ .fo) (h_tc : j ≠ .tc) (h_phy : j ≠ .phy)
    (h_pwr : j ≠ .pwr) (h_lane : j ≠ .lane) (h_dp : j ≠ .dp) (h_lio : j ≠ .lio) (h_test : j ≠ .test) :
    j.only (quietEnds b reads s) = j.only s := by
  simp [quietEnds, *]
@[simp] theorem ackWrite_only (j : Fld) (b : Block) (v : Nat) (s : State) (h_flt : j ≠ .flt) :
    j.only (ackWrite b v s) = j.only s := by
  simp [ackWrite, *]
@[simp] theorem alsoForced_only (j : Fld) (b : Block) (n unit : Nat) (s : State) (h_flt : j ≠ .flt) :
    j.only (alsoForced b n unit s) = j.only s := by
  unfold alsoForced
  (try simp [*]) <;> repeat' ((first | split | intro _) <;> try simp [*])
@[simp] theorem injectFaults_only (j : Fld) (b : Block) (mask : Nat) (unit : Option Nat) (s : State) (h_out : j ≠ .out)
    (h_freeSeq : j ≠ .freeSeq) (h_mbx : j ≠ .mbx) (h_flt : j ≠ .flt) (h_alm : j ≠ .alm) (h_pmu : j ≠ .pmu) (h_clk : j ≠ .clk)
    (h_fw : j ≠ .fw) (h_avail : j ≠ .avail) (h_hubs : j ≠ .hubs) (h_dsd : j ≠ .dsd) (h_usd : j ≠ .usd) (h_epqs : j ≠ .epqs)
    (h_links : j ≠ .links) (h_sched : j ≠ .sched) (h_place : j ≠ .place) (h_memb : j ≠ .memb) (h_fab : j ≠ .fab)
    (h_u2d : j ≠ .u2d) (h_vig : j ≠ .vig) (h_tc : j ≠ .tc) (h_phy : j ≠ .phy) (h_pwr : j ≠ .pwr) (h_dp : j ≠ .dp)
    (h_lio : j ≠ .lio) (h_test : j ≠ .test) :
    j.only (injectFaults b mask unit s) = j.only s := by
  unfold injectFaults
  (try simp [*]) <;> repeat' ((first | split | intro _) <;> try simp [*])
@[simp] theorem cmdFaultRead_only (j : Fld) (r : Req) (s : State) :
    j.only (cmdFaultRead r s).1 = j.only s := by
  unfold cmdFaultRead
  (try simp [*]) <;> repeat' ((first | split | intro _) <;> try simp [*])
@[simp] theorem cmdFaultAck_only (j : Fld) (r : Req) (s : State) (h_flt : j ≠ .flt) :
    j.only (cmdFaultAck r s).1 = j.only s := by
  unfold cmdFaultAck
  (try simp [*]) <;> repeat' ((first | split | intro _) <;> try simp [*])
@[simp] theorem cmdFaultInject_only (j : Fld) (r : Req) (s : State) (h_out : j ≠ .out) (h_freeSeq : j ≠ .freeSeq)
    (h_mbx : j ≠ .mbx) (h_flt : j ≠ .flt) (h_alm : j ≠ .alm) (h_pmu : j ≠ .pmu) (h_clk : j ≠ .clk) (h_fw : j ≠ .fw)
    (h_avail : j ≠ .avail) (h_hubs : j ≠ .hubs) (h_dsd : j ≠ .dsd) (h_usd : j ≠ .usd) (h_epqs : j ≠ .epqs)
    (h_links : j ≠ .links) (h_sched : j ≠ .sched) (h_place : j ≠ .place) (h_memb : j ≠ .memb) (h_fab : j ≠ .fab)
    (h_u2d : j ≠ .u2d) (h_vig : j ≠ .vig) (h_tc : j ≠ .tc) (h_phy : j ≠ .phy) (h_pwr : j ≠ .pwr) (h_dp : j ≠ .dp)
    (h_lio : j ≠ .lio) (h_test : j ≠ .test) :
    j.only (cmdFaultInject r s).1 = j.only s := by
  unfold cmdFaultInject
  (try simp [*]) <;> repeat' ((first | split | intro _) <;> try simp [*])
@[simp] theorem fenceNow_only (j : Fld) (b : Block) (u : FUnit) (unit : Nat) (s : State) (h_out : j ≠ .out)
    (h_freeSeq : j ≠ .freeSeq) (h_mbx : j ≠ .mbx) (h_flt : j ≠ .flt) (h_pmu : j ≠ .pmu) (h_clk : j ≠ .clk) (h_fw : j ≠ .fw)
    (h_avail : j ≠ .avail) (h_hubs : j ≠ .hubs) (h_dsd : j ≠ .dsd) (h_usd : j ≠ .usd) (h_epqs : j ≠ .epqs)
    (h_links : j ≠ .links) (h_sched : j ≠ .sched) (h_place : j ≠ .place) (h_memb : j ≠ .memb) (h_fab : j ≠ .fab)
    (h_u2d : j ≠ .u2d) (h_vig : j ≠ .vig) (h_tc : j ≠ .tc) (h_phy : j ≠ .phy) (h_pwr : j ≠ .pwr) (h_dp : j ≠ .dp)
    (h_lio : j ≠ .lio) (h_test : j ≠ .test) :
    j.only (fenceNow b u unit s) = j.only s := by
  simp [fenceNow, *]
@[simp] theorem cmdFence_only (j : Fld) (r : Req) (s : State) (h_out : j ≠ .out) (h_freeSeq : j ≠ .freeSeq) (h_mbx : j ≠ .mbx)
    (h_flt : j ≠ .flt) (h_pmu : j ≠ .pmu) (h_clk : j ≠ .clk) (h_fw : j ≠ .fw) (h_avail : j ≠ .avail) (h_hubs : j ≠ .hubs)
    (h_dsd : j ≠ .dsd) (h_usd : j ≠ .usd) (h_epqs : j ≠ .epqs) (h_links : j ≠ .links) (h_sched : j ≠ .sched)
    (h_place : j ≠ .place) (h_memb : j ≠ .memb) (h_fab : j ≠ .fab) (h_u2d : j ≠ .u2d) (h_vig : j ≠ .vig) (h_tc : j ≠ .tc)
    (h_phy : j ≠ .phy) (h_pwr : j ≠ .pwr) (h_dp : j ≠ .dp) (h_lio : j ≠ .lio) (h_test : j ≠ .test) :
    j.only (cmdFence r s).1 = j.only s := by
  unfold cmdFence
  (try simp [*]) <;> repeat' ((first | split | intro _) <;> try simp [*])
@[simp] theorem unfenceNow_only (j : Fld) (b : Block) (s : State) (h_out : j ≠ .out) (h_mbx : j ≠ .mbx) (h_flt : j ≠ .flt)
    (h_pmu : j ≠ .pmu) (h_fw : j ≠ .fw) (h_avail : j ≠ .avail) (h_hubs : j ≠ .hubs) (h_own : j ≠ .own) (h_dsd : j ≠ .dsd)
    (h_usd : j ≠ .usd) (h_epqs : j ≠ .epqs) (h_links : j ≠ .links) (h_sched : j ≠ .sched) (h_place : j ≠ .place)
    (h_fab : j ≠ .fab) (h_u2d : j ≠ .u2d) (h_vig : j ≠ .vig) (h_fo : j ≠ .fo) (h_tc : j ≠ .tc) (h_phy : j ≠ .phy)
    (h_pwr : j ≠ .pwr) (h_lane : j ≠ .lane) (h_dp : j ≠ .dp) :
    j.only (unfenceNow b s) = j.only s := by
  simp [unfenceNow, *]
@[simp] theorem cmdUnfence_only (j : Fld) (r : Req) (s : State) (h_out : j ≠ .out) (h_mbx : j ≠ .mbx) (h_flt : j ≠ .flt)
    (h_pmu : j ≠ .pmu) (h_fw : j ≠ .fw) (h_avail : j ≠ .avail) (h_hubs : j ≠ .hubs) (h_own : j ≠ .own) (h_dsd : j ≠ .dsd)
    (h_usd : j ≠ .usd) (h_epqs : j ≠ .epqs) (h_links : j ≠ .links) (h_sched : j ≠ .sched) (h_place : j ≠ .place)
    (h_fab : j ≠ .fab) (h_u2d : j ≠ .u2d) (h_vig : j ≠ .vig) (h_fo : j ≠ .fo) (h_tc : j ≠ .tc) (h_phy : j ≠ .phy)
    (h_pwr : j ≠ .pwr) (h_lane : j ≠ .lane) (h_dp : j ≠ .dp) :
    j.only (cmdUnfence r s).1 = j.only s := by
  unfold cmdUnfence
  (try simp [*]) <;> repeat' ((first | split | intro _) <;> try simp [*])

/-! ### LmfPath -/

@[simp] theorem prioCharge_only (j : Fld) (u : US) (n : Nat) (s : State) (h_links : j ≠ .links) :
    j.only (prioCharge u n s) = j.only s := by
  unfold prioCharge
  (try simp [*]) <;> repeat' ((first | split | intro _) <;> try simp [*])
@[simp] theorem lmfPackets_only (j : Fld) (u : US) (data : List Byte) (s : State) (h_out : j ≠ .out) :
    j.only (lmfPackets u data s) = j.only s := by
  unfold lmfPackets
  (try simp [*]) <;> repeat' ((first | split | intro _) <;> try simp [*])

/-! ### Ports -/

@[simp] theorem hubReconnect_only (j : Fld) (u : US) (s : State) (h_now : j ≠ .now) (h_mbx : j ≠ .mbx) (h_hubs : j ≠ .hubs)
    (h_usd : j ≠ .usd) :
    j.only (hubReconnect u s) = j.only s := by
  unfold hubReconnect
  (try simp [*]) <;> repeat' ((first | split | intro _) <;> try simp [*])
@[simp] theorem presentConn_only (j : Fld) (d : DS) (ss : Bool) (s : State) (h_mbx : j ≠ .mbx) (h_hubs : j ≠ .hubs)
    (h_dsd : j ≠ .dsd) (h_vig : j ≠ .vig) :
    j.only (presentConn d ss s) = j.only s := by
  simp [presentConn, *]
@[simp] theorem recordCollision_only (j : Fld) (d : DS) (s : State) (h_hubs : j ≠ .hubs) (h_dsd : j ≠ .dsd) :
    j.only (recordCollision d s) = j.only s := by
  unfold recordCollision
  (try simp [*]) <;> repeat' ((first | split | intro _) <;> try simp [*])
@[simp] theorem hostResumeWake_only (j : Fld) (u : US) (cls : Nat) (s : State) (h_wake : j ≠ .wake) (h_hubs : j ≠ .hubs)
    (h_dsd : j ≠ .dsd) :
    j.only (hostResumeWake u cls s) = j.only s := by
  unfold hostResumeWake
  (try simp [*]) <;> repeat' ((first | split | intro _) <;> try simp [*])

/-! ### TestCmds -/

@[simp] theorem startLoop_only (j : Fld) (unit depth ms : Nat) (s : State) (h_dsd : j ≠ .dsd) (h_test : j ≠ .test) :
    j.only (startLoop unit depth ms s) = j.only s := by
  unfold startLoop
  (try simp [*]) <;> repeat' ((first | split | intro _) <;> try simp [*])
@[simp] theorem cmdLoopback_only (j : Fld) (r : Req) (s : State) (h_freeSeq : j ≠ .freeSeq) (h_mbx : j ≠ .mbx)
    (h_dsd : j ≠ .dsd) (h_test : j ≠ .test) :
    j.only (cmdLoopback r s).1 = j.only s := by
  unfold cmdLoopback
  (try simp [*]) <;> repeat' ((first | split | intro _) <;> try simp [*])
@[simp] theorem cmdPattern_only (j : Fld) (r : Req) (s : State) (h_test : j ≠ .test) :
    j.only (cmdPattern r s).1 = j.only s := by
  unfold cmdPattern
  (try simp [*]) <;> repeat' ((first | split | intro _) <;> try simp [*])
@[simp] theorem countTest_only (j : Fld) (b : Block) (n : Nat) (s : State) (h_flt : j ≠ .flt) :
    j.only (countTest b n s) = j.only s := by
  simp [countTest, *]
@[simp] theorem enterComp_only (j : Fld) (p : Port) (s : State) (h_mbx : j ≠ .mbx) (h_avail : j ≠ .avail) (h_hubs : j ≠ .hubs)
    (h_dsd : j ≠ .dsd) (h_usd : j ≠ .usd) (h_epqs : j ≠ .epqs) (h_links : j ≠ .links) (h_sched : j ≠ .sched)
    (h_place : j ≠ .place) (h_fab : j ≠ .fab) (h_u2d : j ≠ .u2d) (h_vig : j ≠ .vig) (h_test : j ≠ .test) :
    j.only (enterComp p s) = j.only s := by
  unfold enterComp
  (try simp [*]) <;> repeat' ((first | split | intro _) <;> try simp [*])

/-! ### RegSpace -/

@[simp] theorem cmdRegRead_only (j : Fld) (r : Req) (s : State) :
    j.only (cmdRegRead r s).1 = j.only s := by
  unfold cmdRegRead
  (try simp [*]) <;> repeat' ((first | split | intro _) <;> try simp [*])
@[simp] theorem lioWrite_only (j : Fld) (off v : Nat) (s : State) (h_lio : j ≠ .lio) :
    j.only (lioWrite off v s) = j.only s := by
  unfold lioWrite
  (try simp [*]) <;> repeat' ((first | split | intro _) <;> try simp [*])
@[simp] theorem fltWrite_only (j : Fld) (b : Block) (off v : Nat) (s : State) (h_out : j ≠ .out) (h_freeSeq : j ≠ .freeSeq)
    (h_mbx : j ≠ .mbx) (h_flt : j ≠ .flt) (h_alm : j ≠ .alm) (h_pmu : j ≠ .pmu) (h_clk : j ≠ .clk) (h_fw : j ≠ .fw)
    (h_avail : j ≠ .avail) (h_hubs : j ≠ .hubs) (h_dsd : j ≠ .dsd) (h_usd : j ≠ .usd) (h_epqs : j ≠ .epqs)
    (h_links : j ≠ .links) (h_sched : j ≠ .sched) (h_place : j ≠ .place) (h_memb : j ≠ .memb) (h_fab : j ≠ .fab)
    (h_u2d : j ≠ .u2d) (h_vig : j ≠ .vig) (h_tc : j ≠ .tc) (h_phy : j ≠ .phy) (h_pwr : j ≠ .pwr) (h_dp : j ≠ .dp)
    (h_lio : j ≠ .lio) (h_test : j ≠ .test) :
    j.only (fltWrite b off v s) = j.only s := by
  unfold fltWrite
  (try simp [*]) <;> repeat' ((first | split | intro _) <;> try simp [*])
@[simp] theorem cmdRegWrite_only (j : Fld) (r : Req) (s : State) (h_out : j ≠ .out) (h_freeSeq : j ≠ .freeSeq)
    (h_mbx : j ≠ .mbx) (h_flt : j ≠ .flt) (h_alm : j ≠ .alm) (h_pmu : j ≠ .pmu) (h_clk : j ≠ .clk) (h_fw : j ≠ .fw)
    (h_avail : j ≠ .avail) (h_hubs : j ≠ .hubs) (h_dsd : j ≠ .dsd) (h_usd : j ≠ .usd) (h_epqs : j ≠ .epqs)
    (h_links : j ≠ .links) (h_sched : j ≠ .sched) (h_place : j ≠ .place) (h_memb : j ≠ .memb) (h_fab : j ≠ .fab)
    (h_u2d : j ≠ .u2d) (h_vig : j ≠ .vig) (h_tc : j ≠ .tc) (h_phy : j ≠ .phy) (h_pwr : j ≠ .pwr) (h_dp : j ≠ .dp)
    (h_lio : j ≠ .lio) (h_test : j ≠ .test) :
    j.only (cmdRegWrite r s).1 = j.only s := by
  unfold cmdRegWrite
  (try simp [*]) <;> repeat' ((first | split | intro _) <;> try simp [*])
@[simp] theorem recovCtrl_only (j : Fld) (b : BootIn) (v : Nat) (s : State) (h_out : j ≠ .out) (h_freeSeq : j ≠ .freeSeq)
    (h_mbx : j ≠ .mbx) (h_flt : j ≠ .flt) (h_alm : j ≠ .alm) (h_pmu : j ≠ .pmu) (h_clk : j ≠ .clk) (h_sup : j ≠ .sup)
    (h_fw : j ≠ .fw) (h_avail : j ≠ .avail) (h_hubs : j ≠ .hubs) (h_dsd : j ≠ .dsd) (h_usd : j ≠ .usd) (h_epqs : j ≠ .epqs)
    (h_links : j ≠ .links) (h_sched : j ≠ .sched) (h_place : j ≠ .place) (h_memb : j ≠ .memb) (h_fab : j ≠ .fab)
    (h_u2d : j ≠ .u2d) (h_vig : j ≠ .vig) (h_tc : j ≠ .tc) (h_phy : j ≠ .phy) (h_pwr : j ≠ .pwr) (h_dp : j ≠ .dp)
    (h_lio : j ≠ .lio) (h_test : j ≠ .test) :
    j.only (recovCtrl b v s) = j.only s := by
  simp [recovCtrl, *]
@[simp] theorem transportWrite_only (j : Fld) (b : BootIn) (a v : Nat) (s : State) (h_out : j ≠ .out) (h_freeSeq : j ≠ .freeSeq)
    (h_mbx : j ≠ .mbx) (h_flt : j ≠ .flt) (h_alm : j ≠ .alm) (h_pmu : j ≠ .pmu) (h_clk : j ≠ .clk) (h_sup : j ≠ .sup)
    (h_fw : j ≠ .fw) (h_avail : j ≠ .avail) (h_hubs : j ≠ .hubs) (h_dsd : j ≠ .dsd) (h_usd : j ≠ .usd) (h_epqs : j ≠ .epqs)
    (h_links : j ≠ .links) (h_sched : j ≠ .sched) (h_place : j ≠ .place) (h_memb : j ≠ .memb) (h_fab : j ≠ .fab)
    (h_u2d : j ≠ .u2d) (h_vig : j ≠ .vig) (h_tc : j ≠ .tc) (h_phy : j ≠ .phy) (h_pwr : j ≠ .pwr) (h_dp : j ≠ .dp)
    (h_lio : j ≠ .lio) (h_test : j ≠ .test) :
    j.only (transportWrite b a v s) = j.only s := by
  simp [transportWrite, *]
@[simp] theorem frameError_only (j : Fld) (s : State) (h_mbx : j ≠ .mbx) :
    j.only (frameError s) = j.only s := by
  simp [frameError, *]
@[simp] theorem spitWord_only (j : Fld) (b : BootIn) (a v : Nat) (s : State) (h_out : j ≠ .out) (h_freeSeq : j ≠ .freeSeq)
    (h_mbx : j ≠ .mbx) (h_flt : j ≠ .flt) (h_alm : j ≠ .alm) (h_pmu : j ≠ .pmu) (h_clk : j ≠ .clk) (h_sup : j ≠ .sup)
    (h_fw : j ≠ .fw) (h_avail : j ≠ .avail) (h_hubs : j ≠ .hubs) (h_dsd : j ≠ .dsd) (h_usd : j ≠ .usd) (h_epqs : j ≠ .epqs)
    (h_links : j ≠ .links) (h_sched : j ≠ .sched) (h_place : j ≠ .place) (h_memb : j ≠ .memb) (h_fab : j ≠ .fab)
    (h_u2d : j ≠ .u2d) (h_vig : j ≠ .vig) (h_tc : j ≠ .tc) (h_phy : j ≠ .phy) (h_pwr : j ≠ .pwr) (h_dp : j ≠ .dp)
    (h_lio : j ≠ .lio) (h_test : j ≠ .test) :
    j.only (spitWord b a v s) = j.only s := by
  unfold spitWord
  (try simp [*]) <;> repeat' ((first | split | intro _) <;> try simp [*])
@[simp] theorem spitByteWrite_only (j : Fld) (a : Nat) (x : Byte) (s : State) (h_mbx : j ≠ .mbx) :
    j.only (spitByteWrite a x s) = j.only s := by
  simp [spitByteWrite, *]
@[simp] theorem spitWrite_only (j : Fld) (b : BootIn) (x1 x2 : Nat) (x3 : List Byte) (x4 : State) (h_out : j ≠ .out)
    (h_freeSeq : j ≠ .freeSeq) (h_mbx : j ≠ .mbx) (h_flt : j ≠ .flt) (h_alm : j ≠ .alm) (h_pmu : j ≠ .pmu) (h_clk : j ≠ .clk)
    (h_sup : j ≠ .sup) (h_fw : j ≠ .fw) (h_avail : j ≠ .avail) (h_hubs : j ≠ .hubs) (h_dsd : j ≠ .dsd) (h_usd : j ≠ .usd)
    (h_epqs : j ≠ .epqs) (h_links : j ≠ .links) (h_sched : j ≠ .sched) (h_place : j ≠ .place) (h_memb : j ≠ .memb)
    (h_fab : j ≠ .fab) (h_u2d : j ≠ .u2d) (h_vig : j ≠ .vig) (h_tc : j ≠ .tc) (h_phy : j ≠ .phy) (h_pwr : j ≠ .pwr)
    (h_dp : j ≠ .dp) (h_lio : j ≠ .lio) (h_test : j ≠ .test) :
    j.only (spitWrite b x1 x2 x3 x4) = j.only x4 := by
  induction x1 generalizing x2 x3 x4 with
  | zero => rfl
  | succ n ih =>
    cases x3 with
    | nil => rfl
    | cons b t =>
      unfold spitWrite
      (try simp [*]) <;> repeat' ((first | split | intro _) <;> try simp [*])

/-! ### Resets -/

@[simp] theorem startReset_only (j : Fld) (d : DS) (by_ : ResumeKind) (s : State) (h_mbx : j ≠ .mbx) (h_dsd : j ≠ .dsd)
    (h_epqs : j ≠ .epqs) (h_links : j ≠ .links) (h_sched : j ≠ .sched) (h_place : j ≠ .place) (h_fab : j ≠ .fab)
    (h_u2d : j ≠ .u2d) (h_vig : j ≠ .vig) :
    j.only (startReset d by_ s) = j.only s := by
  simp [startReset, *]
@[simp] theorem startSsReset_only (j : Fld) (d : DS) (warm : Bool) (s : State) (h_mbx : j ≠ .mbx) (h_dsd : j ≠ .dsd)
    (h_epqs : j ≠ .epqs) (h_links : j ≠ .links) (h_sched : j ≠ .sched) (h_place : j ≠ .place) (h_fab : j ≠ .fab)
    (h_u2d : j ≠ .u2d) (h_vig : j ≠ .vig) :
    j.only (startSsReset d warm s) = j.only s := by
  simp [startSsReset, *]
@[simp] theorem ssReset_only (j : Fld) (u : US) (v : Fin 15) (warm : Bool) (s : State) (h_mbx : j ≠ .mbx) (h_avail : j ≠ .avail)
    (h_hubs : j ≠ .hubs) (h_dsd : j ≠ .dsd) (h_epqs : j ≠ .epqs) (h_links : j ≠ .links) (h_sched : j ≠ .sched)
    (h_place : j ≠ .place) (h_fab : j ≠ .fab) (h_u2d : j ≠ .u2d) (h_u2u : j ≠ .u2u) (h_vig : j ≠ .vig) (h_fo : j ≠ .fo) :
    j.only (ssReset u v warm s) = j.only s := by
  unfold ssReset
  (try simp [*]) <;> repeat' ((first | split | intro _) <;> try simp [*])
@[simp] theorem powerOffAll_only (j : Fld) (u : US) (s : State) (h_out : j ≠ .out) (h_mbx : j ≠ .mbx) (h_avail : j ≠ .avail)
    (h_hubs : j ≠ .hubs) (h_dsd : j ≠ .dsd) (h_usd : j ≠ .usd) (h_epqs : j ≠ .epqs) (h_links : j ≠ .links)
    (h_sched : j ≠ .sched) (h_place : j ≠ .place) (h_fab : j ≠ .fab) (h_u2d : j ≠ .u2d) (h_vig : j ≠ .vig) (h_tc : j ≠ .tc)
    (h_phy : j ≠ .phy) (h_pwr : j ≠ .pwr) (h_lane : j ≠ .lane) (h_dp : j ≠ .dp) :
    j.only (powerOffAll u s) = j.only s := by
  unfold powerOffAll
  refine (foldl_only j _ (fun s x => ?_) _ _).trans ?_ <;> (try simp [*]) <;> repeat' ((first | split | intro _) <;> try simp [*])
@[simp] theorem upstreamReset_only (j : Fld) (u : US) (s : State) (h_out : j ≠ .out) (h_mbx : j ≠ .mbx) (h_pmu : j ≠ .pmu)
    (h_fw : j ≠ .fw) (h_avail : j ≠ .avail) (h_hubs : j ≠ .hubs) (h_dsd : j ≠ .dsd) (h_usd : j ≠ .usd) (h_epqs : j ≠ .epqs)
    (h_links : j ≠ .links) (h_sched : j ≠ .sched) (h_place : j ≠ .place) (h_fab : j ≠ .fab) (h_u2d : j ≠ .u2d)
    (h_u2u : j ≠ .u2u) (h_vig : j ≠ .vig) (h_fo : j ≠ .fo) (h_tc : j ≠ .tc) (h_phy : j ≠ .phy) (h_pwr : j ≠ .pwr)
    (h_lane : j ≠ .lane) (h_dp : j ≠ .dp) :
    j.only (upstreamReset u s) = j.only s := by
  simp [upstreamReset, *]

/-! ### SchedCmds -/

@[simp] theorem cmdSchedSet_only (j : Fld) (r : Req) (s : State) (h_now : j ≠ .now) (h_mbx : j ≠ .mbx) (h_epqs : j ≠ .epqs)
    (h_links : j ≠ .links) (h_sched : j ≠ .sched) (h_fab : j ≠ .fab) :
    j.only (cmdSchedSet r s).1 = j.only s := by
  unfold cmdSchedSet
  (try simp [*]) <;> repeat' ((first | split | intro _) <;> try simp [*])
@[simp] theorem cmdShaperSet_only (j : Fld) (r : Req) (s : State) (h_now : j ≠ .now) (h_mbx : j ≠ .mbx) (h_epqs : j ≠ .epqs)
    (h_links : j ≠ .links) (h_sched : j ≠ .sched) :
    j.only (cmdShaperSet r s).1 = j.only s := by
  unfold cmdShaperSet
  (try simp [*]) <;> repeat' ((first | split | intro _) <;> try simp [*])
@[simp] theorem cmdPolicerSet_only (j : Fld) (r : Req) (s : State) (h_now : j ≠ .now) (h_mbx : j ≠ .mbx) (h_epqs : j ≠ .epqs)
    (h_links : j ≠ .links) (h_sched : j ≠ .sched) :
    j.only (cmdPolicerSet r s).1 = j.only s := by
  unfold cmdPolicerSet
  (try simp [*]) <;> repeat' ((first | split | intro _) <;> try simp [*])
@[simp] theorem cmdObserveRead_only (j : Fld) (r : Req) (s : State) (h_epqs : j ≠ .epqs) :
    j.only (cmdObserveRead r s).1 = j.only s := by
  unfold cmdObserveRead
  (try simp [*]) <;> repeat' ((first | split | intro _) <;> try simp [*])
@[simp] theorem cmdPlaceStatus_only (j : Fld) (r : Req) (s : State) :
    j.only (cmdPlaceStatus r s).1 = j.only s := by
  simp [cmdPlaceStatus, *]
@[simp] theorem cmdPlacePin_only (j : Fld) (r : Req) (s : State) (h_mbx : j ≠ .mbx) (h_place : j ≠ .place) :
    j.only (cmdPlacePin r s).1 = j.only s := by
  unfold cmdPlacePin
  (try simp [*]) <;> repeat' ((first | split | intro _) <;> try simp [*])
@[simp] theorem cmdPlaceRebuild_only (j : Fld) (r : Req) (s : State) (h_mbx : j ≠ .mbx) (h_place : j ≠ .place) :
    j.only (cmdPlaceRebuild r s).1 = j.only s := by
  unfold cmdPlaceRebuild
  (try simp [*]) <;> repeat' ((first | split | intro _) <;> try simp [*])

/-! ### Take -/

@[simp] theorem refuseTake_only (j : Fld) (k : Fin 8) (via : Transport) (op status : Nat) (flags : Byte) (tag : Word)
    (payload : List Byte) (s : State) (h_mbx : j ≠ .mbx) :
    j.only (refuseTake k via op status flags tag payload s) = j.only s := by
  simp [refuseTake, *]

end Sys2Proof.Machine
end

