-- ==== Sys2Proof/Laws/Kept.lean ====
section
/-! SUPPORT. What every command leaves: it answers a next state that agrees with the state before in every part but those listed. -/

set_option Elab.async false

namespace Sys2Proof.Machine

/-- An answer is a next state that keeps the part j. -/
def KeptIn (j : Fld) (s : State) : Res → Prop
  | .next t => j.only t = j.only s
  | _ => False

/-- An answer is a next state that keeps every part but those listed. -/
def Kept (l : List Fld) (s : State) (r : Res) : Prop := ∀ j, j ∉ l → KeptIn j s r

@[simp] theorem keptIn_next (j : Fld) (s t : State) : KeptIn j s (.next t) ↔ j.only t = j.only s := Iff.rfl

@[simp] theorem keptIn_ite (j : Fld) (s : State) (c : Prop) [Decidable c] (a b : Res) :
    KeptIn j s (if c then a else b) ↔ if c then KeptIn j s a else KeptIn j s b := by
  split <;> rfl

/-- Where the answer is known, it keeps those parts. -/
theorem Kept.frame {l : List Fld} {s t : State} {r : Res} (h : Kept l s r) (e : r = .next t) : Frame l s t := by
  subst e; exact h

/-- More parts may be listed. -/
theorem Kept.mono {l m : List Fld} {s : State} {r : Res} (h : Kept l s r) (g : ∀ j ∈ l, j ∈ m) : Kept m s r :=
  fun j hj => h j (fun x => hj (g j x))

/-- Such an answer is a next state. -/
theorem Kept.next {l : List Fld} {s : State} {r : Res} (h : Kept l s r) (hl : ∃ j, j ∉ l) : ∃ t, r = .next t ∧ Frame l s t := by
  obtain ⟨j, hj⟩ := hl
  have k := h j hj
  cases r with
  | next t => exact ⟨t, rfl, h⟩
  | fault _ => exact k.elim
  | refused _ => exact k.elim

theorem execPorNAssert_kept (cycles : Nat) (s : State) :
    Kept [.out, .now, .freeSeq, .mbx, .flt, .alm, .pmu, .reg, .clk, .wake, .sup, .fw, .avail, .hubs, .own, .dsd, .usd, .epqs,
      .links, .sched, .place, .memb, .fab, .u2d, .u2u, .vig, .fo, .tc, .phy, .pwr, .lane, .guard, .dp, .lio, .test,
      .therm] s (execPorNAssert cycles s) := by
  intro j hj
  simp only [List.mem_cons, List.not_mem_nil, or_false, not_or] at hj
  obtain ⟨h_out, h_now, h_freeSeq, h_mbx, h_flt, h_alm, h_pmu, h_reg, h_clk, h_wake, h_sup, h_fw, h_avail, h_hubs,
      h_own, h_dsd, h_usd, h_epqs, h_links, h_sched, h_place, h_memb, h_fab, h_u2d, h_u2u, h_vig, h_fo, h_tc, h_phy,
      h_pwr, h_lane, h_guard, h_dp, h_lio, h_test, h_therm⟩ := hj
  unfold execPorNAssert
  (try simp [*]) <;> repeat' ((first | split | intro _) <;> try simp [*])
theorem execPorNRelease_kept (b : BootIn) (s : State) :
    Kept [.out, .now, .freeSeq, .mbx, .flt, .alm, .pmu, .reg, .clk, .wake, .sup, .fw, .avail, .hubs, .own, .dsd, .usd, .epqs,
      .links, .sched, .place, .memb, .fab, .u2d, .u2u, .vig, .fo, .tc, .phy, .pwr, .lane, .guard, .dp, .lio, .test,
      .therm] s (execPorNRelease b s) := by
  intro j hj
  simp only [List.mem_cons, List.not_mem_nil, or_false, not_or] at hj
  obtain ⟨h_out, h_now, h_freeSeq, h_mbx, h_flt, h_alm, h_pmu, h_reg, h_clk, h_wake, h_sup, h_fw, h_avail, h_hubs,
      h_own, h_dsd, h_usd, h_epqs, h_links, h_sched, h_place, h_memb, h_fab, h_u2d, h_u2u, h_vig, h_fo, h_tc, h_phy,
      h_pwr, h_lane, h_guard, h_dp, h_lio, h_test, h_therm⟩ := hj
  unfold execPorNRelease
  dsimp only
  rw [keptIn_next]
  have e := fresh_only j s h_out
  split
  · rw [bootCold_only] <;> assumption
  · exact e
theorem execVddAonBrownout_kept (ns : Nat) (s : State) :
    Kept [.out, .now, .freeSeq, .mbx, .flt, .alm, .pmu, .reg, .clk, .wake, .sup, .fw, .avail, .hubs, .own, .dsd, .usd, .epqs,
      .links, .sched, .place, .memb, .fab, .u2d, .u2u, .vig, .fo, .tc, .phy, .pwr, .lane, .guard, .dp, .lio, .test,
      .therm] s (execVddAonBrownout ns s) := by
  intro j hj
  simp only [List.mem_cons, List.not_mem_nil, or_false, not_or] at hj
  obtain ⟨h_out, h_now, h_freeSeq, h_mbx, h_flt, h_alm, h_pmu, h_reg, h_clk, h_wake, h_sup, h_fw, h_avail, h_hubs,
      h_own, h_dsd, h_usd, h_epqs, h_links, h_sched, h_place, h_memb, h_fab, h_u2d, h_u2u, h_vig, h_fo, h_tc, h_phy,
      h_pwr, h_lane, h_guard, h_dp, h_lio, h_test, h_therm⟩ := hj
  unfold execVddAonBrownout
  (try simp [*]) <;> repeat' ((first | split | intro _) <;> try simp [*])
theorem execLaneSupplyLoss_kept (s : State) :
    Kept [.out, .now, .freeSeq, .mbx, .flt, .alm, .pmu, .reg, .clk, .wake, .sup, .fw, .avail, .hubs, .own, .dsd, .usd, .epqs,
      .links, .sched, .place, .memb, .fab, .u2d, .u2u, .vig, .fo, .tc, .phy, .pwr, .lane, .guard, .dp, .lio, .test,
      .therm] s (execLaneSupplyLoss s) := by
  intro j hj
  simp only [List.mem_cons, List.not_mem_nil, or_false, not_or] at hj
  obtain ⟨h_out, h_now, h_freeSeq, h_mbx, h_flt, h_alm, h_pmu, h_reg, h_clk, h_wake, h_sup, h_fw, h_avail, h_hubs,
      h_own, h_dsd, h_usd, h_epqs, h_links, h_sched, h_place, h_memb, h_fab, h_u2d, h_u2u, h_vig, h_fo, h_tc, h_phy,
      h_pwr, h_lane, h_guard, h_dp, h_lio, h_test, h_therm⟩ := hj
  unfold execLaneSupplyLoss
  (try simp [*]) <;> repeat' ((first | split | intro _) <;> try simp [*])
theorem execSysResetNFall_kept (cycles : Nat) (dmcOk : Bool) (s : State) :
    Kept [.out, .pmu, .sup, .hubs, .dsd, .usd, .place, .vig, .lio, .test] s (execSysResetNFall cycles dmcOk s) := by
  intro j hj
  simp only [List.mem_cons, List.not_mem_nil, or_false, not_or] at hj
  obtain ⟨h_out, h_pmu, h_sup, h_hubs, h_dsd, h_usd, h_place, h_vig, h_lio, h_test⟩ := hj
  simp [execSysResetNFall, *]
theorem execSysResetNRise_kept (b : BootIn) (s : State) :
    Kept [.out, .freeSeq, .mbx, .flt, .alm, .pmu, .reg, .clk, .wake, .sup, .fw, .avail, .hubs, .own, .dsd, .usd, .epqs, .links,
      .sched, .place, .memb, .fab, .u2d, .u2u, .vig, .fo, .tc, .phy, .pwr, .lane, .dp, .lio, .test] s (execSysResetNRise b s) := by
  intro j hj
  simp only [List.mem_cons, List.not_mem_nil, or_false, not_or] at hj
  obtain ⟨h_out, h_freeSeq, h_mbx, h_flt, h_alm, h_pmu, h_reg, h_clk, h_wake, h_sup, h_fw, h_avail, h_hubs, h_own,
      h_dsd, h_usd, h_epqs, h_links, h_sched, h_place, h_memb, h_fab, h_u2d, h_u2u, h_vig, h_fo, h_tc, h_phy, h_pwr,
      h_lane, h_dp, h_lio, h_test⟩ := hj
  unfold execSysResetNRise
  dsimp only
  (repeat' split) <;> (try rw [keptIn_next]) <;> (repeat' split) <;> first
    | (simp [*]; done)
    | (cases j <;> first | rfl | contradiction)
theorem execBootComplete_kept (reg : Option RegBoot) (s : State) :
    Kept [.out, .freeSeq, .mbx, .flt, .alm, .pmu, .reg, .clk, .sup, .fw, .avail, .hubs, .own, .dsd, .usd, .epqs, .links, .sched,
      .place, .memb, .fab, .u2d, .vig, .fo, .tc, .phy, .pwr, .lane, .dp, .lio, .test] s (execBootComplete reg s) := by
  intro j hj
  simp only [List.mem_cons, List.not_mem_nil, or_false, not_or] at hj
  obtain ⟨h_out, h_freeSeq, h_mbx, h_flt, h_alm, h_pmu, h_reg, h_clk, h_sup, h_fw, h_avail, h_hubs, h_own, h_dsd,
      h_usd, h_epqs, h_links, h_sched, h_place, h_memb, h_fab, h_u2d, h_vig, h_fo, h_tc, h_phy, h_pwr, h_lane, h_dp,
      h_lio, h_test⟩ := hj
  simp [execBootComplete, *]
theorem execUpstreamConnect_kept (u : US) (s : State) :
    Kept [.out, .hubs, .usd] s (execUpstreamConnect u s) := by
  intro j hj
  simp only [List.mem_cons, List.not_mem_nil, or_false, not_or] at hj
  obtain ⟨h_out, h_hubs, h_usd⟩ := hj
  simp [execUpstreamConnect, *]
theorem execRecovLoad_kept (s : State) :
    Kept [.out, .fw] s (execRecovLoad s) := by
  intro j hj
  simp only [List.mem_cons, List.not_mem_nil, or_false, not_or] at hj
  obtain ⟨h_out, h_fw⟩ := hj
  simp [execRecovLoad, *]
theorem execRecovFinish_kept (b : BootIn) (s : State) :
    Kept [.out, .freeSeq, .mbx, .flt, .alm, .pmu, .clk, .sup, .fw, .avail, .hubs, .dsd, .usd, .epqs, .links, .sched, .place,
      .memb, .fab, .u2d, .vig, .tc, .phy, .pwr, .dp, .lio, .test] s (execRecovFinish b s) := by
  intro j hj
  simp only [List.mem_cons, List.not_mem_nil, or_false, not_or] at hj
  obtain ⟨h_out, h_freeSeq, h_mbx, h_flt, h_alm, h_pmu, h_clk, h_sup, h_fw, h_avail, h_hubs, h_dsd, h_usd, h_epqs,
      h_links, h_sched, h_place, h_memb, h_fab, h_u2d, h_vig, h_tc, h_phy, h_pwr, h_dp, h_lio, h_test⟩ := hj
  simp [execRecovFinish, *]
theorem execRecovAbort_kept (s : State) :
    Kept [.out, .fw] s (execRecovAbort s) := by
  intro j hj
  simp only [List.mem_cons, List.not_mem_nil, or_false, not_or] at hj
  obtain ⟨h_out, h_fw⟩ := hj
  simp [execRecovAbort, *]
theorem execTrialConfirm_kept (s : State) :
    Kept [.out, .now, .alm, .fw] s (execTrialConfirm s) := by
  intro j hj
  simp only [List.mem_cons, List.not_mem_nil, or_false, not_or] at hj
  obtain ⟨h_out, h_now, h_alm, h_fw⟩ := hj
  unfold execTrialConfirm
  (try simp [*]) <;> repeat' ((first | split | intro _) <;> try simp [*])
theorem execPlannedWarmRestart_kept (dmcOk : Bool) (b : BootIn) (s : State) :
    Kept [.out, .now, .freeSeq, .mbx, .flt, .alm, .pmu, .reg, .clk, .wake, .sup, .fw, .avail, .hubs, .own, .dsd, .usd, .epqs,
      .links, .sched, .place, .memb, .fab, .u2d, .u2u, .vig, .fo, .tc, .phy, .pwr, .lane, .dp, .lio, .test] s (execPlannedWarmRestart dmcOk b s) := by
  intro j hj
  simp only [List.mem_cons, List.not_mem_nil, or_false, not_or] at hj
  obtain ⟨h_out, h_now, h_freeSeq, h_mbx, h_flt, h_alm, h_pmu, h_reg, h_clk, h_wake, h_sup, h_fw, h_avail, h_hubs,
      h_own, h_dsd, h_usd, h_epqs, h_links, h_sched, h_place, h_memb, h_fab, h_u2d, h_u2u, h_vig, h_fo, h_tc, h_phy,
      h_pwr, h_lane, h_dp, h_lio, h_test⟩ := hj
  unfold execPlannedWarmRestart
  (try simp [*]) <;> repeat' ((first | split | intro _) <;> try simp [*])
theorem execVddio1v8Loss_kept (s : State) :
    Kept [.out, .freeSeq, .mbx, .flt, .alm, .pmu, .clk, .sup, .fw, .avail, .hubs, .dsd, .usd, .epqs, .links, .sched, .place,
      .memb, .fab, .u2d, .vig, .tc, .phy, .pwr, .dp, .lio, .test] s (execVddio1v8Loss s) := by
  intro j hj
  simp only [List.mem_cons, List.not_mem_nil, or_false, not_or] at hj
  obtain ⟨h_out, h_freeSeq, h_mbx, h_flt, h_alm, h_pmu, h_clk, h_sup, h_fw, h_avail, h_hubs, h_dsd, h_usd, h_epqs,
      h_links, h_sched, h_place, h_memb, h_fab, h_u2d, h_vig, h_tc, h_phy, h_pwr, h_dp, h_lio, h_test⟩ := hj
  unfold execVddio1v8Loss
  ((try simp [*]) <;> repeat' ((first | split | intro _) <;> try simp [*])) <;> (cases j <;> first | rfl | contradiction)
theorem execCorePgLow_kept (ns : Nat) (s : State) :
    Kept [.out, .freeSeq, .mbx, .flt, .alm, .pmu, .clk, .sup, .fw, .avail, .hubs, .dsd, .usd, .epqs, .links, .sched, .place,
      .memb, .fab, .u2d, .vig, .tc, .phy, .pwr, .dp, .lio, .test] s (execCorePgLow ns s) := by
  intro j hj
  simp only [List.mem_cons, List.not_mem_nil, or_false, not_or] at hj
  obtain ⟨h_out, h_freeSeq, h_mbx, h_flt, h_alm, h_pmu, h_clk, h_sup, h_fw, h_avail, h_hubs, h_dsd, h_usd, h_epqs,
      h_links, h_sched, h_place, h_memb, h_fab, h_u2d, h_vig, h_tc, h_phy, h_pwr, h_dp, h_lio, h_test⟩ := hj
  unfold execCorePgLow
  ((try simp [*]) <;> repeat' ((first | split | intro _) <;> try simp [*])) <;> (cases j <;> first | rfl | contradiction)
theorem execRef25Loss_kept (ns : Nat) (s : State) :
    Kept [.out, .freeSeq, .mbx, .flt, .alm, .pmu, .clk, .fw, .avail, .hubs, .dsd, .usd, .epqs, .links, .sched, .place, .memb,
      .fab, .u2d, .vig, .tc, .phy, .pwr, .dp, .lio, .test] s (execRef25Loss ns s) := by
  intro j hj
  simp only [List.mem_cons, List.not_mem_nil, or_false, not_or] at hj
  obtain ⟨h_out, h_freeSeq, h_mbx, h_flt, h_alm, h_pmu, h_clk, h_fw, h_avail, h_hubs, h_dsd, h_usd, h_epqs, h_links,
      h_sched, h_place, h_memb, h_fab, h_u2d, h_vig, h_tc, h_phy, h_pwr, h_dp, h_lio, h_test⟩ := hj
  unfold execRef25Loss
  ((try simp [*]) <;> repeat' ((first | split | intro _) <;> try simp [*])) <;> (cases j <;> first | rfl | contradiction)
theorem execPllUnlock_kept (w : Pll) (s : State) :
    Kept [.out, .freeSeq, .mbx, .flt, .alm, .pmu, .clk, .fw, .avail, .hubs, .dsd, .usd, .epqs, .links, .sched, .place, .memb,
      .fab, .u2d, .vig, .tc, .phy, .pwr, .dp, .lio, .test] s (execPllUnlock w s) := by
  intro j hj
  simp only [List.mem_cons, List.not_mem_nil, or_false, not_or] at hj
  obtain ⟨h_out, h_freeSeq, h_mbx, h_flt, h_alm, h_pmu, h_clk, h_fw, h_avail, h_hubs, h_dsd, h_usd, h_epqs, h_links,
      h_sched, h_place, h_memb, h_fab, h_u2d, h_vig, h_tc, h_phy, h_pwr, h_dp, h_lio, h_test⟩ := hj
  unfold execPllUnlock
  ((try simp [*]) <;> repeat' ((first | split | intro _) <;> try simp [*])) <;> (cases j <;> first | rfl | contradiction)
theorem execXtal32kFail_kept (ns : Nat) (s : State) :
    Kept [.out, .freeSeq, .mbx, .flt, .alm, .pmu, .clk, .fw, .avail, .hubs, .dsd, .usd, .epqs, .links, .sched, .place, .memb,
      .fab, .u2d, .vig, .tc, .phy, .pwr, .dp, .lio, .test] s (execXtal32kFail ns s) := by
  intro j hj
  simp only [List.mem_cons, List.not_mem_nil, or_false, not_or] at hj
  obtain ⟨h_out, h_freeSeq, h_mbx, h_flt, h_alm, h_pmu, h_clk, h_fw, h_avail, h_hubs, h_dsd, h_usd, h_epqs, h_links,
      h_sched, h_place, h_memb, h_fab, h_u2d, h_vig, h_tc, h_phy, h_pwr, h_dp, h_lio, h_test⟩ := hj
  unfold execXtal32kFail
  ((try simp [*]) <;> repeat' ((first | split | intro _) <;> try simp [*])) <;> (cases j <;> first | rfl | contradiction)
theorem execXtal32kSwitchToCrystal_kept (stableNs : Nat) (s : State) :
    Kept [.out, .clk] s (execXtal32kSwitchToCrystal stableNs s) := by
  intro j hj
  simp only [List.mem_cons, List.not_mem_nil, or_false, not_or] at hj
  obtain ⟨h_out, h_clk⟩ := hj
  unfold execXtal32kSwitchToCrystal
  ((try simp [*]) <;> repeat' ((first | split | intro _) <;> try simp [*])) <;> (cases j <;> first | rfl | contradiction)
theorem execAonRcCalibration_kept (ratioE6 : Nat) (s : State) :
    Kept [.out, .clk] s (execAonRcCalibration ratioE6 s) := by
  intro j hj
  simp only [List.mem_cons, List.not_mem_nil, or_false, not_or] at hj
  obtain ⟨h_out, h_clk⟩ := hj
  unfold execAonRcCalibration
  ((try simp [*]) <;> repeat' ((first | split | intro _) <;> try simp [*])) <;> (cases j <;> first | rfl | contradiction)
theorem execAonLow_kept (ns : Nat) (s : State) :
    Kept [.out, .freeSeq, .mbx, .flt, .alm, .pmu, .clk, .fw, .avail, .hubs, .dsd, .usd, .epqs, .links, .sched, .place, .memb,
      .fab, .u2d, .vig, .tc, .phy, .pwr, .dp, .lio, .test] s (execAonLow ns s) := by
  intro j hj
  simp only [List.mem_cons, List.not_mem_nil, or_false, not_or] at hj
  obtain ⟨h_out, h_freeSeq, h_mbx, h_flt, h_alm, h_pmu, h_clk, h_fw, h_avail, h_hubs, h_dsd, h_usd, h_epqs, h_links,
      h_sched, h_place, h_memb, h_fab, h_u2d, h_vig, h_tc, h_phy, h_pwr, h_dp, h_lio, h_test⟩ := hj
  simp [execAonLow, *]
theorem execCoreRegStatusPoll_kept (status : BitVec 16) (iout : Nat) (statusVout statusIout : Byte) (s : State) :
    Kept [.out, .freeSeq, .mbx, .flt, .alm, .pmu, .reg, .clk, .fw, .avail, .hubs, .dsd, .usd, .epqs, .links, .sched, .place,
      .memb, .fab, .u2d, .vig, .tc, .phy, .pwr, .dp, .lio, .test] s (execCoreRegStatusPoll status iout statusVout statusIout s) := by
  intro j hj
  simp only [List.mem_cons, List.not_mem_nil, or_false, not_or] at hj
  obtain ⟨h_out, h_freeSeq, h_mbx, h_flt, h_alm, h_pmu, h_reg, h_clk, h_fw, h_avail, h_hubs, h_dsd, h_usd, h_epqs,
      h_links, h_sched, h_place, h_memb, h_fab, h_u2d, h_vig, h_tc, h_phy, h_pwr, h_dp, h_lio, h_test⟩ := hj
  unfold execCoreRegStatusPoll
  ((try simp [*]) <;> repeat' ((first | split | intro _) <;> try simp [*])) <;> (cases j <;> first | rfl | contradiction)
theorem execCoreRegTempPoll_kept (temp : Nat) (s : State) :
    Kept [.out, .reg] s (execCoreRegTempPoll temp s) := by
  intro j hj
  simp only [List.mem_cons, List.not_mem_nil, or_false, not_or] at hj
  obtain ⟨h_out, h_reg⟩ := hj
  unfold execCoreRegTempPoll
  ((try simp [*]) <;> repeat' ((first | split | intro _) <;> try simp [*])) <;> (cases j <;> first | rfl | contradiction)
theorem execOppChangeStart_kept (badOrder : Bool) (s : State) :
    Kept [.out, .freeSeq, .mbx, .flt, .alm, .pmu, .reg, .clk, .fw, .avail, .hubs, .dsd, .usd, .epqs, .links, .sched, .place,
      .memb, .fab, .u2d, .vig, .tc, .phy, .pwr, .dp, .lio, .test] s (execOppChangeStart badOrder s) := by
  intro j hj
  simp only [List.mem_cons, List.not_mem_nil, or_false, not_or] at hj
  obtain ⟨h_out, h_freeSeq, h_mbx, h_flt, h_alm, h_pmu, h_reg, h_clk, h_fw, h_avail, h_hubs, h_dsd, h_usd, h_epqs,
      h_links, h_sched, h_place, h_memb, h_fab, h_u2d, h_vig, h_tc, h_phy, h_pwr, h_dp, h_lio, h_test⟩ := hj
  simp [execOppChangeStart, *]
theorem execOppVoltageConfirmed_kept (mv : Nat) (s : State) :
    Kept [.out, .mbx, .pmu] s (execOppVoltageConfirmed mv s) := by
  intro j hj
  simp only [List.mem_cons, List.not_mem_nil, or_false, not_or] at hj
  obtain ⟨h_out, h_mbx, h_pmu⟩ := hj
  unfold execOppVoltageConfirmed
  ((try simp [*]) <;> repeat' ((first | split | intro _) <;> try simp [*])) <;> (cases j <;> first | rfl | contradiction)
theorem execOppConfirmTimeout_kept (s : State) :
    Kept [.out, .now, .freeSeq, .mbx, .flt, .alm, .pmu, .reg, .clk, .fw, .avail, .hubs, .dsd, .usd, .epqs, .links, .sched, .place,
      .memb, .fab, .u2d, .vig, .tc, .phy, .pwr, .dp, .lio, .test] s (execOppConfirmTimeout s) := by
  intro j hj
  simp only [List.mem_cons, List.not_mem_nil, or_false, not_or] at hj
  obtain ⟨h_out, h_now, h_freeSeq, h_mbx, h_flt, h_alm, h_pmu, h_reg, h_clk, h_fw, h_avail, h_hubs, h_dsd, h_usd,
      h_epqs, h_links, h_sched, h_place, h_memb, h_fab, h_u2d, h_vig, h_tc, h_phy, h_pwr, h_dp, h_lio, h_test⟩ := hj
  unfold execOppConfirmTimeout
  (try simp [*]) <;> repeat' ((first | split | intro _) <;> try simp [*])
theorem execSuspendEntry_kept (s : State) :
    Kept [.out, .now, .mbx, .pmu, .fw, .place] s (execSuspendEntry s) := by
  intro j hj
  simp only [List.mem_cons, List.not_mem_nil, or_false, not_or] at hj
  obtain ⟨h_out, h_now, h_mbx, h_pmu, h_fw, h_place⟩ := hj
  unfold execSuspendEntry
  (try simp [*]) <;> repeat' ((first | split | intro _) <;> try simp [*])
theorem execSuspendWake_kept (cls : Fin 16) (port detail : Nat) (s : State) :
    Kept [.out, .mbx, .pmu, .wake, .sup, .fw] s (execSuspendWake cls port detail s) := by
  intro j hj
  simp only [List.mem_cons, List.not_mem_nil, or_false, not_or] at hj
  obtain ⟨h_out, h_mbx, h_pmu, h_wake, h_sup, h_fw⟩ := hj
  simp [execSuspendWake, *]
theorem execSleepEntry_kept (phi : Nat) (dmcOk : Bool) (b : BootIn) (s : State) :
    Kept [.out, .now, .freeSeq, .mbx, .flt, .alm, .pmu, .clk, .wake, .sup, .fw, .avail, .hubs, .own, .dsd, .usd, .epqs, .links,
      .sched, .place, .memb, .fab, .u2d, .u2u, .vig, .fo, .tc, .phy, .pwr, .lane, .dp, .lio, .test] s (execSleepEntry phi dmcOk b s) := by
  intro j hj
  simp only [List.mem_cons, List.not_mem_nil, or_false, not_or] at hj
  obtain ⟨h_out, h_now, h_freeSeq, h_mbx, h_flt, h_alm, h_pmu, h_clk, h_wake, h_sup, h_fw, h_avail, h_hubs, h_own,
      h_dsd, h_usd, h_epqs, h_links, h_sched, h_place, h_memb, h_fab, h_u2d, h_u2u, h_vig, h_fo, h_tc, h_phy, h_pwr,
      h_lane, h_dp, h_lio, h_test⟩ := hj
  unfold execSleepEntry
  dsimp only
  (repeat' split) <;> (try rw [keptIn_next]) <;> (repeat' split) <;> first
    | (simp [*]; done)
    | (cases j <;> first | rfl | contradiction)
theorem execLovageCcSample_kept (p : Port) (c : CcPattern) (b : BootIn) (s : State) :
    Kept [.out, .now, .freeSeq, .mbx, .flt, .alm, .pmu, .clk, .wake, .sup, .fw, .avail, .hubs, .own, .dsd, .usd, .epqs, .links,
      .sched, .place, .memb, .fab, .u2d, .u2u, .vig, .fo, .tc, .phy, .pwr, .lane, .dp, .lio, .test] s (execLovageCcSample p c b s) := by
  intro j hj
  simp only [List.mem_cons, List.not_mem_nil, or_false, not_or] at hj
  obtain ⟨h_out, h_now, h_freeSeq, h_mbx, h_flt, h_alm, h_pmu, h_clk, h_wake, h_sup, h_fw, h_avail, h_hubs, h_own,
      h_dsd, h_usd, h_epqs, h_links, h_sched, h_place, h_memb, h_fab, h_u2d, h_u2u, h_vig, h_fo, h_tc, h_phy, h_pwr,
      h_lane, h_dp, h_lio, h_test⟩ := hj
  unfold execLovageCcSample
  ((try simp [*]) <;> repeat' ((first | split | intro _) <;> try simp [*])) <;> (cases j <;> first | rfl | contradiction)
theorem execWakeNPulse_kept (gap width : Nat) (b : BootIn) (s : State) :
    Kept [.out, .now, .freeSeq, .mbx, .flt, .alm, .pmu, .clk, .wake, .sup, .fw, .avail, .hubs, .own, .dsd, .usd, .epqs, .links,
      .sched, .place, .memb, .fab, .u2d, .u2u, .vig, .fo, .tc, .phy, .pwr, .lane, .dp, .lio, .test] s (execWakeNPulse gap width b s) := by
  intro j hj
  simp only [List.mem_cons, List.not_mem_nil, or_false, not_or] at hj
  obtain ⟨h_out, h_now, h_freeSeq, h_mbx, h_flt, h_alm, h_pmu, h_clk, h_wake, h_sup, h_fw, h_avail, h_hubs, h_own,
      h_dsd, h_usd, h_epqs, h_links, h_sched, h_place, h_memb, h_fab, h_u2d, h_u2u, h_vig, h_fo, h_tc, h_phy, h_pwr,
      h_lane, h_dp, h_lio, h_test⟩ := hj
  unfold execWakeNPulse
  ((try simp [*]) <;> repeat' ((first | split | intro _) <;> try simp [*])) <;> (cases j <;> first | rfl | contradiction)
theorem execSpitCsNWake_kept (b : BootIn) (s : State) :
    Kept [.out, .now, .freeSeq, .mbx, .flt, .alm, .pmu, .clk, .wake, .sup, .fw, .avail, .hubs, .own, .dsd, .usd, .epqs, .links,
      .sched, .place, .memb, .fab, .u2d, .u2u, .vig, .fo, .tc, .phy, .pwr, .lane, .dp, .lio, .test] s (execSpitCsNWake b s) := by
  intro j hj
  simp only [List.mem_cons, List.not_mem_nil, or_false, not_or] at hj
  obtain ⟨h_out, h_now, h_freeSeq, h_mbx, h_flt, h_alm, h_pmu, h_clk, h_wake, h_sup, h_fw, h_avail, h_hubs, h_own,
      h_dsd, h_usd, h_epqs, h_links, h_sched, h_place, h_memb, h_fab, h_u2d, h_u2u, h_vig, h_fo, h_tc, h_phy, h_pwr,
      h_lane, h_dp, h_lio, h_test⟩ := hj
  simp [execSpitCsNWake, *]
theorem execRtcAlarm_kept (b : BootIn) (s : State) :
    Kept [.out, .now, .freeSeq, .mbx, .flt, .alm, .pmu, .clk, .wake, .sup, .fw, .avail, .hubs, .own, .dsd, .usd, .epqs, .links,
      .sched, .place, .memb, .fab, .u2d, .u2u, .vig, .fo, .tc, .phy, .pwr, .lane, .dp, .lio, .test] s (execRtcAlarm b s) := by
  intro j hj
  simp only [List.mem_cons, List.not_mem_nil, or_false, not_or] at hj
  obtain ⟨h_out, h_now, h_freeSeq, h_mbx, h_flt, h_alm, h_pmu, h_clk, h_wake, h_sup, h_fw, h_avail, h_hubs, h_own,
      h_dsd, h_usd, h_epqs, h_links, h_sched, h_place, h_memb, h_fab, h_u2d, h_u2u, h_vig, h_fo, h_tc, h_phy, h_pwr,
      h_lane, h_dp, h_lio, h_test⟩ := hj
  unfold execRtcAlarm
  simp only [keptIn_ite, keptIn_next]
  split
  · exact fresh_only j s h_out
  · refine Eq.trans (b := j.only { fresh s with clk := { (fresh s).clk with alarm := 0 } }) ?_ ((only_clk j _ _ h_clk).trans (fresh_only j s h_out))
    rw [raiseWake_only] <;> (try assumption)
    split <;> simp only [advanceTo_only j _ _ h_now]
theorem execPsAlertN_kept (p : Port) (status : BitVec 16) (feFault : Bool) (tries : Nat) (b : BootIn) (s : State) :
    Kept [.out, .now, .freeSeq, .mbx, .flt, .alm, .pmu, .clk, .wake, .sup, .fw, .avail, .hubs, .own, .dsd, .usd, .epqs, .links,
      .sched, .place, .memb, .fab, .u2d, .u2u, .vig, .fo, .tc, .phy, .pwr, .lane, .dp, .lio, .test] s (execPsAlertN p status feFault tries b s) := by
  intro j hj
  simp only [List.mem_cons, List.not_mem_nil, or_false, not_or] at hj
  obtain ⟨h_out, h_now, h_freeSeq, h_mbx, h_flt, h_alm, h_pmu, h_clk, h_wake, h_sup, h_fw, h_avail, h_hubs, h_own,
      h_dsd, h_usd, h_epqs, h_links, h_sched, h_place, h_memb, h_fab, h_u2d, h_u2u, h_vig, h_fo, h_tc, h_phy, h_pwr,
      h_lane, h_dp, h_lio, h_test⟩ := hj
  simp [execPsAlertN, *]
theorem execLaneTimeEdgeCorrection_kept (s : State) :
    Kept [.out, .now, .clk] s (execLaneTimeEdgeCorrection s) := by
  intro j hj
  simp only [List.mem_cons, List.not_mem_nil, or_false, not_or] at hj
  obtain ⟨h_out, h_now, h_clk⟩ := hj
  unfold execLaneTimeEdgeCorrection
  dsimp only
  (repeat' split) <;> (try rw [keptIn_next]) <;> (repeat' split) <;> first
    | (simp [*]; done)
    | (cases j <;> first | rfl | contradiction)
theorem execPkbScrub_kept (word flips : Nat) (overwritten : Bool) (s : State) :
    Kept [.out, .freeSeq, .mbx, .flt, .alm, .pmu, .clk, .fw, .avail, .hubs, .dsd, .usd, .epqs, .links, .sched, .place, .memb,
      .fab, .u2d, .vig, .tc, .phy, .pwr, .dp, .lio, .test] s (execPkbScrub word flips overwritten s) := by
  intro j hj
  simp only [List.mem_cons, List.not_mem_nil, or_false, not_or] at hj
  obtain ⟨h_out, h_freeSeq, h_mbx, h_flt, h_alm, h_pmu, h_clk, h_fw, h_avail, h_hubs, h_dsd, h_usd, h_epqs, h_links,
      h_sched, h_place, h_memb, h_fab, h_u2d, h_vig, h_tc, h_phy, h_pwr, h_dp, h_lio, h_test⟩ := hj
  unfold execPkbScrub
  simp only []
  split
  · exact fresh_only j s h_out
  split <;> simp [*]
theorem execDramScrubUnit_kept (flips : List (Nat × Nat)) (s : State) :
    Kept [.out, .freeSeq, .mbx, .flt, .alm, .pmu, .clk, .fw, .avail, .hubs, .dsd, .usd, .epqs, .links, .sched, .place, .memb,
      .fab, .u2d, .vig, .tc, .phy, .pwr, .dp, .lio, .test] s (execDramScrubUnit flips s) := by
  intro j hj
  simp only [List.mem_cons, List.not_mem_nil, or_false, not_or] at hj
  obtain ⟨h_out, h_freeSeq, h_mbx, h_flt, h_alm, h_pmu, h_clk, h_fw, h_avail, h_hubs, h_dsd, h_usd, h_epqs, h_links,
      h_sched, h_place, h_memb, h_fab, h_u2d, h_vig, h_tc, h_phy, h_pwr, h_dp, h_lio, h_test⟩ := hj
  unfold execDramScrubUnit
  simp only [keptIn_ite, keptIn_next]
  split
  · exact fresh_only j s h_out
  split
  · exact (only_memb j _ _ h_memb).trans (fresh_only j s h_out)
  · rw [scrubUnit_only] <;> try assumption
    exact (only_memb j _ _ h_memb).trans (fresh_only j s h_out)
theorem execDramRefreshRateRead_kept (mult : Nat) (s : State) :
    Kept [.out, .memb] s (execDramRefreshRateRead mult s) := by
  intro j hj
  simp only [List.mem_cons, List.not_mem_nil, or_false, not_or] at hj
  obtain ⟨h_out, h_memb⟩ := hj
  unfold execDramRefreshRateRead
  dsimp only
  (repeat' split) <;> (try rw [keptIn_next]) <;> (repeat' split) <;> first
    | (simp [*]; done)
    | (cases j <;> first | rfl | contradiction)
theorem execSpillRefill_kept (epq : Nat) (s : State) :
    Kept [.out, .epqs, .links, .fab] s (execSpillRefill epq s) := by
  intro j hj
  simp only [List.mem_cons, List.not_mem_nil, or_false, not_or] at hj
  obtain ⟨h_out, h_epqs, h_links, h_fab⟩ := hj
  simp [execSpillRefill, *]
theorem execSsHeaderDownstream_kept (u : US) (h : SsHeader) (crcOk : Bool) (s : State) :
    Kept [.out, .now, .mbx, .avail, .dsd, .usd, .epqs, .links, .sched, .u2u, .vig, .fo] s (execSsHeaderDownstream u h crcOk s) := by
  intro j hj
  simp only [List.mem_cons, List.not_mem_nil, or_false, not_or] at hj
  obtain ⟨h_out, h_now, h_mbx, h_avail, h_dsd, h_usd, h_epqs, h_links, h_sched, h_u2u, h_vig, h_fo⟩ := hj
  unfold execSsHeaderDownstream
  (try simp [*]) <;> repeat' ((first | split | intro _) <;> try simp [*])
theorem execSsHeaderUpstream_kept (d : DS) (h : SsHeader) (crcOk : Bool) (s : State) :
    Kept [.out, .now, .mbx, .dsd, .usd, .epqs, .links, .sched, .vig] s (execSsHeaderUpstream d h crcOk s) := by
  intro j hj
  simp only [List.mem_cons, List.not_mem_nil, or_false, not_or] at hj
  obtain ⟨h_out, h_now, h_mbx, h_dsd, h_usd, h_epqs, h_links, h_sched, h_vig⟩ := hj
  unfold execSsHeaderUpstream
  (try simp [*]) <;> repeat' ((first | split | intro _) <;> try simp [*])
theorem execDppReceived_kept (p : Port) (data : List Byte) (crcOk : Bool) (s : State) :
    Kept [.out, .now, .mbx, .pmu, .fw, .avail, .hubs, .dsd, .usd, .epqs, .links, .sched, .fab, .fo] s (execDppReceived p data crcOk s) := by
  intro j hj
  simp only [List.mem_cons, List.not_mem_nil, or_false, not_or] at hj
  obtain ⟨h_out, h_now, h_mbx, h_pmu, h_fw, h_avail, h_hubs, h_dsd, h_usd, h_epqs, h_links, h_sched, h_fab, h_fo⟩ := hj
  unfold execDppReceived
  (try simp [*]) <;> repeat' ((first | split | intro _) <;> try simp [*])
theorem execItpReceived_kept (u : US) (stamp : Nat) (s : State) :
    Kept [.out, .avail, .links, .u2u, .vig, .fo] s (execItpReceived u stamp s) := by
  intro j hj
  simp only [List.mem_cons, List.not_mem_nil, or_false, not_or] at hj
  obtain ⟨h_out, h_avail, h_links, h_u2u, h_vig, h_fo⟩ := hj
  simp [execItpReceived, *]
theorem execDeferredHeaderDelivery_kept (d : DS) (s : State) :
    Kept [.out, .dsd, .usd, .links] s (execDeferredHeaderDelivery d s) := by
  intro j hj
  simp only [List.mem_cons, List.not_mem_nil, or_false, not_or] at hj
  obtain ⟨h_out, h_dsd, h_usd, h_links⟩ := hj
  simp [execDeferredHeaderDelivery, *]
theorem execEgressSelect_kept (p : Port) (prio : Nat) (s : State) :
    Kept [.out, .now, .mbx, .pmu, .fw, .avail, .hubs, .dsd, .usd, .epqs, .links, .sched, .fab, .vig, .fo] s (execEgressSelect p prio s) := by
  intro j hj
  simp only [List.mem_cons, List.not_mem_nil, or_false, not_or] at hj
  obtain ⟨h_out, h_now, h_mbx, h_pmu, h_fw, h_avail, h_hubs, h_dsd, h_usd, h_epqs, h_links, h_sched, h_fab, h_vig,
      h_fo⟩ := hj
  unfold execEgressSelect
  ((try simp [*]) <;> repeat' ((first | split | intro _) <;> try simp [*])) <;> (rw [sendLoose_only j _ _ _ h_out h_epqs h_links h_sched h_fab (by assumption)]; simp [*])
theorem execEgressRecoveryCut_kept (p : Port) (s : State) :
    Kept [.out, .dsd, .usd, .links, .sched] s (execEgressRecoveryCut p s) := by
  intro j hj
  simp only [List.mem_cons, List.not_mem_nil, or_false, not_or] at hj
  obtain ⟨h_out, h_dsd, h_usd, h_links, h_sched⟩ := hj
  unfold execEgressRecoveryCut
  extract_lets s0
  have e0 : j.only s0 = j.only s := fresh_only j s h_out
  split
  · exact e0
  rename_i s1 _ q _
  have e1 : j.only s1 = j.only s := (setLink_only j _ _ _ h_dsd h_usd).trans ((modLink_only j _ _ _ h_links).trans e0)
  rw [keptIn_next]
  split
  · refine (foldl_only j _ (fun s x => ?_) _ _).trans e1
    (try simp [*]) <;> repeat' ((first | split | intro _) <;> try simp [*])
  · simp [*]
theorem execFunctionWake_kept (d : DS) (h : SsHeader) (s : State) :
    Kept [.out, .now, .mbx, .dsd, .usd, .epqs, .links, .sched] s (execFunctionWake d h s) := by
  intro j hj
  simp only [List.mem_cons, List.not_mem_nil, or_false, not_or] at hj
  obtain ⟨h_out, h_now, h_mbx, h_dsd, h_usd, h_epqs, h_links, h_sched⟩ := hj
  unfold execFunctionWake
  (try simp [*]) <;> repeat' ((first | split | intro _) <;> try simp [*])
theorem execDsLinkIdleTimeout_kept (d : DS) (isU2 : Bool) (s : State) :
    Kept [.out, .now, .dsd, .usd] s (execDsLinkIdleTimeout d isU2 s) := by
  intro j hj
  simp only [List.mem_cons, List.not_mem_nil, or_false, not_or] at hj
  obtain ⟨h_out, h_now, h_dsd, h_usd⟩ := hj
  simp [execDsLinkIdleTimeout, *]
theorem execDsDeviceLpmRequest_kept (d : DS) (isU2 : Bool) (s : State) :
    Kept [.out, .dsd, .usd] s (execDsDeviceLpmRequest d isU2 s) := by
  intro j hj
  simp only [List.mem_cons, List.not_mem_nil, or_false, not_or] at hj
  obtain ⟨h_out, h_dsd, h_usd⟩ := hj
  simp [execDsDeviceLpmRequest, *]
theorem execUsLinkLpmRequest_kept (u : US) (isU2 : Bool) (s : State) :
    Kept [.out, .avail, .dsd, .usd, .u2u, .vig, .fo] s (execUsLinkLpmRequest u isU2 s) := by
  intro j hj
  simp only [List.mem_cons, List.not_mem_nil, or_false, not_or] at hj
  obtain ⟨h_out, h_avail, h_dsd, h_usd, h_u2u, h_vig, h_fo⟩ := hj
  simp [execUsLinkLpmRequest, *]
theorem execUsLinkIdleTimeout_kept (u : US) (isU2 : Bool) (s : State) :
    Kept [.out, .now, .dsd, .usd] s (execUsLinkIdleTimeout u isU2 s) := by
  intro j hj
  simp only [List.mem_cons, List.not_mem_nil, or_false, not_or] at hj
  obtain ⟨h_out, h_now, h_dsd, h_usd⟩ := hj
  simp [execUsLinkIdleTimeout, *]
theorem execDsLinkLeavesU0_kept (d : DS) (c : LeaveCause) (s : State) :
    Kept [.out, .hubs, .dsd, .usd, .epqs, .links, .sched, .fab] s (execDsLinkLeavesU0 d c s) := by
  intro j hj
  simp only [List.mem_cons, List.not_mem_nil, or_false, not_or] at hj
  obtain ⟨h_out, h_hubs, h_dsd, h_usd, h_epqs, h_links, h_sched, h_fab⟩ := hj
  unfold execDsLinkLeavesU0
  (try simp [*]) <;> repeat' ((first | split | intro _) <;> try simp [*])
theorem execHsPacketRepeat_kept (f : HsSrc) (k : UsbPkt) (s : State) :
    Kept [.out, .mbx, .avail, .epqs, .u2d, .u2u, .vig, .fo] s (execHsPacketRepeat f k s) := by
  intro j hj
  simp only [List.mem_cons, List.not_mem_nil, or_false, not_or] at hj
  obtain ⟨h_out, h_mbx, h_avail, h_epqs, h_u2d, h_u2u, h_vig, h_fo⟩ := hj
  unfold execHsPacketRepeat
  dsimp only
  split
  · split
    · simp [*]
    · rw [keptIn_next]
      refine (foldl_only j _ (fun t x => ?_) _ _).trans ?_
      · (repeat' split) <;> simp [*]
      · split <;> simp [*]
  · (repeat' split) <;> simp [*]
theorem execSsplitNonPeriodic_kept (u : US) (v : Fin 15) (addr ep : Nat) (dirIn setup ctl low : Bool) (pid : DPid)
    (data : List Byte) (crcOk : Bool) (s : State) :
    Kept [.out, .avail, .epqs, .links, .place, .fab, .u2d, .u2u, .vig, .fo] s (execSsplitNonPeriodic u v addr ep dirIn setup ctl low pid data crcOk s) := by
  intro j hj
  simp only [List.mem_cons, List.not_mem_nil, or_false, not_or] at hj
  obtain ⟨h_out, h_avail, h_epqs, h_links, h_place, h_fab, h_u2d, h_u2u, h_vig, h_fo⟩ := hj
  unfold execSsplitNonPeriodic
  (try simp [*]) <;> repeat' ((first | split | intro _) <;> try simp [*])
theorem execCsplitNonPeriodic_kept (u : US) (v : Fin 15) (addr ep : Nat) (dirIn : Bool) (s : State) :
    Kept [.out, .mbx, .avail, .epqs, .u2d, .u2u, .vig, .fo] s (execCsplitNonPeriodic u v addr ep dirIn s) := by
  intro j hj
  simp only [List.mem_cons, List.not_mem_nil, or_false, not_or] at hj
  obtain ⟨h_out, h_mbx, h_avail, h_epqs, h_u2d, h_u2u, h_vig, h_fo⟩ := hj
  unfold execCsplitNonPeriodic
  (try simp [*]) <;> repeat' ((first | split | intro _) <;> try simp [*])
theorem execTtTransactionStart_kept (d : DS) (s : State) :
    Kept [.out, .epqs, .links, .fab, .u2d] s (execTtTransactionStart d s) := by
  intro j hj
  simp only [List.mem_cons, List.not_mem_nil, or_false, not_or] at hj
  obtain ⟨h_out, h_epqs, h_links, h_fab, h_u2d⟩ := hj
  unfold execTtTransactionStart
  (try simp [*]) <;> repeat' ((first | split | intro _) <;> try simp [*])
theorem execTtTransactionEnd_kept (d : DS) (r : Option UsbResp) (s : State) :
    Kept [.out, .mbx, .avail, .epqs, .links, .fab, .u2d, .vig] s (execTtTransactionEnd d r s) := by
  intro j hj
  simp only [List.mem_cons, List.not_mem_nil, or_false, not_or] at hj
  obtain ⟨h_out, h_mbx, h_avail, h_epqs, h_links, h_fab, h_u2d, h_vig⟩ := hj
  unfold execTtTransactionEnd
  (try simp [*]) <;> repeat' ((first | split | intro _) <;> try simp [*])
theorem execSsplitPeriodic_kept (u : US) (v : Fin 15) (addr ep : Nat) (dirIn iso low : Bool) (pid : DPid)
    (data : List Byte) (s : State) :
    Kept [.out, .avail, .epqs, .place, .u2d, .u2u, .vig, .fo] s (execSsplitPeriodic u v addr ep dirIn iso low pid data s) := by
  intro j hj
  simp only [List.mem_cons, List.not_mem_nil, or_false, not_or] at hj
  obtain ⟨h_out, h_avail, h_epqs, h_place, h_u2d, h_u2u, h_vig, h_fo⟩ := hj
  unfold execSsplitPeriodic
  (try simp [*]) <;> repeat' ((first | split | intro _) <;> try simp [*])
theorem execCsplitPeriodic_kept (u : US) (v : Fin 15) (addr ep : Nat) (dirIn : Bool) (s : State) :
    Kept [.out, .mbx, .avail, .epqs, .u2d, .u2u, .vig, .fo] s (execCsplitPeriodic u v addr ep dirIn s) := by
  intro j hj
  simp only [List.mem_cons, List.not_mem_nil, or_false, not_or] at hj
  obtain ⟨h_out, h_mbx, h_avail, h_epqs, h_u2d, h_u2u, h_vig, h_fo⟩ := hj
  unfold execCsplitPeriodic
  (try simp [*]) <;> repeat' ((first | split | intro _) <;> try simp [*])
theorem execTtPeriodicSlotRun_kept (d : DS) (rs : List (Option UsbResp)) (s : State) :
    Kept [.out, .avail, .epqs, .u2d, .vig] s (execTtPeriodicSlotRun d rs s) := by
  intro j hj
  simp only [List.mem_cons, List.not_mem_nil, or_false, not_or] at hj
  obtain ⟨h_out, h_avail, h_epqs, h_u2d, h_vig⟩ := hj
  simp [execTtPeriodicSlotRun, *]
theorem execTtSlotResultExpiry_kept (d : DS) (s : State) :
    Kept [.out, .mbx, .epqs, .links, .fab, .u2d, .vig] s (execTtSlotResultExpiry d s) := by
  intro j hj
  simp only [List.mem_cons, List.not_mem_nil, or_false, not_or] at hj
  obtain ⟨h_out, h_mbx, h_epqs, h_links, h_fab, h_u2d, h_vig⟩ := hj
  unfold execTtSlotResultExpiry
  dsimp only
  rw [keptIn_next]
  refine (settle_only j _ h_epqs h_links h_fab).trans ((modTt_only j _ _ _ h_u2d).trans ((foldl_only j _ (fun t x => ?_) _ _).trans (fresh_only j s h_out)))
  (repeat' split) <;> simp [*]
theorem execTtFsFrameStart_kept (u : US) (frame : Nat) (s : State) :
    Kept [.out, .avail, .u2d, .u2u, .vig, .fo] s (execTtFsFrameStart u frame s) := by
  intro j hj
  simp only [List.mem_cons, List.not_mem_nil, or_false, not_or] at hj
  obtain ⟨h_out, h_avail, h_u2d, h_u2u, h_vig, h_fo⟩ := hj
  simp [execTtFsFrameStart, *]
theorem execSpilledResultFetch_kept (d : DS) (addr ep : Nat) (s : State) :
    Kept [.out, .epqs, .links, .fab, .u2d] s (execSpilledResultFetch d addr ep s) := by
  intro j hj
  simp only [List.mem_cons, List.not_mem_nil, or_false, not_or] at hj
  obtain ⟨h_out, h_epqs, h_links, h_fab, h_u2d⟩ := hj
  unfold execSpilledResultFetch
  (try simp [*]) <;> repeat' ((first | split | intro _) <;> try simp [*])
theorem execBabbleDetect_kept (d : DS) (cutPacket : Bool) (s : State) :
    Kept [.out, .mbx, .hubs, .dsd, .epqs, .links, .fab, .u2d] s (execBabbleDetect d cutPacket s) := by
  intro j hj
  simp only [List.mem_cons, List.not_mem_nil, or_false, not_or] at hj
  obtain ⟨h_out, h_mbx, h_hubs, h_dsd, h_epqs, h_links, h_fab, h_u2d⟩ := hj
  unfold execBabbleDetect
  (try simp [*]) <;> repeat' ((first | split | intro _) <;> try simp [*])
theorem execClearTtBuffer_kept (u : US) (wValue wIndex : Nat) (s : State) :
    Kept [.out, .epqs, .links, .fab, .u2d] s (execClearTtBuffer u wValue wIndex s) := by
  intro j hj
  simp only [List.mem_cons, List.not_mem_nil, or_false, not_or] at hj
  obtain ⟨h_out, h_epqs, h_links, h_fab, h_u2d⟩ := hj
  simp [execClearTtBuffer, *]
theorem execResetTt_kept (u : US) (wIndex : Nat) (s : State) :
    Kept [.out, .epqs, .links, .fab, .u2d] s (execResetTt u wIndex s) := by
  intro j hj
  simp only [List.mem_cons, List.not_mem_nil, or_false, not_or] at hj
  obtain ⟨h_out, h_epqs, h_links, h_fab, h_u2d⟩ := hj
  simp [execResetTt, *]
theorem execGetTtState_kept (u : US) (wIndex : Nat) (s : State) :
    Kept [.out] s (execGetTtState u wIndex s) := by
  intro j hj
  simp only [List.mem_cons, List.not_mem_nil, or_false, not_or] at hj
  have h_out := hj
  simp [execGetTtState, *]
theorem execStopTt_kept (u : US) (wIndex : Nat) (s : State) :
    Kept [.out, .u2d] s (execStopTt u wIndex s) := by
  intro j hj
  simp only [List.mem_cons, List.not_mem_nil, or_false, not_or] at hj
  obtain ⟨h_out, h_u2d⟩ := hj
  simp [execStopTt, *]
theorem execCompanionSetInterface_kept (u : US) (alt : Nat) (s : State) :
    Kept [.out, .hubs, .epqs, .links, .fab, .u2d] s (execCompanionSetInterface u alt s) := by
  intro j hj
  simp only [List.mem_cons, List.not_mem_nil, or_false, not_or] at hj
  obtain ⟨h_out, h_hubs, h_epqs, h_links, h_fab, h_u2d⟩ := hj
  simp [execCompanionSetInterface, *]
theorem execPortResetRequest_kept (u : US) (v : Fin 15) (s : State) :
    Kept [.out, .mbx, .avail, .hubs, .dsd, .epqs, .links, .sched, .place, .fab, .u2d, .u2u, .vig, .fo] s (execPortResetRequest u v s) := by
  intro j hj
  simp only [List.mem_cons, List.not_mem_nil, or_false, not_or] at hj
  obtain ⟨h_out, h_mbx, h_avail, h_hubs, h_dsd, h_epqs, h_links, h_sched, h_place, h_fab, h_u2d, h_u2u, h_vig,
      h_fo⟩ := hj
  unfold execPortResetRequest
  (try simp [*]) <;> repeat' ((first | split | intro _) <;> try simp [*])
theorem execDeviceChirpK_kept (d : DS) (ns : Nat) (s : State) :
    Kept [.out, .dsd] s (execDeviceChirpK d ns s) := by
  intro j hj
  simp only [List.mem_cons, List.not_mem_nil, or_false, not_or] at hj
  obtain ⟨h_out, h_dsd⟩ := hj
  unfold execDeviceChirpK
  (try simp [*]) <;> repeat' ((first | split | intro _) <;> try simp [*])
theorem execChirpTimeout_kept (d : DS) (s : State) :
    Kept [.out, .now, .dsd] s (execChirpTimeout d s) := by
  intro j hj
  simp only [List.mem_cons, List.not_mem_nil, or_false, not_or] at hj
  obtain ⟨h_out, h_now, h_dsd⟩ := hj
  unfold execChirpTimeout
  (try simp [*]) <;> repeat' ((first | split | intro _) <;> try simp [*])
theorem execPortResetEnd_kept (d : DS) (hsIdle : Bool) (s : State) :
    Kept [.out, .now, .hubs, .dsd, .vig] s (execPortResetEnd d hsIdle s) := by
  intro j hj
  simp only [List.mem_cons, List.not_mem_nil, or_false, not_or] at hj
  obtain ⟨h_out, h_now, h_hubs, h_dsd, h_vig⟩ := hj
  unfold execPortResetEnd
  (try simp [*]) <;> repeat' ((first | split | intro _) <;> try simp [*])
theorem execUpstreamUsb2Reset_kept (u : US) (chirpAnswered : Bool) (s : State) :
    Kept [.out, .mbx, .pmu, .fw, .avail, .hubs, .dsd, .usd, .epqs, .links, .sched, .place, .fab, .u2d, .u2u, .vig, .fo, .tc, .phy,
      .pwr, .lane, .dp] s (execUpstreamUsb2Reset u chirpAnswered s) := by
  intro j hj
  simp only [List.mem_cons, List.not_mem_nil, or_false, not_or] at hj
  obtain ⟨h_out, h_mbx, h_pmu, h_fw, h_avail, h_hubs, h_dsd, h_usd, h_epqs, h_links, h_sched, h_place, h_fab, h_u2d,
      h_u2u, h_vig, h_fo, h_tc, h_phy, h_pwr, h_lane, h_dp⟩ := hj
  unfold execUpstreamUsb2Reset
  have k : j.only (execUpstreamUsb2Reset.hostResumeCut u (fresh s)) = j.only s :=
    (foldl_only j _ (fun t x => by split <;> simp [*]) _ _).trans (fresh_only j s h_out)
  simp only [keptIn_ite, keptIn_next]
  split
  · exact fresh_only j s h_out
  · split <;> simp [*]
theorem execSsHotReset_kept (u : US) (v : Fin 15) (s : State) :
    Kept [.out, .mbx, .avail, .hubs, .dsd, .epqs, .links, .sched, .place, .fab, .u2d, .u2u, .vig, .fo] s (execSsHotReset u v s) := by
  intro j hj
  simp only [List.mem_cons, List.not_mem_nil, or_false, not_or] at hj
  obtain ⟨h_out, h_mbx, h_avail, h_hubs, h_dsd, h_epqs, h_links, h_sched, h_place, h_fab, h_u2d, h_u2u, h_vig,
      h_fo⟩ := hj
  simp [execSsHotReset, *]
theorem execSsWarmReset_kept (u : US) (v : Fin 15) (s : State) :
    Kept [.out, .mbx, .avail, .hubs, .dsd, .epqs, .links, .sched, .place, .fab, .u2d, .u2u, .vig, .fo] s (execSsWarmReset u v s) := by
  intro j hj
  simp only [List.mem_cons, List.not_mem_nil, or_false, not_or] at hj
  obtain ⟨h_out, h_mbx, h_avail, h_hubs, h_dsd, h_epqs, h_links, h_sched, h_place, h_fab, h_u2d, h_u2u, h_vig,
      h_fo⟩ := hj
  simp [execSsWarmReset, *]
theorem execSsResetComplete_kept (d : DS) (reached : Bool) (s : State) :
    Kept [.out, .now, .mbx, .avail, .hubs, .dsd, .epqs, .links, .sched, .place, .fab, .u2d, .vig] s (execSsResetComplete d reached s) := by
  intro j hj
  simp only [List.mem_cons, List.not_mem_nil, or_false, not_or] at hj
  obtain ⟨h_out, h_now, h_mbx, h_avail, h_hubs, h_dsd, h_epqs, h_links, h_sched, h_place, h_fab, h_u2d, h_vig⟩ := hj
  unfold execSsResetComplete
  (try simp [*]) <;> repeat' ((first | split | intro _) <;> try simp [*])
theorem execEmptySlotResetComplete_kept (u : US) (v : Fin 15) (s : State) :
    Kept [.out, .now, .hubs] s (execEmptySlotResetComplete u v s) := by
  intro j hj
  simp only [List.mem_cons, List.not_mem_nil, or_false, not_or] at hj
  obtain ⟨h_out, h_now, h_hubs⟩ := hj
  unfold execEmptySlotResetComplete
  (try simp [*]) <;> repeat' ((first | split | intro _) <;> try simp [*])
theorem execDsLpmToken_kept (d : DS) (viaTt : Bool) (addr : Nat) (answer : Option Hsk) (besl : Nat) (remoteWake : Bool)
    (s : State) :
    Kept [.out, .avail, .dsd, .u2d, .u2u, .vig, .fo] s (execDsLpmToken d viaTt addr answer besl remoteWake s) := by
  intro j hj
  simp only [List.mem_cons, List.not_mem_nil, or_false, not_or] at hj
  obtain ⟨h_out, h_avail, h_dsd, h_u2d, h_u2u, h_vig, h_fo⟩ := hj
  unfold execDsLpmToken
  (try simp [*]) <;> repeat' ((first | split | intro _) <;> try simp [*])
theorem execClearPortL1_kept (u : US) (v : Fin 15) (s : State) :
    Kept [.out, .dsd] s (execClearPortL1 u v s) := by
  intro j hj
  simp only [List.mem_cons, List.not_mem_nil, or_false, not_or] at hj
  obtain ⟨h_out, h_dsd⟩ := hj
  unfold execClearPortL1
  (try simp [*]) <;> repeat' ((first | split | intro _) <;> try simp [*])
theorem execL1DeviceWake_kept (d : DS) (s : State) :
    Kept [.out, .hubs, .dsd] s (execL1DeviceWake d s) := by
  intro j hj
  simp only [List.mem_cons, List.not_mem_nil, or_false, not_or] at hj
  obtain ⟨h_out, h_hubs, h_dsd⟩ := hj
  simp [execL1DeviceWake, *]
theorem execCompanionLpm_kept (u : US) (linkState besl : Nat) (remoteWake : Bool) (s : State) :
    Kept [.out, .avail, .usd, .u2u, .vig, .fo] s (execCompanionLpm u linkState besl remoteWake s) := by
  intro j hj
  simp only [List.mem_cons, List.not_mem_nil, or_false, not_or] at hj
  obtain ⟨h_out, h_avail, h_usd, h_u2u, h_vig, h_fo⟩ := hj
  simp [execCompanionLpm, *]
theorem execCompanionL1Exit_kept (u : US) (byDev : Option DS) (s : State) :
    Kept [.out, .avail, .hubs, .dsd, .usd, .u2u, .vig, .fo] s (execCompanionL1Exit u byDev s) := by
  intro j hj
  simp only [List.mem_cons, List.not_mem_nil, or_false, not_or] at hj
  obtain ⟨h_out, h_avail, h_hubs, h_dsd, h_usd, h_u2u, h_vig, h_fo⟩ := hj
  unfold execCompanionL1Exit
  dsimp only
  (repeat' split) <;> (try rw [keptIn_next]) <;> (repeat' split) <;> first
    | (simp [*]; done)
    | (cases j <;> first | rfl | contradiction)
theorem execRefillTick_kept (s : State) :
    Kept [.out, .now, .mbx, .epqs, .links, .sched, .lio] s (execRefillTick s) := by
  intro j hj
  simp only [List.mem_cons, List.not_mem_nil, or_false, not_or] at hj
  obtain ⟨h_out, h_now, h_mbx, h_epqs, h_links, h_sched, h_lio⟩ := hj
  simp [execRefillTick, *]
theorem execObserveSample_kept (s : State) :
    Kept [.out, .epqs, .sched] s (execObserveSample s) := by
  intro j hj
  simp only [List.mem_cons, List.not_mem_nil, or_false, not_or] at hj
  obtain ⟨h_out, h_epqs, h_sched⟩ := hj
  unfold execObserveSample
  ((try simp [*]) <;> repeat' ((first | split | intro _) <;> try simp [*])) <;> (cases j <;> first | rfl | contradiction)
theorem execPlacementAgentSample_kept (loads : List (Nat × Nat)) (waits : List (Nat × Nat × Nat)) (s : State) :
    Kept [.out, .epqs, .place] s (execPlacementAgentSample loads waits s) := by
  intro j hj
  simp only [List.mem_cons, List.not_mem_nil, or_false, not_or] at hj
  obtain ⟨h_out, h_epqs, h_place⟩ := hj
  unfold execPlacementAgentSample
  ((try simp [*]) <;> repeat' ((first | split | intro _) <;> try simp [*])) <;> (cases j <;> first | rfl | contradiction)
theorem execRebuildStart_kept (s : State) :
    Kept [.out, .now, .place] s (execRebuildStart s) := by
  intro j hj
  simp only [List.mem_cons, List.not_mem_nil, or_false, not_or] at hj
  obtain ⟨h_out, h_now, h_place⟩ := hj
  simp [execRebuildStart, *]
theorem execDeltaLogMerge_kept (s : State) :
    Kept [.out, .place] s (execDeltaLogMerge s) := by
  intro j hj
  simp only [List.mem_cons, List.not_mem_nil, or_false, not_or] at hj
  obtain ⟨h_out, h_place⟩ := hj
  unfold execDeltaLogMerge
  (try simp [*]) <;> repeat' ((first | split | intro _) <;> try simp [*])
theorem execEquinoxSwap_kept (s : State) :
    Kept [.out, .now, .mbx, .epqs, .links, .place, .fab] s (execEquinoxSwap s) := by
  intro j hj
  simp only [List.mem_cons, List.not_mem_nil, or_false, not_or] at hj
  obtain ⟨h_out, h_now, h_mbx, h_epqs, h_links, h_place, h_fab⟩ := hj
  unfold execEquinoxSwap
  dsimp only
  (repeat' split) <;> (try rw [keptIn_next]) <;> (repeat' split) <;> first
    | (simp [*]; done)
    | (cases j <;> first | rfl | contradiction)
theorem execMinimalSwap_kept (s : State) :
    Kept [.out, .place] s (execMinimalSwap s) := by
  intro j hj
  simp only [List.mem_cons, List.not_mem_nil, or_false, not_or] at hj
  obtain ⟨h_out, h_place⟩ := hj
  unfold execMinimalSwap
  (try simp [*]) <;> repeat' ((first | split | intro _) <;> try simp [*])
theorem execHostAbsence_kept (u : US) (c : AbsCause) (s : State) :
    Kept [.out, .now, .mbx, .pmu, .fw, .avail, .hubs, .own, .dsd, .epqs, .links, .place, .fab, .u2d, .vig, .fo] s (execHostAbsence u c s) := by
  intro j hj
  simp only [List.mem_cons, List.not_mem_nil, or_false, not_or] at hj
  obtain ⟨h_out, h_now, h_mbx, h_pmu, h_fw, h_avail, h_hubs, h_own, h_dsd, h_epqs, h_links, h_place, h_fab, h_u2d,
      h_vig, h_fo⟩ := hj
  unfold execHostAbsence
  dsimp only
  (repeat' split) <;> (try rw [keptIn_next]) <;> (repeat' split) <;> first
    | (simp [*]; done)
    | (cases j <;> first | rfl | contradiction)
theorem execSofKeepingStart_kept (u : US) (s : State) :
    Kept [.out, .now, .avail, .u2d, .u2u] s (execSofKeepingStart u s) := by
  intro j hj
  simp only [List.mem_cons, List.not_mem_nil, or_false, not_or] at hj
  obtain ⟨h_out, h_now, h_avail, h_u2d, h_u2u⟩ := hj
  unfold execSofKeepingStart
  (try simp [*]) <;> repeat' ((first | split | intro _) <;> try simp [*])
theorem execKeptSof_kept (u : US) (s : State) :
    Kept [.out, .now, .avail, .u2d, .u2u, .vig] s (execKeptSof u s) := by
  intro j hj
  simp only [List.mem_cons, List.not_mem_nil, or_false, not_or] at hj
  obtain ⟨h_out, h_now, h_avail, h_u2d, h_u2u, h_vig⟩ := hj
  unfold execKeptSof
  (try simp [*]) <;> repeat' ((first | split | intro _) <;> try simp [*])
theorem execKeptPortSuspend_kept (u : US) (s : State) :
    Kept [.out, .mbx, .pmu, .fw, .avail, .dsd, .u2d, .u2u] s (execKeptPortSuspend u s) := by
  intro j hj
  simp only [List.mem_cons, List.not_mem_nil, or_false, not_or] at hj
  obtain ⟨h_out, h_mbx, h_pmu, h_fw, h_avail, h_dsd, h_u2d, h_u2u⟩ := hj
  simp [execKeptPortSuspend, *]
theorem execProxyPoll_kept (c : Fin 96) (ep : Nat) (r : PollResp) (s : State) :
    Kept [.out, .now, .mbx, .avail, .epqs, .links, .vig] s (execProxyPoll c ep r s) := by
  intro j hj
  simp only [List.mem_cons, List.not_mem_nil, or_false, not_or] at hj
  obtain ⟨h_out, h_now, h_mbx, h_avail, h_epqs, h_links, h_vig⟩ := hj
  unfold execProxyPoll
  (try simp [*]) <;> repeat' ((first | split | intro _) <;> try simp [*])
theorem execHeldDeviceRemoteWake_kept (d : DS) (s : State) :
    Kept [.out, .dsd, .vig] s (execHeldDeviceRemoteWake d s) := by
  intro j hj
  simp only [List.mem_cons, List.not_mem_nil, or_false, not_or] at hj
  obtain ⟨h_out, h_dsd, h_vig⟩ := hj
  simp [execHeldDeviceRemoteWake, *]
theorem execProxyLpmIdle_kept (d : DS) (answer : Option Hsk) (s : State) :
    Kept [.out, .now, .dsd, .u2d, .vig] s (execProxyLpmIdle d answer s) := by
  intro j hj
  simp only [List.mem_cons, List.not_mem_nil, or_false, not_or] at hj
  obtain ⟨h_out, h_now, h_dsd, h_u2d, h_vig⟩ := hj
  unfold execProxyLpmIdle
  (try simp [*]) <;> repeat' ((first | split | intro _) <;> try simp [*])
theorem execHubSetConfiguration_kept (u : US) (ss : Bool) (addr value : Nat) (s : State) :
    Kept [.out, .now, .mbx, .pmu, .fw, .avail, .hubs, .dsd, .epqs, .place, .u2d, .u2u, .vig, .fo] s (execHubSetConfiguration u ss addr value s) := by
  intro j hj
  simp only [List.mem_cons, List.not_mem_nil, or_false, not_or] at hj
  obtain ⟨h_out, h_now, h_mbx, h_pmu, h_fw, h_avail, h_hubs, h_dsd, h_epqs, h_place, h_u2d, h_u2u, h_vig, h_fo⟩ := hj
  unfold execHubSetConfiguration
  (try simp [*]) <;> repeat' ((first | split | intro _) <;> try simp [*])
theorem execReturningHostFirstPacket_kept (u : US) (s : State) :
    Kept [.out, .avail, .u2u, .vig, .fo] s (execReturningHostFirstPacket u s) := by
  intro j hj
  simp only [List.mem_cons, List.not_mem_nil, or_false, not_or] at hj
  obtain ⟨h_out, h_avail, h_u2u, h_vig, h_fo⟩ := hj
  simp [execReturningHostFirstPacket, *]
theorem execDeviceControlRequest_kept (u : US) (d : DS) (hubPort : Nat) (ss : Bool) (addr : Nat) (q : Setup)
    (data : List Byte) (fin : CtlEnd) (eps : List EpDesc) (s : State) :
    Kept [.out, .freeSeq, .mbx, .avail, .dsd, .epqs, .links, .sched, .place, .fab, .u2d, .u2u, .vig, .fo] s (execDeviceControlRequest u d hubPort ss addr q data fin eps s) := by
  intro j hj
  simp only [List.mem_cons, List.not_mem_nil, or_false, not_or] at hj
  obtain ⟨h_out, h_freeSeq, h_mbx, h_avail, h_dsd, h_epqs, h_links, h_sched, h_place, h_fab, h_u2d, h_u2u, h_vig,
      h_fo⟩ := hj
  unfold execDeviceControlRequest
  (try simp [*]) <;> repeat' ((first | split | intro _) <;> try simp [*])
theorem execAbsorbedResetComplete_kept (d : DS) (hubPort : Nat) (ss : Bool) (s : State) :
    Kept [.out, .now, .hubs, .dsd, .vig] s (execAbsorbedResetComplete d hubPort ss s) := by
  intro j hj
  simp only [List.mem_cons, List.not_mem_nil, or_false, not_or] at hj
  obtain ⟨h_out, h_now, h_hubs, h_dsd, h_vig⟩ := hj
  unfold execAbsorbedResetComplete
  (try simp [*]) <;> repeat' ((first | split | intro _) <;> try simp [*])
theorem execHoldExpiry_kept (u : US) (b : BootIn) (s : State) :
    Kept [.out, .now, .freeSeq, .mbx, .flt, .alm, .pmu, .clk, .wake, .sup, .fw, .avail, .hubs, .own, .dsd, .usd, .epqs, .links,
      .sched, .place, .memb, .fab, .u2d, .u2u, .vig, .fo, .tc, .phy, .pwr, .lane, .dp, .lio, .test] s (execHoldExpiry u b s) := by
  intro j hj
  simp only [List.mem_cons, List.not_mem_nil, or_false, not_or] at hj
  obtain ⟨h_out, h_now, h_freeSeq, h_mbx, h_flt, h_alm, h_pmu, h_clk, h_wake, h_sup, h_fw, h_avail, h_hubs, h_own,
      h_dsd, h_usd, h_epqs, h_links, h_sched, h_place, h_memb, h_fab, h_u2d, h_u2u, h_vig, h_fo, h_tc, h_phy, h_pwr,
      h_lane, h_dp, h_lio, h_test⟩ := hj
  unfold execHoldExpiry
  (try simp [*]) <;> repeat' ((first | split | intro _) <;> try simp [*])
theorem execFailoverDecision_kept (u : US) (s : State) :
    Kept [.out, .now, .usd, .fo] s (execFailoverDecision u s) := by
  intro j hj
  simp only [List.mem_cons, List.not_mem_nil, or_false, not_or] at hj
  obtain ⟨h_out, h_now, h_usd, h_fo⟩ := hj
  unfold execFailoverDecision
  dsimp only
  (repeat' split) <;> (try rw [keptIn_next]) <;> (repeat' split) <;> first
    | (simp [*]; done)
    | (cases j <;> first | rfl | contradiction)
theorem execFailoverPortStart_kept (u : US) (s : State) :
    Kept [.out, .now, .mbx, .pmu, .fw, .avail, .hubs, .own, .epqs, .links, .fab, .u2d, .vig, .fo] s (execFailoverPortStart u s) := by
  intro j hj
  simp only [List.mem_cons, List.not_mem_nil, or_false, not_or] at hj
  obtain ⟨h_out, h_now, h_mbx, h_pmu, h_fw, h_avail, h_hubs, h_own, h_epqs, h_links, h_fab, h_u2d, h_vig, h_fo⟩ := hj
  unfold execFailoverPortStart
  (try simp [*]) <;> repeat' ((first | split | intro _) <;> try simp [*])
theorem execFailbackAuto_kept (u : US) (s : State) :
    Kept [.out, .now, .usd, .fo] s (execFailbackAuto u s) := by
  intro j hj
  simp only [List.mem_cons, List.not_mem_nil, or_false, not_or] at hj
  obtain ⟨h_out, h_now, h_usd, h_fo⟩ := hj
  unfold execFailbackAuto
  dsimp only
  (repeat' split) <;> (try rw [keptIn_next]) <;> (repeat' split) <;> first
    | (simp [*]; done)
    | (cases j <;> first | rfl | contradiction)
theorem execFailbackDeferTimeout_kept (d : DS) (s : State) :
    Kept [.out, .now, .mbx, .hubs, .own, .epqs, .links, .fab, .u2d, .vig, .fo] s (execFailbackDeferTimeout d s) := by
  intro j hj
  simp only [List.mem_cons, List.not_mem_nil, or_false, not_or] at hj
  obtain ⟨h_out, h_now, h_mbx, h_hubs, h_own, h_epqs, h_links, h_fab, h_u2d, h_vig, h_fo⟩ := hj
  unfold execFailbackDeferTimeout
  (try simp [*]) <;> repeat' ((first | split | intro _) <;> try simp [*])
theorem execMoveOldOwnerDisconnect_kept (d : DS) (s : State) :
    Kept [.out, .now, .mbx, .hubs, .own, .epqs, .links, .fab, .u2d, .vig] s (execMoveOldOwnerDisconnect d s) := by
  intro j hj
  simp only [List.mem_cons, List.not_mem_nil, or_false, not_or] at hj
  obtain ⟨h_out, h_now, h_mbx, h_hubs, h_own, h_epqs, h_links, h_fab, h_u2d, h_vig⟩ := hj
  simp [execMoveOldOwnerDisconnect, *]
theorem execMoveDrainComplete_kept (d : DS) (s : State) :
    Kept [.out, .mbx, .pmu, .fw, .avail, .hubs, .own, .dsd, .epqs, .links, .sched, .place, .fab, .u2d, .vig, .fo] s (execMoveDrainComplete d s) := by
  intro j hj
  simp only [List.mem_cons, List.not_mem_nil, or_false, not_or] at hj
  obtain ⟨h_out, h_mbx, h_pmu, h_fw, h_avail, h_hubs, h_own, h_dsd, h_epqs, h_links, h_sched, h_place, h_fab, h_u2d,
      h_vig, h_fo⟩ := hj
  simp [execMoveDrainComplete, *]
theorem execHubReconnect_kept (u : US) (s : State) :
    Kept [.out, .now, .mbx, .hubs, .usd] s (execHubReconnect u s) := by
  intro j hj
  simp only [List.mem_cons, List.not_mem_nil, or_false, not_or] at hj
  obtain ⟨h_out, h_now, h_mbx, h_hubs, h_usd⟩ := hj
  simp [execHubReconnect, *]
theorem execGetPortVendorStatus_kept (u : US) (ss : Bool) (wIndex : Nat) (s : State) :
    Kept [.out] s (execGetPortVendorStatus u ss wIndex s) := by
  intro j hj
  simp only [List.mem_cons, List.not_mem_nil, or_false, not_or] at hj
  have h_out := hj
  unfold execGetPortVendorStatus
  (try simp [*]) <;> repeat' ((first | split | intro _) <;> try simp [*])
theorem execClearPortVendorStatus_kept (u : US) (ss : Bool) (wIndex : Nat) (mask : BitVec 16) (s : State) :
    Kept [.out, .hubs, .dsd] s (execClearPortVendorStatus u ss wIndex mask s) := by
  intro j hj
  simp only [List.mem_cons, List.not_mem_nil, or_false, not_or] at hj
  obtain ⟨h_out, h_hubs, h_dsd⟩ := hj
  unfold execClearPortVendorStatus
  (try simp [*]) <;> repeat' ((first | split | intro _) <;> try simp [*])
theorem execSetPortPower_kept (u : US) (ss : Bool) (v : Fin 15) (s : State) :
    Kept [.out, .hubs, .tc, .pwr] s (execSetPortPower u ss v s) := by
  intro j hj
  simp only [List.mem_cons, List.not_mem_nil, or_false, not_or] at hj
  obtain ⟨h_out, h_hubs, h_tc, h_pwr⟩ := hj
  unfold execSetPortPower
  (try simp [*]) <;> repeat' ((first | split | intro _) <;> try simp [*])
theorem execClearPortPower_kept (u : US) (ss : Bool) (v : Fin 15) (s : State) :
    Kept [.out, .mbx, .avail, .hubs, .dsd, .usd, .epqs, .links, .sched, .place, .fab, .u2d, .vig, .tc, .phy, .pwr, .lane, .dp] s (execClearPortPower u ss v s) := by
  intro j hj
  simp only [List.mem_cons, List.not_mem_nil, or_false, not_or] at hj
  obtain ⟨h_out, h_mbx, h_avail, h_hubs, h_dsd, h_usd, h_epqs, h_links, h_sched, h_place, h_fab, h_u2d, h_vig, h_tc,
      h_phy, h_pwr, h_lane, h_dp⟩ := hj
  unfold execClearPortPower
  (try simp [*]) <;> repeat' ((first | split | intro _) <;> try simp [*])
theorem execSetHubDepth_kept (u : US) (depth : Nat) (s : State) :
    Kept [.out, .hubs] s (execSetHubDepth u depth s) := by
  intro j hj
  simp only [List.mem_cons, List.not_mem_nil, or_false, not_or] at hj
  obtain ⟨h_out, h_hubs⟩ := hj
  simp [execSetHubDepth, *]
theorem execSetPortU1U2Timeout_kept (u : US) (v : Fin 15) (isU2 : Bool) (value : Byte) (s : State) :
    Kept [.out, .hubs] s (execSetPortU1U2Timeout u v isU2 value s) := by
  intro j hj
  simp only [List.mem_cons, List.not_mem_nil, or_false, not_or] at hj
  obtain ⟨h_out, h_hubs⟩ := hj
  simp [execSetPortU1U2Timeout, *]
theorem execSetPortRemoteWakeMask_kept (u : US) (v : Fin 15) (mask : BitVec 3) (s : State) :
    Kept [.out, .hubs] s (execSetPortRemoteWakeMask u v mask s) := by
  intro j hj
  simp only [List.mem_cons, List.not_mem_nil, or_false, not_or] at hj
  obtain ⟨h_out, h_hubs⟩ := hj
  simp [execSetPortRemoteWakeMask, *]
theorem execClearPortChangeFeature_kept (u : US) (ss : Bool) (v : Fin 15) (c : Change) (s : State) :
    Kept [.out, .hubs] s (execClearPortChangeFeature u ss v c s) := by
  intro j hj
  simp only [List.mem_cons, List.not_mem_nil, or_false, not_or] at hj
  obtain ⟨h_out, h_hubs⟩ := hj
  simp [execClearPortChangeFeature, *]
theorem execHubStatusPoll_kept (u : US) (ss : Bool) (s : State) :
    Kept [.out] s (execHubStatusPoll u ss s) := by
  intro j hj
  simp only [List.mem_cons, List.not_mem_nil, or_false, not_or] at hj
  have h_out := hj
  simp [execHubStatusPoll, *]
theorem execPortSuspendRequest_kept (u : US) (ss : Bool) (v : Fin 15) (s : State) :
    Kept [.out, .dsd] s (execPortSuspendRequest u ss v s) := by
  intro j hj
  simp only [List.mem_cons, List.not_mem_nil, or_false, not_or] at hj
  obtain ⟨h_out, h_dsd⟩ := hj
  unfold execPortSuspendRequest
  (try simp [*]) <;> repeat' ((first | split | intro _) <;> try simp [*])
theorem execUsb2PortResumeRequest_kept (u : US) (v : Fin 15) (s : State) :
    Kept [.out, .dsd] s (execUsb2PortResumeRequest u v s) := by
  intro j hj
  simp only [List.mem_cons, List.not_mem_nil, or_false, not_or] at hj
  obtain ⟨h_out, h_dsd⟩ := hj
  unfold execUsb2PortResumeRequest
  (try simp [*]) <;> repeat' ((first | split | intro _) <;> try simp [*])
theorem execUsb2PortResumeEnd_kept (d : DS) (s : State) :
    Kept [.out, .now, .hubs, .dsd] s (execUsb2PortResumeEnd d s) := by
  intro j hj
  simp only [List.mem_cons, List.not_mem_nil, or_false, not_or] at hj
  obtain ⟨h_out, h_now, h_hubs, h_dsd⟩ := hj
  unfold execUsb2PortResumeEnd
  (try simp [*]) <;> repeat' ((first | split | intro _) <;> try simp [*])
theorem execSsPortResumeRequest_kept (u : US) (v : Fin 15) (s : State) :
    Kept [.out, .dsd] s (execSsPortResumeRequest u v s) := by
  intro j hj
  simp only [List.mem_cons, List.not_mem_nil, or_false, not_or] at hj
  obtain ⟨h_out, h_dsd⟩ := hj
  unfold execSsPortResumeRequest
  (try simp [*]) <;> repeat' ((first | split | intro _) <;> try simp [*])
theorem execCompanionUpstreamSuspend_kept (u : US) (s : State) :
    Kept [.out, .mbx, .pmu, .fw, .avail, .hubs, .dsd, .usd, .fo] s (execCompanionUpstreamSuspend u s) := by
  intro j hj
  simp only [List.mem_cons, List.not_mem_nil, or_false, not_or] at hj
  obtain ⟨h_out, h_mbx, h_pmu, h_fw, h_avail, h_hubs, h_dsd, h_usd, h_fo⟩ := hj
  simp [execCompanionUpstreamSuspend, *]
theorem execSsUpstreamU3_kept (u : US) (s : State) :
    Kept [.out, .mbx, .pmu, .fw, .avail, .hubs, .dsd, .usd, .fo] s (execSsUpstreamU3 u s) := by
  intro j hj
  simp only [List.mem_cons, List.not_mem_nil, or_false, not_or] at hj
  obtain ⟨h_out, h_mbx, h_pmu, h_fw, h_avail, h_hubs, h_dsd, h_usd, h_fo⟩ := hj
  simp [execSsUpstreamU3, *]
theorem execHostResumeK_kept (u : US) (ns : Nat) (s : State) :
    Kept [.out, .mbx, .pmu, .wake, .fw, .avail, .hubs, .dsd, .usd, .fo] s (execHostResumeK u ns s) := by
  intro j hj
  simp only [List.mem_cons, List.not_mem_nil, or_false, not_or] at hj
  obtain ⟨h_out, h_mbx, h_pmu, h_wake, h_fw, h_avail, h_hubs, h_dsd, h_usd, h_fo⟩ := hj
  simp [execHostResumeK, *]
theorem execHostU3Exit_kept (u : US) (s : State) :
    Kept [.out, .mbx, .pmu, .wake, .fw, .avail, .hubs, .dsd, .usd, .fo] s (execHostU3Exit u s) := by
  intro j hj
  simp only [List.mem_cons, List.not_mem_nil, or_false, not_or] at hj
  obtain ⟨h_out, h_mbx, h_pmu, h_wake, h_fw, h_avail, h_hubs, h_dsd, h_usd, h_fo⟩ := hj
  simp [execHostU3Exit, *]
theorem execDeviceRemoteWake_kept (d : DS) (ss : Bool) (ns : Nat) (s : State) :
    Kept [.out, .mbx, .pmu, .wake, .sup, .fw, .dsd] s (execDeviceRemoteWake d ss ns s) := by
  intro j hj
  simp only [List.mem_cons, List.not_mem_nil, or_false, not_or] at hj
  obtain ⟨h_out, h_mbx, h_pmu, h_wake, h_sup, h_fw, h_dsd⟩ := hj
  unfold execDeviceRemoteWake
  (try simp [*]) <;> repeat' ((first | split | intro _) <;> try simp [*])
theorem execHubEventRemoteWake_kept (d : DS) (ss : Bool) (ev : WakeEvent) (s : State) :
    Kept [.out, .mbx, .pmu, .wake, .sup, .fw, .usd] s (execHubEventRemoteWake d ss ev s) := by
  intro j hj
  simp only [List.mem_cons, List.not_mem_nil, or_false, not_or] at hj
  obtain ⟨h_out, h_mbx, h_pmu, h_wake, h_sup, h_fw, h_usd⟩ := hj
  unfold execHubEventRemoteWake
  (try simp [*]) <;> repeat' ((first | split | intro _) <;> try simp [*])
theorem execSsReceiverDetectStart_kept (d : DS) (s : State) :
    Kept [.out, .dsd] s (execSsReceiverDetectStart d s) := by
  intro j hj
  simp only [List.mem_cons, List.not_mem_nil, or_false, not_or] at hj
  obtain ⟨h_out, h_dsd⟩ := hj
  simp [execSsReceiverDetectStart, *]
theorem execUsb2Connect_kept (d : DS) (low : Bool) (ns : Nat) (s : State) :
    Kept [.out, .mbx, .hubs, .dsd, .vig] s (execUsb2Connect d low ns s) := by
  intro j hj
  simp only [List.mem_cons, List.not_mem_nil, or_false, not_or] at hj
  obtain ⟨h_out, h_mbx, h_hubs, h_dsd, h_vig⟩ := hj
  simp [execUsb2Connect, *]
theorem execSsLinkUp_kept (d : DS) (gen2 : Bool) (s : State) :
    Kept [.out, .mbx, .hubs, .dsd, .links, .vig] s (execSsLinkUp d gen2 s) := by
  intro j hj
  simp only [List.mem_cons, List.not_mem_nil, or_false, not_or] at hj
  obtain ⟨h_out, h_mbx, h_hubs, h_dsd, h_links, h_vig⟩ := hj
  simp [execSsLinkUp, *]
theorem execSsTrainingFail_kept (d : DS) (s : State) :
    Kept [.out, .hubs, .dsd] s (execSsTrainingFail d s) := by
  intro j hj
  simp only [List.mem_cons, List.not_mem_nil, or_false, not_or] at hj
  obtain ⟨h_out, h_hubs, h_dsd⟩ := hj
  simp [execSsTrainingFail, *]
theorem execIdentityProbe_kept (d : DS) (id : DevId) (s : State) :
    Kept [.out, .mbx, .hubs, .dsd, .vig] s (execIdentityProbe d id s) := by
  intro j hj
  simp only [List.mem_cons, List.not_mem_nil, or_false, not_or] at hj
  obtain ⟨h_out, h_mbx, h_hubs, h_dsd, h_vig⟩ := hj
  simp [execIdentityProbe, *]
theorem execUsb2Disconnect_kept (d : DS) (ns : Nat) (s : State) :
    Kept [.out, .mbx, .avail, .hubs, .dsd, .epqs, .links, .sched, .place, .fab, .u2d, .vig] s (execUsb2Disconnect d ns s) := by
  intro j hj
  simp only [List.mem_cons, List.not_mem_nil, or_false, not_or] at hj
  obtain ⟨h_out, h_mbx, h_avail, h_hubs, h_dsd, h_epqs, h_links, h_sched, h_place, h_fab, h_u2d, h_vig⟩ := hj
  simp [execUsb2Disconnect, *]
theorem execSsDisconnect_kept (d : DS) (noTerm : Bool) (s : State) :
    Kept [.out, .mbx, .avail, .hubs, .dsd, .epqs, .links, .sched, .place, .fab, .u2d, .vig] s (execSsDisconnect d noTerm s) := by
  intro j hj
  simp only [List.mem_cons, List.not_mem_nil, or_false, not_or] at hj
  obtain ⟨h_out, h_mbx, h_avail, h_hubs, h_dsd, h_epqs, h_links, h_sched, h_place, h_fab, h_u2d, h_vig⟩ := hj
  simp [execSsDisconnect, *]
theorem execCcPatternChange_kept (p : Port) (pattern : CcPattern) (flip : Bool) (s : State) :
    Kept [.out, .mbx, .pmu, .wake, .sup, .fw, .tc, .pwr] s (execCcPatternChange p pattern flip s) := by
  intro j hj
  simp only [List.mem_cons, List.not_mem_nil, or_false, not_or] at hj
  obtain ⟨h_out, h_mbx, h_pmu, h_wake, h_sup, h_fw, h_tc, h_pwr⟩ := hj
  unfold execCcPatternChange
  (try simp [*]) <;> repeat' ((first | split | intro _) <;> try simp [*])
theorem execCcAttachDebounce_kept (p : Port) (vbs : Nat) (wet : Option (Fin 4 × Nat)) (s : State) :
    Kept [.out, .now, .freeSeq, .mbx, .pmu, .wake, .sup, .fw, .avail, .hubs, .own, .dsd, .usd, .epqs, .links, .sched, .place,
      .fab, .u2d, .vig, .fo, .tc, .phy, .pwr, .lane, .guard, .dp, .test] s (execCcAttachDebounce p vbs wet s) := by
  intro j hj
  simp only [List.mem_cons, List.not_mem_nil, or_false, not_or] at hj
  obtain ⟨h_out, h_now, h_freeSeq, h_mbx, h_pmu, h_wake, h_sup, h_fw, h_avail, h_hubs, h_own, h_dsd, h_usd, h_epqs,
      h_links, h_sched, h_place, h_fab, h_u2d, h_vig, h_fo, h_tc, h_phy, h_pwr, h_lane, h_guard, h_dp, h_test⟩ := hj
  unfold execCcAttachDebounce
  (try simp [*]) <;> repeat' ((first | split | intro _) <;> try simp [*])
theorem execCcDetachDebounce_kept (p : Port) (s : State) :
    Kept [.out, .now, .mbx, .pmu, .fw, .avail, .hubs, .own, .dsd, .usd, .epqs, .links, .sched, .place, .fab, .u2d, .vig, .fo, .tc,
      .phy, .pwr, .lane, .dp] s (execCcDetachDebounce p s) := by
  intro j hj
  simp only [List.mem_cons, List.not_mem_nil, or_false, not_or] at hj
  obtain ⟨h_out, h_now, h_mbx, h_pmu, h_fw, h_avail, h_hubs, h_own, h_dsd, h_usd, h_epqs, h_links, h_sched, h_place,
      h_fab, h_u2d, h_vig, h_fo, h_tc, h_phy, h_pwr, h_lane, h_dp⟩ := hj
  unfold execCcDetachDebounce
  (try simp [*]) <;> repeat' ((first | split | intro _) <;> try simp [*])
theorem execErrorRecoveryEnd_kept (p : Port) (s : State) :
    Kept [.out, .now, .mbx, .tc] s (execErrorRecoveryEnd p s) := by
  intro j hj
  simp only [List.mem_cons, List.not_mem_nil, or_false, not_or] at hj
  obtain ⟨h_out, h_now, h_mbx, h_tc⟩ := hj
  unfold execErrorRecoveryEnd
  (try simp [*]) <;> repeat' ((first | split | intro _) <;> try simp [*])
theorem execDrpToggle_kept (u : US) (s : State) :
    Kept [.out, .now, .tc] s (execDrpToggle u s) := by
  intro j hj
  simp only [List.mem_cons, List.not_mem_nil, or_false, not_or] at hj
  obtain ⟨h_out, h_now, h_tc⟩ := hj
  simp [execDrpToggle, *]
theorem execDrpAttachDebounce_kept (u : US) (vbs : Nat) (s : State) :
    Kept [.out, .now, .freeSeq, .mbx, .avail, .hubs, .dsd, .usd, .epqs, .links, .sched, .place, .fab, .u2d, .vig, .tc, .phy, .pwr,
      .lane, .dp, .test] s (execDrpAttachDebounce u vbs s) := by
  intro j hj
  simp only [List.mem_cons, List.not_mem_nil, or_false, not_or] at hj
  obtain ⟨h_out, h_now, h_freeSeq, h_mbx, h_avail, h_hubs, h_dsd, h_usd, h_epqs, h_links, h_sched, h_place, h_fab,
      h_u2d, h_vig, h_tc, h_phy, h_pwr, h_lane, h_dp, h_test⟩ := hj
  unfold execDrpAttachDebounce
  (try simp [*]) <;> repeat' ((first | split | intro _) <;> try simp [*])
theorem execUsPartnerRpChange_kept (u : US) (level : Fin 4) (s : State) :
    Kept [.out, .tc] s (execUsPartnerRpChange u level s) := by
  intro j hj
  simp only [List.mem_cons, List.not_mem_nil, or_false, not_or] at hj
  obtain ⟨h_out, h_tc⟩ := hj
  simp [execUsPartnerRpChange, *]
theorem execUsSinkVbusLoss_kept (u : US) (s : State) :
    Kept [.out, .mbx, .pmu, .fw, .avail, .hubs, .own, .dsd, .usd, .epqs, .links, .sched, .place, .fab, .u2d, .vig, .fo, .tc, .phy,
      .pwr, .lane, .dp] s (execUsSinkVbusLoss u s) := by
  intro j hj
  simp only [List.mem_cons, List.not_mem_nil, or_false, not_or] at hj
  obtain ⟨h_out, h_mbx, h_pmu, h_fw, h_avail, h_hubs, h_own, h_dsd, h_usd, h_epqs, h_links, h_sched, h_place, h_fab,
      h_u2d, h_vig, h_fo, h_tc, h_phy, h_pwr, h_lane, h_dp⟩ := hj
  simp [execUsSinkVbusLoss, *]
theorem execHardwareDetachGuard_kept (p : Port) (s : State) :
    Kept [.out, .now, .tc, .pwr] s (execHardwareDetachGuard p s) := by
  intro j hj
  simp only [List.mem_cons, List.not_mem_nil, or_false, not_or] at hj
  obtain ⟨h_out, h_now, h_tc, h_pwr⟩ := hj
  unfold execHardwareDetachGuard
  (try simp [*]) <;> repeat' ((first | split | intro _) <;> try simp [*])
theorem execFastRemoval_kept (p : Port) (vbs : Nat) (s : State) :
    Kept [.out, .mbx, .pmu, .fw, .avail, .hubs, .own, .dsd, .usd, .epqs, .links, .sched, .place, .fab, .u2d, .vig, .fo, .tc, .phy,
      .pwr, .lane, .dp] s (execFastRemoval p vbs s) := by
  intro j hj
  simp only [List.mem_cons, List.not_mem_nil, or_false, not_or] at hj
  obtain ⟨h_out, h_mbx, h_pmu, h_fw, h_avail, h_hubs, h_own, h_dsd, h_usd, h_epqs, h_links, h_sched, h_place, h_fab,
      h_u2d, h_vig, h_fo, h_tc, h_phy, h_pwr, h_lane, h_dp⟩ := hj
  unfold execFastRemoval
  (try simp [*]) <;> repeat' ((first | split | intro _) <;> try simp [*])
theorem execVconnStable_kept (p : Port) (s : State) :
    Kept [.out, .now, .tc, .phy] s (execVconnStable p s) := by
  intro j hj
  simp only [List.mem_cons, List.not_mem_nil, or_false, not_or] at hj
  obtain ⟨h_out, h_now, h_tc, h_phy⟩ := hj
  unfold execVconnStable
  (try simp [*]) <;> repeat' ((first | split | intro _) <;> try simp [*])
theorem execDiscoverIdentityRetry_kept (p : Port) (s : State) :
    Kept [.out, .now, .tc, .phy, .pwr] s (execDiscoverIdentityRetry p s) := by
  intro j hj
  simp only [List.mem_cons, List.not_mem_nil, or_false, not_or] at hj
  obtain ⟨h_out, h_now, h_tc, h_phy, h_pwr⟩ := hj
  unfold execDiscoverIdentityRetry
  (try simp [*]) <;> repeat' ((first | split | intro _) <;> try simp [*])
theorem execDiscoveryCutoff_kept (p : Port) (s : State) :
    Kept [.out, .now, .tc, .phy, .pwr] s (execDiscoveryCutoff p s) := by
  intro j hj
  simp only [List.mem_cons, List.not_mem_nil, or_false, not_or] at hj
  obtain ⟨h_out, h_now, h_tc, h_phy, h_pwr⟩ := hj
  unfold execDiscoveryCutoff
  (try simp [*]) <;> repeat' ((first | split | intro _) <;> try simp [*])
theorem execPdMessageReceived_kept (p : Port) (sop : Fin 5) (header : BitVec 16) (data : List Byte) (crcOk : Bool)
    (s : State) :
    Kept [.out, .mbx, .pmu, .wake, .sup, .fw, .phy, .pwr] s (execPdMessageReceived p sop header data crcOk s) := by
  intro j hj
  simp only [List.mem_cons, List.not_mem_nil, or_false, not_or] at hj
  obtain ⟨h_out, h_mbx, h_pmu, h_wake, h_sup, h_fw, h_phy, h_pwr⟩ := hj
  simp [execPdMessageReceived, *]
theorem execPdTxHandover_kept (p : Port) (s : State) :
    Kept [.out, .phy] s (execPdTxHandover p s) := by
  intro j hj
  simp only [List.mem_cons, List.not_mem_nil, or_false, not_or] at hj
  obtain ⟨h_out, h_phy⟩ := hj
  unfold execPdTxHandover
  (try simp [*]) <;> repeat' ((first | split | intro _) <;> try simp [*])
theorem execPdTxGoodcrcTimeout_kept (p : Port) (s : State) :
    Kept [.out, .now, .mbx, .avail, .hubs, .dsd, .usd, .epqs, .links, .sched, .place, .fab, .u2d, .vig, .tc, .phy, .pwr, .lane,
      .dp] s (execPdTxGoodcrcTimeout p s) := by
  intro j hj
  simp only [List.mem_cons, List.not_mem_nil, or_false, not_or] at hj
  obtain ⟨h_out, h_now, h_mbx, h_avail, h_hubs, h_dsd, h_usd, h_epqs, h_links, h_sched, h_place, h_fab, h_u2d, h_vig,
      h_tc, h_phy, h_pwr, h_lane, h_dp⟩ := hj
  unfold execPdTxGoodcrcTimeout
  (try simp [*]) <;> repeat' ((first | split | intro _) <;> try simp [*])
theorem execPdTxDone_kept (p : Port) (s : State) :
    Kept [.out, .hubs, .usd, .tc, .phy, .pwr] s (execPdTxDone p s) := by
  intro j hj
  simp only [List.mem_cons, List.not_mem_nil, or_false, not_or] at hj
  obtain ⟨h_out, h_hubs, h_usd, h_tc, h_phy, h_pwr⟩ := hj
  unfold execPdTxDone
  (try simp [*]) <;> repeat' ((first | split | intro _) <;> try simp [*])
theorem execThymeNotice_kept (p : Port) (s : State) :
    Kept [.out, .mbx, .avail, .hubs, .dsd, .usd, .epqs, .links, .sched, .place, .fab, .u2d, .vig, .tc, .phy, .pwr, .lane, .dp] s (execThymeNotice p s) := by
  intro j hj
  simp only [List.mem_cons, List.not_mem_nil, or_false, not_or] at hj
  obtain ⟨h_out, h_mbx, h_avail, h_hubs, h_dsd, h_usd, h_epqs, h_links, h_sched, h_place, h_fab, h_u2d, h_vig, h_tc,
      h_phy, h_pwr, h_lane, h_dp⟩ := hj
  unfold execThymeNotice
  (try simp [*]) <;> repeat' ((first | split | intro _) <;> try simp [*])
theorem execHardResetReceived_kept (p : Port) (s : State) :
    Kept [.out, .mbx, .pmu, .wake, .sup, .fw, .avail, .hubs, .dsd, .usd, .epqs, .links, .sched, .place, .fab, .u2d, .vig, .tc,
      .phy, .pwr, .lane, .dp] s (execHardResetReceived p s) := by
  intro j hj
  simp only [List.mem_cons, List.not_mem_nil, or_false, not_or] at hj
  obtain ⟨h_out, h_mbx, h_pmu, h_wake, h_sup, h_fw, h_avail, h_hubs, h_dsd, h_usd, h_epqs, h_links, h_sched, h_place,
      h_fab, h_u2d, h_vig, h_tc, h_phy, h_pwr, h_lane, h_dp⟩ := hj
  simp [execHardResetReceived, *]
theorem execHardResetSent_kept (p : Port) (s : State) :
    Kept [.out, .mbx, .avail, .hubs, .dsd, .usd, .epqs, .links, .sched, .place, .fab, .u2d, .vig, .tc, .phy, .pwr, .lane, .dp] s (execHardResetSent p s) := by
  intro j hj
  simp only [List.mem_cons, List.not_mem_nil, or_false, not_or] at hj
  obtain ⟨h_out, h_mbx, h_avail, h_hubs, h_dsd, h_usd, h_epqs, h_links, h_sched, h_place, h_fab, h_u2d, h_vig, h_tc,
      h_phy, h_pwr, h_lane, h_dp⟩ := hj
  simp [execHardResetSent, *]
theorem execCableResetReceived_kept (u : US) (s : State) :
    Kept [.out, .phy] s (execCableResetReceived u s) := by
  intro j hj
  simp only [List.mem_cons, List.not_mem_nil, or_false, not_or] at hj
  obtain ⟨h_out, h_phy⟩ := hj
  simp [execCableResetReceived, *]
theorem execSoftResetReceived_kept (p : Port) (s : State) :
    Kept [.out, .phy, .pwr] s (execSoftResetReceived p s) := by
  intro j hj
  simp only [List.mem_cons, List.not_mem_nil, or_false, not_or] at hj
  obtain ⟨h_out, h_phy, h_pwr⟩ := hj
  simp [execSoftResetReceived, *]
theorem execThymeActivation_kept (t : Fin 6) (s : State) :
    Kept [.out, .mbx, .fw] s (execThymeActivation t s) := by
  intro j hj
  simp only [List.mem_cons, List.not_mem_nil, or_false, not_or] at hj
  obtain ⟨h_out, h_mbx, h_fw⟩ := hj
  unfold execThymeActivation
  ((try simp [*]) <;> repeat' ((first | split | intro _) <;> try simp [*])) <;> (cases j <;> first | rfl | contradiction)
theorem execGetRevision_kept (p : Port) (s : State) :
    Kept [.out, .phy] s (execGetRevision p s) := by
  intro j hj
  simp only [List.mem_cons, List.not_mem_nil, or_false, not_or] at hj
  obtain ⟨h_out, h_phy⟩ := hj
  simp [execGetRevision, *]
theorem execPdRequest_kept (p : Port) (s : State) :
    Kept [.out, .mbx, .avail, .hubs, .dsd, .usd, .epqs, .links, .sched, .place, .fab, .u2d, .vig, .tc, .phy, .pwr, .lane, .dp] s (execPdRequest p s) := by
  intro j hj
  simp only [List.mem_cons, List.not_mem_nil, or_false, not_or] at hj
  obtain ⟨h_out, h_mbx, h_avail, h_hubs, h_dsd, h_usd, h_epqs, h_links, h_sched, h_place, h_fab, h_u2d, h_vig, h_tc,
      h_phy, h_pwr, h_lane, h_dp⟩ := hj
  simp [execPdRequest, *]
theorem execBudgetReduction_kept (p : Port) (s : State) :
    Kept [.out, .now, .phy, .pwr] s (execBudgetReduction p s) := by
  intro j hj
  simp only [List.mem_cons, List.not_mem_nil, or_false, not_or] at hj
  obtain ⟨h_out, h_now, h_phy, h_pwr⟩ := hj
  unfold execBudgetReduction
  (try simp [*]) <;> repeat' ((first | split | intro _) <;> try simp [*])
theorem execReductionResponseTimeout_kept (p : Port) (s : State) :
    Kept [.out, .now, .mbx, .avail, .hubs, .dsd, .usd, .epqs, .links, .sched, .place, .fab, .u2d, .vig, .tc, .phy, .pwr, .lane,
      .dp] s (execReductionResponseTimeout p s) := by
  intro j hj
  simp only [List.mem_cons, List.not_mem_nil, or_false, not_or] at hj
  obtain ⟨h_out, h_now, h_mbx, h_avail, h_hubs, h_dsd, h_usd, h_epqs, h_links, h_sched, h_place, h_fab, h_u2d, h_vig,
      h_tc, h_phy, h_pwr, h_lane, h_dp⟩ := hj
  unfold execReductionResponseTimeout
  (try simp [*]) <;> repeat' ((first | split | intro _) <;> try simp [*])
theorem execSourceCapsSend_kept (p : Port) (s : State) :
    Kept [.out, .now, .phy, .pwr] s (execSourceCapsSend p s) := by
  intro j hj
  simp only [List.mem_cons, List.not_mem_nil, or_false, not_or] at hj
  obtain ⟨h_out, h_now, h_phy, h_pwr⟩ := hj
  unfold execSourceCapsSend
  (try simp [*]) <;> repeat' ((first | split | intro _) <;> try simp [*])
theorem execSourceCapsRetry_kept (p : Port) (s : State) :
    Kept [.out, .now, .phy, .pwr] s (execSourceCapsRetry p s) := by
  intro j hj
  simp only [List.mem_cons, List.not_mem_nil, or_false, not_or] at hj
  obtain ⟨h_out, h_now, h_phy, h_pwr⟩ := hj
  simp [execSourceCapsRetry, *]
theorem execSinkCapabilitiesReceived_kept (p : Port) (s : State) :
    Kept [.out, .mbx, .avail, .hubs, .dsd, .usd, .epqs, .links, .sched, .place, .fab, .u2d, .vig, .tc, .phy, .pwr, .lane, .dp] s (execSinkCapabilitiesReceived p s) := by
  intro j hj
  simp only [List.mem_cons, List.not_mem_nil, or_false, not_or] at hj
  obtain ⟨h_out, h_mbx, h_avail, h_hubs, h_dsd, h_usd, h_epqs, h_links, h_sched, h_place, h_fab, h_u2d, h_vig, h_tc,
      h_phy, h_pwr, h_lane, h_dp⟩ := hj
  simp [execSinkCapabilitiesReceived, *]
theorem execEprModeEnter_kept (p : Port) (s : State) :
    Kept [.out, .mbx, .phy, .pwr] s (execEprModeEnter p s) := by
  intro j hj
  simp only [List.mem_cons, List.not_mem_nil, or_false, not_or] at hj
  obtain ⟨h_out, h_mbx, h_phy, h_pwr⟩ := hj
  simp [execEprModeEnter, *]
theorem execEprModeExit_kept (p : Port) (s : State) :
    Kept [.out, .mbx, .phy, .pwr] s (execEprModeExit p s) := by
  intro j hj
  simp only [List.mem_cons, List.not_mem_nil, or_false, not_or] at hj
  obtain ⟨h_out, h_mbx, h_phy, h_pwr⟩ := hj
  simp [execEprModeExit, *]
theorem execEprKeepalive_kept (p : Port) (s : State) :
    Kept [.out, .phy] s (execEprKeepalive p s) := by
  intro j hj
  simp only [List.mem_cons, List.not_mem_nil, or_false, not_or] at hj
  obtain ⟨h_out, h_phy⟩ := hj
  simp [execEprKeepalive, *]
theorem execPpsTimeout_kept (p : Port) (s : State) :
    Kept [.out, .now, .mbx, .avail, .hubs, .dsd, .usd, .epqs, .links, .sched, .place, .fab, .u2d, .vig, .tc, .phy, .pwr, .lane,
      .dp] s (execPpsTimeout p s) := by
  intro j hj
  simp only [List.mem_cons, List.not_mem_nil, or_false, not_or] at hj
  obtain ⟨h_out, h_now, h_mbx, h_avail, h_hubs, h_dsd, h_usd, h_epqs, h_links, h_sched, h_place, h_fab, h_u2d, h_vig,
      h_tc, h_phy, h_pwr, h_lane, h_dp⟩ := hj
  simp [execPpsTimeout, *]
theorem execEprKeepaliveTimeout_kept (p : Port) (s : State) :
    Kept [.out, .now, .mbx, .avail, .hubs, .dsd, .usd, .epqs, .links, .sched, .place, .fab, .u2d, .vig, .tc, .phy, .pwr, .lane,
      .dp] s (execEprKeepaliveTimeout p s) := by
  intro j hj
  simp only [List.mem_cons, List.not_mem_nil, or_false, not_or] at hj
  obtain ⟨h_out, h_now, h_mbx, h_avail, h_hubs, h_dsd, h_usd, h_epqs, h_links, h_sched, h_place, h_fab, h_u2d, h_vig,
      h_tc, h_phy, h_pwr, h_lane, h_dp⟩ := hj
  simp [execEprKeepaliveTimeout, *]
theorem execGetSinkCapOnDs_kept (d : DS) (s : State) :
    Kept [.out, .phy] s (execGetSinkCapOnDs d s) := by
  intro j hj
  simp only [List.mem_cons, List.not_mem_nil, or_false, not_or] at hj
  obtain ⟨h_out, h_phy⟩ := hj
  simp [execGetSinkCapOnDs, *]
theorem execPrSwapReceived_kept (p : Port) (s : State) :
    Kept [.out, .mbx, .tc, .phy, .pwr] s (execPrSwapReceived p s) := by
  intro j hj
  simp only [List.mem_cons, List.not_mem_nil, or_false, not_or] at hj
  obtain ⟨h_out, h_mbx, h_tc, h_phy, h_pwr⟩ := hj
  unfold execPrSwapReceived
  rw [keptIn_next]
  refine (takeHand_only j _ _ _ _ (fun m t => ?_) h_phy).trans (by simp [*])
  split
  · simp [*]
  · refine meetSwap_only j _ _ _ (fun y => ?_) h_mbx h_tc h_phy h_pwr
    (try simp [*]) <;> repeat' ((first | split | intro _) <;> try simp [*])
theorem execDrSwapReceived_kept (p : Port) (s : State) :
    Kept [.out, .mbx, .tc, .phy, .pwr] s (execDrSwapReceived p s) := by
  intro j hj
  simp only [List.mem_cons, List.not_mem_nil, or_false, not_or] at hj
  obtain ⟨h_out, h_mbx, h_tc, h_phy, h_pwr⟩ := hj
  unfold execDrSwapReceived
  rw [keptIn_next]
  refine (takeHand_only j _ _ _ _ (fun m t => ?_) h_phy).trans (by simp [*])
  split
  · simp [*]
  · refine meetSwap_only j _ _ _ (fun y => ?_) h_mbx h_tc h_phy h_pwr
    (try simp [*]) <;> repeat' ((first | split | intro _) <;> try simp [*])
theorem execVconnSwapReceived_kept (p : Port) (s : State) :
    Kept [.out, .mbx, .tc, .phy, .pwr] s (execVconnSwapReceived p s) := by
  intro j hj
  simp only [List.mem_cons, List.not_mem_nil, or_false, not_or] at hj
  obtain ⟨h_out, h_mbx, h_tc, h_phy, h_pwr⟩ := hj
  unfold execVconnSwapReceived
  rw [keptIn_next]
  refine (takeHand_only j _ _ _ _ (fun m t => ?_) h_phy).trans (by simp [*])
  split
  · simp [*]
  · refine meetSwap_only j _ _ _ (fun y => ?_) h_mbx h_tc h_phy h_pwr
    (try simp [*]) <;> repeat' ((first | split | intro _) <;> try simp [*])
theorem execSwapResponseReceived_kept (u : US) (s : State) :
    Kept [.out, .mbx, .hubs, .usd, .tc, .phy, .pwr] s (execSwapResponseReceived u s) := by
  intro j hj
  simp only [List.mem_cons, List.not_mem_nil, or_false, not_or] at hj
  obtain ⟨h_out, h_mbx, h_hubs, h_usd, h_tc, h_phy, h_pwr⟩ := hj
  unfold execSwapResponseReceived
  rw [keptIn_next]
  refine (takeHand_only j _ _ _ _ (fun m t => ?_) h_phy).trans (by simp [*])
  (try simp [*]) <;> repeat' ((first | split | intro _) <;> try simp [*])
theorem execSwapWaitRetry_kept (u : US) (jitter : Fin 51) (s : State) :
    Kept [.out, .now, .tc, .phy, .pwr] s (execSwapWaitRetry u jitter s) := by
  intro j hj
  simp only [List.mem_cons, List.not_mem_nil, or_false, not_or] at hj
  obtain ⟨h_out, h_now, h_tc, h_phy, h_pwr⟩ := hj
  unfold execSwapWaitRetry
  (try simp [*]) <;> repeat' ((first | split | intro _) <;> try simp [*])
theorem execPrSwapSequence_kept (u : US) (s : State) :
    Kept [.out, .now, .mbx, .avail, .hubs, .dsd, .usd, .epqs, .links, .sched, .place, .fab, .u2d, .vig, .tc, .phy, .pwr, .lane,
      .dp] s (execPrSwapSequence u s) := by
  intro j hj
  simp only [List.mem_cons, List.not_mem_nil, or_false, not_or] at hj
  obtain ⟨h_out, h_now, h_mbx, h_avail, h_hubs, h_dsd, h_usd, h_epqs, h_links, h_sched, h_place, h_fab, h_u2d, h_vig,
      h_tc, h_phy, h_pwr, h_lane, h_dp⟩ := hj
  unfold execPrSwapSequence
  (try simp [*]) <;> repeat' ((first | split | intro _) <;> try simp [*])
theorem execDataRoleSwapRequest_kept (u : US) (s : State) :
    Kept [.out, .tc, .phy, .pwr] s (execDataRoleSwapRequest u s) := by
  intro j hj
  simp only [List.mem_cons, List.not_mem_nil, or_false, not_or] at hj
  obtain ⟨h_out, h_tc, h_phy, h_pwr⟩ := hj
  simp [execDataRoleSwapRequest, *]
theorem execFrsSignal_kept (u : US) (s : State) :
    Kept [.out, .mbx, .phy, .pwr] s (execFrsSignal u s) := by
  intro j hj
  simp only [List.mem_cons, List.not_mem_nil, or_false, not_or] at hj
  obtain ⟨h_out, h_mbx, h_phy, h_pwr⟩ := hj
  simp [execFrsSignal, *]
theorem execFrSwapReceived_kept (u : US) (s : State) :
    Kept [.out, .mbx, .avail, .hubs, .dsd, .usd, .epqs, .links, .sched, .place, .fab, .u2d, .vig, .tc, .phy, .pwr, .lane, .dp] s (execFrSwapReceived u s) := by
  intro j hj
  simp only [List.mem_cons, List.not_mem_nil, or_false, not_or] at hj
  obtain ⟨h_out, h_mbx, h_avail, h_hubs, h_dsd, h_usd, h_epqs, h_links, h_sched, h_place, h_fab, h_u2d, h_vig, h_tc,
      h_phy, h_pwr, h_lane, h_dp⟩ := hj
  simp [execFrSwapReceived, *]
theorem execFrSwapInitTimeout_kept (u : US) (s : State) :
    Kept [.out, .now, .mbx, .pmu, .fw, .avail, .hubs, .own, .dsd, .usd, .epqs, .links, .sched, .place, .fab, .u2d, .vig, .fo, .tc,
      .phy, .pwr, .lane, .dp] s (execFrSwapInitTimeout u s) := by
  intro j hj
  simp only [List.mem_cons, List.not_mem_nil, or_false, not_or] at hj
  obtain ⟨h_out, h_now, h_mbx, h_pmu, h_fw, h_avail, h_hubs, h_own, h_dsd, h_usd, h_epqs, h_links, h_sched, h_place,
      h_fab, h_u2d, h_vig, h_fo, h_tc, h_phy, h_pwr, h_lane, h_dp⟩ := hj
  unfold execFrSwapInitTimeout
  (try simp [*]) <;> repeat' ((first | split | intro _) <;> try simp [*])
theorem execTransitionLimitsWrite_kept (p : Port) (s : State) :
    Kept [.out, .now, .pwr] s (execTransitionLimitsWrite p s) := by
  intro j hj
  simp only [List.mem_cons, List.not_mem_nil, or_false, not_or] at hj
  obtain ⟨h_out, h_now, h_pwr⟩ := hj
  unfold execTransitionLimitsWrite
  (try simp [*]) <;> repeat' ((first | split | intro _) <;> try simp [*])
theorem execAdcConversion_kept (volts : List Nat) (s : State) :
    Kept [.out, .now, .mbx, .avail, .hubs, .dsd, .usd, .epqs, .links, .sched, .place, .fab, .u2d, .vig, .tc, .phy, .pwr, .lane,
      .dp] s (execAdcConversion volts s) := by
  intro j hj
  simp only [List.mem_cons, List.not_mem_nil, or_false, not_or] at hj
  obtain ⟨h_out, h_now, h_mbx, h_avail, h_hubs, h_dsd, h_usd, h_epqs, h_links, h_sched, h_place, h_fab, h_u2d, h_vig,
      h_tc, h_phy, h_pwr, h_lane, h_dp⟩ := hj
  unfold execAdcConversion
  (try simp [*]) <;> repeat' ((first | split | intro _) <;> try simp [*])
theorem execTransitionTimeout_kept (p : Port) (s : State) :
    Kept [.out, .now, .freeSeq, .mbx, .flt, .alm, .pmu, .clk, .fw, .avail, .hubs, .dsd, .usd, .epqs, .links, .sched, .place,
      .memb, .fab, .u2d, .vig, .tc, .phy, .pwr, .lane, .dp, .lio, .test] s (execTransitionTimeout p s) := by
  intro j hj
  simp only [List.mem_cons, List.not_mem_nil, or_false, not_or] at hj
  obtain ⟨h_out, h_now, h_freeSeq, h_mbx, h_flt, h_alm, h_pmu, h_clk, h_fw, h_avail, h_hubs, h_dsd, h_usd, h_epqs,
      h_links, h_sched, h_place, h_memb, h_fab, h_u2d, h_vig, h_tc, h_phy, h_pwr, h_lane, h_dp, h_lio, h_test⟩ := hj
  unfold execTransitionTimeout
  (try simp [*]) <;> repeat' ((first | split | intro _) <;> try simp [*])
theorem execVbusOvpTrip_kept (p : Port) (s : State) :
    Kept [.out, .freeSeq, .mbx, .flt, .alm, .pmu, .clk, .fw, .avail, .hubs, .dsd, .usd, .epqs, .links, .sched, .place, .memb,
      .fab, .u2d, .vig, .tc, .phy, .pwr, .dp, .lio, .test] s (execVbusOvpTrip p s) := by
  intro j hj
  simp only [List.mem_cons, List.not_mem_nil, or_false, not_or] at hj
  obtain ⟨h_out, h_freeSeq, h_mbx, h_flt, h_alm, h_pmu, h_clk, h_fw, h_avail, h_hubs, h_dsd, h_usd, h_epqs, h_links,
      h_sched, h_place, h_memb, h_fab, h_u2d, h_vig, h_tc, h_phy, h_pwr, h_dp, h_lio, h_test⟩ := hj
  simp [execVbusOvpTrip, *]
theorem execVbusUvpTrip_kept (p : Port) (s : State) :
    Kept [.out, .mbx, .avail, .hubs, .dsd, .usd, .epqs, .links, .sched, .place, .fab, .u2d, .vig, .tc, .phy, .pwr, .lane, .dp] s (execVbusUvpTrip p s) := by
  intro j hj
  simp only [List.mem_cons, List.not_mem_nil, or_false, not_or] at hj
  obtain ⟨h_out, h_mbx, h_avail, h_hubs, h_dsd, h_usd, h_epqs, h_links, h_sched, h_place, h_fab, h_u2d, h_vig, h_tc,
      h_phy, h_pwr, h_lane, h_dp⟩ := hj
  simp [execVbusUvpTrip, *]
theorem execPsfRise_kept (p : Port) (status : Byte) (s : State) :
    Kept [.out, .freeSeq, .mbx, .flt, .alm, .pmu, .clk, .wake, .sup, .fw, .avail, .hubs, .dsd, .usd, .epqs, .links, .sched,
      .place, .memb, .fab, .u2d, .vig, .tc, .phy, .pwr, .lane, .dp, .lio, .test] s (execPsfRise p status s) := by
  intro j hj
  simp only [List.mem_cons, List.not_mem_nil, or_false, not_or] at hj
  obtain ⟨h_out, h_freeSeq, h_mbx, h_flt, h_alm, h_pmu, h_clk, h_wake, h_sup, h_fw, h_avail, h_hubs, h_dsd, h_usd,
      h_epqs, h_links, h_sched, h_place, h_memb, h_fab, h_u2d, h_vig, h_tc, h_phy, h_pwr, h_lane, h_dp, h_lio,
      h_test⟩ := hj
  simp [execPsfRise, *]
theorem execStageOcShutdown_kept (p : Port) (s : State) :
    Kept [.out, .mbx, .pmu, .wake, .sup, .fw, .avail, .hubs, .dsd, .usd, .epqs, .links, .sched, .place, .fab, .u2d, .vig, .tc,
      .phy, .pwr, .lane, .dp] s (execStageOcShutdown p s) := by
  intro j hj
  simp only [List.mem_cons, List.not_mem_nil, or_false, not_or] at hj
  obtain ⟨h_out, h_mbx, h_pmu, h_wake, h_sup, h_fw, h_avail, h_hubs, h_dsd, h_usd, h_epqs, h_links, h_sched, h_place,
      h_fab, h_u2d, h_vig, h_tc, h_phy, h_pwr, h_lane, h_dp⟩ := hj
  simp [execStageOcShutdown, *]
theorem execStageStatusPoll_kept (p : Port) (status : BitVec 16) (tries : Nat) (s : State) :
    Kept [.out, .freeSeq, .mbx, .flt, .alm, .pmu, .clk, .fw, .avail, .hubs, .dsd, .usd, .epqs, .links, .sched, .place, .memb,
      .fab, .u2d, .vig, .tc, .phy, .pwr, .lane, .dp, .lio, .test] s (execStageStatusPoll p status tries s) := by
  intro j hj
  simp only [List.mem_cons, List.not_mem_nil, or_false, not_or] at hj
  obtain ⟨h_out, h_freeSeq, h_mbx, h_flt, h_alm, h_pmu, h_clk, h_fw, h_avail, h_hubs, h_dsd, h_usd, h_epqs, h_links,
      h_sched, h_place, h_memb, h_fab, h_u2d, h_vig, h_tc, h_phy, h_pwr, h_lane, h_dp, h_lio, h_test⟩ := hj
  simp [execStageStatusPoll, *]
theorem execStageVoutIoutPoll_kept (p : Port) (vout iout tries : Nat) (s : State) :
    Kept [.out, .freeSeq, .mbx, .flt, .alm, .pmu, .clk, .fw, .avail, .hubs, .dsd, .usd, .epqs, .links, .sched, .place, .memb,
      .fab, .u2d, .vig, .tc, .phy, .pwr, .dp, .lio, .test] s (execStageVoutIoutPoll p vout iout tries s) := by
  intro j hj
  simp only [List.mem_cons, List.not_mem_nil, or_false, not_or] at hj
  obtain ⟨h_out, h_freeSeq, h_mbx, h_flt, h_alm, h_pmu, h_clk, h_fw, h_avail, h_hubs, h_dsd, h_usd, h_epqs, h_links,
      h_sched, h_place, h_memb, h_fab, h_u2d, h_vig, h_tc, h_phy, h_pwr, h_dp, h_lio, h_test⟩ := hj
  simp [execStageVoutIoutPoll, *]
theorem execStageTempPoll_kept (p : Port) (temp : ℤ) (tries : Nat) (s : State) :
    Kept [.out, .freeSeq, .mbx, .flt, .alm, .pmu, .clk, .fw, .avail, .hubs, .dsd, .usd, .epqs, .links, .sched, .place, .memb,
      .fab, .u2d, .vig, .tc, .phy, .pwr, .dp, .lio, .test] s (execStageTempPoll p temp tries s) := by
  intro j hj
  simp only [List.mem_cons, List.not_mem_nil, or_false, not_or] at hj
  obtain ⟨h_out, h_freeSeq, h_mbx, h_flt, h_alm, h_pmu, h_clk, h_fw, h_avail, h_hubs, h_dsd, h_usd, h_epqs, h_links,
      h_sched, h_place, h_memb, h_fab, h_u2d, h_vig, h_tc, h_phy, h_pwr, h_dp, h_lio, h_test⟩ := hj
  simp [execStageTempPoll, *]
theorem execPsi2cBusStuck_kept (s : State) :
    Kept [.out, .freeSeq, .mbx, .flt, .alm, .pmu, .clk, .fw, .avail, .hubs, .dsd, .usd, .epqs, .links, .sched, .place, .memb,
      .fab, .u2d, .vig, .tc, .phy, .pwr, .dp, .lio, .test] s (execPsi2cBusStuck s) := by
  intro j hj
  simp only [List.mem_cons, List.not_mem_nil, or_false, not_or] at hj
  obtain ⟨h_out, h_freeSeq, h_mbx, h_flt, h_alm, h_pmu, h_clk, h_fw, h_avail, h_hubs, h_dsd, h_usd, h_epqs, h_links,
      h_sched, h_place, h_memb, h_fab, h_u2d, h_vig, h_tc, h_phy, h_pwr, h_dp, h_lio, h_test⟩ := hj
  simp [execPsi2cBusStuck, *]
theorem execHardResetVbusOff_kept (p : Port) (s : State) :
    Kept [.out, .now, .mbx, .avail, .hubs, .dsd, .usd, .epqs, .links, .sched, .place, .fab, .u2d, .vig, .tc, .pwr] s (execHardResetVbusOff p s) := by
  intro j hj
  simp only [List.mem_cons, List.not_mem_nil, or_false, not_or] at hj
  obtain ⟨h_out, h_now, h_mbx, h_avail, h_hubs, h_dsd, h_usd, h_epqs, h_links, h_sched, h_place, h_fab, h_u2d, h_vig,
      h_tc, h_pwr⟩ := hj
  unfold execHardResetVbusOff
  (try simp [*]) <;> repeat' ((first | split | intro _) <;> try simp [*])
theorem execHardResetRecover_kept (p : Port) (s : State) :
    Kept [.out, .now, .hubs, .tc, .pwr] s (execHardResetRecover p s) := by
  intro j hj
  simp only [List.mem_cons, List.not_mem_nil, or_false, not_or] at hj
  obtain ⟨h_out, h_now, h_hubs, h_tc, h_pwr⟩ := hj
  unfold execHardResetRecover
  (try simp [*]) <;> repeat' ((first | split | intro _) <;> try simp [*])
theorem execGuardReading_kept (p : Port) (first again : List Nat) (b : BootIn) (s : State) :
    Kept [.out, .now, .freeSeq, .mbx, .flt, .alm, .pmu, .clk, .wake, .sup, .fw, .avail, .hubs, .own, .dsd, .usd, .epqs, .links,
      .sched, .place, .memb, .fab, .u2d, .u2u, .vig, .fo, .tc, .phy, .pwr, .lane, .guard, .dp, .lio, .test] s (execGuardReading p first again b s) := by
  intro j hj
  simp only [List.mem_cons, List.not_mem_nil, or_false, not_or] at hj
  obtain ⟨h_out, h_now, h_freeSeq, h_mbx, h_flt, h_alm, h_pmu, h_clk, h_wake, h_sup, h_fw, h_avail, h_hubs, h_own,
      h_dsd, h_usd, h_epqs, h_links, h_sched, h_place, h_memb, h_fab, h_u2d, h_u2u, h_vig, h_fo, h_tc, h_phy, h_pwr,
      h_lane, h_guard, h_dp, h_lio, h_test⟩ := hj
  simp [execGuardReading, *]
theorem execGuardWeekEnd_kept (s : State) :
    Kept [.out, .now, .lane, .guard] s (execGuardWeekEnd s) := by
  intro j hj
  simp only [List.mem_cons, List.not_mem_nil, or_false, not_or] at hj
  obtain ⟨h_out, h_now, h_lane, h_guard⟩ := hj
  simp [execGuardWeekEnd, *]
theorem execDpVdmAck_kept (d : DS) (s : State) :
    Kept [.out, .mbx, .avail, .hubs, .dsd, .epqs, .links, .sched, .place, .fab, .u2d, .vig, .phy, .dp] s (execDpVdmAck d s) := by
  intro j hj
  simp only [List.mem_cons, List.not_mem_nil, or_false, not_or] at hj
  obtain ⟨h_out, h_mbx, h_avail, h_hubs, h_dsd, h_epqs, h_links, h_sched, h_place, h_fab, h_u2d, h_vig, h_phy,
      h_dp⟩ := hj
  unfold execDpVdmAck
  rw [keptIn_next]
  refine (takeHand_only j _ _ _ _ (fun m t => ?_) h_phy).trans (by simp [*])
  (try simp [*]) <;> repeat' ((first | split | intro _) <;> try simp [*])
theorem execDpEntryStart_kept (d : DS) (s : State) :
    Kept [.out, .now, .phy, .dp] s (execDpEntryStart d s) := by
  intro j hj
  simp only [List.mem_cons, List.not_mem_nil, or_false, not_or] at hj
  obtain ⟨h_out, h_now, h_phy, h_dp⟩ := hj
  unfold execDpEntryStart
  (try simp [*]) <;> repeat' ((first | split | intro _) <;> try simp [*])
theorem execDpVdmTimeout_kept (d : DS) (s : State) :
    Kept [.out, .now, .mbx, .phy, .dp] s (execDpVdmTimeout d s) := by
  intro j hj
  simp only [List.mem_cons, List.not_mem_nil, or_false, not_or] at hj
  obtain ⟨h_out, h_now, h_mbx, h_phy, h_dp⟩ := hj
  unfold execDpVdmTimeout
  (try simp [*]) <;> repeat' ((first | split | intro _) <;> try simp [*])
theorem execDpAttention_kept (d : DS) (s : State) :
    Kept [.out, .phy, .dp] s (execDpAttention d s) := by
  intro j hj
  simp only [List.mem_cons, List.not_mem_nil, or_false, not_or] at hj
  obtain ⟨h_out, h_phy, h_dp⟩ := hj
  unfold execDpAttention
  rw [keptIn_next]
  refine (takeHand_only j _ _ _ _ (fun m t => ?_) h_phy).trans (by simp [*])
  (try simp [*]) <;> repeat' ((first | split | intro _) <;> try simp [*])
theorem execHpdTimer_kept (i : Fin 2) (s : State) :
    Kept [.out, .now, .dp] s (execHpdTimer i s) := by
  intro j hj
  simp only [List.mem_cons, List.not_mem_nil, or_false, not_or] at hj
  obtain ⟨h_out, h_now, h_dp⟩ := hj
  unfold execHpdTimer
  (try simp [*]) <;> repeat' ((first | split | intro _) <;> try simp [*])
theorem execDpExitMode_kept (d : DS) (s : State) :
    Kept [.out, .mbx, .phy, .dp] s (execDpExitMode d s) := by
  intro j hj
  simp only [List.mem_cons, List.not_mem_nil, or_false, not_or] at hj
  obtain ⟨h_out, h_mbx, h_phy, h_dp⟩ := hj
  unfold execDpExitMode
  rw [keptIn_next]
  refine (takeHand_only j _ _ _ _ (fun m t => ?_) h_phy).trans (by simp [*])
  (try simp [*]) <;> repeat' ((first | split | intro _) <;> try simp [*])
theorem execKickPulseEnd_kept (i : Fin 2) (s : State) :
    Kept [.out, .now, .mbx, .lio] s (execKickPulseEnd i s) := by
  intro j hj
  simp only [List.mem_cons, List.not_mem_nil, or_false, not_or] at hj
  obtain ⟨h_out, h_now, h_mbx, h_lio⟩ := hj
  unfold execKickPulseEnd
  (try simp [*]) <;> repeat' ((first | split | intro _) <;> try simp [*])
theorem execDrawerReport_kept (i : Fin 2) (s : State) :
    Kept [.out, .now, .mbx, .lio] s (execDrawerReport i s) := by
  intro j hj
  simp only [List.mem_cons, List.not_mem_nil, or_false, not_or] at hj
  obtain ⟨h_out, h_now, h_mbx, h_lio⟩ := hj
  unfold execDrawerReport
  dsimp only
  (repeat' split) <;> (try rw [keptIn_next]) <;> (repeat' split) <;> first
    | (simp [*]; done)
    | (cases j <;> first | rfl | contradiction)
theorem execLioSenseChange_kept (n : Fin 2) (level : Bool) (b : BootIn) (s : State) :
    Kept [.out, .now, .freeSeq, .mbx, .flt, .alm, .pmu, .clk, .wake, .sup, .fw, .avail, .hubs, .own, .dsd, .usd, .epqs, .links,
      .sched, .place, .memb, .fab, .u2d, .u2u, .vig, .fo, .tc, .phy, .pwr, .lane, .dp, .lio, .test] s (execLioSenseChange n level b s) := by
  intro j hj
  simp only [List.mem_cons, List.not_mem_nil, or_false, not_or] at hj
  obtain ⟨h_out, h_now, h_freeSeq, h_mbx, h_flt, h_alm, h_pmu, h_clk, h_wake, h_sup, h_fw, h_avail, h_hubs, h_own,
      h_dsd, h_usd, h_epqs, h_links, h_sched, h_place, h_memb, h_fab, h_u2d, h_u2u, h_vig, h_fo, h_tc, h_phy, h_pwr,
      h_lane, h_dp, h_lio, h_test⟩ := hj
  unfold execLioSenseChange
  ((try simp [*]) <;> repeat' ((first | split | intro _) <;> try simp [*])) <;> (cases j <;> first | rfl | contradiction)
theorem execGpioEdge_kept (n : Fin 16) (rising : Bool) (s : State) :
    Kept [.out, .mbx, .lio] s (execGpioEdge n rising s) := by
  intro j hj
  simp only [List.mem_cons, List.not_mem_nil, or_false, not_or] at hj
  obtain ⟨h_out, h_mbx, h_lio⟩ := hj
  unfold execGpioEdge
  ((try simp [*]) <;> repeat' ((first | split | intro _) <;> try simp [*])) <;> (cases j <;> first | rfl | contradiction)
theorem execFaultLatch_kept (b : Block) (src : Fin 32) (unit : Nat) (persistent : Bool) (s : State) :
    Kept [.out, .freeSeq, .mbx, .flt, .alm, .pmu, .clk, .fw, .avail, .hubs, .dsd, .usd, .epqs, .links, .sched, .place, .memb,
      .fab, .u2d, .vig, .tc, .phy, .pwr, .dp, .lio, .test] s (execFaultLatch b src unit persistent s) := by
  intro j hj
  simp only [List.mem_cons, List.not_mem_nil, or_false, not_or] at hj
  obtain ⟨h_out, h_freeSeq, h_mbx, h_flt, h_alm, h_pmu, h_clk, h_fw, h_avail, h_hubs, h_dsd, h_usd, h_epqs, h_links,
      h_sched, h_place, h_memb, h_fab, h_u2d, h_vig, h_tc, h_phy, h_pwr, h_dp, h_lio, h_test⟩ := hj
  simp [execFaultLatch, *]
theorem execLevelFaultRepeat_kept (b : Block) (src : Fin 32) (lasts : Bool) (s : State) :
    Kept [.out, .now, .freeSeq, .mbx, .flt, .alm, .pmu, .clk, .sup, .fw, .avail, .hubs, .dsd, .usd, .epqs, .links, .sched, .place,
      .memb, .fab, .u2d, .vig, .tc, .phy, .pwr, .dp, .lio, .test] s (execLevelFaultRepeat b src lasts s) := by
  intro j hj
  simp only [List.mem_cons, List.not_mem_nil, or_false, not_or] at hj
  obtain ⟨h_out, h_now, h_freeSeq, h_mbx, h_flt, h_alm, h_pmu, h_clk, h_sup, h_fw, h_avail, h_hubs, h_dsd, h_usd,
      h_epqs, h_links, h_sched, h_place, h_memb, h_fab, h_u2d, h_vig, h_tc, h_phy, h_pwr, h_dp, h_lio, h_test⟩ := hj
  unfold execLevelFaultRepeat
  (try simp [*]) <;> repeat' ((first | split | intro _) <;> try simp [*])
theorem execSageLockstepMismatch_kept (s : State) :
    Kept [.out, .freeSeq, .mbx, .flt, .alm, .pmu, .clk, .sup, .fw, .avail, .hubs, .dsd, .usd, .epqs, .links, .sched, .place,
      .memb, .fab, .u2d, .vig, .tc, .phy, .pwr, .dp, .lio, .test] s (execSageLockstepMismatch s) := by
  intro j hj
  simp only [List.mem_cons, List.not_mem_nil, or_false, not_or] at hj
  obtain ⟨h_out, h_freeSeq, h_mbx, h_flt, h_alm, h_pmu, h_clk, h_sup, h_fw, h_avail, h_hubs, h_dsd, h_usd, h_epqs,
      h_links, h_sched, h_place, h_memb, h_fab, h_u2d, h_vig, h_tc, h_phy, h_pwr, h_dp, h_lio, h_test⟩ := hj
  simp [execSageLockstepMismatch, *]
theorem execSageWatchdog_kept (ms : Nat) (s : State) :
    Kept [.out, .freeSeq, .mbx, .flt, .alm, .pmu, .clk, .fw, .avail, .hubs, .dsd, .usd, .epqs, .links, .sched, .place, .memb,
      .fab, .u2d, .vig, .tc, .phy, .pwr, .dp, .lio, .test] s (execSageWatchdog ms s) := by
  intro j hj
  simp only [List.mem_cons, List.not_mem_nil, or_false, not_or] at hj
  obtain ⟨h_out, h_freeSeq, h_mbx, h_flt, h_alm, h_pmu, h_clk, h_fw, h_avail, h_hubs, h_dsd, h_usd, h_epqs, h_links,
      h_sched, h_place, h_memb, h_fab, h_u2d, h_vig, h_tc, h_phy, h_pwr, h_dp, h_lio, h_test⟩ := hj
  simp [execSageWatchdog, *]
theorem execSageTaskLate_kept (service : Nat) (s : State) :
    Kept [.out, .freeSeq, .mbx, .flt, .alm, .pmu, .clk, .fw, .avail, .hubs, .dsd, .usd, .epqs, .links, .sched, .place, .memb,
      .fab, .u2d, .vig, .tc, .phy, .pwr, .dp, .lio, .test] s (execSageTaskLate service s) := by
  intro j hj
  simp only [List.mem_cons, List.not_mem_nil, or_false, not_or] at hj
  obtain ⟨h_out, h_freeSeq, h_mbx, h_flt, h_alm, h_pmu, h_clk, h_fw, h_avail, h_hubs, h_dsd, h_usd, h_epqs, h_links,
      h_sched, h_place, h_memb, h_fab, h_u2d, h_vig, h_tc, h_phy, h_pwr, h_dp, h_lio, h_test⟩ := hj
  simp [execSageTaskLate, *]
theorem execChervilHang_kept (c : Fin 8) (us : Nat) (s : State) :
    Kept [.out, .freeSeq, .mbx, .flt, .alm, .pmu, .clk, .fw, .avail, .hubs, .dsd, .usd, .epqs, .links, .sched, .place, .memb,
      .fab, .u2d, .vig, .tc, .phy, .pwr, .dp, .lio, .test] s (execChervilHang c us s) := by
  intro j hj
  simp only [List.mem_cons, List.not_mem_nil, or_false, not_or] at hj
  obtain ⟨h_out, h_freeSeq, h_mbx, h_flt, h_alm, h_pmu, h_clk, h_fw, h_avail, h_hubs, h_dsd, h_usd, h_epqs, h_links,
      h_sched, h_place, h_memb, h_fab, h_u2d, h_vig, h_tc, h_phy, h_pwr, h_dp, h_lio, h_test⟩ := hj
  simp [execChervilHang, *]
theorem execThymeHang_kept (t : Fin 6) (us : Nat) (s : State) :
    Kept [.out, .freeSeq, .mbx, .flt, .alm, .pmu, .clk, .fw, .avail, .hubs, .dsd, .usd, .epqs, .links, .sched, .place, .memb,
      .fab, .u2d, .vig, .tc, .phy, .pwr, .dp, .lio, .test] s (execThymeHang t us s) := by
  intro j hj
  simp only [List.mem_cons, List.not_mem_nil, or_false, not_or] at hj
  obtain ⟨h_out, h_freeSeq, h_mbx, h_flt, h_alm, h_pmu, h_clk, h_fw, h_avail, h_hubs, h_dsd, h_usd, h_epqs, h_links,
      h_sched, h_place, h_memb, h_fab, h_u2d, h_vig, h_tc, h_phy, h_pwr, h_dp, h_lio, h_test⟩ := hj
  simp [execThymeHang, *]
theorem execFabArbStall_kept (us : Nat) (s : State) :
    Kept [.out, .freeSeq, .mbx, .flt, .alm, .pmu, .clk, .fw, .avail, .hubs, .dsd, .usd, .epqs, .links, .sched, .place, .memb,
      .fab, .u2d, .vig, .tc, .phy, .pwr, .dp, .lio, .test] s (execFabArbStall us s) := by
  intro j hj
  simp only [List.mem_cons, List.not_mem_nil, or_false, not_or] at hj
  obtain ⟨h_out, h_freeSeq, h_mbx, h_flt, h_alm, h_pmu, h_clk, h_fw, h_avail, h_hubs, h_dsd, h_usd, h_epqs, h_links,
      h_sched, h_place, h_memb, h_fab, h_u2d, h_vig, h_tc, h_phy, h_pwr, h_dp, h_lio, h_test⟩ := hj
  simp [execFabArbStall, *]
theorem execTjSample_kept (tenths : ℤ) (s : State) :
    Kept [.out, .freeSeq, .mbx, .flt, .alm, .pmu, .clk, .fw, .avail, .hubs, .dsd, .usd, .epqs, .links, .sched, .place, .memb,
      .fab, .u2d, .vig, .tc, .phy, .pwr, .dp, .lio, .test, .therm] s (execTjSample tenths s) := by
  intro j hj
  simp only [List.mem_cons, List.not_mem_nil, or_false, not_or] at hj
  obtain ⟨h_out, h_freeSeq, h_mbx, h_flt, h_alm, h_pmu, h_clk, h_fw, h_avail, h_hubs, h_dsd, h_usd, h_epqs, h_links,
      h_sched, h_place, h_memb, h_fab, h_u2d, h_vig, h_tc, h_phy, h_pwr, h_dp, h_lio, h_test, h_therm⟩ := hj
  unfold execTjSample
  ((try simp [*]) <;> repeat' ((first | split | intro _) <;> try simp [*])) <;> (cases j <;> first | rfl | contradiction)
theorem execSafeEntry_kept (dmcOk : Bool) (s : State) :
    Kept [.out, .mbx, .flt, .pmu, .sup, .fw, .avail, .hubs, .dsd, .usd, .epqs, .links, .sched, .place, .fab, .u2d, .vig, .tc,
      .phy, .pwr, .dp, .lio, .test] s (execSafeEntry dmcOk s) := by
  intro j hj
  simp only [List.mem_cons, List.not_mem_nil, or_false, not_or] at hj
  obtain ⟨h_out, h_mbx, h_flt, h_pmu, h_sup, h_fw, h_avail, h_hubs, h_dsd, h_usd, h_epqs, h_links, h_sched, h_place,
      h_fab, h_u2d, h_vig, h_tc, h_phy, h_pwr, h_dp, h_lio, h_test⟩ := hj
  unfold execSafeEntry
  (try simp [*]) <;> repeat' ((first | split | intro _) <;> try simp [*])
theorem execSafeExit_kept (b : BootIn) (s : State) :
    Kept [.out, .now, .freeSeq, .mbx, .flt, .alm, .pmu, .reg, .clk, .wake, .sup, .fw, .avail, .hubs, .own, .dsd, .usd, .epqs,
      .links, .sched, .place, .memb, .fab, .u2d, .u2u, .vig, .fo, .tc, .phy, .pwr, .lane, .dp, .lio, .test] s (execSafeExit b s) := by
  intro j hj
  simp only [List.mem_cons, List.not_mem_nil, or_false, not_or] at hj
  obtain ⟨h_out, h_now, h_freeSeq, h_mbx, h_flt, h_alm, h_pmu, h_reg, h_clk, h_wake, h_sup, h_fw, h_avail, h_hubs,
      h_own, h_dsd, h_usd, h_epqs, h_links, h_sched, h_place, h_memb, h_fab, h_u2d, h_u2u, h_vig, h_fo, h_tc, h_phy,
      h_pwr, h_lane, h_dp, h_lio, h_test⟩ := hj
  unfold execSafeExit
  dsimp only
  (repeat' split) <;> (try rw [keptIn_next]) <;> (repeat' split) <;> first
    | (simp [*]; done)
    | (cases j <;> first | rfl | contradiction)
theorem execQuietPeriodEnd_kept (b : Block) (reads : List ReadBack) (s : State) :
    Kept [.out, .now, .freeSeq, .mbx, .flt, .alm, .pmu, .clk, .fw, .avail, .hubs, .own, .dsd, .usd, .epqs, .links, .sched, .place,
      .memb, .fab, .u2d, .vig, .fo, .tc, .phy, .pwr, .lane, .dp, .lio, .test] s (execQuietPeriodEnd b reads s) := by
  intro j hj
  simp only [List.mem_cons, List.not_mem_nil, or_false, not_or] at hj
  obtain ⟨h_out, h_now, h_freeSeq, h_mbx, h_flt, h_alm, h_pmu, h_clk, h_fw, h_avail, h_hubs, h_own, h_dsd, h_usd,
      h_epqs, h_links, h_sched, h_place, h_memb, h_fab, h_u2d, h_vig, h_fo, h_tc, h_phy, h_pwr, h_lane, h_dp, h_lio,
      h_test⟩ := hj
  unfold execQuietPeriodEnd
  (try simp [*]) <;> repeat' ((first | split | intro _) <;> try simp [*])
theorem execFaultAutoAck_kept (b : Block) (s : State) :
    Kept [.out, .now, .flt] s (execFaultAutoAck b s) := by
  intro j hj
  simp only [List.mem_cons, List.not_mem_nil, or_false, not_or] at hj
  obtain ⟨h_out, h_now, h_flt⟩ := hj
  simp [execFaultAutoAck, *]
theorem execFltAckWrite_kept (b : Block) (v : Word) (s : State) :
    Kept [.out, .flt] s (execFltAckWrite b v s) := by
  intro j hj
  simp only [List.mem_cons, List.not_mem_nil, or_false, not_or] at hj
  obtain ⟨h_out, h_flt⟩ := hj
  simp [execFltAckWrite, *]
theorem execFltForceWrite_kept (b : Block) (v : Word) (s : State) :
    Kept [.out, .freeSeq, .mbx, .flt, .alm, .pmu, .clk, .fw, .avail, .hubs, .dsd, .usd, .epqs, .links, .sched, .place, .memb,
      .fab, .u2d, .vig, .tc, .phy, .pwr, .dp, .lio, .test] s (execFltForceWrite b v s) := by
  intro j hj
  simp only [List.mem_cons, List.not_mem_nil, or_false, not_or] at hj
  obtain ⟨h_out, h_freeSeq, h_mbx, h_flt, h_alm, h_pmu, h_clk, h_fw, h_avail, h_hubs, h_dsd, h_usd, h_epqs, h_links,
      h_sched, h_place, h_memb, h_fab, h_u2d, h_vig, h_tc, h_phy, h_pwr, h_dp, h_lio, h_test⟩ := hj
  simp [execFltForceWrite, *]
theorem execAvailabilityCheckpoint_kept (s : State) :
    Kept [.out, .alm, .avail] s (execAvailabilityCheckpoint s) := by
  intro j hj
  simp only [List.mem_cons, List.not_mem_nil, or_false, not_or] at hj
  obtain ⟨h_out, h_alm, h_avail⟩ := hj
  unfold execAvailabilityCheckpoint
  ((try simp [*]) <;> repeat' ((first | split | intro _) <;> try simp [*])) <;> (cases j <;> first | rfl | contradiction)
theorem execSpitFrame_kept (setup : Nat) (instr : Byte) (addr : Word) (data : List Byte) (reads : Nat) (b : BootIn)
    (s : State) :
    Kept [.out, .freeSeq, .mbx, .flt, .alm, .pmu, .clk, .wake, .sup, .fw, .avail, .hubs, .dsd, .usd, .epqs, .links, .sched,
      .place, .memb, .fab, .u2d, .vig, .tc, .phy, .pwr, .dp, .lio, .test] s (execSpitFrame setup instr addr data reads b s) := by
  intro j hj
  simp only [List.mem_cons, List.not_mem_nil, or_false, not_or] at hj
  obtain ⟨h_out, h_freeSeq, h_mbx, h_flt, h_alm, h_pmu, h_clk, h_wake, h_sup, h_fw, h_avail, h_hubs, h_dsd, h_usd,
      h_epqs, h_links, h_sched, h_place, h_memb, h_fab, h_u2d, h_vig, h_tc, h_phy, h_pwr, h_dp, h_lio, h_test⟩ := hj
  simp [execSpitFrame, *]
theorem execRingTailWrite_kept (r : Fin 16) (v : BitVec 16) (s : State) :
    Kept [.out, .mbx] s (execRingTailWrite r v s) := by
  intro j hj
  simp only [List.mem_cons, List.not_mem_nil, or_false, not_or] at hj
  obtain ⟨h_out, h_mbx⟩ := hj
  simp [execRingTailWrite, *]
theorem execRingHeadWrite_kept (r : Fin 16) (v : BitVec 16) (s : State) :
    Kept [.out, .mbx] s (execRingHeadWrite r v s) := by
  intro j hj
  simp only [List.mem_cons, List.not_mem_nil, or_false, not_or] at hj
  obtain ⟨h_out, h_mbx⟩ := hj
  simp [execRingHeadWrite, *]
theorem execRingCtrlRun_kept (r : Fin 16) (on : Bool) (s : State) :
    Kept [.out, .mbx] s (execRingCtrlRun r on s) := by
  intro j hj
  simp only [List.mem_cons, List.not_mem_nil, or_false, not_or] at hj
  obtain ⟨h_out, h_mbx⟩ := hj
  simp [execRingCtrlRun, *]
theorem execRingCtrlReset_kept (r : Fin 16) (s : State) :
    Kept [.out, .mbx] s (execRingCtrlReset r s) := by
  intro j hj
  simp only [List.mem_cons, List.not_mem_nil, or_false, not_or] at hj
  obtain ⟨h_out, h_mbx⟩ := hj
  simp [execRingCtrlReset, *]
theorem execRingGeomWrite_kept (r : Fin 16) (base : BitVec 10) (log2 : BitVec 4) (s : State) :
    Kept [.out, .mbx] s (execRingGeomWrite r base log2 s) := by
  intro j hj
  simp only [List.mem_cons, List.not_mem_nil, or_false, not_or] at hj
  obtain ⟨h_out, h_mbx⟩ := hj
  simp [execRingGeomWrite, *]
theorem execRingAssignWrite_kept (v : BitVec 6) (s : State) :
    Kept [.out, .mbx] s (execRingAssignWrite v s) := by
  intro j hj
  simp only [List.mem_cons, List.not_mem_nil, or_false, not_or] at hj
  obtain ⟨h_out, h_mbx⟩ := hj
  simp [execRingAssignWrite, *]
theorem execIrqStatusClear_kept (v : BitVec 12) (s : State) :
    Kept [.out, .mbx] s (execIrqStatusClear v s) := by
  intro j hj
  simp only [List.mem_cons, List.not_mem_nil, or_false, not_or] at hj
  obtain ⟨h_out, h_mbx⟩ := hj
  simp [execIrqStatusClear, *]
theorem execPrioDoorbell_kept (n : BitVec 5) (s : State) :
    Kept [.out, .mbx] s (execPrioDoorbell n s) := by
  intro j hj
  simp only [List.mem_cons, List.not_mem_nil, or_false, not_or] at hj
  obtain ⟨h_out, h_mbx⟩ := hj
  simp [execPrioDoorbell, *]
theorem execRegisterWrite_kept (addr v : Word) (b : BootIn) (s : State) :
    Kept [.out, .freeSeq, .mbx, .flt, .alm, .pmu, .clk, .sup, .fw, .avail, .hubs, .dsd, .usd, .epqs, .links, .sched, .place,
      .memb, .fab, .u2d, .vig, .tc, .phy, .pwr, .dp, .lio, .test] s (execRegisterWrite addr v b s) := by
  intro j hj
  simp only [List.mem_cons, List.not_mem_nil, or_false, not_or] at hj
  obtain ⟨h_out, h_freeSeq, h_mbx, h_flt, h_alm, h_pmu, h_clk, h_sup, h_fw, h_avail, h_hubs, h_dsd, h_usd, h_epqs,
      h_links, h_sched, h_place, h_memb, h_fab, h_u2d, h_vig, h_tc, h_phy, h_pwr, h_dp, h_lio, h_test⟩ := hj
  unfold execRegisterWrite
  (try simp [*]) <;> repeat' ((first | split | intro _) <;> try simp [*])
theorem execCpl0EntryExpiry_kept (s : State) :
    Kept [.out, .now, .mbx] s (execCpl0EntryExpiry s) := by
  intro j hj
  simp only [List.mem_cons, List.not_mem_nil, or_false, not_or] at hj
  obtain ⟨h_out, h_now, h_mbx⟩ := hj
  unfold execCpl0EntryExpiry
  (try simp [*]) <;> repeat' ((first | split | intro _) <;> try simp [*])
theorem execI2ctStatus_kept (addr : BitVec 7) (pec : Bool) (s : State) :
    Kept [.out, .mbx] s (execI2ctStatus addr pec s) := by
  intro j hj
  simp only [List.mem_cons, List.not_mem_nil, or_false, not_or] at hj
  obtain ⟨h_out, h_mbx⟩ := hj
  simp [execI2ctStatus, *]
theorem execI2ctCmd4Submit_kept (addr : BitVec 7) (data : List Byte) (pec : Bool) (s : State) :
    Kept [.out, .mbx] s (execI2ctCmd4Submit addr data pec s) := by
  intro j hj
  simp only [List.mem_cons, List.not_mem_nil, or_false, not_or] at hj
  obtain ⟨h_out, h_mbx⟩ := hj
  unfold execI2ctCmd4Submit
  ((try simp [*]) <;> repeat' ((first | split | intro _) <;> try simp [*])) <;> (cases j <;> first | rfl | contradiction)
theorem execI2ctCpl4Fetch_kept (addr : BitVec 7) (pec : Bool) (s : State) :
    Kept [.out, .mbx] s (execI2ctCpl4Fetch addr pec s) := by
  intro j hj
  simp only [List.mem_cons, List.not_mem_nil, or_false, not_or] at hj
  obtain ⟨h_out, h_mbx⟩ := hj
  unfold execI2ctCpl4Fetch
  (try simp [*]) <;> repeat' ((first | split | intro _) <;> try simp [*])
theorem execI2ctCmd0Submit_kept (addr : BitVec 7) (data : List Byte) (pec : Bool) (s : State) :
    Kept [.out, .mbx] s (execI2ctCmd0Submit addr data pec s) := by
  intro j hj
  simp only [List.mem_cons, List.not_mem_nil, or_false, not_or] at hj
  obtain ⟨h_out, h_mbx⟩ := hj
  unfold execI2ctCmd0Submit
  dsimp only
  (repeat' split) <;> (try rw [keptIn_next]) <;> (repeat' split) <;> first
    | (simp [*]; done)
    | (cases j <;> first | rfl | contradiction)
theorem execI2ctCpl0Fetch_kept (addr : BitVec 7) (pec : Bool) (s : State) :
    Kept [.out, .mbx] s (execI2ctCpl0Fetch addr pec s) := by
  intro j hj
  simp only [List.mem_cons, List.not_mem_nil, or_false, not_or] at hj
  obtain ⟨h_out, h_mbx⟩ := hj
  unfold execI2ctCpl0Fetch
  (try simp [*]) <;> repeat' ((first | split | intro _) <;> try simp [*])
theorem execI2ctBusTimeout_kept (ms : Nat) (s : State) :
    Kept [.out] s (execI2ctBusTimeout ms s) := by
  intro j hj
  simp only [List.mem_cons, List.not_mem_nil, or_false, not_or] at hj
  have h_out := hj
  simp [execI2ctBusTimeout, *]
theorem execLmfCmd0Submit_kept (u : US) (wLength : Nat) (data : List Byte) (s : State) :
    Kept [.out, .now, .mbx, .epqs, .links, .sched] s (execLmfCmd0Submit u wLength data s) := by
  intro j hj
  simp only [List.mem_cons, List.not_mem_nil, or_false, not_or] at hj
  obtain ⟨h_out, h_now, h_mbx, h_epqs, h_links, h_sched⟩ := hj
  unfold execLmfCmd0Submit
  dsimp only
  (repeat' split) <;> (try rw [keptIn_next]) <;> (repeat' split) <;> first
    | (simp [*]; done)
    | (cases j <;> first | rfl | contradiction)
theorem execLmfCpl0Fetch_kept (u : US) (wLength : Nat) (s : State) :
    Kept [.out, .now, .mbx, .epqs, .links, .sched] s (execLmfCpl0Fetch u wLength s) := by
  intro j hj
  simp only [List.mem_cons, List.not_mem_nil, or_false, not_or] at hj
  obtain ⟨h_out, h_now, h_mbx, h_epqs, h_links, h_sched⟩ := hj
  unfold execLmfCpl0Fetch
  (try simp [*]) <;> repeat' ((first | split | intro _) <;> try simp [*])
theorem execLmfRingStatus_kept (u : US) (s : State) :
    Kept [.out, .now, .mbx, .epqs, .links, .sched] s (execLmfRingStatus u s) := by
  intro j hj
  simp only [List.mem_cons, List.not_mem_nil, or_false, not_or] at hj
  obtain ⟨h_out, h_now, h_mbx, h_epqs, h_links, h_sched⟩ := hj
  simp [execLmfRingStatus, *]
theorem execLmfRingReset_kept (u : US) (s : State) :
    Kept [.out, .now, .mbx, .epqs, .links, .sched] s (execLmfRingReset u s) := by
  intro j hj
  simp only [List.mem_cons, List.not_mem_nil, or_false, not_or] at hj
  obtain ⟨h_out, h_now, h_mbx, h_epqs, h_links, h_sched⟩ := hj
  simp [execLmfRingReset, *]
theorem execLmfBulkOut_kept (u : US) (packet : List Byte) (last : Bool) (s : State) :
    Kept [.out, .now, .mbx, .epqs, .links, .sched] s (execLmfBulkOut u packet last s) := by
  intro j hj
  simp only [List.mem_cons, List.not_mem_nil, or_false, not_or] at hj
  obtain ⟨h_out, h_now, h_mbx, h_epqs, h_links, h_sched⟩ := hj
  simp [execLmfBulkOut, *]
theorem execLmfBulkIn_kept (u : US) (s : State) :
    Kept [.out, .now, .mbx, .epqs, .links, .sched] s (execLmfBulkIn u s) := by
  intro j hj
  simp only [List.mem_cons, List.not_mem_nil, or_false, not_or] at hj
  obtain ⟨h_out, h_now, h_mbx, h_epqs, h_links, h_sched⟩ := hj
  unfold execLmfBulkIn
  dsimp only
  (repeat' split) <;> (try rw [keptIn_next]) <;> (repeat' split) <;> first
    | (simp [*]; done)
    | (cases j <;> first | rfl | contradiction)
theorem execLmfInterruptReport_kept (u : US) (s : State) :
    Kept [.out, .now, .mbx, .epqs, .links, .sched] s (execLmfInterruptReport u s) := by
  intro j hj
  simp only [List.mem_cons, List.not_mem_nil, or_false, not_or] at hj
  obtain ⟨h_out, h_now, h_mbx, h_epqs, h_links, h_sched⟩ := hj
  unfold execLmfInterruptReport
  dsimp only
  (repeat' split) <;> (try rw [keptIn_next]) <;> (repeat' split) <;> first
    | (simp [*]; done)
    | (cases j <;> first | rfl | contradiction)
theorem execLmfSetConfiguration_kept (u : US) (s : State) :
    Kept [.out, .now, .mbx, .epqs, .links, .sched] s (execLmfSetConfiguration u s) := by
  intro j hj
  simp only [List.mem_cons, List.not_mem_nil, or_false, not_or] at hj
  obtain ⟨h_out, h_now, h_mbx, h_epqs, h_links, h_sched⟩ := hj
  simp [execLmfSetConfiguration, *]
theorem execIdentify_kept (r : Req) (s : State) :
    Kept [.out, .mbx] s (execIdentify r s) := by
  intro j hj
  simp only [List.mem_cons, List.not_mem_nil, or_false, not_or] at hj
  obtain ⟨h_out, h_mbx⟩ := hj
  simp [execIdentify, *]
theorem execModeRequest_kept (r : Req) (s : State) :
    Kept [.out, .freeSeq, .mbx, .flt, .alm, .pmu, .fw, .avail, .hubs, .own, .dsd, .usd, .epqs, .links, .sched, .place, .memb,
      .fab, .u2d, .vig, .fo, .tc, .phy, .pwr, .lane, .dp, .test] s (execModeRequest r s) := by
  intro j hj
  simp only [List.mem_cons, List.not_mem_nil, or_false, not_or] at hj
  obtain ⟨h_out, h_freeSeq, h_mbx, h_flt, h_alm, h_pmu, h_fw, h_avail, h_hubs, h_own, h_dsd, h_usd, h_epqs, h_links,
      h_sched, h_place, h_memb, h_fab, h_u2d, h_vig, h_fo, h_tc, h_phy, h_pwr, h_lane, h_dp, h_test⟩ := hj
  simp [execModeRequest, *]
theorem execModeStatus_kept (r : Req) (s : State) :
    Kept [.out, .mbx] s (execModeStatus r s) := by
  intro j hj
  simp only [List.mem_cons, List.not_mem_nil, or_false, not_or] at hj
  obtain ⟨h_out, h_mbx⟩ := hj
  simp [execModeStatus, *]
theorem execLaneTimeRead_kept (r : Req) (s : State) :
    Kept [.out, .mbx] s (execLaneTimeRead r s) := by
  intro j hj
  simp only [List.mem_cons, List.not_mem_nil, or_false, not_or] at hj
  obtain ⟨h_out, h_mbx⟩ := hj
  simp [execLaneTimeRead, *]
theorem execWakeRecordRead_kept (r : Req) (s : State) :
    Kept [.out, .mbx] s (execWakeRecordRead r s) := by
  intro j hj
  simp only [List.mem_cons, List.not_mem_nil, or_false, not_or] at hj
  obtain ⟨h_out, h_mbx⟩ := hj
  simp [execWakeRecordRead, *]
theorem execPortAssign_kept (r : Req) (s : State) :
    Kept [.out, .freeSeq, .mbx, .flt, .alm, .pmu, .fw, .avail, .hubs, .own, .dsd, .usd, .epqs, .links, .sched, .place, .fab, .u2d,
      .vig, .fo] s (execPortAssign r s) := by
  intro j hj
  simp only [List.mem_cons, List.not_mem_nil, or_false, not_or] at hj
  obtain ⟨h_out, h_freeSeq, h_mbx, h_flt, h_alm, h_pmu, h_fw, h_avail, h_hubs, h_own, h_dsd, h_usd, h_epqs, h_links,
      h_sched, h_place, h_fab, h_u2d, h_vig, h_fo⟩ := hj
  simp [execPortAssign, *]
theorem execPortStatus_kept (r : Req) (s : State) :
    Kept [.out, .mbx] s (execPortStatus r s) := by
  intro j hj
  simp only [List.mem_cons, List.not_mem_nil, or_false, not_or] at hj
  obtain ⟨h_out, h_mbx⟩ := hj
  simp [execPortStatus, *]
theorem execGuardRuleSet_kept (r : Req) (s : State) :
    Kept [.out, .freeSeq, .mbx, .flt, .alm, .pmu, .fw, .avail, .vig] s (execGuardRuleSet r s) := by
  intro j hj
  simp only [List.mem_cons, List.not_mem_nil, or_false, not_or] at hj
  obtain ⟨h_out, h_freeSeq, h_mbx, h_flt, h_alm, h_pmu, h_fw, h_avail, h_vig⟩ := hj
  simp [execGuardRuleSet, *]
theorem execSchedSet_kept (r : Req) (s : State) :
    Kept [.out, .now, .mbx, .epqs, .links, .sched, .fab] s (execSchedSet r s) := by
  intro j hj
  simp only [List.mem_cons, List.not_mem_nil, or_false, not_or] at hj
  obtain ⟨h_out, h_now, h_mbx, h_epqs, h_links, h_sched, h_fab⟩ := hj
  simp [execSchedSet, *]
theorem execShaperSet_kept (r : Req) (s : State) :
    Kept [.out, .now, .mbx, .epqs, .links, .sched] s (execShaperSet r s) := by
  intro j hj
  simp only [List.mem_cons, List.not_mem_nil, or_false, not_or] at hj
  obtain ⟨h_out, h_now, h_mbx, h_epqs, h_links, h_sched⟩ := hj
  simp [execShaperSet, *]
theorem execPolicerSet_kept (r : Req) (s : State) :
    Kept [.out, .now, .mbx, .epqs, .links, .sched] s (execPolicerSet r s) := by
  intro j hj
  simp only [List.mem_cons, List.not_mem_nil, or_false, not_or] at hj
  obtain ⟨h_out, h_now, h_mbx, h_epqs, h_links, h_sched⟩ := hj
  simp [execPolicerSet, *]
theorem execObserveRead_kept (r : Req) (s : State) :
    Kept [.out, .mbx, .epqs] s (execObserveRead r s) := by
  intro j hj
  simp only [List.mem_cons, List.not_mem_nil, or_false, not_or] at hj
  obtain ⟨h_out, h_mbx, h_epqs⟩ := hj
  simp [execObserveRead, *]
theorem execPlaceStatus_kept (r : Req) (s : State) :
    Kept [.out, .mbx] s (execPlaceStatus r s) := by
  intro j hj
  simp only [List.mem_cons, List.not_mem_nil, or_false, not_or] at hj
  obtain ⟨h_out, h_mbx⟩ := hj
  simp [execPlaceStatus, *]
theorem execPlacePin_kept (r : Req) (s : State) :
    Kept [.out, .mbx, .place] s (execPlacePin r s) := by
  intro j hj
  simp only [List.mem_cons, List.not_mem_nil, or_false, not_or] at hj
  obtain ⟨h_out, h_mbx, h_place⟩ := hj
  simp [execPlacePin, *]
theorem execPlaceRebuild_kept (r : Req) (s : State) :
    Kept [.out, .mbx, .place] s (execPlaceRebuild r s) := by
  intro j hj
  simp only [List.mem_cons, List.not_mem_nil, or_false, not_or] at hj
  obtain ⟨h_out, h_mbx, h_place⟩ := hj
  simp [execPlaceRebuild, *]
theorem execVigilPolicySet_kept (r : Req) (s : State) :
    Kept [.out, .freeSeq, .mbx, .flt, .alm, .pmu, .fw, .avail, .epqs, .place, .u2d, .vig] s (execVigilPolicySet r s) := by
  intro j hj
  simp only [List.mem_cons, List.not_mem_nil, or_false, not_or] at hj
  obtain ⟨h_out, h_freeSeq, h_mbx, h_flt, h_alm, h_pmu, h_fw, h_avail, h_epqs, h_place, h_u2d, h_vig⟩ := hj
  simp [execVigilPolicySet, *]
theorem execVigilArm_kept (r : Req) (s : State) :
    Kept [.out, .mbx, .epqs, .place, .u2d, .vig] s (execVigilArm r s) := by
  intro j hj
  simp only [List.mem_cons, List.not_mem_nil, or_false, not_or] at hj
  obtain ⟨h_out, h_mbx, h_epqs, h_place, h_u2d, h_vig⟩ := hj
  simp [execVigilArm, *]
theorem execVigilStatus_kept (r : Req) (s : State) :
    Kept [.out, .mbx] s (execVigilStatus r s) := by
  intro j hj
  simp only [List.mem_cons, List.not_mem_nil, or_false, not_or] at hj
  obtain ⟨h_out, h_mbx⟩ := hj
  simp [execVigilStatus, *]
theorem execCaptureRead_kept (r : Req) (s : State) :
    Kept [.out, .mbx, .vig] s (execCaptureRead r s) := by
  intro j hj
  simp only [List.mem_cons, List.not_mem_nil, or_false, not_or] at hj
  obtain ⟨h_out, h_mbx, h_vig⟩ := hj
  simp [execCaptureRead, *]
theorem execFailoverSet_kept (r : Req) (s : State) :
    Kept [.out, .freeSeq, .mbx, .flt, .alm, .pmu, .fw, .avail, .fo] s (execFailoverSet r s) := by
  intro j hj
  simp only [List.mem_cons, List.not_mem_nil, or_false, not_or] at hj
  obtain ⟨h_out, h_freeSeq, h_mbx, h_flt, h_alm, h_pmu, h_fw, h_avail, h_fo⟩ := hj
  simp [execFailoverSet, *]
theorem execFailback_kept (r : Req) (s : State) :
    Kept [.out, .mbx, .usd, .fo] s (execFailback r s) := by
  intro j hj
  simp only [List.mem_cons, List.not_mem_nil, or_false, not_or] at hj
  obtain ⟨h_out, h_mbx, h_usd, h_fo⟩ := hj
  simp [execFailback, *]
theorem execPowerBudgetSet_kept (r : Req) (s : State) :
    Kept [.out, .freeSeq, .mbx, .flt, .alm, .pmu, .fw, .avail, .hubs, .dsd, .usd, .epqs, .links, .sched, .place, .fab, .u2d, .vig,
      .tc, .phy, .pwr, .lane, .dp] s (execPowerBudgetSet r s) := by
  intro j hj
  simp only [List.mem_cons, List.not_mem_nil, or_false, not_or] at hj
  obtain ⟨h_out, h_freeSeq, h_mbx, h_flt, h_alm, h_pmu, h_fw, h_avail, h_hubs, h_dsd, h_usd, h_epqs, h_links, h_sched,
      h_place, h_fab, h_u2d, h_vig, h_tc, h_phy, h_pwr, h_lane, h_dp⟩ := hj
  simp [execPowerBudgetSet, *]
theorem execPortPowerPolicy_kept (r : Req) (s : State) :
    Kept [.out, .freeSeq, .mbx, .flt, .alm, .pmu, .clk, .fw, .avail, .hubs, .own, .dsd, .usd, .epqs, .links, .sched, .place,
      .memb, .fab, .u2d, .vig, .fo, .tc, .phy, .pwr, .lane, .dp, .lio, .test] s (execPortPowerPolicy r s) := by
  intro j hj
  simp only [List.mem_cons, List.not_mem_nil, or_false, not_or] at hj
  obtain ⟨h_out, h_freeSeq, h_mbx, h_flt, h_alm, h_pmu, h_clk, h_fw, h_avail, h_hubs, h_own, h_dsd, h_usd, h_epqs,
      h_links, h_sched, h_place, h_memb, h_fab, h_u2d, h_vig, h_fo, h_tc, h_phy, h_pwr, h_lane, h_dp, h_lio,
      h_test⟩ := hj
  simp [execPortPowerPolicy, *]
theorem execContractStatus_kept (r : Req) (s : State) :
    Kept [.out, .mbx] s (execContractStatus r s) := by
  intro j hj
  simp only [List.mem_cons, List.not_mem_nil, or_false, not_or] at hj
  obtain ⟨h_out, h_mbx⟩ := hj
  simp [execContractStatus, *]
theorem execRoleSwap_kept (r : Req) (s : State) :
    Kept [.out, .mbx, .tc, .phy, .pwr] s (execRoleSwap r s) := by
  intro j hj
  simp only [List.mem_cons, List.not_mem_nil, or_false, not_or] at hj
  obtain ⟨h_out, h_mbx, h_tc, h_phy, h_pwr⟩ := hj
  simp [execRoleSwap, *]
theorem execGuardStatus_kept (r : Req) (s : State) :
    Kept [.out, .mbx] s (execGuardStatus r s) := by
  intro j hj
  simp only [List.mem_cons, List.not_mem_nil, or_false, not_or] at hj
  obtain ⟨h_out, h_mbx⟩ := hj
  simp [execGuardStatus, *]
theorem execDpRoute_kept (r : Req) (s : State) :
    Kept [.out, .freeSeq, .mbx, .flt, .alm, .pmu, .fw, .avail, .phy, .dp] s (execDpRoute r s) := by
  intro j hj
  simp only [List.mem_cons, List.not_mem_nil, or_false, not_or] at hj
  obtain ⟨h_out, h_freeSeq, h_mbx, h_flt, h_alm, h_pmu, h_fw, h_avail, h_phy, h_dp⟩ := hj
  simp [execDpRoute, *]
theorem execDrawerKick_kept (r : Req) (s : State) :
    Kept [.out, .mbx, .lio] s (execDrawerKick r s) := by
  intro j hj
  simp only [List.mem_cons, List.not_mem_nil, or_false, not_or] at hj
  obtain ⟨h_out, h_mbx, h_lio⟩ := hj
  simp [execDrawerKick, *]
theorem execFaultRead_kept (r : Req) (s : State) :
    Kept [.out, .mbx] s (execFaultRead r s) := by
  intro j hj
  simp only [List.mem_cons, List.not_mem_nil, or_false, not_or] at hj
  obtain ⟨h_out, h_mbx⟩ := hj
  simp [execFaultRead, *]
theorem execFaultAck_kept (r : Req) (s : State) :
    Kept [.out, .mbx, .flt] s (execFaultAck r s) := by
  intro j hj
  simp only [List.mem_cons, List.not_mem_nil, or_false, not_or] at hj
  obtain ⟨h_out, h_mbx, h_flt⟩ := hj
  simp [execFaultAck, *]
theorem execFaultInject_kept (r : Req) (s : State) :
    Kept [.out, .freeSeq, .mbx, .flt, .alm, .pmu, .clk, .fw, .avail, .hubs, .dsd, .usd, .epqs, .links, .sched, .place, .memb,
      .fab, .u2d, .vig, .tc, .phy, .pwr, .dp, .lio, .test] s (execFaultInject r s) := by
  intro j hj
  simp only [List.mem_cons, List.not_mem_nil, or_false, not_or] at hj
  obtain ⟨h_out, h_freeSeq, h_mbx, h_flt, h_alm, h_pmu, h_clk, h_fw, h_avail, h_hubs, h_dsd, h_usd, h_epqs, h_links,
      h_sched, h_place, h_memb, h_fab, h_u2d, h_vig, h_tc, h_phy, h_pwr, h_dp, h_lio, h_test⟩ := hj
  simp [execFaultInject, *]
theorem execFence_kept (r : Req) (s : State) :
    Kept [.out, .freeSeq, .mbx, .flt, .pmu, .clk, .fw, .avail, .hubs, .dsd, .usd, .epqs, .links, .sched, .place, .memb, .fab,
      .u2d, .vig, .tc, .phy, .pwr, .dp, .lio, .test] s (execFence r s) := by
  intro j hj
  simp only [List.mem_cons, List.not_mem_nil, or_false, not_or] at hj
  obtain ⟨h_out, h_freeSeq, h_mbx, h_flt, h_pmu, h_clk, h_fw, h_avail, h_hubs, h_dsd, h_usd, h_epqs, h_links, h_sched,
      h_place, h_memb, h_fab, h_u2d, h_vig, h_tc, h_phy, h_pwr, h_dp, h_lio, h_test⟩ := hj
  simp [execFence, *]
theorem execUnfence_kept (r : Req) (s : State) :
    Kept [.out, .mbx, .flt, .pmu, .fw, .avail, .hubs, .own, .dsd, .usd, .epqs, .links, .sched, .place, .fab, .u2d, .vig, .fo, .tc,
      .phy, .pwr, .lane, .dp] s (execUnfence r s) := by
  intro j hj
  simp only [List.mem_cons, List.not_mem_nil, or_false, not_or] at hj
  obtain ⟨h_out, h_mbx, h_flt, h_pmu, h_fw, h_avail, h_hubs, h_own, h_dsd, h_usd, h_epqs, h_links, h_sched, h_place,
      h_fab, h_u2d, h_vig, h_fo, h_tc, h_phy, h_pwr, h_lane, h_dp⟩ := hj
  simp [execUnfence, *]
theorem execAlmanacRead_kept (r : Req) (s : State) :
    Kept [.out, .mbx] s (execAlmanacRead r s) := by
  intro j hj
  simp only [List.mem_cons, List.not_mem_nil, or_false, not_or] at hj
  obtain ⟨h_out, h_mbx⟩ := hj
  simp [execAlmanacRead, *]
theorem execAlmanacWrite_kept (r : Req) (s : State) :
    Kept [.out, .freeSeq, .mbx, .flt, .alm, .pmu, .fw, .avail] s (execAlmanacWrite r s) := by
  intro j hj
  simp only [List.mem_cons, List.not_mem_nil, or_false, not_or] at hj
  obtain ⟨h_out, h_freeSeq, h_mbx, h_flt, h_alm, h_pmu, h_fw, h_avail⟩ := hj
  simp [execAlmanacWrite, *]
theorem execAlmanacWear_kept (r : Req) (s : State) :
    Kept [.out, .mbx] s (execAlmanacWear r s) := by
  intro j hj
  simp only [List.mem_cons, List.not_mem_nil, or_false, not_or] at hj
  obtain ⟨h_out, h_mbx⟩ := hj
  simp [execAlmanacWear, *]
theorem execFwStage_kept (r : Req) (s : State) :
    Kept [.out, .mbx, .fw] s (execFwStage r s) := by
  intro j hj
  simp only [List.mem_cons, List.not_mem_nil, or_false, not_or] at hj
  obtain ⟨h_out, h_mbx, h_fw⟩ := hj
  simp [execFwStage, *]
theorem execFwActivate_kept (r : Req) (s : State) :
    Kept [.out, .mbx, .alm, .sup, .fw] s (execFwActivate r s) := by
  intro j hj
  simp only [List.mem_cons, List.not_mem_nil, or_false, not_or] at hj
  obtain ⟨h_out, h_mbx, h_alm, h_sup, h_fw⟩ := hj
  simp [execFwActivate, *]
theorem execFwStatus_kept (r : Req) (s : State) :
    Kept [.out, .mbx] s (execFwStatus r s) := by
  intro j hj
  simp only [List.mem_cons, List.not_mem_nil, or_false, not_or] at hj
  obtain ⟨h_out, h_mbx⟩ := hj
  simp [execFwStatus, *]
theorem execLoopback_kept (r : Req) (s : State) :
    Kept [.out, .freeSeq, .mbx, .dsd, .test] s (execLoopback r s) := by
  intro j hj
  simp only [List.mem_cons, List.not_mem_nil, or_false, not_or] at hj
  obtain ⟨h_out, h_freeSeq, h_mbx, h_dsd, h_test⟩ := hj
  simp [execLoopback, *]
theorem execEcho_kept (r : Req) (s : State) :
    Kept [.out, .mbx] s (execEcho r s) := by
  intro j hj
  simp only [List.mem_cons, List.not_mem_nil, or_false, not_or] at hj
  obtain ⟨h_out, h_mbx⟩ := hj
  simp [execEcho, *]
theorem execPattern_kept (r : Req) (s : State) :
    Kept [.out, .mbx, .test] s (execPattern r s) := by
  intro j hj
  simp only [List.mem_cons, List.not_mem_nil, or_false, not_or] at hj
  obtain ⟨h_out, h_mbx, h_test⟩ := hj
  simp [execPattern, *]
theorem execRegRead_kept (r : Req) (s : State) :
    Kept [.out, .mbx] s (execRegRead r s) := by
  intro j hj
  simp only [List.mem_cons, List.not_mem_nil, or_false, not_or] at hj
  obtain ⟨h_out, h_mbx⟩ := hj
  simp [execRegRead, *]
theorem execRegWrite_kept (r : Req) (s : State) :
    Kept [.out, .freeSeq, .mbx, .flt, .alm, .pmu, .clk, .fw, .avail, .hubs, .dsd, .usd, .epqs, .links, .sched, .place, .memb,
      .fab, .u2d, .vig, .tc, .phy, .pwr, .dp, .lio, .test] s (execRegWrite r s) := by
  intro j hj
  simp only [List.mem_cons, List.not_mem_nil, or_false, not_or] at hj
  obtain ⟨h_out, h_freeSeq, h_mbx, h_flt, h_alm, h_pmu, h_clk, h_fw, h_avail, h_hubs, h_dsd, h_usd, h_epqs, h_links,
      h_sched, h_place, h_memb, h_fab, h_u2d, h_vig, h_tc, h_phy, h_pwr, h_dp, h_lio, h_test⟩ := hj
  simp [execRegWrite, *]
theorem execLoopbackEnd_kept (unit : Fin 19) (errors : Nat) (sink : Bool) (s : State) :
    Kept [.out, .now, .freeSeq, .mbx, .dsd, .test] s (execLoopbackEnd unit errors sink s) := by
  intro j hj
  simp only [List.mem_cons, List.not_mem_nil, or_false, not_or] at hj
  obtain ⟨h_out, h_now, h_freeSeq, h_mbx, h_dsd, h_test⟩ := hj
  unfold execLoopbackEnd
  ((try simp [*]) <;> repeat' ((first | split | intro _) <;> try simp [*])) <;> (cases j <;> first | rfl | contradiction)
theorem execPatternComplete_kept (dmc : Bool) (errors corrected first : Nat) (s : State) :
    Kept [.out, .mbx, .flt, .memb, .test] s (execPatternComplete dmc errors corrected first s) := by
  intro j hj
  simp only [List.mem_cons, List.not_mem_nil, or_false, not_or] at hj
  obtain ⟨h_out, h_mbx, h_flt, h_memb, h_test⟩ := hj
  unfold execPatternComplete
  dsimp only
  (repeat' split) <;> (try rw [keptIn_next]) <;> (repeat' split) <;> first
    | (simp [*]; done)
    | (cases j <;> first | rfl | contradiction)
theorem execPkbPatternCellFree_kept (cell errors corrected first : Nat) (s : State) :
    Kept [.out, .flt, .test] s (execPkbPatternCellFree cell errors corrected first s) := by
  intro j hj
  simp only [List.mem_cons, List.not_mem_nil, or_false, not_or] at hj
  obtain ⟨h_out, h_flt, h_test⟩ := hj
  unfold execPkbPatternCellFree
  (try simp [*]) <;> repeat' ((first | split | intro _) <;> try simp [*])
theorem execPkbPatternTimeout_kept (s : State) :
    Kept [.out, .now, .freeSeq, .mbx, .memb, .test] s (execPkbPatternTimeout s) := by
  intro j hj
  simp only [List.mem_cons, List.not_mem_nil, or_false, not_or] at hj
  obtain ⟨h_out, h_now, h_freeSeq, h_mbx, h_memb, h_test⟩ := hj
  unfold execPkbPatternTimeout
  (try simp [*]) <;> repeat' ((first | split | intro _) <;> try simp [*])
theorem execRemoteLoopbackRequest_kept (u : US) (s : State) :
    Kept [.out, .usd, .test] s (execRemoteLoopbackRequest u s) := by
  intro j hj
  simp only [List.mem_cons, List.not_mem_nil, or_false, not_or] at hj
  obtain ⟨h_out, h_usd, h_test⟩ := hj
  unfold execRemoteLoopbackRequest
  ((try simp [*]) <;> repeat' ((first | split | intro _) <;> try simp [*])) <;> (cases j <;> first | rfl | contradiction)
theorem execComplianceEntry_kept (u : US) (v : Option (Fin 15)) (s : State) :
    Kept [.out, .mbx, .avail, .hubs, .dsd, .usd, .epqs, .links, .sched, .place, .fab, .u2d, .u2u, .vig, .fo, .test] s (execComplianceEntry u v s) := by
  intro j hj
  simp only [List.mem_cons, List.not_mem_nil, or_false, not_or] at hj
  obtain ⟨h_out, h_mbx, h_avail, h_hubs, h_dsd, h_usd, h_epqs, h_links, h_sched, h_place, h_fab, h_u2d, h_u2u, h_vig,
      h_fo, h_test⟩ := hj
  unfold execComplianceEntry
  (try simp [*]) <;> repeat' ((first | split | intro _) <;> try simp [*])
theorem execCompliancePingLfps_kept (p : Port) (s : State) :
    Kept [.out, .test] s (execCompliancePingLfps p s) := by
  intro j hj
  simp only [List.mem_cons, List.not_mem_nil, or_false, not_or] at hj
  obtain ⟨h_out, h_test⟩ := hj
  unfold execCompliancePingLfps
  ((try simp [*]) <;> repeat' ((first | split | intro _) <;> try simp [*])) <;> (cases j <;> first | rfl | contradiction)
theorem execUsb2PortTest_kept (u : US) (v : Fin 15) (mode : Nat) (s : State) :
    Kept [.out, .avail, .dsd, .u2u, .vig, .fo] s (execUsb2PortTest u v mode s) := by
  intro j hj
  simp only [List.mem_cons, List.not_mem_nil, or_false, not_or] at hj
  obtain ⟨h_out, h_avail, h_dsd, h_u2u, h_vig, h_fo⟩ := hj
  unfold execUsb2PortTest
  (try simp [*]) <;> repeat' ((first | split | intro _) <;> try simp [*])
theorem execUsb2TestModeUpstream_kept (u : US) (mode : Nat) (s : State) :
    Kept [.out, .avail, .usd, .u2u, .vig, .fo] s (execUsb2TestModeUpstream u mode s) := by
  intro j hj
  simp only [List.mem_cons, List.not_mem_nil, or_false, not_or] at hj
  obtain ⟨h_out, h_avail, h_usd, h_u2u, h_vig, h_fo⟩ := hj
  simp [execUsb2TestModeUpstream, *]
theorem execBistMessage_kept (p : Port) (s : State) :
    Kept [.out, .phy] s (execBistMessage p s) := by
  intro j hj
  simp only [List.mem_cons, List.not_mem_nil, or_false, not_or] at hj
  obtain ⟨h_out, h_phy⟩ := hj
  simp [execBistMessage, *]
theorem execBistCarrierEnd_kept (p : Port) (s : State) :
    Kept [.out, .now, .phy] s (execBistCarrierEnd p s) := by
  intro j hj
  simp only [List.mem_cons, List.not_mem_nil, or_false, not_or] at hj
  obtain ⟨h_out, h_now, h_phy⟩ := hj
  simp [execBistCarrierEnd, *]
theorem execJtagInstruction_kept (i : Jtag) (trst : Bool) (cells : List (Ball × Bool)) (s : State) :
    Kept [.out, .test] s (execJtagInstruction i trst cells s) := by
  intro j hj
  simp only [List.mem_cons, List.not_mem_nil, or_false, not_or] at hj
  obtain ⟨h_out, h_test⟩ := hj
  unfold execJtagInstruction
  ((try simp [*]) <;> repeat' ((first | split | intro _) <;> try simp [*])) <;> (cases j <;> first | rfl | contradiction)
theorem execRef25Return_kept (s : State) :
    Kept [.out, .flt, .clk, .sup, .pwr] s (execRef25Return s) := by
  intro j hj
  simp only [List.mem_cons, List.not_mem_nil, or_false, not_or] at hj
  obtain ⟨h_out, h_flt, h_clk, h_sup, h_pwr⟩ := hj
  unfold execRef25Return
  ((try simp [*]) <;> repeat' ((first | split | intro _) <;> try simp [*])) <;> (cases j <;> first | rfl | contradiction)
theorem execSsPllRelock_kept (s : State) :
    Kept [.out, .flt, .clk, .sup, .pwr] s (execSsPllRelock s) := by
  intro j hj
  simp only [List.mem_cons, List.not_mem_nil, or_false, not_or] at hj
  obtain ⟨h_out, h_flt, h_clk, h_sup, h_pwr⟩ := hj
  unfold execSsPllRelock
  ((try simp [*]) <;> repeat' ((first | split | intro _) <;> try simp [*])) <;> (cases j <;> first | rfl | contradiction)
theorem execUpstreamLinkTrained_kept (u : US) (gen2 : Bool) (lanes : Nat) (s : State) :
    Kept [.out, .mbx, .pmu, .fw, .avail, .hubs, .usd, .links, .fo] s (execUpstreamLinkTrained u gen2 lanes s) := by
  intro j hj
  simp only [List.mem_cons, List.not_mem_nil, or_false, not_or] at hj
  obtain ⟨h_out, h_mbx, h_pmu, h_fw, h_avail, h_hubs, h_usd, h_links, h_fo⟩ := hj
  unfold execUpstreamLinkTrained
  (try simp [*]) <;> repeat' ((first | split | intro _) <;> try simp [*])
theorem execUpstreamLinkInactive_kept (u : US) (noTerm : Bool) (s : State) :
    Kept [.out, .mbx, .pmu, .fw, .avail, .hubs, .usd, .epqs, .links, .sched, .fab, .vig, .fo] s (execUpstreamLinkInactive u noTerm s) := by
  intro j hj
  simp only [List.mem_cons, List.not_mem_nil, or_false, not_or] at hj
  obtain ⟨h_out, h_mbx, h_pmu, h_fw, h_avail, h_hubs, h_usd, h_epqs, h_links, h_sched, h_fab, h_vig, h_fo⟩ := hj
  unfold execUpstreamLinkInactive
  (try simp [*]) <;> repeat' ((first | split | intro _) <;> try simp [*])
theorem execUpstreamSsReset_kept (u : US) (warm : Bool) (s : State) :
    Kept [.out, .mbx, .pmu, .fw, .avail, .hubs, .dsd, .usd, .epqs, .links, .sched, .place, .fab, .u2d, .u2u, .vig, .fo, .tc, .phy,
      .pwr, .lane, .dp] s (execUpstreamSsReset u warm s) := by
  intro j hj
  simp only [List.mem_cons, List.not_mem_nil, or_false, not_or] at hj
  obtain ⟨h_out, h_mbx, h_pmu, h_fw, h_avail, h_hubs, h_dsd, h_usd, h_epqs, h_links, h_sched, h_place, h_fab, h_u2d,
      h_u2u, h_vig, h_fo, h_tc, h_phy, h_pwr, h_lane, h_dp⟩ := hj
  simp [execUpstreamSsReset, *]
theorem execLinkCommandReceived_kept (p : Port) (c : LinkCmd) (s : State) :
    Kept [.out, .mbx, .pmu, .fw, .avail, .hubs, .dsd, .usd, .links, .fo] s (execLinkCommandReceived p c s) := by
  intro j hj
  simp only [List.mem_cons, List.not_mem_nil, or_false, not_or] at hj
  obtain ⟨h_out, h_mbx, h_pmu, h_fw, h_avail, h_hubs, h_dsd, h_usd, h_links, h_fo⟩ := hj
  unfold execLinkCommandReceived
  (try simp [*]) <;> repeat' ((first | split | intro _) <;> try simp [*])
theorem execHubSetFeature_kept (u : US) (f : HubFeature) (on : Bool) (s : State) :
    Kept [.out, .hubs] s (execHubSetFeature u f on s) := by
  intro j hj
  simp only [List.mem_cons, List.not_mem_nil, or_false, not_or] at hj
  obtain ⟨h_out, h_hubs⟩ := hj
  simp [execHubSetFeature, *]
theorem execHostResumeEop_kept (u : US) (s : State) :
    Kept [.out, .hubs, .dsd, .usd] s (execHostResumeEop u s) := by
  intro j hj
  simp only [List.mem_cons, List.not_mem_nil, or_false, not_or] at hj
  obtain ⟨h_out, h_hubs, h_dsd, h_usd⟩ := hj
  simp [execHostResumeEop, *]
theorem execHostChirpKj_kept (u : US) (ns : Nat) (s : State) :
    Kept [.out, .mbx, .avail, .hubs, .dsd, .usd, .epqs, .links, .sched, .place, .fab, .u2d, .vig] s (execHostChirpKj u ns s) := by
  intro j hj
  simp only [List.mem_cons, List.not_mem_nil, or_false, not_or] at hj
  obtain ⟨h_out, h_mbx, h_avail, h_hubs, h_dsd, h_usd, h_epqs, h_links, h_sched, h_place, h_fab, h_u2d, h_vig⟩ := hj
  simp [execHostChirpKj, *]
theorem execU3ExitComplete_kept (d : DS) (reached : Bool) (s : State) :
    Kept [.out, .hubs, .dsd, .epqs, .links, .sched, .fab] s (execU3ExitComplete d reached s) := by
  intro j hj
  simp only [List.mem_cons, List.not_mem_nil, or_false, not_or] at hj
  obtain ⟨h_out, h_hubs, h_dsd, h_epqs, h_links, h_sched, h_fab⟩ := hj
  unfold execU3ExitComplete
  (try simp [*]) <;> repeat' ((first | split | intro _) <;> try simp [*])
theorem execU3EntryComplete_kept (d : DS) (acked : Bool) (s : State) :
    Kept [.out, .hubs, .dsd, .epqs, .links, .sched, .fab] s (execU3EntryComplete d acked s) := by
  intro j hj
  simp only [List.mem_cons, List.not_mem_nil, or_false, not_or] at hj
  obtain ⟨h_out, h_hubs, h_dsd, h_epqs, h_links, h_sched, h_fab⟩ := hj
  simp [execU3EntryComplete, *]
theorem execPdSenderResponseTimeout_kept (p : Port) (s : State) :
    Kept [.out, .now, .mbx, .avail, .hubs, .dsd, .usd, .epqs, .links, .sched, .place, .fab, .u2d, .vig, .tc, .phy, .pwr, .lane,
      .dp] s (execPdSenderResponseTimeout p s) := by
  intro j hj
  simp only [List.mem_cons, List.not_mem_nil, or_false, not_or] at hj
  obtain ⟨h_out, h_now, h_mbx, h_avail, h_hubs, h_dsd, h_usd, h_epqs, h_links, h_sched, h_place, h_fab, h_u2d, h_vig,
      h_tc, h_phy, h_pwr, h_lane, h_dp⟩ := hj
  unfold execPdSenderResponseTimeout
  (try simp [*]) <;> repeat' ((first | split | intro _) <;> try simp [*])
theorem serveOp_kept {op : Nat} {r : Req} {s : State} {x : Res} (h : serveOp op r s = some x) :
    Kept [.out, .now, .freeSeq, .mbx, .flt, .alm, .pmu, .clk, .sup, .fw, .avail, .hubs, .own, .dsd, .usd, .epqs, .links, .sched,
      .place, .memb, .fab, .u2d, .vig, .fo, .tc, .phy, .pwr, .lane, .dp, .lio, .test] s x := by
  unfold serveOp at h
  split at h
  · cases h; exact (execIdentify_kept r s).mono (by decide)
  · cases h; exact (execModeRequest_kept r s).mono (by decide)
  · cases h; exact (execModeStatus_kept r s).mono (by decide)
  · cases h; exact (execLaneTimeRead_kept r s).mono (by decide)
  · cases h; exact (execWakeRecordRead_kept r s).mono (by decide)
  · cases h; exact (execPortAssign_kept r s).mono (by decide)
  · cases h; exact (execPortStatus_kept r s).mono (by decide)
  · cases h; exact (execGuardRuleSet_kept r s).mono (by decide)
  · cases h; exact (execSchedSet_kept r s).mono (by decide)
  · cases h; exact (execShaperSet_kept r s).mono (by decide)
  · cases h; exact (execPolicerSet_kept r s).mono (by decide)
  · cases h; exact (execObserveRead_kept r s).mono (by decide)
  · cases h; exact (execPlaceStatus_kept r s).mono (by decide)
  · cases h; exact (execPlacePin_kept r s).mono (by decide)
  · cases h; exact (execPlaceRebuild_kept r s).mono (by decide)
  · cases h; exact (execVigilPolicySet_kept r s).mono (by decide)
  · cases h; exact (execVigilArm_kept r s).mono (by decide)
  · cases h; exact (execVigilStatus_kept r s).mono (by decide)
  · cases h; exact (execCaptureRead_kept r s).mono (by decide)
  · cases h; exact (execFailoverSet_kept r s).mono (by decide)
  · cases h; exact (execFailback_kept r s).mono (by decide)
  · cases h; exact (execPowerBudgetSet_kept r s).mono (by decide)
  · cases h; exact (execPortPowerPolicy_kept r s).mono (by decide)
  · cases h; exact (execContractStatus_kept r s).mono (by decide)
  · cases h; exact (execRoleSwap_kept r s).mono (by decide)
  · cases h; exact (execGuardStatus_kept r s).mono (by decide)
  · cases h; exact (execDpRoute_kept r s).mono (by decide)
  · cases h; exact (execDrawerKick_kept r s).mono (by decide)
  · cases h; exact (execFaultRead_kept r s).mono (by decide)
  · cases h; exact (execFaultAck_kept r s).mono (by decide)
  · cases h; exact (execFaultInject_kept r s).mono (by decide)
  · cases h; exact (execFence_kept r s).mono (by decide)
  · cases h; exact (execUnfence_kept r s).mono (by decide)
  · cases h; exact (execAlmanacRead_kept r s).mono (by decide)
  · cases h; exact (execAlmanacWrite_kept r s).mono (by decide)
  · cases h; exact (execAlmanacWear_kept r s).mono (by decide)
  · cases h; exact (execFwStage_kept r s).mono (by decide)
  · cases h; exact (execFwActivate_kept r s).mono (by decide)
  · cases h; exact (execFwStatus_kept r s).mono (by decide)
  · cases h; exact (execLoopback_kept r s).mono (by decide)
  · cases h; exact (execEcho_kept r s).mono (by decide)
  · cases h; exact (execPattern_kept r s).mono (by decide)
  · cases h; exact (execRegRead_kept r s).mono (by decide)
  · cases h; exact (execRegWrite_kept r s).mono (by decide)
  · cases h
theorem execCommandTake_kept (badWord : Option Nat) (s : State) :
    Kept [.out, .now, .freeSeq, .mbx, .flt, .alm, .pmu, .clk, .sup, .fw, .avail, .hubs, .own, .dsd, .usd, .epqs, .links, .sched,
      .place, .memb, .fab, .u2d, .vig, .fo, .tc, .phy, .pwr, .lane, .dp, .lio, .test] s (execCommandTake badWord s) := by
  intro j hj
  simp only [List.mem_cons, List.not_mem_nil, or_false, not_or] at hj
  obtain ⟨h_out, h_now, h_freeSeq, h_mbx, h_flt, h_alm, h_pmu, h_clk, h_sup, h_fw, h_avail, h_hubs, h_own, h_dsd,
      h_usd, h_epqs, h_links, h_sched, h_place, h_memb, h_fab, h_u2d, h_vig, h_fo, h_tc, h_phy, h_pwr, h_lane, h_dp,
      h_lio, h_test⟩ := hj
  unfold execCommandTake
  dsimp only
  split
  · exact fresh_only j s h_out
  · split
    · exact fresh_only j s h_out
    · have k (n : Nat) (i : Fin 8) : j.only { fresh s with mbx := consume i n (fresh s).mbx } = j.only s :=
        (only_mbx j _ _ h_mbx).trans (fresh_only j s h_out)
      unfold takeFrom
      dsimp only
      split
      · exact (refuseTake_only j _ _ _ _ _ _ _ _ h_mbx).trans (k _ _)
      · exact (refuseTake_only j _ _ _ _ _ _ _ _ h_mbx).trans (k _ _)
      · split
        · rename_i x h
          have k1 := serveOp_kept h j (by simp [*])
          cases x with
          | next t => exact (show j.only t = _ from k1).trans (k _ _)
          | fault _ => exact k1.elim
          | refused _ => exact k1.elim
        · exact (refuseTake_only j _ _ _ _ _ _ _ _ h_mbx).trans (k _ _)

end Sys2Proof.Machine
end

