-- ==== Sys2Proof/Laws/Access.lean ====
section
/-! SUPPORT. Reading after writing: a part of the state just changed reads as changed, and every other part as before. -/

set_option Elab.async false

namespace Sys2Proof.Machine

@[simp] theorem us_idx_inj (u v : US) : u.idx = v.idx ↔ u = v := by cases u <;> cases v <;> decide

theorem us_ne_idx {u v : US} (h : u ≠ v) : u.idx.val ≠ v.idx.val := by cases u <;> cases v <;> first | exact absurd rfl h | decide

@[simp] theorem us_other_ne (u : US) : u.other ≠ u := by cases u <;> decide

@[simp] theorem dsOf_modDs_self (k : DS) (f : DsData → DsData) (s : State) : dsOf (modDs k f s) k = f (dsOf s k) := by
  simp [dsOf, modDs]
@[simp] theorem dsOf_modDs_ne {j k : DS} (h : j ≠ k) (f : DsData → DsData) (s : State) : dsOf (modDs k f s) j = dsOf s j := by
  have h1 : k.val ≠ j.val := fun e => h (Fin.ext e.symm)
  simp [dsOf, modDs, h1]
@[simp] theorem tcOf_modTc_self (k : Port) (f : Tc → Tc) (s : State) : tcOf (modTc k f s) k = f (tcOf s k) := by
  simp [tcOf, modTc]
@[simp] theorem tcOf_modTc_ne {j k : Port} (h : j ≠ k) (f : Tc → Tc) (s : State) : tcOf (modTc k f s) j = tcOf s j := by
  have h1 : k.val ≠ j.val := fun e => h (Fin.ext e.symm)
  simp [tcOf, modTc, h1]
@[simp] theorem phyOf_modPhy_self (k : Port) (f : PdPhy → PdPhy) (s : State) : phyOf (modPhy k f s) k = f (phyOf s k) := by
  simp [phyOf, modPhy]
@[simp] theorem phyOf_modPhy_ne {j k : Port} (h : j ≠ k) (f : PdPhy → PdPhy) (s : State) : phyOf (modPhy k f s) j = phyOf s j := by
  have h1 : k.val ≠ j.val := fun e => h (Fin.ext e.symm)
  simp [phyOf, modPhy, h1]
@[simp] theorem pwrOf_modPwr_self (k : Port) (f : Pwr → Pwr) (s : State) : pwrOf (modPwr k f s) k = f (pwrOf s k) := by
  simp [pwrOf, modPwr]
@[simp] theorem pwrOf_modPwr_ne {j k : Port} (h : j ≠ k) (f : Pwr → Pwr) (s : State) : pwrOf (modPwr k f s) j = pwrOf s j := by
  have h1 : k.val ≠ j.val := fun e => h (Fin.ext e.symm)
  simp [pwrOf, modPwr, h1]
@[simp] theorem linkOf_modLink_self (k : Port) (f : SsLink → SsLink) (s : State) : linkOf (modLink k f s) k = f (linkOf s k) := by
  simp [linkOf, modLink]
@[simp] theorem linkOf_modLink_ne {j k : Port} (h : j ≠ k) (f : SsLink → SsLink) (s : State) : linkOf (modLink k f s) j = linkOf s j := by
  have h1 : k.val ≠ j.val := fun e => h (Fin.ext e.symm)
  simp [linkOf, modLink, h1]
@[simp] theorem guardOf_modGuard_self (k : Port) (f : GuardPort → GuardPort) (s : State) : guardOf (modGuard k f s) k = f (guardOf s k) := by
  simp [guardOf, modGuard]
@[simp] theorem guardOf_modGuard_ne {j k : Port} (h : j ≠ k) (f : GuardPort → GuardPort) (s : State) : guardOf (modGuard k f s) j = guardOf s j := by
  have h1 : k.val ≠ j.val := fun e => h (Fin.ext e.symm)
  simp [guardOf, modGuard, h1]
@[simp] theorem usOf_modUs_self (k : US) (f : UsData → UsData) (s : State) : usOf (modUs k f s) k = f (usOf s k) := by
  simp [usOf, modUs]
@[simp] theorem usOf_modUs_ne {j k : US} (h : j ≠ k) (f : UsData → UsData) (s : State) : usOf (modUs k f s) j = usOf s j := by
  have h1 := us_ne_idx h
  simp [usOf, modUs, Ne.symm h1]
@[simp] theorem hubOf_modHub_self (k : US) (f : Hub → Hub) (s : State) : hubOf (modHub k f s) k = f (hubOf s k) := by
  simp [hubOf, modHub]
@[simp] theorem hubOf_modHub_ne {j k : US} (h : j ≠ k) (f : Hub → Hub) (s : State) : hubOf (modHub k f s) j = hubOf s j := by
  have h1 := us_ne_idx h
  simp [hubOf, modHub, Ne.symm h1]
@[simp] theorem vigHub_modVigHub_self (k : US) (f : VigHub → VigHub) (s : State) : vigHub (modVigHub k f s) k = f (vigHub s k) := by
  simp [vigHub, modVigHub, modVig]
@[simp] theorem vigHub_modVigHub_ne {j k : US} (h : j ≠ k) (f : VigHub → VigHub) (s : State) : vigHub (modVigHub k f s) j = vigHub s j := by
  have h1 := us_ne_idx h
  simp [vigHub, modVigHub, modVig, Ne.symm h1]
@[simp] theorem foOf_modFo_self (k : US) (f : FoHub → FoHub) (s : State) : foOf (modFo k f s) k = f (foOf s k) := by
  simp [foOf, modFo]
@[simp] theorem foOf_modFo_ne {j k : US} (h : j ≠ k) (f : FoHub → FoHub) (s : State) : foOf (modFo k f s) j = foOf s j := by
  have h1 := us_ne_idx h
  simp [foOf, modFo, Ne.symm h1]

@[simp] theorem slotSt_modSlot_self (u : US) (v : Fin 15) (f : SlotSt → SlotSt) (s : State) :
    slotSt (modSlot u v f s) u v = f (slotSt s u v) := by
  simp [slotSt, modSlot]

@[simp] theorem slotSt_modSlot_slot {u : US} {v w : Fin 15} (h : w ≠ v) (f : SlotSt → SlotSt) (s : State) :
    slotSt (modSlot u v f s) u w = slotSt s u w := by
  have h1 : v.val ≠ w.val := fun e => h (Fin.ext e.symm)
  simp [slotSt, modSlot, h1]

@[simp] theorem slotSt_modSlot_hub {u x : US} (h : x ≠ u) (v w : Fin 15) (f : SlotSt → SlotSt) (s : State) :
    slotSt (modSlot u v f s) x w = slotSt s x w := by
  simp [slotSt, modSlot, h]

@[simp] theorem dsOf_modTc (k : Port) (f : Tc → Tc) (s : State) (j : DS) : dsOf (modTc k f s) j = dsOf s j := rfl
@[simp] theorem dsOf_modPhy (k : Port) (f : PdPhy → PdPhy) (s : State) (j : DS) : dsOf (modPhy k f s) j = dsOf s j := rfl
@[simp] theorem dsOf_modPwr (k : Port) (f : Pwr → Pwr) (s : State) (j : DS) : dsOf (modPwr k f s) j = dsOf s j := rfl
@[simp] theorem dsOf_modLink (k : Port) (f : SsLink → SsLink) (s : State) (j : DS) : dsOf (modLink k f s) j = dsOf s j := rfl
@[simp] theorem dsOf_modGuard (k : Port) (f : GuardPort → GuardPort) (s : State) (j : DS) : dsOf (modGuard k f s) j = dsOf s j := rfl
@[simp] theorem dsOf_modUs (k : US) (f : UsData → UsData) (s : State) (j : DS) : dsOf (modUs k f s) j = dsOf s j := rfl
@[simp] theorem dsOf_modHub (k : US) (f : Hub → Hub) (s : State) (j : DS) : dsOf (modHub k f s) j = dsOf s j := rfl
@[simp] theorem dsOf_modVigHub (k : US) (f : VigHub → VigHub) (s : State) (j : DS) : dsOf (modVigHub k f s) j = dsOf s j := rfl
@[simp] theorem dsOf_modFo (k : US) (f : FoHub → FoHub) (s : State) (j : DS) : dsOf (modFo k f s) j = dsOf s j := rfl
@[simp] theorem dsOf_emit (o : Out) (s : State) (j : DS) : dsOf (emit o s) j = dsOf s j := rfl
@[simp] theorem dsOf_modSlot (u : US) (v : Fin 15) (f : SlotSt → SlotSt) (s : State) (j : DS) :
    dsOf (modSlot u v f s) j = dsOf s j := rfl
@[simp] theorem dsOf_advanceTo (n : Nat) (s : State) (j : DS) : dsOf (advanceTo n s) j = dsOf s j := by
  unfold advanceTo; split <;> rfl
@[simp] theorem tcOf_modDs (k : DS) (f : DsData → DsData) (s : State) (j : Port) : tcOf (modDs k f s) j = tcOf s j := rfl
@[simp] theorem tcOf_modPhy (k : Port) (f : PdPhy → PdPhy) (s : State) (j : Port) : tcOf (modPhy k f s) j = tcOf s j := rfl
@[simp] theorem tcOf_modPwr (k : Port) (f : Pwr → Pwr) (s : State) (j : Port) : tcOf (modPwr k f s) j = tcOf s j := rfl
@[simp] theorem tcOf_modLink (k : Port) (f : SsLink → SsLink) (s : State) (j : Port) : tcOf (modLink k f s) j = tcOf s j := rfl
@[simp] theorem tcOf_modGuard (k : Port) (f : GuardPort → GuardPort) (s : State) (j : Port) : tcOf (modGuard k f s) j = tcOf s j := rfl
@[simp] theorem tcOf_modUs (k : US) (f : UsData → UsData) (s : State) (j : Port) : tcOf (modUs k f s) j = tcOf s j := rfl
@[simp] theorem tcOf_modHub (k : US) (f : Hub → Hub) (s : State) (j : Port) : tcOf (modHub k f s) j = tcOf s j := rfl
@[simp] theorem tcOf_modVigHub (k : US) (f : VigHub → VigHub) (s : State) (j : Port) : tcOf (modVigHub k f s) j = tcOf s j := rfl
@[simp] theorem tcOf_modFo (k : US) (f : FoHub → FoHub) (s : State) (j : Port) : tcOf (modFo k f s) j = tcOf s j := rfl
@[simp] theorem tcOf_emit (o : Out) (s : State) (j : Port) : tcOf (emit o s) j = tcOf s j := rfl
@[simp] theorem tcOf_modSlot (u : US) (v : Fin 15) (f : SlotSt → SlotSt) (s : State) (j : Port) :
    tcOf (modSlot u v f s) j = tcOf s j := rfl
@[simp] theorem tcOf_advanceTo (n : Nat) (s : State) (j : Port) : tcOf (advanceTo n s) j = tcOf s j := by
  unfold advanceTo; split <;> rfl
@[simp] theorem phyOf_modDs (k : DS) (f : DsData → DsData) (s : State) (j : Port) : phyOf (modDs k f s) j = phyOf s j := rfl
@[simp] theorem phyOf_modTc (k : Port) (f : Tc → Tc) (s : State) (j : Port) : phyOf (modTc k f s) j = phyOf s j := rfl
@[simp] theorem phyOf_modPwr (k : Port) (f : Pwr → Pwr) (s : State) (j : Port) : phyOf (modPwr k f s) j = phyOf s j := rfl
@[simp] theorem phyOf_modLink (k : Port) (f : SsLink → SsLink) (s : State) (j : Port) : phyOf (modLink k f s) j = phyOf s j := rfl
@[simp] theorem phyOf_modGuard (k : Port) (f : GuardPort → GuardPort) (s : State) (j : Port) : phyOf (modGuard k f s) j = phyOf s j := rfl
@[simp] theorem phyOf_modUs (k : US) (f : UsData → UsData) (s : State) (j : Port) : phyOf (modUs k f s) j = phyOf s j := rfl
@[simp] theorem phyOf_modHub (k : US) (f : Hub → Hub) (s : State) (j : Port) : phyOf (modHub k f s) j = phyOf s j := rfl
@[simp] theorem phyOf_modVigHub (k : US) (f : VigHub → VigHub) (s : State) (j : Port) : phyOf (modVigHub k f s) j = phyOf s j := rfl
@[simp] theorem phyOf_modFo (k : US) (f : FoHub → FoHub) (s : State) (j : Port) : phyOf (modFo k f s) j = phyOf s j := rfl
@[simp] theorem phyOf_emit (o : Out) (s : State) (j : Port) : phyOf (emit o s) j = phyOf s j := rfl
@[simp] theorem phyOf_modSlot (u : US) (v : Fin 15) (f : SlotSt → SlotSt) (s : State) (j : Port) :
    phyOf (modSlot u v f s) j = phyOf s j := rfl
@[simp] theorem phyOf_advanceTo (n : Nat) (s : State) (j : Port) : phyOf (advanceTo n s) j = phyOf s j := by
  unfold advanceTo; split <;> rfl
@[simp] theorem pwrOf_modDs (k : DS) (f : DsData → DsData) (s : State) (j : Port) : pwrOf (modDs k f s) j = pwrOf s j := rfl
@[simp] theorem pwrOf_modTc (k : Port) (f : Tc → Tc) (s : State) (j : Port) : pwrOf (modTc k f s) j = pwrOf s j := rfl
@[simp] theorem pwrOf_modPhy (k : Port) (f : PdPhy → PdPhy) (s : State) (j : Port) : pwrOf (modPhy k f s) j = pwrOf s j := rfl
@[simp] theorem pwrOf_modLink (k : Port) (f : SsLink → SsLink) (s : State) (j : Port) : pwrOf (modLink k f s) j = pwrOf s j := rfl
@[simp] theorem pwrOf_modGuard (k : Port) (f : GuardPort → GuardPort) (s : State) (j : Port) : pwrOf (modGuard k f s) j = pwrOf s j := rfl
@[simp] theorem pwrOf_modUs (k : US) (f : UsData → UsData) (s : State) (j : Port) : pwrOf (modUs k f s) j = pwrOf s j := rfl
@[simp] theorem pwrOf_modHub (k : US) (f : Hub → Hub) (s : State) (j : Port) : pwrOf (modHub k f s) j = pwrOf s j := rfl
@[simp] theorem pwrOf_modVigHub (k : US) (f : VigHub → VigHub) (s : State) (j : Port) : pwrOf (modVigHub k f s) j = pwrOf s j := rfl
@[simp] theorem pwrOf_modFo (k : US) (f : FoHub → FoHub) (s : State) (j : Port) : pwrOf (modFo k f s) j = pwrOf s j := rfl
@[simp] theorem pwrOf_emit (o : Out) (s : State) (j : Port) : pwrOf (emit o s) j = pwrOf s j := rfl
@[simp] theorem pwrOf_modSlot (u : US) (v : Fin 15) (f : SlotSt → SlotSt) (s : State) (j : Port) :
    pwrOf (modSlot u v f s) j = pwrOf s j := rfl
@[simp] theorem pwrOf_advanceTo (n : Nat) (s : State) (j : Port) : pwrOf (advanceTo n s) j = pwrOf s j := by
  unfold advanceTo; split <;> rfl
@[simp] theorem linkOf_modDs (k : DS) (f : DsData → DsData) (s : State) (j : Port) : linkOf (modDs k f s) j = linkOf s j := rfl
@[simp] theorem linkOf_modTc (k : Port) (f : Tc → Tc) (s : State) (j : Port) : linkOf (modTc k f s) j = linkOf s j := rfl
@[simp] theorem linkOf_modPhy (k : Port) (f : PdPhy → PdPhy) (s : State) (j : Port) : linkOf (modPhy k f s) j = linkOf s j := rfl
@[simp] theorem linkOf_modPwr (k : Port) (f : Pwr → Pwr) (s : State) (j : Port) : linkOf (modPwr k f s) j = linkOf s j := rfl
@[simp] theorem linkOf_modGuard (k : Port) (f : GuardPort → GuardPort) (s : State) (j : Port) : linkOf (modGuard k f s) j = linkOf s j := rfl
@[simp] theorem linkOf_modUs (k : US) (f : UsData → UsData) (s : State) (j : Port) : linkOf (modUs k f s) j = linkOf s j := rfl
@[simp] theorem linkOf_modHub (k : US) (f : Hub → Hub) (s : State) (j : Port) : linkOf (modHub k f s) j = linkOf s j := rfl
@[simp] theorem linkOf_modVigHub (k : US) (f : VigHub → VigHub) (s : State) (j : Port) : linkOf (modVigHub k f s) j = linkOf s j := rfl
@[simp] theorem linkOf_modFo (k : US) (f : FoHub → FoHub) (s : State) (j : Port) : linkOf (modFo k f s) j = linkOf s j := rfl
@[simp] theorem linkOf_emit (o : Out) (s : State) (j : Port) : linkOf (emit o s) j = linkOf s j := rfl
@[simp] theorem linkOf_modSlot (u : US) (v : Fin 15) (f : SlotSt → SlotSt) (s : State) (j : Port) :
    linkOf (modSlot u v f s) j = linkOf s j := rfl
@[simp] theorem linkOf_advanceTo (n : Nat) (s : State) (j : Port) : linkOf (advanceTo n s) j = linkOf s j := by
  unfold advanceTo; split <;> rfl
@[simp] theorem guardOf_modDs (k : DS) (f : DsData → DsData) (s : State) (j : Port) : guardOf (modDs k f s) j = guardOf s j := rfl
@[simp] theorem guardOf_modTc (k : Port) (f : Tc → Tc) (s : State) (j : Port) : guardOf (modTc k f s) j = guardOf s j := rfl
@[simp] theorem guardOf_modPhy (k : Port) (f : PdPhy → PdPhy) (s : State) (j : Port) : guardOf (modPhy k f s) j = guardOf s j := rfl
@[simp] theorem guardOf_modPwr (k : Port) (f : Pwr → Pwr) (s : State) (j : Port) : guardOf (modPwr k f s) j = guardOf s j := rfl
@[simp] theorem guardOf_modLink (k : Port) (f : SsLink → SsLink) (s : State) (j : Port) : guardOf (modLink k f s) j = guardOf s j := rfl
@[simp] theorem guardOf_modUs (k : US) (f : UsData → UsData) (s : State) (j : Port) : guardOf (modUs k f s) j = guardOf s j := rfl
@[simp] theorem guardOf_modHub (k : US) (f : Hub → Hub) (s : State) (j : Port) : guardOf (modHub k f s) j = guardOf s j := rfl
@[simp] theorem guardOf_modVigHub (k : US) (f : VigHub → VigHub) (s : State) (j : Port) : guardOf (modVigHub k f s) j = guardOf s j := rfl
@[simp] theorem guardOf_modFo (k : US) (f : FoHub → FoHub) (s : State) (j : Port) : guardOf (modFo k f s) j = guardOf s j := rfl
@[simp] theorem guardOf_emit (o : Out) (s : State) (j : Port) : guardOf (emit o s) j = guardOf s j := rfl
@[simp] theorem guardOf_modSlot (u : US) (v : Fin 15) (f : SlotSt → SlotSt) (s : State) (j : Port) :
    guardOf (modSlot u v f s) j = guardOf s j := rfl
@[simp] theorem guardOf_advanceTo (n : Nat) (s : State) (j : Port) : guardOf (advanceTo n s) j = guardOf s j := by
  unfold advanceTo; split <;> rfl
@[simp] theorem usOf_modDs (k : DS) (f : DsData → DsData) (s : State) (j : US) : usOf (modDs k f s) j = usOf s j := rfl
@[simp] theorem usOf_modTc (k : Port) (f : Tc → Tc) (s : State) (j : US) : usOf (modTc k f s) j = usOf s j := rfl
@[simp] theorem usOf_modPhy (k : Port) (f : PdPhy → PdPhy) (s : State) (j : US) : usOf (modPhy k f s) j = usOf s j := rfl
@[simp] theorem usOf_modPwr (k : Port) (f : Pwr → Pwr) (s : State) (j : US) : usOf (modPwr k f s) j = usOf s j := rfl
@[simp] theorem usOf_modLink (k : Port) (f : SsLink → SsLink) (s : State) (j : US) : usOf (modLink k f s) j = usOf s j := rfl
@[simp] theorem usOf_modGuard (k : Port) (f : GuardPort → GuardPort) (s : State) (j : US) : usOf (modGuard k f s) j = usOf s j := rfl
@[simp] theorem usOf_modHub (k : US) (f : Hub → Hub) (s : State) (j : US) : usOf (modHub k f s) j = usOf s j := rfl
@[simp] theorem usOf_modVigHub (k : US) (f : VigHub → VigHub) (s : State) (j : US) : usOf (modVigHub k f s) j = usOf s j := rfl
@[simp] theorem usOf_modFo (k : US) (f : FoHub → FoHub) (s : State) (j : US) : usOf (modFo k f s) j = usOf s j := rfl
@[simp] theorem usOf_emit (o : Out) (s : State) (j : US) : usOf (emit o s) j = usOf s j := rfl
@[simp] theorem usOf_modSlot (u : US) (v : Fin 15) (f : SlotSt → SlotSt) (s : State) (j : US) :
    usOf (modSlot u v f s) j = usOf s j := rfl
@[simp] theorem usOf_advanceTo (n : Nat) (s : State) (j : US) : usOf (advanceTo n s) j = usOf s j := by
  unfold advanceTo; split <;> rfl
@[simp] theorem hubOf_modDs (k : DS) (f : DsData → DsData) (s : State) (j : US) : hubOf (modDs k f s) j = hubOf s j := rfl
@[simp] theorem hubOf_modTc (k : Port) (f : Tc → Tc) (s : State) (j : US) : hubOf (modTc k f s) j = hubOf s j := rfl
@[simp] theorem hubOf_modPhy (k : Port) (f : PdPhy → PdPhy) (s : State) (j : US) : hubOf (modPhy k f s) j = hubOf s j := rfl
@[simp] theorem hubOf_modPwr (k : Port) (f : Pwr → Pwr) (s : State) (j : US) : hubOf (modPwr k f s) j = hubOf s j := rfl
@[simp] theorem hubOf_modLink (k : Port) (f : SsLink → SsLink) (s : State) (j : US) : hubOf (modLink k f s) j = hubOf s j := rfl
@[simp] theorem hubOf_modGuard (k : Port) (f : GuardPort → GuardPort) (s : State) (j : US) : hubOf (modGuard k f s) j = hubOf s j := rfl
@[simp] theorem hubOf_modUs (k : US) (f : UsData → UsData) (s : State) (j : US) : hubOf (modUs k f s) j = hubOf s j := rfl
@[simp] theorem hubOf_modVigHub (k : US) (f : VigHub → VigHub) (s : State) (j : US) : hubOf (modVigHub k f s) j = hubOf s j := rfl
@[simp] theorem hubOf_modFo (k : US) (f : FoHub → FoHub) (s : State) (j : US) : hubOf (modFo k f s) j = hubOf s j := rfl
@[simp] theorem hubOf_emit (o : Out) (s : State) (j : US) : hubOf (emit o s) j = hubOf s j := rfl
@[simp] theorem hubOf_advanceTo (n : Nat) (s : State) (j : US) : hubOf (advanceTo n s) j = hubOf s j := by
  unfold advanceTo; split <;> rfl
@[simp] theorem vigHub_modDs (k : DS) (f : DsData → DsData) (s : State) (j : US) : vigHub (modDs k f s) j = vigHub s j := rfl
@[simp] theorem vigHub_modTc (k : Port) (f : Tc → Tc) (s : State) (j : US) : vigHub (modTc k f s) j = vigHub s j := rfl
@[simp] theorem vigHub_modPhy (k : Port) (f : PdPhy → PdPhy) (s : State) (j : US) : vigHub (modPhy k f s) j = vigHub s j := rfl
@[simp] theorem vigHub_modPwr (k : Port) (f : Pwr → Pwr) (s : State) (j : US) : vigHub (modPwr k f s) j = vigHub s j := rfl
@[simp] theorem vigHub_modLink (k : Port) (f : SsLink → SsLink) (s : State) (j : US) : vigHub (modLink k f s) j = vigHub s j := rfl
@[simp] theorem vigHub_modGuard (k : Port) (f : GuardPort → GuardPort) (s : State) (j : US) : vigHub (modGuard k f s) j = vigHub s j := rfl
@[simp] theorem vigHub_modUs (k : US) (f : UsData → UsData) (s : State) (j : US) : vigHub (modUs k f s) j = vigHub s j := rfl
@[simp] theorem vigHub_modHub (k : US) (f : Hub → Hub) (s : State) (j : US) : vigHub (modHub k f s) j = vigHub s j := rfl
@[simp] theorem vigHub_modFo (k : US) (f : FoHub → FoHub) (s : State) (j : US) : vigHub (modFo k f s) j = vigHub s j := rfl
@[simp] theorem vigHub_emit (o : Out) (s : State) (j : US) : vigHub (emit o s) j = vigHub s j := rfl
@[simp] theorem vigHub_modSlot (u : US) (v : Fin 15) (f : SlotSt → SlotSt) (s : State) (j : US) :
    vigHub (modSlot u v f s) j = vigHub s j := rfl
@[simp] theorem vigHub_advanceTo (n : Nat) (s : State) (j : US) : vigHub (advanceTo n s) j = vigHub s j := by
  unfold advanceTo; split <;> rfl
@[simp] theorem foOf_modDs (k : DS) (f : DsData → DsData) (s : State) (j : US) : foOf (modDs k f s) j = foOf s j := rfl
@[simp] theorem foOf_modTc (k : Port) (f : Tc → Tc) (s : State) (j : US) : foOf (modTc k f s) j = foOf s j := rfl
@[simp] theorem foOf_modPhy (k : Port) (f : PdPhy → PdPhy) (s : State) (j : US) : foOf (modPhy k f s) j = foOf s j := rfl
@[simp] theorem foOf_modPwr (k : Port) (f : Pwr → Pwr) (s : State) (j : US) : foOf (modPwr k f s) j = foOf s j := rfl
@[simp] theorem foOf_modLink (k : Port) (f : SsLink → SsLink) (s : State) (j : US) : foOf (modLink k f s) j = foOf s j := rfl
@[simp] theorem foOf_modGuard (k : Port) (f : GuardPort → GuardPort) (s : State) (j : US) : foOf (modGuard k f s) j = foOf s j := rfl
@[simp] theorem foOf_modUs (k : US) (f : UsData → UsData) (s : State) (j : US) : foOf (modUs k f s) j = foOf s j := rfl
@[simp] theorem foOf_modHub (k : US) (f : Hub → Hub) (s : State) (j : US) : foOf (modHub k f s) j = foOf s j := rfl
@[simp] theorem foOf_modVigHub (k : US) (f : VigHub → VigHub) (s : State) (j : US) : foOf (modVigHub k f s) j = foOf s j := rfl
@[simp] theorem foOf_emit (o : Out) (s : State) (j : US) : foOf (emit o s) j = foOf s j := rfl
@[simp] theorem foOf_modSlot (u : US) (v : Fin 15) (f : SlotSt → SlotSt) (s : State) (j : US) :
    foOf (modSlot u v f s) j = foOf s j := rfl
@[simp] theorem foOf_advanceTo (n : Nat) (s : State) (j : US) : foOf (advanceTo n s) j = foOf s j := by
  unfold advanceTo; split <;> rfl
@[simp] theorem advanceTo_pending (n : Nat) (s : State) : (advanceTo n s).pending = s.pending := rfl
@[simp] theorem emit_pending (o : Out) (s : State) : (emit o s).pending = s.pending := rfl
@[simp] theorem advanceTo_out (n : Nat) (s : State) : (advanceTo n s).out = s.out := rfl
@[simp] theorem emit_now (o : Out) (s : State) : (emit o s).now = s.now := rfl
@[simp] theorem advanceTo_freeSeq (n : Nat) (s : State) : (advanceTo n s).freeSeq = s.freeSeq := rfl
@[simp] theorem emit_freeSeq (o : Out) (s : State) : (emit o s).freeSeq = s.freeSeq := rfl
@[simp] theorem advanceTo_mbx (n : Nat) (s : State) : (advanceTo n s).mbx = s.mbx := rfl
@[simp] theorem emit_mbx (o : Out) (s : State) : (emit o s).mbx = s.mbx := rfl
@[simp] theorem advanceTo_flt (n : Nat) (s : State) : (advanceTo n s).flt = s.flt := rfl
@[simp] theorem emit_flt (o : Out) (s : State) : (emit o s).flt = s.flt := rfl
@[simp] theorem advanceTo_alm (n : Nat) (s : State) : (advanceTo n s).alm = s.alm := rfl
@[simp] theorem emit_alm (o : Out) (s : State) : (emit o s).alm = s.alm := rfl
@[simp] theorem advanceTo_pmu (n : Nat) (s : State) : (advanceTo n s).pmu = s.pmu := rfl
@[simp] theorem emit_pmu (o : Out) (s : State) : (emit o s).pmu = s.pmu := rfl
@[simp] theorem advanceTo_reg (n : Nat) (s : State) : (advanceTo n s).reg = s.reg := rfl
@[simp] theorem emit_reg (o : Out) (s : State) : (emit o s).reg = s.reg := rfl
@[simp] theorem advanceTo_clk (n : Nat) (s : State) : (advanceTo n s).clk = s.clk := rfl
@[simp] theorem emit_clk (o : Out) (s : State) : (emit o s).clk = s.clk := rfl
@[simp] theorem advanceTo_wake (n : Nat) (s : State) : (advanceTo n s).wake = s.wake := rfl
@[simp] theorem emit_wake (o : Out) (s : State) : (emit o s).wake = s.wake := rfl
@[simp] theorem advanceTo_sup (n : Nat) (s : State) : (advanceTo n s).sup = s.sup := rfl
@[simp] theorem emit_sup (o : Out) (s : State) : (emit o s).sup = s.sup := rfl
@[simp] theorem advanceTo_fw (n : Nat) (s : State) : (advanceTo n s).fw = s.fw := rfl
@[simp] theorem emit_fw (o : Out) (s : State) : (emit o s).fw = s.fw := rfl
@[simp] theorem advanceTo_avail (n : Nat) (s : State) : (advanceTo n s).avail = s.avail := rfl
@[simp] theorem emit_avail (o : Out) (s : State) : (emit o s).avail = s.avail := rfl
@[simp] theorem advanceTo_hubs (n : Nat) (s : State) : (advanceTo n s).hubs = s.hubs := rfl
@[simp] theorem emit_hubs (o : Out) (s : State) : (emit o s).hubs = s.hubs := rfl
@[simp] theorem advanceTo_own (n : Nat) (s : State) : (advanceTo n s).own = s.own := rfl
@[simp] theorem emit_own (o : Out) (s : State) : (emit o s).own = s.own := rfl
@[simp] theorem advanceTo_dsd (n : Nat) (s : State) : (advanceTo n s).dsd = s.dsd := rfl
@[simp] theorem emit_dsd (o : Out) (s : State) : (emit o s).dsd = s.dsd := rfl
@[simp] theorem advanceTo_usd (n : Nat) (s : State) : (advanceTo n s).usd = s.usd := rfl
@[simp] theorem emit_usd (o : Out) (s : State) : (emit o s).usd = s.usd := rfl
@[simp] theorem advanceTo_epqs (n : Nat) (s : State) : (advanceTo n s).epqs = s.epqs := rfl
@[simp] theorem emit_epqs (o : Out) (s : State) : (emit o s).epqs = s.epqs := rfl
@[simp] theorem advanceTo_links (n : Nat) (s : State) : (advanceTo n s).links = s.links := rfl
@[simp] theorem emit_links (o : Out) (s : State) : (emit o s).links = s.links := rfl
@[simp] theorem advanceTo_sched (n : Nat) (s : State) : (advanceTo n s).sched = s.sched := rfl
@[simp] theorem emit_sched (o : Out) (s : State) : (emit o s).sched = s.sched := rfl
@[simp] theorem advanceTo_place (n : Nat) (s : State) : (advanceTo n s).place = s.place := rfl
@[simp] theorem emit_place (o : Out) (s : State) : (emit o s).place = s.place := rfl
@[simp] theorem advanceTo_memb (n : Nat) (s : State) : (advanceTo n s).memb = s.memb := rfl
@[simp] theorem emit_memb (o : Out) (s : State) : (emit o s).memb = s.memb := rfl
@[simp] theorem advanceTo_u2d (n : Nat) (s : State) : (advanceTo n s).u2d = s.u2d := rfl
@[simp] theorem emit_u2d (o : Out) (s : State) : (emit o s).u2d = s.u2d := rfl
@[simp] theorem advanceTo_u2u (n : Nat) (s : State) : (advanceTo n s).u2u = s.u2u := rfl
@[simp] theorem emit_u2u (o : Out) (s : State) : (emit o s).u2u = s.u2u := rfl
@[simp] theorem advanceTo_vig (n : Nat) (s : State) : (advanceTo n s).vig = s.vig := rfl
@[simp] theorem emit_vig (o : Out) (s : State) : (emit o s).vig = s.vig := rfl
@[simp] theorem advanceTo_fo (n : Nat) (s : State) : (advanceTo n s).fo = s.fo := rfl
@[simp] theorem emit_fo (o : Out) (s : State) : (emit o s).fo = s.fo := rfl
@[simp] theorem advanceTo_tc (n : Nat) (s : State) : (advanceTo n s).tc = s.tc := rfl
@[simp] theorem emit_tc (o : Out) (s : State) : (emit o s).tc = s.tc := rfl
@[simp] theorem advanceTo_phy (n : Nat) (s : State) : (advanceTo n s).phy = s.phy := rfl
@[simp] theorem emit_phy (o : Out) (s : State) : (emit o s).phy = s.phy := rfl
@[simp] theorem advanceTo_pwr (n : Nat) (s : State) : (advanceTo n s).pwr = s.pwr := rfl
@[simp] theorem emit_pwr (o : Out) (s : State) : (emit o s).pwr = s.pwr := rfl
@[simp] theorem advanceTo_lane (n : Nat) (s : State) : (advanceTo n s).lane = s.lane := rfl
@[simp] theorem emit_lane (o : Out) (s : State) : (emit o s).lane = s.lane := rfl
@[simp] theorem advanceTo_guard (n : Nat) (s : State) : (advanceTo n s).guard = s.guard := rfl
@[simp] theorem emit_guard (o : Out) (s : State) : (emit o s).guard = s.guard := rfl
@[simp] theorem advanceTo_dp (n : Nat) (s : State) : (advanceTo n s).dp = s.dp := rfl
@[simp] theorem emit_dp (o : Out) (s : State) : (emit o s).dp = s.dp := rfl
@[simp] theorem advanceTo_lio (n : Nat) (s : State) : (advanceTo n s).lio = s.lio := rfl
@[simp] theorem emit_lio (o : Out) (s : State) : (emit o s).lio = s.lio := rfl
@[simp] theorem advanceTo_test (n : Nat) (s : State) : (advanceTo n s).test = s.test := rfl
@[simp] theorem emit_test (o : Out) (s : State) : (emit o s).test = s.test := rfl
@[simp] theorem advanceTo_therm (n : Nat) (s : State) : (advanceTo n s).therm = s.therm := rfl
@[simp] theorem emit_therm (o : Out) (s : State) : (emit o s).therm = s.therm := rfl
@[simp] theorem modDs_pending (k : DS) (f : DsData → DsData) (s : State) : (modDs k f s).pending = s.pending := rfl
@[simp] theorem modDs_out (k : DS) (f : DsData → DsData) (s : State) : (modDs k f s).out = s.out := rfl
@[simp] theorem modDs_now (k : DS) (f : DsData → DsData) (s : State) : (modDs k f s).now = s.now := rfl
@[simp] theorem modDs_freeSeq (k : DS) (f : DsData → DsData) (s : State) : (modDs k f s).freeSeq = s.freeSeq := rfl
@[simp] theorem modDs_mbx (k : DS) (f : DsData → DsData) (s : State) : (modDs k f s).mbx = s.mbx := rfl
@[simp] theorem modDs_flt (k : DS) (f : DsData → DsData) (s : State) : (modDs k f s).flt = s.flt := rfl
@[simp] theorem modDs_alm (k : DS) (f : DsData → DsData) (s : State) : (modDs k f s).alm = s.alm := rfl
@[simp] theorem modDs_pmu (k : DS) (f : DsData → DsData) (s : State) : (modDs k f s).pmu = s.pmu := rfl
@[simp] theorem modDs_reg (k : DS) (f : DsData → DsData) (s : State) : (modDs k f s).reg = s.reg := rfl
@[simp] theorem modDs_clk (k : DS) (f : DsData → DsData) (s : State) : (modDs k f s).clk = s.clk := rfl
@[simp] theorem modDs_wake (k : DS) (f : DsData → DsData) (s : State) : (modDs k f s).wake = s.wake := rfl
@[simp] theorem modDs_sup (k : DS) (f : DsData → DsData) (s : State) : (modDs k f s).sup = s.sup := rfl
@[simp] theorem modDs_fw (k : DS) (f : DsData → DsData) (s : State) : (modDs k f s).fw = s.fw := rfl
@[simp] theorem modDs_avail (k : DS) (f : DsData → DsData) (s : State) : (modDs k f s).avail = s.avail := rfl
@[simp] theorem modDs_hubs (k : DS) (f : DsData → DsData) (s : State) : (modDs k f s).hubs = s.hubs := rfl
@[simp] theorem modDs_own (k : DS) (f : DsData → DsData) (s : State) : (modDs k f s).own = s.own := rfl
@[simp] theorem modDs_usd (k : DS) (f : DsData → DsData) (s : State) : (modDs k f s).usd = s.usd := rfl
@[simp] theorem modDs_epqs (k : DS) (f : DsData → DsData) (s : State) : (modDs k f s).epqs = s.epqs := rfl
@[simp] theorem modDs_links (k : DS) (f : DsData → DsData) (s : State) : (modDs k f s).links = s.links := rfl
@[simp] theorem modDs_sched (k : DS) (f : DsData → DsData) (s : State) : (modDs k f s).sched = s.sched := rfl
@[simp] theorem modDs_place (k : DS) (f : DsData → DsData) (s : State) : (modDs k f s).place = s.place := rfl
@[simp] theorem modDs_memb (k : DS) (f : DsData → DsData) (s : State) : (modDs k f s).memb = s.memb := rfl
@[simp] theorem modDs_u2d (k : DS) (f : DsData → DsData) (s : State) : (modDs k f s).u2d = s.u2d := rfl
@[simp] theorem modDs_u2u (k : DS) (f : DsData → DsData) (s : State) : (modDs k f s).u2u = s.u2u := rfl
@[simp] theorem modDs_vig (k : DS) (f : DsData → DsData) (s : State) : (modDs k f s).vig = s.vig := rfl
@[simp] theorem modDs_fo (k : DS) (f : DsData → DsData) (s : State) : (modDs k f s).fo = s.fo := rfl
@[simp] theorem modDs_tc (k : DS) (f : DsData → DsData) (s : State) : (modDs k f s).tc = s.tc := rfl
@[simp] theorem modDs_phy (k : DS) (f : DsData → DsData) (s : State) : (modDs k f s).phy = s.phy := rfl
@[simp] theorem modDs_pwr (k : DS) (f : DsData → DsData) (s : State) : (modDs k f s).pwr = s.pwr := rfl
@[simp] theorem modDs_lane (k : DS) (f : DsData → DsData) (s : State) : (modDs k f s).lane = s.lane := rfl
@[simp] theorem modDs_guard (k : DS) (f : DsData → DsData) (s : State) : (modDs k f s).guard = s.guard := rfl
@[simp] theorem modDs_dp (k : DS) (f : DsData → DsData) (s : State) : (modDs k f s).dp = s.dp := rfl
@[simp] theorem modDs_lio (k : DS) (f : DsData → DsData) (s : State) : (modDs k f s).lio = s.lio := rfl
@[simp] theorem modDs_test (k : DS) (f : DsData → DsData) (s : State) : (modDs k f s).test = s.test := rfl
@[simp] theorem modDs_therm (k : DS) (f : DsData → DsData) (s : State) : (modDs k f s).therm = s.therm := rfl
@[simp] theorem modTc_pending (k : Port) (f : Tc → Tc) (s : State) : (modTc k f s).pending = s.pending := rfl
@[simp] theorem modTc_out (k : Port) (f : Tc → Tc) (s : State) : (modTc k f s).out = s.out := rfl
@[simp] theorem modTc_now (k : Port) (f : Tc → Tc) (s : State) : (modTc k f s).now = s.now := rfl
@[simp] theorem modTc_freeSeq (k : Port) (f : Tc → Tc) (s : State) : (modTc k f s).freeSeq = s.freeSeq := rfl
@[simp] theorem modTc_mbx (k : Port) (f : Tc → Tc) (s : State) : (modTc k f s).mbx = s.mbx := rfl
@[simp] theorem modTc_flt (k : Port) (f : Tc → Tc) (s : State) : (modTc k f s).flt = s.flt := rfl
@[simp] theorem modTc_alm (k : Port) (f : Tc → Tc) (s : State) : (modTc k f s).alm = s.alm := rfl
@[simp] theorem modTc_pmu (k : Port) (f : Tc → Tc) (s : State) : (modTc k f s).pmu = s.pmu := rfl
@[simp] theorem modTc_reg (k : Port) (f : Tc → Tc) (s : State) : (modTc k f s).reg = s.reg := rfl
@[simp] theorem modTc_clk (k : Port) (f : Tc → Tc) (s : State) : (modTc k f s).clk = s.clk := rfl
@[simp] theorem modTc_wake (k : Port) (f : Tc → Tc) (s : State) : (modTc k f s).wake = s.wake := rfl
@[simp] theorem modTc_sup (k : Port) (f : Tc → Tc) (s : State) : (modTc k f s).sup = s.sup := rfl
@[simp] theorem modTc_fw (k : Port) (f : Tc → Tc) (s : State) : (modTc k f s).fw = s.fw := rfl
@[simp] theorem modTc_avail (k : Port) (f : Tc → Tc) (s : State) : (modTc k f s).avail = s.avail := rfl
@[simp] theorem modTc_hubs (k : Port) (f : Tc → Tc) (s : State) : (modTc k f s).hubs = s.hubs := rfl
@[simp] theorem modTc_own (k : Port) (f : Tc → Tc) (s : State) : (modTc k f s).own = s.own := rfl
@[simp] theorem modTc_dsd (k : Port) (f : Tc → Tc) (s : State) : (modTc k f s).dsd = s.dsd := rfl
@[simp] theorem modTc_usd (k : Port) (f : Tc → Tc) (s : State) : (modTc k f s).usd = s.usd := rfl
@[simp] theorem modTc_epqs (k : Port) (f : Tc → Tc) (s : State) : (modTc k f s).epqs = s.epqs := rfl
@[simp] theorem modTc_links (k : Port) (f : Tc → Tc) (s : State) : (modTc k f s).links = s.links := rfl
@[simp] theorem modTc_sched (k : Port) (f : Tc → Tc) (s : State) : (modTc k f s).sched = s.sched := rfl
@[simp] theorem modTc_place (k : Port) (f : Tc → Tc) (s : State) : (modTc k f s).place = s.place := rfl
@[simp] theorem modTc_memb (k : Port) (f : Tc → Tc) (s : State) : (modTc k f s).memb = s.memb := rfl
@[simp] theorem modTc_u2d (k : Port) (f : Tc → Tc) (s : State) : (modTc k f s).u2d = s.u2d := rfl
@[simp] theorem modTc_u2u (k : Port) (f : Tc → Tc) (s : State) : (modTc k f s).u2u = s.u2u := rfl
@[simp] theorem modTc_vig (k : Port) (f : Tc → Tc) (s : State) : (modTc k f s).vig = s.vig := rfl
@[simp] theorem modTc_fo (k : Port) (f : Tc → Tc) (s : State) : (modTc k f s).fo = s.fo := rfl
@[simp] theorem modTc_phy (k : Port) (f : Tc → Tc) (s : State) : (modTc k f s).phy = s.phy := rfl
@[simp] theorem modTc_pwr (k : Port) (f : Tc → Tc) (s : State) : (modTc k f s).pwr = s.pwr := rfl
@[simp] theorem modTc_lane (k : Port) (f : Tc → Tc) (s : State) : (modTc k f s).lane = s.lane := rfl
@[simp] theorem modTc_guard (k : Port) (f : Tc → Tc) (s : State) : (modTc k f s).guard = s.guard := rfl
@[simp] theorem modTc_dp (k : Port) (f : Tc → Tc) (s : State) : (modTc k f s).dp = s.dp := rfl
@[simp] theorem modTc_lio (k : Port) (f : Tc → Tc) (s : State) : (modTc k f s).lio = s.lio := rfl
@[simp] theorem modTc_test (k : Port) (f : Tc → Tc) (s : State) : (modTc k f s).test = s.test := rfl
@[simp] theorem modTc_therm (k : Port) (f : Tc → Tc) (s : State) : (modTc k f s).therm = s.therm := rfl
@[simp] theorem modPhy_pending (k : Port) (f : PdPhy → PdPhy) (s : State) : (modPhy k f s).pending = s.pending := rfl
@[simp] theorem modPhy_out (k : Port) (f : PdPhy → PdPhy) (s : State) : (modPhy k f s).out = s.out := rfl
@[simp] theorem modPhy_now (k : Port) (f : PdPhy → PdPhy) (s : State) : (modPhy k f s).now = s.now := rfl
@[simp] theorem modPhy_freeSeq (k : Port) (f : PdPhy → PdPhy) (s : State) : (modPhy k f s).freeSeq = s.freeSeq := rfl
@[simp] theorem modPhy_mbx (k : Port) (f : PdPhy → PdPhy) (s : State) : (modPhy k f s).mbx = s.mbx := rfl
@[simp] theorem modPhy_flt (k : Port) (f : PdPhy → PdPhy) (s : State) : (modPhy k f s).flt = s.flt := rfl
@[simp] theorem modPhy_alm (k : Port) (f : PdPhy → PdPhy) (s : State) : (modPhy k f s).alm = s.alm := rfl
@[simp] theorem modPhy_pmu (k : Port) (f : PdPhy → PdPhy) (s : State) : (modPhy k f s).pmu = s.pmu := rfl
@[simp] theorem modPhy_reg (k : Port) (f : PdPhy → PdPhy) (s : State) : (modPhy k f s).reg = s.reg := rfl
@[simp] theorem modPhy_clk (k : Port) (f : PdPhy → PdPhy) (s : State) : (modPhy k f s).clk = s.clk := rfl
@[simp] theorem modPhy_wake (k : Port) (f : PdPhy → PdPhy) (s : State) : (modPhy k f s).wake = s.wake := rfl
@[simp] theorem modPhy_sup (k : Port) (f : PdPhy → PdPhy) (s : State) : (modPhy k f s).sup = s.sup := rfl
@[simp] theorem modPhy_fw (k : Port) (f : PdPhy → PdPhy) (s : State) : (modPhy k f s).fw = s.fw := rfl
@[simp] theorem modPhy_avail (k : Port) (f : PdPhy → PdPhy) (s : State) : (modPhy k f s).avail = s.avail := rfl
@[simp] theorem modPhy_hubs (k : Port) (f : PdPhy → PdPhy) (s : State) : (modPhy k f s).hubs = s.hubs := rfl
@[simp] theorem modPhy_own (k : Port) (f : PdPhy → PdPhy) (s : State) : (modPhy k f s).own = s.own := rfl
@[simp] theorem modPhy_dsd (k : Port) (f : PdPhy → PdPhy) (s : State) : (modPhy k f s).dsd = s.dsd := rfl
@[simp] theorem modPhy_usd (k : Port) (f : PdPhy → PdPhy) (s : State) : (modPhy k f s).usd = s.usd := rfl
@[simp] theorem modPhy_epqs (k : Port) (f : PdPhy → PdPhy) (s : State) : (modPhy k f s).epqs = s.epqs := rfl
@[simp] theorem modPhy_links (k : Port) (f : PdPhy → PdPhy) (s : State) : (modPhy k f s).links = s.links := rfl
@[simp] theorem modPhy_sched (k : Port) (f : PdPhy → PdPhy) (s : State) : (modPhy k f s).sched = s.sched := rfl
@[simp] theorem modPhy_place (k : Port) (f : PdPhy → PdPhy) (s : State) : (modPhy k f s).place = s.place := rfl
@[simp] theorem modPhy_memb (k : Port) (f : PdPhy → PdPhy) (s : State) : (modPhy k f s).memb = s.memb := rfl
@[simp] theorem modPhy_u2d (k : Port) (f : PdPhy → PdPhy) (s : State) : (modPhy k f s).u2d = s.u2d := rfl
@[simp] theorem modPhy_u2u (k : Port) (f : PdPhy → PdPhy) (s : State) : (modPhy k f s).u2u = s.u2u := rfl
@[simp] theorem modPhy_vig (k : Port) (f : PdPhy → PdPhy) (s : State) : (modPhy k f s).vig = s.vig := rfl
@[simp] theorem modPhy_fo (k : Port) (f : PdPhy → PdPhy) (s : State) : (modPhy k f s).fo = s.fo := rfl
@[simp] theorem modPhy_tc (k : Port) (f : PdPhy → PdPhy) (s : State) : (modPhy k f s).tc = s.tc := rfl
@[simp] theorem modPhy_pwr (k : Port) (f : PdPhy → PdPhy) (s : State) : (modPhy k f s).pwr = s.pwr := rfl
@[simp] theorem modPhy_lane (k : Port) (f : PdPhy → PdPhy) (s : State) : (modPhy k f s).lane = s.lane := rfl
@[simp] theorem modPhy_guard (k : Port) (f : PdPhy → PdPhy) (s : State) : (modPhy k f s).guard = s.guard := rfl
@[simp] theorem modPhy_dp (k : Port) (f : PdPhy → PdPhy) (s : State) : (modPhy k f s).dp = s.dp := rfl
@[simp] theorem modPhy_lio (k : Port) (f : PdPhy → PdPhy) (s : State) : (modPhy k f s).lio = s.lio := rfl
@[simp] theorem modPhy_test (k : Port) (f : PdPhy → PdPhy) (s : State) : (modPhy k f s).test = s.test := rfl
@[simp] theorem modPhy_therm (k : Port) (f : PdPhy → PdPhy) (s : State) : (modPhy k f s).therm = s.therm := rfl
@[simp] theorem modPwr_pending (k : Port) (f : Pwr → Pwr) (s : State) : (modPwr k f s).pending = s.pending := rfl
@[simp] theorem modPwr_out (k : Port) (f : Pwr → Pwr) (s : State) : (modPwr k f s).out = s.out := rfl
@[simp] theorem modPwr_now (k : Port) (f : Pwr → Pwr) (s : State) : (modPwr k f s).now = s.now := rfl
@[simp] theorem modPwr_freeSeq (k : Port) (f : Pwr → Pwr) (s : State) : (modPwr k f s).freeSeq = s.freeSeq := rfl
@[simp] theorem modPwr_mbx (k : Port) (f : Pwr → Pwr) (s : State) : (modPwr k f s).mbx = s.mbx := rfl
@[simp] theorem modPwr_flt (k : Port) (f : Pwr → Pwr) (s : State) : (modPwr k f s).flt = s.flt := rfl
@[simp] theorem modPwr_alm (k : Port) (f : Pwr → Pwr) (s : State) : (modPwr k f s).alm = s.alm := rfl
@[simp] theorem modPwr_pmu (k : Port) (f : Pwr → Pwr) (s : State) : (modPwr k f s).pmu = s.pmu := rfl
@[simp] theorem modPwr_reg (k : Port) (f : Pwr → Pwr) (s : State) : (modPwr k f s).reg = s.reg := rfl
@[simp] theorem modPwr_clk (k : Port) (f : Pwr → Pwr) (s : State) : (modPwr k f s).clk = s.clk := rfl
@[simp] theorem modPwr_wake (k : Port) (f : Pwr → Pwr) (s : State) : (modPwr k f s).wake = s.wake := rfl
@[simp] theorem modPwr_sup (k : Port) (f : Pwr → Pwr) (s : State) : (modPwr k f s).sup = s.sup := rfl
@[simp] theorem modPwr_fw (k : Port) (f : Pwr → Pwr) (s : State) : (modPwr k f s).fw = s.fw := rfl
@[simp] theorem modPwr_avail (k : Port) (f : Pwr → Pwr) (s : State) : (modPwr k f s).avail = s.avail := rfl
@[simp] theorem modPwr_hubs (k : Port) (f : Pwr → Pwr) (s : State) : (modPwr k f s).hubs = s.hubs := rfl
@[simp] theorem modPwr_own (k : Port) (f : Pwr → Pwr) (s : State) : (modPwr k f s).own = s.own := rfl
@[simp] theorem modPwr_dsd (k : Port) (f : Pwr → Pwr) (s : State) : (modPwr k f s).dsd = s.dsd := rfl
@[simp] theorem modPwr_usd (k : Port) (f : Pwr → Pwr) (s : State) : (modPwr k f s).usd = s.usd := rfl
@[simp] theorem modPwr_epqs (k : Port) (f : Pwr → Pwr) (s : State) : (modPwr k f s).epqs = s.epqs := rfl
@[simp] theorem modPwr_links (k : Port) (f : Pwr → Pwr) (s : State) : (modPwr k f s).links = s.links := rfl
@[simp] theorem modPwr_sched (k : Port) (f : Pwr → Pwr) (s : State) : (modPwr k f s).sched = s.sched := rfl
@[simp] theorem modPwr_place (k : Port) (f : Pwr → Pwr) (s : State) : (modPwr k f s).place = s.place := rfl
@[simp] theorem modPwr_memb (k : Port) (f : Pwr → Pwr) (s : State) : (modPwr k f s).memb = s.memb := rfl
@[simp] theorem modPwr_u2d (k : Port) (f : Pwr → Pwr) (s : State) : (modPwr k f s).u2d = s.u2d := rfl
@[simp] theorem modPwr_u2u (k : Port) (f : Pwr → Pwr) (s : State) : (modPwr k f s).u2u = s.u2u := rfl
@[simp] theorem modPwr_vig (k : Port) (f : Pwr → Pwr) (s : State) : (modPwr k f s).vig = s.vig := rfl
@[simp] theorem modPwr_fo (k : Port) (f : Pwr → Pwr) (s : State) : (modPwr k f s).fo = s.fo := rfl
@[simp] theorem modPwr_tc (k : Port) (f : Pwr → Pwr) (s : State) : (modPwr k f s).tc = s.tc := rfl
@[simp] theorem modPwr_phy (k : Port) (f : Pwr → Pwr) (s : State) : (modPwr k f s).phy = s.phy := rfl
@[simp] theorem modPwr_lane (k : Port) (f : Pwr → Pwr) (s : State) : (modPwr k f s).lane = s.lane := rfl
@[simp] theorem modPwr_guard (k : Port) (f : Pwr → Pwr) (s : State) : (modPwr k f s).guard = s.guard := rfl
@[simp] theorem modPwr_dp (k : Port) (f : Pwr → Pwr) (s : State) : (modPwr k f s).dp = s.dp := rfl
@[simp] theorem modPwr_lio (k : Port) (f : Pwr → Pwr) (s : State) : (modPwr k f s).lio = s.lio := rfl
@[simp] theorem modPwr_test (k : Port) (f : Pwr → Pwr) (s : State) : (modPwr k f s).test = s.test := rfl
@[simp] theorem modPwr_therm (k : Port) (f : Pwr → Pwr) (s : State) : (modPwr k f s).therm = s.therm := rfl
@[simp] theorem modLink_pending (k : Port) (f : SsLink → SsLink) (s : State) : (modLink k f s).pending = s.pending := rfl
@[simp] theorem modLink_out (k : Port) (f : SsLink → SsLink) (s : State) : (modLink k f s).out = s.out := rfl
@[simp] theorem modLink_now (k : Port) (f : SsLink → SsLink) (s : State) : (modLink k f s).now = s.now := rfl
@[simp] theorem modLink_freeSeq (k : Port) (f : SsLink → SsLink) (s : State) : (modLink k f s).freeSeq = s.freeSeq := rfl
@[simp] theorem modLink_mbx (k : Port) (f : SsLink → SsLink) (s : State) : (modLink k f s).mbx = s.mbx := rfl
@[simp] theorem modLink_flt (k : Port) (f : SsLink → SsLink) (s : State) : (modLink k f s).flt = s.flt := rfl
@[simp] theorem modLink_alm (k : Port) (f : SsLink → SsLink) (s : State) : (modLink k f s).alm = s.alm := rfl
@[simp] theorem modLink_pmu (k : Port) (f : SsLink → SsLink) (s : State) : (modLink k f s).pmu = s.pmu := rfl
@[simp] theorem modLink_reg (k : Port) (f : SsLink → SsLink) (s : State) : (modLink k f s).reg = s.reg := rfl
@[simp] theorem modLink_clk (k : Port) (f : SsLink → SsLink) (s : State) : (modLink k f s).clk = s.clk := rfl
@[simp] theorem modLink_wake (k : Port) (f : SsLink → SsLink) (s : State) : (modLink k f s).wake = s.wake := rfl
@[simp] theorem modLink_sup (k : Port) (f : SsLink → SsLink) (s : State) : (modLink k f s).sup = s.sup := rfl
@[simp] theorem modLink_fw (k : Port) (f : SsLink → SsLink) (s : State) : (modLink k f s).fw = s.fw := rfl
@[simp] theorem modLink_avail (k : Port) (f : SsLink → SsLink) (s : State) : (modLink k f s).avail = s.avail := rfl
@[simp] theorem modLink_hubs (k : Port) (f : SsLink → SsLink) (s : State) : (modLink k f s).hubs = s.hubs := rfl
@[simp] theorem modLink_own (k : Port) (f : SsLink → SsLink) (s : State) : (modLink k f s).own = s.own := rfl
@[simp] theorem modLink_dsd (k : Port) (f : SsLink → SsLink) (s : State) : (modLink k f s).dsd = s.dsd := rfl
@[simp] theorem modLink_usd (k : Port) (f : SsLink → SsLink) (s : State) : (modLink k f s).usd = s.usd := rfl
@[simp] theorem modLink_epqs (k : Port) (f : SsLink → SsLink) (s : State) : (modLink k f s).epqs = s.epqs := rfl
@[simp] theorem modLink_sched (k : Port) (f : SsLink → SsLink) (s : State) : (modLink k f s).sched = s.sched := rfl
@[simp] theorem modLink_place (k : Port) (f : SsLink → SsLink) (s : State) : (modLink k f s).place = s.place := rfl
@[simp] theorem modLink_memb (k : Port) (f : SsLink → SsLink) (s : State) : (modLink k f s).memb = s.memb := rfl
@[simp] theorem modLink_u2d (k : Port) (f : SsLink → SsLink) (s : State) : (modLink k f s).u2d = s.u2d := rfl
@[simp] theorem modLink_u2u (k : Port) (f : SsLink → SsLink) (s : State) : (modLink k f s).u2u = s.u2u := rfl
@[simp] theorem modLink_vig (k : Port) (f : SsLink → SsLink) (s : State) : (modLink k f s).vig = s.vig := rfl
@[simp] theorem modLink_fo (k : Port) (f : SsLink → SsLink) (s : State) : (modLink k f s).fo = s.fo := rfl
@[simp] theorem modLink_tc (k : Port) (f : SsLink → SsLink) (s : State) : (modLink k f s).tc = s.tc := rfl
@[simp] theorem modLink_phy (k : Port) (f : SsLink → SsLink) (s : State) : (modLink k f s).phy = s.phy := rfl
@[simp] theorem modLink_pwr (k : Port) (f : SsLink → SsLink) (s : State) : (modLink k f s).pwr = s.pwr := rfl
@[simp] theorem modLink_lane (k : Port) (f : SsLink → SsLink) (s : State) : (modLink k f s).lane = s.lane := rfl
@[simp] theorem modLink_guard (k : Port) (f : SsLink → SsLink) (s : State) : (modLink k f s).guard = s.guard := rfl
@[simp] theorem modLink_dp (k : Port) (f : SsLink → SsLink) (s : State) : (modLink k f s).dp = s.dp := rfl
@[simp] theorem modLink_lio (k : Port) (f : SsLink → SsLink) (s : State) : (modLink k f s).lio = s.lio := rfl
@[simp] theorem modLink_test (k : Port) (f : SsLink → SsLink) (s : State) : (modLink k f s).test = s.test := rfl
@[simp] theorem modLink_therm (k : Port) (f : SsLink → SsLink) (s : State) : (modLink k f s).therm = s.therm := rfl
@[simp] theorem modGuard_pending (k : Port) (f : GuardPort → GuardPort) (s : State) : (modGuard k f s).pending = s.pending := rfl
@[simp] theorem modGuard_out (k : Port) (f : GuardPort → GuardPort) (s : State) : (modGuard k f s).out = s.out := rfl
@[simp] theorem modGuard_now (k : Port) (f : GuardPort → GuardPort) (s : State) : (modGuard k f s).now = s.now := rfl
@[simp] theorem modGuard_freeSeq (k : Port) (f : GuardPort → GuardPort) (s : State) : (modGuard k f s).freeSeq = s.freeSeq := rfl
@[simp] theorem modGuard_mbx (k : Port) (f : GuardPort → GuardPort) (s : State) : (modGuard k f s).mbx = s.mbx := rfl
@[simp] theorem modGuard_flt (k : Port) (f : GuardPort → GuardPort) (s : State) : (modGuard k f s).flt = s.flt := rfl
@[simp] theorem modGuard_alm (k : Port) (f : GuardPort → GuardPort) (s : State) : (modGuard k f s).alm = s.alm := rfl
@[simp] theorem modGuard_pmu (k : Port) (f : GuardPort → GuardPort) (s : State) : (modGuard k f s).pmu = s.pmu := rfl
@[simp] theorem modGuard_reg (k : Port) (f : GuardPort → GuardPort) (s : State) : (modGuard k f s).reg = s.reg := rfl
@[simp] theorem modGuard_clk (k : Port) (f : GuardPort → GuardPort) (s : State) : (modGuard k f s).clk = s.clk := rfl
@[simp] theorem modGuard_wake (k : Port) (f : GuardPort → GuardPort) (s : State) : (modGuard k f s).wake = s.wake := rfl
@[simp] theorem modGuard_sup (k : Port) (f : GuardPort → GuardPort) (s : State) : (modGuard k f s).sup = s.sup := rfl
@[simp] theorem modGuard_fw (k : Port) (f : GuardPort → GuardPort) (s : State) : (modGuard k f s).fw = s.fw := rfl
@[simp] theorem modGuard_avail (k : Port) (f : GuardPort → GuardPort) (s : State) : (modGuard k f s).avail = s.avail := rfl
@[simp] theorem modGuard_hubs (k : Port) (f : GuardPort → GuardPort) (s : State) : (modGuard k f s).hubs = s.hubs := rfl
@[simp] theorem modGuard_own (k : Port) (f : GuardPort → GuardPort) (s : State) : (modGuard k f s).own = s.own := rfl
@[simp] theorem modGuard_dsd (k : Port) (f : GuardPort → GuardPort) (s : State) : (modGuard k f s).dsd = s.dsd := rfl
@[simp] theorem modGuard_usd (k : Port) (f : GuardPort → GuardPort) (s : State) : (modGuard k f s).usd = s.usd := rfl
@[simp] theorem modGuard_epqs (k : Port) (f : GuardPort → GuardPort) (s : State) : (modGuard k f s).epqs = s.epqs := rfl
@[simp] theorem modGuard_links (k : Port) (f : GuardPort → GuardPort) (s : State) : (modGuard k f s).links = s.links := rfl
@[simp] theorem modGuard_sched (k : Port) (f : GuardPort → GuardPort) (s : State) : (modGuard k f s).sched = s.sched := rfl
@[simp] theorem modGuard_place (k : Port) (f : GuardPort → GuardPort) (s : State) : (modGuard k f s).place = s.place := rfl
@[simp] theorem modGuard_memb (k : Port) (f : GuardPort → GuardPort) (s : State) : (modGuard k f s).memb = s.memb := rfl
@[simp] theorem modGuard_u2d (k : Port) (f : GuardPort → GuardPort) (s : State) : (modGuard k f s).u2d = s.u2d := rfl
@[simp] theorem modGuard_u2u (k : Port) (f : GuardPort → GuardPort) (s : State) : (modGuard k f s).u2u = s.u2u := rfl
@[simp] theorem modGuard_vig (k : Port) (f : GuardPort → GuardPort) (s : State) : (modGuard k f s).vig = s.vig := rfl
@[simp] theorem modGuard_fo (k : Port) (f : GuardPort → GuardPort) (s : State) : (modGuard k f s).fo = s.fo := rfl
@[simp] theorem modGuard_tc (k : Port) (f : GuardPort → GuardPort) (s : State) : (modGuard k f s).tc = s.tc := rfl
@[simp] theorem modGuard_phy (k : Port) (f : GuardPort → GuardPort) (s : State) : (modGuard k f s).phy = s.phy := rfl
@[simp] theorem modGuard_pwr (k : Port) (f : GuardPort → GuardPort) (s : State) : (modGuard k f s).pwr = s.pwr := rfl
@[simp] theorem modGuard_lane (k : Port) (f : GuardPort → GuardPort) (s : State) : (modGuard k f s).lane = s.lane := rfl
@[simp] theorem modGuard_dp (k : Port) (f : GuardPort → GuardPort) (s : State) : (modGuard k f s).dp = s.dp := rfl
@[simp] theorem modGuard_lio (k : Port) (f : GuardPort → GuardPort) (s : State) : (modGuard k f s).lio = s.lio := rfl
@[simp] theorem modGuard_test (k : Port) (f : GuardPort → GuardPort) (s : State) : (modGuard k f s).test = s.test := rfl
@[simp] theorem modGuard_therm (k : Port) (f : GuardPort → GuardPort) (s : State) : (modGuard k f s).therm = s.therm := rfl
@[simp] theorem modUs_pending (k : US) (f : UsData → UsData) (s : State) : (modUs k f s).pending = s.pending := rfl
@[simp] theorem modUs_out (k : US) (f : UsData → UsData) (s : State) : (modUs k f s).out = s.out := rfl
@[simp] theorem modUs_now (k : US) (f : UsData → UsData) (s : State) : (modUs k f s).now = s.now := rfl
@[simp] theorem modUs_freeSeq (k : US) (f : UsData → UsData) (s : State) : (modUs k f s).freeSeq = s.freeSeq := rfl
@[simp] theorem modUs_mbx (k : US) (f : UsData → UsData) (s : State) : (modUs k f s).mbx = s.mbx := rfl
@[simp] theorem modUs_flt (k : US) (f : UsData → UsData) (s : State) : (modUs k f s).flt = s.flt := rfl
@[simp] theorem modUs_alm (k : US) (f : UsData → UsData) (s : State) : (modUs k f s).alm = s.alm := rfl
@[simp] theorem modUs_pmu (k : US) (f : UsData → UsData) (s : State) : (modUs k f s).pmu = s.pmu := rfl
@[simp] theorem modUs_reg (k : US) (f : UsData → UsData) (s : State) : (modUs k f s).reg = s.reg := rfl
@[simp] theorem modUs_clk (k : US) (f : UsData → UsData) (s : State) : (modUs k f s).clk = s.clk := rfl
@[simp] theorem modUs_wake (k : US) (f : UsData → UsData) (s : State) : (modUs k f s).wake = s.wake := rfl
@[simp] theorem modUs_sup (k : US) (f : UsData → UsData) (s : State) : (modUs k f s).sup = s.sup := rfl
@[simp] theorem modUs_fw (k : US) (f : UsData → UsData) (s : State) : (modUs k f s).fw = s.fw := rfl
@[simp] theorem modUs_avail (k : US) (f : UsData → UsData) (s : State) : (modUs k f s).avail = s.avail := rfl
@[simp] theorem modUs_hubs (k : US) (f : UsData → UsData) (s : State) : (modUs k f s).hubs = s.hubs := rfl
@[simp] theorem modUs_own (k : US) (f : UsData → UsData) (s : State) : (modUs k f s).own = s.own := rfl
@[simp] theorem modUs_dsd (k : US) (f : UsData → UsData) (s : State) : (modUs k f s).dsd = s.dsd := rfl
@[simp] theorem modUs_epqs (k : US) (f : UsData → UsData) (s : State) : (modUs k f s).epqs = s.epqs := rfl
@[simp] theorem modUs_links (k : US) (f : UsData → UsData) (s : State) : (modUs k f s).links = s.links := rfl
@[simp] theorem modUs_sched (k : US) (f : UsData → UsData) (s : State) : (modUs k f s).sched = s.sched := rfl
@[simp] theorem modUs_place (k : US) (f : UsData → UsData) (s : State) : (modUs k f s).place = s.place := rfl
@[simp] theorem modUs_memb (k : US) (f : UsData → UsData) (s : State) : (modUs k f s).memb = s.memb := rfl
@[simp] theorem modUs_u2d (k : US) (f : UsData → UsData) (s : State) : (modUs k f s).u2d = s.u2d := rfl
@[simp] theorem modUs_u2u (k : US) (f : UsData → UsData) (s : State) : (modUs k f s).u2u = s.u2u := rfl
@[simp] theorem modUs_vig (k : US) (f : UsData → UsData) (s : State) : (modUs k f s).vig = s.vig := rfl
@[simp] theorem modUs_fo (k : US) (f : UsData → UsData) (s : State) : (modUs k f s).fo = s.fo := rfl
@[simp] theorem modUs_tc (k : US) (f : UsData → UsData) (s : State) : (modUs k f s).tc = s.tc := rfl
@[simp] theorem modUs_phy (k : US) (f : UsData → UsData) (s : State) : (modUs k f s).phy = s.phy := rfl
@[simp] theorem modUs_pwr (k : US) (f : UsData → UsData) (s : State) : (modUs k f s).pwr = s.pwr := rfl
@[simp] theorem modUs_lane (k : US) (f : UsData → UsData) (s : State) : (modUs k f s).lane = s.lane := rfl
@[simp] theorem modUs_guard (k : US) (f : UsData → UsData) (s : State) : (modUs k f s).guard = s.guard := rfl
@[simp] theorem modUs_dp (k : US) (f : UsData → UsData) (s : State) : (modUs k f s).dp = s.dp := rfl
@[simp] theorem modUs_lio (k : US) (f : UsData → UsData) (s : State) : (modUs k f s).lio = s.lio := rfl
@[simp] theorem modUs_test (k : US) (f : UsData → UsData) (s : State) : (modUs k f s).test = s.test := rfl
@[simp] theorem modUs_therm (k : US) (f : UsData → UsData) (s : State) : (modUs k f s).therm = s.therm := rfl
@[simp] theorem modHub_pending (k : US) (f : Hub → Hub) (s : State) : (modHub k f s).pending = s.pending := rfl
@[simp] theorem modHub_out (k : US) (f : Hub → Hub) (s : State) : (modHub k f s).out = s.out := rfl
@[simp] theorem modHub_now (k : US) (f : Hub → Hub) (s : State) : (modHub k f s).now = s.now := rfl
@[simp] theorem modHub_freeSeq (k : US) (f : Hub → Hub) (s : State) : (modHub k f s).freeSeq = s.freeSeq := rfl
@[simp] theorem modHub_mbx (k : US) (f : Hub → Hub) (s : State) : (modHub k f s).mbx = s.mbx := rfl
@[simp] theorem modHub_flt (k : US) (f : Hub → Hub) (s : State) : (modHub k f s).flt = s.flt := rfl
@[simp] theorem modHub_alm (k : US) (f : Hub → Hub) (s : State) : (modHub k f s).alm = s.alm := rfl
@[simp] theorem modHub_pmu (k : US) (f : Hub → Hub) (s : State) : (modHub k f s).pmu = s.pmu := rfl
@[simp] theorem modHub_reg (k : US) (f : Hub → Hub) (s : State) : (modHub k f s).reg = s.reg := rfl
@[simp] theorem modHub_clk (k : US) (f : Hub → Hub) (s : State) : (modHub k f s).clk = s.clk := rfl
@[simp] theorem modHub_wake (k : US) (f : Hub → Hub) (s : State) : (modHub k f s).wake = s.wake := rfl
@[simp] theorem modHub_sup (k : US) (f : Hub → Hub) (s : State) : (modHub k f s).sup = s.sup := rfl
@[simp] theorem modHub_fw (k : US) (f : Hub → Hub) (s : State) : (modHub k f s).fw = s.fw := rfl
@[simp] theorem modHub_avail (k : US) (f : Hub → Hub) (s : State) : (modHub k f s).avail = s.avail := rfl
@[simp] theorem modHub_own (k : US) (f : Hub → Hub) (s : State) : (modHub k f s).own = s.own := rfl
@[simp] theorem modHub_dsd (k : US) (f : Hub → Hub) (s : State) : (modHub k f s).dsd = s.dsd := rfl
@[simp] theorem modHub_usd (k : US) (f : Hub → Hub) (s : State) : (modHub k f s).usd = s.usd := rfl
@[simp] theorem modHub_epqs (k : US) (f : Hub → Hub) (s : State) : (modHub k f s).epqs = s.epqs := rfl
@[simp] theorem modHub_links (k : US) (f : Hub → Hub) (s : State) : (modHub k f s).links = s.links := rfl
@[simp] theorem modHub_sched (k : US) (f : Hub → Hub) (s : State) : (modHub k f s).sched = s.sched := rfl
@[simp] theorem modHub_place (k : US) (f : Hub → Hub) (s : State) : (modHub k f s).place = s.place := rfl
@[simp] theorem modHub_memb (k : US) (f : Hub → Hub) (s : State) : (modHub k f s).memb = s.memb := rfl
@[simp] theorem modHub_u2d (k : US) (f : Hub → Hub) (s : State) : (modHub k f s).u2d = s.u2d := rfl
@[simp] theorem modHub_u2u (k : US) (f : Hub → Hub) (s : State) : (modHub k f s).u2u = s.u2u := rfl
@[simp] theorem modHub_vig (k : US) (f : Hub → Hub) (s : State) : (modHub k f s).vig = s.vig := rfl
@[simp] theorem modHub_fo (k : US) (f : Hub → Hub) (s : State) : (modHub k f s).fo = s.fo := rfl
@[simp] theorem modHub_tc (k : US) (f : Hub → Hub) (s : State) : (modHub k f s).tc = s.tc := rfl
@[simp] theorem modHub_phy (k : US) (f : Hub → Hub) (s : State) : (modHub k f s).phy = s.phy := rfl
@[simp] theorem modHub_pwr (k : US) (f : Hub → Hub) (s : State) : (modHub k f s).pwr = s.pwr := rfl
@[simp] theorem modHub_lane (k : US) (f : Hub → Hub) (s : State) : (modHub k f s).lane = s.lane := rfl
@[simp] theorem modHub_guard (k : US) (f : Hub → Hub) (s : State) : (modHub k f s).guard = s.guard := rfl
@[simp] theorem modHub_dp (k : US) (f : Hub → Hub) (s : State) : (modHub k f s).dp = s.dp := rfl
@[simp] theorem modHub_lio (k : US) (f : Hub → Hub) (s : State) : (modHub k f s).lio = s.lio := rfl
@[simp] theorem modHub_test (k : US) (f : Hub → Hub) (s : State) : (modHub k f s).test = s.test := rfl
@[simp] theorem modHub_therm (k : US) (f : Hub → Hub) (s : State) : (modHub k f s).therm = s.therm := rfl
@[simp] theorem modVigHub_pending (k : US) (f : VigHub → VigHub) (s : State) : (modVigHub k f s).pending = s.pending := rfl
@[simp] theorem modVigHub_out (k : US) (f : VigHub → VigHub) (s : State) : (modVigHub k f s).out = s.out := rfl
@[simp] theorem modVigHub_now (k : US) (f : VigHub → VigHub) (s : State) : (modVigHub k f s).now = s.now := rfl
@[simp] theorem modVigHub_freeSeq (k : US) (f : VigHub → VigHub) (s : State) : (modVigHub k f s).freeSeq = s.freeSeq := rfl
@[simp] theorem modVigHub_mbx (k : US) (f : VigHub → VigHub) (s : State) : (modVigHub k f s).mbx = s.mbx := rfl
@[simp] theorem modVigHub_flt (k : US) (f : VigHub → VigHub) (s : State) : (modVigHub k f s).flt = s.flt := rfl
@[simp] theorem modVigHub_alm (k : US) (f : VigHub → VigHub) (s : State) : (modVigHub k f s).alm = s.alm := rfl
@[simp] theorem modVigHub_pmu (k : US) (f : VigHub → VigHub) (s : State) : (modVigHub k f s).pmu = s.pmu := rfl
@[simp] theorem modVigHub_reg (k : US) (f : VigHub → VigHub) (s : State) : (modVigHub k f s).reg = s.reg := rfl
@[simp] theorem modVigHub_clk (k : US) (f : VigHub → VigHub) (s : State) : (modVigHub k f s).clk = s.clk := rfl
@[simp] theorem modVigHub_wake (k : US) (f : VigHub → VigHub) (s : State) : (modVigHub k f s).wake = s.wake := rfl
@[simp] theorem modVigHub_sup (k : US) (f : VigHub → VigHub) (s : State) : (modVigHub k f s).sup = s.sup := rfl
@[simp] theorem modVigHub_fw (k : US) (f : VigHub → VigHub) (s : State) : (modVigHub k f s).fw = s.fw := rfl
@[simp] theorem modVigHub_avail (k : US) (f : VigHub → VigHub) (s : State) : (modVigHub k f s).avail = s.avail := rfl
@[simp] theorem modVigHub_hubs (k : US) (f : VigHub → VigHub) (s : State) : (modVigHub k f s).hubs = s.hubs := rfl
@[simp] theorem modVigHub_own (k : US) (f : VigHub → VigHub) (s : State) : (modVigHub k f s).own = s.own := rfl
@[simp] theorem modVigHub_dsd (k : US) (f : VigHub → VigHub) (s : State) : (modVigHub k f s).dsd = s.dsd := rfl
@[simp] theorem modVigHub_usd (k : US) (f : VigHub → VigHub) (s : State) : (modVigHub k f s).usd = s.usd := rfl
@[simp] theorem modVigHub_epqs (k : US) (f : VigHub → VigHub) (s : State) : (modVigHub k f s).epqs = s.epqs := rfl
@[simp] theorem modVigHub_links (k : US) (f : VigHub → VigHub) (s : State) : (modVigHub k f s).links = s.links := rfl
@[simp] theorem modVigHub_sched (k : US) (f : VigHub → VigHub) (s : State) : (modVigHub k f s).sched = s.sched := rfl
@[simp] theorem modVigHub_place (k : US) (f : VigHub → VigHub) (s : State) : (modVigHub k f s).place = s.place := rfl
@[simp] theorem modVigHub_memb (k : US) (f : VigHub → VigHub) (s : State) : (modVigHub k f s).memb = s.memb := rfl
@[simp] theorem modVigHub_u2d (k : US) (f : VigHub → VigHub) (s : State) : (modVigHub k f s).u2d = s.u2d := rfl
@[simp] theorem modVigHub_u2u (k : US) (f : VigHub → VigHub) (s : State) : (modVigHub k f s).u2u = s.u2u := rfl
@[simp] theorem modVigHub_fo (k : US) (f : VigHub → VigHub) (s : State) : (modVigHub k f s).fo = s.fo := rfl
@[simp] theorem modVigHub_tc (k : US) (f : VigHub → VigHub) (s : State) : (modVigHub k f s).tc = s.tc := rfl
@[simp] theorem modVigHub_phy (k : US) (f : VigHub → VigHub) (s : State) : (modVigHub k f s).phy = s.phy := rfl
@[simp] theorem modVigHub_pwr (k : US) (f : VigHub → VigHub) (s : State) : (modVigHub k f s).pwr = s.pwr := rfl
@[simp] theorem modVigHub_lane (k : US) (f : VigHub → VigHub) (s : State) : (modVigHub k f s).lane = s.lane := rfl
@[simp] theorem modVigHub_guard (k : US) (f : VigHub → VigHub) (s : State) : (modVigHub k f s).guard = s.guard := rfl
@[simp] theorem modVigHub_dp (k : US) (f : VigHub → VigHub) (s : State) : (modVigHub k f s).dp = s.dp := rfl
@[simp] theorem modVigHub_lio (k : US) (f : VigHub → VigHub) (s : State) : (modVigHub k f s).lio = s.lio := rfl
@[simp] theorem modVigHub_test (k : US) (f : VigHub → VigHub) (s : State) : (modVigHub k f s).test = s.test := rfl
@[simp] theorem modVigHub_therm (k : US) (f : VigHub → VigHub) (s : State) : (modVigHub k f s).therm = s.therm := rfl
@[simp] theorem modFo_pending (k : US) (f : FoHub → FoHub) (s : State) : (modFo k f s).pending = s.pending := rfl
@[simp] theorem modFo_out (k : US) (f : FoHub → FoHub) (s : State) : (modFo k f s).out = s.out := rfl
@[simp] theorem modFo_now (k : US) (f : FoHub → FoHub) (s : State) : (modFo k f s).now = s.now := rfl
@[simp] theorem modFo_freeSeq (k : US) (f : FoHub → FoHub) (s : State) : (modFo k f s).freeSeq = s.freeSeq := rfl
@[simp] theorem modFo_mbx (k : US) (f : FoHub → FoHub) (s : State) : (modFo k f s).mbx = s.mbx := rfl
@[simp] theorem modFo_flt (k : US) (f : FoHub → FoHub) (s : State) : (modFo k f s).flt = s.flt := rfl
@[simp] theorem modFo_alm (k : US) (f : FoHub → FoHub) (s : State) : (modFo k f s).alm = s.alm := rfl
@[simp] theorem modFo_pmu (k : US) (f : FoHub → FoHub) (s : State) : (modFo k f s).pmu = s.pmu := rfl
@[simp] theorem modFo_reg (k : US) (f : FoHub → FoHub) (s : State) : (modFo k f s).reg = s.reg := rfl
@[simp] theorem modFo_clk (k : US) (f : FoHub → FoHub) (s : State) : (modFo k f s).clk = s.clk := rfl
@[simp] theorem modFo_wake (k : US) (f : FoHub → FoHub) (s : State) : (modFo k f s).wake = s.wake := rfl
@[simp] theorem modFo_sup (k : US) (f : FoHub → FoHub) (s : State) : (modFo k f s).sup = s.sup := rfl
@[simp] theorem modFo_fw (k : US) (f : FoHub → FoHub) (s : State) : (modFo k f s).fw = s.fw := rfl
@[simp] theorem modFo_avail (k : US) (f : FoHub → FoHub) (s : State) : (modFo k f s).avail = s.avail := rfl
@[simp] theorem modFo_hubs (k : US) (f : FoHub → FoHub) (s : State) : (modFo k f s).hubs = s.hubs := rfl
@[simp] theorem modFo_own (k : US) (f : FoHub → FoHub) (s : State) : (modFo k f s).own = s.own := rfl
@[simp] theorem modFo_dsd (k : US) (f : FoHub → FoHub) (s : State) : (modFo k f s).dsd = s.dsd := rfl
@[simp] theorem modFo_usd (k : US) (f : FoHub → FoHub) (s : State) : (modFo k f s).usd = s.usd := rfl
@[simp] theorem modFo_epqs (k : US) (f : FoHub → FoHub) (s : State) : (modFo k f s).epqs = s.epqs := rfl
@[simp] theorem modFo_links (k : US) (f : FoHub → FoHub) (s : State) : (modFo k f s).links = s.links := rfl
@[simp] theorem modFo_sched (k : US) (f : FoHub → FoHub) (s : State) : (modFo k f s).sched = s.sched := rfl
@[simp] theorem modFo_place (k : US) (f : FoHub → FoHub) (s : State) : (modFo k f s).place = s.place := rfl
@[simp] theorem modFo_memb (k : US) (f : FoHub → FoHub) (s : State) : (modFo k f s).memb = s.memb := rfl
@[simp] theorem modFo_u2d (k : US) (f : FoHub → FoHub) (s : State) : (modFo k f s).u2d = s.u2d := rfl
@[simp] theorem modFo_u2u (k : US) (f : FoHub → FoHub) (s : State) : (modFo k f s).u2u = s.u2u := rfl
@[simp] theorem modFo_vig (k : US) (f : FoHub → FoHub) (s : State) : (modFo k f s).vig = s.vig := rfl
@[simp] theorem modFo_tc (k : US) (f : FoHub → FoHub) (s : State) : (modFo k f s).tc = s.tc := rfl
@[simp] theorem modFo_phy (k : US) (f : FoHub → FoHub) (s : State) : (modFo k f s).phy = s.phy := rfl
@[simp] theorem modFo_pwr (k : US) (f : FoHub → FoHub) (s : State) : (modFo k f s).pwr = s.pwr := rfl
@[simp] theorem modFo_lane (k : US) (f : FoHub → FoHub) (s : State) : (modFo k f s).lane = s.lane := rfl
@[simp] theorem modFo_guard (k : US) (f : FoHub → FoHub) (s : State) : (modFo k f s).guard = s.guard := rfl
@[simp] theorem modFo_dp (k : US) (f : FoHub → FoHub) (s : State) : (modFo k f s).dp = s.dp := rfl
@[simp] theorem modFo_lio (k : US) (f : FoHub → FoHub) (s : State) : (modFo k f s).lio = s.lio := rfl
@[simp] theorem modFo_test (k : US) (f : FoHub → FoHub) (s : State) : (modFo k f s).test = s.test := rfl
@[simp] theorem modFo_therm (k : US) (f : FoHub → FoHub) (s : State) : (modFo k f s).therm = s.therm := rfl

@[simp] theorem emit_out (o : Out) (s : State) : (emit o s).out = s.out ++ [o] := rfl


theorem tabGet_map {β : Type} (l : List (Nat × β)) (k q : Nat) (f : β → β) :
    tabGet (l.map (fun e => if e.1 = k then (e.1, f e.2) else e)) q =
      if q = k then (tabGet l q).map f else tabGet l q := by
  induction l with
  | nil => simp [tabGet]
  | cons e t ih =>
    obtain ⟨a, b⟩ := e
    simp only [List.map_cons]
    by_cases h1 : a = k
    · subst h1
      by_cases h2 : q = a
      · subst h2; simp [tabGet]
      · simp [tabGet, h2, ih]
    · by_cases h2 : q = a
      · subst h2; simp [tabGet, h1]
      · simp [tabGet, h1, h2, ih]

/-- An endpoint queue just changed reads as changed, every other as before. -/
theorem epqOf_modEpq (k q : Nat) (f : Epq → Epq) (s : State) :
    epqOf (modEpq k f s) q = if q = k then (epqOf s q).map f else epqOf s q := tabGet_map s.epqs k q f

/-- A context just changed reads as changed, every other as before. -/
theorem ctxOf_modCtx (k q : Nat) (f : Ctx → Ctx) (s : State) :
    ctxOf (modCtx k f s) q = if q = k then (ctxOf s q).map f else ctxOf s q := tabGet_map s.vig.ctx k q f

end Sys2Proof.Machine
end

