-- ==== Sys2Proof/Laws/Fresh.lean ====
section
/-! SUPPORT. A reading of the state does not see the outputs of the command before: each is the same on a state whose outputs are
cleared. -/

set_option Elab.async false

namespace Sys2Proof.Machine

@[simp] theorem absorbing_fresh (s : State) (d : DS) :
    absorbing (fresh s) d = absorbing s d := rfl
@[simp] theorem absorbs_fresh (s : State) (x : Ctx) :
    absorbs (fresh s) x = absorbs s x := rfl
@[simp] theorem accBusy_fresh (k : AccKey) (s : State) :
    accBusy k (fresh s) = accBusy k s := rfl
@[simp] theorem accFull_fresh (r : Req) (s : State) :
    accFull r (fresh s) = accFull r s := rfl
@[simp] theorem accRings_fresh (k : AccKey) (s : State) :
    accRings k (fresh s) = accRings k s := rfl
@[simp] theorem ackHoldNs_fresh (s : State) :
    ackHoldNs (fresh s) = ackHoldNs s := rfl
@[simp] theorem ackHost_fresh (s : State) :
    ackHost (fresh s) = ackHost s := rfl
@[simp] theorem activating_fresh (s : State) :
    activating (fresh s) = activating s := rfl
@[simp] theorem adjustMeter_fresh (s : State) (e : Epq) (m : Meter) :
    adjustMeter (fresh s) e m = adjustMeter s e m := rfl
@[simp] theorem agentPools_fresh (s : State) (p : Place) :
    agentPools (fresh s) p = agentPools s p := rfl
@[simp] theorem agentRuns_fresh (s : State) :
    agentRuns (fresh s) = agentRuns s := rfl
@[simp] theorem alarmCount_fresh (alarm : Nat) (s : State) :
    alarmCount alarm (fresh s) = alarmCount alarm s := rfl
@[simp] theorem allConnectedOnce_fresh (s : State) :
    allConnectedOnce (fresh s) = allConnectedOnce s := rfl
@[simp] theorem allocFloor_fresh (s : State) (p : Port) :
    allocFloor (fresh s) p = allocFloor s p := rfl
@[simp] theorem allocPorts_fresh (s : State) :
    allocPorts (fresh s) = allocPorts s := rfl
@[simp] theorem almAccessOk_fresh (s : State) (ring : Fin 8) (first : Nat) (ws : List Word) :
    almAccessOk (fresh s) ring first ws = almAccessOk s ring first ws := rfl
@[simp] theorem almOwnerBytes_fresh (s : State) :
    almOwnerBytes (fresh s) = almOwnerBytes s := rfl
@[simp] theorem almPolicy_fresh (s : State) (p : Port) :
    almPolicy (fresh s) p = almPolicy s p := rfl
@[simp] theorem almRead_fresh (s : State) (w : Nat) :
    almRead (fresh s) w = almRead s w := rfl
@[simp] theorem almRollback_fresh (s : State) :
    almRollback (fresh s) = almRollback s := rfl
@[simp] theorem almRoute_fresh (s : State) (i : Fin 2) :
    almRoute (fresh s) i = almRoute s i := rfl
@[simp] theorem almStored_fresh (s : State) (w : Nat) (v : Word) :
    almStored (fresh s) w v = almStored s w v := rfl
@[simp] theorem almVigil_fresh (s : State) (d : DS) :
    almVigil (fresh s) d = almVigil s d := rfl
@[simp] theorem almVisible_fresh (s : State) (w : Nat) :
    almVisible (fresh s) w = almVisible s w := rfl
@[simp] theorem almWear_fresh (s : State) (w : Nat) :
    almWear (fresh s) w = almWear s w := rfl
@[simp] theorem amsRuns_fresh (s : State) (p : Port) :
    amsRuns (fresh s) p = amsRuns s p := rfl
@[simp] theorem anyFenced_fresh (s : State) :
    anyFenced (fresh s) = anyFenced s := rfl
@[simp] theorem applyDefaults_fresh (s : State) (e : Epq) :
    applyDefaults (fresh s) e = applyDefaults s e := rfl
@[simp] theorem asleep_fresh (s : State) :
    asleep (fresh s) = asleep s := rfl
@[simp] theorem attachMay_fresh (s : State) (p : Port) :
    attachMay (fresh s) p = attachMay s p := rfl
@[simp] theorem authRec_fresh (s : State) (d : DS) :
    authRec (fresh s) d = authRec s d := rfl
@[simp] theorem availMw_fresh (s : State) (p : Port) :
    availMw (fresh s) p = availMw s p := rfl
@[simp] theorem backOrder_fresh (s : State) (u : US) :
    backOrder (fresh s) u = backOrder s u := rfl
@[simp] theorem balanceQueue_fresh (s : State) (p : Place) (hi lo : Fin 8) (gap : Nat) (done : List Nat) :
    balanceQueue (fresh s) p hi lo gap done = balanceQueue s p hi lo gap done := rfl
@[simp] theorem ballLevel_fresh (s : State) (b : Ball) :
    ballLevel (fresh s) b = ballLevel s b := rfl
@[simp] theorem ballNow_fresh (s : State) (g : BallGroup) :
    ballNow (fresh s) g = ballNow s g := rfl
@[simp] theorem blockFenced_fresh (s : State) (b : Block) :
    blockFenced (fresh s) b = blockFenced s b := rfl
@[simp] theorem blockReg_fresh (s : State) (b : Block) (off : Nat) :
    blockReg (fresh s) b off = blockReg s b off := rfl
@[simp] theorem blockSealed_fresh (s : State) (b : Block) :
    blockSealed (fresh s) b = blockSealed s b := rfl
@[simp] theorem bosDescr_fresh (s : State) (u : US) :
    bosDescr (fresh s) u = bosDescr s u := rfl
@[simp] theorem boundNow_fresh (s : State) :
    boundNow (fresh s) = boundNow s := rfl
@[simp] theorem busyCells_fresh (s : State) (r : Nat × Nat) :
    busyCells (fresh s) r = busyCells s r := rfl
@[simp] theorem busyUnits_fresh (s : State) (p : Port) (len : Nat) :
    busyUnits (fresh s) p len = busyUnits s p len := rfl
@[simp] theorem capMw_fresh (s : State) (p : Port) :
    capMw (fresh s) p = capMw s p := rfl
@[simp] theorem capsMay_fresh (s : State) (p : Port) :
    capsMay (fresh s) p = capsMay s p := rfl
@[simp] theorem ceLatches_fresh (s : State) (b : Block) (src unit : Nat) (persistent : Bool) :
    ceLatches (fresh s) b src unit persistent = ceLatches s b src unit persistent := rfl
@[simp] theorem cellLevel_fresh (s : State) (b : Ball) :
    cellLevel (fresh s) b = cellLevel s b := rfl
@[simp] theorem chargeMw_fresh (s : State) (p : Port) :
    chargeMw (fresh s) p = chargeMw s p := rfl
@[simp] theorem checkpointAvail_fresh (s : State) :
    checkpointAvail (fresh s) = checkpointAvail s := rfl
@[simp] theorem checkpointWrites_fresh (s : State) :
    checkpointWrites (fresh s) = checkpointWrites s := rfl
@[simp] theorem chvCount_fresh (s : State) (c : Fin 8) :
    chvCount (fresh s) c = chvCount s c := rfl
@[simp] theorem chvFenced_fresh (s : State) (c : Fin 8) :
    chvFenced (fresh s) c = chvFenced s c := rfl
@[simp] theorem chvTags_fresh (s : State) (c : Fin 8) :
    chvTags (fresh s) c = chvTags s c := rfl
@[simp] theorem clsAt_fresh (s : State) (q : Option Nat) :
    clsAt (fresh s) q = clsAt s q := rfl
@[simp] theorem collidingPort_fresh (s : State) (u : US) :
    collidingPort (fresh s) u = collidingPort s u := rfl
@[simp] theorem companionIdle_fresh (s : State) (u : US) :
    companionIdle (fresh s) u = companionIdle s u := rfl
@[simp] theorem contractBytes_fresh (s : State) (p : Port) :
    contractBytes (fresh s) p = contractBytes s p := rfl
@[simp] theorem ctxAsleep_fresh (s : State) (c : Ctx) :
    ctxAsleep (fresh s) c = ctxAsleep s c := rfl
@[simp] theorem ctxAt_fresh (s : State) (d : DS) (hubPort : Nat) (ss : Bool) :
    ctxAt (fresh s) d hubPort ss = ctxAt s d hubPort ss := rfl
@[simp] theorem ctxByAddr_fresh (s : State) (d : DS) (a : Nat) :
    ctxByAddr (fresh s) d a = ctxByAddr s d a := rfl
@[simp] theorem ctxByHost_fresh (s : State) (d : DS) (a : Nat) :
    ctxByHost (fresh s) d a = ctxByHost s d a := rfl
@[simp] theorem ctxOf_fresh (s : State) (c : Nat) :
    ctxOf (fresh s) c = ctxOf s c := rfl
@[simp] theorem cutBy_fresh (s : State) (p : Port) :
    cutBy (fresh s) p = cutBy s p := rfl
@[simp] theorem cutOk_fresh (s : State) (q : Option Nat) (inn out : Port) (len : Nat) (rerouted : Bool) :
    cutOk (fresh s) q inn out len rerouted = cutOk s q inn out len rerouted := rfl
@[simp] theorem cutting_fresh (s : State) (p : Port) :
    cutting (fresh s) p = cutting s p := rfl
@[simp] theorem deadCells_fresh (s : State) :
    deadCells (fresh s) = deadCells s := rfl
@[simp] theorem deadlinePast_fresh (s : State) (u : US) :
    deadlinePast (fresh s) u = deadlinePast s u := rfl
@[simp] theorem deadlineRuns_fresh (s : State) (u : US) :
    deadlineRuns (fresh s) u = deadlineRuns s u := rfl
@[simp] theorem defEntry_fresh (s : State) (d : DS) (hubPort ep : Nat) (dirIn : Bool) :
    defEntry (fresh s) d hubPort ep dirIn = defEntry s d hubPort ep dirIn := rfl
@[simp] theorem defMeter_fresh (s : State) (i j : Nat) :
    defMeter (fresh s) i j = defMeter s i j := rfl
@[simp] theorem defWord_fresh (s : State) (i j : Nat) :
    defWord (fresh s) i j = defWord s i j := rfl
@[simp] theorem devMode_fresh (s : State) (c : Ctx) :
    devMode (fresh s) c = devMode s c := rfl
@[simp] theorem devQuirks_fresh (s : State) (c : Ctx) :
    devQuirks (fresh s) c = devQuirks s c := rfl
@[simp] theorem devRule_fresh (s : State) (d : DS) (hubPort : Nat) :
    devRule (fresh s) d hubPort = devRule s d hubPort := rfl
@[simp] theorem devStatus_fresh (s : State) (x : Ctx) :
    devStatus (fresh s) x = devStatus s x := rfl
@[simp] theorem devicePresent_fresh (s : State) (d : DS) :
    devicePresent (fresh s) d = devicePresent s d := rfl
@[simp] theorem discardBytes_fresh (s : State) (p : Port) :
    discardBytes (fresh s) p = discardBytes s p := rfl
@[simp] theorem dpGate_fresh (r : Req) (s : State) (i : Fin 2) :
    dpGate r (fresh s) i = dpGate r s i := rfl
@[simp] theorem dpInput_fresh (s : State) (d : DS) :
    dpInput (fresh s) d = dpInput s d := rfl
@[simp] theorem dpOn_fresh (s : State) (d : DS) :
    dpOn (fresh s) d = dpOn s d := rfl
@[simp] theorem dpRouteOk_fresh (s : State) (r : Req) :
    dpRouteOk (fresh s) r = dpRouteOk s r := rfl
@[simp] theorem drawerOpen_fresh (s : State) (i : Fin 2) :
    drawerOpen (fresh s) i = drawerOpen s i := rfl
@[simp] theorem drawerWord_fresh (s : State) :
    drawerWord (fresh s) = drawerWord s := rfl
@[simp] theorem drivenLevel_fresh (s : State) (b : Ball) :
    drivenLevel (fresh s) b = drivenLevel s b := rfl
@[simp] theorem dsGate_fresh (r : Req) (s : State) (d : DS) :
    dsGate r (fresh s) d = dsGate r s d := rfl
@[simp] theorem dsLpmOk_fresh (s : State) (d : DS) (isU2 : Bool) :
    dsLpmOk (fresh s) d isU2 = dsLpmOk s d isU2 := rfl
@[simp] theorem dsOf_fresh (s : State) (d : DS) :
    dsOf (fresh s) d = dsOf s d := rfl
@[simp] theorem edgeTime_fresh (n : Nat) (s : State) :
    edgeTime n (fresh s) = edgeTime n s := rfl
@[simp] theorem egressFree_fresh (s : State) (l : Port) :
    egressFree (fresh s) l = egressFree s l := rfl
@[simp] theorem egressOf_fresh (_s : State) (e : Epq) (p : Pkt) :
    egressOf (fresh _s) e p = egressOf _s e p := rfl
@[simp] theorem eligible_fresh (s : State) (q : Nat) (e : Epq) (l : Port) :
    eligible (fresh s) q e l = eligible s q e l := rfl
@[simp] theorem elsewhere_fresh (r : Req) (s : State) (d : DS) :
    elsewhere r (fresh s) d = elsewhere r s d := rfl
@[simp] theorem entering_fresh (s : State) :
    entering (fresh s) = entering s := rfl
@[simp] theorem epRecs_fresh (s : State) (x : Ctx) (ds : List EpDesc) :
    epRecs (fresh s) x ds = epRecs s x ds := rfl
@[simp] theorem epochCount_fresh (s : State) (i : Nat) :
    epochCount (fresh s) i = epochCount s i := rfl
@[simp] theorem epochTop_fresh (s : State) :
    epochTop (fresh s) = epochTop s := rfl
@[simp] theorem epqFenced_fresh (s : State) (q : Nat) (e : Epq) :
    epqFenced (fresh s) q e = epqFenced s q e := rfl
@[simp] theorem epqOf_fresh (s : State) (q : Nat) :
    epqOf (fresh s) q = epqOf s q := rfl
@[simp] theorem eprCapable_fresh (s : State) (p : Port) :
    eprCapable (fresh s) p = eprCapable s p := rfl
@[simp] theorem eprPdos_fresh (s : State) (p : Port) (a : Nat) :
    eprPdos (fresh s) p a = eprPdos s p a := rfl
@[simp] theorem explicit_fresh (s : State) (p : Port) :
    explicit (fresh s) p = explicit s p := rfl
@[simp] theorem extentOk_fresh (s : State) (i : Nat) :
    extentOk (fresh s) i = extentOk s i := rfl
@[simp] theorem extentUnit_fresh (s : State) (i : Nat) :
    extentUnit (fresh s) i = extentUnit s i := rfl
@[simp] theorem fabHeld_fresh (s : State) (vc : Nat) (rsp : Bool) :
    fabHeld (fresh s) vc rsp = fabHeld s vc rsp := rfl
@[simp] theorem fabOpen_fresh (s : State) (vc : Nat) (rsp : Bool) :
    fabOpen (fresh s) vc rsp = fabOpen s vc rsp := rfl
@[simp] theorem fabOrder_fresh (s : State) :
    fabOrder (fresh s) = fabOrder s := rfl
@[simp] theorem failedOver_fresh (s : State) (u : US) :
    failedOver (fresh s) u = failedOver s u := rfl
@[simp] theorem faultEntry_fresh (s : State) (b : Block) :
    faultEntry (fresh s) b = faultEntry s b := rfl
@[simp] theorem faultPayload_fresh (s : State) (b : Block) (reaction : Nat) :
    faultPayload (fresh s) b reaction = faultPayload s b reaction := rfl
@[simp] theorem fifoWord_fresh (s : State) (p : Port) :
    fifoWord (fresh s) p = fifoWord s p := rfl
@[simp] theorem findEpq_fresh (s : State) (d : DS) (daddr ep : Nat) (dirIn : Bool) :
    findEpq (fresh s) d daddr ep dirIn = findEpq s d daddr ep dirIn := rfl
@[simp] theorem firstRule_fresh (s : State) (d : DS) (x : DevId) :
    firstRule (fresh s) d x = firstRule s d x := rfl
@[simp] theorem fitsSlot_fresh (s : State) (d : DS) (b : TtBuf) :
    fitsSlot (fresh s) d b = fitsSlot s d b := rfl
@[simp] theorem fltCount_fresh (s : State) (b : Block) :
    fltCount (fresh s) b = fltCount s b := rfl
@[simp] theorem fltLimit_fresh (s : State) (b : Block) :
    fltLimit (fresh s) b = fltLimit s b := rfl
@[simp] theorem fltLine_fresh (s : State) (b : Block) :
    fltLine (fresh s) b = fltLine s b := rfl
@[simp] theorem fltRec_fresh (s : State) (b : Block) :
    fltRec (fresh s) b = fltRec s b := rfl
@[simp] theorem fltRecord_fresh (s : State) (b : Block) :
    fltRecord (fresh s) b = fltRecord s b := rfl
@[simp] theorem fltWord_fresh (s : State) (b : Block) (i : Nat) :
    fltWord (fresh s) b i = fltWord s b i := rfl
@[simp] theorem foJudge_fresh (s : State) (u p : US) (d : DS) :
    foJudge (fresh s) u p d = foJudge s u p d := rfl
@[simp] theorem foList_fresh (s : State) (u : US) :
    foList (fresh s) u = foList s u := rfl
@[simp] theorem foOf_fresh (s : State) (u : US) :
    foOf (fresh s) u = foOf s u := rfl
@[simp] theorem frameBits_fresh (s : State) (d : DS) :
    frameBits (fresh s) d = frameBits s d := rfl
@[simp] theorem freeCells_fresh (s : State) (r : Nat × Nat) :
    freeCells (fresh s) r = freeCells s r := rfl
@[simp] theorem freeExtent_fresh (s : State) :
    freeExtent (fresh s) = freeExtent s := rfl
@[simp] theorem freshLink_fresh (s : State) (p : Port) (l : SsLink) :
    freshLink (fresh s) p l = freshLink s p l := rfl
@[simp] theorem functionLevel_fresh (s : State) (b : Ball) :
    functionLevel (fresh s) b = functionLevel s b := rfl
@[simp] theorem fwStatusResult_fresh (s : State) :
    fwStatusResult (fresh s) = fwStatusResult s := rfl
@[simp] theorem fwdPorts_fresh (s : State) :
    fwdPorts (fresh s) = fwdPorts s := rfl
@[simp] theorem gpioDir_fresh (s : State) :
    gpioDir (fresh s) = gpioDir s := rfl
@[simp] theorem guardAction_fresh (s : State) (p : Port) :
    guardAction (fresh s) p = guardAction s p := rfl
@[simp] theorem guardBytes_fresh (s : State) (p : Port) :
    guardBytes (fresh s) p = guardBytes s p := rfl
@[simp] theorem guardOf_fresh (s : State) (p : Port) :
    guardOf (fresh s) p = guardOf s p := rfl
@[simp] theorem hashRuleOk_fresh (s : State) (first : Nat) (ws : List Word) (i : Nat) :
    hashRuleOk (fresh s) first ws i = hashRuleOk s first ws i := rfl
@[simp] theorem heldAside_fresh (s : State) (d : DS) (a : Nat) :
    heldAside (fresh s) d a = heldAside s d a := rfl
@[simp] theorem heldCells_fresh (s : State) :
    heldCells (fresh s) = heldCells s := rfl
@[simp] theorem heldHere_fresh (s : State) (d : DS) :
    heldHere (fresh s) d = heldHere s d := rfl
@[simp] theorem homeOf_fresh (s : State) (d : DS) :
    homeOf (fresh s) d = homeOf s d := rfl
@[simp] theorem homeOpen_fresh (s : State) (u : US) :
    homeOpen (fresh s) u = homeOpen s u := rfl
@[simp] theorem hostBusy_fresh (s : State) (u : US) :
    hostBusy (fresh s) u = hostBusy s u := rfl
@[simp] theorem hostOf_fresh (s : State) (e : Epq) :
    hostOf (fresh s) e = hostOf s e := rfl
@[simp] theorem hsOpen_fresh (s : State) (d : DS) :
    hsOpen (fresh s) d = hsOpen s d := rfl
@[simp] theorem hsPastEof1_fresh (s : State) (d : DS) :
    hsPastEof1 (fresh s) d = hsPastEof1 s d := rfl
@[simp] theorem hubCharacteristics_fresh (s : State) (u : US) :
    hubCharacteristics (fresh s) u = hubCharacteristics s u := rfl
@[simp] theorem hubDescr_fresh (s : State) (u : US) (ss : Bool) :
    hubDescr (fresh s) u ss = hubDescr s u ss := rfl
@[simp] theorem hubHeld_fresh (s : State) (u : US) :
    hubHeld (fresh s) u = hubHeld s u := rfl
@[simp] theorem hubHolds_fresh (s : State) (u : US) :
    hubHolds (fresh s) u = hubHolds s u := rfl
@[simp] theorem hubOf_fresh (s : State) (u : US) :
    hubOf (fresh s) u = hubOf s u := rfl
@[simp] theorem hubSuspended_fresh (s : State) (u : US) :
    hubSuspended (fresh s) u = hubSuspended s u := rfl
@[simp] theorem hubUp_fresh (s : State) (u : US) (ss : Bool) :
    hubUp (fresh s) u ss = hubUp s u ss := rfl
@[simp] theorem i2ctAddr_fresh (s : State) :
    i2ctAddr (fresh s) = i2ctAddr s := rfl
@[simp] theorem i2ctStatusWord_fresh (s : State) :
    i2ctStatusWord (fresh s) = i2ctStatusWord s := rfl
@[simp] theorem i2ctUp_fresh (s : State) :
    i2ctUp (fresh s) = i2ctUp s := rfl
@[simp] theorem identifyResult_fresh (s : State) :
    identifyResult (fresh s) = identifyResult s := rfl
@[simp] theorem inAlloc_fresh (s : State) (p : Port) :
    inAlloc (fresh s) p = inAlloc s p := rfl
@[simp] theorem inDram_fresh (s : State) (q : Nat) (e : Epq) :
    inDram (fresh s) q e = inDram s q e := rfl
@[simp] theorem inEpisode_fresh (s : State) (d : DS) :
    inEpisode (fresh s) d = inEpisode s d := rfl
@[simp] theorem inRecovery_fresh (s : State) :
    inRecovery (fresh s) = inRecovery s := rfl
@[simp] theorem inTrans_fresh (s : State) (p : Port) :
    inTrans (fresh s) p = inTrans s p := rfl
@[simp] theorem ingressOf_fresh (s : State) (p : Port) (q : Option Nat) :
    ingressOf (fresh s) p q = ingressOf s p q := rfl
@[simp] theorem inputLevel_fresh (s : State) (b : Ball) :
    inputLevel (fresh s) b = inputLevel s b := rfl
@[simp] theorem invertOf_fresh (s : State) (d : DS) (daddr ep : Nat) (dirIn : Bool) :
    invertOf (fresh s) d daddr ep dirIn = invertOf s d daddr ep dirIn := rfl
@[simp] theorem irqLow_fresh (s : State) :
    irqLow (fresh s) = irqLow s := rfl
@[simp] theorem isArmed_fresh (s : State) (d : DS) :
    isArmed (fresh s) d = isArmed s d := rfl
@[simp] theorem isEvidence_fresh (s : State) (d : DS) (quirks : Nat) (rule : Option Nat) (iface : Nat) :
    isEvidence (fresh s) d quirks rule iface = isEvidence s d quirks rule iface := rfl
@[simp] theorem isSealed_fresh (s : State) (d : DS) :
    isSealed (fresh s) d = isSealed s d := rfl
@[simp] theorem isSink_fresh (s : State) (p : Port) :
    isSink (fresh s) p = isSink s p := rfl
@[simp] theorem isSource_fresh (s : State) (p : Port) :
    isSource (fresh s) p = isSource s p := rfl
@[simp] theorem keepLate_fresh (s : State) (p : Port) (m : PdMsg) :
    keepLate (fresh s) p m = keepLate s p m := rfl
@[simp] theorem keepPossible_fresh (s : State) (d : DS) (o : Option US) :
    keepPossible (fresh s) d o = keepPossible s d o := rfl
@[simp] theorem keepable_fresh (s : State) (d : DS) :
    keepable (fresh s) d = keepable s d := rfl
@[simp] theorem keyHash_fresh (s : State) (i : Nat) :
    keyHash (fresh s) i = keyHash s i := rfl
@[simp] theorem laneQuality_fresh (s : State) :
    laneQuality (fresh s) = laneQuality s := rfl
@[simp] theorem lastChervil_fresh (s : State) (b : Block) :
    lastChervil (fresh s) b = lastChervil s b := rfl
@[simp] theorem linear16_fresh (s : State) (mv : Nat) :
    linear16 (fresh s) mv = linear16 s mv := rfl
@[simp] theorem linkBusy_fresh (s : State) (p : Port) :
    linkBusy (fresh s) p = linkBusy s p := rfl
@[simp] theorem linkOf_fresh (s : State) (p : Port) :
    linkOf (fresh s) p = linkOf s p := rfl
@[simp] theorem linkOpen_fresh (s : State) (p : Port) :
    linkOpen (fresh s) p = linkOpen s p := rfl
@[simp] theorem linkPresent_fresh (s : State) (u : US) :
    linkPresent (fresh s) u = linkPresent s u := rfl
@[simp] theorem linkQuiet_fresh (s : State) (p : Port) :
    linkQuiet (fresh s) p = linkQuiet s p := rfl
@[simp] theorem linkRate_fresh (s : State) (p : Port) :
    linkRate (fresh s) p = linkRate s p := rfl
@[simp] theorem linkState_fresh (s : State) (p : Port) :
    linkState (fresh s) p = linkState s p := rfl
@[simp] theorem lioReg_fresh (s : State) (off : Nat) :
    lioReg (fresh s) off = lioReg s off := rfl
@[simp] theorem lmfBulkMps_fresh (s : State) (u : US) :
    lmfBulkMps (fresh s) u = lmfBulkMps s u := rfl
@[simp] theorem lmfDescr_fresh (s : State) (u : US) :
    lmfDescr (fresh s) u = lmfDescr s u := rfl
@[simp] theorem lmfEnabled_fresh (s : State) (u : US) :
    lmfEnabled (fresh s) u = lmfEnabled s u := rfl
@[simp] theorem lmfHere_fresh (s : State) (u : US) (ss : Bool) :
    lmfHere (fresh s) u ss = lmfHere s u ss := rfl
@[simp] theorem lmfReport_fresh (s : State) (u : US) :
    lmfReport (fresh s) u = lmfReport s u := rfl
@[simp] theorem lmfUp_fresh (s : State) (u : US) :
    lmfUp (fresh s) u = lmfUp s u := rfl
@[simp] theorem loadFo_fresh (s : State) (u : US) :
    loadFo (fresh s) u = loadFo s u := rfl
@[simp] theorem loopBits_fresh (s : State) (unit : Nat) (l : Machine.Loop) :
    loopBits (fresh s) unit l = loopBits s unit l := rfl
@[simp] theorem loopBusy_fresh (s : State) (unit depth : Nat) :
    loopBusy (fresh s) unit depth = loopBusy s unit depth := rfl
@[simp] theorem loopFenced_fresh (s : State) (unit : Nat) :
    loopFenced (fresh s) unit = loopFenced s unit := rfl
@[simp] theorem loopGate_fresh (r : Req) (s : State) :
    loopGate r (fresh s) = loopGate r s := rfl
@[simp] theorem lossReason_fresh (s : State) (d : DS) (c : Option Ctx) :
    lossReason (fresh s) d c = lossReason s d c := rfl
@[simp] theorem lowestFree_fresh (s : State) (r : Nat × Nat) (k : Nat) :
    lowestFree (fresh s) r k = lowestFree s r k := rfl
@[simp] theorem lpmTimeout_fresh (s : State) (d : DS) (isU2 : Bool) :
    lpmTimeout (fresh s) d isU2 = lpmTimeout s d isU2 := rfl
@[simp] theorem mainUp_fresh (s : State) :
    mainUp (fresh s) = mainUp s := rfl
@[simp] theorem maxCharged_fresh (s : State) (e : Epq) :
    maxCharged (fresh s) e = maxCharged s e := rfl
@[simp] theorem maxCredits_fresh (s : State) (p : Port) :
    maxCredits (fresh s) p = maxCredits s p := rfl
@[simp] theorem mayAbsorb_fresh (s : State) (x : Ctx) :
    mayAbsorb (fresh s) x = mayAbsorb s x := rfl
@[simp] theorem mayBeSource_fresh (s : State) (p : Port) :
    mayBeSource (fresh s) p = mayBeSource s p := rfl
@[simp] theorem mayConnect_fresh (s : State) (u : US) :
    mayConnect (fresh s) u = mayConnect s u := rfl
@[simp] theorem mayEnterSafe_fresh (s : State) :
    mayEnterSafe (fresh s) = mayEnterSafe s := rfl
@[simp] theorem mayForce_fresh (s : State) :
    mayForce (fresh s) = mayForce s := rfl
@[simp] theorem mayStart_fresh (s : State) (p : Port) (m : PdMsg) :
    mayStart (fresh s) p m = mayStart s p m := rfl
@[simp] theorem mayTake_fresh (s : State) (k : Fin 8) :
    mayTake (fresh s) k = mayTake s k := rfl
@[simp] theorem mkEvent_fresh (s : State) (code : Nat) (payload : List Byte) :
    mkEvent (fresh s) code payload = mkEvent s code payload := rfl
@[simp] theorem modeFlags_fresh (s : State) :
    modeFlags (fresh s) = modeFlags s := rfl
@[simp] theorem modeHolds_fresh (s : State) (m : Mode) :
    modeHolds (fresh s) m = modeHolds s m := rfl
@[simp] theorem modeOk_fresh (c : CmdSpec) (r : Req) (s : State) :
    modeOk c r (fresh s) = modeOk c r s := rfl
@[simp] theorem modeSelWord_fresh (s : State) :
    modeSelWord (fresh s) = modeSelWord s := rfl
@[simp] theorem modeStatWord_fresh (s : State) :
    modeStatWord (fresh s) = modeStatWord s := rfl
@[simp] theorem moveCountWrite_fresh (s : State) (d : DS) :
    moveCountWrite (fresh s) d = moveCountWrite s d := rfl
@[simp] theorem movingNow_fresh (s : State) (d : DS) :
    movingNow (fresh s) d = movingNow s d := rfl
@[simp] theorem mustSpill_fresh (s : State) (q : Nat) (e : Epq) :
    mustSpill (fresh s) q e = mustSpill s q e := rfl
@[simp] theorem needsPre_fresh (s : State) (d : DS) (low : Bool) :
    needsPre (fresh s) d low = needsPre s d low := rfl
@[simp] theorem nextTrans_fresh (s : State) :
    nextTrans (fresh s) = nextTrans s := rfl
@[simp] theorem offered_fresh (s : State) (p : Port) (a : Nat) :
    offered (fresh s) p a = offered s p a := rfl
@[simp] theorem openCcPin_fresh (s : State) (p : Port) :
    openCcPin (fresh s) p = openCcPin s p := rfl
@[simp] theorem openGate_fresh (r : Req) (s : State) (p : Port) :
    openGate r (fresh s) p = openGate r s p := rfl
@[simp] theorem overThreshold_fresh (s : State) :
    overThreshold (fresh s) = overThreshold s := rfl
@[simp] theorem ovhOf_fresh (s : State) (p : Port) (row : Nat) :
    ovhOf (fresh s) p row = ovhOf s p row := rfl
@[simp] theorem ownRow_fresh (s : State) (p : Port) (m : PdMsg) :
    ownRow (fresh s) p m = ownRow s p m := rfl
@[simp] theorem ownedAt_fresh (s : State) (u : US) (v : Fin 15) :
    ownedAt (fresh s) u v = ownedAt s u v := rfl
@[simp] theorem ownerOf_fresh (s : State) (d : DS) :
    ownerOf (fresh s) d = ownerOf s d := rfl
@[simp] theorem ownerWrites_fresh (s : State) (d : DS) (o : Option US) :
    ownerWrites (fresh s) d o = ownerWrites s d o := rfl
@[simp] theorem owningSlot_fresh (s : State) (d : DS) :
    owningSlot (fresh s) d = owningSlot s d := rfl
@[simp] theorem pairFenced_fresh (s : State) (k : Fin 8) :
    pairFenced (fresh s) k = pairFenced s k := rfl
@[simp] theorem pairsOf_fresh (s : State) (p : Port) :
    pairsOf (fresh s) p = pairsOf s p := rfl
@[simp] theorem parkAddr_fresh (s : State) (d : DS) :
    parkAddr (fresh s) d = parkAddr s d := rfl
@[simp] theorem pastHold_fresh (s : State) (u : US) :
    pastHold (fresh s) u = pastHold s u := rfl
@[simp] theorem pdHeader_fresh (s : State) (p : Port) (sop typ n : Nat) (ext : Bool) (id : Nat) :
    pdHeader (fresh s) p sop typ n ext id = pdHeader s p sop typ n ext id := rfl
@[simp] theorem pdUp_fresh (s : State) (p : Port) :
    pdUp (fresh s) p = pdUp s p := rfl
@[simp] theorem pdo5_fresh (s : State) (p : Port) (a : Nat) :
    pdo5 (fresh s) p a = pdo5 s p a := rfl
@[simp] theorem pdoAvs_fresh (s : State) (p : Port) (a : Nat) :
    pdoAvs (fresh s) p a = pdoAvs s p a := rfl
@[simp] theorem pdoEpr_fresh (s : State) (p : Port) (a mv : Nat) :
    pdoEpr (fresh s) p a mv = pdoEpr s p a mv := rfl
@[simp] theorem pdoPps_fresh (s : State) (p : Port) (a vmax : Nat) :
    pdoPps (fresh s) p a vmax = pdoPps s p a vmax := rfl
@[simp] theorem pdoSpr_fresh (s : State) (p : Port) (a mv : Nat) :
    pdoSpr (fresh s) p a mv = pdoSpr s p a mv := rfl
@[simp] theorem perBytes_fresh (s : State) (d : DS) (addr ep : Nat) (dirIn : Bool) (data : List Byte) :
    perBytes (fresh s) d addr ep dirIn data = perBytes s d addr ep dirIn data := rfl
@[simp] theorem perWaits_fresh (s : State) (d : DS) (p : TtPer) :
    perWaits (fresh s) d p = perWaits s d p := rfl
@[simp] theorem periodicFree_fresh (s : State) :
    periodicFree (fresh s) = periodicFree s := rfl
@[simp] theorem periodicReady_fresh (s : State) (d : DS) :
    periodicReady (fresh s) d = periodicReady s d := rfl
@[simp] theorem periodicShort_fresh (s : State) (p : Port) :
    periodicShort (fresh s) p = periodicShort s p := rfl
@[simp] theorem permits_fresh (s : State) (r : Nat) (o : Option US) :
    permits (fresh s) r o = permits s r o := rfl
@[simp] theorem phyOf_fresh (s : State) (p : Port) :
    phyOf (fresh s) p = phyOf s p := rfl
@[simp] theorem phyStalled_fresh (s : State) (p : Port) :
    phyStalled (fresh s) p = phyStalled s p := rfl
@[simp] theorem pickChv_fresh (s : State) :
    pickChv (fresh s) = pickChv s := rfl
@[simp] theorem pinCount_fresh (s : State) (c : Fin 8) (skip : Nat) :
    pinCount (fresh s) c skip = pinCount s c skip := rfl
@[simp] theorem pinsDue_fresh (s : State) (p : Port) :
    pinsDue (fresh s) p = pinsDue s p := rfl
@[simp] theorem plEntry_fresh (s : State) (q : Nat) :
    plEntry (fresh s) q = plEntry s q := rfl
@[simp] theorem plWord_fresh (s : State) (e : Epq) :
    plWord (fresh s) e = plWord s e := rfl
@[simp] theorem placeLoose_fresh (s : State) (p : Pkt) :
    placeLoose (fresh s) p = placeLoose s p := rfl
@[simp] theorem placeReg_fresh (s : State) (off : Nat) :
    placeReg (fresh s) off = placeReg s off := rfl
@[simp] theorem placed_fresh (s : State) (q : Nat) (e : Epq) (p : Pkt) :
    placed (fresh s) q e p = placed s q e p := rfl
@[simp] theorem polOf_fresh (s : State) (d : DS) :
    polOf (fresh s) d = polOf s d := rfl
@[simp] theorem policyWord_fresh (s : State) (w lo hi blank : Nat) :
    policyWord (fresh s) w lo hi blank = policyWord s w lo hi blank := rfl
@[simp] theorem pollFirst_fresh (s : State) (x : Ctx) (e : EpRec) :
    pollFirst (fresh s) x e = pollFirst s x e := rfl
@[simp] theorem pollInterval_fresh (s : State) (d : DS) (e : EpRec) :
    pollInterval (fresh s) d e = pollInterval s d e := rfl
@[simp] theorem pollQueue_fresh (s : State) (x : Ctx) (e : EpRec) :
    pollQueue (fresh s) x e = pollQueue s x e := rfl
@[simp] theorem pollTag_fresh (s : State) (x : Ctx) (k : Epq) :
    pollTag (fresh s) x k = pollTag s x k := rfl
@[simp] theorem polled_fresh (s : State) (x : Ctx) (e : EpRec) :
    polled (fresh s) x e = polled s x e := rfl
@[simp] theorem poolRanges_fresh (s : State) (cls : Nat) (d : DS) :
    poolRanges (fresh s) cls d = poolRanges s cls d := rfl
@[simp] theorem poolTags_fresh (s : State) (cls : Nat) :
    poolTags (fresh s) cls = poolTags s cls := rfl
@[simp] theorem populated_fresh (s : State) (p : Port) :
    populated (fresh s) p = populated s p := rfl
@[simp] theorem portBall_fresh (s : State) (p : Port) (g : BallGroup) :
    portBall (fresh s) p g = portBall s p g := rfl
@[simp] theorem portBusy_fresh (s : State) (d : DS) :
    portBusy (fresh s) d = portBusy s d := rfl
@[simp] theorem portBytes_fresh (s : State) (p : Port) :
    portBytes (fresh s) p = portBytes s p := rfl
@[simp] theorem portCtxs_fresh (s : State) (d : DS) :
    portCtxs (fresh s) d = portCtxs s d := rfl
@[simp] theorem portEpisode_fresh (s : State) (d : DS) :
    portEpisode (fresh s) d = portEpisode s d := rfl
@[simp] theorem portFenced_fresh (s : State) (p : Port) :
    portFenced (fresh s) p = portFenced s p := rfl
@[simp] theorem portGate_fresh (r : Req) (s : State) (p : Port) :
    portGate r (fresh s) p = portGate r s p := rfl
@[simp] theorem portRings_fresh (s : State) (d : DS) :
    portRings (fresh s) d = portRings s d := rfl
@[simp] theorem portSpeed_fresh (s : State) (d : DS) (ss : Bool) :
    portSpeed (fresh s) d ss = portSpeed s d ss := rfl
@[simp] theorem portStatus2_fresh (s : State) (u : US) (v : Fin 15) :
    portStatus2 (fresh s) u v = portStatus2 s u v := rfl
@[simp] theorem portStatus3_fresh (s : State) (u : US) (v : Fin 15) :
    portStatus3 (fresh s) u v = portStatus3 s u v := rfl
@[simp] theorem portVigil_fresh (s : State) (d : DS) :
    portVigil (fresh s) d = portVigil s d := rfl
@[simp] theorem powerSuspect_fresh (s : State) (b : Block) :
    powerSuspect (fresh s) b = powerSuspect s b := rfl
@[simp] theorem precheck_fresh (c : CmdSpec) (r : Req) (s : State) :
    precheck c r (fresh s) = precheck c r s := rfl
@[simp] theorem presentAll_fresh (s : State) :
    presentAll (fresh s) = presentAll s := rfl
@[simp] theorem presentable_fresh (s : State) (d : DS) :
    presentable (fresh s) d = presentable s d := rfl
@[simp] theorem presents_fresh (s : State) (u : US) (ss : Bool) (v : Fin 15) :
    presents (fresh s) u ss v = presents s u ss v := rfl
@[simp] theorem prioGo_fresh (s : State) (u : US) (n : Nat) :
    prioGo (fresh s) u n = prioGo s u n := rfl
@[simp] theorem probeNeeded_fresh (s : State) :
    probeNeeded (fresh s) = probeNeeded s := rfl
@[simp] theorem pscMay_fresh (s : State) (p : Port) :
    pscMay (fresh s) p = pscMay s p := rfl
@[simp] theorem psfSeen_fresh (s : State) (p : Port) :
    psfSeen (fresh s) p = psfSeen s p := rfl
@[simp] theorem pslFenced_fresh (s : State) (p : Port) :
    pslFenced (fresh s) p = pslFenced s p := rfl
@[simp] theorem pslReads_fresh (s : State) (p : Port) :
    pslReads (fresh s) p = pslReads s p := rfl
@[simp] theorem pwrOf_fresh (s : State) (p : Port) :
    pwrOf (fresh s) p = pwrOf s p := rfl
@[simp] theorem qselQueue_fresh (s : State) (d : DS) (p : List Byte) (off : Nat) :
    qselQueue (fresh s) d p off = qselQueue s d p off := rfl
@[simp] theorem queueLink_fresh (s : State) (e : Epq) :
    queueLink (fresh s) e = queueLink s e := rfl
@[simp] theorem queuePart_fresh (s : State) (q : Nat) (e : Epq) :
    queuePart (fresh s) q e = queuePart s q e := rfl
@[simp] theorem queueTag_fresh (s : State) (e : Epq) :
    queueTag (fresh s) e = queueTag s e := rfl
@[simp] theorem quietFt_fresh (s : State) (b : Block) :
    quietFt (fresh s) b = quietFt s b := rfl
@[simp] theorem quietPorts_fresh (s : State) (u : US) :
    quietPorts (fresh s) u = quietPorts s u := rfl
@[simp] theorem quietUc_fresh (s : State) (b : Block) :
    quietUc (fresh s) b = quietUc s b := rfl
@[simp] theorem quoteOk_fresh (s : State) (d : DS) (r : Nat) (code : List Byte) :
    quoteOk (fresh s) d r code = quoteOk s d r code := rfl
@[simp] theorem readingWord_fresh (s : State) (p : Port) (x : Option Nat) :
    readingWord (fresh s) p x = readingWord s p x := rfl
@[simp] theorem recRead_fresh (s : State) (base n : Nat) :
    recRead (fresh s) base n = recRead s base n := rfl
@[simp] theorem recWrites_fresh (s : State) (base : Nat) (data : List Byte) :
    recWrites (fresh s) base data = recWrites s base data := rfl
@[simp] theorem recovStatusWord_fresh (s : State) :
    recovStatusWord (fresh s) = recovStatusWord s := rfl
@[simp] theorem reducing_fresh (s : State) :
    reducing (fresh s) = reducing s := rfl
@[simp] theorem regPolled_fresh (s : State) :
    regPolled (fresh s) = regPolled s := rfl
@[simp] theorem regWritable_fresh (s : State) :
    regWritable (fresh s) = regWritable s := rfl
@[simp] theorem regWriteFail_fresh (s : State) (b : Block) (space : Nat) (l : List (Nat × Nat)) :
    regWriteFail (fresh s) b space l = regWriteFail s b space l := rfl
@[simp] theorem regionAt_fresh (s : State) (a : Nat) :
    regionAt (fresh s) a = regionAt s a := rfl
@[simp] theorem replayable_fresh (s : State) (c : Ctx) (ep : Nat) (r : CapRec) :
    replayable (fresh s) c ep r = replayable s c ep r := rfl
@[simp] theorem replays_fresh (s : State) (c : Ctx) (ep : Nat) :
    replays (fresh s) c ep = replays s c ep := rfl
@[simp] theorem reqRings_fresh (s : State) :
    reqRings (fresh s) = reqRings s := rfl
@[simp] theorem reqShadow_fresh (s : State) (q : Setup) (data : List Byte) (eps : List EpDesc) (x : Ctx) :
    reqShadow (fresh s) q data eps x = reqShadow s q data eps x := rfl
@[simp] theorem requested_fresh (s : State) (p : Port) (m : PdMsg) :
    requested (fresh s) p m = requested s p m := rfl
@[simp] theorem resetAbsorbed_fresh (s : State) (x : Ctx) :
    resetAbsorbed (fresh s) x = resetAbsorbed s x := rfl
@[simp] theorem restState_fresh (s : State) (u : US) :
    restState (fresh s) u = restState s u := rfl
@[simp] theorem rev3_fresh (s : State) (p : Port) :
    rev3 (fresh s) p = rev3 s p := rfl
@[simp] theorem rewriteDown_fresh (s : State) (u : US) (d : DS) (h : SsHeader) :
    rewriteDown (fresh s) u d h = rewriteDown s u d h := rfl
@[simp] theorem rewriteOn_fresh (s : State) (d : DS) :
    rewriteOn (fresh s) d = rewriteOn s d := rfl
@[simp] theorem rewriteUp_fresh (s : State) (d : DS) (h : SsHeader) :
    rewriteUp (fresh s) d h = rewriteUp s d h := rfl
@[simp] theorem ringCtrlWord_fresh (s : State) (r : Fin 16) :
    ringCtrlWord (fresh s) r = ringCtrlWord s r := rfl
@[simp] theorem ringGeomWord_fresh (s : State) (r : Fin 16) :
    ringGeomWord (fresh s) r = ringGeomWord s r := rfl
@[simp] theorem ringsOf_fresh (s : State) (p : Port) :
    ringsOf (fresh s) p = ringsOf s p := rfl
@[simp] theorem rolesByte_fresh (s : State) (p : Port) :
    rolesByte (fresh s) p = rolesByte s p := rfl
@[simp] theorem rollbackWrites_fresh (s : State) :
    rollbackWrites (fresh s) = rollbackWrites s := rfl
@[simp] theorem rpLevel_fresh (s : State) (p : Port) :
    rpLevel (fresh s) p = rpLevel s p := rfl
@[simp] theorem ruleFor_fresh (s : State) (d : DS) (x : Seen) :
    ruleFor (fresh s) d x = ruleFor s d x := rfl
@[simp] theorem ruleMatches_fresh (s : State) (d : DS) (x : DevId) (i : Nat) :
    ruleMatches (fresh s) d x i = ruleMatches s d x i := rfl
@[simp] theorem ruleQuirks_fresh (s : State) (i : Nat) :
    ruleQuirks (fresh s) i = ruleQuirks s i := rfl
@[simp] theorem ruleValid_fresh (s : State) (i : Nat) :
    ruleValid (fresh s) i = ruleValid s i := rfl
@[simp] theorem ruleWord_fresh (s : State) (i j : Nat) :
    ruleWord (fresh s) i j = ruleWord s i j := rfl
@[simp] theorem runMode_fresh (s : State) :
    runMode (fresh s) = runMode s := rfl
@[simp] theorem safeBlock_fresh (s : State) :
    safeBlock (fresh s) = safeBlock s := rfl
@[simp] theorem safeHolds_fresh (s : State) :
    safeHolds (fresh s) = safeHolds s := rfl
@[simp] theorem sampleBalls_fresh (s : State) :
    sampleBalls (fresh s) = sampleBalls s := rfl
@[simp] theorem scanRuns_fresh (s : State) :
    scanRuns (fresh s) = scanRuns s := rfl
@[simp] theorem seenOf_fresh (s : State) (d : DS) (hubPort : Nat) :
    seenOf (fresh s) d hubPort = seenOf s d hubPort := rfl
@[simp] theorem selectSlot_fresh (s : State) :
    selectSlot (fresh s) = selectSlot s := rfl
@[simp] theorem seqMod_fresh (s : State) (p : Port) :
    seqMod (fresh s) p = seqMod s p := rfl
@[simp] theorem served_fresh (s : State) (d : DS) (daddr ep : Nat) (dirIn : Bool) :
    served (fresh s) d daddr ep dirIn = served s d daddr ep dirIn := rfl
@[simp] theorem shadowNs_fresh (s : State) :
    shadowNs (fresh s) = shadowNs s := rfl
@[simp] theorem shadowOver_fresh (s : State) (b : Block) :
    shadowOver (fresh s) b = shadowOver s b := rfl
@[simp] theorem shadowRead_fresh (s : State) (x : Ctx) (q : Setup) :
    shadowRead (fresh s) x q = shadowRead s x q := rfl
@[simp] theorem shedMask_fresh (s : State) :
    shedMask (fresh s) = shedMask s := rfl
@[simp] theorem shownHere_fresh (s : State) (u : US) (v : Fin 15) (ss : Bool) :
    shownHere (fresh s) u v ss = shownHere s u v ss := rfl
@[simp] theorem sinceSof_fresh (s : State) (d : DS) :
    sinceSof (fresh s) d = sinceSof s d := rfl
@[simp] theorem slotAt_fresh (s : State) (u : US) (v : Fin 15) :
    slotAt (fresh s) u v = slotAt s u v := rfl
@[simp] theorem slotBytes_fresh (s : State) (d : DS) (slot : Nat) (dirIn : Bool) :
    slotBytes (fresh s) d slot dirIn = slotBytes s d slot dirIn := rfl
@[simp] theorem slotFull_fresh (s : State) (d : DS) (slot addr ep : Nat) (dirIn : Bool) (data : List Byte) :
    slotFull (fresh s) d slot addr ep dirIn data = slotFull s d slot addr ep dirIn data := rfl
@[simp] theorem slotNow_fresh (s : State) (d : DS) :
    slotNow (fresh s) d = slotNow s d := rfl
@[simp] theorem slotSt_fresh (s : State) (u : US) (v : Fin 15) :
    slotSt (fresh s) u v = slotSt s u v := rfl
@[simp] theorem slotWrites_fresh (s : State) (u : US) (count : Nat) (bs : List Byte) :
    slotWrites (fresh s) u count bs = slotWrites s u count bs := rfl
@[simp] theorem sofPort_fresh (s : State) (d : DS) :
    sofPort (fresh s) d = sofPort s d := rfl
@[simp] theorem spaceReg_fresh (s : State) (b : Block) (space off : Nat) :
    spaceReg (fresh s) b space off = spaceReg s b space off := rfl
@[simp] theorem spillExtents_fresh (s : State) :
    spillExtents (fresh s) = spillExtents s := rfl
@[simp] theorem spillMeets_fresh (s : State) (start bytes : Nat) :
    spillMeets (fresh s) start bytes = spillMeets s start bytes := rfl
@[simp] theorem spillRoom_fresh (s : State) (e : Epq) (n : Nat) :
    spillRoom (fresh s) e n = spillRoom s e n := rfl
@[simp] theorem spillStart_fresh (s : State) :
    spillStart (fresh s) = spillStart s := rfl
@[simp] theorem spilledAt_fresh (s : State) (q : Nat) (e : Epq) :
    spilledAt (fresh s) q e = spilledAt s q e := rfl
@[simp] theorem spitByte_fresh (s : State) (a : Nat) :
    spitByte (fresh s) a = spitByte s a := rfl
@[simp] theorem spitPowered_fresh (s : State) :
    spitPowered (fresh s) = spitPowered s := rfl
@[simp] theorem spitReadable_fresh (s : State) (off : Nat) :
    spitReadable (fresh s) off = spitReadable s off := rfl
@[simp] theorem spitStatus_fresh (s : State) :
    spitStatus (fresh s) = spitStatus s := rfl
@[simp] theorem spitWritable_fresh (s : State) (off : Nat) :
    spitWritable (fresh s) off = spitWritable s off := rfl
@[simp] theorem sprPdos_fresh (s : State) (p : Port) (a : Nat) :
    sprPdos (fresh s) p a = sprPdos s p a := rfl
@[simp] theorem ssAllowed_fresh (s : State) (d : DS) :
    ssAllowed (fresh s) d = ssAllowed s d := rfl
@[simp] theorem ssCharged_fresh (s : State) (p : Port) (len : Nat) :
    ssCharged (fresh s) p len = ssCharged s p len := rfl
@[simp] theorem ssHeldByDp_fresh (s : State) (d : DS) :
    ssHeldByDp (fresh s) d = ssHeldByDp s d := rfl
@[simp] theorem stageSlot_fresh (s : State) :
    stageSlot (fresh s) = stageSlot s := rfl
@[simp] theorem statusBitmap_fresh (s : State) (u : US) (ss : Bool) :
    statusBitmap (fresh s) u ss = statusBitmap s u ss := rfl
@[simp] theorem stillOwned_fresh (s : State) (e : Epq) (p : Pkt) :
    stillOwned (fresh s) e p = stillOwned s e p := rfl
@[simp] theorem suspendCond_fresh (s : State) :
    suspendCond (fresh s) = suspendCond s := rfl
@[simp] theorem swapRefused_fresh (s : State) (p : Port) :
    swapRefused (fresh s) p = swapRefused s p := rfl
@[simp] theorem swapUnsent_fresh (s : State) (p : Port) (kind : Nat) :
    swapUnsent (fresh s) p kind = swapUnsent s p kind := rfl
@[simp] theorem tagFree_fresh (s : State) (cls : Nat) (c : Option (Fin 8)) :
    tagFree (fresh s) cls c = tagFree s cls c := rfl
@[simp] theorem tagsOut_fresh (s : State) :
    tagsOut (fresh s) = tagsOut s := rfl
@[simp] theorem takeCells_fresh (s : State) (cls : Nat) (d : DS) (k : Nat) :
    takeCells (fresh s) cls d k = takeCells s cls d k := rfl
@[simp] theorem takeOrder_fresh (s : State) :
    takeOrder (fresh s) = takeOrder s := rfl
@[simp] theorem takeable_fresh (s : State) (p : Port) :
    takeable (fresh s) p = takeable s p := rfl
@[simp] theorem targetAccepted_fresh (s : State) (m : Mode) :
    targetAccepted (fresh s) m = targetAccepted s m := rfl
@[simp] theorem tcOf_fresh (s : State) (p : Port) :
    tcOf (fresh s) p = tcOf s p := rfl
@[simp] theorem tempWord_fresh (s : State) (p : Port) :
    tempWord (fresh s) p = tempWord s p := rfl
@[simp] theorem testEnabled_fresh (s : State) :
    testEnabled (fresh s) = testEnabled s := rfl
@[simp] theorem thymeDown_fresh (s : State) (p : Port) :
    thymeDown (fresh s) p = thymeDown s p := rfl
@[simp] theorem tokenAddr_fresh (s : State) (d : DS) (a : Nat) :
    tokenAddr (fresh s) d a = tokenAddr s d a := rfl
@[simp] theorem tooOld_fresh (s : State) (d : DS) (first : Nat) (r : CapRec) :
    tooOld (fresh s) d first r = tooOld s d first r := rfl
@[simp] theorem trActs_fresh (s : State) (d : DS) (t : TrEnt) :
    trActs (fresh s) d t = trActs s d t := rfl
@[simp] theorem trByDev_fresh (s : State) (d : DS) (ss : Bool) (a : Nat) :
    trByDev (fresh s) d ss a = trByDev s d ss a := rfl
@[simp] theorem trByHost_fresh (s : State) (d : DS) (ss : Bool) (a : Nat) :
    trByHost (fresh s) d ss a = trByHost s d ss a := rfl
@[simp] theorem trWanted_fresh (s : State) (c : Ctx) :
    trWanted (fresh s) c = trWanted s c := rfl
@[simp] theorem transCount_fresh (s : State) :
    transCount (fresh s) = transCount s := rfl
@[simp] theorem transportReg_fresh (s : State) (a : Nat) :
    transportReg (fresh s) a = transportReg s a := rfl
@[simp] theorem trimExtents_fresh (s : State) (x : Nat × Epq) :
    trimExtents (fresh s) x = trimExtents s x := rfl
@[simp] theorem trySlot_fresh (s : State) (f : Fw) (n : Nat) :
    trySlot (fresh s) f n = trySlot s f n := rfl
@[simp] theorem ttAddr_fresh (s : State) (d : DS) (a : Nat) :
    ttAddr (fresh s) d a = ttAddr s d a := rfl
@[simp] theorem ttMayStart_fresh (s : State) (d : DS) (b : TtBuf) :
    ttMayStart (fresh s) d b = ttMayStart s d b := rfl
@[simp] theorem ttPort_fresh (s : State) (u : US) (v : Fin 15) :
    ttPort (fresh s) u v = ttPort s u v := rfl
@[simp] theorem ttSlot_fresh (s : State) (u : US) (v : Fin 15) :
    ttSlot (fresh s) u v = ttSlot s u v := rfl
@[simp] theorem ttTargets_fresh (s : State) (u : US) (wIndex : Nat) :
    ttTargets (fresh s) u wIndex = ttTargets s u wIndex := rfl
@[simp] theorem unalloc_fresh (s : State) :
    unalloc (fresh s) = unalloc s := rfl
@[simp] theorem unallocInt_fresh (s : State) :
    unallocInt (fresh s) = unallocInt s := rfl
@[simp] theorem unavailNs_fresh (s : State) :
    unavailNs (fresh s) = unavailNs s := rfl
@[simp] theorem underVigil_fresh (s : State) (d : DS) :
    underVigil (fresh s) d = underVigil s d := rfl
@[simp] theorem unitFenced_fresh (s : State) (b : Block) (u : FUnit) :
    unitFenced (fresh s) b u = unitFenced s b u := rfl
@[simp] theorem unitReads_fresh (s : State) (n : Nat) :
    unitReads (fresh s) n = unitReads s n := rfl
@[simp] theorem unitStops_fresh (b : Block) (ft : Bool) (unit : Nat) (s : State) :
    unitStops b ft unit (fresh s) = unitStops b ft unit s := rfl
@[simp] theorem unspill_fresh (s : State) (d : DS) (b : TtBuf) :
    unspill (fresh s) d b = unspill s d b := rfl
@[simp] theorem usLpmOk_fresh (s : State) (u : US) (isU2 : Bool) :
    usLpmOk (fresh s) u isU2 = usLpmOk s u isU2 := rfl
@[simp] theorem usOf_fresh (s : State) (u : US) :
    usOf (fresh s) u = usOf s u := rfl
@[simp] theorem usb2Only_fresh (s : State) (u : US) :
    usb2Only (fresh s) u = usb2Only s u := rfl
@[simp] theorem valueWord_fresh (s : State) (w : Nat) :
    valueWord (fresh s) w = valueWord s w := rfl
@[simp] theorem vcWaits_fresh (s : State) (vc : Nat) :
    vcWaits (fresh s) vc = vcWaits s vc := rfl
@[simp] theorem vendorOther_fresh (s : State) (d : DS) :
    vendorOther (fresh s) d = vendorOther s d := rfl
@[simp] theorem vendorOwned_fresh (s : State) (d : DS) (sl : SlotSt) :
    vendorOwned (fresh s) d sl = vendorOwned s d sl := rfl
@[simp] theorem vendorWord_fresh (s : State) (u : US) (v : Fin 15) :
    vendorWord (fresh s) u v = vendorWord s u v := rfl
@[simp] theorem verifyStep_fresh (s : State) (i : Img) :
    verifyStep (fresh s) i = verifyStep s i := rfl
@[simp] theorem vigHub_fresh (s : State) (u : US) :
    vigHub (fresh s) u = vigHub s u := rfl
@[simp] theorem vigilHolds_fresh (s : State) :
    vigilHolds (fresh s) = vigilHolds s := rfl
@[simp] theorem vigilHubForm_fresh (s : State) (u : US) :
    vigilHubForm (fresh s) u = vigilHubForm s u := rfl
@[simp] theorem vigilPortForm_fresh (s : State) (d : DS) :
    vigilPortForm (fresh s) d = vigilPortForm s d := rfl
@[simp] theorem wIndexSlot_fresh (s : State) (u : US) (w : Nat) :
    wIndexSlot (fresh s) u w = wIndexSlot s u w := rfl
@[simp] theorem wakeEnabled_fresh (s : State) (u : US) (ss : Bool) :
    wakeEnabled (fresh s) u ss = wakeEnabled s u ss := rfl
@[simp] theorem warmPath_fresh (s : State) :
    warmPath (fresh s) = warmPath s := rfl
@[simp] theorem weightOf_fresh (s : State) (e : Epq) :
    weightOf (fresh s) e = weightOf s e := rfl
@[simp] theorem wfqBest_fresh (s : State) (l : Port) :
    wfqBest (fresh s) l = wfqBest s l := rfl
@[simp] theorem withdrawn_fresh (s : State) (unit : Nat) :
    withdrawn (fresh s) unit = withdrawn s unit := rfl
@[simp] theorem wordFenced_fresh (s : State) (w : Nat) :
    wordFenced (fresh s) w = wordFenced s w := rfl

end Sys2Proof.Machine
end

