-- ==== Sys2Proof/Laws/Memory.lean ====
section
/-! SUPPORT. The laws of the sparse memories: every write keeps the canonical form, a read after a write gives what was written, and
a write leaves every other place alone. -/

set_option Elab.async false

namespace Sys2Proof.Machine

variable {β : Type} [DecidableEq β] {d : β}

/-- A bound may be lowered. -/
theorem sparseWfFrom_mono {m : List (Nat × β)} {lo lo' : Nat} (h : lo' ≤ lo) (w : sparseWfFrom d lo m = true) :
    sparseWfFrom d lo' m = true := by
  cases m with
  | nil => rfl
  | cons e t =>
    simp only [sparseWfFrom, Bool.and_eq_true, decide_eq_true_eq] at w ⊢
    exact ⟨⟨by omega, w.1.2⟩, w.2⟩

/-- A key below the bound is not listed. -/
theorem sparseGet_low {m : List (Nat × β)} : ∀ {lo a : Nat}, sparseWfFrom d lo m = true → a < lo → sparseGet d m a = d := by
  induction m with
  | nil => intros; rfl
  | cons e t ih =>
    intro lo a w h
    simp only [sparseWfFrom, Bool.and_eq_true, decide_eq_true_eq] at w
    rw [sparseGet, if_neg (by omega)]
    exact ih w.2 (by omega)

/-- A write keeps the canonical form above a bound. -/
theorem sparseSet_wfFrom {a : Nat} {b : β} {m : List (Nat × β)} :
    ∀ {lo : Nat}, sparseWfFrom d lo m = true → lo ≤ a → sparseWfFrom d lo (sparseSet d m a b) = true := by
  induction m with
  | nil =>
    intro lo _ h
    by_cases hb : b = d <;> simp [sparseSet, sparseWfFrom, hb, h]
  | cons e t ih =>
    obtain ⟨k, v⟩ := e
    intro lo w h
    simp only [sparseWfFrom, Bool.and_eq_true, decide_eq_true_eq] at w
    obtain ⟨⟨w1, w2⟩, w3⟩ := w
    simp only [sparseSet]
    split
    · split
      · simp [sparseWfFrom, w1, w2, w3]
      · rename_i h1 h2
        simp [sparseWfFrom, h, h2, w2, w3]
        omega
    · split
      · split
        · exact sparseWfFrom_mono (by omega) w3
        · rename_i h2
          simp [sparseWfFrom, w1, h2, w3]
      · simp only [sparseWfFrom, Bool.and_eq_true, decide_eq_true_eq]
        exact ⟨⟨w1, w2⟩, ih w3 (by omega)⟩

/-- A write keeps the canonical form. -/
theorem sparseSet_wf {m : List (Nat × β)} {a : Nat} {b : β} (w : sparseWf d m = true) : sparseWf d (sparseSet d m a b) = true :=
  sparseSet_wfFrom w (Nat.zero_le a)

/-- A read after a write to the same place gives the value written. -/
theorem sparseGet_set_same {a : Nat} {b : β} {m : List (Nat × β)} :
    ∀ {lo : Nat}, sparseWfFrom d lo m = true → sparseGet d (sparseSet d m a b) a = b := by
  induction m with
  | nil =>
    intro lo _
    by_cases hb : b = d <;> simp [sparseSet, sparseGet, hb]
  | cons e t ih =>
    obtain ⟨k, v⟩ := e
    intro lo w
    simp only [sparseWfFrom, Bool.and_eq_true, decide_eq_true_eq] at w
    obtain ⟨-, w3⟩ := w
    simp only [sparseSet]
    split
    · rename_i h1
      split
      · rename_i h2
        rw [sparseGet, if_neg (by omega), sparseGet_low w3 (by omega), h2]
      · simp [sparseGet]
    · split
      · rename_i h1 h2
        split
        · rename_i h3
          rw [sparseGet_low w3 (by omega), h3]
        · simp [sparseGet, h2]
      · rename_i h1 h2
        rw [sparseGet, if_neg h2]
        exact ih w3

/-- A write leaves every other place alone. -/
theorem sparseGet_set_other {a c : Nat} {b : β} (h : c ≠ a) {m : List (Nat × β)} :
    sparseGet d (sparseSet d m a b) c = sparseGet d m c := by
  induction m with
  | nil => by_cases hb : b = d <;> simp [sparseSet, sparseGet, hb, h]
  | cons e t ih =>
    obtain ⟨k, v⟩ := e
    simp only [sparseSet]
    split
    · split <;> simp [sparseGet, h]
    · split
      · rename_i h2
        split <;> simp [sparseGet, ← h2, h]
      · simp [sparseGet, ih]

/-- A byte string written keeps the canonical form. -/
theorem memWrite_wf {u : Byte} (l : List Byte) : ∀ {m : List Host.Cell} {a : Nat}, sparseWf u m = true →
    sparseWf u (memWrite u m a l) = true := by
  induction l with
  | nil => intro m a w; exact w
  | cons b t ih => intro m a w; exact ih (sparseSet_wf w)

/-- A byte string written leaves every byte outside it alone. -/
theorem memWrite_other {u : Byte} (l : List Byte) : ∀ {m : List Host.Cell} {a c : Nat}, c < a ∨ a + l.length ≤ c →
    sparseGet u (memWrite u m a l) c = sparseGet u m c := by
  induction l with
  | nil => intros; rfl
  | cons b t ih =>
    intro m a c h
    simp only [List.length_cons] at h
    rw [memWrite, ih (by omega), sparseGet_set_other (by omega)]

/-- A byte string is read back as it was written. -/
theorem memRead_memWrite {u : Byte} (l : List Byte) : ∀ {m : List Host.Cell} {a : Nat}, sparseWf u m = true →
    memRead u (memWrite u m a l) a l.length = l := by
  induction l with
  | nil => intros; rfl
  | cons b t ih =>
    intro m a w
    simp only [memWrite, List.length_cons, memRead]
    rw [ih (sparseSet_wf w), memWrite_other t (by omega), sparseGet_set_same w]

/-- Entries taken out keep the canonical form above a bound. -/
theorem filter_wfFrom (p : Nat × β → Bool) {m : List (Nat × β)} :
    ∀ {lo : Nat}, sparseWfFrom d lo m = true → sparseWfFrom d lo (m.filter p) = true := by
  induction m with
  | nil => intro lo w; exact w
  | cons e t ih =>
    obtain ⟨k, v⟩ := e
    intro lo w
    simp only [sparseWfFrom, Bool.and_eq_true, decide_eq_true_eq] at w
    simp only [List.filter]
    split
    · simp only [sparseWfFrom, Bool.and_eq_true, decide_eq_true_eq]
      exact ⟨w.1, ih w.2⟩
    · exact sparseWfFrom_mono (by omega) (ih w.2)

/-- Entries taken out keep the canonical form. -/
theorem filter_wf (p : Nat × β → Bool) {m : List (Nat × β)} (w : sparseWf d m = true) : sparseWf d (m.filter p) = true :=
  filter_wfFrom p w

/-- Flipped bits keep the canonical form (R88, R96). -/
theorem flipUnit_ok (n : Nat) (l : List (Nat × Nat)) : ∀ {m : MemBlk}, MemOk m → MemOk (flipUnit n l m) := by
  unfold flipUnit
  induction l with
  | nil => intro m h; exact h
  | cons x t ih =>
    intro m h
    refine ih ?_
    dsimp only
    split
    · exact ⟨sparseSet_wf h.1, h.2⟩
    · split
      · exact ⟨h.1, sparseSet_wf h.2.1, h.2.2⟩
      · exact h

/-- Corrected words written back keep the canonical form (R96). -/
theorem writeBack_ok (l : List (Nat × Nat)) : ∀ {m : MemBlk}, MemOk m → MemOk (writeBack l m) := by
  unfold writeBack
  induction l with
  | nil => intro m h; exact h
  | cons x t ih => intro m h; exact ih ⟨sparseSet_wf h.1, h.2⟩

/-- Slots written keep the canonical form. -/
theorem writeSlots_wf {r : Ring} (l : List (List Byte)) : ∀ {m : List Host.Cell} {i : Nat}, sparseWf 0 m = true →
    sparseWf 0 (writeSlots r m i l) = true := by
  induction l with
  | nil => intro m i w; exact w
  | cons c t ih => intro m i w; exact ih (memWrite_wf c w)

/-- One Almanac write keeps the canonical form and the endurance limit (R474). -/
theorem almWrite1_ok {a : Alm} {w : Nat} {v : Word} (h : AlmOk a) : AlmOk (almWrite1 a w v) := by
  unfold almWrite1
  split
  · exact h
  · refine ⟨sparseSet_wf h.1, sparseSet_wf h.2.1, fun x => ?_⟩
    by_cases hx : x = w
    · subst hx
      rw [sparseGet_set_same h.2.1]
      omega
    · rw [sparseGet_set_other hx]
      exact h.2.2 x

/-- A list of Almanac writes keeps them. -/
theorem almWriteAll_ok {l : List (Nat × Word)} : ∀ {a : Alm}, AlmOk a → AlmOk (almWriteAll a l) := by
  induction l with
  | nil => intro a h; exact h
  | cons e t ih => intro a h; exact ih (almWrite1_ok h)

/-- Every memory is in canonical form at reset. -/
theorem reset_canon : Canon State.reset :=
  ⟨⟨by decide +kernel, by decide +kernel⟩, ⟨by decide +kernel, by decide +kernel⟩,
    ⟨rfl, rfl, fun _ => by simp [State.reset, sparseGet]⟩, rfl, rfl, rfl⟩

end Sys2Proof.Machine
end

