-- ==== Sys2Proof/Laws/Parts.lean ====
section
/-! SUPPORT. What the operations that most commands call leave, read field by field. -/

set_option Elab.async false

namespace Sys2Proof.Machine

theorem pending_of_only {s t : State} (h : Fld.pending.only t = Fld.pending.only s) : t.pending = s.pending := by
  simpa [Fld.only] using h
theorem out_of_only {s t : State} (h : Fld.out.only t = Fld.out.only s) : t.out = s.out := by
  simpa [Fld.only] using h
theorem now_of_only {s t : State} (h : Fld.now.only t = Fld.now.only s) : t.now = s.now := by
  simpa [Fld.only] using h
theorem freeSeq_of_only {s t : State} (h : Fld.freeSeq.only t = Fld.freeSeq.only s) : t.freeSeq = s.freeSeq := by
  simpa [Fld.only] using h
theorem mbx_of_only {s t : State} (h : Fld.mbx.only t = Fld.mbx.only s) : t.mbx = s.mbx := by
  simpa [Fld.only] using h
theorem flt_of_only {s t : State} (h : Fld.flt.only t = Fld.flt.only s) : t.flt = s.flt := by
  simpa [Fld.only] using h
theorem alm_of_only {s t : State} (h : Fld.alm.only t = Fld.alm.only s) : t.alm = s.alm := by
  simpa [Fld.only] using h
theorem pmu_of_only {s t : State} (h : Fld.pmu.only t = Fld.pmu.only s) : t.pmu = s.pmu := by
  simpa [Fld.only] using h
theorem reg_of_only {s t : State} (h : Fld.reg.only t = Fld.reg.only s) : t.reg = s.reg := by
  simpa [Fld.only] using h
theorem clk_of_only {s t : State} (h : Fld.clk.only t = Fld.clk.only s) : t.clk = s.clk := by
  simpa [Fld.only] using h
theorem wake_of_only {s t : State} (h : Fld.wake.only t = Fld.wake.only s) : t.wake = s.wake := by
  simpa [Fld.only] using h
theorem sup_of_only {s t : State} (h : Fld.sup.only t = Fld.sup.only s) : t.sup = s.sup := by
  simpa [Fld.only] using h
theorem fw_of_only {s t : State} (h : Fld.fw.only t = Fld.fw.only s) : t.fw = s.fw := by
  simpa [Fld.only] using h
theorem avail_of_only {s t : State} (h : Fld.avail.only t = Fld.avail.only s) : t.avail = s.avail := by
  simpa [Fld.only] using h
theorem hubs_of_only {s t : State} (h : Fld.hubs.only t = Fld.hubs.only s) : t.hubs = s.hubs := by
  simpa [Fld.only] using h
theorem own_of_only {s t : State} (h : Fld.own.only t = Fld.own.only s) : t.own = s.own := by
  simpa [Fld.only] using h
theorem dsd_of_only {s t : State} (h : Fld.dsd.only t = Fld.dsd.only s) : t.dsd = s.dsd := by
  simpa [Fld.only] using h
theorem usd_of_only {s t : State} (h : Fld.usd.only t = Fld.usd.only s) : t.usd = s.usd := by
  simpa [Fld.only] using h
theorem epqs_of_only {s t : State} (h : Fld.epqs.only t = Fld.epqs.only s) : t.epqs = s.epqs := by
  simpa [Fld.only] using h
theorem links_of_only {s t : State} (h : Fld.links.only t = Fld.links.only s) : t.links = s.links := by
  simpa [Fld.only] using h
theorem sched_of_only {s t : State} (h : Fld.sched.only t = Fld.sched.only s) : t.sched = s.sched := by
  simpa [Fld.only] using h
theorem place_of_only {s t : State} (h : Fld.place.only t = Fld.place.only s) : t.place = s.place := by
  simpa [Fld.only] using h
theorem memb_of_only {s t : State} (h : Fld.memb.only t = Fld.memb.only s) : t.memb = s.memb := by
  simpa [Fld.only] using h
theorem fab_of_only {s t : State} (h : Fld.fab.only t = Fld.fab.only s) : t.fab = s.fab := by
  simpa [Fld.only] using h
theorem u2d_of_only {s t : State} (h : Fld.u2d.only t = Fld.u2d.only s) : t.u2d = s.u2d := by
  simpa [Fld.only] using h
theorem u2u_of_only {s t : State} (h : Fld.u2u.only t = Fld.u2u.only s) : t.u2u = s.u2u := by
  simpa [Fld.only] using h
theorem vig_of_only {s t : State} (h : Fld.vig.only t = Fld.vig.only s) : t.vig = s.vig := by
  simpa [Fld.only] using h
theorem fo_of_only {s t : State} (h : Fld.fo.only t = Fld.fo.only s) : t.fo = s.fo := by
  simpa [Fld.only] using h
theorem tc_of_only {s t : State} (h : Fld.tc.only t = Fld.tc.only s) : t.tc = s.tc := by
  simpa [Fld.only] using h
theorem phy_of_only {s t : State} (h : Fld.phy.only t = Fld.phy.only s) : t.phy = s.phy := by
  simpa [Fld.only] using h
theorem pwr_of_only {s t : State} (h : Fld.pwr.only t = Fld.pwr.only s) : t.pwr = s.pwr := by
  simpa [Fld.only] using h
theorem lane_of_only {s t : State} (h : Fld.lane.only t = Fld.lane.only s) : t.lane = s.lane := by
  simpa [Fld.only] using h
theorem guard_of_only {s t : State} (h : Fld.guard.only t = Fld.guard.only s) : t.guard = s.guard := by
  simpa [Fld.only] using h
theorem dp_of_only {s t : State} (h : Fld.dp.only t = Fld.dp.only s) : t.dp = s.dp := by
  simpa [Fld.only] using h
theorem lio_of_only {s t : State} (h : Fld.lio.only t = Fld.lio.only s) : t.lio = s.lio := by
  simpa [Fld.only] using h
theorem test_of_only {s t : State} (h : Fld.test.only t = Fld.test.only s) : t.test = s.test := by
  simpa [Fld.only] using h
theorem therm_of_only {s t : State} (h : Fld.therm.only t = Fld.therm.only s) : t.therm = s.therm := by
  simpa [Fld.only] using h
@[simp] theorem suspendWake_pending (cls port detail : Nat) (s : State) : (suspendWake cls port detail s).pending = s.pending :=
  pending_of_only (suspendWake_only .pending cls port detail s (by decide) (by decide) (by decide) (by decide) (by decide))
@[simp] theorem suspendWake_out (cls port detail : Nat) (s : State) : (suspendWake cls port detail s).out = s.out :=
  out_of_only (suspendWake_only .out cls port detail s (by decide) (by decide) (by decide) (by decide) (by decide))
@[simp] theorem suspendWake_now (cls port detail : Nat) (s : State) : (suspendWake cls port detail s).now = s.now :=
  now_of_only (suspendWake_only .now cls port detail s (by decide) (by decide) (by decide) (by decide) (by decide))
@[simp] theorem suspendWake_freeSeq (cls port detail : Nat) (s : State) : (suspendWake cls port detail s).freeSeq = s.freeSeq :=
  freeSeq_of_only (suspendWake_only .freeSeq cls port detail s (by decide) (by decide) (by decide) (by decide) (by decide))
@[simp] theorem suspendWake_flt (cls port detail : Nat) (s : State) : (suspendWake cls port detail s).flt = s.flt :=
  flt_of_only (suspendWake_only .flt cls port detail s (by decide) (by decide) (by decide) (by decide) (by decide))
@[simp] theorem suspendWake_alm (cls port detail : Nat) (s : State) : (suspendWake cls port detail s).alm = s.alm :=
  alm_of_only (suspendWake_only .alm cls port detail s (by decide) (by decide) (by decide) (by decide) (by decide))
@[simp] theorem suspendWake_reg (cls port detail : Nat) (s : State) : (suspendWake cls port detail s).reg = s.reg :=
  reg_of_only (suspendWake_only .reg cls port detail s (by decide) (by decide) (by decide) (by decide) (by decide))
@[simp] theorem suspendWake_clk (cls port detail : Nat) (s : State) : (suspendWake cls port detail s).clk = s.clk :=
  clk_of_only (suspendWake_only .clk cls port detail s (by decide) (by decide) (by decide) (by decide) (by decide))
@[simp] theorem suspendWake_avail (cls port detail : Nat) (s : State) : (suspendWake cls port detail s).avail = s.avail :=
  avail_of_only (suspendWake_only .avail cls port detail s (by decide) (by decide) (by decide) (by decide) (by decide))
@[simp] theorem suspendWake_hubs (cls port detail : Nat) (s : State) : (suspendWake cls port detail s).hubs = s.hubs :=
  hubs_of_only (suspendWake_only .hubs cls port detail s (by decide) (by decide) (by decide) (by decide) (by decide))
@[simp] theorem suspendWake_own (cls port detail : Nat) (s : State) : (suspendWake cls port detail s).own = s.own :=
  own_of_only (suspendWake_only .own cls port detail s (by decide) (by decide) (by decide) (by decide) (by decide))
@[simp] theorem suspendWake_dsd (cls port detail : Nat) (s : State) : (suspendWake cls port detail s).dsd = s.dsd :=
  dsd_of_only (suspendWake_only .dsd cls port detail s (by decide) (by decide) (by decide) (by decide) (by decide))
@[simp] theorem suspendWake_usd (cls port detail : Nat) (s : State) : (suspendWake cls port detail s).usd = s.usd :=
  usd_of_only (suspendWake_only .usd cls port detail s (by decide) (by decide) (by decide) (by decide) (by decide))
@[simp] theorem suspendWake_epqs (cls port detail : Nat) (s : State) : (suspendWake cls port detail s).epqs = s.epqs :=
  epqs_of_only (suspendWake_only .epqs cls port detail s (by decide) (by decide) (by decide) (by decide) (by decide))
@[simp] theorem suspendWake_links (cls port detail : Nat) (s : State) : (suspendWake cls port detail s).links = s.links :=
  links_of_only (suspendWake_only .links cls port detail s (by decide) (by decide) (by decide) (by decide) (by decide))
@[simp] theorem suspendWake_sched (cls port detail : Nat) (s : State) : (suspendWake cls port detail s).sched = s.sched :=
  sched_of_only (suspendWake_only .sched cls port detail s (by decide) (by decide) (by decide) (by decide) (by decide))
@[simp] theorem suspendWake_place (cls port detail : Nat) (s : State) : (suspendWake cls port detail s).place = s.place :=
  place_of_only (suspendWake_only .place cls port detail s (by decide) (by decide) (by decide) (by decide) (by decide))
@[simp] theorem suspendWake_memb (cls port detail : Nat) (s : State) : (suspendWake cls port detail s).memb = s.memb :=
  memb_of_only (suspendWake_only .memb cls port detail s (by decide) (by decide) (by decide) (by decide) (by decide))
@[simp] theorem suspendWake_fab (cls port detail : Nat) (s : State) : (suspendWake cls port detail s).fab = s.fab :=
  fab_of_only (suspendWake_only .fab cls port detail s (by decide) (by decide) (by decide) (by decide) (by decide))
@[simp] theorem suspendWake_u2d (cls port detail : Nat) (s : State) : (suspendWake cls port detail s).u2d = s.u2d :=
  u2d_of_only (suspendWake_only .u2d cls port detail s (by decide) (by decide) (by decide) (by decide) (by decide))
@[simp] theorem suspendWake_u2u (cls port detail : Nat) (s : State) : (suspendWake cls port detail s).u2u = s.u2u :=
  u2u_of_only (suspendWake_only .u2u cls port detail s (by decide) (by decide) (by decide) (by decide) (by decide))
@[simp] theorem suspendWake_vig (cls port detail : Nat) (s : State) : (suspendWake cls port detail s).vig = s.vig :=
  vig_of_only (suspendWake_only .vig cls port detail s (by decide) (by decide) (by decide) (by decide) (by decide))
@[simp] theorem suspendWake_fo (cls port detail : Nat) (s : State) : (suspendWake cls port detail s).fo = s.fo :=
  fo_of_only (suspendWake_only .fo cls port detail s (by decide) (by decide) (by decide) (by decide) (by decide))
@[simp] theorem suspendWake_tc (cls port detail : Nat) (s : State) : (suspendWake cls port detail s).tc = s.tc :=
  tc_of_only (suspendWake_only .tc cls port detail s (by decide) (by decide) (by decide) (by decide) (by decide))
@[simp] theorem suspendWake_phy (cls port detail : Nat) (s : State) : (suspendWake cls port detail s).phy = s.phy :=
  phy_of_only (suspendWake_only .phy cls port detail s (by decide) (by decide) (by decide) (by decide) (by decide))
@[simp] theorem suspendWake_pwr (cls port detail : Nat) (s : State) : (suspendWake cls port detail s).pwr = s.pwr :=
  pwr_of_only (suspendWake_only .pwr cls port detail s (by decide) (by decide) (by decide) (by decide) (by decide))
@[simp] theorem suspendWake_lane (cls port detail : Nat) (s : State) : (suspendWake cls port detail s).lane = s.lane :=
  lane_of_only (suspendWake_only .lane cls port detail s (by decide) (by decide) (by decide) (by decide) (by decide))
@[simp] theorem suspendWake_guard (cls port detail : Nat) (s : State) : (suspendWake cls port detail s).guard = s.guard :=
  guard_of_only (suspendWake_only .guard cls port detail s (by decide) (by decide) (by decide) (by decide) (by decide))
@[simp] theorem suspendWake_dp (cls port detail : Nat) (s : State) : (suspendWake cls port detail s).dp = s.dp :=
  dp_of_only (suspendWake_only .dp cls port detail s (by decide) (by decide) (by decide) (by decide) (by decide))
@[simp] theorem suspendWake_lio (cls port detail : Nat) (s : State) : (suspendWake cls port detail s).lio = s.lio :=
  lio_of_only (suspendWake_only .lio cls port detail s (by decide) (by decide) (by decide) (by decide) (by decide))
@[simp] theorem suspendWake_test (cls port detail : Nat) (s : State) : (suspendWake cls port detail s).test = s.test :=
  test_of_only (suspendWake_only .test cls port detail s (by decide) (by decide) (by decide) (by decide) (by decide))
@[simp] theorem suspendWake_therm (cls port detail : Nat) (s : State) : (suspendWake cls port detail s).therm = s.therm :=
  therm_of_only (suspendWake_only .therm cls port detail s (by decide) (by decide) (by decide) (by decide) (by decide))
@[simp] theorem dsOf_suspendWake (cls port detail : Nat) (s : State) (j : DS) : dsOf (suspendWake cls port detail s) j = dsOf s j := by
  simp [dsOf]
@[simp] theorem tcOf_suspendWake (cls port detail : Nat) (s : State) (j : Port) : tcOf (suspendWake cls port detail s) j = tcOf s j := by
  simp [tcOf]
@[simp] theorem phyOf_suspendWake (cls port detail : Nat) (s : State) (j : Port) : phyOf (suspendWake cls port detail s) j = phyOf s j := by
  simp [phyOf]
@[simp] theorem pwrOf_suspendWake (cls port detail : Nat) (s : State) (j : Port) : pwrOf (suspendWake cls port detail s) j = pwrOf s j := by
  simp [pwrOf]
@[simp] theorem linkOf_suspendWake (cls port detail : Nat) (s : State) (j : Port) : linkOf (suspendWake cls port detail s) j = linkOf s j := by
  simp [linkOf]
@[simp] theorem usOf_suspendWake (cls port detail : Nat) (s : State) (j : US) : usOf (suspendWake cls port detail s) j = usOf s j := by
  simp [usOf]
@[simp] theorem hubOf_suspendWake (cls port detail : Nat) (s : State) (j : US) : hubOf (suspendWake cls port detail s) j = hubOf s j := by
  simp [hubOf]
@[simp] theorem vigHub_suspendWake (cls port detail : Nat) (s : State) (j : US) : vigHub (suspendWake cls port detail s) j = vigHub s j := by
  simp [vigHub]
@[simp] theorem foOf_suspendWake (cls port detail : Nat) (s : State) (j : US) : foOf (suspendWake cls port detail s) j = foOf s j := by
  simp [foOf]
@[simp] theorem ownerOf_suspendWake (cls port detail : Nat) (s : State) (j : DS) : ownerOf (suspendWake cls port detail s) j = ownerOf s j := by
  simp [ownerOf]
@[simp] theorem hostSeen_pending (u : US) (s : State) : (hostSeen u s).pending = s.pending :=
  pending_of_only (hostSeen_only .pending u s (by decide) (by decide) (by decide) (by decide))
@[simp] theorem hostSeen_out (u : US) (s : State) : (hostSeen u s).out = s.out :=
  out_of_only (hostSeen_only .out u s (by decide) (by decide) (by decide) (by decide))
@[simp] theorem hostSeen_now (u : US) (s : State) : (hostSeen u s).now = s.now :=
  now_of_only (hostSeen_only .now u s (by decide) (by decide) (by decide) (by decide))
@[simp] theorem hostSeen_freeSeq (u : US) (s : State) : (hostSeen u s).freeSeq = s.freeSeq :=
  freeSeq_of_only (hostSeen_only .freeSeq u s (by decide) (by decide) (by decide) (by decide))
@[simp] theorem hostSeen_mbx (u : US) (s : State) : (hostSeen u s).mbx = s.mbx :=
  mbx_of_only (hostSeen_only .mbx u s (by decide) (by decide) (by decide) (by decide))
@[simp] theorem hostSeen_flt (u : US) (s : State) : (hostSeen u s).flt = s.flt :=
  flt_of_only (hostSeen_only .flt u s (by decide) (by decide) (by decide) (by decide))
@[simp] theorem hostSeen_alm (u : US) (s : State) : (hostSeen u s).alm = s.alm :=
  alm_of_only (hostSeen_only .alm u s (by decide) (by decide) (by decide) (by decide))
@[simp] theorem hostSeen_pmu (u : US) (s : State) : (hostSeen u s).pmu = s.pmu :=
  pmu_of_only (hostSeen_only .pmu u s (by decide) (by decide) (by decide) (by decide))
@[simp] theorem hostSeen_reg (u : US) (s : State) : (hostSeen u s).reg = s.reg :=
  reg_of_only (hostSeen_only .reg u s (by decide) (by decide) (by decide) (by decide))
@[simp] theorem hostSeen_clk (u : US) (s : State) : (hostSeen u s).clk = s.clk :=
  clk_of_only (hostSeen_only .clk u s (by decide) (by decide) (by decide) (by decide))
@[simp] theorem hostSeen_wake (u : US) (s : State) : (hostSeen u s).wake = s.wake :=
  wake_of_only (hostSeen_only .wake u s (by decide) (by decide) (by decide) (by decide))
@[simp] theorem hostSeen_sup (u : US) (s : State) : (hostSeen u s).sup = s.sup :=
  sup_of_only (hostSeen_only .sup u s (by decide) (by decide) (by decide) (by decide))
@[simp] theorem hostSeen_fw (u : US) (s : State) : (hostSeen u s).fw = s.fw :=
  fw_of_only (hostSeen_only .fw u s (by decide) (by decide) (by decide) (by decide))
@[simp] theorem hostSeen_hubs (u : US) (s : State) : (hostSeen u s).hubs = s.hubs :=
  hubs_of_only (hostSeen_only .hubs u s (by decide) (by decide) (by decide) (by decide))
@[simp] theorem hostSeen_own (u : US) (s : State) : (hostSeen u s).own = s.own :=
  own_of_only (hostSeen_only .own u s (by decide) (by decide) (by decide) (by decide))
@[simp] theorem hostSeen_dsd (u : US) (s : State) : (hostSeen u s).dsd = s.dsd :=
  dsd_of_only (hostSeen_only .dsd u s (by decide) (by decide) (by decide) (by decide))
@[simp] theorem hostSeen_usd (u : US) (s : State) : (hostSeen u s).usd = s.usd :=
  usd_of_only (hostSeen_only .usd u s (by decide) (by decide) (by decide) (by decide))
@[simp] theorem hostSeen_epqs (u : US) (s : State) : (hostSeen u s).epqs = s.epqs :=
  epqs_of_only (hostSeen_only .epqs u s (by decide) (by decide) (by decide) (by decide))
@[simp] theorem hostSeen_links (u : US) (s : State) : (hostSeen u s).links = s.links :=
  links_of_only (hostSeen_only .links u s (by decide) (by decide) (by decide) (by decide))
@[simp] theorem hostSeen_sched (u : US) (s : State) : (hostSeen u s).sched = s.sched :=
  sched_of_only (hostSeen_only .sched u s (by decide) (by decide) (by decide) (by decide))
@[simp] theorem hostSeen_place (u : US) (s : State) : (hostSeen u s).place = s.place :=
  place_of_only (hostSeen_only .place u s (by decide) (by decide) (by decide) (by decide))
@[simp] theorem hostSeen_memb (u : US) (s : State) : (hostSeen u s).memb = s.memb :=
  memb_of_only (hostSeen_only .memb u s (by decide) (by decide) (by decide) (by decide))
@[simp] theorem hostSeen_fab (u : US) (s : State) : (hostSeen u s).fab = s.fab :=
  fab_of_only (hostSeen_only .fab u s (by decide) (by decide) (by decide) (by decide))
@[simp] theorem hostSeen_u2d (u : US) (s : State) : (hostSeen u s).u2d = s.u2d :=
  u2d_of_only (hostSeen_only .u2d u s (by decide) (by decide) (by decide) (by decide))
@[simp] theorem hostSeen_tc (u : US) (s : State) : (hostSeen u s).tc = s.tc :=
  tc_of_only (hostSeen_only .tc u s (by decide) (by decide) (by decide) (by decide))
@[simp] theorem hostSeen_phy (u : US) (s : State) : (hostSeen u s).phy = s.phy :=
  phy_of_only (hostSeen_only .phy u s (by decide) (by decide) (by decide) (by decide))
@[simp] theorem hostSeen_pwr (u : US) (s : State) : (hostSeen u s).pwr = s.pwr :=
  pwr_of_only (hostSeen_only .pwr u s (by decide) (by decide) (by decide) (by decide))
@[simp] theorem hostSeen_lane (u : US) (s : State) : (hostSeen u s).lane = s.lane :=
  lane_of_only (hostSeen_only .lane u s (by decide) (by decide) (by decide) (by decide))
@[simp] theorem hostSeen_guard (u : US) (s : State) : (hostSeen u s).guard = s.guard :=
  guard_of_only (hostSeen_only .guard u s (by decide) (by decide) (by decide) (by decide))
@[simp] theorem hostSeen_dp (u : US) (s : State) : (hostSeen u s).dp = s.dp :=
  dp_of_only (hostSeen_only .dp u s (by decide) (by decide) (by decide) (by decide))
@[simp] theorem hostSeen_lio (u : US) (s : State) : (hostSeen u s).lio = s.lio :=
  lio_of_only (hostSeen_only .lio u s (by decide) (by decide) (by decide) (by decide))
@[simp] theorem hostSeen_test (u : US) (s : State) : (hostSeen u s).test = s.test :=
  test_of_only (hostSeen_only .test u s (by decide) (by decide) (by decide) (by decide))
@[simp] theorem hostSeen_therm (u : US) (s : State) : (hostSeen u s).therm = s.therm :=
  therm_of_only (hostSeen_only .therm u s (by decide) (by decide) (by decide) (by decide))
@[simp] theorem dsOf_hostSeen (u : US) (s : State) (j : DS) : dsOf (hostSeen u s) j = dsOf s j := by
  simp [dsOf]
@[simp] theorem tcOf_hostSeen (u : US) (s : State) (j : Port) : tcOf (hostSeen u s) j = tcOf s j := by
  simp [tcOf]
@[simp] theorem phyOf_hostSeen (u : US) (s : State) (j : Port) : phyOf (hostSeen u s) j = phyOf s j := by
  simp [phyOf]
@[simp] theorem pwrOf_hostSeen (u : US) (s : State) (j : Port) : pwrOf (hostSeen u s) j = pwrOf s j := by
  simp [pwrOf]
@[simp] theorem linkOf_hostSeen (u : US) (s : State) (j : Port) : linkOf (hostSeen u s) j = linkOf s j := by
  simp [linkOf]
@[simp] theorem usOf_hostSeen (u : US) (s : State) (j : US) : usOf (hostSeen u s) j = usOf s j := by
  simp [usOf]
@[simp] theorem hubOf_hostSeen (u : US) (s : State) (j : US) : hubOf (hostSeen u s) j = hubOf s j := by
  simp [hubOf]
@[simp] theorem ownerOf_hostSeen (u : US) (s : State) (j : DS) : ownerOf (hostSeen u s) j = ownerOf s j := by
  simp [ownerOf]
@[simp] theorem discardTx_pending (p : Port) (s : State) : (discardTx p s).pending = s.pending :=
  pending_of_only (discardTx_only .pending p s (by decide) (by decide) (by decide))
@[simp] theorem discardTx_out (p : Port) (s : State) : (discardTx p s).out = s.out :=
  out_of_only (discardTx_only .out p s (by decide) (by decide) (by decide))
@[simp] theorem discardTx_now (p : Port) (s : State) : (discardTx p s).now = s.now :=
  now_of_only (discardTx_only .now p s (by decide) (by decide) (by decide))
@[simp] theorem discardTx_freeSeq (p : Port) (s : State) : (discardTx p s).freeSeq = s.freeSeq :=
  freeSeq_of_only (discardTx_only .freeSeq p s (by decide) (by decide) (by decide))
@[simp] theorem discardTx_flt (p : Port) (s : State) : (discardTx p s).flt = s.flt :=
  flt_of_only (discardTx_only .flt p s (by decide) (by decide) (by decide))
@[simp] theorem discardTx_alm (p : Port) (s : State) : (discardTx p s).alm = s.alm :=
  alm_of_only (discardTx_only .alm p s (by decide) (by decide) (by decide))
@[simp] theorem discardTx_pmu (p : Port) (s : State) : (discardTx p s).pmu = s.pmu :=
  pmu_of_only (discardTx_only .pmu p s (by decide) (by decide) (by decide))
@[simp] theorem discardTx_reg (p : Port) (s : State) : (discardTx p s).reg = s.reg :=
  reg_of_only (discardTx_only .reg p s (by decide) (by decide) (by decide))
@[simp] theorem discardTx_clk (p : Port) (s : State) : (discardTx p s).clk = s.clk :=
  clk_of_only (discardTx_only .clk p s (by decide) (by decide) (by decide))
@[simp] theorem discardTx_wake (p : Port) (s : State) : (discardTx p s).wake = s.wake :=
  wake_of_only (discardTx_only .wake p s (by decide) (by decide) (by decide))
@[simp] theorem discardTx_sup (p : Port) (s : State) : (discardTx p s).sup = s.sup :=
  sup_of_only (discardTx_only .sup p s (by decide) (by decide) (by decide))
@[simp] theorem discardTx_fw (p : Port) (s : State) : (discardTx p s).fw = s.fw :=
  fw_of_only (discardTx_only .fw p s (by decide) (by decide) (by decide))
@[simp] theorem discardTx_avail (p : Port) (s : State) : (discardTx p s).avail = s.avail :=
  avail_of_only (discardTx_only .avail p s (by decide) (by decide) (by decide))
@[simp] theorem discardTx_hubs (p : Port) (s : State) : (discardTx p s).hubs = s.hubs :=
  hubs_of_only (discardTx_only .hubs p s (by decide) (by decide) (by decide))
@[simp] theorem discardTx_own (p : Port) (s : State) : (discardTx p s).own = s.own :=
  own_of_only (discardTx_only .own p s (by decide) (by decide) (by decide))
@[simp] theorem discardTx_dsd (p : Port) (s : State) : (discardTx p s).dsd = s.dsd :=
  dsd_of_only (discardTx_only .dsd p s (by decide) (by decide) (by decide))
@[simp] theorem discardTx_usd (p : Port) (s : State) : (discardTx p s).usd = s.usd :=
  usd_of_only (discardTx_only .usd p s (by decide) (by decide) (by decide))
@[simp] theorem discardTx_epqs (p : Port) (s : State) : (discardTx p s).epqs = s.epqs :=
  epqs_of_only (discardTx_only .epqs p s (by decide) (by decide) (by decide))
@[simp] theorem discardTx_links (p : Port) (s : State) : (discardTx p s).links = s.links :=
  links_of_only (discardTx_only .links p s (by decide) (by decide) (by decide))
@[simp] theorem discardTx_sched (p : Port) (s : State) : (discardTx p s).sched = s.sched :=
  sched_of_only (discardTx_only .sched p s (by decide) (by decide) (by decide))
@[simp] theorem discardTx_place (p : Port) (s : State) : (discardTx p s).place = s.place :=
  place_of_only (discardTx_only .place p s (by decide) (by decide) (by decide))
@[simp] theorem discardTx_memb (p : Port) (s : State) : (discardTx p s).memb = s.memb :=
  memb_of_only (discardTx_only .memb p s (by decide) (by decide) (by decide))
@[simp] theorem discardTx_fab (p : Port) (s : State) : (discardTx p s).fab = s.fab :=
  fab_of_only (discardTx_only .fab p s (by decide) (by decide) (by decide))
@[simp] theorem discardTx_u2d (p : Port) (s : State) : (discardTx p s).u2d = s.u2d :=
  u2d_of_only (discardTx_only .u2d p s (by decide) (by decide) (by decide))
@[simp] theorem discardTx_u2u (p : Port) (s : State) : (discardTx p s).u2u = s.u2u :=
  u2u_of_only (discardTx_only .u2u p s (by decide) (by decide) (by decide))
@[simp] theorem discardTx_vig (p : Port) (s : State) : (discardTx p s).vig = s.vig :=
  vig_of_only (discardTx_only .vig p s (by decide) (by decide) (by decide))
@[simp] theorem discardTx_fo (p : Port) (s : State) : (discardTx p s).fo = s.fo :=
  fo_of_only (discardTx_only .fo p s (by decide) (by decide) (by decide))
@[simp] theorem discardTx_tc (p : Port) (s : State) : (discardTx p s).tc = s.tc :=
  tc_of_only (discardTx_only .tc p s (by decide) (by decide) (by decide))
@[simp] theorem discardTx_lane (p : Port) (s : State) : (discardTx p s).lane = s.lane :=
  lane_of_only (discardTx_only .lane p s (by decide) (by decide) (by decide))
@[simp] theorem discardTx_guard (p : Port) (s : State) : (discardTx p s).guard = s.guard :=
  guard_of_only (discardTx_only .guard p s (by decide) (by decide) (by decide))
@[simp] theorem discardTx_dp (p : Port) (s : State) : (discardTx p s).dp = s.dp :=
  dp_of_only (discardTx_only .dp p s (by decide) (by decide) (by decide))
@[simp] theorem discardTx_lio (p : Port) (s : State) : (discardTx p s).lio = s.lio :=
  lio_of_only (discardTx_only .lio p s (by decide) (by decide) (by decide))
@[simp] theorem discardTx_test (p : Port) (s : State) : (discardTx p s).test = s.test :=
  test_of_only (discardTx_only .test p s (by decide) (by decide) (by decide))
@[simp] theorem discardTx_therm (p : Port) (s : State) : (discardTx p s).therm = s.therm :=
  therm_of_only (discardTx_only .therm p s (by decide) (by decide) (by decide))
@[simp] theorem dsOf_discardTx (p : Port) (s : State) (j : DS) : dsOf (discardTx p s) j = dsOf s j := by
  simp [dsOf]
@[simp] theorem tcOf_discardTx (p : Port) (s : State) (j : Port) : tcOf (discardTx p s) j = tcOf s j := by
  simp [tcOf]
@[simp] theorem linkOf_discardTx (p : Port) (s : State) (j : Port) : linkOf (discardTx p s) j = linkOf s j := by
  simp [linkOf]
@[simp] theorem usOf_discardTx (p : Port) (s : State) (j : US) : usOf (discardTx p s) j = usOf s j := by
  simp [usOf]
@[simp] theorem hubOf_discardTx (p : Port) (s : State) (j : US) : hubOf (discardTx p s) j = hubOf s j := by
  simp [hubOf]
@[simp] theorem vigHub_discardTx (p : Port) (s : State) (j : US) : vigHub (discardTx p s) j = vigHub s j := by
  simp [vigHub]
@[simp] theorem foOf_discardTx (p : Port) (s : State) (j : US) : foOf (discardTx p s) j = foOf s j := by
  simp [foOf]
@[simp] theorem ownerOf_discardTx (p : Port) (s : State) (j : DS) : ownerOf (discardTx p s) j = ownerOf s j := by
  simp [ownerOf]
@[simp] theorem settle_pending (s : State) : (settle s).pending = s.pending :=
  pending_of_only (settle_only .pending s (by decide) (by decide) (by decide))
@[simp] theorem settle_out (s : State) : (settle s).out = s.out :=
  out_of_only (settle_only .out s (by decide) (by decide) (by decide))
@[simp] theorem settle_now (s : State) : (settle s).now = s.now :=
  now_of_only (settle_only .now s (by decide) (by decide) (by decide))
@[simp] theorem settle_freeSeq (s : State) : (settle s).freeSeq = s.freeSeq :=
  freeSeq_of_only (settle_only .freeSeq s (by decide) (by decide) (by decide))
@[simp] theorem settle_mbx (s : State) : (settle s).mbx = s.mbx :=
  mbx_of_only (settle_only .mbx s (by decide) (by decide) (by decide))
@[simp] theorem settle_flt (s : State) : (settle s).flt = s.flt :=
  flt_of_only (settle_only .flt s (by decide) (by decide) (by decide))
@[simp] theorem settle_alm (s : State) : (settle s).alm = s.alm :=
  alm_of_only (settle_only .alm s (by decide) (by decide) (by decide))
@[simp] theorem settle_pmu (s : State) : (settle s).pmu = s.pmu :=
  pmu_of_only (settle_only .pmu s (by decide) (by decide) (by decide))
@[simp] theorem settle_reg (s : State) : (settle s).reg = s.reg :=
  reg_of_only (settle_only .reg s (by decide) (by decide) (by decide))
@[simp] theorem settle_clk (s : State) : (settle s).clk = s.clk :=
  clk_of_only (settle_only .clk s (by decide) (by decide) (by decide))
@[simp] theorem settle_wake (s : State) : (settle s).wake = s.wake :=
  wake_of_only (settle_only .wake s (by decide) (by decide) (by decide))
@[simp] theorem settle_sup (s : State) : (settle s).sup = s.sup :=
  sup_of_only (settle_only .sup s (by decide) (by decide) (by decide))
@[simp] theorem settle_fw (s : State) : (settle s).fw = s.fw :=
  fw_of_only (settle_only .fw s (by decide) (by decide) (by decide))
@[simp] theorem settle_avail (s : State) : (settle s).avail = s.avail :=
  avail_of_only (settle_only .avail s (by decide) (by decide) (by decide))
@[simp] theorem settle_hubs (s : State) : (settle s).hubs = s.hubs :=
  hubs_of_only (settle_only .hubs s (by decide) (by decide) (by decide))
@[simp] theorem settle_own (s : State) : (settle s).own = s.own :=
  own_of_only (settle_only .own s (by decide) (by decide) (by decide))
@[simp] theorem settle_dsd (s : State) : (settle s).dsd = s.dsd :=
  dsd_of_only (settle_only .dsd s (by decide) (by decide) (by decide))
@[simp] theorem settle_usd (s : State) : (settle s).usd = s.usd :=
  usd_of_only (settle_only .usd s (by decide) (by decide) (by decide))
@[simp] theorem settle_sched (s : State) : (settle s).sched = s.sched :=
  sched_of_only (settle_only .sched s (by decide) (by decide) (by decide))
@[simp] theorem settle_place (s : State) : (settle s).place = s.place :=
  place_of_only (settle_only .place s (by decide) (by decide) (by decide))
@[simp] theorem settle_memb (s : State) : (settle s).memb = s.memb :=
  memb_of_only (settle_only .memb s (by decide) (by decide) (by decide))
@[simp] theorem settle_u2d (s : State) : (settle s).u2d = s.u2d :=
  u2d_of_only (settle_only .u2d s (by decide) (by decide) (by decide))
@[simp] theorem settle_u2u (s : State) : (settle s).u2u = s.u2u :=
  u2u_of_only (settle_only .u2u s (by decide) (by decide) (by decide))
@[simp] theorem settle_vig (s : State) : (settle s).vig = s.vig :=
  vig_of_only (settle_only .vig s (by decide) (by decide) (by decide))
@[simp] theorem settle_fo (s : State) : (settle s).fo = s.fo :=
  fo_of_only (settle_only .fo s (by decide) (by decide) (by decide))
@[simp] theorem settle_tc (s : State) : (settle s).tc = s.tc :=
  tc_of_only (settle_only .tc s (by decide) (by decide) (by decide))
@[simp] theorem settle_phy (s : State) : (settle s).phy = s.phy :=
  phy_of_only (settle_only .phy s (by decide) (by decide) (by decide))
@[simp] theorem settle_pwr (s : State) : (settle s).pwr = s.pwr :=
  pwr_of_only (settle_only .pwr s (by decide) (by decide) (by decide))
@[simp] theorem settle_lane (s : State) : (settle s).lane = s.lane :=
  lane_of_only (settle_only .lane s (by decide) (by decide) (by decide))
@[simp] theorem settle_guard (s : State) : (settle s).guard = s.guard :=
  guard_of_only (settle_only .guard s (by decide) (by decide) (by decide))
@[simp] theorem settle_dp (s : State) : (settle s).dp = s.dp :=
  dp_of_only (settle_only .dp s (by decide) (by decide) (by decide))
@[simp] theorem settle_lio (s : State) : (settle s).lio = s.lio :=
  lio_of_only (settle_only .lio s (by decide) (by decide) (by decide))
@[simp] theorem settle_test (s : State) : (settle s).test = s.test :=
  test_of_only (settle_only .test s (by decide) (by decide) (by decide))
@[simp] theorem settle_therm (s : State) : (settle s).therm = s.therm :=
  therm_of_only (settle_only .therm s (by decide) (by decide) (by decide))
@[simp] theorem dsOf_settle (s : State) (j : DS) : dsOf (settle s) j = dsOf s j := by
  simp [dsOf]
@[simp] theorem tcOf_settle (s : State) (j : Port) : tcOf (settle s) j = tcOf s j := by
  simp [tcOf]
@[simp] theorem phyOf_settle (s : State) (j : Port) : phyOf (settle s) j = phyOf s j := by
  simp [phyOf]
@[simp] theorem pwrOf_settle (s : State) (j : Port) : pwrOf (settle s) j = pwrOf s j := by
  simp [pwrOf]
@[simp] theorem usOf_settle (s : State) (j : US) : usOf (settle s) j = usOf s j := by
  simp [usOf]
@[simp] theorem hubOf_settle (s : State) (j : US) : hubOf (settle s) j = hubOf s j := by
  simp [hubOf]
@[simp] theorem vigHub_settle (s : State) (j : US) : vigHub (settle s) j = vigHub s j := by
  simp [vigHub]
@[simp] theorem foOf_settle (s : State) (j : US) : foOf (settle s) j = foOf s j := by
  simp [foOf]
@[simp] theorem ownerOf_settle (s : State) (j : DS) : ownerOf (settle s) j = ownerOf s j := by
  simp [ownerOf]
@[simp] theorem chgPort_pending (d : DS) (ss : Bool) (c : Change) (s : State) : (chgPort d ss c s).pending = s.pending :=
  pending_of_only (chgPort_only .pending d ss c s (by decide))
@[simp] theorem chgPort_out (d : DS) (ss : Bool) (c : Change) (s : State) : (chgPort d ss c s).out = s.out :=
  out_of_only (chgPort_only .out d ss c s (by decide))
@[simp] theorem chgPort_now (d : DS) (ss : Bool) (c : Change) (s : State) : (chgPort d ss c s).now = s.now :=
  now_of_only (chgPort_only .now d ss c s (by decide))
@[simp] theorem chgPort_freeSeq (d : DS) (ss : Bool) (c : Change) (s : State) : (chgPort d ss c s).freeSeq = s.freeSeq :=
  freeSeq_of_only (chgPort_only .freeSeq d ss c s (by decide))
@[simp] theorem chgPort_mbx (d : DS) (ss : Bool) (c : Change) (s : State) : (chgPort d ss c s).mbx = s.mbx :=
  mbx_of_only (chgPort_only .mbx d ss c s (by decide))
@[simp] theorem chgPort_flt (d : DS) (ss : Bool) (c : Change) (s : State) : (chgPort d ss c s).flt = s.flt :=
  flt_of_only (chgPort_only .flt d ss c s (by decide))
@[simp] theorem chgPort_alm (d : DS) (ss : Bool) (c : Change) (s : State) : (chgPort d ss c s).alm = s.alm :=
  alm_of_only (chgPort_only .alm d ss c s (by decide))
@[simp] theorem chgPort_pmu (d : DS) (ss : Bool) (c : Change) (s : State) : (chgPort d ss c s).pmu = s.pmu :=
  pmu_of_only (chgPort_only .pmu d ss c s (by decide))
@[simp] theorem chgPort_reg (d : DS) (ss : Bool) (c : Change) (s : State) : (chgPort d ss c s).reg = s.reg :=
  reg_of_only (chgPort_only .reg d ss c s (by decide))
@[simp] theorem chgPort_clk (d : DS) (ss : Bool) (c : Change) (s : State) : (chgPort d ss c s).clk = s.clk :=
  clk_of_only (chgPort_only .clk d ss c s (by decide))
@[simp] theorem chgPort_wake (d : DS) (ss : Bool) (c : Change) (s : State) : (chgPort d ss c s).wake = s.wake :=
  wake_of_only (chgPort_only .wake d ss c s (by decide))
@[simp] theorem chgPort_sup (d : DS) (ss : Bool) (c : Change) (s : State) : (chgPort d ss c s).sup = s.sup :=
  sup_of_only (chgPort_only .sup d ss c s (by decide))
@[simp] theorem chgPort_fw (d : DS) (ss : Bool) (c : Change) (s : State) : (chgPort d ss c s).fw = s.fw :=
  fw_of_only (chgPort_only .fw d ss c s (by decide))
@[simp] theorem chgPort_avail (d : DS) (ss : Bool) (c : Change) (s : State) : (chgPort d ss c s).avail = s.avail :=
  avail_of_only (chgPort_only .avail d ss c s (by decide))
@[simp] theorem chgPort_own (d : DS) (ss : Bool) (c : Change) (s : State) : (chgPort d ss c s).own = s.own :=
  own_of_only (chgPort_only .own d ss c s (by decide))
@[simp] theorem chgPort_dsd (d : DS) (ss : Bool) (c : Change) (s : State) : (chgPort d ss c s).dsd = s.dsd :=
  dsd_of_only (chgPort_only .dsd d ss c s (by decide))
@[simp] theorem chgPort_usd (d : DS) (ss : Bool) (c : Change) (s : State) : (chgPort d ss c s).usd = s.usd :=
  usd_of_only (chgPort_only .usd d ss c s (by decide))
@[simp] theorem chgPort_epqs (d : DS) (ss : Bool) (c : Change) (s : State) : (chgPort d ss c s).epqs = s.epqs :=
  epqs_of_only (chgPort_only .epqs d ss c s (by decide))
@[simp] theorem chgPort_links (d : DS) (ss : Bool) (c : Change) (s : State) : (chgPort d ss c s).links = s.links :=
  links_of_only (chgPort_only .links d ss c s (by decide))
@[simp] theorem chgPort_sched (d : DS) (ss : Bool) (c : Change) (s : State) : (chgPort d ss c s).sched = s.sched :=
  sched_of_only (chgPort_only .sched d ss c s (by decide))
@[simp] theorem chgPort_place (d : DS) (ss : Bool) (c : Change) (s : State) : (chgPort d ss c s).place = s.place :=
  place_of_only (chgPort_only .place d ss c s (by decide))
@[simp] theorem chgPort_memb (d : DS) (ss : Bool) (c : Change) (s : State) : (chgPort d ss c s).memb = s.memb :=
  memb_of_only (chgPort_only .memb d ss c s (by decide))
@[simp] theorem chgPort_fab (d : DS) (ss : Bool) (c : Change) (s : State) : (chgPort d ss c s).fab = s.fab :=
  fab_of_only (chgPort_only .fab d ss c s (by decide))
@[simp] theorem chgPort_u2d (d : DS) (ss : Bool) (c : Change) (s : State) : (chgPort d ss c s).u2d = s.u2d :=
  u2d_of_only (chgPort_only .u2d d ss c s (by decide))
@[simp] theorem chgPort_u2u (d : DS) (ss : Bool) (c : Change) (s : State) : (chgPort d ss c s).u2u = s.u2u :=
  u2u_of_only (chgPort_only .u2u d ss c s (by decide))
@[simp] theorem chgPort_vig (d : DS) (ss : Bool) (c : Change) (s : State) : (chgPort d ss c s).vig = s.vig :=
  vig_of_only (chgPort_only .vig d ss c s (by decide))
@[simp] theorem chgPort_fo (d : DS) (ss : Bool) (c : Change) (s : State) : (chgPort d ss c s).fo = s.fo :=
  fo_of_only (chgPort_only .fo d ss c s (by decide))
@[simp] theorem chgPort_tc (d : DS) (ss : Bool) (c : Change) (s : State) : (chgPort d ss c s).tc = s.tc :=
  tc_of_only (chgPort_only .tc d ss c s (by decide))
@[simp] theorem chgPort_phy (d : DS) (ss : Bool) (c : Change) (s : State) : (chgPort d ss c s).phy = s.phy :=
  phy_of_only (chgPort_only .phy d ss c s (by decide))
@[simp] theorem chgPort_pwr (d : DS) (ss : Bool) (c : Change) (s : State) : (chgPort d ss c s).pwr = s.pwr :=
  pwr_of_only (chgPort_only .pwr d ss c s (by decide))
@[simp] theorem chgPort_lane (d : DS) (ss : Bool) (c : Change) (s : State) : (chgPort d ss c s).lane = s.lane :=
  lane_of_only (chgPort_only .lane d ss c s (by decide))
@[simp] theorem chgPort_guard (d : DS) (ss : Bool) (c : Change) (s : State) : (chgPort d ss c s).guard = s.guard :=
  guard_of_only (chgPort_only .guard d ss c s (by decide))
@[simp] theorem chgPort_dp (d : DS) (ss : Bool) (c : Change) (s : State) : (chgPort d ss c s).dp = s.dp :=
  dp_of_only (chgPort_only .dp d ss c s (by decide))
@[simp] theorem chgPort_lio (d : DS) (ss : Bool) (c : Change) (s : State) : (chgPort d ss c s).lio = s.lio :=
  lio_of_only (chgPort_only .lio d ss c s (by decide))
@[simp] theorem chgPort_test (d : DS) (ss : Bool) (c : Change) (s : State) : (chgPort d ss c s).test = s.test :=
  test_of_only (chgPort_only .test d ss c s (by decide))
@[simp] theorem chgPort_therm (d : DS) (ss : Bool) (c : Change) (s : State) : (chgPort d ss c s).therm = s.therm :=
  therm_of_only (chgPort_only .therm d ss c s (by decide))
@[simp] theorem dsOf_chgPort (d : DS) (ss : Bool) (c : Change) (s : State) (j : DS) : dsOf (chgPort d ss c s) j = dsOf s j := by
  simp [dsOf]
@[simp] theorem tcOf_chgPort (d : DS) (ss : Bool) (c : Change) (s : State) (j : Port) : tcOf (chgPort d ss c s) j = tcOf s j := by
  simp [tcOf]
@[simp] theorem phyOf_chgPort (d : DS) (ss : Bool) (c : Change) (s : State) (j : Port) : phyOf (chgPort d ss c s) j = phyOf s j := by
  simp [phyOf]
@[simp] theorem pwrOf_chgPort (d : DS) (ss : Bool) (c : Change) (s : State) (j : Port) : pwrOf (chgPort d ss c s) j = pwrOf s j := by
  simp [pwrOf]
@[simp] theorem linkOf_chgPort (d : DS) (ss : Bool) (c : Change) (s : State) (j : Port) : linkOf (chgPort d ss c s) j = linkOf s j := by
  simp [linkOf]
@[simp] theorem usOf_chgPort (d : DS) (ss : Bool) (c : Change) (s : State) (j : US) : usOf (chgPort d ss c s) j = usOf s j := by
  simp [usOf]
@[simp] theorem vigHub_chgPort (d : DS) (ss : Bool) (c : Change) (s : State) (j : US) : vigHub (chgPort d ss c s) j = vigHub s j := by
  simp [vigHub]
@[simp] theorem foOf_chgPort (d : DS) (ss : Bool) (c : Change) (s : State) (j : US) : foOf (chgPort d ss c s) j = foOf s j := by
  simp [foOf]
@[simp] theorem ownerOf_chgPort (d : DS) (ss : Bool) (c : Change) (s : State) (j : DS) : ownerOf (chgPort d ss c s) j = ownerOf s j := by
  simp [ownerOf]
@[simp] theorem hubPresence_pending (u : US) (s : State) : (hubPresence u s).pending = s.pending :=
  pending_of_only (hubPresence_only .pending u s (by decide) (by decide) (by decide) (by decide) (by decide) (by decide))
@[simp] theorem hubPresence_out (u : US) (s : State) : (hubPresence u s).out = s.out :=
  out_of_only (hubPresence_only .out u s (by decide) (by decide) (by decide) (by decide) (by decide) (by decide))
@[simp] theorem hubPresence_now (u : US) (s : State) : (hubPresence u s).now = s.now :=
  now_of_only (hubPresence_only .now u s (by decide) (by decide) (by decide) (by decide) (by decide) (by decide))
@[simp] theorem hubPresence_freeSeq (u : US) (s : State) : (hubPresence u s).freeSeq = s.freeSeq :=
  freeSeq_of_only (hubPresence_only .freeSeq u s (by decide) (by decide) (by decide) (by decide) (by decide) (by decide))
@[simp] theorem hubPresence_flt (u : US) (s : State) : (hubPresence u s).flt = s.flt :=
  flt_of_only (hubPresence_only .flt u s (by decide) (by decide) (by decide) (by decide) (by decide) (by decide))
@[simp] theorem hubPresence_alm (u : US) (s : State) : (hubPresence u s).alm = s.alm :=
  alm_of_only (hubPresence_only .alm u s (by decide) (by decide) (by decide) (by decide) (by decide) (by decide))
@[simp] theorem hubPresence_reg (u : US) (s : State) : (hubPresence u s).reg = s.reg :=
  reg_of_only (hubPresence_only .reg u s (by decide) (by decide) (by decide) (by decide) (by decide) (by decide))
@[simp] theorem hubPresence_clk (u : US) (s : State) : (hubPresence u s).clk = s.clk :=
  clk_of_only (hubPresence_only .clk u s (by decide) (by decide) (by decide) (by decide) (by decide) (by decide))
@[simp] theorem hubPresence_wake (u : US) (s : State) : (hubPresence u s).wake = s.wake :=
  wake_of_only (hubPresence_only .wake u s (by decide) (by decide) (by decide) (by decide) (by decide) (by decide))
@[simp] theorem hubPresence_sup (u : US) (s : State) : (hubPresence u s).sup = s.sup :=
  sup_of_only (hubPresence_only .sup u s (by decide) (by decide) (by decide) (by decide) (by decide) (by decide))
@[simp] theorem hubPresence_own (u : US) (s : State) : (hubPresence u s).own = s.own :=
  own_of_only (hubPresence_only .own u s (by decide) (by decide) (by decide) (by decide) (by decide) (by decide))
@[simp] theorem hubPresence_dsd (u : US) (s : State) : (hubPresence u s).dsd = s.dsd :=
  dsd_of_only (hubPresence_only .dsd u s (by decide) (by decide) (by decide) (by decide) (by decide) (by decide))
@[simp] theorem hubPresence_usd (u : US) (s : State) : (hubPresence u s).usd = s.usd :=
  usd_of_only (hubPresence_only .usd u s (by decide) (by decide) (by decide) (by decide) (by decide) (by decide))
@[simp] theorem hubPresence_epqs (u : US) (s : State) : (hubPresence u s).epqs = s.epqs :=
  epqs_of_only (hubPresence_only .epqs u s (by decide) (by decide) (by decide) (by decide) (by decide) (by decide))
@[simp] theorem hubPresence_links (u : US) (s : State) : (hubPresence u s).links = s.links :=
  links_of_only (hubPresence_only .links u s (by decide) (by decide) (by decide) (by decide) (by decide) (by decide))
@[simp] theorem hubPresence_sched (u : US) (s : State) : (hubPresence u s).sched = s.sched :=
  sched_of_only (hubPresence_only .sched u s (by decide) (by decide) (by decide) (by decide) (by decide) (by decide))
@[simp] theorem hubPresence_place (u : US) (s : State) : (hubPresence u s).place = s.place :=
  place_of_only (hubPresence_only .place u s (by decide) (by decide) (by decide) (by decide) (by decide) (by decide))
@[simp] theorem hubPresence_memb (u : US) (s : State) : (hubPresence u s).memb = s.memb :=
  memb_of_only (hubPresence_only .memb u s (by decide) (by decide) (by decide) (by decide) (by decide) (by decide))
@[simp] theorem hubPresence_fab (u : US) (s : State) : (hubPresence u s).fab = s.fab :=
  fab_of_only (hubPresence_only .fab u s (by decide) (by decide) (by decide) (by decide) (by decide) (by decide))
@[simp] theorem hubPresence_u2d (u : US) (s : State) : (hubPresence u s).u2d = s.u2d :=
  u2d_of_only (hubPresence_only .u2d u s (by decide) (by decide) (by decide) (by decide) (by decide) (by decide))
@[simp] theorem hubPresence_u2u (u : US) (s : State) : (hubPresence u s).u2u = s.u2u :=
  u2u_of_only (hubPresence_only .u2u u s (by decide) (by decide) (by decide) (by decide) (by decide) (by decide))
@[simp] theorem hubPresence_vig (u : US) (s : State) : (hubPresence u s).vig = s.vig :=
  vig_of_only (hubPresence_only .vig u s (by decide) (by decide) (by decide) (by decide) (by decide) (by decide))
@[simp] theorem hubPresence_tc (u : US) (s : State) : (hubPresence u s).tc = s.tc :=
  tc_of_only (hubPresence_only .tc u s (by decide) (by decide) (by decide) (by decide) (by decide) (by decide))
@[simp] theorem hubPresence_phy (u : US) (s : State) : (hubPresence u s).phy = s.phy :=
  phy_of_only (hubPresence_only .phy u s (by decide) (by decide) (by decide) (by decide) (by decide) (by decide))
@[simp] theorem hubPresence_pwr (u : US) (s : State) : (hubPresence u s).pwr = s.pwr :=
  pwr_of_only (hubPresence_only .pwr u s (by decide) (by decide) (by decide) (by decide) (by decide) (by decide))
@[simp] theorem hubPresence_lane (u : US) (s : State) : (hubPresence u s).lane = s.lane :=
  lane_of_only (hubPresence_only .lane u s (by decide) (by decide) (by decide) (by decide) (by decide) (by decide))
@[simp] theorem hubPresence_guard (u : US) (s : State) : (hubPresence u s).guard = s.guard :=
  guard_of_only (hubPresence_only .guard u s (by decide) (by decide) (by decide) (by decide) (by decide) (by decide))
@[simp] theorem hubPresence_dp (u : US) (s : State) : (hubPresence u s).dp = s.dp :=
  dp_of_only (hubPresence_only .dp u s (by decide) (by decide) (by decide) (by decide) (by decide) (by decide))
@[simp] theorem hubPresence_lio (u : US) (s : State) : (hubPresence u s).lio = s.lio :=
  lio_of_only (hubPresence_only .lio u s (by decide) (by decide) (by decide) (by decide) (by decide) (by decide))
@[simp] theorem hubPresence_test (u : US) (s : State) : (hubPresence u s).test = s.test :=
  test_of_only (hubPresence_only .test u s (by decide) (by decide) (by decide) (by decide) (by decide) (by decide))
@[simp] theorem hubPresence_therm (u : US) (s : State) : (hubPresence u s).therm = s.therm :=
  therm_of_only (hubPresence_only .therm u s (by decide) (by decide) (by decide) (by decide) (by decide) (by decide))
@[simp] theorem dsOf_hubPresence (u : US) (s : State) (j : DS) : dsOf (hubPresence u s) j = dsOf s j := by
  simp [dsOf]
@[simp] theorem tcOf_hubPresence (u : US) (s : State) (j : Port) : tcOf (hubPresence u s) j = tcOf s j := by
  simp [tcOf]
@[simp] theorem phyOf_hubPresence (u : US) (s : State) (j : Port) : phyOf (hubPresence u s) j = phyOf s j := by
  simp [phyOf]
@[simp] theorem pwrOf_hubPresence (u : US) (s : State) (j : Port) : pwrOf (hubPresence u s) j = pwrOf s j := by
  simp [pwrOf]
@[simp] theorem linkOf_hubPresence (u : US) (s : State) (j : Port) : linkOf (hubPresence u s) j = linkOf s j := by
  simp [linkOf]
@[simp] theorem usOf_hubPresence (u : US) (s : State) (j : US) : usOf (hubPresence u s) j = usOf s j := by
  simp [usOf]
@[simp] theorem vigHub_hubPresence (u : US) (s : State) (j : US) : vigHub (hubPresence u s) j = vigHub s j := by
  simp [vigHub]
@[simp] theorem ownerOf_hubPresence (u : US) (s : State) (j : DS) : ownerOf (hubPresence u s) j = ownerOf s j := by
  simp [ownerOf]
@[simp] theorem setLink_pending (p : Port) (l : Link) (s : State) : (setLink p l s).pending = s.pending :=
  pending_of_only (setLink_only .pending p l s (by decide) (by decide))
@[simp] theorem setLink_out (p : Port) (l : Link) (s : State) : (setLink p l s).out = s.out :=
  out_of_only (setLink_only .out p l s (by decide) (by decide))
@[simp] theorem setLink_now (p : Port) (l : Link) (s : State) : (setLink p l s).now = s.now :=
  now_of_only (setLink_only .now p l s (by decide) (by decide))
@[simp] theorem setLink_freeSeq (p : Port) (l : Link) (s : State) : (setLink p l s).freeSeq = s.freeSeq :=
  freeSeq_of_only (setLink_only .freeSeq p l s (by decide) (by decide))
@[simp] theorem setLink_mbx (p : Port) (l : Link) (s : State) : (setLink p l s).mbx = s.mbx :=
  mbx_of_only (setLink_only .mbx p l s (by decide) (by decide))
@[simp] theorem setLink_flt (p : Port) (l : Link) (s : State) : (setLink p l s).flt = s.flt :=
  flt_of_only (setLink_only .flt p l s (by decide) (by decide))
@[simp] theorem setLink_alm (p : Port) (l : Link) (s : State) : (setLink p l s).alm = s.alm :=
  alm_of_only (setLink_only .alm p l s (by decide) (by decide))
@[simp] theorem setLink_pmu (p : Port) (l : Link) (s : State) : (setLink p l s).pmu = s.pmu :=
  pmu_of_only (setLink_only .pmu p l s (by decide) (by decide))
@[simp] theorem setLink_reg (p : Port) (l : Link) (s : State) : (setLink p l s).reg = s.reg :=
  reg_of_only (setLink_only .reg p l s (by decide) (by decide))
@[simp] theorem setLink_clk (p : Port) (l : Link) (s : State) : (setLink p l s).clk = s.clk :=
  clk_of_only (setLink_only .clk p l s (by decide) (by decide))
@[simp] theorem setLink_wake (p : Port) (l : Link) (s : State) : (setLink p l s).wake = s.wake :=
  wake_of_only (setLink_only .wake p l s (by decide) (by decide))
@[simp] theorem setLink_sup (p : Port) (l : Link) (s : State) : (setLink p l s).sup = s.sup :=
  sup_of_only (setLink_only .sup p l s (by decide) (by decide))
@[simp] theorem setLink_fw (p : Port) (l : Link) (s : State) : (setLink p l s).fw = s.fw :=
  fw_of_only (setLink_only .fw p l s (by decide) (by decide))
@[simp] theorem setLink_avail (p : Port) (l : Link) (s : State) : (setLink p l s).avail = s.avail :=
  avail_of_only (setLink_only .avail p l s (by decide) (by decide))
@[simp] theorem setLink_hubs (p : Port) (l : Link) (s : State) : (setLink p l s).hubs = s.hubs :=
  hubs_of_only (setLink_only .hubs p l s (by decide) (by decide))
@[simp] theorem setLink_own (p : Port) (l : Link) (s : State) : (setLink p l s).own = s.own :=
  own_of_only (setLink_only .own p l s (by decide) (by decide))
@[simp] theorem setLink_epqs (p : Port) (l : Link) (s : State) : (setLink p l s).epqs = s.epqs :=
  epqs_of_only (setLink_only .epqs p l s (by decide) (by decide))
@[simp] theorem setLink_links (p : Port) (l : Link) (s : State) : (setLink p l s).links = s.links :=
  links_of_only (setLink_only .links p l s (by decide) (by decide))
@[simp] theorem setLink_sched (p : Port) (l : Link) (s : State) : (setLink p l s).sched = s.sched :=
  sched_of_only (setLink_only .sched p l s (by decide) (by decide))
@[simp] theorem setLink_place (p : Port) (l : Link) (s : State) : (setLink p l s).place = s.place :=
  place_of_only (setLink_only .place p l s (by decide) (by decide))
@[simp] theorem setLink_memb (p : Port) (l : Link) (s : State) : (setLink p l s).memb = s.memb :=
  memb_of_only (setLink_only .memb p l s (by decide) (by decide))
@[simp] theorem setLink_fab (p : Port) (l : Link) (s : State) : (setLink p l s).fab = s.fab :=
  fab_of_only (setLink_only .fab p l s (by decide) (by decide))
@[simp] theorem setLink_u2d (p : Port) (l : Link) (s : State) : (setLink p l s).u2d = s.u2d :=
  u2d_of_only (setLink_only .u2d p l s (by decide) (by decide))
@[simp] theorem setLink_u2u (p : Port) (l : Link) (s : State) : (setLink p l s).u2u = s.u2u :=
  u2u_of_only (setLink_only .u2u p l s (by decide) (by decide))
@[simp] theorem setLink_vig (p : Port) (l : Link) (s : State) : (setLink p l s).vig = s.vig :=
  vig_of_only (setLink_only .vig p l s (by decide) (by decide))
@[simp] theorem setLink_fo (p : Port) (l : Link) (s : State) : (setLink p l s).fo = s.fo :=
  fo_of_only (setLink_only .fo p l s (by decide) (by decide))
@[simp] theorem setLink_tc (p : Port) (l : Link) (s : State) : (setLink p l s).tc = s.tc :=
  tc_of_only (setLink_only .tc p l s (by decide) (by decide))
@[simp] theorem setLink_phy (p : Port) (l : Link) (s : State) : (setLink p l s).phy = s.phy :=
  phy_of_only (setLink_only .phy p l s (by decide) (by decide))
@[simp] theorem setLink_pwr (p : Port) (l : Link) (s : State) : (setLink p l s).pwr = s.pwr :=
  pwr_of_only (setLink_only .pwr p l s (by decide) (by decide))
@[simp] theorem setLink_lane (p : Port) (l : Link) (s : State) : (setLink p l s).lane = s.lane :=
  lane_of_only (setLink_only .lane p l s (by decide) (by decide))
@[simp] theorem setLink_guard (p : Port) (l : Link) (s : State) : (setLink p l s).guard = s.guard :=
  guard_of_only (setLink_only .guard p l s (by decide) (by decide))
@[simp] theorem setLink_dp (p : Port) (l : Link) (s : State) : (setLink p l s).dp = s.dp :=
  dp_of_only (setLink_only .dp p l s (by decide) (by decide))
@[simp] theorem setLink_lio (p : Port) (l : Link) (s : State) : (setLink p l s).lio = s.lio :=
  lio_of_only (setLink_only .lio p l s (by decide) (by decide))
@[simp] theorem setLink_test (p : Port) (l : Link) (s : State) : (setLink p l s).test = s.test :=
  test_of_only (setLink_only .test p l s (by decide) (by decide))
@[simp] theorem setLink_therm (p : Port) (l : Link) (s : State) : (setLink p l s).therm = s.therm :=
  therm_of_only (setLink_only .therm p l s (by decide) (by decide))
@[simp] theorem tcOf_setLink (p : Port) (l : Link) (s : State) (j : Port) : tcOf (setLink p l s) j = tcOf s j := by
  simp [tcOf]
@[simp] theorem phyOf_setLink (p : Port) (l : Link) (s : State) (j : Port) : phyOf (setLink p l s) j = phyOf s j := by
  simp [phyOf]
@[simp] theorem pwrOf_setLink (p : Port) (l : Link) (s : State) (j : Port) : pwrOf (setLink p l s) j = pwrOf s j := by
  simp [pwrOf]
@[simp] theorem linkOf_setLink (p : Port) (l : Link) (s : State) (j : Port) : linkOf (setLink p l s) j = linkOf s j := by
  simp [linkOf]
@[simp] theorem hubOf_setLink (p : Port) (l : Link) (s : State) (j : US) : hubOf (setLink p l s) j = hubOf s j := by
  simp [hubOf]
@[simp] theorem vigHub_setLink (p : Port) (l : Link) (s : State) (j : US) : vigHub (setLink p l s) j = vigHub s j := by
  simp [vigHub]
@[simp] theorem foOf_setLink (p : Port) (l : Link) (s : State) (j : US) : foOf (setLink p l s) j = foOf s j := by
  simp [foOf]
@[simp] theorem ownerOf_setLink (p : Port) (l : Link) (s : State) (j : DS) : ownerOf (setLink p l s) j = ownerOf s j := by
  simp [ownerOf]
@[simp] theorem modeSync_pending (s : State) : (modeSync s).pending = s.pending :=
  pending_of_only (modeSync_only .pending s (by decide) (by decide) (by decide) (by decide))
@[simp] theorem modeSync_out (s : State) : (modeSync s).out = s.out :=
  out_of_only (modeSync_only .out s (by decide) (by decide) (by decide) (by decide))
@[simp] theorem modeSync_now (s : State) : (modeSync s).now = s.now :=
  now_of_only (modeSync_only .now s (by decide) (by decide) (by decide) (by decide))
@[simp] theorem modeSync_freeSeq (s : State) : (modeSync s).freeSeq = s.freeSeq :=
  freeSeq_of_only (modeSync_only .freeSeq s (by decide) (by decide) (by decide) (by decide))
@[simp] theorem modeSync_flt (s : State) : (modeSync s).flt = s.flt :=
  flt_of_only (modeSync_only .flt s (by decide) (by decide) (by decide) (by decide))
@[simp] theorem modeSync_alm (s : State) : (modeSync s).alm = s.alm :=
  alm_of_only (modeSync_only .alm s (by decide) (by decide) (by decide) (by decide))
@[simp] theorem modeSync_reg (s : State) : (modeSync s).reg = s.reg :=
  reg_of_only (modeSync_only .reg s (by decide) (by decide) (by decide) (by decide))
@[simp] theorem modeSync_clk (s : State) : (modeSync s).clk = s.clk :=
  clk_of_only (modeSync_only .clk s (by decide) (by decide) (by decide) (by decide))
@[simp] theorem modeSync_wake (s : State) : (modeSync s).wake = s.wake :=
  wake_of_only (modeSync_only .wake s (by decide) (by decide) (by decide) (by decide))
@[simp] theorem modeSync_sup (s : State) : (modeSync s).sup = s.sup :=
  sup_of_only (modeSync_only .sup s (by decide) (by decide) (by decide) (by decide))
@[simp] theorem modeSync_hubs (s : State) : (modeSync s).hubs = s.hubs :=
  hubs_of_only (modeSync_only .hubs s (by decide) (by decide) (by decide) (by decide))
@[simp] theorem modeSync_own (s : State) : (modeSync s).own = s.own :=
  own_of_only (modeSync_only .own s (by decide) (by decide) (by decide) (by decide))
@[simp] theorem modeSync_dsd (s : State) : (modeSync s).dsd = s.dsd :=
  dsd_of_only (modeSync_only .dsd s (by decide) (by decide) (by decide) (by decide))
@[simp] theorem modeSync_usd (s : State) : (modeSync s).usd = s.usd :=
  usd_of_only (modeSync_only .usd s (by decide) (by decide) (by decide) (by decide))
@[simp] theorem modeSync_epqs (s : State) : (modeSync s).epqs = s.epqs :=
  epqs_of_only (modeSync_only .epqs s (by decide) (by decide) (by decide) (by decide))
@[simp] theorem modeSync_links (s : State) : (modeSync s).links = s.links :=
  links_of_only (modeSync_only .links s (by decide) (by decide) (by decide) (by decide))
@[simp] theorem modeSync_sched (s : State) : (modeSync s).sched = s.sched :=
  sched_of_only (modeSync_only .sched s (by decide) (by decide) (by decide) (by decide))
@[simp] theorem modeSync_place (s : State) : (modeSync s).place = s.place :=
  place_of_only (modeSync_only .place s (by decide) (by decide) (by decide) (by decide))
@[simp] theorem modeSync_memb (s : State) : (modeSync s).memb = s.memb :=
  memb_of_only (modeSync_only .memb s (by decide) (by decide) (by decide) (by decide))
@[simp] theorem modeSync_fab (s : State) : (modeSync s).fab = s.fab :=
  fab_of_only (modeSync_only .fab s (by decide) (by decide) (by decide) (by decide))
@[simp] theorem modeSync_u2d (s : State) : (modeSync s).u2d = s.u2d :=
  u2d_of_only (modeSync_only .u2d s (by decide) (by decide) (by decide) (by decide))
@[simp] theorem modeSync_u2u (s : State) : (modeSync s).u2u = s.u2u :=
  u2u_of_only (modeSync_only .u2u s (by decide) (by decide) (by decide) (by decide))
@[simp] theorem modeSync_vig (s : State) : (modeSync s).vig = s.vig :=
  vig_of_only (modeSync_only .vig s (by decide) (by decide) (by decide) (by decide))
@[simp] theorem modeSync_fo (s : State) : (modeSync s).fo = s.fo :=
  fo_of_only (modeSync_only .fo s (by decide) (by decide) (by decide) (by decide))
@[simp] theorem modeSync_tc (s : State) : (modeSync s).tc = s.tc :=
  tc_of_only (modeSync_only .tc s (by decide) (by decide) (by decide) (by decide))
@[simp] theorem modeSync_phy (s : State) : (modeSync s).phy = s.phy :=
  phy_of_only (modeSync_only .phy s (by decide) (by decide) (by decide) (by decide))
@[simp] theorem modeSync_pwr (s : State) : (modeSync s).pwr = s.pwr :=
  pwr_of_only (modeSync_only .pwr s (by decide) (by decide) (by decide) (by decide))
@[simp] theorem modeSync_lane (s : State) : (modeSync s).lane = s.lane :=
  lane_of_only (modeSync_only .lane s (by decide) (by decide) (by decide) (by decide))
@[simp] theorem modeSync_guard (s : State) : (modeSync s).guard = s.guard :=
  guard_of_only (modeSync_only .guard s (by decide) (by decide) (by decide) (by decide))
@[simp] theorem modeSync_dp (s : State) : (modeSync s).dp = s.dp :=
  dp_of_only (modeSync_only .dp s (by decide) (by decide) (by decide) (by decide))
@[simp] theorem modeSync_lio (s : State) : (modeSync s).lio = s.lio :=
  lio_of_only (modeSync_only .lio s (by decide) (by decide) (by decide) (by decide))
@[simp] theorem modeSync_test (s : State) : (modeSync s).test = s.test :=
  test_of_only (modeSync_only .test s (by decide) (by decide) (by decide) (by decide))
@[simp] theorem modeSync_therm (s : State) : (modeSync s).therm = s.therm :=
  therm_of_only (modeSync_only .therm s (by decide) (by decide) (by decide) (by decide))
@[simp] theorem dsOf_modeSync (s : State) (j : DS) : dsOf (modeSync s) j = dsOf s j := by
  simp [dsOf]
@[simp] theorem tcOf_modeSync (s : State) (j : Port) : tcOf (modeSync s) j = tcOf s j := by
  simp [tcOf]
@[simp] theorem phyOf_modeSync (s : State) (j : Port) : phyOf (modeSync s) j = phyOf s j := by
  simp [phyOf]
@[simp] theorem pwrOf_modeSync (s : State) (j : Port) : pwrOf (modeSync s) j = pwrOf s j := by
  simp [pwrOf]
@[simp] theorem linkOf_modeSync (s : State) (j : Port) : linkOf (modeSync s) j = linkOf s j := by
  simp [linkOf]
@[simp] theorem usOf_modeSync (s : State) (j : US) : usOf (modeSync s) j = usOf s j := by
  simp [usOf]
@[simp] theorem hubOf_modeSync (s : State) (j : US) : hubOf (modeSync s) j = hubOf s j := by
  simp [hubOf]
@[simp] theorem vigHub_modeSync (s : State) (j : US) : vigHub (modeSync s) j = vigHub s j := by
  simp [vigHub]
@[simp] theorem foOf_modeSync (s : State) (j : US) : foOf (modeSync s) j = foOf s j := by
  simp [foOf]
@[simp] theorem ownerOf_modeSync (s : State) (j : DS) : ownerOf (modeSync s) j = ownerOf s j := by
  simp [ownerOf]
@[simp] theorem portEvent_pending (p : Port) (kind : Nat) (detail : List Byte) (skip : List (Fin 8)) (s : State) : (portEvent p kind detail skip s).pending = s.pending :=
  pending_of_only (portEvent_only .pending p kind detail skip s (by decide))
@[simp] theorem portEvent_out (p : Port) (kind : Nat) (detail : List Byte) (skip : List (Fin 8)) (s : State) : (portEvent p kind detail skip s).out = s.out :=
  out_of_only (portEvent_only .out p kind detail skip s (by decide))
@[simp] theorem portEvent_now (p : Port) (kind : Nat) (detail : List Byte) (skip : List (Fin 8)) (s : State) : (portEvent p kind detail skip s).now = s.now :=
  now_of_only (portEvent_only .now p kind detail skip s (by decide))
@[simp] theorem portEvent_freeSeq (p : Port) (kind : Nat) (detail : List Byte) (skip : List (Fin 8)) (s : State) : (portEvent p kind detail skip s).freeSeq = s.freeSeq :=
  freeSeq_of_only (portEvent_only .freeSeq p kind detail skip s (by decide))
@[simp] theorem portEvent_flt (p : Port) (kind : Nat) (detail : List Byte) (skip : List (Fin 8)) (s : State) : (portEvent p kind detail skip s).flt = s.flt :=
  flt_of_only (portEvent_only .flt p kind detail skip s (by decide))
@[simp] theorem portEvent_alm (p : Port) (kind : Nat) (detail : List Byte) (skip : List (Fin 8)) (s : State) : (portEvent p kind detail skip s).alm = s.alm :=
  alm_of_only (portEvent_only .alm p kind detail skip s (by decide))
@[simp] theorem portEvent_pmu (p : Port) (kind : Nat) (detail : List Byte) (skip : List (Fin 8)) (s : State) : (portEvent p kind detail skip s).pmu = s.pmu :=
  pmu_of_only (portEvent_only .pmu p kind detail skip s (by decide))
@[simp] theorem portEvent_reg (p : Port) (kind : Nat) (detail : List Byte) (skip : List (Fin 8)) (s : State) : (portEvent p kind detail skip s).reg = s.reg :=
  reg_of_only (portEvent_only .reg p kind detail skip s (by decide))
@[simp] theorem portEvent_clk (p : Port) (kind : Nat) (detail : List Byte) (skip : List (Fin 8)) (s : State) : (portEvent p kind detail skip s).clk = s.clk :=
  clk_of_only (portEvent_only .clk p kind detail skip s (by decide))
@[simp] theorem portEvent_wake (p : Port) (kind : Nat) (detail : List Byte) (skip : List (Fin 8)) (s : State) : (portEvent p kind detail skip s).wake = s.wake :=
  wake_of_only (portEvent_only .wake p kind detail skip s (by decide))
@[simp] theorem portEvent_sup (p : Port) (kind : Nat) (detail : List Byte) (skip : List (Fin 8)) (s : State) : (portEvent p kind detail skip s).sup = s.sup :=
  sup_of_only (portEvent_only .sup p kind detail skip s (by decide))
@[simp] theorem portEvent_fw (p : Port) (kind : Nat) (detail : List Byte) (skip : List (Fin 8)) (s : State) : (portEvent p kind detail skip s).fw = s.fw :=
  fw_of_only (portEvent_only .fw p kind detail skip s (by decide))
@[simp] theorem portEvent_avail (p : Port) (kind : Nat) (detail : List Byte) (skip : List (Fin 8)) (s : State) : (portEvent p kind detail skip s).avail = s.avail :=
  avail_of_only (portEvent_only .avail p kind detail skip s (by decide))
@[simp] theorem portEvent_hubs (p : Port) (kind : Nat) (detail : List Byte) (skip : List (Fin 8)) (s : State) : (portEvent p kind detail skip s).hubs = s.hubs :=
  hubs_of_only (portEvent_only .hubs p kind detail skip s (by decide))
@[simp] theorem portEvent_own (p : Port) (kind : Nat) (detail : List Byte) (skip : List (Fin 8)) (s : State) : (portEvent p kind detail skip s).own = s.own :=
  own_of_only (portEvent_only .own p kind detail skip s (by decide))
@[simp] theorem portEvent_dsd (p : Port) (kind : Nat) (detail : List Byte) (skip : List (Fin 8)) (s : State) : (portEvent p kind detail skip s).dsd = s.dsd :=
  dsd_of_only (portEvent_only .dsd p kind detail skip s (by decide))
@[simp] theorem portEvent_usd (p : Port) (kind : Nat) (detail : List Byte) (skip : List (Fin 8)) (s : State) : (portEvent p kind detail skip s).usd = s.usd :=
  usd_of_only (portEvent_only .usd p kind detail skip s (by decide))
@[simp] theorem portEvent_epqs (p : Port) (kind : Nat) (detail : List Byte) (skip : List (Fin 8)) (s : State) : (portEvent p kind detail skip s).epqs = s.epqs :=
  epqs_of_only (portEvent_only .epqs p kind detail skip s (by decide))
@[simp] theorem portEvent_links (p : Port) (kind : Nat) (detail : List Byte) (skip : List (Fin 8)) (s : State) : (portEvent p kind detail skip s).links = s.links :=
  links_of_only (portEvent_only .links p kind detail skip s (by decide))
@[simp] theorem portEvent_sched (p : Port) (kind : Nat) (detail : List Byte) (skip : List (Fin 8)) (s : State) : (portEvent p kind detail skip s).sched = s.sched :=
  sched_of_only (portEvent_only .sched p kind detail skip s (by decide))
@[simp] theorem portEvent_place (p : Port) (kind : Nat) (detail : List Byte) (skip : List (Fin 8)) (s : State) : (portEvent p kind detail skip s).place = s.place :=
  place_of_only (portEvent_only .place p kind detail skip s (by decide))
@[simp] theorem portEvent_memb (p : Port) (kind : Nat) (detail : List Byte) (skip : List (Fin 8)) (s : State) : (portEvent p kind detail skip s).memb = s.memb :=
  memb_of_only (portEvent_only .memb p kind detail skip s (by decide))
@[simp] theorem portEvent_fab (p : Port) (kind : Nat) (detail : List Byte) (skip : List (Fin 8)) (s : State) : (portEvent p kind detail skip s).fab = s.fab :=
  fab_of_only (portEvent_only .fab p kind detail skip s (by decide))
@[simp] theorem portEvent_u2d (p : Port) (kind : Nat) (detail : List Byte) (skip : List (Fin 8)) (s : State) : (portEvent p kind detail skip s).u2d = s.u2d :=
  u2d_of_only (portEvent_only .u2d p kind detail skip s (by decide))
@[simp] theorem portEvent_u2u (p : Port) (kind : Nat) (detail : List Byte) (skip : List (Fin 8)) (s : State) : (portEvent p kind detail skip s).u2u = s.u2u :=
  u2u_of_only (portEvent_only .u2u p kind detail skip s (by decide))
@[simp] theorem portEvent_vig (p : Port) (kind : Nat) (detail : List Byte) (skip : List (Fin 8)) (s : State) : (portEvent p kind detail skip s).vig = s.vig :=
  vig_of_only (portEvent_only .vig p kind detail skip s (by decide))
@[simp] theorem portEvent_fo (p : Port) (kind : Nat) (detail : List Byte) (skip : List (Fin 8)) (s : State) : (portEvent p kind detail skip s).fo = s.fo :=
  fo_of_only (portEvent_only .fo p kind detail skip s (by decide))
@[simp] theorem portEvent_tc (p : Port) (kind : Nat) (detail : List Byte) (skip : List (Fin 8)) (s : State) : (portEvent p kind detail skip s).tc = s.tc :=
  tc_of_only (portEvent_only .tc p kind detail skip s (by decide))
@[simp] theorem portEvent_phy (p : Port) (kind : Nat) (detail : List Byte) (skip : List (Fin 8)) (s : State) : (portEvent p kind detail skip s).phy = s.phy :=
  phy_of_only (portEvent_only .phy p kind detail skip s (by decide))
@[simp] theorem portEvent_pwr (p : Port) (kind : Nat) (detail : List Byte) (skip : List (Fin 8)) (s : State) : (portEvent p kind detail skip s).pwr = s.pwr :=
  pwr_of_only (portEvent_only .pwr p kind detail skip s (by decide))
@[simp] theorem portEvent_lane (p : Port) (kind : Nat) (detail : List Byte) (skip : List (Fin 8)) (s : State) : (portEvent p kind detail skip s).lane = s.lane :=
  lane_of_only (portEvent_only .lane p kind detail skip s (by decide))
@[simp] theorem portEvent_guard (p : Port) (kind : Nat) (detail : List Byte) (skip : List (Fin 8)) (s : State) : (portEvent p kind detail skip s).guard = s.guard :=
  guard_of_only (portEvent_only .guard p kind detail skip s (by decide))
@[simp] theorem portEvent_dp (p : Port) (kind : Nat) (detail : List Byte) (skip : List (Fin 8)) (s : State) : (portEvent p kind detail skip s).dp = s.dp :=
  dp_of_only (portEvent_only .dp p kind detail skip s (by decide))
@[simp] theorem portEvent_lio (p : Port) (kind : Nat) (detail : List Byte) (skip : List (Fin 8)) (s : State) : (portEvent p kind detail skip s).lio = s.lio :=
  lio_of_only (portEvent_only .lio p kind detail skip s (by decide))
@[simp] theorem portEvent_test (p : Port) (kind : Nat) (detail : List Byte) (skip : List (Fin 8)) (s : State) : (portEvent p kind detail skip s).test = s.test :=
  test_of_only (portEvent_only .test p kind detail skip s (by decide))
@[simp] theorem portEvent_therm (p : Port) (kind : Nat) (detail : List Byte) (skip : List (Fin 8)) (s : State) : (portEvent p kind detail skip s).therm = s.therm :=
  therm_of_only (portEvent_only .therm p kind detail skip s (by decide))
@[simp] theorem dsOf_portEvent (p : Port) (kind : Nat) (detail : List Byte) (skip : List (Fin 8)) (s : State) (j : DS) : dsOf (portEvent p kind detail skip s) j = dsOf s j := by
  simp [dsOf]
@[simp] theorem tcOf_portEvent (p : Port) (kind : Nat) (detail : List Byte) (skip : List (Fin 8)) (s : State) (j : Port) : tcOf (portEvent p kind detail skip s) j = tcOf s j := by
  simp [tcOf]
@[simp] theorem phyOf_portEvent (p : Port) (kind : Nat) (detail : List Byte) (skip : List (Fin 8)) (s : State) (j : Port) : phyOf (portEvent p kind detail skip s) j = phyOf s j := by
  simp [phyOf]
@[simp] theorem pwrOf_portEvent (p : Port) (kind : Nat) (detail : List Byte) (skip : List (Fin 8)) (s : State) (j : Port) : pwrOf (portEvent p kind detail skip s) j = pwrOf s j := by
  simp [pwrOf]
@[simp] theorem linkOf_portEvent (p : Port) (kind : Nat) (detail : List Byte) (skip : List (Fin 8)) (s : State) (j : Port) : linkOf (portEvent p kind detail skip s) j = linkOf s j := by
  simp [linkOf]
@[simp] theorem usOf_portEvent (p : Port) (kind : Nat) (detail : List Byte) (skip : List (Fin 8)) (s : State) (j : US) : usOf (portEvent p kind detail skip s) j = usOf s j := by
  simp [usOf]
@[simp] theorem hubOf_portEvent (p : Port) (kind : Nat) (detail : List Byte) (skip : List (Fin 8)) (s : State) (j : US) : hubOf (portEvent p kind detail skip s) j = hubOf s j := by
  simp [hubOf]
@[simp] theorem vigHub_portEvent (p : Port) (kind : Nat) (detail : List Byte) (skip : List (Fin 8)) (s : State) (j : US) : vigHub (portEvent p kind detail skip s) j = vigHub s j := by
  simp [vigHub]
@[simp] theorem foOf_portEvent (p : Port) (kind : Nat) (detail : List Byte) (skip : List (Fin 8)) (s : State) (j : US) : foOf (portEvent p kind detail skip s) j = foOf s j := by
  simp [foOf]
@[simp] theorem ownerOf_portEvent (p : Port) (kind : Nat) (detail : List Byte) (skip : List (Fin 8)) (s : State) (j : DS) : ownerOf (portEvent p kind detail skip s) j = ownerOf s j := by
  simp [ownerOf]
@[simp] theorem capture_pending (d : DS) (typ flags hubPort daddr epdir time : Nat) (payload : List Byte) (s : State) : (capture d typ flags hubPort daddr epdir time payload s).pending = s.pending :=
  pending_of_only (capture_only .pending d typ flags hubPort daddr epdir time payload s (by decide) (by decide))
@[simp] theorem capture_out (d : DS) (typ flags hubPort daddr epdir time : Nat) (payload : List Byte) (s : State) : (capture d typ flags hubPort daddr epdir time payload s).out = s.out :=
  out_of_only (capture_only .out d typ flags hubPort daddr epdir time payload s (by decide) (by decide))
@[simp] theorem capture_now (d : DS) (typ flags hubPort daddr epdir time : Nat) (payload : List Byte) (s : State) : (capture d typ flags hubPort daddr epdir time payload s).now = s.now :=
  now_of_only (capture_only .now d typ flags hubPort daddr epdir time payload s (by decide) (by decide))
@[simp] theorem capture_freeSeq (d : DS) (typ flags hubPort daddr epdir time : Nat) (payload : List Byte) (s : State) : (capture d typ flags hubPort daddr epdir time payload s).freeSeq = s.freeSeq :=
  freeSeq_of_only (capture_only .freeSeq d typ flags hubPort daddr epdir time payload s (by decide) (by decide))
@[simp] theorem capture_flt (d : DS) (typ flags hubPort daddr epdir time : Nat) (payload : List Byte) (s : State) : (capture d typ flags hubPort daddr epdir time payload s).flt = s.flt :=
  flt_of_only (capture_only .flt d typ flags hubPort daddr epdir time payload s (by decide) (by decide))
@[simp] theorem capture_alm (d : DS) (typ flags hubPort daddr epdir time : Nat) (payload : List Byte) (s : State) : (capture d typ flags hubPort daddr epdir time payload s).alm = s.alm :=
  alm_of_only (capture_only .alm d typ flags hubPort daddr epdir time payload s (by decide) (by decide))
@[simp] theorem capture_pmu (d : DS) (typ flags hubPort daddr epdir time : Nat) (payload : List Byte) (s : State) : (capture d typ flags hubPort daddr epdir time payload s).pmu = s.pmu :=
  pmu_of_only (capture_only .pmu d typ flags hubPort daddr epdir time payload s (by decide) (by decide))
@[simp] theorem capture_reg (d : DS) (typ flags hubPort daddr epdir time : Nat) (payload : List Byte) (s : State) : (capture d typ flags hubPort daddr epdir time payload s).reg = s.reg :=
  reg_of_only (capture_only .reg d typ flags hubPort daddr epdir time payload s (by decide) (by decide))
@[simp] theorem capture_clk (d : DS) (typ flags hubPort daddr epdir time : Nat) (payload : List Byte) (s : State) : (capture d typ flags hubPort daddr epdir time payload s).clk = s.clk :=
  clk_of_only (capture_only .clk d typ flags hubPort daddr epdir time payload s (by decide) (by decide))
@[simp] theorem capture_wake (d : DS) (typ flags hubPort daddr epdir time : Nat) (payload : List Byte) (s : State) : (capture d typ flags hubPort daddr epdir time payload s).wake = s.wake :=
  wake_of_only (capture_only .wake d typ flags hubPort daddr epdir time payload s (by decide) (by decide))
@[simp] theorem capture_sup (d : DS) (typ flags hubPort daddr epdir time : Nat) (payload : List Byte) (s : State) : (capture d typ flags hubPort daddr epdir time payload s).sup = s.sup :=
  sup_of_only (capture_only .sup d typ flags hubPort daddr epdir time payload s (by decide) (by decide))
@[simp] theorem capture_fw (d : DS) (typ flags hubPort daddr epdir time : Nat) (payload : List Byte) (s : State) : (capture d typ flags hubPort daddr epdir time payload s).fw = s.fw :=
  fw_of_only (capture_only .fw d typ flags hubPort daddr epdir time payload s (by decide) (by decide))
@[simp] theorem capture_avail (d : DS) (typ flags hubPort daddr epdir time : Nat) (payload : List Byte) (s : State) : (capture d typ flags hubPort daddr epdir time payload s).avail = s.avail :=
  avail_of_only (capture_only .avail d typ flags hubPort daddr epdir time payload s (by decide) (by decide))
@[simp] theorem capture_hubs (d : DS) (typ flags hubPort daddr epdir time : Nat) (payload : List Byte) (s : State) : (capture d typ flags hubPort daddr epdir time payload s).hubs = s.hubs :=
  hubs_of_only (capture_only .hubs d typ flags hubPort daddr epdir time payload s (by decide) (by decide))
@[simp] theorem capture_own (d : DS) (typ flags hubPort daddr epdir time : Nat) (payload : List Byte) (s : State) : (capture d typ flags hubPort daddr epdir time payload s).own = s.own :=
  own_of_only (capture_only .own d typ flags hubPort daddr epdir time payload s (by decide) (by decide))
@[simp] theorem capture_dsd (d : DS) (typ flags hubPort daddr epdir time : Nat) (payload : List Byte) (s : State) : (capture d typ flags hubPort daddr epdir time payload s).dsd = s.dsd :=
  dsd_of_only (capture_only .dsd d typ flags hubPort daddr epdir time payload s (by decide) (by decide))
@[simp] theorem capture_usd (d : DS) (typ flags hubPort daddr epdir time : Nat) (payload : List Byte) (s : State) : (capture d typ flags hubPort daddr epdir time payload s).usd = s.usd :=
  usd_of_only (capture_only .usd d typ flags hubPort daddr epdir time payload s (by decide) (by decide))
@[simp] theorem capture_epqs (d : DS) (typ flags hubPort daddr epdir time : Nat) (payload : List Byte) (s : State) : (capture d typ flags hubPort daddr epdir time payload s).epqs = s.epqs :=
  epqs_of_only (capture_only .epqs d typ flags hubPort daddr epdir time payload s (by decide) (by decide))
@[simp] theorem capture_links (d : DS) (typ flags hubPort daddr epdir time : Nat) (payload : List Byte) (s : State) : (capture d typ flags hubPort daddr epdir time payload s).links = s.links :=
  links_of_only (capture_only .links d typ flags hubPort daddr epdir time payload s (by decide) (by decide))
@[simp] theorem capture_sched (d : DS) (typ flags hubPort daddr epdir time : Nat) (payload : List Byte) (s : State) : (capture d typ flags hubPort daddr epdir time payload s).sched = s.sched :=
  sched_of_only (capture_only .sched d typ flags hubPort daddr epdir time payload s (by decide) (by decide))
@[simp] theorem capture_place (d : DS) (typ flags hubPort daddr epdir time : Nat) (payload : List Byte) (s : State) : (capture d typ flags hubPort daddr epdir time payload s).place = s.place :=
  place_of_only (capture_only .place d typ flags hubPort daddr epdir time payload s (by decide) (by decide))
@[simp] theorem capture_memb (d : DS) (typ flags hubPort daddr epdir time : Nat) (payload : List Byte) (s : State) : (capture d typ flags hubPort daddr epdir time payload s).memb = s.memb :=
  memb_of_only (capture_only .memb d typ flags hubPort daddr epdir time payload s (by decide) (by decide))
@[simp] theorem capture_fab (d : DS) (typ flags hubPort daddr epdir time : Nat) (payload : List Byte) (s : State) : (capture d typ flags hubPort daddr epdir time payload s).fab = s.fab :=
  fab_of_only (capture_only .fab d typ flags hubPort daddr epdir time payload s (by decide) (by decide))
@[simp] theorem capture_u2d (d : DS) (typ flags hubPort daddr epdir time : Nat) (payload : List Byte) (s : State) : (capture d typ flags hubPort daddr epdir time payload s).u2d = s.u2d :=
  u2d_of_only (capture_only .u2d d typ flags hubPort daddr epdir time payload s (by decide) (by decide))
@[simp] theorem capture_u2u (d : DS) (typ flags hubPort daddr epdir time : Nat) (payload : List Byte) (s : State) : (capture d typ flags hubPort daddr epdir time payload s).u2u = s.u2u :=
  u2u_of_only (capture_only .u2u d typ flags hubPort daddr epdir time payload s (by decide) (by decide))
@[simp] theorem capture_fo (d : DS) (typ flags hubPort daddr epdir time : Nat) (payload : List Byte) (s : State) : (capture d typ flags hubPort daddr epdir time payload s).fo = s.fo :=
  fo_of_only (capture_only .fo d typ flags hubPort daddr epdir time payload s (by decide) (by decide))
@[simp] theorem capture_tc (d : DS) (typ flags hubPort daddr epdir time : Nat) (payload : List Byte) (s : State) : (capture d typ flags hubPort daddr epdir time payload s).tc = s.tc :=
  tc_of_only (capture_only .tc d typ flags hubPort daddr epdir time payload s (by decide) (by decide))
@[simp] theorem capture_phy (d : DS) (typ flags hubPort daddr epdir time : Nat) (payload : List Byte) (s : State) : (capture d typ flags hubPort daddr epdir time payload s).phy = s.phy :=
  phy_of_only (capture_only .phy d typ flags hubPort daddr epdir time payload s (by decide) (by decide))
@[simp] theorem capture_pwr (d : DS) (typ flags hubPort daddr epdir time : Nat) (payload : List Byte) (s : State) : (capture d typ flags hubPort daddr epdir time payload s).pwr = s.pwr :=
  pwr_of_only (capture_only .pwr d typ flags hubPort daddr epdir time payload s (by decide) (by decide))
@[simp] theorem capture_lane (d : DS) (typ flags hubPort daddr epdir time : Nat) (payload : List Byte) (s : State) : (capture d typ flags hubPort daddr epdir time payload s).lane = s.lane :=
  lane_of_only (capture_only .lane d typ flags hubPort daddr epdir time payload s (by decide) (by decide))
@[simp] theorem capture_guard (d : DS) (typ flags hubPort daddr epdir time : Nat) (payload : List Byte) (s : State) : (capture d typ flags hubPort daddr epdir time payload s).guard = s.guard :=
  guard_of_only (capture_only .guard d typ flags hubPort daddr epdir time payload s (by decide) (by decide))
@[simp] theorem capture_dp (d : DS) (typ flags hubPort daddr epdir time : Nat) (payload : List Byte) (s : State) : (capture d typ flags hubPort daddr epdir time payload s).dp = s.dp :=
  dp_of_only (capture_only .dp d typ flags hubPort daddr epdir time payload s (by decide) (by decide))
@[simp] theorem capture_lio (d : DS) (typ flags hubPort daddr epdir time : Nat) (payload : List Byte) (s : State) : (capture d typ flags hubPort daddr epdir time payload s).lio = s.lio :=
  lio_of_only (capture_only .lio d typ flags hubPort daddr epdir time payload s (by decide) (by decide))
@[simp] theorem capture_test (d : DS) (typ flags hubPort daddr epdir time : Nat) (payload : List Byte) (s : State) : (capture d typ flags hubPort daddr epdir time payload s).test = s.test :=
  test_of_only (capture_only .test d typ flags hubPort daddr epdir time payload s (by decide) (by decide))
@[simp] theorem capture_therm (d : DS) (typ flags hubPort daddr epdir time : Nat) (payload : List Byte) (s : State) : (capture d typ flags hubPort daddr epdir time payload s).therm = s.therm :=
  therm_of_only (capture_only .therm d typ flags hubPort daddr epdir time payload s (by decide) (by decide))
@[simp] theorem dsOf_capture (d : DS) (typ flags hubPort daddr epdir time : Nat) (payload : List Byte) (s : State) (j : DS) : dsOf (capture d typ flags hubPort daddr epdir time payload s) j = dsOf s j := by
  simp [dsOf]
@[simp] theorem tcOf_capture (d : DS) (typ flags hubPort daddr epdir time : Nat) (payload : List Byte) (s : State) (j : Port) : tcOf (capture d typ flags hubPort daddr epdir time payload s) j = tcOf s j := by
  simp [tcOf]
@[simp] theorem phyOf_capture (d : DS) (typ flags hubPort daddr epdir time : Nat) (payload : List Byte) (s : State) (j : Port) : phyOf (capture d typ flags hubPort daddr epdir time payload s) j = phyOf s j := by
  simp [phyOf]
@[simp] theorem pwrOf_capture (d : DS) (typ flags hubPort daddr epdir time : Nat) (payload : List Byte) (s : State) (j : Port) : pwrOf (capture d typ flags hubPort daddr epdir time payload s) j = pwrOf s j := by
  simp [pwrOf]
@[simp] theorem linkOf_capture (d : DS) (typ flags hubPort daddr epdir time : Nat) (payload : List Byte) (s : State) (j : Port) : linkOf (capture d typ flags hubPort daddr epdir time payload s) j = linkOf s j := by
  simp [linkOf]
@[simp] theorem usOf_capture (d : DS) (typ flags hubPort daddr epdir time : Nat) (payload : List Byte) (s : State) (j : US) : usOf (capture d typ flags hubPort daddr epdir time payload s) j = usOf s j := by
  simp [usOf]
@[simp] theorem hubOf_capture (d : DS) (typ flags hubPort daddr epdir time : Nat) (payload : List Byte) (s : State) (j : US) : hubOf (capture d typ flags hubPort daddr epdir time payload s) j = hubOf s j := by
  simp [hubOf]
@[simp] theorem foOf_capture (d : DS) (typ flags hubPort daddr epdir time : Nat) (payload : List Byte) (s : State) (j : US) : foOf (capture d typ flags hubPort daddr epdir time payload s) j = foOf s j := by
  simp [foOf]
@[simp] theorem ownerOf_capture (d : DS) (typ flags hubPort daddr epdir time : Nat) (payload : List Byte) (s : State) (j : DS) : ownerOf (capture d typ flags hubPort daddr epdir time payload s) j = ownerOf s j := by
  simp [ownerOf]
@[simp] theorem modCtx_pending (c : Nat) (f : Ctx → Ctx) (s : State) : (modCtx c f s).pending = s.pending :=
  pending_of_only (modCtx_only .pending c f s (by decide))
@[simp] theorem modCtx_out (c : Nat) (f : Ctx → Ctx) (s : State) : (modCtx c f s).out = s.out :=
  out_of_only (modCtx_only .out c f s (by decide))
@[simp] theorem modCtx_now (c : Nat) (f : Ctx → Ctx) (s : State) : (modCtx c f s).now = s.now :=
  now_of_only (modCtx_only .now c f s (by decide))
@[simp] theorem modCtx_freeSeq (c : Nat) (f : Ctx → Ctx) (s : State) : (modCtx c f s).freeSeq = s.freeSeq :=
  freeSeq_of_only (modCtx_only .freeSeq c f s (by decide))
@[simp] theorem modCtx_mbx (c : Nat) (f : Ctx → Ctx) (s : State) : (modCtx c f s).mbx = s.mbx :=
  mbx_of_only (modCtx_only .mbx c f s (by decide))
@[simp] theorem modCtx_flt (c : Nat) (f : Ctx → Ctx) (s : State) : (modCtx c f s).flt = s.flt :=
  flt_of_only (modCtx_only .flt c f s (by decide))
@[simp] theorem modCtx_alm (c : Nat) (f : Ctx → Ctx) (s : State) : (modCtx c f s).alm = s.alm :=
  alm_of_only (modCtx_only .alm c f s (by decide))
@[simp] theorem modCtx_pmu (c : Nat) (f : Ctx → Ctx) (s : State) : (modCtx c f s).pmu = s.pmu :=
  pmu_of_only (modCtx_only .pmu c f s (by decide))
@[simp] theorem modCtx_reg (c : Nat) (f : Ctx → Ctx) (s : State) : (modCtx c f s).reg = s.reg :=
  reg_of_only (modCtx_only .reg c f s (by decide))
@[simp] theorem modCtx_clk (c : Nat) (f : Ctx → Ctx) (s : State) : (modCtx c f s).clk = s.clk :=
  clk_of_only (modCtx_only .clk c f s (by decide))
@[simp] theorem modCtx_wake (c : Nat) (f : Ctx → Ctx) (s : State) : (modCtx c f s).wake = s.wake :=
  wake_of_only (modCtx_only .wake c f s (by decide))
@[simp] theorem modCtx_sup (c : Nat) (f : Ctx → Ctx) (s : State) : (modCtx c f s).sup = s.sup :=
  sup_of_only (modCtx_only .sup c f s (by decide))
@[simp] theorem modCtx_fw (c : Nat) (f : Ctx → Ctx) (s : State) : (modCtx c f s).fw = s.fw :=
  fw_of_only (modCtx_only .fw c f s (by decide))
@[simp] theorem modCtx_avail (c : Nat) (f : Ctx → Ctx) (s : State) : (modCtx c f s).avail = s.avail :=
  avail_of_only (modCtx_only .avail c f s (by decide))
@[simp] theorem modCtx_hubs (c : Nat) (f : Ctx → Ctx) (s : State) : (modCtx c f s).hubs = s.hubs :=
  hubs_of_only (modCtx_only .hubs c f s (by decide))
@[simp] theorem modCtx_own (c : Nat) (f : Ctx → Ctx) (s : State) : (modCtx c f s).own = s.own :=
  own_of_only (modCtx_only .own c f s (by decide))
@[simp] theorem modCtx_dsd (c : Nat) (f : Ctx → Ctx) (s : State) : (modCtx c f s).dsd = s.dsd :=
  dsd_of_only (modCtx_only .dsd c f s (by decide))
@[simp] theorem modCtx_usd (c : Nat) (f : Ctx → Ctx) (s : State) : (modCtx c f s).usd = s.usd :=
  usd_of_only (modCtx_only .usd c f s (by decide))
@[simp] theorem modCtx_epqs (c : Nat) (f : Ctx → Ctx) (s : State) : (modCtx c f s).epqs = s.epqs :=
  epqs_of_only (modCtx_only .epqs c f s (by decide))
@[simp] theorem modCtx_links (c : Nat) (f : Ctx → Ctx) (s : State) : (modCtx c f s).links = s.links :=
  links_of_only (modCtx_only .links c f s (by decide))
@[simp] theorem modCtx_sched (c : Nat) (f : Ctx → Ctx) (s : State) : (modCtx c f s).sched = s.sched :=
  sched_of_only (modCtx_only .sched c f s (by decide))
@[simp] theorem modCtx_place (c : Nat) (f : Ctx → Ctx) (s : State) : (modCtx c f s).place = s.place :=
  place_of_only (modCtx_only .place c f s (by decide))
@[simp] theorem modCtx_memb (c : Nat) (f : Ctx → Ctx) (s : State) : (modCtx c f s).memb = s.memb :=
  memb_of_only (modCtx_only .memb c f s (by decide))
@[simp] theorem modCtx_fab (c : Nat) (f : Ctx → Ctx) (s : State) : (modCtx c f s).fab = s.fab :=
  fab_of_only (modCtx_only .fab c f s (by decide))
@[simp] theorem modCtx_u2d (c : Nat) (f : Ctx → Ctx) (s : State) : (modCtx c f s).u2d = s.u2d :=
  u2d_of_only (modCtx_only .u2d c f s (by decide))
@[simp] theorem modCtx_u2u (c : Nat) (f : Ctx → Ctx) (s : State) : (modCtx c f s).u2u = s.u2u :=
  u2u_of_only (modCtx_only .u2u c f s (by decide))
@[simp] theorem modCtx_fo (c : Nat) (f : Ctx → Ctx) (s : State) : (modCtx c f s).fo = s.fo :=
  fo_of_only (modCtx_only .fo c f s (by decide))
@[simp] theorem modCtx_tc (c : Nat) (f : Ctx → Ctx) (s : State) : (modCtx c f s).tc = s.tc :=
  tc_of_only (modCtx_only .tc c f s (by decide))
@[simp] theorem modCtx_phy (c : Nat) (f : Ctx → Ctx) (s : State) : (modCtx c f s).phy = s.phy :=
  phy_of_only (modCtx_only .phy c f s (by decide))
@[simp] theorem modCtx_pwr (c : Nat) (f : Ctx → Ctx) (s : State) : (modCtx c f s).pwr = s.pwr :=
  pwr_of_only (modCtx_only .pwr c f s (by decide))
@[simp] theorem modCtx_lane (c : Nat) (f : Ctx → Ctx) (s : State) : (modCtx c f s).lane = s.lane :=
  lane_of_only (modCtx_only .lane c f s (by decide))
@[simp] theorem modCtx_guard (c : Nat) (f : Ctx → Ctx) (s : State) : (modCtx c f s).guard = s.guard :=
  guard_of_only (modCtx_only .guard c f s (by decide))
@[simp] theorem modCtx_dp (c : Nat) (f : Ctx → Ctx) (s : State) : (modCtx c f s).dp = s.dp :=
  dp_of_only (modCtx_only .dp c f s (by decide))
@[simp] theorem modCtx_lio (c : Nat) (f : Ctx → Ctx) (s : State) : (modCtx c f s).lio = s.lio :=
  lio_of_only (modCtx_only .lio c f s (by decide))
@[simp] theorem modCtx_test (c : Nat) (f : Ctx → Ctx) (s : State) : (modCtx c f s).test = s.test :=
  test_of_only (modCtx_only .test c f s (by decide))
@[simp] theorem modCtx_therm (c : Nat) (f : Ctx → Ctx) (s : State) : (modCtx c f s).therm = s.therm :=
  therm_of_only (modCtx_only .therm c f s (by decide))
@[simp] theorem dsOf_modCtx (c : Nat) (f : Ctx → Ctx) (s : State) (j : DS) : dsOf (modCtx c f s) j = dsOf s j := by
  simp [dsOf]
@[simp] theorem tcOf_modCtx (c : Nat) (f : Ctx → Ctx) (s : State) (j : Port) : tcOf (modCtx c f s) j = tcOf s j := by
  simp [tcOf]
@[simp] theorem phyOf_modCtx (c : Nat) (f : Ctx → Ctx) (s : State) (j : Port) : phyOf (modCtx c f s) j = phyOf s j := by
  simp [phyOf]
@[simp] theorem pwrOf_modCtx (c : Nat) (f : Ctx → Ctx) (s : State) (j : Port) : pwrOf (modCtx c f s) j = pwrOf s j := by
  simp [pwrOf]
@[simp] theorem linkOf_modCtx (c : Nat) (f : Ctx → Ctx) (s : State) (j : Port) : linkOf (modCtx c f s) j = linkOf s j := by
  simp [linkOf]
@[simp] theorem usOf_modCtx (c : Nat) (f : Ctx → Ctx) (s : State) (j : US) : usOf (modCtx c f s) j = usOf s j := by
  simp [usOf]
@[simp] theorem hubOf_modCtx (c : Nat) (f : Ctx → Ctx) (s : State) (j : US) : hubOf (modCtx c f s) j = hubOf s j := by
  simp [hubOf]
@[simp] theorem foOf_modCtx (c : Nat) (f : Ctx → Ctx) (s : State) (j : US) : foOf (modCtx c f s) j = foOf s j := by
  simp [foOf]
@[simp] theorem ownerOf_modCtx (c : Nat) (f : Ctx → Ctx) (s : State) (j : DS) : ownerOf (modCtx c f s) j = ownerOf s j := by
  simp [ownerOf]
@[simp] theorem modEp_pending (c ep : Nat) (dirIn : Bool) (f : EpRec → EpRec) (s : State) : (modEp c ep dirIn f s).pending = s.pending :=
  pending_of_only (modEp_only .pending c ep dirIn f s (by decide))
@[simp] theorem modEp_out (c ep : Nat) (dirIn : Bool) (f : EpRec → EpRec) (s : State) : (modEp c ep dirIn f s).out = s.out :=
  out_of_only (modEp_only .out c ep dirIn f s (by decide))
@[simp] theorem modEp_now (c ep : Nat) (dirIn : Bool) (f : EpRec → EpRec) (s : State) : (modEp c ep dirIn f s).now = s.now :=
  now_of_only (modEp_only .now c ep dirIn f s (by decide))
@[simp] theorem modEp_freeSeq (c ep : Nat) (dirIn : Bool) (f : EpRec → EpRec) (s : State) : (modEp c ep dirIn f s).freeSeq = s.freeSeq :=
  freeSeq_of_only (modEp_only .freeSeq c ep dirIn f s (by decide))
@[simp] theorem modEp_mbx (c ep : Nat) (dirIn : Bool) (f : EpRec → EpRec) (s : State) : (modEp c ep dirIn f s).mbx = s.mbx :=
  mbx_of_only (modEp_only .mbx c ep dirIn f s (by decide))
@[simp] theorem modEp_flt (c ep : Nat) (dirIn : Bool) (f : EpRec → EpRec) (s : State) : (modEp c ep dirIn f s).flt = s.flt :=
  flt_of_only (modEp_only .flt c ep dirIn f s (by decide))
@[simp] theorem modEp_alm (c ep : Nat) (dirIn : Bool) (f : EpRec → EpRec) (s : State) : (modEp c ep dirIn f s).alm = s.alm :=
  alm_of_only (modEp_only .alm c ep dirIn f s (by decide))
@[simp] theorem modEp_pmu (c ep : Nat) (dirIn : Bool) (f : EpRec → EpRec) (s : State) : (modEp c ep dirIn f s).pmu = s.pmu :=
  pmu_of_only (modEp_only .pmu c ep dirIn f s (by decide))
@[simp] theorem modEp_reg (c ep : Nat) (dirIn : Bool) (f : EpRec → EpRec) (s : State) : (modEp c ep dirIn f s).reg = s.reg :=
  reg_of_only (modEp_only .reg c ep dirIn f s (by decide))
@[simp] theorem modEp_clk (c ep : Nat) (dirIn : Bool) (f : EpRec → EpRec) (s : State) : (modEp c ep dirIn f s).clk = s.clk :=
  clk_of_only (modEp_only .clk c ep dirIn f s (by decide))
@[simp] theorem modEp_wake (c ep : Nat) (dirIn : Bool) (f : EpRec → EpRec) (s : State) : (modEp c ep dirIn f s).wake = s.wake :=
  wake_of_only (modEp_only .wake c ep dirIn f s (by decide))
@[simp] theorem modEp_sup (c ep : Nat) (dirIn : Bool) (f : EpRec → EpRec) (s : State) : (modEp c ep dirIn f s).sup = s.sup :=
  sup_of_only (modEp_only .sup c ep dirIn f s (by decide))
@[simp] theorem modEp_fw (c ep : Nat) (dirIn : Bool) (f : EpRec → EpRec) (s : State) : (modEp c ep dirIn f s).fw = s.fw :=
  fw_of_only (modEp_only .fw c ep dirIn f s (by decide))
@[simp] theorem modEp_avail (c ep : Nat) (dirIn : Bool) (f : EpRec → EpRec) (s : State) : (modEp c ep dirIn f s).avail = s.avail :=
  avail_of_only (modEp_only .avail c ep dirIn f s (by decide))
@[simp] theorem modEp_hubs (c ep : Nat) (dirIn : Bool) (f : EpRec → EpRec) (s : State) : (modEp c ep dirIn f s).hubs = s.hubs :=
  hubs_of_only (modEp_only .hubs c ep dirIn f s (by decide))
@[simp] theorem modEp_own (c ep : Nat) (dirIn : Bool) (f : EpRec → EpRec) (s : State) : (modEp c ep dirIn f s).own = s.own :=
  own_of_only (modEp_only .own c ep dirIn f s (by decide))
@[simp] theorem modEp_dsd (c ep : Nat) (dirIn : Bool) (f : EpRec → EpRec) (s : State) : (modEp c ep dirIn f s).dsd = s.dsd :=
  dsd_of_only (modEp_only .dsd c ep dirIn f s (by decide))
@[simp] theorem modEp_usd (c ep : Nat) (dirIn : Bool) (f : EpRec → EpRec) (s : State) : (modEp c ep dirIn f s).usd = s.usd :=
  usd_of_only (modEp_only .usd c ep dirIn f s (by decide))
@[simp] theorem modEp_epqs (c ep : Nat) (dirIn : Bool) (f : EpRec → EpRec) (s : State) : (modEp c ep dirIn f s).epqs = s.epqs :=
  epqs_of_only (modEp_only .epqs c ep dirIn f s (by decide))
@[simp] theorem modEp_links (c ep : Nat) (dirIn : Bool) (f : EpRec → EpRec) (s : State) : (modEp c ep dirIn f s).links = s.links :=
  links_of_only (modEp_only .links c ep dirIn f s (by decide))
@[simp] theorem modEp_sched (c ep : Nat) (dirIn : Bool) (f : EpRec → EpRec) (s : State) : (modEp c ep dirIn f s).sched = s.sched :=
  sched_of_only (modEp_only .sched c ep dirIn f s (by decide))
@[simp] theorem modEp_place (c ep : Nat) (dirIn : Bool) (f : EpRec → EpRec) (s : State) : (modEp c ep dirIn f s).place = s.place :=
  place_of_only (modEp_only .place c ep dirIn f s (by decide))
@[simp] theorem modEp_memb (c ep : Nat) (dirIn : Bool) (f : EpRec → EpRec) (s : State) : (modEp c ep dirIn f s).memb = s.memb :=
  memb_of_only (modEp_only .memb c ep dirIn f s (by decide))
@[simp] theorem modEp_fab (c ep : Nat) (dirIn : Bool) (f : EpRec → EpRec) (s : State) : (modEp c ep dirIn f s).fab = s.fab :=
  fab_of_only (modEp_only .fab c ep dirIn f s (by decide))
@[simp] theorem modEp_u2d (c ep : Nat) (dirIn : Bool) (f : EpRec → EpRec) (s : State) : (modEp c ep dirIn f s).u2d = s.u2d :=
  u2d_of_only (modEp_only .u2d c ep dirIn f s (by decide))
@[simp] theorem modEp_u2u (c ep : Nat) (dirIn : Bool) (f : EpRec → EpRec) (s : State) : (modEp c ep dirIn f s).u2u = s.u2u :=
  u2u_of_only (modEp_only .u2u c ep dirIn f s (by decide))
@[simp] theorem modEp_fo (c ep : Nat) (dirIn : Bool) (f : EpRec → EpRec) (s : State) : (modEp c ep dirIn f s).fo = s.fo :=
  fo_of_only (modEp_only .fo c ep dirIn f s (by decide))
@[simp] theorem modEp_tc (c ep : Nat) (dirIn : Bool) (f : EpRec → EpRec) (s : State) : (modEp c ep dirIn f s).tc = s.tc :=
  tc_of_only (modEp_only .tc c ep dirIn f s (by decide))
@[simp] theorem modEp_phy (c ep : Nat) (dirIn : Bool) (f : EpRec → EpRec) (s : State) : (modEp c ep dirIn f s).phy = s.phy :=
  phy_of_only (modEp_only .phy c ep dirIn f s (by decide))
@[simp] theorem modEp_pwr (c ep : Nat) (dirIn : Bool) (f : EpRec → EpRec) (s : State) : (modEp c ep dirIn f s).pwr = s.pwr :=
  pwr_of_only (modEp_only .pwr c ep dirIn f s (by decide))
@[simp] theorem modEp_lane (c ep : Nat) (dirIn : Bool) (f : EpRec → EpRec) (s : State) : (modEp c ep dirIn f s).lane = s.lane :=
  lane_of_only (modEp_only .lane c ep dirIn f s (by decide))
@[simp] theorem modEp_guard (c ep : Nat) (dirIn : Bool) (f : EpRec → EpRec) (s : State) : (modEp c ep dirIn f s).guard = s.guard :=
  guard_of_only (modEp_only .guard c ep dirIn f s (by decide))
@[simp] theorem modEp_dp (c ep : Nat) (dirIn : Bool) (f : EpRec → EpRec) (s : State) : (modEp c ep dirIn f s).dp = s.dp :=
  dp_of_only (modEp_only .dp c ep dirIn f s (by decide))
@[simp] theorem modEp_lio (c ep : Nat) (dirIn : Bool) (f : EpRec → EpRec) (s : State) : (modEp c ep dirIn f s).lio = s.lio :=
  lio_of_only (modEp_only .lio c ep dirIn f s (by decide))
@[simp] theorem modEp_test (c ep : Nat) (dirIn : Bool) (f : EpRec → EpRec) (s : State) : (modEp c ep dirIn f s).test = s.test :=
  test_of_only (modEp_only .test c ep dirIn f s (by decide))
@[simp] theorem modEp_therm (c ep : Nat) (dirIn : Bool) (f : EpRec → EpRec) (s : State) : (modEp c ep dirIn f s).therm = s.therm :=
  therm_of_only (modEp_only .therm c ep dirIn f s (by decide))
@[simp] theorem dsOf_modEp (c ep : Nat) (dirIn : Bool) (f : EpRec → EpRec) (s : State) (j : DS) : dsOf (modEp c ep dirIn f s) j = dsOf s j := by
  simp [dsOf]
@[simp] theorem tcOf_modEp (c ep : Nat) (dirIn : Bool) (f : EpRec → EpRec) (s : State) (j : Port) : tcOf (modEp c ep dirIn f s) j = tcOf s j := by
  simp [tcOf]
@[simp] theorem phyOf_modEp (c ep : Nat) (dirIn : Bool) (f : EpRec → EpRec) (s : State) (j : Port) : phyOf (modEp c ep dirIn f s) j = phyOf s j := by
  simp [phyOf]
@[simp] theorem pwrOf_modEp (c ep : Nat) (dirIn : Bool) (f : EpRec → EpRec) (s : State) (j : Port) : pwrOf (modEp c ep dirIn f s) j = pwrOf s j := by
  simp [pwrOf]
@[simp] theorem linkOf_modEp (c ep : Nat) (dirIn : Bool) (f : EpRec → EpRec) (s : State) (j : Port) : linkOf (modEp c ep dirIn f s) j = linkOf s j := by
  simp [linkOf]
@[simp] theorem usOf_modEp (c ep : Nat) (dirIn : Bool) (f : EpRec → EpRec) (s : State) (j : US) : usOf (modEp c ep dirIn f s) j = usOf s j := by
  simp [usOf]
@[simp] theorem hubOf_modEp (c ep : Nat) (dirIn : Bool) (f : EpRec → EpRec) (s : State) (j : US) : hubOf (modEp c ep dirIn f s) j = hubOf s j := by
  simp [hubOf]
@[simp] theorem foOf_modEp (c ep : Nat) (dirIn : Bool) (f : EpRec → EpRec) (s : State) (j : US) : foOf (modEp c ep dirIn f s) j = foOf s j := by
  simp [foOf]
@[simp] theorem ownerOf_modEp (c ep : Nat) (dirIn : Bool) (f : EpRec → EpRec) (s : State) (j : DS) : ownerOf (modEp c ep dirIn f s) j = ownerOf s j := by
  simp [ownerOf]
@[simp] theorem holdEngines_pending (s : State) : (holdEngines s).pending = s.pending :=
  pending_of_only (holdEngines_only .pending s (by decide) (by decide) (by decide) (by decide) (by decide) (by decide) (by decide) (by decide))
@[simp] theorem holdEngines_out (s : State) : (holdEngines s).out = s.out :=
  out_of_only (holdEngines_only .out s (by decide) (by decide) (by decide) (by decide) (by decide) (by decide) (by decide) (by decide))
@[simp] theorem holdEngines_now (s : State) : (holdEngines s).now = s.now :=
  now_of_only (holdEngines_only .now s (by decide) (by decide) (by decide) (by decide) (by decide) (by decide) (by decide) (by decide))
@[simp] theorem holdEngines_freeSeq (s : State) : (holdEngines s).freeSeq = s.freeSeq :=
  freeSeq_of_only (holdEngines_only .freeSeq s (by decide) (by decide) (by decide) (by decide) (by decide) (by decide) (by decide) (by decide))
@[simp] theorem holdEngines_mbx (s : State) : (holdEngines s).mbx = s.mbx :=
  mbx_of_only (holdEngines_only .mbx s (by decide) (by decide) (by decide) (by decide) (by decide) (by decide) (by decide) (by decide))
@[simp] theorem holdEngines_flt (s : State) : (holdEngines s).flt = s.flt :=
  flt_of_only (holdEngines_only .flt s (by decide) (by decide) (by decide) (by decide) (by decide) (by decide) (by decide) (by decide))
@[simp] theorem holdEngines_alm (s : State) : (holdEngines s).alm = s.alm :=
  alm_of_only (holdEngines_only .alm s (by decide) (by decide) (by decide) (by decide) (by decide) (by decide) (by decide) (by decide))
@[simp] theorem holdEngines_pmu (s : State) : (holdEngines s).pmu = s.pmu :=
  pmu_of_only (holdEngines_only .pmu s (by decide) (by decide) (by decide) (by decide) (by decide) (by decide) (by decide) (by decide))
@[simp] theorem holdEngines_reg (s : State) : (holdEngines s).reg = s.reg :=
  reg_of_only (holdEngines_only .reg s (by decide) (by decide) (by decide) (by decide) (by decide) (by decide) (by decide) (by decide))
@[simp] theorem holdEngines_clk (s : State) : (holdEngines s).clk = s.clk :=
  clk_of_only (holdEngines_only .clk s (by decide) (by decide) (by decide) (by decide) (by decide) (by decide) (by decide) (by decide))
@[simp] theorem holdEngines_wake (s : State) : (holdEngines s).wake = s.wake :=
  wake_of_only (holdEngines_only .wake s (by decide) (by decide) (by decide) (by decide) (by decide) (by decide) (by decide) (by decide))
@[simp] theorem holdEngines_fw (s : State) : (holdEngines s).fw = s.fw :=
  fw_of_only (holdEngines_only .fw s (by decide) (by decide) (by decide) (by decide) (by decide) (by decide) (by decide) (by decide))
@[simp] theorem holdEngines_avail (s : State) : (holdEngines s).avail = s.avail :=
  avail_of_only (holdEngines_only .avail s (by decide) (by decide) (by decide) (by decide) (by decide) (by decide) (by decide) (by decide))
@[simp] theorem holdEngines_own (s : State) : (holdEngines s).own = s.own :=
  own_of_only (holdEngines_only .own s (by decide) (by decide) (by decide) (by decide) (by decide) (by decide) (by decide) (by decide))
@[simp] theorem holdEngines_epqs (s : State) : (holdEngines s).epqs = s.epqs :=
  epqs_of_only (holdEngines_only .epqs s (by decide) (by decide) (by decide) (by decide) (by decide) (by decide) (by decide) (by decide))
@[simp] theorem holdEngines_links (s : State) : (holdEngines s).links = s.links :=
  links_of_only (holdEngines_only .links s (by decide) (by decide) (by decide) (by decide) (by decide) (by decide) (by decide) (by decide))
@[simp] theorem holdEngines_sched (s : State) : (holdEngines s).sched = s.sched :=
  sched_of_only (holdEngines_only .sched s (by decide) (by decide) (by decide) (by decide) (by decide) (by decide) (by decide) (by decide))
@[simp] theorem holdEngines_memb (s : State) : (holdEngines s).memb = s.memb :=
  memb_of_only (holdEngines_only .memb s (by decide) (by decide) (by decide) (by decide) (by decide) (by decide) (by decide) (by decide))
@[simp] theorem holdEngines_fab (s : State) : (holdEngines s).fab = s.fab :=
  fab_of_only (holdEngines_only .fab s (by decide) (by decide) (by decide) (by decide) (by decide) (by decide) (by decide) (by decide))
@[simp] theorem holdEngines_u2d (s : State) : (holdEngines s).u2d = s.u2d :=
  u2d_of_only (holdEngines_only .u2d s (by decide) (by decide) (by decide) (by decide) (by decide) (by decide) (by decide) (by decide))
@[simp] theorem holdEngines_u2u (s : State) : (holdEngines s).u2u = s.u2u :=
  u2u_of_only (holdEngines_only .u2u s (by decide) (by decide) (by decide) (by decide) (by decide) (by decide) (by decide) (by decide))
@[simp] theorem holdEngines_fo (s : State) : (holdEngines s).fo = s.fo :=
  fo_of_only (holdEngines_only .fo s (by decide) (by decide) (by decide) (by decide) (by decide) (by decide) (by decide) (by decide))
@[simp] theorem holdEngines_tc (s : State) : (holdEngines s).tc = s.tc :=
  tc_of_only (holdEngines_only .tc s (by decide) (by decide) (by decide) (by decide) (by decide) (by decide) (by decide) (by decide))
@[simp] theorem holdEngines_phy (s : State) : (holdEngines s).phy = s.phy :=
  phy_of_only (holdEngines_only .phy s (by decide) (by decide) (by decide) (by decide) (by decide) (by decide) (by decide) (by decide))
@[simp] theorem holdEngines_pwr (s : State) : (holdEngines s).pwr = s.pwr :=
  pwr_of_only (holdEngines_only .pwr s (by decide) (by decide) (by decide) (by decide) (by decide) (by decide) (by decide) (by decide))
@[simp] theorem holdEngines_lane (s : State) : (holdEngines s).lane = s.lane :=
  lane_of_only (holdEngines_only .lane s (by decide) (by decide) (by decide) (by decide) (by decide) (by decide) (by decide) (by decide))
@[simp] theorem holdEngines_guard (s : State) : (holdEngines s).guard = s.guard :=
  guard_of_only (holdEngines_only .guard s (by decide) (by decide) (by decide) (by decide) (by decide) (by decide) (by decide) (by decide))
@[simp] theorem holdEngines_dp (s : State) : (holdEngines s).dp = s.dp :=
  dp_of_only (holdEngines_only .dp s (by decide) (by decide) (by decide) (by decide) (by decide) (by decide) (by decide) (by decide))
@[simp] theorem holdEngines_therm (s : State) : (holdEngines s).therm = s.therm :=
  therm_of_only (holdEngines_only .therm s (by decide) (by decide) (by decide) (by decide) (by decide) (by decide) (by decide) (by decide))
@[simp] theorem tcOf_holdEngines (s : State) (j : Port) : tcOf (holdEngines s) j = tcOf s j := by
  simp [tcOf]
@[simp] theorem phyOf_holdEngines (s : State) (j : Port) : phyOf (holdEngines s) j = phyOf s j := by
  simp [phyOf]
@[simp] theorem pwrOf_holdEngines (s : State) (j : Port) : pwrOf (holdEngines s) j = pwrOf s j := by
  simp [pwrOf]
@[simp] theorem linkOf_holdEngines (s : State) (j : Port) : linkOf (holdEngines s) j = linkOf s j := by
  simp [linkOf]
@[simp] theorem foOf_holdEngines (s : State) (j : US) : foOf (holdEngines s) j = foOf s j := by
  simp [foOf]
@[simp] theorem ownerOf_holdEngines (s : State) (j : DS) : ownerOf (holdEngines s) j = ownerOf s j := by
  simp [ownerOf]
@[simp] theorem sleepStops_pending (m : Mode) (dmcOk : Bool) (s : State) : (sleepStops m dmcOk s).pending = s.pending :=
  pending_of_only (sleepStops_only .pending m dmcOk s (by decide) (by decide) (by decide) (by decide) (by decide) (by decide) (by decide) (by decide) (by decide) (by decide) (by decide) (by decide))
@[simp] theorem sleepStops_out (m : Mode) (dmcOk : Bool) (s : State) : (sleepStops m dmcOk s).out = s.out :=
  out_of_only (sleepStops_only .out m dmcOk s (by decide) (by decide) (by decide) (by decide) (by decide) (by decide) (by decide) (by decide) (by decide) (by decide) (by decide) (by decide))
@[simp] theorem sleepStops_now (m : Mode) (dmcOk : Bool) (s : State) : (sleepStops m dmcOk s).now = s.now :=
  now_of_only (sleepStops_only .now m dmcOk s (by decide) (by decide) (by decide) (by decide) (by decide) (by decide) (by decide) (by decide) (by decide) (by decide) (by decide) (by decide))
@[simp] theorem sleepStops_freeSeq (m : Mode) (dmcOk : Bool) (s : State) : (sleepStops m dmcOk s).freeSeq = s.freeSeq :=
  freeSeq_of_only (sleepStops_only .freeSeq m dmcOk s (by decide) (by decide) (by decide) (by decide) (by decide) (by decide) (by decide) (by decide) (by decide) (by decide) (by decide) (by decide))
@[simp] theorem sleepStops_mbx (m : Mode) (dmcOk : Bool) (s : State) : (sleepStops m dmcOk s).mbx = s.mbx :=
  mbx_of_only (sleepStops_only .mbx m dmcOk s (by decide) (by decide) (by decide) (by decide) (by decide) (by decide) (by decide) (by decide) (by decide) (by decide) (by decide) (by decide))
@[simp] theorem sleepStops_flt (m : Mode) (dmcOk : Bool) (s : State) : (sleepStops m dmcOk s).flt = s.flt :=
  flt_of_only (sleepStops_only .flt m dmcOk s (by decide) (by decide) (by decide) (by decide) (by decide) (by decide) (by decide) (by decide) (by decide) (by decide) (by decide) (by decide))
@[simp] theorem sleepStops_alm (m : Mode) (dmcOk : Bool) (s : State) : (sleepStops m dmcOk s).alm = s.alm :=
  alm_of_only (sleepStops_only .alm m dmcOk s (by decide) (by decide) (by decide) (by decide) (by decide) (by decide) (by decide) (by decide) (by decide) (by decide) (by decide) (by decide))
@[simp] theorem sleepStops_pmu (m : Mode) (dmcOk : Bool) (s : State) : (sleepStops m dmcOk s).pmu = s.pmu :=
  pmu_of_only (sleepStops_only .pmu m dmcOk s (by decide) (by decide) (by decide) (by decide) (by decide) (by decide) (by decide) (by decide) (by decide) (by decide) (by decide) (by decide))
@[simp] theorem sleepStops_reg (m : Mode) (dmcOk : Bool) (s : State) : (sleepStops m dmcOk s).reg = s.reg :=
  reg_of_only (sleepStops_only .reg m dmcOk s (by decide) (by decide) (by decide) (by decide) (by decide) (by decide) (by decide) (by decide) (by decide) (by decide) (by decide) (by decide))
@[simp] theorem sleepStops_clk (m : Mode) (dmcOk : Bool) (s : State) : (sleepStops m dmcOk s).clk = s.clk :=
  clk_of_only (sleepStops_only .clk m dmcOk s (by decide) (by decide) (by decide) (by decide) (by decide) (by decide) (by decide) (by decide) (by decide) (by decide) (by decide) (by decide))
@[simp] theorem sleepStops_wake (m : Mode) (dmcOk : Bool) (s : State) : (sleepStops m dmcOk s).wake = s.wake :=
  wake_of_only (sleepStops_only .wake m dmcOk s (by decide) (by decide) (by decide) (by decide) (by decide) (by decide) (by decide) (by decide) (by decide) (by decide) (by decide) (by decide))
@[simp] theorem sleepStops_fw (m : Mode) (dmcOk : Bool) (s : State) : (sleepStops m dmcOk s).fw = s.fw :=
  fw_of_only (sleepStops_only .fw m dmcOk s (by decide) (by decide) (by decide) (by decide) (by decide) (by decide) (by decide) (by decide) (by decide) (by decide) (by decide) (by decide))
@[simp] theorem sleepStops_avail (m : Mode) (dmcOk : Bool) (s : State) : (sleepStops m dmcOk s).avail = s.avail :=
  avail_of_only (sleepStops_only .avail m dmcOk s (by decide) (by decide) (by decide) (by decide) (by decide) (by decide) (by decide) (by decide) (by decide) (by decide) (by decide) (by decide))
@[simp] theorem sleepStops_own (m : Mode) (dmcOk : Bool) (s : State) : (sleepStops m dmcOk s).own = s.own :=
  own_of_only (sleepStops_only .own m dmcOk s (by decide) (by decide) (by decide) (by decide) (by decide) (by decide) (by decide) (by decide) (by decide) (by decide) (by decide) (by decide))
@[simp] theorem sleepStops_epqs (m : Mode) (dmcOk : Bool) (s : State) : (sleepStops m dmcOk s).epqs = s.epqs :=
  epqs_of_only (sleepStops_only .epqs m dmcOk s (by decide) (by decide) (by decide) (by decide) (by decide) (by decide) (by decide) (by decide) (by decide) (by decide) (by decide) (by decide))
@[simp] theorem sleepStops_links (m : Mode) (dmcOk : Bool) (s : State) : (sleepStops m dmcOk s).links = s.links :=
  links_of_only (sleepStops_only .links m dmcOk s (by decide) (by decide) (by decide) (by decide) (by decide) (by decide) (by decide) (by decide) (by decide) (by decide) (by decide) (by decide))
@[simp] theorem sleepStops_sched (m : Mode) (dmcOk : Bool) (s : State) : (sleepStops m dmcOk s).sched = s.sched :=
  sched_of_only (sleepStops_only .sched m dmcOk s (by decide) (by decide) (by decide) (by decide) (by decide) (by decide) (by decide) (by decide) (by decide) (by decide) (by decide) (by decide))
@[simp] theorem sleepStops_memb (m : Mode) (dmcOk : Bool) (s : State) : (sleepStops m dmcOk s).memb = s.memb :=
  memb_of_only (sleepStops_only .memb m dmcOk s (by decide) (by decide) (by decide) (by decide) (by decide) (by decide) (by decide) (by decide) (by decide) (by decide) (by decide) (by decide))
@[simp] theorem sleepStops_fab (m : Mode) (dmcOk : Bool) (s : State) : (sleepStops m dmcOk s).fab = s.fab :=
  fab_of_only (sleepStops_only .fab m dmcOk s (by decide) (by decide) (by decide) (by decide) (by decide) (by decide) (by decide) (by decide) (by decide) (by decide) (by decide) (by decide))
@[simp] theorem sleepStops_u2d (m : Mode) (dmcOk : Bool) (s : State) : (sleepStops m dmcOk s).u2d = s.u2d :=
  u2d_of_only (sleepStops_only .u2d m dmcOk s (by decide) (by decide) (by decide) (by decide) (by decide) (by decide) (by decide) (by decide) (by decide) (by decide) (by decide) (by decide))
@[simp] theorem sleepStops_u2u (m : Mode) (dmcOk : Bool) (s : State) : (sleepStops m dmcOk s).u2u = s.u2u :=
  u2u_of_only (sleepStops_only .u2u m dmcOk s (by decide) (by decide) (by decide) (by decide) (by decide) (by decide) (by decide) (by decide) (by decide) (by decide) (by decide) (by decide))
@[simp] theorem sleepStops_fo (m : Mode) (dmcOk : Bool) (s : State) : (sleepStops m dmcOk s).fo = s.fo :=
  fo_of_only (sleepStops_only .fo m dmcOk s (by decide) (by decide) (by decide) (by decide) (by decide) (by decide) (by decide) (by decide) (by decide) (by decide) (by decide) (by decide))
@[simp] theorem sleepStops_lane (m : Mode) (dmcOk : Bool) (s : State) : (sleepStops m dmcOk s).lane = s.lane :=
  lane_of_only (sleepStops_only .lane m dmcOk s (by decide) (by decide) (by decide) (by decide) (by decide) (by decide) (by decide) (by decide) (by decide) (by decide) (by decide) (by decide))
@[simp] theorem sleepStops_guard (m : Mode) (dmcOk : Bool) (s : State) : (sleepStops m dmcOk s).guard = s.guard :=
  guard_of_only (sleepStops_only .guard m dmcOk s (by decide) (by decide) (by decide) (by decide) (by decide) (by decide) (by decide) (by decide) (by decide) (by decide) (by decide) (by decide))
@[simp] theorem sleepStops_therm (m : Mode) (dmcOk : Bool) (s : State) : (sleepStops m dmcOk s).therm = s.therm :=
  therm_of_only (sleepStops_only .therm m dmcOk s (by decide) (by decide) (by decide) (by decide) (by decide) (by decide) (by decide) (by decide) (by decide) (by decide) (by decide) (by decide))
@[simp] theorem linkOf_sleepStops (m : Mode) (dmcOk : Bool) (s : State) (j : Port) : linkOf (sleepStops m dmcOk s) j = linkOf s j := by
  simp [linkOf]
@[simp] theorem foOf_sleepStops (m : Mode) (dmcOk : Bool) (s : State) (j : US) : foOf (sleepStops m dmcOk s) j = foOf s j := by
  simp [foOf]
@[simp] theorem ownerOf_sleepStops (m : Mode) (dmcOk : Bool) (s : State) (j : DS) : ownerOf (sleepStops m dmcOk s) j = ownerOf s j := by
  simp [ownerOf]
@[simp] theorem latchWake_pending (cls port detail : Nat) (s : State) : (latchWake cls port detail s).pending = s.pending :=
  pending_of_only (latchWake_only .pending cls port detail s (by decide))
@[simp] theorem latchWake_out (cls port detail : Nat) (s : State) : (latchWake cls port detail s).out = s.out :=
  out_of_only (latchWake_only .out cls port detail s (by decide))
@[simp] theorem latchWake_now (cls port detail : Nat) (s : State) : (latchWake cls port detail s).now = s.now :=
  now_of_only (latchWake_only .now cls port detail s (by decide))
@[simp] theorem latchWake_freeSeq (cls port detail : Nat) (s : State) : (latchWake cls port detail s).freeSeq = s.freeSeq :=
  freeSeq_of_only (latchWake_only .freeSeq cls port detail s (by decide))
@[simp] theorem latchWake_mbx (cls port detail : Nat) (s : State) : (latchWake cls port detail s).mbx = s.mbx :=
  mbx_of_only (latchWake_only .mbx cls port detail s (by decide))
@[simp] theorem latchWake_flt (cls port detail : Nat) (s : State) : (latchWake cls port detail s).flt = s.flt :=
  flt_of_only (latchWake_only .flt cls port detail s (by decide))
@[simp] theorem latchWake_alm (cls port detail : Nat) (s : State) : (latchWake cls port detail s).alm = s.alm :=
  alm_of_only (latchWake_only .alm cls port detail s (by decide))
@[simp] theorem latchWake_pmu (cls port detail : Nat) (s : State) : (latchWake cls port detail s).pmu = s.pmu :=
  pmu_of_only (latchWake_only .pmu cls port detail s (by decide))
@[simp] theorem latchWake_reg (cls port detail : Nat) (s : State) : (latchWake cls port detail s).reg = s.reg :=
  reg_of_only (latchWake_only .reg cls port detail s (by decide))
@[simp] theorem latchWake_clk (cls port detail : Nat) (s : State) : (latchWake cls port detail s).clk = s.clk :=
  clk_of_only (latchWake_only .clk cls port detail s (by decide))
@[simp] theorem latchWake_wake (cls port detail : Nat) (s : State) : (latchWake cls port detail s).wake = s.wake :=
  wake_of_only (latchWake_only .wake cls port detail s (by decide))
@[simp] theorem latchWake_fw (cls port detail : Nat) (s : State) : (latchWake cls port detail s).fw = s.fw :=
  fw_of_only (latchWake_only .fw cls port detail s (by decide))
@[simp] theorem latchWake_avail (cls port detail : Nat) (s : State) : (latchWake cls port detail s).avail = s.avail :=
  avail_of_only (latchWake_only .avail cls port detail s (by decide))
@[simp] theorem latchWake_hubs (cls port detail : Nat) (s : State) : (latchWake cls port detail s).hubs = s.hubs :=
  hubs_of_only (latchWake_only .hubs cls port detail s (by decide))
@[simp] theorem latchWake_own (cls port detail : Nat) (s : State) : (latchWake cls port detail s).own = s.own :=
  own_of_only (latchWake_only .own cls port detail s (by decide))
@[simp] theorem latchWake_dsd (cls port detail : Nat) (s : State) : (latchWake cls port detail s).dsd = s.dsd :=
  dsd_of_only (latchWake_only .dsd cls port detail s (by decide))
@[simp] theorem latchWake_usd (cls port detail : Nat) (s : State) : (latchWake cls port detail s).usd = s.usd :=
  usd_of_only (latchWake_only .usd cls port detail s (by decide))
@[simp] theorem latchWake_epqs (cls port detail : Nat) (s : State) : (latchWake cls port detail s).epqs = s.epqs :=
  epqs_of_only (latchWake_only .epqs cls port detail s (by decide))
@[simp] theorem latchWake_links (cls port detail : Nat) (s : State) : (latchWake cls port detail s).links = s.links :=
  links_of_only (latchWake_only .links cls port detail s (by decide))
@[simp] theorem latchWake_sched (cls port detail : Nat) (s : State) : (latchWake cls port detail s).sched = s.sched :=
  sched_of_only (latchWake_only .sched cls port detail s (by decide))
@[simp] theorem latchWake_place (cls port detail : Nat) (s : State) : (latchWake cls port detail s).place = s.place :=
  place_of_only (latchWake_only .place cls port detail s (by decide))
@[simp] theorem latchWake_memb (cls port detail : Nat) (s : State) : (latchWake cls port detail s).memb = s.memb :=
  memb_of_only (latchWake_only .memb cls port detail s (by decide))
@[simp] theorem latchWake_fab (cls port detail : Nat) (s : State) : (latchWake cls port detail s).fab = s.fab :=
  fab_of_only (latchWake_only .fab cls port detail s (by decide))
@[simp] theorem latchWake_u2d (cls port detail : Nat) (s : State) : (latchWake cls port detail s).u2d = s.u2d :=
  u2d_of_only (latchWake_only .u2d cls port detail s (by decide))
@[simp] theorem latchWake_u2u (cls port detail : Nat) (s : State) : (latchWake cls port detail s).u2u = s.u2u :=
  u2u_of_only (latchWake_only .u2u cls port detail s (by decide))
@[simp] theorem latchWake_vig (cls port detail : Nat) (s : State) : (latchWake cls port detail s).vig = s.vig :=
  vig_of_only (latchWake_only .vig cls port detail s (by decide))
@[simp] theorem latchWake_fo (cls port detail : Nat) (s : State) : (latchWake cls port detail s).fo = s.fo :=
  fo_of_only (latchWake_only .fo cls port detail s (by decide))
@[simp] theorem latchWake_tc (cls port detail : Nat) (s : State) : (latchWake cls port detail s).tc = s.tc :=
  tc_of_only (latchWake_only .tc cls port detail s (by decide))
@[simp] theorem latchWake_phy (cls port detail : Nat) (s : State) : (latchWake cls port detail s).phy = s.phy :=
  phy_of_only (latchWake_only .phy cls port detail s (by decide))
@[simp] theorem latchWake_pwr (cls port detail : Nat) (s : State) : (latchWake cls port detail s).pwr = s.pwr :=
  pwr_of_only (latchWake_only .pwr cls port detail s (by decide))
@[simp] theorem latchWake_lane (cls port detail : Nat) (s : State) : (latchWake cls port detail s).lane = s.lane :=
  lane_of_only (latchWake_only .lane cls port detail s (by decide))
@[simp] theorem latchWake_guard (cls port detail : Nat) (s : State) : (latchWake cls port detail s).guard = s.guard :=
  guard_of_only (latchWake_only .guard cls port detail s (by decide))
@[simp] theorem latchWake_dp (cls port detail : Nat) (s : State) : (latchWake cls port detail s).dp = s.dp :=
  dp_of_only (latchWake_only .dp cls port detail s (by decide))
@[simp] theorem latchWake_lio (cls port detail : Nat) (s : State) : (latchWake cls port detail s).lio = s.lio :=
  lio_of_only (latchWake_only .lio cls port detail s (by decide))
@[simp] theorem latchWake_test (cls port detail : Nat) (s : State) : (latchWake cls port detail s).test = s.test :=
  test_of_only (latchWake_only .test cls port detail s (by decide))
@[simp] theorem latchWake_therm (cls port detail : Nat) (s : State) : (latchWake cls port detail s).therm = s.therm :=
  therm_of_only (latchWake_only .therm cls port detail s (by decide))
@[simp] theorem dsOf_latchWake (cls port detail : Nat) (s : State) (j : DS) : dsOf (latchWake cls port detail s) j = dsOf s j := by
  simp [dsOf]
@[simp] theorem tcOf_latchWake (cls port detail : Nat) (s : State) (j : Port) : tcOf (latchWake cls port detail s) j = tcOf s j := by
  simp [tcOf]
@[simp] theorem phyOf_latchWake (cls port detail : Nat) (s : State) (j : Port) : phyOf (latchWake cls port detail s) j = phyOf s j := by
  simp [phyOf]
@[simp] theorem pwrOf_latchWake (cls port detail : Nat) (s : State) (j : Port) : pwrOf (latchWake cls port detail s) j = pwrOf s j := by
  simp [pwrOf]
@[simp] theorem linkOf_latchWake (cls port detail : Nat) (s : State) (j : Port) : linkOf (latchWake cls port detail s) j = linkOf s j := by
  simp [linkOf]
@[simp] theorem usOf_latchWake (cls port detail : Nat) (s : State) (j : US) : usOf (latchWake cls port detail s) j = usOf s j := by
  simp [usOf]
@[simp] theorem hubOf_latchWake (cls port detail : Nat) (s : State) (j : US) : hubOf (latchWake cls port detail s) j = hubOf s j := by
  simp [hubOf]
@[simp] theorem vigHub_latchWake (cls port detail : Nat) (s : State) (j : US) : vigHub (latchWake cls port detail s) j = vigHub s j := by
  simp [vigHub]
@[simp] theorem foOf_latchWake (cls port detail : Nat) (s : State) (j : US) : foOf (latchWake cls port detail s) j = foOf s j := by
  simp [foOf]
@[simp] theorem ownerOf_latchWake (cls port detail : Nat) (s : State) (j : DS) : ownerOf (latchWake cls port detail s) j = ownerOf s j := by
  simp [ownerOf]
@[simp] theorem fault_pending (b : Block) (src unit : Nat) (s : State) : (fault b src unit s).pending = s.pending :=
  pending_of_only (fault_only .pending b src unit s (by decide) (by decide) (by decide) (by decide) (by decide) (by decide) (by decide) (by decide) (by decide) (by decide) (by decide) (by decide) (by decide) (by decide) (by decide) (by decide) (by decide) (by decide) (by decide) (by decide) (by decide) (by decide) (by decide) (by decide) (by decide) (by decide))
@[simp] theorem fault_now (b : Block) (src unit : Nat) (s : State) : (fault b src unit s).now = s.now :=
  now_of_only (fault_only .now b src unit s (by decide) (by decide) (by decide) (by decide) (by decide) (by decide) (by decide) (by decide) (by decide) (by decide) (by decide) (by decide) (by decide) (by decide) (by decide) (by decide) (by decide) (by decide) (by decide) (by decide) (by decide) (by decide) (by decide) (by decide) (by decide) (by decide))
@[simp] theorem fault_reg (b : Block) (src unit : Nat) (s : State) : (fault b src unit s).reg = s.reg :=
  reg_of_only (fault_only .reg b src unit s (by decide) (by decide) (by decide) (by decide) (by decide) (by decide) (by decide) (by decide) (by decide) (by decide) (by decide) (by decide) (by decide) (by decide) (by decide) (by decide) (by decide) (by decide) (by decide) (by decide) (by decide) (by decide) (by decide) (by decide) (by decide) (by decide))
@[simp] theorem fault_wake (b : Block) (src unit : Nat) (s : State) : (fault b src unit s).wake = s.wake :=
  wake_of_only (fault_only .wake b src unit s (by decide) (by decide) (by decide) (by decide) (by decide) (by decide) (by decide) (by decide) (by decide) (by decide) (by decide) (by decide) (by decide) (by decide) (by decide) (by decide) (by decide) (by decide) (by decide) (by decide) (by decide) (by decide) (by decide) (by decide) (by decide) (by decide))
@[simp] theorem fault_sup (b : Block) (src unit : Nat) (s : State) : (fault b src unit s).sup = s.sup :=
  sup_of_only (fault_only .sup b src unit s (by decide) (by decide) (by decide) (by decide) (by decide) (by decide) (by decide) (by decide) (by decide) (by decide) (by decide) (by decide) (by decide) (by decide) (by decide) (by decide) (by decide) (by decide) (by decide) (by decide) (by decide) (by decide) (by decide) (by decide) (by decide) (by decide))
@[simp] theorem fault_own (b : Block) (src unit : Nat) (s : State) : (fault b src unit s).own = s.own :=
  own_of_only (fault_only .own b src unit s (by decide) (by decide) (by decide) (by decide) (by decide) (by decide) (by decide) (by decide) (by decide) (by decide) (by decide) (by decide) (by decide) (by decide) (by decide) (by decide) (by decide) (by decide) (by decide) (by decide) (by decide) (by decide) (by decide) (by decide) (by decide) (by decide))
@[simp] theorem fault_u2u (b : Block) (src unit : Nat) (s : State) : (fault b src unit s).u2u = s.u2u :=
  u2u_of_only (fault_only .u2u b src unit s (by decide) (by decide) (by decide) (by decide) (by decide) (by decide) (by decide) (by decide) (by decide) (by decide) (by decide) (by decide) (by decide) (by decide) (by decide) (by decide) (by decide) (by decide) (by decide) (by decide) (by decide) (by decide) (by decide) (by decide) (by decide) (by decide))
@[simp] theorem fault_fo (b : Block) (src unit : Nat) (s : State) : (fault b src unit s).fo = s.fo :=
  fo_of_only (fault_only .fo b src unit s (by decide) (by decide) (by decide) (by decide) (by decide) (by decide) (by decide) (by decide) (by decide) (by decide) (by decide) (by decide) (by decide) (by decide) (by decide) (by decide) (by decide) (by decide) (by decide) (by decide) (by decide) (by decide) (by decide) (by decide) (by decide) (by decide))
@[simp] theorem fault_lane (b : Block) (src unit : Nat) (s : State) : (fault b src unit s).lane = s.lane :=
  lane_of_only (fault_only .lane b src unit s (by decide) (by decide) (by decide) (by decide) (by decide) (by decide) (by decide) (by decide) (by decide) (by decide) (by decide) (by decide) (by decide) (by decide) (by decide) (by decide) (by decide) (by decide) (by decide) (by decide) (by decide) (by decide) (by decide) (by decide) (by decide) (by decide))
@[simp] theorem fault_guard (b : Block) (src unit : Nat) (s : State) : (fault b src unit s).guard = s.guard :=
  guard_of_only (fault_only .guard b src unit s (by decide) (by decide) (by decide) (by decide) (by decide) (by decide) (by decide) (by decide) (by decide) (by decide) (by decide) (by decide) (by decide) (by decide) (by decide) (by decide) (by decide) (by decide) (by decide) (by decide) (by decide) (by decide) (by decide) (by decide) (by decide) (by decide))
@[simp] theorem fault_therm (b : Block) (src unit : Nat) (s : State) : (fault b src unit s).therm = s.therm :=
  therm_of_only (fault_only .therm b src unit s (by decide) (by decide) (by decide) (by decide) (by decide) (by decide) (by decide) (by decide) (by decide) (by decide) (by decide) (by decide) (by decide) (by decide) (by decide) (by decide) (by decide) (by decide) (by decide) (by decide) (by decide) (by decide) (by decide) (by decide) (by decide) (by decide))
@[simp] theorem foOf_fault (b : Block) (src unit : Nat) (s : State) (j : US) : foOf (fault b src unit s) j = foOf s j := by
  simp [foOf]
@[simp] theorem ownerOf_fault (b : Block) (src unit : Nat) (s : State) (j : DS) : ownerOf (fault b src unit s) j = ownerOf s j := by
  simp [ownerOf]
@[simp] theorem kickLow_pending (i : Fin 2) (s : State) : (kickLow i s).pending = s.pending :=
  pending_of_only (kickLow_only .pending i s (by decide))
@[simp] theorem kickLow_out (i : Fin 2) (s : State) : (kickLow i s).out = s.out :=
  out_of_only (kickLow_only .out i s (by decide))
@[simp] theorem kickLow_now (i : Fin 2) (s : State) : (kickLow i s).now = s.now :=
  now_of_only (kickLow_only .now i s (by decide))
@[simp] theorem kickLow_freeSeq (i : Fin 2) (s : State) : (kickLow i s).freeSeq = s.freeSeq :=
  freeSeq_of_only (kickLow_only .freeSeq i s (by decide))
@[simp] theorem kickLow_mbx (i : Fin 2) (s : State) : (kickLow i s).mbx = s.mbx :=
  mbx_of_only (kickLow_only .mbx i s (by decide))
@[simp] theorem kickLow_flt (i : Fin 2) (s : State) : (kickLow i s).flt = s.flt :=
  flt_of_only (kickLow_only .flt i s (by decide))
@[simp] theorem kickLow_alm (i : Fin 2) (s : State) : (kickLow i s).alm = s.alm :=
  alm_of_only (kickLow_only .alm i s (by decide))
@[simp] theorem kickLow_pmu (i : Fin 2) (s : State) : (kickLow i s).pmu = s.pmu :=
  pmu_of_only (kickLow_only .pmu i s (by decide))
@[simp] theorem kickLow_reg (i : Fin 2) (s : State) : (kickLow i s).reg = s.reg :=
  reg_of_only (kickLow_only .reg i s (by decide))
@[simp] theorem kickLow_clk (i : Fin 2) (s : State) : (kickLow i s).clk = s.clk :=
  clk_of_only (kickLow_only .clk i s (by decide))
@[simp] theorem kickLow_wake (i : Fin 2) (s : State) : (kickLow i s).wake = s.wake :=
  wake_of_only (kickLow_only .wake i s (by decide))
@[simp] theorem kickLow_sup (i : Fin 2) (s : State) : (kickLow i s).sup = s.sup :=
  sup_of_only (kickLow_only .sup i s (by decide))
@[simp] theorem kickLow_fw (i : Fin 2) (s : State) : (kickLow i s).fw = s.fw :=
  fw_of_only (kickLow_only .fw i s (by decide))
@[simp] theorem kickLow_avail (i : Fin 2) (s : State) : (kickLow i s).avail = s.avail :=
  avail_of_only (kickLow_only .avail i s (by decide))
@[simp] theorem kickLow_hubs (i : Fin 2) (s : State) : (kickLow i s).hubs = s.hubs :=
  hubs_of_only (kickLow_only .hubs i s (by decide))
@[simp] theorem kickLow_own (i : Fin 2) (s : State) : (kickLow i s).own = s.own :=
  own_of_only (kickLow_only .own i s (by decide))
@[simp] theorem kickLow_dsd (i : Fin 2) (s : State) : (kickLow i s).dsd = s.dsd :=
  dsd_of_only (kickLow_only .dsd i s (by decide))
@[simp] theorem kickLow_usd (i : Fin 2) (s : State) : (kickLow i s).usd = s.usd :=
  usd_of_only (kickLow_only .usd i s (by decide))
@[simp] theorem kickLow_epqs (i : Fin 2) (s : State) : (kickLow i s).epqs = s.epqs :=
  epqs_of_only (kickLow_only .epqs i s (by decide))
@[simp] theorem kickLow_links (i : Fin 2) (s : State) : (kickLow i s).links = s.links :=
  links_of_only (kickLow_only .links i s (by decide))
@[simp] theorem kickLow_sched (i : Fin 2) (s : State) : (kickLow i s).sched = s.sched :=
  sched_of_only (kickLow_only .sched i s (by decide))
@[simp] theorem kickLow_place (i : Fin 2) (s : State) : (kickLow i s).place = s.place :=
  place_of_only (kickLow_only .place i s (by decide))
@[simp] theorem kickLow_memb (i : Fin 2) (s : State) : (kickLow i s).memb = s.memb :=
  memb_of_only (kickLow_only .memb i s (by decide))
@[simp] theorem kickLow_fab (i : Fin 2) (s : State) : (kickLow i s).fab = s.fab :=
  fab_of_only (kickLow_only .fab i s (by decide))
@[simp] theorem kickLow_u2d (i : Fin 2) (s : State) : (kickLow i s).u2d = s.u2d :=
  u2d_of_only (kickLow_only .u2d i s (by decide))
@[simp] theorem kickLow_u2u (i : Fin 2) (s : State) : (kickLow i s).u2u = s.u2u :=
  u2u_of_only (kickLow_only .u2u i s (by decide))
@[simp] theorem kickLow_vig (i : Fin 2) (s : State) : (kickLow i s).vig = s.vig :=
  vig_of_only (kickLow_only .vig i s (by decide))
@[simp] theorem kickLow_fo (i : Fin 2) (s : State) : (kickLow i s).fo = s.fo :=
  fo_of_only (kickLow_only .fo i s (by decide))
@[simp] theorem kickLow_tc (i : Fin 2) (s : State) : (kickLow i s).tc = s.tc :=
  tc_of_only (kickLow_only .tc i s (by decide))
@[simp] theorem kickLow_phy (i : Fin 2) (s : State) : (kickLow i s).phy = s.phy :=
  phy_of_only (kickLow_only .phy i s (by decide))
@[simp] theorem kickLow_pwr (i : Fin 2) (s : State) : (kickLow i s).pwr = s.pwr :=
  pwr_of_only (kickLow_only .pwr i s (by decide))
@[simp] theorem kickLow_lane (i : Fin 2) (s : State) : (kickLow i s).lane = s.lane :=
  lane_of_only (kickLow_only .lane i s (by decide))
@[simp] theorem kickLow_guard (i : Fin 2) (s : State) : (kickLow i s).guard = s.guard :=
  guard_of_only (kickLow_only .guard i s (by decide))
@[simp] theorem kickLow_dp (i : Fin 2) (s : State) : (kickLow i s).dp = s.dp :=
  dp_of_only (kickLow_only .dp i s (by decide))
@[simp] theorem kickLow_test (i : Fin 2) (s : State) : (kickLow i s).test = s.test :=
  test_of_only (kickLow_only .test i s (by decide))
@[simp] theorem kickLow_therm (i : Fin 2) (s : State) : (kickLow i s).therm = s.therm :=
  therm_of_only (kickLow_only .therm i s (by decide))
@[simp] theorem dsOf_kickLow (i : Fin 2) (s : State) (j : DS) : dsOf (kickLow i s) j = dsOf s j := by
  simp [dsOf]
@[simp] theorem tcOf_kickLow (i : Fin 2) (s : State) (j : Port) : tcOf (kickLow i s) j = tcOf s j := by
  simp [tcOf]
@[simp] theorem phyOf_kickLow (i : Fin 2) (s : State) (j : Port) : phyOf (kickLow i s) j = phyOf s j := by
  simp [phyOf]
@[simp] theorem pwrOf_kickLow (i : Fin 2) (s : State) (j : Port) : pwrOf (kickLow i s) j = pwrOf s j := by
  simp [pwrOf]
@[simp] theorem linkOf_kickLow (i : Fin 2) (s : State) (j : Port) : linkOf (kickLow i s) j = linkOf s j := by
  simp [linkOf]
@[simp] theorem usOf_kickLow (i : Fin 2) (s : State) (j : US) : usOf (kickLow i s) j = usOf s j := by
  simp [usOf]
@[simp] theorem hubOf_kickLow (i : Fin 2) (s : State) (j : US) : hubOf (kickLow i s) j = hubOf s j := by
  simp [hubOf]
@[simp] theorem vigHub_kickLow (i : Fin 2) (s : State) (j : US) : vigHub (kickLow i s) j = vigHub s j := by
  simp [vigHub]
@[simp] theorem foOf_kickLow (i : Fin 2) (s : State) (j : US) : foOf (kickLow i s) j = foOf s j := by
  simp [foOf]
@[simp] theorem ownerOf_kickLow (i : Fin 2) (s : State) (j : DS) : ownerOf (kickLow i s) j = ownerOf s j := by
  simp [ownerOf]
end Sys2Proof.Machine
end

