-- ==== Sys2Proof/Laws/Ops.lean ====
section
/-! SUPPORT. What the shared operations answer, each said once: a message in hand, a swap met, a poll of a stage, a write of a
transport register and a Martar command. -/

set_option Elab.async false

namespace Sys2Proof.Machine

/-- A message in hand that the row accepts, while the Thyme runs, is taken and acted on (R320). -/
theorem takeHand_some {p : Port} {ok : PdMsg → Bool} {f : PdMsg → State → State} {s : State} {m : PdMsg}
    (h1 : (phyOf s p).inHand = some m) (h2 : thymeDown s p = false) (h3 : ok m = true) :
    takeHand p ok f (fresh s) = f m (handed p s) := by
  simp [takeHand, handed, h1, h2, h3]

/-- Where no swap is under way, the partner's swap is judged (R350). -/
theorem meetSwap_none {u : US} {f : State → State} {s : State} (h : (pwrOf s (usPort u)).swap = none) :
    meetSwap u f s = f s := by
  simp [meetSwap, h]

/-- A poll answered within its repetitions is evaluated, with CE for each try that failed (R408). -/
theorem pslTry_lt {p : Port} {n : Nat} {f : State → State} {s : State} (h : n < 4) :
    pslTry p n f s = f ((List.range n).foldl (fun y _ => fault .psl 8 (portCode p) y) s) := by
  have h1 : min 3 n = n := by omega
  have h2 : ¬ 4 ≤ n := by omega
  simp [pslTry, h1, h2]

/-- A poll that fails four times is UC, with PSC low (R408). -/
theorem pslTry_ge {p : Port} {n : Nat} {f : State → State} {s : State} (h : 4 ≤ n) :
    pslTry p n f s = fault .psl 9 (portCode p) (pscLow p ((List.range 3).foldl (fun y _ => fault .psl 8 (portCode p) y) s)) := by
  have h1 : min 3 n = 3 := by omega
  simp [pslTry, h1, h]

/-- A transport register acts once the rings are served (R434, R435). -/
theorem onMbx_ready {f : Mbx → Mbx} {s : State} (h : s.sup.ready = true) : onMbx f s = { fresh s with mbx := f s.mbx } := by
  simp only [onMbx, fresh_sup, h]
  rfl

/-- Before that a write of a transport register does nothing. -/
theorem onMbx_unready {f : Mbx → Mbx} {s : State} (h : s.sup.ready = false) : onMbx f s = fresh s := by
  simp only [onMbx, fresh_sup, h]
  rfl

/-- A Martar command that fails a common check changes nothing but its completion (R428, R445). -/
theorem runCmd_refused {c : CmdSpec} {f : Req → State → State × Reply} {r : Req} {s : State} {st : Nat}
    (h : precheck c r s = some st) : runCmd c f r s = postReply c.opcode r (errR st) (fresh s) := by
  simp [runCmd, h]

/-- A Martar command that passes them is carried out and completed, where its ring can keep and carry the reply (R429, R436,
R437). -/
theorem runCmd_passes {c : CmdSpec} {f : Req → State → State × Reply} {r : Req} {s : State} (h : Passes c r s)
    (ha : (f r (fresh s)).2.acc.isSome = true → accFull r s = false) (hf : FitsRing r (f r (fresh s)).2) :
    runCmd c f r s = postReply c.opcode r (f r (fresh s)).2 (f r (fresh s)).1 := by
  have k : precheck c r (fresh s) = none := h
  have ka : (f r (fresh s)).2.acc.isSome = true → accFull r (fresh s) = false := ha
  simp only [runCmd, k]
  have h1 : ¬ ((f r (fresh s)).2.acc.isSome = true ∧ accFull r (fresh s) = true) := by
    rintro ⟨x, y⟩; simp [ka x] at y
  have h2 : ¬ (r.ring.val = 4 ∧ replyBytes r (f r (fresh s)).2 > 255) := by
    rintro ⟨x, y⟩; have := hf x; omega
  rw [if_neg h1, if_neg h2]

/-- Every Martar command answers one of four ways, and three of them change nothing but the completion. -/
theorem runCmd_cases (c : CmdSpec) (f : Req → State → State × Reply) (r : Req) (s : State) :
    (∃ st, runCmd c f r s = postReply c.opcode r (errR st) (fresh s)) ∨
    (Passes c r s ∧ runCmd c f r s = postReply c.opcode r (f r (fresh s)).2 (f r (fresh s)).1) := by
  unfold runCmd
  simp only
  split
  · exact .inl ⟨_, rfl⟩
  · rename_i h
    split
    · exact .inl ⟨_, rfl⟩
    · split
      · exact .inl ⟨_, rfl⟩
      · exact .inr ⟨h, rfl⟩

/-- A command that keeps some parts runs, where what it answers is as said. -/
theorem runs_of_kept {i : Instr} {s : State} {l m : List Fld} {P : State → Prop} (k : Kept m s (exec i s))
    (g : ∀ j ∈ m, j ∈ l) (n : ∃ j, j ∉ m) (h : ∀ t, exec i s = .next t → P t) : Runs i s l P := by
  obtain ⟨t, e, f⟩ := k.next n
  exact ⟨t, e, fun j hj => f j (fun x => hj (g j x)), h t e⟩

/-- The upstream port of a code is that of its hub. -/
theorem portUs_some {p : Port} {u : US} (h : portUs p = some u) : usPort u = p := by
  unfold portUs at h
  split at h
  · cases h; exact Fin.ext (by simp [usPort, *])
  · split at h
    · cases h; exact Fin.ext (by simp [usPort, *])
    · cases h

/-- No writes are carried out at once (R463). -/
theorem persist_nil (bad : Option Nat) (s : State) : persist [] bad s = (s, stOk) := by
  cases bad <;> simp [persist, almExhausted, almCarry, beforeBad, almWriteAll]

/-- Outside SUSPEND and any sleep entry, a wake source does nothing more (R390). -/
theorem suspendWake_awake {cls port detail : Nat} {s : State} (h : s.pmu.reported ≠ .suspend) (e : entering s = false) :
    suspendWake cls port detail s = s := by
  simp [suspendWake, e, h]

/-- Two updates of one port's data in one. -/
theorem modDs_modDs (d : DS) (f g : DsData → DsData) (s : State) : modDs d f (modDs d g s) = modDs d (fun x => f (g x)) s := by
  simp [modDs]

/-! ### The message in hand taken -/

@[simp] theorem tcOf_handed (p q : Port) (s : State) : tcOf (handed p s) q = tcOf s q := rfl
@[simp] theorem pwrOf_handed (p q : Port) (s : State) : pwrOf (handed p s) q = pwrOf s q := rfl
@[simp] theorem handed_pmu (p : Port) (s : State) : (handed p s).pmu = s.pmu := rfl
@[simp] theorem handed_now (p : Port) (s : State) : (handed p s).now = s.now := rfl
@[simp] theorem handed_dp (p : Port) (s : State) : (handed p s).dp = s.dp := rfl
@[simp] theorem handed_tc (p : Port) (s : State) : (handed p s).tc = s.tc := rfl
@[simp] theorem handed_pwr (p : Port) (s : State) : (handed p s).pwr = s.pwr := rfl
@[simp] theorem isSource_handed (p q : Port) (s : State) : isSource (handed p s) q = isSource s q := rfl
@[simp] theorem isSink_handed (p q : Port) (s : State) : isSink (handed p s) q = isSink s q := rfl
@[simp] theorem mayBeSource_handed (p q : Port) (s : State) : mayBeSource (handed p s) q = mayBeSource s q := rfl
@[simp] theorem explicit_handed (p q : Port) (s : State) : explicit (handed p s) q = explicit s q := rfl
@[simp] theorem safeHolds_handed (p : Port) (s : State) : safeHolds (handed p s) = safeHolds s := rfl
@[simp] theorem dpInput_handed (p : Port) (d : DS) (s : State) : dpInput (handed p s) d = dpInput s d := rfl
@[simp] theorem rev3_handed (p q : Port) (s : State) : rev3 (handed p s) q = rev3 s q := by
  by_cases h : q = p
  · subst h; simp [rev3, handed]
  · simp [rev3, handed, phyOf_modPhy_ne h]

/-! ### The state after a tick that was due, a header taken in, and a host heard (R8, R144, R249) -/

@[simp] theorem dueTick_usd (s : State) : (dueTick s).usd = s.usd :=
  usd_of_only (dueTick_only .usd s (by decide) (by decide) (by decide) (by decide) (by decide))
@[simp] theorem dueTick_dsd (s : State) : (dueTick s).dsd = s.dsd :=
  dsd_of_only (dueTick_only .dsd s (by decide) (by decide) (by decide) (by decide) (by decide))
@[simp] theorem dueTick_hubs (s : State) : (dueTick s).hubs = s.hubs :=
  hubs_of_only (dueTick_only .hubs s (by decide) (by decide) (by decide) (by decide) (by decide))
@[simp] theorem dueTick_own (s : State) : (dueTick s).own = s.own :=
  own_of_only (dueTick_only .own s (by decide) (by decide) (by decide) (by decide) (by decide))
@[simp] theorem dueTick_vig (s : State) : (dueTick s).vig = s.vig :=
  vig_of_only (dueTick_only .vig s (by decide) (by decide) (by decide) (by decide) (by decide))
@[simp] theorem dueTick_u2d (s : State) : (dueTick s).u2d = s.u2d :=
  u2d_of_only (dueTick_only .u2d s (by decide) (by decide) (by decide) (by decide) (by decide))
@[simp] theorem dueTick_sup (s : State) : (dueTick s).sup = s.sup :=
  sup_of_only (dueTick_only .sup s (by decide) (by decide) (by decide) (by decide) (by decide))
@[simp] theorem dueTick_fo (s : State) : (dueTick s).fo = s.fo :=
  fo_of_only (dueTick_only .fo s (by decide) (by decide) (by decide) (by decide) (by decide))
@[simp] theorem dueTick_tc (s : State) : (dueTick s).tc = s.tc :=
  tc_of_only (dueTick_only .tc s (by decide) (by decide) (by decide) (by decide) (by decide))
@[simp] theorem usOf_dueTick (s : State) (v : US) : usOf (dueTick s) v = usOf s v := by simp [usOf]
@[simp] theorem dsOf_dueTick (s : State) (d : DS) : dsOf (dueTick s) d = dsOf s d := by simp [dsOf]
@[simp] theorem hubOf_dueTick (s : State) (v : US) : hubOf (dueTick s) v = hubOf s v := by simp [hubOf]
@[simp] theorem ownerOf_dueTick (s : State) (d : DS) : ownerOf (dueTick s) d = ownerOf s d := by simp [ownerOf]
@[simp] theorem movingNow_dueTick (s : State) (d : DS) : movingNow (dueTick s) d = movingNow s d := by simp [movingNow]
@[simp] theorem underVigil_dueTick (s : State) (d : DS) : underVigil (dueTick s) d = underVigil s d := by
  simp [underVigil, portCtxs, portVigil, devMode]

@[simp] theorem linkIn_hubs (p : Port) (h : SsHeader) (c : Bool) (s : State) : ((linkIn p h c s).1).hubs = s.hubs :=
  hubs_of_only (linkIn_only .hubs p h c s (by decide) (by decide) (by decide) (by decide))
@[simp] theorem linkIn_own (p : Port) (h : SsHeader) (c : Bool) (s : State) : ((linkIn p h c s).1).own = s.own :=
  own_of_only (linkIn_only .own p h c s (by decide) (by decide) (by decide) (by decide))
@[simp] theorem linkIn_vig (p : Port) (h : SsHeader) (c : Bool) (s : State) : ((linkIn p h c s).1).vig = s.vig :=
  vig_of_only (linkIn_only .vig p h c s (by decide) (by decide) (by decide) (by decide))
@[simp] theorem linkIn_u2d (p : Port) (h : SsHeader) (c : Bool) (s : State) : ((linkIn p h c s).1).u2d = s.u2d :=
  u2d_of_only (linkIn_only .u2d p h c s (by decide) (by decide) (by decide) (by decide))
@[simp] theorem hubOf_linkIn (p : Port) (h : SsHeader) (c : Bool) (s : State) (v : US) : hubOf ((linkIn p h c s).1) v = hubOf s v := by simp [hubOf]
@[simp] theorem ownerOf_linkIn (p : Port) (h : SsHeader) (c : Bool) (s : State) (d : DS) : ownerOf ((linkIn p h c s).1) d = ownerOf s d := by simp [ownerOf]
@[simp] theorem movingNow_linkIn (p : Port) (h : SsHeader) (c : Bool) (s : State) (d : DS) : movingNow ((linkIn p h c s).1) d = movingNow s d := by simp [movingNow]
@[simp] theorem underVigil_linkIn (p : Port) (h : SsHeader) (c : Bool) (s : State) (d : DS) : underVigil ((linkIn p h c s).1) d = underVigil s d := by
  simp [underVigil, portCtxs, portVigil, devMode]

@[simp] theorem movingNow_hostSeen (u : US) (s : State) (d : DS) : movingNow (hostSeen u s) d = movingNow s d := by simp [movingNow]
@[simp] theorem slotSt_hostSeen (u w : US) (v : Fin 15) (s : State) : slotSt (hostSeen u s) w v = slotSt s w v := by simp [slotSt]
@[simp] theorem ownedAt_hostSeen (u w : US) (v : Fin 15) (s : State) : ownedAt (hostSeen u s) w v = ownedAt s w v := by
  simp [ownedAt, slotAt]
@[simp] theorem portFenced_hostSeen (u : US) (p : Port) (s : State) : portFenced (hostSeen u s) p = portFenced s p := by
  simp [portFenced, blockFenced, fltRec]
@[simp] theorem presentable_hostSeen (u : US) (d : DS) (s : State) : presentable (hostSeen u s) d = presentable s d := by
  simp [presentable]
@[simp] theorem shownHere_hostSeen (u w : US) (v : Fin 15) (ss : Bool) (s : State) : shownHere (hostSeen u s) w v ss = shownHere s w v ss := by
  simp [shownHere]

/-! ### A split phase charged (R195) -/

@[simp] theorem chargeSplit_u2d (u : US) (d : DS) (a e : Nat) (i : Bool) (n : Nat) (s : State) : (chargeSplit u d a e i n s).u2d = s.u2d :=
  u2d_of_only (chargeSplit_only .u2d u d a e i n s (by decide))
@[simp] theorem chargeSplit_u2u (u : US) (d : DS) (a e : Nat) (i : Bool) (n : Nat) (s : State) : (chargeSplit u d a e i n s).u2u = s.u2u :=
  u2u_of_only (chargeSplit_only .u2u u d a e i n s (by decide))
@[simp] theorem chargeSplit_dsd (u : US) (d : DS) (a e : Nat) (i : Bool) (n : Nat) (s : State) : (chargeSplit u d a e i n s).dsd = s.dsd :=
  dsd_of_only (chargeSplit_only .dsd u d a e i n s (by decide))
@[simp] theorem chargeSplit_usd (u : US) (d : DS) (a e : Nat) (i : Bool) (n : Nat) (s : State) : (chargeSplit u d a e i n s).usd = s.usd :=
  usd_of_only (chargeSplit_only .usd u d a e i n s (by decide))
@[simp] theorem chargeSplit_hubs (u : US) (d : DS) (a e : Nat) (i : Bool) (n : Nat) (s : State) : (chargeSplit u d a e i n s).hubs = s.hubs :=
  hubs_of_only (chargeSplit_only .hubs u d a e i n s (by decide))
@[simp] theorem chargeSplit_own (u : US) (d : DS) (a e : Nat) (i : Bool) (n : Nat) (s : State) : (chargeSplit u d a e i n s).own = s.own :=
  own_of_only (chargeSplit_only .own u d a e i n s (by decide))
@[simp] theorem chargeSplit_flt (u : US) (d : DS) (a e : Nat) (i : Bool) (n : Nat) (s : State) : (chargeSplit u d a e i n s).flt = s.flt :=
  flt_of_only (chargeSplit_only .flt u d a e i n s (by decide))
@[simp] theorem chargeSplit_now (u : US) (d : DS) (a e : Nat) (i : Bool) (n : Nat) (s : State) : (chargeSplit u d a e i n s).now = s.now :=
  now_of_only (chargeSplit_only .now u d a e i n s (by decide))
@[simp] theorem chargeSplit_place (u : US) (d : DS) (a e : Nat) (i : Bool) (n : Nat) (s : State) : (chargeSplit u d a e i n s).place = s.place :=
  place_of_only (chargeSplit_only .place u d a e i n s (by decide))
@[simp] theorem ttPort_chargeSplit (u : US) (d : DS) (a e : Nat) (i : Bool) (n : Nat) (s : State) (w : US) (v : Fin 15) :
    ttPort (chargeSplit u d a e i n s) w v = ttPort s w v := by
  simp [ttPort, ownedAt, slotAt, dsOf, usOf, hubOf, ownerOf, portFenced, blockFenced, fltRec, movingNow]
  rfl
@[simp] theorem ttPort_hostSeen (u w : US) (s : State) (v : Fin 15) : ttPort (hostSeen u s) w v = ttPort s w v := by
  simp [ttPort]

end Sys2Proof.Machine
end

