-- ==== Sys2Proof/WellFormed.lean ====
section
/-! DEFINITION. Which commands a sender can form: the operands that a type leaves wider than the field that carries them. A command
that is not well formed has no counterpart on the block's wires. -/

set_option Elab.async false

namespace Sys2Proof

/-- An Almanac word number, 0 to 4,095 (R472). -/
def wordNumberOk (w : Option Nat) : Bool := match w with
  | some n => decide (n < 4096)
  | none => true

/-- A Martar command fits its rings' entries: at most 1,008 payload bytes, 1,004 with a payload check (R425). -/
def Req.wf (r : Req) : Bool :=
  decide (r.payload.length ≤ (if r.flags.toNat % 2 = 1 then 1004 else 1008)) && wordNumberOk r.badWord

/-- The fields of a SuperSpeed header: 20 bits of route string, 7 of address, 4 of endpoint, 5 of sequence and of NumP, 1,024 bytes, 16 of
Stream ID, and a header sequence number below 16. -/
def SsHeader.wf (h : SsHeader) : Bool :=
  decide (h.route < 2 ^ 20 ∧ h.addr < 128 ∧ h.ep < 16 ∧ h.seq < 32 ∧ h.nump < 32 ∧ h.len ≤ 1024 ∧ h.stream < 2 ^ 16 ∧ h.lseq < 16)

/-- The numbers of a link command (R144). -/
def LinkCmd.wf (c : LinkCmd) : Bool := match c with
  | .lgood n => decide (n < 16)
  | .lcrd n => decide (n < 7)
  | .lbad | .lrty => true

/-- The fields of a setup packet. -/
def Setup.wf (q : Setup) : Bool :=
  decide (q.bm < 256 ∧ q.req < 256 ∧ q.value < 65536 ∧ q.index < 65536 ∧ q.length < 65536)

/-- The fields of an endpoint descriptor. -/
def EpDesc.wf (e : EpDesc) : Bool := decide (e.iface < 256 ∧ e.alt < 256 ∧ e.ep < 16 ∧ e.mps ≤ 1024 ∧ e.burst ≤ 16)

/-- The fields of a USB 2.0 packet (R165, R166). -/
def UsbPkt.wf (k : UsbPkt) : Bool := match k with
  | .sof f => decide (f < 2048)
  | .token _ a e c => decide (a < 128 ∧ e < 16 ∧ c < 32)
  | .ext a e c => decide (a < 128 ∧ e < 16 ∧ c < 32)
  | .split h r c => decide (h < 128 ∧ r < 4096 ∧ c < 32)
  | .data _ _ l => decide (l.length ≤ 1024)
  | .handshake _ => true
  | .sub a c => decide (a < 2048 ∧ c < 32)

/-- A command that a sender can form. -/
def Instr.wf (i : Instr) : Bool := match i with
  | .coreRegStatusPoll _ iout _ _ => decide (iout < 65536)
  | .suspendWake cls port detail => decide (1 ≤ cls.val ∧ cls.val ≤ 11 ∧ port < 256 ∧ detail < 16)
  | .pkbScrub word flips _ => decide (word < 524288 ∧ flips < 2 ^ 39)
  | .dramScrubUnit flips => flips.all (fun x => decide ((x.1 < 12 ∧ x.2 < 2 ^ 40) ∨ (x.1 = 12 ∧ x.2 < 2 ^ 32)))
  | .ssHeaderDownstream _ h _ => h.wf
  | .ssHeaderUpstream _ h _ => h.wf
  | .dppReceived _ data _ => decide (data.length ≤ 1024)
  | .itpReceived _ stamp => decide (stamp < 2 ^ 27)
  | .egressSelect _ prio => decide (prio ≤ 1024)
  | .functionWake _ h => h.wf
  | .hsPacketRepeat _ k => k.wf
  | .ssplitNonPeriodic _ _ addr ep _ _ _ _ _ data _ => decide (addr < 128 ∧ ep < 16 ∧ data.length ≤ 64)
  | .csplitNonPeriodic _ _ addr ep _ => decide (addr < 128 ∧ ep < 16)
  | .ssplitPeriodic _ _ addr ep _ _ _ _ data => decide (addr < 128 ∧ ep < 16 ∧ data.length ≤ 1023)
  | .csplitPeriodic _ _ addr ep _ => decide (addr < 128 ∧ ep < 16)
  | .ttFsFrameStart _ frame => decide (frame < 2048)
  | .spilledResultFetch _ addr ep => decide (addr < 128 ∧ ep < 16)
  | .clearTtBuffer _ wValue wIndex => decide (wValue < 65536 ∧ wIndex < 65536)
  | .resetTt _ wIndex => decide (wIndex < 65536)
  | .getTtState _ wIndex => decide (wIndex < 65536)
  | .stopTt _ wIndex => decide (wIndex < 65536)
  | .companionSetInterface _ alt => decide (alt < 256)
  | .dsLpmToken _ _ addr _ besl _ => decide (addr < 128 ∧ besl < 16)
  | .companionLpm _ linkState besl _ => decide (linkState < 16 ∧ besl < 16)
  | .proxyPoll _ ep _ => decide (ep < 16)
  | .hubSetConfiguration _ _ addr value => decide (addr < 128 ∧ value < 256)
  | .deviceControlRequest _ _ _ _ addr q data _ eps => q.wf && decide (addr < 128 ∧ data.length ≤ q.length) && eps.all EpDesc.wf
  | .linkCommandReceived _ c => c.wf
  | .getPortVendorStatus _ _ wIndex => decide (wIndex < 65536)
  | .clearPortVendorStatus _ _ wIndex _ => decide (wIndex < 65536)
  | .setHubDepth _ depth => decide (depth < 65536)
  | .ccAttachDebounce _ _ wet => (match wet with | some w => decide (w.2 < 65536) | none => true)
  | .pdMessageReceived _ _ _ data _ => decide (data.length ≤ 28)
  | .guardReading _ first again _ => decide (first.length ≤ 4 ∧ again.length ≤ 4)
  | .faultLatch _ _ unit _ => decide (unit < 2 ^ 32)
  | .commandTake badWord => wordNumberOk badWord
  | .i2ctCmd4Submit _ data _ => decide (data.length ≤ 255)
  | .i2ctCmd0Submit _ data _ => decide (data.length ≤ 255)
  | .lmfCmd0Submit _ wLength data => decide (wLength < 65536 ∧ data.length ≤ wLength)
  | .lmfCpl0Fetch _ wLength => decide (wLength < 65536)
  | .lmfBulkOut _ packet _ => decide (packet.length ≤ 1024)
  | .pkbPatternCellFree cell _ _ _ => decide (cell < 16384)
  | .usb2PortTest _ _ mode => decide (mode < 256)
  | .usb2TestModeUpstream _ mode => decide (mode < 256)
  | .upstreamLinkTrained _ _ lanes => decide (lanes = 1 ∨ lanes = 2)
  | .identify r | .modeRequest r | .modeStatus r | .laneTimeRead r | .wakeRecordRead r | .portAssign r | .portStatus r
  | .guardRuleSet r | .schedSet r | .shaperSet r | .policerSet r | .observeRead r | .placeStatus r | .placePin r
  | .placeRebuild r | .vigilPolicySet r | .vigilArm r | .vigilStatus r | .captureRead r | .failoverSet r | .failback r
  | .powerBudgetSet r | .portPowerPolicy r | .contractStatus r | .roleSwap r | .guardStatus r | .dpRoute r | .drawerKick r
  | .faultRead r | .faultAck r | .faultInject r | .fence r | .unfence r | .almanacRead r | .almanacWrite r | .almanacWear r
  | .fwStage r | .fwActivate r | .fwStatus r | .loopback r | .echo r | .pattern r | .regRead r | .regWrite r => r.wf
  | .porNAssert _ | .porNRelease _ | .vddAonBrownout _ | .laneSupplyLoss | .sysResetNFall _ _ | .sysResetNRise _
  | .bootComplete _ | .upstreamConnect _ | .recovLoad | .recovFinish _ | .recovAbort | .trialConfirm | .plannedWarmRestart _ _
  | .vddio1v8Loss | .corePgLow _ | .ref25Loss _ | .pllUnlock _ | .xtal32kFail _ | .xtal32kSwitchToCrystal _
  | .aonRcCalibration _ | .aonLow _ | .coreRegTempPoll _ | .oppChangeStart _ | .oppVoltageConfirmed _ | .oppConfirmTimeout
  | .suspendEntry | .sleepEntry _ _ _ | .lovageCcSample _ _ _ | .wakeNPulse _ _ _ | .spitCsNWake _ | .rtcAlarm _
  | .psAlertN _ _ _ _ _ | .laneTimeEdgeCorrection | .dramRefreshRateRead _ | .spillRefill _ | .deferredHeaderDelivery _
  | .egressRecoveryCut _ | .dsLinkIdleTimeout _ _ | .dsDeviceLpmRequest _ _ | .usLinkLpmRequest _ _ | .usLinkIdleTimeout _ _
  | .dsLinkLeavesU0 _ _ | .ttTransactionStart _ | .ttTransactionEnd _ _ | .ttPeriodicSlotRun _ _ | .ttSlotResultExpiry _
  | .babbleDetect _ _ | .portResetRequest _ _ | .deviceChirpK _ _ | .chirpTimeout _ | .portResetEnd _ _
  | .upstreamUsb2Reset _ _ | .ssHotReset _ _ | .ssWarmReset _ _ | .ssResetComplete _ _ | .emptySlotResetComplete _ _
  | .clearPortL1 _ _ | .l1DeviceWake _ | .companionL1Exit _ _ | .refillTick | .observeSample | .placementAgentSample _ _
  | .rebuildStart | .deltaLogMerge | .equinoxSwap | .minimalSwap | .hostAbsence _ _ | .sofKeepingStart _ | .keptSof _
  | .keptPortSuspend _ | .heldDeviceRemoteWake _ | .proxyLpmIdle _ _ | .returningHostFirstPacket _
  | .absorbedResetComplete _ _ _ | .holdExpiry _ _ | .failoverDecision _ | .failoverPortStart _ | .failbackAuto _
  | .failbackDeferTimeout _ | .moveOldOwnerDisconnect _ | .moveDrainComplete _ | .hubReconnect _ | .setPortPower _ _ _
  | .clearPortPower _ _ _ | .setPortU1U2Timeout _ _ _ _ | .setPortRemoteWakeMask _ _ _ | .clearPortChangeFeature _ _ _ _
  | .hubStatusPoll _ _ | .portSuspendRequest _ _ _ | .usb2PortResumeRequest _ _ | .usb2PortResumeEnd _
  | .ssPortResumeRequest _ _ | .companionUpstreamSuspend _ | .ssUpstreamU3 _ | .hostResumeK _ _ | .hostU3Exit _
  | .deviceRemoteWake _ _ _ | .hubEventRemoteWake _ _ _ | .ssReceiverDetectStart _ | .usb2Connect _ _ _ | .ssLinkUp _ _
  | .ssTrainingFail _ | .identityProbe _ _ | .usb2Disconnect _ _ | .ssDisconnect _ _ | .ccPatternChange _ _ _
  | .ccDetachDebounce _ | .errorRecoveryEnd _ | .drpToggle _ | .drpAttachDebounce _ _ | .usPartnerRpChange _ _
  | .usSinkVbusLoss _ | .hardwareDetachGuard _ | .fastRemoval _ _ | .vconnStable _ | .discoverIdentityRetry _
  | .discoveryCutoff _ | .pdTxHandover _ | .pdTxGoodcrcTimeout _ | .pdTxDone _ | .thymeNotice _ | .hardResetReceived _
  | .hardResetSent _ | .cableResetReceived _ | .softResetReceived _ | .thymeActivation _ | .getRevision _ | .pdRequest _
  | .budgetReduction _ | .reductionResponseTimeout _ | .sourceCapsSend _ | .sourceCapsRetry _ | .sinkCapabilitiesReceived _
  | .eprModeEnter _ | .eprModeExit _ | .eprKeepalive _ | .ppsTimeout _ | .eprKeepaliveTimeout _ | .getSinkCapOnDs _
  | .prSwapReceived _ | .drSwapReceived _ | .vconnSwapReceived _ | .swapResponseReceived _ | .swapWaitRetry _ _
  | .prSwapSequence _ | .dataRoleSwapRequest _ | .frsSignal _ | .frSwapReceived _ | .frSwapInitTimeout _
  | .transitionLimitsWrite _ | .adcConversion _ | .transitionTimeout _ | .vbusOvpTrip _ | .vbusUvpTrip _ | .psfRise _ _
  | .stageOcShutdown _ | .stageStatusPoll _ _ _ | .stageVoutIoutPoll _ _ _ _ | .stageTempPoll _ _ _ | .psi2cBusStuck
  | .hardResetVbusOff _ | .hardResetRecover _ | .guardWeekEnd | .dpVdmAck _ | .dpEntryStart _ | .dpVdmTimeout _
  | .dpAttention _ | .hpdTimer _ | .dpExitMode _ | .kickPulseEnd _ | .drawerReport _ | .lioSenseChange _ _ _ | .gpioEdge _ _
  | .levelFaultRepeat _ _ _ | .sageLockstepMismatch | .sageWatchdog _ | .sageTaskLate _ | .chervilHang _ _ | .thymeHang _ _
  | .fabArbStall _ | .tjSample _ | .safeEntry _ | .safeExit _ | .quietPeriodEnd _ _ | .faultAutoAck _ | .fltAckWrite _ _
  | .fltForceWrite _ _ | .availabilityCheckpoint | .spitFrame _ _ _ _ _ _ | .ringTailWrite _ _ | .ringHeadWrite _ _
  | .ringCtrlRun _ _ | .ringCtrlReset _ | .ringGeomWrite _ _ _ | .ringAssignWrite _ | .irqStatusClear _ | .prioDoorbell _
  | .registerWrite _ _ _ | .cpl0EntryExpiry | .i2ctStatus _ _ | .i2ctCpl4Fetch _ _ | .i2ctCpl0Fetch _ _ | .i2ctBusTimeout _
  | .lmfRingStatus _ | .lmfRingReset _ | .lmfBulkIn _ | .lmfInterruptReport _ | .lmfSetConfiguration _ | .loopbackEnd _ _ _
  | .patternComplete _ _ _ _ | .pkbPatternTimeout | .remoteLoopbackRequest _ | .complianceEntry _ _ | .compliancePingLfps _
  | .bistMessage _ | .bistCarrierEnd _ | .jtagInstruction _ _ _ | .ref25Return | .ssPllRelock | .upstreamLinkInactive _ _
  | .upstreamSsReset _ _ | .hubSetFeature _ _ _ | .hostResumeEop _ | .hostChirpKj _ _
  | .u3ExitComplete _ _ | .u3EntryComplete _ _ | .pdSenderResponseTimeout _ => true

end Sys2Proof
end

