-- ==== Sys2Proof/Tests/Slice0.lean ====
section
/-! SUPPORT. The model's own tests: small states, one witness theorem for each statement that has premises, and tests whose expected
results come from the spec's tables. -/

namespace Sys2Proof.Machine

set_option Elab.async false

/-! ### Small states -/

/-- What a boot finds: the straps 0, full training, nothing damaged. -/
def b0 : BootIn := ⟨0, false, .full, 0, 0, 0, 0, [], []⟩
/-- The block in ACTIVE after a cold boot. -/
def up : State := { State.reset with
  sup := { ready := true, enginesHeld := false }
  pmu := { State.reset.pmu with reported := .active }
  clk := { State.reset.clk with tbOn := true } }
/-- Recovery. -/
def rec0 : State := { up with sup := { up.sup with recovery := true, ready := false }, pmu := { up.pmu with reported := .boot } }
/-- A trial image that runs. -/
def trial0 : State := { up with
  fw := { up.fw with trial := true, trialFrom := some 5 }, hubs := up.hubs.map (fun h => { h with everConnected := true }) }
/-- HIBERNATE. -/
def asleep0 : State := { up with pmu := { up.pmu with reported := .hibernate } }
/-- SUSPEND. -/
def susp0 : State := { up with pmu := { up.pmu with reported := .suspend } }
/-- SERVICE. -/
def svc0 : State := { up with pmu := { up.pmu with reported := .service, service := true } }
/-- US0's hub connected to its host. -/
def hubs0 : Vector Hub 2 := up.hubs.map (fun h => { h with state := .attached, connected := true, active := h.conf })
/-- US0 at high speed. -/
def hs0 : State := { up with hubs := hubs0, usd := up.usd.set 0 { speed2 := 2 } }
/-- A high-speed device on DS1. -/
def hs1 : State := { hs0 with dsd := hs0.dsd.set 0 { enable := true, speed2 := some .hs, shown2 := true } }
/-- US0 and DS1 in U0. -/
def ss0 : State := { up with hubs := hubs0, usd := up.usd.set 0 { link := .u0, ssTerm := true }, dsd := up.dsd.set 0 { link := .u0 } }
/-- DS1 in U0 with a U1 timeout on its slot. -/
def lpm0 : State := { ss0 with hubs := ss0.hubs.map (fun h => { h with slots := h.slots.map (fun x => { x with u1 := 7 }) }) }
/-- US0 in U0 with U1 enabled, no downstream link up. -/
def lpm1 : State := { ss0 with dsd := up.dsd, hubs := ss0.hubs.map (fun h => { h with u1Enable := true }) }
/-- A header to virtual port 2. -/
def hdr0 : SsHeader := { kind := .dp, route := 2, addr := 3, ep := 1, dirIn := false, seq := 0, nump := 1, len := 0, deferred := false, delayed := false }
/-- A packet in PKB that came from US0. -/
def pkt0 : Pkt := { h := hdr0, data := [], ingress := 0 }
/-- A queue of OUT endpoint 1 of DS1 with one packet. -/
def epqOut : Epq := { port := 0, daddr := 3, ep := 1, dirIn := false, ss := true, typ := .bulk, mps := 1024, cls := 4, chv := some 0, weight := 1, pkts := [pkt0] }
/-- One packet that waits for DS1. -/
def egr0 : State := { ss0 with epqs := [(0, epqOut)] }
/-- The queue that the scheduler then chooses. -/
def egrQ : Nat × Epq := (egressTagged 2 egr0).epqs.head?.getD (0, epqOut)
/-- Its packet. -/
def egrP : Pkt := egrQ.2.pkts.head?.getD pkt0
/-- A full-speed device on DS1 behind the high-speed host of US0. -/
def tt0 : State := { hs0 with dsd := hs0.dsd.set 0 { enable := true, speed2 := some .fs, shown2 := true } }
/-- Its translator stopped. -/
def tt1 : State := { tt0 with u2d := tt0.u2d.set 0 { tt := { stopped := true } } }
/-- A non-periodic buffer. -/
def buf0 : TtBuf := { addr := 1, ep := 1, dirIn := true, setup := false, ctl := false, low := false, pid := .data0, data := [] }
/-- One buffer pending. -/
def tt2 : State := { tt0 with u2d := tt0.u2d.set 0 { tt := { bufs := [buf0] } } }
/-- Every buffer taken. -/
def tt16 : State := { tt0 with u2d := tt0.u2d.set 0 { tt := { bufs := List.replicate 16 buf0 } } }
/-- A periodic transaction with a result. -/
def per0 : TtPer := { slot := 0, addr := 1, ep := 1, dirIn := true, iso := false, data := [], result := some (.hs .ack) }
/-- One periodic transaction. -/
def tt3 : State := { tt0 with u2d := tt0.u2d.set 0 { tt := { per := [per0] } } }
/-- A device context in READY at DS1. -/
def ctxR : Ctx := { port := 0, speed := 2, st := .ready, daddr := some 3, config := 1 }
/-- A host absent from US0 while DS1 is armed. -/
def keep0 : State := { hs1 with
  u2u := hs1.u2u.set 0 { lastSof := some 0 }
  vig := { hs1.vig with armed := Vector.replicate 16 true, pol := Vector.replicate 16 { mode := 2 }, ctx := [(0, ctxR)] } }
/-- SOF kept for DS1. -/
def keep1 : State := { hs1 with
  hubs := up.hubs, u2u := hs1.u2u.set 0 { keep := some 0 }, vig := { hs1.vig with ctx := [(0, { ctxR with st := .held })] } }
/-- SOF kept for a suspended hub. -/
def keep2 : State := { hs0 with u2u := hs0.u2u.set 0 { keep := some 0 }, usd := up.usd.set 0 { susp2 := true } }
/-- An interrupt IN endpoint that is polled. -/
def epr0 : EpRec := { d := ⟨0, 0, 1, true, .interrupt, 8, 1, 8, 125000⟩, opn := true }
/-- A held device with it. -/
def ctx0 : Ctx := { ctxR with st := .held, eps := [epr0] }
/-- Its queue. -/
def epq0 : Epq := { port := 0, daddr := 3, ep := 1, dirIn := true, ss := false, typ := .interrupt, cls := 2, chv := some 0 }
/-- A held device at DS1 whose host is absent. -/
def vig1 : State := { up with epqs := [(0, epq0)], vig := { up.vig with ctx := [(0, ctx0)] } }
/-- The same. -/
def vig0 : State := vig1
/-- A held device with a BOS that names link power management, nothing polled. -/
def ctx2 : Ctx := { ctxR with st := .held, cache := [((0x0F00, 0), [5, 15, 12, 0, 1, 7, 0x10, 2, 2, 0, 0, 0])] }
/-- That device at DS1. -/
def vig2 : State := { up with vig := { up.vig with ctx := [(0, ctx2)] } }
/-- A device in READY. -/
def ctx3 : Ctx := ctxR
/-- That device with its host present. -/
def vig3 : State := { hs1 with vig := { hs1.vig with ctx := [(0, ctx3)] } }
/-- A device whose returning host is absorbed. -/
def ctx4 : Ctx := { ctxR with st := .absorbing }
/-- That device at DS1, armed in mode 2. -/
def vig4 : State := { hs1 with
  vig := { hs1.vig with armed := Vector.replicate 16 true, pol := Vector.replicate 16 { mode := 2 }, ctx := [(0, ctx4)] } }
/-- A device whose reset is absorbed. -/
def ctx5 : Ctx := { ctxR with st := .absorbing, resetAt := some 0 }
/-- That device at DS1. -/
def vig5 : State := { hs1 with vig := { hs1.vig with ctx := [(0, ctx5)] } }
/-- US0 absent, with US1 as partner. -/
def fo0 : State := { up with fo := { up.fo with hub := up.fo.hub.set 0 { rcd := { partner := some .us1 }, absentAt := some 0 } } }
/-- A port of US0 to fail over to US1. -/
def fo1 : State := { up with
  hubs := up.hubs.set 1 { up.hubs[1] with state := .attached, connected := true, active := up.hubs[1].conf }
  fo := { up.fo with hub := up.fo.hub.set 0 { rcd := { partner := some .us1 }, queue := [0] } } }
/-- A fail-back with no port left. -/
def fo2 : State := { hs0 with fo := { hs0.fo with hub := hs0.fo.hub.set 0 { back := some { cmd := true, queue := [] } } } }
/-- A host back whose DS1 has failed over. -/
def fo3 : State := { hs0 with fo := { hub := hs0.fo.hub.set 0 { upFrom := some 0 }, home := hs0.fo.home.set 0 (some .us0) } }
/-- A fail-back with DS1 deferred. -/
def fo4 : State := { hs0 with fo := {
  hub := hs0.fo.hub.set 0 { back := some { cmd := true, queue := [], deferred := [(0, 5)] } }, home := hs0.fo.home.set 0 (some .us0) } }
/-- A host back whose DS1 may be asked for. -/
def fo5 : State := { hs0 with fo := { hs0.fo with home := hs0.fo.home.set 0 (some .us0) } }
/-- A move before the old owner's disconnect. -/
def mv1 : Move := ⟨some .us1, false, 1, 0, 0, some .us0⟩
/-- Port DS2 without a connector. -/
def unpop : State := { up with pwr := up.pwr.set 3 { pol := { populated := false } } }
/-- A port with VBUS, nothing attached. -/
def att0 : State := { up with dsd := up.dsd.set 0 { watch := true } }
/-- US0 a sink. -/
def snk0 : State := { up with tc := up.tc.set 0 { st := .attached } }
/-- DS2 a source. -/
def src0 : State := { up with tc := up.tc.set 3 { st := .attached, src := true, dfp := true } , pwr := up.pwr.set 3 { psc := true } }
/-- DS2 a source in Hard Reset of its Thyme's shadow: the engine is fenced. -/
def thyd0 : State := setRec (.thy 1) { fltRec up (.thy 1) with reset := true }
  { up with tc := up.tc.set 3 { st := .attached, src := true, dfp := true, lossAt := some 0 } }
/-- A transition from 5 V to 9 V. -/
def vt0 : VTrans := ⟨5000, 9000, 0, 0, 0, 0, 0⟩
/-- A control message. -/
def ctl (n : Nat) : PdMsg := { sop := 0, header := n, data := [] }
/-- A data message. -/
def dat (n : Nat) (l : List Nat) : PdMsg := { sop := 0, header := n + 0x1000 * l.length, data := l.flatMap (le 4) }
/-- A Ping. -/
def msg0 : PdMsg := ctl 5
/-- DS2 a source with a message in hand. -/
def handm (m : PdMsg) : State := { src0 with phy := src0.phy.set 3 { inHand := some m } }
/-- DS2 with a control message in hand. -/
def hand (n : Nat) : State := handm (ctl n)
/-- US0 a sink with a message in hand. -/
def handU (m : PdMsg) : State := { snk0 with phy := snk0.phy.set 0 { inHand := some m } }
/-- The controller's own PR_Swap. -/
def sw0 : Swap := ⟨0, true, 0, 0, 0⟩
/-- US0 with a swap under way. -/
def swapU (m : PdMsg) (w : Swap) : State := { handU m with pwr := (handU m).pwr.set 0 { swap := some w } }
/-- US0 as DFP under an explicit contract. -/
def dfp0 : State := { up with tc := up.tc.set 0 { st := .attached, dfp := true }, pwr := up.pwr.set 0 { con := { kind := 2 } } }
/-- US0 armed for a fast role swap. -/
def frs0 : State := { snk0 with pwr := snk0.pwr.set 0 { frsArm := true } }
/-- US0 after the signal. -/
def frsU (m : PdMsg) : State := { handU m with pwr := (handU m).pwr.set 0 { frsArm := true, frs := some 0 } }
/-- An EPR_KeepAlive. -/
def kal0 : PdMsg := { sop := 0, header := 0x9010, data := [2, 0, 3, 0] }
/-- DS2 before its limits are written. -/
def tr0 : State := { src0 with pwr := src0.pwr.set 3 { psc := true, trans := some vt0, newCon := some { kind := 1 } } }
/-- DS2 after VOUT_COMMAND. -/
def tr1 : State := { src0 with pwr := src0.pwr.set 3 { psc := true, trans := some { vt0 with phase := 1 } } }
/-- The guard of DS2 off, its state WET. -/
def grd0 : State := { up with alm := { up.alm with words := [(0x403, 2)] }, guard := up.guard.set 3 { st := 1 } }
/-- The guard as it stands at reset. -/
def grd1 : State := up
/-- DP0 routed to DS2, in a phase. -/
def dpx (phase : Nat) (due : Option Nat) : State := { src0 with
  pwr := src0.pwr.set 3 { psc := true, con := { kind := 2 } }, dp := src0.dp.set 0 { port := some 1, phase := phase, due := due } }
/-- DP0 routed to DS2 with a message in hand. -/
def dpm (phase : Nat) (m : PdMsg) : State := { dpx phase none with phy := src0.phy.set 3 { inHand := some m } }
/-- A structured VDM; Attention carries a status object. -/
def vdmM (svid pos typ cmd : Nat) : PdMsg :=
  dat 15 ((svid * 65536 + 0x8000 + pos * 256 + typ * 64 + cmd) :: (if cmd = 6 then [0] else []))
/-- A level condition of DMC. -/
def lev0 : LevelCond := ⟨.dmc, 8, 0, 0⟩
/-- SAFE caused by DMC. -/
def safe0 : State := { up with flt := { up.flt with safeCause := some .dmc }, pmu := { up.pmu with reported := .safe } }
/-- SAFE with no re-admission allowed. -/
def safe1 : State := { safe0 with alm := { safe0.alm with words := [(0x51A, 2000)] } }
/-- Nothing in progress. -/
def main0 : State := up
/-- US0 in Polling. -/
def pol0 : State := { hs0 with usd := up.usd.set 0 { link := .polling, ssTerm := true } }
/-- One slot on CMD1 with the given bytes. -/
def cmd1 (l : List Byte) : State := { up with mbx := { up.mbx with
  mem := memWrite 0 [] 2048 l, rings := up.mbx.rings.set 1 { up.mbx.rings[(1 : Fin 16)] with tail := 1 } } }
/-- The header of a command whose SLOTS does not match its LENGTH. -/
def wrongHead : List Byte := le 2 0x101 ++ [0, 2] ++ le 4 0 ++ le 2 0 ++ le 2 0
/-- Such a command at the head of CMD1. -/
def take0 : State := cmd1 (wrongHead ++ le 4 (crc32c wrongHead))
/-- A slot whose header check fails. -/
def take1 : State := cmd1 [1]
/-- An ECHO at the head of CMD1. -/
def take2 : State := cmd1 (entryBytes { opcode := 0x0B02, flags := 0, tag := 7, status := 0, payload := [0x5A] })
/-- That ECHO. -/
def ech0 : Req := ⟨1, .spit, 0, 7, 0, [0x5A], none⟩
/-- A CPL0 entry that I2CT has not consumed. -/
def cp0 : Cpl0Slot := ⟨0, 1, [.i2ct], 0⟩
/-- A CPL0 entry that the LMF of US0 has not consumed. -/
def cp1 : Cpl0Slot := ⟨0, 1, [.lmf .us0], 0⟩
/-- CMD4 full. -/
def full4 : State := { up with mbx := { up.mbx with rings := up.mbx.rings.set 4 { up.mbx.rings[(4 : Fin 16)] with tail := 16 } } }
/-- An entry on CPL4. -/
def cpl4 : State := { up with mbx := { up.mbx with rings := up.mbx.rings.set 12 { up.mbx.rings[(12 : Fin 16)] with tail := 1 } } }
/-- The LMF of US0 reachable. -/
def lmf0 : State := hs0
/-- Its command ring full. -/
def lmf1 : State := { hs0 with mbx := { hs0.mbx with rings := hs0.mbx.rings.set 2 { hs0.mbx.rings[(2 : Fin 16)] with tail := 128 } } }
/-- An entry on its completion ring. -/
def lmf2 : State := { hs0 with mbx := { hs0.mbx with rings := hs0.mbx.rings.set 10 { hs0.mbx.rings[(10 : Fin 16)] with tail := 1 } } }
/-- A capture ring allocated on DS1. -/
def cap0 : State := { up with vig := { up.vig with rings := up.vig.rings.set 0 { alloc := 0, size := 48 } } }
/-- Slot 0 runs. -/
def fw0 : State := up
/-- The first 16 bytes of a directory copy. -/
def dirHead : List Byte := le 4 0x52444C42 ++ le 4 1 ++ le 4 0
/-- Slot 1 staged. -/
def fw1 : State := { up with fw := { up.fw with
  flash := memWrite 0xFF [] 0 (dirHead ++ le 4 (crc32c dirHead) ++ [0x1F, 0xFF, 0x7F, 0xFF]) } }
/-- A trial image that may be confirmed. -/
def fw2 : State := { up with fw := { up.fw with trial := true } }
/-- A loopback on US0. -/
def lp0 : Loop := ⟨1, 0, 5⟩
/-- That loopback under way. -/
def loop0 : State := { svc0 with test := { svc0.test with loops := [(0, lp0)] } }
/-- A pattern test whose cells are done. -/
def pat0 : Pat := { pattern := 1, start := 0xB0000, bytes := 0, startAt := 0 }
/-- A pattern test of two cells. -/
def pat1 : Pat := { pattern := 1, start := 0xB0000, bytes := 256, startAt := 0 }
/-- A BIST message in hand in SERVICE. -/
def bist0 (m : PdMsg) : State := { handm m with pmu := { up.pmu with reported := .service, service := true } }
/-- A device's identity. -/
def id0 : DevId := ⟨0x1234, 0x5678, (0, 0, 0), []⟩
/-- A command on CMD1. -/
def rq (target : BitVec 16) (l : List Byte) : Req := ⟨1, .spit, 0, 7, target, l, none⟩
/-- A queue of IN endpoint 1 of DS1. -/
def epq1 : Epq := { port := 0, daddr := 3, ep := 1, dirIn := true, ss := true, typ := .bulk, mps := 1024, cls := 4 }
/-- That queue open. -/
def epq1s : State := { up with epqs := [(0, epq1)] }

/-- A queue of OUT endpoint 1 of DS1 with one spilled packet. -/
def epqSpl : Epq := { epqOut with pkts := [{ pkt0 with loc := .dram, data := [1] }] }
/-- That queue open. -/
def spl0 : State := { ss0 with epqs := [(0, epqSpl)] }
/-- US0 between a data packet's header and its payload. -/
def rxs0 (x : Disp) : State :=
  { ss0 with links := ss0.links.set 0 { rx := some { h := hdr0, disp := x, out := 2, epq := some 0, red := false } } }
/-- A packet without an open queue that waits for DS1. -/
def loo0 : State := { ss0 with links := ss0.links.set 2 { loose := [{ pkt0 with tag := some 0 }] } }
/-- The queue of endpoint 1 of the full-speed device. -/
def epqTt : Epq := { port := 0, daddr := 1, ep := 1, dirIn := true, ss := false, typ := .interrupt, cls := 2, chv := some 0, weight := 1 }
/-- One non-periodic buffer. -/
def ttb (b : TtBuf) : State := { tt0 with u2d := tt0.u2d.set 0 { tt := { bufs := [b] } } }
/-- A buffer whose result stands in DRAM. -/
def spd0 : TtBuf := { buf0 with st := .done, result := some (.hs .ack), spilled := true }
/-- Sixteen start-splits for the next microframe. -/
def ttf0 : State := { tt0 with u2d := tt0.u2d.set 0 { tt := { per := List.replicate 16 { per0 with slot := 1, addr := 2, result := none } } } }
/-- A SuperSpeed device whose returning host is absorbed. -/
def ctxSs : Ctx := { ctx4 with speed := 4 }
/-- That device at DS1, armed in mode 2. -/
def ssv0 : State := { ss0 with
  vig := { ss0.vig with armed := Vector.replicate 16 true, pol := Vector.replicate 16 { mode := 2 }, ctx := [(0, ctxSs)] } }
/-- A move whose drain is under way. -/
def mv2 : Move := ⟨some .us1, false, 2, 0, 0, some .us0⟩

/-- What holds of every member of an empty option. -/
theorem none_all {α : Type} {P : α → Prop} {o : Option α} (h : o = none) : ∀ c, o = some c → P c :=
  fun _ hc => nomatch h.symm.trans hc

/-- A pool of the fabric that lends no credit has one to give. -/
theorem fabOpen_idle (s : State) (vc : Nat) (rsp : Bool) (h : fabHeld s vc rsp = 0) : fabOpen s vc rsp = true := by
  simp [fabOpen, fabPool, h]

/-- The only queue is chosen where it is eligible. -/
theorem wfqBest_one {s : State} {l : Port} {e : Nat × Epq} (h : s.epqs = [e]) (he : eligible s e.1 e.2 l = true) :
    wfqBest s l = some e := by
  simp [wfqBest, h, he]

/-- A list of one member. -/
theorem list_one {α : Type} {l : List α} (d : α) (h : l.length = 1) : l = [l.head?.getD d] :=
  match l, h with
  | [_], _ => rfl

/-- The queue of one packet is eligible. -/
theorem egr_eligible : eligible (egressTagged 2 egr0) egrQ.1 egrQ.2 2 = true := by
  have h : egrQ.2.pkts = [egrP] := by decide +kernel
  unfold eligible
  rw [h]
  dsimp only
  rw [fabOpen_idle _ _ _ (by decide +kernel)]
  decide +kernel

/-- The packet goes out. -/
theorem loose_sent : (sendLoose 2 (egressReady 2 loo0)).isSome = true := by
  have h : (linkOf (egressReady 2 loo0) 2).loose = [{ pkt0 with tag := some 0 }] := by decide +kernel
  unfold sendLoose
  rw [h]
  dsimp only
  rw [fabOpen_idle _ _ _ (by decide +kernel), if_pos (by decide +kernel)]
  rfl

/-- The result comes back. -/
theorem spd_back : (unspill (ttb spd0) 0 spd0).isSome = true := by decide +kernel

/-- The first unit of spill space lies inside every DRAM that R84 allows. -/
theorem pattern_fits : patternIn (spillStart svc0) usableEnd 48 (fld (rq (blockId .dmc) ([1, 0, 0, 0] ++ le 8 (spillStart svc0) ++
    le 8 48)).payload 4 8) (fld (rq (blockId .dmc) ([1, 0, 0, 0] ++ le 8 (spillStart svc0) ++ le 8 48)).payload 12 8) = true := by
  have h : ∀ c : Fin 3, patternIn (spillStart svc0) ((BitVec.ofNat 16 (2048 * 2 ^ c.val)).toNat * 3 / 4 * 1048576) 48
      (spillStart svc0) 48 = true := by decide +kernel
  have h1 : fld (rq (blockId .dmc) ([1, 0, 0, 0] ++ le 8 (spillStart svc0) ++ le 8 48)).payload 4 8 = spillStart svc0 := by
    decide +kernel
  have h2 : fld (rq (blockId .dmc) ([1, 0, 0, 0] ++ le 8 (spillStart svc0) ++ le 8 48)).payload 12 8 = 48 := by decide +kernel
  rw [h1, h2]
  exact h Config.dramFit

/-! ### Every statement's premises are met -/

/-- The premises of PowerOnResetPathsRun, clause by clause. -/
theorem witness_PowerOnResetPathsRun :
    (∃ (s : State) (n : Nat), s.sup.aon = true ∧ 8 ≤ n) ∧
    (∃ (s : State) (n : Nat), s.sup.aon = true ∧ 1000 ≤ n) ∧
    (∃ (s : State), True) ∧
    (∃ (s : State) (b : BootIn), s.sup.porLow = true) ∧
    (∃ (s : State) (n : Nat) (ok : Bool), 8 ≤ n ∧ s.sup.aon = true ∧ s.sup.porLow = false ∧ s.sup.mainOn = true ∧ s.sup.ballsFloat = false ∧ s.sup.sysLow = false) ∧
    (∃ (s : State) (b : BootIn), s.sup.sysLow = true) ∧
    (∃ (s : State) (ok : Bool) (b : BootIn) (x : Nat), s.sup.restartAt = some x) :=
  ⟨⟨up, 8, by decide +kernel⟩,
   ⟨up, 1000, by decide +kernel⟩,
   ⟨up, by decide +kernel⟩,
   ⟨State.reset, b0, by decide +kernel⟩,
   ⟨up, 8, true, by decide +kernel⟩,
   ⟨{ up with sup := { up.sup with sysLow := true } }, b0, by decide +kernel⟩,
   ⟨{ up with sup := { up.sup with restartAt := some 5 } }, true, b0, 5, by decide +kernel⟩⟩

/-- The premises of BootAndRecoveryRun, clause by clause. -/
theorem witness_BootAndRecoveryRun :
    (∃ (s : State) (a : Option RegBoot), s.pmu.reported = .boot ∧ s.sup.ready = true ∧ s.sup.sysLow = false) ∧
    (∃ (s : State) (u : US), mayConnect s u = true) ∧
    (∃ (s : State), inRecovery s = true ∧ 1 ≤ s.fw.recLength ∧ s.fw.recLength ≤ 65536) ∧
    (∃ (s : State) (b : BootIn), inRecovery s = true) ∧
    (∃ (s : State), inRecovery s = true) ∧
    (∃ (s : State) (x : Nat), s.fw.trialFrom = some x ∧ s.fw.trial = true ∧ trialMode s.pmu.reported = true ∧ allConnectedOnce s = true ∧ almExhausted s.alm (rollbackWrites s) = false) :=
  ⟨⟨{ up with pmu := { up.pmu with reported := .boot } }, none, by decide +kernel⟩,
   ⟨{ up with tc := up.tc.set 0 { st := .attached } }, .us0, by decide +kernel⟩,
   ⟨{ rec0 with fw := { rec0.fw with recLength := 4 } }, by decide +kernel⟩,
   ⟨rec0, b0, by decide +kernel⟩,
   ⟨rec0, by decide +kernel⟩,
   ⟨trial0, 5, by decide +kernel⟩⟩

/-- The premises of ClockAndRegulatorEventsRun, clause by clause. -/
theorem witness_ClockAndRegulatorEventsRun :
    (∃ (s : State), mainUp s = true ∧ s.sup.ballsFloat = false) ∧
    (∃ (s : State) (n : Nat), mainUp s = true ∧ 2000 ≤ n ∧ s.pmu.inProg = none ∧ s.pmu.change = none) ∧
    (∃ (s : State) (n : Nat), mainUp s = true ∧ 4000 ≤ n ∧ s.clk.refLost = none) ∧
    (∃ (s : State) (w : Pll), mainUp s = true) ∧
    (∃ (s : State) (n : Nat), s.sup.aon = true ∧ s.sup.porLow = false ∧ 2000000 ≤ n ∧ s.clk.fallback = false) ∧
    (∃ (s : State) (n : Nat), s.sup.aon = true ∧ s.sup.porLow = false ∧ 1000000000 ≤ n) ∧
    (∃ (s : State) (n : Nat), mainUp s = true ∧ s.clk.tbOn = true ∧ s.clk.refLost = none) ∧
    (∃ (s : State) (n : Nat), s.sup.aon = true ∧ s.sup.porLow = false ∧ 1000000 ≤ n) ∧
    (∃ (s : State) (w : BitVec 16) (n : Nat) (v i : Byte), regPolled s = true) ∧
    (∃ (s : State) (n : Nat), regPolled s = true) :=
  ⟨⟨up, by decide +kernel⟩,
   ⟨up, 2000, by decide +kernel⟩,
   ⟨up, 4000, by decide +kernel⟩,
   ⟨up, .core, by decide +kernel⟩,
   ⟨{ up with clk := { up.clk with fallback := false } }, 2000000, by decide +kernel⟩,
   ⟨up, 1000000000, by decide +kernel⟩,
   ⟨up, 25000001, by decide +kernel⟩,
   ⟨up, 1000000, by decide +kernel⟩,
   ⟨up, 4, 5, 0, 0, by decide +kernel⟩,
   ⟨up, 40, by decide +kernel⟩⟩

/-- The premises of OperatingPointAndSuspendRun, clause by clause. -/
theorem witness_OperatingPointAndSuspendRun :
    (∃ (s : State) (e : Bool) (x : Trans), s.pmu.pend = some x ∧ s.pmu.inProg = none ∧ x.opp ≠ 0 ∧ x.opp ≠ s.pmu.opp ∧ e = false) ∧
    (∃ (s : State) (n y : Nat) (x : OppChange), s.pmu.change = some x ∧ y = (if x.reverting then x.fromOpp else x.toOpp) ∧ s.sup.corePg = true ∧ oppMv y * 97 ≤ n * 100 ∧ n * 100 ≤ oppMv y * 103) ∧
    (∃ (s : State) (x : OppChange), s.pmu.change = some x ∧ x.reverting = false) ∧
    (∃ (s : State) (x : Nat), s.pmu.suspendSince = some x ∧ suspendCond s = true ∧ entering s = false ∧ isExclusive s.pmu.reported = false) ∧
    (∃ (s : State) (c : Fin 16) (p d : Nat), 1 ≤ c.val ∧ c.val ≤ 11 ∧ s.pmu.reported = .suspend ∧ entering s = false) ∧
    (∃ (s : State), s.clk.interp = true) :=
  ⟨⟨{ up with pmu := { up.pmu with pend := some { target := .peak, opp := 3 } } }, false, { target := .peak, opp := 3 }, by decide +kernel⟩,
   ⟨{ up with pmu := { up.pmu with change := some { fromOpp := 2, toOpp := 3, raising := true, startAt := 0 } } }, (oppMv 3), 3, { fromOpp := 2, toOpp := 3, raising := true, startAt := 0 }, by decide +kernel⟩,
   ⟨{ up with pmu := { up.pmu with change := some { fromOpp := 2, toOpp := 1, raising := false, startAt := 0 } } }, { fromOpp := 2, toOpp := 1, raising := false, startAt := 0 }, by decide +kernel⟩,
   ⟨{ up with hubs := up.hubs.map (fun h => { h with state := .suspended }), pmu := { up.pmu with suspendSince := some 0 } }, 0, by decide +kernel⟩,
   ⟨{ up with pmu := { up.pmu with reported := .suspend } }, 1, 0, 0, by decide +kernel⟩,
   ⟨{ up with clk := { up.clk with interp := true } }, by decide +kernel⟩⟩

/-- The premises of SleepAndWakesRun, clause by clause. -/
theorem witness_SleepAndWakesRun :
    (∃ (s : State) (n : Nat) (ok : Bool) (b : BootIn) (x : Trans), s.pmu.inProg = some x ∧ sleepMode x.target = true ∧ s.pmu.reported ≠ .boot ∧ s.sup.porLow = false ∧ (kicksEnded s).sup.latch = none ∧ (x.alarm = 0 ∨ (kicksEnded s).now < x.alarm)) ∧
    (∃ (s : State) (p : Port) (c : CcPattern) (b : BootIn), asleep s = true ∧ populated s p = true ∧ c ≠ (tcOf s p).pattern ∧ s.sup.ccSeen.contains (p.val, patternCode c) = true) ∧
    (∃ (s : State) (g w : Nat) (b : BootIn), s.sup.aon = true ∧ s.sup.porLow = false ∧ s.sup.wakeEdges = 2 ∧ s.sup.wakeWindow + g < 50000000 ∧ 1000000 ≤ w ∧ w ≤ 5000000 ∧ asleep s = true) ∧
    (∃ (s : State) (b : BootIn), asleep s = true) ∧
    (∃ (s : State) (b : BootIn), s.clk.alarm ≠ 0 ∧ asleep s = true) ∧
    (∃ (s : State) (p : Port) (w : BitVec 16) (f : Bool) (n : Nat) (b : BootIn), asleep s = true) :=
  ⟨⟨{ up with pmu := { up.pmu with inProg := some { target := .hibernate, opp := 0 } } }, 0, true, b0, { target := .hibernate, opp := 0 }, by decide +kernel⟩,
   ⟨{ asleep0 with sup := { asleep0.sup with ccSeen := [(3, patternCode .rdOne)] } }, 3, .rdOne, b0, by decide +kernel⟩,
   ⟨{ asleep0 with sup := { asleep0.sup with wakeEdges := 2 } }, 1000, 1000000, b0, by decide +kernel⟩,
   ⟨asleep0, b0, by decide +kernel⟩,
   ⟨{ asleep0 with clk := { asleep0.clk with alarm := 5 } }, b0, by decide +kernel⟩,
   ⟨asleep0, 3, 0, false, 0, b0, by decide +kernel⟩⟩

/-- The premises of MemoryHousekeepingRuns, clause by clause. -/
theorem witness_MemoryHousekeepingRuns :
    (∃ (s : State) (w n : Nat) (o : Bool), asleep s = false ∧ w < 524288) ∧
    (∃ (s : State) (l : List (Nat × Nat)), s.sup.selfRefresh = false ∧ s.sup.ready = true ∧ s.pmu.reported ≠ .suspend) ∧
    (∃ (s : State) (n : Nat), s.sup.selfRefresh = false) ∧
    (∃ (s : State) (q i : Nat) (e : Epq) (c : Fin 8) (l : List Nat), epqOf s q = some e ∧ e.pkts.findIdx? (fun x => x.loc == .dram) = some i ∧ e.chv = some c ∧ (e.pkts.filter (fun x => x.loc == .pkb)).length < 2 * e.burst ∧ overThreshold s = false ∧ queueTag s e = true ∧ (epqCells e + cellsOf (((e.pkts[i]?).map (·.data.length)).getD 0)) * 128 ≤ e.capPkb ∧ fabOpen s 3 true = true ∧ chvFenced s c = false ∧ takeCells s 4 e.port (cellsOf (((e.pkts[i]?).map (·.data.length)).getD 0)) = some l) :=
  ⟨⟨up, 40, 1, false, by decide +kernel⟩,
   ⟨up, [], by decide +kernel⟩,
   ⟨up, 2, by decide +kernel⟩,
   ⟨spl0, 0, 0, epqSpl, 0, [5632], by decide +kernel, by decide +kernel, by decide +kernel, by decide +kernel, by decide +kernel,
    by decide +kernel, by decide +kernel, fabOpen_idle _ _ _ rfl, by decide +kernel, by decide +kernel⟩⟩

/-- The premises of SuperspeedForwardingRuns, clause by clause. -/
theorem witness_SuperspeedForwardingRuns :
    (∃ (s : State) (u : US) (h : SsHeader) (d : DS) (n : Nat), (usOf s u).link = .u0 ∧ (hubOf s u).connected = true ∧ (linkIn (usPort u) h true (begun s)).2 = true ∧ nibble h.route (hubOf s u).depth = n + 1 ∧ (hubOf s u).active[n]? = some (.port d) ∧ ownerOf s d = some u ∧ movingNow s d = false) ∧
    (∃ (s : State) (u : US) (h : SsHeader) (b : Bool), (usOf s u).link = .u0 ∧ (hubOf s u).connected = true ∧ (linkIn (usPort u) h b (begun s)).2 = false) ∧
    (∃ (s : State) (d : DS) (h : SsHeader) (u : US), (dsOf s d).link = .u0 ∧ (linkIn (dsPort d) h true (begun s)).2 = true ∧ underVigil s d = false ∧ ownerOf s d = some u ∧ (hubOf s u).connected = true ∧ h.kind ≠ .ack) ∧
    (∃ (s : State) (d : DS) (h : SsHeader) (b : Bool), (dsOf s d).link = .u0 ∧ (linkIn (dsPort d) h b (begun s)).2 = false) ∧
    (∃ (s : State) (p : Port) (l : List Byte) (c : Bool) (x : RxDp), (linkOf (begun s) p).rx = some x ∧ x.disp = .store) ∧
    (∃ (s : State) (p : Port) (l : List Byte) (c : Bool) (x : RxDp) (o : Port), (linkOf (begun s) p).rx = some x ∧ x.disp = .cut o) ∧
    (∃ (s : State) (p : Port) (l : List Byte) (c : Bool) (x : RxDp), (linkOf (begun s) p).rx = some x ∧ x.disp = .drop) ∧
    (∃ (s : State) (u : US) (n : Nat), (usOf s u).link = .u0 ∧ (hubOf s u).connected = true) ∧
    (∃ (s : State) (d : DS), (linkOf s (dsPort d)).exiting = true) ∧
    (∃ (s : State) (d : DS) (h : SsHeader) (u : US), (dsOf s d).link = .u0 ∧ underVigil s d = false ∧ ownerOf s d = some u ∧ (hubOf s u).connected = true) ∧
    (∃ (s : State) (p : Port) (h : SsHeader) (l : List SsHeader), (linkOf s p).retry = h :: l) ∧
    (∃ (s : State) (p : Port) (n : Nat) (h : SsHeader) (l : List SsHeader), (linkOf s p).retry = h :: l ∧ h.lseq ≠ n) ∧
    (∃ (s : State) (p : Port), True) ∧
    (∃ (s : State) (p : Port), True) ∧
    (∃ (s : State) (p : Port), True) ∧
    (∃ (s : State) (p : Port) (n : Nat), n ≠ (linkOf s p).txCrd) :=
  ⟨⟨ss0, .us0, hdr0, 0, 1, by decide +kernel⟩,
   ⟨ss0, .us0, hdr0, false, by decide +kernel⟩,
   ⟨ss0, 0, hdr0, .us0, by decide +kernel⟩,
   ⟨ss0, 0, hdr0, false, by decide +kernel⟩,
   ⟨rxs0 .store, 0, [], true, { h := hdr0, disp := .store, out := 2, epq := some 0, red := false }, by decide +kernel⟩,
   ⟨rxs0 (.cut 2), 0, [], true, { h := hdr0, disp := .cut 2, out := 2, epq := some 0, red := false }, 2, by decide +kernel⟩,
   ⟨rxs0 .drop, 0, [], true, { h := hdr0, disp := .drop, out := 2, epq := some 0, red := false }, by decide +kernel⟩,
   ⟨ss0, .us0, 7, by decide +kernel⟩,
   ⟨{ ss0 with links := ss0.links.set 2 { exiting := true } }, 0, by decide +kernel⟩,
   ⟨ss0, 0, hdr0, .us0, by decide +kernel⟩,
   ⟨{ ss0 with links := ss0.links.set 0 { retry := [hdr0] } }, 0, hdr0, [], by decide +kernel⟩,
   ⟨{ ss0 with links := ss0.links.set 0 { retry := [hdr0] } }, 0, 3, hdr0, [], by decide +kernel⟩,
   ⟨up, 0, by decide +kernel⟩,
   ⟨up, 0, by decide +kernel⟩,
   ⟨up, 0, by decide +kernel⟩,
   ⟨up, 0, 1, by decide +kernel⟩⟩

/-- The premises of SuperspeedLinkStatesRun, clause by clause. -/
theorem witness_SuperspeedLinkStatesRun :
    (∃ (s : State) (p : Port) (n : Nat), cutting (begun s) p = true) ∧
    (∃ (s : State) (p : Port) (n : Nat), cutting (begun s) p = false ∧ 0 < n ∧ (portUs p).isSome = true ∧ linkOpen (egressFreed p s) p = true ∧ 0 < (linkOf (egressFreed p s) p).credits ∧ (linkOf (egressFreed p s) p).prioUsed + n ≤ 16384) ∧
    (∃ (s t1 : State) (p : Port), cutting (begun s) p = false ∧ sendLoose p (egressReady p s) = some t1) ∧
    (∃ (s : State) (p : Port), cutting (begun s) p = false ∧ sendLoose p (egressReady p s) = none ∧ wfqBest (egressTagged p s) p = none) ∧
    (∃ (s : State) (p : Port) (e : Nat × Epq) (x : Pkt) (l : List Pkt), cutting (begun s) p = false ∧ sendLoose p (egressReady p s) = none ∧ (linkOf (egressTagged p s) p).tx = none ∧ wfqBest (egressTagged p s) p = some e ∧ e.2.pkts = x :: l) ∧
    (∃ (s : State) (p : Port) (q : Option Nat), (linkOf s p).tx = some q ∧ cutting s p = false) ∧
    (∃ (s : State) (p : Port) (q : Option Nat), (linkOf s p).tx = some q ∧ cutting s p = true) ∧
    (∃ (s : State) (d : DS) (b : Bool), ((dsOf s d).link = .u0 ∨ (b = true ∧ (dsOf s d).link = .u1)) ∧ dsLpmOk s d b = true) ∧
    (∃ (s : State) (d : DS) (b : Bool), (dsOf s d).link = .u0) ∧
    (∃ (s : State) (u : US) (b : Bool), (usOf s u).link = .u0) ∧
    (∃ (s : State) (u : US) (b : Bool), ((usOf s u).link = .u0 ∨ (b = true ∧ (usOf s u).link = .u1)) ∧ usLpmOk s u b = true) ∧
    (∃ (s : State) (d : DS) (c : LeaveCause), ((dsOf s d).link = .u0 ∨ (dsOf s d).link = .u1 ∨ (dsOf s d).link = .u2 ∨ (dsOf s d).link = .recovery)) :=
  ⟨⟨{ ss0 with links := (rxs0 (.cut 2)).links.set 2 { tx := some none } }, 2, 0, by decide +kernel⟩,
   ⟨ss0, 0, 100, by decide +kernel⟩,
   ⟨loo0, (sendLoose 2 (egressReady 2 loo0)).get loose_sent, 2, by decide +kernel, (Option.some_get loose_sent).symm⟩,
   ⟨ss0, 0, by decide +kernel⟩,
   ⟨egr0, 2, egrQ, egrP, egrQ.2.pkts.drop 1, by decide +kernel, by decide +kernel, by decide +kernel,
    wfqBest_one (list_one _ (by decide +kernel)) egr_eligible, by decide +kernel⟩,
   ⟨{ ss0 with links := ss0.links.set 0 { tx := some none } }, 0, none, by decide +kernel⟩,
   ⟨{ ss0 with links := (rxs0 (.cut 2)).links.set 2 { tx := some none } }, 2, none, by decide +kernel⟩,
   ⟨lpm0, 0, false, by decide +kernel⟩,
   ⟨ss0, 0, false, by decide +kernel⟩,
   ⟨ss0, .us0, false, by decide +kernel⟩,
   ⟨lpm1, .us0, false, by decide +kernel⟩,
   ⟨ss0, 0, .exitFail, by decide +kernel⟩⟩

/-- The premises of RepeatedPacketsRun, clause by clause. -/
theorem witness_RepeatedPacketsRun :
    (∃ (s : State) (u : US) (k : UsbPkt), (hubOf s u).connected = true ∧ (usOf s u).speed2 = 2 ∧ (usOf s u).susp2 = false) ∧
    (∃ (s : State) (d : DS) (k : UsbPkt) (u : US), hsOpen s d = true ∧ underVigil s d = false ∧ hsPastEof1 s d = false ∧ ownerOf s d = some u ∧ (hubOf s u).connected = true ∧ (usOf s u).speed2 = 2 ∧ s.u2d[d].latch = none) ∧
    (∃ (s : State) (d : DS) (b : Bool), (dsOf s d).enable = true) ∧
    (∃ (s : State) (d : DS) (v : Bool) (x : Nat) (a : Option Hsk) (n : Nat) (w : Bool) (u : US), ownerOf s d = some u ∧ v = false ∧ hsOpen s d = true ∧ (usOf s u).speed2 = 2) ∧
    (∃ (s : State) (d : DS) (v : Bool) (x : Nat) (a : Option Hsk) (n : Nat) (w : Bool) (u : US), ownerOf s d = some u ∧ v = true ∧ (usOf s u).speed2 = 2 ∧ (dsOf s d).enable = true) ∧
    (∃ (s : State) (u : US) (v : Fin 15) (d : DS), ownedAt s u v = some d ∧ (hubOf s u).connected = true ∧ (dsOf s d).l1 = true) ∧
    (∃ (s : State) (d : DS), (dsOf s d).l1 = true ∧ s.u2d[d].l1Wake = true) ∧
    (∃ (s : State) (u : US) (n b : Nat) (w : Bool), (hubOf s u).connected = true ∧ (usOf s u).susp2 = false ∧ (usOf s u).l1 = false) ∧
    (∃ (s : State) (u : US) (x : Option DS), (usOf s u).l1 = true ∧ x = none) ∧
    (∃ (s : State) (u : US) (x : Option DS) (d : DS), (usOf s u).l1 = true ∧ x = some d ∧ ownerOf s d = some u) :=
  ⟨⟨hs0, .us0, (.handshake .ack), by decide +kernel⟩,
   ⟨hs1, 0, (.handshake .ack), .us0, by decide +kernel⟩,
   ⟨hs1, 0, false, by decide +kernel⟩,
   ⟨hs1, 0, false, 0, (some .ack), 4, true, .us0, by decide +kernel⟩,
   ⟨hs1, 0, true, 0, none, 4, true, .us0, by decide +kernel⟩,
   ⟨{ hs1 with dsd := hs1.dsd.set 0 { enable := true, speed2 := some .hs, l1 := true } }, .us0, 1, 0, by decide +kernel⟩,
   ⟨{ hs1 with dsd := hs1.dsd.set 0 { enable := true, speed2 := some .hs, l1 := true }, u2d := hs1.u2d.set 0 { l1Wake := true } }, 0, by decide +kernel⟩,
   ⟨hs0, .us0, 1, 4, true, by decide +kernel⟩,
   ⟨{ hs0 with usd := hs0.usd.set 0 { l1 := true } }, .us0, none, by decide +kernel⟩,
   ⟨{ hs0 with usd := hs0.usd.set 0 { l1 := true } }, .us0, (some 0), 0, by decide +kernel⟩⟩

/-- The premises of TranslatorsRun, clause by clause. -/
theorem witness_TranslatorsRun :
    (∃ (s : State) (u : US) (v : Fin 15) (a e : Nat) (i p c l : Bool) (k : DPid) (b : List Byte) (o : Bool) (d : DS), ttPort s u v = some d ∧ (i = true ∨ (o = true ∧ b.length ≤ ttMax l)) ∧ s.u2d[d].tt.stopped = true) ∧
    (∃ (s : State) (u : US) (v : Fin 15) (a e : Nat) (i p c l : Bool) (k : DPid) (b : List Byte) (o : Bool) (d : DS), ttPort s u v = some d ∧ (i = true ∨ (o = true ∧ b.length ≤ ttMax l)) ∧ s.u2d[d].tt.stopped = false ∧ s.u2d[d].tt.bufs.length < 16 ∧ s.u2d[d].tt.bufs.find? (ttMatch a e i) = none) ∧
    (∃ (s : State) (u : US) (v : Fin 15) (a e : Nat) (i p c l : Bool) (k : DPid) (b : List Byte) (o : Bool) (d : DS), ttPort s u v = some d ∧ (i = true ∨ (o = true ∧ b.length ≤ ttMax l)) ∧ s.u2d[d].tt.stopped = false ∧ 16 ≤ s.u2d[d].tt.bufs.length ∧ s.u2d[d].tt.bufs.find? (ttMatch a e i) = none) ∧
    (∃ (s : State) (u : US) (v : Fin 15) (a e : Nat) (i : Bool) (d : DS) (b : TtBuf), ttPort s u v = some d ∧ s.u2d[d].tt.bufs.find? (fun x => ttMatch a e i x && !x.freeAtEnd) = some b ∧ (b.st = .pending ∨ b.st = .executing)) ∧
    (∃ (s : State) (u : US) (v : Fin 15) (a e : Nat) (i : Bool) (d : DS) (b : TtBuf) (r : UsbResp), ttPort s u v = some d ∧ s.u2d[d].tt.bufs.find? (fun x => ttMatch a e i x && !x.freeAtEnd) = some b ∧ b.st = .done ∧ b.result = some r ∧ (b.spilled = false ∨ b.dirIn = false)) ∧
    (∃ (s : State) (d : DS) (b : TtBuf), s.u2d[d].tt.bufs = [b] ∧ ttMayStart s d b = true ∧ b.spilled = false ∧ s.u2d[d].tt.stopped = false ∧ periodicReady s d = false ∧ (dsOf s d).enable = true ∧ (dsOf s d).test2 = 0) ∧
    (∃ (s : State) (d : DS) (r : Option UsbResp) (b : TtBuf), s.u2d[d].tt.bufs = [b] ∧ b.st = .executing ∧ b.freeAtEnd = false ∧ ttAnswer b r = none) ∧
    (∃ (s : State) (d : DS) (r : Option UsbResp) (b : TtBuf) (x : UsbResp), s.u2d[d].tt.bufs = [b] ∧ b.st = .executing ∧ b.freeAtEnd = false ∧ ttAnswer b r = some x) ∧
    (∃ (s : State) (d : DS) (r : Option UsbResp) (b : TtBuf), s.u2d[d].tt.bufs = [b] ∧ b.st = .executing ∧ b.freeAtEnd = true) ∧
    (∃ (s : State) (u : US) (n : Nat), (hubOf s u).connected = true ∧ (usOf s u).speed2 = 2 ∧ (usOf s u).susp2 = false) :=
  ⟨⟨tt1, .us0, 1, 1, 1, true, false, false, false, .data0, [], true, 0, by decide +kernel⟩,
   ⟨tt0, .us0, 1, 1, 1, true, false, true, false, .data0, [], true, 0, by decide +kernel⟩,
   ⟨tt16, .us0, 1, 2, 1, true, false, true, false, .data0, [], true, 0, by decide +kernel⟩,
   ⟨tt2, .us0, 1, 1, 1, true, 0, buf0, by decide +kernel⟩,
   ⟨ttb { buf0 with st := .done, result := some (.hs .ack) }, .us0, 1, 1, 1, true, 0, { buf0 with st := .done, result := some (.hs .ack) }, (.hs .ack), by decide +kernel⟩,
   ⟨{ tt2 with epqs := [(0, epqTt)] }, 0, buf0, by decide +kernel⟩,
   ⟨ttb { buf0 with st := .executing }, 0, none, { buf0 with st := .executing }, by decide +kernel⟩,
   ⟨ttb { buf0 with st := .executing }, 0, some (.hs .ack), { buf0 with st := .executing }, (.hs .ack), by decide +kernel⟩,
   ⟨{ tt2 with u2d := tt2.u2d.set 0 { tt := { bufs := [{ buf0 with st := .executing, freeAtEnd := true }] } } }, 0, none, { buf0 with st := .executing, freeAtEnd := true }, by decide +kernel⟩,
   ⟨tt0, .us0, 7, by decide +kernel⟩⟩

/-- The premises of PeriodicTranslatorRuns, clause by clause. -/
theorem witness_PeriodicTranslatorRuns :
    (∃ (s : State) (u : US) (v : Fin 15) (a e : Nat) (i o l : Bool) (k : DPid) (b : List Byte) (d : DS), ttPort s u v = some d ∧ s.u2d[d].tt.stopped = true) ∧
    (∃ (s : State) (u : US) (v : Fin 15) (a e : Nat) (i o l : Bool) (k : DPid) (b : List Byte) (d : DS), ttPort s u v = some d ∧ s.u2d[d].tt.stopped = false ∧ slotFull (splitSeen u d a e i (if i then 0 else b.length) s) d (s.u2u[u.idx].uframe + 1) a e i b = true) ∧
    (∃ (s : State) (u : US) (v : Fin 15) (a e : Nat) (o l : Bool) (k : DPid) (b : List Byte) (d : DS), ttPort s u v = some d ∧ s.u2d[d].tt.stopped = false ∧ slotFull (splitSeen u d a e false b.length s) d (s.u2u[u.idx].uframe + 1) a e false b = false) ∧
    (∃ (s : State) (u : US) (v : Fin 15) (a e : Nat) (i : Bool) (d : DS), ttSlot s u v = some d ∧ s.u2d[d].tt.per = []) ∧
    (∃ (s : State) (u : US) (v : Fin 15) (a e : Nat) (d : DS) (x : TtPer) (r : UsbResp), ttSlot s u v = some d ∧ (ttPort s u v).isSome = true ∧ s.u2d[d].tt.per = [x] ∧ x.addr = a ∧ x.ep = e ∧ x.dirIn = true ∧ x.result = some r) ∧
    (∃ (s : State) (d : DS) (l : List (Option UsbResp)) (u : US) (x : TtPer), ownerOf s d = some u ∧ s.u2d[d].tt.stopped = false ∧ (dsOf s d).enable = true ∧ (dsOf s d).test2 = 0 ∧ s.u2d[d].tt.per = [x] ∧ perWaits s d x = true ∧ x.slot ≤ s.u2u[u.idx].uframe ∧ l.getD 0 none = none) ∧
    (∃ (s : State) (d : DS) (l : List (Option UsbResp)) (u : US) (x : TtPer) (r : UsbResp), ownerOf s d = some u ∧ s.u2d[d].tt.stopped = false ∧ (dsOf s d).enable = true ∧ (dsOf s d).test2 = 0 ∧ s.u2d[d].tt.per = [x] ∧ perWaits s d x = true ∧ x.slot ≤ s.u2u[u.idx].uframe ∧ l.getD 0 none = some r ∧ x.iso = true) ∧
    (∃ (s : State) (d : DS) (u : US), ownerOf s d = some u) ∧
    (∃ (s : State) (d : DS) (a e i : Nat) (b c : TtBuf), s.u2d[d].tt.bufs.findIdx? (fun x => x.addr == a && x.ep == e && x.spilled) = some i ∧ s.u2d[d].tt.bufs[i]? = some b ∧ unspill s d b = some c) ∧
    (∃ (s : State) (u : US) (v i : Nat), (hubOf s u).connected = true) ∧
    (∃ (s : State) (u : US) (i : Nat), (hubOf s u).connected = true) ∧
    (∃ (s : State) (u : US) (i : Nat), (hubOf s u).connected = true ∧ i < 65536) ∧
    (∃ (s : State) (u : US) (i : Nat), (hubOf s u).connected = true) ∧
    (∃ (s : State) (u : US) (n : Nat), (hubOf s u).connected = true) :=
  ⟨⟨tt1, .us0, 1, 1, 1, true, false, false, .data0, [], 0, by decide +kernel⟩,
   ⟨ttf0, .us0, 1, 1, 1, true, false, false, .data0, [], 0, by decide +kernel⟩,
   ⟨tt0, .us0, 1, 1, 1, true, false, .data0, [], 0, by decide +kernel⟩,
   ⟨tt0, .us0, 1, 1, 1, true, 0, by decide +kernel⟩,
   ⟨tt3, .us0, 1, 1, 1, 0, per0, (.hs .ack), by decide +kernel⟩,
   ⟨{ tt3 with epqs := [(0, epqTt)], u2d := tt3.u2d.set 0 { tt := { per := [{ per0 with result := none }] } } }, 0, [], .us0, { per0 with result := none }, by decide +kernel⟩,
   ⟨{ tt3 with epqs := [(0, epqTt)], u2d := tt3.u2d.set 0 { tt := { per := [{ per0 with result := none, iso := true }] } } }, 0, [some (.hs .ack)], .us0, { per0 with result := none, iso := true }, (.hs .ack), by decide +kernel⟩,
   ⟨tt3, 0, .us0, by decide +kernel⟩,
   ⟨ttb spd0, 0, 1, 1, 0, spd0, (unspill (ttb spd0) 0 spd0).get spd_back, by decide +kernel, by decide +kernel, (Option.some_get spd_back).symm⟩,
   ⟨tt0, .us0, 0, 1, by decide +kernel⟩,
   ⟨tt0, .us0, 1, by decide +kernel⟩,
   ⟨tt0, .us0, 1, by decide +kernel⟩,
   ⟨tt0, .us0, 1, by decide +kernel⟩,
   ⟨tt0, .us0, 0, by decide +kernel⟩⟩

/-- The premises of PortResetsRun, clause by clause. -/
theorem witness_PortResetsRun :
    (∃ (s : State) (u : US) (v : Fin 15), hubUp s u false = true ∧ shownHere (hostSeen u (fresh s)) u v false = none) ∧
    (∃ (s : State) (u : US) (v : Fin 15) (d : DS), hubUp s u false = true ∧ shownHere (hostSeen u (fresh s)) u v false = some d ∧ (∀ c, ctxAt (hostSeen u (fresh s)) d 0 false = some c → resetAbsorbed (hostSeen u (fresh s)) c.2 = false)) ∧
    (∃ (s : State) (u : US) (v : Fin 15) (d : DS) (c : Nat × Ctx), hubUp s u false = true ∧ shownHere (hostSeen u (fresh s)) u v false = some d ∧ ctxAt (hostSeen u (fresh s)) d 0 false = some c ∧ resetAbsorbed (hostSeen u (fresh s)) c.2 = true) ∧
    (∃ (s : State) (d : DS) (n x : Nat), (dsOf s d).resetAt = some x ∧ bit (dsOf s d).quirks 0 = false ∧ (dsOf s d).speed2 ≠ some .ls ∧ (dsOf s d).chirpFail = false ∧ 2500 ≤ n ∧ s.now < x + 7000000) ∧
    (∃ (s : State) (d : DS) (x : Nat), (dsOf s d).resetAt = some x ∧ (dsOf s d).chirpFail = false) ∧
    (∃ (s : State) (d : DS) (h : Bool) (x : Nat), (dsOf s d).resetAt = some x) ∧
    (∃ (s : State) (u : US) (b : Bool), ((usOf s u).pullup = true ∨ (usOf s u).speed2 = 2)) ∧
    (∃ (s : State) (u : US) (n : Nat), (usOf s u).chirpK = true ∧ n ≤ 2000000) ∧
    (∃ (s : State) (u : US) (n : Nat), (usOf s u).chirpK = true ∧ 2000000 < n) ∧
    (∃ (s : State) (u : US) (v : Fin 15) (d : DS), hubUp s u true = true ∧ ownedAt s u v = some d ∧ presentable s d = true ∧ ((dsOf s d).link ≠ .rxDetect ∧ (dsOf s d).link ≠ .disabled) ∧ (∀ c, ctxAt (hostSeen u (fresh s)) d 0 true = some c → resetAbsorbed (hostSeen u (fresh s)) c.2 = false)) ∧
    (∃ (s : State) (u : US) (v : Fin 15) (d : DS) (c : Nat × Ctx), hubUp s u true = true ∧ ownedAt s u v = some d ∧ presentable s d = true ∧ ((dsOf s d).link ≠ .rxDetect ∧ (dsOf s d).link ≠ .disabled) ∧ ctxAt (hostSeen u (fresh s)) d 0 true = some c ∧ resetAbsorbed (hostSeen u (fresh s)) c.2 = true) ∧
    (∃ (s : State) (u : US) (v : Fin 15), hubUp s u true = true ∧ (ownedAt s u v = none ∨ ∃ d, ownedAt s u v = some d ∧ presentable s d = false)) ∧
    (∃ (s : State) (u : US) (v : Fin 15) (d : DS), hubUp s u true = true ∧ ownedAt s u v = some d ∧ presentable s d = true ∧ (((dsOf s d).link ≠ .rxDetect ∧ (dsOf s d).link ≠ .disabled) ∨ ((dsOf s d).ssFailed = true ∧ (dsOf s d).watch = true)) ∧ (∀ c, ctxAt (hostSeen u (fresh s)) d 0 true = some c → resetAbsorbed (hostSeen u (fresh s)) c.2 = false)) ∧
    (∃ (s : State) (u : US) (v : Fin 15) (d : DS) (c : Nat × Ctx), hubUp s u true = true ∧ ownedAt s u v = some d ∧ presentable s d = true ∧ (((dsOf s d).link ≠ .rxDetect ∧ (dsOf s d).link ≠ .disabled) ∨ ((dsOf s d).ssFailed = true ∧ (dsOf s d).watch = true)) ∧ ctxAt (hostSeen u (fresh s)) d 0 true = some c ∧ resetAbsorbed (hostSeen u (fresh s)) c.2 = true) ∧
    (∃ (s : State) (u : US) (v : Fin 15), hubUp s u true = true ∧ (ownedAt s u v = none ∨ ∃ d, ownedAt s u v = some d ∧ presentable s d = false)) ∧
    (∃ (s : State) (d : DS) (b w : Bool) (x : Nat), (dsOf s d).ssReset = some (w, x)) ∧
    (∃ (s : State) (u : US) (v : Fin 15) (x : Nat), (slotSt s u v).emptyReset = some x) ∧
    (∃ (s : State) (u : US) (w : Bool), (usOf s u).ssTerm = true) :=
  ⟨⟨hs0, .us0, 3, by decide +kernel⟩,
   ⟨hs1, .us0, 1, 0, by decide +kernel, by decide +kernel, none_all (by decide +kernel)⟩,
   ⟨vig4, .us0, 1, 0, (0, ctx4), by decide +kernel⟩,
   ⟨{ hs1 with dsd := hs1.dsd.set 0 { resetAt := some 0 } }, 0, 2500, 0, by decide +kernel⟩,
   ⟨{ hs1 with dsd := hs1.dsd.set 0 { resetAt := some 0 } }, 0, 0, by decide +kernel⟩,
   ⟨{ hs1 with dsd := hs1.dsd.set 0 { resetAt := some 0 } }, 0, true, 0, by decide +kernel⟩,
   ⟨{ hs0 with usd := hs0.usd.set 0 { pullup := true } }, .us0, true, by decide +kernel⟩,
   ⟨{ hs0 with usd := hs0.usd.set 0 { chirpK := true } }, .us0, 100, by decide +kernel⟩,
   ⟨{ hs0 with usd := hs0.usd.set 0 { chirpK := true } }, .us0, 2000001, by decide +kernel⟩,
   ⟨ss0, .us0, 1, 0, by decide +kernel, by decide +kernel, by decide +kernel, by decide +kernel, none_all (by decide +kernel)⟩,
   ⟨ssv0, .us0, 1, 0, (0, ctxSs), by decide +kernel⟩,
   ⟨ss0, .us0, 0, by decide +kernel, .inl (by decide +kernel)⟩,
   ⟨ss0, .us0, 1, 0, by decide +kernel, by decide +kernel, by decide +kernel, by decide +kernel, none_all (by decide +kernel)⟩,
   ⟨ssv0, .us0, 1, 0, (0, ctxSs), by decide +kernel⟩,
   ⟨ss0, .us0, 0, by decide +kernel, .inl (by decide +kernel)⟩,
   ⟨{ hs1 with dsd := hs1.dsd.set 0 { ssReset := some (false, 0) } }, 0, true, false, 0, by decide +kernel⟩,
   ⟨{ hs0 with hubs := hs0.hubs.map (fun h => { h with slots := h.slots.map (fun x => { x with emptyReset := some 0 }) }) }, .us0, 1, 0, by decide +kernel⟩,
   ⟨{ hs0 with usd := hs0.usd.set 0 { ssTerm := true } }, .us0, true, by decide +kernel⟩⟩

/-- The premises of SchedulerAndTablesRun, clause by clause. -/
theorem witness_SchedulerAndTablesRun :
    (∃ (s : State), s.clk.tbOn = true) ∧
    (∃ (s : State), s.sched.samplePeriod ≤ s.sched.sampleCount) ∧
    (∃ (s : State) (a : List (Nat × Nat)) (b : List (Nat × (Nat × Nat))), True) ∧
    (∃ (s : State), agentRuns s = true) ∧
    (∃ (s : State) (x : Rebuild), s.place.rebuild = some x ∧ x.step = 3 ∧ agentRuns s = true) ∧
    (∃ (s : State) (x : Rebuild), s.place.rebuild = some x ∧ x.step = 5 ∧ agentRuns s = true) ∧
    (∃ (s : State), agentRuns s = true ∧ (3 ≤ s.place.missed ∨ s.place.trAt ≠ none)) :=
  ⟨⟨up, by decide +kernel⟩,
   ⟨{ up with sched := { up.sched with sampleCount := 8 } }, by decide +kernel⟩,
   ⟨up, [], [], by decide +kernel⟩,
   ⟨up, by decide +kernel⟩,
   ⟨{ up with place := { up.place with rebuild := some { t0 := 0, step := 3, minimal := false, now_ := false, log := [] } } }, { t0 := 0, step := 3, minimal := false, now_ := false, log := [] }, by decide +kernel⟩,
   ⟨{ up with place := { up.place with rebuild := some { t0 := 0, step := 5, minimal := false, now_ := false, log := [] } } }, { t0 := 0, step := 5, minimal := false, now_ := false, log := [] }, by decide +kernel⟩,
   ⟨{ up with place := { up.place with missed := 3 } }, by decide +kernel⟩⟩

/-- The premises of AbsenceAndProxyRun, clause by clause. -/
theorem witness_AbsenceAndProxyRun :
    (∃ (s : State) (u : US) (c : AbsCause), c = .detach) ∧
    (∃ (s : State) (u : US) (c : AbsCause), c = .vbusLoss ∧ isSink s (usPort u) = true ∧ (pwrOf s (usPort u)).frs = none) ∧
    (∃ (s : State) (u : US) (c : AbsCause), c = .timed ∧ linkPresent s u = false ∧ hubSuspended s u = false) ∧
    (∃ (s : State) (u : US) (x : Nat), s.u2u[u.idx].lastSof = some x ∧ s.u2u[u.idx].keep = none ∧ (usOf s u).speed2 = 2 ∧ (hubOf s u).state = .attached ∧ (allDs.filter (fun d => ownerOf s d == some u && keepable s d)) ≠ []) ∧
    (∃ (s : State) (u : US) (x : Nat), allDs.any (fun d => ownerOf s d == some u && sofPort s d) = true ∧ s.u2u[u.idx].keep = some x) ∧
    (∃ (s : State) (u : US) (x : Nat), s.u2u[u.idx].keep = some x ∧ hubSuspended s u = true ∧ (hubOf s u).state ≠ .vigil) ∧
    (∃ (s : State) (c : Fin 96) (n : Nat) (r : PollResp) (x : Ctx) (e : EpRec), ctxOf s c.val = some x ∧ x.eps.find? (fun z => z.d.ep == n && z.d.dirIn) = some e ∧ polled s x e = true ∧ pollFirst s x e = true) ∧
    (∃ (s : State) (d : DS), portVigil s d = true) ∧
    (∃ (s : State) (d : DS) (a : Option Hsk) (c : Nat × Ctx), ctxAt s d 0 false = some c ∧ c.2.st = .held ∧ portVigil s d = true ∧ c.2.speed = 2 ∧ c.2.eps.any (fun e => polled s c.2 e) = false ∧ c.2.cache.any (fun e => e.1.1 / 256 == 15 && bosLpm e.2) = true ∧ bit (devQuirks s c.2) 2 = false ∧ ctxAsleep s c.2 = false ∧ (dsOf s d).l1 = false ∧ portFenced s (dsPort d) = false) :=
  ⟨⟨up, .us0, .detach, by decide +kernel⟩,
   ⟨{ up with tc := up.tc.set 0 { st := .attached, src := false } }, .us0, .vbusLoss, by decide +kernel⟩,
   ⟨up, .us0, .timed, by decide +kernel⟩,
   ⟨keep0, .us0, 0, by decide +kernel⟩,
   ⟨keep1, .us0, 0, by decide +kernel⟩,
   ⟨keep2, .us0, 0, by decide +kernel⟩,
   ⟨vig1, 0, 1, .nak, ctx0, epr0, by decide +kernel⟩,
   ⟨vig0, 0, by decide +kernel⟩,
   ⟨vig2, 0, (some .ack), (0, ctx2), by decide +kernel⟩⟩

/-- The premises of ReturningHostRuns, clause by clause. -/
theorem witness_ReturningHostRuns :
    (∃ (s : State) (u : US) (b : Bool) (a v : Nat), (hubOf s u).connected = true ∧ safeHolds s = false) ∧
    (∃ (s : State) (u : US), (hubOf s u).state = .vigil ∧ (hubOf s u).connected = true) ∧
    (∃ (s : State) (u : US) (d : DS) (n : Nat) (b : Bool) (a : Nat) (q : Setup) (l : List Byte) (f : CtlEnd) (e : List EpDesc), ownerOf s d = some u ∧ (hubOf s u).connected = true ∧ presentable s d = true ∧ b = false ∧ (dsOf s d).enable = true ∧ ctxAt (hostSeen u (fresh s)) d n false = none ∧ bit (seenOf (hostSeen u (fresh s)) d n).quirks 8 = false) ∧
    (∃ (s : State) (u : US) (d : DS) (n : Nat) (b : Bool) (a : Nat) (q : Setup) (l : List Byte) (f : CtlEnd) (e : List EpDesc) (c : Nat × Ctx), ownerOf s d = some u ∧ (hubOf s u).connected = true ∧ presentable s d = true ∧ b = false ∧ (dsOf s d).enable = true ∧ ctxAt (hostSeen u (fresh s)) d n false = some c ∧ c.2.isHub = false ∧ c.2.translated = false ∧ c.2.daddr = some a ∧ bit (devQuirks (hostSeen u (fresh s)) c.2) 8 = false ∧ mayAbsorb (hostSeen u (fresh s)) c.2 = false) ∧
    (∃ (s : State) (u : US) (d : DS) (n : Nat) (b : Bool) (a : Nat) (q : Setup) (l : List Byte) (f : CtlEnd) (e : List EpDesc) (c : Nat × Ctx) (x : List Byte), ownerOf s d = some u ∧ (hubOf s u).connected = true ∧ presentable s d = true ∧ b = false ∧ (dsOf s d).enable = true ∧ ctxAt (hostSeen u (fresh s)) d n false = some c ∧ c.2.isHub = false ∧ c.2.translated = false ∧ c.2.daddr = some a ∧ bit (devQuirks (hostSeen u (fresh s)) c.2) 8 = false ∧ mayAbsorb (hostSeen u (fresh s)) c.2 = true ∧ shadowRead (hostSeen u (fresh s)) c.2 q = some x) ∧
    (∃ (s : State) (u : US) (d : DS) (n : Nat) (b : Bool) (a : Nat) (q : Setup) (l : List Byte) (f : CtlEnd) (e : List EpDesc) (c : Nat × Ctx) (y : Ctx), ownerOf s d = some u ∧ (hubOf s u).connected = true ∧ presentable s d = true ∧ b = false ∧ (dsOf s d).enable = true ∧ ctxAt (hostSeen u (fresh s)) d n false = some c ∧ c.2.isHub = false ∧ c.2.translated = false ∧ c.2.daddr = some a ∧ bit (devQuirks (hostSeen u (fresh s)) c.2) 8 = false ∧ mayAbsorb (hostSeen u (fresh s)) c.2 = true ∧ shadowRead (hostSeen u (fresh s)) c.2 q = none ∧ absorbSet c.2 q l = some y) ∧
    (∃ (s : State) (d : DS) (n : Nat) (b : Bool) (c : Nat × Ctx) (x : Nat), ctxAt s d n b = some c ∧ c.2.resetAt = some x) :=
  ⟨⟨hs0, .us0, false, 5, 1, by decide +kernel⟩,
   ⟨{ hs0 with hubs := hs0.hubs.map (fun h => { h with state := .vigil }) }, .us0, by decide +kernel⟩,
   ⟨hs1, .us0, 0, 0, false, 3, { bm := 0x80, req := 6, value := 256, index := 0, length := 18 }, [], .done, [], by decide +kernel⟩,
   ⟨vig3, .us0, 0, 0, false, 3, { bm := 0x80, req := 6, value := 256, index := 0, length := 18 }, [], .done, [], (0, ctx3), by decide +kernel⟩,
   ⟨vig4, .us0, 0, 0, false, 3, { bm := 0x80, req := 8, value := 0, index := 0, length := 1 }, [], .done, [], (0, ctx4), [1], by decide +kernel⟩,
   ⟨vig4, .us0, 0, 0, false, 3, { bm := 0, req := 9, value := 1, index := 0, length := 0 }, [], .done, [], (0, ctx4), ((absorbSet ctx4 { bm := 0, req := 9, value := 1, index := 0, length := 0 } []).getD ctx4), by decide +kernel⟩,
   ⟨vig5, 0, 0, false, (0, ctx5), 0, by decide +kernel⟩⟩

/-- The premises of FailoverAndMovesRun, clause by clause. -/
theorem witness_FailoverAndMovesRun :
    (∃ (s : State) (u : US) (b : BootIn) (x : Nat), (vigHub s u).deadline = some x ∧ s.pmu.reported = .standby) ∧
    (∃ (s : State) (u : US) (b : BootIn) (x : Nat), (vigHub s u).deadline = some x ∧ s.pmu.reported = .vigil ∧ entering s = false ∧ deadlineRuns s u = true) ∧
    (∃ (s : State) (u p : US) (x : Nat), (foOf s u).absentAt = some x ∧ (foOf s u).rcd.partner = some p) ∧
    (∃ (s : State) (u p : US), (foOf s u).back = none ∧ (foOf s u).rcd.partner = some p ∧ (foOf s u).waiting = false ∧ (foOf s u).queue ≠ [] ∧ (hubOf s p).state = .attached ∧ ((hubOf s u).state = .vigil ∨ (hubOf s u).state = .detached ∨ (hubOf s u).state = .failedOver)) ∧
    (∃ (s : State) (u : US) (x : Back), (foOf s u).back = some x ∧ (hubOf s u).state = .attached) ∧
    (∃ (s : State) (u : US) (x : Nat), (foOf s u).upFrom = some x ∧ (foOf s u).rcd.auto = true ∧ (foOf s u).back = none ∧ failedOver s u ≠ []) ∧
    (∃ (s : State) (d : DS) (u : US) (x : Back) (y : Nat), homeOf s d = some u ∧ (foOf s u).back = some x ∧ x.deferred.find? (fun z => z.1 == d) = some (d, y) ∧ (hubOf s u).state = .attached) ∧
    (∃ (s : State) (d : DS) (m : Move), s.own.move[d] = some m ∧ m.phase = 1) ∧
    (∃ (s : State) (d : DS) (m : Move), s.own.move[d] = some m ∧ m.phase = 2) ∧
    (∃ (s : State) (u : US) (x : Nat), (hubOf s u).reconnectAt = some x) :=
  ⟨⟨{ up with pmu := { up.pmu with reported := .standby }, vig := { up.vig with hub := up.vig.hub.map (fun h => { h with deadline := some 0 }) } }, .us0, b0, 0, by decide +kernel⟩,
   ⟨{ up with pmu := { up.pmu with reported := .vigil }, vig := { up.vig with hub := up.vig.hub.map (fun h => { h with deadline := some 0 }) }, hubs := up.hubs.map (fun h => { h with state := .vigil }) }, .us0, b0, 0, by decide +kernel⟩,
   ⟨fo0, .us0, .us1, 0, by decide +kernel⟩,
   ⟨fo1, .us0, .us1, by decide +kernel⟩,
   ⟨fo2, .us0, { cmd := true, queue := [] }, by decide +kernel⟩,
   ⟨fo3, .us0, 0, by decide +kernel⟩,
   ⟨fo4, 0, .us0, { cmd := true, queue := [], deferred := [(0, 5)] }, 5, by decide +kernel⟩,
   ⟨{ hs1 with own := { hs1.own with move := hs1.own.move.set 0 (some mv1) } }, 0, mv1, by decide +kernel⟩,
   ⟨{ up with own := { up.own with move := up.own.move.set 0 (some mv2) } }, 0, mv2, by decide +kernel⟩,
   ⟨{ hs0 with hubs := hs0.hubs.map (fun h => { h with reconnectAt := some 5 }) }, .us0, 5, by decide +kernel⟩⟩

/-- The premises of HubPortRequestsRun, clause by clause. -/
theorem witness_HubPortRequestsRun :
    (∃ (s : State) (u : US) (b : Bool) (n : Nat), hubUp s u b = true) ∧
    (∃ (s : State) (u : US) (b : Bool) (n : Nat) (m : BitVec 16) (v : Fin 15) (d : DS), hubUp s u b = true ∧ wIndexSlot s u n = some v ∧ ownedAt s u v = some d) ∧
    (∃ (s : State) (u : US) (b : Bool) (n : Nat) (m : BitVec 16) (v : Fin 15), hubUp s u b = true ∧ wIndexSlot s u n = some v ∧ ownedAt s u v = none) ∧
    (∃ (s : State) (u : US) (b : Bool) (v : Fin 15), hubUp s u b = true) ∧
    (∃ (s : State) (u : US) (b : Bool) (v : Fin 15), hubUp s u b = true) ∧
    (∃ (s : State) (u : US) (n : Nat), hubUp s u true = true) ∧
    (∃ (s : State) (u : US) (v : Fin 15) (b : Bool) (n : Byte), hubUp s u true = true) ∧
    (∃ (s : State) (u : US) (v : Fin 15) (m : BitVec 3), hubUp s u true = true) ∧
    (∃ (s : State) (u : US) (b : Bool) (v : Fin 15) (c : Change), hubUp s u b = true) ∧
    (∃ (s : State) (u : US) (b : Bool), hubUp s u b = true) ∧
    (∃ (s : State) (u : US) (f : HubFeature) (b : Bool), hubUp s u (match f with | .remoteWake2 => false | _ => true) = true) :=
  ⟨⟨hs0, .us0, false, 1, by decide +kernel⟩,
   ⟨hs1, .us0, false, 2, 0x810, 1, 0, by decide +kernel⟩,
   ⟨{ hs0 with own := { hs0.own with owner := Vector.replicate 16 none } }, .us0, false, 2, 0x10, 1, by decide +kernel⟩,
   ⟨hs1, .us0, false, 1, by decide +kernel⟩,
   ⟨hs1, .us0, false, 1, by decide +kernel⟩,
   ⟨ss0, .us0, 2, by decide +kernel⟩,
   ⟨ss0, .us0, 1, true, 7, by decide +kernel⟩,
   ⟨ss0, .us0, 1, 5, by decide +kernel⟩,
   ⟨hs0, .us0, false, 1, .connection, by decide +kernel⟩,
   ⟨hs0, .us0, false, by decide +kernel⟩,
   ⟨ss0, .us0, .u1Enable, true, by decide +kernel⟩⟩

/-- The premises of SuspendAndResumeRun, clause by clause. -/
theorem witness_SuspendAndResumeRun :
    (∃ (s : State) (u : US) (b : Bool) (v : Fin 15) (d : DS), hubUp s u b = true ∧ ownedAt s u v = some d) ∧
    (∃ (s : State) (u : US) (v : Fin 15) (d : DS), hubUp s u false = true ∧ ownedAt s u v = some d ∧ (dsOf s d).suspHub2 = false ∧ (dsOf s d).suspHost2 = true ∧ (dsOf s d).resumeAt = none) ∧
    (∃ (s : State) (u : US) (v : Fin 15) (d : DS), hubUp s u false = true ∧ ownedAt s u v = some d ∧ (dsOf s d).suspHub2 = true) ∧
    (∃ (s : State) (d : DS) (x : Nat), (dsOf s d).resumeAt = some x ∧ (dsOf s d).resumeKind ≠ .hub) ∧
    (∃ (s : State) (u : US) (v : Fin 15) (d : DS), hubUp s u true = true ∧ ownedAt s u v = some d ∧ (dsOf s d).suspHub3 = false ∧ (dsOf s d).link = .u3 ∧ (dsOf s d).u3Exit = none) ∧
    (∃ (s : State) (u : US), (hubOf s u).connected = true) ∧
    (∃ (s : State) (u : US), (hubOf s u).connected = true ∧ linkQuiet s (usPort u) = true) ∧
    (∃ (s : State) (u : US) (n : Nat), (usOf s u).susp2 = true ∧ 2500 ≤ n) ∧
    (∃ (s : State) (u : US), (usOf s u).susp3 = true) ∧
    (∃ (s : State) (u : US) (x : Nat), (usOf s u).resume2 = some x) ∧
    (∃ (s : State) (d : DS) (b : Bool) (k : ResumeKind), (dsOf s d).u3Exit = some k) ∧
    (∃ (s : State) (d : DS) (b : Bool), (dsOf s d).u3Entry = true ∧ (b = false ∨ linkQuiet s (dsPort d) = true)) :=
  ⟨⟨hs1, .us0, false, 1, 0, by decide +kernel⟩,
   ⟨{ hs1 with dsd := hs1.dsd.set 0 { enable := true, suspHost2 := true } }, .us0, 1, 0, by decide +kernel⟩,
   ⟨{ hs1 with dsd := hs1.dsd.set 0 { enable := true, suspHub2 := true } }, .us0, 1, 0, by decide +kernel⟩,
   ⟨{ hs1 with dsd := hs1.dsd.set 0 { resumeAt := some 0 } }, 0, 0, by decide +kernel⟩,
   ⟨{ ss0 with dsd := ss0.dsd.set 0 { link := .u3 } }, .us0, 1, 0, by decide +kernel⟩,
   ⟨hs1, .us0, by decide +kernel⟩,
   ⟨ss0, .us0, by decide +kernel⟩,
   ⟨{ hs1 with usd := hs1.usd.set 0 { susp2 := true } }, .us0, 2500, by decide +kernel⟩,
   ⟨{ ss0 with usd := ss0.usd.set 0 { susp3 := true } }, .us0, by decide +kernel⟩,
   ⟨{ hs1 with usd := hs1.usd.set 0 { resume2 := some 0 } }, .us0, 0, by decide +kernel⟩,
   ⟨{ ss0 with dsd := ss0.dsd.set 0 { link := .u3, u3Exit := some .host } }, 0, true, .host, by decide +kernel⟩,
   ⟨{ ss0 with dsd := ss0.dsd.set 0 { u3Entry := true } }, 0, true, by decide +kernel⟩⟩

/-- The premises of WakesOfDevicesAndAttachRun, clause by clause. -/
theorem witness_WakesOfDevicesAndAttachRun :
    (∃ (s : State) (d : DS) (b : Bool) (n : Nat), b = false ∧ ((dsOf s d).suspHost2 = true ∨ (dsOf s d).suspHub2 = true) ∧ (dsOf s d).resumeAt = none ∧ (dsOf s d).wakePend2 = false ∧ 2500 ≤ n ∧ underVigil s d = false ∧ ownerOf s d = none) ∧
    (∃ (s : State) (d : DS) (b : Bool) (n : Nat) (u : US), b = true ∧ (dsOf s d).link = .u3 ∧ (dsOf s d).u3Exit = none ∧ (dsOf s d).wakePend3 = false ∧ underVigil s d = false ∧ ownerOf s d = some u) ∧
    (∃ (s : State) (d : DS) (b : Bool) (e : WakeEvent) (u : US) (v : Fin 15), owningSlot s d = some (u, v) ∧ (if b then (usOf s u).susp3 else (usOf s u).susp2) = true ∧ wakeEnabled s u b = true ∧ (b = false ∨ bit (slotSt s u v).wakeMask (match e with | .connect => 0 | .disconnect => 1 | .overCurrent => 2) = true)) ∧
    (∃ (s : State) (d : DS), (dsOf s d).watch = true ∧ portFenced s (dsPort d) = false ∧ ssAllowed s d = true ∧ ssHeldByDp s d = false ∧ (dsOf s d).ssFailed = false ∧ (dsOf s d).link = .rxDetect ∧ s.clk.ssPllLock = true) ∧
    (∃ (s : State) (d : DS) (b : Bool) (n : Nat), (dsOf s d).watch = true ∧ (dsOf s d).conn2 = false ∧ 2500 ≤ n) ∧
    (∃ (s : State) (d : DS) (b : Bool), (dsOf s d).rxDet = true ∧ (dsOf s d).link = .polling ∧ portFenced s (dsPort d) = false) ∧
    (∃ (s : State) (d : DS) (b : Bool), (dsOf s d).link = .recovery ∧ (dsOf s d).ssReset = none ∧ (linkOf s (dsPort d)).exiting = false) ∧
    (∃ (s : State) (d : DS), (dsOf s d).rxDet = true) ∧
    (∃ (s : State) (d : DS) (i : DevId), (dsOf s d).probing = true) ∧
    (∃ (s : State) (d : DS) (n : Nat), (dsOf s d).conn2 = true ∧ (dsOf s d).resetAt = none ∧ ((dsOf s d).speed2 = some .hs ∨ 2500 ≤ n)) ∧
    (∃ (s : State) (d : DS) (b : Bool), (dsOf s d).link ≠ .rxDetect ∧ (dsOf s d).link ≠ .polling) :=
  ⟨⟨{ hs1 with dsd := hs1.dsd.set 0 { suspHost2 := true }, own := { hs1.own with owner := hs1.own.owner.set 0 none } }, 0, false, 2500, by decide +kernel⟩,
   ⟨{ ss0 with dsd := ss0.dsd.set 0 { link := .u3 } }, 0, true, 0, .us0, by decide +kernel⟩,
   ⟨{ hs1 with usd := hs1.usd.set 0 { susp2 := true }, hubs := hs1.hubs.map (fun h => { h with remoteWake2 := true }) }, 0, false, .connect, .us0, 1, by decide +kernel⟩,
   ⟨att0, 0, by decide +kernel⟩,
   ⟨att0, 0, false, 2500, by decide +kernel⟩,
   ⟨{ att0 with dsd := att0.dsd.set 0 { rxDet := true, link := .polling } }, 0, true, by decide +kernel⟩,
   ⟨{ ss0 with dsd := ss0.dsd.set 0 { link := .recovery } }, 0, true, by decide +kernel⟩,
   ⟨{ att0 with dsd := att0.dsd.set 0 { rxDet := true, link := .polling } }, 0, by decide +kernel⟩,
   ⟨{ att0 with dsd := att0.dsd.set 0 { conn2 := true, probing := true } }, 0, id0, by decide +kernel⟩,
   ⟨{ hs1 with dsd := hs1.dsd.set 0 { conn2 := true } }, 0, 2500, by decide +kernel⟩,
   ⟨ss0, 0, true, by decide +kernel⟩⟩

/-- The premises of TypecStateMachineRuns, clause by clause. -/
theorem witness_TypecStateMachineRuns :
    (∃ (s : State) (p : Port) (c : CcPattern) (f : Bool), populated s p = false) ∧
    (∃ (s : State) (p : Port) (c : CcPattern) (f : Bool), populated s p = true ∧ (tcOf s p).st = .unattached ∧ thymeDown s p = false ∧ c ≠ .opn) ∧
    (∃ (s : State) (p : Port) (v : Nat) (w : Option (Fin 4 × Nat)), (tcOf s p).st = .waitSrc ∧ (tcOf s p).lossAt = none ∧ (portDs p).isSome = true ∧ thymeDown s p = false ∧ attachMay s p = true ∧ v < 800 ∧ w = none) ∧
    (∃ (s : State) (p : Port) (v : Nat) (w : Option (Fin 4 × Nat)), (tcOf s p).st = .waitSrc ∧ (tcOf s p).lossAt = none ∧ (portDs p).isSome = true ∧ thymeDown s p = false ∧ attachMay s p = true ∧ 800 ≤ v ∧ (tcOf s p).waitCounted = false) ∧
    (∃ (s : State) (p : Port) (x : Nat), (tcOf s p).lossAt = some x ∧ thymeDown s p = false) ∧
    (∃ (s : State) (p : Port) (x : Nat), (tcOf s p).st = .errorRecovery ∧ (tcOf s p).errAt = some x) ∧
    (∃ (s : State) (u : US), (tcOf s (usPort u)).st = .unattached ∧ populated s (usPort u) = true) ∧
    (∃ (s : State) (u : US) (v : Nat), thymeDown s (usPort u) = false ∧ populated s (usPort u) = true ∧ (tcOf s (usPort u)).preCheck = false ∧ (tcOf s (usPort u)).st = .waitSnk ∧ (tcOf s (usPort u)).lossAt = none ∧ (tcOf s (usPort u)).pattern = .rp ∧ 4750 ≤ v ∧ (pwrOf s (usPort u)).pol.pref ≠ 1) ∧
    (∃ (s : State) (u : US) (l : Fin 4), isSink s (usPort u) = true) ∧
    (∃ (s : State) (u : US), isSink s (usPort u) = true) ∧
    (∃ (s : State) (p : Port) (x : Nat), (tcOf s p).lossAt = some x ∧ thymeDown s p = true ∧ isSource s p = true) ∧
    (∃ (s : State) (p : Port) (v : Nat) (x : VTrans), (pwrOf s p).trans = some x ∧ isSource s p = true ∧ thymeDown s p = true) ∧
    (∃ (s : State) (p : Port) (v : Nat) (x : VTrans), (pwrOf s p).trans = some x ∧ isSource s p = true ∧ thymeDown s p = false) ∧
    (∃ (s : State) (p : Port) (x : Nat), (tcOf s p).vconnAt = some x ∧ thymeDown s p = false) ∧
    (∃ (s : State) (p : Port) (x : Nat), (tcOf s p).discAt = some x ∧ thymeDown s p = false ∧ (tcOf s p).vconn = true) ∧
    (∃ (s : State) (p : Port) (x : Nat), (tcOf s p).vbus5At = some x ∧ (tcOf s p).discDone = false ∧ thymeDown s p = false) :=
  ⟨⟨unpop, 3, .rdOne, false, by decide +kernel⟩,
   ⟨up, 3, .rdOne, false, by decide +kernel⟩,
   ⟨{ att0 with tc := att0.tc.set 3 { st := .waitSrc } }, 3, 100, none, by decide +kernel⟩,
   ⟨{ att0 with tc := att0.tc.set 3 { st := .waitSrc } }, 3, 900, none, by decide +kernel⟩,
   ⟨{ att0 with tc := att0.tc.set 3 { st := .attached, src := true, lossAt := some 0 } }, 3, 0, by decide +kernel⟩,
   ⟨{ att0 with tc := att0.tc.set 3 { st := .errorRecovery, errAt := some 0 } }, 3, 0, by decide +kernel⟩,
   ⟨up, .us0, by decide +kernel⟩,
   ⟨{ up with tc := up.tc.set 0 { st := .waitSnk, pattern := .rp, preCheck := false } }, .us0, 5000, by decide +kernel⟩,
   ⟨snk0, .us0, 2, by decide +kernel⟩,
   ⟨snk0, .us0, by decide +kernel⟩,
   ⟨thyd0, 3, 0, by decide +kernel⟩,
   ⟨{ thyd0 with pwr := thyd0.pwr.set 3 { trans := some vt0 } }, 3, 0, vt0, by decide +kernel⟩,
   ⟨{ src0 with pwr := src0.pwr.set 3 { trans := some vt0 } }, 3, 0, vt0, by decide +kernel⟩,
   ⟨{ src0 with tc := src0.tc.set 3 { st := .attached, src := true, vconnAt := some 0 } }, 3, 0, by decide +kernel⟩,
   ⟨{ src0 with tc := src0.tc.set 3 { st := .attached, src := true, vconn := true, discAt := some 0 } }, 3, 0, by decide +kernel⟩,
   ⟨{ src0 with tc := src0.tc.set 3 { st := .attached, src := true, vbus5At := some 0 } }, 3, 0, by decide +kernel⟩⟩

/-- The premises of PdMessagesRun, clause by clause. -/
theorem witness_PdMessagesRun :
    (∃ (s : State) (p : Port) (o : Fin 5) (h : BitVec 16) (l : List Byte) (c : Bool), pdUp s p = true ∧ thymeDown s p = false ∧ c = true ∧ o.val = 0 ∧ s.pmu.reported ≠ .suspend ∧ entering s = false ∧ (phyOf s p).rxStaged ≠ none) ∧
    (∃ (s : State) (p : Port) (o : Fin 5) (h : BitVec 16) (l : List Byte) (c : Bool), pdUp s p = true ∧ thymeDown s p = false ∧ c = true ∧ o.val = 0 ∧ s.pmu.reported ≠ .suspend ∧ entering s = false ∧ (phyOf s p).rxStaged = none ∧ (phyOf s p).bist = 2) ∧
    (∃ (s : State) (p : Port) (m : PdMsg) (l : List PdMsg), (phyOf s p).tx = m :: l ∧ (phyOf s p).txStaged = none ∧ phyStalled s p = false ∧ wordsMatch m = true) ∧
    (∃ (s : State) (p : Port) (m : PdMsg), (phyOf s p).txStaged = some m ∧ (phyOf s p).txStarted = true) ∧
    (∃ (s : State) (p : Port) (m : PdMsg), (phyOf s p).txStaged = some m ∧ (phyOf s p).txStarted = true) ∧
    (∃ (s : State) (p : Port) (n : Notice) (l : List Notice), thymeDown s p = false ∧ (phyOf s p).inHand = none ∧ fifoWords (phyOf s p).tx ≤ 16 ∧ (phyOf s p).notices = n :: l) ∧
    (∃ (s : State) (p : Port), pdUp s p = true) ∧
    (∃ (s : State) (p : Port), pdUp s p = true ∧ thymeDown s p = false) ∧
    (∃ (s : State) (u : US), pdUp s (usPort u) = true ∧ (tcOf s (usPort u)).vconn = false ∧ thymeDown s (usPort u) = false) ∧
    (∃ (s : State) (p : Port) (m : PdMsg), (phyOf s p).inHand = some m ∧ thymeDown s p = false ∧ isCtl m 13 = true) ∧
    (∃ (s : State) (p : Port) (m : PdMsg), (phyOf s p).inHand = some m ∧ thymeDown s p = false ∧ isCtl m 24 = true) ∧
    (∃ (s : State) (i : Fin 6) (n : Nat), s.fw.stageSlot = some n ∧ (allPorts.filter (fun p => portThy p == i)).any (amsRuns s) = false ∧ bit s.fw.thyMask i.val = true) ∧
    (∃ (s : State) (p : Port) (o : Fin 5) (h : BitVec 16) (l : List Byte) (c : Bool), pdUp s p = true ∧ thymeDown s p = false ∧ c = true ∧ o.val = 0 ∧ s.pmu.reported ≠ .suspend ∧ entering s = false ∧ (phyOf s p).rxStaged = none ∧ (phyOf s p).bist ≠ 2 ∧ tabGet (phyOf s p).lastId 0 ≠ some (bits h.toNat 11 9)) :=
  ⟨⟨{ src0 with phy := src0.phy.set 3 { rxStaged := some msg0 } }, 3, 0, 0x1001, [], true, by decide +kernel⟩,
   ⟨{ src0 with phy := src0.phy.set 3 { bist := 2 } }, 3, 0, 0x1001, [], true, by decide +kernel⟩,
   ⟨{ src0 with phy := src0.phy.set 3 { tx := [msg0] } }, 3, msg0, [], by decide +kernel⟩,
   ⟨{ src0 with phy := src0.phy.set 3 { txStaged := some msg0, txStarted := true } }, 3, msg0, by decide +kernel⟩,
   ⟨{ src0 with phy := src0.phy.set 3 { txStaged := some msg0, txStarted := true } }, 3, msg0, by decide +kernel⟩,
   ⟨{ src0 with phy := src0.phy.set 3 { notices := [.txDone 0] } }, 3, (.txDone 0), [], by decide +kernel⟩,
   ⟨src0, 3, by decide +kernel⟩,
   ⟨src0, 3, by decide +kernel⟩,
   ⟨snk0, .us0, by decide +kernel⟩,
   ⟨hand 13, 3, (ctl 13), by decide +kernel⟩,
   ⟨hand 24, 3, (ctl 24), by decide +kernel⟩,
   ⟨{ up with fw := { up.fw with stageSlot := some 1, thyMask := 4 } }, 2, 1, by decide +kernel⟩,
   ⟨src0, 3, 0, 5, [], true, by decide +kernel⟩⟩

/-- The premises of SourceContractsRun, clause by clause. -/
theorem witness_SourceContractsRun :
    (∃ (s : State) (p : Port) (m : PdMsg), (phyOf s p).inHand = some m ∧ thymeDown s p = false ∧ (isData m 2 = true ∨ isData m 9 = true) ∧ isSource s p = true) ∧
    (∃ (s : State) (p : Port) (x : Nat), (pwrOf s p).reduce = some (0, x) ∧ capsMay s p = true ∧ (pwrOf s p).trans = none ∧ (pwrOf s p).newCon = none) ∧
    (∃ (s : State) (p : Port) (x : Nat), (pwrOf s p).reduce = some (1, x) ∧ (pwrOf s p).newCon = none ∧ thymeDown s p = false) ∧
    (∃ (s : State) (p : Port) (x : Nat), (pwrOf s p).capsDue = some x ∧ capsMay s p = true) ∧
    (∃ (s : State) (p : Port), capsMay s p = true ∧ explicit s p = false ∧ (pwrOf s p).newCon = none ∧ 0 < (pwrOf s p).capsCount ∧ (pwrOf s p).capsCount < 50) ∧
    (∃ (s : State) (p : Port) (m : PdMsg), (phyOf s p).inHand = some m ∧ thymeDown s p = false ∧ isData m 4 = true ∧ isSource s p = true) ∧
    (∃ (s : State) (d : DS) (m : PdMsg), (phyOf s (dsPort d)).inHand = some m ∧ thymeDown s (dsPort d) = false ∧ isCtl m 8 = true) ∧
    (∃ (s : State) (p : Port) (m : PdMsg), (phyOf s p).inHand = some m ∧ thymeDown s p = false ∧ isData m 10 = true ∧ bits (pdObj m 0) 31 24 = 1) ∧
    (∃ (s : State) (p : Port) (m : PdMsg), (phyOf s p).inHand = some m ∧ thymeDown s p = false ∧ isData m 10 = true ∧ bits (pdObj m 0) 31 24 = 5) ∧
    (∃ (s : State) (p : Port) (m : PdMsg), (phyOf s p).inHand = some m ∧ thymeDown s p = false ∧ isExt m 16 = true ∧ bits (fld m.data 0 4) 23 16 = 3) ∧
    (∃ (s : State) (p : Port), (pwrOf s p).con.kind = 3 ∧ thymeDown s p = false) ∧
    (∃ (s : State) (p : Port), (pwrOf s p).epr = true ∧ thymeDown s p = false) :=
  ⟨⟨handm (dat 2 [0x11000000]), 3, (dat 2 [0x11000000]), by decide +kernel⟩,
   ⟨{ src0 with pwr := src0.pwr.set 3 { psc := true, psf := true, firstDone := true, reduce := some (0, 0) } }, 3, 0, by decide +kernel⟩,
   ⟨{ src0 with pwr := src0.pwr.set 3 { reduce := some (1, 0) } }, 3, 0, by decide +kernel⟩,
   ⟨{ src0 with pwr := src0.pwr.set 3 { psc := true, capsDue := some 0 } }, 3, 0, by decide +kernel⟩,
   ⟨{ src0 with pwr := src0.pwr.set 3 { psc := true, capsCount := 1 } }, 3, by decide +kernel⟩,
   ⟨handm (dat 4 [0x0001912C]), 3, (dat 4 [0x0001912C]), by decide +kernel⟩,
   ⟨hand 8, 1, (ctl 8), by decide +kernel⟩,
   ⟨handm (dat 10 [0x01000000]), 3, (dat 10 [0x01000000]), by decide +kernel⟩,
   ⟨handm (dat 10 [0x05000000]), 3, (dat 10 [0x05000000]), by decide +kernel⟩,
   ⟨handm kal0, 3, kal0, by decide +kernel⟩,
   ⟨{ src0 with pwr := src0.pwr.set 3 { con := { kind := 3 } } }, 3, by decide +kernel⟩,
   ⟨{ src0 with pwr := src0.pwr.set 3 { epr := true } }, 3, by decide +kernel⟩⟩

/-- The premises of RoleSwapsRun, clause by clause. -/
theorem witness_RoleSwapsRun :
    (∃ (s : State) (p : Port) (m : PdMsg), (phyOf s p).inHand = some m ∧ thymeDown s p = false ∧ isCtl m 10 = true ∧ portUs p = none) ∧
    (∃ (s : State) (p : Port) (m : PdMsg) (u : US), (phyOf s p).inHand = some m ∧ thymeDown s p = false ∧ isCtl m 10 = true ∧ portUs p = some u ∧ (pwrOf s p).swap = none) ∧
    (∃ (s : State) (p : Port) (m : PdMsg), (phyOf s p).inHand = some m ∧ thymeDown s p = false ∧ isCtl m 9 = true ∧ portUs p = none) ∧
    (∃ (s : State) (p : Port) (m : PdMsg) (u : US), (phyOf s p).inHand = some m ∧ thymeDown s p = false ∧ isCtl m 9 = true ∧ portUs p = some u ∧ (pwrOf s p).swap = none) ∧
    (∃ (s : State) (p : Port) (m : PdMsg), (phyOf s p).inHand = some m ∧ thymeDown s p = false ∧ isCtl m 11 = true ∧ portUs p = none) ∧
    (∃ (s : State) (p : Port) (m : PdMsg) (u : US), (phyOf s p).inHand = some m ∧ thymeDown s p = false ∧ isCtl m 11 = true ∧ portUs p = some u ∧ (pwrOf s p).swap = none) ∧
    (∃ (s : State) (u : US) (m : PdMsg) (w : Swap), (phyOf s (usPort u)).inHand = some m ∧ thymeDown s (usPort u) = false ∧ (pwrOf s (usPort u)).swap = some w ∧ w.ours = true ∧ w.phase = 0 ∧ isCtl m 3 = true) ∧
    (∃ (s : State) (u : US) (m : PdMsg) (w : Swap), (phyOf s (usPort u)).inHand = some m ∧ thymeDown s (usPort u) = false ∧ (pwrOf s (usPort u)).swap = some w ∧ w.ours = true ∧ w.phase = 0 ∧ (isCtl m 4 = true ∨ isCtl m 16 = true) ∧ isCtl m 3 = false) ∧
    (∃ (s : State) (u : US) (m : PdMsg) (w : Swap), (phyOf s (usPort u)).inHand = some m ∧ thymeDown s (usPort u) = false ∧ (pwrOf s (usPort u)).swap = some w ∧ w.ours = true ∧ w.phase = 0 ∧ isCtl m 12 = true ∧ isCtl m 3 = false ∧ isCtl m 4 = false ∧ isCtl m 16 = false ∧ w.waits < 5) ∧
    (∃ (s : State) (u : US) (j : Fin 51) (w : Swap), (pwrOf s (usPort u)).swap = some w ∧ w.ours = true ∧ w.phase = 2 ∧ thymeDown s (usPort u) = false) ∧
    (∃ (s : State) (u : US) (w : Swap), (pwrOf s (usPort u)).swap = some w ∧ w.kind = 0 ∧ w.phase = 1 ∧ thymeDown s (usPort u) = false) ∧
    (∃ (s : State) (u : US), (tcOf s (usPort u)).st = .attached ∧ (tcOf s (usPort u)).dfp = true ∧ explicit s (usPort u) = true ∧ (pwrOf s (usPort u)).newCon = none ∧ (pwrOf s (usPort u)).swap = none ∧ thymeDown s (usPort u) = false) ∧
    (∃ (s : State) (u : US), (pwrOf s (usPort u)).frsArm = true ∧ isSink s (usPort u) = true ∧ (pwrOf s (usPort u)).frs = none) ∧
    (∃ (s : State) (u : US) (m : PdMsg), (phyOf s (usPort u)).inHand = some m ∧ thymeDown s (usPort u) = false ∧ isCtl m 19 = true ∧ (pwrOf s (usPort u)).frs ≠ none) ∧
    (∃ (s : State) (u : US) (m : PdMsg), (phyOf s (usPort u)).inHand = some m ∧ thymeDown s (usPort u) = false ∧ isCtl m 19 = true ∧ (pwrOf s (usPort u)).frs = none) ∧
    (∃ (s : State) (u : US) (x : Nat), (pwrOf s (usPort u)).frs = some x) :=
  ⟨⟨hand 10, 3, (ctl 10), by decide +kernel⟩,
   ⟨handU (ctl 10), 0, (ctl 10), .us0, by decide +kernel⟩,
   ⟨hand 9, 3, (ctl 9), by decide +kernel⟩,
   ⟨handU (ctl 9), 0, (ctl 9), .us0, by decide +kernel⟩,
   ⟨hand 11, 3, (ctl 11), by decide +kernel⟩,
   ⟨handU (ctl 11), 0, (ctl 11), .us0, by decide +kernel⟩,
   ⟨swapU (ctl 3) sw0, .us0, (ctl 3), sw0, by decide +kernel⟩,
   ⟨swapU (ctl 4) sw0, .us0, (ctl 4), sw0, by decide +kernel⟩,
   ⟨swapU (ctl 12) sw0, .us0, (ctl 12), sw0, by decide +kernel⟩,
   ⟨swapU (ctl 3) { sw0 with phase := 2 }, .us0, 7, { sw0 with phase := 2 }, by decide +kernel⟩,
   ⟨swapU (ctl 3) { sw0 with phase := 1 }, .us0, { sw0 with phase := 1 }, by decide +kernel⟩,
   ⟨dfp0, .us0, by decide +kernel⟩,
   ⟨frs0, .us0, by decide +kernel⟩,
   ⟨frsU (ctl 19), .us0, (ctl 19), by decide +kernel⟩,
   ⟨handU (ctl 19), .us0, (ctl 19), by decide +kernel⟩,
   ⟨frsU (ctl 19), .us0, 0, by decide +kernel⟩⟩

/-- The premises of VoltageTransitionsAndStagesRun, clause by clause. -/
theorem witness_VoltageTransitionsAndStagesRun :
    (∃ (s : State) (p : Port) (v : VTrans) (c : Contract), (pwrOf s p).trans = some v ∧ (pwrOf s p).newCon = some c ∧ v.phase = 0 ∧ thymeDown s p = false) ∧
    (∃ (s : State) (v : List Nat) (p : Port), s.lane.adcSlot < 3 ∧ nextTrans s = some p ∧ unitFenced s .adc (.channel (portCode p)) = false) ∧
    (∃ (s : State) (v : List Nat) (p : Port), ¬(s.lane.adcSlot < 3 ∧ (nextTrans s).isSome = true) ∧ s.lane.adcSteady = p.val ∧ unitFenced s .adc (.channel (portCode p)) = false) ∧
    (∃ (s : State) (p : Port) (v : VTrans), (pwrOf s p).trans = some v ∧ v.phase = 1) ∧
    (∃ (s : State) (p : Port), True) ∧
    (∃ (s : State) (p : Port), inTrans s p = false) ∧
    (∃ (s : State) (p : Port), inTrans s p = true) ∧
    (∃ (s : State) (p : Port) (b : Byte), psfSeen s p = true) ∧
    (∃ (s : State) (p : Port) (b : Byte), psfSeen s p = false) ∧
    (∃ (s : State) (p : Port), True) ∧
    (∃ (s : State) (p : Port) (w : BitVec 16) (n : Nat), pslReads s p = true ∧ n < 4) ∧
    (∃ (s : State) (p : Port) (v i n : Nat), pslReads s p = true ∧ (tcOf s p).st = .attached ∧ n < 4) ∧
    (∃ (s : State) (p : Port) (x : Int) (n : Nat), pslReads s p = true ∧ 4 ≤ n) ∧
    (∃ (s : State) (p : Port) (x : Int) (n : Nat), pslReads s p = true ∧ n = 0) ∧
    (∃ (s : State), True) ∧
    (∃ (s : State) (p : Port) (x : Nat), (pwrOf s p).hr = some (1, x)) ∧
    (∃ (s : State) (p : Port) (x : Nat), (pwrOf s p).hr = some (3, x)) :=
  ⟨⟨tr0, 3, vt0, { kind := 1 }, by decide +kernel⟩,
   ⟨tr0, [], 3, by decide +kernel⟩,
   ⟨up, [], 0, by decide +kernel⟩,
   ⟨tr1, 3, { vt0 with phase := 1 }, by decide +kernel⟩,
   ⟨up, 3, by decide +kernel⟩,
   ⟨up, 3, by decide +kernel⟩,
   ⟨tr0, 3, by decide +kernel⟩,
   ⟨up, 3, 1, by decide +kernel⟩,
   ⟨unpop, 3, 1, by decide +kernel⟩,
   ⟨up, 3, by decide +kernel⟩,
   ⟨up, 3, 0x10, 1, by decide +kernel⟩,
   ⟨src0, 3, 5000, 100, 0, by decide +kernel⟩,
   ⟨up, 3, 250, 4, by decide +kernel⟩,
   ⟨up, 3, 250, 0, by decide +kernel⟩,
   ⟨up, by decide +kernel⟩,
   ⟨{ src0 with pwr := src0.pwr.set 3 { hr := some (1, 0) } }, 3, 0, by decide +kernel⟩,
   ⟨{ src0 with pwr := src0.pwr.set 3 { hr := some (3, 0) } }, 3, 0, by decide +kernel⟩⟩

/-- The premises of GuardAndDisplayRun, clause by clause. -/
theorem witness_GuardAndDisplayRun :
    (∃ (s : State) (p : Port) (f a : List Nat) (b : BootIn), s.sup.aon = true ∧ s.sup.porLow = false ∧ populated s p = true ∧ guardAction s p = 2 ∧ asleep s = false ∧ (guardOf s p).st ≠ 0) ∧
    (∃ (s : State) (p : Port) (f a : List Nat) (b : BootIn), s.sup.aon = true ∧ s.sup.porLow = false ∧ populated s p = true ∧ guardAction s p = 0 ∧ asleep s = false) ∧
    (∃ (s : State), True) ∧
    (∃ (s : State) (d : DS) (i : Fin 2) (x : Nat), dpInput s d = some i ∧ s.dp[i].due = some x ∧ s.dp[i].phase = 0 ∧ explicit s (dsPort d) = true ∧ thymeDown s (dsPort d) = false ∧ isSource s (dsPort d) = true) ∧
    (∃ (s : State) (d : DS) (m : PdMsg) (i : Fin 2), (phyOf s (dsPort d)).inHand = some m ∧ thymeDown s (dsPort d) = false ∧ isData m 15 = true ∧ (vdmCmd m).2 = 1 ∧ dpInput s d = some i ∧ s.dp[i].phase ≠ 0 ∧ s.dp[i].phase < 7 ∧ (vdmSvid m, (vdmCmd m).1) = dpExpect s.dp[i].phase) ∧
    (∃ (s : State) (d : DS) (m : PdMsg) (i : Fin 2), (phyOf s (dsPort d)).inHand = some m ∧ thymeDown s (dsPort d) = false ∧ isData m 15 = true ∧ 2 ≤ (vdmCmd m).2 ∧ dpInput s d = some i ∧ s.dp[i].phase ≠ 0 ∧ s.dp[i].phase < 7 ∧ (vdmSvid m, (vdmCmd m).1) = dpExpect s.dp[i].phase) ∧
    (∃ (s : State) (d : DS) (i : Fin 2), dpInput s d = some i ∧ s.dp[i].phase ≠ 0 ∧ s.dp[i].phase < 7) ∧
    (∃ (s : State) (d : DS) (m : PdMsg) (i : Fin 2), (phyOf s (dsPort d)).inHand = some m ∧ thymeDown s (dsPort d) = false ∧ isData m 15 = true ∧ vdmCmd m = (6, 0) ∧ dpInput s d = some i ∧ vdmSvid m = 0xFF01 ∧ 2 ≤ msgObjs m.header ∧ s.dp[i].phase = 7) ∧
    (∃ (s : State) (d : DS) (m : PdMsg) (i : Fin 2), (phyOf s (dsPort d)).inHand = some m ∧ thymeDown s (dsPort d) = false ∧ isData m 15 = true ∧ vdmCmd m = (6, 0) ∧ dpInput s d = some i ∧ vdmSvid m = 0xFF01 ∧ 2 ≤ msgObjs m.header ∧ s.dp[i].phase ≠ 7) ∧
    (∃ (s : State) (i : Fin 2) (x : Nat), s.dp[i].irqAt = some x) ∧
    (∃ (s : State) (i : Fin 2) (x : Nat), s.dp[i].irqAt = none ∧ s.dp[i].irqPend = true ∧ s.dp[i].irqLast = some x) ∧
    (∃ (s : State) (i : Fin 2) (x : Nat), s.dp[i].irqAt = none ∧ s.dp[i].irqPend = false ∧ s.dp[i].lowAt = some x ∧ s.dp[i].hpdSeen = true ∧ s.dp[i].hpd = false ∧ s.dp[i].phase = 7) ∧
    (∃ (s : State) (d : DS) (m : PdMsg) (i : Fin 2), (phyOf s (dsPort d)).inHand = some m ∧ thymeDown s (dsPort d) = false ∧ isData m 15 = true ∧ vdmCmd m = (5, 0) ∧ dpInput s d = some i ∧ 5 ≤ s.dp[i].phase) ∧
    (∃ (s : State) (d : DS) (m : PdMsg), (phyOf s (dsPort d)).inHand = some m ∧ thymeDown s (dsPort d) = false ∧ isData m 15 = true ∧ vdmCmd m = (5, 0) ∧ dpInput s d = none) :=
  ⟨⟨grd0, 3, [], [], b0, by decide +kernel⟩,
   ⟨grd1, 3, [], [], b0, by decide +kernel⟩,
   ⟨up, by decide +kernel⟩,
   ⟨dpx 0 (some 0), 1, 0, 0, by decide +kernel⟩,
   ⟨dpm 1 (vdmM 0xFF00 0 1 1), 1, (vdmM 0xFF00 0 1 1), 0, by decide +kernel⟩,
   ⟨dpm 1 (vdmM 0xFF00 0 2 1), 1, (vdmM 0xFF00 0 2 1), 0, by decide +kernel⟩,
   ⟨dpx 1 none, 1, 0, by decide +kernel⟩,
   ⟨dpm 7 (vdmM 0xFF01 1 0 6), 1, (vdmM 0xFF01 1 0 6), 0, by decide +kernel⟩,
   ⟨dpm 5 (vdmM 0xFF01 1 0 6), 1, (vdmM 0xFF01 1 0 6), 0, by decide +kernel⟩,
   ⟨{ up with dp := up.dp.set 0 { irqAt := some 0 } }, 0, 0, by decide +kernel⟩,
   ⟨{ up with dp := up.dp.set 0 { irqPend := true, irqLast := some 0 } }, 0, 0, by decide +kernel⟩,
   ⟨{ up with dp := up.dp.set 0 { lowAt := some 0, hpdSeen := true, phase := 7 } }, 0, 0, by decide +kernel⟩,
   ⟨dpm 7 (vdmM 0xFF01 1 0 5), 1, (vdmM 0xFF01 1 0 5), 0, by decide +kernel⟩,
   ⟨handm (vdmM 0xFF01 1 0 5), 1, (vdmM 0xFF01 1 0 5), by decide +kernel⟩⟩

/-- The premises of LaneIoRuns, clause by clause. -/
theorem witness_LaneIoRuns :
    (∃ (s : State) (i : Fin 2) (x : Nat × Nat), s.lio.kick[i].pulse = some x) ∧
    (∃ (s : State) (i : Fin 2) (x : Nat) (b : Bool), s.lio.kick[i].report = some (x, b)) ∧
    (∃ (s : State) (n : Fin 2) (l : Bool) (b : BootIn), s.sup.aon = true ∧ s.sup.porLow = false ∧ s.lio.sense.getLsbD n.val ≠ l ∧ asleep s = false ∧ s.lio.wake.getLsbD n.val = false) ∧
    (∃ (s : State) (n : Fin 2) (l : Bool) (b : BootIn), s.sup.aon = true ∧ s.sup.porLow = false ∧ s.lio.sense.getLsbD n.val ≠ l ∧ asleep s = true ∧ s.lio.wake.getLsbD n.val = true) ∧
    (∃ (s : State) (n : Fin 16) (e : Bool), s.pmu.reported = .active ∧ blockFenced s .lio = false ∧ s.lio.edgeEn.getLsbD (2 * n.val + (if e then 0 else 1)) = true ∧ tabGet s.lio.pendAt n.val ≠ some (s.now / 125000)) ∧
    (∃ (s : State) (n : Fin 16) (e : Bool), s.pmu.reported = .active ∧ blockFenced s .lio = false ∧ s.lio.edgeEn.getLsbD (2 * n.val + (if e then 0 else 1)) = true ∧ tabGet s.lio.pendAt n.val = some (s.now / 125000)) :=
  ⟨⟨{ up with lio := { up.lio with kick := up.lio.kick.set 0 { pulse := some (0, 5) } } }, 0, (0, 5), by decide +kernel⟩,
   ⟨{ up with lio := { up.lio with kick := up.lio.kick.set 0 { report := some (0, true) } } }, 0, 0, true, by decide +kernel⟩,
   ⟨{ up with lio := { up.lio with wake := 0 } }, 0, true, b0, by decide +kernel⟩,
   ⟨{ asleep0 with lio := { asleep0.lio with wake := 3 } }, 0, true, b0, by decide +kernel⟩,
   ⟨{ up with lio := { up.lio with edgeEn := 0xFFFFFFFF } }, 0, true, by decide +kernel⟩,
   ⟨{ up with lio := { up.lio with edgeEn := 0xFFFFFFFF, pendAt := [(0, 0)] } }, 0, true, by decide +kernel⟩⟩

/-- The premises of FaultsRun, clause by clause. -/
theorem witness_FaultsRun :
    (∃ (s : State) (b : Block) (k : Fin 32) (n : Nat) (p : Bool), (srcClass b k.val).isSome = true ∧ unitOk b k.val (unitFor b k.val n) = true) ∧
    (∃ (s : State) (b : Block) (k : Fin 32) (n : Nat) (p : Bool), srcClass b k.val = none) ∧
    (∃ (s : State) (b : Block) (k : Fin 32) (l : Bool) (x : LevelCond), s.flt.levels.find? (fun y => y.block == b && y.source == k.val) = some x) ∧
    (∃ (s : State), True) ∧
    (∃ (s : State) (n : Nat), 100 ≤ n) ∧
    (∃ (s : State) (n : Nat), unitOk .sage 10 n = true) ∧
    (∃ (s : State) (c : Fin 8) (n : Nat), 20 ≤ n ∧ (fltRec s (.chv c)).reset = false) ∧
    (∃ (s : State) (i : Fin 6) (n : Nat), 1000 ≤ n ∧ (fltRec s (.thy i)).reset = false) ∧
    (∃ (s : State) (n : Nat), 100 ≤ n) ∧
    (∃ (s : State) (x : Int), x < tjWarn ∧ tjWarn - 50 < x) ∧
    (∃ (s : State) (x : Int), tjWarn ≤ x ∧ x < tjWarn + 100 ∧ s.therm.warnOver = false) ∧
    (∃ (s : State) (x : Int), tjWarn + 100 ≤ x ∧ s.therm.tripOver = false ∧ s.therm.warnOver = true) :=
  ⟨⟨up, .dmc, 8, 0, false, by decide +kernel⟩,
   ⟨up, .dmc, 31, 0, false, by decide +kernel⟩,
   ⟨{ up with flt := { up.flt with levels := [lev0] } }, .dmc, 8, true, lev0, by decide +kernel⟩,
   ⟨up, by decide +kernel⟩,
   ⟨up, 100, by decide +kernel⟩,
   ⟨up, 1, by decide +kernel⟩,
   ⟨up, 2, 20, by decide +kernel⟩,
   ⟨up, 2, 1000, by decide +kernel⟩,
   ⟨up, 100, by decide +kernel⟩,
   ⟨up, (tjWarn - 10), by omega⟩,
   ⟨up, (tjWarn + 10), by omega, by omega, by decide +kernel⟩,
   ⟨{ up with therm := { up.therm with warnOver := true } }, (tjWarn + 100), by omega, by decide +kernel, by decide +kernel⟩⟩

/-- The premises of SafeAndAcknowledgementRun, clause by clause. -/
theorem witness_SafeAndAcknowledgementRun :
    (∃ (s : State) (d : Bool) (b : Block), s.flt.safePend = some b ∧ mayEnterSafe s = true) ∧
    (∃ (s : State) (b : BootIn) (k : Block), s.flt.safeCause = some k ∧ s.pmu.reported = .safe ∧ s.clk.refLost = none ∧ fltCount s k < fltLimit s k) ∧
    (∃ (s : State) (b : BootIn) (k : Block), s.flt.safeCause = some k ∧ s.pmu.reported = .safe ∧ s.clk.refLost = none ∧ fltLimit s k ≤ fltCount s k ∧ (fltRec s k).limitHeld = false) ∧
    (∃ (s : State) (b : Block) (l : List ReadBack) (x : Nat), (fltRec s b).quietEnd = some x ∧ safeHolds s = false ∧ asleep s = false ∧ s.pmu.reported ≠ .boot) ∧
    (∃ (s : State) (b : Block), ackHost s = false ∧ (fltRec s b).pending = true ∧ safeHolds s = false ∧ (isExclusive s.pmu.reported = false ∨ s.pmu.reported = .suspend) ∧ (fltRec s b).safeCause = false ∧ ((fltRec s b).cls = some .ce ∨ (fltRec s b).conseq = true ∨ (fltRec s b).leavesNone = true)) ∧
    (∃ (s : State) (b : Block) (v : Word), s.sup.mainOn = true ∧ s.sup.porLow = false) ∧
    (∃ (s : State) (b : Block) (v : Word), (s.pmu.reported = .service ∨ testEnabled s = true) ∧ asleep s = false) ∧
    (∃ (s : State) (b : Block) (v : Word), s.pmu.reported ≠ .service ∧ testEnabled s = false) ∧
    (∃ (s : State) (x : Nat), s.avail.lastCkpt = some x ∧ x + 3600000000000 ≤ s.now ∧ asleep s = false ∧ safeHolds s = false ∧ s.sup.ready = true ∧ almExhausted s.alm (checkpointWrites s) = false) :=
  ⟨⟨{ up with flt := { up.flt with safePend := some .dmc } }, true, .dmc, by decide +kernel⟩,
   ⟨safe0, b0, .dmc, by decide +kernel⟩,
   ⟨safe1, b0, .dmc, by decide +kernel⟩,
   ⟨(setRec .dmc { fltRec up .dmc with quietEnd := some 0 } up), .dmc, [], 0, by decide +kernel⟩,
   ⟨(setRec .dmc { fltRec up .dmc with pending := true, cls := some .ce } up), .dmc, by decide +kernel⟩,
   ⟨up, .dmc, 1, by decide +kernel⟩,
   ⟨svc0, .dmc, 0x100, by decide +kernel⟩,
   ⟨up, .dmc, 0x100, by decide +kernel⟩,
   ⟨{ up with now := 3600000000000, avail := { up.avail with lastCkpt := some 0 } }, 0, by decide +kernel⟩⟩

/-- The premises of RegistersOverSpitRun, clause by clause. -/
theorem witness_RegistersOverSpitRun :
    (∃ (s : State) (n : Nat) (i : Byte) (a : Word) (l : List Byte) (r : Nat) (b : BootIn), spitPowered s = true ∧ s.pmu.reported = .suspend ∧ n < 5000) ∧
    (∃ (s : State) (n : Nat) (i : Byte) (a : Word) (l : List Byte) (r : Nat) (b : BootIn), spitPowered s = true ∧ s.pmu.reported ≠ .suspend ∧ i = 0x0B ∧ ¬(wordSpace a.toNat = true ∧ a.toNat % 4 ≠ 0)) ∧
    (∃ (s : State) (n : Nat) (i : Byte) (a : Word) (l : List Byte) (r : Nat) (b : BootIn), spitPowered s = true ∧ s.pmu.reported ≠ .suspend ∧ i = 0x0B ∧ wordSpace a.toNat = true ∧ a.toNat % 4 ≠ 0) ∧
    (∃ (s : State) (n : Nat) (i : Byte) (a : Word) (l : List Byte) (r : Nat) (b : BootIn), spitPowered s = true ∧ s.pmu.reported ≠ .suspend ∧ i = 0x02 ∧ ¬(wordSpace a.toNat = true ∧ a.toNat % 4 ≠ 0)) ∧
    (∃ (s : State) (n : Nat) (i : Byte) (a : Word) (l : List Byte) (r : Nat) (b : BootIn), spitPowered s = true ∧ s.pmu.reported ≠ .suspend ∧ i ≠ 0x02 ∧ i ≠ 0x0B) ∧
    (∃ (s : State) (a v : Word) (b : BootIn), spitPowered s = true ∧ a.toNat % 4 = 0 ∧ fltAddr a.toNat = none ∧ a.toNat < 0x1000) ∧
    (∃ (s : State) (a v : Word) (b : BootIn) (k : Block) (o : Nat), spitPowered s = true ∧ a.toNat % 4 = 0 ∧ fltAddr a.toNat = some (k, o) ∧ o = 0x18 ∧ regWritable s = true) ∧
    (∃ (s : State) (a v : Word) (b : BootIn) (k : Block) (o : Nat), spitPowered s = true ∧ a.toNat % 4 = 0 ∧ fltAddr a.toNat = some (k, o) ∧ o ≠ 0x18) ∧
    (∃ (s : State) (a v : Word) (b : BootIn), a.toNat % 4 ≠ 0) ∧
    (∃ (s : State) (r : Fin 16) (v : BitVec 16), s.sup.ready = true ∧ r.val ≠ 0 ∧ r.val < 8) ∧
    (∃ (s : State) (r : Fin 16) (v : BitVec 16), s.sup.ready = true ∧ 8 < r.val) ∧
    (∃ (s : State) (r : Fin 16) (v : BitVec 16), s.sup.ready = true ∧ r.val = 8) ∧
    (∃ (s : State) (r : Fin 16) (b : Bool), s.sup.ready = true ∧ (ringPair r).val ≠ 0) ∧
    (∃ (s : State) (r : Fin 16), s.sup.ready = true ∧ (ringPair r).val ≠ 0) ∧
    (∃ (s : State) (r : Fin 16) (a : BitVec 10) (n : BitVec 4), s.sup.ready = true ∧ (ringPair r).val ≠ 0) ∧
    (∃ (s : State) (v : BitVec 6), s.sup.ready = true) ∧
    (∃ (s : State) (v : BitVec 12), s.sup.ready = true) ∧
    (∃ (s : State) (n : BitVec 5), s.sup.ready = true ∧ n ≠ 0 ∧ n.toNat ≤ 16) ∧
    (∃ (s : State) (n : BitVec 5), s.sup.ready = true ∧ (n = 0 ∨ 16 < n.toNat)) :=
  ⟨⟨susp0, 100, 0x0B, 0, [], 4, b0, by decide +kernel⟩,
   ⟨up, 100, 0x0B, 0, [], 4, b0, by decide +kernel⟩,
   ⟨up, 100, 0x0B, 1, [], 4, b0, by decide +kernel⟩,
   ⟨up, 100, 0x02, 0, [1, 2, 3, 4], 0, b0, by decide +kernel⟩,
   ⟨up, 100, 0x9F, 0, [], 0, b0, by decide +kernel⟩,
   ⟨up, 0x10, 0, b0, by decide +kernel⟩,
   ⟨svc0, 0x105018, 0, b0, .dmc, 0x18, by decide +kernel⟩,
   ⟨up, 0x105014, 0, b0, .dmc, 0x14, by decide +kernel⟩,
   ⟨up, 0x11, 0, b0, by decide +kernel⟩,
   ⟨up, 1, 1, by decide +kernel⟩,
   ⟨up, 9, 1, by decide +kernel⟩,
   ⟨up, 8, 1, by decide +kernel⟩,
   ⟨up, 1, true, by decide +kernel⟩,
   ⟨up, 1, by decide +kernel⟩,
   ⟨up, 1, 4, 5, by decide +kernel⟩,
   ⟨up, 1, by decide +kernel⟩,
   ⟨up, 1, by decide +kernel⟩,
   ⟨up, 1, by decide +kernel⟩,
   ⟨up, 17, by decide +kernel⟩⟩

/-- The premises of I2ctAndPriorityRun, clause by clause. -/
theorem witness_I2ctAndPriorityRun :
    (∃ (s : State) (b : Option Nat) (k : Fin 8) (n op st : Nat) (f : Byte) (g : Word), s.sup.ready = true ∧ asleep s = false ∧ s.sup.sysLow = false ∧ s.sup.porLow = false ∧ s.pmu.reported ≠ .off ∧ (takeOrder s).find? (mayTake s) = some k ∧ readHead s.mbx k b = .wrong n st op f g) ∧
    (∃ (s : State) (b : Option Nat) (k : Fin 8) (n : Nat), s.sup.ready = true ∧ asleep s = false ∧ s.sup.sysLow = false ∧ s.sup.porLow = false ∧ s.pmu.reported ≠ .off ∧ (takeOrder s).find? (mayTake s) = some k ∧ readHead s.mbx k b = .bad n) ∧
    (∃ (s : State) (b : Option Nat) (k : Fin 8) (n : Nat) (r : Req), s.sup.ready = true ∧ asleep s = false ∧ s.sup.sysLow = false ∧ s.sup.porLow = false ∧ s.pmu.reported ≠ .off ∧ (takeOrder s).find? (mayTake s) = some k ∧ readHead s.mbx k b = .cmd n 0x0B02 r ∧ Passes specEcho r s ∧ noTarget r = true ∧ FitsRing r (okR r.payload)) ∧
    (∃ (s : State) (b : Option Nat), (takeOrder s).find? (mayTake s) = none) ∧
    (∃ (s : State) (e : Cpl0Slot) (l : List Cpl0Slot), s.mbx.cpl0 = e :: l) ∧
    (∃ (s : State) (a : BitVec 7) (pec : Bool), a = i2ctAddr s ∧ s.sup.ready = true ∧ pec = true) ∧
    (∃ (s : State) (a : BitVec 7) (pec : Bool), a = i2ctAddr s ∧ s.sup.ready = true ∧ pec = false) ∧
    (∃ (s : State) (a : BitVec 7) (l : List Byte) (pec : Bool), a = i2ctAddr s ∧ i2ctUp s = true ∧ pec = true ∧ 16 ≤ l.length ∧ l.length ≤ 255 ∧ (l.length + 63) / 64 ≤ ringFree s.mbx.rings[(4 : Fin 16)]) ∧
    (∃ (s : State) (a : BitVec 7) (l : List Byte) (pec : Bool), a = i2ctAddr s ∧ i2ctUp s = true ∧ pec = true ∧ ringFree s.mbx.rings[(4 : Fin 16)] < (l.length + 63) / 64) ∧
    (∃ (s : State) (a : BitVec 7) (pec : Bool) (x : List Byte × Nat), a = i2ctAddr s ∧ i2ctUp s = true ∧ pec = true ∧ oldestEntry s.mbx 12 = some x) ∧
    (∃ (s : State) (a : BitVec 7) (pec : Bool), a = i2ctAddr s ∧ i2ctUp s = true ∧ pec = true ∧ oldestEntry s.mbx 12 = none) ∧
    (∃ (s : State) (a : BitVec 7) (l : List Byte) (pec : Bool), a = i2ctAddr s ∧ i2ctUp s = true ∧ pec = true ∧ 16 ≤ l.length ∧ l.length ≤ 255 ∧ (cmd0Append .i2ct l s.mbx).2 = true) ∧
    (∃ (s : State) (a : BitVec 7) (pec : Bool) (x : List Byte × Cpl0Slot), a = i2ctAddr s ∧ i2ctUp s = true ∧ pec = true ∧ oldestCpl0 .i2ct s.mbx = some x) ∧
    (∃ (s : State) (n : Nat), 35 ≤ n) ∧
    (∃ (s : State) (a : BitVec 7) (pec : Bool), a ≠ i2ctAddr s) ∧
    (∃ (s : State) (a : BitVec 7) (l : List Byte) (pec : Bool), a ≠ i2ctAddr s) ∧
    (∃ (s : State) (a : BitVec 7) (pec : Bool), a ≠ i2ctAddr s) ∧
    (∃ (s : State) (a : BitVec 7) (l : List Byte) (pec : Bool), a ≠ i2ctAddr s) ∧
    (∃ (s : State) (a : BitVec 7) (pec : Bool), a ≠ i2ctAddr s) :=
  ⟨⟨take0, none, 1, 1, 0x101, 0x202, 0, 0, by decide +kernel⟩,
   ⟨take1, none, 1, 1, by decide +kernel⟩,
   ⟨take2, none, 1, 1, ech0, by decide +kernel⟩,
   ⟨up, none, by decide +kernel⟩,
   ⟨{ up with mbx := { up.mbx with cpl0 := [cp0] } }, cp0, [], by decide +kernel⟩,
   ⟨up, 0x2C, true, by decide +kernel⟩,
   ⟨up, 0x2C, false, by decide +kernel⟩,
   ⟨up, 0x2C, (List.replicate 16 0), true, by decide +kernel⟩,
   ⟨full4, 0x2C, (List.replicate 16 0), true, by decide +kernel⟩,
   ⟨cpl4, 0x2C, true, (List.replicate 16 0, 1), by decide +kernel⟩,
   ⟨up, 0x2C, true, by decide +kernel⟩,
   ⟨up, 0x2C, (List.replicate 16 0), true, by decide +kernel⟩,
   ⟨{ up with mbx := { up.mbx with cpl0 := [cp0] } }, 0x2C, true, (List.replicate 64 0, cp0), by decide +kernel⟩,
   ⟨up, 35, by decide +kernel⟩,
   ⟨up, 0x2D, true, by decide +kernel⟩,
   ⟨up, 0x2D, [], true, by decide +kernel⟩,
   ⟨up, 0x2D, true, by decide +kernel⟩,
   ⟨up, 0x2D, [], true, by decide +kernel⟩,
   ⟨up, 0x2D, true, by decide +kernel⟩⟩

/-- The premises of LmfTransportRuns, clause by clause. -/
theorem witness_LmfTransportRuns :
    (∃ (s : State) (u : US) (n : Nat) (l : List Byte), lmfUp (begun s) u = true ∧ n ≠ 0 ∧ n % 64 = 0 ∧ n ≤ 1024 ∧ prioGo (begun s) u n = true) ∧
    (∃ (s : State) (u : US) (n : Nat) (l : List Byte), lmfUp (begun s) u = true ∧ (n = 0 ∨ n % 64 ≠ 0 ∨ 1024 < n)) ∧
    (∃ (s : State) (u : US) (n : Nat) (l : List Byte), lmfUp (begun s) u = true ∧ n ≠ 0 ∧ n % 64 = 0 ∧ n ≤ 1024 ∧ prioGo (begun s) u n = false) ∧
    (∃ (s : State) (u : US) (n : Nat) (x : List Byte × Cpl0Slot), lmfUp (begun s) u = true ∧ 64 ≤ n ∧ n ≤ 1024 ∧ n % 64 = 0 ∧ oldestCpl0 (.lmf u) (begun s).mbx = some x ∧ 64 * x.2.slots ≤ n ∧ prioGo (begun s) u (takeCpl0 u (begun s).mbx n (begun s).mbx.cpl0).1.length = true) ∧
    (∃ (s : State) (u : US), lmfUp (begun s) u = true) ∧
    (∃ (s : State) (u : US), lmfUp (begun s) u = true) ∧
    (∃ (s : State) (u : US) (l : List Byte) (e : Bool), lmfUp (begun s) u = true ∧ l.length ≤ lmfBulkMps (begun s) u ∧ (((begun s).mbx.lmf[u.idx].rx ++ l).length + 63) / 64 ≤ ringFree (begun s).mbx.rings[cmdRing (lmfPair u)] ∧ tagFree (begun s) 3 none = true) ∧
    (∃ (s : State) (u : US) (l : List Byte) (e : Bool), lmfUp (begun s) u = true ∧ l.length ≤ lmfBulkMps (begun s) u ∧ (ringFree (begun s).mbx.rings[cmdRing (lmfPair u)] < (((begun s).mbx.lmf[u.idx].rx ++ l).length + 63) / 64 ∨ tagFree (begun s) 3 none = false)) ∧
    (∃ (s : State) (u : US), lmfUp (begun s) u = true ∧ ringCount (begun s).mbx.rings[cplRing (lmfPair u)] ≠ 0 ∧ tagFree (begun s) 3 none = true) ∧
    (∃ (s : State) (u : US), lmfUp (begun s) u = true ∧ (ringCount (begun s).mbx.rings[cplRing (lmfPair u)] = 0 ∨ tagFree (begun s) 3 none = false)) ∧
    (∃ (s : State) (u : US), lmfUp (begun s) u = true ∧ lmfReport (begun s) u ≠ (begun s).mbx.lmf[u.idx].lastReport ∧ (begun s).mbx.lmf[u.idx].reportAt ≠ some ((begun s).now / 125000) ∧ tagFree (begun s) 2 none = true) ∧
    (∃ (s : State) (u : US), lmfUp (begun s) u = true) :=
  ⟨⟨lmf0, .us0, 64, [], by decide +kernel⟩,
   ⟨lmf0, .us0, 63, [], by decide +kernel⟩,
   ⟨{ lmf0 with links := lmf0.links.set 0 { prioUsed := 16384 } }, .us0, 64, [], by decide +kernel⟩,
   ⟨{ lmf0 with mbx := { lmf0.mbx with cpl0 := [cp1] } }, .us0, 64, (List.replicate 64 0, cp1), by decide +kernel⟩,
   ⟨lmf0, .us0, by decide +kernel⟩,
   ⟨lmf0, .us0, by decide +kernel⟩,
   ⟨lmf0, .us0, [], true, by decide +kernel⟩,
   ⟨lmf1, .us0, (List.replicate 64 0), true, by decide +kernel⟩,
   ⟨lmf2, .us0, by decide +kernel⟩,
   ⟨lmf0, .us0, by decide +kernel⟩,
   ⟨lmf0, .us0, by decide +kernel⟩,
   ⟨lmf0, .us0, by decide +kernel⟩⟩

/-- The premises of SystemCommandsRun, clause by clause. -/
theorem witness_SystemCommandsRun :
    (∃ (s : State) (r : Req), Passes specIdentify r s ∧ noTarget r = true ∧ FitsRing r (okR (identifyResult s))) ∧
    (∃ (s : State) (r : Req), Passes specModeStatus r s ∧ noTarget r = true ∧ FitsRing r (okR (le 4 (modeStatWord s) ++ le 4 (modeSelWord s) ++ le 8 (unavailNs s) ++ le 8 s.avail.since ++ le 4 s.avail.events))) ∧
    (∃ (s : State) (r : Req), Passes specLaneTimeRead r s ∧ noTarget r = true ∧ FitsRing r (okR (le 8 s.now ++ le 1 (laneQuality s) ++ [0] ++ le 2 s.clk.epoch ++ le 4 (min 0xFFFFFFFF (boundNow s / 1000000)) ++ le 1 s.clk.sleepQuality ++ [0, 0, 0] ++ le 8 s.clk.sleepElapsed))) ∧
    (∃ (s : State) (r : Req), Passes specWakeRecordRead r s ∧ noTarget r = true ∧ FitsRing r (okR ((wakeWords s.wake).flatMap (le 4)))) ∧
    (∃ (s : State) (r : Req), Passes specEcho r s ∧ noTarget r = true ∧ FitsRing r (okR r.payload)) ∧
    (∃ (s : State) (r : Req) (m : Mode), Passes specModeRequest r s ∧ accFull r s = false ∧ idMode (fld r.payload 0 1) = some m ∧ targetAccepted s m = true ∧ noTarget r = true ∧ (modeLevel m).isSome = true ∧ sleepMode m = false ∧ fld r.payload 4 8 = 0 ∧ bit (fld r.payload 1 1) 0 = false ∧ FitsRing r (requestRun m (fresh s)).2) ∧
    (∃ (s : State) (r : Req) (m : Mode), Passes specModeRequest r s ∧ accFull r s = false ∧ idMode (fld r.payload 0 1) = some m ∧ targetAccepted s m = true ∧ noTarget r = true ∧ (modeLevel m).isSome = false ∧ sleepMode m = true ∧ bit (fld r.payload 1 1) 0 = false ∧ FitsRing r (requestSleep { target := m, opp := 0, req := none, alarm := fld r.payload 4 8 } (fresh s)).2) :=
  ⟨⟨up, (rq 0 []), by decide +kernel⟩,
   ⟨up, (rq 0 []), by decide +kernel⟩,
   ⟨up, (rq 0 []), by decide +kernel⟩,
   ⟨up, (rq 0 []), by decide +kernel⟩,
   ⟨up, (rq 0 [1, 2, 3]), by decide +kernel⟩,
   ⟨up, (rq 0 (le 1 (modeId .peak) ++ List.replicate 11 0)), .peak, by decide +kernel⟩,
   ⟨up, (rq 0 (le 1 (modeId .hibernate) ++ List.replicate 11 0)), .hibernate, by decide +kernel⟩⟩

/-- The premises of PortAndGuardCommandsRun, clause by clause. -/
theorem witness_PortAndGuardCommandsRun :
    (∃ (s : State) (r : Req) (d : DS) (o : Option US), Passes specPortAssign r s ∧ accFull r s = false ∧ targetDs r = some d ∧ codeOwner (fld r.payload 0 1) = some o ∧ o ≠ ownerOf s d ∧ (∀ u, o = some u → (if (hubOf s u).connected then (hubOf s u).active else (hubOf s u).conf).contains (.port d) = true) ∧ fld r.payload 1 1 ≤ 1 ∧ fld r.payload 2 1 = 0 ∧ fld r.payload 20 16 = 0 ∧ isSealed s d = false ∧ (∀ u, reqHub r = some u → ownerOf s d ≠ some u.other ∧ o ≠ some u.other) ∧ portFenced s (dsPort d) = false ∧ s.own.move[d] = none) ∧
    (∃ (s : State) (r : Req) (p : Port), Passes specPortStatus r s ∧ targetPort r = some p ∧ openGate r s p = none ∧ FitsRing r (okR (portBytes s p))) ∧
    (∃ (s : State) (r : Req), Passes specGuardRuleSet r s ∧ noTarget r = true ∧ fld r.payload 0 2 ≤ 255 ∧ r.badWord = none ∧ (almRead s (0x700 + 4 * fld r.payload 0 2 + 3)).toNat / 2 ^ 24 ≠ 0x5A ∧ FitsRing r (okR [])) ∧
    (∃ (s : State) (r : Req) (p : Port), Passes specGuardStatus r s ∧ targetPort r = some p ∧ openGate r s p = none ∧ FitsRing r (okR (guardBytes s p))) :=
  ⟨⟨hs1, (rq 0x21 (List.replicate 36 0)), 0, none, by decide +kernel⟩,
   ⟨up, (rq 0x10 []), 0, by decide +kernel⟩,
   ⟨up, (rq 0 (List.replicate 20 0)), by decide +kernel⟩,
   ⟨up, (rq 0x10 []), 0, by decide +kernel⟩⟩

/-- The premises of SchedulingCommandsRun, clause by clause. -/
theorem witness_SchedulingCommandsRun :
    (∃ (s : State) (r : Req), Passes specSchedSet r s ∧ fld r.payload 0 1 = 1 ∧ noTarget r = true ∧ 25 ≤ fld r.payload 4 1 ∧ fld r.payload 4 1 ≤ 95 ∧ 1 ≤ fld r.payload 6 2 ∧ fld r.payload 6 2 ≤ 4096 ∧ FitsRing r (okR r.payload)) ∧
    (∃ (s : State) (r : Req) (d : DS) (q : Nat × Epq), Passes specSchedSet r s ∧ fld r.payload 0 1 = 0 ∧ targetDs r = some d ∧ fld r.payload 10 2 ≤ 1024 ∧ qselQueue s d r.payload 4 = some q ∧ dsGate r s d = none ∧ r.ring.val ≠ 4) ∧
    (∃ (s : State) (r : Req) (d : DS) (q : Nat × Epq), Passes specShaperSet r s ∧ accFull r s = false ∧ targetDs r = some d ∧ qselQueue s d r.payload 0 = some q ∧ meterOk (meterOf r.payload) 1 = true ∧ 2 ≤ q.2.cls ∧ dsGate r s d = none) ∧
    (∃ (s : State) (r : Req) (d : DS) (q : Nat × Epq), Passes specPolicerSet r s ∧ accFull r s = false ∧ targetDs r = some d ∧ qselQueue s d r.payload 0 = some q ∧ meterOk (meterOf r.payload) 2 = true ∧ q.2.cls ≠ 0 ∧ dsGate r s d = none) ∧
    (∃ (s : State) (r : Req) (p : Port), Passes specObserveRead r s ∧ bit (fld r.payload 4 1) 2 = true ∧ bit (fld r.payload 4 1) 1 = false ∧ fld r.payload 0 4 = 0 ∧ targetPort r = some p ∧ p.val ≤ 9 ∧ portGate r s p = none ∧ FitsRing r (okR ((linkOf s p).busy.flatMap (le 8)))) ∧
    (∃ (s : State) (r : Req) (d : DS) (q : Nat × Epq), Passes specObserveRead r s ∧ bit (fld r.payload 4 1) 2 = false ∧ bit (fld r.payload 4 1) 0 = false ∧ targetDs r = some d ∧ dsGate r s d = none ∧ qselQueue s d r.payload 0 = some q ∧ r.ring.val ≠ 4) :=
  ⟨⟨up, (rq 0 ([1, 0, 0, 0, 50, 0, 8, 0])), by decide +kernel⟩,
   ⟨epq1s, (rq 0x21 ([0, 0, 0, 0, 0, 1, 1, 0] ++ List.replicate 12 0)), 0, (0, epq1), by decide +kernel⟩,
   ⟨epq1s, (rq 0x21 ([0, 1, 1, 0] ++ List.replicate 20 0)), 0, (0, epq1), by decide +kernel⟩,
   ⟨epq1s, (rq 0x21 ([0, 1, 1, 0] ++ List.replicate 20 0)), 0, (0, epq1), by decide +kernel⟩,
   ⟨up, (rq 0x10 [0, 0, 0, 0, 4, 0, 0, 0]), 0, by decide +kernel⟩,
   ⟨epq1s, (rq 0x21 [0, 1, 1, 0, 0, 0, 0, 0]), 0, (0, epq1), by decide +kernel⟩⟩

/-- The premises of PlacementCommandsRun, clause by clause. -/
theorem witness_PlacementCommandsRun :
    (∃ (s : State) (r : Req), Passes specPlaceStatus r s ∧ noTarget r = true ∧ fld r.payload 0 2 + fld r.payload 2 2 ≤ 512) ∧
    (∃ (s : State) (r : Req) (d : DS) (q : Nat × Epq), Passes specPlacePin r s ∧ accFull r s = false ∧ targetDs r = some d ∧ qselQueue s d r.payload 0 = some q ∧ fld r.payload 4 1 = 2 ∧ fld r.payload 5 1 = 0 ∧ fld r.payload 6 1 < 8 ∧ fld r.payload 7 1 ≤ 1 ∧ dsGate r s d = none) ∧
    (∃ (s : State) (r : Req), Passes specPlaceRebuild r s ∧ accFull r s = false ∧ noTarget r = true ∧ fld r.payload 0 1 = 0) ∧
    (∃ (s : State) (r : Req), Passes specPlaceRebuild r s ∧ noTarget r = true ∧ (fld r.payload 0 1 = 1 ∨ fld r.payload 0 1 = 2)) :=
  ⟨⟨up, (rq 0 [0, 0, 1, 0]), by decide +kernel⟩,
   ⟨epq1s, (rq 0x21 [0, 1, 1, 0, 2, 0, 0, 1]), 0, (0, epq1), by decide +kernel⟩,
   ⟨up, (rq 0 [0, 0, 0, 0]), by decide +kernel⟩,
   ⟨up, (rq 0 [1, 0, 0, 0]), by decide +kernel⟩⟩

/-- The premises of VigilCommandsRun, clause by clause. -/
theorem witness_VigilCommandsRun :
    (∃ (s : State) (r : Req), Passes (specVigilPolicySet r) r s ∧ noTarget r = true ∧ bit (fld r.payload 0 1) 0 = false ∧ 10 ≤ fld r.payload 2 2 ∧ fld r.payload 2 2 ≤ 1000 ∧ 1 ≤ fld r.payload 4 4 ∧ fld r.payload 4 4 ≤ 86400 ∧ 1 ≤ fld r.payload 8 2 ∧ fld r.payload 8 2 ≤ 16) ∧
    (∃ (s : State) (r : Req), Passes specVigilArm r s ∧ noTarget r = true ∧ fld r.payload 2 2 ≤ 1 ∧ (allDs.filter (fun d => bit (fld r.payload 0 2) d.val)).any (isSealed s) = false ∧ (allDs.filter (fun d => bit (fld r.payload 0 2) d.val)).any (elsewhere r s) = false) ∧
    (∃ (s : State) (r : Req) (d : DS), Passes specVigilStatus r s ∧ targetDs r = some d ∧ dsGate r s d = none ∧ FitsRing r (okR (vigilPortForm s d))) ∧
    (∃ (s : State) (r : Req) (u : US), Passes specVigilStatus r s ∧ targetUs r = some u ∧ usGate r u = none ∧ FitsRing r (okR (vigilHubForm s u))) ∧
    (∃ (s : State) (r : Req) (d : DS), Passes specCaptureRead r s ∧ targetDs r = some d ∧ dsGate r s d = none ∧ s.vig.rings[d].alloc = 0 ∧ 1 ≤ fld r.payload 8 2 ∧ fld r.payload 8 2 ≤ 4096 ∧ bit (fld r.payload 10 1) 0 = false) ∧
    (∃ (s : State) (r : Req) (u : US), Passes specFailoverSet r s ∧ targetUs r = some u ∧ reqHub r ≠ some u.other ∧ (fld r.payload 0 1 = 0 ∨ codeUs (fld r.payload 0 1) = some u.other) ∧ fld r.payload 1 1 ≤ 1 ∧ fld r.payload 2 1 ≤ 100 ∧ bit (fld r.payload 3 1) 0 = false ∧ fld r.payload 4 2 ≤ 1000 ∧ 1 ≤ fld r.payload 6 2 ∧ fld r.payload 6 2 ≤ 3600 ∧ (portList (fld r.payload 8 1) (slice r.payload 9 15)).isSome = true) ∧
    (∃ (s : State) (r : Req) (u : US) (l : List DS), Passes specFailback r s ∧ accFull r s = false ∧ targetUs r = some u ∧ reqHub r ≠ some u.other ∧ portList (fld r.payload 0 1) (slice r.payload 1 15) = some l ∧ backOrder s u ≠ [] ∧ l.any (fun d => homeOf s d != some u) = false ∧ ((hubOf s u).state = .attached ∨ (hubOf s u).state = .suspended) ∧ (foOf s u).back = none) :=
  ⟨⟨up, (rq 0 [0, 0, 100, 0, 60, 0, 0, 0, 4, 0, 0, 0]), by decide +kernel⟩,
   ⟨up, (rq 0 [1, 0, 1, 0]), by decide +kernel⟩,
   ⟨up, (rq 0x21 []), 0, by decide +kernel⟩,
   ⟨up, (rq 0x10 []), .us0, by decide +kernel⟩,
   ⟨cap0, (rq 0x21 ([0, 0, 0, 0, 0, 0, 0, 0, 1, 0, 0, 0])), 0, by decide +kernel⟩,
   ⟨up, (rq 0x10 ([0x11, 1, 10, 0, 5, 0, 60, 0, 0] ++ List.replicate 15 0)), .us0, by decide +kernel⟩,
   ⟨fo5, (rq 0x10 (List.replicate 16 0)), .us0, [], by decide +kernel⟩⟩

/-- The premises of PowerAndDisplayCommandsRun, clause by clause. -/
theorem witness_PowerAndDisplayCommandsRun :
    (∃ (s : State) (r : Req), Passes specPowerBudgetSet r s ∧ accFull r s = false ∧ noTarget r = true ∧ fld r.payload 0 2 ≤ 30000 ∧ bit (fld r.payload 2 1) 0 = false) ∧
    (∃ (s : State) (r : Req) (p : Port), Passes (specPortPowerPolicy r) r s ∧ targetPort r = some p ∧ policyOk p (fld r.payload 0 2) r.payload = true ∧ (if powerOffForm r.payload then openGate r s p else portGate r s p) = none ∧ bit (fld r.payload 2 1) 0 = false) ∧
    (∃ (s : State) (r : Req) (p : Port), Passes specContractStatus r s ∧ targetPort r = some p ∧ openGate r s p = none ∧ FitsRing r (okR (contractBytes s p))) ∧
    (∃ (s : State) (r : Req) (u : US), Passes specRoleSwap r s ∧ accFull r s = false ∧ targetUs r = some u ∧ usGate r u = none ∧ fld r.payload 0 1 ≤ 2 ∧ portFenced s (usPort u) = false ∧ thymeDown s (usPort u) = false ∧ (pwrOf s (usPort u)).swap = none ∧ accBusy (.roleSwap u) s = false ∧ swapRefused s (usPort u) = false) ∧
    (∃ (s : State) (r : Req) (i : Fin 2), Passes specDpRoute r s ∧ accFull r s = false ∧ dpRouteOk s r = true ∧ fld r.payload 0 1 = i.val ∧ dpGate r s i = none ∧ blockFenced s .dpx = false ∧ unitFenced s .dpx (.route i.val) = false ∧ bit (fld r.payload 4 1) 0 = false) ∧
    (∃ (s : State) (r : Req) (i : Fin 2), Passes specDrawerKick r s ∧ accFull r s = false ∧ noTarget r = true ∧ fld r.payload 0 1 = i.val ∧ 5 ≤ fld r.payload 1 1 ∧ fld r.payload 1 1 ≤ 20 ∧ blockFenced s .lio = false ∧ unitFenced s .lio (.output i.val) = false ∧ s.sup.ballsFloat = false ∧ s.lio.kick[(0 : Fin 2)].pulse = none ∧ s.lio.kick[(1 : Fin 2)].pulse = none ∧ s.lio.kick[i].lockUntil ≤ s.now) :=
  ⟨⟨up, (rq 0 [0x10, 0x27, 0, 0]), by decide +kernel⟩,
   ⟨up, (rq 0x22 ([1, 0, 0, 1] ++ List.replicate 12 0)), 3, by decide +kernel⟩,
   ⟨up, (rq 0x10 []), 0, by decide +kernel⟩,
   ⟨dfp0, (rq 0x10 [0, 0, 0, 0]), .us0, by decide +kernel⟩,
   ⟨up, (rq 0 [0, 0x22, 0, 0, 0, 0, 0, 0]), 0, by decide +kernel⟩,
   ⟨up, (rq 0 [0, 10, 0, 0]), 0, by decide +kernel⟩⟩

/-- The premises of FaultAndFenceCommandsRun, clause by clause. -/
theorem witness_FaultAndFenceCommandsRun :
    (∃ (s : State) (r : Req) (b : Block), Passes specFaultRead r s ∧ r.target ≠ 0xFF ∧ targetBlock r = some b ∧ FitsRing r (okR ([1, 0, 0, 0] ++ faultEntry s b))) ∧
    (∃ (s : State) (r : Req), Passes specFaultRead r s ∧ r.target = 0xFF ∧ FitsRing r (okR (le 1 (pendingBlocks s).length ++ [0, 0, 0] ++ (pendingBlocks s).flatMap (faultEntry s)))) ∧
    (∃ (s : State) (r : Req) (b : Block), Passes specFaultAck r s ∧ targetBlock r = some b ∧ FitsRing r (okR [])) ∧
    (∃ (s : State) (r : Req) (b : Block), Passes specFaultInject r s ∧ targetBlock r = some b ∧ (∀ n < 32, bit (fld r.payload 0 4) n = true → (srcClass b n).isSome = true) ∧ fld r.payload 4 4 = 0xFFFFFFFF) ∧
    (∃ (s : State) (r : Req) (b : Block) (k : FUnit), Passes specFence r s ∧ targetBlock r = some b ∧ fenceUnit b (fld r.payload 0 4) = some k ∧ lastChervil s b = false ∧ blockSealed s b = false) ∧
    (∃ (s : State) (r : Req) (b : Block), Passes specUnfence r s ∧ targetBlock r = some b) :=
  ⟨⟨up, (rq 0x10 []), (.us .us0), by decide +kernel⟩,
   ⟨up, (rq 0xFF []), by decide +kernel⟩,
   ⟨up, (rq 0x10 [1, 0, 0, 0]), (.us .us0), by decide +kernel⟩,
   ⟨svc0, (rq (blockId .dmc) [0, 1, 0, 0, 0xFF, 0xFF, 0xFF, 0xFF]), .dmc, by decide +kernel⟩,
   ⟨up, (rq 0x21 [0xFF, 0xFF, 0xFF, 0xFF]), (.ds 0), .whole, by decide +kernel⟩,
   ⟨up, (rq 0x21 []), (.ds 0), by decide +kernel⟩⟩

/-- The premises of AlmanacAndFirmwareCommandsRun, clause by clause. -/
theorem witness_AlmanacAndFirmwareCommandsRun :
    (∃ (s : State) (r : Req), Passes specAlmanacRead r s ∧ noTarget r = true ∧ 1 ≤ fld r.payload 2 2 ∧ fld r.payload 2 2 ≤ 250 ∧ fld r.payload 0 2 + fld r.payload 2 2 ≤ 4096 ∧ ((List.range (fld r.payload 2 2)).map (fld r.payload 0 2 + ·)).any almWithheld = false ∧ FitsRing r (okR (((List.range (fld r.payload 2 2)).map (fld r.payload 0 2 + ·)).flatMap (fun w => le 4 (almRead s w).toNat)))) ∧
    (∃ (s : State) (r : Req), Passes specAlmanacWrite r s ∧ almAccessOk s r.ring (fld r.payload 0 2) (writeWords r) = true ∧ noTarget r = true ∧ fld r.payload 0 2 + (writeWords r).length ≤ 4096 ∧ ((writeWords r).mapIdx (fun i v => (fld r.payload 0 2 + i, almStored s (fld r.payload 0 2 + i) v))).all (fun e => almListed e.1) = true ∧ ((writeWords r).mapIdx (fun i v => (fld r.payload 0 2 + i, almStored s (fld r.payload 0 2 + i) v))).any (fun e => wordFenced s e.1) = false ∧ almExhausted s.alm ((writeWords r).mapIdx (fun i v => (fld r.payload 0 2 + i, almStored s (fld r.payload 0 2 + i) v))) = false) ∧
    (∃ (s : State) (r : Req), Passes specAlmanacWear r s ∧ noTarget r = true ∧ 1 ≤ fld r.payload 2 2 ∧ fld r.payload 2 2 ≤ 250 ∧ fld r.payload 0 2 + fld r.payload 2 2 ≤ 4096 ∧ FitsRing r (okR ((List.range (fld r.payload 2 2)).flatMap (fun i => le 4 (almWear s (fld r.payload 0 2 + i)))))) ∧
    (∃ (s : State) (r : Req) (n : Nat), Passes specFwStage r s ∧ accFull r s = false ∧ noTarget r = true ∧ fld r.payload 0 4 = 0 ∧ bit (fld r.payload 4 1) 0 = true ∧ bit (fld r.payload 4 1) 1 = false ∧ (r.payload.drop 8).length ≤ slotSize ∧ stageSlot s = some n ∧ activating s = false ∧ accBusy .fwStage s = false) ∧
    (∃ (s : State) (r : Req) (n : Nat), Passes specFwStage r s ∧ noTarget r = true ∧ fld r.payload 0 4 = s.fw.staged ∧ bit (fld r.payload 4 1) 0 = false ∧ bit (fld r.payload 4 1) 1 = false ∧ s.fw.staged + (r.payload.drop 8).length ≤ slotSize ∧ stageSlot s = some n ∧ activating s = false ∧ accBusy .fwStage s = false) ∧
    (∃ (s : State) (r : Req) (n : Nat), Passes specFwActivate r s ∧ noTarget r = true ∧ fld r.payload 0 1 = 0 ∧ stagedSlot s.fw = some n ∧ activating s = false) ∧
    (∃ (s : State) (r : Req), Passes specFwActivate r s ∧ noTarget r = true ∧ fld r.payload 0 1 = 2 ∧ s.fw.trial = true ∧ s.fw.running < 2 ∧ activating s = false ∧ almExhausted s.alm (rollbackWrites s) = false) ∧
    (∃ (s : State) (r : Req), Passes specFwStatus r s ∧ noTarget r = true ∧ FitsRing r (okR (fwStatusResult s))) :=
  ⟨⟨up, (rq 0 [0, 2, 1, 0]), by decide +kernel⟩,
   ⟨up, (rq 0 [0, 2, 1, 0, 5, 0, 0, 0]), by decide +kernel⟩,
   ⟨up, (rq 0 [0, 2, 1, 0]), by decide +kernel⟩,
   ⟨fw0, (rq 0 ([0, 0, 0, 0, 1, 0, 0, 0] ++ List.replicate 256 0)), 1, by decide +kernel⟩,
   ⟨fw0, (rq 0 ([0, 0, 0, 0, 0, 0, 0, 0] ++ List.replicate 256 0)), 1, by decide +kernel⟩,
   ⟨fw1, (rq 0 [0, 0, 0, 0]), 1, by decide +kernel⟩,
   ⟨fw2, (rq 0 [2, 0, 0, 0]), by decide +kernel⟩,
   ⟨up, (rq 0 []), by decide +kernel⟩⟩

/-- The premises of TestAndRegisterCommandsRun, clause by clause. -/
theorem witness_TestAndRegisterCommandsRun :
    (∃ (s : State) (r : Req) (n : Nat), Passes specLoopback r s ∧ accFull r s = false ∧ loopUnit r = some n ∧ fld r.payload 0 1 ≠ 0 ∧ depthOffered n (fld r.payload 0 1) = true ∧ loopGate r s = none ∧ loopFenced s n = false ∧ loopBusy s n (fld r.payload 0 1) = false) ∧
    (∃ (s : State) (r : Req), Passes specPattern r s ∧ accFull r s = false ∧ fld r.payload 0 1 ≤ 4 ∧ targetBlock r = some .pkb ∧ patternIn 0xB0000 0x1F0000 128 (fld r.payload 4 8) (fld r.payload 12 8) = true ∧ blockFenced s .pkb = false ∧ s.test.pkb = none ∧ accBusy (.pattern .pkb) s = false) ∧
    (∃ (s : State) (r : Req), Passes specPattern r s ∧ accFull r s = false ∧ fld r.payload 0 1 ≤ 4 ∧ targetBlock r = some .dmc ∧ patternIn (spillStart s) usableEnd 48 (fld r.payload 4 8) (fld r.payload 12 8) = true ∧ blockFenced s .dmc = false ∧ s.test.dmc = none ∧ accBusy (.pattern .dmc) s = false ∧ spillMeets s (fld r.payload 4 8) (fld r.payload 12 8) = false) ∧
    (∃ (s : State) (r : Req) (b : Block) (l : List Nat), Passes specRegRead r s ∧ targetBlock r = some b ∧ 1 ≤ fld r.payload 2 2 ∧ fld r.payload 2 2 ≤ 250 ∧ fld r.payload 4 4 % 4 = 0 ∧ spaceWords s b (fld r.payload 0 1) (fld r.payload 4 4) (fld r.payload 2 2) = some l ∧ (fld r.payload 0 1 ≠ 0 ∨ blockSealed s b = false) ∧ FitsRing r (okR (l.flatMap (le 4)))) ∧
    (∃ (s : State) (r : Req), Passes specRegWrite r s ∧ targetBlock r = some .lio ∧ fld r.payload 0 1 = 0 ∧ regWriteFail s .lio 0 (writePairs (fld r.payload 4 4) (r.payload.drop 8)) = none) ∧
    (∃ (s : State) (r : Req) (b : Block), Passes specRegWrite r s ∧ targetBlock r = some b ∧ fld r.payload 0 1 = 1 ∧ regWriteFail s b 1 (writePairs (fld r.payload 4 4) (r.payload.drop 8)) = none ∧ (persist ((writePairs (fld r.payload 4 4) (r.payload.drop 8)).flatMap (fun e => rpWrites b e.1 e.2)) r.badWord (fresh s)).2 = stOk) :=
  ⟨⟨svc0, (rq 0x10 [1, 0, 0, 0, 0, 0, 0, 0]), 0, by decide +kernel⟩,
   ⟨svc0, (rq (blockId .pkb) ([1, 0, 0, 0] ++ le 8 0xB0000 ++ le 8 256)), by decide +kernel⟩,
   ⟨svc0, (rq (blockId .dmc) ([1, 0, 0, 0] ++ le 8 (spillStart svc0) ++ le 8 48)), by decide +kernel, by decide +kernel, by decide +kernel, by decide +kernel, pattern_fits, by decide +kernel⟩,
   ⟨up, (rq (blockId .lio) [0, 0, 1, 0, 0, 0, 0, 0]), .lio, [0], by decide +kernel⟩,
   ⟨up, (rq (blockId .lio) ([0, 0, 1, 0] ++ le 4 4 ++ le 4 1)), by decide +kernel⟩,
   ⟨up, (rq (blockId .dmc) ([1, 0, 1, 0] ++ le 4 0x18 ++ le 4 1)), .dmc, by decide +kernel⟩⟩

/-- The premises of TestEventsRun, clause by clause. -/
theorem witness_TestEventsRun :
    (∃ (s : State) (n : Fin 19) (e : Nat) (b : Bool) (l : Loop), tabGet s.test.loops n.val = some l ∧ b = false ∧ l.dur ≠ 0 ∧ l.depth ≠ 4) ∧
    (∃ (s : State) (b : Bool) (e c f : Nat), b = true ∧ s.test.dmc ≠ none) ∧
    (∃ (s : State) (b : Bool) (e c f : Nat) (p : Pat), b = false ∧ s.test.pkb = some p ∧ cellsTested p = true) ∧
    (∃ (s : State) (c e k f : Nat) (p : Pat), s.test.pkb = some p ∧ p.start ≤ c * 128 ∧ c * 128 < p.start + p.bytes ∧ (heldCells (fresh s) ++ deadCells (fresh s)).contains c = false) ∧
    (∃ (s : State) (p : Pat), s.test.pkb = some p ∧ cellsTested p = false) ∧
    (∃ (s : State) (u : US), (isExclusive s.pmu.reported = false ∨ s.pmu.reported = .suspend) ∧ safeHolds s = false ∧ (usOf s u).ssTerm = true ∧ (usOf s u).link ≠ .rxDetect ∧ (usOf s u).link ≠ .disabled) ∧
    (∃ (s : State) (u : US) (v : Option (Fin 15)), v = none ∧ (usOf s u).ssTerm = true ∧ s.clk.ssPllLock = true ∧ ((usOf s u).link = .rxDetect ∨ (usOf s u).link = .polling)) ∧
    (∃ (s : State) (u : US) (v : Option (Fin 15)) (w : Fin 15) (d : DS), v = some w ∧ hubUp s u true = true ∧ ownedAt s u w = some d ∧ d.val < 8 ∧ ssHeldByDp (hostSeen u (emit (.control u []) (fresh s))) d = false ∧ portFenced (hostSeen u (emit (.control u []) (fresh s))) (dsPort d) = false ∧ movingNow (hostSeen u (emit (.control u []) (fresh s))) d = false) ∧
    (∃ (s : State) (p : Port) (d : DS), portDs p = some d ∧ (dsOf s d).link = .compliance) ∧
    (∃ (s : State) (u : US) (v : Fin 15) (n : Nat) (d : DS), hubUp s u false = true ∧ ownedAt s u v = some d) ∧
    (∃ (s : State) (u : US) (n : Nat), hubUp s u false = true ∧ testMode n = true) ∧
    (∃ (s : State) (p : Port) (m : PdMsg), (phyOf s p).inHand = some m ∧ thymeDown s p = false ∧ isData m 3 = true ∧ s.pmu.reported = .service ∧ (pwrOf s p).vout = 5000 ∧ bits (pdObj m 0) 31 28 = 5) ∧
    (∃ (s : State) (p : Port) (m : PdMsg), (phyOf s p).inHand = some m ∧ thymeDown s p = false ∧ isData m 3 = true ∧ s.pmu.reported = .service ∧ (pwrOf s p).vout = 5000 ∧ bits (pdObj m 0) 31 28 = 8) ∧
    (∃ (s : State) (p : Port) (m : PdMsg), (phyOf s p).inHand = some m ∧ thymeDown s p = false ∧ isData m 3 = true ∧ s.pmu.reported ≠ .service) ∧
    (∃ (s : State) (p : Port), (phyOf s p).bist = 1) ∧
    (∃ (s : State) (i : Jtag) (r : Bool) (l : List (Ball × Bool)), s.sup.mainOn = true ∧ s.sup.ballsFloat = false ∧ r = true ∧ i = .idcode) ∧
    (∃ (s : State) (i : Jtag) (r : Bool) (l : List (Ball × Bool)), s.sup.mainOn = true ∧ s.sup.ballsFloat = false ∧ r = true ∧ i = .bypass) ∧
    (∃ (s : State) (i : Jtag) (r : Bool) (l : List (Ball × Bool)), s.sup.mainOn = true ∧ s.sup.ballsFloat = false ∧ r = true ∧ (i = .samplePreload ∨ (drivesBalls i = true ∧ scanRuns (fresh s) = true))) ∧
    (∃ (s : State) (i : Jtag) (r : Bool) (l : List (Ball × Bool)), s.sup.mainOn = true ∧ s.sup.ballsFloat = false ∧ r = true ∧ drivesBalls i = true ∧ scanRuns (fresh s) = false) ∧
    (∃ (s : State) (i : Jtag) (r : Bool) (l : List (Ball × Bool)), s.sup.mainOn = true ∧ s.sup.ballsFloat = false ∧ r = false) :=
  ⟨⟨loop0, 0, 0, false, lp0, by decide +kernel⟩,
   ⟨{ svc0 with test := { svc0.test with dmc := some pat0 } }, true, 0, 0, 0, by decide +kernel⟩,
   ⟨{ svc0 with test := { svc0.test with pkb := some pat0 } }, false, 0, 0, 0, pat0, by decide +kernel⟩,
   ⟨{ svc0 with test := { svc0.test with pkb := some pat1 } }, 5632, 0, 0, 0, pat1, by decide +kernel⟩,
   ⟨{ svc0 with test := { svc0.test with pkb := some pat1 } }, pat1, by decide +kernel⟩,
   ⟨ss0, .us0, by decide +kernel⟩,
   ⟨pol0, .us0, none, by decide +kernel⟩,
   ⟨ss0, .us0, (some 1), 1, 0, by decide +kernel⟩,
   ⟨{ ss0 with dsd := ss0.dsd.set 0 { link := .compliance } }, 2, 0, by decide +kernel⟩,
   ⟨hs1, .us0, 1, 4, 0, by decide +kernel⟩,
   ⟨hs0, .us0, 4, by decide +kernel⟩,
   ⟨bist0 (dat 3 [0x50000000]), 3, (dat 3 [0x50000000]), by decide +kernel⟩,
   ⟨bist0 (dat 3 [0x80000000]), 3, (dat 3 [0x80000000]), by decide +kernel⟩,
   ⟨handm (dat 3 [0x50000000]), 3, (dat 3 [0x50000000]), by decide +kernel⟩,
   ⟨{ src0 with phy := src0.phy.set 3 { bist := 1 } }, 3, by decide +kernel⟩,
   ⟨up, .idcode, true, [], by decide +kernel⟩,
   ⟨up, .bypass, true, [], by decide +kernel⟩,
   ⟨up, .samplePreload, true, [], by decide +kernel⟩,
   ⟨up, .extest, true, [], by decide +kernel⟩,
   ⟨up, .idcode, false, [], by decide +kernel⟩⟩

/-- The premises of LinksAndPdTimersRun, clause by clause. -/
theorem witness_LinksAndPdTimersRun :
    (∃ (s : State) (x : Nat), s.clk.refLost = some x) ∧
    (∃ (s : State), mainUp s = true) ∧
    (∃ (s : State) (u : US) (g : Bool) (n : Nat), (usOf s u).ssTerm = true ∧ s.clk.ssPllLock = true ∧ ((usOf s u).link = .u1 ∨ (usOf s u).link = .u2 ∨ (usOf s u).link = .u3 ∨ (usOf s u).link = .recovery)) ∧
    (∃ (s : State) (u : US) (g : Bool) (n : Nat), (usOf s u).ssTerm = true ∧ s.clk.ssPllLock = true ∧ ((usOf s u).link = .rxDetect ∨ (usOf s u).link = .polling ∨ (usOf s u).link = .inactive)) ∧
    (∃ (s : State) (u : US) (b : Bool), (usOf s u).link ≠ .rxDetect ∧ (usOf s u).link ≠ .disabled) ∧
    (∃ (s : State) (p : Port), thymeDown s p = false ∧ (phyOf s p).ams = 2) ∧
    (∃ (s : State) (p : Port), thymeDown s p = false ∧ (phyOf s p).ams = 4) ∧
    (∃ (s : State) (p : Port), thymeDown s p = false ∧ ((phyOf s p).ams = 1 ∨ (phyOf s p).ams = 3)) :=
  ⟨⟨{ up with clk := { up.clk with refLost := some 0 } }, 0, by decide +kernel⟩,
   ⟨main0, by decide +kernel⟩,
   ⟨{ pol0 with usd := up.usd.set 0 { link := .u1, ssTerm := true } }, .us0, true, 1, by decide +kernel⟩,
   ⟨pol0, .us0, true, 2, by decide +kernel⟩,
   ⟨pol0, .us0, true, by decide +kernel⟩,
   ⟨{ src0 with phy := src0.phy.set 3 { ams := 2 } }, 3, by decide +kernel⟩,
   ⟨{ src0 with phy := src0.phy.set 3 { ams := 4 } }, 3, by decide +kernel⟩,
   ⟨{ src0 with phy := src0.phy.set 3 { ams := 3 } }, 3, by decide +kernel⟩⟩

/-- The premises of EmptyQueueTicks. -/
theorem witness_EmptyQueueTicks :
    (∃ s : State, s.pending = [] ∧ s.clk.tbOn = false) ∧ (∃ s : State, s.pending = [] ∧ s.clk.tbOn = true ∧ s.clk.refLost = none) ∧
    (∃ (s : State) (x : Nat), s.pending = [] ∧ s.clk.tbOn = true ∧ s.clk.refLost = some x) :=
  ⟨⟨State.reset, by decide +kernel⟩, ⟨up, by decide +kernel⟩,
   ⟨{ up with clk := { up.clk with refLost := some 0 } }, 0, by decide +kernel⟩⟩

/-- The premises of EveryStepKeepsCanon. -/
theorem witness_EveryStepKeepsCanon : ∃ s t : State, Canon s ∧ step s = .next t :=
  ⟨State.reset, tick State.reset, ⟨⟨by decide +kernel, by decide +kernel⟩, ⟨by decide +kernel, by decide +kernel⟩,
    ⟨rfl, rfl, fun _ => by simp [State.reset, sparseGet]⟩, rfl, rfl, rfl⟩, rfl⟩

/-- A command with a reserved flag set. -/
def badFlag : Req := { rq 0 [] with flags := 0x10 }

/-- The premises of RefusedCommandChangesNothing. -/
theorem witness_RefusedCommandChangesNothing :
    ∃ (i : Instr) (c : CmdSpec) (r : Req) (s : State) (st : Nat), checkedCmd i = some (c, r) ∧ precheck c r s = some st ∧ s.mbx.acc = [] :=
  ⟨.echo badFlag, specEcho, badFlag, up, stBadOpcode, rfl, by decide +kernel, by decide +kernel⟩

/-- No row has opcode 0. -/
theorem no_opcode_zero (i : Instr) (c : CmdSpec) (r : Req) (h : checkedCmd i = some (c, r)) : c.opcode ≠ 0 := by
  cases i <;> simp only [checkedCmd, Option.some.injEq, Prod.mk.injEq, reduceCtorEq] at h <;>
    (obtain ⟨rfl, -⟩ := h; exact Nat.noConfusion)

/-- The premises of EveryOpcodeRunsItsRow. -/
theorem witness_EveryOpcodeRunsItsRow :
    (∃ (i : Instr) (c : CmdSpec) (r : Req), checkedCmd i = some (c, r)) ∧
    (∃ (n : Nat) (r : Req), ∀ (i : Instr) (c : CmdSpec), checkedCmd i = some (c, r) → c.opcode ≠ n) :=
  ⟨⟨.echo ech0, specEcho, ech0, rfl⟩, ⟨0, ech0, fun i c h => no_opcode_zero i c ech0 h⟩⟩

/-- The premises of TakenCommandRunsItsRow. -/
theorem witness_TakenCommandRunsItsRow :
    ∃ (b : Option Nat) (s : State) (i : Instr) (c : CmdSpec) (k : Fin 8) (n : Nat) (r : Req),
      s.sup.ready = true ∧ asleep s = false ∧ s.sup.sysLow = false ∧ s.sup.porLow = false ∧ s.pmu.reported ≠ .off ∧
      (takeOrder s).find? (mayTake s) = some k ∧ readHead s.mbx k b = .cmd n c.opcode r ∧ checkedCmd i = some (c, r) :=
  ⟨none, take2, .echo ech0, specEcho, 1, 1, ech0, by decide +kernel, by decide +kernel, by decide +kernel, by decide +kernel,
   by decide +kernel, by decide +kernel, by decide +kernel, rfl⟩

/-- A command with opcode 0 at the head of CMD1. -/
def take3 : State := cmd1 (entryBytes { opcode := 0, flags := 0, tag := 7, status := 0, payload := [] })

/-- The premises of BadHeadIsSkippedAndAnswered. -/
theorem witness_BadHeadIsSkippedAndAnswered :
    (∃ (b : Option Nat) (s : State) (k : Fin 8) (n : Nat), (s.sup.ready = true ∧ asleep s = false ∧ s.sup.sysLow = false ∧
      s.sup.porLow = false ∧ s.pmu.reported ≠ .off ∧ (takeOrder s).find? (mayTake s) = some k) ∧ readHead s.mbx k b = .bad n) ∧
    (∃ (b : Option Nat) (s : State) (k : Fin 8) (n st op : Nat) (f : Byte) (t : Word), (s.sup.ready = true ∧ asleep s = false ∧
      s.sup.sysLow = false ∧ s.sup.porLow = false ∧ s.pmu.reported ≠ .off ∧ (takeOrder s).find? (mayTake s) = some k) ∧
      readHead s.mbx k b = .wrong n st op f t) ∧
    (∃ (b : Option Nat) (s : State) (k : Fin 8) (n op : Nat) (r : Req), (s.sup.ready = true ∧ asleep s = false ∧
      s.sup.sysLow = false ∧ s.sup.porLow = false ∧ s.pmu.reported ≠ .off ∧ (takeOrder s).find? (mayTake s) = some k) ∧
      readHead s.mbx k b = .cmd n op r ∧ ∀ i c, checkedCmd i = some (c, r) → c.opcode ≠ op) :=
  ⟨⟨none, take1, 1, 1, by decide +kernel, by decide +kernel⟩,
   ⟨none, take0, 1, 1, 0x202, 0x101, 0, 0, by decide +kernel, by decide +kernel⟩,
   ⟨none, take3, 1, 1, 0, { ech0 with payload := [] }, by decide +kernel, by decide +kernel, fun i c h => no_opcode_zero i c _ h⟩⟩

/-- The premises of SafeAcceptsItsCommandsAlone: ECHO is accepted, PORT_STATUS is not. -/
theorem witness_SafeAcceptsItsCommandsAlone :
    (∃ (i : Instr) (c : CmdSpec) (r : Req) (s : State), checkedCmd i = some (c, r) ∧ (s.pmu.reported = .safe ∧
      r.flags.toNat / 16 = 0 ∧ ringAccepts c r s.mbx = true ∧ c.lenOk r.payload = true ∧ c.resvOk r.payload = true ∧
      safeRow i r.ring = true)) ∧
    (∃ (i : Instr) (c : CmdSpec) (r : Req) (s : State), checkedCmd i = some (c, r) ∧ (s.pmu.reported = .safe ∧
      r.flags.toNat / 16 = 0 ∧ ringAccepts c r s.mbx = true ∧ c.lenOk r.payload = true ∧ c.resvOk r.payload = true ∧
      safeRow i r.ring = false)) ∧
    (∃ s : State, safeHolds s = true) :=
  ⟨⟨.echo ech0, specEcho, ech0, safe0, rfl, by decide +kernel⟩,
   ⟨.portStatus (rq 0x10 []), specPortStatus, rq 0x10 [], safe0, rfl, by decide +kernel⟩, ⟨safe0, by decide +kernel⟩⟩

/-- The premises of QselNamesAnOpenQueueOrBadTarget: one queue that a QSEL names, and none for each of the five commands. -/
theorem witness_QselNamesAnOpenQueueOrBadTarget :
    (∃ (s : State) (d : DS) (p : List Byte) (off n : Nat) (e : Epq), qselQueue s d p off = some (n, e)) ∧
    (∃ (s : State) (d : DS) (p : List Byte) (off : Nat), qselQueue s d p off = none) ∧
    (∃ (r : Req) (s : State) (d : DS), targetDs r = some d ∧ Passes specSchedSet r s ∧ fld r.payload 0 1 = 0 ∧
      qselQueue s d r.payload 4 = none) ∧
    (∃ (r : Req) (s : State) (d : DS), targetDs r = some d ∧ qselQueue s d r.payload 0 = none ∧ Passes specShaperSet r s ∧
      Passes specPolicerSet r s) ∧
    (∃ (r : Req) (s : State) (d : DS), targetDs r = some d ∧ qselQueue s d r.payload 0 = none ∧ Passes specObserveRead r s ∧
      bit (fld r.payload 4 1) 2 = false) ∧
    (∃ (r : Req) (s : State) (d : DS), targetDs r = some d ∧ qselQueue s d r.payload 0 = none ∧ Passes specPlacePin r s) :=
  ⟨⟨epq1s, 0, [0, 1, 1, 0], 0, 0, epq1, by decide +kernel⟩, ⟨up, 0, [0, 1, 1, 0], 0, by decide +kernel⟩,
   ⟨rq 0x21 (List.replicate 20 0), up, 0, by decide +kernel⟩, ⟨rq 0x21 (List.replicate 24 0), up, 0, by decide +kernel⟩,
   ⟨rq 0x21 (List.replicate 8 0), up, 0, by decide +kernel⟩, ⟨rq 0x21 (List.replicate 8 0), up, 0, by decide +kernel⟩⟩

/-- The premises of AlmanacWindowIsReadOnlyOverSpit: the first and the last word of the window, and an address between words. -/
theorem witness_AlmanacWindowIsReadOnlyOverSpit :
    (∃ (s : State) (a : Word) (data : List Byte), spitPowered s = true ∧ s.pmu.reported ≠ .suspend ∧ 0x400000 ≤ a.toNat ∧
      4 ≤ data.length ∧ a.toNat + data.length ≤ 0x404000) ∧
    (∃ (s : State) (a : Word), spitPowered s = true ∧ s.pmu.reported ≠ .suspend ∧ 0x400000 ≤ a.toNat ∧ a.toNat < 0x404000 ∧
      a.toNat % 4 ≠ 0) ∧
    (∃ (s : State) (a : Word) (setup : Nat), spitPowered s = true ∧ s.pmu.reported = .suspend ∧ 5000 ≤ setup ∧
      0x400000 ≤ a.toNat ∧ a.toNat + 4 ≤ 0x404000 ∧ a.toNat % 4 = 0) :=
  ⟨⟨up, 0x403FFC, [1, 2, 3, 4], by decide +kernel⟩, ⟨up, 0x400001, by decide +kernel⟩, ⟨susp0, 0x400000, 5000, by decide +kernel⟩⟩

/-- DS1 in US0's list without an owner. -/
def noOwner : State := { hs1 with own := { hs1.own with owner := hs1.own.owner.set 0 none } }

/-- The premises of UnownedSlotShowsItsPortCode. -/
theorem witness_UnownedSlotShowsItsPortCode :
    ∃ (s : State) (u : US) (ss : Bool) (v : Fin 15) (d : DS), hubUp s u ss = true ∧ v.val < (hubOf s u).active.length ∧
      slotAt s u v = some (.port d) ∧ ownerOf s d ≠ some u :=
  ⟨noOwner, .us0, false, 1, 0, by decide +kernel⟩

/-- The premises of DownstreamPortsStaySources, with an attached port. -/
theorem witness_DownstreamPortsStaySources :
    (∃ s t : State, DsSource s ∧ (tcOf s 3).st = .attached ∧ step s = .next t) ∧
    (∃ (d : DS) (s : State) (m : PdMsg), (phyOf s (dsPort d)).inHand = some m ∧ thymeDown s (dsPort d) = false ∧ isCtl m 10 = true) ∧
    (∃ (d : DS) (s : State) (m : PdMsg), (phyOf s (dsPort d)).inHand = some m ∧ thymeDown s (dsPort d) = false ∧ isCtl m 9 = true) ∧
    (∃ (d : DS) (s : State) (m : PdMsg), (phyOf s (dsPort d)).inHand = some m ∧ thymeDown s (dsPort d) = false ∧ isCtl m 11 = true) ∧
    (∃ (d : DS) (s : State) (m : PdMsg), (phyOf s (dsPort d)).inHand = some m ∧ thymeDown s (dsPort d) = false ∧ isCtl m 8 = true) ∧
    (∃ (r : Req) (s : State) (d : DS), Passes specRoleSwap r s ∧ targetDs r = some d) :=
  ⟨⟨src0, tick src0, by unfold DsSource; decide +kernel, by decide +kernel, rfl⟩, ⟨1, hand 10, ctl 10, by decide +kernel⟩,
   ⟨1, hand 9, ctl 9, by decide +kernel⟩, ⟨1, hand 11, ctl 11, by decide +kernel⟩, ⟨1, hand 8, ctl 8, by decide +kernel⟩,
   ⟨rq 0x21 [0, 0, 0, 0], up, 0, by decide +kernel⟩⟩

/-- The premise of OneFlippedBitIsCorrected, with what it claims there, at the greatest codeword and its last bit. -/
theorem witness_OneFlippedBitIsCorrected :
    (∃ d : Nat, d < 2 ^ 33 ∧ decodeWord 33 (encodeWord 33 d) = .clean) ∧
    (∃ (d : Nat) (i : Fin 40), d < 2 ^ 33 ∧ decodeWord 33 (encodeWord 33 d ^^^ 2 ^ i.val) = .corrected i.val) :=
  ⟨⟨2 ^ 33 - 1, by decide +kernel⟩, ⟨2 ^ 33 - 1, 39, by decide +kernel⟩⟩

/-! ### Well-formedness refuses -/

/-- One ill-formed command for each check. -/
theorem test_wf_refuses : ([.identify (rq 0 (List.replicate 1009 0)), .identify { rq 0 (List.replicate 1005 0) with flags := 1 },
    .almanacWrite { rq 0 [] with badWord := some 4096 }, .commandTake (some 4096), .suspendWake 0 0 0, .suspendWake 1 256 0,
    .pkbScrub 524288 0 false, .pkbScrub 0 549755813888 false, .dramScrubUnit [(13, 1)], .dramScrubUnit [(12, 4294967296)], .ssHeaderDownstream .us0 { hdr0 with route := 1048576 } true,
    .ssHeaderUpstream 0 { hdr0 with addr := 128 } true, .ssHeaderUpstream 0 { hdr0 with stream := 65536 } true, .ssHeaderUpstream 0 { hdr0 with lseq := 16 } true, .functionWake 0 { hdr0 with ep := 16 }, .dppReceived 0 (List.replicate 1025 0) true,
    .itpReceived .us0 134217728, .linkCommandReceived 0 (.lgood 16), .linkCommandReceived 0 (.lcrd 7), .hsPacketRepeat (.host .us0) (.sof 2048), .hsPacketRepeat (.host .us0) (.token .in_ 128 0 0),
    .csplitNonPeriodic .us0 0 128 0 true, .csplitPeriodic .us0 0 0 16 true, .spilledResultFetch 0 128 0, .ttFsFrameStart .us0 2048,
    .clearTtBuffer .us0 65536 0, .resetTt .us0 65536, .getTtState .us0 65536, .stopTt .us0 65536, .companionSetInterface .us0 256,
    .ssplitNonPeriodic .us0 0 0 0 false false false false .data0 (List.replicate 65 0) true,
    .ssplitPeriodic .us0 0 0 0 false true false .data0 (List.replicate 1024 0)] : List Instr).all (fun i => i.wf == false) = true := by
  decide +kernel

/-- The rest of the checks. -/
theorem test_wf_refuses_more : ([.dsLpmToken 0 false 0 none 16 false, .dsLpmToken 0 false 128 none 0 false, .companionLpm .us0 16 0 false, .proxyPoll 0 16 .nak,
    .hubSetConfiguration .us0 false 128 1, .deviceControlRequest .us0 0 0 false 0 ⟨0, 0, 65536, 0, 0⟩ [] .done [],
    .deviceControlRequest .us0 0 0 false 0 ⟨0, 0, 0, 0, 0⟩ [0] .done [],
    .deviceControlRequest .us0 0 0 false 0 ⟨0, 0, 0, 0, 0⟩ [] .done [⟨256, 0, 1, true, .bulk, 512, 1, 0, 0⟩],
    .getPortVendorStatus .us0 false 65536, .clearPortVendorStatus .us0 false 65536 0, .setHubDepth .us0 65536,
    .ccAttachDebounce 2 0 (some (0, 65536)), .pdMessageReceived 2 0 0 (List.replicate 29 0) true, .guardReading 2 [0, 0, 0, 0, 0] [] b0,
    .faultLatch .dmc 8 4294967296 false, .i2ctCmd4Submit 0x2C (List.replicate 256 0) true, .i2ctCmd0Submit 0x2C (List.replicate 256 0) true,
    .lmfCmd0Submit .us0 65536 [], .lmfCmd0Submit .us0 0 [0], .lmfCpl0Fetch .us0 65536, .lmfBulkOut .us0 (List.replicate 1025 0) true,
    .pkbPatternCellFree 16384 0 0 0, .usb2PortTest .us0 0 256, .usb2TestModeUpstream .us0 256, .upstreamLinkTrained .us0 true 3,
    .egressSelect 0 1025, .coreRegStatusPoll 0 65536 0 0] : List Instr).all (fun i => i.wf == false) = true := by
  decide +kernel

/-- The commands that the statements' witnesses use are well formed. -/
theorem test_wf_accepts : ([.identify (rq 0 []), .echo ech0, .ssHeaderDownstream .us0 hdr0 true, .suspendWake 11 0x30 3,
    .upstreamLinkTrained .us0 true 2, .commandTake none] : List Instr).all Instr.wf = true := by decide +kernel

/-! ### Tests against the spec's own numbers -/

/-- R426: CRC-32C of the nine digits. -/
theorem test_crc32c : crc32c [0x31, 0x32, 0x33, 0x34, 0x35, 0x36, 0x37, 0x38, 0x39] = 0xE3069283 := by decide +kernel

/-- R7: the first and the last port codes, and one never issued. -/
theorem test_port_codes : portCode 0 = 0x10 ∧ portCode 2 = 0x21 ∧ portCode 17 = 0x30 ∧ codePort 0x31 = none := by decide

/-- R395: lane time counts 5 ns. -/
theorem test_tick : (tick up).now = 5 := by decide +kernel

/-- R423: the ring that holds slot 288 is CMD2, and slot 1,008 lies in CPL7. -/
theorem test_geometry : slotRing up.mbx 288 = some 2 ∧ slotRing up.mbx 1008 = some 15 := by decide +kernel

/-- The state after a step that answers one. -/
def after (i : Instr) (s : State) : State := match exec i s with
  | .next t => t
  | _ => s

/-- R429, R465: an ECHO taken from CMD1 writes one entry with its bytes on CPL1 and advances HEAD and TAIL. -/
theorem test_echo_taken : (after (.commandTake none) take2).mbx.rings[(1 : Fin 16)].head = 1 ∧
    (after (.commandTake none) take2).mbx.rings[(9 : Fin 16)].tail = 1 ∧
    memRead 0 (after (.commandTake none) take2).mbx.mem (160 * 64 + 16) 1 = [0x5A] := by decide +kernel

/-- R424: a TAIL write beyond the ring's depth is OVERRUN. -/
theorem test_overrun : (after (.ringTailWrite 1 129) up).mbx.rings[(1 : Fin 16)].errCode = 1 := by decide +kernel

/-- R435: PRIO_DOORBELL 17 sets FRAME_ERR. -/
theorem test_prio : (after (.prioDoorbell 17) up).mbx.frameErr = true := by decide +kernel

/-- R350: a PR_Swap on a downstream port is answered Reject, message type 4. -/
theorem test_reject : ((phyOf (after (.prSwapReceived 3) (hand 10)) 3).tx.map (fun m => m.header % 32)) = [4] := by decide +kernel

/-- R173: an upstream reset without a chirp answer leaves the upstream port at full speed. -/
theorem test_chirp : (usOf (after (.upstreamUsb2Reset .us0 false) { hs0 with usd := hs0.usd.set 0 { pullup := true } }) .us0).speed2 = 1 := by
  decide +kernel

/-- R404, R409: a fault source latches its class and number. -/
theorem test_fault : (fltRec (after (.faultLatch .dmc 8 0 false) up) .dmc).source = 8 ∧
    (fltRec (after (.faultLatch .dmc 8 0 false) up) .dmc).pending = true := by decide +kernel

/-- R88: every bit of a codeword that flips alone is corrected, and the stored APAR that differs beside it is an address error. -/
theorem test_ecc_single : (List.range 40).all (fun i => readDram (2 ^ i) == .corrected i) = true := by decide +kernel

/-- R88: two flipped bits are uncorrectable. -/
theorem test_ecc_double : (List.range 39).all (fun i => readDram (2 ^ i + 2 ^ (i + 1)) == .uncorrectable) = true := by decide +kernel

/-- R89: a tag names its owner and region at its own unit and at no other. -/
theorem test_unit_tag : readTag (unitTag 0x1234 5 77) 77 = some (0x1234, 5) ∧ readTag (unitTag 0x1234 5 77) 78 = none := by
  decide +kernel

/-- R495: JTAG's IDCODE. -/
theorem test_idcode : (after (.jtagInstruction .idcode true []) up).out = [.idcode 0x171629E7] := by decide +kernel

/-- R474: an Almanac write of another value counts one write; the same value counts none. -/
theorem test_wear : sparseGet 0 (almWriteAll up.alm [(5, 7), (5, 7), (5, 8)]).wear 5 = 2 := by decide +kernel

end Sys2Proof.Machine
end

section
/-! SUPPORT. The codes of ports and blocks (R7, R402): every port and every block reads back from its code, and which codes name no
port. -/

set_option Elab.async false

namespace Sys2Proof.Machine

@[simp] theorem codePort_portCode (p : Port) : codePort (portCode p) = some p := by
  obtain ⟨k, hk⟩ := p
  by_cases h : k < 2
  · obtain rfl | rfl : k = 0 ∨ k = 1 := by omega
    · rfl
    · rfl
  · have h₀ : ¬ 0x1F + k = 0x10 := by omega
    have h₁ : ¬ 0x1F + k = 0x11 := by omega
    have hds : 0x21 ≤ 0x1F + k ∧ 0x1F + k ≤ 0x30 := by omega
    simp [codePort, portCode, h, h₀, h₁, hds]

/-- R7 issues 0x10, 0x11 and 0x21 to 0x30, and no other code. -/
theorem codePort_eq_none_iff (c : Nat) : codePort c = none ↔ c ≠ 0x10 ∧ c ≠ 0x11 ∧ (c < 0x21 ∨ 0x30 < c) := by
  unfold codePort
  split_ifs <;> simp <;> omega

@[simp] theorem portCode_dsPort (d : DS) : portCode (dsPort d) = 0x21 + d.val := by
  have h : ¬ d.val + 2 < 2 := by omega
  simp only [portCode, dsPort, h, if_false]
  omega

theorem mem_allBlocks (b : Block) : b ∈ allBlocks := by
  cases b with
  | us u => cases u <;> decide
  | ds d => revert d; decide
  | chv c => revert c; decide
  | thy t => revert t; decide
  | _ => decide

/-- The IDs of R402 are pairwise distinct. -/
theorem blockId_injective : Function.Injective blockId := by
  have distinct : (allBlocks.map blockId).Nodup := by decide
  exact fun b c => List.inj_on_of_nodup_map distinct (mem_allBlocks b) (mem_allBlocks c)

/-- Some block carries the ID of b, and as IDs are distinct it is b. -/
@[simp] theorem idBlock_blockId (b : Block) : idBlock (blockId b) = some b := by
  obtain ⟨c, hc⟩ : ∃ c, idBlock (blockId b) = some c :=
    Option.isSome_iff_exists.mp (List.find?_isSome.mpr ⟨b, mem_allBlocks b, by simp⟩)
  have same : blockId c = blockId b := by simpa using List.find?_some hc
  rw [hc, blockId_injective same]

/-- Settles O52: the codes never issued lie outside the ranges of `codePort_eq_none_iff`, and the others read back. -/
theorem portCodesNameThePorts : Obligations.PortCodesNameThePorts := by
  refine ⟨codePort_portCode, portCode_dsPort, rfl, rfl, rfl, fun n h₁ h₂ => ?_, fun n h₁ h₂ => ?_, idBlock_blockId,
    fun d => ?_⟩
  · exact (codePort_eq_none_iff n).mpr (by omega)
  · exact (codePort_eq_none_iff n).mpr (by omega)
  · exact (portCode_dsPort d).symm

end Sys2Proof.Machine
end

section
/-! SUPPORT. The frame of a command, whichever it is: what each row's own law of Laws/Kept.lean keeps, said of `exec`. -/

set_option Elab.async false

namespace Sys2Proof.Machine

/-- Every command answers a next state that keeps every part but those of `mayChange`: one law per row. -/
theorem exec_kept (i : Instr) (s : State) : Kept (mayChange i) s (exec i s) := match i with
  | .porNAssert cycles => execPorNAssert_kept cycles s
  | .porNRelease b => execPorNRelease_kept b s
  | .vddAonBrownout ns => execVddAonBrownout_kept ns s
  | .laneSupplyLoss => execLaneSupplyLoss_kept s
  | .sysResetNFall cycles dmcOk => execSysResetNFall_kept cycles dmcOk s
  | .sysResetNRise b => execSysResetNRise_kept b s
  | .bootComplete reg => execBootComplete_kept reg s
  | .upstreamConnect u => execUpstreamConnect_kept u s
  | .recovLoad => execRecovLoad_kept s
  | .recovFinish b => execRecovFinish_kept b s
  | .recovAbort => execRecovAbort_kept s
  | .trialConfirm => execTrialConfirm_kept s
  | .plannedWarmRestart dmcOk b => execPlannedWarmRestart_kept dmcOk b s
  | .vddio1v8Loss => execVddio1v8Loss_kept s
  | .corePgLow ns => execCorePgLow_kept ns s
  | .ref25Loss ns => execRef25Loss_kept ns s
  | .pllUnlock w => execPllUnlock_kept w s
  | .xtal32kFail ns => execXtal32kFail_kept ns s
  | .xtal32kSwitchToCrystal stableNs => execXtal32kSwitchToCrystal_kept stableNs s
  | .aonRcCalibration ratioE6 => execAonRcCalibration_kept ratioE6 s
  | .aonLow ns => execAonLow_kept ns s
  | .coreRegStatusPoll status iout vout iout2 => execCoreRegStatusPoll_kept status iout vout iout2 s
  | .coreRegTempPoll temp => execCoreRegTempPoll_kept temp s
  | .oppChangeStart badOrder => execOppChangeStart_kept badOrder s
  | .oppVoltageConfirmed mv => execOppVoltageConfirmed_kept mv s
  | .oppConfirmTimeout => execOppConfirmTimeout_kept s
  | .suspendEntry => execSuspendEntry_kept s
  | .suspendWake cls port detail => execSuspendWake_kept cls port detail s
  | .sleepEntry phi dmcOk b => execSleepEntry_kept phi dmcOk b s
  | .lovageCcSample p pattern b => execLovageCcSample_kept p pattern b s
  | .wakeNPulse gap width b => execWakeNPulse_kept gap width b s
  | .spitCsNWake b => execSpitCsNWake_kept b s
  | .rtcAlarm b => execRtcAlarm_kept b s
  | .psAlertN p status feFault tries b => execPsAlertN_kept p status feFault tries b s
  | .laneTimeEdgeCorrection => execLaneTimeEdgeCorrection_kept s
  | .pkbScrub word flips overwritten => execPkbScrub_kept word flips overwritten s
  | .dramScrubUnit flips => execDramScrubUnit_kept flips s
  | .dramRefreshRateRead mult => execDramRefreshRateRead_kept mult s
  | .spillRefill epq => execSpillRefill_kept epq s
  | .ssHeaderDownstream u h crcOk => execSsHeaderDownstream_kept u h crcOk s
  | .ssHeaderUpstream d h crcOk => execSsHeaderUpstream_kept d h crcOk s
  | .dppReceived p data crcOk => execDppReceived_kept p data crcOk s
  | .itpReceived u stamp => execItpReceived_kept u stamp s
  | .deferredHeaderDelivery d => execDeferredHeaderDelivery_kept d s
  | .egressSelect p prio => execEgressSelect_kept p prio s
  | .egressRecoveryCut p => execEgressRecoveryCut_kept p s
  | .functionWake d h => execFunctionWake_kept d h s
  | .dsLinkIdleTimeout d isU2 => execDsLinkIdleTimeout_kept d isU2 s
  | .dsDeviceLpmRequest d isU2 => execDsDeviceLpmRequest_kept d isU2 s
  | .usLinkLpmRequest u isU2 => execUsLinkLpmRequest_kept u isU2 s
  | .usLinkIdleTimeout u isU2 => execUsLinkIdleTimeout_kept u isU2 s
  | .dsLinkLeavesU0 d c => execDsLinkLeavesU0_kept d c s
  | .hsPacketRepeat f k => execHsPacketRepeat_kept f k s
  | .ssplitNonPeriodic u v addr ep dirIn setup ctl low pid data crcOk =>
    execSsplitNonPeriodic_kept u v addr ep dirIn setup ctl low pid data crcOk s
  | .csplitNonPeriodic u v addr ep dirIn => execCsplitNonPeriodic_kept u v addr ep dirIn s
  | .ttTransactionStart d => execTtTransactionStart_kept d s
  | .ttTransactionEnd d r => execTtTransactionEnd_kept d r s
  | .ssplitPeriodic u v addr ep dirIn iso low pid data => execSsplitPeriodic_kept u v addr ep dirIn iso low pid data s
  | .csplitPeriodic u v addr ep dirIn => execCsplitPeriodic_kept u v addr ep dirIn s
  | .ttPeriodicSlotRun d rs => execTtPeriodicSlotRun_kept d rs s
  | .ttSlotResultExpiry d => execTtSlotResultExpiry_kept d s
  | .ttFsFrameStart u frame => execTtFsFrameStart_kept u frame s
  | .spilledResultFetch d addr ep => execSpilledResultFetch_kept d addr ep s
  | .babbleDetect d cutPacket => execBabbleDetect_kept d cutPacket s
  | .clearTtBuffer u wValue wIndex => execClearTtBuffer_kept u wValue wIndex s
  | .resetTt u wIndex => execResetTt_kept u wIndex s
  | .getTtState u wIndex => execGetTtState_kept u wIndex s
  | .stopTt u wIndex => execStopTt_kept u wIndex s
  | .companionSetInterface u alt => execCompanionSetInterface_kept u alt s
  | .portResetRequest u v => execPortResetRequest_kept u v s
  | .deviceChirpK d ns => execDeviceChirpK_kept d ns s
  | .chirpTimeout d => execChirpTimeout_kept d s
  | .portResetEnd d hsIdle => execPortResetEnd_kept d hsIdle s
  | .upstreamUsb2Reset u chirpAnswered => execUpstreamUsb2Reset_kept u chirpAnswered s
  | .ssHotReset u v => execSsHotReset_kept u v s
  | .ssWarmReset u v => execSsWarmReset_kept u v s
  | .ssResetComplete d reached => execSsResetComplete_kept d reached s
  | .emptySlotResetComplete u v => execEmptySlotResetComplete_kept u v s
  | .dsLpmToken d viaTt addr answer besl remoteWake => execDsLpmToken_kept d viaTt addr answer besl remoteWake s
  | .clearPortL1 u v => execClearPortL1_kept u v s
  | .l1DeviceWake d => execL1DeviceWake_kept d s
  | .companionLpm u linkState besl remoteWake => execCompanionLpm_kept u linkState besl remoteWake s
  | .companionL1Exit u byDev => execCompanionL1Exit_kept u byDev s
  | .refillTick => execRefillTick_kept s
  | .observeSample => execObserveSample_kept s
  | .placementAgentSample loads waits => execPlacementAgentSample_kept loads waits s
  | .rebuildStart => execRebuildStart_kept s
  | .deltaLogMerge => execDeltaLogMerge_kept s
  | .equinoxSwap => execEquinoxSwap_kept s
  | .minimalSwap => execMinimalSwap_kept s
  | .hostAbsence u c => execHostAbsence_kept u c s
  | .sofKeepingStart u => execSofKeepingStart_kept u s
  | .keptSof u => execKeptSof_kept u s
  | .keptPortSuspend u => execKeptPortSuspend_kept u s
  | .proxyPoll c ep r => execProxyPoll_kept c ep r s
  | .heldDeviceRemoteWake d => execHeldDeviceRemoteWake_kept d s
  | .proxyLpmIdle d answer => execProxyLpmIdle_kept d answer s
  | .hubSetConfiguration u ss addr value => execHubSetConfiguration_kept u ss addr value s
  | .returningHostFirstPacket u => execReturningHostFirstPacket_kept u s
  | .deviceControlRequest u d hubPort ss addr q data fin eps => execDeviceControlRequest_kept u d hubPort ss addr q data fin eps s
  | .absorbedResetComplete d hubPort ss => execAbsorbedResetComplete_kept d hubPort ss s
  | .holdExpiry u b => execHoldExpiry_kept u b s
  | .failoverDecision u => execFailoverDecision_kept u s
  | .failoverPortStart u => execFailoverPortStart_kept u s
  | .failbackAuto u => execFailbackAuto_kept u s
  | .failbackDeferTimeout d => execFailbackDeferTimeout_kept d s
  | .moveOldOwnerDisconnect d => execMoveOldOwnerDisconnect_kept d s
  | .moveDrainComplete d => execMoveDrainComplete_kept d s
  | .hubReconnect u => execHubReconnect_kept u s
  | .getPortVendorStatus u ss wIndex => execGetPortVendorStatus_kept u ss wIndex s
  | .clearPortVendorStatus u ss wIndex mask => execClearPortVendorStatus_kept u ss wIndex mask s
  | .setPortPower u ss v => execSetPortPower_kept u ss v s
  | .clearPortPower u ss v => execClearPortPower_kept u ss v s
  | .setHubDepth u depth => execSetHubDepth_kept u depth s
  | .setPortU1U2Timeout u v isU2 value => execSetPortU1U2Timeout_kept u v isU2 value s
  | .setPortRemoteWakeMask u v mask => execSetPortRemoteWakeMask_kept u v mask s
  | .clearPortChangeFeature u ss v c => execClearPortChangeFeature_kept u ss v c s
  | .hubStatusPoll u ss => execHubStatusPoll_kept u ss s
  | .portSuspendRequest u ss v => execPortSuspendRequest_kept u ss v s
  | .usb2PortResumeRequest u v => execUsb2PortResumeRequest_kept u v s
  | .usb2PortResumeEnd d => execUsb2PortResumeEnd_kept d s
  | .ssPortResumeRequest u v => execSsPortResumeRequest_kept u v s
  | .companionUpstreamSuspend u => execCompanionUpstreamSuspend_kept u s
  | .ssUpstreamU3 u => execSsUpstreamU3_kept u s
  | .hostResumeK u ns => execHostResumeK_kept u ns s
  | .hostU3Exit u => execHostU3Exit_kept u s
  | .deviceRemoteWake d ss ns => execDeviceRemoteWake_kept d ss ns s
  | .hubEventRemoteWake d ss ev => execHubEventRemoteWake_kept d ss ev s
  | .ssReceiverDetectStart d => execSsReceiverDetectStart_kept d s
  | .usb2Connect d low ns => execUsb2Connect_kept d low ns s
  | .ssLinkUp d gen2 => execSsLinkUp_kept d gen2 s
  | .ssTrainingFail d => execSsTrainingFail_kept d s
  | .identityProbe d id => execIdentityProbe_kept d id s
  | .usb2Disconnect d ns => execUsb2Disconnect_kept d ns s
  | .ssDisconnect d noTerm => execSsDisconnect_kept d noTerm s
  | .ccPatternChange p pattern flip => execCcPatternChange_kept p pattern flip s
  | .ccAttachDebounce p vbs wet => execCcAttachDebounce_kept p vbs wet s
  | .ccDetachDebounce p => execCcDetachDebounce_kept p s
  | .errorRecoveryEnd p => execErrorRecoveryEnd_kept p s
  | .drpToggle u => execDrpToggle_kept u s
  | .drpAttachDebounce u vbs => execDrpAttachDebounce_kept u vbs s
  | .usPartnerRpChange u level => execUsPartnerRpChange_kept u level s
  | .usSinkVbusLoss u => execUsSinkVbusLoss_kept u s
  | .hardwareDetachGuard p => execHardwareDetachGuard_kept p s
  | .fastRemoval p vbs => execFastRemoval_kept p vbs s
  | .vconnStable p => execVconnStable_kept p s
  | .discoverIdentityRetry p => execDiscoverIdentityRetry_kept p s
  | .discoveryCutoff p => execDiscoveryCutoff_kept p s
  | .pdMessageReceived p sop header data crcOk => execPdMessageReceived_kept p sop header data crcOk s
  | .pdTxHandover p => execPdTxHandover_kept p s
  | .pdTxGoodcrcTimeout p => execPdTxGoodcrcTimeout_kept p s
  | .pdTxDone p => execPdTxDone_kept p s
  | .thymeNotice p => execThymeNotice_kept p s
  | .hardResetReceived p => execHardResetReceived_kept p s
  | .hardResetSent p => execHardResetSent_kept p s
  | .cableResetReceived u => execCableResetReceived_kept u s
  | .softResetReceived p => execSoftResetReceived_kept p s
  | .thymeActivation t => execThymeActivation_kept t s
  | .getRevision p => execGetRevision_kept p s
  | .pdRequest p => execPdRequest_kept p s
  | .budgetReduction p => execBudgetReduction_kept p s
  | .reductionResponseTimeout p => execReductionResponseTimeout_kept p s
  | .sourceCapsSend p => execSourceCapsSend_kept p s
  | .sourceCapsRetry p => execSourceCapsRetry_kept p s
  | .sinkCapabilitiesReceived p => execSinkCapabilitiesReceived_kept p s
  | .eprModeEnter p => execEprModeEnter_kept p s
  | .eprModeExit p => execEprModeExit_kept p s
  | .eprKeepalive p => execEprKeepalive_kept p s
  | .ppsTimeout p => execPpsTimeout_kept p s
  | .eprKeepaliveTimeout p => execEprKeepaliveTimeout_kept p s
  | .getSinkCapOnDs d => execGetSinkCapOnDs_kept d s
  | .prSwapReceived p => execPrSwapReceived_kept p s
  | .drSwapReceived p => execDrSwapReceived_kept p s
  | .vconnSwapReceived p => execVconnSwapReceived_kept p s
  | .swapResponseReceived u => execSwapResponseReceived_kept u s
  | .swapWaitRetry u jitter => execSwapWaitRetry_kept u jitter s
  | .prSwapSequence u => execPrSwapSequence_kept u s
  | .dataRoleSwapRequest u => execDataRoleSwapRequest_kept u s
  | .frsSignal u => execFrsSignal_kept u s
  | .frSwapReceived u => execFrSwapReceived_kept u s
  | .frSwapInitTimeout u => execFrSwapInitTimeout_kept u s
  | .transitionLimitsWrite p => execTransitionLimitsWrite_kept p s
  | .adcConversion volts => execAdcConversion_kept volts s
  | .transitionTimeout p => execTransitionTimeout_kept p s
  | .vbusOvpTrip p => execVbusOvpTrip_kept p s
  | .vbusUvpTrip p => execVbusUvpTrip_kept p s
  | .psfRise p status => execPsfRise_kept p status s
  | .stageOcShutdown p => execStageOcShutdown_kept p s
  | .stageStatusPoll p status tries => execStageStatusPoll_kept p status tries s
  | .stageVoutIoutPoll p vout iout tries => execStageVoutIoutPoll_kept p vout iout tries s
  | .stageTempPoll p temp tries => execStageTempPoll_kept p temp tries s
  | .psi2cBusStuck => execPsi2cBusStuck_kept s
  | .hardResetVbusOff p => execHardResetVbusOff_kept p s
  | .hardResetRecover p => execHardResetRecover_kept p s
  | .guardReading p first again b => execGuardReading_kept p first again b s
  | .guardWeekEnd => execGuardWeekEnd_kept s
  | .dpVdmAck d => execDpVdmAck_kept d s
  | .dpEntryStart d => execDpEntryStart_kept d s
  | .dpVdmTimeout d => execDpVdmTimeout_kept d s
  | .dpAttention d => execDpAttention_kept d s
  | .hpdTimer x => execHpdTimer_kept x s
  | .dpExitMode d => execDpExitMode_kept d s
  | .kickPulseEnd x => execKickPulseEnd_kept x s
  | .drawerReport x => execDrawerReport_kept x s
  | .lioSenseChange n level b => execLioSenseChange_kept n level b s
  | .gpioEdge n rising => execGpioEdge_kept n rising s
  | .faultLatch b src unit persistent => execFaultLatch_kept b src unit persistent s
  | .levelFaultRepeat b src lasts => execLevelFaultRepeat_kept b src lasts s
  | .sageLockstepMismatch => execSageLockstepMismatch_kept s
  | .sageWatchdog ms => execSageWatchdog_kept ms s
  | .sageTaskLate service => execSageTaskLate_kept service s
  | .chervilHang c us => execChervilHang_kept c us s
  | .thymeHang t us => execThymeHang_kept t us s
  | .fabArbStall us => execFabArbStall_kept us s
  | .tjSample tenths => execTjSample_kept tenths s
  | .safeEntry dmcOk => execSafeEntry_kept dmcOk s
  | .safeExit b => execSafeExit_kept b s
  | .quietPeriodEnd b reads => execQuietPeriodEnd_kept b reads s
  | .faultAutoAck b => execFaultAutoAck_kept b s
  | .fltAckWrite b v => execFltAckWrite_kept b v s
  | .fltForceWrite b v => execFltForceWrite_kept b v s
  | .availabilityCheckpoint => execAvailabilityCheckpoint_kept s
  | .spitFrame setup instr addr data reads b => execSpitFrame_kept setup instr addr data reads b s
  | .ringTailWrite r v => execRingTailWrite_kept r v s
  | .ringHeadWrite r v => execRingHeadWrite_kept r v s
  | .ringCtrlRun r on => execRingCtrlRun_kept r on s
  | .ringCtrlReset r => execRingCtrlReset_kept r s
  | .ringGeomWrite r base log2 => execRingGeomWrite_kept r base log2 s
  | .ringAssignWrite v => execRingAssignWrite_kept v s
  | .irqStatusClear v => execIrqStatusClear_kept v s
  | .prioDoorbell n => execPrioDoorbell_kept n s
  | .registerWrite addr v b => execRegisterWrite_kept addr v b s
  | .commandTake badWord => execCommandTake_kept badWord s
  | .cpl0EntryExpiry => execCpl0EntryExpiry_kept s
  | .i2ctStatus addr pec => execI2ctStatus_kept addr pec s
  | .i2ctCmd4Submit addr data pec => execI2ctCmd4Submit_kept addr data pec s
  | .i2ctCpl4Fetch addr pec => execI2ctCpl4Fetch_kept addr pec s
  | .i2ctCmd0Submit addr data pec => execI2ctCmd0Submit_kept addr data pec s
  | .i2ctCpl0Fetch addr pec => execI2ctCpl0Fetch_kept addr pec s
  | .i2ctBusTimeout ms => execI2ctBusTimeout_kept ms s
  | .lmfCmd0Submit u wLength data => execLmfCmd0Submit_kept u wLength data s
  | .lmfCpl0Fetch u wLength => execLmfCpl0Fetch_kept u wLength s
  | .lmfRingStatus u => execLmfRingStatus_kept u s
  | .lmfRingReset u => execLmfRingReset_kept u s
  | .lmfBulkOut u packet last => execLmfBulkOut_kept u packet last s
  | .lmfBulkIn u => execLmfBulkIn_kept u s
  | .lmfInterruptReport u => execLmfInterruptReport_kept u s
  | .lmfSetConfiguration u => execLmfSetConfiguration_kept u s
  | .identify r => execIdentify_kept r s
  | .modeRequest r => execModeRequest_kept r s
  | .modeStatus r => execModeStatus_kept r s
  | .laneTimeRead r => execLaneTimeRead_kept r s
  | .wakeRecordRead r => execWakeRecordRead_kept r s
  | .portAssign r => execPortAssign_kept r s
  | .portStatus r => execPortStatus_kept r s
  | .guardRuleSet r => execGuardRuleSet_kept r s
  | .schedSet r => execSchedSet_kept r s
  | .shaperSet r => execShaperSet_kept r s
  | .policerSet r => execPolicerSet_kept r s
  | .observeRead r => execObserveRead_kept r s
  | .placeStatus r => execPlaceStatus_kept r s
  | .placePin r => execPlacePin_kept r s
  | .placeRebuild r => execPlaceRebuild_kept r s
  | .vigilPolicySet r => execVigilPolicySet_kept r s
  | .vigilArm r => execVigilArm_kept r s
  | .vigilStatus r => execVigilStatus_kept r s
  | .captureRead r => execCaptureRead_kept r s
  | .failoverSet r => execFailoverSet_kept r s
  | .failback r => execFailback_kept r s
  | .powerBudgetSet r => execPowerBudgetSet_kept r s
  | .portPowerPolicy r => execPortPowerPolicy_kept r s
  | .contractStatus r => execContractStatus_kept r s
  | .roleSwap r => execRoleSwap_kept r s
  | .guardStatus r => execGuardStatus_kept r s
  | .dpRoute r => execDpRoute_kept r s
  | .drawerKick r => execDrawerKick_kept r s
  | .faultRead r => execFaultRead_kept r s
  | .faultAck r => execFaultAck_kept r s
  | .faultInject r => execFaultInject_kept r s
  | .fence r => execFence_kept r s
  | .unfence r => execUnfence_kept r s
  | .almanacRead r => execAlmanacRead_kept r s
  | .almanacWrite r => execAlmanacWrite_kept r s
  | .almanacWear r => execAlmanacWear_kept r s
  | .fwStage r => execFwStage_kept r s
  | .fwActivate r => execFwActivate_kept r s
  | .fwStatus r => execFwStatus_kept r s
  | .loopback r => execLoopback_kept r s
  | .echo r => execEcho_kept r s
  | .pattern r => execPattern_kept r s
  | .regRead r => execRegRead_kept r s
  | .regWrite r => execRegWrite_kept r s
  | .loopbackEnd unit errors sink => execLoopbackEnd_kept unit errors sink s
  | .patternComplete dmc errors corrected first => execPatternComplete_kept dmc errors corrected first s
  | .pkbPatternCellFree cell errors corrected first => execPkbPatternCellFree_kept cell errors corrected first s
  | .pkbPatternTimeout => execPkbPatternTimeout_kept s
  | .remoteLoopbackRequest u => execRemoteLoopbackRequest_kept u s
  | .complianceEntry u v => execComplianceEntry_kept u v s
  | .compliancePingLfps p => execCompliancePingLfps_kept p s
  | .usb2PortTest u v mode => execUsb2PortTest_kept u v mode s
  | .usb2TestModeUpstream u mode => execUsb2TestModeUpstream_kept u mode s
  | .bistMessage p => execBistMessage_kept p s
  | .bistCarrierEnd p => execBistCarrierEnd_kept p s
  | .jtagInstruction x trst cells => execJtagInstruction_kept x trst cells s
  | .ref25Return => execRef25Return_kept s
  | .ssPllRelock => execSsPllRelock_kept s
  | .upstreamLinkTrained u gen2 lanes => execUpstreamLinkTrained_kept u gen2 lanes s
  | .upstreamLinkInactive u noTerm => execUpstreamLinkInactive_kept u noTerm s
  | .upstreamSsReset u warm => execUpstreamSsReset_kept u warm s
  | .linkCommandReceived p c => execLinkCommandReceived_kept p c s
  | .hubSetFeature u f on => execHubSetFeature_kept u f on s
  | .hostResumeEop u => execHostResumeEop_kept u s
  | .hostChirpKj u ns => execHostChirpKj_kept u ns s
  | .u3ExitComplete d reached => execU3ExitComplete_kept d reached s
  | .u3EntryComplete d acked => execU3EntryComplete_kept d acked s
  | .pdSenderResponseTimeout p => execPdSenderResponseTimeout_kept p s

/-- No command is named as one that changes the queue, which only `step` takes from. -/
theorem pending_notMem_mayChange (i : Instr) : .pending ∉ mayChange i := by
  have h : (mayChange i).contains .pending = false := by cases i <;> rfl
  simpa using h

theorem exec_frame {i : Instr} {s t : State} (h : exec i s = .next t) : Frame (mayChange i) s t :=
  (exec_kept i s).frame h

theorem exec_pending {i : Instr} {s t : State} (h : exec i s = .next t) : t.pending = s.pending :=
  (exec_frame h).pending_eq (pending_notMem_mayChange i)

/-- Settles O45: each row's law gives the next state and its frame, and the queue is among the parts kept. -/
theorem everyCommandAnswersAndKeepsItsFrame : Obligations.EveryCommandAnswersAndKeepsItsFrame := fun i s =>
  runs_of_kept (exec_kept i s) (fun _ hj => hj) ⟨.pending, pending_notMem_mayChange i⟩ fun _ => exec_pending

end Sys2Proof.Machine
end

section
/-! SUPPORT. The supply, reference, PLL and AON events and the regulator polls: the next state of each row where its conditions hold
(R57, R65, R67, R69, R70, R408). -/

set_option Elab.async false

namespace Sys2Proof.Machine

/-- A command that keeps the parts outside a list runs to the state it answers. -/
theorem runs_to_of_kept {i : Instr} {s t : State} {l : List Fld} (k : Kept l s (exec i s)) (e : exec i s = .next t) :
    Runs i s l (fun u => u = t) :=
  ⟨t, e, k.frame e, rfl⟩

section
variable {s : State}

theorem execVddio1v8Loss_next (up : mainUp s = true) (driven : s.sup.ballsFloat = false) :
    execVddio1v8Loss s = .next (fault .pmu 8 (blockId .pmu)
      (kickLow 1 (kickLow 0 (allPscLow { fresh s with sup := { s.sup with ballsFloat := true } })))) :=
  congrArg Host.Outcome.next (if_pos (by simp [up, driven]))

theorem execCorePgLow_next {ns : Nat} (up : mainUp s = true) (long : 2000 ≤ ns) (noTrans : s.pmu.inProg = none)
    (noChange : s.pmu.change = none) :
    execCorePgLow ns s = .next (fatal .pmu 9 { fresh s with sup := { s.sup with corePg := false } }) :=
  congrArg Host.Outcome.next (if_pos (by simp [up, long, noTrans, noChange]))

theorem execRef25Loss_next {ns : Nat} (up : mainUp s = true) (long : 4000 ≤ ns) (present : s.clk.refLost = none) :
    execRef25Loss ns s = .next (fault .cru 8 (blockId .cru) (linksStop { fresh s with
      clk := { s.clk with refLost := some s.now, refBack := none, frac := 0 }
      pmu := { s.pmu with clkOpp := 1 } })) :=
  congrArg Host.Outcome.next (if_pos (by simp [up, long, present]))

theorem execPllUnlock_core (up : mainUp s = true) :
    execPllUnlock .core s =
      .next (fault .cru 9 (blockId .cru) { fresh s with clk := { s.clk with corePllLock := false } }) := by
  simp [execPllUnlock, up]

theorem execPllUnlock_tb (up : mainUp s = true) :
    execPllUnlock .tb s = .next (fault .cru 9 (blockId .cru) { fresh s with clk := { s.clk with tbPllLock := false } }) := by
  simp [execPllUnlock, up]

theorem execPllUnlock_ssTx (up : mainUp s = true) :
    execPllUnlock .ssTx s =
      .next (fault .cru 10 (blockId .cru) { fresh s with clk := { s.clk with ssPllLock := false } }) := by
  simp [execPllUnlock, up]

theorem execXtal32kFail_next {ns : Nat} (aon : s.sup.aon = true) (released : s.sup.porLow = false) (long : 2000000 ≤ ns)
    (onCrystal : s.clk.fallback = false) :
    execXtal32kFail ns s =
      .next (fault .lovage 8 (blockId .lovage) { fresh s with clk := { s.clk with fallback := true } }) :=
  congrArg Host.Outcome.next (if_pos (by simp [aon, released, long, onCrystal]))

theorem execXtal32kSwitchToCrystal_next {stableNs : Nat} (aon : s.sup.aon = true) (released : s.sup.porLow = false)
    (stable : 1000000000 ≤ stableNs) :
    execXtal32kSwitchToCrystal stableNs s = .next { s with out := [], clk := { s.clk with fallback := false } } :=
  congrArg Host.Outcome.next (if_pos (by simp [aon, released, stable]))

theorem execAonRcCalibration_next {ratioE6 : Nat} (up : mainUp s = true) (tbOn : s.clk.tbOn = true)
    (present : s.clk.refLost = none) :
    execAonRcCalibration ratioE6 s = .next { s with out := [], clk := { s.clk with calE6 := ratioE6 } } :=
  congrArg Host.Outcome.next (if_pos (by simp [up, tbOn, present]))

theorem execAonLow_next {ns : Nat} (aon : s.sup.aon = true) (released : s.sup.porLow = false) (long : 1000000 ≤ ns) :
    execAonLow ns s = .next (fault .lovage 9 (blockId .lovage) (fresh s)) :=
  congrArg Host.Outcome.next (if_pos (by simp [aon, released, long]))

/-- The state in which a status poll's answer is kept: STATUS_VOUT and STATUS_IOUT are read only where the word shows a fault. -/
def statusKept (w : BitVec 16) (iout : Nat) (statusVout statusIout : Byte) (s : State) : State :=
  { fresh s with reg := { s.reg with
      status := w, iout := iout
      statusVout := if statusFault w then statusVout else s.reg.statusVout
      statusIout := if statusFault w then statusIout else s.reg.statusIout } }

theorem execCoreRegStatusPoll_next {w : BitVec 16} {iout : Nat} {statusVout statusIout : Byte} (polled : regPolled s = true) :
    execCoreRegStatusPoll w iout statusVout statusIout s = .next (if statusFault w = true ∧ s.sup.corePg = true then
      pmbWrite 0x03 [] (fault .pmu 12 (blockId .pmu) (statusKept w iout statusVout statusIout s))
    else statusKept w iout statusVout statusIout s) := by
  simp [execCoreRegStatusPoll, statusKept, polled]

theorem execCoreRegTempPoll_next {temp : Nat} (polled : regPolled s = true) :
    execCoreRegTempPoll temp s = .next { s with out := [], reg := { s.reg with temp := temp } } :=
  congrArg Host.Outcome.next (if_pos (by simp [polled]))

end

/-- Settles O3: each row keeps the parts its law in Laws/Kept.lean does not name, and its conditions select the branch in which it
acts. -/
theorem clockAndRegulatorEventsRun : Obligations.ClockAndRegulatorEventsRun := by
  refine ⟨?vddio, ?corePg, ?refLoss, ?pll, ?xtalFail, ?xtalSwitch, ?calibration, ?aonLow, ?statusPoll, ?tempPoll⟩
  case vddio =>
    rintro s ⟨up, driven⟩
    exact runs_to_of_kept (execVddio1v8Loss_kept s) (execVddio1v8Loss_next up driven)
  case corePg =>
    rintro s n ⟨up, long, noTrans, noChange⟩
    exact runs_to_of_kept (execCorePgLow_kept n s) (execCorePgLow_next up long noTrans noChange)
  case refLoss =>
    rintro s n ⟨up, long, present⟩
    exact runs_to_of_kept (execRef25Loss_kept n s) (execRef25Loss_next up long present)
  case pll =>
    intro s w up
    cases w with
    | core => exact runs_to_of_kept (execPllUnlock_kept .core s) (execPllUnlock_core up)
    | tb => exact runs_to_of_kept (execPllUnlock_kept .tb s) (execPllUnlock_tb up)
    | ssTx => exact runs_to_of_kept (execPllUnlock_kept .ssTx s) (execPllUnlock_ssTx up)
  case xtalFail =>
    rintro s n ⟨aon, released, long, onCrystal⟩
    exact runs_to_of_kept (execXtal32kFail_kept n s) (execXtal32kFail_next aon released long onCrystal)
  case xtalSwitch =>
    rintro s n ⟨aon, released, stable⟩
    exact runs_to_of_kept (execXtal32kSwitchToCrystal_kept n s) (execXtal32kSwitchToCrystal_next aon released stable)
  case calibration =>
    rintro s n ⟨up, tbOn, present⟩
    exact runs_to_of_kept (execAonRcCalibration_kept n s) (execAonRcCalibration_next up tbOn present)
  case aonLow =>
    rintro s n ⟨aon, released, long⟩
    exact runs_to_of_kept (execAonLow_kept n s) (execAonLow_next aon released long)
  case statusPoll =>
    intro s w n v i polled
    exact runs_to_of_kept (execCoreRegStatusPoll_kept w n v i s) (execCoreRegStatusPoll_next polled)
  case tempPoll =>
    intro s n polled
    exact runs_to_of_kept (execCoreRegTempPoll_kept n s) (execCoreRegTempPoll_next polled)

end Sys2Proof.Machine
end

section
/-! SUPPORT. The reset paths, BOOT's end, the upstream connect, recovery over SPIT and the trial's confirmation: the next state of each row
where its conditions hold (R58, R71–R73, R80–R83, R379, R464). -/

set_option Elab.async false

namespace Sys2Proof.Machine

/-- A command that keeps the parts outside a list runs, where the state that it answers is as said. -/
theorem runs_of_kept_next {i : Instr} {s t : State} {l : List Fld} {P : State → Prop} (k : Kept l s (exec i s))
    (e : exec i s = .next t) (h : P t) : Runs i s l P :=
  ⟨t, e, k.frame e, h⟩

/-! ### What the operations of reset leave -/

@[simp] theorem porActs_alm (s : State) : (porActs s).alm = s.alm := rfl
@[simp] theorem porActs_flash (s : State) : (porActs s).fw.flash = s.fw.flash := rfl
@[simp] theorem porActs_porLow (s : State) : (porActs s).sup.porLow = true := rfl
@[simp] theorem porActs_pwrReq (s : State) : (porActs s).sup.pwrReq = 0 := rfl
@[simp] theorem porActs_ready (s : State) : (porActs s).sup.ready = false := rfl

/-- In the cold-boot state every PSC is low. -/
@[simp] theorem pwrOf_porActs_psc (s : State) (p : Port) : (pwrOf (porActs s) p).psc = false := by
  simp [pwrOf, porActs, coldState, State.reset, coldPwr]

@[simp] theorem linksStop_sup (s : State) : (linksStop s).sup = s.sup :=
  sup_of_only (linksStop_only .sup s (by decide) (by decide) (by decide) (by decide))
@[simp] theorem abandonRebuild_sup (s : State) : (abandonRebuild s).sup = s.sup :=
  sup_of_only (abandonRebuild_only .sup s (by decide))
@[simp] theorem dropTests_sup (s : State) : (dropTests s).sup = s.sup := rfl

@[simp] theorem holdEngines_sup (s : State) : (holdEngines s).sup = { s.sup with enginesHeld := true } := by
  simp [holdEngines]

/-- The state once SYS_RESET_N low is acted on (R58, R72). -/
def sysResetHeld (dmcOk : Bool) (s : State) : State :=
  let s1 := selfRefreshIn dmcOk (holdEngines s)
  { s1 with sup := { s1.sup with sysLow := true, ready := false, recovery := false }, pmu := { s1.pmu with reported := .boot } }

/-- Whether DRAM entered self-refresh is noted where DRAM was up and not yet in self-refresh (R97). -/
theorem sysResetHeld_retained {dmcOk : Bool} {s : State} (running : s.sup.selfRefresh = false) (up : s.sup.ready = true) :
    (sysResetHeld dmcOk s).sup.retained = dmcOk := by
  simp [sysResetHeld, selfRefreshIn, running, up]

theorem sysResetHeld_enginesHeld (dmcOk : Bool) (s : State) : (sysResetHeld dmcOk s).sup.enginesHeld = true := by
  simp [sysResetHeld, selfRefreshIn]

@[simp] theorem hubOf_hubConnect (u : US) (s : State) : hubOf (hubConnect u s) u = { hubOf s u with
    connected := true, everConnected := true, active := (hubOf s u).conf, reconnectAt := none, slots := Vector.replicate 15 {} } := by
  simp [hubConnect]

@[simp] theorem usOf_hubConnect (u : US) (s : State) :
    usOf (hubConnect u s) u = { usOf s u with pullup := true, ssTerm := true } := by
  simp [hubConnect]

/-! ### The next state of each row -/

section
variable {s : State}

theorem execPorNAssert_next {cycles : Nat} (aon : s.sup.aon = true) (long : 8 ≤ cycles) :
    execPorNAssert cycles s = .next (porActs (fresh s)) :=
  congrArg Host.Outcome.next (if_pos (by simp [aon, long]))

theorem execVddAonBrownout_next {ns : Nat} (aon : s.sup.aon = true) (long : 1000 ≤ ns) :
    execVddAonBrownout ns s = .next (porActs (fresh s)) :=
  congrArg Host.Outcome.next (if_pos (by simp [aon, long]))

theorem execPorNRelease_next {b : BootIn} (low : s.sup.porLow = true) :
    execPorNRelease b s = .next (bootCold b (fresh s)) :=
  congrArg Host.Outcome.next (if_pos low)

theorem execSysResetNFall_next {cycles : Nat} {dmcOk : Bool} (long : 8 ≤ cycles) (aon : s.sup.aon = true)
    (released : s.sup.porLow = false) (mainOn : s.sup.mainOn = true) (driven : s.sup.ballsFloat = false)
    (high : s.sup.sysLow = false) : execSysResetNFall cycles dmcOk s = .next (sysResetHeld dmcOk (fresh s)) :=
  if_neg (by simp [long, aon, released, mainOn, driven, high])

theorem execSysResetNRise_next {b : BootIn} (low : s.sup.sysLow = true) :
    execSysResetNRise b s = .next (bootWarm .sysReset b (fresh s)) :=
  congrArg Host.Outcome.next (if_pos low)

theorem execPlannedWarmRestart_next {dmcOk : Bool} {b : BootIn} {x : Nat} (planned : s.sup.restartAt = some x) :
    execPlannedWarmRestart dmcOk b s =
      .next (bootWarm .fwActivate b (selfRefreshIn dmcOk (holdEngines (advanceTo x (fresh s))))) := by
  simp only [execPlannedWarmRestart, fresh_sup, planned]

theorem execBootComplete_next {reg : Option RegBoot} (boot : s.pmu.reported = .boot) (ready : s.sup.ready = true)
    (high : s.sup.sysLow = false) : execBootComplete reg s = .next (bootEnds reg (fresh s)) :=
  congrArg Host.Outcome.next (if_pos (by simp [boot, ready, high]))

theorem execUpstreamConnect_next {u : US} (may : mayConnect s u = true) :
    execUpstreamConnect u s = .next (hubConnect u (fresh s)) :=
  congrArg Host.Outcome.next (if_pos may)

theorem execRecovLoad_next (recovering : inRecovery s = true) (pos : 1 ≤ s.fw.recLength) (fits : s.fw.recLength ≤ 65536) :
    execRecovLoad s = .next { fresh s with fw := { s.fw with
      recImage := memWrite 0 s.fw.recImage s.fw.recOffset (memRead 0 s.mbx.mem 0 s.fw.recLength)
      recTaken := s.fw.recTaken + s.fw.recLength } } :=
  congrArg Host.Outcome.next (if_pos (by simp [recovering, pos, fits]))

theorem execRecovFinish_next {b : BootIn} (recovering : inRecovery s = true) :
    execRecovFinish b s = .next (if verifyStep (fresh s) (0, s.fw.recImage, 0) = 0 then
        bootRest b { fresh s with fw := { runImage 2 (0, s.fw.recImage, 0) s.fw with
          recDone := true, recFail := false, recStep := 0, trial := false } }
      else { fresh s with fw := { s.fw with
        recFail := true, recStep := verifyStep (fresh s) (0, s.fw.recImage, 0) } }) :=
  congrArg Host.Outcome.next ((if_neg (by simp [recovering])).trans (ite_not ..))

theorem execRecovAbort_next (recovering : inRecovery s = true) :
    execRecovAbort s =
      .next { fresh s with fw := { s.fw with recImage := [], recTaken := 0, recFail := false, recStep := 0 } } :=
  congrArg Host.Outcome.next (if_pos recovering)

theorem execTrialConfirm_next {x : Nat} (since : s.fw.trialFrom = some x) (trial : s.fw.trial = true)
    (counts : trialMode s.pmu.reported = true) (connected : allConnectedOnce s = true)
    (room : almExhausted s.alm (rollbackWrites s) = false) :
    execTrialConfirm s = .next (confirmSteps (advanceTo (x + (600000000000 - s.fw.trialRun)) (fresh s))) := by
  simp [execTrialConfirm, since, trial, counts, connected, room]

end

/-- Settles O1: each row keeps the parts its law in Laws/Kept.lean does not name, its conditions select the branch in which it acts, and
the state answered is read through the laws of `porActs` and `sysResetHeld`. -/
theorem powerOnResetPathsRun : Obligations.PowerOnResetPathsRun := by
  refine ⟨?porAssert, ?brownout, ?supplyLoss, ?porRelease, ?sysFall, ?sysRise, ?planned⟩
  case porAssert =>
    rintro s n ⟨aon, long⟩
    exact runs_of_kept_next (execPorNAssert_kept n s) (execPorNAssert_next aon long) (by simp)
  case brownout =>
    rintro s n ⟨aon, long⟩
    exact runs_of_kept_next (execVddAonBrownout_kept n s) (execVddAonBrownout_next aon long) (by simp)
  case supplyLoss =>
    intro s
    exact runs_of_kept_next (execLaneSupplyLoss_kept s) rfl ⟨rfl, rfl, rfl, rfl, pwrOf_porActs_psc (fresh s)⟩
  case porRelease =>
    intro s b low
    exact runs_to_of_kept (execPorNRelease_kept b s) (execPorNRelease_next low)
  case sysFall =>
    rintro s n ok ⟨long, aon, released, mainOn, driven, high⟩
    refine runs_of_kept_next (execSysResetNFall_kept n ok s)
      (execSysResetNFall_next long aon released mainOn driven high)
      ⟨rfl, rfl, rfl, ?_, sysResetHeld_enginesHeld ok (fresh s), rfl⟩
    rintro ⟨running, up⟩
    exact sysResetHeld_retained (s := fresh s) running up
  case sysRise =>
    intro s b low
    exact runs_to_of_kept (execSysResetNRise_kept b s) (execSysResetNRise_next low)
  case planned =>
    intro s ok b x planned
    exact runs_to_of_kept (execPlannedWarmRestart_kept ok b s) (execPlannedWarmRestart_next planned)

/-- Settles O2: each row keeps the parts its law in Laws/Kept.lean does not name, and its conditions select the branch in which it
acts. -/
theorem bootAndRecoveryRun : Obligations.BootAndRecoveryRun := by
  refine ⟨?complete, ?connect, ?load, ?finish, ?abort, ?confirm⟩
  case complete =>
    rintro s a ⟨boot, ready, high⟩
    exact runs_to_of_kept (execBootComplete_kept a s) (execBootComplete_next boot ready high)
  case connect =>
    intro s u may
    exact runs_of_kept_next (execUpstreamConnect_kept u s) (execUpstreamConnect_next may) (by simp)
  case load =>
    rintro s ⟨recovering, pos, fits⟩
    exact runs_of_kept_next (execRecovLoad_kept s) (execRecovLoad_next recovering pos fits) ⟨rfl, rfl⟩
  case finish =>
    intro s b recovering
    exact runs_to_of_kept (execRecovFinish_kept b s) (execRecovFinish_next recovering)
  case abort =>
    intro s recovering
    exact runs_of_kept_next (execRecovAbort_kept s) (execRecovAbort_next recovering) ⟨rfl, rfl, rfl, rfl⟩
  case confirm =>
    rintro s x ⟨since, trial, counts, connected, room⟩
    exact runs_to_of_kept (execTrialConfirm_kept s) (execTrialConfirm_next since trial counts connected room)

end Sys2Proof.Machine
end

section
/-! SUPPORT. SECDED codewords and unit tags (R88, R89). The syndrome and the parity of a word are linear, every codeword has both 0, and one
flipped bit has its own position as syndrome; a unit tag's CRC fits the byte it stands in. -/

set_option Elab.async false

namespace Sys2Proof.Machine

/-! ### The syndrome and the count of bits, as the word is put together -/

@[simp] theorem syndrome_zero (l : List Nat) : syndrome l 0 = 0 := by
  induction l with
  | nil => rfl
  | cons p t ih => simp [syndrome, ih]

@[simp] theorem bitCount_zero (n : Nat) : bitCount n 0 = 0 := by
  induction n with
  | zero => rfl
  | succ n ih => simp [bitCount, ih]

/-- The lowest bit of a word and the rest of it, where a part is put in above a nonempty lower part. -/
theorem add_two_pow_succ_mul_split (n x y : Nat) :
    (x + 2 ^ (n + 1) * y) % 2 = x % 2 ∧ (x + 2 ^ (n + 1) * y) / 2 = x / 2 + 2 ^ n * y := by
  have h : 2 ^ (n + 1) * y = 2 * (2 ^ n * y) := by ring
  omega

theorem syndrome_append (l m : List Nat) {x : Nat} (y : Nat) (hx : x < 2 ^ l.length) :
    syndrome (l ++ m) (x + 2 ^ l.length * y) = syndrome l x ^^^ syndrome m y := by
  induction l generalizing x with
  | nil =>
    obtain rfl : x = 0 := by simpa using hx
    simp [syndrome]
  | cons p t ih =>
    obtain ⟨low, high⟩ := add_two_pow_succ_mul_split t.length x y
    have fits : x / 2 < 2 ^ t.length := by rw [List.length_cons, pow_succ] at hx; omega
    simp only [List.cons_append, List.length_cons, syndrome, low, high, ih fits, Nat.xor_assoc]

theorem bitCount_add (m n : Nat) {x : Nat} (y : Nat) (hx : x < 2 ^ n) :
    bitCount (n + m) (x + 2 ^ n * y) = bitCount n x + bitCount m y := by
  induction n generalizing x with
  | zero =>
    obtain rfl : x = 0 := by simpa using hx
    simp [bitCount]
  | succ n ih =>
    obtain ⟨low, high⟩ := add_two_pow_succ_mul_split n x y
    have fits : x / 2 < 2 ^ n := by rw [pow_succ] at hx; omega
    rw [Nat.succ_add]
    simp only [bitCount, low, high, ih fits, Nat.add_assoc]

/-- The syndrome is linear. -/
theorem syndrome_xor (l : List Nat) (x y : Nat) : syndrome l (x ^^^ y) = syndrome l x ^^^ syndrome l y := by
  induction l generalizing x y with
  | nil => simp [syndrome]
  | cons p t ih =>
    have low : (if (x ^^^ y) % 2 = 1 then p else 0) = (if x % 2 = 1 then p else 0) ^^^ (if y % 2 = 1 then p else 0) := by
      rcases Nat.mod_two_eq_zero_or_one x with hx | hx <;> rcases Nat.mod_two_eq_zero_or_one y with hy | hy <;>
        simp [Nat.xor_mod_two_eq, Nat.add_mod, hx, hy]
    simp only [syndrome, low, Nat.xor_div_two, ih]
    ac_rfl

/-- The parity of a word is linear. -/
theorem bitCount_xor (n x y : Nat) : bitCount n (x ^^^ y) % 2 = (bitCount n x + bitCount n y) % 2 := by
  induction n generalizing x y with
  | zero => rfl
  | succ n ih =>
    have low := Nat.xor_mod_two_eq (m := x) (n := y)
    have high := ih (x / 2) (y / 2)
    simp only [bitCount, Nat.xor_div_two]
    omega

/-- The syndrome of one bit is its position. -/
theorem syndrome_two_pow (l : List Nat) (i : Nat) (hi : i < l.length) : syndrome l (2 ^ i) = l[i] := by
  induction l generalizing i with
  | nil => simp at hi
  | cons p t ih =>
    cases i with
    | zero => simp [syndrome]
    | succ i => simpa [syndrome, pow_succ] using ih i (by simpa using hi)

theorem bitCount_two_pow {n i : Nat} (hi : i < n) : bitCount n (2 ^ i) = 1 := by
  induction n generalizing i with
  | zero => omega
  | succ n ih =>
    cases i with
    | zero => simp [bitCount]
    | succ i => simpa [bitCount, pow_succ] using ih (by omega)

theorem syndrome_lt {l : List Nat} {k : Nat} (h : ∀ p ∈ l, p < 2 ^ k) (x : Nat) : syndrome l x < 2 ^ k := by
  induction l generalizing x with
  | nil => exact Nat.two_pow_pos k
  | cons p t ih =>
    rw [List.forall_mem_cons] at h
    refine Nat.xor_lt_two_pow ?_ (ih h.2 _)
    split
    · exact h.1
    · exact Nat.two_pow_pos k

/-! ### The positions of the code -/

/-- The positions below 64 that a data bit can have: those that are neither 0 nor a power of two. -/
def dataPlaces : List Nat := (List.range 64).filter (fun p => decide (2 < p) && !([4, 8, 16, 32] : List Nat).contains p)

/-- The positions of n data bits. -/
def dataPos (n : Nat) : List Nat := dataPlaces.take n

/-- The positions of the six checks and the overall parity. -/
def checkPos : List Nat := [1, 2, 4, 8, 16, 32, 0]

theorem codePos_eq (n : Nat) : codePos n = dataPos n ++ checkPos := rfl

theorem length_dataPos {n : Nat} (hn : n ≤ 57) : (dataPos n).length = n := by
  have all : dataPlaces.length = 57 := by decide
  rw [dataPos, List.length_take, all, min_eq_left hn]

theorem length_codePos {n : Nat} (hn : n ≤ 57) : (codePos n).length = n + 7 := by
  rw [codePos_eq, List.length_append, length_dataPos hn]
  rfl

theorem dataPos_lt {n p : Nat} (hp : p ∈ dataPos n) : p < 2 ^ 6 :=
  List.mem_range.mp (List.mem_of_mem_filter (List.mem_of_mem_take hp))

/-- No two bits stand at one position. -/
theorem codePos_nodup (n : Nat) : (codePos n).Nodup := by
  have all : (dataPlaces ++ checkPos).Nodup := by decide
  exact all.sublist ((List.take_sublist ..).append_right checkPos)

/-- The checks stand at the powers of two: they read back as their number, whatever the overall parity. -/
theorem syndrome_checkPos {y p : Nat} (hy : y < 2 ^ 6) (hp : p < 2) : syndrome checkPos (y + 2 ^ 6 * p) = y := by
  have all : ∀ (y : Fin (2 ^ 6)) (p : Fin 2), syndrome checkPos (y.val + 2 ^ 6 * p.val) = y.val := by decide
  exact all ⟨y, hy⟩ ⟨p, hp⟩

/-! ### Codewords -/

/-- A word that meets all checks of the code. -/
structure IsCodeword (n c : Nat) : Prop where
  syndrome_eq : syndrome (codePos n) c = 0
  even : bitCount (n + 7) c % 2 = 0

/-- The checks that bring the syndrome of data to 0. -/
def checksOf (n d : Nat) : Nat := syndrome (dataPos n) d

theorem checksOf_lt (n d : Nat) : checksOf n d < 2 ^ 6 := syndrome_lt (fun _ => dataPos_lt) d

/-- An encoded word is its data, then its checks, then its parity. -/
theorem encodeWord_eq {n d : Nat} (hn : n ≤ 57) (hd : d < 2 ^ n) :
    encodeWord n d = d + 2 ^ n * checksOf n d + 2 ^ (n + 6) * (bitCount (n + 6) (d + 2 ^ n * checksOf n d) % 2) := by
  have h := syndrome_append (dataPos n) checkPos 0 ((length_dataPos hn).symm ▸ hd)
  simp only [mul_zero, add_zero, syndrome_zero, Nat.xor_zero] at h
  rw [encodeWord, codePos_eq, h, checksOf]

theorem isCodeword_encodeWord {n d : Nat} (hn : n ≤ 57) (hd : d < 2 ^ n) : IsCodeword n (encodeWord n d) := by
  rw [encodeWord_eq hn hd]
  have hy := checksOf_lt n d
  generalize hc : d + 2 ^ n * checksOf n d = c
  have hp : bitCount (n + 6) c % 2 < 2 := Nat.mod_lt _ two_pos
  constructor
  case syndrome_eq =>
    have parts : c + 2 ^ (n + 6) * (bitCount (n + 6) c % 2) =
        d + 2 ^ (dataPos n).length * (checksOf n d + 2 ^ 6 * (bitCount (n + 6) c % 2)) := by
      rw [← hc, length_dataPos hn]; ring
    rw [parts, codePos_eq, syndrome_append _ _ _ ((length_dataPos hn).symm ▸ hd), syndrome_checkPos hy hp]
    exact Nat.xor_self _
  case even =>
    have low : c < 2 ^ (n + 6) := by
      calc c < 2 ^ n * (checksOf n d + 1) := by rw [← hc]; linarith
        _ ≤ 2 ^ n * 2 ^ 6 := Nat.mul_le_mul_left _ hy
        _ = 2 ^ (n + 6) := (pow_add ..).symm
    rw [bitCount_add 1 (n + 6) _ low]
    simp only [bitCount]
    omega

theorem IsCodeword.decodeWord_clean {n c : Nat} (h : IsCodeword n c) : decodeWord n c = .clean := by
  simp [decodeWord, h.syndrome_eq, h.even]

/-- The syndrome of a codeword with one flipped bit is that bit's position, and no other bit has it. -/
theorem IsCodeword.decodeWord_flip {n c i : Nat} (hn : n ≤ 57) (h : IsCodeword n c) (hi : i < n + 7) :
    decodeWord n (c ^^^ 2 ^ i) = .corrected i := by
  have place : i < (codePos n).length := (length_codePos hn).symm ▸ hi
  have syn : syndrome (codePos n) (c ^^^ 2 ^ i) = (codePos n)[i] := by
    rw [syndrome_xor, h.syndrome_eq, syndrome_two_pow _ i place, Nat.zero_xor]
  have odd : bitCount (n + 7) (c ^^^ 2 ^ i) % 2 = 1 := by
    have even := h.even
    rw [bitCount_xor, bitCount_two_pow hi]
    omega
  have found : (codePos n).findIdx? (· == (codePos n)[i]) = some i := by
    refine List.findIdx?_eq_some_iff_getElem.mpr ⟨place, by simp, fun j hj => ?_⟩
    simpa [(codePos_nodup n).getElem_inj_iff] using hj.ne
  simp only [decodeWord, syn, odd, found, one_ne_zero, if_false]

/-- Settles O59: an encoded word meets all checks, and so does every codeword that is read without a flip or with one. -/
theorem oneFlippedBitIsCorrected : Obligations.OneFlippedBitIsCorrected :=
  ⟨fun _ hd => (isCodeword_encodeWord (by decide) hd).decodeWord_clean,
    fun _ i hd => (isCodeword_encodeWord (by decide) hd).decodeWord_flip (by decide) i.isLt⟩

/-! ### Unit tags -/

theorem crc8Step_lt (c : Nat) : crc8Step c < 2 ^ 8 := by
  unfold crc8Step
  split
  · exact Nat.xor_lt_two_pow (Nat.mod_lt _ (by decide)) (by decide)
  · omega

/-- A CRC-8 fits a byte. -/
theorem crc8_lt (l : List Nat) : crc8 l < 2 ^ 8 :=
  List.foldlRecOn (motive := (· < 2 ^ 8)) l _ (by decide) fun c _ b _ => by
    rw [Function.iterate_succ_apply']
    exact crc8Step_lt _

theorem tagCrc_lt (hi unit : Nat) : tagCrc hi unit < 2 ^ 8 := crc8_lt _

/-- What stands above a tag's CRC, and the CRC, read back. -/
theorem readTag_of_crc (hi unit : Nat) :
    readTag (hi * 256 + tagCrc hi unit) unit = some (hi / 256 % 65536, hi % 256) := by
  have fits := tagCrc_lt hi unit
  generalize hk : tagCrc hi unit = k at fits
  have crc : (hi * 256 + k) % 256 = k := by omega
  have above : (hi * 256 + k) / 256 = hi := by omega
  have owner : (hi * 256 + k) / 65536 % 65536 = hi / 256 % 65536 := by omega
  simp only [readTag, crc, above, owner, hk, if_true]

/-- Settles O60: a tag's CRC does not reach the owner and the region above it, which are each cut to their own bits. -/
theorem unitTagNamesItsOwner : Obligations.UnitTagNamesItsOwner := fun owner region unit => by
  have region_eq : (owner % 65536 * 256 + region % 256) % 256 = region % 256 := by omega
  have owner_eq : (owner % 65536 * 256 + region % 256) / 256 % 65536 = owner % 65536 := by omega
  rw [unitTag, readTag_of_crc, owner_eq, region_eq]

end Sys2Proof.Machine
end

section
/-! SUPPORT. Scrubs, the refresh-rate read and the spill refill: the next state of each row where its conditions hold (R85, R95, R96,
R143). -/

set_option Elab.async false

namespace Sys2Proof.Machine

/-- The bits in which a PKB word differs from what was written, those that flipped since its last scrub among them (R95). -/
def pkbFound (s : State) (word flips : Nat) : Nat := sparseGet 0 s.memb.pkbErr word ^^^ flips % 2 ^ 39

theorem pkbFound_eq (s : State) (word flips : Nat) :
    pkbFound s word flips = sparseGet 0 s.memb.pkbErr word ^^^ flips % 2 ^ 39 := rfl

/-- The bits that stay flipped in a PKB word, which are none where a foreground write overtook the scrub (R95). -/
def pkbLeft (overwritten : Bool) (mask : Nat) : Nat := if overwritten then 0 else mask

/-- The state once a PKB word has been scrubbed in which the bits `found` had flipped (R95, R98, R99). -/
def pkbScrubbed (word : Nat) (overwritten : Bool) (found : Nat) (s : State) : State :=
  match decodeWord 32 found with
  | .clean => setPkbErr word (pkbLeft overwritten found) (markPkb word false s)
  | .corrected i => detect .pkb 8 (word / 32) false (s.memb.pkbSeen.contains word)
      (setPkbErr word (pkbLeft overwritten (found ^^^ 2 ^ i)) (markPkb word true s))
  | .uncorrectable => fault .pkb 9 (word / 32) (setPkbErr word (pkbLeft overwritten found) s)

/-- The packet at place i of a spilled queue in PKB cells, with a tag of its Chervil (R143). -/
def pktRefilled (i : Nat) (c : Fin 8) (cells : List Nat) (e : Epq) : Epq :=
  { e with pkts := e.pkts.modify i (fun p => { p with loc := .pkb, tag := some c, cells := cells }) }

section
variable {s : State}

theorem execPkbScrub_next {word flips : Nat} {overwritten : Bool} (awake : asleep s = false) (present : word < 524288) :
    execPkbScrub word flips overwritten s =
      .next (pkbScrubbed word overwritten (pkbFound s word flips) (fresh s)) := by
  have acts : ¬ (asleep (fresh s) || decide (word ≥ 524288)) = true := by simp [awake, present]
  unfold execPkbScrub
  simp only [if_neg acts, fresh_memb, ← pkbFound_eq]
  unfold pkbScrubbed pkbLeft
  cases decodeWord 32 (pkbFound s word flips) <;> rfl

/-- The state before the scrub of a unit: the scrubber is past it, and its bits have flipped (R96). -/
def unitTurn (flips : List (Nat × Nat)) (s : State) : State :=
  { fresh s with memb := { flipUnit s.memb.dramUnit flips s.memb with
      dramUnit := if s.memb.dramUnit + 1 ≥ dramUnits then 0 else s.memb.dramUnit + 1 } }

theorem execDramScrubUnit_next {flips : List (Nat × Nat)} (running : s.sup.selfRefresh = false) (up : s.sup.ready = true)
    (active : s.pmu.reported ≠ .suspend) :
    execDramScrubUnit flips s = .next (if withdrawn s s.memb.dramUnit then unitTurn flips s
      else scrubUnit s.memb.dramUnit (unitTurn flips s)) :=
  if_neg (by simp [running, up, active])

theorem execDramRefreshRateRead_next {mult : Nat} (running : s.sup.selfRefresh = false) :
    execDramRefreshRateRead mult s = .next { s with out := [], memb := { s.memb with refreshMult := mult } } :=
  congrArg Host.Outcome.next (if_neg (by simp [running]))

/-- One step of a refill: the first spilled packet of the queue goes to cells, and the refill goes on. -/
theorem refill_succ {q n i : Nat} {e : Epq} {c : Fin 8} {cells : List Nat} (queue : epqOf s q = some e)
    (spilled : e.pkts.findIdx? (·.loc == .dram) = some i) (placed : e.chv = some c)
    (ahead : (e.pkts.filter (·.loc == .pkb)).length < 2 * e.burst) (below : overThreshold s = false)
    (tagFree : queueTag s e = true)
    (share : (epqCells e + cellsOf (((e.pkts[i]?).map (·.data.length)).getD 0)) * 128 ≤ e.capPkb)
    (credit : fabOpen s 3 true = true) (unfenced : chvFenced s c = false)
    (free : takeCells s 4 e.port (cellsOf (((e.pkts[i]?).map (·.data.length)).getD 0)) = some cells) :
    refill q (n + 1) s = refill q n (modEpq q (pktRefilled i c cells) s) := by
  simp only [refill, queue, spilled, placed, ahead, below, tagFree, share, credit, unfenced, free]
  rfl

end

/-- Settles O6: each row keeps the parts its law in Laws/Kept.lean does not name, and its conditions select the branch in which it acts;
a refill takes its first step by `refill_succ`. -/
theorem memoryHousekeepingRuns : Obligations.MemoryHousekeepingRuns := by
  refine ⟨?pkbScrub, ?dramScrub, ?refreshRate, ?spillRefill⟩
  case pkbScrub =>
    rintro s w n o ⟨awake, present⟩
    have next := execPkbScrub_next (flips := n) (overwritten := o) awake present
    refine runs_of_kept_next (execPkbScrub_kept w n o s) next ?_
    unfold pkbScrubbed pkbLeft
    simp only [← pkbFound_eq]
    cases decodeWord 32 (pkbFound s w n) <;> rfl
  case dramScrub =>
    rintro s l ⟨running, up, active⟩
    exact runs_to_of_kept (execDramScrubUnit_kept l s) (execDramScrubUnit_next running up active)
  case refreshRate =>
    intro s n running
    exact runs_to_of_kept (execDramRefreshRateRead_kept n s) (execDramRefreshRateRead_next running)
  case spillRefill =>
    rintro s q i e c l ⟨queue, spilled, placed, ahead, below, tagFree, share, credit, unfenced, free⟩
    have first := refill_succ (s := fresh s) (n := 63) queue spilled placed ahead below tagFree share credit unfenced free
    exact runs_to_of_kept (execSpillRefill_kept q s)
      (congrArg (fun t => Host.Outcome.next (settle (touchEpq q (tagHead q t)))) first)

end Sys2Proof.Machine
end

section
/-! SUPPORT. The vendor port status word on a slot that the hub does not own, and the requests to a hub and its ports: the next state of
each row where its hub answers its host (R105, R113, R129–R131, R157, R158, R294, R295, R298). -/

set_option Elab.async false

namespace Sys2Proof.Machine

/-! ### Slots and their vendor words -/

/-- A wIndex within the slot count names its slot (R129). -/
theorem wIndexSlot_succ {s : State} {u : US} {v : Fin 15} (listed : v.val < (hubOf s u).active.length) :
    wIndexSlot s u (v.val + 1) = some v := by
  have inRange : 1 ≤ v.val + 1 ∧ v.val + 1 ≤ 15 := by omega
  simp [wIndexSlot, inRange, Nat.succ_le_of_lt listed]

section
variable {s : State} {u : US} {v : Fin 15} {d : DS}

/-- A slot reaches no port that its hub does not own (R105). -/
theorem ownedAt_eq_none (slot : slotAt s u v = some (.port d)) (other : ownerOf s d ≠ some u) : ownedAt s u v = none := by
  simp [ownedAt, slot, other]

/-- R130: what a slot shows of a port that its hub does not own. -/
theorem vendorWord_unowned (slot : slotAt s u v = some (.port d)) (other : ownerOf s d ≠ some u) :
    vendorWord s u v = if isSealed s d then 0 else 2 ^ 16 * (0x21 + d.val) := by
  simp [vendorWord, vendorOther, dsCode, slot, other]

end

/-- An update of one slot of a hub leaves the hub's other slots. -/
theorem slotSt_modSlot_hubSlots (u : US) (v : Fin 15) (f : SlotSt → SlotSt) (s : State) :
    slotSt (modSlot u v f s) u v = f (slotSt s u v) ∧ ∀ w, w ≠ v → slotSt (modSlot u v f s) u w = slotSt s u w :=
  ⟨slotSt_modSlot_self u v f s, fun _ other => slotSt_modSlot_slot other f s⟩

/-- An update of a hub leaves the other hub. -/
theorem hubOf_modHub_both (u : US) (f : Hub → Hub) (s : State) :
    hubOf (modHub u f s) u = f (hubOf s u) ∧ hubOf (modHub u f s) u.other = hubOf s u.other :=
  ⟨hubOf_modHub_self u f s, hubOf_modHub_ne (us_other_ne u) f s⟩

/-! ### The next state of each row -/

/-- The SuperSpeed hub of the pair takes a feature: every one but the remote wake of the companion (R158, R294). -/
def featureOnSs : HubFeature → Bool
  | .remoteWake2 => false
  | _ => true

/-- A hub with one of its features set or cleared. -/
def withFeature (f : HubFeature) (on : Bool) (h : Hub) : Hub := match f with
  | .u1Enable => { h with u1Enable := on }
  | .u2Enable => { h with u2Enable := on }
  | .remoteWake2 => { h with remoteWake2 := on }
  | .funcWake3 => { h with funcWake3 := on }

section
variable {s : State} {u : US} {ss : Bool} {v : Fin 15}

theorem execGetPortVendorStatus_stall {n : Nat} (up : hubUp s u ss = true) (unnamed : wIndexSlot s u n = none) :
    execGetPortVendorStatus u ss n s = .next (emit (.stall u) (fresh s)) := by
  simp [execGetPortVendorStatus, up, unnamed]

theorem execGetPortVendorStatus_word {n : Nat} (up : hubUp s u ss = true) (named : wIndexSlot s u n = some v) :
    execGetPortVendorStatus u ss n s = .next (emit (.control u (le 4 (vendorWord s u v))) (fresh s)) := by
  simp [execGetPortVendorStatus, up, named]

theorem execClearPortVendorStatus_owned {n : Nat} {mask : BitVec 16} {d : DS} (up : hubUp s u ss = true)
    (named : wIndexSlot s u n = some v) (owned : ownedAt s u v = some d) :
    execClearPortVendorStatus u ss n mask s =
      .next (modDs d (fun x => { x with movedIn := x.movedIn && !mask.getLsbD 11 })
        (modSlot u v (fun x => { x with coincident := x.coincident && !mask.getLsbD 4 }) (emit (.control u []) (fresh s)))) := by
  simp [execClearPortVendorStatus, up, named, owned]

theorem execClearPortVendorStatus_unowned {n : Nat} {mask : BitVec 16} (up : hubUp s u ss = true)
    (named : wIndexSlot s u n = some v) (unowned : ownedAt s u v = none) :
    execClearPortVendorStatus u ss n mask s = .next (emit (.control u []) (fresh s)) := by
  simp [execClearPortVendorStatus, up, named, unowned]

theorem execSetPortPower_owned {d : DS} (up : hubUp s u ss = true) (owned : ownedAt s u v = some d) :
    execSetPortPower u ss v s =
      .next (repower (dsPort d) (modSlot u v (fun x => { x with power := true }) (fresh s))) := by
  simp [execSetPortPower, up, owned]

theorem execSetPortPower_unowned (up : hubUp s u ss = true) (unowned : ownedAt s u v = none) :
    execSetPortPower u ss v s = .next (modSlot u v (fun x => { x with power := true }) (fresh s)) := by
  simp [execSetPortPower, up, unowned]

theorem execClearPortPower_owned {d : DS} (up : hubUp s u ss = true) (owned : ownedAt s u v = some d) :
    execClearPortPower u ss v s = .next (portOff (dsPort d)
      (modDs d (fun x => { x with test2 := 0 }) (modSlot u v (fun x => { x with power := false }) (fresh s)))) := by
  simp [execClearPortPower, up, owned]

theorem execClearPortPower_unowned (up : hubUp s u ss = true) (unowned : ownedAt s u v = none) :
    execClearPortPower u ss v s = .next (modSlot u v (fun x => { x with power := false }) (fresh s)) := by
  simp [execClearPortPower, up, unowned]

theorem execSetHubDepth_next {depth : Nat} (up : hubUp s u true = true) :
    execSetHubDepth u depth s = .next (emit (.control u []) (modHub u (fun h => { h with depth := depth }) (fresh s))) :=
  congrArg Host.Outcome.next (if_pos up)

theorem execSetPortU1U2Timeout_next {isU2 : Bool} {value : Byte} (up : hubUp s u true = true) :
    execSetPortU1U2Timeout u v isU2 value s = .next (modSlot u v
      (fun x => if isU2 then { x with u2 := value.toNat } else { x with u1 := value.toNat }) (fresh s)) :=
  congrArg Host.Outcome.next (if_pos up)

theorem execSetPortRemoteWakeMask_next {mask : BitVec 3} (up : hubUp s u true = true) :
    execSetPortRemoteWakeMask u v mask s = .next (modSlot u v (fun x => { x with wakeMask := mask.toNat }) (fresh s)) :=
  congrArg Host.Outcome.next (if_pos up)

theorem execClearPortChangeFeature_next {c : Change} (up : hubUp s u ss = true) :
    execClearPortChangeFeature u ss v c s = .next (modSlot u v (fun x =>
      if ss then { x with chg3 := x.chg3.filter (· ≠ c) } else { x with chg2 := x.chg2.filter (· ≠ c) }) (fresh s)) :=
  congrArg Host.Outcome.next (if_pos up)

theorem execHubStatusPoll_next (up : hubUp s u ss = true) :
    execHubStatusPoll u ss s = .next (emit
      (if statusBitmap s u ss = 0 then .nak u else .hubStatus u ss (statusBitmap s u ss)) (fresh s)) := by
  by_cases quiet : statusBitmap s u ss = 0
  · simp [execHubStatusPoll, up, quiet]
  · simp [execHubStatusPoll, up, quiet]

theorem execHubSetFeature_next {f : HubFeature} {on : Bool} (up : hubUp s u (featureOnSs f) = true) :
    execHubSetFeature u f on s = .next (modHub u (withFeature f on) (fresh s)) := by
  have answers : ¬ (!hubUp (fresh s) u (featureOnSs f)) = true := by simp [up]
  exact if_neg answers

end

/-- Settles O57: a wIndex within the slot count names its slot, whose word is that of `vendorWord_unowned`, and a clear takes the branch
of a slot that reaches no port. -/
theorem unownedSlotShowsItsPortCode : Obligations.UnownedSlotShowsItsPortCode := by
  intro u ss v d mask s up listed slot other
  have named := wIndexSlot_succ listed
  constructor
  · rw [← vendorWord_unowned slot other]
    exact execGetPortVendorStatus_word up named
  · exact execClearPortVendorStatus_unowned up named (ownedAt_eq_none slot other)

/-- Settles O17: each row keeps the parts its law in Laws/Kept.lean does not name, its conditions select the branch in which it acts, and
a slot or a hub that is updated leaves the others. -/
theorem hubPortRequestsRun : Obligations.HubPortRequestsRun := by
  refine ⟨?vendorStatus, ?vendorClear, ?vendorClearUnowned, ?powerSet, ?powerClear, ?depth, ?timeout, ?wakeMask, ?changeClear,
    ?statusPoll, ?feature⟩
  case vendorStatus =>
    intro s u b n up
    cases named : wIndexSlot s u n with
    | none => exact runs_to_of_kept (execGetPortVendorStatus_kept u b n s) (execGetPortVendorStatus_stall up named)
    | some v => exact runs_to_of_kept (execGetPortVendorStatus_kept u b n s) (execGetPortVendorStatus_word up named)
  case vendorClear =>
    rintro s u b n m v d ⟨up, named, owned⟩
    exact runs_to_of_kept (execClearPortVendorStatus_kept u b n m s) (execClearPortVendorStatus_owned up named owned)
  case vendorClearUnowned =>
    rintro s u b n m v ⟨up, named, unowned⟩
    exact runs_to_of_kept (execClearPortVendorStatus_kept u b n m s) (execClearPortVendorStatus_unowned up named unowned)
  case powerSet =>
    intro s u b v up
    cases reach : ownedAt s u v with
    | none => exact runs_to_of_kept (execSetPortPower_kept u b v s) (execSetPortPower_unowned up reach)
    | some d => exact runs_to_of_kept (execSetPortPower_kept u b v s) (execSetPortPower_owned up reach)
  case powerClear =>
    intro s u b v up
    cases reach : ownedAt s u v with
    | none => exact runs_to_of_kept (execClearPortPower_kept u b v s) (execClearPortPower_unowned up reach)
    | some d => exact runs_to_of_kept (execClearPortPower_kept u b v s) (execClearPortPower_owned up reach)
  case depth =>
    intro s u n up
    obtain ⟨set, other⟩ := hubOf_modHub_both u (fun h => { h with depth := n }) (fresh s)
    exact runs_of_kept_next (execSetHubDepth_kept u n s) (execSetHubDepth_next up) ⟨congrArg Hub.depth set, rfl, other⟩
  case timeout =>
    intro s u v b n up
    exact runs_of_kept_next (execSetPortU1U2Timeout_kept u v b n s) (execSetPortU1U2Timeout_next up)
      (slotSt_modSlot_hubSlots u v _ (fresh s))
  case wakeMask =>
    intro s u v m up
    exact runs_of_kept_next (execSetPortRemoteWakeMask_kept u v m s) (execSetPortRemoteWakeMask_next up)
      (slotSt_modSlot_hubSlots u v _ (fresh s))
  case changeClear =>
    intro s u b v c up
    exact runs_of_kept_next (execClearPortChangeFeature_kept u b v c s) (execClearPortChangeFeature_next up)
      (slotSt_modSlot_hubSlots u v _ (fresh s))
  case statusPoll =>
    intro s u b up
    exact runs_to_of_kept (execHubStatusPoll_kept u b s) (execHubStatusPoll_next up)
  case feature =>
    intro s u f b up
    exact runs_of_kept_next (execHubSetFeature_kept u f b s) (execHubSetFeature_next up)
      (hubOf_modHub_both u (withFeature f b) (fresh s))

end Sys2Proof.Machine
end

section
/-! SUPPORT. Headers, payloads, timestamps, deferred headers, function wakes and link commands on the SuperSpeed path: the next state of
each row where its conditions hold (R131, R133–R137, R139, R144, R145, R148). -/

set_option Elab.async false

namespace Sys2Proof.Machine

/-! ### The state in which a packet's command takes effect -/

@[simp] theorem usOf_begun (s : State) (u : US) : usOf (begun s) u = usOf s u := by simp [begun]
@[simp] theorem dsOf_begun (s : State) (d : DS) : dsOf (begun s) d = dsOf s d := by simp [begun]
@[simp] theorem hubOf_begun (s : State) (u : US) : hubOf (begun s) u = hubOf s u := by simp [begun]
@[simp] theorem ownerOf_begun (s : State) (d : DS) : ownerOf (begun s) d = ownerOf s d := by simp [begun]
@[simp] theorem movingNow_begun (s : State) (d : DS) : movingNow (begun s) d = movingNow s d := by simp [begun]
@[simp] theorem underVigil_begun (s : State) (d : DS) : underVigil (begun s) d = underVigil s d := by simp [begun]

/-! ### Headers (R131, R133, R148) -/

section
variable {s : State} {u : US} {d : DS} {h : SsHeader} {crcOk : Bool}

/-- A header for a port that the hub owns, and that is not being moved, goes to that port (R131). -/
theorem routeDown_owned {n : Nat} (named : nibble h.route (hubOf s u).depth = n + 1)
    (listed : (hubOf s u).active[n]? = some (.port d)) (owned : ownerOf s d = some u) (still : movingNow s d = false) :
    routeDown u h s =
      forwardDown u d h (if h.kind == .ack && h.dirIn then ackFromHost d (rewriteDown s u d h) s else s) := by
  simp [routeDown, named, listed, owned, still]

/-- A header on an open upstream link of a connected hub is routed if the link layer lets it through. -/
theorem execSsHeaderDownstream_open (u0 : (usOf s u).link = .u0) (connected : (hubOf s u).connected = true) :
    execSsHeaderDownstream u h crcOk s =
      .next (if (linkIn (usPort u) h crcOk (begun s)).2 then routeDown u h (hostSeen u (linkIn (usPort u) h crcOk (begun s)).1)
        else (linkIn (usPort u) h crcOk (begun s)).1) := by
  have acts : ¬ ((usOf (begun s) u).link != .u0 || !(hubOf (begun s) u).connected) = true := by simp [u0, connected]
  exact if_neg acts

/-- A header of a device goes to the host whose connected hub owns the port, unless it acknowledges data (R133). -/
theorem routeUp_owned (hosted : underVigil s d = false) (owned : ownerOf s d = some u)
    (connected : (hubOf s u).connected = true) (notAck : h.kind ≠ .ack) :
    routeUp d h s =
      if h.kind == .dp then
        judgeData (dsPort d) (usPort u) (findEpq s d h.addr h.ep h.dirIn) (rewriteUp s d h) false (startExit (usPort u) s)
      else sendHeader (dsPort d) (usPort u) (rewriteUp s d h) (chargeTp (findEpq s d h.addr h.ep h.dirIn) (usPort u) s) := by
  simp [routeUp, notAck, hosted, owned, connected]

/-- A header on an open downstream link is routed if the link layer lets it through. -/
theorem execSsHeaderUpstream_open (u0 : (dsOf s d).link = .u0) :
    execSsHeaderUpstream d h crcOk s =
      .next (if (linkIn (dsPort d) h crcOk (begun s)).2 then routeUp d h (linkIn (dsPort d) h crcOk (begun s)).1
        else (linkIn (dsPort d) h crcOk (begun s)).1) := by
  have acts : ¬ ((dsOf (begun s) d).link != .u0) = true := by simp [u0]
  exact if_neg acts

theorem execFunctionWake_forwarded (u0 : (dsOf s d).link = .u0) (hosted : underVigil s d = false)
    (owned : ownerOf s d = some u) (connected : (hubOf s u).connected = true) :
    execFunctionWake d h s = .next (sendHeader (dsPort d) (usPort u) (rewriteUp (begun s) d h)
      (chargeTp (findEpq (begun s) d h.addr h.ep h.dirIn) (usPort u) (begun s))) := by
  have acts : ¬ ((dsOf (begun s) d).link != .u0 || underVigil (begun s) d) = true := by simp [u0, hosted]
  have owner : ownerOf (dueTick (fresh s)) d = some u := (ownerOf_begun s d).trans owned
  have up : (hubOf (begun s) u).connected = true := by simp [connected]
  refine (if_neg acts).trans ?_
  rw [owner]
  exact congrArg Host.Outcome.next (if_pos up)

end

/-! ### Payloads (R137, R139, R145) -/

/-- The payload judged last on a link has come: its header waits for it no more. -/
def payloadCame (p : Port) (s : State) : State :=
  modLink p (fun y => { y with rx := none, idleFrom := (begun s).now }) (begun s)

/-- The data packet of a header that was judged, with the payload that followed it. -/
def payloadPkt (p : Port) (data : List Byte) (crcOk : Bool) (r : RxDp) (s : State) : Pkt :=
  { h := r.h, data := data, bad := !crcOk, red := r.red, at_ := (begun s).now, ingress := p, dest := r.dest }

/-- The state in which a payload under way is sent on: a bad one counted, its port available (R161). -/
def payloadCounted (p : Port) (crcOk : Bool) (r : RxDp) (s : State) : State :=
  let s1 := if crcOk then payloadCame p s else countDiscard p r.epq 3 (payloadCame p s)
  match portDs p with
  | some d => availGo (dsCode d) s1
  | none => s1

/-- A packet cut through leaves on its egress link, by the head of its queue where one is open (R137). -/
def cutThrough (out : Port) (k : Pkt) (epq : Option Nat) (s : State) : State := match epq with
  | none => sendData none out k s
  | some q => popHead q (sendData (some q) out k
      (tagHead q (modEpq q (fun y => { y with pkts := k :: y.pkts, tagged := false }) s)))

section
variable {s : State} {p : Port} {data : List Byte} {crcOk : Bool} {r : RxDp}

theorem execDppReceived_drop (judged : (linkOf (begun s) p).rx = some r) (drop : r.disp = .drop) :
    execDppReceived p data crcOk s = .next (linkRested p (payloadCame p s)) := by
  simp only [execDppReceived, ← begun.eq_def, judged, drop]
  rfl

theorem execDppReceived_store (judged : (linkOf (begun s) p).rx = some r) (store : r.disp = .store) :
    execDppReceived p data crcOk s =
      .next (linkRested p (storeData r (payloadPkt p data crcOk r s) (payloadCame p s))) := by
  simp only [execDppReceived, ← begun.eq_def, judged, store]
  rfl

theorem execDppReceived_cut {out : Port} (judged : (linkOf (begun s) p).rx = some r) (cut : r.disp = .cut out) :
    execDppReceived p data crcOk s = .next (linkRested p (settle
      (cutThrough out (payloadPkt p data crcOk r s) r.epq (payloadCounted p crcOk r s)))) := by
  simp only [execDppReceived, ← begun.eq_def, judged, cut]
  unfold payloadCounted cutThrough
  cases r.epq <;> rfl

end

/-! ### Timestamps and deferred headers (R134, R135) -/

section
variable {s : State}

/-- A timestamp reaches a port of the host's hub: at once at a packet boundary, else it waits for one (R134). -/
def itpRepeated (u : US) (stamp : Nat) (s : State) (d : DS) : State :=
  if ownerOf s d == some u && (dsOf s d).link == .u0 && !movingNow s d && !portFenced s (dsPort d) then
    (if (linkOf s (dsPort d)).tx.isNone then emit (.itp d stamp false) (modLink (dsPort d) (fun l => { l with itp := none }) s)
     else modLink (dsPort d) (fun l => { l with itp := some stamp }) s)
  else s

theorem execItpReceived_repeated {u : US} {stamp : Nat} (u0 : (usOf s u).link = .u0)
    (connected : (hubOf s u).connected = true) :
    execItpReceived u stamp s = .next (allDs.foldl (itpRepeated u stamp) (hostSeen u (fresh s))) := by
  have acts : ¬ ((usOf (fresh s) u).link != .u0 || !(hubOf (fresh s) u).connected) = true := by simp [u0, connected]
  exact if_neg acts

/-- A link that was leaving U1 or U2 has reached U0, and its retry buffer is sent again (R135, R145). -/
def linkExited (p : Port) (s : State) : State :=
  resend p (setLink p .u0 (modLink p (fun l => { l with exiting := false, deferred := [] }) (fresh s)))

theorem execDeferredHeaderDelivery_next {d : DS} (exiting : (linkOf s (dsPort d)).exiting = true) :
    execDeferredHeaderDelivery d s = .next (flushHdr (dsPort d) 64
      ((linkOf s (dsPort d)).deferred.foldl (fun y h => sendHeader h.1 (dsPort d) h.2 y) (linkExited (dsPort d) s))) := by
  have acts : ¬ (!(linkOf (fresh s) (dsPort d)).exiting) = true := by simp [exiting]
  exact if_neg acts

end

/-! ### Link commands (R144) -/

section
variable {s : State} {p : Port} {h : SsHeader} {rest : List SsHeader}

theorem execLinkCommandReceived_lgood_next (waits : (linkOf s p).retry = h :: rest) :
    execLinkCommandReceived p (.lgood h.lseq) s =
      .next (linkRested p (modLink p (fun x => { x with retry := rest }) (fresh s))) := by
  simp [execLinkCommandReceived, waits]

theorem execLinkCommandReceived_lgood_outOfSequence {n : Nat} (waits : (linkOf s p).retry = h :: rest) (other : h.lseq ≠ n) :
    execLinkCommandReceived p (.lgood n) s = .next (setLink p .recovery (fresh s)) := by
  simp [execLinkCommandReceived, waits, other]

theorem execLinkCommandReceived_lbad_next :
    execLinkCommandReceived p .lbad s =
      .next ((linkOf s p).retry.foldl (fun y h => emit (.ssHeader p h) y) (emit (.linkCmd p .lrty) (fresh s))) := rfl

theorem execLinkCommandReceived_lrty_next :
    execLinkCommandReceived p .lrty s = .next (modLink p (fun l => { l with rxIgnore := false }) (fresh s)) := rfl

theorem execLinkCommandReceived_lcrd_next :
    execLinkCommandReceived p (.lcrd (linkOf s p).txCrd) s =
      .next (flushHdr p 64 (modLink p (fun l => { l with
        credits := min (maxCredits s p) (l.credits + 1), txCrd := (l.txCrd + 1) % maxCredits s p }) (fresh s))) :=
  congrArg Host.Outcome.next (if_pos rfl)

theorem execLinkCommandReceived_lcrd_outOfSequence {n : Nat} (other : n ≠ (linkOf s p).txCrd) :
    execLinkCommandReceived p (.lcrd n) s = .next (setLink p .recovery (fresh s)) :=
  congrArg Host.Outcome.next (if_neg other)

end

/-- Settles O7: each row keeps the parts its law in Laws/Kept.lean does not name, and its conditions select the branch in which it acts;
the link layer, the tick and the host heard leave the ownership and the hub by which a header is routed. -/
theorem superspeedForwardingRuns : Obligations.SuperspeedForwardingRuns := by
  refine ⟨?down, ?downStopped, ?up, ?upStopped, ?store, ?cut, ?drop, ?itp, ?deferred, ?wake, ?lgood, ?lgoodOther, ?lbad,
    ?lrty, ?lcrd, ?lcrdOther⟩
  case down =>
    rintro s u h d n ⟨u0, connected, passed, named, listed, owned, still⟩
    have routed := routeDown_owned (s := hostSeen u (linkIn (usPort u) h true (begun s)).1) (by simpa using named)
      (by simpa using listed) (by simpa using owned) (by simpa using still)
    refine runs_to_of_kept (execSsHeaderDownstream_kept u h true s) ?_
    exact (execSsHeaderDownstream_open u0 connected).trans (congrArg Host.Outcome.next ((if_pos passed).trans routed))
  case downStopped =>
    rintro s u h b ⟨u0, connected, stopped⟩
    refine runs_to_of_kept (execSsHeaderDownstream_kept u h b s) ?_
    exact (execSsHeaderDownstream_open u0 connected).trans (congrArg Host.Outcome.next (if_neg (by simp [stopped])))
  case up =>
    rintro s d h u ⟨u0, passed, hosted, owned, connected, notAck⟩
    have routed := routeUp_owned (s := (linkIn (dsPort d) h true (begun s)).1) (by simpa using hosted)
      (by simpa using owned) (by simpa using connected) notAck
    refine runs_to_of_kept (execSsHeaderUpstream_kept d h true s) ?_
    exact (execSsHeaderUpstream_open u0).trans (congrArg Host.Outcome.next ((if_pos passed).trans routed))
  case upStopped =>
    rintro s d h b ⟨u0, stopped⟩
    refine runs_to_of_kept (execSsHeaderUpstream_kept d h b s) ?_
    exact (execSsHeaderUpstream_open u0).trans (congrArg Host.Outcome.next (if_neg (by simp [stopped])))
  case store =>
    rintro s p l c x ⟨judged, store⟩
    exact runs_to_of_kept (execDppReceived_kept p l c s) (execDppReceived_store judged store)
  case cut =>
    rintro s p l c x o ⟨judged, cut⟩
    exact runs_to_of_kept (execDppReceived_kept p l c s) (execDppReceived_cut judged cut)
  case drop =>
    rintro s p l c x ⟨judged, drop⟩
    exact runs_to_of_kept (execDppReceived_kept p l c s) (execDppReceived_drop judged drop)
  case itp =>
    rintro s u n ⟨u0, connected⟩
    exact runs_to_of_kept (execItpReceived_kept u n s) (execItpReceived_repeated u0 connected)
  case deferred =>
    intro s d exiting
    exact runs_to_of_kept (execDeferredHeaderDelivery_kept d s) (execDeferredHeaderDelivery_next exiting)
  case wake =>
    rintro s d h u ⟨u0, hosted, owned, connected⟩
    exact runs_to_of_kept (execFunctionWake_kept d h s) (execFunctionWake_forwarded u0 hosted owned connected)
  case lgood =>
    intro s p h l waits
    exact runs_to_of_kept (execLinkCommandReceived_kept p (.lgood h.lseq) s) (execLinkCommandReceived_lgood_next waits)
  case lgoodOther =>
    rintro s p n h l ⟨waits, other⟩
    exact runs_to_of_kept (execLinkCommandReceived_kept p (.lgood n) s)
      (execLinkCommandReceived_lgood_outOfSequence waits other)
  case lbad =>
    intro s p
    exact runs_to_of_kept (execLinkCommandReceived_kept p .lbad s) execLinkCommandReceived_lbad_next
  case lrty =>
    intro s p
    exact runs_to_of_kept (execLinkCommandReceived_kept p .lrty s) execLinkCommandReceived_lrty_next
  case lcrd =>
    intro s p
    exact runs_to_of_kept (execLinkCommandReceived_kept p (.lcrd (linkOf s p).txCrd) s)
      execLinkCommandReceived_lcrd_next
  case lcrdOther =>
    intro s p n other
    exact runs_to_of_kept (execLinkCommandReceived_kept p (.lcrd n) s)
      (execLinkCommandReceived_lcrd_outOfSequence other)

end Sys2Proof.Machine
end

section
/-! SUPPORT. What an update of a companion path or of its translator leaves, and what the translator then reads. -/

set_option Elab.async false

namespace Sys2Proof.Machine

section
variable (d : DS) (f : Tt → Tt) (s : State)

@[simp] theorem dsOf_modTt (e : DS) : dsOf (modTt d f s) e = dsOf s e := rfl
@[simp] theorem modTt_out : (modTt d f s).out = s.out := rfl

/-- A translator just changed reads as changed. -/
theorem tt_modTt_self : (modTt d f s).u2d[d].tt = f s.u2d[d].tt := by simp [modTt, modU2d]

/-- Two changes of a translator that agree on what it holds are one change. -/
theorem modTt_congr {d : DS} {f g : Tt → Tt} {s : State} (agree : f s.u2d[d].tt = g s.u2d[d].tt) :
    modTt d f s = modTt d g s := by
  simp only [modTt, modU2d, agree]

end

end Sys2Proof.Machine
end

section
/-! SUPPORT. The high-speed repeater, babble and LPM tokens: the next state of each row where its conditions hold (R162, R165–R169,
R186–R190). -/

set_option Elab.async false

namespace Sys2Proof.Machine

/-! ### The repeater (R162, R165, R169, R186) -/

/-- The state in which a host's packet is repeated: its host heard, and a SOF counted (R178, R249). -/
def hostPacketSeen (u : US) (k : UsbPkt) (s : State) : State := match k with
  | .sof n => hostSof u n (hostSeen u (fresh s))
  | _ => hostSeen u (fresh s)

/-- A host's packet at one port: an open port of its hub hears it, data is metered, and a handshake ends the transaction latched there. -/
def repeatDown (u : US) (k : UsbPkt) (s : State) (d : DS) : State :=
  if ownerOf s d == some u && hsOpen s d then
    let heard := downPacket d k s
    match k, s.u2d[d].latch with
    | .data _ _ bs, some l => if l.dirIn then heard else meterHs d l bs.length heard
    | .handshake h, some l => modU2d d (fun x => { x with latch := none }) (endTransaction d l true h heard)
    | _, _ => heard
  else s

section
variable {s : State} {u : US} {d : DS}

/-- A connected hub whose upstream pair runs at high speed hears its host's packets. -/
theorem not_shut_of_high (connected : (hubOf s u).connected = true) (high : (usOf s u).speed2 = 2)
    (awake : (usOf s u).susp2 = false) :
    ¬ (!(hubOf (fresh s) u).connected || (usOf (fresh s) u).speed2 != 2 || (usOf (fresh s) u).susp2) = true := by
  simp [connected, high, awake]

theorem execHsPacketRepeat_host {k : UsbPkt} (connected : (hubOf s u).connected = true) (high : (usOf s u).speed2 = 2)
    (awake : (usOf s u).susp2 = false) :
    execHsPacketRepeat (.host u) k s = .next (allDs.foldl (repeatDown u k) (hostPacketSeen u k s)) :=
  if_neg (not_shut_of_high connected high awake)

/-- With no token latched, a device's packet passes to its host as it is (R169). -/
theorem execHsPacketRepeat_dev_unlatched {k : UsbPkt} (openPort : hsOpen s d = true) (hosted : underVigil s d = false)
    (inTime : hsPastEof1 s d = false) (owned : ownerOf s d = some u) (connected : (hubOf s u).connected = true)
    (high : (usOf s u).speed2 = 2) (unlatched : s.u2d[d].latch = none) :
    execHsPacketRepeat (.dev d) k s = .next (emit (.usb2 (usPort u) k) (fresh s)) := by
  have hears : ¬ (!hsOpen (fresh s) d || underVigil (fresh s) d || hsPastEof1 (fresh s) d) = true := by
    simp [openPort, hosted, inTime]
  have passes : ¬ (!(hubOf (fresh s) u).connected || (usOf (fresh s) u).speed2 != 2) = true := by simp [connected, high]
  simp only [execHsPacketRepeat, if_neg hears, ownerOf_fresh, owned, if_neg passes, fresh_u2d, unlatched]

/-! ### Babble (R186, R187) -/

/-- The babbling port is disabled and its event counted; what the row does beside keeps the port's data. -/
theorem execBabbleDetect_dsOf {cut : Bool} (enabled : (dsOf s d).enable = true) :
    ∃ t, execBabbleDetect d cut s = .next t ∧
      dsOf t d = { dsOf s d with enable := false, babble := (dsOf s d).babble + 1 } := by
  have acts : ¬ (!(dsOf (fresh s) d).enable) = true := by simp [enabled]
  refine ⟨_, if_neg acts, ?_⟩
  rw [dsOf_portEvent, dsOf_settle, dsOf_modTt]
  split <;> simp

/-! ### LPM (R188–R190) -/

/-- An LPM transaction of a host repeated to every open port of its hub (R188). -/
def lpmRepeated (u : US) (addr besl : Nat) (remoteWake : Bool) (s : State) : State :=
  allDs.foldl (fun y e => if ownerOf y e == some u && hsOpen y e then lpmTokens e addr besl remoteWake y else y)
    (hostSeen u (fresh s))

/-- What a device's answer to an LPM transaction does: an ACK puts its port in L1, and the host sees any answer (R188). -/
def lpmAnswered (u : US) (d : DS) (answer : Option Hsk) (besl : Nat) (remoteWake : Bool) (s : State) : State :=
  match answer with
  | some .ack => modU2d d (fun y => { y with besl := besl, l1Wake := remoteWake })
      (modDs d (fun y => { y with l1 := true }) (emit (.usb2 (usPort u) (.handshake .ack)) s))
  | some h => emit (.usb2 (usPort u) (.handshake h)) s
  | none => s

theorem execDsLpmToken_repeated {addr besl : Nat} {answer : Option Hsk} {remoteWake : Bool} (owned : ownerOf s d = some u)
    (openPort : hsOpen s d = true) (high : (usOf s u).speed2 = 2) :
    execDsLpmToken d false addr answer besl remoteWake s =
      .next (lpmAnswered u d answer besl remoteWake (lpmRepeated u addr besl remoteWake s)) := by
  have repeats : ¬ (!hsOpen (fresh s) d || (usOf (fresh s) u).speed2 != 2) = true := by simp [openPort, high]
  simp only [execDsLpmToken, ownerOf_fresh, owned, if_neg repeats]
  rfl

theorem execDsLpmToken_viaTt {addr besl : Nat} {answer : Option Hsk} {remoteWake : Bool} (owned : ownerOf s d = some u)
    (high : (usOf s u).speed2 = 2) (enabled : (dsOf s d).enable = true) :
    execDsLpmToken d true addr answer besl remoteWake s = .next (emit (.split u (.hs .stall)) (hostSeen u (fresh s))) := by
  simp [execDsLpmToken, owned, high, enabled]

theorem execClearPortL1_next {v : Fin 15} (reached : ownedAt s u v = some d) (connected : (hubOf s u).connected = true)
    (asleep : (dsOf s d).l1 = true) :
    execClearPortL1 u v s = .next (emit (.resumeK d (beslNs s.u2d[d].besl))
      (modDs d (fun x => { x with l1 := false, l1Exit := some (s.now + beslNs s.u2d[d].besl) }) (fresh s))) := by
  simp [execClearPortL1, reached, connected, asleep]

theorem execL1DeviceWake_next (asleep : (dsOf s d).l1 = true) (enabled : s.u2d[d].l1Wake = true) :
    execL1DeviceWake d s = .next (chgPort d false .l1 (modDs d (fun x => { x with l1 := false }) (fresh s))) :=
  if_neg (by simpa [asleep] using enabled)

theorem execCompanionLpm_next {linkState : Nat} (besl : Nat) {remoteWake : Bool} (connected : (hubOf s u).connected = true)
    (awake : (usOf s u).susp2 = false) (running : (usOf s u).l1 = false) :
    execCompanionLpm u linkState besl remoteWake s =
      if linkState ≠ 1 then .next (emit (.lpm u .stall) (hostSeen u (fresh s)))
      else if companionIdle (hostSeen u (fresh s)) u then
        .next (modU2u u (fun x => { x with l1Wake := remoteWake })
          (modUs u (fun x => { x with l1 := true }) (emit (.lpm u .ack) (hostSeen u (fresh s)))))
      else .next (emit (.lpm u .nyet) (hostSeen u (fresh s))) :=
  if_neg (by simp [connected, awake, running])

theorem execCompanionL1Exit_byHost (asleep : (usOf s u).l1 = true) :
    execCompanionL1Exit u none s = .next (waitingL1 u (modUs u (fun y => { y with l1 := false }) (hostSeen u (fresh s)))) :=
  if_neg (by simp [asleep])

theorem execCompanionL1Exit_byDevice (asleep : (usOf s u).l1 = true) (owned : ownerOf s d = some u) :
    execCompanionL1Exit u (some d) s =
      if s.u2u[u.idx].l1Wake then .next (emit (.upWake u false) (modUs u (fun y => { y with l1 := false }) (fresh s)))
      else .next (modDs d (fun y => { y with wakePend2 := true }) (fresh s)) := by
  have acts : ¬ (!(usOf (fresh s) u).l1) = true := by simp [asleep]
  exact (if_neg acts).trans (if_neg (by simp [owned]))

end

/-- Settles O9: each row keeps the parts its law in Laws/Kept.lean does not name, and its conditions select the branch in which it
acts. -/
theorem repeatedPacketsRun : Obligations.RepeatedPacketsRun := by
  refine ⟨?host, ?device, ?babble, ?lpm, ?lpmViaTt, ?clearL1, ?deviceWake, ?companion, ?exitByHost, ?exitByDevice⟩
  case host =>
    rintro s u k ⟨connected, high, awake⟩
    refine runs_of_kept_next (execHsPacketRepeat_kept (.host u) k s) (execHsPacketRepeat_host connected high awake) ?_
    cases k <;> rfl
  case device =>
    rintro s d k u ⟨openPort, hosted, inTime, owned, connected, high, unlatched⟩
    exact runs_to_of_kept (execHsPacketRepeat_kept (.dev d) k s)
      (execHsPacketRepeat_dev_unlatched openPort hosted inTime owned connected high unlatched)
  case babble =>
    intro s d b enabled
    obtain ⟨t, next, disabled⟩ := execBabbleDetect_dsOf (cut := b) enabled
    exact runs_of_kept_next (execBabbleDetect_kept d b s) next (by simp [disabled])
  case lpm =>
    rintro s d v x a n w u ⟨owned, rfl, openPort, high⟩
    refine runs_of_kept_next (execDsLpmToken_kept d false x a n w s) (execDsLpmToken_repeated owned openPort high) ?_
    rcases a with _ | _ | _ <;> rfl
  case lpmViaTt =>
    rintro s d v x a n w u ⟨owned, rfl, high, enabled⟩
    exact runs_to_of_kept (execDsLpmToken_kept d true x a n w s) (execDsLpmToken_viaTt owned high enabled)
  case clearL1 =>
    rintro s u v d ⟨reached, connected, asleep⟩
    refine runs_of_kept_next (execClearPortL1_kept u v s) (execClearPortL1_next reached connected asleep) ?_
    exact ⟨by simp, by simp, by simp, fun e other => by simp [other]⟩
  case deviceWake =>
    rintro s d ⟨asleep, enabled⟩
    exact runs_to_of_kept (execL1DeviceWake_kept d s) (execL1DeviceWake_next asleep enabled)
  case companion =>
    rintro s u n b w ⟨connected, awake, running⟩
    refine runs_to_of_kept (execCompanionLpm_kept u n b w s) ((execCompanionLpm_next b connected awake running).trans ?_)
    dsimp only
    split_ifs <;> rfl
  case exitByHost =>
    rintro s u x ⟨asleep, rfl⟩
    exact runs_to_of_kept (execCompanionL1Exit_kept u none s) (execCompanionL1Exit_byHost asleep)
  case exitByDevice =>
    rintro s u x d ⟨asleep, rfl, owned⟩
    refine runs_to_of_kept (execCompanionL1Exit_kept u (some d) s) ((execCompanionL1Exit_byDevice asleep owned).trans ?_)
    split_ifs <;> rfl

end Sys2Proof.Machine
end

section
/-! SUPPORT. Non-periodic splits, the transactions of the translators and their frames: the next state of each row where its conditions hold
(R174–R178, R183–R185). -/

set_option Elab.async false

namespace Sys2Proof.Machine

/-! ### Start-splits (R175, R183) -/

/-- The buffer that a start-split asks for, in the state in which its split phase is charged: OUT data carries the PID that the IN
invert bit of its endpoint asks for (R183). -/
def splitBuf (d : DS) (da a e : Nat) (i p c l : Bool) (k : DPid) (b : List Byte) (s : State) : TtBuf :=
  { addr := a, ep := e, dirIn := i, setup := p, ctl := c, low := l
    pid := if !i && !c && invertOf s d da e false then flipPid k else k, data := b, epq := findEpq s d da e i }

section
variable {s : State} {u : US} {v : Fin 15} {a e : Nat} {i p c l o : Bool} {k : DPid} {b : List Byte} {d : DS}

@[simp] theorem splitSeen_u2d {n : Nat} : (splitSeen u d a e i n s).u2d = s.u2d := by simp [splitSeen]

/-- What a buffer can hold is not dropped (R174). -/
theorem not_dropped_of_fits (fits : i = true ∨ (o = true ∧ b.length ≤ ttMax l)) :
    ¬ (!i && (!o || decide (b.length > ttMax l))) = true := by
  rcases fits with rfl | ⟨rfl, short⟩
  · simp
  · simp [short]

theorem execSsplitNonPeriodic_stopped (port : ttPort s u v = some d) (fits : i = true ∨ (o = true ∧ b.length ≤ ttMax l))
    (stopped : s.u2d[d].tt.stopped = true) :
    execSsplitNonPeriodic u v a e i p c l k b o s =
      .next (emit (.split u (.hs .nak)) (splitSeen u d a e i (if i then 0 else b.length) s)) := by
  have nak : (splitSeen u d a e i (if i then 0 else b.length) s).u2d[d].tt.stopped = true := by simpa using stopped
  simp only [execSsplitNonPeriodic, ttPort_fresh, port, if_neg (not_dropped_of_fits fits)]
  exact if_pos nak

/-- An endpoint that holds no buffer takes a free one, or is NAKed (R175). -/
theorem execSsplitNonPeriodic_unheld (port : ttPort s u v = some d) (fits : i = true ∨ (o = true ∧ b.length ≤ ttMax l))
    (runs : s.u2d[d].tt.stopped = false) (unheld : s.u2d[d].tt.bufs.find? (ttMatch a e i) = none) :
    execSsplitNonPeriodic u v a e i p c l k b o s = .next (
      let s1 := splitSeen u d a e i (if i then 0 else b.length) s
      if s.u2d[d].tt.bufs.length < 16 then acceptSplit u d (splitBuf d (ttAddr s d a) a e i p c l k b s1) s1
      else emit (.split u (.hs .nak)) s1) := by
  have running : ¬ s.u2d[d].tt.stopped = true := by simp [-Fin.getElem_fin, runs]
  simp only [execSsplitNonPeriodic, ttPort_fresh, port, if_neg (not_dropped_of_fits fits), chargeSplit_u2d, hostSeen_u2d, fresh_u2d,
    if_neg running, unheld]
  rfl

/-! ### Complete-splits (R175, R177) -/

section
variable {x : TtBuf}

theorem execCsplitNonPeriodic_nyet (port : ttPort s u v = some d)
    (held : s.u2d[d].tt.bufs.find? (fun y => ttMatch a e i y && !y.freeAtEnd) = some x)
    (runs : x.st = .pending ∨ x.st = .executing) :
    execCsplitNonPeriodic u v a e i s = .next (emit (.split u (.hs .nyet)) (splitSeen u d a e i 0 s)) := by
  simp only [execCsplitNonPeriodic, ttPort_fresh, port, chargeSplit_u2d, hostSeen_u2d, fresh_u2d, held]
  rcases runs with pending | executing
  · simp only [pending]; rfl
  · simp only [executing]; rfl

/-- A buffer's result, returned: its first return is mirrored (R257), and the buffer stays until its endpoint asks anew. -/
def resultReturned (u : US) (d : DS) (a e : Nat) (i : Bool) (x : TtBuf) (r : UsbResp) (s : State) : State :=
  emit (.split u r) (modTt d (fun t => { t with
    bufs := t.bufs.map (fun y => if ttMatch a e i y then { y with returned := true } else y) })
    (if x.returned then s else mirrorTt d a e r x.doneAt s))

theorem execCsplitNonPeriodic_done {r : UsbResp} (port : ttPort s u v = some d)
    (held : s.u2d[d].tt.bufs.find? (fun y => ttMatch a e i y && !y.freeAtEnd) = some x) (done : x.st = .done)
    (result : x.result = some r) (present : x.spilled = false ∨ x.dirIn = false) :
    execCsplitNonPeriodic u v a e i s = .next (resultReturned u d a e i x r (splitSeen u d a e i 0 s)) := by
  have inPkb : ¬ (x.spilled && x.dirIn) = true := by rcases present with h | h <;> simp [h]
  simp only [execCsplitNonPeriodic, ttPort_fresh, port, chargeSplit_u2d, hostSeen_u2d, fresh_u2d, held, done, result, if_neg inPkb]
  rfl

end

end

/-! ### Transactions (R176, R177, R183) -/

section
variable {s : State} {d : DS} {b : TtBuf}

/-- A buffer once its transaction is on the bus, with the address and the IN invert bit that it finds (R183, R185). -/
def ttStarted (s : State) (d : DS) (b : TtBuf) : TtBuf :=
  { b with
    st := .executing, attempts := b.attempts + 1, daddr := ttAddr s d b.addr
    inv := b.dirIn && !b.ctl && invertOf s d (ttAddr s d b.addr) b.ep true
    tag := match b.tag with | some c => some c | none => (b.epq.bind (epqOf s)).bind (·.chv) }

/-- A buffer whose transaction may start is PENDING. -/
theorem st_pending_of_mayStart (may : ttMayStart s d b = true) : b.st = .pending := by
  simp only [ttMayStart, Bool.and_eq_true, beq_iff_eq] at may
  obtain ⟨⟨⟨pending, _⟩, _⟩, _⟩ := may
  exact pending

theorem execTtTransactionStart_single (bufs : s.u2d[d].tt.bufs = [b]) (may : ttMayStart s d b = true)
    (present : b.spilled = false) (runs : s.u2d[d].tt.stopped = false) (idle : periodicReady s d = false)
    (enabled : (dsOf s d).enable = true) (untested : (dsOf s d).test2 = 0) :
    execTtTransactionStart d s = .next (settle (emit
      (.ttTrans d (ttAddr s d b.addr) b.ep b.dirIn b.setup (needsPre s d b.low) b.pid b.data)
      (modTt d (fun t => { t with bufs := t.bufs.modify 0 (fun _ => ttStarted s d b) }) (fresh s)))) := by
  have pending := st_pending_of_mayStart may
  have acts : ¬ (s.u2d[d].tt.stopped || periodicReady s d || s.u2d[d].tt.bufs.any (·.st == .executing) ||
      !(dsOf s d).enable || (dsOf s d).test2 != 0) = true := by
    simp [-Fin.getElem_fin, runs, idle, bufs, pending, enabled, untested]
  have oldest : [b].findIdx? (ttMayStart (fresh s) d) = some 0 := by simp [List.findIdx?_singleton, may]
  have inPkb : unspill s d b = some b := by simp [unspill, present]
  rw [bufs] at acts
  simp only [execTtTransactionStart, fresh_u2d, dsOf_fresh, periodicReady_fresh, bufs, if_neg acts, oldest,
    List.getElem?_cons_zero, Option.bind_some, unspill_fresh, inPkb]
  rfl

/-! ### The end of a transaction (R176, R177, R185) -/

/-- A translator's only buffer set. -/
theorem modTt_modify_zero {x : TtBuf} (bufs : s.u2d[d].tt.bufs = [b]) :
    (modTt d (fun t => { t with bufs := t.bufs.modify 0 (fun _ => x) }) s).u2d[d].tt.bufs = [x] := by
  rw [tt_modTt_self, bufs]
  rfl

/-- The state in which a device's answer is metered (R206, R242, R257). -/
def answerMetered (d : DS) (b : TtBuf) (x : UsbResp) (s : State) : State :=
  meterTt d b.daddr b.ep b.dirIn (match x with | .data _ l => l.length | _ => b.data.length)
    (ttShadow d b.daddr b.ep b.dirIn x (availGo (dsCode d) (fresh s)))

/-- What a device's answer does to the only buffer: it is the result, spilled where the rules of R93 send it, and captured on a port of
Vigil (R177, R250). -/
def answerHeld (d : DS) (b : TtBuf) (x : UsbResp) (s : State) : State :=
  let y := spillResult { b with st := .done, result := some (ttResult b.inv x), returned := false, doneAt := s.now } s
  let held := settle (modTt d (fun t => { t with bufs := t.bufs.modify 0 (fun _ => y.1) }) y.2)
  if portVigil held d then captureTt d held else held

/-- A buffer after a bus error: attempted again, up to three times (R176). -/
def afterBusError (b : TtBuf) : TtBuf :=
  if b.attempts < 3 then { b with st := .pending } else { b with st := .done, result := none, returned := false }

/-- The only buffer, where it executes, is the one whose transaction ends. -/
theorem findIdx?_executing (executing : b.st = .executing) : [b].findIdx? (·.st == .executing) = some 0 := by
  simp [List.findIdx?_singleton, executing]

theorem execTtTransactionEnd_answered {r : Option UsbResp} {x : UsbResp} (bufs : s.u2d[d].tt.bufs = [b])
    (executing : b.st = .executing) (wanted : b.freeAtEnd = false) (answer : ttAnswer b r = some x) :
    execTtTransactionEnd d r s = .next (answerHeld d b x (answerMetered d b x s)) := by
  have keeps : ¬ b.freeAtEnd = true := by simp [wanted]
  simp only [execTtTransactionEnd, fresh_u2d, bufs, findIdx?_executing executing, List.getElem?_cons_zero, if_neg keeps, answer]
  rfl

theorem execTtTransactionEnd_busError {r : Option UsbResp} (bufs : s.u2d[d].tt.bufs = [b]) (executing : b.st = .executing)
    (wanted : b.freeAtEnd = false) (noAnswer : ttAnswer b r = none) :
    execTtTransactionEnd d r s =
      .next (modTt d (fun t => { t with bufs := t.bufs.modify 0 (fun _ => afterBusError b) }) (fresh s)) := by
  have keeps : ¬ b.freeAtEnd = true := by simp [wanted]
  simp only [execTtTransactionEnd, fresh_u2d, bufs, findIdx?_executing executing, List.getElem?_cons_zero, if_neg keeps, noAnswer]
  unfold afterBusError
  split <;> rfl

/-- A buffer cleared while it executed is freed at its transaction's end (R184). -/
theorem execTtTransactionEnd_cleared {r : Option UsbResp} (bufs : s.u2d[d].tt.bufs = [b]) (executing : b.st = .executing)
    (cleared : b.freeAtEnd = true) :
    execTtTransactionEnd d r s = .next (settle (modTt d (fun t => { t with bufs := [] }) (fresh s))) := by
  simp only [execTtTransactionEnd, fresh_u2d, bufs, findIdx?_executing executing, List.getElem?_cons_zero, if_pos cleared]
  rw [modTt_congr (g := fun t => { t with bufs := [] })]
  simp only [fresh_u2d, bufs]
  rfl

/-! ### Frames (R178) -/

/-- A frame's start at one port: an enabled full-speed port of the hub gets a SOF, a low-speed one a keep-alive. -/
def frameStarted (u : US) (n : Nat) (s : State) (d : DS) : State :=
  if ownerOf s d == some u && (dsOf s d).enable && (dsOf s d).test2 == 0 && (dsOf s d).speed2 != some .hs &&
      !(dsOf s d).suspHost2 && !(dsOf s d).suspHub2 && !portFenced s (dsPort d) then
    emit (if (dsOf s d).speed2 == some .ls then .keepAlive d else .sof d n) (modTt d (fun t => { t with frame := n }) s)
  else s

theorem execTtFsFrameStart_next {u : US} {n : Nat} (connected : (hubOf s u).connected = true) (high : (usOf s u).speed2 = 2)
    (awake : (usOf s u).susp2 = false) :
    execTtFsFrameStart u n s = .next (allDs.foldl (frameStarted u n) (hostSeen u (fresh s))) :=
  if_neg (not_shut_of_high connected high awake)

end

/-- Settles O10: each row keeps the parts its law in Laws/Kept.lean does not name, its conditions select the branch in which it acts, and
a split phase that is charged leaves the translators as they were; an only buffer is found at place 0. -/
theorem translatorsRun : Obligations.TranslatorsRun := by
  refine ⟨?stopped, ?accepted, ?full, ?running, ?returned, ?start, ?busError, ?answered, ?cleared, ?frame⟩
  case stopped =>
    rintro s u v a e i p c l k b o d ⟨port, fits, stopped⟩
    exact runs_to_of_kept (execSsplitNonPeriodic_kept u v a e i p c l k b o s) (execSsplitNonPeriodic_stopped port fits stopped)
  case accepted =>
    rintro s u v a e i p c l k b o d ⟨port, fits, runs, room, unheld⟩
    refine runs_to_of_kept (execSsplitNonPeriodic_kept u v a e i p c l k b o s) ?_
    exact (execSsplitNonPeriodic_unheld port fits runs unheld).trans (congrArg Host.Outcome.next (if_pos room))
  case full =>
    rintro s u v a e i p c l k b o d ⟨port, fits, runs, full, unheld⟩
    refine runs_to_of_kept (execSsplitNonPeriodic_kept u v a e i p c l k b o s) ?_
    exact (execSsplitNonPeriodic_unheld port fits runs unheld).trans (congrArg Host.Outcome.next (if_neg full.not_gt))
  case running =>
    rintro s u v a e i d x ⟨port, held, runs⟩
    exact runs_to_of_kept (execCsplitNonPeriodic_kept u v a e i s) (execCsplitNonPeriodic_nyet port held runs)
  case returned =>
    rintro s u v a e i d x r ⟨port, held, done, result, present⟩
    exact runs_to_of_kept (execCsplitNonPeriodic_kept u v a e i s) (execCsplitNonPeriodic_done port held done result present)
  case start =>
    rintro s d b ⟨bufs, may, present, runs, idle, enabled, untested⟩
    refine runs_of_kept_next (execTtTransactionStart_kept d s)
      (execTtTransactionStart_single bufs may present runs idle enabled untested) ⟨?_, by simp⟩
    rw [settle_u2d, emit_u2d]
    exact modTt_modify_zero (s := fresh s) bufs
  case busError =>
    rintro s d r b ⟨bufs, executing, wanted, noAnswer⟩
    exact runs_of_kept_next (execTtTransactionEnd_kept d r s) (execTtTransactionEnd_busError bufs executing wanted noAnswer)
      (modTt_modify_zero (s := fresh s) bufs)
  case answered =>
    rintro s d r b x ⟨bufs, executing, wanted, answer⟩
    refine runs_of_kept_next (execTtTransactionEnd_kept d r s) (execTtTransactionEnd_answered bufs executing wanted answer) ?_
    unfold answerHeld answerMetered
    cases x <;> rfl
  case cleared =>
    rintro s d r b ⟨bufs, executing, cleared⟩
    exact runs_to_of_kept (execTtTransactionEnd_kept d r s) (execTtTransactionEnd_cleared bufs executing cleared)
  case frame =>
    rintro s u n ⟨connected, high, awake⟩
    exact runs_to_of_kept (execTtFsFrameStart_kept u n s) (execTtFsFrameStart_next connected high awake)

end Sys2Proof.Machine
end

section
/-! SUPPORT. The periodic pipeline of the translators, and the requests to a hub's translators: the next state of each row where its
conditions hold (R177, R179, R180, R182, R184). -/

set_option Elab.async false

namespace Sys2Proof.Machine

/-! ### Periodic start-splits (R179) -/

section
variable {s : State} {u : US} {v : Fin 15} {a e : Nat} {i o l : Bool} {k : DPid} {b : List Byte} {d : DS}

/-- A host heard leaves the microframe that each host is in. -/
theorem uframe_hostSeen (w : US) : (hostSeen u s).u2u[w.idx].uframe = s.u2u[w.idx].uframe := by
  have seen : (hostSeen u s).u2u = s.u2u.set u.idx { s.u2u[u.idx] with keep := none } :=
    u2u_of_only (availGo_only .u2u _ _ (by decide))
  rw [seen]
  by_cases same : w = u
  · simp [same]
  · simp [Vector.getElem_set_ne _ _ (us_ne_idx (Ne.symm same))]

theorem uframe_splitSeen {n : Nat} : (splitSeen u d a e i n s).u2u[u.idx].uframe = s.u2u[u.idx].uframe := by
  rw [splitSeen, chargeSplit_u2u, uframe_hostSeen, fresh_u2u]

/-- The transaction that a periodic start-split asks for, in the slot after the microframe in which its split phase is charged (R179). -/
def perSplit (u : US) (d : DS) (da a e : Nat) (i o l : Bool) (k : DPid) (b : List Byte) (s : State) : TtPer :=
  { slot := s.u2u[u.idx].uframe + 1, addr := a, ep := e, dirIn := i, iso := o, low := l, data := b
    epq := findEpq s d da e i, pid := if !i && !o && invertOf s d da e false then flipPid k else k }

theorem execSsplitPeriodic_stopped (port : ttPort s u v = some d) (stopped : s.u2d[d].tt.stopped = true) :
    execSsplitPeriodic u v a e i o l k b s = .next (splitSeen u d a e i (if i then 0 else b.length) s) := by
  simp only [execSsplitPeriodic, ttPort_fresh, port, chargeSplit_u2d, hostSeen_u2d, fresh_u2d, if_pos stopped]
  rfl

/-- A start-split that finds its slot full is dropped and counted, and its complete-splits find ERR (R179). -/
theorem execSsplitPeriodic_dropped (port : ttPort s u v = some d) (runs : s.u2d[d].tt.stopped = false)
    (full : slotFull (splitSeen u d a e i (if i then 0 else b.length) s) d (s.u2u[u.idx].uframe + 1) a e i b = true) :
    execSsplitPeriodic u v a e i o l k b s = .next (
      let s1 := splitSeen u d a e i (if i then 0 else b.length) s
      modTt d (fun t => { t with
        dropped := t.dropped + 1
        per := t.per ++ [{ perSplit u d (ttAddr s d a) a e i o l k b s1 with
          data := [], drop := true, result := some (.hs .err), doneAt := s1.now }] }) s1) := by
  have running : ¬ s.u2d[d].tt.stopped = true := by simp [-Fin.getElem_fin, runs]
  rw [← uframe_splitSeen (d := d) (a := a) (e := e) (i := i) (n := if i then 0 else b.length)] at full
  simp only [execSsplitPeriodic, ttPort_fresh, port, chargeSplit_u2d, hostSeen_u2d, fresh_u2d, if_neg running]
  exact if_pos full

/-- An OUT start-split with room in its slot waits there; its data is not replayed (R179, R262). -/
theorem execSsplitPeriodic_placedOut (port : ttPort s u v = some d) (runs : s.u2d[d].tt.stopped = false)
    (room : slotFull (splitSeen u d a e false b.length s) d (s.u2u[u.idx].uframe + 1) a e false b = false) :
    execSsplitPeriodic u v a e false o l k b s = .next (
      let s1 := splitSeen u d a e false b.length s
      modTt d (fun t => { t with
        per := t.per ++ [{ perSplit u d (ttAddr s d a) a e false o l k b s1 with
          result := none, doneAt := s1.now
          tag := ((findEpq s1 d (ttAddr s d a) e false).bind (epqOf s1)).bind (·.chv) }] }) s1) := by
  have running : ¬ s.u2d[d].tt.stopped = true := by simp [-Fin.getElem_fin, runs]
  rw [← uframe_splitSeen (d := d) (a := a) (e := e) (i := false) (n := b.length), ← Bool.not_eq_true] at room
  simp only [execSsplitPeriodic, ttPort_fresh, port, chargeSplit_u2d, hostSeen_u2d, fresh_u2d, if_neg running]
  exact if_neg room

/-! ### Periodic complete-splits (R179, R180) -/

theorem execCsplitPeriodic_empty (slot : ttSlot s u v = some d) (empty : s.u2d[d].tt.per = []) :
    execCsplitPeriodic u v a e i s = .next (emit (.split u (.hs .err)) (splitSeen u d a e i 0 s)) := by
  simp only [execCsplitPeriodic, ttSlot_fresh, slot, chargeSplit_u2d, hostSeen_u2d, fresh_u2d, empty,
    List.find?_nil, List.reverse_nil, ite_self]
  rfl

/-- The answer to a complete-split: the result, or its next part, mirrored at its first return (R179, R257). -/
def perReturned (u : US) (d : DS) (a e : Nat) (x : TtPer) (r : UsbResp) (s : State) : State :=
  emit (.split u (perAnswer x r)) (modTt d (fun t => { t with
    per := t.per.map (fun y => if y == x then
      { y with sent := perSent x r, returned := x.returned || perSent x r == x.sent } else y) })
    (if x.returned then s else mirrorTt d a e r x.doneAt s))

theorem execCsplitPeriodic_in {x : TtPer} {r : UsbResp} (slot : ttSlot s u v = some d) (port : (ttPort s u v).isSome = true)
    (per : s.u2d[d].tt.per = [x]) (addr : x.addr = a) (ep : x.ep = e) (dirIn : x.dirIn = true) (result : x.result = some r) :
    execCsplitPeriodic u v a e true s = .next (perReturned u d a e x r (splitSeen u d a e true 0 s)) := by
  have here : ¬ (ttPort s u v).isNone = true := by simp [Option.isSome_iff_ne_none.mp port]
  have first : [x].find? (fun p => p.addr == a && p.ep == e && p.dirIn == true && !p.returned) =
      if x.returned then none else some x := by
    cases sent : x.returned <;> simp [sent, addr, ep, dirIn]
  have last : [x].reverse.find? (fun p => p.addr == a && p.ep == e && p.dirIn == true) = some x := by
    simp [addr, ep, dirIn]
  simp only [execCsplitPeriodic, ttSlot_fresh, slot, chargeSplit_u2d, hostSeen_u2d, fresh_u2d, per, ttPort_chargeSplit,
    ttPort_hostSeen, ttPort_fresh, if_neg here, first, last]
  unfold perReturned
  cases sent : x.returned <;> simp [sent, result, splitSeen]

end

/-! ### The slots of the pipeline (R179, R180) -/

section
variable {s : State} {u : US} {d : DS} {x : TtPer} {rs : List (Option UsbResp)}

/-- The microframe of a port's owning host (R178). -/
theorem slotNow_owned (owned : ownerOf s d = some u) : slotNow s d = s.u2u[u.idx].uframe := by simp [slotNow, owned]

/-- The only transaction of a port's pipeline is run in its slot. -/
theorem execTtPeriodicSlotRun_single (owned : ownerOf s d = some u) (runs : s.u2d[d].tt.stopped = false)
    (enabled : (dsOf s d).enable = true) (untested : (dsOf s d).test2 = 0) (per : s.u2d[d].tt.per = [x])
    (waits : perWaits s d x = true) (due : x.slot ≤ s.u2u[u.idx].uframe) :
    execTtPeriodicSlotRun d rs s = .next (runPeriodic d x (rs.getD 0 none) (fresh s)) := by
  have acts : ¬ ((ownerOf (fresh s) d).isNone || (fresh s).u2d[d].tt.stopped || !(dsOf (fresh s) d).enable ||
      (dsOf (fresh s) d).test2 != 0) = true := by
    simp [-Fin.getElem_fin, owned, runs, enabled, untested]
  have todo : (fresh s).u2d[d].tt.per.filter (fun p => perWaits (fresh s) d p && decide (p.slot ≤ slotNow (fresh s) d)) = [x] := by
    simp [-Fin.getElem_fin, per, waits, due, slotNow_owned owned]
  refine (if_neg acts).trans ?_
  simp only [todo]
  rfl

@[simp] theorem meterTt_u2d {a e n : Nat} {i : Bool} : (meterTt d a e i n s).u2d = s.u2d :=
  u2d_of_only (meterTt_only .u2d d a e i n s (by decide))
@[simp] theorem meterTt_now {a e n : Nat} {i : Bool} : (meterTt d a e i n s).now = s.now :=
  now_of_only (meterTt_only .now d a e i n s (by decide))

/-- A transaction that gets no answer is a bus error (R179). -/
theorem runPeriodic_none (per : s.u2d[d].tt.per = [x]) :
    (runPeriodic d x none s).u2d[d].tt.per = [{ x with result := some (.hs .err), doneAt := s.now }] ∧
    (runPeriodic d x none s).out = s.out ++ [.ttTrans d (ttAddr s d x.addr) x.ep x.dirIn false (needsPre s d x.low) x.pid x.data] := by
  constructor
  · unfold runPeriodic
    rw [tt_modTt_self]
    simp [-Fin.getElem_fin, per]
  · rfl

/-- An isochronous OUT transaction is taken for done; an IN one keeps the device's answer (R179, R183). -/
theorem runPeriodic_iso {r : UsbResp} (per : s.u2d[d].tt.per = [x]) (iso : x.iso = true) :
    (runPeriodic d x (some r) s).u2d[d].tt.per = [{ x with
      result := some (if x.dirIn then ttResult (invertOf s d (ttAddr s d x.addr) x.ep true) r else .hs .ack), doneAt := s.now }] := by
  unfold runPeriodic
  rw [tt_modTt_self]
  cases dirIn : x.dirIn <;> simp [-Fin.getElem_fin, per, iso, dirIn]

/-- What has been in the pipeline to the end of slot Y + 4 (R180). -/
def perExpired (s : State) (d : DS) : List TtPer := s.u2d[d].tt.per.filter (fun p => decide (p.slot + 4 < slotNow s d))

/-- A result that expires without having been returned is captured on an armed port (R250). -/
def orphanCaptured (d : DS) (s : State) (p : TtPer) : State := match p.result, ctxByHost s d p.addr with
  | some (.data _ l), some c =>
    if isArmed s d && p.dirIn && !p.iso && !p.returned then captureData c.2 p.ep (capFlags p.returned true false) p.doneAt l s else s
  | _, _ => s

theorem orphanCaptured_only_u2d (s : State) (p : TtPer) : Fld.u2d.only (orphanCaptured d s p) = Fld.u2d.only s := by
  unfold orphanCaptured
  split
  · rw [only_ite, captureData_only .u2d _ _ _ _ _ _ (by decide) (by decide), ite_self]
  · rfl

theorem execTtSlotResultExpiry_next : execTtSlotResultExpiry d s = .next (settle (modTt d (fun t => { t with
      expired := t.expired + ((perExpired s d).filter (!·.drop)).length
      per := t.per.filter (fun p => !(perExpired s d).contains p) })
    ((perExpired s d).foldl (orphanCaptured d) (fresh s)))) := rfl

/-- What a pipeline keeps of its own transactions is what has not expired. -/
theorem filter_not_perExpired (owned : ownerOf s d = some u) :
    s.u2d[d].tt.per.filter (fun p => !(perExpired s d).contains p) =
      s.u2d[d].tt.per.filter (fun p => !decide (p.slot + 4 < s.u2u[u.idx].uframe)) := by
  refine List.filter_congr fun p mem => ?_
  simp [-Fin.getElem_fin, perExpired, mem, slotNow_owned owned]

theorem execSpilledResultFetch_next {a e i : Nat} {b c : TtBuf}
    (spilled : s.u2d[d].tt.bufs.findIdx? (fun x => x.addr == a && x.ep == e && x.spilled) = some i)
    (buf : s.u2d[d].tt.bufs[i]? = some b) (room : unspill s d b = some c) :
    execSpilledResultFetch d a e s =
      .next (settle (modTt d (fun t => { t with bufs := t.bufs.modify i (fun _ => c) }) (fresh s))) := by
  simp only [execSpilledResultFetch, fresh_u2d, spilled, buf, Option.bind_some, unspill_fresh, room]

end

/-! ### Requests to a hub's translators (R182, R184) -/

section
variable {s : State} {u : US} (connected : (hubOf s u).connected = true)
include connected

theorem execClearTtBuffer_next {wValue wIndex : Nat} :
    execClearTtBuffer u wValue wIndex s = .next (emit (.control u []) (settle ((ttTargets s u wIndex).foldl (fun y d =>
      modTt d (fun t => { t with
        bufs := (t.bufs.filter (fun b => !(clearMatch wValue b && b.st != .executing))).map (fun b =>
          if clearMatch wValue b then { b with freeAtEnd := true } else b) }) y) (fresh s)))) :=
  if_neg (by simp [connected])

theorem execResetTt_next {wIndex : Nat} :
    execResetTt u wIndex s =
      .next (emit (.control u []) ((ttTargets s u wIndex).foldl (fun y d => ttReset d y) (fresh s))) :=
  if_neg (by simp [connected])

theorem execGetTtState_next {wIndex : Nat} (inRange : wIndex < 65536) :
    execGetTtState u wIndex s = .next { s with out := [.stall u] } :=
  congrArg Host.Outcome.next (if_pos (by simp [connected, inRange]))

theorem execStopTt_next {wIndex : Nat} :
    execStopTt u wIndex s = .next (emit (.control u [])
      ((ttTargets s u wIndex).foldl (fun y d => modTt d (fun t => { t with stopped := true }) y) (fresh s))) :=
  if_neg (by simp [connected])

theorem execCompanionSetInterface_next {alt : Nat} :
    execCompanionSetInterface u alt s = if alt > 1 then .next (emit (.stall u) (fresh s)) else .next (
      let s1 := emit (.control u []) (fresh s)
      if (hubOf s u).multiTt = decide (alt = 1) then s1
      else (allDs.filter (fun d => ownerOf s1 d == some u)).foldl (fun y d => ttReset d y)
        (modHub u (fun h => { h with multiTt := decide (alt = 1) }) s1)) :=
  if_neg (by simp [connected])

end

/-- Settles O11: each row keeps the parts its law in Laws/Kept.lean does not name, and its conditions select the branch in which it acts;
what runs an only transaction is read by `runPeriodic_none` and `runPeriodic_iso`, and an expiry keeps the pipeline's other
transactions by `filter_not_perExpired`. -/
theorem periodicTranslatorRuns : Obligations.PeriodicTranslatorRuns := by
  refine ⟨?stopped, ?dropped, ?placed, ?empty, ?returned, ?busError, ?iso, ?expiry, ?fetch, ?clear, ?reset, ?state, ?stop,
    ?interface⟩
  case stopped =>
    rintro s u v a e i o l k b d ⟨port, stopped⟩
    exact runs_to_of_kept (execSsplitPeriodic_kept u v a e i o l k b s) (execSsplitPeriodic_stopped port stopped)
  case dropped =>
    rintro s u v a e i o l k b d ⟨port, runs, full⟩
    refine runs_of_kept_next (execSsplitPeriodic_kept u v a e i o l k b s) (execSsplitPeriodic_dropped port runs full) ?_
    dsimp only
    rw [tt_modTt_self, splitSeen_u2d]
    exact ⟨rfl, _, rfl, rfl, congrArg (· + 1) uframe_splitSeen, rfl, rfl, rfl, rfl, rfl⟩
  case placed =>
    rintro s u v a e o l k b d ⟨port, runs, room⟩
    exact runs_to_of_kept (execSsplitPeriodic_kept u v a e false o l k b s) (execSsplitPeriodic_placedOut port runs room)
  case empty =>
    rintro s u v a e i d ⟨slot, empty⟩
    exact runs_to_of_kept (execCsplitPeriodic_kept u v a e i s) (execCsplitPeriodic_empty slot empty)
  case returned =>
    rintro s u v a e d x r ⟨slot, port, per, addr, ep, dirIn, result⟩
    exact runs_to_of_kept (execCsplitPeriodic_kept u v a e true s)
      (execCsplitPeriodic_in slot port per addr ep dirIn result)
  case busError =>
    rintro s d rs u x ⟨owned, runs, enabled, untested, per, waits, due, noAnswer⟩
    refine runs_of_kept_next (execTtPeriodicSlotRun_kept d rs s)
      (execTtPeriodicSlotRun_single owned runs enabled untested per waits due) ?_
    rw [noAnswer]
    exact runPeriodic_none (s := fresh s) per
  case iso =>
    rintro s d rs u x r ⟨owned, runs, enabled, untested, per, waits, due, answer, iso⟩
    refine runs_of_kept_next (execTtPeriodicSlotRun_kept d rs s)
      (execTtPeriodicSlotRun_single owned runs enabled untested per waits due) ?_
    rw [answer]
    exact runPeriodic_iso (s := fresh s) per iso
  case expiry =>
    intro s d u owned
    refine runs_of_kept_next (execTtSlotResultExpiry_kept d s) execTtSlotResultExpiry_next ?_
    have kept := u2d_of_only (foldl_only .u2d (orphanCaptured d) orphanCaptured_only_u2d (perExpired s d) (fresh s))
    rw [settle_u2d, tt_modTt_self, kept]
    refine ⟨filter_not_perExpired owned, ?_⟩
    rw [perExpired, slotNow_owned owned]
    rfl
  case fetch =>
    rintro s d a e i b c ⟨spilled, buf, room⟩
    exact runs_to_of_kept (execSpilledResultFetch_kept d a e s) (execSpilledResultFetch_next spilled buf room)
  case clear =>
    intro s u v i connected
    exact runs_to_of_kept (execClearTtBuffer_kept u v i s) (execClearTtBuffer_next connected)
  case reset =>
    intro s u i connected
    exact runs_to_of_kept (execResetTt_kept u i s) (execResetTt_next connected)
  case state =>
    rintro s u i ⟨connected, inRange⟩
    exact runs_to_of_kept (execGetTtState_kept u i s) (execGetTtState_next connected inRange)
  case stop =>
    intro s u i connected
    exact runs_to_of_kept (execStopTt_kept u i s) (execStopTt_next connected)
  case interface =>
    intro s u n connected
    refine runs_to_of_kept (execCompanionSetInterface_kept u n s) ((execCompanionSetInterface_next connected).trans ?_)
    split_ifs <;> rfl

end Sys2Proof.Machine
end

section
/-! SUPPORT. The reports of a hub's slots: what sets their change bits leaves everything else of the hub (R289, R297, R298). -/

set_option Elab.async false

namespace Sys2Proof.Machine

/-- A hub without the change bits of its slots. -/
def unreported (h : Hub) : Hub := { h with slots := h.slots.map (fun x => { x with chg2 := [], chg3 := [] }) }

/-- No hub differs from what it was but in the change bits of its slots. -/
def OnlyReports (s t : State) : Prop := ∀ u, unreported (hubOf t u) = unreported (hubOf s u)

theorem OnlyReports.trans {s t x : State} (h : OnlyReports s t) (g : OnlyReports t x) : OnlyReports s x :=
  fun u => (g u).trans (h u)

theorem OnlyReports.slot {s t : State} (h : OnlyReports s t) (u : US) (v : Fin 15) :
    { slotSt t u v with chg2 := [], chg3 := [] } = { slotSt s u v with chg2 := [], chg3 := [] } := by
  simpa [unreported, slotSt] using congrArg (fun x => x.slots[v]) (h u)

theorem onlyReports_of_hubs {s t : State} (same : t.hubs = s.hubs) : OnlyReports s t := fun u => by simp only [hubOf, same]

/-- A fold whose steps set no more than change bits sets no more than change bits. -/
theorem onlyReports_foldl {α : Type} {f : State → α → State} (step : ∀ s x, OnlyReports s (f s x)) (l : List α) (s : State) :
    OnlyReports s (l.foldl f s) := by
  induction l generalizing s with
  | nil => exact fun _ => rfl
  | cons x l ih => exact (step s x).trans (ih _)

/-- An update of one hub that leaves it as it was but for change bits. -/
theorem onlyReports_modHub {u : US} {f : Hub → Hub} {s : State} (same : unreported (f (hubOf s u)) = unreported (hubOf s u)) :
    OnlyReports s (modHub u f s) := by
  intro w
  by_cases here : w = u
  · subst here; rw [hubOf_modHub_self, same]
  · rw [hubOf_modHub_ne here]

/-- Hubs that agree outside their slots, and whose slots agree but for change bits, differ in change bits alone. -/
theorem unreported_withSlots {h : Hub} {l : Vector SlotSt 15}
    (same : ∀ (i : Nat) (hi : i < 15), { l[i] with chg2 := [], chg3 := [] } = { h.slots[i] with chg2 := [], chg3 := [] }) :
    unreported { h with slots := l } = unreported h := by
  have slots : l.map (fun x => { x with chg2 := [], chg3 := [] }) = h.slots.map (fun x => { x with chg2 := [], chg3 := [] }) :=
    Vector.ext fun i hi => by simpa using same i hi
  simp only [unreported, slots]

theorem onlyReports_chgSlot (u : US) (v : Fin 15) (ss : Bool) (c : Change) (s : State) : OnlyReports s (chgSlot u v ss c s) := by
  refine onlyReports_modHub (unreported_withSlots fun i hi => ?_)
  by_cases here : v.val = i
  · cases ss <;> simp [← here]
  · simp [Vector.getElem_set_ne _ _ here]

theorem onlyReports_chgPort (d : DS) (ss : Bool) (c : Change) (s : State) : OnlyReports s (chgPort d ss c s) := by
  unfold chgPort
  split
  · split
    · exact fun _ => rfl
    · exact onlyReports_chgSlot _ _ ss c s
  · exact fun _ => rfl

theorem onlyReports_presentSlots (u : US) (ss : Bool) (s : State) : OnlyReports s (presentSlots u ss s) := by
  refine onlyReports_modHub (unreported_withSlots fun i hi => ?_)
  cases ss <;> simp

theorem onlyReports_ite {s t x : State} {p : Prop} [Decidable p] (h : OnlyReports s t) (g : OnlyReports s x) :
    OnlyReports s (if p then t else x) := by
  split
  · exact h
  · exact g

/-- The state in which a detach has reported the connections that it ends (R289). -/
def detachReported (d : DS) (usb2 ss : Bool) (s : State) : State :=
  let s1 := if usb2 && (dsOf s d).shown2 && presentable s d then chgPort d false .connection s else s
  if ss && (dsOf s d).shown3 && presentable s d then chgPort d true .connection s1 else s1

theorem onlyReports_detachReported (d : DS) (usb2 ss : Bool) (s : State) : OnlyReports s (detachReported d usb2 ss s) := by
  have reported2 : OnlyReports s (if usb2 && (dsOf s d).shown2 && presentable s d then chgPort d false .connection s else s) :=
    onlyReports_ite (onlyReports_chgPort d false .connection s) fun _ => rfl
  exact reported2.trans (onlyReports_ite (onlyReports_chgPort d true .connection _) fun _ => rfl)

/-- A detach touches no hub otherwise. -/
theorem detachData_hubs (d : DS) (usb2 ss : Bool) (s : State) : (detachData d usb2 ss s).hubs = (detachReported d usb2 ss s).hubs := by
  refine hubs_of_only ?_
  unfold detachData
  simp [detachReported]

theorem onlyReports_detachData (d : DS) (usb2 ss : Bool) (s : State) : OnlyReports s (detachData d usb2 ss s) :=
  (onlyReports_detachReported d usb2 ss s).trans (onlyReports_of_hubs (detachData_hubs d usb2 ss s))

theorem onlyReports_usb2Up (u : US) (s : State) : OnlyReports s (usb2Up u s) := by
  refine (onlyReports_presentSlots u false s).trans (onlyReports_foldl (fun y d => ?_) _ _)
  exact onlyReports_ite (onlyReports_detachData d false true y) fun _ => rfl

theorem onlyReports_ssUp (u : US) (s : State) : OnlyReports s (ssUp u s) := by
  refine (onlyReports_presentSlots u true s).trans ?_
  exact onlyReports_ite (onlyReports_chgSlot u 0 false .connection _) fun _ => rfl

end Sys2Proof.Machine
end

section
/-! SUPPORT. The resets of ports and hubs, at USB 2.0 and SuperSpeed: the next state of each row where its conditions hold (R119,
R171–R173, R258, R263, R287, R288). -/

set_option Elab.async false

namespace Sys2Proof.Machine

/-! ### USB 2.0 port resets (R119, R171, R172, R258, R288) -/

section
variable {s : State} {u : US} {v : Fin 15} {d : DS}

/-- A hub that is up takes the requests of its host. -/
theorem answers_of_hubUp {ss : Bool} (up : hubUp s u ss = true) : ¬ (!hubUp (fresh s) u ss) = true := by simp [up]

/-- A reset of a slot that shows no device is completed as that of an empty port (R288). -/
theorem execPortResetRequest_empty (up : hubUp s u false = true) (empty : shownHere (hostSeen u (fresh s)) u v false = none) :
    execPortResetRequest u v s =
      .next (modSlot u v (fun x => { x with emptyReset := some s.now }) (hostSeen u (fresh s))) := by
  simp only [execPortResetRequest, if_neg (answers_of_hubUp up), empty, hostSeen_now, fresh_now]

theorem execPortResetRequest_forwarded (up : hubUp s u false = true)
    (shown : shownHere (hostSeen u (fresh s)) u v false = some d)
    (passes : ∀ c, ctxAt (hostSeen u (fresh s)) d 0 false = some c → resetAbsorbed (hostSeen u (fresh s)) c.2 = false) :
    execPortResetRequest u v s = .next (startReset d .host (hostSeen u (fresh s))) := by
  simp only [execPortResetRequest, if_neg (answers_of_hubUp up), shown]
  cases ctx : ctxAt (hostSeen u (fresh s)) d 0 false with
  | none => rfl
  | some c => exact congrArg Host.Outcome.next (if_neg (by simp [passes c ctx]))

theorem execPortResetRequest_absorbed {c : Nat × Ctx} (up : hubUp s u false = true)
    (shown : shownHere (hostSeen u (fresh s)) u v false = some d) (ctx : ctxAt (hostSeen u (fresh s)) d 0 false = some c)
    (absorbed : resetAbsorbed (hostSeen u (fresh s)) c.2 = true) :
    execPortResetRequest u v s = .next (absorbReset c.1 false (hostSeen u (fresh s))) := by
  simp only [execPortResetRequest, if_neg (answers_of_hubUp up), shown, ctx, if_pos absorbed]

theorem execDeviceChirpK_next {ns x : Nat} (reset : (dsOf s d).resetAt = some x) (mayChirp : bit (dsOf s d).quirks 0 = false)
    (notLow : (dsOf s d).speed2 ≠ some .ls) (inTime : (dsOf s d).chirpFail = false) (long : 2500 ≤ ns)
    (soon : s.now < x + 7000000) :
    execDeviceChirpK d ns s = .next (modDs d (fun y => { y with chirpAt := some s.now }) (fresh s)) := by
  have recognised : ¬ (bit (dsOf s d).quirks 0 || (dsOf s d).speed2 == some .ls || (dsOf s d).chirpFail || decide (ns < 2500) ||
      decide (s.now ≥ x + 7000000)) = true := by
    simp [mayChirp, notLow, inTime, long, soon]
  simp only [execDeviceChirpK, dsOf_fresh, reset, fresh_now]
  exact if_neg recognised

theorem execChirpTimeout_next {x : Nat} (reset : (dsOf s d).resetAt = some x) (pending : (dsOf s d).chirpFail = false) :
    execChirpTimeout d s = .next (modDs d (fun y => { y with
      chirpFail := true, chirpAt := none, chirpTimeouts := y.chirpTimeouts + 1 }) (advanceTo (x + 7000000) (fresh s))) := by
  simp [execChirpTimeout, reset, pending]

/-- The speed at which a reset enables its port: high only where the chirp handshake completed (R172). -/
def resetSpeed (x : DsData) (hsIdle : Bool) : Speed2 :=
  if x.chirpAt.isSome && !x.chirpFail && hsIdle then .hs else if x.speed2 == some .ls then .ls else .fs

/-- A port at the end of its reset, before the change bit that a host's reset sets (R171, R172). -/
def resetEnded (d : DS) (hsIdle : Bool) (x : Nat) (s : State) : State :=
  modDs d (fun y => { y with
    resetAt := none, chirpAt := none, chirpFail := false, enable := true, speed2 := some (resetSpeed (dsOf s d) hsIdle) })
    (advanceTo (x + if bit (dsOf s d).quirks 7 then 20000000 else 10000000) (fresh s))

theorem execPortResetEnd_next {hsIdle : Bool} {x : Nat} (reset : (dsOf s d).resetAt = some x) :
    execPortResetEnd d hsIdle s = .next (deviceArrived d false
      (if (dsOf s d).resetBy == .host then chgPort d false .reset (resetEnded d hsIdle x s) else resetEnded d hsIdle x s)) := by
  simp only [execPortResetEnd, dsOf_fresh, reset]
  rfl

theorem execEmptySlotResetComplete_next {x : Nat} (reset : (slotSt s u v).emptyReset = some x) :
    execEmptySlotResetComplete u v s = .next (chgSlot u v false .reset
      (modSlot u v (fun y => { y with emptyReset := none }) (advanceTo (x + 10000000) (fresh s)))) := by
  simp only [execEmptySlotResetComplete, slotSt_fresh, reset]

end

/-! ### SuperSpeed port resets (R119, R258, R287, R288) -/

section
variable {s : State} {u : US} {v : Fin 15} {d : DS} {warm : Bool}

/-- The SuperSpeed hub's slot once the reset of an empty one is complete (R288). -/
def emptySsReset (u : US) (v : Fin 15) (warm : Bool) (s : State) : State :=
  let reset := chgSlot u v true .reset s
  if warm then chgSlot u v true .bhReset reset else reset

theorem ssReset_empty (up : hubUp s u true = true)
    (hidden : ownedAt s u v = none ∨ ∃ d, ownedAt s u v = some d ∧ presentable s d = false) :
    ssReset u v warm s = emptySsReset u v warm (hostSeen u s) := by
  have answers : ¬ (!hubUp s u true) = true := by simp [up]
  refine (if_neg answers).trans ?_
  simp only [ownedAt_hostSeen, presentable_hostSeen]
  rcases hidden with unowned | ⟨d, owned, hidden⟩
  · simp only [unowned]; rfl
  · simp only [owned]; exact if_pos (by simp [hidden])

/-- A reset reaches the port of a slot that shows it: a link that has trained, or a failed one on which a warm reset is tried again. -/
structure ReachesSs (s : State) (u : US) (v : Fin 15) (d : DS) (warm : Bool) : Prop where
  up : hubUp s u true = true
  owned : ownedAt s u v = some d
  shown : presentable s d = true
  trained : ((dsOf s d).link ≠ .rxDetect ∧ (dsOf s d).link ≠ .disabled) ∨
    (warm = true ∧ (dsOf s d).ssFailed = true ∧ (dsOf s d).watch = true)

/-- A reset at its port: absorbed by the context of the port's device, or begun (R258, R263). -/
def ssResetAt (d : DS) (warm : Bool) (s : State) : State := match ctxAt s d 0 true with
  | some c => if resetAbsorbed s c.2 then absorbReset c.1 warm s else startSsReset d warm s
  | none => startSsReset d warm s

theorem ssResetAt_forwarded (passes : ∀ c, ctxAt s d 0 true = some c → resetAbsorbed s c.2 = false) :
    ssResetAt d warm s = startSsReset d warm s := by
  unfold ssResetAt
  cases ctx : ctxAt s d 0 true with
  | none => rfl
  | some c => exact if_neg (by simp [passes c ctx])

theorem ssResetAt_absorbed {c : Nat × Ctx} (ctx : ctxAt s d 0 true = some c) (absorbed : resetAbsorbed s c.2 = true) :
    ssResetAt d warm s = absorbReset c.1 warm s := by
  simp only [ssResetAt, ctx, if_pos absorbed]

theorem ssReset_reaching (reaches : ReachesSs s u v d warm) : ssReset u v warm s = ssResetAt d warm (hostSeen u s) := by
  obtain ⟨up, owned, shown, trained⟩ := reaches
  have answers : ¬ (!hubUp s u true) = true := by simp [up]
  have visible : ¬ (!presentable s d) = true := by simp [shown]
  have hot : ¬ (!warm && !((dsOf s d).link != .rxDetect && (dsOf s d).link != .disabled)) = true := by
    rcases trained with ⟨detected, enabled⟩ | ⟨rfl, -, -⟩
    · simp [detected, enabled]
    · simp
  have again : ¬ (warm && !((dsOf s d).link != .rxDetect && (dsOf s d).link != .disabled) &&
      !((dsOf s d).ssFailed && (dsOf s d).watch)) = true := by
    rcases trained with ⟨detected, enabled⟩ | ⟨rfl, failed, watched⟩
    · simp [detected, enabled]
    · simp [failed, watched]
  refine (if_neg answers).trans ?_
  simp only [ownedAt_hostSeen, presentable_hostSeen, dsOf_hostSeen, owned, if_neg visible, if_neg hot, if_neg again]
  rfl

/-- A port whose link has reached U0 at the end of a reset (R287). -/
def ssResetReached (d : DS) (warm : Bool) (s : State) : State :=
  let linked := modDs d (fun y => { y with ssReset := none, escalated := false, link := .u0, gen := if y.gen = 0 then 1 else y.gen }) s
  let begun := modLink (dsPort d) (freshLink linked (dsPort d)) linked
  let reported := chgPort d true .reset (if warm then chgPort d true .bhReset begun else begun)
  if (dsOf s d).shown3 then deviceArrived d true reported else presentConn d true reported

/-- A hot reset that does not reach U0 in 20 ms goes on as a warm one (R287). -/
def ssResetEscalated (d : DS) (x : Nat) (s : State) : State :=
  let late := advanceTo (x + 20000000) s
  modDs d (fun y => { y with ssReset := some (true, late.now), escalated := true, link := .polling }) late

theorem execSsResetComplete_next {reached : Bool} {x : Nat} (reset : (dsOf s d).ssReset = some (warm, x)) :
    execSsResetComplete d reached s = .next (
      if reached then ssResetReached d warm (fresh s)
      else if warm = false then ssResetEscalated d x (fresh s)
      else detachData d false true (advanceTo (x + 440000000) (fresh s))) := by
  simp only [execSsResetComplete, dsOf_fresh, reset]
  cases reached <;> cases warm <;> rfl

end

/-! ### Upstream resets (R173, R263) -/

section
variable {s : State} {u : US}

/-- The upstream pair at the begin of its reset: at full speed, until the chirp handshake completes (R173). -/
def pairReset (now : Nat) (chirpAnswered : Bool) (x : UsData) : UsData :=
  { x with susp2 := false, l1 := false, resume2 := none, upK := none, reset2 := some now, chirpK := chirpAnswered
           speed2 := 1, pullup := true }

/-- The state of a hub whose host resets its USB 2.0 pair (R173, R182). -/
def usb2ResetBegun (u : US) (chirpAnswered : Bool) (s : State) : State :=
  modUs u (pairReset s.now chirpAnswered) (modHub u (fun h => { h with addr2 := 0, remoteWake2 := false, multiTt := true })
    (upstreamReset u (execUpstreamUsb2Reset.hostResumeCut u (fresh s))))

theorem execUpstreamUsb2Reset_next {chirpAnswered : Bool} (there : (usOf s u).pullup = true ∨ (usOf s u).speed2 = 2) :
    execUpstreamUsb2Reset u chirpAnswered s = .next (
      if chirpAnswered then usb2ResetBegun u chirpAnswered s else usb2Up u (usb2ResetBegun u chirpAnswered s)) := by
  have acts : ¬ (!(usOf (fresh s) u).pullup && (usOf (fresh s) u).speed2 != 2) = true := by
    rcases there with pulled | high
    · simp [pulled]
    · simp [high]
  exact if_neg acts

@[simp] theorem usb2Up_usd : (usb2Up u s).usd = s.usd :=
  usd_of_only (usb2Up_only .usd u s (by decide) (by decide) (by decide) (by decide) (by decide) (by decide) (by decide) (by decide)
    (by decide) (by decide) (by decide))
@[simp] theorem usOf_usb2Up (w : US) : usOf (usb2Up u s) w = usOf s w := by simp only [usOf, usb2Up_usd]

@[simp] theorem ssUp_usd : (ssUp u s).usd = s.usd := usd_of_only (ssUp_only .usd u s (by decide))
@[simp] theorem usOf_ssUp (w : US) : usOf (ssUp u s) w = usOf s w := by simp only [usOf, ssUp_usd]

/-- The pair's data at the end of the controller's chirp, by whether the host's K-J pairs came in time (R173). -/
def pairChirped (ns : Nat) (x : UsData) : UsData :=
  if ns ≤ 2000000 then { x with chirpK := false, reset2 := none, speed2 := 2, pullup := false }
  else { x with chirpK := false, reset2 := none }

theorem execHostChirpKj_next {ns : Nat} (chirped : (usOf s u).chirpK = true) :
    execHostChirpKj u ns s = .next (usb2Up u (modUs u (pairChirped ns) (fresh s))) :=
  congrArg Host.Outcome.next (if_pos (by simpa using chirped))

theorem usOf_pairChirped (ns : Nat) :
    usOf (usb2Up u (modUs u (pairChirped ns) (fresh s))) u = pairChirped ns (usOf s u) ∧
    usOf (usb2Up u (modUs u (pairChirped ns) (fresh s))) u.other = usOf s u.other := by
  constructor <;> simp

/-- A SuperSpeed hub as its host's reset leaves it (R131, R157, R295). -/
def ssHubReset (h : Hub) : Hub :=
  { h with addr3 := 0, depth := 0, funcWake3 := false, u1Enable := false, u2Enable := false
           slots := h.slots.map (fun x => { x with wakeMask := 0, u1 := 0, u2 := 0 }) }

/-- The SuperSpeed link of an upstream port at the begin of its reset (R144, R295). -/
def linkReset (warm : Bool) (x : UsData) : UsData :=
  { x with susp3 := false, u3Want := false, upLfps := false, link := if warm then .polling else .u0 }

/-- The state of a hub whose host resets its SuperSpeed link: what the link held is gone, and it begins anew (R131, R144, R295). -/
def ssResetBegun (u : US) (warm : Bool) (s : State) : State :=
  let reset := modUs u (linkReset warm) (dropLink (usPort u) 2 (modHub u ssHubReset (upstreamReset u (fresh s))))
  settle (modLink (usPort u) (freshLink reset (usPort u)) reset)

theorem execUpstreamSsReset_next {warm : Bool} (there : (usOf s u).ssTerm = true) :
    execUpstreamSsReset u warm s = .next (if warm then ssResetBegun u warm s else ssUp u (ssResetBegun u warm s)) := by
  have acts : ¬ (!(usOf (fresh s) u).ssTerm) = true := by simp [there]
  exact if_neg acts

theorem usOf_usb2ResetBegun {b : Bool} :
    usOf (usb2ResetBegun u b s) u =
      pairReset s.now b (usOf (upstreamReset u (execUpstreamUsb2Reset.hostResumeCut u (fresh s))) u) := by
  simp [usb2ResetBegun]

theorem hubOf_usb2ResetBegun {b : Bool} :
    hubOf (usb2ResetBegun u b s) u =
      { hubOf (upstreamReset u (execUpstreamUsb2Reset.hostResumeCut u (fresh s))) u with
        addr2 := 0, remoteWake2 := false, multiTt := true } := by
  simp [usb2ResetBegun]

/-- The companion hub comes up with the pair as the reset left it, and with no more than its reports new. -/
theorem afterUsb2Reset (b : Bool) {t : State}
    (after : t = if b then usb2ResetBegun u b s else usb2Up u (usb2ResetBegun u b s)) :
    OnlyReports (usb2ResetBegun u b s) t ∧ usOf t u = usOf (usb2ResetBegun u b s) u := by
  subst after
  cases b
  · rw [if_neg Bool.false_ne_true]
    exact ⟨onlyReports_usb2Up u _, usOf_usb2Up u⟩
  · rw [if_pos rfl]
    exact ⟨fun _ => rfl, rfl⟩

theorem usOf_ssResetBegun {warm : Bool} :
    usOf (ssResetBegun u warm s) u =
      linkReset warm (usOf (dropLink (usPort u) 2 (modHub u ssHubReset (upstreamReset u (fresh s)))) u) := by
  simp [ssResetBegun]

theorem hubOf_ssResetBegun {warm : Bool} :
    hubOf (ssResetBegun u warm s) u = ssHubReset (hubOf (upstreamReset u (fresh s)) u) := by
  have kept (p : Port) (n : Nat) (y : State) : (dropLink p n y).hubs = y.hubs :=
    hubs_of_only (dropLink_only .hubs p n y (by decide) (by decide))
  have cleared (y : State) : hubOf (dropLink (usPort u) 2 y) u = hubOf y u := by simp only [hubOf, kept]
  simp [ssResetBegun, cleared]

theorem slotSt_ssResetBegun {warm : Bool} {v : Fin 15} :
    slotSt (ssResetBegun u warm s) u v =
      { slotSt (upstreamReset u (fresh s)) u v with wakeMask := 0, u1 := 0, u2 := 0 } := by
  simp [slotSt, hubOf_ssResetBegun, ssHubReset]

/-- The SuperSpeed hub comes up with the link as the reset left it, and with no more than its reports new. -/
theorem afterSsReset (warm : Bool) {t : State}
    (after : t = if warm then ssResetBegun u warm s else ssUp u (ssResetBegun u warm s)) :
    OnlyReports (ssResetBegun u warm s) t ∧ usOf t u = usOf (ssResetBegun u warm s) u := by
  subst after
  cases warm
  · rw [if_neg Bool.false_ne_true]
    exact ⟨onlyReports_ssUp u _, usOf_ssUp u⟩
  · rw [if_pos rfl]
    exact ⟨fun _ => rfl, rfl⟩

end

/-- Settles O12: each row keeps the parts its law in Laws/Kept.lean does not name, and its conditions select the branch in which it acts;
what follows an upstream reset leaves the data of the upstream port and, but for change bits, its hub. -/
theorem portResetsRun : Obligations.PortResetsRun := by
  refine ⟨?emptyPort, ?forwarded, ?absorbed, ?chirpK, ?chirpTimeout, ?resetEnd, ?usb2Reset, ?chirpInTime, ?chirpLate, ?hot,
    ?hotAbsorbed, ?hotEmpty, ?warm, ?warmAbsorbed, ?warmEmpty, ?complete, ?emptySlot, ?ssReset⟩
  case emptyPort =>
    rintro s u v ⟨up, empty⟩
    exact runs_to_of_kept (execPortResetRequest_kept u v s) (execPortResetRequest_empty up empty)
  case forwarded =>
    rintro s u v d ⟨up, shown, passes⟩
    exact runs_to_of_kept (execPortResetRequest_kept u v s) (execPortResetRequest_forwarded up shown passes)
  case absorbed =>
    rintro s u v d c ⟨up, shown, ctx, absorbed⟩
    exact runs_to_of_kept (execPortResetRequest_kept u v s) (execPortResetRequest_absorbed up shown ctx absorbed)
  case chirpK =>
    rintro s d n x ⟨reset, mayChirp, notLow, inTime, long, soon⟩
    exact runs_of_kept_next (execDeviceChirpK_kept d n s) (execDeviceChirpK_next reset mayChirp notLow inTime long soon)
      ⟨by simp, fun e other => by simp [other]⟩
  case chirpTimeout =>
    rintro s d x ⟨reset, pending⟩
    refine runs_of_kept_next (execChirpTimeout_kept d s) (execChirpTimeout_next reset pending)
      ⟨by simp, by simp, by simp, fun counts => ?_⟩
    simp [advanceTo, counts]
  case resetEnd =>
    intro s d h x reset
    exact runs_to_of_kept (execPortResetEnd_kept d h s) (execPortResetEnd_next reset)
  case usb2Reset =>
    intro s u b there
    refine runs_of_kept_next (execUpstreamUsb2Reset_kept u b s) (execUpstreamUsb2Reset_next there) ?_
    obtain ⟨reports, pair⟩ := afterUsb2Reset (u := u) (s := s) b rfl
    have hub := reports u
    rw [pair, usOf_usb2ResetBegun]
    rw [hubOf_usb2ResetBegun] at hub
    exact ⟨rfl, rfl, rfl, rfl, rfl, congrArg Hub.addr2 hub, congrArg Hub.remoteWake2 hub, congrArg Hub.multiTt hub⟩
  case chirpInTime =>
    rintro s u n ⟨chirped, inTime⟩
    refine runs_of_kept_next (execHostChirpKj_kept u n s) (execHostChirpKj_next chirped) ?_
    simpa only [pairChirped, if_pos inTime] using usOf_pairChirped (s := s) (u := u) n
  case chirpLate =>
    rintro s u n ⟨chirped, late⟩
    refine runs_of_kept_next (execHostChirpKj_kept u n s) (execHostChirpKj_next chirped) ?_
    simpa only [pairChirped, if_neg late.not_ge] using usOf_pairChirped (s := s) (u := u) n
  case hot =>
    rintro s u v d ⟨up, owned, shown, trained, passes⟩
    have reaches : ReachesSs (fresh s) u v d false := ⟨up, owned, shown, .inl trained⟩
    exact runs_to_of_kept (execSsHotReset_kept u v s)
      (congrArg Host.Outcome.next ((ssReset_reaching reaches).trans (ssResetAt_forwarded passes)))
  case hotAbsorbed =>
    rintro s u v d c ⟨up, owned, shown, trained, ctx, absorbed⟩
    have reaches : ReachesSs (fresh s) u v d false := ⟨up, owned, shown, .inl trained⟩
    exact runs_to_of_kept (execSsHotReset_kept u v s)
      (congrArg Host.Outcome.next ((ssReset_reaching reaches).trans (ssResetAt_absorbed ctx absorbed)))
  case hotEmpty =>
    rintro s u v ⟨up, hidden⟩
    exact runs_to_of_kept (execSsHotReset_kept u v s) (congrArg Host.Outcome.next (ssReset_empty (s := fresh s) up hidden))
  case warm =>
    rintro s u v d ⟨up, owned, shown, trained, passes⟩
    have reaches : ReachesSs (fresh s) u v d true := ⟨up, owned, shown, trained.imp_right fun again => ⟨rfl, again⟩⟩
    exact runs_to_of_kept (execSsWarmReset_kept u v s)
      (congrArg Host.Outcome.next ((ssReset_reaching reaches).trans (ssResetAt_forwarded passes)))
  case warmAbsorbed =>
    rintro s u v d c ⟨up, owned, shown, trained, ctx, absorbed⟩
    have reaches : ReachesSs (fresh s) u v d true := ⟨up, owned, shown, trained.imp_right fun again => ⟨rfl, again⟩⟩
    exact runs_to_of_kept (execSsWarmReset_kept u v s)
      (congrArg Host.Outcome.next ((ssReset_reaching reaches).trans (ssResetAt_absorbed ctx absorbed)))
  case warmEmpty =>
    rintro s u v ⟨up, hidden⟩
    exact runs_to_of_kept (execSsWarmReset_kept u v s) (congrArg Host.Outcome.next (ssReset_empty (s := fresh s) up hidden))
  case complete =>
    intro s d b w x reset
    refine runs_of_kept_next (execSsResetComplete_kept d b s) (execSsResetComplete_next reset) ?_
    cases b <;> cases w <;> rfl
  case emptySlot =>
    intro s u v x reset
    exact runs_to_of_kept (execEmptySlotResetComplete_kept u v s) (execEmptySlotResetComplete_next reset)
  case ssReset =>
    intro s u w there
    refine runs_of_kept_next (execUpstreamSsReset_kept u w s) (execUpstreamSsReset_next there) ?_
    obtain ⟨reports, link⟩ := afterSsReset (u := u) (s := s) w rfl
    have hub := reports u
    rw [link, usOf_ssResetBegun]
    rw [hubOf_ssResetBegun] at hub
    refine ⟨congrArg Hub.addr3 hub, congrArg Hub.depth hub, congrArg Hub.funcWake3 hub, congrArg Hub.u1Enable hub,
      congrArg Hub.u2Enable hub, fun v => ?_, rfl, rfl⟩
    have slot := reports.slot u v
    rw [slotSt_ssResetBegun] at slot
    exact ⟨congrArg SlotSt.wakeMask slot, congrArg SlotSt.u1 slot, congrArg SlotSt.u2 slot⟩

end Sys2Proof.Machine
end

section
/-! SUPPORT. Egress, recovery, and the link power states of the SuperSpeed links: the next state of each row where its conditions hold
(R32, R137, R145, R157, R158, R160, R200). -/

set_option Elab.async false

namespace Sys2Proof.Machine

/-! ### Egress at a packet boundary (R32, R137, R200) -/

section
variable {s : State} {p : Port}

theorem execEgressSelect_cutThrough {prio : Nat} (under : cutting (begun s) p = true) :
    execEgressSelect p prio s = .next (begun s) :=
  if_pos under

/-- At a boundary a priority packet within its share of the microframe goes first (R32). -/
theorem execEgressSelect_priority {prio : Nat} (boundary : cutting (begun s) p = false) (waits : 0 < prio)
    (upstream : (portUs p).isSome = true) (opened : linkOpen (egressFreed p s) p = true)
    (credit : 0 < (linkOf (egressFreed p s) p).credits)
    (share : (linkOf (egressFreed p s) p).prioUsed + prio ≤ 16384) :
    execEgressSelect p prio s = .next (modLink p (fun l => { l with
      prioUsed := l.prioUsed + prio, tx := some none
      busy := l.busy.modify 0 (· + busyUnits (egressFreed p s) p (prio + 52)) }) (egressFreed p s)) := by
  have first : (decide (prio > 0) && (portUs p).isSome && linkOpen (egressFreed p s) p &&
      decide ((linkOf (egressFreed p s) p).credits > 0 ∧ (linkOf (egressFreed p s) p).prioUsed + prio ≤ 16384)) = true := by
    simp [waits, upstream, opened, credit, share]
  exact (if_neg (by simp [← begun.eq_def, boundary])).trans (if_pos first)

/-- At a boundary without a priority packet, a packet of no open queue goes ahead of the queues. -/
theorem execEgressSelect_stored (boundary : cutting (begun s) p = false) :
    execEgressSelect p 0 s =
      .next ((sendLoose p (egressReady p s)).getD (serveQueue p (egressReady p s))) := by
  refine (if_neg (by simp [← begun.eq_def, boundary])).trans ((if_neg (by simp)).trans ?_)
  change Host.Outcome.next (match sendLoose p (egressReady p s) with
    | some t => t
    | none => serveQueue p (egressReady p s)) = _
  cases sendLoose p (egressReady p s) <;> rfl

theorem serveQueue_noneEligible (noChoice : wfqBest (egressTagged p s) p = none) :
    serveQueue p (egressReady p s) = egressTagged p s := by
  simp only [serveQueue, ← egressTagged.eq_def, noChoice, ite_self]

/-- A free link serves the head of the best queue, or gives it up where a move has overtaken it (R132, R200). -/
theorem serveQueue_best {e : Nat × Epq} {x : Pkt} {rest : List Pkt} (idle : (linkOf (egressTagged p s) p).tx = none)
    (best : wfqBest (egressTagged p s) p = some e) (head : e.2.pkts = x :: rest) :
    serveQueue p (egressReady p s) =
      if stillOwned (egressTagged p s) e.2 x then
        settle (touchEpq e.1 (tagHead e.1 (popHead e.1
          (sendData (some e.1) p x (availGo (dsCode e.2.port) (egressTagged p s))))))
      else settle (tagHead e.1 (popHead e.1 (overtaken e.1 e.2 x (egressTagged p s)))) := by
  simp only [serveQueue, ← egressTagged.eq_def, idle, best, head]
  rfl

end

/-! ### Recovery during a packet (R137, R145) -/

/-- A link enters Recovery, and the packet under way on it ends. -/
def recoveryBegun (p : Port) (s : State) : State := setLink p .recovery (modLink p (fun l => { l with tx := none }) s)

/-- A payload that cuts through toward a link in Recovery is dropped where it comes in, and counted. -/
def cutDropped (p : Port) (s : State) (i : Port) : State := match (linkOf s i).rx with
  | some r => if r.disp == .cut p then
      modLink i (fun l => { l with rx := some { r with disp := .drop } }) (countDiscard i r.epq 6 s) else s
  | none => s

section
variable {s : State} {p : Port} {q : Option Nat}

theorem execEgressRecoveryCut_stored (sends : (linkOf s p).tx = some q) (stored : cutting s p = false) :
    execEgressRecoveryCut p s = .next (countDiscard (ingressOf s p q) q 6 (recoveryBegun p (fresh s))) := by
  simp only [execEgressRecoveryCut, linkOf_fresh, cutting_fresh, ingressOf_fresh, sends, stored]
  rfl

theorem execEgressRecoveryCut_cutThrough (sends : (linkOf s p).tx = some q) (under : cutting s p = true) :
    execEgressRecoveryCut p s = .next (allPorts.foldl (cutDropped p) (recoveryBegun p (fresh s))) := by
  simp only [execEgressRecoveryCut, linkOf_fresh, cutting_fresh, sends, under]
  rfl

end

/-! ### U1 and U2, and links that leave U0 (R157, R158, R160) -/

section
variable {s : State} {d : DS} {u : US} {isU2 : Bool}

theorem execDsLinkIdleTimeout_next (idle : (dsOf s d).link = .u0 ∨ (isU2 = true ∧ (dsOf s d).link = .u1))
    (allowed : dsLpmOk s d isU2 = true) :
    execDsLinkIdleTimeout d isU2 s = .next (setLink (dsPort d) (if isU2 then .u2 else .u1)
      (advanceTo ((linkOf s (dsPort d)).idleFrom + lpmTimeout s d isU2 * (if isU2 then 256000 else 1000)) (fresh s))) := by
  have acts : (((dsOf (fresh s) d).link == .u0 || (isU2 && (dsOf (fresh s) d).link == .u1)) &&
      dsLpmOk (fresh s) d isU2) = true := by simpa [allowed] using idle
  exact congrArg Host.Outcome.next (if_pos acts)

theorem execDsDeviceLpmRequest_next (u0 : (dsOf s d).link = .u0) :
    execDsDeviceLpmRequest d isU2 s = .next (
      if dsLpmOk s d isU2 then
        setLink (dsPort d) (if isU2 then .u2 else .u1) (emit (.lpmAnswer (dsPort d) (dsLpmOk s d isU2)) (fresh s))
      else emit (.lpmAnswer (dsPort d) (dsLpmOk s d isU2)) (fresh s)) :=
  if_neg (by simp [u0])

theorem execUsLinkLpmRequest_next (u0 : (usOf s u).link = .u0) :
    execUsLinkLpmRequest u isU2 s = .next (
      if usLpmOk (hostSeen u (fresh s)) u isU2 then
        setLink (usPort u) (if isU2 then .u2 else .u1)
          (emit (.lpmAnswer (usPort u) (usLpmOk (hostSeen u (fresh s)) u isU2)) (hostSeen u (fresh s)))
      else emit (.lpmAnswer (usPort u) (usLpmOk (hostSeen u (fresh s)) u isU2)) (hostSeen u (fresh s))) :=
  if_neg (by simp [u0])

theorem execUsLinkIdleTimeout_next (idle : (usOf s u).link = .u0 ∨ (isU2 = true ∧ (usOf s u).link = .u1))
    (allowed : usLpmOk s u isU2 = true) :
    execUsLinkIdleTimeout u isU2 s = .next (setLink (usPort u) (if isU2 then .u2 else .u1)
      (advanceTo ((linkOf s (usPort u)).idleFrom + (if isU2 then 1000000 else 10000)) (fresh s))) := by
  have acts : (((usOf (fresh s) u).link == .u0 || (isU2 && (usOf (fresh s) u).link == .u1)) &&
      usLpmOk (fresh s) u isU2) = true := by simpa [allowed] using idle
  exact congrArg Host.Outcome.next (if_pos acts)

/-- The state of a link that has left U0, and the report it makes: a warm reset trains it, else it is inactive (R160, R298). -/
def leftU0 (d : DS) (c : LeaveCause) (s : State) : State := match c with
  | .warmReset => setLink (dsPort d) .polling (dropStored d s)
  | _ => chgPort d true .linkState (setLink (dsPort d) .inactive (dropStored d s))

theorem execDsLinkLeavesU0_next {c : LeaveCause} (live : (dsOf s d).link = .u0 ∨ (dsOf s d).link = .u1 ∨
    (dsOf s d).link = .u2 ∨ (dsOf s d).link = .recovery) :
    execDsLinkLeavesU0 d c s = .next (leftU0 d c (fresh s)) := by
  simp only [execDsLinkLeavesU0, dsOf_fresh]
  obtain link | link | link | link := live <;> rw [link] <;> rfl

end

/-- Settles O8: each row keeps the parts its law in Laws/Kept.lean does not name, and its conditions select the branch in which it
acts; at a packet boundary the rank is the priority packet, the packet of no open queue, the best queue. -/
theorem superspeedLinkStatesRun : Obligations.SuperspeedLinkStatesRun := by
  refine ⟨?cutThrough, ?priority, ?loose, ?noneEligible, ?queue, ?recovery, ?recoveryCut, ?dsIdle, ?dsRequest, ?usRequest,
    ?usIdle, ?leaves⟩
  case cutThrough =>
    intro s p n under
    exact runs_to_of_kept (execEgressSelect_kept p n s) (execEgressSelect_cutThrough under)
  case priority =>
    rintro s p n ⟨boundary, waits, upstream, opened, credit, share⟩
    exact runs_to_of_kept (execEgressSelect_kept p n s)
      (execEgressSelect_priority boundary waits upstream opened credit share)
  case loose =>
    rintro s t1 p ⟨boundary, sent⟩
    refine runs_to_of_kept (execEgressSelect_kept p 0 s) ((execEgressSelect_stored boundary).trans ?_)
    rw [sent, Option.getD_some]
  case noneEligible =>
    rintro s p ⟨boundary, noLoose, noChoice⟩
    refine runs_to_of_kept (execEgressSelect_kept p 0 s) ((execEgressSelect_stored boundary).trans ?_)
    rw [noLoose, Option.getD_none, serveQueue_noneEligible noChoice]
  case queue =>
    rintro s p e x l ⟨boundary, noLoose, idle, best, head⟩
    refine runs_to_of_kept (execEgressSelect_kept p 0 s) ((execEgressSelect_stored boundary).trans ?_)
    rw [noLoose, Option.getD_none, serveQueue_best idle best head]
  case recovery =>
    rintro s p q ⟨sends, stored⟩
    exact runs_to_of_kept (execEgressRecoveryCut_kept p s) (execEgressRecoveryCut_stored sends stored)
  case recoveryCut =>
    rintro s p q ⟨sends, under⟩
    exact runs_to_of_kept (execEgressRecoveryCut_kept p s) (execEgressRecoveryCut_cutThrough sends under)
  case dsIdle =>
    rintro s d b ⟨idle, allowed⟩
    exact runs_to_of_kept (execDsLinkIdleTimeout_kept d b s) (execDsLinkIdleTimeout_next idle allowed)
  case dsRequest =>
    intro s d b u0
    exact runs_to_of_kept (execDsDeviceLpmRequest_kept d b s) (execDsDeviceLpmRequest_next u0)
  case usRequest =>
    intro s u b u0
    exact runs_to_of_kept (execUsLinkLpmRequest_kept u b s) (execUsLinkLpmRequest_next u0)
  case usIdle =>
    rintro s u b ⟨idle, allowed⟩
    exact runs_to_of_kept (execUsLinkIdleTimeout_kept u b s) (execUsLinkIdleTimeout_next idle allowed)
  case leaves =>
    intro s d c live
    exact runs_to_of_kept (execDsLinkLeavesU0_kept d c s) (execDsLinkLeavesU0_next live)

end Sys2Proof.Machine
end

section
/-! SUPPORT. The refill tick, the samples and the steps of a rebuild: the next state of each row where its conditions hold (R196, R201,
R211, R220–R225). -/

set_option Elab.async false

namespace Sys2Proof.Machine

/-! ### The refill tick (R201) -/

/-- The lane time of the refill tick that comes next. -/
def nextTick (s : State) : Nat := max ((s.sched.tickAt / 125000 + 1) * 125000) (s.now / 125000 * 125000)

theorem execRefillTick_next {s : State} (clocked : s.clk.tbOn = true) :
    execRefillTick s =
      .next (gpioFlush (doTick (nextTick s) ((nextTick s - s.sched.tickAt) / 125000) (fresh s))) :=
  if_neg (by simp [clocked])

/-! ### Samples (R211, R225) -/

/-- A queue at the end of a sample period that ends at a tick: 64 samples are kept, and the period's counts start anew. -/
def queueSampled (tick : Nat) (e : Epq) : Epq :=
  let l := e.samples ++ [{ time := tick, cells := epqCells e, spill := epqBytes e .dram, charged := e.sCharged
                           packets := e.sPackets, red := e.sRed }]
  { e with samples := l.drop (l.length - 64), sCharged := 0, sPackets := 0, sRed := 0 }

theorem queueSampled_samples_length_le (tick : Nat) (e : Epq) : (queueSampled tick e).samples.length ≤ 64 := by
  simp only [queueSampled, List.length_drop]
  omega

theorem execObserveSample_next {s : State} (ended : s.sched.samplePeriod ≤ s.sched.sampleCount) :
    execObserveSample s = .next { fresh s with
      sched := { s.sched with sampleCount := 0, samplePeriod := s.sched.sampleNew }
      epqs := s.epqs.map (fun e => (e.1, queueSampled s.sched.tickAt e.2)) } :=
  if_neg ended.not_gt

/-! ### The delta log and the swaps (R218, R221–R224) -/

/-- From step 5 on a change goes to both banks and not to the log, so the rebuild stays as it is (R222). -/
theorem noteDelta_rebuild {s : State} {r : Rebuild} (x : Delta) (opened : s.place.rebuild = some r) (step5 : 5 ≤ r.step) :
    (noteDelta x s).place.rebuild = some r := by
  simp only [noteDelta, opened, if_pos step5]
  split
  · exact opened
  · split <;> exact opened

theorem foldl_noteDelta_rebuild {r : Rebuild} (step5 : 5 ≤ r.step) (log : List Delta) {s : State}
    (opened : s.place.rebuild = some r) : (log.foldl (fun s x => noteDelta x s) s).place.rebuild = some r := by
  induction log generalizing s with
  | nil => exact opened
  | cons x log ih => exact ih (noteDelta_rebuild x opened step5)

/-- The merge leaves the rebuild at step 5 with its log applied (R222). -/
theorem mergeLog_rebuild {s : State} {r : Rebuild} (opened : s.place.rebuild = some r) :
    (mergeLog s).place.rebuild = some { r with step := 5, log := [] } := by
  simp only [mergeLog, opened]
  exact foldl_noteDelta_rebuild (Nat.le_refl 5) r.log rfl

@[simp] theorem takePlaces_place (s : State) : (takePlaces s).place = s.place :=
  place_of_only (takePlaces_only .place s (by decide))

@[simp] theorem finalCpl_place (k : AccKey) (status : Nat) (payload : List Byte) (s : State) :
    (finalCpl k status payload s).place = s.place :=
  place_of_only (finalCpl_only .place k status payload s (by decide))

theorem foldl_finalCpl_pin_place (pins : List Nat) (s : State) :
    (pins.foldl (fun s q => finalCpl (.pin q) stOk (le 4 (plEntry s q)) s) s).place = s.place := by
  induction pins generalizing s with
  | nil => rfl
  | cons q pins ih => exact (ih _).trans (finalCpl_place _ _ _ s)

/-- What the swap makes of the place and the counts of the rebuild that it ends (R221, R224, R227). -/
theorem equinoxSwap_place {s : State} {r : Rebuild} (opened : s.place.rebuild = some r) :
    (equinoxSwap s).place.rebuild = none ∧ (equinoxSwap s).place.tr = s.place.shTr ∧
      (equinoxSwap s).place.swaps = s.place.swaps + 1 ∧
      (equinoxSwap s).place.minimal = s.place.minimal + b2n r.minimal := by
  simp only [equinoxSwap, opened, copyShadow, modPlace, settle_place]
  split <;> simp only [finalCpl_place, foldl_finalCpl_pin_place, takePlaces_place, and_self]

/-! ### The rows of a rebuild (R220–R224) -/

section
variable {s : State}

/-- The lane time at which a rebuild starts: a tick where one was asked for at once, else a multiple of 2 ms (R220, R232). -/
def rebuildAt (s : State) : Nat :=
  let period := if s.place.nowReq then 125000 else 2000000
  (s.now + period - 1) / period * period

theorem execRebuildStart_next (runs : agentRuns s = true) :
    execRebuildStart s = .next (
      let s1 := abandonRebuild (advanceTo (rebuildAt s) (fresh s))
      beginRebuild (rebuildAt s) s1.place.nowReq (modPlace (fun x => { x with nowReq := false }) s1)) :=
  if_neg (by simp [runs])

theorem execDeltaLogMerge_next {r : Rebuild} (opened : s.place.rebuild = some r) (step3 : r.step = 3)
    (runs : agentRuns s = true) : execDeltaLogMerge s = .next (mergeLog (fresh s)) := by
  simp only [execDeltaLogMerge, fresh_place, opened, agentRuns_fresh, step3, runs, and_self, if_true]

theorem execEquinoxSwap_next {r : Rebuild} (opened : s.place.rebuild = some r) (step5 : r.step = 5)
    (runs : agentRuns s = true) :
    execEquinoxSwap s = .next (equinoxSwap (advanceTo ((s.now + 124999) / 125000 * 125000) (fresh s))) := by
  simp only [execEquinoxSwap, fresh_place, opened, agentRuns_fresh, step5, runs, and_self, if_true]
  rfl

/-- Steps 2, 3 and 5 of a rebuild without load moves, begun at the present lane time (R224). -/
def minimalRebuild (s : State) : State :=
  applyTrs (applyPins (copyShadow (modPlace (fun p => { p with
    rebuild := some { t0 := s.now, step := 5, minimal := true, now_ := false, log := [] } }) s)))

theorem execMinimalSwap_next (runs : agentRuns s = true) (due : 3 ≤ s.place.missed ∨ s.place.trAt ≠ none) :
    execMinimalSwap s = .next (minimalRebuild
      (match s.place.rebuild with | some _ => abandonRebuild (fresh s) | none => fresh s)) := by
  have acts : ¬ (!agentRuns (fresh s) || (decide ((fresh s).place.missed < 3) && (fresh s).place.trAt.isNone)) = true := by
    obtain missed | waits := due
    · simp [runs, missed.not_gt]
    · simp [runs, waits]
  exact if_neg acts

end

/-- Settles O13: each row keeps the parts its law in Laws/Kept.lean does not name, and its conditions select the branch in which it acts;
what the clauses say of the queues and of the rebuild is read off the sample, the merge and the swap. -/
theorem schedulerAndTablesRun : Obligations.SchedulerAndTablesRun := by
  refine ⟨?tick, ?observe, ?agent, ?start, ?merge, ?swap, ?minimal⟩
  case tick =>
    intro s clocked
    exact runs_to_of_kept (execRefillTick_kept s) (execRefillTick_next clocked)
  case observe =>
    intro s ended
    refine runs_of_kept_next (execObserveSample_kept s) (execObserveSample_next ended)
      ⟨rfl, ?_, by simp [Function.comp_def]⟩
    intro e he
    obtain ⟨x, -, rfl⟩ := List.mem_map.mp he
    exact ⟨queueSampled_samples_length_le _ _, rfl, rfl, rfl⟩
  case agent =>
    intro s loads waits
    refine runs_of_kept_next (execPlacementAgentSample_kept loads waits s) rfl ⟨rfl, rfl, fun x hx => ?_, fun x hx => ?_⟩
    · obtain ⟨c, -, rfl⟩ := List.mem_map.mp hx
      exact Nat.min_le_left 100 _
    · obtain ⟨c, -, rfl⟩ := List.mem_map.mp hx
      exact Nat.min_le_left 128 _
  case start =>
    intro s runs
    exact runs_to_of_kept (execRebuildStart_kept s) (execRebuildStart_next runs)
  case merge =>
    rintro s r ⟨opened, step3, runs⟩
    exact runs_of_kept_next (execDeltaLogMerge_kept s) (execDeltaLogMerge_next opened step3 runs)
      ⟨rfl, mergeLog_rebuild opened⟩
  case swap =>
    rintro s r ⟨opened, step5, runs⟩
    exact runs_of_kept_next (execEquinoxSwap_kept s) (execEquinoxSwap_next opened step5 runs)
      ⟨rfl, equinoxSwap_place (s := advanceTo _ (fresh s)) opened⟩
  case minimal =>
    rintro s ⟨runs, due⟩
    exact runs_to_of_kept (execMinimalSwap_kept s) (execMinimalSwap_next runs due)

end Sys2Proof.Machine
end

section
/-! SUPPORT. Host absence, SOF keeping, and the proxy host: the next state of each row where its conditions hold (R118, R245, R249,
R251). -/

set_option Elab.async false

namespace Sys2Proof.Machine

/-! ### Host absence (R245) -/

section
variable {s : State} {u : US}

theorem execHostAbsence_detach : execHostAbsence u .detach s = .next (hostLost u (fresh s)) := rfl

theorem execHostAbsence_vbusLoss (sink : isSink s (usPort u) = true) (noSwap : (pwrOf s (usPort u)).frs = none) :
    execHostAbsence u .vbusLoss s = .next (hostLost u (fresh s)) :=
  congrArg Host.Outcome.next (if_pos (by simp [sink, noSwap]))

theorem execHostAbsence_timed (absent : linkPresent s u = false) (awake : hubSuspended s u = false) :
    execHostAbsence u .timed s =
      .next (hostLost u (advanceTo ((vigHub s u).absentFrom + s.vig.tAbsent * 10000000) (fresh s))) :=
  if_neg (by simp [absent, awake])

end

/-! ### SOF keeping (R118, R249) -/

/-- The armed ports of a hub with a READY context (R249). -/
def keptPorts (s : State) (u : US) : List DS := allDs.filter (fun d => ownerOf s d == some u && keepable s d)

/-- SOF keeping of a hub begins at a lane time, its host's last SOF counted as the microframes that are missing (R249). -/
def keepingBegun (u : US) (last at_ : Nat) (s : State) : State :=
  keptFrame u at_ (max 1 ((at_ - last) / 125000))
    ((keptPorts s u).foldl (fun y d => modU2d d (fun z => { z with kept := true }) y) s)

/-- A kept port whose hub falls asleep suspends (R249). -/
def keptSuspended (u : US) (s : State) (d : DS) : State :=
  if ownerOf s d == some u && s.u2d[d].kept then
    modDs d (fun x => { x with suspHub2 := x.enable }) (modU2d d (fun y => { y with kept := false }) s)
  else s

section
variable {s : State} {u : US}

theorem execSofKeepingStart_next {last : Nat} (lastSof : s.u2u[u.idx].lastSof = some last) (idle : s.u2u[u.idx].keep = none)
    (high : (usOf s u).speed2 = 2) (attached : (hubOf s u).state = .attached) (ports : keptPorts s u ≠ []) :
    execSofKeepingStart u s = .next (keepingBegun u last (tickAfter (max (last + 250000) s.now)) (fresh s)) := by
  have starts : ¬ ((usOf (fresh s) u).speed2 != 2 || (keptPorts (fresh s) u).isEmpty ||
      (hubOf (fresh s) u).state != .attached) = true := by
    simpa [keptPorts, high, attached] using ports
  simp only [execSofKeepingStart, fresh_u2u, lastSof, idle]
  exact if_neg starts

theorem keptOwned_next {t : Nat} (served : allDs.any (fun d => ownerOf s d == some u && sofPort s d) = true)
    (keeping : s.u2u[u.idx].keep = some t) : keptOwned u s = keptFrame u (t + 125000) 1 s := by
  simp only [keptOwned, served, keeping]
  rfl

theorem execKeptSof_next {t : Nat} (served : allDs.any (fun d => ownerOf s d == some u && sofPort s d) = true)
    (keeping : s.u2u[u.idx].keep = some t) :
    execKeptSof u s = .next (if u = .us0 then keptIdle (keptFrame u (t + 125000) 1 (fresh s))
      else keptFrame u (t + 125000) 1 (fresh s)) := by
  have owned : keptOwned u (fresh s) = keptFrame u (t + 125000) 1 (fresh s) :=
    keptOwned_next (by simpa using served) keeping
  simp only [execKeptSof, owned, beq_iff_eq]

theorem execKeptPortSuspend_next {t : Nat} (keeping : s.u2u[u.idx].keep = some t) (asleep : hubSuspended s u = true)
    (hosted : (hubOf s u).state ≠ .vigil) :
    execKeptPortSuspend u s =
      .next (modeSync (allDs.foldl (keptSuspended u) (modU2u u (fun x => { x with keep := none }) (fresh s)))) :=
  if_neg (by rw [fresh_u2u, keeping]; simp [asleep, hosted])

end

/-! ### The proxy host (R251) -/

section
variable {s : State}

/-- A poll of an endpoint goes out at its interval, and its port forwards again (R34, R251). -/
def pollMade (c ep : Nat) (x : Ctx) (e : EpRec) (s : State) : State :=
  let sent := emit (.poll x.port (x.daddr.getD 0) ep)
    (pollServed x e (advanceTo (e.polledAt + pollInterval s x.port e) s))
  availGo (dsCode x.port) (modEp c ep true (fun z => { z with polledAt := sent.now }) sent)

theorem execProxyPoll_next {c : Fin 96} {ep : Nat} {r : PollResp} {x : Ctx} {e : EpRec} (ctx : ctxOf s c.val = some x)
    (found : x.eps.find? (fun z => z.d.ep == ep && z.d.dirIn) = some e) (due : polled s x e = true)
    (first : pollFirst s x e = true) :
    execProxyPoll c ep r s = .next (pollResult c.val x e r (pollMade c.val ep x e (fresh s))) := by
  have acts : ¬ (!polled (fresh s) x e || !pollFirst (fresh s) x e) = true := by simp [due, first]
  simp only [execProxyPoll, ctxOf_fresh, ctx, found]
  exact if_neg acts

/-- A held device of a port is awake again (R251). -/
def heldWoken (s : State) (c : Nat × Ctx) : State :=
  if c.2.st == .held then modCtx c.1 (fun x => { x with suspended := false }) s else s

/-- A port resumed towards its device (R251). -/
def portResumed (x : DsData) : DsData :=
  { x with suspHost2 := false, suspHub2 := false, suspHost3 := false, suspHub3 := false
           link := if x.link == .u3 then .u0 else x.link }

theorem execHeldDeviceRemoteWake_next {d : DS} (held : portVigil s d = true) :
    execHeldDeviceRemoteWake d s =
      .next (modDs d portResumed ((portCtxs s d).foldl heldWoken (fresh s))) :=
  (if_neg (by simp [held])).trans (by simp only [portCtxs_fresh]; rfl)

theorem dsOf_foldl_heldWoken (l : List (Nat × Ctx)) (s : State) (d : DS) : dsOf (l.foldl heldWoken s) d = dsOf s d := by
  induction l generalizing s with
  | nil => rfl
  | cons c l ih =>
    refine (ih _).trans ?_
    unfold heldWoken
    split <;> rfl

/-- A held high-speed device that LPM may put to sleep: unpolled, awake and with LPM in its BOS descriptor (R251). -/
structure MaySleep (s : State) (d : DS) (c : Nat × Ctx) : Prop where
  ctx : ctxAt s d 0 false = some c
  held : c.2.st = .held
  vigil : portVigil s d = true
  high : c.2.speed = 2
  unpolled : c.2.eps.any (fun e => polled s c.2 e) = false
  lpm : c.2.cache.any (fun e => e.1.1 / 256 == 15 && bosLpm e.2) = true
  mayLpm : bit (devQuirks s c.2) 2 = false
  awake : ctxAsleep s c.2 = false
  l0 : (dsOf s d).l1 = false
  unfenced : portFenced s (dsPort d) = false

/-- What the device's answer to the LPM token does: its ACK puts the port into L1, else its idle time starts anew (R251). -/
def lpmTried (d : DS) (c : Nat) (answer : Option Hsk) (s : State) : State :=
  if answer = some .ack then
    modCtx c (fun x => { x with lpm := true })
      (modU2d d (fun y => { y with besl := 4, l1Wake := true }) (modDs d (fun y => { y with l1 := true }) s))
  else modCtx c (fun x => { x with idleFrom := s.now }) s

theorem execProxyLpmIdle_next {d : DS} {answer : Option Hsk} {c : Nat × Ctx} (may : MaySleep s d c) :
    execProxyLpmIdle d answer s = .next (lpmTried d c.1 answer (advanceTo (c.2.idleFrom + 10000000) (fresh s))) := by
  obtain ⟨ctx, held, vigil, high, unpolled, lpm, mayLpm, awake, l0, unfenced⟩ := may
  simp only [execProxyLpmIdle, ctxAt_fresh, ctx]
  refine (if_neg ?_).trans (congrArg Host.Outcome.next ?_)
  · simp [held, vigil, high, unpolled, lpm, mayLpm, awake, l0, unfenced]
  · unfold lpmTried
    split
    · rfl
    · next refused => exact (if_neg (fun ack => refused ack)).symm

end

/-- Settles O14: each row keeps the parts its law in Laws/Kept.lean does not name, and its conditions select the branch in which it
acts. -/
theorem absenceAndProxyRun : Obligations.AbsenceAndProxyRun := by
  refine ⟨?detach, ?vbusLoss, ?timed, ?keeping, ?kept, ?suspend, ?poll, ?wake, ?lpm⟩
  case detach =>
    rintro s u c rfl
    exact runs_to_of_kept (execHostAbsence_kept u .detach s) execHostAbsence_detach
  case vbusLoss =>
    rintro s u c ⟨rfl, sink, noSwap⟩
    exact runs_to_of_kept (execHostAbsence_kept u .vbusLoss s) (execHostAbsence_vbusLoss sink noSwap)
  case timed =>
    rintro s u c ⟨rfl, absent, awake⟩
    exact runs_to_of_kept (execHostAbsence_kept u .timed s) (execHostAbsence_timed absent awake)
  case keeping =>
    rintro s u x ⟨lastSof, idle, high, attached, ports⟩
    exact runs_to_of_kept (execSofKeepingStart_kept u s) (execSofKeepingStart_next lastSof idle high attached ports)
  case kept =>
    rintro s u x ⟨served, keeping⟩
    exact runs_to_of_kept (execKeptSof_kept u s) (execKeptSof_next served keeping)
  case suspend =>
    rintro s u x ⟨keeping, asleep, hosted⟩
    exact runs_to_of_kept (execKeptPortSuspend_kept u s) (execKeptPortSuspend_next keeping asleep hosted)
  case poll =>
    rintro s c n r x e ⟨ctx, found, due, first⟩
    refine runs_of_kept_next (execProxyPoll_kept c n r s) (execProxyPoll_next ctx found due first) ?_
    obtain ⟨rfl, -⟩ : e.d.ep = n ∧ e.d.dirIn = true := by simpa using List.find?_some found
    simp only [← pollInterval_fresh s]
    cases r with
    | data seq l => rfl
    | nak => by_cases super : x.speed ≥ 3 <;> simp only [pollResult, super, if_true, if_false] <;> rfl
    | stall => rfl
    | busError => rfl
  case wake =>
    intro s d held
    refine runs_of_kept_next (execHeldDeviceRemoteWake_kept d s) (execHeldDeviceRemoteWake_next held) ?_
    rw [dsOf_modDs_self, dsOf_foldl_heldWoken, dsOf_fresh]
    exact ⟨rfl, rfl, rfl, rfl, by simp [portResumed]⟩
  case lpm =>
    rintro s d a c ⟨ctx, held, vigil, high, unpolled, lpm, mayLpm, awake, l0, unfenced⟩
    exact runs_to_of_kept (execProxyLpmIdle_kept d a s)
      (execProxyLpmIdle_next ⟨ctx, held, vigil, high, unpolled, lpm, mayLpm, awake, l0, unfenced⟩)

end Sys2Proof.Machine
end

section
/-! SUPPORT. The configuration of a hub, the returning host, and its control requests to the devices of an absorbed episode: the next state
of each row where its conditions hold (R119, R247, R258–R261). -/

set_option Elab.async false

namespace Sys2Proof.Machine

/-! ### The configuration of a hub (R247, R261, R266) -/

section
variable {s : State} {u : US}

@[simp] theorem vigilEvent_hubs (ks : List (Fin 8)) (unit kind code ctx : Nat) (s : State) :
    (vigilEvent ks unit kind code ctx s).hubs = s.hubs :=
  hubs_of_only (vigilEvent_only .hubs ks unit kind code ctx s (by decide))

@[simp] theorem hubOf_vigilEvent (ks : List (Fin 8)) (unit kind code ctx : Nat) (w : US) :
    hubOf (vigilEvent ks unit kind code ctx s) w = hubOf s w := by simp only [hubOf, vigilEvent_hubs]

/-- A change of a hub's state changes nothing else of the hub (R247). -/
theorem hubOf_hubTo (h : HubState) : hubOf (hubTo u h s) u = { hubOf s u with state := h } := by
  unfold hubTo
  split
  · next same => simp only [← eq_of_beq same]
  · simp [setHubState]

/-- What follows from a hub's suspended condition changes no more of the hub than its state (R247). -/
theorem hubOf_hubPresence : ∃ h, hubOf (hubPresence u s) u = { hubOf s u with state := h } := by
  unfold hubPresence
  split
  · exact ⟨.suspended, hubOf_hubTo _⟩
  · exact ⟨.attached, hubOf_hubTo _⟩
  · exact ⟨(hubOf s u).state, rfl⟩

theorem onlyReports_presentWaiting : OnlyReports s (presentWaiting u s) := by
  refine onlyReports_foldl (fun y d => onlyReports_ite (fun _ => rfl) ?_) _ _
  have reported (ss go : Bool) (x : State) : OnlyReports x (if go then chgPort d ss .connection x else x) :=
    onlyReports_ite (onlyReports_chgPort d ss .connection x) fun _ => rfl
  exact (reported false _ y).trans (reported true _ _)

/-- A hub with the address that its host gave to it on one hub of the pair. -/
def addressed (ss : Bool) (addr : Nat) (h : Hub) : Hub := if ss then { h with addr3 := addr } else { h with addr2 := addr }

/-- A configured hub becomes ATTACHED, or follows its suspended condition where its host was there before (R247). -/
def hubAttached (u : US) (s : State) : State :=
  if (hubOf s u).state = .attached ∨ (hubOf s u).state = .suspended then hubPresence u s
  else presentWaiting u (hubTo u .attached (modFo u (fun f => { f with absentAt := none, waiting := false, queue := [] }) s))

/-- A hub to which its host has given a configuration; configuration 0 only ends the one that it had (R247). -/
def hubConfigured (u : US) (value : Nat) (s : State) : State :=
  if value = 0 then modHub u (fun h => { h with configured := false }) s
  else hubAttached u (modHub u (fun h => { h with configured := true }) s)

/-- The state once a host has addressed a hub: a deadline that is due has been carried out before (R8, R266). -/
def hubAddressed (u : US) (ss : Bool) (addr : Nat) (s : State) : State :=
  modHub u (addressed ss addr) (hostSeen u (holdDue u s))

theorem execHubSetConfiguration_next {ss : Bool} {addr value : Nat} (connected : (hubOf s u).connected = true)
    (released : safeHolds s = false) :
    execHubSetConfiguration u ss addr value s = .next (hubConfigured u value (hubAddressed u ss addr (fresh s))) := by
  refine (if_neg (by simp [connected, released])).trans ?_
  by_cases unset : value = 0
  · exact (if_pos unset).trans (congrArg Host.Outcome.next (if_pos unset).symm)
  · refine (if_neg unset).trans (.trans ?_ (congrArg Host.Outcome.next (if_neg unset).symm))
    dsimp only
    split
    · next attached => exact congrArg Host.Outcome.next (if_pos (.inl attached)).symm
    · next suspended => exact congrArg Host.Outcome.next (if_pos (.inr suspended)).symm
    · next notAttached notSuspended =>
      exact congrArg Host.Outcome.next (if_neg (not_or.mpr ⟨notAttached, notSuspended⟩)).symm

/-- What attaches a hub changes no more of it than its state and its change bits. -/
theorem unreported_hubAttached : ∃ h, unreported (hubOf (hubAttached u s) u) = unreported { hubOf s u with state := h } := by
  unfold hubAttached
  split
  · exact hubOf_hubPresence.imp fun _ => congrArg unreported
  · exact ⟨.attached, (onlyReports_presentWaiting u).trans (congrArg unreported (hubOf_hubTo _))⟩

theorem unreported_hubConfigured (value : Nat) :
    ∃ h, unreported (hubOf (hubConfigured u value s) u) =
      unreported { hubOf s u with state := h, configured := decide (value ≠ 0) } := by
  unfold hubConfigured
  split
  · next unset => exact ⟨(hubOf s u).state, by simp [unset]⟩
  · next set => simpa [set] using unreported_hubAttached (u := u) (s := modHub u (fun h => { h with configured := true }) s)

/-- A configuration leaves the hub with the address and the configuration that its host has set. -/
theorem hubOf_hubConfigured (ss : Bool) (addr value : Nat) :
    (if ss then (hubOf (hubConfigured u value (hubAddressed u ss addr s)) u).addr3
      else (hubOf (hubConfigured u value (hubAddressed u ss addr s)) u).addr2) = addr ∧
    (hubOf (hubConfigured u value (hubAddressed u ss addr s)) u).configured = decide (value ≠ 0) := by
  obtain ⟨h, hub⟩ := unreported_hubConfigured (u := u) (s := hubAddressed u ss addr s) value
  rw [hubAddressed, hubOf_modHub_self] at hub
  cases ss
  · exact ⟨congrArg Hub.addr2 hub, congrArg Hub.configured hub⟩
  · exact ⟨congrArg Hub.addr3 hub, congrArg Hub.configured hub⟩

end

/-! ### The returning host and its requests (R258) -/

section
variable {s : State} {u : US}

theorem execReturningHostFirstPacket_next (held : (hubOf s u).state = .vigil) (connected : (hubOf s u).connected = true) :
    execReturningHostFirstPacket u s = .next (modVigHub u (fun h => { h with returned := true }) (hostSeen u (fresh s))) :=
  if_neg (by simp [held, connected])

variable {d : DS} {hubPort addr : Nat} {q : Setup} {data : List Byte} {fin : CtlEnd} {eps : List EpDesc}

/-- A host's request reaches the USB 2.0 device of a port that it owns and sees. -/
structure Reaches2 (s : State) (u : US) (d : DS) : Prop where
  owned : ownerOf s d = some u
  connected : (hubOf s u).connected = true
  shown : presentable s d = true
  enabled : (dsOf s d).enable = true

/-- The context of a device that its host addresses itself, and whose requests no quirk refuses (R126, R258). -/
structure Addressed (s : State) (d : DS) (hubPort addr : Nat) (c : Nat × Ctx) : Prop where
  ctx : ctxAt s d hubPort false = some c
  noHub : c.2.isHub = false
  direct : c.2.translated = false
  named : c.2.daddr = some addr
  notBlocked : bit (devQuirks s c.2) 8 = false

/-- A request to a device with a context: absorbed from its shadow where it may be, else forwarded (R258). -/
def requestServed (u : US) (d : DS) (hubPort addr : Nat) (q : Setup) (data : List Byte) (fin : CtlEnd) (eps : List EpDesc)
    (c : Nat × Ctx) (s : State) : State :=
  if mayAbsorb s c.2 then
    match shadowRead s c.2 q with
    | some l => { emit (.control u (l.take q.length)) s with freeSeq := s.freeSeq + 1 }
    | none =>
      match absorbSet c.2 q data with
      | some y =>
        let s2 := retranslate c.1 (modCtx c.1 (fun _ => y) (emit (.control u []) s))
        if c.2.st != .ready && y.st == .ready then endEpisode c.1 y s2 else s2
      | none => forwardReq d hubPort false addr q data fin eps s
  else forwardReq d hubPort false addr q data fin eps s

theorem Reaches2.not_lost (reaches : Reaches2 s u d) :
    ¬ (ownerOf (fresh s) d != some u || !(hubOf (fresh s) u).connected || !presentable (fresh s) d ||
      !(dsOf (fresh s) d).enable) = true := by
  obtain ⟨owned, connected, shown, enabled⟩ := reaches
  simp [owned, connected, shown, enabled]

theorem execDeviceControlRequest_unknown (reaches : Reaches2 s u d) (unknown : ctxAt (hostSeen u (fresh s)) d hubPort false = none)
    (notBlocked : bit (seenOf (hostSeen u (fresh s)) d hubPort).quirks 8 = false) :
    execDeviceControlRequest u d hubPort false addr q data fin eps s =
      .next (forwardReq d hubPort false addr q data fin eps (hostSeen u (fresh s))) := by
  refine (if_neg reaches.not_lost).trans ?_
  simp only [unknown, notBlocked]
  rfl

theorem execDeviceControlRequest_known {c : Nat × Ctx} (reaches : Reaches2 s u d)
    (known : Addressed (hostSeen u (fresh s)) d hubPort addr c) :
    execDeviceControlRequest u d hubPort false addr q data fin eps s =
      .next (requestServed u d hubPort addr q data fin eps c (hostSeen u (fresh s))) := by
  obtain ⟨ctx, noHub, direct, named, notBlocked⟩ := known
  refine (if_neg reaches.not_lost).trans ?_
  simp only [ctx]
  refine (if_neg (by simp [direct, named])).trans ((if_neg (by simp [notBlocked])).trans ?_)
  simp only [noHub, Bool.and_false, Bool.false_eq_true, if_false]
  unfold requestServed
  cases mayAbsorb (hostSeen u (fresh s)) c.2 with
  | false => rfl
  | true =>
    cases shadowRead (hostSeen u (fresh s)) c.2 q with
    | some l => rfl
    | none => cases absorbSet c.2 q data <;> rfl

/-- A reset that a device's context absorbed is complete: the device is ABSORBING, its journal ARMED (R258). -/
def resetAbsorbedDone (c hubPort : Nat) (s : State) : State :=
  modCtx c (fun x => { x with st := .absorbing, resetAt := none, hubChg := decide (hubPort ≠ 0)
                              journal := x.journal.map (fun j => { j with armed := true }) }) s

/-- The completion of an absorbed reset as its host sees it, on the port of the device's external hub or on the port itself (R258). -/
def resetReported (d : DS) (hubPort : Nat) (ss warm : Bool) (s : State) : State :=
  if hubPort ≠ 0 then match ownerOf s d with
    | some u => emit (.extHubReport u d (2 ^ hubPort)) s
    | none => s
  else if ss then
    let reset := chgPort d true .reset (modDs d (fun x => { x with link := .u0, suspHost3 := false, suspHub3 := false }) s)
    if warm then chgPort d true .bhReset reset else reset
  else
    chgPort d false .reset (modDs d (fun x => { x with enable := true, suspHost2 := false, suspHub2 := false, l1 := false }) s)

theorem execAbsorbedResetComplete_next {ss : Bool} {c : Nat × Ctx} {x : Nat} (ctx : ctxAt s d hubPort ss = some c)
    (reset : c.2.resetAt = some x) :
    execAbsorbedResetComplete d hubPort ss s = .next (resetReported d hubPort ss c.2.resetWarm (resetAbsorbedDone c.1 hubPort
      (advanceTo (x + if bit (devQuirks s c.2) 7 then 20000000 else 10000000) (fresh s)))) := by
  simp only [execAbsorbedResetComplete, ctxAt_fresh, ctx, reset, devQuirks_fresh]
  unfold resetReported
  split
  · rfl
  · split <;> rfl

end

/-- Settles O15: each row keeps the parts its law in Laws/Kept.lean does not name, and its conditions select the branch in which it acts;
what attaches a hub leaves the address and the configuration that its host has set. -/
theorem returningHostRuns : Obligations.ReturningHostRuns := by
  refine ⟨?configuration, ?firstPacket, ?unknown, ?forwarded, ?read, ?set, ?reset⟩
  case configuration =>
    rintro s u b a v ⟨connected, released⟩
    exact runs_of_kept_next (execHubSetConfiguration_kept u b a v s) (execHubSetConfiguration_next connected released)
      (hubOf_hubConfigured b a v)
  case firstPacket =>
    rintro s u ⟨held, connected⟩
    exact runs_to_of_kept (execReturningHostFirstPacket_kept u s) (execReturningHostFirstPacket_next held connected)
  case unknown =>
    rintro s u d n b a q l f e ⟨owned, connected, shown, rfl, enabled, unknown, notBlocked⟩
    exact runs_to_of_kept (execDeviceControlRequest_kept u d n false a q l f e s)
      (execDeviceControlRequest_unknown ⟨owned, connected, shown, enabled⟩ unknown notBlocked)
  case forwarded =>
    rintro s u d n b a q l f e c ⟨owned, connected, shown, rfl, enabled, ctx, noHub, direct, named, notBlocked, passes⟩
    refine runs_of_kept_next (execDeviceControlRequest_kept u d n false a q l f e s)
      (execDeviceControlRequest_known ⟨owned, connected, shown, enabled⟩ ⟨ctx, noHub, direct, named, notBlocked⟩) ?_
    simp [requestServed, passes]
  case read =>
    rintro s u d n b a q l f e c x ⟨owned, connected, shown, rfl, enabled, ctx, noHub, direct, named, notBlocked, absorbs, read⟩
    refine runs_of_kept_next (execDeviceControlRequest_kept u d n false a q l f e s)
      (execDeviceControlRequest_known ⟨owned, connected, shown, enabled⟩ ⟨ctx, noHub, direct, named, notBlocked⟩) ?_
    simp [requestServed, absorbs, read]
  case set =>
    rintro s u d n b a q l f e c y ⟨owned, connected, shown, rfl, enabled, ctx, noHub, direct, named, notBlocked, absorbs, unread,
      sets⟩
    refine runs_of_kept_next (execDeviceControlRequest_kept u d n false a q l f e s)
      (execDeviceControlRequest_known ⟨owned, connected, shown, enabled⟩ ⟨ctx, noHub, direct, named, notBlocked⟩) ?_
    simp [requestServed, absorbs, unread, sets]
  case reset =>
    rintro s d n b c x ⟨ctx, reset⟩
    exact runs_to_of_kept (execAbsorbedResetComplete_kept d n b s) (execAbsorbedResetComplete_next ctx reset)

end Sys2Proof.Machine
end

section
/-! SUPPORT. The hold deadline, failover and fail-back, the steps of a port's move and a hub's reconnection: the next state of each row
where its conditions hold (R108, R118, R266, R269–R277). -/

set_option Elab.async false

namespace Sys2Proof.Machine

/-! ### The hold deadline (R266) -/

section
variable {s : State} {u : US} {b : BootIn} {x : Nat}

theorem execHoldExpiry_standby (deadline : (vigHub s u).deadline = some x) (standby : s.pmu.reported = .standby) :
    execHoldExpiry u b s = .next (raiseWake 11 0 0 (edgeTime b.wx s) b (fresh s)) := by
  refine (if_neg (by simp [deadline])).trans ?_
  simp only [fresh_pmu, standby, edgeTime_fresh]

theorem execHoldExpiry_vigil (deadline : (vigHub s u).deadline = some x) (vigil : s.pmu.reported = .vigil)
    (steady : entering s = false) (runs : deadlineRuns s u = true) :
    execHoldExpiry u b s = .next (holdExpiry u (suspendWake 11 0 0 (fresh s))) := by
  refine (if_neg (by simp [deadline])).trans ?_
  simp only [fresh_pmu, vigil]
  exact (if_neg (by simp [steady])).trans (congrArg Host.Outcome.next (if_pos (by simpa using runs)))

end

/-! ### Failover and fail-back (R269–R277) -/

/-- The refill tick at which something becomes due that waits from a lane time on (R201, R269). -/
def dueAt (due : Nat) (s : State) : Nat := (max due s.now + 124999) / 125000 * 125000

/-- What a decision does by the state of the partner hub: it starts, or wakes the partner's host where that host has enabled it (R270). -/
def partnerTried (u p : US) (s0 s : State) : State := match (hubOf s0 p).state with
  | .attached => startFailover u s
  | .suspended =>
    if (hubOf s0 p).remoteWake2 then modUs p (fun y => { y with upK := some s.now }) (emit (.upWake p false) s)
    else if (hubOf s0 p).funcWake3 then modUs p (fun y => { y with upLfps := true }) (emit (.upWake p true) s)
    else s
  | _ => s

/-- The decision for a hub whose host has been absent for DELAY: dropped where the hub may no longer fail over (R269, R270). -/
def decided (u p : US) (s : State) : State :=
  if homeOpen s u = false then modFo u (fun f => { f with absentAt := none }) s
  else partnerTried u p s (modFo u (fun f => { f with absentAt := none, waiting := true }) s)

/-- The ports of a fail-back whose devices have been absorbed come first again (R277). -/
def recalled (s : State) (b : Back) : Back :=
  { b with queue := (b.deferred.filter (fun y => !absorbing s y.1)).map (·.1) ++ b.queue
           deferred := b.deferred.filter (fun y => absorbing s y.1) }

section
variable {s : State} {u p : US}

theorem execFailoverDecision_next {x : Nat} (absent : (foOf s u).absentAt = some x) (partner : (foOf s u).rcd.partner = some p) :
    execFailoverDecision u s =
      .next (decided u p (advanceTo (dueAt (x + (foOf s u).rcd.delay * 10000000) s) (fresh s))) := by
  dsimp only [execFailoverDecision]
  rw [foOf_fresh, absent, partner]
  by_cases closed : homeOpen (advanceTo (dueAt (x + (foOf s u).rcd.delay * 10000000) s) (fresh s)) u = false
  · exact (if_pos (congrArg not closed)).trans (congrArg Host.Outcome.next (if_pos closed).symm)
  · exact (if_neg fun shut => closed ((Bool.not_eq_true' _).mp shut)).trans (congrArg Host.Outcome.next (if_neg closed).symm)

theorem execFailoverPortStart_failover (noBack : (foOf s u).back = none) (partner : (foOf s u).rcd.partner = some p)
    (notWaiting : (foOf s u).waiting = false) (ports : (foOf s u).queue ≠ []) (attached : (hubOf s p).state = .attached)
    (away : (hubOf s u).state = .vigil ∨ (hubOf s u).state = .detached ∨ (hubOf s u).state = .failedOver) :
    execFailoverPortStart u s = .next (foNext u p 32 (advanceTo (foOf s u).nextAt (fresh s))) := by
  simp only [execFailoverPortStart, foOf_fresh, noBack, partner, notWaiting, Bool.false_and, Bool.false_eq_true, if_false]
  exact if_neg (by simpa [ports, attached, or_iff_not_imp_left] using away)

theorem execFailoverPortStart_failback {x : Back} (back : (foOf s u).back = some x) (attached : (hubOf s u).state = .attached) :
    execFailoverPortStart u s = .next (
      let s1 := advanceTo x.nextAt (fresh s)
      backNext u 32 (modFo u (fun f => { f with back := some (recalled s1 x) }) s1)) := by
  simp only [execFailoverPortStart, foOf_fresh, back]
  exact if_pos (by simp [attached])

theorem execFailbackAuto_next {x : Nat} (since : (foOf s u).upFrom = some x) (auto : (foOf s u).rcd.auto = true)
    (noBack : (foOf s u).back = none) (ports : failedOver s u ≠ []) :
    execFailbackAuto u s = .next (
      let s1 := advanceTo (dueAt (x + (foOf s u).rcd.backDelay * 1000000000) s) (fresh s)
      startBack u false (backOrder s1 u) s1) := by
  simp only [execFailbackAuto, foOf_fresh, since]
  exact if_neg (by simpa [auto, noBack] using ports)

theorem execFailbackDeferTimeout_next {d : DS} {x : Back} {y : Nat} (home : homeOf s d = some u) (back : (foOf s u).back = some x)
    (deferred : x.deferred.find? (fun z => z.1 == d) = some (d, y)) (attached : (hubOf s u).state = .attached) :
    execFailbackDeferTimeout d s =
      .next (backNext u 32 (modFo u (fun f => { f with back := some { x with queue := d :: x.queue } }) (advanceTo y (fresh s)))) := by
  simp only [execFailbackDeferTimeout, homeOf_fresh, home, foOf_fresh, back, deferred]
  exact if_neg (by simp [attached])

end

/-! ### The steps of a move (R118, R119) -/

section
variable {s : State} {d : DS} {m : Move}

/-- The slot that a port leaves shows its connections as ended (R118, step 2). -/
def slotLeft (d : DS) (s : State) : State :=
  let s1 := if (dsOf s d).shown2 then chgPort d false .connection s else s
  if (dsOf s d).shown3 then chgPort d true .connection s1 else s1

theorem slotLeft_own : (slotLeft d s).own = s.own := by
  refine own_of_only ?_
  unfold slotLeft
  simp

theorem moveOldOwner_next (moving : s.own.move[d] = some m) (phase : m.phase = 1) :
    moveOldOwner d s =
      (let s1 := advanceTo ((s.now + 124999) / 125000 * 125000) s
       setMove d (some { m with phase := 2, startAt := s1.now }) (moveHeld d m.keep (slotLeft d s1))) := by
  simp only [moveOldOwner, moving, phase]
  rfl

/-- The port has its new owner, and its move is over (R118, step 3). -/
def moveGiven (d : DS) (m : Move) (s : State) : State := setMove d none (setOwner d m.dest s)

/-- Step 4 of a move: the port's work is captured or released, and its new slot shows it (R118, R119, R274). -/
def moveTaken (d : DS) (m : Move) (s : State) : State :=
  let shown := moveShown d (movedPort d (if m.keep then keepMoved d m s else releaseMoved d m s))
  match m.dest with
  | some u => withholdSs u shown
  | none => shown

/-- The completion of the command that moved the port, and the port's event (R118, R451, R470). -/
def moveReported (d : DS) (m : Move) (s : State) : State :=
  portEvent (dsPort d) 4 (le 1 (ownerCode m.dest)) (accRings (.assign d) s)
    (finalCpl (.assign d) (if portFenced s (dsPort d) then stFenced else stOk) (assignResult m.keep m.dest) s)

theorem moveDrained_next (moving : s.own.move[d] = some m) (phase : m.phase = 2) :
    moveDrained d s = moveReported d m (moveTaken d m (moveGiven d m s)) := by
  simp only [moveDrained, moving, phase]
  rfl

theorem moveGiven_own : (moveGiven d m s).own =
    { s.own with owner := s.own.owner.set d m.dest, move := s.own.move.set d none } := rfl

theorem moveTaken_own : (moveTaken d m s).own = s.own := by
  refine own_of_only ?_
  unfold moveTaken
  cases m.dest <;> simp

theorem moveReported_own : (moveReported d m s).own = s.own := own_of_only (by simp [moveReported])

theorem failoverMoved_own (r : Option Move) : (failoverMoved d r s).own = s.own := own_of_only (by simp)

end

/-! ### A hub's reconnection (R108) -/

section
variable {s : State} {u : US}

@[simp] theorem finalCpl_hubs (k : AccKey) (status : Nat) (payload : List Byte) (s : State) :
    (finalCpl k status payload s).hubs = s.hubs := hubs_of_only (finalCpl_only .hubs k status payload s (by decide))
@[simp] theorem finalCpl_usd (k : AccKey) (status : Nat) (payload : List Byte) (s : State) :
    (finalCpl k status payload s).usd = s.usd := usd_of_only (finalCpl_only .usd k status payload s (by decide))

@[simp] theorem hubOf_finalCpl (k : AccKey) (status : Nat) (payload : List Byte) (w : US) :
    hubOf (finalCpl k status payload s) w = hubOf s w := by simp only [hubOf, finalCpl_hubs]
@[simp] theorem usOf_finalCpl (k : AccKey) (status : Nat) (payload : List Byte) (w : US) :
    usOf (finalCpl k status payload s) w = usOf s w := by simp only [usOf, finalCpl_usd]

/-- A hub connected again, and the completions of the commands that wait for it (R108, R451). -/
def reconnected (u : US) (s : State) : State :=
  finalCpl (.reconnect u (some true)) stOk (assignResult true (some u))
    (finalCpl (.reconnect u (some false)) stOk (assignResult false (some u))
      (finalCpl (.reconnect u none) stOk (assignResult false none)
        (hubConnect u (modHub u (fun h => { h with reconnectAt := none }) s))))

theorem hubReconnect_next {x : Nat} (due : (hubOf s u).reconnectAt = some x) :
    hubReconnect u s = reconnected u (advanceTo x s) := by
  simp only [hubReconnect, due]
  rfl

end

/-- Settles O16: each row keeps the parts its law in Laws/Kept.lean does not name, and its conditions select the branch in which it acts;
no more than the first step of a drained move changes ownership, and only the connection changes a hub and its port. -/
theorem failoverAndMovesRun : Obligations.FailoverAndMovesRun := by
  refine ⟨?standby, ?vigil, ?decision, ?failover, ?failback, ?auto, ?deferred, ?oldOwner, ?drain, ?reconnect⟩
  case standby =>
    rintro s u b x ⟨deadline, standby⟩
    exact runs_to_of_kept (execHoldExpiry_kept u b s) (execHoldExpiry_standby deadline standby)
  case vigil =>
    rintro s u b x ⟨deadline, vigil, steady, runs⟩
    exact runs_to_of_kept (execHoldExpiry_kept u b s) (execHoldExpiry_vigil deadline vigil steady runs)
  case decision =>
    rintro s u p x ⟨absent, partner⟩
    exact runs_to_of_kept (execFailoverDecision_kept u s) (execFailoverDecision_next absent partner)
  case failover =>
    rintro s u p ⟨noBack, partner, notWaiting, ports, attached, away⟩
    exact runs_to_of_kept (execFailoverPortStart_kept u s)
      (execFailoverPortStart_failover noBack partner notWaiting ports attached away)
  case failback =>
    rintro s u x ⟨back, attached⟩
    exact runs_to_of_kept (execFailoverPortStart_kept u s) (execFailoverPortStart_failback back attached)
  case auto =>
    rintro s u x ⟨since, auto, noBack, ports⟩
    exact runs_to_of_kept (execFailbackAuto_kept u s) (execFailbackAuto_next since auto noBack ports)
  case deferred =>
    rintro s d u x y ⟨home, back, deferred, attached⟩
    exact runs_to_of_kept (execFailbackDeferTimeout_kept d s) (execFailbackDeferTimeout_next home back deferred attached)
  case oldOwner =>
    rintro s d m ⟨moving, phase⟩
    refine runs_of_kept_next (execMoveOldOwnerDisconnect_kept d s)
      (congrArg Host.Outcome.next (moveOldOwner_next (s := fresh s) moving phase)) ⟨_, Vector.getElem_set_self _⟩
  case drain =>
    rintro s d m ⟨moving, phase⟩
    refine runs_of_kept_next (execMoveDrainComplete_kept d s) (congrArg Host.Outcome.next
      (congrArg₂ (failoverMoved d) moving (moveDrained_next (s := fresh s) moving phase))) ⟨?_, rfl⟩
    rw [failoverMoved_own, moveReported_own, moveTaken_own, moveGiven_own, fresh_own]
  case reconnect =>
    intro s u x due
    refine runs_of_kept_next (execHubReconnect_kept u s)
      (congrArg Host.Outcome.next (hubReconnect_next (s := fresh s) due)) ?_
    simp [reconnected]

end Sys2Proof.Machine
end

section
/-! SUPPORT. Suspend and resume of ports and of the hub, upstream and downstream: the next state of each row where its conditions hold
(R159, R290–R294, R297, R298). -/

set_option Elab.async false

namespace Sys2Proof.Machine

/-! ### Selective suspend and resume of a port (R290, R293) -/

section
variable {s : State} {u : US} {v : Fin 15} {d : DS}

/-- A port as its host's suspend leaves it: a SuperSpeed link in U0 to U2 is to enter U3, an enabled USB 2.0 port out of reset is
suspended (R290). -/
def hostSuspended (d : DS) (ss : Bool) (s : State) : State :=
  if ss then
    if (dsOf s d).link = .u0 ∨ (dsOf s d).link = .u1 ∨ (dsOf s d).link = .u2 then
      modDs d (fun x => { x with u3Entry := true, suspHost3 := true }) s
    else s
  else if (dsOf s d).enable = true ∧ (dsOf s d).resetAt = none then modDs d (fun x => { x with suspHost2 := true }) s
  else s

theorem execPortSuspendRequest_next {ss : Bool} (up : hubUp s u ss = true) (owned : ownedAt s u v = some d) :
    execPortSuspendRequest u ss v s = .next (hostSuspended d ss (fresh s)) := by
  simp only [execPortSuspendRequest, if_neg (answers_of_hubUp up), ownedAt_fresh, owned]
  exact (apply_ite Host.Outcome.next _ _ _).symm.trans (congrArg Host.Outcome.next
    (if_congr Iff.rfl (if_congr (by simp [or_assoc]) rfl rfl) (if_congr (by simp) rfl rfl)))

theorem execUsb2PortResumeRequest_resumes (up : hubUp s u false = true) (owned : ownedAt s u v = some d)
    (hubAwake : (dsOf s d).suspHub2 = false) (suspended : (dsOf s d).suspHost2 = true) (idle : (dsOf s d).resumeAt = none) :
    execUsb2PortResumeRequest u v s =
      .next (modDs d (fun x => { x with resumeAt := some s.now, resumeKind := .host, suspHost2 := false }) (fresh s)) := by
  simp only [execUsb2PortResumeRequest, if_neg (answers_of_hubUp up), ownedAt_fresh, owned, dsOf_fresh]
  exact (if_neg (by simp [hubAwake])).trans (if_pos (by simp [suspended, idle]))

theorem execUsb2PortResumeRequest_hubSuspended (up : hubUp s u false = true) (owned : ownedAt s u v = some d)
    (hubDown : (dsOf s d).suspHub2 = true) :
    execUsb2PortResumeRequest u v s = .next (modDs d (fun x => { x with suspHost2 := false }) (fresh s)) := by
  simp only [execUsb2PortResumeRequest, if_neg (answers_of_hubUp up), ownedAt_fresh, owned, dsOf_fresh]
  exact if_pos hubDown

/-- A port whose own resume has ended; a hub suspended meanwhile marks it (R293, R297). -/
def resumeEnded (d : DS) (s : State) : State :=
  modDs d (fun y => { y with
    resumeAt := none, suspHost2 := false
    suspHub2 := (match ownerOf s d with | some u => (usOf s u).susp2 | none => false) }) s

theorem execUsb2PortResumeEnd_next {x : Nat} (resumes : (dsOf s d).resumeAt = some x) (own : (dsOf s d).resumeKind ≠ .hub) :
    execUsb2PortResumeEnd d s = .next (
      let ended := resumeEnded d (advanceTo (x + 20000000) (fresh s))
      if (dsOf s d).resumeKind = .host ∨ (dsOf s d).suspHost2 = true then chgPort d false .suspend ended else ended) := by
  simp only [execUsb2PortResumeEnd, dsOf_fresh, resumes]
  exact (if_neg (by simpa using own)).trans (congrArg Host.Outcome.next (if_congr (by simp) rfl rfl))

theorem execSsPortResumeRequest_next (up : hubUp s u true = true) (owned : ownedAt s u v = some d)
    (hubAwake : (dsOf s d).suspHub3 = false) (asleep : (dsOf s d).link = .u3) (idle : (dsOf s d).u3Exit = none) :
    execSsPortResumeRequest u v s =
      .next (modDs d (fun x => { x with u3Exit := some .host, suspHost3 := false }) (fresh s)) := by
  simp only [execSsPortResumeRequest, if_neg (answers_of_hubUp up), ownedAt_fresh, owned, dsOf_fresh]
  exact (if_neg (by simp [hubAwake])).trans (if_pos (by simp [asleep, idle]))

/-- A port whose link has failed drops what is stored for it, and reports its link state (R160, R298). -/
def linkFailed (d : DS) (s : State) : State := chgPort d true .linkState (dropStored d s)

/-- A port whose link is back in U0; a wake that its hub has not yet passed on keeps the hub's mark (R292–R294). -/
def u3Left (d : DS) (s : State) : State :=
  modDs d (fun x => { x with link := .u0, suspHub3 := x.wakePend3, suspHost3 := false }) s

theorem execU3ExitComplete_next {reached : Bool} {k : ResumeKind} (exits : (dsOf s d).u3Exit = some k) :
    execU3ExitComplete d reached s = .next (
      let ended := modDs d (fun x => { x with u3Exit := none }) (fresh s)
      if reached = false then
        linkFailed d (modDs d (fun x => { x with link := .inactive, suspHost3 := false, suspHub3 := false }) ended)
      else if k = .device ∧ ((dsOf s d).suspHost3 = true ∨ (dsOf s d).wakePend3 = false) then
        chgPort d true .linkState (u3Left d ended)
      else u3Left d ended) := by
  simp only [execU3ExitComplete, dsOf_fresh, exits]
  exact (apply_ite Host.Outcome.next _ _ _).symm.trans (congrArg Host.Outcome.next
    (if_congr (by simp) rfl (if_congr (by simp) rfl rfl)))

/-- An acknowledged entry puts the link into U3, and a refused one fails it (R160, R290). -/
def u3EntryEnded (d : DS) (acked : Bool) (s : State) : State :=
  if acked then modDs d (fun x => { x with u3Entry := false, link := .u3 }) s
  else linkFailed d (modDs d (fun x => { x with
    u3Entry := false, link := .inactive, suspHost3 := false, suspHub3 := false }) s)

theorem execU3EntryComplete_next {acked : Bool} (enters : (dsOf s d).u3Entry = true)
    (ended : acked = false ∨ linkQuiet s (dsPort d) = true) :
    execU3EntryComplete d acked s = .next (u3EntryEnded d acked (fresh s)) := by
  refine (if_neg ?acts).trans (apply_ite Host.Outcome.next _ _ _).symm
  case acts =>
    rcases ended with rfl | quiet
    · simp [enters]
    · simp [enters, quiet]

end

/-! ### Suspend and resume of a hub by its host (R159, R291, R292) -/

section
variable {s : State} {u : US}

/-- An enabled owned port that is awake is hub-suspended with its companion hub (R291). -/
def usb2HubSuspends (u : US) (y : State) (d : DS) : State :=
  if ownerOf y d == some u && (dsOf y d).enable && !(dsOf y d).suspHost2 && (dsOf y d).resumeAt.isNone && !underVigil y d then
    modDs d (fun x => { x with suspHub2 := true }) y
  else y

/-- An owned SuperSpeed port in U0 to U2 enters U3 with its hub (R159, R291). -/
def ssHubSuspends (u : US) (y : State) (d : DS) : State :=
  if ownerOf y d == some u && ((dsOf y d).link == .u0 || (dsOf y d).link == .u1 || (dsOf y d).link == .u2) &&
      !underVigil y d then
    modDs d (fun x => { x with link := .u3, suspHub3 := !x.suspHost3 }) y
  else y

/-- K on an owned port that is hub-suspended (R292). -/
def usb2HubResumes (u : US) (y : State) (d : DS) : State :=
  if ownerOf y d == some u && (dsOf y d).suspHub2 && (dsOf y d).resumeAt.isNone then
    modDs d (fun x => { x with resumeAt := some y.now, resumeKind := .hub }) y
  else y

/-- The U3 exit of an owned port that is hub-suspended; a pending wake of another is done with (R292, R294). -/
def ssHubResumes (u : US) (y : State) (d : DS) : State :=
  if ownerOf y d == some u && (dsOf y d).suspHub3 && (dsOf y d).link == .u3 && (dsOf y d).u3Exit.isNone then
    modDs d (fun x => { x with u3Exit := some .hub }) y
  else if ownerOf y d == some u && (dsOf y d).wakePend3 then
    modDs d (fun x => { x with wakePend3 := false, suspHub3 := false }) y
  else y

/-- The end of the hub's K on an owned port (R292). -/
def usb2HubResumed (u : US) (y : State) (d : DS) : State :=
  if ownerOf y d == some u && ((dsOf y d).suspHub2 || (dsOf y d).wakePend2) then
    modDs d (fun z => { z with
      suspHub2 := false, wakePend2 := false, resumeAt := if z.resumeKind == .hub then none else z.resumeAt }) y
  else y

theorem execCompanionUpstreamSuspend_next (connected : (hubOf s u).connected = true) :
    execCompanionUpstreamSuspend u s = .next (hubPresence u (allDs.foldl (usb2HubSuspends u)
      (modUs u (fun x => { x with susp2 := true, l1 := false }) (fresh s)))) :=
  if_neg (by simp [connected])

theorem modUs_modUs (f g : UsData → UsData) : modUs u f (modUs u g s) = modUs u (fun x => f (g x)) s := by simp [modUs]

theorem enterU3_quiet (wanted : (usOf s u).u3Want = true) (quiet : linkQuiet s (usPort u) = true) :
    enterU3 u s = hubPresence u (allDs.foldl (ssHubSuspends u)
      (modUs u (fun x => { x with u3Want := false, susp3 := true, link := .u3 }) s)) :=
  if_neg (by simp [wanted, quiet])

theorem execSsUpstreamU3_next (connected : (hubOf s u).connected = true) (quiet : linkQuiet s (usPort u) = true) :
    execSsUpstreamU3 u s = .next (hubPresence u (allDs.foldl (ssHubSuspends u)
      (modUs u (fun x => { x with u3Want := false, susp3 := true, link := .u3 }) (fresh s)))) := by
  have asked : linkQuiet (modUs u (fun x => { x with u3Want := true }) (fresh s)) (usPort u) = true := quiet
  refine (if_neg (by simp [connected])).trans (congrArg Host.Outcome.next ((enterU3_quiet (by simp) asked).trans ?_))
  rw [modUs_modUs]

theorem execHostResumeK_next {ns : Nat} (suspended : (usOf s u).susp2 = true) (long : 2500 ≤ ns) :
    execHostResumeK u ns s = .next (hubPresence u (allDs.foldl (usb2HubResumes u)
      (modUs u (fun x => { x with susp2 := false, resume2 := some s.now, upK := none }) (hostResumeWake u 1 (fresh s))))) :=
  if_neg (by simp [suspended, long])

theorem execHostU3Exit_next (suspended : (usOf s u).susp3 = true) :
    execHostU3Exit u s = .next (presentWaiting u (hubPresence u (allDs.foldl (ssHubResumes u)
      (modUs u (fun x => { x with susp3 := false, link := .u0, upLfps := false }) (hostResumeWake u 2 (fresh s)))))) :=
  if_neg (by simp [suspended])

theorem execHostResumeEop_next {x : Nat} (resumes : (usOf s u).resume2 = some x) :
    execHostResumeEop u s = .next (presentWaiting u (allDs.foldl (usb2HubResumed u)
      (modUs u (fun z => { z with resume2 := none, lastSof := some s.now }) (fresh s)))) :=
  if_neg (by simp [resumes])

end

/-- Settles O18: each row keeps the parts its law in Laws/Kept.lean does not name, and its conditions select the branch in which it
acts. -/
theorem suspendAndResumeRun : Obligations.SuspendAndResumeRun := by
  refine ⟨?suspend, ?usb2Resume, ?usb2Marked, ?resumeEnd, ?ssResume, ?companion, ?upstreamU3, ?resumeK, ?hostExit, ?eop,
    ?exitComplete, ?entryComplete⟩
  case suspend =>
    rintro s u b v d ⟨up, owned⟩
    exact runs_to_of_kept (execPortSuspendRequest_kept u b v s) (execPortSuspendRequest_next up owned)
  case usb2Resume =>
    rintro s u v d ⟨up, owned, hubAwake, suspended, idle⟩
    exact runs_of_kept_next (execUsb2PortResumeRequest_kept u v s)
      (execUsb2PortResumeRequest_resumes up owned hubAwake suspended idle) ⟨by simp, fun e other => by simp [other]⟩
  case usb2Marked =>
    rintro s u v d ⟨up, owned, hubDown⟩
    exact runs_of_kept_next (execUsb2PortResumeRequest_kept u v s)
      (execUsb2PortResumeRequest_hubSuspended up owned hubDown) ⟨by simp, fun e other => by simp [other]⟩
  case resumeEnd =>
    rintro s d x ⟨resumes, own⟩
    exact runs_to_of_kept (execUsb2PortResumeEnd_kept d s) (execUsb2PortResumeEnd_next resumes own)
  case ssResume =>
    rintro s u v d ⟨up, owned, hubAwake, asleep, idle⟩
    exact runs_of_kept_next (execSsPortResumeRequest_kept u v s)
      (execSsPortResumeRequest_next up owned hubAwake asleep idle) ⟨by simp, fun e other => by simp [other]⟩
  case companion =>
    intro s u connected
    exact runs_to_of_kept (execCompanionUpstreamSuspend_kept u s) (execCompanionUpstreamSuspend_next connected)
  case upstreamU3 =>
    rintro s u ⟨connected, quiet⟩
    exact runs_to_of_kept (execSsUpstreamU3_kept u s) (execSsUpstreamU3_next connected quiet)
  case resumeK =>
    rintro s u n ⟨suspended, long⟩
    exact runs_to_of_kept (execHostResumeK_kept u n s) (execHostResumeK_next suspended long)
  case hostExit =>
    intro s u suspended
    exact runs_to_of_kept (execHostU3Exit_kept u s) (execHostU3Exit_next suspended)
  case eop =>
    intro s u x resumes
    exact runs_to_of_kept (execHostResumeEop_kept u s) (execHostResumeEop_next resumes)
  case exitComplete =>
    intro s d b k exits
    exact runs_to_of_kept (execU3ExitComplete_kept d b s) (execU3ExitComplete_next exits)
  case entryComplete =>
    rintro s d b ⟨enters, ended⟩
    exact runs_to_of_kept (execU3EntryComplete_kept d b s) (execU3EntryComplete_next enters ended)

end Sys2Proof.Machine
end

section
/-! SUPPORT. Wakes of devices and of hub events, and the data lines of a port at attach and detach: the next state of each row where its
conditions hold (R127, R145, R153, R285, R286, R289, R294, R295). -/

set_option Elab.async false

namespace Sys2Proof.Machine

/-! ### Remote wake (R294, R295) -/

section
variable {s : State} {d : DS} {ns : Nat} {u : US}

/-- The wake of a device at USB 2.0: acted on as a wake from SUSPEND, and its port's own resume begun (R294, R390). -/
def usb2DeviceWoken (d : DS) (s : State) : State :=
  modDs d (fun x => { x with resumeAt := some s.now, resumeKind := .device }) (suspendWake 1 (dsCode d) 0 (fresh s))

/-- The wake of a device at SuperSpeed: acted on as a wake from SUSPEND, and its port's U3 exit begun (R294, R390). -/
def ssDeviceWoken (d : DS) (s : State) : State :=
  modDs d (fun x => { x with u3Exit := some .device }) (suspendWake 2 (dsCode d) 0 (fresh s))

/-- A device's wake at a suspended SuperSpeed hub: the window of its upstream signalling opens where the hub lets wakes through, else
the wake is pending (R294, R296). -/
def ssWakePassed (u : US) (d : DS) (s : State) : State :=
  if wakeEnabled s u true then modDs d (fun x => { x with wakeOpen := some s.now }) s
  else modDs d (fun x => { x with wakePend3 := true }) s

theorem execDeviceRemoteWake_usb2 (suspended : (dsOf s d).suspHost2 = true ∨ (dsOf s d).suspHub2 = true)
    (idle : (dsOf s d).resumeAt = none) (notPending : (dsOf s d).wakePend2 = false) (long : 2500 ≤ ns)
    (free : underVigil s d = false) (unowned : ownerOf s d = none) :
    execDeviceRemoteWake d false ns s = .next (usb2DeviceWoken d s) := by
  refine (if_neg ?asleep).trans ((if_neg (by simp [free])).trans ?_)
  case asleep =>
    rcases suspended with host | hub
    · simp [host, idle, notPending, long]
    · simp [hub, idle, notPending, long]
  simp only [ownerOf_suspendWake, ownerOf_fresh, unowned, suspendWake_now, fresh_now]
  rfl

theorem execDeviceRemoteWake_ss (asleep : (dsOf s d).link = .u3) (idle : (dsOf s d).u3Exit = none)
    (notPending : (dsOf s d).wakePend3 = false) (free : underVigil s d = false) (owned : ownerOf s d = some u) :
    execDeviceRemoteWake d true ns s = .next (
      if (usOf s u).susp3 = false then ssDeviceWoken d s else ssWakePassed u d (ssDeviceWoken d s)) := by
  refine (if_neg (by simp [asleep, idle, notPending])).trans ((if_neg (by simp [free])).trans ?_)
  simp only [ownerOf_suspendWake, ownerOf_fresh, owned, usOf_suspendWake, usOf_fresh]
  cases (usOf s u).susp3 with
  | false => rfl
  | true => exact (apply_ite Host.Outcome.next _ _ _).symm

/-- The bit of a wake event in a slot's remote wake mask (R295). -/
def wakeBit (e : WakeEvent) : Nat := match e with
  | .connect => 0
  | .disconnect => 1
  | .overCurrent => 2

theorem execHubEventRemoteWake_next {ss : Bool} {e : WakeEvent} {v : Fin 15} (slot : owningSlot s d = some (u, v))
    (suspended : (if ss then (usOf s u).susp3 else (usOf s u).susp2) = true) (enabled : wakeEnabled s u ss = true)
    (masked : ss = false ∨ bit (slotSt s u v).wakeMask (wakeBit e) = true) :
    execHubEventRemoteWake d ss e s = .next (modUs u
      (fun x => if ss then { x with upLfps := true, wakeBy := some d } else { x with upK := some s.now, wakeBy := some d })
      (emit (.upWake u ss) (suspendWake (if ss then 2 else 1) (dsCode d) 0 (fresh s)))) := by
  have allowed : (wakeEnabled s u ss && (!ss || bit (slotSt s u v).wakeMask (wakeBit e))) = true := by
    simpa [enabled] using masked
  have acts : ¬ (!(if ss then (usOf s u).susp3 else (usOf s u).susp2) ||
      !(wakeEnabled s u ss && (!ss || bit (slotSt s u v).wakeMask (wakeBit e)))) = true := by
    simp [suspended, allowed]
  simp only [execHubEventRemoteWake, owningSlot_fresh, slot]
  exact if_neg acts

end

/-! ### Attach and the identity probe (R127, R145, R153, R285, R286) -/

section
variable {s : State} {d : DS}

theorem execSsReceiverDetectStart_next (watched : (dsOf s d).watch = true) (unfenced : portFenced s (dsPort d) = false)
    (allowed : ssAllowed s d = true) (notHeld : ssHeldByDp s d = false) (notFailed : (dsOf s d).ssFailed = false)
    (waits : (dsOf s d).link = .rxDetect) (locked : s.clk.ssPllLock = true) :
    execSsReceiverDetectStart d s = .next (modDs d (fun x => { x with rxDet := true, link := .polling }) (fresh s)) :=
  congrArg Host.Outcome.next (if_pos (by simp [watched, unfenced, allowed, notHeld, notFailed, waits, locked]))

/-- A pull-up found on a port (R285). -/
def pullupSeen (d : DS) (low : Bool) (s : State) : State :=
  modDs d (fun x => { x with conn2 := true, speed2 := some (if low then .ls else .fs) }) s

/-- A link in U0 after Polling, at its generation and with its counts begun anew (R145, R153, R285). -/
def ssTrained (d : DS) (gen2 : Bool) (s : State) : State :=
  let linked := modDs d (fun x => { x with link := .u0, gen := if gen2 then 2 else 1, rxDet := false }) s
  modLink (dsPort d) (freshLink linked (dsPort d)) linked

theorem execUsb2Connect_next {low : Bool} {ns : Nat} (watched : (dsOf s d).watch = true) (notYet : (dsOf s d).conn2 = false)
    (long : 2500 ≤ ns) :
    execUsb2Connect d low ns s = .next (
      if probeNeeded s = true ∧ (dsOf s d).probed = false then
        modDs d (fun x => { x with probing := true }) (pullupSeen d low (fresh s))
      else presentConn d false (pullupSeen d low (fresh s))) := by
  exact (if_neg (by simp [watched, notYet, long])).trans
    (congrArg Host.Outcome.next (if_congr (by simp) rfl rfl))

theorem execSsLinkUp_trained {gen2 : Bool} (detected : (dsOf s d).rxDet = true) (polls : (dsOf s d).link = .polling)
    (unfenced : portFenced s (dsPort d) = false) :
    execSsLinkUp d gen2 s = .next (
      if probeNeeded s = true ∧ (dsOf s d).probed = false then
        modDs d (fun x => { x with probing := true }) (ssTrained d gen2 (fresh s))
      else presentConn d true (ssTrained d gen2 (fresh s))) := by
  exact (if_neg (by simp [polls])).trans ((if_neg (by simp [detected, polls, unfenced])).trans
    (congrArg Host.Outcome.next (if_congr (by simp) rfl rfl)))

theorem execSsLinkUp_recovered {gen2 : Bool} (recovers : (dsOf s d).link = .recovery) (noReset : (dsOf s d).ssReset = none)
    (notExiting : (linkOf s (dsPort d)).exiting = false) :
    execSsLinkUp d gen2 s =
      .next (flushHdr (dsPort d) 64 (resend (dsPort d) (modDs d (fun x => { x with link := .u0 }) (fresh s)))) :=
  if_pos (by simp [recovers, noReset, notExiting])

theorem execSsTrainingFail_next (detected : (dsOf s d).rxDet = true) :
    execSsTrainingFail d s = .next (chgPort d true .configError
      (modDs d (fun x => { x with rxDet := false, ssFailed := true, link := .rxDetect, gen := 0 }) (fresh s))) :=
  congrArg Host.Outcome.next (if_pos detected)

/-- The rules matched from a probe's reads, and the match remembered; a device without SuperSpeed leaves it (R126, R127). -/
def probeMatched (d : DS) (i : DevId) (s : State) : State :=
  let matched := modDs d (fun x => { x with probing := false, probed := true }) (applyRules d i true s)
  let remembered := putSeen d 0 { rule := (dsOf matched d).rule, quirks := (dsOf matched d).quirks, done := true } matched
  modDs d (fun x => if bit (dsOf matched d).quirks 1 then { x with link := .rxDetect, gen := 0, rxDet := false } else x) remembered

/-- The connections of a probed device that are not yet shown (R127, R285). -/
def probeReported (d : DS) (s : State) : State :=
  let reported2 := if (dsOf s d).conn2 && !(dsOf s d).shown2 then presentConn d false s else s
  if (dsOf s d).link == .u0 && !(dsOf s d).shown3 then presentConn d true reported2 else reported2

theorem execIdentityProbe_next {i : DevId} (probes : (dsOf s d).probing = true) :
    execIdentityProbe d i s = .next (probeReported d (probeMatched d i (fresh s))) :=
  if_neg (by simp [probes])

end

/-! ### Detach (R160, R289) -/

section
variable {s : State} {d : DS}

theorem execUsb2Disconnect_next {ns : Nat} (connected : (dsOf s d).conn2 = true) (noReset : (dsOf s d).resetAt = none)
    (lost : (dsOf s d).speed2 = some .hs ∨ 2500 ≤ ns) :
    execUsb2Disconnect d ns s = .next (detachData d true false (fresh s)) := by
  refine if_neg ?_
  rcases lost with high | long
  · simp [connected, noReset, high]
  · simp [connected, noReset, long]

/-- A SuperSpeed link that is lost: a detach where no termination is left, else SS.Inactive with its report (R160, R289, R298). -/
def ssLost (d : DS) (noTerm : Bool) (s : State) : State :=
  if noTerm then detachData d false true s
  else linkFailed d (modDs d (fun x => { x with link := .inactive }) s)

theorem execSsDisconnect_next {noTerm : Bool} (detected : (dsOf s d).link ≠ .rxDetect) (trained : (dsOf s d).link ≠ .polling) :
    execSsDisconnect d noTerm s = .next (ssLost d noTerm (fresh s)) :=
  (if_neg (by simp [detected, trained])).trans (apply_ite Host.Outcome.next _ _ _).symm

end

/-- Settles O19: each row keeps the parts its law in Laws/Kept.lean does not name, and its conditions select the branch in which it acts;
a wake from SUSPEND leaves a port's owner, its hub's link and the time as they are. -/
theorem wakesOfDevicesAndAttachRun : Obligations.WakesOfDevicesAndAttachRun := by
  refine ⟨?usb2Wake, ?ssWake, ?hubEvent, ?receiverDetect, ?connect, ?linkUp, ?recovered, ?trainingFail, ?probe, ?usb2Disconnect,
    ?ssDisconnect⟩
  case usb2Wake =>
    rintro s d _ n ⟨rfl, suspended, idle, notPending, long, free, unowned⟩
    exact runs_to_of_kept (execDeviceRemoteWake_kept d false n s)
      (execDeviceRemoteWake_usb2 suspended idle notPending long free unowned)
  case ssWake =>
    rintro s d _ n u ⟨rfl, asleep, idle, notPending, free, owned⟩
    exact runs_to_of_kept (execDeviceRemoteWake_kept d true n s)
      (execDeviceRemoteWake_ss asleep idle notPending free owned)
  case hubEvent =>
    rintro s d b e u v ⟨slot, suspended, enabled, masked⟩
    exact runs_to_of_kept (execHubEventRemoteWake_kept d b e s) (execHubEventRemoteWake_next slot suspended enabled masked)
  case receiverDetect =>
    rintro s d ⟨watched, unfenced, allowed, notHeld, notFailed, waits, locked⟩
    exact runs_of_kept_next (execSsReceiverDetectStart_kept d s)
      (execSsReceiverDetectStart_next watched unfenced allowed notHeld notFailed waits locked)
      ⟨by simp, fun e other => by simp [other]⟩
  case connect =>
    rintro s d b n ⟨watched, notYet, long⟩
    exact runs_to_of_kept (execUsb2Connect_kept d b n s) (execUsb2Connect_next watched notYet long)
  case linkUp =>
    rintro s d b ⟨detected, polls, unfenced⟩
    exact runs_to_of_kept (execSsLinkUp_kept d b s) (execSsLinkUp_trained detected polls unfenced)
  case recovered =>
    rintro s d b ⟨recovers, noReset, notExiting⟩
    exact runs_to_of_kept (execSsLinkUp_kept d b s) (execSsLinkUp_recovered recovers noReset notExiting)
  case trainingFail =>
    intro s d detected
    exact runs_of_kept_next (execSsTrainingFail_kept d s) (execSsTrainingFail_next detected)
      ⟨by simp, fun e other => by simp [other]⟩
  case probe =>
    intro s d i probes
    exact runs_to_of_kept (execIdentityProbe_kept d i s) (execIdentityProbe_next probes)
  case usb2Disconnect =>
    rintro s d n ⟨connected, noReset, lost⟩
    exact runs_to_of_kept (execUsb2Disconnect_kept d n s) (execUsb2Disconnect_next connected noReset lost)
  case ssDisconnect =>
    rintro s d b ⟨detected, trained⟩
    exact runs_to_of_kept (execSsDisconnect_kept d b s) (execSsDisconnect_next detected trained)

end Sys2Proof.Machine
end

section
/-! SUPPORT. The Type-C state machine of a port: the next state of each row where its conditions hold (R302, R304–R309, R313, R349). -/

set_option Elab.async false

namespace Sys2Proof.Machine

/-- Updates of a port's Type-C state that agree on its present value lead to one state. -/
theorem modTc_congr {p : Port} {f g : Tc → Tc} {s : State} (h : f (tcOf s p) = g (tcOf s p)) : modTc p f s = modTc p g s :=
  congrArg (fun t => { s with tc := s.tc.set p t }) h

/-! ### Patterns and their debounces (R305, R306, R309, R362) -/

section
variable {s : State} {p : Port}

/-- A pattern noted on a port: an attached port takes the pattern alone, any other port the time since which it is stable too (R305). -/
def patternNoted (p : Port) (c : CcPattern) (flip : Bool) (s : State) : State :=
  modTc p (fun t => if t.st == .attached then { t with pattern := c } else markPattern c flip t s.now) s

@[simp] theorem tcOf_patternNoted_st (c : CcPattern) (flip : Bool) : (tcOf (patternNoted p c flip s) p).st = (tcOf s p).st := by
  simp only [patternNoted, tcOf_modTc_self]
  split <;> rfl

/-- On a port that is not attached, the time since which the pattern is stable is kept or begun anew (R305). -/
theorem patternNoted_of_not_attached {c : CcPattern} {flip : Bool} (free : (tcOf s p).st ≠ .attached) :
    patternNoted p c flip s = modTc p (fun t => markPattern c flip t s.now) s := by
  refine modTc_congr (if_neg (by simpa using free))

/-- A pattern judged on an unattached port, by the kind of port it is (R305, R308). -/
def portSees (p : Port) (c : CcPattern) (s : State) : State := if (portDs p).isSome then dsSees p c s else usSees p c s

theorem execCcPatternChange_unpopulated {c : CcPattern} {flip : Bool} (absent : populated s p = false) :
    execCcPatternChange p c flip s = .next (patternNoted p c flip (fresh s)) :=
  if_pos (by simp [absent])

theorem execCcPatternChange_unattached {c : CcPattern} {flip : Bool} (present : populated s p = true)
    (free : (tcOf s p).st = .unattached) (runs : thymeDown s p = false) (closed : c ≠ .opn) :
    execCcPatternChange p c flip s =
      .next (suspendWake 3 (portCode p) 0 (portSees p c (patternNoted p c flip (fresh s)))) := by
  have st : (tcOf (patternNoted p c flip (fresh s)) p).st = .unattached := by simp [free]
  have notOpen : ¬ (c == .opn) = true := by simp [closed]
  refine (if_neg (by simp [present])).trans ?_
  rw [← patternNoted, st]
  simp only [thymeDown_fresh, runs, if_neg notOpen]
  rfl

/-- An attach judged after tCCDebounce, with VBS read (R306, R362). -/
def attachJudged (p : Port) (vbs : Nat) (s : State) : State :=
  modPwr p (fun x => { x with vbs := vbs }) (advanceTo ((tcOf s p).since + 120000000) (fresh s))

theorem ccAttachDebounce_acts (waits : (tcOf s p).st = .waitSrc) (steady : (tcOf s p).lossAt = none)
    (downstream : (portDs p).isSome = true) (runs : thymeDown s p = false) (may : attachMay s p = true) :
    ¬ ((tcOf (fresh s) p).st != .waitSrc || (tcOf (fresh s) p).lossAt.isSome || (portDs p).isNone || thymeDown (fresh s) p ||
      !attachMay (fresh s) p) = true := by
  have notNone : (portDs p).isNone = false := by simpa using downstream
  simp [waits, steady, runs, may, notNone]

theorem execCcAttachDebounce_attaches {vbs : Nat} (waits : (tcOf s p).st = .waitSrc) (steady : (tcOf s p).lossAt = none)
    (downstream : (portDs p).isSome = true) (runs : thymeDown s p = false) (may : attachMay s p = true) (low : vbs < 800) :
    execCcAttachDebounce p vbs none s = .next (attachSrc p (attachJudged p vbs s)) :=
  (if_neg (ccAttachDebounce_acts waits steady downstream runs may)).trans (if_neg (by omega))

theorem execCcAttachDebounce_counts {vbs : Nat} {wet : Option (Fin 4 × Nat)} (waits : (tcOf s p).st = .waitSrc)
    (steady : (tcOf s p).lossAt = none) (downstream : (portDs p).isSome = true) (runs : thymeDown s p = false)
    (may : attachMay s p = true) (high : 800 ≤ vbs) (first : (tcOf s p).waitCounted = false) :
    execCcAttachDebounce p vbs wet s = .next
      (modTc p (fun x => { x with vbusWaits := x.vbusWaits + 1, waitCounted := true }) (attachJudged p vbs s)) :=
  (if_neg (ccAttachDebounce_acts waits steady downstream runs may)).trans
    ((if_pos high).trans (congrArg Host.Outcome.next (if_neg (by simp [first]))))

/-- What tPDDebounce ends in each state: a wait, or the attachment of a source (R306, R309). -/
def detachDebounced (p : Port) (t : Tc) (s : State) : State := match t.st with
  | .waitSrc | .waitSnk => toUnattached p s
  | .attached => if t.src then detachPort p s else s
  | _ => s

theorem execCcDetachDebounce_next {t0 : Nat} (lost : (tcOf s p).lossAt = some t0) (runs : thymeDown s p = false) :
    execCcDetachDebounce p s = .next (detachDebounced p (tcOf s p) (advanceTo (t0 + 12000000) (fresh s))) := by
  simp only [execCcDetachDebounce, detachDebounced, tcOf_fresh, thymeDown_fresh, lost, runs]
  cases (tcOf s p).st <;> rfl

/-- A port after ErrorRecovery: what it still sees is judged anew (R306, R521). -/
def errorRecovered (p : Port) (s : State) : State :=
  if populated s p = false then s else portSees p (tcOf s p).pattern s

theorem execErrorRecoveryEnd_next {t0 : Nat} (recovers : (tcOf s p).st = .errorRecovery) (since : (tcOf s p).errAt = some t0) :
    execErrorRecoveryEnd p s = .next (errorRecovered p (toUnattached p (advanceTo (t0 + 30000000) (fresh s)))) := by
  simp only [execErrorRecoveryEnd, tcOf_fresh, recovers, since]
  exact congrArg Host.Outcome.next (if_congr (by simp) rfl rfl)

end

/-! ### Dual role (R304, R308, R309) -/

section
variable {s : State} {u : US}

/-- The termination of an unattached upstream port toggled at its half of tDRP (R308). -/
def toggled (p : Port) (s : State) : State :=
  let due := advanceTo ((tcOf s p).togAt + 31250000) s
  modTc p (fun x => { x with drpSrc := !x.drpSrc, togAt := due.now }) due

theorem execDrpToggle_next (free : (tcOf s (usPort u)).st = .unattached) (present : populated s (usPort u) = true) :
    execDrpToggle u s = .next (usSees (usPort u) (tcOf (toggled (usPort u) (fresh s)) (usPort u)).pattern
      (toggled (usPort u) (fresh s))) :=
  if_neg (by simp [free, present])

theorem execDrpAttachDebounce_sink {vbs : Nat} (runs : thymeDown s (usPort u) = false) (present : populated s (usPort u) = true)
    (unguarded : (tcOf s (usPort u)).preCheck = false) (waits : (tcOf s (usPort u)).st = .waitSnk)
    (steady : (tcOf s (usPort u)).lossAt = none) (seesRp : (tcOf s (usPort u)).pattern = .rp) (fed : 4750 ≤ vbs)
    (notTry : (pwrOf s (usPort u)).pol.pref ≠ 1) :
    execDrpAttachDebounce u vbs s = .next (attachSnk (usPort u) (advanceTo ((tcOf s (usPort u)).since + 120000000)
      (modPwr (usPort u) (fun x => { x with vbs := vbs }) (fresh s)))) := by
  refine (if_neg (by simp [runs, present, unguarded])).trans ?_
  simp only [tcOf_fresh, waits]
  refine (if_neg (by simp [steady, seesRp, fed])).trans (congrArg Host.Outcome.next (if_neg (by simp [notTry])))

theorem execUsPartnerRpChange_next {l : Fin 4} (sink : isSink s (usPort u) = true) :
    execUsPartnerRpChange u l s = .next (modTc (usPort u) (fun t => { t with partnerRp := l.val }) (fresh s)) :=
  congrArg Host.Outcome.next (if_pos (by simp [sink]))

/-- A sink without VBUS: marked while a Fast Role Swap or a power swap is under way, else detached (R283, R309). -/
def sinkStarved (p : Port) (s : State) : State :=
  if (pwrOf s p).frs.isSome = true ∨ (pwrOf s p).swap.any (fun x => x.kind == 0 && x.phase != 0) = true then
    modPwr p (fun x => { x with frsLost := true }) s
  else detachPort p s

theorem execUsSinkVbusLoss_next (sink : isSink s (usPort u) = true) :
    execUsSinkVbusLoss u s = .next (sinkStarved (usPort u) (fresh s)) := by
  refine (if_neg (by simp [sink])).trans ?_
  rw [sinkStarved, apply_ite Host.Outcome.next]
  exact if_congr (by simp) rfl rfl

end

/-! ### Detach in hardware (R302, R311, R349) -/

section
variable {s : State} {p : Port}

/-- PSC taken low by the guard of a port whose Thyme is down (R302). -/
def guardDetach (p : Port) (s : State) : State := modTc p (fun y => { y with guardDetached := true }) (pscLow p s)

theorem execHardwareDetachGuard_next {t0 : Nat} (lost : (tcOf s p).lossAt = some t0) (down : thymeDown s p = true)
    (source : isSource s p = true) :
    execHardwareDetachGuard p s = .next (guardDetach p (advanceTo (t0 + 12000000) (fresh s))) := by
  simp only [execHardwareDetachGuard, tcOf_fresh, lost]
  exact if_neg (by simp [down, source])

/-- A connector found open in a transition, with VBS read (R349). -/
def removalSeen (p : Port) (vbs : Nat) (s : State) : State :=
  modPwr p (fun y => { y with vbs := vbs }) (modTc p (fun y => { y with pattern := .opn }) s)

/-- A source detached in a transition: its charge released, and a guard reading due before the next attach (R349). -/
def removalDetach (p : Port) (s : State) : State :=
  let detached := detachPort p (notice p (.fastRemoval s.now) s)
  modTc p (fun y => { y with preCheck := true })
    (modPwr p (fun y => { y with off0 := false, offCharge := 0 }) (modPhy p (fun y => { y with notices := [] }) detached))

/-- The event of a fast removal: the transition it met and the voltage read (R349). -/
def removalEvent (p : Port) (v : VTrans) (vbs : Nat) (s : State) : State :=
  portEvent p 2 (le 2 v.fromMv ++ le 2 v.toMv ++ le 2 vbs ++ [0, 0]) [] s

theorem execFastRemoval_down {vbs : Nat} {v : VTrans} (moves : (pwrOf s p).trans = some v) (source : isSource s p = true)
    (down : thymeDown s p = true) :
    execFastRemoval p vbs s = .next (removalEvent p v vbs (guardDetach p (removalSeen p vbs (fresh s)))) := by
  simp only [execFastRemoval, pwrOf_fresh, thymeDown_fresh, moves, down]
  exact if_neg (by simp [source])

theorem execFastRemoval_runs {vbs : Nat} {v : VTrans} (moves : (pwrOf s p).trans = some v) (source : isSource s p = true)
    (runs : thymeDown s p = false) :
    execFastRemoval p vbs s = .next (removalEvent p v vbs (removalDetach p (removalSeen p vbs (fresh s)))) := by
  simp only [execFastRemoval, pwrOf_fresh, thymeDown_fresh, moves, runs]
  exact if_neg (by simp [source])

end

/-! ### Cable discovery (R313) -/

section
variable {s : State} {p : Port} {t0 : Nat}

theorem execVconnStable_next (applied : (tcOf s p).vconnAt = some t0) (runs : thymeDown s p = false) :
    execVconnStable p s = .next (
      let stable := modTc p (fun y => { y with vconnAt := none }) (advanceTo (t0 + 50000000) (fresh s))
      if (tcOf s p).debugAcc = true ∨ (tcOf s p).discDone = true then stable else discoverIdentity p stable) := by
  simp only [execVconnStable, tcOf_fresh, applied]
  exact (if_neg (by simp [runs])).trans (congrArg Host.Outcome.next (if_congr (by simp) rfl rfl))

theorem execDiscoverIdentityRetry_next (sent : (tcOf s p).discAt = some t0) (runs : thymeDown s p = false)
    (powered : (tcOf s p).vconn = true) :
    execDiscoverIdentityRetry p s = .next (
      let due := advanceTo (t0 + 45000000) (fresh s)
      if 20 ≤ (tcOf s p).discTries then discoveryEnds p due else discoverIdentity p due) := by
  simp only [execDiscoverIdentityRetry, tcOf_fresh, sent]
  exact if_neg (by simp [runs, powered])

theorem execDiscoveryCutoff_next (fed : (tcOf s p).vbus5At = some t0) (goesOn : (tcOf s p).discDone = false)
    (runs : thymeDown s p = false) :
    execDiscoveryCutoff p s = .next (discoveryEnds p (advanceTo (t0 + 240000000) (fresh s))) := by
  simp only [execDiscoveryCutoff, tcOf_fresh, fed]
  exact if_neg (by simp [goesOn, runs])

end

/-- Settles O20: each row keeps the parts its law in Laws/Kept.lean does not name, and its conditions select the branch in which it acts;
noting a pattern leaves the state of the port as it was. -/
theorem typecStateMachineRuns : Obligations.TypecStateMachineRuns := by
  refine ⟨?unpopulated, ?unattached, ?attach, ?attachCounted, ?detach, ?recoveryEnd, ?toggle, ?attachSink, ?partnerRp, ?vbusLoss,
    ?hardwareGuard, ?removalDown, ?removal, ?vconn, ?retry, ?cutoff⟩
  case unpopulated =>
    intro s p c f absent
    exact runs_to_of_kept (execCcPatternChange_kept p c f s) (execCcPatternChange_unpopulated absent)
  case unattached =>
    rintro s p c f ⟨present, free, runs, closed⟩
    have noted := patternNoted_of_not_attached (s := fresh s) (p := p) (c := c) (flip := f) (by simp [free])
    have next := execCcPatternChange_unattached (flip := f) present free runs closed
    rw [noted] at next
    exact runs_to_of_kept (execCcPatternChange_kept p c f s) next
  case attach =>
    rintro s p v _ ⟨waits, steady, downstream, runs, may, low, rfl⟩
    exact runs_to_of_kept (execCcAttachDebounce_kept p v none s)
      (execCcAttachDebounce_attaches waits steady downstream runs may low)
  case attachCounted =>
    rintro s p v w ⟨waits, steady, downstream, runs, may, high, first⟩
    exact runs_to_of_kept (execCcAttachDebounce_kept p v w s)
      (execCcAttachDebounce_counts waits steady downstream runs may high first)
  case detach =>
    rintro s p x ⟨lost, runs⟩
    exact runs_to_of_kept (execCcDetachDebounce_kept p s) (execCcDetachDebounce_next lost runs)
  case recoveryEnd =>
    rintro s p x ⟨recovers, since⟩
    exact runs_to_of_kept (execErrorRecoveryEnd_kept p s) (execErrorRecoveryEnd_next recovers since)
  case toggle =>
    rintro s u ⟨free, present⟩
    exact runs_to_of_kept (execDrpToggle_kept u s) (execDrpToggle_next free present)
  case attachSink =>
    rintro s u v ⟨runs, present, unguarded, waits, steady, seesRp, fed, notTry⟩
    exact runs_to_of_kept (execDrpAttachDebounce_kept u v s)
      (execDrpAttachDebounce_sink runs present unguarded waits steady seesRp fed notTry)
  case partnerRp =>
    intro s u l sink
    exact runs_of_kept_next (execUsPartnerRpChange_kept u l s) (execUsPartnerRpChange_next sink)
      ⟨by simp, fun q other => by simp [other]⟩
  case vbusLoss =>
    intro s u sink
    exact runs_to_of_kept (execUsSinkVbusLoss_kept u s) (execUsSinkVbusLoss_next sink)
  case hardwareGuard =>
    rintro s p x ⟨lost, down, source⟩
    exact runs_to_of_kept (execHardwareDetachGuard_kept p s) (execHardwareDetachGuard_next lost down source)
  case removalDown =>
    rintro s p v x ⟨moves, source, down⟩
    exact runs_to_of_kept (execFastRemoval_kept p v s) (execFastRemoval_down moves source down)
  case removal =>
    rintro s p v x ⟨moves, source, runs⟩
    exact runs_to_of_kept (execFastRemoval_kept p v s) (execFastRemoval_runs moves source runs)
  case vconn =>
    rintro s p x ⟨applied, runs⟩
    exact runs_to_of_kept (execVconnStable_kept p s) (execVconnStable_next applied runs)
  case retry =>
    rintro s p x ⟨sent, runs, powered⟩
    exact runs_to_of_kept (execDiscoverIdentityRetry_kept p s) (execDiscoverIdentityRetry_next sent runs powered)
  case cutoff =>
    rintro s p x ⟨fed, goesOn, runs⟩
    exact runs_to_of_kept (execDiscoveryCutoff_kept p s) (execDiscoveryCutoff_next fed goesOn runs)

end Sys2Proof.Machine
end

section
/-! SUPPORT. PD messages on the line, in the FIFOs and in the hands of the Thyme: the next state of each row where its conditions hold
(R12, R301, R314, R315, R320, R321, R325, R327, R347). -/

set_option Elab.async false

namespace Sys2Proof.Machine

/-! ### A transmission discarded (R315) -/

section
variable (p : Port) (s : State)

@[simp] theorem phyOf_swapFail (q : Port) : phyOf (swapFail p s) q = phyOf s q := by
  simp only [phyOf, phy_of_only (swapFail_only .phy p s (by decide) (by decide))]

/-- The PHY after a discard: as it was, or without the staged transmission and with its notice (R315). -/
theorem phyOf_discardTx_cases : phyOf (discardTx p s) p = phyOf s p ∨
    phyOf (discardTx p s) p =
      { phyOf s p with txStaged := none, notices := (phyOf s p).notices ++ [.txDone 2] } := by
  cases staged : (phyOf s p).txStaged with
  | none => simp [discardTx, staged]
  | some m =>
    simp only [discardTx, staged]
    split
    · exact .inl rfl
    · right
      split <;> simp

@[simp] theorem phyOf_discardTx_rxStaged : (phyOf (discardTx p s) p).rxStaged = (phyOf s p).rxStaged := by
  obtain left | left := phyOf_discardTx_cases p s <;> rw [left]

@[simp] theorem phyOf_discardTx_bist : (phyOf (discardTx p s) p).bist = (phyOf s p).bist := by
  obtain left | left := phyOf_discardTx_cases p s <;> rw [left]

@[simp] theorem phyOf_discardTx_lastId : (phyOf (discardTx p s) p).lastId = (phyOf s p).lastId := by
  obtain left | left := phyOf_discardTx_cases p s <;> rw [left]

end

/-! ### A message received (R314, R320) -/

section
variable {s : State} {p : Port} {h : BitVec 16} {l : List Byte}

/-- A message begun on a port's line: its instant is noted, and a transmission not yet begun is discarded (R315). -/
def lineTaken (p : Port) (s : State) : State := discardTx p (modPhy p (fun x => { x with lineAt := s.now }) s)

/-- The message of a header and its data on SOP, at the present lane time (R318). -/
def sopMsg (h : BitVec 16) (l : List Byte) (s : State) : PdMsg := { sop := 0, header := h.toNat, data := l, at_ := s.now }

/-- The GoodCRC of a message on SOP (R314). -/
def acknowledged (p : Port) (h : BitVec 16) (s : State) : State := emit (.goodCrc p 0 (bits h.toNat 11 9)) s

/-- A message into RX staging, its MessageID stored, or all cleared by Soft_Reset; a Revision 2.0 partner is noted (R314, R316). -/
def rxStagedWith (p : Port) (h : BitVec 16) (m : PdMsg) (s : State) : State :=
  modPhy p (fun x => { x with
    lastId := if isCtl m 13 then [] else tabPut x.lastId 0 (bits h.toNat 11 9)
    rev := if bits h.toNat 7 6 = 1 then 2 else x.rev
    rxStaged := some m }) s

theorem execPdMessageReceived_refused (up : pdUp s p = true) (runs : thymeDown s p = false)
    (awake : s.pmu.reported ≠ .suspend) (stays : entering s = false) (occupied : (phyOf s p).rxStaged ≠ none) :
    execPdMessageReceived p 0 h l true s =
      .next (modPhy p (fun x => { x with rxRefused := min 255 (x.rxRefused + 1) }) (lineTaken p (fresh s))) := by
  refine (if_neg (by simp [up, runs])).trans ?_
  rw [suspendWake_awake (by simpa using awake) (by simpa using stays)]
  exact if_pos (by simpa [Option.isSome_iff_ne_none] using occupied)

theorem execPdMessageReceived_testData (up : pdUp s p = true) (runs : thymeDown s p = false)
    (awake : s.pmu.reported ≠ .suspend) (stays : entering s = false) (free : (phyOf s p).rxStaged = none)
    (test : (phyOf s p).bist = 2) :
    execPdMessageReceived p 0 h l true s = .next (acknowledged p h (lineTaken p (fresh s))) := by
  refine (if_neg (by simp [up, runs])).trans ?_
  rw [suspendWake_awake (by simpa using awake) (by simpa using stays)]
  exact (if_neg (by simp [free])).trans (if_pos (by simp [test]))

theorem execPdMessageReceived_stages (up : pdUp s p = true) (runs : thymeDown s p = false)
    (awake : s.pmu.reported ≠ .suspend) (stays : entering s = false) (free : (phyOf s p).rxStaged = none)
    (noTest : (phyOf s p).bist ≠ 2) (new : tabGet (phyOf s p).lastId 0 ≠ some (bits h.toNat 11 9)) :
    execPdMessageReceived p 0 h l true s = .next (deliverRx p (restartTimers p (sopMsg h l s)
      (rxStagedWith p h (sopMsg h l s) (acknowledged p h (lineTaken p (fresh s)))))) := by
  refine (if_neg (by simp [up, runs])).trans ?_
  rw [suspendWake_awake (by simpa using awake) (by simpa using stays)]
  refine (if_neg (by simp [free])).trans ((if_neg (by simp [noTest, new])).trans ?_)
  simp only [Fin.val_zero, true_and]
  rfl

end

/-! ### A message sent (R315, R320, R321) -/

section
variable {s : State} {p : Port} {m : PdMsg}

/-- A message taken from the TX FIFO into TX staging (R320). -/
def txTaken (p : Port) (m : PdMsg) (rest : List PdMsg) (s : State) : State :=
  modPhy p (fun x => { x with tx := rest, txStaged := some m, txStarted := false, txTries := 0 }) s

theorem takeStaged_matches {rest : List PdMsg} (next : (phyOf s p).tx = m :: rest) (free : (phyOf s p).txStaged = none)
    (whole : wordsMatch m = true) : takeStaged p s = txTaken p m rest s := by
  simp only [takeStaged, free, next]
  exact if_pos whole

theorem execPdTxHandover_next {rest : List PdMsg} (next : (phyOf s p).tx = m :: rest) (free : (phyOf s p).txStaged = none)
    (moves : phyStalled s p = false) (whole : wordsMatch m = true) :
    execPdTxHandover p s = .next (
      if s.now < (phyOf s p).lineAt + 30000 ∨ mayStart (txTaken p m rest (fresh s)) p m = false then txTaken p m rest (fresh s)
      else startTx p m (txTaken p m rest (fresh s))) := by
  have taken : takeStaged p (fresh s) = txTaken p m rest (fresh s) := takeStaged_matches next free whole
  have staged : (phyOf (txTaken p m rest (fresh s)) p).txStaged = some m := by simp [txTaken]
  have notStarted : (phyOf (txTaken p m rest (fresh s)) p).txStarted = false := by simp [txTaken]
  have notStalled : ¬ phyStalled (fresh s) p = true := by simp [moves]
  unfold execPdTxHandover
  dsimp only
  rw [if_neg notStalled, taken, staged, phyOf_fresh]
  exact congrArg Host.Outcome.next
    (if_congr (show _ ↔ (txTaken p m rest (fresh s)).now < _ ∨ _ by simp [moves, notStarted]) rfl rfl)

/-- A transmission over, with its result in a notice (R315, R321). -/
def txEnded (p : Port) (result : Nat) (s : State) : State :=
  notice p (.txDone result) (modPhy p (fun x => { x with txStaged := none, txStarted := false, txTries := 0 }) s)

theorem execPdTxGoodcrcTimeout_next (staged : (phyOf s p).txStaged = some m) (started : (phyOf s p).txStarted = true) :
    execPdTxGoodcrcTimeout p s = .next (
      let late := advanceTo ((phyOf s p).txAt + 1000000) (fresh s)
      if (phyOf s p).txTries < (if (phyOf s p).rev = 3 ∨ m.sop = 1 then 3 else 4) then startTx p m late
      else txLost p m (txEnded p 1 late)) := by
  simp only [execPdTxGoodcrcTimeout, phyOf_fresh, staged]
  exact (if_neg (by simp [started])).trans (apply_ite Host.Outcome.next _ _ _).symm

theorem execPdTxDone_next (staged : (phyOf s p).txStaged = some m) (started : (phyOf s p).txStarted = true) :
    execPdTxDone p s = .next (txSent p m (notice p (.txDone 0)
      (modPhy p (fun x => { x with txStaged := none, txStarted := false, txTries := 0, lineAt := s.now }) (fresh s)))) := by
  simp only [execPdTxDone, phyOf_fresh, staged]
  exact if_neg (by simp [started])

end

/-! ### Notices to the Thyme (R301, R320, R321) -/

section
variable {s : State} {p : Port}

/-- What the Thyme does with a message that it has read (R301, R325, R336). -/
def messageRead (p : Port) (m : PdMsg) (s : State) : State :=
  if keepLate s p m then sendHardReset p s
  else if isExt m 18 && isSource s p then
    if (gatherCaps p m s).2 then modPhy p (fun x => { x with inHand := some m }) (gatherCaps p m s).1 else (gatherCaps p m s).1
  else if ownRow s p m then modPhy p (fun x => { x with inHand := some m }) s
  else thymeReply p m s

/-- What the Thyme does at a notice, the messages in the RX FIFO given (R301, R321). -/
def noticeRead (p : Port) (n : Notice) (rx : List PdMsg) (s : State) : State := match n with
  | .rxMsg _ t0 => (match rx with
    | [] => deliverRx p s
    | m0 :: rest => messageRead p (readMessage t0 (messageReads m0)) (deliverRx p (modPhy p (fun x => { x with rx := rest }) s)))
  | .hardResetRx _ => deliverRx p (hardReset p s)
  | .cableResetRx _ => deliverRx p (cableReset p s)
  | _ => deliverRx p s

theorem execThymeNotice_next {n : Notice} {rest : List Notice} (runs : thymeDown s p = false)
    (idle : (phyOf s p).inHand = none) (room : fifoWords (phyOf s p).tx ≤ 16) (oldest : (phyOf s p).notices = n :: rest) :
    execThymeNotice p s = .next (noticeRead p n (phyOf s p).rx (modPhy p (fun x => { x with notices := rest }) (fresh s))) := by
  refine (if_neg (by simp [runs, idle, room])).trans ?_
  simp only [phyOf_fresh, oldest]
  cases n with
  | rxMsg sop t0 =>
    cases (phyOf s p).rx with
    | nil => rfl
    | cons m0 l =>
      simp only [noticeRead, messageRead, apply_ite Host.Outcome.next]
  | _ => rfl

end

/-! ### Resets (R322, R327, R347) -/

section
variable {s : State} {p : Port} {m : PdMsg}

/-- A Hard Reset acted on, or left to a notice while the Thyme is down (R302, R322, R327). -/
def hardResetMet (p : Port) (s : State) : State :=
  if thymeDown s p then notice p (.hardResetRx s.now) (flushPd p 4 s) else hardReset p s

theorem execHardResetReceived_next (up : pdUp s p = true) :
    execHardResetReceived p s =
      .next (hardResetMet p (modPhy p (fun x => { x with bist := 0 }) (suspendWake 4 (portCode p) 0 (fresh s)))) :=
  if_neg (by simp [up])

theorem execHardResetSent_next (up : pdUp s p = true) (runs : thymeDown s p = false) :
    execHardResetSent p s = .next (sendHardReset p (fresh s)) :=
  congrArg Host.Outcome.next (if_pos (by simp [up, runs]))

theorem execCableResetReceived_next {u : US} (up : pdUp s (usPort u) = true) (unpowered : (tcOf s (usPort u)).vconn = false)
    (runs : thymeDown s (usPort u) = false) :
    execCableResetReceived u s = .next (cableReset (usPort u) (fresh s)) :=
  (if_neg (by simp [up, unpowered])).trans (congrArg Host.Outcome.next (if_neg (by simp [runs])))

/-- Soft_Reset answered: the protocol layer restarted, Accept sent, and a source's capabilities due (R314). -/
def softResetAnswered (p : Port) (s : State) : State :=
  if isSource s p then capsAt p s.now (pdCtl p 3 (resetPd p s)) else pdCtl p 3 (resetPd p s)

theorem execSoftResetReceived_next (inHand : (phyOf s p).inHand = some m) (runs : thymeDown s p = false)
    (asks : isCtl m 13 = true) : execSoftResetReceived p s = .next (softResetAnswered p (handed p s)) :=
  congrArg Host.Outcome.next (takeHand_some inHand runs asks)

theorem execGetRevision_next (inHand : (phyOf s p).inHand = some m) (runs : thymeDown s p = false)
    (asks : isCtl m 24 = true) :
    execGetRevision p s = .next (if rev3 s p then pdData p 12 [3 * 2 ^ 28 + 2 * 2 ^ 24 + 2 ^ 20] (handed p s)
      else notSupported p (handed p s)) := by
  rw [← rev3_handed p p s]
  exact congrArg Host.Outcome.next (takeHand_some inHand runs asks)

/-! ### New firmware in the engines (R12, R464) -/

/-- An engine on the staged bundle, taken out of the mask of those that wait (R464). -/
def engineActivated (i : Fin 6) (slot : Nat) (s : State) : State :=
  { s with fw := { s.fw with
    thyMask := s.fw.thyMask - 2 ^ i.val
    thyBundle := s.fw.thyBundle.set i (fld (flashRead s.fw (slotBase slot + 8) 4) 0 4) } }

theorem execThymeActivation_next {i : Fin 6} {slot : Nat} (staged : s.fw.stageSlot = some slot)
    (idle : (allPorts.filter (fun p => portThy p == i)).any (amsRuns s) = false) (named : bit s.fw.thyMask i.val = true) :
    execThymeActivation i s = .next (
      if s.fw.thyMask - 2 ^ i.val = 0 then finalCpl .fwThyme stOk [] (engineActivated i slot (fresh s))
      else engineActivated i slot (fresh s)) := by
  have notBusy : (allPorts.filter (fun p => portThy p == i)).any (amsRuns (fresh s)) = false := idle
  unfold execThymeActivation
  dsimp only
  split
  next absent => simp [staged] at absent
  next n found =>
    obtain rfl : slot = n := by simpa [staged] using found
    exact if_neg (by simp [notBusy, named])

end

/-- Settles O21: each row keeps the parts its law in Laws/Kept.lean does not name, and its conditions select the branch in which it acts;
the discard of a transmission leaves what was received as it was. -/
theorem pdMessagesRun : Obligations.PdMessagesRun := by
  refine ⟨?refused, ?testData, ?handover, ?timeout, ?done, ?notice, ?hardReceived, ?hardSent, ?cable, ?soft, ?revision, ?activation,
    ?stages⟩
  case refused =>
    rintro s p o h l _ ⟨up, runs, rfl, sop, awake, stays, occupied⟩
    obtain rfl : o = 0 := Fin.ext sop
    exact runs_to_of_kept (execPdMessageReceived_kept p 0 h l true s)
      (execPdMessageReceived_refused up runs awake stays occupied)
  case testData =>
    rintro s p o h l _ ⟨up, runs, rfl, sop, awake, stays, free, test⟩
    obtain rfl : o = 0 := Fin.ext sop
    exact runs_to_of_kept (execPdMessageReceived_kept p 0 h l true s)
      (execPdMessageReceived_testData up runs awake stays free test)
  case handover =>
    rintro s p m l ⟨next, free, moves, whole⟩
    exact runs_to_of_kept (execPdTxHandover_kept p s) (execPdTxHandover_next next free moves whole)
  case timeout =>
    rintro s p m ⟨staged, started⟩
    exact runs_to_of_kept (execPdTxGoodcrcTimeout_kept p s) (execPdTxGoodcrcTimeout_next staged started)
  case done =>
    rintro s p m ⟨staged, started⟩
    exact runs_to_of_kept (execPdTxDone_kept p s) (execPdTxDone_next staged started)
  case notice =>
    rintro s p n l ⟨runs, idle, room, oldest⟩
    exact runs_to_of_kept (execThymeNotice_kept p s) (execThymeNotice_next runs idle room oldest)
  case hardReceived =>
    intro s p up
    exact runs_to_of_kept (execHardResetReceived_kept p s) (execHardResetReceived_next up)
  case hardSent =>
    rintro s p ⟨up, runs⟩
    exact runs_to_of_kept (execHardResetSent_kept p s) (execHardResetSent_next up runs)
  case cable =>
    rintro s u ⟨up, unpowered, runs⟩
    exact runs_to_of_kept (execCableResetReceived_kept u s) (execCableResetReceived_next up unpowered runs)
  case soft =>
    rintro s p m ⟨inHand, runs, asks⟩
    exact runs_to_of_kept (execSoftResetReceived_kept p s) (execSoftResetReceived_next inHand runs asks)
  case revision =>
    rintro s p m ⟨inHand, runs, asks⟩
    exact runs_to_of_kept (execGetRevision_kept p s) (execGetRevision_next inHand runs asks)
  case activation =>
    rintro s i n ⟨staged, idle, named⟩
    exact runs_to_of_kept (execThymeActivation_kept i s) (execThymeActivation_next staged idle named)
  case stages =>
    rintro s p o h l _ ⟨up, runs, rfl, sop, awake, stays, free, noTest, new⟩
    obtain rfl : o = 0 := Fin.ext sop
    exact runs_to_of_kept (execPdMessageReceived_kept p 0 h l true s)
      (execPdMessageReceived_stages up runs awake stays free noTest new)

end Sys2Proof.Machine
end

section
/-! SUPPORT. How a Martar command that passes the common checks is completed, by the kind of its answer: a result, a status, or work left
in progress (R429, R436, R437). -/

set_option Elab.async false

namespace Sys2Proof.Machine

section
variable {c : CmdSpec} {f : Req → State → State × Reply} {r : Req} {s t : State}

/-- I2CT's ring takes the commands alone that I2CT may send (R431). -/
theorem ring_ne_i2ct_of_passes (pass : Passes c r s) (h : c.onI2ct = false) : r.ring.val ≠ 4 := by
  intro ring
  have refused : ringAccepts c r s.mbx = false := by simp [ringAccepts, ring, h]
  have fails : precheck c r s ≠ none := by
    unfold precheck firstFail firstFail
    rw [refused]
    split <;> simp
  exact fails pass

/-- So the length limit of I2CT's ring bears on no other command. -/
theorem fitsRing_of_passes (pass : Passes c r s) (h : c.onI2ct = false) (rep : Reply) : FitsRing r rep :=
  fun ring => absurd ring (ring_ne_i2ct_of_passes pass h)

/-- An answer without a result fits every ring. -/
theorem fitsRing_of_empty {rep : Reply} (h : rep.parts = [[]]) : FitsRing r rep := by
  intro _
  simp only [replyBytes, h]
  change 16 + 0 + 4 * (r.flags.toNat % 2) ≤ 255
  omega

/-- A command whose answer is known is completed with it, where its ring has room for it. -/
theorem runCmd_answers {rep : Reply} (pass : Passes c r s) (answer : f r (fresh s) = (t, rep))
    (room : rep.acc.isSome = true → accFull r s = false) (fits : FitsRing r rep) : runCmd c f r s = postReply c.opcode r rep t := by
  rw [runCmd_passes pass (by rwa [answer]) (by rwa [answer]), answer]

/-- A result. -/
theorem runCmd_result {rep : Reply} (pass : Passes c r s) (answer : f r (fresh s) = (t, rep)) (done : rep.acc = none)
    (fits : FitsRing r rep) : runCmd c f r s = postReply c.opcode r rep t :=
  runCmd_answers pass answer (by simp [done]) fits

/-- A status alone. -/
theorem runCmd_status {st : Nat} (pass : Passes c r s) (answer : f r (fresh s) = (t, errR st)) :
    runCmd c f r s = postReply c.opcode r (errR st) t :=
  runCmd_result pass answer rfl (fitsRing_of_empty rfl)

/-- OK without a result. -/
theorem runCmd_done (pass : Passes c r s) (answer : f r (fresh s) = (t, okR [])) :
    runCmd c f r s = postReply c.opcode r (okR []) t :=
  runCmd_result pass answer rfl (fitsRing_of_empty rfl)

/-- Work left in progress. -/
theorem runCmd_accepted {k : AccKey} (pass : Passes c r s) (room : accFull r s = false) (answer : f r (fresh s) = (t, accR k)) :
    runCmd c f r s = postReply c.opcode r (accR k) t :=
  runCmd_answers pass answer (fun _ => room) (fitsRing_of_empty rfl)

end

end Sys2Proof.Machine
end

section
/-! SUPPORT. The commands of Martar as rows: what selects a row, what a row that fails a check answers, what SAFE accepts, and what
COMMAND_TAKE carries out (R418, R425, R428, R430, R445). -/

set_option Elab.async false

namespace Sys2Proof.Machine

/-- Settles O43: the first waiting command is what `step` matches on. -/
theorem stepRunsTheFrontCommand : Obligations.StepRunsTheFrontCommand := fun _ _ _ => rfl

/-! ### A row and its opcode -/

/-- Every Martar row is its command's function behind the common checks, with the completions of work that it found finished. -/
theorem exec_checkedCmd {i : Instr} {c : CmdSpec} {r : Req} (h : checkedCmd i = some (c, r)) :
    ∃ f, ∀ s, exec i s = .next (afterCmd i (runCmd c f r s)) := by
  unfold checkedCmd at h
  split at h <;> cases h <;> exact ⟨_, fun _ => rfl⟩

/-- The opcode of a row's spec selects that row. -/
theorem serveOp_checkedCmd {i : Instr} {c : CmdSpec} {r : Req} (h : checkedCmd i = some (c, r)) (s : State) :
    serveOp c.opcode r s = some (exec i s) := by
  unfold checkedCmd at h
  split at h <;> cases h <;> rfl

/-- An opcode that has a meaning is that of a row. -/
theorem row_of_serveOp {n : Nat} {r : Req} {s : State} (h : serveOp n r s ≠ none) :
    ∃ i c, checkedCmd i = some (c, r) ∧ c.opcode = n := by
  unfold serveOp at h
  split at h
  · exact ⟨.identify r, _, rfl, rfl⟩
  · exact ⟨.modeRequest r, _, rfl, rfl⟩
  · exact ⟨.modeStatus r, _, rfl, rfl⟩
  · exact ⟨.laneTimeRead r, _, rfl, rfl⟩
  · exact ⟨.wakeRecordRead r, _, rfl, rfl⟩
  · exact ⟨.portAssign r, _, rfl, rfl⟩
  · exact ⟨.portStatus r, _, rfl, rfl⟩
  · exact ⟨.guardRuleSet r, _, rfl, rfl⟩
  · exact ⟨.schedSet r, _, rfl, rfl⟩
  · exact ⟨.shaperSet r, _, rfl, rfl⟩
  · exact ⟨.policerSet r, _, rfl, rfl⟩
  · exact ⟨.observeRead r, _, rfl, rfl⟩
  · exact ⟨.placeStatus r, _, rfl, rfl⟩
  · exact ⟨.placePin r, _, rfl, rfl⟩
  · exact ⟨.placeRebuild r, _, rfl, rfl⟩
  · exact ⟨.vigilPolicySet r, _, rfl, rfl⟩
  · exact ⟨.vigilArm r, _, rfl, rfl⟩
  · exact ⟨.vigilStatus r, _, rfl, rfl⟩
  · exact ⟨.captureRead r, _, rfl, rfl⟩
  · exact ⟨.failoverSet r, _, rfl, rfl⟩
  · exact ⟨.failback r, _, rfl, rfl⟩
  · exact ⟨.powerBudgetSet r, _, rfl, rfl⟩
  · exact ⟨.portPowerPolicy r, _, rfl, rfl⟩
  · exact ⟨.contractStatus r, _, rfl, rfl⟩
  · exact ⟨.roleSwap r, _, rfl, rfl⟩
  · exact ⟨.guardStatus r, _, rfl, rfl⟩
  · exact ⟨.dpRoute r, _, rfl, rfl⟩
  · exact ⟨.drawerKick r, _, rfl, rfl⟩
  · exact ⟨.faultRead r, _, rfl, rfl⟩
  · exact ⟨.faultAck r, _, rfl, rfl⟩
  · exact ⟨.faultInject r, _, rfl, rfl⟩
  · exact ⟨.fence r, _, rfl, rfl⟩
  · exact ⟨.unfence r, _, rfl, rfl⟩
  · exact ⟨.almanacRead r, _, rfl, rfl⟩
  · exact ⟨.almanacWrite r, _, rfl, rfl⟩
  · exact ⟨.almanacWear r, _, rfl, rfl⟩
  · exact ⟨.fwStage r, _, rfl, rfl⟩
  · exact ⟨.fwActivate r, _, rfl, rfl⟩
  · exact ⟨.fwStatus r, _, rfl, rfl⟩
  · exact ⟨.loopback r, _, rfl, rfl⟩
  · exact ⟨.echo r, _, rfl, rfl⟩
  · exact ⟨.pattern r, _, rfl, rfl⟩
  · exact ⟨.regRead r, _, rfl, rfl⟩
  · exact ⟨.regWrite r, _, rfl, rfl⟩
  · exact absurd rfl h

/-- An opcode that no row carries has no meaning. -/
theorem serveOp_none {n : Nat} {r : Req} (h : ∀ (i : Instr) (c : CmdSpec), checkedCmd i = some (c, r) → c.opcode ≠ n) (s : State) :
    serveOp n r s = none := by
  by_contra hn
  obtain ⟨i, c, hi, hc⟩ := row_of_serveOp hn
  exact h i c hi hc

/-- Settles O49. -/
theorem everyOpcodeRunsItsRow : Obligations.EveryOpcodeRunsItsRow :=
  ⟨fun _ _ _ s h => serveOp_checkedCmd h s, fun _ _ s h => serveOp_none h s⟩

/-! ### A row that fails a common check -/

/-- A failed check completes the command with its status, and what else the row does is what it does after every completion. -/
theorem exec_refused {i : Instr} {c : CmdSpec} {r : Req} {s : State} {st : Nat} (h : checkedCmd i = some (c, r))
    (hp : precheck c r s = some st) : exec i s = .next (afterCmd i (postReply c.opcode r (errR st) (fresh s))) := by
  obtain ⟨f, hf⟩ := exec_checkedCmd h
  rw [hf, runCmd_refused hp]

/-- With no accepted command under way no work receives a final completion. -/
theorem finalCpl_of_idle {s : State} (h : s.mbx.acc = []) (k : AccKey) (st : Nat) (p : List Byte) : finalCpl k st p s = s := by
  simp [finalCpl, h]

theorem accBusy_of_idle {s : State} (h : s.mbx.acc = []) (k : AccKey) : accBusy k s = false := by
  simp [accBusy, h]

/-- With no accepted command under way a row has nothing to complete besides its own command. -/
theorem afterCmd_of_idle {s : State} (h : s.mbx.acc = []) (i : Instr) : afterCmd i s = s := by
  unfold afterCmd
  split
  · simp [budgetDone, finalCpl_of_idle h]
  · simp [roleSwapDone, accBusy_of_idle h]
  · simp [dpCleared, finalCpl_of_idle h]
  · unfold finishFwStage
    split
    · rfl
    · exact finalCpl_of_idle h ..
  · simp [finishFwActivate, accBusy_of_idle h]
  · rfl

@[simp] theorem flushList_acc (now : Nat) (k : Fin 8) (l : List Entry) (m : Mbx) : (flushList now k l m).1.acc = m.acc := by
  induction l generalizing m with
  | nil => rfl
  | cons e l ih =>
    simp only [flushList]
    split
    · exact ih _
    · rfl

@[simp] theorem flushCpl_acc (now : Nat) (k : Fin 8) (m : Mbx) : (flushCpl now k m).acc = m.acc := by
  simp only [flushCpl]
  split <;> simp

/-- A completion that ends its command keeps no ACCEPTED work. -/
@[simp] theorem postReply_errR_acc (op : Nat) (r : Req) (st : Nat) (s : State) :
    (postReply op r (errR st) s).mbx.acc = s.mbx.acc := flushCpl_acc ..

/-- Settles O48. -/
theorem refusedCommandChangesNothing : Obligations.RefusedCommandChangesNothing := by
  intro i c r s st h hp
  refine ⟨exec_refused h hp, fun idle => ?_⟩
  have idle' : (postReply c.opcode r (errR st) (fresh s)).mbx.acc = [] := by
    rw [postReply_errR_acc]; exact idle
  refine ⟨_, exec_refused h hp, ?_⟩
  rw [afterCmd_of_idle idle']
  refine ⟨fun j hj => ?_, idle', rfl⟩
  simp only [List.mem_cons, List.not_mem_nil, or_false, not_or] at hj
  rw [postReply_only j _ _ _ _ hj.2, fresh_only j _ hj.1]

/-! ### What SAFE accepts -/

/-- On CMD1 the commands of R418 are those whose spec lets SAFE accept them. -/
theorem safeRow_cmd1 {i : Instr} {c : CmdSpec} {r : Req} (h : checkedCmd i = some (c, r)) (hr : r.ring = 1) :
    safeRow i r.ring = c.safeOk r := by
  obtain ⟨k, via, flags, tag, target, p, bad⟩ := r
  obtain rfl : k = 1 := hr
  unfold checkedCmd at h
  split at h <;> cases h <;> first | rfl | exact Bool.and_true _

/-- On CMD0 they are those of them that CMD0 carries at all. -/
theorem safeRow_cmd0 {i : Instr} {c : CmdSpec} {r : Req} (h : checkedCmd i = some (c, r)) (hr : r.ring = 0) :
    safeRow i r.ring = (c.safeOk r && c.onCmd0 r) := by
  obtain ⟨k, via, flags, tag, target, p, bad⟩ := r
  obtain rfl : k = 0 := hr
  unfold checkedCmd at h
  split at h <;> cases h <;> first | rfl | simp [safeRow, specPortPowerPolicy]

/-- On no other ring does SAFE accept a command. -/
theorem safeRow_other {i : Instr} {k : Fin 8} (h0 : k ≠ 0) (h1 : k ≠ 1) : safeRow i k = false := by
  unfold safeRow
  split <;> simp [h0, h1]

theorem modeOk_safe {s : State} (h : s.pmu.reported = .safe) (c : CmdSpec) (r : Req) :
    modeOk c r s = (c.safeOk r && (r.ring.val == 0 || r.ring.val == 1)) := by
  simp [modeOk, h]

/-- SAFE's check of a command that its ring accepts picks the commands of R418. -/
theorem modeOk_safeRow {i : Instr} {c : CmdSpec} {r : Req} {s : State} (h : checkedCmd i = some (c, r))
    (hs : s.pmu.reported = .safe) (ha : ringAccepts c r s.mbx = true) : modeOk c r s = safeRow i r.ring := by
  rw [modeOk_safe hs]
  by_cases h0 : r.ring = 0
  · have carried : c.onCmd0 r = true := by simpa [ringAccepts, h0] using ha
    rw [safeRow_cmd0 h h0, carried]
    simp [h0]
  · by_cases h1 : r.ring = 1
    · rw [safeRow_cmd1 h h1]
      simp [h1]
    · have v0 : r.ring.val ≠ 0 := fun e => h0 (Fin.ext e)
      have v1 : r.ring.val ≠ 1 := fun e => h1 (Fin.ext e)
      rw [safeRow_other h0 h1]
      simp [v0, v1]

/-- A command whose flags, ring, length and reserved fields pass is judged by the mode alone. -/
theorem precheck_of_wellFormed {c : CmdSpec} {r : Req} {s : State} (hf : r.flags.toNat / 16 = 0) (ha : ringAccepts c r s.mbx = true)
    (hl : c.lenOk r.payload = true) (hv : c.resvOk r.payload = true) :
    precheck c r s = if modeOk c r s then none else some stMode := by
  simp [precheck, firstFail, hf, ha, hl, hv]

/-- R418's commands are those that their rings accept. -/
theorem ringAccepts_of_safeRow {i : Instr} {c : CmdSpec} {r : Req} (h : checkedCmd i = some (c, r)) (hs : safeRow i r.ring = true)
    (m : Mbx) : ringAccepts c r m = true := by
  by_cases h0 : r.ring = 0
  · have carried : c.safeOk r = true ∧ c.onCmd0 r = true := by simpa [safeRow_cmd0 h h0] using hs
    simp [ringAccepts, h0, carried.2]
  · by_cases h1 : r.ring = 1
    · simp [ringAccepts, h1]
    · simp [safeRow_other h0 h1] at hs

/-- Settles O54. -/
theorem safeAcceptsItsCommandsAlone : Obligations.SafeAcceptsItsCommandsAlone := by
  refine ⟨fun i c r s h hs hf ha hl hv => ⟨fun row => ?_, fun row => ?_⟩, fun i c r m h row => ringAccepts_of_safeRow h row m,
    fun s hs => ⟨?_, ?_, fun u => ?_⟩⟩
  · rw [precheck_of_wellFormed hf ha hl hv, modeOk_safeRow h hs ha, row, if_pos rfl]
  · have fails : precheck c r s = some stMode := by
      rw [precheck_of_wellFormed hf ha hl hv, modeOk_safeRow h hs ha, row, if_neg Bool.false_ne_true]
    exact ⟨fails, exec_refused h fails⟩
  · simp [takeOrder, hs]
  · simp [i2ctUp, hs]
  · simp [lmfUp, hs]

/-! ### COMMAND_TAKE -/

/-- Where the rings are served, COMMAND_TAKE takes from the ring whose turn it is. -/
theorem execCommandTake_serves {b : Option Nat} {s : State} {k : Fin 8} (ready : s.sup.ready = true) (awake : asleep s = false)
    (sys : s.sup.sysLow = false) (por : s.sup.porLow = false) (on : s.pmu.reported ≠ .off)
    (turn : (takeOrder s).find? (mayTake s) = some k) : execCommandTake b s = takeFrom k b (fresh s) := by
  have awake' : asleep (fresh s) = false := awake
  have turn' : (takeOrder (fresh s)).find? (mayTake (fresh s)) = some k := turn
  simp only [execCommandTake, awake', turn', fresh_sup, fresh_pmu, ready, sys, por]
  simp [on]

/-- Settles O50: the opcode at the head selects the row. -/
theorem takenCommandRunsItsRow : Obligations.TakenCommandRunsItsRow := by
  intro b s i c k n r ready awake sys por on turn head h
  have head' : readHead (fresh s).mbx k b = .cmd n c.opcode r := head
  change execCommandTake b s = _
  rw [execCommandTake_serves ready awake sys por on turn]
  simp only [takeFrom, head', serveOp_checkedCmd h]
  rfl

/-- Settles O51: the three heads that carry no command of the table. -/
theorem badHeadIsSkippedAndAnswered : Obligations.BadHeadIsSkippedAndAnswered := by
  intro b s k ready awake sys por on turn
  have take : exec (.commandTake b) s = takeFrom k b (fresh s) := execCommandTake_serves ready awake sys por on turn
  refine ⟨fun n head => ?_, fun n st op f t head => ?_, fun n op r head none_ => ?_⟩
  · have head' : readHead (fresh s).mbx k b = .bad n := head
    simp only [take, takeFrom, head']
    rfl
  · have head' : readHead (fresh s).mbx k b = .wrong n st op f t := head
    simp only [take, takeFrom, head']
    rfl
  · have head' : readHead (fresh s).mbx k b = .cmd n op r := head
    simp only [take, takeFrom, head', serveOp_none none_]
    rfl

end Sys2Proof.Machine
end

section
/-! SUPPORT. Lane time where no command waits (R395, R396), the reset values of the register tables (R374, R382, R404, R423, R435), and
what a queue selector names (R443). -/

set_option Elab.async false

namespace Sys2Proof.Machine

/-! ### The tick -/

/-- While TB_CLK stands still lane time stands still. -/
theorem tick_stopped {s : State} (h : s.clk.tbOn = false) : tick s = fresh s := by
  simp [tick, h]

/-- One cycle of TB_CLK. -/
theorem tick_runs {s : State} (h : s.clk.tbOn = true) (ref : s.clk.refLost = none) :
    tick s = startUpWakes { fresh s with now := (s.now + 5) % 2 ^ 64 } := by
  simp only [tick, fresh_clk, h, ref]
  rfl

/-- One cycle of AON_RC, as its last calibration scales it. -/
theorem tick_scaled {s : State} {x : Nat} (h : s.clk.tbOn = true) (ref : s.clk.refLost = some x) :
    tick s = startUpWakes { fresh s with
      now := (s.now + (s.clk.frac + 5 * s.clk.calE6) / 1000000) % 2 ^ 64
      clk := { s.clk with frac := (s.clk.frac + 5 * s.clk.calE6) % 1000000 } } := by
  simp only [tick, fresh_clk, h, ref]
  rfl

@[simp] theorem startUpWakes_now (s : State) : (startUpWakes s).now = s.now :=
  now_of_only (startUpWakes_only .now s (by decide) (by decide) (by decide))

@[simp] theorem startUpWakes_clk (s : State) : (startUpWakes s).clk = s.clk :=
  clk_of_only (startUpWakes_only .clk s (by decide) (by decide) (by decide))

/-- Settles O44: the three speeds of the tick. -/
theorem emptyQueueTicks : Obligations.EmptyQueueTicks := by
  intro s empty
  refine ⟨by simp [step, empty], tick_stopped, fun on ref => ?_, fun x on ref => ?_⟩
  · rw [tick_runs on ref]
    refine ⟨startUpWakes_now _, fun j hj => ?_⟩
    simp only [List.mem_cons, List.not_mem_nil, or_false, not_or] at hj
    obtain ⟨out, now, dsd, usd⟩ := hj
    rw [startUpWakes_only j _ out dsd usd, ← fresh_only j s out]
    cases j <;> first | rfl | exact absurd rfl now
  · rw [tick_scaled on ref]
    refine ⟨startUpWakes_now _, by rw [startUpWakes_clk], fun j hj => ?_⟩
    simp only [List.mem_cons, List.not_mem_nil, or_false, not_or] at hj
    obtain ⟨out, now, clk, dsd, usd⟩ := hj
    rw [startUpWakes_only j _ out dsd usd, ← fresh_only j s out]
    cases j <;> first | rfl | exact absurd rfl now | exact absurd rfl clk

/-! ### Reset -/

@[simp] theorem tcOf_reset (p : Port) : tcOf State.reset p = {} := by
  simp [tcOf, State.reset]

/-- Settles O46: at reset no port is attached. -/
theorem reservedStateHoldsAtReset : Obligations.ReservedStateHoldsAtReset :=
  ⟨reset_canon, fun d h => absurd h (by simp), rfl⟩

/-- At reset every fault record is blank. -/
@[simp] theorem fltRec_reset (b : Block) : fltRec State.reset b = {} := by
  simp [fltRec, State.reset, coldFlt, recAt]

/-- At reset no policy word is written. -/
@[simp] theorem valueWord_reset (w : Nat) : valueWord State.reset w = none := rfl

/-- At reset the words of a fault record that carry no policy are 0 (R404). -/
theorem fltWord_reset_zero (b : Block) {i : Nat} (hi : i ∈ [0, 1, 2, 3, 6, 9, 10]) : fltWord State.reset b i = 0 := by
  simp only [List.mem_cons, List.not_mem_nil, or_false] at hi
  obtain rfl | rfl | rfl | rfl | rfl | rfl | rfl := hi <;> simp [fltWord, fltStatusWord, b2n]

/-- FLT_RECOV at reset: no re-admission counted, and the limit of R404. -/
theorem fltWord_reset_recov (b : Block) : fltWord State.reset b 7 = (if privileged b then 3 else 10) * 2 ^ 16 := by
  have count : fltCount State.reset b = 0 := by simp [fltCount]
  have limit : fltLimit State.reset b = if privileged b then 3 else 10 := rfl
  have word : fltWord State.reset b 7 = min 0xFFFF (fltCount State.reset b) + 2 ^ 16 * fltLimit State.reset b := rfl
  rw [word, count, limit, Nat.min_zero, Nat.zero_add, Nat.mul_comm]

/-- FLT_QUIET at reset (R404). -/
theorem fltWord_reset_quiet (b : Block) : fltWord State.reset b 8 = 2000 + 5000 * 2 ^ 16 := by
  have uc : quietUc State.reset b = 2000 := rfl
  have ft : quietFt State.reset b = 5000 := rfl
  have word : fltWord State.reset b 8 = quietUc State.reset b + 2 ^ 16 * quietFt State.reset b := rfl
  rw [word, uc, ft, Nat.mul_comm]

/-- The version register and SPIT's interrupt registers at reset (R435). -/
theorem transportReg_reset : transportReg State.reset 0x000 = 0x4D540100 ∧ transportReg State.reset 0x010 = 0 ∧
    transportReg State.reset 0x014 = 0x0FFF ∧ transportReg State.reset 0x020 = 1 ∧ transportReg State.reset 0xC04 = 0 :=
  ⟨rfl, rfl, rfl, rfl, rfl⟩

/-- The rings' geometry at reset (R423). -/
theorem ringGeom_reset :
    (List.range 16).map (fun r => transportReg State.reset (0x100 + 16 * r) % 1024) =
      [0, 32, 288, 544, 800, 832, 896, 960, 16, 160, 416, 672, 816, 864, 928, 992] ∧
    (List.range 16).map (fun r => 2 ^ (transportReg State.reset (0x100 + 16 * r) / 1024)) =
      [16, 128, 128, 128, 16, 32, 32, 32, 16, 128, 128, 128, 16, 32, 32, 32] :=
  ⟨by decide, by decide⟩

/-- Settles O53. -/
theorem resetLeavesTheStatedValues : Obligations.ResetLeavesTheStatedValues := by
  obtain ⟨version, status, enable, assign, prio⟩ := transportReg_reset
  obtain ⟨base, depth⟩ := ringGeom_reset
  exact ⟨by decide, by decide, fun b i hi => fltWord_reset_zero b hi, fltWord_reset_recov, fltWord_reset_quiet, version, status, enable,
    assign, prio, by decide, by decide, base, depth, by decide, by decide, rfl⟩

/-! ### Queue selectors -/

/-- The selector's search names exactly the queues of R443. -/
theorem qselNames_iff (d : DS) (p : List Byte) (off : Nat) (e : Epq) (dir : ¬ fld p (off + 2) 1 > 1) :
    (!e.closed && e.port == d && e.hubPort == fld p off 1 && e.ep == fld p (off + 1) 1 &&
      (e.ep == 0 || e.dirIn == decide (fld p (off + 2) 1 = 1))) = true ↔ QselNames d p off e := by
  have dir' : fld p (off + 2) 1 = 0 ∨ fld p (off + 2) 1 = 1 := by omega
  simp [QselNames, dir', and_assoc]

/-- A direction other than OUT and IN names no queue. -/
theorem not_qselNames {d : DS} {p : List Byte} {off : Nat} {e : Epq} (dir : fld p (off + 2) 1 > 1) : ¬ QselNames d p off e := by
  rintro ⟨-, -, -, -, h, -⟩
  omega

/-- The queue found is an open one that the selector names. -/
theorem qselQueue_some {s : State} {d : DS} {p : List Byte} {off n : Nat} {e : Epq} (h : qselQueue s d p off = some (n, e)) :
    (n, e) ∈ s.epqs ∧ QselNames d p off e := by
  simp only [qselQueue] at h
  split at h
  · cases h
  · rename_i dir
    have names := List.find?_some h
    exact ⟨List.mem_of_find?_eq_some h, (qselNames_iff d p off e dir).mp names⟩

/-- Where none is found the selector names none. -/
theorem qselQueue_none {s : State} {d : DS} {p : List Byte} {off : Nat} (h : qselQueue s d p off = none) (x : Nat × Epq)
    (hx : x ∈ s.epqs) : ¬ QselNames d p off x.2 := by
  simp only [qselQueue] at h
  split at h
  · exact not_qselNames ‹_›
  · rename_i dir
    exact fun names => List.find?_eq_none.mp h x hx ((qselNames_iff d p off x.2 dir).mpr names)

/-- Settles O55: each of the five commands asks the selector before its other checks of the queue. -/
theorem qselNamesAnOpenQueueOrBadTarget : Obligations.QselNamesAnOpenQueueOrBadTarget := by
  refine ⟨fun s d p off n e => qselQueue_some, fun s d p off h => qselQueue_none h,
    fun r s d target => ⟨fun pass kind none_ => ?_, fun none_ => ⟨fun pass => ?_, fun pass => ?_, fun pass port => ?_, fun pass => ?_⟩⟩⟩
  · have none' : qselQueue (fresh s) d r.payload 4 = none := none_
    refine congrArg _ (runCmd_status pass ?_)
    simp only [cmdSchedSet, kind, target, none']
    split <;> rfl
  · have none' : qselQueue (fresh s) d r.payload 0 = none := none_
    exact congrArg _ (runCmd_status pass (by simp only [cmdShaperSet, target, none']))
  · have none' : qselQueue (fresh s) d r.payload 0 = none := none_
    exact congrArg _ (runCmd_status pass (by simp only [cmdPolicerSet, target, none']))
  · have none' : qselQueue (fresh s) d r.payload 0 = none := none_
    refine congrArg _ (runCmd_status pass ?_)
    simp only [cmdObserveRead, port, target, none', Bool.false_eq_true, if_false]
  · have none' : qselQueue (fresh s) d r.payload 0 = none := none_
    exact congrArg _ (runCmd_status pass (by simp only [cmdPlacePin, target, none']))

end Sys2Proof.Machine
end

section
/-! SUPPORT. What the Martar commands of chapter 19 answer where their checks pass (R449–R468). -/

set_option Elab.async false

namespace Sys2Proof.Machine

section
variable {s : State} {r : Req}

/-! ### System commands (R449, R465) -/

theorem execIdentify_next (pass : Passes specIdentify r s) (bare : noTarget r = true) (fits : FitsRing r (okR (identifyResult s))) :
    execIdentify r s = .next (postReply 0x0101 r (okR (identifyResult s)) (fresh s)) :=
  congrArg _ (runCmd_result pass (if_pos bare) rfl fits)

theorem execEcho_next (pass : Passes specEcho r s) (bare : noTarget r = true) (fits : FitsRing r (okR r.payload)) :
    execEcho r s = .next (postReply 0x0B02 r (okR r.payload) (fresh s)) :=
  congrArg _ (runCmd_result pass (if_pos bare) rfl fits)

/-- A run mode or SERVICE without KEEP: what the request does is its answer. -/
theorem cmdModeRequest_run {m : Mode} (named : idMode (fld r.payload 0 1) = some m) (accepted : targetAccepted s m = true)
    (bare : noTarget r = true) (level : (modeLevel m).isSome = true) (awake : sleepMode m = false) (alarm : fld r.payload 4 8 = 0)
    (keep : bit (fld r.payload 1 1) 0 = false) (room : accFull r s = false) :
    cmdModeRequest r (fresh s) = requestRun m (fresh s) := by
  have accepted' : targetAccepted (fresh s) m = true := accepted
  have room' : accFull r (fresh s) = false := room
  obtain ⟨l, hl⟩ := Option.isSome_iff_exists.mp level
  simp [cmdModeRequest, named, accepted', bare, hl, awake, alarm, keep, room']

/-- A sleep mode without KEEP. -/
theorem cmdModeRequest_sleep {m : Mode} (named : idMode (fld r.payload 0 1) = some m) (accepted : targetAccepted s m = true)
    (bare : noTarget r = true) (asleep : sleepMode m = true) (keep : bit (fld r.payload 1 1) 0 = false) :
    cmdModeRequest r (fresh s) = requestSleep { target := m, opp := 0, req := none, alarm := fld r.payload 4 8 } (fresh s) := by
  have accepted' : targetAccepted (fresh s) m = true := accepted
  simp [cmdModeRequest, named, accepted', bare, asleep, keep]

/-- Settles O32. -/
theorem systemCommandsRun : Obligations.SystemCommandsRun := by
  refine ⟨?identify, ?modeStatus, ?laneTime, ?wakeRecord, ?echo, ?run, ?sleep⟩
  case identify =>
    rintro s r ⟨pass, bare, fits⟩
    exact runs_to_of_kept (execIdentify_kept r s) (execIdentify_next pass bare fits)
  case modeStatus =>
    rintro s r ⟨pass, bare, fits⟩
    exact runs_to_of_kept (execModeStatus_kept r s) (congrArg _ (runCmd_result pass (if_pos bare) rfl fits))
  case laneTime =>
    rintro s r ⟨pass, bare, fits⟩
    exact runs_to_of_kept (execLaneTimeRead_kept r s) (congrArg _ (runCmd_result pass (if_pos bare) rfl fits))
  case wakeRecord =>
    rintro s r ⟨pass, bare, fits⟩
    exact runs_to_of_kept (execWakeRecordRead_kept r s) (congrArg _ (runCmd_result pass (if_pos bare) rfl fits))
  case echo =>
    rintro s r ⟨pass, bare, fits⟩
    exact runs_to_of_kept (execEcho_kept r s) (execEcho_next pass bare fits)
  case run =>
    rintro s r m ⟨pass, room, named, accepted, bare, level, awake, alarm, keep, fits⟩
    exact runs_to_of_kept (execModeRequest_kept r s)
      (congrArg _ (runCmd_answers pass (cmdModeRequest_run named accepted bare level awake alarm keep room) (fun _ => room) fits))
  case sleep =>
    rintro s r m ⟨pass, room, named, accepted, bare, -, asleep, keep, fits⟩
    exact runs_to_of_kept (execModeRequest_kept r s)
      (congrArg _ (runCmd_answers pass (cmdModeRequest_sleep named accepted bare asleep keep) (fun _ => room) fits))

/-! ### Ports and guard (R450–R452, R461, R476) -/

/-- A move without options of a port that is neither sealed, fenced, another hub's nor moving already. -/
theorem cmdPortAssign_move {d : DS} {o : Option US} (target : targetDs r = some d) (code : codeOwner (fld r.payload 0 1) = some o)
    (move : o ≠ ownerOf s d)
    (slot : ∀ u, o = some u → (if (hubOf s u).connected then (hubOf s u).active else (hubOf s u).conf).contains (.port d) = true)
    (keep : fld r.payload 1 1 ≤ 1) (opts : fld r.payload 2 1 = 0) (code0 : fld r.payload 20 16 = 0) (open_ : isSealed s d = false)
    (own : ∀ u, reqHub r = some u → ownerOf s d ≠ some u.other ∧ o ≠ some u.other) (fence : portFenced s (dsPort d) = false)
    (still : s.own.move[d] = none) :
    cmdPortAssign r (fresh s) = ({ fresh s with own := { s.own with move := s.own.move.set d (some
      { dest := o, keep := decide (fld r.payload 1 1 = 1) && keepPossible s d o, phase := 1, startAt := s.now, cause := 0
        old := ownerOf s d }) } }, accR (.assign d)) := by
  have keep' : ¬ fld r.payload 1 1 > 1 := by omega
  have noOpt (i : Nat) : bit 0 i = false := by simp [bit]
  simp only [cmdPortAssign, target, assignPort, code, opts, noOpt, isSealed_fresh, open_, keep', code0]
  cases o with
  | none =>
    cases hub : reqHub r with
    | none => simp [move, fence, still, applySlots, persist_nil]
    | some u => simp [move, fence, still, applySlots, persist_nil, own u hub]
  | some v =>
    have slot' : (if (hubOf (fresh s) v).connected then (hubOf (fresh s) v).active else (hubOf (fresh s) v).conf).contains (.port d) =
        true := slot v rfl
    simp only [Bool.false_eq_true, if_false, slot']
    cases hub : reqHub r with
    | none => simp [move, fence, still, applySlots, persist_nil]
    | some u =>
      have other : v ≠ u.other := fun same => (own u hub).2 (congrArg some same)
      simp [move, fence, still, applySlots, persist_nil, other, own u hub]

/-- A port's status, where the port is open to the sender. -/
theorem cmdPortStatus_open {p : Port} (target : targetPort r = some p) (gate : openGate r s p = none) :
    cmdPortStatus r (fresh s) = (fresh s, okR (portBytes s p)) := by
  have gate' : openGate r (fresh s) p = none := gate
  simp only [cmdPortStatus, target, gate']
  rfl

theorem cmdGuardStatus_open {p : Port} (target : targetPort r = some p) (gate : openGate r s p = none) :
    cmdGuardStatus r (fresh s) = (fresh s, okR (guardBytes s p)) := by
  have gate' : openGate r (fresh s) p = none := gate
  simp only [cmdGuardStatus, target, gate']
  rfl

/-- A rule whose place holds no valid one is written word by word. -/
theorem cmdGuardRuleSet_blank (bare : noTarget r = true) (index : fld r.payload 0 2 ≤ 255) (bad : r.badWord = none)
    (blank : (almRead s (0x700 + 4 * fld r.payload 0 2 + 3)).toNat / 2 ^ 24 ≠ 0x5A) :
    cmdGuardRuleSet r (fresh s) =
      (let b := 0x700 + 4 * fld r.payload 0 2
       let x := persist ((List.range 4).map (fun j => (b + j, BitVec.ofNat 32 (fld r.payload (4 + 4 * j) 4)))) none (fresh s)
       (if x.2 = stOk then skipRule (fld r.payload 0 2) x.1 else x.1, errR x.2)) := by
  have index' : ¬ fld r.payload 0 2 > 255 := by omega
  have words : (List.range 4).map (fun j => (0x700 + 4 * fld r.payload 0 2 + j, (BitVec.ofNat 32 (fld r.payload (4 + 4 * j) 4) : Word))) =
      [(0x700 + 4 * fld r.payload 0 2, BitVec.ofNat 32 (fld r.payload 4 4)),
       (0x700 + 4 * fld r.payload 0 2 + 1, BitVec.ofNat 32 (fld r.payload 8 4)),
       (0x700 + 4 * fld r.payload 0 2 + 2, BitVec.ofNat 32 (fld r.payload 12 4)),
       (0x700 + 4 * fld r.payload 0 2 + 3, BitVec.ofNat 32 (fld r.payload 16 4))] := rfl
  have blank' : decide ((almRead (fresh s) (0x700 + 4 * fld r.payload 0 2 + 3)).toNat / 2 ^ 24 = 0x5A) = false := decide_eq_false blank
  simp only [words, cmdGuardRuleSet, blank']
  simp [bare, index', bad]

/-- Settles O33. -/
theorem portAndGuardCommandsRun : Obligations.PortAndGuardCommandsRun := by
  refine ⟨?assign, ?status, ?rule, ?guard⟩
  case assign =>
    rintro s r d o ⟨pass, room, target, code, move, slot, keep, opts, code0, open_, own, fence, still⟩
    exact runs_to_of_kept (execPortAssign_kept r s) (congrArg _
      (runCmd_accepted pass room (cmdPortAssign_move target code move slot keep opts code0 open_ own fence still)))
  case status =>
    rintro s r p ⟨pass, target, gate, fits⟩
    exact runs_to_of_kept (execPortStatus_kept r s) (congrArg _ (runCmd_result pass (cmdPortStatus_open target gate) rfl fits))
  case rule =>
    rintro s r ⟨pass, bare, index, bad, blank, -⟩
    exact runs_to_of_kept (execGuardRuleSet_kept r s)
      (congrArg _ (runCmd_status pass (cmdGuardRuleSet_blank bare index bad blank)))
  case guard =>
    rintro s r p ⟨pass, target, gate, fits⟩
    exact runs_to_of_kept (execGuardStatus_kept r s) (congrArg _ (runCmd_result pass (cmdGuardStatus_open target gate) rfl fits))

end

end Sys2Proof.Machine
end

section
/-! SUPPORT. What the scheduling and placement commands answer where their checks pass (R453–R455). -/

set_option Elab.async false

namespace Sys2Proof.Machine

section
variable {s : State} {r : Req}

/-! ### Scheduling and observation (R453, R454) -/

/-- KIND 1: the spill share and the sample interval. -/
theorem cmdSchedSet_device (kind : fld r.payload 0 1 = 1) (bare : noTarget r = true) (lo : 25 ≤ fld r.payload 4 1)
    (hi : fld r.payload 4 1 ≤ 95) (slo : 1 ≤ fld r.payload 6 2) (shi : fld r.payload 6 2 ≤ 4096) :
    cmdSchedSet r (fresh s) =
      ({ fresh s with sched := { s.sched with spillPct := fld r.payload 4 1, sampleNew := fld r.payload 6 2 } }, okR r.payload) := by
  have range : ¬ fld r.payload 4 1 < 25 ∧ ¬ fld r.payload 4 1 > 95 ∧ ¬ fld r.payload 6 2 < 1 ∧ ¬ fld r.payload 6 2 > 4096 := by omega
  obtain ⟨h₁, h₂, h₃, h₄⟩ := range
  simp only [cmdSchedSet, kind, bare, h₁, h₂, h₃, h₄]
  rfl

/-- A queue whose weight and capacities SCHED_SET has set, a capacity of 0 at its default, and what then fits admitted. -/
def queueScheduled (r : Req) (q : Nat) (s : State) : State :=
  settle (modEpq q (fun e => { e with
    weight := fld r.payload 8 1
    capTags := if fld r.payload 10 2 = 0 then 32 else fld r.payload 10 2
    capPkb := if fld r.payload 12 4 = 0 then 131072 else fld r.payload 12 4
    capSpill := if fld r.payload 16 4 = 0 then 16777216 else fld r.payload 16 4 }) s)

/-- What SCHED_SET reports of a queue. -/
def scheduledBytes (r : Req) (e : Epq) : List Byte :=
  slice r.payload 0 8 ++ le 1 e.weight ++ [0] ++ le 2 e.capTags ++ le 4 e.capPkb ++ le 4 e.capSpill

/-- KIND 0: a queue's weight and capacities. -/
theorem cmdSchedSet_queue {d : DS} {q : Nat × Epq} (kind : fld r.payload 0 1 = 0) (target : targetDs r = some d)
    (cap : fld r.payload 10 2 ≤ 1024) (queue : qselQueue s d r.payload 4 = some q) (gate : dsGate r s d = none) :
    cmdSchedSet r (fresh s) =
      (queueScheduled r q.1 (fresh s),
        okR (scheduledBytes r ((epqOf (queueScheduled r q.1 (fresh s)) q.1).getD q.2))) := by
  have queue' : qselQueue (fresh s) d r.payload 4 = some q := queue
  have gate' : dsGate r (fresh s) d = none := gate
  have cap' : ¬ fld r.payload 10 2 > 1024 := by omega
  simp only [cmdSchedSet, kind, target, cap', if_false, queue', gate']
  rfl

/-- SHAPER_SET: the new shaper waits for the refill tick, and supersedes one that waits. -/
theorem cmdShaperSet_next {d : DS} {q : Nat × Epq} (target : targetDs r = some d) (queue : qselQueue s d r.payload 0 = some q)
    (ok : meterOk (meterOf r.payload) 1 = true) (cls : 2 ≤ q.2.cls) (gate : dsGate r s d = none) :
    cmdShaperSet r (fresh s) =
      (modEpq q.1 (fun e => { e with shaperNew := some (meterOf r.payload) })
        (finalCpl (.shaper q.1) stSuperseded [] (dueTick (fresh s))), accR (.shaper q.1)) := by
  have queue' : qselQueue (fresh s) d r.payload 0 = some q := queue
  have gate' : dsGate r (fresh s) d = none := gate
  have periodic : (q.2.cls == 1) = false ∧ (q.2.cls == 0) = false := by
    constructor <;> rw [beq_eq_false_iff_ne] <;> omega
  simp only [cmdShaperSet, target, queue', ok, periodic, gate']
  rfl

/-- POLICER_SET likewise. -/
theorem cmdPolicerSet_next {d : DS} {q : Nat × Epq} (target : targetDs r = some d) (queue : qselQueue s d r.payload 0 = some q)
    (ok : meterOk (meterOf r.payload) 2 = true) (cls : q.2.cls ≠ 0) (gate : dsGate r s d = none) :
    cmdPolicerSet r (fresh s) =
      (modEpq q.1 (fun e => { e with policerNew := some (meterOf r.payload) })
        (finalCpl (.policer q.1) stSuperseded [] (dueTick (fresh s))), accR (.policer q.1)) := by
  have queue' : qselQueue (fresh s) d r.payload 0 = some q := queue
  have gate' : dsGate r (fresh s) d = none := gate
  have control : (q.2.cls == 0) = false := beq_eq_false_iff_ne.mpr cls
  simp only [cmdPolicerSet, target, queue', ok, control, gate']
  rfl

/-- OBSERVE_READ of a link: its busy times. -/
theorem cmdObserveRead_link {p : Port} (link : bit (fld r.payload 4 1) 2 = true) (noSamples : bit (fld r.payload 4 1) 1 = false)
    (noQueue : fld r.payload 0 4 = 0) (target : targetPort r = some p) (small : p.val ≤ 9) (gate : portGate r s p = none) :
    cmdObserveRead r (fresh s) = (fresh s, okR ((linkOf s p).busy.flatMap (le 8))) := by
  have gate' : portGate r (fresh s) p = none := gate
  have small' : ¬ p.val > 9 := by omega
  simp only [cmdObserveRead, link, target, noSamples, noQueue, small', gate', if_true]
  rfl

/-- What OBSERVE_READ reports of a queue, with its samples where they are asked for. -/
def observedBytes (r : Req) (s : State) (q : Nat × Epq) : List Byte :=
  queuePart s q.1 ((epqOf s q.1).getD q.2) ++ (if bit (fld r.payload 4 1) 1 then samplePart ((epqOf s q.1).getD q.2) else [])

/-- OBSERVE_READ of a queue, its high waters kept. -/
theorem cmdObserveRead_queue {d : DS} {q : Nat × Epq} (queueForm : bit (fld r.payload 4 1) 2 = false)
    (noClear : bit (fld r.payload 4 1) 0 = false) (target : targetDs r = some d) (gate : dsGate r s d = none)
    (queue : qselQueue s d r.payload 0 = some q) :
    cmdObserveRead r (fresh s) = (touchEpq q.1 (fresh s), okR (observedBytes r (touchEpq q.1 (fresh s)) q)) := by
  have queue' : qselQueue (fresh s) d r.payload 0 = some q := queue
  have gate' : dsGate r (fresh s) d = none := gate
  simp only [cmdObserveRead, queueForm, target, queue', gate', noClear]
  rfl

/-- Settles O34. -/
theorem schedulingCommandsRun : Obligations.SchedulingCommandsRun := by
  refine ⟨?device, ?queue, ?shaper, ?policer, ?link, ?observe⟩
  case device =>
    rintro s r ⟨pass, kind, bare, lo, hi, slo, shi, fits⟩
    exact runs_to_of_kept (execSchedSet_kept r s)
      (congrArg _ (runCmd_result pass (cmdSchedSet_device kind bare lo hi slo shi) rfl fits))
  case queue =>
    rintro s r d q ⟨pass, kind, target, cap, queue, gate, -⟩
    have fits := fitsRing_of_passes pass rfl (okR (scheduledBytes r ((epqOf (queueScheduled r q.1 (fresh s)) q.1).getD q.2)))
    have done := runCmd_result pass (cmdSchedSet_queue kind target cap queue gate) rfl fits
    have next : execSchedSet r s = .next (postReply 0x0301 r
      (okR (scheduledBytes r ((epqOf (queueScheduled r q.1 (fresh s)) q.1).getD q.2))) (queueScheduled r q.1 (fresh s))) :=
      congrArg Host.Outcome.next done
    exact runs_to_of_kept (execSchedSet_kept r s) next
  case shaper =>
    rintro s r d q ⟨pass, room, target, queue, ok, cls, gate⟩
    exact runs_to_of_kept (execShaperSet_kept r s)
      (congrArg _ (runCmd_accepted pass room (cmdShaperSet_next target queue ok cls gate)))
  case policer =>
    rintro s r d q ⟨pass, room, target, queue, ok, cls, gate⟩
    exact runs_to_of_kept (execPolicerSet_kept r s)
      (congrArg _ (runCmd_accepted pass room (cmdPolicerSet_next target queue ok cls gate)))
  case link =>
    rintro s r p ⟨pass, link, noSamples, noQueue, target, small, gate, fits⟩
    exact runs_to_of_kept (execObserveRead_kept r s)
      (congrArg _ (runCmd_result pass (cmdObserveRead_link link noSamples noQueue target small gate) rfl fits))
  case observe =>
    rintro s r d q ⟨pass, queueForm, noClear, target, gate, queue, -⟩
    exact runs_to_of_kept (execObserveRead_kept r s)
      (congrArg _ (runCmd_result pass (cmdObserveRead_queue queueForm noClear target gate queue) rfl (fitsRing_of_passes pass rfl _)))

/-! ### Placement (R231, R232, R455) -/

/-- The PLACE_STATUS result. -/
def placeBytes (r : Req) (s : State) : List Byte :=
  le 4 s.place.swaps ++ le 4 s.place.minimal ++ le 4 s.place.restarts ++ le 4 s.place.abandoned ++ le 4 s.place.moves ++
    le 1 (b2n s.place.frozen) ++ [0, 0, 0] ++ le 8 s.place.lastSwap ++ s.place.load.flatMap (le 1) ++ s.place.tagHw.flatMap (le 1) ++
    (List.range (fld r.payload 2 2)).flatMap (fun i => le 4 (plEntry s (fld r.payload 0 2 + i)))

theorem cmdPlaceStatus_next (bare : noTarget r = true) (range : fld r.payload 0 2 + fld r.payload 2 2 ≤ 512) :
    cmdPlaceStatus r (fresh s) = (fresh s, okR (placeBytes r s)) := by
  have range' : ¬ fld r.payload 0 2 + fld r.payload 2 2 > 512 := by omega
  simp only [cmdPlaceStatus, bare, range']
  rfl

/-- PLACE_PIN of a priority alone. -/
theorem cmdPlacePin_priority {d : DS} {q : Nat × Epq} (target : targetDs r = some d) (queue : qselQueue s d r.payload 0 = some q)
    (set_ : fld r.payload 4 1 = 2) (clear : fld r.payload 5 1 = 0) (chv : fld r.payload 6 1 < 8) (prio : fld r.payload 7 1 ≤ 1)
    (gate : dsGate r s d = none) :
    cmdPlacePin r (fresh s) =
      (modPlace (fun x => { x with
        pins := tabPut x.pins q.1 (none, some (some (fld r.payload 7 1)))
        rebuild := x.rebuild.map (fun b => { b with pins := b.pins.filter (· ≠ q.1) }) })
        (finalCpl (.pin q.1) stSuperseded [] (fresh s)), accR (.pin q.1)) := by
  have queue' : qselQueue (fresh s) d r.payload 0 = some q := queue
  have gate' : dsGate r (fresh s) d = none := gate
  have range : ¬ fld r.payload 7 1 > 2 := by omega
  have periodic : (fld r.payload 7 1 == 2) = false := by rw [beq_eq_false_iff_ne]; omega
  simp only [cmdPlacePin, target, queue', set_, clear, chv, range, periodic, gate', dif_pos]
  rfl

/-- PLACE_REBUILD NOW. -/
theorem cmdPlaceRebuild_now (bare : noTarget r = true) (action : fld r.payload 0 1 = 0) :
    cmdPlaceRebuild r (fresh s) =
      (modPlace (fun p => { p with nowReq := true, rebuild := p.rebuild.map (fun b => { b with now_ := false }) })
        (finalCpl .rebuild stSuperseded [] (fresh s)), accR .rebuild) := by
  simp only [cmdPlaceRebuild, bare, action]
  rfl

/-- PLACE_REBUILD FREEZE and THAW. -/
theorem cmdPlaceRebuild_freeze (bare : noTarget r = true) (action : fld r.payload 0 1 = 1 ∨ fld r.payload 0 1 = 2) :
    cmdPlaceRebuild r (fresh s) = (modPlace (fun p => { p with frozen := decide (fld r.payload 0 1 = 1) }) (fresh s), okR []) := by
  obtain action | action := action
  · simp only [cmdPlaceRebuild, bare, action]
    rfl
  · simp only [cmdPlaceRebuild, bare, action]
    rfl

/-- Settles O35. -/
theorem placementCommandsRun : Obligations.PlacementCommandsRun := by
  refine ⟨?status, ?pin, ?now, ?freeze⟩
  case status =>
    rintro s r ⟨pass, bare, range⟩
    exact runs_to_of_kept (execPlaceStatus_kept r s)
      (congrArg _ (runCmd_result pass (cmdPlaceStatus_next bare range) rfl (fitsRing_of_passes pass rfl _)))
  case pin =>
    rintro s r d q ⟨pass, room, target, queue, set_, clear, chv, prio, gate⟩
    exact runs_to_of_kept (execPlacePin_kept r s)
      (congrArg _ (runCmd_accepted pass room (cmdPlacePin_priority target queue set_ clear chv prio gate)))
  case now =>
    rintro s r ⟨pass, room, bare, action⟩
    exact runs_to_of_kept (execPlaceRebuild_kept r s) (congrArg _ (runCmd_accepted pass room (cmdPlaceRebuild_now bare action)))
  case freeze =>
    rintro s r ⟨pass, bare, action⟩
    exact runs_to_of_kept (execPlaceRebuild_kept r s) (congrArg _ (runCmd_done pass (cmdPlaceRebuild_freeze bare action)))

end

end Sys2Proof.Machine
end

section
/-! SUPPORT. What the Vigil and failover commands answer where their checks pass (R456–R458). -/

set_option Elab.async false

namespace Sys2Proof.Machine

section
variable {s : State} {r : Req}

/-- The device form of VIGIL_POLICY_SET without KEEP. -/
theorem cmdVigilPolicySet_device (bare : noTarget r = true) (keep : bit (fld r.payload 0 1) 0 = false)
    (absent : 10 ≤ fld r.payload 2 2 ∧ fld r.payload 2 2 ≤ 1000) (hold : 1 ≤ fld r.payload 4 4 ∧ fld r.payload 4 4 ≤ 86400)
    (region : 1 ≤ fld r.payload 8 2 ∧ fld r.payload 8 2 ≤ 16) :
    cmdVigilPolicySet r (fresh s) = (modVig (fun v => { v with
      tAbsent := fld r.payload 2 2, hold := fld r.payload 4 4, capRegion := fld r.payload 8 2, regionSet := true }) (fresh s), okR []) := by
  have range : ¬ fld r.payload 2 2 < 10 ∧ ¬ fld r.payload 2 2 > 1000 ∧ ¬ fld r.payload 4 4 < 1 ∧ ¬ fld r.payload 4 4 > 86400 ∧
      ¬ fld r.payload 8 2 < 1 ∧ ¬ fld r.payload 8 2 > 16 := by omega
  simp [cmdVigilPolicySet, bare, keep, range, persist_nil]

/-- VIGIL_ARM of ports that are neither sealed nor another hub's. -/
theorem cmdVigilArm_next (bare : noTarget r = true) (state : fld r.payload 2 2 ≤ 1)
    (open_ : (allDs.filter (fun d => bit (fld r.payload 0 2) d.val)).any (isSealed s) = false)
    (own : (allDs.filter (fun d => bit (fld r.payload 0 2) d.val)).any (elsewhere r s) = false) :
    cmdVigilArm r (fresh s) =
      (let s1 := (allDs.filter (fun d => bit (fld r.payload 0 2) d.val)).foldl (fun y d => armPort (fld r.payload 2 2 == 1) d y) (fresh s)
       (s1, okR (le 2 ((allDs.map (fun d => if isArmed s1 d then 2 ^ d.val else 0)).foldl (· + ·) 0)))) := by
  have open' : (allDs.filter (fun d => bit (fld r.payload 0 2) d.val)).any (isSealed (fresh s)) = false := open_
  have own' : (allDs.filter (fun d => bit (fld r.payload 0 2) d.val)).any (elsewhere r (fresh s)) = false := own
  have state' : ¬ fld r.payload 2 2 > 1 := by omega
  simp only [cmdVigilArm, bare, state', open', own']
  rfl

/-- The port of a downstream TARGET. -/
theorem targetPort_of_ds {d : DS} (h : targetDs r = some d) : ∃ p, targetPort r = some p ∧ portDs p = some d := by
  have named : (targetPort r).bind portDs = some d := by rw [← h, targetDs, targetPort, Option.bind_assoc]; rfl
  exact Option.bind_eq_some_iff.mp named

/-- The port of an upstream TARGET. -/
theorem targetPort_of_us {u : US} (h : targetUs r = some u) : ∃ p, targetPort r = some p ∧ portUs p = some u := by
  have named : (targetPort r).bind portUs = some u := by rw [← h, targetUs, targetPort, Option.bind_assoc]; rfl
  exact Option.bind_eq_some_iff.mp named

/-- An upstream port is no downstream one. -/
theorem portDs_of_us {p : Port} {u : US} (h : portUs p = some u) : portDs p = none := by
  obtain rfl : usPort u = p := portUs_some h
  cases u <;> rfl

/-- VIGIL_STATUS of a downstream port. -/
theorem cmdVigilStatus_port {d : DS} (target : targetDs r = some d) (gate : dsGate r s d = none) :
    cmdVigilStatus r (fresh s) = (fresh s, okR (vigilPortForm s d)) := by
  obtain ⟨p, port, ds⟩ := targetPort_of_ds target
  have gate' : dsGate r (fresh s) d = none := gate
  simp only [cmdVigilStatus, port, portGate, ds, gate']
  rfl

/-- VIGIL_STATUS of a hub. -/
theorem cmdVigilStatus_hub {u : US} (target : targetUs r = some u) (gate : usGate r u = none) :
    cmdVigilStatus r (fresh s) = (fresh s, okR (vigilHubForm s u)) := by
  obtain ⟨p, port, us⟩ := targetPort_of_us target
  simp only [cmdVigilStatus, port, portGate, portDs_of_us us, us, gate]
  rfl

/-- CAPTURE_READ without CONSUME: what is read stays. -/
theorem cmdCaptureRead_keep {d : DS} (target : targetDs r = some d) (gate : dsGate r s d = none) (alloc : s.vig.rings[d].alloc = 0)
    (lo : 1 ≤ fld r.payload 8 2) (hi : fld r.payload 8 2 ≤ 4096) (keep : bit (fld r.payload 10 1) 0 = false) :
    ∃ rep, rep.acc = none ∧ cmdCaptureRead r (fresh s) = (fresh s, rep) ∧ rep =
      (let g := s.vig.rings[d]
       let start := if fld r.payload 0 8 = 0 then g.readSeq else fld r.payload 0 8
       let part := if bit r.flags.toNat 0 then 976 else 992
       let sel := g.recs.filter (fun x => x.typ != 0 && decide (x.seq ≥ start) && (!bit (fld r.payload 10 1) 1 || bit x.flags 0))
       let got := fitRecs (256 * part) (sel.take (fld r.payload 8 2))
       let next := match got.getLast? with | some x => x.seq + 1 | none => g.nextSeq
       let cs := chunks part (got.flatMap (capBytes d))
       { status := stOk, parts := cs.mapIdx (fun i b =>
         le 2 i ++ [0, 0] ++ le 4 b.length ++ le 8 (if i + 1 = cs.length then next else 0) ++ b) }) := by
  have gate' : dsGate r (fresh s) d = none := gate
  have alloc' : (fresh s).vig.rings[d].alloc = 0 := alloc
  have lo' : ¬ fld r.payload 8 2 < 1 := by omega
  have hi' : ¬ fld r.payload 8 2 > 4096 := by omega
  refine ⟨_, rfl, ?_, rfl⟩
  simp only [cmdCaptureRead, target, gate', alloc', lo', hi', keep]
  rfl

/-- FAILOVER_SET without KEEP. -/
theorem cmdFailoverSet_next {u : US} (target : targetUs r = some u) (own : reqHub r ≠ some u.other)
    (partner : fld r.payload 0 1 = 0 ∨ codeUs (fld r.payload 0 1) = some u.other) (auto : fld r.payload 1 1 ≤ 1)
    (stagger : fld r.payload 2 1 ≤ 100) (keep : bit (fld r.payload 3 1) 0 = false) (delay : fld r.payload 4 2 ≤ 1000)
    (lo : 1 ≤ fld r.payload 6 2) (hi : fld r.payload 6 2 ≤ 3600)
    (ports : (portList (fld r.payload 8 1) (slice r.payload 9 15)).isSome = true) :
    cmdFailoverSet r (fresh s) =
      (modFo u (fun f => { f with rcd := foRecord u (slice r.payload 0 3 ++ slice r.payload 4 20) }) (fresh s), okR []) := by
  have partner' : ¬ (fld r.payload 0 1 ≠ 0 ∧ codeUs (fld r.payload 0 1) ≠ some u.other) := by tauto
  have range : ¬ fld r.payload 1 1 > 1 ∧ ¬ fld r.payload 2 1 > 100 ∧ ¬ fld r.payload 4 2 > 1000 ∧ ¬ fld r.payload 6 2 < 1 ∧
      ¬ fld r.payload 6 2 > 3600 := by omega
  obtain ⟨h₁, h₂, h₃, h₄, h₅⟩ := range
  have ports' : (portList (fld r.payload 8 1) (slice r.payload 9 15)).isNone = false := by
    rw [← Option.not_isSome, ports]; rfl
  have own' : (reqHub r == some u.other) = false := beq_eq_false_iff_ne.mpr own
  simp only [cmdFailoverSet, target, partner', h₁, h₂, h₃, h₄, h₅, ports', own', keep]
  simp [persist_nil]

/-- FAILBACK of ports whose home is the hub, while no failback runs. -/
theorem cmdFailback_next {u : US} {l : List DS} (target : targetUs r = some u) (own : reqHub r ≠ some u.other)
    (ports : portList (fld r.payload 0 1) (slice r.payload 1 15) = some l) (some_ : backOrder s u ≠ [])
    (home : l.any (fun d => homeOf s d != some u) = false)
    (state : (hubOf s u).state = .attached ∨ (hubOf s u).state = .suspended) (idle : (foOf s u).back = none) :
    cmdFailback r (fresh s) = (startBack u true (if l.isEmpty then backOrder s u else (backOrder s u).filter (fun d => l.contains d))
      (fresh s), accR (.failback u)) := by
  have some' : (backOrder (fresh s) u).isEmpty = false := List.isEmpty_eq_false_iff.mpr some_
  have home' : l.any (fun d => homeOf (fresh s) d != some u) = false := home
  have own' : (reqHub r == some u.other) = false := beq_eq_false_iff_ne.mpr own
  have idle' : (foOf (fresh s) u).back = none := idle
  have state' : ((hubOf (fresh s) u).state != .attached && (hubOf (fresh s) u).state != .suspended) = false := by
    obtain h | h := state <;> simp [h]
  simp only [cmdFailback, target, ports, some', home', own', idle', state']
  rfl

/-- Settles O36. -/
theorem vigilCommandsRun : Obligations.VigilCommandsRun := by
  refine ⟨?policy, ?arm, ?statusPort, ?statusHub, ?capture, ?failoverSet, ?failback⟩
  case policy =>
    rintro s r ⟨pass, bare, keep, a, b, c, d, e, f⟩
    exact runs_to_of_kept (execVigilPolicySet_kept r s)
      (congrArg _ (runCmd_done pass (cmdVigilPolicySet_device bare keep ⟨a, b⟩ ⟨c, d⟩ ⟨e, f⟩)))
  case arm =>
    rintro s r ⟨pass, bare, state, open_, own⟩
    exact runs_to_of_kept (execVigilArm_kept r s)
      (congrArg _ (runCmd_result pass (cmdVigilArm_next bare state open_ own) rfl (fitsRing_of_passes pass rfl _)))
  case statusPort =>
    rintro s r d ⟨pass, target, gate, fits⟩
    exact runs_to_of_kept (execVigilStatus_kept r s) (congrArg _ (runCmd_result pass (cmdVigilStatus_port target gate) rfl fits))
  case statusHub =>
    rintro s r u ⟨pass, target, gate, fits⟩
    exact runs_to_of_kept (execVigilStatus_kept r s) (congrArg _ (runCmd_result pass (cmdVigilStatus_hub target gate) rfl fits))
  case capture =>
    rintro s r d ⟨pass, target, gate, alloc, lo, hi, keep⟩
    obtain ⟨rep, done, answer, result⟩ := cmdCaptureRead_keep target gate alloc lo hi keep
    have next : execCaptureRead r s = .next (postReply 0x0504 r rep (fresh s)) :=
      congrArg Host.Outcome.next (runCmd_result pass answer done (fitsRing_of_passes pass rfl _))
    rw [result] at next
    exact runs_to_of_kept (execCaptureRead_kept r s) next
  case failoverSet =>
    rintro s r u ⟨pass, target, own, partner, auto, stagger, keep, delay, lo, hi, ports⟩
    exact runs_to_of_kept (execFailoverSet_kept r s)
      (congrArg _ (runCmd_done pass (cmdFailoverSet_next target own partner auto stagger keep delay lo hi ports)))
  case failback =>
    rintro s r u l ⟨pass, room, target, own, ports, some_, home, state, idle⟩
    exact runs_to_of_kept (execFailback_kept r s)
      (congrArg _ (runCmd_accepted pass room (cmdFailback_next target own ports some_ home state idle)))

end

end Sys2Proof.Machine
end

section
/-! SUPPORT. What the power, role-swap, display-route and drawer commands answer where their checks pass (R366, R376, R459–R461). -/

set_option Elab.async false

namespace Sys2Proof.Machine

section
variable {s : State} {r : Req}

/-- POWER_BUDGET_SET without KEEP: the power is allocated again under the new budget, and an earlier command is superseded. -/
theorem cmdPowerBudgetSet_next (bare : noTarget r = true) (budget : fld r.payload 0 2 ≤ 30000) (keep : bit (fld r.payload 2 1) 0 = false) :
    cmdPowerBudgetSet r.badWord r (fresh s) =
      (let s1 := finalCpl .budget stSuperseded [] (fresh s)
       (runAlloc { s1 with lane := { s1.lane with budget := fld r.payload 0 2 * 100 } }, accR .budget)) := by
  have budget' : ¬ fld r.payload 0 2 > 30000 := by omega
  simp only [cmdPowerBudgetSet, bare, budget', keep]
  rfl

/-- PORT_POWER_POLICY without KEEP: the fields that the command selects are put in force. -/
theorem cmdPortPowerPolicy_next {p : Port} (target : targetPort r = some p) (ok : policyOk p (fld r.payload 0 2) r.payload = true)
    (gate : (if powerOffForm r.payload then openGate r s p else portGate r s p) = none) (keep : bit (fld r.payload 2 1) 0 = false) :
    cmdPortPowerPolicy r.badWord r (fresh s) =
      (policyApply p (fld r.payload 0 2) (policyWith (fld r.payload 0 2) r.payload (pwrOf s p).pol) (fresh s), okR []) := by
  have gate' : (if powerOffForm r.payload then openGate r (fresh s) p else portGate r (fresh s) p) = none := gate
  simp only [cmdPortPowerPolicy, target, ok, gate', keep]
  rfl

/-- CONTRACT_STATUS of a port that is open to the sender. -/
theorem cmdContractStatus_open {p : Port} (target : targetPort r = some p) (gate : openGate r s p = none) :
    cmdContractStatus r (fresh s) = (fresh s, okR (contractBytes s p)) := by
  have gate' : openGate r (fresh s) p = none := gate
  simp only [cmdContractStatus, target, gate']
  rfl

/-- ROLE_SWAP of a port whose swap may be asked for. -/
theorem cmdRoleSwap_next {u : US} (target : targetUs r = some u) (gate : usGate r u = none) (kind : fld r.payload 0 1 ≤ 2)
    (fence : portFenced s (usPort u) = false) (up : thymeDown s (usPort u) = false) (free : (pwrOf s (usPort u)).swap = none)
    (idle : accBusy (.roleSwap u) s = false) (may : swapRefused s (usPort u) = false) :
    cmdRoleSwap r (fresh s) =
      (sendSwap (usPort u) (fld r.payload 0 1) (modPwr (usPort u) (fun x => { x with
        swap := some { kind := fld r.payload 0 1, ours := true, at_ := s.now } }) (fresh s)), accR (.roleSwap u)) := by
  have kind' : ¬ fld r.payload 0 1 > 2 := by omega
  have fence' : portFenced (fresh s) (usPort u) = false := fence
  have up' : thymeDown (fresh s) (usPort u) = false := up
  have free' : (pwrOf (fresh s) (usPort u)).swap = none := free
  have idle' : accBusy (.roleSwap u) (fresh s) = false := idle
  have may' : swapRefused (fresh s) (usPort u) = false := may
  simp only [cmdRoleSwap, target, kind', gate, fence', up', free', idle', may']
  rfl

/-- A route's number names its output. -/
theorem routeIndex {i : Fin 2} (h : fld r.payload 0 1 = i.val) : (if fld r.payload 0 1 = 0 then (0 : Fin 2) else 1) = i := by
  rw [h]
  clear h
  revert i
  decide

/-- DP_ROUTE without KEEP: the old route ends, and the new one starts at once where its port is a source with a contract. -/
theorem cmdDpRoute_next {i : Fin 2} (ok : dpRouteOk s r = true) (route : fld r.payload 0 1 = i.val) (gate : dpGate r s i = none)
    (block : blockFenced s .dpx = false) (unit_ : unitFenced s .dpx (.route i.val) = false) (keep : bit (fld r.payload 4 1) 0 = false) :
    cmdDpRoute r (fresh s) =
      (let s1 := dpStop i 0 (finalCpl (.dpRoute i) stSuperseded [] (fresh s))
       let o := codeDs (fld r.payload 1 1)
       let b := match o with | some d => explicit s1 (dsPort d) && isSource s1 (dsPort d) | none => false
       (modDp i (fun x => { port := o, pref := fld r.payload 2 1, eq := sbyte (fld r.payload 3 1), due := if b then some s.now else none
                            lowAt := x.lowAt, irqLast := x.irqLast }) s1, accR (.dpRoute i))) := by
  have ok' : dpRouteOk (fresh s) r = true := ok
  have gate' : dpGate r (fresh s) i = none := gate
  have block' : blockFenced (fresh s) .dpx = false := block
  have unit' : unitFenced (fresh s) .dpx (.route i.val) = false := unit_
  simp only [cmdDpRoute, ok', routeIndex route, gate', block', unit', keep]
  rfl

/-- DRAWER_KICK while neither output pulses and the interlock is closed. -/
theorem cmdDrawerKick_next {i : Fin 2} (bare : noTarget r = true) (output : fld r.payload 0 1 = i.val) (lo : 5 ≤ fld r.payload 1 1)
    (hi : fld r.payload 1 1 ≤ 20) (block : blockFenced s .lio = false) (unit_ : unitFenced s .lio (.output i.val) = false)
    (balls : s.sup.ballsFloat = false) (k0 : s.lio.kick[(0 : Fin 2)].pulse = none) (k1 : s.lio.kick[(1 : Fin 2)].pulse = none)
    (lock : s.lio.kick[i].lockUntil ≤ s.now) :
    cmdDrawerKick r (fresh s) =
      (modKick i (fun k => { k with pulse := some (s.now, s.now + fld r.payload 1 1 * 10000000), report := some (s.now, false), silent := false })
        (fresh s), accR (.kick i)) := by
  have block' : blockFenced (fresh s) .lio = false := block
  have unit' : unitFenced (fresh s) .lio (.output i.val) = false := unit_
  have range : ¬ (i.val > 1 ∨ fld r.payload 1 1 < 5 ∨ fld r.payload 1 1 > 20) := by omega
  have index := routeIndex output
  rw [output] at index
  have lock' : ¬ s.now < s.lio.kick[i].lockUntil := by omega
  simp only [cmdDrawerKick, bare, output, range, index, block', unit', fresh_sup, fresh_lio, fresh_now, balls, k0, k1, lock']
  rfl

/-- Settles O37. -/
theorem powerAndDisplayCommandsRun : Obligations.PowerAndDisplayCommandsRun := by
  refine ⟨?budget, ?policy, ?contract, ?swap, ?route, ?kick⟩
  case budget =>
    rintro s r ⟨pass, room, bare, budget, keep⟩
    exact runs_to_of_kept (execPowerBudgetSet_kept r s)
      (congrArg (fun t => Host.Outcome.next (budgetDone t)) (runCmd_accepted pass room (cmdPowerBudgetSet_next bare budget keep)))
  case policy =>
    rintro s r p ⟨pass, target, ok, gate, keep⟩
    exact runs_to_of_kept (execPortPowerPolicy_kept r s) (congrArg _ (runCmd_done pass (cmdPortPowerPolicy_next target ok gate keep)))
  case contract =>
    rintro s r p ⟨pass, target, gate, fits⟩
    exact runs_to_of_kept (execContractStatus_kept r s) (congrArg _ (runCmd_result pass (cmdContractStatus_open target gate) rfl fits))
  case swap =>
    rintro s r u ⟨pass, room, target, gate, kind, fence, up, free, idle, may⟩
    exact runs_to_of_kept (execRoleSwap_kept r s)
      (congrArg (fun t => Host.Outcome.next (roleSwapDone .us1 (roleSwapDone .us0 t)))
        (runCmd_accepted pass room (cmdRoleSwap_next target gate kind fence up free idle may)))
  case route =>
    rintro s r i ⟨pass, room, ok, route, gate, block, unit_, keep⟩
    exact runs_to_of_kept (execDpRoute_kept r s)
      (congrArg (fun t => Host.Outcome.next (dpCleared 1 (dpCleared 0 t)))
        (runCmd_accepted pass room (cmdDpRoute_next ok route gate block unit_ keep)))
  case kick =>
    rintro s r i ⟨pass, room, bare, output, lo, hi, block, unit_, balls, k0, k1, lock⟩
    exact runs_to_of_kept (execDrawerKick_kept r s)
      (congrArg _ (runCmd_accepted pass room (cmdDrawerKick_next bare output lo hi block unit_ balls k0 k1 lock)))

end

end Sys2Proof.Machine
end

section
/-! SUPPORT. What the fault, fence, Almanac and firmware commands answer where their checks pass (R462–R464). -/

set_option Elab.async false

namespace Sys2Proof.Machine

section
variable {s : State} {r : Req}

/-! ### Faults and fences (R405, R415, R421, R462) -/

/-- FAULT_READ of one block. -/
theorem cmdFaultRead_block {b : Block} (one : r.target ≠ 0xFF) (target : targetBlock r = some b) :
    cmdFaultRead r (fresh s) = (fresh s, okR ([1, 0, 0, 0] ++ faultEntry s b)) := by
  have one' : ¬ r.target.toNat = 0xFF := fun h => one (BitVec.eq_of_toNat_eq h)
  have entry : [b].flatMap (faultEntry (fresh s)) = faultEntry s b := List.append_nil _
  simp only [cmdFaultRead, one', if_false, target, Option.map_some, entry]
  rfl

@[simp] theorem insertByTime_fresh (s : State) (b : Block) (l : List Block) : insertByTime (fresh s) b l = insertByTime s b l := by
  induction l with
  | nil => rfl
  | cons c l ih => simp only [insertByTime, ih]; rfl

@[simp] theorem pendingBlocks_fresh (s : State) : pendingBlocks (fresh s) = pendingBlocks s := by
  simp only [pendingBlocks, insertByTime_fresh]
  rfl

/-- FAULT_READ of every block with a pending fault. -/
theorem cmdFaultRead_pending (all : r.target = 0xFF) :
    cmdFaultRead r (fresh s) =
      (fresh s, okR (le 1 (pendingBlocks s).length ++ [0, 0, 0] ++ (pendingBlocks s).flatMap (faultEntry s))) := by
  have all' : r.target.toNat = 0xFF := congrArg BitVec.toNat all
  simp only [cmdFaultRead, all', if_true, pendingBlocks_fresh]
  rfl

theorem cmdFaultAck_next {b : Block} (target : targetBlock r = some b) :
    cmdFaultAck r (fresh s) = (ackWrite b (fld r.payload 0 1) (fresh s), okR []) := by
  simp only [cmdFaultAck, target]

/-- FAULT_INJECT without a named unit. -/
theorem cmdFaultInject_anyUnit {b : Block} (target : targetBlock r = some b)
    (known : ∀ n < 32, bit (fld r.payload 0 4) n = true → (srcClass b n).isSome = true) (unit_ : fld r.payload 4 4 = 0xFFFFFFFF) :
    cmdFaultInject r (fresh s) = (injectFaults b (fld r.payload 0 4) none (fresh s), okR []) := by
  have known' : (((List.range 32).filter (fun n => bit (fld r.payload 0 4) n)).any (fun n => (srcClass b n).isNone)) = false := by
    rw [List.any_eq_false]
    intro n hn
    obtain ⟨range, set_⟩ := List.mem_filter.mp hn
    have class_ := known n (List.mem_range.mp range) set_
    rw [Option.isNone_iff_eq_none]
    exact Option.isSome_iff_ne_none.mp class_
  simp only [cmdFaultInject, target, known', unit_]
  rfl

theorem cmdFence_next {b : Block} {k : FUnit} (target : targetBlock r = some b) (unit_ : fenceUnit b (fld r.payload 0 4) = some k)
    (last : lastChervil s b = false) (open_ : blockSealed s b = false) :
    cmdFence r (fresh s) = (fenceNow b k (fld r.payload 0 4) (fresh s), okR []) := by
  have last' : lastChervil (fresh s) b = false := last
  have open' : blockSealed (fresh s) b = false := open_
  simp only [cmdFence, target, unit_, last', open']
  rfl

theorem cmdUnfence_next {b : Block} (target : targetBlock r = some b) :
    cmdUnfence r (fresh s) = (unfenceNow b (fresh s), okR []) := by
  simp only [cmdUnfence, target]

/-- Settles O38. -/
theorem faultAndFenceCommandsRun : Obligations.FaultAndFenceCommandsRun := by
  refine ⟨?readOne, ?readAll, ?ack, ?inject, ?fence, ?unfence⟩
  case readOne =>
    rintro s r b ⟨pass, one, target, fits⟩
    exact runs_to_of_kept (execFaultRead_kept r s) (congrArg _ (runCmd_result pass (cmdFaultRead_block one target) rfl fits))
  case readAll =>
    rintro s r ⟨pass, all, fits⟩
    exact runs_to_of_kept (execFaultRead_kept r s) (congrArg _ (runCmd_result pass (cmdFaultRead_pending all) rfl fits))
  case ack =>
    rintro s r b ⟨pass, target, -⟩
    exact runs_to_of_kept (execFaultAck_kept r s) (congrArg _ (runCmd_done pass (cmdFaultAck_next target)))
  case inject =>
    rintro s r b ⟨pass, target, known, unit_⟩
    exact runs_to_of_kept (execFaultInject_kept r s) (congrArg _ (runCmd_done pass (cmdFaultInject_anyUnit target known unit_)))
  case fence =>
    rintro s r b k ⟨pass, target, unit_, last, open_⟩
    exact runs_to_of_kept (execFence_kept r s) (congrArg _ (runCmd_done pass (cmdFence_next target unit_ last open_)))
  case unfence =>
    rintro s r b ⟨pass, target⟩
    exact runs_to_of_kept (execUnfence_kept r s) (congrArg _ (runCmd_done pass (cmdUnfence_next target)))

/-! ### Almanac and firmware (R463, R464, R474) -/

/-- The words that an Almanac command names. -/
def namedWords (r : Req) : List Nat := (List.range (fld r.payload 2 2)).map (fld r.payload 0 2 + ·)

theorem cmdAlmanacRead_next (bare : noTarget r = true) (lo : 1 ≤ fld r.payload 2 2) (hi : fld r.payload 2 2 ≤ 250)
    (range : fld r.payload 0 2 + fld r.payload 2 2 ≤ 4096) (open_ : (namedWords r).any almWithheld = false) :
    cmdAlmanacRead r (fresh s) = (fresh s, okR ((namedWords r).flatMap (fun w => le 4 (almRead s w).toNat))) := by
  have some_ : ¬ fld r.payload 2 2 = 0 := by omega
  have hi' : ¬ fld r.payload 2 2 > 250 := by omega
  have range' : ¬ fld r.payload 0 2 + fld r.payload 2 2 > 4096 := by omega
  have open' : ((List.range (fld r.payload 2 2)).map (fld r.payload 0 2 + ·)).any almWithheld = false := open_
  simp only [cmdAlmanacRead, bare, some_, hi', range', open']
  rfl

theorem cmdAlmanacWear_next (bare : noTarget r = true) (lo : 1 ≤ fld r.payload 2 2) (hi : fld r.payload 2 2 ≤ 250)
    (range : fld r.payload 0 2 + fld r.payload 2 2 ≤ 4096) :
    cmdAlmanacWear r (fresh s) =
      (fresh s, okR ((List.range (fld r.payload 2 2)).flatMap (fun i => le 4 (almWear s (fld r.payload 0 2 + i))))) := by
  have some_ : ¬ fld r.payload 2 2 = 0 := by omega
  have hi' : ¬ fld r.payload 2 2 > 250 := by omega
  have range' : ¬ fld r.payload 0 2 + fld r.payload 2 2 > 4096 := by omega
  simp only [cmdAlmanacWear, bare, some_, hi', range']
  rfl

/-- The words of an ALMANAC_WRITE, as they are stored. -/
def storedWords (r : Req) (s : State) : List (Nat × Word) :=
  (writeWords r).mapIdx (fun i v => (fld r.payload 0 2 + i, almStored s (fld r.payload 0 2 + i) v))

/-- ALMANAC_WRITE of words that are listed, unfenced and within their endurance: they are written until one fails. -/
theorem cmdAlmanacWrite_next (access : almAccessOk s r.ring (fld r.payload 0 2) (writeWords r) = true) (bare : noTarget r = true)
    (range : fld r.payload 0 2 + (writeWords r).length ≤ 4096) (listed : (storedWords r s).all (fun e => almListed e.1) = true)
    (fence : (storedWords r s).any (fun e => wordFenced s e.1) = false) (room : almExhausted s.alm (storedWords r s) = false) :
    cmdAlmanacWrite r (fresh s) =
      (let x := almCarry (storedWords r s) r.badWord (fresh s)
       (x.1, { status := if x.2 = (storedWords r s).length then stOk else stFenced, parts := [le 2 x.2 ++ [0, 0]] })) := by
  have passes : firstFail
      [(almAccessOk s r.ring (fld r.payload 0 2) (writeWords r), stMode),
       (noTarget r && decide (fld r.payload 0 2 + (writeWords r).length ≤ 4096) && (storedWords r s).all (fun e => almListed e.1),
         stBadTarget),
       (!(storedWords r s).any (fun e => wordFenced s e.1), stFenced), (!almExhausted s.alm (storedWords r s), stEndurance)] = none := by
    simp [firstFail, access, bare, range, listed, fence, room]
  change (match firstFail
      [(almAccessOk s r.ring (fld r.payload 0 2) (writeWords r), stMode),
       (noTarget r && decide (fld r.payload 0 2 + (writeWords r).length ≤ 4096) && (storedWords r s).all (fun e => almListed e.1),
         stBadTarget),
       (!(storedWords r s).any (fun e => wordFenced s e.1), stFenced), (!almExhausted s.alm (storedWords r s), stEndurance)] with
    | some st => (fresh s, errR st)
    | none =>
      ((almCarry (storedWords r s) r.badWord (fresh s)).1,
        ({ status := if (almCarry (storedWords r s) r.badWord (fresh s)).2 = (storedWords r s).length then stOk else stFenced
           parts := [le 2 (almCarry (storedWords r s) r.badWord (fresh s)).2 ++ [0, 0]] } : Reply))) = _
  rw [passes]

/-- FW_STAGE FIRST: the free slot is erased and its first chunk programmed. -/
theorem cmdFwStage_first {n : Nat} (bare : noTarget r = true) (start : fld r.payload 0 4 = 0) (first : bit (fld r.payload 4 1) 0 = true)
    (last : bit (fld r.payload 4 1) 1 = false) (fits : (r.payload.drop 8).length ≤ slotSize) (slot : stageSlot s = some n)
    (idle : activating s = false) (free : accBusy .fwStage s = false) :
    cmdFwStage r (fresh s) = ({ fresh s with
      fw := { flashProgram (slotBase n) (r.payload.drop 8) (dirEmpty n (flashErase (slotBase n) slotSize s.fw)) with
        staged := (r.payload.drop 8).length, stageSlot := some n } }, accR .fwStage) := by
  have slot' : stageSlot (fresh s) = some n := slot
  have idle' : activating (fresh s) = false := idle
  have free' : accBusy .fwStage (fresh s) = false := free
  have fits' : ¬ 0 + (r.payload.drop 8).length > slotSize := by omega
  simp only [cmdFwStage, bare, start, first, last, fits', slot', idle', free']
  simp

/-- FW_STAGE of a chunk between the first and the last. -/
theorem cmdFwStage_next {n : Nat} (bare : noTarget r = true) (start : fld r.payload 0 4 = s.fw.staged)
    (first : bit (fld r.payload 4 1) 0 = false) (last : bit (fld r.payload 4 1) 1 = false)
    (fits : s.fw.staged + (r.payload.drop 8).length ≤ slotSize) (slot : stageSlot s = some n) (idle : activating s = false)
    (free : accBusy .fwStage s = false) :
    cmdFwStage r (fresh s) = ({ fresh s with
      fw := { flashProgram (slotBase n + s.fw.staged) (r.payload.drop 8) s.fw with
        staged := s.fw.staged + (r.payload.drop 8).length, stageSlot := some n } }, okR []) := by
  have slot' : stageSlot (fresh s) = some n := slot
  have idle' : activating (fresh s) = false := idle
  have free' : accBusy .fwStage (fresh s) = false := free
  have fits' : ¬ s.fw.staged + (r.payload.drop 8).length > slotSize := by omega
  simp only [cmdFwStage, bare, start, first, last, fits', slot', idle', free', fresh_fw]
  simp

/-- FW_ACTIVATE RESTART. -/
theorem cmdFwActivate_restart {n : Nat} (bare : noTarget r = true) (action : fld r.payload 0 1 = 0) (slot : stagedSlot s.fw = some n)
    (idle : activating s = false) :
    cmdFwActivate r (fresh s) =
      ({ fresh s with fw := setTrial n s.fw, sup := { s.sup with restartAt := some (s.now + 10000000) } }, okR []) := by
  have idle' : activating (fresh s) = false := idle
  simp only [cmdFwActivate, bare, action, fresh_fw, slot, idle']
  rfl

/-- FW_ACTIVATE CONFIRM of a trial that runs. -/
theorem cmdFwActivate_confirm (bare : noTarget r = true) (action : fld r.payload 0 1 = 2) (trial : s.fw.trial = true)
    (runs : s.fw.running < 2) (idle : activating s = false) (room : almExhausted s.alm (rollbackWrites s) = false) :
    cmdFwActivate r (fresh s) = (confirmSteps (fresh s), okR []) := by
  have idle' : activating (fresh s) = false := idle
  have room' : almExhausted (fresh s).alm (rollbackWrites (fresh s)) = false := room
  simp only [cmdFwActivate, bare, action, fresh_fw, trial, runs, idle', room']
  rfl

/-- Settles O39. -/
theorem almanacAndFirmwareCommandsRun : Obligations.AlmanacAndFirmwareCommandsRun := by
  refine ⟨?read, ?write, ?wear, ?first, ?next, ?restart, ?confirm, ?status⟩
  case read =>
    rintro s r ⟨pass, bare, lo, hi, range, open_, fits⟩
    exact runs_to_of_kept (execAlmanacRead_kept r s)
      (congrArg _ (runCmd_result pass (cmdAlmanacRead_next bare lo hi range open_) rfl fits))
  case write =>
    rintro s r ⟨pass, access, bare, range, listed, fence, room⟩
    have short (n : Nat) (st : Nat) : FitsRing r { status := st, parts := [le 2 n ++ [0, 0]] } := by
      intro _
      change 16 + (0 + 4) + 4 * (r.flags.toNat % 2) ≤ 255
      omega
    exact runs_to_of_kept (execAlmanacWrite_kept r s)
      (congrArg _ (runCmd_result pass (cmdAlmanacWrite_next access bare range listed fence room) rfl (short _ _)))
  case wear =>
    rintro s r ⟨pass, bare, lo, hi, range, fits⟩
    exact runs_to_of_kept (execAlmanacWear_kept r s) (congrArg _ (runCmd_result pass (cmdAlmanacWear_next bare lo hi range) rfl fits))
  case first =>
    rintro s r n ⟨pass, room, bare, start, first, last, fits, slot, idle, free⟩
    exact runs_to_of_kept (execFwStage_kept r s) (congrArg (fun t => Host.Outcome.next (finishFwStage t))
      (runCmd_accepted pass room (cmdFwStage_first bare start first last fits slot idle free)))
  case next =>
    rintro s r n ⟨pass, bare, start, first, last, fits, slot, idle, free⟩
    exact runs_to_of_kept (execFwStage_kept r s) (congrArg (fun t => Host.Outcome.next (finishFwStage t))
      (runCmd_done pass (cmdFwStage_next bare start first last fits slot idle free)))
  case restart =>
    rintro s r n ⟨pass, bare, action, slot, idle⟩
    exact runs_to_of_kept (execFwActivate_kept r s) (congrArg (fun t => Host.Outcome.next (finishFwActivate t))
      (runCmd_done pass (cmdFwActivate_restart bare action slot idle)))
  case confirm =>
    rintro s r ⟨pass, bare, action, trial, runs, idle, room⟩
    exact runs_to_of_kept (execFwActivate_kept r s) (congrArg (fun t => Host.Outcome.next (finishFwActivate t))
      (runCmd_done pass (cmdFwActivate_confirm bare action trial runs idle room)))
  case status =>
    rintro s r ⟨pass, bare, fits⟩
    exact runs_to_of_kept (execFwStatus_kept r s) (congrArg _ (runCmd_result pass (if_pos bare) rfl fits))

end

end Sys2Proof.Machine
end

section
/-! SUPPORT. The test commands, the register window, and the events of tests and boundary scan (R465–R467, R484–R496). -/

set_option Elab.async false

namespace Sys2Proof.Machine

section
variable {s : State} {r : Req}

/-! ### LOOPBACK, PATTERN and the register window -/

theorem cmdLoopback_start {n : Nat} (unit_ : loopUnit r = some n) (depth : fld r.payload 0 1 ≠ 0)
    (offered : depthOffered n (fld r.payload 0 1) = true) (gate : loopGate r s = none) (fence : loopFenced s n = false)
    (free : loopBusy s n (fld r.payload 0 1) = false) :
    cmdLoopback r (fresh s) = (startLoop n (fld r.payload 0 1) (fld r.payload 4 4) (fresh s), accR (.loopback n)) := by
  have gate' : loopGate r (fresh s) = none := gate
  have fence' : loopFenced (fresh s) n = false := fence
  have free' : loopBusy (fresh s) n (fld r.payload 0 1) = false := free
  simp only [cmdLoopback, unit_, offered, gate', depth, fence', free']
  rfl

/-- The range that PATTERN names, tested from now on. -/
def patternNamed (r : Req) (s : State) : Pat :=
  { pattern := fld r.payload 0 1, start := fld r.payload 4 8, bytes := fld r.payload 12 8, startAt := s.now }

theorem cmdPattern_pkb (known : fld r.payload 0 1 ≤ 4) (target : targetBlock r = some .pkb)
    (range : patternIn 0xB0000 0x1F0000 128 (fld r.payload 4 8) (fld r.payload 12 8) = true) (fence : blockFenced s .pkb = false)
    (free : s.test.pkb = none) (idle : accBusy (.pattern .pkb) s = false) :
    cmdPattern r (fresh s) = ({ fresh s with test := { s.test with pkb := some (patternNamed r s) } }, accR (.pattern .pkb)) := by
  have known' : ¬ fld r.payload 0 1 > 4 := by omega
  have fence' : blockFenced (fresh s) .pkb = false := fence
  have free' : (fresh s).test.pkb = none := free
  have idle' : accBusy (.pattern .pkb) (fresh s) = false := idle
  simp only [cmdPattern, known', target, range, fence', free', idle']
  rfl

theorem cmdPattern_dmc (known : fld r.payload 0 1 ≤ 4) (target : targetBlock r = some .dmc)
    (range : patternIn (spillStart s) usableEnd 48 (fld r.payload 4 8) (fld r.payload 12 8) = true)
    (fence : blockFenced s .dmc = false) (free : s.test.dmc = none) (idle : accBusy (.pattern .dmc) s = false)
    (empty : spillMeets s (fld r.payload 4 8) (fld r.payload 12 8) = false) :
    cmdPattern r (fresh s) = ({ fresh s with test := { s.test with dmc := some (patternNamed r s) } }, accR (.pattern .dmc)) := by
  have known' : ¬ fld r.payload 0 1 > 4 := by omega
  have range' : patternIn (spillStart (fresh s)) usableEnd 48 (fld r.payload 4 8) (fld r.payload 12 8) = true := range
  have fence' : blockFenced (fresh s) .dmc = false := fence
  have free' : (fresh s).test.dmc = none := free
  have idle' : accBusy (.pattern .dmc) (fresh s) = false := idle
  have empty' : spillMeets (fresh s) (fld r.payload 4 8) (fld r.payload 12 8) = false := empty
  simp only [cmdPattern, known', target, range', fence', free', idle', empty']
  rfl

@[simp] theorem spaceWords_fresh (s : State) (b : Block) (space off n : Nat) :
    spaceWords (fresh s) b space off n = spaceWords s b space off n := by
  induction n generalizing off with
  | zero => rfl
  | succ n ih => simp only [spaceWords, spaceReg_fresh, ih]

/-- REG_READ of defined registers that are not sealed. -/
theorem cmdRegRead_next {b : Block} {l : List Nat} (target : targetBlock r = some b) (lo : 1 ≤ fld r.payload 2 2)
    (hi : fld r.payload 2 2 ≤ 250) (aligned : fld r.payload 4 4 % 4 = 0)
    (words : spaceWords s b (fld r.payload 0 1) (fld r.payload 4 4) (fld r.payload 2 2) = some l)
    (open_ : fld r.payload 0 1 ≠ 0 ∨ blockSealed s b = false) : cmdRegRead r (fresh s) = (fresh s, okR (l.flatMap (le 4))) := by
  have words' : spaceWords (fresh s) b (fld r.payload 0 1) (fld r.payload 4 4) (fld r.payload 2 2) = some l := by rw [spaceWords_fresh, words]
  have range : ¬ (fld r.payload 2 2 < 1 ∨ fld r.payload 2 2 > 250 ∨ fld r.payload 4 4 % 4 ≠ 0) := by omega
  have open' : ¬ (fld r.payload 0 1 = 0 ∧ blockSealed (fresh s) b = true) := by
    rintro ⟨space, sealed_⟩
    obtain h | h := open_
    · exact h space
    · exact Bool.false_ne_true (h.symm.trans sealed_)
  simp only [cmdRegRead, target, range, if_false, words', open']

/-- REG_WRITE of LIO registers. -/
theorem cmdRegWrite_lio (target : targetBlock r = some .lio) (space : fld r.payload 0 1 = 0)
    (pass : regWriteFail s .lio 0 (writePairs (fld r.payload 4 4) (r.payload.drop 8)) = none) :
    cmdRegWrite r (fresh s) =
      ((writePairs (fld r.payload 4 4) (r.payload.drop 8)).foldl (fun y e => lioWrite e.1 e.2 y) (fresh s), okR []) := by
  have pass' : regWriteFail (fresh s) .lio 0 (writePairs (fld r.payload 4 4) (r.payload.drop 8)) = none := pass
  simp only [cmdRegWrite, target, space, pass', if_true]

/-- REG_WRITE of fault registers: the RP fields are written to the Almanac first. -/
theorem cmdRegWrite_flt {b : Block} (target : targetBlock r = some b) (space : fld r.payload 0 1 = 1)
    (pass : regWriteFail s b 1 (writePairs (fld r.payload 4 4) (r.payload.drop 8)) = none)
    (kept : (persist ((writePairs (fld r.payload 4 4) (r.payload.drop 8)).flatMap (fun e => rpWrites b e.1 e.2)) r.badWord (fresh s)).2 =
      stOk) :
    cmdRegWrite r (fresh s) =
      (let l := writePairs (fld r.payload 4 4) (r.payload.drop 8)
       (l.foldl (fun y e => fltWrite b e.1 e.2 y) (persist (l.flatMap (fun e => rpWrites b e.1 e.2)) r.badWord (fresh s)).1, okR [])) := by
  have pass' : regWriteFail (fresh s) b 1 (writePairs (fld r.payload 4 4) (r.payload.drop 8)) = none := pass
  simp only [cmdRegWrite, target, space, pass', Nat.one_ne_zero, if_false, kept, ne_eq, not_true_eq_false]

/-- Settles O40. -/
theorem testAndRegisterCommandsRun : Obligations.TestAndRegisterCommandsRun := by
  refine ⟨?loopback, ?pkb, ?dmc, ?read, ?lio, ?flt⟩
  case loopback =>
    rintro s r n ⟨pass, room, unit_, depth, offered, gate, fence, free⟩
    exact runs_to_of_kept (execLoopback_kept r s)
      (congrArg _ (runCmd_accepted pass room (cmdLoopback_start unit_ depth offered gate fence free)))
  case pkb =>
    rintro s r ⟨pass, room, known, target, range, fence, free, idle⟩
    exact runs_to_of_kept (execPattern_kept r s)
      (congrArg _ (runCmd_accepted pass room (cmdPattern_pkb known target range fence free idle)))
  case dmc =>
    rintro s r ⟨pass, room, known, target, range, fence, free, idle, empty⟩
    exact runs_to_of_kept (execPattern_kept r s)
      (congrArg _ (runCmd_accepted pass room (cmdPattern_dmc known target range fence free idle empty)))
  case read =>
    rintro s r b l ⟨pass, target, lo, hi, aligned, words, open_, fits⟩
    exact runs_to_of_kept (execRegRead_kept r s)
      (congrArg _ (runCmd_result pass (cmdRegRead_next target lo hi aligned words open_) rfl fits))
  case lio =>
    rintro s r ⟨pass, target, space, checked⟩
    exact runs_to_of_kept (execRegWrite_kept r s) (congrArg _ (runCmd_done pass (cmdRegWrite_lio target space checked)))
  case flt =>
    rintro s r b ⟨pass, target, space, checked, kept⟩
    exact runs_to_of_kept (execRegWrite_kept r s) (congrArg _ (runCmd_done pass (cmdRegWrite_flt target space checked kept)))

/-! ### The events of tests (R485–R494) -/

/-- A loopback at a depth other than REMOTE runs until its DURATION ends. -/
theorem execLoopbackEnd_duration {n : Fin 19} {e : Nat} {l : Loop} (runs : tabGet s.test.loops n.val = some l) (dur : l.dur ≠ 0)
    (near : l.depth ≠ 4) :
    execLoopbackEnd n e false s = .next
      (let s1 := advanceTo (l.startAt + l.dur) (fresh s)
       endLoop n.val (loopBits s1 n.val l) (sat32 e) stOk { s1 with freeSeq := s1.freeSeq + 1 }) := by
  have near' : (l.depth == 4) = false := beq_eq_false_iff_ne.mpr near
  simp only [execLoopbackEnd, fresh_test, runs, near', Bool.false_and, dur, if_false]
  split <;> simp_all

theorem execPatternComplete_dmc {e c f : Nat} (runs : s.test.dmc ≠ none) :
    execPatternComplete true e c f s =
      .next (endPattern true (sat32 e) (if e = 0 then 0 else f) stOk (countTest .dmc c (fresh s))) := by
  have runs' : (fresh s).test.dmc.isSome = true := Option.isSome_iff_ne_none.mpr runs
  simp only [execPatternComplete, runs', if_true]

theorem execPatternComplete_pkb {e c f : Nat} {p : Pat} (runs : s.test.pkb = some p) (all : cellsTested p = true) :
    execPatternComplete false e c f s = .next (endPattern false (sat32 p.errors) p.first stOk (fresh s)) := by
  simp [execPatternComplete, runs, all]

theorem execPkbPatternCellFree_next {c e k f : Nat} {p : Pat} (runs : s.test.pkb = some p) (lo : p.start ≤ c * 128)
    (hi : c * 128 < p.start + p.bytes) (free : (heldCells (fresh s) ++ deadCells (fresh s)).contains c = false) :
    execPkbPatternCellFree c e k f s = .next { countTest .pkb k (fresh s) with test := { s.test with
      pkb := some { p with tested := p.tested ++ [c], errors := p.errors + e
                           first := if p.errors = 0 ∧ e ≠ 0 then f else p.first } } } := by
  simp only [execPkbPatternCellFree, fresh_test, runs, lo, hi, free, and_self, if_true]

theorem execPkbPatternTimeout_next {p : Pat} (runs : s.test.pkb = some p) (part : cellsTested p = false) :
    execPkbPatternTimeout s = .next (cutPattern false stBusy (advanceTo (p.startAt + 1000000000) (fresh s))) := by
  simp [execPkbPatternTimeout, runs, part]

theorem execRemoteLoopbackRequest_next {u : US} (mode : isExclusive s.pmu.reported = false ∨ s.pmu.reported = .suspend)
    (safe : safeHolds s = false) (term : (usOf s u).ssTerm = true) (present : (usOf s u).link ≠ .rxDetect)
    (on : (usOf s u).link ≠ .disabled) :
    execRemoteLoopbackRequest u s = .next (modUs u (fun x => { x with link := .loopback })
      { fresh s with test := { s.test with slave := s.test.slave.filter (· != u) ++ [u] } }) := by
  have runs : (isExclusive s.pmu.reported && s.pmu.reported != .suspend) = false := by
    obtain h | h := mode <;> simp [h]
  simp [execRemoteLoopbackRequest, runs, safe, term, present, on]

/-- The first Polling.LFPS timeout of an upstream port. -/
theorem execComplianceEntry_upstream {u : US} (term : (usOf s u).ssTerm = true) (pll : s.clk.ssPllLock = true)
    (link : (usOf s u).link = .rxDetect ∨ (usOf s u).link = .polling) :
    execComplianceEntry u none s = .next (enterComp (usPort u) (fresh s)) := by
  obtain link | link := link <;> simp [execComplianceEntry, term, pll, link]

/-- A host's request for a port that offers Compliance Mode. -/
theorem execComplianceEntry_port {u : US} {w : Fin 15} {d : DS} (up : hubUp s u true = true) (owned : ownedAt s u w = some d)
    (ss : d.val < 8) (held : ssHeldByDp (hostSeen u (emit (.control u []) (fresh s))) d = false)
    (fence : portFenced (hostSeen u (emit (.control u []) (fresh s))) (dsPort d) = false)
    (still : movingNow (hostSeen u (emit (.control u []) (fresh s))) d = false) :
    execComplianceEntry u (some w) s = .next (enterComp (dsPort d) (hostSeen u (emit (.control u []) (fresh s)))) := by
  have up' : hubUp (fresh s) u true = true := up
  have owned' : ownedAt (fresh s) u w = some d := owned
  simp only [execComplianceEntry, up', owned', ss, held, fence, still]
  rfl

theorem execCompliancePingLfps_ds {p : Port} {d : DS} (port : portDs p = some d) (link : (dsOf s d).link = .compliance) :
    execCompliancePingLfps p s = .next { fresh s with
      test := { s.test with comp := tabPut s.test.comp p.val ((tabGet s.test.comp p.val).getD 0 + 1) } } := by
  have link' : ((dsOf (fresh s) d).link == .compliance) = true := beq_iff_eq.mpr link
  simp only [execCompliancePingLfps, port, link']
  rfl

/-- USB2_PORT_TEST on a port that the hub owns: the test mode, or STALL. -/
theorem execUsb2PortTest_owned {u : US} {v : Fin 15} {n : Nat} {d : DS} (up : hubUp s u false = true) (owned : ownedAt s u v = some d) :
    execUsb2PortTest u v n s = .next
      (let s1 := hostSeen u (fresh s)
       if !testMode n || !quietPorts s1 u || heldHere s1 d || portFenced s1 (dsPort d) then emit (.stall u) s1
       else modDs d (fun x => { x with test2 := n }) (emit (.control u []) s1)) := by
  have up' : hubUp (fresh s) u false = true := up
  have owned' : ownedAt (fresh s) u v = some d := owned
  simp only [execUsb2PortTest, up', owned']
  rfl

theorem execUsb2TestModeUpstream_next {u : US} {n : Nat} (up : hubUp s u false = true) (known : testMode n = true) :
    execUsb2TestModeUpstream u n s =
      .next (modUs u (fun x => { x with test2 := n }) (emit (.control u []) (hostSeen u (fresh s)))) := by
  have up' : hubUp (fresh s) u false = true := up
  simp only [execUsb2TestModeUpstream, up', known]
  rfl

/-- A BIST message in SERVICE at vSafe5V: carrier, test data, or a mode that the port does not know. -/
theorem execBistMessage_next {p : Port} {m : PdMsg} (hand : (phyOf s p).inHand = some m) (up : thymeDown s p = false)
    (bist : isData m 3 = true) :
    execBistMessage p s = .next
      (if !(s.pmu.reported == .service && (pwrOf s p).vout == 5000) then handed p s
       else if bits (pdObj m 0) 31 28 = 5 then emit (.carrier p) (modPhy p (fun x => { x with bist := 1, bistAt := s.now }) (handed p s))
       else if bits (pdObj m 0) 31 28 = 8 then modPhy p (fun x => { x with bist := 2 }) (handed p s)
       else handed p s) :=
  congrArg Host.Outcome.next (takeHand_some hand up bist)

theorem execBistCarrierEnd_next {p : Port} (runs : (phyOf s p).bist = 1) :
    execBistCarrierEnd p s =
      .next (modPhy p (fun x => { x with bist := 0 }) (advanceTo ((phyOf s p).bistAt + 45000000) (fresh s))) :=
  congrArg Host.Outcome.next (if_pos runs)

/-! ### Boundary scan (R495, R496) -/

/-- JTAG_TRST_N low. -/
theorem execJtagInstruction_reset {i : Jtag} {l : List (Ball × Bool)} (main : s.sup.mainOn = true) (balls : s.sup.ballsFloat = false) :
    execJtagInstruction i false l s = .next { fresh s with test := { s.test with jtag := .idcode, cells := [] } } := by
  simp only [execJtagInstruction, fresh_sup, main, balls]
  rfl

/-- What TDO shifts out under an instruction. -/
def tapAnswer (j : Jtag) (s : State) : Out := match j with
  | .bypass => .tap .bypass []
  | .idcode => .idcode 0x171629E7
  | _ => .tap j (sampleBalls s)

/-- The instruction that is executed: one that drives balls only where boundary scan does. -/
theorem execJtagInstruction_next {i j : Jtag} {l : List (Ball × Bool)} (main : s.sup.mainOn = true) (balls : s.sup.ballsFloat = false)
    (as : (if drivesBalls i && !scanRuns (fresh s) then Jtag.bypass else i) = j) :
    execJtagInstruction i true l s = .next
      (let s1 := { fresh s with test := { s.test with jtag := j, cells := if j = .bypass ∨ j = .idcode then s.test.cells else l } }
       emit (tapAnswer j (fresh s)) s1) := by
  simp only [execJtagInstruction, fresh_sup, main, balls, as]
  cases j <;> rfl

/-- An instruction that drives balls is neither BYPASS nor IDCODE. -/
theorem drivesBalls_ne {i : Jtag} (h : drivesBalls i = true) : i ≠ .bypass ∧ i ≠ .idcode := by
  constructor <;> rintro rfl <;> cases h

/-- Settles O41. -/
theorem testEventsRun : Obligations.TestEventsRun := by
  refine ⟨?loopback, ?dmc, ?pkb, ?cell, ?timeout, ?remote, ?compUp, ?compPort, ?ping, ?portTest, ?upTest, ?carrier, ?data, ?outside,
    ?carrierEnd, ?idcode, ?bypass, ?scan, ?noScan, ?trst⟩
  case loopback =>
    rintro s n e _ l ⟨runs, rfl, dur, near⟩
    exact runs_to_of_kept (execLoopbackEnd_kept n e false s) (execLoopbackEnd_duration runs dur near)
  case dmc =>
    rintro s _ e c f ⟨rfl, runs⟩
    exact runs_to_of_kept (execPatternComplete_kept true e c f s) (execPatternComplete_dmc runs)
  case pkb =>
    rintro s _ e c f p ⟨rfl, runs, all⟩
    exact runs_to_of_kept (execPatternComplete_kept false e c f s) (execPatternComplete_pkb (e := e) (c := c) (f := f) runs all)
  case cell =>
    rintro s c e k f p ⟨runs, lo, hi, free⟩
    exact runs_to_of_kept (execPkbPatternCellFree_kept c e k f s) (execPkbPatternCellFree_next runs lo hi free)
  case timeout =>
    rintro s p ⟨runs, part⟩
    exact runs_to_of_kept (execPkbPatternTimeout_kept s) (execPkbPatternTimeout_next runs part)
  case remote =>
    rintro s u ⟨mode, safe, term, present, on⟩
    exact runs_to_of_kept (execRemoteLoopbackRequest_kept u s) (execRemoteLoopbackRequest_next mode safe term present on)
  case compUp =>
    rintro s u _ ⟨rfl, term, pll, link⟩
    exact runs_to_of_kept (execComplianceEntry_kept u none s) (execComplianceEntry_upstream term pll link)
  case compPort =>
    rintro s u _ w d ⟨rfl, up, owned, ss, held, fence, still⟩
    exact runs_to_of_kept (execComplianceEntry_kept u (some w) s) (execComplianceEntry_port up owned ss held fence still)
  case ping =>
    rintro s p d ⟨port, link⟩
    exact runs_to_of_kept (execCompliancePingLfps_kept p s) (execCompliancePingLfps_ds port link)
  case portTest =>
    rintro s u v n d ⟨up, owned⟩
    exact runs_to_of_kept (execUsb2PortTest_kept u v n s) (execUsb2PortTest_owned up owned)
  case upTest =>
    rintro s u n ⟨up, known⟩
    exact runs_to_of_kept (execUsb2TestModeUpstream_kept u n s) (execUsb2TestModeUpstream_next up known)
  case carrier =>
    rintro s p m ⟨hand, up, bist, service, volt, mode⟩
    refine runs_to_of_kept (execBistMessage_kept p s) ((execBistMessage_next hand up bist).trans ?_)
    simp [service, volt, mode]
  case data =>
    rintro s p m ⟨hand, up, bist, service, volt, mode⟩
    refine runs_to_of_kept (execBistMessage_kept p s) ((execBistMessage_next hand up bist).trans ?_)
    simp [service, volt, mode]
  case outside =>
    rintro s p m ⟨hand, up, bist, mode⟩
    refine runs_to_of_kept (execBistMessage_kept p s) ((execBistMessage_next hand up bist).trans ?_)
    simp [mode]
  case carrierEnd =>
    rintro s p runs
    exact runs_to_of_kept (execBistCarrierEnd_kept p s) (execBistCarrierEnd_next runs)
  case idcode =>
    rintro s _ _ l ⟨main, balls, rfl, rfl⟩
    exact runs_to_of_kept (execJtagInstruction_kept .idcode true l s)
      ((execJtagInstruction_next (i := .idcode) (j := .idcode) (l := l) main balls rfl).trans rfl)
  case bypass =>
    rintro s _ _ l ⟨main, balls, rfl, rfl⟩
    exact runs_to_of_kept (execJtagInstruction_kept .bypass true l s)
      ((execJtagInstruction_next (i := .bypass) (j := .bypass) (l := l) main balls rfl).trans rfl)
  case scan =>
    rintro s i _ l ⟨main, balls, rfl, may⟩
    have as : (if drivesBalls i && !scanRuns (fresh s) then Jtag.bypass else i) = i := by
      obtain rfl | ⟨-, scan⟩ := may
      · rfl
      · rw [scan, Bool.not_true, Bool.and_false]
        rfl
    refine runs_to_of_kept (execJtagInstruction_kept i true l s) ((execJtagInstruction_next main balls as).trans ?_)
    obtain rfl | ⟨drives, -⟩ := may
    · rfl
    · cases i <;> first | rfl | cases drives
  case noScan =>
    rintro s i _ l ⟨main, balls, rfl, drives, scan⟩
    have as : (if drivesBalls i && !scanRuns (fresh s) then Jtag.bypass else i) = .bypass := by simp only [drives, scan]; rfl
    exact runs_to_of_kept (execJtagInstruction_kept i true l s)
      ((execJtagInstruction_next (l := l) main balls as).trans rfl)
  case trst =>
    rintro s i _ l ⟨main, balls, rfl⟩
    exact runs_to_of_kept (execJtagInstruction_kept i false l s) (execJtagInstruction_reset main balls)

end

end Sys2Proof.Machine
end

section
/-! SUPPORT. SPIT frames, the transport registers, the priority path and I2CT (R403, R423–R440, R480, R507). -/

set_option Elab.async false

namespace Sys2Proof.Machine

section
variable {s : State}

/-! ### SPIT frames (R434, R480, R507) -/

/-- A frame that starts within 5 µs of the wake that its select causes is ignored. -/
theorem execSpitFrame_early {n : Nat} {i : Byte} {a : Word} {l : List Byte} {r : Nat} {b : BootIn} (up : spitPowered s = true)
    (mode : s.pmu.reported = .suspend) (early : n < 5000) :
    execSpitFrame n i a l r b s = .next (frameError (suspendWake 6 0 0 (fresh s))) := by
  have up' : spitPowered (fresh s) = true := up
  simp [execSpitFrame, up', mode, early]

/-- A frame with SPIT awake: what it does once its select has fallen. -/
theorem execSpitFrame_awake {n : Nat} {i : Byte} {a : Word} {l : List Byte} {r : Nat} {b : BootIn} (up : spitPowered s = true)
    (mode : s.pmu.reported ≠ .suspend) :
    execSpitFrame n i a l r b s =
      (let bad := wordSpace a.toNat && a.toNat % 4 != 0
       let s2 := { fresh s with mbx := { s.mbx with frameErr := false } }
       if i = 0x0B then
         let d := if bad then List.replicate r 0 else (List.range r).map (fun j => spitByte s2 ((a.toNat + j) % 2 ^ 32))
         .next (emit (.spit (spitStatus s) d) (if bad then frameError s2 else s2))
       else
         let s3 := emit (.spit (spitStatus s) []) s2
         .next (if i = 0x02 ∧ bad = false then spitWrite b l.length a.toNat l s3 else frameError s3)) := by
  have up' : spitPowered (fresh s) = true := up
  have mode' : ((fresh s).pmu.reported == .suspend) = false := beq_eq_false_iff_ne.mpr mode
  simp only [execSpitFrame, up', mode']
  rfl

/-- An address that is a whole aligned word, or outside the word spaces. -/
theorem aligned_iff (a : Nat) : (wordSpace a && a % 4 != 0) = true ↔ wordSpace a = true ∧ a % 4 ≠ 0 := by
  simp

/-! ### Register writes (R403, R404, R435) -/

theorem execRegisterWrite_transport {a v : Word} {b : BootIn} (up : spitPowered s = true) (aligned : a.toNat % 4 = 0)
    (noFlt : fltAddr a.toNat = none) (low : a.toNat < 0x1000) :
    execRegisterWrite a v b s = .next (transportWrite b a.toNat v.toNat (fresh s)) := by
  have up' : spitPowered (fresh s) = true := up
  simp [execRegisterWrite, up', aligned, noFlt, low]

theorem execRegisterWrite_flt {a v : Word} {b : BootIn} {k : Block} {o : Nat} (up : spitPowered s = true) (aligned : a.toNat % 4 = 0)
    (flt : fltAddr a.toNat = some (k, o)) :
    execRegisterWrite a v b s = .next (if o = 0x18 && regWritable s then fltWrite k o v.toNat (fresh s) else fresh s) := by
  have up' : spitPowered (fresh s) = true := up
  simp only [execRegisterWrite, up', aligned, flt]
  rfl

theorem execRegisterWrite_misaligned {a v : Word} {b : BootIn} (aligned : a.toNat % 4 ≠ 0) :
    execRegisterWrite a v b s = .next (fresh s) := by
  simp [execRegisterWrite, aligned]

/-! ### Ring registers (R423, R424, R435) -/

/-- A row that writes a transport register, where the registers answer. -/
theorem onMbx_next {f : Mbx → Mbx} {m : Mbx} (ready : s.sup.ready = true) (h : f s.mbx = m) :
    Host.Outcome.next (onMbx f s) = (.next { fresh s with mbx := m } : Res) := by
  rw [onMbx_ready ready, h]

theorem tailReg_eq {r : Fin 16} (v : BitVec 16) (m : Mbx) (lo : r.val ≠ 0) (hi : r.val < 8) :
    tailReg r v.toNat m = if spitOwns m r = false then ringErr r 4 m
      else if (v.toNat + 65536 - m.rings[r].head) % 65536 > ringDepth m.rings[r] then ringErr r 1 m
      else setRing r { m.rings[r] with tail := v.toNat } m := by
  have small : v.toNat % 65536 = v.toNat := Nat.mod_eq_of_lt v.isLt
  have command : ¬ (r.val = 0 ∨ r.val ≥ 8) := by omega
  simp only [tailReg, command, if_false, tailWrite, small]
  cases spitOwns m r <;> rfl

theorem headReg_eq {r : Fin 16} (now : Nat) (v : BitVec 16) (m : Mbx) (hi : 8 < r.val) :
    headReg now r v.toNat m = if spitOwns m r then flushCpl now (ringPair r) (setRing r { m.rings[r] with head := v.toNat } m)
      else ringErr r 4 m := by
  have small : v.toNat % 65536 = v.toNat := Nat.mod_eq_of_lt v.isLt
  have completion : ¬ r.val < 8 := by omega
  have other : ¬ r.val = 8 := by omega
  simp only [headReg, completion, headWrite, other, small, if_false, false_or]

theorem headReg_cpl0 {r : Fin 16} (now v : Nat) (m : Mbx) (h : r.val = 8) : headReg now r v m = flushCpl now 0 (cpl0Consume .spit v m) := by
  simp [headReg, headWrite, h]

theorem runReg_eq {r : Fin 16} (now : Nat) (on : Bool) (m : Mbx) (h : (ringPair r).val ≠ 0) :
    runReg now r on m = flushCpl now (ringPair r)
      (if on ∧ geomOk r m = false then ringErr r 2 m else setRing r { m.rings[r] with run := on } m) := by
  cases on <;> cases geom : geomOk r m <;> simp [runReg, runWrite, h, geom]

theorem geomWrite_eq {r : Fin 16} (base log2 : Nat) (m : Mbx) (h : (ringPair r).val ≠ 0) :
    geomWrite r base log2 m = if m.rings[r].run = true ∨ log2 < 4 ∨ 10 < log2 then ringErr r 2 m
      else setRing r { m.rings[r] with base := base, log2 := log2 } m := by
  simp only [geomWrite, h, if_false, gt_iff_lt]

theorem prioDoorbell_submit {n : BitVec 5} (m : Mbx) (lo : n ≠ 0) (hi : n.toNat ≤ 16) :
    prioDoorbell n.toNat m = (let x := cmd0Append .spit (memRead 0 m.stage 0 (64 * n.toNat)) m
      setIrq { x.1 with prioRefused := !x.2 } 11) := by
  have some_ : n.toNat ≠ 0 := fun h => lo (BitVec.eq_of_toNat_eq h)
  have range : ¬ (n.toNat = 0 ∨ n.toNat > 16) := by omega
  exact if_neg range

theorem prioDoorbell_refused {n : BitVec 5} (m : Mbx) (h : n = 0 ∨ 16 < n.toNat) :
    prioDoorbell n.toNat m = { m with frameErr := true } := by
  have range : n.toNat = 0 ∨ n.toNat > 16 := h.imp_left (congrArg BitVec.toNat)
  exact if_pos range

/-- Settles O29. -/
theorem registersOverSpitRun : Obligations.RegistersOverSpitRun := by
  refine ⟨?early, ?read, ?misread, ?write, ?unknown, ?transport, ?mask, ?otherFlt, ?misaligned, ?tail, ?head, ?cpl0, ?run, ?reset, ?geom,
    ?assign, ?irq, ?prio, ?prioBad⟩
  case early =>
    rintro s n i a l r b ⟨up, mode, early⟩
    exact runs_to_of_kept (execSpitFrame_kept n i a l r b s) (execSpitFrame_early up mode early)
  case read =>
    rintro s n _ a l r b ⟨up, mode, rfl, aligned⟩
    refine runs_to_of_kept (execSpitFrame_kept n 0x0B a l r b s) ((execSpitFrame_awake up mode).trans ?_)
    rw [← aligned_iff] at aligned
    simp only [aligned, if_true]
    rfl
  case misread =>
    rintro s n _ a l r b ⟨up, mode, rfl, word, aligned⟩
    have bad := (aligned_iff a.toNat).mpr ⟨word, aligned⟩
    refine runs_of_kept_next (execSpitFrame_kept n 0x0B a l r b s) (execSpitFrame_awake up mode) ?_
    simp only [bad, if_true]
    exact ⟨rfl, rfl⟩
  case write =>
    rintro s n _ a l r b ⟨up, mode, rfl, aligned⟩
    refine runs_to_of_kept (execSpitFrame_kept n 0x02 a l r b s) ((execSpitFrame_awake up mode).trans ?_)
    rw [← aligned_iff] at aligned
    simp only [aligned]
    rfl
  case unknown =>
    rintro s n i a l r b ⟨up, mode, notWrite, notRead⟩
    refine runs_to_of_kept (execSpitFrame_kept n i a l r b s) ((execSpitFrame_awake up mode).trans ?_)
    simp only [notRead, notWrite, if_false, false_and]
  case transport =>
    rintro s a v b ⟨up, aligned, noFlt, low⟩
    exact runs_to_of_kept (execRegisterWrite_kept a v b s) (execRegisterWrite_transport up aligned noFlt low)
  case mask =>
    rintro s a v b k _ ⟨up, aligned, flt, rfl, may⟩
    refine runs_to_of_kept (execRegisterWrite_kept a v b s) ((execRegisterWrite_flt up aligned flt).trans ?_)
    simp [may]
  case otherFlt =>
    rintro s a v b k o ⟨up, aligned, flt, other⟩
    refine runs_to_of_kept (execRegisterWrite_kept a v b s) ((execRegisterWrite_flt up aligned flt).trans ?_)
    simp [other]
  case misaligned =>
    rintro s a v b aligned
    exact runs_to_of_kept (execRegisterWrite_kept a v b s) (execRegisterWrite_misaligned aligned)
  case tail =>
    rintro s r v ⟨ready, lo, hi⟩
    exact runs_to_of_kept (execRingTailWrite_kept r v s) (onMbx_next ready (tailReg_eq v s.mbx lo hi))
  case head =>
    rintro s r v ⟨ready, hi⟩
    exact runs_to_of_kept (execRingHeadWrite_kept r v s) (onMbx_next ready (headReg_eq s.now v s.mbx hi))
  case cpl0 =>
    rintro s r v ⟨ready, h⟩
    exact runs_to_of_kept (execRingHeadWrite_kept r v s) (onMbx_next ready (headReg_cpl0 s.now v.toNat s.mbx h))
  case run =>
    rintro s r on ⟨ready, h⟩
    exact runs_to_of_kept (execRingCtrlRun_kept r on s) (onMbx_next ready (runReg_eq s.now on s.mbx h))
  case reset =>
    rintro s r ⟨ready, h⟩
    exact runs_to_of_kept (execRingCtrlReset_kept r s) (onMbx_next ready (if_neg h))
  case geom =>
    rintro s r a n ⟨ready, h⟩
    exact runs_to_of_kept (execRingGeomWrite_kept r a n s) (onMbx_next ready (geomWrite_eq a.toNat n.toNat s.mbx h))
  case assign =>
    rintro s v ready
    exact runs_to_of_kept (execRingAssignWrite_kept v s) (onMbx_next ready rfl)
  case irq =>
    rintro s v ready
    exact runs_to_of_kept (execIrqStatusClear_kept v s) (onMbx_next ready rfl)
  case prio =>
    rintro s n ⟨ready, lo, hi⟩
    exact runs_to_of_kept (execPrioDoorbell_kept n s) (onMbx_next ready (prioDoorbell_submit s.mbx lo hi))
  case prioBad =>
    rintro s n ⟨ready, h⟩
    exact runs_to_of_kept (execPrioDoorbell_kept n s) (onMbx_next ready (prioDoorbell_refused s.mbx h))

/-! ### COMMAND_TAKE and the priority path (R428, R432) -/

/-- Taking a command leaves what the common checks look at. -/
theorem precheck_consume (c : CmdSpec) (r : Req) (k : Fin 8) (n : Nat) :
    precheck c r { fresh s with mbx := consume k n s.mbx } = precheck c r s := rfl

/-- With nothing to take nothing happens. -/
theorem execCommandTake_idle {b : Option Nat} (none_ : (takeOrder s).find? (mayTake s) = none) :
    execCommandTake b s = .next (fresh s) := by
  have none' : (takeOrder (fresh s)).find? (mayTake (fresh s)) = none := none_
  simp only [execCommandTake, none']
  split <;> rfl

/-- The oldest CPL0 entry freed after 1 s, and CPL0_LOST for each transport that had not consumed it. -/
theorem execCpl0EntryExpiry_next {e : Cpl0Slot} {l : List Cpl0Slot} (oldest : s.mbx.cpl0 = e :: l) :
    execCpl0EntryExpiry s = .next
      (let lost : Transport → Bool := fun x => decide (x ∈ e.waits)
       let s1 := advanceTo (e.at_ + 1000000000) (fresh s)
       let m1 := if lost .spit then setIrq s1.mbx 8 else s1.mbx
       let m2 := if lost .i2ct then { m1 with i2cCpl0Lost := true } else m1
       let mark : Fin 2 → Mbx → Mbx := fun i m =>
         { m with lmf := m.lmf.set i { m.lmf[i] with cpl0Lost := true, freed := min 0xFFFF (m.lmf[i].freed + 1) } }
       let m3 := if lost (.lmf .us0) then mark 0 m2 else m2
       let m4 := if lost (.lmf .us1) then mark 1 m3 else m3
       { s1 with mbx := flushCpl s1.now 0 (trimCpl0 { m4 with cpl0 := { e with waits := [] } :: l }) }) := by
  simp only [execCpl0EntryExpiry, fresh_mbx, oldest]

/-! ### I2CT (R436) -/

/-- A transaction to another address is not the controller's. -/
theorem other_address {a : BitVec 7} (other : a ≠ i2ctAddr s) : a ≠ i2ctAddr (fresh s) := other

theorem execI2ctStatus_read {a : BitVec 7} (addr : a = i2ctAddr s) (ready : s.sup.ready = true) :
    execI2ctStatus a true s = .next { fresh s with
      out := [.i2c (le 2 (i2ctStatusWord s))], mbx := { s.mbx with i2cEvLost := false, i2cCpl0Lost := false, i2cPecErr := false } } := by
  have addr' : ¬ a ≠ i2ctAddr (fresh s) := not_not_intro addr
  simp only [execI2ctStatus, addr', if_false, fresh_sup, ready]
  rfl

theorem execI2ctStatus_badPec {a : BitVec 7} (addr : a = i2ctAddr s) (ready : s.sup.ready = true) :
    execI2ctStatus a false s = .next { fresh s with out := [.i2cNack], mbx := { s.mbx with i2cPecErr := true } } := by
  have addr' : ¬ a ≠ i2ctAddr (fresh s) := not_not_intro addr
  simp only [execI2ctStatus, addr', if_false, fresh_sup, ready]
  rfl

/-- A command that is too short, too long or finds CMD4 full is NACKed; any other is appended. -/
theorem execI2ctCmd4Submit_next {a : BitVec 7} {l : List Byte} (addr : a = i2ctAddr s) (up : i2ctUp s = true) :
    execI2ctCmd4Submit a l true s = .next
      (if l.length < 16 ∨ l.length > 255 ∨ (l.length + 63) / 64 > ringFree s.mbx.rings[(4 : Fin 16)] then emit .i2cNack (fresh s)
       else { fresh s with mbx := ringAppend 4 l s.mbx }) := by
  have addr' : ¬ a ≠ i2ctAddr (fresh s) := not_not_intro addr
  have up' : i2ctUp (fresh s) = true := up
  simp only [execI2ctCmd4Submit, addr', if_false, up', fresh_mbx]
  exact (apply_ite Host.Outcome.next _ _ _).symm

theorem execI2ctCpl4Fetch_entry {a : BitVec 7} {x : List Byte × Nat} (addr : a = i2ctAddr s) (up : i2ctUp s = true)
    (entry : oldestEntry s.mbx 12 = some x) :
    execI2ctCpl4Fetch a true s = .next { fresh s with
      out := [.i2c x.1], mbx := headWrite s.now 12 (s.mbx.rings[(12 : Fin 16)].head + x.2) s.mbx } := by
  have addr' : ¬ a ≠ i2ctAddr (fresh s) := not_not_intro addr
  have up' : i2ctUp (fresh s) = true := up
  simp only [execI2ctCpl4Fetch, addr', if_false, up', fresh_mbx, entry]
  rfl

theorem execI2ctCpl4Fetch_empty {a : BitVec 7} (addr : a = i2ctAddr s) (up : i2ctUp s = true) (empty : oldestEntry s.mbx 12 = none) :
    execI2ctCpl4Fetch a true s = .next { fresh s with out := [.i2c []] } := by
  have addr' : ¬ a ≠ i2ctAddr (fresh s) := not_not_intro addr
  have up' : i2ctUp (fresh s) = true := up
  simp only [execI2ctCpl4Fetch, addr', if_false, up', fresh_mbx, empty]
  rfl

theorem execI2ctCmd0Submit_next {a : BitVec 7} {l : List Byte} (addr : a = i2ctAddr s) (up : i2ctUp s = true) (lo : 16 ≤ l.length)
    (hi : l.length ≤ 255) (room : (cmd0Append .i2ct l s.mbx).2 = true) :
    execI2ctCmd0Submit a l true s = .next { fresh s with mbx := (cmd0Append .i2ct l s.mbx).1 } := by
  have addr' : ¬ a ≠ i2ctAddr (fresh s) := not_not_intro addr
  have up' : i2ctUp (fresh s) = true := up
  have size : ¬ (l.length < 16 ∨ l.length > 255) := by omega
  simp only [execI2ctCmd0Submit, addr', if_false, up', size, fresh_mbx, room, if_true]
  rfl

theorem execI2ctCpl0Fetch_entry {a : BitVec 7} {x : List Byte × Cpl0Slot} (addr : a = i2ctAddr s) (up : i2ctUp s = true)
    (entry : oldestCpl0 .i2ct s.mbx = some x) :
    execI2ctCpl0Fetch a true s = .next { fresh s with
      out := [.i2c (x.1.take (16 + fld x.1 8 2 + 4 * (fld x.1 2 1 % 2)))]
      mbx := flushCpl s.now 0 (cpl0Consume .i2ct (x.2.idx + x.2.slots) s.mbx) } := by
  have addr' : ¬ a ≠ i2ctAddr (fresh s) := not_not_intro addr
  have up' : i2ctUp (fresh s) = true := up
  simp only [execI2ctCpl0Fetch, addr', if_false, up', fresh_mbx, entry]
  rfl

/-- Settles O30. -/
theorem i2ctAndPriorityRun : Obligations.I2ctAndPriorityRun := by
  refine ⟨?wrong, ?bad, ?echo, ?idle, ?expiry, ?status, ?statusPec, ?submit4, ?full4, ?fetch4, ?empty4, ?submit0, ?fetch0, ?timeout,
    ?other1, ?other2, ?other3, ?other4, ?other5⟩
  case wrong =>
    rintro s b k n op st f g ⟨ready, awake, sys, por, on, turn, head⟩
    obtain ⟨-, wrong, -⟩ := badHeadIsSkippedAndAnswered b s k ready awake sys por on turn
    exact runs_to_of_kept (execCommandTake_kept b s) (wrong n st op f g head)
  case bad =>
    rintro s b k n ⟨ready, awake, sys, por, on, turn, head⟩
    obtain ⟨bad, -, -⟩ := badHeadIsSkippedAndAnswered b s k ready awake sys por on turn
    exact runs_to_of_kept (execCommandTake_kept b s) (bad n head)
  case echo =>
    rintro s b k n r ⟨ready, awake, sys, por, on, turn, head, pass, bare, fits⟩
    have row := takenCommandRunsItsRow b s (.echo r) specEcho k n r ready awake sys por on turn head rfl
    have pass' : Passes specEcho r { fresh s with mbx := consume k n s.mbx } := (precheck_consume specEcho r k n).trans pass
    exact runs_to_of_kept (execCommandTake_kept b s) (row.trans (execEcho_next pass' bare fits))
  case idle =>
    rintro s b none_
    exact runs_to_of_kept (execCommandTake_kept b s) (execCommandTake_idle none_)
  case expiry =>
    rintro s e l oldest
    exact runs_to_of_kept (execCpl0EntryExpiry_kept s) (execCpl0EntryExpiry_next oldest)
  case status =>
    rintro s a _ ⟨addr, ready, rfl⟩
    exact runs_to_of_kept (execI2ctStatus_kept a true s) (execI2ctStatus_read addr ready)
  case statusPec =>
    rintro s a _ ⟨addr, ready, rfl⟩
    exact runs_to_of_kept (execI2ctStatus_kept a false s) (execI2ctStatus_badPec addr ready)
  case submit4 =>
    rintro s a l _ ⟨addr, up, rfl, lo, hi, room⟩
    have fits : ¬ (l.length < 16 ∨ l.length > 255 ∨ (l.length + 63) / 64 > ringFree s.mbx.rings[(4 : Fin 16)]) := by omega
    exact runs_to_of_kept (execI2ctCmd4Submit_kept a l true s)
      ((execI2ctCmd4Submit_next addr up).trans (congrArg _ (if_neg fits)))
  case full4 =>
    rintro s a l _ ⟨addr, up, rfl, full⟩
    exact runs_to_of_kept (execI2ctCmd4Submit_kept a l true s)
      ((execI2ctCmd4Submit_next addr up).trans (congrArg _ (if_pos (.inr (.inr full)))))
  case fetch4 =>
    rintro s a _ x ⟨addr, up, rfl, entry⟩
    exact runs_to_of_kept (execI2ctCpl4Fetch_kept a true s) (execI2ctCpl4Fetch_entry addr up entry)
  case empty4 =>
    rintro s a _ ⟨addr, up, rfl, empty⟩
    exact runs_to_of_kept (execI2ctCpl4Fetch_kept a true s) (execI2ctCpl4Fetch_empty addr up empty)
  case submit0 =>
    rintro s a l _ ⟨addr, up, rfl, lo, hi, room⟩
    exact runs_to_of_kept (execI2ctCmd0Submit_kept a l true s) (execI2ctCmd0Submit_next addr up lo hi room)
  case fetch0 =>
    rintro s a _ x ⟨addr, up, rfl, entry⟩
    exact runs_to_of_kept (execI2ctCpl0Fetch_kept a true s) (execI2ctCpl0Fetch_entry addr up entry)
  case timeout =>
    rintro s n long
    exact runs_to_of_kept (execI2ctBusTimeout_kept n s) (congrArg _ (if_pos long))
  case other1 =>
    rintro s a pec other
    exact runs_to_of_kept (execI2ctStatus_kept a pec s) (if_pos (other_address other))
  case other2 =>
    rintro s a l pec other
    exact runs_to_of_kept (execI2ctCmd4Submit_kept a l pec s) (if_pos (other_address other))
  case other3 =>
    rintro s a pec other
    exact runs_to_of_kept (execI2ctCpl4Fetch_kept a pec s) (if_pos (other_address other))
  case other4 =>
    rintro s a l pec other
    exact runs_to_of_kept (execI2ctCmd0Submit_kept a l pec s) (if_pos (other_address other))
  case other5 =>
    rintro s a pec other
    exact runs_to_of_kept (execI2ctCpl0Fetch_kept a pec s) (if_pos (other_address other))

end

end Sys2Proof.Machine
end

section
/-! SUPPORT. The endpoints of an LMF that its host can reach (R32, R110, R437–R439). -/

set_option Elab.async false

namespace Sys2Proof.Machine

section
variable {s : State} {u : US}

/-- LMF_CMD0_SUBMIT of whole slots within the priority class's bound. -/
theorem execLmfCmd0Submit_go {n : Nat} {l : List Byte} (up : lmfUp (begun s) u = true) (some_ : n ≠ 0) (whole : n % 64 = 0)
    (hi : n ≤ 1024) (go : prioGo (begun s) u n = true) :
    execLmfCmd0Submit u n l s = .next
      (let x := cmd0Append (.lmf u) (slice l 0 n) (begun s).mbx
       if x.2 then { emit (.control u []) (prioCharge u n (begun s)) with mbx := x.1 } else emit (.stall u) (begun s)) := by
  have size : ¬ (n = 0 ∨ n % 64 ≠ 0 ∨ n > 1024) := by omega
  simp only [execLmfCmd0Submit, ← begun.eq_1, up, size, go]
  rfl

theorem execLmfCmd0Submit_stall {n : Nat} {l : List Byte} (up : lmfUp (begun s) u = true) (size : n = 0 ∨ n % 64 ≠ 0 ∨ 1024 < n) :
    execLmfCmd0Submit u n l s = .next (emit (.stall u) (begun s)) := by
  have size' : n = 0 ∨ n % 64 ≠ 0 ∨ n > 1024 := size
  simp only [execLmfCmd0Submit, ← begun.eq_1, up, size', if_true]
  rfl

theorem execLmfCmd0Submit_wait {n : Nat} {l : List Byte} (up : lmfUp (begun s) u = true) (some_ : n ≠ 0) (whole : n % 64 = 0)
    (hi : n ≤ 1024) (go : prioGo (begun s) u n = false) :
    execLmfCmd0Submit u n l s = .next (emit (.nak u) (begun s)) := by
  have size : ¬ (n = 0 ∨ n % 64 ≠ 0 ∨ n > 1024) := by omega
  simp only [execLmfCmd0Submit, ← begun.eq_1, up, size, go]
  rfl

/-- LMF_CPL0_FETCH with room for the oldest entry: every whole entry that fits is returned and consumed. -/
theorem execLmfCpl0Fetch_next {n : Nat} {x : List Byte × Cpl0Slot} (up : lmfUp (begun s) u = true) (lo : 64 ≤ n) (hi : n ≤ 1024)
    (whole : n % 64 = 0) (entry : oldestCpl0 (.lmf u) (begun s).mbx = some x) (room : 64 * x.2.slots ≤ n)
    (go : prioGo (begun s) u (takeCpl0 u (begun s).mbx n (begun s).mbx.cpl0).1.length = true) :
    execLmfCpl0Fetch u n s = .next
      (let y := takeCpl0 u (begun s).mbx n (begun s).mbx.cpl0
       { emit (.control u y.1) (prioCharge u y.1.length (begun s)) with
         mbx := flushCpl (begun s).now 0 (cpl0Consume (.lmf u) (y.2 % 65536) (begun s).mbx) }) := by
  have size : ¬ (n < 64 ∨ n > 1024 ∨ n % 64 ≠ 0) := by omega
  have room' : ¬ 64 * x.2.slots > n := by omega
  simp only [execLmfCpl0Fetch, ← begun.eq_1, up, size, entry, room', go]
  rfl

/-- LMF_BULK_OUT of a packet for which the ring and the tag pool have room. -/
theorem execLmfBulkOut_ack {l : List Byte} {e : Bool} (up : lmfUp (begun s) u = true) (packet : l.length ≤ lmfBulkMps (begun s) u)
    (room : (((begun s).mbx.lmf[u.idx].rx ++ l).length + 63) / 64 ≤ ringFree (begun s).mbx.rings[cmdRing (lmfPair u)])
    (tag : tagFree (begun s) 3 none = true) :
    execLmfBulkOut u l e s = .next
      (let m := (begun s).mbx
       let x := m.lmf[u.idx]
       let m1 := if e then setLmf u { x with rx := [] } (ringAppend (lmfPair u) (x.rx ++ l) m) else setLmf u { x with rx := x.rx ++ l } m
       { emit (.ack u) (begun s) with mbx := m1 }) := by
  have packet' : ¬ l.length > lmfBulkMps (begun s) u := by omega
  have room' : ¬ (((begun s).mbx.lmf[u.idx].rx ++ l).length + 63) / 64 > ringFree (begun s).mbx.rings[cmdRing (lmfPair u)] := by omega
  simp only [execLmfBulkOut, ← begun.eq_1, up, packet', room', tag]
  cases e <;> rfl

theorem execLmfBulkOut_nak {l : List Byte} {e : Bool} (up : lmfUp (begun s) u = true) (packet : l.length ≤ lmfBulkMps (begun s) u)
    (full : ringFree (begun s).mbx.rings[cmdRing (lmfPair u)] < (((begun s).mbx.lmf[u.idx].rx ++ l).length + 63) / 64 ∨
      tagFree (begun s) 3 none = false) :
    execLmfBulkOut u l e s = .next (emit (.nak u) (begun s)) := by
  have packet' : ¬ l.length > lmfBulkMps (begun s) u := by omega
  have full' : (decide ((((begun s).mbx.lmf[u.idx].rx ++ l).length + 63) / 64 > ringFree (begun s).mbx.rings[cmdRing (lmfPair u)]) ||
      !tagFree (begun s) 3 none) = true := by
    rw [Bool.or_eq_true, decide_eq_true_iff, Bool.not_eq_true']
    exact full
  simp only [execLmfBulkOut, ← begun.eq_1, up, packet', full', if_true]
  rfl

/-- LMF_BULK_IN of every completion entry that stands on the ring. -/
theorem execLmfBulkIn_next (up : lmfUp (begun s) u = true) (some_ : ringCount (begun s).mbx.rings[cplRing (lmfPair u)] ≠ 0)
    (tag : tagFree (begun s) 3 none = true) :
    execLmfBulkIn u s = .next
      (let r := cplRing (lmfPair u)
       let m := (begun s).mbx
       let g := m.rings[r]
       { lmfPackets u (readSlots g m.mem g.head (ringCount g)) (begun s) with mbx := headWrite (begun s).now r g.tail m }) := by
  simp only [execLmfBulkIn, ← begun.eq_1, up, some_, tag]
  rfl

theorem execLmfBulkIn_nak (up : lmfUp (begun s) u = true)
    (none_ : ringCount (begun s).mbx.rings[cplRing (lmfPair u)] = 0 ∨ tagFree (begun s) 3 none = false) :
    execLmfBulkIn u s = .next (emit (.nak u) (begun s)) := by
  have none' : (decide (ringCount (begun s).mbx.rings[cplRing (lmfPair u)] = 0) || !tagFree (begun s) 3 none) = true := by
    rw [Bool.or_eq_true, decide_eq_true_iff, Bool.not_eq_true']
    exact none_
  simp only [execLmfBulkIn, ← begun.eq_1, up, none', if_true]
  rfl

/-- LMF_INTERRUPT_REPORT of a change in a microframe without a report. -/
theorem execLmfInterruptReport_next (up : lmfUp (begun s) u = true)
    (changed : lmfReport (begun s) u ≠ (begun s).mbx.lmf[u.idx].lastReport)
    (first : (begun s).mbx.lmf[u.idx].reportAt ≠ some ((begun s).now / 125000)) (tag : tagFree (begun s) 2 none = true) :
    execLmfInterruptReport u s = .next
      (let d := lmfReport (begun s) u
       { emit (.report u d) (begun s) with
         mbx := setLmf u { (begun s).mbx.lmf[u.idx] with lastReport := d, reportAt := some ((begun s).now / 125000) } (begun s).mbx }) := by
  have first' : ((begun s).mbx.lmf[u.idx].reportAt == some ((begun s).now / 125000)) = false := beq_eq_false_iff_ne.mpr first
  simp only [execLmfInterruptReport, ← begun.eq_1, up, changed, first', tag]
  rfl

/-- Settles O31. -/
theorem lmfTransportRuns : Obligations.LmfTransportRuns := by
  have reached {s : State} {u : US} (up : lmfUp (begun s) u = true) : ¬ (!lmfUp (begun s) u) = true := by simp [up]
  refine ⟨?go, ?stall, ?wait, ?fetch, ?status, ?reset, ?out, ?outNak, ?in_, ?inNak, ?report, ?config⟩
  case go =>
    rintro s u n l ⟨up, some_, whole, hi, go⟩
    exact runs_to_of_kept (execLmfCmd0Submit_kept u n l s) (execLmfCmd0Submit_go up some_ whole hi go)
  case stall =>
    rintro s u n l ⟨up, size⟩
    exact runs_to_of_kept (execLmfCmd0Submit_kept u n l s) (execLmfCmd0Submit_stall up size)
  case wait =>
    rintro s u n l ⟨up, some_, whole, hi, go⟩
    exact runs_to_of_kept (execLmfCmd0Submit_kept u n l s) (execLmfCmd0Submit_wait up some_ whole hi go)
  case fetch =>
    rintro s u n x ⟨up, lo, hi, whole, entry, room, go⟩
    exact runs_to_of_kept (execLmfCpl0Fetch_kept u n s) (execLmfCpl0Fetch_next up lo hi whole entry room go)
  case status =>
    rintro s u up
    exact runs_to_of_kept (execLmfRingStatus_kept u s) (if_neg (reached up))
  case reset =>
    rintro s u up
    exact runs_to_of_kept (execLmfRingReset_kept u s) (if_neg (reached up))
  case out =>
    rintro s u l e ⟨up, packet, room, tag⟩
    exact runs_to_of_kept (execLmfBulkOut_kept u l e s) (execLmfBulkOut_ack up packet room tag)
  case outNak =>
    rintro s u l e ⟨up, packet, full⟩
    exact runs_to_of_kept (execLmfBulkOut_kept u l e s) (execLmfBulkOut_nak up packet full)
  case in_ =>
    rintro s u ⟨up, some_, tag⟩
    exact runs_to_of_kept (execLmfBulkIn_kept u s) (execLmfBulkIn_next up some_ tag)
  case inNak =>
    rintro s u ⟨up, none_⟩
    exact runs_to_of_kept (execLmfBulkIn_kept u s) (execLmfBulkIn_nak up none_)
  case report =>
    rintro s u ⟨up, changed, first, tag⟩
    exact runs_to_of_kept (execLmfInterruptReport_kept u s) (execLmfInterruptReport_next up changed first tag)
  case config =>
    rintro s u up
    exact runs_to_of_kept (execLmfSetConfiguration_kept u s) (if_neg (reached up))

end

end Sys2Proof.Machine
end

section
/-! SUPPORT. Operating points, SUSPEND, and the entry into sleep with its wakes (R66, R310, R380–R392, R399). -/

set_option Elab.async false

namespace Sys2Proof.Machine

section
variable {s : State}

theorem execOppChangeStart_next {x : Trans} (pend : s.pmu.pend = some x) (idle : s.pmu.inProg = none) (some_ : x.opp ≠ 0)
    (other : x.opp ≠ s.pmu.opp) :
    execOppChangeStart false s = .next (writeVout x.opp { fresh s with pmu := { s.pmu with
      inProg := some x, pend := none
      target := if x.target == .safe then s.pmu.target else x.target
      targetOpp := if x.target == .safe then s.pmu.targetOpp else x.opp
      clkOpp := if x.opp > s.pmu.opp then s.pmu.clkOpp else x.opp
      change := some { fromOpp := s.pmu.opp, toOpp := x.opp, raising := decide (x.opp > s.pmu.opp), startAt := s.now } } }) := by
  have pend' : (fresh s).pmu.pend = some x := pend
  have idle' : (fresh s).pmu.inProg = none := idle
  have other' : x.opp ≠ (fresh s).pmu.opp := other
  simp only [execOppChangeStart, startOpp, pend', idle', Option.isSome_none, some_, other', Bool.false_eq_true, or_self, if_false]
  simp

theorem execOppVoltageConfirmed_next {n : Nat} {x : OppChange} (change : s.pmu.change = some x) (pg : s.sup.corePg = true)
    (lo : oppMv (if x.reverting then x.fromOpp else x.toOpp) * 97 ≤ n * 100)
    (hi : n * 100 ≤ oppMv (if x.reverting then x.fromOpp else x.toOpp) * 103) :
    execOppVoltageConfirmed n s = .next
      (let y := if x.reverting then x.fromOpp else x.toOpp
       transitionEnds (reqRings s) (modeFinal (s.pmu.inProg.bind (·.req)) stOk (b2n x.reverting)
         { fresh s with pmu := { s.pmu with opp := y, clkOpp := y, vcoreMv := oppMv y, change := none, inProg := none } })) := by
  have change' : (fresh s).pmu.change = some x := change
  have pg' : (fresh s).sup.corePg = true := pg
  have within : ¬ (n * 100 < oppMv (if x.reverting then x.fromOpp else x.toOpp) * 97 ∨
      n * 100 > oppMv (if x.reverting then x.fromOpp else x.toOpp) * 103) := by omega
  simp only [execOppVoltageConfirmed, change', pg', within]
  rfl

theorem execOppConfirmTimeout_next {x : OppChange} (change : s.pmu.change = some x) (fwd : x.reverting = false) :
    execOppConfirmTimeout s = .next
      (let s0 := advanceTo (x.startAt + 300000) (fresh s)
       let s1 := fault .pmu 10 (blockId .pmu) (writeVout x.fromOpp
         { s0 with pmu := { s0.pmu with failedOpp := s0.pmu.inProg.map (fun y => (s0.pmu.reported, y.opp)) } })
       if x.raising then
         transitionEnds (reqRings s1) (modeFinal (s1.pmu.inProg.bind (·.req)) stOk 1
           { s1 with pmu := { s1.pmu with change := none, inProg := none } })
       else { s1 with pmu := { s1.pmu with change := some { x with reverting := true } } }) := by
  have change' : (fresh s).pmu.change = some x := change
  simp only [execOppConfirmTimeout, change', fwd]
  cases x.raising <;> rfl

theorem execSuspendEntry_next {x : Nat} (since : s.pmu.suspendSince = some x) (idle : suspendCond s = true) (stay : entering s = false)
    (runs : isExclusive s.pmu.reported = false) :
    execSuspendEntry s = .next
      (let s1 := abandonRebuild (advanceTo (x + 2000000) (fresh s))
       modeFollow (trialTick s.pmu.reported .suspend { s1 with pmu := { s1.pmu with reported := .suspend, clkGated := true } })) := by
  have since' : (fresh s).pmu.suspendSince = some x := since
  have idle' : suspendCond (fresh s) = true := idle
  have stay' : entering (fresh s) = false := stay
  have runs' : isExclusive (fresh s).pmu.reported = false := runs
  simp only [execSuspendEntry, since', idle', stay', runs']
  rfl

theorem execSuspendWake_next {c : Fin 16} {p d : Nat} (lo : 1 ≤ c.val) (hi : c.val ≤ 11) :
    execSuspendWake c p d s = .next (suspendWake c.val p d (fresh s)) :=
  congrArg _ (if_pos ⟨lo, hi⟩)

theorem execLaneTimeEdgeCorrection_next (interp : s.clk.interp = true) :
    execLaneTimeEdgeCorrection s =
      .next { s with out := [], now := max s.now s.clk.edgeTo, clk := { s.clk with interp := false } } :=
  congrArg _ (if_pos interp)

end

/-- Settles O4: under the conditions of its clause each row has one branch of its meaning left. -/
theorem operatingPointAndSuspendRun : Obligations.OperatingPointAndSuspendRun := by
  unfold Obligations.OperatingPointAndSuspendRun
  refine ⟨?start, ?confirmed, ?timeout, ?entry, ?wake, ?edge⟩
  case start =>
    rintro s e x ⟨pend, idle, some_, other, rfl⟩
    exact runs_of_kept_next (i := .oppChangeStart false) (execOppChangeStart_kept false s)
      (execOppChangeStart_next pend idle some_ other) ⟨rfl, rfl, rfl, rfl, rfl⟩
  case confirmed =>
    rintro s n y x ⟨change, rfl, pg, lo, hi⟩
    exact runs_to_of_kept (execOppVoltageConfirmed_kept n s) (execOppVoltageConfirmed_next change pg lo hi)
  case timeout =>
    rintro s x ⟨change, fwd⟩
    exact runs_to_of_kept (execOppConfirmTimeout_kept s) (execOppConfirmTimeout_next change fwd)
  case entry =>
    rintro s x ⟨since, idle, stay, runs⟩
    exact runs_to_of_kept (execSuspendEntry_kept s) (execSuspendEntry_next since idle stay runs)
  case wake =>
    rintro s c p d ⟨lo, hi, -, -⟩
    exact runs_to_of_kept (execSuspendWake_kept c p d s) (execSuspendWake_next lo hi)
  case edge =>
    rintro s interp
    exact runs_to_of_kept (execLaneTimeEdgeCorrection_kept s) (execLaneTimeEdgeCorrection_next interp)

section
variable {s : State} {t : Trans} {phi : Nat} {ok : Bool}

/-! What the entry into sleep leaves where its clause speaks of it. -/

@[simp] theorem trialTick_clk (old new : Mode) (s : State) : (trialTick old new s).clk = s.clk :=
  clk_of_only (trialTick_only .clk old new s (by decide))

@[simp] theorem trialTick_pmu (old new : Mode) (s : State) : (trialTick old new s).pmu = s.pmu :=
  pmu_of_only (trialTick_only .pmu old new s (by decide))

@[simp] theorem trialTick_mbx (old new : Mode) (s : State) : (trialTick old new s).mbx = s.mbx :=
  mbx_of_only (trialTick_only .mbx old new s (by decide))

@[simp] theorem trialTick_sup (old new : Mode) (s : State) : (trialTick old new s).sup = s.sup :=
  sup_of_only (trialTick_only .sup old new s (by decide))

@[simp] theorem trialTick_now (old new : Mode) (s : State) : (trialTick old new s).now = s.now :=
  now_of_only (trialTick_only .now old new s (by decide))

theorem fallAsleep_clk (t : Trans) (phi : Nat) (ok : Bool) (s : State) : (fallAsleep t phi ok s).clk =
    { s.clk with le := s.now, phi := min phi s.now, alarm := t.alarm, tbOn := false, interp := false } := by
  simp [fallAsleep, sleepCapture]

theorem fallAsleep_pmu (t : Trans) (phi : Nat) (ok : Bool) (s : State) : (fallAsleep t phi ok s).pmu =
    { s.pmu with reported := t.target, opp := 0, inProg := none, pend := none, suspendSince := none, clkGated := false } := by
  simp [fallAsleep, sleepCapture]

theorem fallAsleep_mbx (t : Trans) (phi : Nat) (ok : Bool) (s : State) :
    (fallAsleep t phi ok s).mbx = { s.mbx with acc := [] } := by
  simp [fallAsleep, sleepCapture]

theorem sleepPorts_sup (s : State) : (sleepPorts s).sup = s.sup := rfl

theorem upDown_sup (s : State) : (upDown s).sup = s.sup :=
  sup_of_only (upDown_only .sup s (by decide) (by decide) (by decide))

theorem fallAsleep_sup (t : Trans) (phi : Nat) (ok : Bool) (s : State) : (fallAsleep t phi ok s).sup =
    { s.sup with
      selfRefresh := t.target == .standby, retained := t.target == .standby && ok, ready := false, enginesHeld := true
      mainOn := false, memOn := t.target == .standby, corePg := false, pwrReq := if t.target == .standby then 1 else 0
      ccSeen := [] } := by
  simp [fallAsleep, sleepCapture, sleepStops, sleepPorts_sup, upDown_sup]

/-- With no alarm due the entry ends with the alarm counted in Lovage. -/
theorem setAlarm_of_later (later : t.alarm = 0 ∨ s.now < t.alarm) : setAlarm t s = countAlarm t s := by
  have notDue : ¬ (t.alarm ≠ 0 ∧ t.alarm ≤ s.now) := by omega
  exact if_neg notDue

theorem countAlarm_sup (t : Trans) (s : State) : (countAlarm t s).sup = s.sup :=
  sup_of_only (countAlarm_only .sup t s (by decide))

theorem countAlarm_pmu (t : Trans) (s : State) : (countAlarm t s).pmu = s.pmu :=
  pmu_of_only (countAlarm_only .pmu t s (by decide))

theorem countAlarm_mbx (t : Trans) (s : State) : (countAlarm t s).mbx = s.mbx :=
  mbx_of_only (countAlarm_only .mbx t s (by decide))

theorem countAlarm_clk (t : Trans) (s : State) :
    (countAlarm t s).clk = { s.clk with alarmTicks := alarmCount t.alarm s } := by
  unfold countAlarm
  rfl

theorem fallAsleep_now (t : Trans) (phi : Nat) (ok : Bool) (s : State) : (fallAsleep t phi ok s).now = s.now := by
  simp [fallAsleep, sleepCapture]

/-- SLEEP_ENTRY with no wake latched and no alarm due leaves the lane asleep. -/
theorem execSleepEntry_next {b : BootIn} (prog : s.pmu.inProg = some t) (sleep : sleepMode t.target = true)
    (up : s.pmu.reported ≠ .boot) (por : s.sup.porLow = false) (latch : (kicksEnded s).sup.latch = none)
    (later : t.alarm = 0 ∨ (kicksEnded s).now < t.alarm) :
    execSleepEntry phi ok b s = .next (countAlarm t (fallAsleep t phi ok (kicksEnded s))) := by
  have prog' : (fresh s).pmu.inProg = some t := prog
  have up' : ((fresh s).pmu.reported == .boot) = false := by simpa using up
  have por' : (fresh s).sup.porLow = false := por
  have set : setAlarm t (fallAsleep t phi ok (kicksEnded s)) = countAlarm t (fallAsleep t phi ok (kicksEnded s)) :=
    setAlarm_of_later (by rwa [fallAsleep_now])
  have quiet : (countAlarm t (fallAsleep t phi ok (kicksEnded s))).sup.latch = none := by
    rw [countAlarm_sup, fallAsleep_sup]
    exact latch
  simp only [execSleepEntry, prog', sleep, up', por', ← kicksEnded.eq_1, set, quiet, Bool.not_true, Bool.or_self, Bool.false_eq_true,
    if_false]

/-! A wake source while the lane sleeps. -/

theorem execLovageCcSample_wake {p : Port} {c : CcPattern} {b : BootIn} (sleeps : asleep s = true) (there : populated s p = true)
    (new : c ≠ (tcOf s p).pattern) (twice : s.sup.ccSeen.contains (p.val, patternCode c) = true) :
    execLovageCcSample p c b s = .next (raiseWake 3 (portCode p) 0 (edgeTime b.wx s) b
      { fresh s with sup := { s.sup with ccSeen := s.sup.ccSeen.filter (fun e => e.1 ≠ p.val) } }) := by
  have sleeps' : asleep (fresh s) = true := sleeps
  have there' : populated (fresh s) p = true := there
  have new' : (c == (tcOf (fresh s) p).pattern) = false := by
    have : c ≠ (tcOf (fresh s) p).pattern := new
    simpa using this
  have twice' : (fresh s).sup.ccSeen.contains (p.val, patternCode c) = true := twice
  simp only [execLovageCcSample, sleeps', there', new', twice']
  rfl

theorem isExclusive_of_asleep (h : asleep s = true) : isExclusive s.pmu.reported = true := by
  have : s.pmu.reported = .hibernate ∨ s.pmu.reported = .standby := by simpa [asleep] using h
  rcases this with h | h <;> rw [h] <;> rfl

theorem execWakeNPulse_wake {g w : Nat} {b : BootIn} (aon : s.sup.aon = true) (por : s.sup.porLow = false)
    (two : s.sup.wakeEdges = 2) (win : s.sup.wakeWindow + g < 50000000) (lo : 1000000 ≤ w) (hi : w ≤ 5000000)
    (sleeps : asleep s = true) :
    execWakeNPulse g w b s = .next (raiseWake 5 0 3 (edgeTime b.wx s) b
      { fresh s with sup := { s.sup with wakeEdges := 0, wakeWindow := 0 } }) := by
  have excl : isExclusive s.pmu.reported = true := isExclusive_of_asleep sleeps
  simp [execWakeNPulse, aon, por, two, win, lo, hi, excl, edgeTime]

theorem execRtcAlarm_wake {b : BootIn} (set : s.clk.alarm ≠ 0) (sleeps : asleep s = true) :
    execRtcAlarm b s = .next (raiseWake 7 0 0 (edgeTime s.clk.alarmTicks s) b { fresh s with clk := { s.clk with alarm := 0 } }) := by
  have set' : ¬ (fresh s).clk.alarm = 0 := set
  have sleeps' : asleep (fresh s) = true := sleeps
  simp only [execRtcAlarm, set', sleeps']
  rfl

theorem execPsAlertN_wake {p : Port} {w : BitVec 16} {f : Bool} {n : Nat} {b : BootIn} (sleeps : asleep s = true) :
    execPsAlertN p w f n b s = .next (raiseWake 9 0 0 (edgeTime b.wx s) b (fresh s)) := by
  have sleeps' : asleep (fresh s) = true := sleeps
  simp only [execPsAlertN, sleeps']
  rfl

end

/-- Settles O5: with no alarm due and nothing latched the lane stays asleep; asleep, each source is its wake. -/
theorem sleepAndWakesRun : Obligations.SleepAndWakesRun := by
  unfold Obligations.SleepAndWakesRun
  refine ⟨?entry, ?cc, ?wakeN, ?cs, ?alarm, ?alert⟩
  case entry =>
    rintro s n ok b x ⟨prog, sleep, up, por, latch, later⟩
    have next := execSleepEntry_next (phi := n) (ok := ok) (b := b) prog sleep up por latch later
    refine runs_of_kept_next (execSleepEntry_kept n ok b s) next ?_
    rw [countAlarm_clk, countAlarm_pmu, countAlarm_mbx, countAlarm_sup, fallAsleep_clk, fallAsleep_pmu, fallAsleep_mbx, fallAsleep_sup]
    exact ⟨rfl, rfl, rfl, rfl, rfl, rfl, rfl, rfl, rfl, rfl, rfl⟩
  case cc =>
    rintro s p c b ⟨sleeps, there, new, twice⟩
    exact runs_to_of_kept (execLovageCcSample_kept p c b s) (execLovageCcSample_wake sleeps there new twice)
  case wakeN =>
    rintro s g w b ⟨aon, por, two, win, lo, hi, sleeps⟩
    exact runs_to_of_kept (execWakeNPulse_kept g w b s) (execWakeNPulse_wake aon por two win lo hi sleeps)
  case cs =>
    rintro s b -
    exact runs_to_of_kept (execSpitCsNWake_kept b s) rfl
  case alarm =>
    rintro s b ⟨set, sleeps⟩
    exact runs_to_of_kept (execRtcAlarm_kept b s) (execRtcAlarm_wake set sleeps)
  case alert =>
    rintro s p w f n b sleeps
    exact runs_to_of_kept (execPsAlertN_kept p w f n b s) (execPsAlertN_wake sleeps)

end Sys2Proof.Machine
end

section
/-! SUPPORT. Faults as the blocks raise them, the exit from SAFE, and the links and PD timers (R396, R408–R414, R511). -/

set_option Elab.async false

namespace Sys2Proof.Machine

section
variable {s : State}

theorem execFaultLatch_raises {b : Block} {k : Fin 32} {n : Nat} {p : Bool} (source : (srcClass b k.val).isSome = true)
    (unit : unitOk b k.val (unitFor b k.val n) = true) :
    execFaultLatch b k n p s = .next (detect b k.val n false p (fresh s)) := by
  simp only [execFaultLatch, source, unit]
  rfl

theorem execFaultLatch_noSource {b : Block} {k : Fin 32} {n : Nat} {p : Bool} (source : srcClass b k.val = none) :
    execFaultLatch b k n p s = .next (fresh s) := by
  simp only [execFaultLatch, source]
  rfl

theorem execLevelFaultRepeat_next {b : Block} {k : Fin 32} {l : Bool} {x : LevelCond}
    (level : s.flt.levels.find? (fun y => y.block == b && y.source == k.val) = some x) :
    execLevelFaultRepeat b k l s = .next
      (if l then raiseFault b k.val x.unit false true (advanceTo (x.last + 1000000) (fresh s)) else levelOver b k.val (fresh s)) := by
  have level' : (fresh s).flt.levels.find? (fun y => y.block == b && y.source == k.val) = some x := level
  simp only [execLevelFaultRepeat, level']
  cases l <;> rfl

/-- A reading below the warning threshold raises nothing and re-arms no threshold but that of the trip. -/
theorem execTjSample_below {x : Int} (below : x < tjWarn) (near : tjWarn - 50 < x) :
    execTjSample x s = .next { fresh s with therm :=
      { temp := x, warnOver := s.therm.warnOver, tripOver := if x ≤ tjWarn + 50 then false else s.therm.tripOver } } := by
  have trip : ¬ x ≥ tjWarn + 100 := by omega
  have warn : ¬ x ≥ tjWarn := by omega
  have keep : ¬ x ≤ tjWarn - 50 := by omega
  simp [execTjSample, trip, warn, keep]

/-- An upward crossing of the warning threshold. -/
theorem execTjSample_warn {x : Int} (warn : tjWarn ≤ x) (below : x < tjWarn + 100) (first : s.therm.warnOver = false) :
    execTjSample x s = .next (fault .pmu 14 (blockId .pmu) { fresh s with therm :=
      { temp := x, warnOver := true, tripOver := if x ≤ tjWarn + 50 then false else s.therm.tripOver } }) := by
  have trip : ¬ x ≥ tjWarn + 100 := by omega
  have warn' : x ≥ tjWarn := warn
  simp [execTjSample, trip, warn', first]

/-- An upward crossing of the trip threshold, with the warning raised before. -/
theorem execTjSample_trip {x : Int} (trip : tjWarn + 100 ≤ x) (first : s.therm.tripOver = false) (warned : s.therm.warnOver = true) :
    execTjSample x s = .next (fault .pmu 15 (blockId .pmu) { fresh s with therm :=
      { temp := x, warnOver := true, tripOver := true } }) := by
  have trip' : x ≥ tjWarn + 100 := trip
  have warn : x ≥ tjWarn := by omega
  simp [execTjSample, trip', warn, first, warned]

end

/-- Settles O27: each row raises its fault where the clause's condition holds. -/
theorem faultsRun : Obligations.FaultsRun := by
  unfold Obligations.FaultsRun
  refine ⟨?latch, ?noSource, ?level, ?lockstep, ?watchdog, ?late, ?chervil, ?thyme, ?arb, ?below, ?warn, ?trip⟩
  case latch =>
    rintro s b k n p ⟨source, unit⟩
    exact runs_to_of_kept (execFaultLatch_kept b k n p s) (execFaultLatch_raises source unit)
  case noSource =>
    rintro s b k n p source
    exact runs_to_of_kept (execFaultLatch_kept b k n p s) (execFaultLatch_noSource source)
  case level =>
    rintro s b k l x level
    exact runs_to_of_kept (execLevelFaultRepeat_kept b k l s) (execLevelFaultRepeat_next level)
  case lockstep =>
    intro s
    exact runs_to_of_kept (execSageLockstepMismatch_kept s) rfl
  case watchdog =>
    rintro s n late
    exact runs_to_of_kept (execSageWatchdog_kept n s) (congrArg _ (if_pos late))
  case late =>
    rintro s n unit
    exact runs_to_of_kept (execSageTaskLate_kept n s) (congrArg _ (if_pos unit))
  case chervil =>
    rintro s c n ⟨late, runs⟩
    exact runs_to_of_kept (execChervilHang_kept c n s) (congrArg _ (if_pos ⟨late, runs⟩))
  case thyme =>
    rintro s i n ⟨late, runs⟩
    exact runs_to_of_kept (execThymeHang_kept i n s) (congrArg _ (if_pos ⟨late, runs⟩))
  case arb =>
    rintro s n late
    exact runs_to_of_kept (execFabArbStall_kept n s) (congrArg _ (if_pos late))
  case below =>
    rintro s x ⟨below, near⟩
    exact runs_of_kept_next (i := .tjSample x) (execTjSample_kept x s) (execTjSample_below below near) ⟨rfl, rfl, rfl⟩
  case warn =>
    rintro s x ⟨warn, below, first⟩
    exact runs_to_of_kept (execTjSample_kept x s) (execTjSample_warn warn below first)
  case trip =>
    rintro s x ⟨trip, first, warned⟩
    exact runs_to_of_kept (execTjSample_kept x s) (execTjSample_trip trip first warned)

/-! ### The exit from SAFE is judged at the end of the quiet period (R414, R419)

O28's third clause judges the re-admission limit at the present lane time, the model's SAFE_EXIT at the instant to which it advances. A
re-admission that leaves the 24 h window during the quiet period lies between the two. -/

/-- SAFE caused by the PMU one nanosecond before ten re-admissions at lane time 0 leave the window of 24 h. -/
def lateReadmits : State :=
  { State.reset with
    now := 86399999999999
    clk := { State.reset.clk with tbOn := true }
    pmu := { State.reset.pmu with reported := .safe }
    flt := { State.reset.flt with
      safeCause := some .pmu, safeAt := 86399999999999
      recs := State.reset.flt.recs.map (fun r => { r with readmits := List.replicate 10 0 }) } }

/-- The instant at which SAFE_EXIT judges the limit. -/
def safeExitAt (s : State) (k : Block) : Nat :=
  max (s.flt.safeAt + quietFt s k * 1000000) (match s.clk.refBack with
    | some t => t + 10000000
    | none => 0)

/-- SAFE_EXIT with the re-admissions below the limit at the instant it is judged: a warm restart. -/
theorem execSafeExit_restarts {s : State} {b : BootIn} {k : Block} (cause : s.flt.safeCause = some k) (safe : s.pmu.reported = .safe)
    (ref : s.clk.refLost = none)
    (room : fltCount (advanceTo (safeExitAt s k) (fresh s)) k < fltLimit (advanceTo (safeExitAt s k) (fresh s)) k) :
    execSafeExit b s = .next (bootWarm .safe b
      (let s1 := advanceTo (safeExitAt s k) (fresh s)
       setRec k (countReadmit s1.now { fltRec s1 k with limitHeld := false }) s1)) := by
  have cause' : (fresh s).flt.safeCause = some k := cause
  have safe' : (fresh s).pmu.reported = .safe := safe
  have ref' : (fresh s).clk.refLost = none := ref
  simp only [execSafeExit, cause', safe', ref', Option.isSome_none]
  exact if_pos room

theorem bootImage_wake (b : BootIn) (s : State) : (bootImage b s).wake = s.wake := by
  unfold bootImage
  split <;> exact wake_of_only (by simp)

/-- A warm boot samples the straps into the wake record. -/
theorem bootWarm_strapError (path : BootPath) (b : BootIn) (s : State) :
    (bootWarm path b s).wake.strapError = (b.straps == 3) := by
  unfold bootWarm
  rw [bootImage_wake]
  cases path <;> rfl

/-- A boot with the straps at 3. -/
def strapBoot : BootIn :=
  { straps := 3, asel := false, train := .full, nx := 0, nf := 0, psi := 0, wx := 0, eccBad := [], crcBad := [] }

theorem lateReadmits_limit : fltLimit lateReadmits .pmu ≤ fltCount lateReadmits .pmu := by decide +kernel

theorem lateReadmits_free : (fltRec lateReadmits .pmu).limitHeld = false := by decide +kernel

/-- At the end of the quiet period no re-admission is left in the window. -/
theorem lateReadmits_room :
    fltCount (advanceTo (safeExitAt lateReadmits .pmu) (fresh lateReadmits)) .pmu <
      fltLimit (advanceTo (safeExitAt lateReadmits .pmu) (fresh lateReadmits)) .pmu := by decide +kernel

/-- Refutes O28: in `lateReadmits` the limit is reached at the present lane time, and the ten re-admissions have left the window when the
quiet period ends. SAFE_EXIT boots, which samples the straps; the clause says that it only reports the held limit. -/
theorem not_safeAndAcknowledgementRun : ¬ Obligations.SafeAndAcknowledgementRun := by
  unfold Obligations.SafeAndAcknowledgementRun
  rintro ⟨-, -, held, -⟩
  obtain ⟨t, run, -, said⟩ := held lateReadmits strapBoot .pmu ⟨rfl, rfl, rfl, lateReadmits_limit, lateReadmits_free⟩
  have boots : exec (.safeExit strapBoot) lateReadmits = _ := execSafeExit_restarts (b := strapBoot) rfl rfl rfl lateReadmits_room
  have t_eq := Host.Outcome.next.inj (run.symm.trans boots)
  have sampled : t.wake.strapError = true := by rw [t_eq, bootWarm_strapError]; rfl
  have unsampled : t.wake.strapError = false := by
    rw [said]
    exact congrArg (·.strapError) (wake_of_only (faultEvent_only .wake .pmu 5 _ (by decide)))
  exact Bool.false_ne_true (unsampled.symm.trans sampled)

section
variable {s : State}

theorem execRef25Return_next {x : Nat} (lost : s.clk.refLost = some x) :
    execRef25Return s = .next (levelOver .cru 8 { fresh s with clk := { s.clk with
      boundE6 := s.clk.boundE6 + (s.now - x) * 20000, quality := 2, refLost := none, refBack := some s.now } }) := by
  have lost' : (fresh s).clk.refLost = some x := lost
  simp only [execRef25Return, lost']
  rfl

/-- The links of which a partner's training is a resumption. -/
theorem execUpstreamLinkTrained_back {u : US} {g : Bool} {n : Nat} (term : (usOf s u).ssTerm = true) (lock : s.clk.ssPllLock = true)
    (link : (usOf s u).link = .u1 ∨ (usOf s u).link = .u2 ∨ (usOf s u).link = .u3 ∨ (usOf s u).link = .recovery) :
    execUpstreamLinkTrained u g n s = .next (hubPresence u (flushHdr (usPort u) 64 (linkBack u (fresh s)))) := by
  have term' : (usOf (fresh s) u).ssTerm = true := term
  have lock' : (fresh s).clk.ssPllLock = true := lock
  have link' : (usOf (fresh s) u).link = (usOf s u).link := rfl
  rcases link with link | link | link | link <;> simp only [execUpstreamLinkTrained, term', lock', link', link] <;> rfl

/-- The links that train from rest. -/
theorem execUpstreamLinkTrained_new {u : US} {g : Bool} {n : Nat} (term : (usOf s u).ssTerm = true) (lock : s.clk.ssPllLock = true)
    (link : (usOf s u).link = .rxDetect ∨ (usOf s u).link = .polling ∨ (usOf s u).link = .inactive) :
    execUpstreamLinkTrained u g n s = .next
      (let s1 := modUs u (fun x => { x with
         link := .u0, gen := if g then 2 else 1, lanes := if u == .us0 && g && decide (n = 2) then 2 else 1 }) (fresh s)
       hubPresence u (flushHdr (usPort u) 64 (ssUp u (modLink (usPort u) (freshLink s1 (usPort u)) s1)))) := by
  have term' : (usOf (fresh s) u).ssTerm = true := term
  have lock' : (fresh s).clk.ssPllLock = true := lock
  have link' : (usOf (fresh s) u).link = (usOf s u).link := rfl
  rcases link with link | link | link <;> simp only [execUpstreamLinkTrained, term', lock', link', link] <;> rfl

theorem execUpstreamLinkInactive_next {u : US} {b : Bool} (detect : (usOf s u).link ≠ .rxDetect) (enabled : (usOf s u).link ≠ .disabled) :
    execUpstreamLinkInactive u b s = .next (hubPresence u (modVigHub u (fun h => { h with absentFrom := s.now }) (settle
      (modUs u (fun x => { x with
        link := if b then .rxDetect else .inactive, susp3 := false, u3Want := false, upLfps := false, gen := if b then 0 else x.gen })
        (dropLink (usPort u) 2 (fresh s)))))) := by
  have detect' : (usOf (fresh s) u).link ≠ .rxDetect := detect
  have enabled' : (usOf (fresh s) u).link ≠ .disabled := enabled
  unfold execUpstreamLinkInactive
  dsimp only
  split
  · contradiction
  · contradiction
  · rfl

/-- The instant at which a port's PD response timer ends. -/
def responseEnd (s : State) (p : Port) : State :=
  advanceTo ((phyOf s p).amsAt + (if (phyOf s p).chunk.isEmpty then 30000000 else 27000000)) (fresh s)

/-- The response timer of a message sequence that is under way, by the sequence. -/
theorem execPdSenderResponseTimeout_next {p : Port} (up : thymeDown s p = false) (some_ : (phyOf s p).ams ≠ 0) :
    execPdSenderResponseTimeout p s = match (phyOf s p).ams with
      | 2 => .next (sendHardReset p (responseEnd s p))
      | 4 => .next (softReset p (swapFail p (responseEnd s p)))
      | 5 | 6 => .next (modPhy p (fun x => { x with ams := 0 }) (responseEnd s p))
      | _ => .next (softReset p (responseEnd s p)) := by
  have up' : thymeDown (fresh s) p = false := up
  have some' : ¬ ((phyOf (fresh s) p).ams = 0 ∨ thymeDown (fresh s) p = true) := by
    rw [up']
    simpa using some_
  unfold execPdSenderResponseTimeout
  exact if_neg some'

end

/-- Settles O42: each row has one branch left under its clause's conditions. -/
theorem linksAndPdTimersRun : Obligations.LinksAndPdTimersRun := by
  unfold Obligations.LinksAndPdTimersRun
  refine ⟨?ref, ?pll, ?back, ?new, ?inactive, ?request, ?swap, ?other⟩
  case ref =>
    rintro s x lost
    exact runs_to_of_kept (execRef25Return_kept s) (execRef25Return_next lost)
  case pll =>
    rintro s up
    exact runs_to_of_kept (execSsPllRelock_kept s) (congrArg _ (if_pos up))
  case back =>
    rintro s u g n ⟨term, lock, link⟩
    exact runs_to_of_kept (execUpstreamLinkTrained_kept u g n s) (execUpstreamLinkTrained_back term lock link)
  case new =>
    rintro s u g n ⟨term, lock, link⟩
    exact runs_to_of_kept (execUpstreamLinkTrained_kept u g n s) (execUpstreamLinkTrained_new term lock link)
  case inactive =>
    rintro s u b ⟨detect, enabled⟩
    exact runs_to_of_kept (execUpstreamLinkInactive_kept u b s) (execUpstreamLinkInactive_next detect enabled)
  case request =>
    rintro s p ⟨up, ams⟩
    have next := execPdSenderResponseTimeout_next up (by omega)
    rw [ams] at next
    exact runs_to_of_kept (execPdSenderResponseTimeout_kept p s) next
  case swap =>
    rintro s p ⟨up, ams⟩
    have next := execPdSenderResponseTimeout_next up (by omega)
    rw [ams] at next
    exact runs_to_of_kept (execPdSenderResponseTimeout_kept p s) next
  case other =>
    rintro s p ⟨up, ams⟩
    have next := execPdSenderResponseTimeout_next up (by omega)
    rcases ams with ams | ams <;> rw [ams] at next <;> exact runs_to_of_kept (execPdSenderResponseTimeout_kept p s) next

end Sys2Proof.Machine
end

section
/-! SUPPORT. The contracts of a source: Requests, reductions, offers, EPR and the keep-alives (R332–R339, R350). -/

set_option Elab.async false

namespace Sys2Proof.Machine

section
variable {s : State} {p : Port}

/-- A Request in hand: with a contract in preparation it is a protocol error, else the offer's copy is checked and the Request judged. -/
theorem execPdRequest_next {m : PdMsg} (hand : (phyOf s p).inHand = some m) (up : thymeDown s p = false)
    (request : isData m 2 = true ∨ isData m 9 = true) (source : isSource s p = true) :
    execPdRequest p s = .next
      (let x := pwrOf s p
       let s1 := modPhy p (fun y => { y with ams := if y.ams = 1 then 0 else y.ams, chunk := [] }) (handed p s)
       if x.newCon.isSome then softReset p s1
       else if isData m 9 != x.epr ||
           !(!isData m 9 || decide (msgObjs m.header = 2 ∧ (x.caps[bits (pdObj m 0) 31 28 - 1]?) = some (pdObj m 1))) then
         rejectRequest p s1
       else judgeRequest p m s1) := by
  have source' : isSource (fresh s) p = true := source
  have ok : ((isData m 2 || isData m 9) && isSource (fresh s) p) = true := by simpa [source'] using request
  exact congrArg _ (takeHand_some (ok := fun m => (isData m 2 || isData m 9) && isSource (fresh s) p) hand up ok)

theorem execBudgetReduction_next {x : Nat} (reduce : (pwrOf s p).reduce = some (0, x)) (may : capsMay s p = true)
    (still : (pwrOf s p).trans = none) (none_ : (pwrOf s p).newCon = none) :
    execBudgetReduction p s = .next
      (let s1 := advanceTo (if rev3 s p then x + 18000000 else s.now) (fresh s)
       modPwr p (fun y => { y with reduce := some (1, s1.now) }) (sendCaps p (min (capMw s1 p) (pwrOf s1 p).grant) 0 s1)) := by
  have reduce' : (pwrOf (fresh s) p).reduce = some (0, x) := reduce
  have may' : capsMay (fresh s) p = true := may
  have still' : (pwrOf (fresh s) p).trans = none := still
  have none' : (pwrOf (fresh s) p).newCon = none := none_
  simp only [execBudgetReduction, reduce', may', still', none']
  rfl

theorem execReductionResponseTimeout_next {x : Nat} (reduce : (pwrOf s p).reduce = some (1, x)) (none_ : (pwrOf s p).newCon = none)
    (up : thymeDown s p = false) :
    execReductionResponseTimeout p s = .next (sendHardReset p (advanceTo (x + 30000000) (fresh s))) := by
  have reduce' : (pwrOf (fresh s) p).reduce = some (1, x) := reduce
  have none' : (pwrOf (fresh s) p).newCon = none := none_
  have up' : thymeDown (fresh s) p = false := up
  simp only [execReductionResponseTimeout, reduce', none', up']
  rfl

theorem execSourceCapsSend_next {x : Nat} (due : (pwrOf s p).capsDue = some x) (may : capsMay s p = true) :
    execSourceCapsSend p s = .next
      (let s1 := advanceTo x (fresh s)
       sendCaps p (if (pwrOf s1 p).reduce.isSome then min (capMw s1 p) (pwrOf s1 p).grant else availMw s1 p) 1 s1) := by
  have due' : (pwrOf (fresh s) p).capsDue = some x := due
  have may' : capsMay (fresh s) p = true := may
  simp only [execSourceCapsSend, due', may']
  rfl

theorem execSourceCapsRetry_next (may : capsMay s p = true) (implicit_ : explicit s p = false) (none_ : (pwrOf s p).newCon = none)
    (lo : 0 < (pwrOf s p).capsCount) (hi : (pwrOf s p).capsCount < 50) :
    execSourceCapsRetry p s = .next
      (let s1 := advanceTo ((pwrOf s p).capsLast + 150000000) (fresh s)
       sendCaps p (availMw s1 p) 1 s1) := by
  have may' : capsMay (fresh s) p = true := may
  have implicit' : explicit (fresh s) p = false := implicit_
  have none' : (pwrOf (fresh s) p).newCon = none := none_
  have count : decide ((pwrOf (fresh s) p).capsCount = 0 ∨ (pwrOf (fresh s) p).capsCount ≥ 50) = false :=
    decide_eq_false (show ¬ ((pwrOf s p).capsCount = 0 ∨ (pwrOf s p).capsCount ≥ 50) by omega)
  simp only [execSourceCapsRetry, may', implicit', none', count]
  rfl

/-- Sink capabilities in hand of a source set the port's need (R331). -/
theorem execSinkCapabilitiesReceived_source {m : PdMsg} (hand : (phyOf s p).inHand = some m) (up : thymeDown s p = false)
    (caps : isData m 4 = true) (source : isSource s p = true) :
    execSinkCapabilitiesReceived p s = .next
      (let s1 := modTc p (fun x => { x with sinkTxNg := x.sinkTxNg && (pwrOf s p).reduce.isSome })
         (modPhy p (fun x => { x with ams := if x.ams = 3 then 0 else x.ams, rxChunk := [] }) (handed p s))
       let l := if isExt m 18 then (phyOf s p).rxChunk else m.data
       runAlloc (modPwr p (fun x => { x with
         need := min (capMw s p) ((((List.range (l.length / 4)).map (fun i => fld l (4 * i) 4)).map sinkMw).foldl max 0)
         mismatch := false }) s1)) := by
  have ok : (isData m 4 || isExt m 18) = true := by rw [caps]; rfl
  have chunk : (phyOf (handed p s) p).rxChunk = (phyOf s p).rxChunk := by simp [handed]
  have source' : isSource (modTc p (fun x => { x with sinkTxNg := x.sinkTxNg && (pwrOf s p).reduce.isSome })
      (modPhy p (fun x => { x with ams := if x.ams = 3 then 0 else x.ams, rxChunk := [] }) (handed p s))) p = true := by
    simpa [isSource] using source
  refine congrArg _ ((takeHand_some (ok := fun m => isData m 4 || isExt m 18) hand up ok).trans ?_)
  dsimp only
  rw [chunk]
  exact if_pos source'

/-- A request to enter EPR: the port's policy, its cable and its contract may each refuse it (R336). -/
theorem execEprModeEnter_next {m : PdMsg} (hand : (phyOf s p).inHand = some m) (up : thymeDown s p = false)
    (mode : isData m 10 = true) (enter : bits (pdObj m 0) 31 24 = 1) :
    execEprModeEnter p s = .next
      (let s1 := handed p s
       let x := pwrOf s p
       if bit x.pol.offer 1 = false then eprMode p 4 5 s1
       else if (tcOf s p).cable.epr = false then eprMode p 4 1 s1
       else if isSource s p = false ∨ x.epr = true ∨ explicit s p = false ∨ x.newCon.isSome = true ∨ rev3 s p = false ∨
           safeHolds s = true then eprMode p 4 4 s1
       else capsAt p s.now (contractEvent p 5 x.con
         (modPwr p (fun y => { y with epr := true, eprAt := m.at_ }) (eprMode p 3 0 (eprMode p 2 0 s1))))) := by
  have ok : (isData m 10 && bits (pdObj m 0) 31 24 == 1) = true := by simp [mode, enter]
  refine congrArg _ ((takeHand_some (ok := fun m => isData m 10 && bits (pdObj m 0) 31 24 == 1) hand up ok).trans ?_)
  simp [or_assoc, handed_now]

theorem execEprModeExit_next {m : PdMsg} (hand : (phyOf s p).inHand = some m) (up : thymeDown s p = false)
    (mode : isData m 10 = true) (exit : bits (pdObj m 0) 31 24 = 5) :
    execEprModeExit p s = .next (if (pwrOf s p).epr then capsAt p s.now (eprEnd p (handed p s)) else handed p s) := by
  have ok : (isData m 10 && bits (pdObj m 0) 31 24 == 5) = true := by simp [mode, exit]
  exact congrArg _ (takeHand_some (ok := fun m => isData m 10 && bits (pdObj m 0) 31 24 == 5) hand up ok)

theorem execEprKeepalive_next {m : PdMsg} (hand : (phyOf s p).inHand = some m) (up : thymeDown s p = false)
    (control : isExt m 16 = true) (alive : bits (fld m.data 0 4) 23 16 = 3) :
    execEprKeepalive p s =
      .next (if (pwrOf s p).epr then sendChunk p 16 0 2 [4, 0] (handed p s) else notSupported p (handed p s)) := by
  have ok : (isExt m 16 && bits (fld m.data 0 4) 23 16 == 3) = true := by simp [control, alive]
  exact congrArg _ (takeHand_some (ok := fun m => isExt m 16 && bits (fld m.data 0 4) 23 16 == 3) hand up ok)

theorem execPpsTimeout_next (pps : (pwrOf s p).con.kind = 3) (up : thymeDown s p = false) :
    execPpsTimeout p s = .next (sendHardReset p (advanceTo ((pwrOf s p).ppsAt + 14000000000) (fresh s))) := by
  have runs : ¬ ((pwrOf (fresh s) p).con.kind ≠ 3 ∨ thymeDown (fresh s) p = true) := by
    have pps' : (pwrOf (fresh s) p).con.kind = 3 := pps
    have up' : thymeDown (fresh s) p = false := up
    rw [pps', up']
    simp
  exact if_neg runs

theorem execEprKeepaliveTimeout_next (epr : (pwrOf s p).epr = true) (up : thymeDown s p = false) :
    execEprKeepaliveTimeout p s = .next (sendHardReset p (advanceTo ((pwrOf s p).eprAt + 900000000) (fresh s))) := by
  have epr' : (pwrOf (fresh s) p).epr = true := epr
  have up' : thymeDown (fresh s) p = false := up
  simp only [execEprKeepaliveTimeout, epr', up']
  rfl

end

/-- Settles O22: a message in hand is the handler of its row, and a timer that runs has one branch left. -/
theorem sourceContractsRun : Obligations.SourceContractsRun := by
  unfold Obligations.SourceContractsRun
  refine ⟨?request, ?reduction, ?response, ?send, ?retry, ?sink, ?getSink, ?enter, ?exit, ?alive, ?pps, ?epr⟩
  case request =>
    rintro s p m ⟨hand, up, request, source⟩
    exact runs_to_of_kept (execPdRequest_kept p s) (execPdRequest_next hand up request source)
  case reduction =>
    rintro s p x ⟨reduce, may, still, none_⟩
    exact runs_to_of_kept (execBudgetReduction_kept p s) (execBudgetReduction_next reduce may still none_)
  case response =>
    rintro s p x ⟨reduce, none_, up⟩
    exact runs_to_of_kept (execReductionResponseTimeout_kept p s) (execReductionResponseTimeout_next reduce none_ up)
  case send =>
    rintro s p x ⟨due, may⟩
    exact runs_to_of_kept (execSourceCapsSend_kept p s) (execSourceCapsSend_next due may)
  case retry =>
    rintro s p ⟨may, implicit_, none_, lo, hi⟩
    exact runs_to_of_kept (execSourceCapsRetry_kept p s) (execSourceCapsRetry_next may implicit_ none_ lo hi)
  case sink =>
    rintro s p m ⟨hand, up, caps, source⟩
    exact runs_to_of_kept (execSinkCapabilitiesReceived_kept p s) (execSinkCapabilitiesReceived_source hand up caps source)
  case getSink =>
    rintro s d m ⟨hand, up, get⟩
    exact runs_to_of_kept (execGetSinkCapOnDs_kept d s) (congrArg _ (takeHand_some hand up get))
  case enter =>
    rintro s p m ⟨hand, up, mode, enter⟩
    exact runs_to_of_kept (execEprModeEnter_kept p s) (execEprModeEnter_next hand up mode enter)
  case exit =>
    rintro s p m ⟨hand, up, mode, exit⟩
    exact runs_to_of_kept (execEprModeExit_kept p s) (execEprModeExit_next hand up mode exit)
  case alive =>
    rintro s p m ⟨hand, up, control, alive⟩
    exact runs_to_of_kept (execEprKeepalive_kept p s) (execEprKeepalive_next hand up control alive)
  case pps =>
    rintro s p ⟨pps, up⟩
    exact runs_to_of_kept (execPpsTimeout_kept p s) (execPpsTimeout_next pps up)
  case epr =>
    rintro s p ⟨epr, up⟩
    exact runs_to_of_kept (execEprKeepaliveTimeout_kept p s) (execEprKeepaliveTimeout_next epr up)

end Sys2Proof.Machine
end

section
/-! SUPPORT. The role swaps: the partner's, the port's own, their sequences and the fast role swap (R350–R356). -/

set_option Elab.async false

namespace Sys2Proof.Machine

section
variable {s : State}

/-! A swap that the partner asks of a downstream port, and of an upstream port with no swap under way. -/

theorem execPrSwapReceived_ds {p : Port} {m : PdMsg} (hand : (phyOf s p).inHand = some m) (up : thymeDown s p = false)
    (swap : isCtl m 10 = true) (ds : portUs p = none) : execPrSwapReceived p s = .next (pdCtl p 4 (handed p s)) := by
  refine congrArg _ ((takeHand_some (ok := fun m => isCtl m 10) hand up swap).trans ?_)
  simp only [ds]

theorem execPrSwapReceived_us {p : Port} {m : PdMsg} {u : US} (hand : (phyOf s p).inHand = some m) (up : thymeDown s p = false)
    (swap : isCtl m 10 = true) (us : portUs p = some u) (idle : (pwrOf s p).swap = none) :
    execPrSwapReceived p s = .next
      (if (if isSource s p then bit (pwrOf s p).pol.roles 0 && (pwrOf s p).trans.isNone else mayBeSource (handed p s) p) then
         acceptSwap p 0 (handed p s)
       else pdCtl p 4 (handed p s)) := by
  have idle' : (pwrOf (handed p s) (usPort u)).swap = none := by rw [portUs_some us]; exact idle
  refine congrArg _ ((takeHand_some (ok := fun m => isCtl m 10) hand up swap).trans ?_)
  simp only [us]
  exact meetSwap_none idle'

theorem execDrSwapReceived_ds {p : Port} {m : PdMsg} (hand : (phyOf s p).inHand = some m) (up : thymeDown s p = false)
    (swap : isCtl m 9 = true) (ds : portUs p = none) : execDrSwapReceived p s = .next (pdCtl p 4 (handed p s)) := by
  refine congrArg _ ((takeHand_some (ok := fun m => isCtl m 9) hand up swap).trans ?_)
  simp only [ds]

theorem execDrSwapReceived_us {p : Port} {m : PdMsg} {u : US} (hand : (phyOf s p).inHand = some m) (up : thymeDown s p = false)
    (swap : isCtl m 9 = true) (us : portUs p = some u) (idle : (pwrOf s p).swap = none) :
    execDrSwapReceived p s = .next (if (tcOf s p).dfp then acceptSwap p 1 (handed p s) else pdCtl p 4 (handed p s)) := by
  have idle' : (pwrOf (handed p s) (usPort u)).swap = none := by rw [portUs_some us]; exact idle
  refine congrArg _ ((takeHand_some (ok := fun m => isCtl m 9) hand up swap).trans ?_)
  simp only [us]
  exact meetSwap_none idle'

theorem execVconnSwapReceived_ds {p : Port} {m : PdMsg} (hand : (phyOf s p).inHand = some m) (up : thymeDown s p = false)
    (swap : isCtl m 11 = true) (ds : portUs p = none) : execVconnSwapReceived p s = .next (pdCtl p 4 (handed p s)) := by
  refine congrArg _ ((takeHand_some (ok := fun m => isCtl m 11) hand up swap).trans ?_)
  simp only [ds]

theorem execVconnSwapReceived_us {p : Port} {m : PdMsg} {u : US} (hand : (phyOf s p).inHand = some m) (up : thymeDown s p = false)
    (swap : isCtl m 11 = true) (us : portUs p = some u) (idle : (pwrOf s p).swap = none) :
    execVconnSwapReceived p s = .next (acceptSwap p 2 (handed p s)) := by
  have idle' : (pwrOf (handed p s) (usPort u)).swap = none := by rw [portUs_some us]; exact idle
  refine congrArg _ ((takeHand_some (ok := fun m => isCtl m 11) hand up swap).trans ?_)
  simp only [us]
  exact meetSwap_none idle'

end

section
variable {s : State} {u : US} {w : Swap}

/-- The partner's answer to the swap that this port asked for (R351). -/
def swapAnswered (u : US) (w : Swap) (m : PdMsg) (s : State) : State :=
  let p := usPort u
  let s1 := modPhy p (fun x => { x with ams := 0 }) s
  if isCtl m 3 then swapAccepted u w s1
  else if isCtl m 4 then swapOver u 1 s1
  else if isCtl m 16 then swapOver u 2 s1
  else if w.waits ≥ 5 then swapOver u 3 s1
  else modTc p (fun t => { t with sinkTxNg := false })
    (modPwr p (fun x => { x with swap := some { w with phase := 2, waits := w.waits + 1, at_ := s.now } }) s1)

theorem execSwapResponseReceived_next {m : PdMsg} (hand : (phyOf s (usPort u)).inHand = some m) (up : thymeDown s (usPort u) = false)
    (swap : (pwrOf s (usPort u)).swap = some w) (ours : w.ours = true) (asked : w.phase = 0)
    (answer : (isCtl m 3 || isCtl m 4 || isCtl m 12 || isCtl m 16) = true) :
    execSwapResponseReceived u s = .next (swapAnswered u w m (handed (usPort u) s)) := by
  have own : (pwrOf s (usPort u)).swap.any (fun w => w.ours && w.phase == 0) = true := by simp [swap, ours, asked]
  have swap' : (pwrOf (handed (usPort u) s) (usPort u)).swap = some w := swap
  have ok : ((pwrOf s (usPort u)).swap.any (fun w => w.ours && w.phase == 0) &&
      (isCtl m 3 || isCtl m 4 || isCtl m 12 || isCtl m 16)) = true := by rw [own, answer]; rfl
  refine congrArg _ ((takeHand_some (ok := fun m => (pwrOf s (usPort u)).swap.any (fun w => w.ours && w.phase == 0) &&
    (isCtl m 3 || isCtl m 4 || isCtl m 12 || isCtl m 16)) hand up ok).trans ?_)
  simp only [swap']
  rfl

theorem execSwapWaitRetry_next {j : Fin 51} (swap : (pwrOf s (usPort u)).swap = some w) (ours : w.ours = true) (waits : w.phase = 2)
    (up : thymeDown s (usPort u) = false) :
    execSwapWaitRetry u j s = .next
      (sendSwap (usPort u) w.kind (swapPhase (usPort u) 0 (advanceTo (w.at_ + (100 + j.val) * 1000000) (fresh s)))) := by
  have swap' : (pwrOf (fresh s) (usPort u)).swap = some w := swap
  have up' : thymeDown (fresh s) (usPort u) = false := up
  simp only [execSwapWaitRetry, swap', ours, waits, up']
  rfl

theorem execPrSwapSequence_next (swap : (pwrOf s (usPort u)).swap = some w) (power : w.kind = 0) (accepted : w.phase = 1)
    (up : thymeDown s (usPort u) = false) :
    execPrSwapSequence u s = .next
      (let p := usPort u
       let s1 := resetPd p (fresh s)
       swapOver u 0 (if isSource s p then pdCtl p 6 (becomeSink p s1)
         else pdCtl p 6 (becomeSource p (advanceTo (s.now + 25000000) s1)))) := by
  have swap' : (pwrOf (fresh s) (usPort u)).swap = some w := swap
  have up' : thymeDown (fresh s) (usPort u) = false := up
  have runs : ¬ (w.kind ≠ 0 ∨ w.phase ≠ 1 ∨ thymeDown (fresh s) (usPort u) = true) := by simp [power, accepted, up']
  simp only [execPrSwapSequence, swap']
  exact if_neg runs

theorem execDataRoleSwapRequest_next (at_ : (tcOf s (usPort u)).st = .attached) (dfp : (tcOf s (usPort u)).dfp = true)
    (con : explicit s (usPort u) = true) (none_ : (pwrOf s (usPort u)).newCon = none) (idle : (pwrOf s (usPort u)).swap = none)
    (up : thymeDown s (usPort u) = false) :
    execDataRoleSwapRequest u s = .next (sendSwap (usPort u) 1
      (modPwr (usPort u) (fun x => { x with swap := some { kind := 1, ours := true, at_ := s.now } }) (fresh s))) := by
  have at' : (tcOf (fresh s) (usPort u)).st = .attached := at_
  have dfp' : (tcOf (fresh s) (usPort u)).dfp = true := dfp
  have con' : explicit (fresh s) (usPort u) = true := con
  have none' : (pwrOf (fresh s) (usPort u)).newCon = none := none_
  have idle' : (pwrOf (fresh s) (usPort u)).swap = none := idle
  have up' : thymeDown (fresh s) (usPort u) = false := up
  simp only [execDataRoleSwapRequest, at', dfp', con', none', idle', up']
  rfl

theorem execFrsSignal_next (arm : (pwrOf s (usPort u)).frsArm = true) (sink : isSink s (usPort u) = true)
    (first : (pwrOf s (usPort u)).frs = none) :
    execFrsSignal u s = .next
      (let p := usPort u
       emit (.frontEnd p 6 true) (modPwr p (fun x => { x with frs := some s.now, frsLost := false })
         (swapFail p (notice p (.frsRx s.now) (fresh s))))) := by
  have arm' : (pwrOf (fresh s) (usPort u)).frsArm = true := arm
  have sink' : isSink (fresh s) (usPort u) = true := sink
  have first' : (pwrOf (fresh s) (usPort u)).frs = none := first
  simp only [execFrsSignal, arm', sink', first']
  rfl

theorem execFrSwapReceived_next {m : PdMsg} (hand : (phyOf s (usPort u)).inHand = some m) (up : thymeDown s (usPort u) = false)
    (swap : isCtl m 19 = true) :
    execFrSwapReceived u s = .next
      (let p := usPort u
       if (pwrOf s p).frs.isNone then notSupported p (handed p s)
       else pdCtl p 6 (becomeSource p (resetPd p
         (modPwr p (fun x => { x with frs := none, frsLost := false }) (pdCtl p 3 (handed p s)))))) :=
  congrArg _ (takeHand_some (ok := fun m => isCtl m 19) hand up swap)

theorem execFrSwapInitTimeout_next {x : Nat} (frs : (pwrOf s (usPort u)).frs = some x) :
    execFrSwapInitTimeout u s = .next
      (let p := usPort u
       let s1 := modPwr p (fun y => { y with frs := none, frsLost := false }) (sendHardReset p (advanceTo (x + 15000000) (fresh s)))
       if (pwrOf s p).frsLost then detachPort p s1 else s1) := by
  have frs' : (pwrOf (fresh s) (usPort u)).frs = some x := frs
  simp only [execFrSwapInitTimeout, frs']
  rfl

end

/-- Settles O23: downstream ports reject the partner's swaps, upstream ports judge them, and the port's own run by their phase. -/
theorem roleSwapsRun : Obligations.RoleSwapsRun := by
  unfold Obligations.RoleSwapsRun
  refine ⟨?prDs, ?prUs, ?drDs, ?drUs, ?vconnDs, ?vconnUs, ?accepted, ?refused, ?wait, ?retry, ?sequence, ?request, ?signal, ?frSwap,
    ?noSignal, ?frTimeout⟩
  case prDs =>
    rintro s p m ⟨hand, up, swap, ds⟩
    exact runs_to_of_kept (execPrSwapReceived_kept p s) (execPrSwapReceived_ds hand up swap ds)
  case prUs =>
    rintro s p m u ⟨hand, up, swap, us, idle⟩
    exact runs_to_of_kept (execPrSwapReceived_kept p s) (execPrSwapReceived_us hand up swap us idle)
  case drDs =>
    rintro s p m ⟨hand, up, swap, ds⟩
    exact runs_to_of_kept (execDrSwapReceived_kept p s) (execDrSwapReceived_ds hand up swap ds)
  case drUs =>
    rintro s p m u ⟨hand, up, swap, us, idle⟩
    exact runs_to_of_kept (execDrSwapReceived_kept p s) (execDrSwapReceived_us hand up swap us idle)
  case vconnDs =>
    rintro s p m ⟨hand, up, swap, ds⟩
    exact runs_to_of_kept (execVconnSwapReceived_kept p s) (execVconnSwapReceived_ds hand up swap ds)
  case vconnUs =>
    rintro s p m u ⟨hand, up, swap, us, idle⟩
    exact runs_to_of_kept (execVconnSwapReceived_kept p s) (execVconnSwapReceived_us hand up swap us idle)
  case accepted =>
    rintro s u m w ⟨hand, up, swap, ours, asked, accept⟩
    have next := execSwapResponseReceived_next hand up swap ours asked (by simp [accept])
    exact runs_of_kept_next (execSwapResponseReceived_kept u s) next (if_pos accept)
  case refused =>
    rintro s u m w ⟨hand, up, swap, ours, asked, refuse, notAccept⟩
    have next := execSwapResponseReceived_next hand up swap ours asked (by rcases refuse with h | h <;> simp [h])
    refine runs_of_kept_next (execSwapResponseReceived_kept u s) next ?_
    rcases Bool.eq_false_or_eq_true (isCtl m 4) with reject | reject
    · simp [swapAnswered, notAccept, reject]
    · have unsupported : isCtl m 16 = true := by simpa [reject] using refuse
      simp [swapAnswered, notAccept, reject, unsupported]
  case wait =>
    rintro s u m w ⟨hand, up, swap, ours, asked, wait, notAccept, notReject, supported, few⟩
    have next := execSwapResponseReceived_next hand up swap ours asked (by simp [wait])
    have few' : ¬ w.waits ≥ 5 := by omega
    refine runs_of_kept_next (execSwapResponseReceived_kept u s) next ?_
    simp only [swapAnswered, notAccept, notReject, supported, few']
    rfl
  case retry =>
    rintro s u j w ⟨swap, ours, waits, up⟩
    exact runs_to_of_kept (execSwapWaitRetry_kept u j s) (execSwapWaitRetry_next swap ours waits up)
  case sequence =>
    rintro s u w ⟨swap, power, accepted, up⟩
    exact runs_to_of_kept (execPrSwapSequence_kept u s) (execPrSwapSequence_next swap power accepted up)
  case request =>
    rintro s u ⟨at_, dfp, con, none_, idle, up⟩
    exact runs_to_of_kept (execDataRoleSwapRequest_kept u s) (execDataRoleSwapRequest_next at_ dfp con none_ idle up)
  case signal =>
    rintro s u ⟨arm, sink, first⟩
    exact runs_to_of_kept (execFrsSignal_kept u s) (execFrsSignal_next arm sink first)
  case frSwap =>
    rintro s u m ⟨hand, up, swap, signalled⟩
    have next := execFrSwapReceived_next hand up swap
    rw [if_neg (by simpa using signalled)] at next
    exact runs_to_of_kept (execFrSwapReceived_kept u s) next
  case noSignal =>
    rintro s u m ⟨hand, up, swap, unsignalled⟩
    have next := execFrSwapReceived_next hand up swap
    rw [if_pos (by simp [unsignalled])] at next
    exact runs_to_of_kept (execFrSwapReceived_kept u s) next
  case frTimeout =>
    rintro s u x frs
    exact runs_to_of_kept (execFrSwapInitTimeout_kept u s) (execFrSwapInitTimeout_next frs)

end Sys2Proof.Machine
end

section
/-! SUPPORT. Voltage transitions, conversions, trips, stage polls and the VBUS side of Hard Reset (R340–R347). -/

set_option Elab.async false

namespace Sys2Proof.Machine

section
variable {s : State} {p : Port}

theorem execTransitionLimitsWrite_next {v : VTrans} {c : Contract} (trans : (pwrOf s p).trans = some v)
    (con : (pwrOf s p).newCon = some c) (begun_ : v.phase = 0) (up : thymeDown s p = false) :
    execTransitionLimitsWrite p s = .next
      (let x := pwrOf s p
       let s1 := advanceTo (v.at_ + v.delay) (fresh s)
       let d := if v.fromMv ≤ v.toMv then v.toMv - v.fromMv else v.fromMv - v.toMv
       let s2 := modPwr p (fun y => { y with
         discharge := decide (v.fromMv > v.toMv + 5000)
         trans := some { v with phase := 1, cmdAt := s1.now, bound := d * 1150 / max 1 y.pol.slew } })
         (writeVolt p v.toMv (writeLimits p (max x.ov (ovpMv c)) (min x.uv (uvpMv c)) s1))
       if v.fromMv > v.toMv + 5000 then emit (.frontEnd p 2 true) s2 else s2) := by
  have trans' : (pwrOf (fresh s) p).trans = some v := trans
  have con' : (pwrOf (fresh s) p).newCon = some c := con
  have runs : ¬ (v.phase ≠ 0 ∨ thymeDown (fresh s) p = true) := by
    have up' : thymeDown (fresh s) p = false := up
    simp [begun_, up']
  simp only [execTransitionLimitsWrite, trans', con', runs, if_false, decide_eq_true_eq]
  rfl

/-- A conversion of the port whose transition is next (R344). -/
theorem execAdcConversion_trans {v : List Nat} (slot : s.lane.adcSlot < 3) (next : nextTrans s = some p)
    (free : unitFenced s .adc (.channel (portCode p)) = false) :
    execAdcConversion v s = .next
      (let s1 := advanceTo (s.lane.adcAt + 1000) (fresh s)
       vbsSample p (v.getD p.val 0)
         { s1 with lane := { s1.lane with adcAt := s1.now, adcSlot := (s1.lane.adcSlot + 1) % 4, adcTrans := p.val } }) := by
  have next' : nextTrans (fresh s) = some p := next
  have free' : unitFenced (fresh s) .adc (.channel (portCode p)) = false := free
  have slot' : (advanceTo ((fresh s).lane.adcAt + 1000) (fresh s)).lane.adcSlot < 3 := slot
  simp only [execAdcConversion, next', free', slot', Option.isSome_some, and_self, if_true]
  rfl

/-- A conversion of the port whose steady turn it is. -/
theorem execAdcConversion_steady {v : List Nat} (turn : ¬ (s.lane.adcSlot < 3 ∧ (nextTrans s).isSome = true))
    (steady : s.lane.adcSteady = p.val) (free : unitFenced s .adc (.channel (portCode p)) = false) :
    execAdcConversion v s = .next
      (let s1 := advanceTo (s.lane.adcAt + 1000) (fresh s)
       vbsSample p (v.getD p.val 0)
         { s1 with lane := { s1.lane with
             adcAt := s1.now, adcSlot := (s1.lane.adcSlot + 1) % 4, adcSteady := (s1.lane.adcSteady + 1) % 20 } }) := by
  obtain ⟨n, lt⟩ := p
  obtain rfl : s.lane.adcSteady = n := steady
  have turn' : ¬ ((advanceTo ((fresh s).lane.adcAt + 1000) (fresh s)).lane.adcSlot < 3 ∧ (nextTrans (fresh s)).isSome = true) := turn
  have free' : ¬ unitFenced (fresh s) .adc (.channel (portCode ⟨s.lane.adcSteady, lt⟩)) = true := by
    rw [show unitFenced (fresh s) .adc _ = false from free]
    simp
  unfold execAdcConversion
  refine (if_neg turn').trans ((dif_pos lt).trans ?_)
  exact congrArg _ (if_neg free')

theorem execTransitionTimeout_next {v : VTrans} (trans : (pwrOf s p).trans = some v) (commanded : v.phase = 1) :
    execTransitionTimeout p s = .next
      (let s1 := advanceTo (v.cmdAt + 2 * v.bound + 4000 * ((transCount s + 2) / 3)) (fresh s)
       fault (portBlock p) 12 (blockId (portBlock p)) (if thymeDown s p then s1 else sendHardReset p s1)) := by
  have trans' : (pwrOf (fresh s) p).trans = some v := trans
  simp only [execTransitionTimeout, trans', commanded]
  rfl

theorem isSource_modPwr (p q : Port) (f : Pwr → Pwr) (s : State) : isSource (modPwr p f s) q = isSource s q := rfl

theorem execStageStatusPoll_next {w : BitVec 16} {n : Nat} (reads : pslReads s p = true) (few : n < 4) :
    execStageStatusPoll p w n s = .next
      (let s1 := modPwr p (fun x => { x with status := w.toNat }) ((List.range n).foldl (fun y _ => fault .psl 8 (portCode p) y) (fresh s))
       if bit w.toNat 4 then ocShutdown p s1 else s1) := by
  have reads' : pslReads (fresh s) p = true := reads
  simp only [execStageStatusPoll, reads', pslTry_lt few]
  rfl

theorem execStageVoutIoutPoll_next {v i n : Nat} (reads : pslReads s p = true) (at_ : (tcOf s p).st = .attached) (few : n < 4) :
    execStageVoutIoutPoll p v i n s = .next (modPwr p (fun x => { x with readV := some v, readI := some i })
      ((List.range n).foldl (fun y _ => fault .psl 8 (portCode p) y) (fresh s))) := by
  have reads' : pslReads (fresh s) p = true := reads
  have at' : (tcOf (fresh s) p).st = .attached := at_
  simp only [execStageVoutIoutPoll, reads', at', pslTry_lt few]
  rfl

theorem execStageTempPoll_fails {x : Int} {n : Nat} (reads : pslReads s p = true) (many : 4 ≤ n) :
    execStageTempPoll p x n s = .next
      (fault .psl 9 (portCode p) (pscLow p ((List.range 3).foldl (fun y _ => fault .psl 8 (portCode p) y) (fresh s)))) := by
  have reads' : pslReads (fresh s) p = true := reads
  simp only [execStageTempPoll, reads', pslTry_ge many]
  rfl

theorem execStageTempPoll_next {x : Int} (reads : pslReads s p = true) :
    execStageTempPoll p x 0 s = .next (modPwr p (fun y => { y with temp := some x }) (fresh s)) := by
  have reads' : pslReads (fresh s) p = true := reads
  simp only [execStageTempPoll, reads', pslTry_lt (show 0 < 4 by omega)]
  rfl

theorem execHardResetVbusOff_next {x : Nat} (hr : (pwrOf s p).hr = some (1, x)) :
    execHardResetVbusOff p s = .next
      (let s1 := dataOff p (pscLow p (advanceTo (x + 30000000) (fresh s)))
       modPwr p (fun y => { y with hr := some (2, s1.now) }) s1) := by
  have hr' : (pwrOf (fresh s) p).hr = some (1, x) := hr
  simp only [execHardResetVbusOff, hr']

theorem execHardResetRecover_next {x : Nat} (hr : (pwrOf s p).hr = some (3, x)) :
    execHardResetRecover p s = .next
      (let s1 := pscHigh p (modTc p (fun y => { y with vbus5At := none }) (advanceTo (x + 750000000) (fresh s)))
       modPwr p (fun y => { y with hr := some (4, s1.now) }) s1) := by
  have hr' : (pwrOf (fresh s) p).hr = some (3, x) := hr
  simp only [execHardResetRecover, hr']

end

/-- Settles O24: a transition by its phase, a conversion by its turn, a poll by the tries that failed. -/
theorem voltageTransitionsAndStagesRun : Obligations.VoltageTransitionsAndStagesRun := by
  unfold Obligations.VoltageTransitionsAndStagesRun
  refine ⟨?limits, ?convTrans, ?convSteady, ?timeout, ?ovp, ?uvp, ?uvpTrans, ?psf, ?psfUnseen, ?oc, ?status, ?volts, ?tempFails, ?temp,
    ?stuck, ?off, ?recover⟩
  case limits =>
    rintro s p v c ⟨trans, con, begun_, up⟩
    exact runs_to_of_kept (execTransitionLimitsWrite_kept p s) (execTransitionLimitsWrite_next trans con begun_ up)
  case convTrans =>
    rintro s v p ⟨slot, next, free⟩
    exact runs_to_of_kept (execAdcConversion_kept v s) (execAdcConversion_trans slot next free)
  case convSteady =>
    rintro s v p ⟨turn, steady, free⟩
    exact runs_to_of_kept (execAdcConversion_kept v s) (execAdcConversion_steady turn steady free)
  case timeout =>
    rintro s p v ⟨trans, commanded⟩
    exact runs_to_of_kept (execTransitionTimeout_kept p s) (execTransitionTimeout_next trans commanded)
  case ovp =>
    intro s p
    exact runs_to_of_kept (execVbusOvpTrip_kept p s) rfl
  case uvp =>
    intro s p steady
    have steady' : ¬ inTrans (fresh s) p = true := by rw [show inTrans (fresh s) p = false from steady]; simp
    exact runs_to_of_kept (execVbusUvpTrip_kept p s) (congrArg _ (if_neg steady'))
  case uvpTrans =>
    intro s p trans
    exact runs_to_of_kept (execVbusUvpTrip_kept p s) (congrArg _ (if_pos trans))
  case psf =>
    intro s p b seen
    exact runs_to_of_kept (execPsfRise_kept p b s) (congrArg _ (if_pos seen))
  case psfUnseen =>
    intro s p b unseen
    have unseen' : ¬ psfSeen (fresh s) p = true := by rw [show psfSeen (fresh s) p = false from unseen]; simp
    exact runs_to_of_kept (execPsfRise_kept p b s) (congrArg _ (if_neg unseen'))
  case oc =>
    intro s p
    exact runs_to_of_kept (execStageOcShutdown_kept p s) rfl
  case status =>
    rintro s p w n ⟨reads, few⟩
    exact runs_to_of_kept (execStageStatusPoll_kept p w n s) (execStageStatusPoll_next reads few)
  case volts =>
    rintro s p v i n ⟨reads, at_, few⟩
    exact runs_to_of_kept (execStageVoutIoutPoll_kept p v i n s) (execStageVoutIoutPoll_next reads at_ few)
  case tempFails =>
    rintro s p x n ⟨reads, many⟩
    exact runs_to_of_kept (execStageTempPoll_kept p x n s) (execStageTempPoll_fails reads many)
  case temp =>
    rintro s p x n ⟨reads, rfl⟩
    exact runs_to_of_kept (execStageTempPoll_kept p x 0 s) (execStageTempPoll_next reads)
  case stuck =>
    intro s
    exact runs_to_of_kept (execPsi2cBusStuck_kept s) rfl
  case off =>
    rintro s p x hr
    exact runs_to_of_kept (execHardResetVbusOff_kept p s) (execHardResetVbusOff_next hr)
  case recover =>
    rintro s p x hr
    exact runs_to_of_kept (execHardResetRecover_kept p s) (execHardResetRecover_next hr)

end Sys2Proof.Machine
end

section
/-! SUPPORT. The connector guard's readings, DisplayPort messages, hot-plug detect and lane I/O (R358–R378). -/

set_option Elab.async false

namespace Sys2Proof.Machine

section
variable {s : State} {p : Port} {f a : List Nat} {b : BootIn}

/-- A port whose guard is switched off leaves WET or DRYING at once (R358). -/
theorem execGuardReading_off (aon : s.sup.aon = true) (por : s.sup.porLow = false) (there : populated s p = true)
    (off : guardAction s p = 2) (awake : asleep s = false) (held : (guardOf s p).st ≠ 0) :
    execGuardReading p f a b s = .next (guardFree p (guardTo p 0 0 0 0xFFFF (fresh s))) := by
  have aon' : (fresh s).sup.aon = true := aon
  have por' : (fresh s).sup.porLow = false := por
  have there' : populated (fresh s) p = true := there
  have off' : guardAction (fresh s) p = 2 := off
  have awake' : asleep (fresh s) = false := awake
  have held' : ¬ (guardOf (fresh s) p).st = 0 := held
  simp only [execGuardReading, aon', por', there', off', awake', held', if_true, if_false]
  rfl

/-- The port's pending pre-check ends with the reading (R359). -/
def guardChecked (p : Port) (s : State) : State := modTc p (fun x => { x with preCheck := false }) (fresh s)

theorem pinsDue_guardChecked (p : Port) (s : State) : pinsDue (guardChecked p s) p = pinsDue s p := by
  simp [pinsDue, guardChecked, openCcPin]

/-- A reading awake of a port that the guard holds: each pin kept, a wet one twice, and the guard's state moves (R358–R361). -/
theorem execGuardReading_moves (aon : s.sup.aon = true) (por : s.sup.porLow = false) (there : populated s p = true)
    (hold : guardAction s p = 0) (awake : asleep s = false) :
    execGuardReading p f a b s = .next
      (let l := (pinsDue s p).mapIdx (fun i pin => (pin, f.getD i 1023, a.getD i 1023))
       let s1 := l.foldl (fun y x => keepReading p x.1 (if isWet x.2.1 then x.2.2 else x.2.1)
         (if isWet x.2.1 then keepReading p x.1 x.2.1 y else y)) (guardChecked p s)
       guardMoves p ((l.find? (fun x => isWet x.2.1 && isWet x.2.2)).map (fun x => (x.1, x.2.2)))
         (l.all (fun x => isTerm (if isWet x.2.1 then x.2.2 else x.2.1) || isDry (if isWet x.2.1 then x.2.2 else x.2.1))) s1) := by
  have aon' : (fresh s).sup.aon = true := aon
  have por' : (fresh s).sup.porLow = false := por
  have there' : populated (fresh s) p = true := there
  have hold' : guardAction (fresh s) p = 0 := hold
  have hold1 : guardAction (guardChecked p s) p = 0 := hold
  have awake1 : asleep (guardChecked p s) = false := awake
  simp only [execGuardReading, aon', por', there', hold', ← guardChecked.eq_1, hold1, awake1, pinsDue_guardChecked]
  rfl

end

section
variable {s : State} {d : DS} {i : Fin 2}

theorem execDpEntryStart_next {x : Nat} (input : dpInput s d = some i) (due : s.dp[i].due = some x) (rest : s.dp[i].phase = 0)
    (con : explicit s (dsPort d) = true) (up : thymeDown s (dsPort d) = false) (source : isSource s (dsPort d) = true) :
    execDpEntryStart d s = .next (dpStep i d 1 0xFF00 0 1 [] (advanceTo x (fresh s))) := by
  have input' : dpInput (fresh s) d = some i := input
  have due' : (fresh s).dp[i].due = some x := due
  have rest' : (fresh s).dp[i].phase = 0 := rest
  have con' : explicit (fresh s) (dsPort d) = true := con
  have up' : thymeDown (fresh s) (dsPort d) = false := up
  have source' : isSource (fresh s) (dsPort d) = true := source
  simp only [execDpEntryStart, input', due', rest', con', up', source']
  rfl

/-- The partner's answer to the message of a phase between Discover Identity and Configure (R368). -/
theorem execDpVdmAck_next {m : PdMsg} (hand : (phyOf s (dsPort d)).inHand = some m) (up : thymeDown s (dsPort d) = false)
    (vdm_ : isData m 15 = true) (answer : (vdmCmd m).2 ≠ 0) (input : dpInput s d = some i) (begun_ : s.dp[i].phase ≠ 0)
    (open_ : s.dp[i].phase < 7) (expected : (vdmSvid m, (vdmCmd m).1) = dpExpect s.dp[i].phase) :
    execDpVdmAck d s = .next
      (if (vdmCmd m).2 = 1 then dpAck i d m (handed (dsPort d) s) else dpStop i 2 (handed (dsPort d) s)) := by
  have ok : (isData m 15 && (vdmCmd m).2 != 0) = true := by simp [vdm_, answer]
  have input' : dpInput (handed (dsPort d) s) d = some i := input
  have runs : ¬ ((handed (dsPort d) s).dp[i].phase = 0 ∨ (handed (dsPort d) s).dp[i].phase ≥ 7 ∨
      (vdmSvid m, (vdmCmd m).1) ≠ dpExpect (handed (dsPort d) s).dp[i].phase) := by
    show ¬ (s.dp[i].phase = 0 ∨ s.dp[i].phase ≥ 7 ∨ (vdmSvid m, (vdmCmd m).1) ≠ dpExpect s.dp[i].phase)
    rintro (rest | closed | other)
    · exact begun_ rest
    · omega
    · exact other expected
  refine congrArg _ ((takeHand_some (ok := fun m => isData m 15 && (vdmCmd m).2 != 0) hand up ok).trans ?_)
  simp only [input']
  exact if_neg runs

theorem execDpVdmTimeout_next (input : dpInput s d = some i) (begun_ : s.dp[i].phase ≠ 0) (open_ : s.dp[i].phase < 7) :
    execDpVdmTimeout d s = .next (dpStop i 1 (advanceTo (s.dp[i].at_ + 27000000) (fresh s))) := by
  have input' : dpInput (fresh s) d = some i := input
  have runs : ¬ ((fresh s).dp[i].phase = 0 ∨ (fresh s).dp[i].phase ≥ 7) := show ¬ (s.dp[i].phase = 0 ∨ s.dp[i].phase ≥ 7) by omega
  simp only [execDpVdmTimeout, input']
  exact if_neg runs

/-- An Attention of the DisplayPort SVID with its status (R371). -/
theorem execDpAttention_next {m : PdMsg} (hand : (phyOf s (dsPort d)).inHand = some m) (up : thymeDown s (dsPort d) = false)
    (vdm_ : isData m 15 = true) (cmd : vdmCmd m = (6, 0)) (input : dpInput s d = some i) (svid : vdmSvid m = 0xFF01)
    (status : 2 ≤ msgObjs m.header) :
    execDpAttention d s = .next
      (if s.dp[i].phase = 7 then hpdStatus i (pdObj m 1) (handed (dsPort d) s)
       else modDp i (fun x => { x with hpdSeen := bit (pdObj m 1) 7 && decide (x.phase ≥ 5) }) (handed (dsPort d) s)) := by
  have ok : (isData m 15 && vdmCmd m == (6, 0)) = true := by rw [vdm_, cmd]; rfl
  have input' : dpInput (handed (dsPort d) s) d = some i := input
  have runs : ¬ (vdmSvid m ≠ 0xFF01 ∨ msgObjs m.header < 2) := by omega
  refine congrArg _ ((takeHand_some (ok := fun m => isData m 15 && vdmCmd m == (6, 0)) hand up ok).trans ?_)
  simp only [input']
  exact if_neg runs

/-- An Exit Mode command of the partner (R368). -/
theorem execDpExitMode_next {m : PdMsg} (hand : (phyOf s (dsPort d)).inHand = some m) (up : thymeDown s (dsPort d) = false)
    (vdm_ : isData m 15 = true) (cmd : vdmCmd m = (5, 0)) :
    execDpExitMode d s = .next
      (match dpInput s d with
      | none => vdm (dsPort d) (vdmSvid m) 0 2 5 [] (handed (dsPort d) s)
      | some i =>
        if s.dp[i].phase ≥ 5 then dpLeaveOne i 0 (vdm (dsPort d) (vdmSvid m) 1 1 5 [] (handed (dsPort d) s))
        else vdm (dsPort d) (vdmSvid m) 0 2 5 [] (handed (dsPort d) s)) := by
  have ok : (isData m 15 && vdmCmd m == (5, 0)) = true := by rw [vdm_, cmd]; rfl
  exact congrArg _ (takeHand_some (ok := fun m => isData m 15 && vdmCmd m == (5, 0)) hand up ok)

/-! The hot-plug-detect timer: an interrupt pulse ends, a kept pulse begins, a level is shown (R372). -/

theorem execHpdTimer_ends {x : Nat} (irq : s.dp[i].irqAt = some x) :
    execHpdTimer i s = .next
      (let s1 := advanceTo (x + 750000) (fresh s)
       modDp i (fun y => { y with irqAt := none, irqLast := some s1.now }) s1) := by
  have irq' : (fresh s).dp[i].irqAt = some x := irq
  simp only [execHpdTimer, irq']

theorem execHpdTimer_begins {x : Nat} (irq : s.dp[i].irqAt = none) (pend : s.dp[i].irqPend = true) (last : s.dp[i].irqLast = some x) :
    execHpdTimer i s = .next
      (let s1 := advanceTo (x + 2000000) (fresh s)
       modDp i (fun y => { y with irqAt := some s1.now, irqPend := false }) s1) := by
  have irq' : (fresh s).dp[i].irqAt = none := irq
  have pend' : (fresh s).dp[i].irqPend = true := pend
  have last' : (fresh s).dp[i].irqLast = some x := last
  simp only [execHpdTimer, irq', pend', last']

theorem execHpdTimer_shows {x : Nat} (irq : s.dp[i].irqAt = none) (pend : s.dp[i].irqPend = false) (low : s.dp[i].lowAt = some x)
    (seen : s.dp[i].hpdSeen = true) (shown : s.dp[i].hpd = false) (config : s.dp[i].phase = 7) :
    execHpdTimer i s = .next (modDp i (fun y => { y with hpd := true }) (advanceTo (x + 2000000) (fresh s))) := by
  have irq' : (fresh s).dp[i].irqAt = none := irq
  have pend' : (fresh s).dp[i].irqPend = false := pend
  have low' : (fresh s).dp[i].lowAt = some x := low
  have seen' : (fresh s).dp[i].hpdSeen = true := seen
  have shown' : (fresh s).dp[i].hpd = false := shown
  have config' : (fresh s).dp[i].phase = 7 := config
  simp only [execHpdTimer, irq', pend', low', seen', shown', config']
  rfl

end

/-- Settles O25: a reading by the guard's action, a message by the phase it answers, the timer by what it waits for. -/
theorem guardAndDisplayRun : Obligations.GuardAndDisplayRun := by
  unfold Obligations.GuardAndDisplayRun
  refine ⟨?off, ?moves, ?week, ?start, ?ack, ?nak, ?timeout, ?status, ?early, ?ends, ?begins, ?shows, ?exit, ?notIn⟩
  case off =>
    rintro s p f a b ⟨aon, por, there, off, awake, held⟩
    exact runs_to_of_kept (execGuardReading_kept p f a b s) (execGuardReading_off aon por there off awake held)
  case moves =>
    rintro s p f a b ⟨aon, por, there, hold, awake⟩
    exact runs_to_of_kept (execGuardReading_kept p f a b s) (execGuardReading_moves aon por there hold awake)
  case week =>
    intro s
    exact runs_to_of_kept (execGuardWeekEnd_kept s) rfl
  case start =>
    rintro s d i x ⟨input, due, rest, con, up, source⟩
    exact runs_to_of_kept (execDpEntryStart_kept d s) (execDpEntryStart_next input due rest con up source)
  case ack =>
    rintro s d m i ⟨hand, up, vdm_, ack, input, begun_, open_, expected⟩
    have next := execDpVdmAck_next hand up vdm_ (by omega) input begun_ open_ expected
    rw [if_pos ack] at next
    exact runs_to_of_kept (execDpVdmAck_kept d s) next
  case nak =>
    rintro s d m i ⟨hand, up, vdm_, nak, input, begun_, open_, expected⟩
    have next := execDpVdmAck_next hand up vdm_ (by omega) input begun_ open_ expected
    rw [if_neg (by omega)] at next
    exact runs_to_of_kept (execDpVdmAck_kept d s) next
  case timeout =>
    rintro s d i ⟨input, begun_, open_⟩
    exact runs_to_of_kept (execDpVdmTimeout_kept d s) (execDpVdmTimeout_next input begun_ open_)
  case status =>
    rintro s d m i ⟨hand, up, vdm_, cmd, input, svid, status, config⟩
    have next := execDpAttention_next hand up vdm_ cmd input svid status
    rw [if_pos config] at next
    exact runs_to_of_kept (execDpAttention_kept d s) next
  case early =>
    rintro s d m i ⟨hand, up, vdm_, cmd, input, svid, status, config⟩
    have next := execDpAttention_next hand up vdm_ cmd input svid status
    rw [if_neg config] at next
    exact runs_to_of_kept (execDpAttention_kept d s) next
  case ends =>
    rintro s i x irq
    exact runs_to_of_kept (execHpdTimer_kept i s) (execHpdTimer_ends irq)
  case begins =>
    rintro s i x ⟨irq, pend, last⟩
    exact runs_to_of_kept (execHpdTimer_kept i s) (execHpdTimer_begins irq pend last)
  case shows =>
    rintro s i x ⟨irq, pend, low, seen, shown, config⟩
    exact runs_to_of_kept (execHpdTimer_kept i s) (execHpdTimer_shows irq pend low seen shown config)
  case exit =>
    rintro s d m i ⟨hand, up, vdm_, cmd, input, entered⟩
    have next := execDpExitMode_next hand up vdm_ cmd
    simp only [input, ge_iff_le, entered, if_true] at next
    exact runs_to_of_kept (execDpExitMode_kept d s) next
  case notIn =>
    rintro s d m ⟨hand, up, vdm_, cmd, input⟩
    have next := execDpExitMode_next hand up vdm_ cmd
    simp only [input] at next
    exact runs_to_of_kept (execDpExitMode_kept d s) next

section
variable {s : State} {n : Fin 2} {l : Bool} {b : BootIn}

theorem execKickPulseEnd_next {x : Nat × Nat} (pulse : s.lio.kick[n].pulse = some x) :
    execKickPulseEnd n s = .next (kickEnds n x.1 x.2 (advanceTo x.2 (fresh s))) := by
  have pulse' : (fresh s).lio.kick[n].pulse = some x := pulse
  simp only [execKickPulseEnd, pulse']

theorem execDrawerReport_next {x : Nat} {o : Bool} (report : s.lio.kick[n].report = some (x, o)) :
    execDrawerReport n s = .next
      (let s1 := modKick n (fun k => { k with report := none }) (advanceTo (x + 2000000000) (fresh s))
       if s.lio.kick[n].silent then s1 else laneIoEvent 3 n.val (b2n o) 0 s1) := by
  have report' : (fresh s).lio.kick[n].report = some (x, o) := report
  simp only [execDrawerReport, report']
  rfl

/-- A sense input's new level, kept with the drawer that it shows (R375, R376). -/
def sensed (n : Fin 2) (l : Bool) (s : State) : State :=
  let s1 := { fresh s with lio := { s.lio with
    sense := if l then s.lio.sense ||| BitVec.ofNat 2 (2 ^ n.val) else s.lio.sense &&& ~~~(BitVec.ofNat 2 (2 ^ n.val)) } }
  modKick n (fun k => { k with report := k.report.map (fun r =>
    (r.1, r.2 || (drawerOpen s1 n && decide (s.now < r.1 + 2000000000)))) }) s1

/-- A changed level is kept; awake it places its event, and with its wake enabled it is a wake source. -/
theorem execLioSenseChange_next (aon : s.sup.aon = true) (por : s.sup.porLow = false) (new : s.lio.sense.getLsbD n.val ≠ l) :
    execLioSenseChange n l b s = .next
      (let s3 := if asleep s then sensed n l s else laneIoEvent 0 n.val (b2n l) 0 (sensed n l s)
       if s.lio.wake.getLsbD n.val then raiseWake 10 0 0 (if asleep s then edgeTime b.wx s else s.now) b s3 else s3) := by
  have new' : ¬ (!s.sup.aon || s.sup.porLow || s.lio.sense.getLsbD n.val == l) = true := by simp [aon, por, new]
  exact if_neg new'

/-- An enabled edge of a GPIO input while the lane runs and LIO is not fenced (R378). -/
theorem execGpioEdge_next {n : Fin 16} {e : Bool} (active : s.pmu.reported = .active) (free : blockFenced s .lio = false)
    (on_ : s.lio.edgeEn.getLsbD (2 * n.val + (if e then 0 else 1)) = true) :
    execGpioEdge n e s = .next
      (let s2 := { fresh s with lio := { s.lio with
         inp := if e then s.lio.inp ||| BitVec.ofNat 16 (2 ^ n.val) else s.lio.inp &&& ~~~(BitVec.ofNat 16 (2 ^ n.val))
         edge := s.lio.edge ||| BitVec.ofNat 16 (2 ^ n.val) } }
       if tabGet s.lio.pendAt n.val == some (s.now / 125000) then
         { s2 with lio := { s2.lio with pend := s2.lio.pend ||| BitVec.ofNat 32 (2 ^ n.val) } }
       else gpioEvent n.val s2) := by
  have active' : (fresh s).pmu.reported = .active := active
  have free' : blockFenced (fresh s) .lio = false := free
  have on' : (fresh s).lio.edgeEn.getLsbD (2 * n.val + (if e then 0 else 1)) = true := on_
  simp only [execGpioEdge, active', free', on']
  rfl

end

/-- Settles O26: a pulse, a report and an input's edge, each by the state in which it is seen. -/
theorem laneIoRuns : Obligations.LaneIoRuns := by
  unfold Obligations.LaneIoRuns
  refine ⟨?pulse, ?report, ?sense, ?senseWake, ?edge, ?edgeAgain⟩
  case pulse =>
    rintro s i x pulse
    exact runs_to_of_kept (execKickPulseEnd_kept i s) (execKickPulseEnd_next pulse)
  case report =>
    rintro s i x o report
    exact runs_to_of_kept (execDrawerReport_kept i s) (execDrawerReport_next report)
  case sense =>
    rintro s n l b ⟨aon, por, new, awake, quiet⟩
    have next := execLioSenseChange_next (b := b) aon por new
    simp only [awake, quiet, Bool.false_eq_true, if_false] at next
    exact runs_to_of_kept (execLioSenseChange_kept n l b s) next
  case senseWake =>
    rintro s n l b ⟨aon, por, new, sleeps, wakes⟩
    have next := execLioSenseChange_next (b := b) aon por new
    simp only [sleeps, wakes, if_true] at next
    exact runs_to_of_kept (execLioSenseChange_kept n l b s) next
  case edge =>
    rintro s n e ⟨active, free, on_, first⟩
    have next := execGpioEdge_next active free on_
    have first' : (tabGet s.lio.pendAt n.val == some (s.now / 125000)) = false := by simpa using first
    simp only [first', Bool.false_eq_true, if_false] at next
    exact runs_to_of_kept (execGpioEdge_kept n e s) next
  case edgeAgain =>
    rintro s n e ⟨active, free, on_, again⟩
    have next := execGpioEdge_next active free on_
    simp only [again, beq_self_eq_true, if_true] at next
    exact runs_of_kept_next (i := .gpioEdge n e) (execGpioEdge_kept n e s) next ⟨rfl, rfl, rfl, rfl⟩

end Sys2Proof.Machine
end

section
/-! SUPPORT. The Almanac's window over SPIT (R480). -/

set_option Elab.async false

namespace Sys2Proof.Machine

section
variable {s : State}

/-- A frame that is not too early after the wake of its select acts on the woken state. -/
theorem execSpitFrame_woken {n : Nat} {i : Byte} {a : Word} {l : List Byte} {r : Nat} {b : BootIn} (up : spitPowered s = true)
    (late : s.pmu.reported = .suspend → 5000 ≤ n) :
    execSpitFrame n i a l r b s =
      (let bad := wordSpace a.toNat && a.toNat % 4 != 0
       let s1 := spitWoken s
       let s2 := { s1 with mbx := { s1.mbx with frameErr := false } }
       if i = 0x0B then
         let d := if bad then List.replicate r 0 else (List.range r).map (fun j => spitByte s2 ((a.toNat + j) % 2 ^ 32))
         .next (emit (.spit (spitStatus s1) d) (if bad then frameError s2 else s2))
       else
         let s3 := emit (.spit (spitStatus s1) []) s2
         .next (if i = 0x02 ∧ bad = false then spitWrite b l.length a.toNat l s3 else frameError s3)) := by
  have up' : spitPowered (fresh s) = true := up
  have on_ : ((fresh s).pmu.reported == Mode.suspend && decide (n < 5000)) = false := by
    rcases Decidable.em (s.pmu.reported = .suspend) with mode | mode
    · have := late mode
      simp; omega
    · simp [mode]
  simp only [execSpitFrame, up', on_]
  rfl

theorem latchWake_ready (cls port detail : Nat) (s : State) : (latchWake cls port detail s).sup.ready = s.sup.ready := rfl

theorem suspendWake_ready (cls port detail : Nat) (s : State) : (suspendWake cls port detail s).sup.ready = s.sup.ready := by
  unfold suspendWake
  split
  · split
    · split <;> rfl
    · rfl
  · split
    · rfl
    · exact congrArg (·.ready) ((sup_of_only (modeFollow_only .sup _ (by decide) (by decide))).trans
        (sup_of_only (trialTick_only .sup _ _ _ (by decide))))

theorem spitWoken_ready (s : State) : (spitWoken s).sup.ready = s.sup.ready := by
  unfold spitWoken
  split
  · exact suspendWake_ready 6 0 0 (fresh s)
  · rfl

theorem spitWoken_alm (s : State) : (spitWoken s).alm = s.alm := by
  unfold spitWoken
  split
  · exact suspendWake_alm 6 0 0 (fresh s)
  · rfl

end

/-! ### Addresses of the window -/

section
variable {a : Nat}

theorem fltAddr_window (lo : 0x400000 ≤ a) : fltAddr a = none := if_neg (by omega)

theorem wordSpace_window (lo : 0x400000 ≤ a) (hi : a < 0x404000) : wordSpace a = true := by
  simp [wordSpace, lo, hi]

theorem spitWord_window {b : BootIn} {v : Nat} {s : State} (lo : 0x400000 ≤ a) : spitWord b a v s = frameError s := by
  have high : ¬ a < 0x1000 := by omega
  simp [spitWord, fltAddr_window lo, high]

theorem spitByte_window {s : State} (lo : 0x400000 ≤ a) (hi : a < 0x404000) :
    spitByte s a = if s.sup.ready then BitVec.ofNat 8 (almVisible s ((a - 0x400000) / 4) / 256 ^ (a % 4)) else 0 := by
  have h1 : ¬ a < 0x1000 := by omega
  have h2 : ¬ (0x10000 ≤ a ∧ a < 0x20000) := by omega
  have h3 : 0x400000 ≤ a ∧ a < 0x404000 := ⟨lo, hi⟩
  simp [spitByte, fltAddr_window lo, h1, h2, h3]

theorem almVisible_congr {s t : State} (h : t.alm = s.alm) (w : Nat) : almVisible t w = almVisible s w := by
  simp [almVisible, almRead, h]

/-- A write into the window leaves FRAME_ERR alone set, whole word by whole word. -/
theorem spitWrite_window {b : BootIn} : ∀ (f a : Nat) (l : List Byte) (s : State), l.length ≤ f → 0x400000 ≤ a →
    a + l.length ≤ 0x404000 → spitWrite b f a l (frameError s) = frameError s
  | 0, _, _, _, _, _, _ => rfl
  | _ + 1, _, [], _, _, _, _ => rfl
  | f + 1, a, x :: t, s, fuel, lo, hi => by
    simp only [List.length_cons] at fuel hi
    have space : wordSpace a = true := wordSpace_window lo (by omega)
    unfold spitWrite
    rw [if_pos space]
    split
    · rfl
    · rw [spitWord_window lo]
      exact spitWrite_window f (a + 4) (t.drop 3) (frameError s) (by simp; omega) (by omega) (by simp; omega)

/-- A write of at least a word does set it. -/
theorem spitWrite_window_first {b : BootIn} {l : List Byte} {s : State} (word : 4 ≤ l.length) (lo : 0x400000 ≤ a)
    (hi : a + l.length ≤ 0x404000) : spitWrite b l.length a l s = frameError s := by
  match l, word with
  | x :: t, word =>
    simp only [List.length_cons] at word hi
    have space : wordSpace a = true := wordSpace_window lo (by omega)
    have whole : ¬ t.length < 3 := by omega
    show spitWrite b (t.length + 1) a (x :: t) s = frameError s
    unfold spitWrite
    rw [if_pos space, if_neg whole, spitWord_window lo]
    exact spitWrite_window t.length (a + 4) (t.drop 3) s (by simp) (by omega) (by simp; omega)

/-- An aligned word of the window, byte by byte, in any state of the same Almanac. -/
theorem spitBytes_window {s t : State} (lo : 0x400000 ≤ a) (hi : a + 4 ≤ 0x404000) (aligned : a % 4 = 0) (alm : t.alm = s.alm)
    (ready : t.sup.ready = s.sup.ready) :
    (List.range 4).map (fun j => spitByte t ((a + j) % 2 ^ 32)) =
      if s.sup.ready = true then le 4 (almVisible s ((a - 0x400000) / 4)) else [0, 0, 0, 0] := by
  have byte (j : Nat) (hj : j < 4) : spitByte t ((a + j) % 2 ^ 32) =
      if s.sup.ready then BitVec.ofNat 8 (almVisible s ((a - 0x400000) / 4) / 256 ^ j) else 0 := by
    have addr : (a + j) % 2 ^ 32 = a + j := Nat.mod_eq_of_lt (by omega)
    have word : (a + j - 0x400000) / 4 = (a - 0x400000) / 4 := by omega
    have off : (a + j) % 4 = j := by omega
    rw [addr, spitByte_window (by omega) (by omega), word, off, ready, almVisible_congr alm]
  have range4 : List.range 4 = [0, 1, 2, 3] := rfl
  simp only [range4, List.map_cons, List.map_nil, byte 0 (by omega), byte 1 (by omega), byte 2 (by omega), byte 3 (by omega)]
  split
  · simp [le, Nat.div_div_eq_div_mul]
  · rfl

end

/-- Settles O56: the window is a word space in which no word is written, and an aligned word is read whole. -/
theorem almanacWindowIsReadOnlyOverSpit : Obligations.AlmanacWindowIsReadOnlyOverSpit := by
  intro setup a data n b s up late lo
  refine ⟨fun word hi => ?write, fun hi odd => ?misread, fun hi aligned => ?read⟩
  case write =>
    refine (execSpitFrame_woken up late).trans ?_
    have space : wordSpace a.toNat = true := wordSpace_window lo (by omega)
    have first : ¬ (0x02 : Byte) = 0x0B := by decide
    dsimp only
    rw [if_neg first]
    refine congrArg Host.Outcome.next ?_
    split
    · exact (spitWrite_window_first word lo hi).trans rfl
    · rfl
  case misread =>
    refine (execSpitFrame_woken up late).trans ?_
    have bad : (wordSpace a.toNat && a.toNat % 4 != 0) = true := by simp [wordSpace_window lo hi, odd]
    dsimp only
    rw [if_pos rfl, bad]
    rfl
  case read =>
    refine (execSpitFrame_woken up late).trans ?_
    have good : (wordSpace a.toNat && a.toNat % 4 != 0) = false := by simp [aligned]
    have bytes := spitBytes_window (s := s) (t := { spitWoken s with mbx := { (spitWoken s).mbx with frameErr := false } }) lo hi aligned
      (spitWoken_alm s) (spitWoken_ready s)
    dsimp only
    rw [if_pos rfl, good, if_neg Bool.false_ne_true, if_neg Bool.false_ne_true, bytes]

end Sys2Proof.Machine
end

section
/-! SUPPORT. The two invariants of every step, the canonical form of the memories (R473, R474) and the roles of the downstream
ports (R350), and the rules by which a change of the state keeps them. -/

set_option Elab.async false

namespace Sys2Proof.Machine

/-- A Type-C state is that of a source and DFP while it is attached. -/
def RoleOk (x : Tc) : Prop := x.st = .attached → x.src = true ∧ x.dfp = true

/-- Every downstream port of a vector of Type-C states is source and DFP while it is attached (R350). -/
def DsRoles (tc : Vector Tc 18) : Prop := ∀ d : DS, RoleOk tc[dsPort d]

/-- Both invariants hold after where they held before: the canonical form of the memories, and the roles of the downstream ports. -/
def Keeps (s t : State) : Prop := (Canon s → Canon t) ∧ (DsSource s → DsSource t)

/-- An answer that is a next state keeps both invariants. -/
def KeepsIn (s : State) : Res → Prop
  | .next t => Keeps s t
  | _ => True

section
variable {s t u : State}

theorem Keeps.refl (s : State) : Keeps s s := ⟨id, id⟩

theorem Keeps.trans (h : Keeps s t) (g : Keeps t u) : Keeps s u := ⟨fun c => g.1 (h.1 c), fun c => g.2 (h.2 c)⟩

/-- The invariants speak of five parts of the state alone. -/
theorem Keeps.parts (mbx : MbxOk t.mbx → MbxOk u.mbx) (fw : FwOk t.fw → FwOk u.fw) (alm : AlmOk t.alm → AlmOk u.alm)
    (memb : MemOk t.memb → MemOk u.memb) (tc : DsRoles t.tc → DsRoles u.tc) (h : Keeps s t) : Keeps s u :=
  h.trans ⟨fun ⟨m, f, a, e⟩ => ⟨mbx m, fw f, alm a, memb e⟩, tc⟩

theorem Keeps.same (mbx : u.mbx = t.mbx) (fw : u.fw = t.fw) (alm : u.alm = t.alm) (memb : u.memb = t.memb) (tc : u.tc = t.tc)
    (h : Keeps s t) : Keeps s u :=
  .parts (mbx ▸ id) (fw ▸ id) (alm ▸ id) (memb ▸ id) (tc ▸ id) h

/-- The parts of which the invariants speak. -/
def invariantParts : List Fld := [.mbx, .fw, .alm, .memb, .tc]

/-- What leaves those parts as they were keeps the invariants. -/
theorem Keeps.only (h : Keeps s t) (same : ∀ j ∈ invariantParts, j.only u = j.only t) : Keeps s u :=
  .same (mbx_of_only (same _ (by decide))) (fw_of_only (same _ (by decide))) (alm_of_only (same _ (by decide)))
    (memb_of_only (same _ (by decide))) (tc_of_only (same _ (by decide))) h

theorem Keeps.ite {c : Prop} [Decidable c] (h : Keeps s t) (g : Keeps s u) : Keeps s (if c then t else u) := by
  split
  · exact h
  · exact g

/-- A further change made under a condition. -/
theorem Keeps.when {c : Prop} [Decidable c] (f : Keeps s t → Keeps s u) (h : Keeps s t) : Keeps s (if c then u else t) := .ite (f h) h

theorem Keeps.unless {c : Prop} [Decidable c] (f : Keeps s t → Keeps s u) (h : Keeps s t) : Keeps s (if c then t else u) := .ite h (f h)

/-- Two changes of one state, by a condition. -/
theorem Keeps.fork {v : State} {c : Prop} [Decidable c] (f : Keeps s t → Keeps s u) (g : Keeps s t → Keeps s v) (h : Keeps s t) :
    Keeps s (if c then u else v) := .ite (f h) (g h)

theorem Keeps.fst_ite {α : Type} {c : Prop} [Decidable c] {x y : State × α} (h : Keeps s x.1) (g : Keeps s y.1) :
    Keeps s (if c then x else y).1 := by
  split
  · exact h
  · exact g

theorem Keeps.foldl {α : Type} {f : State → α → State} (step : ∀ t x, Keeps s t → Keeps s (f t x)) (h : Keeps s t) (l : List α) :
    Keeps s (l.foldl f t) := by
  induction l generalizing t with
  | nil => exact h
  | cons x l ih => exact ih (step t x h)

theorem KeepsIn.ite {c : Prop} [Decidable c] {a b : Res} (h : KeepsIn s a) (g : KeepsIn s b) : KeepsIn s (if c then a else b) := by
  split
  · exact h
  · exact g

theorem dsPort_ne_usPort (d : DS) (u : US) : dsPort d ≠ usPort u := by
  cases u <;> exact fun e => absurd (congrArg Fin.val e) (by simp [dsPort, usPort])

/-- A port's Type-C state changed keeps the invariants where a downstream port that is attached stays source and DFP. -/
theorem Keeps.modTc {p : Port} {f : Tc → Tc} (h : Keeps s t)
    (roles : (∃ d, p = dsPort d) → RoleOk (tcOf t p) → RoleOk (f (tcOf t p))) : Keeps s (modTc p f t) := by
  refine Keeps.parts (t := t) id id id id (fun ok d => ?_) h
  change RoleOk (tcOf (Machine.modTc p f t) (dsPort d))
  by_cases same : dsPort d = p
  · subst same
    rw [tcOf_modTc_self]
    exact roles ⟨d, rfl⟩ (ok d)
  · rw [tcOf_modTc_ne same]
    exact ok d

theorem modTc_keeps {p : Port} {f : Tc → Tc} (h : Keeps s t) (roles : ∀ x, RoleOk x → RoleOk (f x)) : Keeps s (modTc p f t) :=
  h.modTc fun _ => roles _

theorem Keeps.modTc_us {u : US} {f : Tc → Tc} (h : Keeps s t) : Keeps s (Machine.modTc (usPort u) f t) :=
  h.modTc fun ⟨d, e⟩ => absurd e.symm (dsPort_ne_usPort d u)

/-! One part replaced at a time. -/

theorem Keeps.withMbx {m : Mbx} (h : Keeps s t) (ok : MbxOk t.mbx → MbxOk m) : Keeps s { t with mbx := m } := .parts (t := t) ok id id id id h
theorem Keeps.withFw {f : Fw} (h : Keeps s t) (ok : FwOk t.fw → FwOk f) : Keeps s { t with fw := f } := .parts (t := t) id ok id id id h
theorem Keeps.withAlm {a : Alm} (h : Keeps s t) (ok : AlmOk t.alm → AlmOk a) : Keeps s { t with alm := a } := .parts (t := t) id id ok id id h
theorem Keeps.withMemb {m : MemBlk} (h : Keeps s t) (ok : MemOk t.memb → MemOk m) : Keeps s { t with memb := m } :=
  .parts (t := t) id id id ok id h
theorem Keeps.withPmu {x : Pmu} (h : Keeps s t) : Keeps s { t with pmu := x } := .same (t := t) rfl rfl rfl rfl rfl h
theorem Keeps.withEpqs {x : List (Nat × Epq)} (h : Keeps s t) : Keeps s { t with epqs := x } := .same (t := t) rfl rfl rfl rfl rfl h
theorem Keeps.withLane {x : Lane} (h : Keeps s t) : Keeps s { t with lane := x } := .same (t := t) rfl rfl rfl rfl rfl h
theorem Keeps.withSched {x : Sched} (h : Keeps s t) : Keeps s { t with sched := x } := .same (t := t) rfl rfl rfl rfl rfl h
theorem Keeps.withSup {x : Sup} (h : Keeps s t) : Keeps s { t with sup := x } := .same (t := t) rfl rfl rfl rfl rfl h
theorem Keeps.withWake {x : WakeRec} (h : Keeps s t) : Keeps s { t with wake := x } := .same (t := t) rfl rfl rfl rfl rfl h
theorem Keeps.withFlt {x : Flt} (h : Keeps s t) : Keeps s { t with flt := x } := .same (t := t) rfl rfl rfl rfl rfl h
theorem Keeps.withClk {x : Clk} (h : Keeps s t) : Keeps s { t with clk := x } := .same (t := t) rfl rfl rfl rfl rfl h
theorem Keeps.withUsd {x : Vector UsData 2} (h : Keeps s t) : Keeps s { t with usd := x } := .same (t := t) rfl rfl rfl rfl rfl h

end

end Sys2Proof.Machine
end

section
/-! SUPPORT. The operations of the mailbox, of the flash and of the memories keep the canonical form (R423–R438, R473, R474). -/

set_option Elab.async false

namespace Sys2Proof.Machine

/-! ### The mailbox (R423–R438) -/

section
variable {m : Mbx}

theorem putEntry_ok (now : Nat) (k : Fin 8) (e : Entry) (h : MbxOk m) : MbxOk (putEntry now k e m) := ⟨writeSlots_wf _ h.1, h.2⟩

theorem flushList_ok (now : Nat) (k : Fin 8) (l : List Entry) (h : MbxOk m) : MbxOk (flushList now k l m).1 := by
  induction l generalizing m with
  | nil => exact h
  | cons e l ih =>
    simp only [flushList]
    split
    · exact ih (putEntry_ok now k e h)
    · exact h

theorem flushCpl_ok (now : Nat) (k : Fin 8) (h : MbxOk m) : MbxOk (flushCpl now k m) := by
  have waited := flushList_ok now k m.waiting[k] h
  simp only [flushCpl]
  split
  · exact flushList_ok now k _ (m := { (flushList now k m.waiting[k] m).1 with waiting := _ }) waited
  · exact waited

theorem markLost_ok (k : Fin 8) (n : Nat) (h : MbxOk m) : MbxOk (markLost k n m) := by
  unfold markLost
  split
  · exact h
  · split <;> exact h

theorem pushEvent_ok (now : Nat) (k : Fin 8) (e : Entry) (h : MbxOk m) : MbxOk (pushEvent now k e m) :=
  flushCpl_ok now k (markLost_ok k _ h)

theorem pushCpl_ok (now : Nat) (k : Fin 8) (es : List Entry) (h : MbxOk m) : MbxOk (pushCpl now k es m) := flushCpl_ok now k h

theorem foldl_mbxOk {α : Type} {f : Mbx → α → Mbx} (step : ∀ m x, MbxOk m → MbxOk (f m x)) (l : List α) (h : MbxOk m) :
    MbxOk (l.foldl f m) := by
  induction l generalizing m with
  | nil => exact h
  | cons x l ih => exact ih (step m x h)

theorem mbxOk_ite {c : Prop} [Decidable c] {x : Mbx} (h : MbxOk m) (g : MbxOk x) : MbxOk (if c then m else x) := by
  split
  · exact h
  · exact g

theorem setIrq_ok (n : Nat) (h : MbxOk m) : MbxOk (setIrq m n) := ⟨h.1, h.2⟩
theorem setLmf_ok (u : US) (l : Lmf) (h : MbxOk m) : MbxOk (setLmf u l m) := ⟨h.1, h.2⟩
theorem trimCpl0_ok (h : MbxOk m) : MbxOk (trimCpl0 m) := ⟨h.1, h.2⟩
theorem cpl0Consume_ok (t : Transport) (v : Nat) (h : MbxOk m) : MbxOk (cpl0Consume t v m) := ⟨h.1, h.2⟩
theorem consume_ok (k : Fin 8) (n : Nat) (h : MbxOk m) : MbxOk (consume k n m) := ⟨h.1, h.2⟩
theorem tailWrite_ok (r : Fin 16) (v : Nat) (h : MbxOk m) : MbxOk (tailWrite r v m) := mbxOk_ite h h

theorem headWrite_ok (now : Nat) (r : Fin 16) (v : Nat) (h : MbxOk m) : MbxOk (headWrite now r v m) :=
  mbxOk_ite (flushCpl_ok now 0 h) (flushCpl_ok now _ h)

theorem runWrite_ok (r : Fin 16) (on : Bool) (h : MbxOk m) : MbxOk (runWrite r on m) :=
  mbxOk_ite h (mbxOk_ite (mbxOk_ite h h) h)

theorem geomWrite_ok (r : Fin 16) (base log2 : Nat) (h : MbxOk m) : MbxOk (geomWrite r base log2 m) := mbxOk_ite h (mbxOk_ite h h)

theorem assignField_ok (i : Fin 3) (v : Nat) (h : MbxOk m) : MbxOk (assignField i v m) := by
  have framed : MbxOk (if v = 3 then { m with frameErr := true } else m) := mbxOk_ite h h
  exact mbxOk_ite framed (mbxOk_ite framed framed)

theorem assignWrite_ok (v : Nat) (h : MbxOk m) : MbxOk (assignWrite v m) :=
  assignField_ok 2 _ (assignField_ok 1 _ (assignField_ok 0 _ h))

theorem ringReset_ok (now : Nat) (dest : List Transport) (k : Fin 8) (h : MbxOk m) : MbxOk (ringReset now dest k m) :=
  flushCpl_ok now k (mbxOk_ite (c := k.val = 0) h h)

theorem cmd0Append_ok (t : Transport) (l : List Byte) (h : MbxOk m) : MbxOk (cmd0Append t l m).1 := by
  simp only [cmd0Append]
  split
  · exact h
  · exact ⟨writeSlots_wf _ h.1, h.2⟩

theorem prioDoorbell_ok (n : Nat) (h : MbxOk m) : MbxOk (prioDoorbell n m) := mbxOk_ite h (cmd0Append_ok .spit _ h)

theorem ringAppend_ok (k : Fin 8) (l : List Byte) (h : MbxOk m) : MbxOk (ringAppend k l m) := ⟨writeSlots_wf _ h.1, h.2⟩

theorem tailReg_ok (r : Fin 16) (v : Nat) (h : MbxOk m) : MbxOk (tailReg r v m) := mbxOk_ite h (mbxOk_ite (tailWrite_ok r v h) h)

theorem headReg_ok (now : Nat) (r : Fin 16) (v : Nat) (h : MbxOk m) : MbxOk (headReg now r v m) :=
  mbxOk_ite h (mbxOk_ite (headWrite_ok now r v h) h)

theorem runReg_ok (now : Nat) (r : Fin 16) (on : Bool) (h : MbxOk m) : MbxOk (runReg now r on m) :=
  flushCpl_ok now _ (runWrite_ok r on h)

theorem resetReg_ok (now : Nat) (r : Fin 16) (h : MbxOk m) : MbxOk (resetReg now r m) := mbxOk_ite h (ringReset_ok now [] _ h)

theorem ctrlReg_ok (now : Nat) (r : Fin 16) (v : Nat) (h : MbxOk m) : MbxOk (ctrlReg now r v m) := by
  have cleared : MbxOk (if bit v 2 then setRing r { m.rings[r] with err := false, errCode := 0 } m else m) := mbxOk_ite h h
  have run := mbxOk_ite (c := (bit v 0 == (if bit v 2 then setRing r { m.rings[r] with err := false, errCode := 0 } m else m).rings[r].run) = true)
    cleared (runReg_ok now r (bit v 0) cleared)
  exact mbxOk_ite (resetReg_ok now r run) run

theorem mbxWrite_ok (now a v : Nat) (h : MbxOk m) : MbxOk (mbxWrite now a v m) := by
  refine mbxOk_ite h (mbxOk_ite h (mbxOk_ite (assignWrite_ok v h) (mbxOk_ite (prioDoorbell_ok _ h)
    (mbxOk_ite ⟨h.1, memWrite_wf _ h.2⟩ ?_))))
  split
  · split
    · exact geomWrite_ok _ _ _ h
    · exact headReg_ok now _ _ h
    · exact tailReg_ok _ _ h
    · exact ctrlReg_ok now _ v h
    · exact h
  · exact h

end

/-! ### Flash and firmware (R74–R80) -/

section
variable {f : Fw}

theorem flashClear_ok (a : Nat) (v : Byte) (h : FwOk f) : FwOk (flashClear a v f) := ⟨sparseSet_wf h.1, h.2⟩
theorem flashErase_ok (a n : Nat) (h : FwOk f) : FwOk (flashErase a n f) := ⟨filter_wf _ h.1, h.2⟩
theorem flashProgram_ok (a : Nat) (l : List Byte) (h : FwOk f) : FwOk (flashProgram a l f) := ⟨memWrite_wf _ h.1, h.2⟩

theorem setSlotState_ok (n v : Nat) (h : FwOk f) : FwOk (setSlotState n v f) := by
  unfold setSlotState
  split
  · exact flashClear_ok _ _ h
  · exact h

theorem setSlotTrial_ok (n v : Nat) (h : FwOk f) : FwOk (setSlotTrial n v f) := by
  unfold setSlotTrial
  split
  · exact flashClear_ok _ _ h
  · exact h

theorem dirRewrite_ok (active sa ta sb tb : Nat) (h : FwOk f) : FwOk (dirRewrite active sa ta sb tb f) :=
  flashProgram_ok _ _ (flashErase_ok _ _ h)

theorem setTrial_ok (n : Nat) (h : FwOk f) : FwOk (setTrial n f) := setSlotTrial_ok n _ (setSlotState_ok n _ h)

theorem dirEmpty_ok (n : Nat) (h : FwOk f) : FwOk (dirEmpty n f) := dirRewrite_ok _ _ _ _ _ h

theorem runImage_ok (n : Nat) (i : Img) (b : Bool) (h : FwOk f) : FwOk { runImage n i f with trial := b } := ⟨h.1, h.2⟩

theorem trialOver_ok {a : Bool} {b : Nat} {c : Option Nat} (h : FwOk f) : FwOk { f with trial := a, trialRun := b, trialFrom := c } :=
  ⟨h.1, h.2⟩
theorem thyStage_ok {a : Nat} {b : Option Nat} (h : FwOk f) : FwOk { f with thyMask := a, stageSlot := b } := ⟨h.1, h.2⟩
theorem fwOk_ite {c : Prop} [Decidable c] {g : Fw} (h : FwOk f) (k : FwOk g) : FwOk (if c then f else g) := by
  split
  · exact h
  · exact k

theorem trySlot_ok (s : State) (n : Nat) (h : FwOk f) : FwOk (trySlot s f n).1 := by
  have spent : FwOk (if slotState f n = 0x3F then setSlotTrial n (slotTrial f n &&& (slotTrial f n - 1)) f else f) := by
    split
    · exact setSlotTrial_ok n _ h
    · exact h
  unfold trySlot
  dsimp only
  generalize (if slotState f n = 0x3F then setSlotTrial n (slotTrial f n &&& (slotTrial f n - 1)) f else f) = g at spent ⊢
  simp only [apply_ite Prod.fst]
  exact fwOk_ite (setSlotState_ok n _ h) (fwOk_ite h (fwOk_ite (runImage_ok n _ _ spent) (setSlotState_ok n _ spent)))

theorem selectSlot_ok {s : State} (h : FwOk s.fw) : FwOk (selectSlot s).1 := by
  suffices ∀ (l : List Nat) (a : Fw × Bool), FwOk a.1 →
      FwOk (l.foldl (fun a n => if a.2 then a else trySlot s a.1 n) a).1 from this _ _ h
  intro l
  induction l with
  | nil => exact fun a ok => ok
  | cons n l ih =>
    intro a ok
    refine ih _ ?_
    dsimp only
    split
    · exact ok
    · exact trySlot_ok s n ok

end

/-! ### Flipped bits (R100, R493) -/

theorem zeroFill_ok {m : MemBlk} (dmc : Bool) (p : Pat) (h : MemOk m) : MemOk (zeroFill dmc p m) := by
  cases dmc with
  | false => exact ⟨h.1, h.2.1, filter_wf _ h.2.2⟩
  | true => exact ⟨filter_wf _ h.1, filter_wf _ h.2.1, h.2.2⟩

theorem cleanUnit_ok {m : MemBlk} (b : Block) (n : Nat) (h : MemOk m) : MemOk (cleanUnit b n m) := by
  unfold cleanUnit
  split
  · exact ⟨h.1, h.2.1, filter_wf _ h.2.2⟩
  · exact ⟨filter_wf _ h.1, filter_wf _ h.2.1, h.2.2⟩
  · exact h

end Sys2Proof.Machine
end

section
/-! SUPPORT. The operations whose frame holds none of the parts of which the invariants speak. -/

set_option Elab.async false

namespace Sys2Proof.Machine

section
variable {s t : State}

theorem advanceTo_keeps {n : Nat} (h : Keeps s t) : Keeps s (advanceTo n t) := h.only (by simp [invariantParts])
theorem emit_keeps {o : Out} (h : Keeps s t) : Keeps s (emit o t) := h.only (by simp [invariantParts])
theorem fresh_keeps (h : Keeps s t) : Keeps s (fresh t) := h.only (by simp [invariantParts])
theorem setRec_keeps {b : Block} {r : FltRec} (h : Keeps s t) : Keeps s (setRec b r t) := h.only (by simp [invariantParts])
theorem openShadow_keeps {b : Block} (h : Keeps s t) : Keeps s (openShadow b t) := h.only (by simp [invariantParts])
theorem countCe_keeps {b : Block} (h : Keeps s t) : Keeps s (countCe b t) := h.only (by simp [invariantParts])

theorem reactRec_keeps {b : Block} {src unit : Nat} {forced : Bool} {c : FClass} (h : Keeps s t) :
    Keeps s (reactRec b src unit forced c t) :=
  h.only (by simp [invariantParts])

theorem cmdAlmanacRead_keeps {r : Req} (h : Keeps s t) : Keeps s (cmdAlmanacRead r t).1 := h.only (by simp [invariantParts])
theorem cmdAlmanacWear_keeps {r : Req} (h : Keeps s t) : Keeps s (cmdAlmanacWear r t).1 := h.only (by simp [invariantParts])
theorem cmdIdentify_keeps {r : Req} (h : Keeps s t) : Keeps s (cmdIdentify r t).1 := h.only (by simp [invariantParts])
theorem cmdModeStatus_keeps {r : Req} (h : Keeps s t) : Keeps s (cmdModeStatus r t).1 := h.only (by simp [invariantParts])
theorem cmdLaneTimeRead_keeps {r : Req} (h : Keeps s t) : Keeps s (cmdLaneTimeRead r t).1 := h.only (by simp [invariantParts])
theorem cmdWakeRecordRead_keeps {r : Req} (h : Keeps s t) : Keeps s (cmdWakeRecordRead r t).1 := h.only (by simp [invariantParts])
theorem cmdEcho_keeps {r : Req} (h : Keeps s t) : Keeps s (cmdEcho r t).1 := h.only (by simp [invariantParts])
theorem cmdFwStatus_keeps {r : Req} (h : Keeps s t) : Keeps s (cmdFwStatus r t).1 := h.only (by simp [invariantParts])
theorem availService_keeps {old new : Mode} (h : Keeps s t) : Keeps s (availService old new t) := h.only (by simp [invariantParts])

theorem availStop_keeps {ps : List Nat} {forced : Bool} (h : Keeps s t) : Keeps s (availStop ps forced t) :=
  h.only (by simp [invariantParts])

theorem availGo_keeps {p : Nat} (h : Keeps s t) : Keeps s (availGo p t) := h.only (by simp [invariantParts])
theorem skipRule_keeps {i : Nat} (h : Keeps s t) : Keeps s (skipRule i t) := h.only (by simp [invariantParts])
theorem modDs_keeps {d : DS} {f : DsData → DsData} (h : Keeps s t) : Keeps s (modDs d f t) := h.only (by simp [invariantParts])
theorem modUs_keeps {u : US} {f : UsData → UsData} (h : Keeps s t) : Keeps s (modUs u f t) := h.only (by simp [invariantParts])
theorem modHub_keeps {u : US} {f : Hub → Hub} (h : Keeps s t) : Keeps s (modHub u f t) := h.only (by simp [invariantParts])
theorem setOwner_keeps {d : DS} {o : Option US} (h : Keeps s t) : Keeps s (setOwner d o t) := h.only (by simp [invariantParts])

theorem modSlot_keeps {u : US} {v : Fin 15} {f : SlotSt → SlotSt} (h : Keeps s t) : Keeps s (modSlot u v f t) :=
  h.only (by simp [invariantParts])

theorem chgSlot_keeps {u : US} {v : Fin 15} {ss : Bool} {c : Change} (h : Keeps s t) : Keeps s (chgSlot u v ss c t) :=
  h.only (by simp [invariantParts])

theorem chgPort_keeps {d : DS} {ss : Bool} {c : Change} (h : Keeps s t) : Keeps s (chgPort d ss c t) := h.only (by simp [invariantParts])
theorem presentSlots_keeps {u : US} {ss : Bool} (h : Keeps s t) : Keeps s (presentSlots u ss t) := h.only (by simp [invariantParts])
theorem presentWaiting_keeps {u : US} (h : Keeps s t) : Keeps s (presentWaiting u t) := h.only (by simp [invariantParts])

theorem applyRules_keeps {d : DS} {x : DevId} {direct : Bool} (h : Keeps s t) : Keeps s (applyRules d x direct t) :=
  h.only (by simp [invariantParts])

theorem writeWake_keeps {cls port detail : Nat} {modeLeft : Mode} {replayed : Bool} {also coincident : Nat} (h : Keeps s t) :
    Keeps s (writeWake cls port detail modeLeft replayed also coincident t) :=
  h.only (by simp [invariantParts])

theorem modEpq_keeps {q : Nat} {f : Epq → Epq} (h : Keeps s t) : Keeps s (modEpq q f t) := h.only (by simp [invariantParts])
theorem modLink_keeps {p : Port} {f : SsLink → SsLink} (h : Keeps s t) : Keeps s (modLink p f t) := h.only (by simp [invariantParts])
theorem setLink_keeps {p : Port} {l : Link} (h : Keeps s t) : Keeps s (setLink p l t) := h.only (by simp [invariantParts])

theorem countDiscard_keeps {p : Port} {q : Option Nat} {code : Nat} (h : Keeps s t) : Keeps s (countDiscard p q code t) :=
  h.only (by simp [invariantParts])

theorem tagHead_keeps {q : Nat} (h : Keeps s t) : Keeps s (tagHead q t) := h.only (by simp [invariantParts])
theorem touchEpq_keeps {q : Nat} (h : Keeps s t) : Keeps s (touchEpq q t) := h.only (by simp [invariantParts])
theorem settle_keeps (h : Keeps s t) : Keeps s (settle t) := h.only (by simp [invariantParts])
theorem police_keeps {q len : Nat} (h : Keeps s t) : Keeps s (police q len t).1 := h.only (by simp [invariantParts])

theorem linkIn_keeps {p : Port} {hd : SsHeader} {crcOk : Bool} (h : Keeps s t) : Keeps s (linkIn p hd crcOk t).1 :=
  h.only (by simp [invariantParts])

theorem resend_keeps {p : Port} (h : Keeps s t) : Keeps s (resend p t) := h.only (by simp [invariantParts])
theorem flushHdr_keeps {p : Port} {x1 : Nat} (h : Keeps s t) : Keeps s (flushHdr p x1 t) := h.only (by simp [invariantParts])

theorem sendHeader_keeps {inn p : Port} {hd : SsHeader} (h : Keeps s t) : Keeps s (sendHeader inn p hd t) :=
  h.only (by simp [invariantParts])

theorem chargeTp_keeps {q : Option Nat} {l : Port} (h : Keeps s t) : Keeps s (chargeTp q l t) := h.only (by simp [invariantParts])

theorem sendData_keeps {q : Option Nat} {l : Port} {p : Pkt} (h : Keeps s t) : Keeps s (sendData q l p t) :=
  h.only (by simp [invariantParts])

theorem popHead_keeps {q : Nat} (h : Keeps s t) : Keeps s (popHead q t) := h.only (by simp [invariantParts])

theorem dropPkts_keeps {f : Epq → Pkt → Bool} {code : Nat} (h : Keeps s t) : Keeps s (dropPkts f code t) :=
  h.only (by simp [invariantParts])

theorem dropLink_keeps {p : Port} {code : Nat} (h : Keeps s t) : Keeps s (dropLink p code t) := h.only (by simp [invariantParts])
theorem dropStored_keeps {d : DS} (h : Keeps s t) : Keeps s (dropStored d t) := h.only (by simp [invariantParts])
theorem dropPort_keeps {d : DS} (h : Keeps s t) : Keeps s (dropPort d t) := h.only (by simp [invariantParts])
theorem dropHost_keeps {u : US} (h : Keeps s t) : Keeps s (dropHost u t) := h.only (by simp [invariantParts])
theorem modPlace_keeps {f : Place → Place} (h : Keeps s t) : Keeps s (modPlace f t) := h.only (by simp [invariantParts])
theorem copyShadow_keeps (h : Keeps s t) : Keeps s (copyShadow t) := h.only (by simp [invariantParts])
theorem noteDelta_keeps {x : Delta} (h : Keeps s t) : Keeps s (noteDelta x t) := h.only (by simp [invariantParts])
theorem placeUnplaced_keeps (h : Keeps s t) : Keeps s (placeUnplaced t) := h.only (by simp [invariantParts])
theorem trClear_keeps {c : Nat} (h : Keeps s t) : Keeps s (trClear c t) := h.only (by simp [invariantParts])
theorem takePlaces_keeps (h : Keeps s t) : Keeps s (takePlaces t) := h.only (by simp [invariantParts])
theorem abandonRebuild_keeps (h : Keeps s t) : Keeps s (abandonRebuild t) := h.only (by simp [invariantParts])
theorem rePlace_keeps {c : Fin 8} (h : Keeps s t) : Keeps s (rePlace c t) := h.only (by simp [invariantParts])
theorem modU2d_keeps {d : DS} {f : Usb2 → Usb2} (h : Keeps s t) : Keeps s (modU2d d f t) := h.only (by simp [invariantParts])
theorem modU2u_keeps {u : US} {f : Us2 → Us2} (h : Keeps s t) : Keeps s (modU2u u f t) := h.only (by simp [invariantParts])
theorem modTt_keeps {d : DS} {f : Tt → Tt} (h : Keeps s t) : Keeps s (modTt d f t) := h.only (by simp [invariantParts])
theorem ttClear_keeps {d : DS} (h : Keeps s t) : Keeps s (ttClear d t) := h.only (by simp [invariantParts])
theorem ttReset_keeps {d : DS} (h : Keeps s t) : Keeps s (ttReset d t) := h.only (by simp [invariantParts])
theorem ttMoved_keeps {d : DS} (h : Keeps s t) : Keeps s (ttMoved d t) := h.only (by simp [invariantParts])
theorem modVig_keeps {f : Vig → Vig} (h : Keeps s t) : Keeps s (modVig f t) := h.only (by simp [invariantParts])
theorem modVigHub_keeps {u : US} {f : VigHub → VigHub} (h : Keeps s t) : Keeps s (modVigHub u f t) := h.only (by simp [invariantParts])
theorem modCtx_keeps {c : Nat} {f : Ctx → Ctx} (h : Keeps s t) : Keeps s (modCtx c f t) := h.only (by simp [invariantParts])

theorem giveCtx_keeps {d : DS} {hubPort speed : Nat} (h : Keeps s t) : Keeps s (giveCtx d hubPort speed t) :=
  h.only (by simp [invariantParts])

theorem deviceArrived_keeps {d : DS} {ss : Bool} (h : Keeps s t) : Keeps s (deviceArrived d ss t) := h.only (by simp [invariantParts])
theorem modRing_keeps {d : DS} {f : CapRing → CapRing} (h : Keeps s t) : Keeps s (modRing d f t) := h.only (by simp [invariantParts])
theorem modFo_keeps {u : US} {f : FoHub → FoHub} (h : Keeps s t) : Keeps s (modFo u f t) := h.only (by simp [invariantParts])
theorem retranslate_keeps {c : Nat} (h : Keeps s t) : Keeps s (retranslate c t) := h.only (by simp [invariantParts])

theorem modEp_keeps {c ep : Nat} {dirIn : Bool} {f : EpRec → EpRec} (h : Keeps s t) : Keeps s (modEp c ep dirIn f t) :=
  h.only (by simp [invariantParts])

theorem hostSeen_keeps {u : US} (h : Keeps s t) : Keeps s (hostSeen u t) := h.only (by simp [invariantParts])
theorem holdCtxs_keeps {d : DS} (h : Keeps s t) : Keeps s (holdCtxs d t) := h.only (by simp [invariantParts])
theorem ssUp_keeps {u : US} (h : Keeps s t) : Keeps s (ssUp u t) := h.only (by simp [invariantParts])
theorem hubConnect_keeps {u : US} (h : Keeps s t) : Keeps s (hubConnect u t) := h.only (by simp [invariantParts])
theorem hubDisconnect_keeps {u : US} (h : Keeps s t) : Keeps s (hubDisconnect u t) := h.only (by simp [invariantParts])
theorem quoteFailed_keeps {d : DS} (h : Keeps s t) : Keeps s (quoteFailed d t) := h.only (by simp [invariantParts])
theorem setSlots_keeps {u : US} {l : List Slot} (h : Keeps s t) : Keeps s (setSlots u l t) := h.only (by simp [invariantParts])
theorem setMove_keeps {d : DS} {m : Option Move} (h : Keeps s t) : Keeps s (setMove d m t) := h.only (by simp [invariantParts])
theorem movedPort_keeps {d : DS} (h : Keeps s t) : Keeps s (movedPort d t) := h.only (by simp [invariantParts])
theorem moveShown_keeps {d : DS} (h : Keeps s t) : Keeps s (moveShown d t) := h.only (by simp [invariantParts])
theorem setHome_keeps {d : DS} {o : Option US} (h : Keeps s t) : Keeps s (setHome d o t) := h.only (by simp [invariantParts])
theorem startFailover_keeps {u : US} (h : Keeps s t) : Keeps s (startFailover u t) := h.only (by simp [invariantParts])
theorem cmdFailback_keeps {r : Req} (h : Keeps s t) : Keeps s (cmdFailback r t).1 := h.only (by simp [invariantParts])
theorem downPacket_keeps {d : DS} {k : UsbPkt} (h : Keeps s t) : Keeps s (downPacket d k t) := h.only (by simp [invariantParts])
theorem meterHs_keeps {d : DS} {l : HsLatch} {n : Nat} (h : Keeps s t) : Keeps s (meterHs d l n t) := h.only (by simp [invariantParts])
theorem hostSof_keeps {u : US} {f : Nat} (h : Keeps s t) : Keeps s (hostSof u f t) := h.only (by simp [invariantParts])

theorem chargeSplit_keeps {u : US} {d : DS} {daddr ep : Nat} {dirIn : Bool} {n : Nat} (h : Keeps s t) :
    Keeps s (chargeSplit u d daddr ep dirIn n t) :=
  h.only (by simp [invariantParts])

theorem meterTt_keeps {d : DS} {daddr ep : Nat} {dirIn : Bool} {n : Nat} (h : Keeps s t) : Keeps s (meterTt d daddr ep dirIn n t) :=
  h.only (by simp [invariantParts])

theorem ttShadow_keeps {d : DS} {daddr ep : Nat} {dirIn : Bool} {r : UsbResp} (h : Keeps s t) : Keeps s (ttShadow d daddr ep dirIn r t) :=
  h.only (by simp [invariantParts])

theorem spillResult_keeps {b : TtBuf} (h : Keeps s t) : Keeps s (spillResult b t).2 := h.only (by simp [invariantParts])
theorem raiseTags_keeps {q : Nat} (h : Keeps s t) : Keeps s (raiseTags q t) := h.only (by simp [invariantParts])

theorem discardHeader_keeps {inn : Port} {q : Option Nat} {hd : SsHeader} {code : Nat} (h : Keeps s t) :
    Keeps s (discardHeader inn q hd code t) :=
  h.only (by simp [invariantParts])

theorem forwardDown_keeps {u : US} {d : DS} {hd : SsHeader} (h : Keeps s t) : Keeps s (forwardDown u d hd t) :=
  h.only (by simp [invariantParts])

theorem routeUp_keeps {d : DS} {hd : SsHeader} (h : Keeps s t) : Keeps s (routeUp d hd t) := h.only (by simp [invariantParts])
theorem storeData_keeps {r : RxDp} {k : Pkt} (h : Keeps s t) : Keeps s (storeData r k t) := h.only (by simp [invariantParts])
theorem flushItp_keeps {p : Port} (h : Keeps s t) : Keeps s (flushItp p t) := h.only (by simp [invariantParts])
theorem linkBack_keeps {u : US} (h : Keeps s t) : Keeps s (linkBack u t) := h.only (by simp [invariantParts])
theorem pollServed_keeps {x : Ctx} {e : EpRec} (h : Keeps s t) : Keeps s (pollServed x e t) := h.only (by simp [invariantParts])
theorem absorbReset_keeps {c : Nat} {warm : Bool} (h : Keeps s t) : Keeps s (absorbReset c warm t) := h.only (by simp [invariantParts])

theorem putSeen_keeps {d : DS} {hubPort : Nat} {x : Seen} (h : Keeps s t) : Keeps s (putSeen d hubPort x t) :=
  h.only (by simp [invariantParts])

theorem matchSeen_keeps {d : DS} {hubPort : Nat} {c : Option Nat} (h : Keeps s t) : Keeps s (matchSeen d hubPort c t) :=
  h.only (by simp [invariantParts])

theorem noteDesc_keeps {d : DS} {hubPort : Nat} {q : Setup} {data : List Byte} (h : Keeps s t) : Keeps s (noteDesc d hubPort q data t) :=
  h.only (by simp [invariantParts])

theorem openAll_keeps {d : DS} {hubPort a ctx : Nat} {ss : Bool} {ds : List EpDesc} (h : Keeps s t) :
    Keeps s (openAll d hubPort a ctx ss ds t) :=
  h.only (by simp [invariantParts])

theorem hubRequest_keeps {u : US} {d : DS} {ss : Bool} {q : Setup} (h : Keeps s t) : Keeps s (hubRequest u d ss q t).1 :=
  h.only (by simp [invariantParts])

theorem armGive_keeps {d : DS} (h : Keeps s t) : Keeps s (armGive d t) := h.only (by simp [invariantParts])
theorem cmdVigilStatus_keeps {r : Req} (h : Keeps s t) : Keeps s (cmdVigilStatus r t).1 := h.only (by simp [invariantParts])
theorem cmdCaptureRead_keeps {r : Req} (h : Keeps s t) : Keeps s (cmdCaptureRead r t).1 := h.only (by simp [invariantParts])
theorem modPhy_keeps {p : Port} {f : PdPhy → PdPhy} (h : Keeps s t) : Keeps s (modPhy p f t) := h.only (by simp [invariantParts])
theorem modPwr_keeps {p : Port} {f : Pwr → Pwr} (h : Keeps s t) : Keeps s (modPwr p f t) := h.only (by simp [invariantParts])

theorem pdSend_keeps {p : Port} {sop typ : Nat} {ext : Bool} {data : List Byte} (h : Keeps s t) : Keeps s (pdSend p sop typ ext data t) :=
  h.only (by simp [invariantParts])

theorem pdCtl_keeps {p : Port} {typ : Nat} (h : Keeps s t) : Keeps s (pdCtl p typ t) := h.only (by simp [invariantParts])

theorem pdData_keeps {p : Port} {typ : Nat} {objs : List Nat} (h : Keeps s t) : Keeps s (pdData p typ objs t) :=
  h.only (by simp [invariantParts])

theorem eprMode_keeps {p : Port} {action data : Nat} (h : Keeps s t) : Keeps s (eprMode p action data t) :=
  h.only (by simp [invariantParts])

theorem notSupported_keeps {p : Port} (h : Keeps s t) : Keeps s (notSupported p t) := h.only (by simp [invariantParts])
theorem notice_keeps {p : Port} {n : Notice} (h : Keeps s t) : Keeps s (notice p n t) := h.only (by simp [invariantParts])
theorem flushPd_keeps {p : Port} {result : Nat} (h : Keeps s t) : Keeps s (flushPd p result t) := h.only (by simp [invariantParts])
theorem resetPd_keeps {p : Port} (h : Keeps s t) : Keeps s (resetPd p t) := h.only (by simp [invariantParts])
theorem writeLimits_keeps {p : Port} {ov uv : Nat} (h : Keeps s t) : Keeps s (writeLimits p ov uv t) := h.only (by simp [invariantParts])
theorem writeVolt_keeps {p : Port} {mv : Nat} (h : Keeps s t) : Keeps s (writeVolt p mv t) := h.only (by simp [invariantParts])
theorem writeOc_keeps {p : Port} {c : Contract} (h : Keeps s t) : Keeps s (writeOc p c t) := h.only (by simp [invariantParts])
theorem pscHigh_keeps {p : Port} (h : Keeps s t) : Keeps s (pscHigh p t) := h.only (by simp [invariantParts])
theorem capsAt_keeps {p : Port} {n : Nat} (h : Keeps s t) : Keeps s (capsAt p n t) := h.only (by simp [invariantParts])
theorem endContract_keeps {p : Port} (h : Keeps s t) : Keeps s (endContract p t) := h.only (by simp [invariantParts])
theorem dropTests_keeps (h : Keeps s t) : Keeps s (dropTests t) := h.only (by simp [invariantParts])
theorem resetEpq_keeps {q : Nat} (h : Keeps s t) : Keeps s (resetEpq q t) := h.only (by simp [invariantParts])
theorem loseCell_keeps {n : Nat} (h : Keeps s t) : Keeps s (loseCell n t) := h.only (by simp [invariantParts])
theorem damageUnit_keeps {n : Nat} (h : Keeps s t) : Keeps s (damageUnit n t) := h.only (by simp [invariantParts])
theorem losePd_keeps {p : Port} {tx : Bool} (h : Keeps s t) : Keeps s (losePd p tx t) := h.only (by simp [invariantParts])
theorem correctPd_keeps {p : Port} (h : Keeps s t) : Keeps s (correctPd p t) := h.only (by simp [invariantParts])
theorem loseCrossing_keeps {p : Port} (h : Keeps s t) : Keeps s (loseCrossing p t) := h.only (by simp [invariantParts])
theorem kickLow_keeps {i : Fin 2} (h : Keeps s t) : Keeps s (kickLow i t) := h.only (by simp [invariantParts])

theorem noteLevel_keeps {b : Block} {src unit : Nat} {forced : Bool} (h : Keeps s t) : Keeps s (noteLevel b src unit forced t) :=
  h.only (by simp [invariantParts])

theorem fenceCtxPage_keeps {at_ : Option Nat} {b : Block} {src : Nat} {forced : Bool} (h : Keeps s t) :
    Keeps s (fenceCtxPage at_ b src forced t) :=
  h.only (by simp [invariantParts])

theorem latchWake_keeps {cls port detail : Nat} (h : Keeps s t) : Keeps s (latchWake cls port detail t) := h.only (by simp [invariantParts])

theorem modGuard_keeps {p : Port} {f : GuardPort → GuardPort} (h : Keeps s t) : Keeps s (modGuard p f t) :=
  h.only (by simp [invariantParts])

theorem cmdPortStatus_keeps {r : Req} (h : Keeps s t) : Keeps s (cmdPortStatus r t).1 := h.only (by simp [invariantParts])
theorem beginSleep_keeps {x : Machine.Trans} (h : Keeps s t) : Keeps s (beginSleep x t) := h.only (by simp [invariantParts])
theorem reached_keeps (h : Keeps s t) : Keeps s (reached t).1 := h.only (by simp [invariantParts])
theorem pmbWrite_keeps {code : Nat} {data : List Byte} (h : Keeps s t) : Keeps s (pmbWrite code data t) := h.only (by simp [invariantParts])
theorem writeVout_keeps {o : Nat} (h : Keeps s t) : Keeps s (writeVout o t) := h.only (by simp [invariantParts])
theorem startOpp_keeps (h : Keeps s t) : Keeps s (startOpp t) := h.only (by simp [invariantParts])
theorem tick_keeps (h : Keeps s t) : Keeps s (tick t) := h.only (by simp [invariantParts])
theorem restoreLaneTime_keeps {b : BootIn} (h : Keeps s t) : Keeps s (restoreLaneTime b t) := h.only (by simp [invariantParts])
theorem deliverRx_keeps {p : Port} (h : Keeps s t) : Keeps s (deliverRx p t) := h.only (by simp [invariantParts])
theorem restartTimers_keeps {p : Port} {m : PdMsg} (h : Keeps s t) : Keeps s (restartTimers p m t) := h.only (by simp [invariantParts])
theorem startTx_keeps {p : Port} {m : PdMsg} (h : Keeps s t) : Keeps s (startTx p m t) := h.only (by simp [invariantParts])
theorem startTransition_keeps {p : Port} (h : Keeps s t) : Keeps s (startTransition p t) := h.only (by simp [invariantParts])
theorem swapPhase_keeps {p : Port} {n : Nat} (h : Keeps s t) : Keeps s (swapPhase p n t) := h.only (by simp [invariantParts])
theorem softReset_keeps {p : Port} (h : Keeps s t) : Keeps s (softReset p t) := h.only (by simp [invariantParts])
theorem cableReset_keeps {p : Port} (h : Keeps s t) : Keeps s (cableReset p t) := h.only (by simp [invariantParts])
theorem sinkRequest_keeps {p : Port} (h : Keeps s t) : Keeps s (sinkRequest p t) := h.only (by simp [invariantParts])

theorem sendChunk_keeps {p : Port} {typ num total : Nat} {part : List Byte} (h : Keeps s t) : Keeps s (sendChunk p typ num total part t) :=
  h.only (by simp [invariantParts])

theorem extMessage_keeps {p : Port} {m : PdMsg} (h : Keeps s t) : Keeps s (extMessage p m t) := h.only (by simp [invariantParts])
theorem gatherCaps_keeps {p : Port} {m : PdMsg} (h : Keeps s t) : Keeps s (gatherCaps p m t).1 := h.only (by simp [invariantParts])
theorem modDp_keeps {i : Fin 2} {f : DpIn → DpIn} (h : Keeps s t) : Keeps s (modDp i f t) := h.only (by simp [invariantParts])

theorem vdm_keeps {p : Port} {svid pos typ cmd : Nat} {objs : List Nat} (h : Keeps s t) : Keeps s (vdm p svid pos typ cmd objs t) :=
  h.only (by simp [invariantParts])

theorem dpStep_keeps {i : Fin 2} {d : DS} {phase svid pos cmd : Nat} {objs : List Nat} (h : Keeps s t) :
    Keeps s (dpStep i d phase svid pos cmd objs t) :=
  h.only (by simp [invariantParts])

theorem hpdState_keeps {i : Fin 2} {high : Bool} (h : Keeps s t) : Keeps s (hpdState i high t) := h.only (by simp [invariantParts])
theorem modKick_keeps {i : Fin 2} {f : Kick → Kick} (h : Keeps s t) : Keeps s (modKick i f t) := h.only (by simp [invariantParts])
theorem cmdDrawerKick_keeps {r : Req} (h : Keeps s t) : Keeps s (cmdDrawerKick r t).1 := h.only (by simp [invariantParts])
theorem cmdGuardStatus_keeps {r : Req} (h : Keeps s t) : Keeps s (cmdGuardStatus r t).1 := h.only (by simp [invariantParts])
theorem rejectRequest_keeps {p : Port} (h : Keeps s t) : Keeps s (rejectRequest p t) := h.only (by simp [invariantParts])
theorem armFrs_keeps {p : Port} {o : Nat} (h : Keeps s t) : Keeps s (armFrs p o t) := h.only (by simp [invariantParts])
theorem acceptSwap_keeps {p : Port} {kind : Nat} (h : Keeps s t) : Keeps s (acceptSwap p kind t) := h.only (by simp [invariantParts])
theorem dpWake_keeps {p : Port} (h : Keeps s t) : Keeps s (dpWake p t) := h.only (by simp [invariantParts])
theorem overCurrent_keeps {p : Port} (h : Keeps s t) : Keeps s (overCurrent p t) := h.only (by simp [invariantParts])
theorem cmdContractStatus_keeps {r : Req} (h : Keeps s t) : Keeps s (cmdContractStatus r t).1 := h.only (by simp [invariantParts])
theorem upDown_keeps (h : Keeps s t) : Keeps s (upDown t) := h.only (by simp [invariantParts])
theorem linksStop_keeps (h : Keeps s t) : Keeps s (linksStop t) := h.only (by simp [invariantParts])
theorem holdEngines_keeps (h : Keeps s t) : Keeps s (holdEngines t) := h.only (by simp [invariantParts])
theorem applyVigil_keeps (h : Keeps s t) : Keeps s (applyVigil t) := h.only (by simp [invariantParts])
theorem layRings_keeps {kept : Bool} (h : Keeps s t) : Keeps s (layRings kept t) := h.only (by simp [invariantParts])
theorem applyOwners_keeps (h : Keeps s t) : Keeps s (applyOwners t) := h.only (by simp [invariantParts])
theorem applyIo_keeps (h : Keeps s t) : Keeps s (applyIo t) := h.only (by simp [invariantParts])
theorem reopenCtx_keeps {c : Nat} (h : Keeps s t) : Keeps s (reopenCtx c t) := h.only (by simp [invariantParts])
theorem selfRefreshIn_keeps {ok : Bool} (h : Keeps s t) : Keeps s (selfRefreshIn ok t) := h.only (by simp [invariantParts])
theorem availClose_keeps (h : Keeps s t) : Keeps s (availClose t) := h.only (by simp [invariantParts])
theorem mergeWake_keeps {cls port detail : Nat} (h : Keeps s t) : Keeps s (mergeWake cls port detail t) := h.only (by simp [invariantParts])
theorem setAlarm_keeps {x : Machine.Trans} (h : Keeps s t) : Keeps s (setAlarm x t) := h.only (by simp [invariantParts])

theorem keepReading_keeps {p : Port} {pin code : Nat} (h : Keeps s t) : Keeps s (keepReading p pin code t) :=
  h.only (by simp [invariantParts])

theorem levelOver_keeps {b : Block} {src : Nat} (h : Keeps s t) : Keeps s (levelOver b src t) := h.only (by simp [invariantParts])
theorem ackWrite_keeps {b : Block} {v : Nat} (h : Keeps s t) : Keeps s (ackWrite b v t) := h.only (by simp [invariantParts])
theorem alsoForced_keeps {b : Block} {n unit : Nat} (h : Keeps s t) : Keeps s (alsoForced b n unit t) := h.only (by simp [invariantParts])
theorem cmdFaultRead_keeps {r : Req} (h : Keeps s t) : Keeps s (cmdFaultRead r t).1 := h.only (by simp [invariantParts])
theorem cmdFaultAck_keeps {r : Req} (h : Keeps s t) : Keeps s (cmdFaultAck r t).1 := h.only (by simp [invariantParts])
theorem prioCharge_keeps {u : US} {n : Nat} (h : Keeps s t) : Keeps s (prioCharge u n t) := h.only (by simp [invariantParts])
theorem lmfPackets_keeps {u : US} {data : List Byte} (h : Keeps s t) : Keeps s (lmfPackets u data t) := h.only (by simp [invariantParts])
theorem hostResumeWake_keeps {u : US} {cls : Nat} (h : Keeps s t) : Keeps s (hostResumeWake u cls t) := h.only (by simp [invariantParts])
theorem startLoop_keeps {unit depth ms : Nat} (h : Keeps s t) : Keeps s (startLoop unit depth ms t) := h.only (by simp [invariantParts])
theorem cmdPattern_keeps {r : Req} (h : Keeps s t) : Keeps s (cmdPattern r t).1 := h.only (by simp [invariantParts])
theorem countTest_keeps {b : Block} {n : Nat} (h : Keeps s t) : Keeps s (countTest b n t) := h.only (by simp [invariantParts])
theorem cmdRegRead_keeps {r : Req} (h : Keeps s t) : Keeps s (cmdRegRead r t).1 := h.only (by simp [invariantParts])
theorem lioWrite_keeps {off v : Nat} (h : Keeps s t) : Keeps s (lioWrite off v t) := h.only (by simp [invariantParts])
theorem cmdObserveRead_keeps {r : Req} (h : Keeps s t) : Keeps s (cmdObserveRead r t).1 := h.only (by simp [invariantParts])
theorem cmdPlaceStatus_keeps {r : Req} (h : Keeps s t) : Keeps s (cmdPlaceStatus r t).1 := h.only (by simp [invariantParts])

end

end Sys2Proof.Machine
end

section
/-! SUPPORT. The operations that change a part of which the invariants speak, from events and faults to the links and the ports:
each by the operations it is made of. -/

set_option Elab.async false

namespace Sys2Proof.Machine

section
variable {s t : State}

theorem eventOn_keeps {ks : List (Fin 8)} {code : Nat} {payload : List Byte} (h : Keeps s t) : Keeps s (eventOn ks code payload t) := by
  unfold eventOn
  exact .parts (foldl_mbxOk (fun _ k => pushEvent_ok _ k _) ks) id id id id h

theorem eventAll_keeps {skip : List (Fin 8)} {code : Nat} {payload : List Byte} (h : Keeps s t) :
    Keeps s (eventAll skip code payload t) := by
  unfold eventAll
  exact eventOn_keeps h

theorem faultEvent_keeps {b : Block} {reaction : Nat} (h : Keeps s t) : Keeps s (faultEvent b reaction t) := by
  unfold faultEvent
  exact eventOn_keeps h

theorem raiseRec_keeps {b : Block} {src unit : Nat} {forced persistent : Bool} (h : Keeps s t) :
    Keeps s (raiseRec b src unit forced persistent t).1 := by
  unfold raiseRec
  split
  · exact h
  · next c countedOnly _ =>
    extract_lets s0 x s1 s2 code
    have counted : Keeps s s0 := .when countCe_keeps h
    have reacted : Keeps s s2 := by
      unfold s2
      split
      · exact reactRec_keeps (setRec_keeps counted)
      · exact setRec_keeps counted
    exact .fst_ite counted (.unless faultEvent_keeps reacted)

theorem postReply_keeps {op : Nat} {r : Req} {rep : Reply} (h : Keeps s t) : Keeps s (postReply op r rep t) := by
  unfold postReply
  dsimp only
  split
  · exact .parts (fun k => pushCpl_ok _ _ _ k) id id id id h
  · exact .parts (fun k => pushCpl_ok _ _ _ k) id id id id h

/-- A Martar command whose row keeps the invariants keeps them, with its completion. -/
theorem runCmd_keeps {c : CmdSpec} {f : Req → State → State × Reply} {r : Req} (h : Keeps s t)
    (step : ∀ t, Keeps s t → Keeps s (f r t).1) : Keeps s (runCmd c f r t) := by
  rcases runCmd_cases c f r t with ⟨_, e⟩ | ⟨_, e⟩
  · exact e ▸ postReply_keeps (fresh_keeps h)
  · exact e ▸ postReply_keeps (step _ (fresh_keeps h))

theorem finalOf_keeps {a : Machine.Acc} {status : Nat} {payload : List Byte} (h : Keeps s t) : Keeps s (finalOf a status payload t) := by
  unfold finalOf
  exact .parts (fun k => pushCpl_ok _ _ _ k) id id id id h

theorem finalCpl_keeps {k : AccKey} {status : Nat} {payload : List Byte} (h : Keeps s t) : Keeps s (finalCpl k status payload t) := by
  unfold finalCpl
  exact .foldl (fun _ _ k => finalOf_keeps k) h _

theorem onMbx_keeps {f : Mbx → Mbx} (ok : ∀ m, MbxOk m → MbxOk (f m)) (h : Keeps s t) : Keeps s (onMbx f t) := by
  unfold onMbx
  dsimp only
  refine (fresh_keeps h).withMbx (fun k => ?_)
  split
  · exact ok _ k
  · exact k

theorem pecError_keeps (h : Keeps s t) : Keeps s (pecError t) := by
  unfold pecError
  exact (emit_keeps h).withMbx id

theorem confirmSteps_keeps (h : Keeps s t) : Keeps s (confirmSteps t) := by
  unfold confirmSteps
  dsimp only
  refine .ite (.parts (t := t) id (fun k => ?_) almWriteAll_ok id id h) (.parts (t := t) id (fun k => ?_) almWriteAll_ok id id h)
  · dsimp only
    exact setSlotState_ok _ _ (trialOver_ok (dirRewrite_ok _ _ _ _ _ k))
  · dsimp only
    exact trialOver_ok (dirRewrite_ok _ _ _ _ _ k)

theorem cmdFwStage_keeps {r : Req} (h : Keeps s t) : Keeps s (cmdFwStage r t).1 := by
  unfold cmdFwStage
  dsimp only
  have erased (n : Nat) (k : FwOk t.fw) :
      FwOk (if bit (fld r.payload 4 1) 0 then dirEmpty n (flashErase (slotBase n) slotSize t.fw) else t.fw) := by
    split
    · exact dirEmpty_ok n (flashErase_ok _ _ k)
    · exact k
  have staged (n a : Nat) (l : List Byte) (i : Option Nat) (k : FwOk t.fw) : FwOk { flashProgram a l
      (if bit (fld r.payload 4 1) 0 then dirEmpty n (flashErase (slotBase n) slotSize t.fw) else t.fw) with
        staged := fld r.payload 0 4 + l.length, stageSlot := i } := flashProgram_ok a l (erased n k)
  refine .fst_ite h ?_
  split
  · exact h
  · next n _ => exact .fst_ite h (h.withFw (fun k => fwOk_ite (setSlotState_ok _ _ (staged n _ _ _ k)) (staged n _ _ _ k)))

theorem finishFwStage_keeps (h : Keeps s t) : Keeps s (finishFwStage t) := by
  unfold finishFwStage
  dsimp only
  split
  · exact h
  · exact finalCpl_keeps h

theorem doFwStage_keeps {r : Req} (h : Keeps s t) : Keeps s (doFwStage r t) := by
  unfold doFwStage
  exact finishFwStage_keeps (runCmd_keeps h (fun _ k => cmdFwStage_keeps k))

theorem cmdFwActivate_keeps {r : Req} (h : Keeps s t) : Keeps s (cmdFwActivate r t).1 := by
  unfold cmdFwActivate
  dsimp only
  split
  · exact h
  · split
    · refine .fst_ite h (.fst_ite h (.fst_ite h ?_))
      dsimp only
      exact confirmSteps_keeps h
    · split
      · exact h
      · refine .fst_ite h (.fst_ite h (.fst_ite ?_ ?_))
        · dsimp only
          refine .parts (t := t) id (fun k => ?_) id id id h
          dsimp only
          exact setTrial_ok _ k
        · dsimp only
          refine h.withFw (fun k => ?_)
          exact thyStage_ok (setTrial_ok _ k)

theorem finishFwActivate_keeps (h : Keeps s t) : Keeps s (finishFwActivate t) := by
  unfold finishFwActivate
  exact .ite (finalCpl_keeps h) h

theorem doFwActivate_keeps {r : Req} (h : Keeps s t) : Keeps s (doFwActivate r t) := by
  unfold doFwActivate
  exact finishFwActivate_keeps (runCmd_keeps h (fun _ k => cmdFwActivate_keeps k))

theorem recovLoad_keeps (h : Keeps s t) : Keeps s (recovLoad t) := by
  unfold recovLoad
  exact .ite (h.withFw (fun k => ⟨k.1, memWrite_wf _ k.2⟩)) h

theorem recovAbort_keeps (h : Keeps s t) : Keeps s (recovAbort t) := by
  unfold recovAbort
  exact .ite (h.withFw (fun k => ⟨k.1, rfl⟩)) h

theorem modeFinal_keeps {req : Option Nat} {status result : Nat} (h : Keeps s t) : Keeps s (modeFinal req status result t) := by
  unfold modeFinal
  split
  · exact h
  · exact finalCpl_keeps h

theorem modeEvent_keeps {skip : List (Fin 8)} (h : Keeps s t) : Keeps s (modeEvent skip t) := by
  unfold modeEvent
  exact .ite h (eventAll_keeps (.same rfl rfl rfl rfl rfl h))

theorem trialTick_keeps {old new : Mode} (h : Keeps s t) : Keeps s (trialTick old new t) := by
  unfold trialTick
  exact .ite h (by
      split
      · exact .parts id (fun k => k) id id id h
      · exact .parts id (fun k => k) id id id h
      · exact .ite h (.parts id (fun k => k) id id id h)
      · exact h)

theorem modeFollow_keeps (h : Keeps s t) : Keeps s (modeFollow t) := by
  unfold modeFollow
  dsimp only
  refine .ite ?_ (.ite (.ite h ?_) (.ite h ?_))
  · split
    · exact .ite h (.ite h.withPmu (modeFinal_keeps h.withPmu))
    · split
      · exact .ite h h.withPmu
      · exact h
  · split
    · exact modeEvent_keeps h.withPmu
    · exact modeEvent_keeps (modeFinal_keeps h.withPmu)
  · split
    · exact .ite h (.ite h.withPmu (modeFinal_keeps h.withPmu))
    · exact h.withPmu

theorem modeSync_keeps (h : Keeps s t) : Keeps s (modeSync t) := by
  unfold modeSync
  dsimp only
  split
  · exact h
  · exact h
  · exact h
  · exact h
  · exact .ite h (modeFollow_keeps (availService_keeps (trialTick_keeps (.same rfl rfl rfl rfl rfl h))))

theorem almCarry_keeps {l : List (Nat × Word)} {bad : Option Nat} (h : Keeps s t) : Keeps s (almCarry l bad t).1 := by
  unfold almCarry
  dsimp only
  have words (w : Nat) (v : Word) (k : AlmOk t.alm) :
      AlmOk (if Config.freeBool t.freeSeq then almWrite1 (almWriteAll t.alm (beforeBad bad l)) w v
        else almWriteAll t.alm (beforeBad bad l)) := by
    split
    · exact almWrite1_ok (almWriteAll_ok k)
    · exact almWriteAll_ok k
  split
  · exact h.withAlm almWriteAll_ok
  · exact modeSync_keeps (raiseRec_keeps (.parts (t := t) id id (words _ _) id id h))

theorem persist_keeps {l : List (Nat × Word)} {bad : Option Nat} (h : Keeps s t) : Keeps s (persist l bad t).1 := by
  unfold persist
  dsimp only
  exact .fst_ite h (.fst_ite h (almCarry_keeps h))

theorem cmdAlmanacWrite_keeps {r : Req} (h : Keeps s t) : Keeps s (cmdAlmanacWrite r t).1 := by
  unfold cmdAlmanacWrite
  dsimp only
  split
  · exact h
  · exact almCarry_keeps h

theorem cmdGuardRuleSet_keeps {r : Req} (h : Keeps s t) : Keeps s (cmdGuardRuleSet r t).1 := by
  unfold cmdGuardRuleSet
  dsimp only
  exact .fst_ite h (.when skipRule_keeps (persist_keeps h))

theorem setHubState_keeps {u : US} {st : HubState} (h : Keeps s t) : Keeps s (setHubState u st t) := by
  unfold setHubState
  exact modeSync_keeps (modHub_keeps h)

theorem portEvent_keeps {p : Port} {kind : Nat} {detail : List Byte} {skip : List (Fin 8)} (h : Keeps s t) :
    Keeps s (portEvent p kind detail skip t) := by
  unfold portEvent
  exact eventOn_keeps h

theorem closeEpq_keeps {q : Nat} (h : Keeps s t) : Keeps s (closeEpq q t) := by
  unfold closeEpq
  dsimp only
  split
  · exact h
  · exact placeUnplaced_keeps (settle_keeps (noteDelta_keeps (modPlace_keeps (modEpq_keeps (.foldl (fun _ _ k => countDiscard_keeps k)
      (finalCpl_keeps (finalCpl_keeps (finalCpl_keeps h))) _)))))

theorem closeWhere_keeps {f : Epq → Bool} (h : Keeps s t) : Keeps s (closeWhere f t) := by
  unfold closeWhere
  exact .foldl (fun _ _ k => closeEpq_keeps k) h _

theorem equinoxSwap_keeps (h : Keeps s t) : Keeps s (equinoxSwap t) := by
  unfold equinoxSwap
  dsimp only
  split
  · exact h
  · exact copyShadow_keeps (settle_keeps (.fork (fun k => finalCpl_keeps (.foldl (fun _ _ k => finalCpl_keeps k) k _)) (fun k => .foldl
      (fun _ _ k => finalCpl_keeps k) k _) (modPlace_keeps (takePlaces_keeps h))))

theorem captureEvent_keeps {d : DS} {kind : Nat} (h : Keeps s t) : Keeps s (captureEvent d kind t) := by
  unfold captureEvent
  exact eventOn_keeps h

theorem capture_keeps {d : DS} {typ flags hubPort daddr epdir time : Nat} {payload : List Byte} (h : Keeps s t) :
    Keeps s (capture d typ flags hubPort daddr epdir time payload t) := by
  unfold capture
  exact .ite h (.when captureEvent_keeps (.when captureEvent_keeps (modRing_keeps h)))

theorem captureData_keeps {c : Ctx} {ep flags time : Nat} {payload : List Byte} (h : Keeps s t) :
    Keeps s (captureData c ep flags time payload t) := by
  unfold captureData
  exact capture_keeps h

theorem vigilEvent_keeps {ks : List (Fin 8)} {unit kind code ctx : Nat} (h : Keeps s t) : Keeps s (vigilEvent ks unit kind code ctx t) := by
  unfold vigilEvent
  exact eventOn_keeps h

theorem hubTo_keeps {u : US} {st : HubState} (h : Keeps s t) : Keeps s (hubTo u st t) := by
  unfold hubTo
  exact .ite h (setHubState_keeps (vigilEvent_keeps (modFo_keeps h)))

theorem releaseCtx_keeps {c reason : Nat} (h : Keeps s t) : Keeps s (releaseCtx c reason t) := by
  unfold releaseCtx
  dsimp only
  split
  · exact h
  · exact modU2d_keeps (trClear_keeps (modVig_keeps (vigilEvent_keeps (.when capture_keeps (capture_keeps h)))).withEpqs)

theorem releaseBare_keeps {d : DS} {reason : Nat} (h : Keeps s t) : Keeps s (releaseBare d reason t) := by
  unfold releaseBare
  exact vigilEvent_keeps (modVig_keeps (capture_keeps h))

theorem releasePort_keeps {d : DS} {reason : Nat} (h : Keeps s t) : Keeps s (releasePort d reason t) := by
  unfold releasePort
  exact .foldl (fun _ _ k => releaseCtx_keeps k) h _

theorem hubPresence_keeps {u : US} (h : Keeps s t) : Keeps s (hubPresence u t) := by
  unfold hubPresence
  split
  · exact hubTo_keeps h
  · exact hubTo_keeps h
  · exact h

theorem captureTt_keeps {d : DS} (h : Keeps s t) : Keeps s (captureTt d t) := by
  unfold captureTt
  exact modTt_keeps (.foldl (fun _ _ k => by
      split
      · split
        · exact .ite (captureData_keeps k) k
        · exact k
      · exact k) h _)

theorem captureSs_keeps {d : DS} (h : Keeps s t) : Keeps s (captureSs d t) := by
  unfold captureSs
  exact .foldl (fun _ _ k => by
      split
      · exact k
      · exact settle_keeps (modEpq_keeps (.foldl (fun _ _ k => captureData_keeps k) (.foldl (fun _ _ k => captureData_keeps k) k _) _))) h _

theorem holdPort_keeps {d : DS} (h : Keeps s t) : Keeps s (holdPort d t) := by
  unfold holdPort
  exact modDs_keeps (holdCtxs_keeps (captureSs_keeps (captureTt_keeps h)))

theorem beginEpisode_keeps {was : Bool} {d : DS} {start : Nat} (h : Keeps s t) : Keeps s (beginEpisode was d start t) := by
  unfold beginEpisode
  exact .ite h (capture_keeps (modVig_keeps h))

theorem losePort_keeps {u : US} {holds : Bool} {episode : Nat} {d : DS} (h : Keeps s t) : Keeps s (losePort u holds episode d t) := by
  unfold losePort
  extract_lets was cs loose tier s1 s2 s3
  have released : Keeps s s2 := .foldl (fun _ _ k => releaseCtx_keeps k) (.foldl (fun _ _ k => releaseCtx_keeps k) h _) _
  have bare : Keeps s s3 := .when releaseBare_keeps released
  exact .ite h (.ite bare (beginEpisode_keeps (holdPort_keeps bare)))

theorem enterVigil_keeps {u : US} {episode : Nat} (h : Keeps s t) : Keeps s (enterVigil u episode t) := by
  unfold enterVigil
  exact .ite (hubTo_keeps (modVigHub_keeps (.foldl (fun _ _ k => losePort_keeps k) (modVigHub_keeps h) _))) (hubTo_keeps (.foldl
    (fun _ _ k => losePort_keeps k) (modVigHub_keeps h) _))

theorem hostRestart_keeps {u : US} (h : Keeps s t) : Keeps s (hostRestart u t) := by
  unfold hostRestart
  split
  · exact enterVigil_keeps h
  · exact enterVigil_keeps h
  · exact .foldl (fun _ _ k => .ite (beginEpisode_keeps (holdPort_keeps k)) k) h _

theorem detachData_keeps {d : DS} {usb2 ss : Bool} (h : Keeps s t) : Keeps s (detachData d usb2 ss t) := by
  unfold detachData
  extract_lets x vis s1 s2 s3 gone s4 s5
  have shown : Keeps s s2 := .when chgPort_keeps (.when chgPort_keeps h)
  have cleared : Keeps s s5 := .when ttClear_keeps (.when dropStored_keeps (modDs_keeps shown))
  exact .ite cleared (availGo_keeps (.when portEvent_keeps (modVig_keeps (modDs_keeps (closeWhere_keeps
    (.foldl (fun _ _ k => releaseCtx_keeps (capture_keeps k)) cleared _))))))

theorem moveHeld_keeps {d : DS} {keep : Bool} (h : Keeps s t) : Keeps s (moveHeld d keep t) := by
  unfold moveHeld
  exact .when (fun k => beginEpisode_keeps (holdCtxs_keeps k)) (ttMoved_keeps h)

theorem keepMoved_keeps {d : DS} {m : Move} (h : Keeps s t) : Keeps s (keepMoved d m t) := by
  unfold keepMoved
  dsimp only
  split
  · exact (modU2d_keeps (captureSs_keeps (captureTt_keeps h))).withEpqs
  · exact (captureSs_keeps (captureTt_keeps h)).withEpqs

theorem releaseMoved_keeps {d : DS} {_m : Move} (h : Keeps s t) : Keeps s (releaseMoved d _m t) := by
  unfold releaseMoved
  exact ttClear_keeps (dropPkts_keeps (releasePort_keeps h)).withEpqs

theorem withholdSs_keeps {u : US} (h : Keeps s t) : Keeps s (withholdSs u t) := by
  unfold withholdSs
  exact .foldl (fun _ _ k => .ite (detachData_keeps k) k) h _

theorem usb2Up_keeps {u : US} (h : Keeps s t) : Keeps s (usb2Up u t) := by
  unfold usb2Up
  exact withholdSs_keeps (presentSlots_keeps h)

theorem enterU3_keeps {u : US} (h : Keeps s t) : Keeps s (enterU3 u t) := by
  unfold enterU3
  exact .ite h (hubPresence_keeps (.foldl (fun _ _ k => .ite (modDs_keeps k) k) (modUs_keeps h) _))

theorem linkRested_keeps {p : Port} (h : Keeps s t) : Keeps s (linkRested p t) := by
  unfold linkRested
  split
  · exact enterU3_keeps h
  · exact h

theorem startReconnect_keeps {u : US} (h : Keeps s t) : Keeps s (startReconnect u t) := by
  unfold startReconnect
  exact modHub_keeps (dropHost_keeps (hubDisconnect_keeps (.ite (hostRestart_keeps h) h)))

theorem applySlots_keeps {u : Option US} {slots : Option (List Slot)} {reconnect : Bool} (h : Keeps s t) :
    Keeps s (applySlots u slots reconnect t) := by
  unfold applySlots
  dsimp only
  split
  · exact h
  · exact .ite (startReconnect_keeps (by
        split
        · exact setSlots_keeps h
        · exact h)) (by
        split
        · exact setSlots_keeps h
        · exact h)

theorem assignSlots_keeps {r : Req} {u : US} (h : Keeps s t) : Keeps s (assignSlots r u t).1 := by
  unfold assignSlots
  dsimp only
  split
  · exact h
  · exact .fst_ite h (.fst_ite h (.fst_ite h (.fst_ite (persist_keeps h) (applySlots_keeps (persist_keeps h)))))

theorem sealCheck_keeps {r : Req} {d : DS} {o : Option US} {move : Bool} {x : State} (h : Keeps s t)
    (e : sealCheck r d o move t = some x) : Keeps s x := by
  unfold sealCheck at e
  split at e
  · exact Option.some.inj e ▸ h
  · split at e
    · exact Option.some.inj e ▸ h
    · split at e
      · exact Option.some.inj e ▸ h
      · split at e
        · exact Option.some.inj e ▸ quoteFailed_keeps h
        · split at e
          · exact Option.some.inj e ▸ h
          · cases e

theorem assignPort_keeps {r : Req} {d : DS} (h : Keeps s t) : Keeps s (assignPort r d t).1 := by
  unfold assignPort
  dsimp only
  split
  · exact h
  · refine .fst_ite h ?_
    split
    · next x e =>
      split at e
      · exact sealCheck_keeps h e
      · cases e
    · have tried (c : Prop) [Decidable c] : Keeps s (if c then { t with own := { t.own with fails := t.own.fails.set d 0 } } else t) :=
        .ite (.same rfl rfl rfl rfl rfl h) h
      refine .fst_ite (tried _) (.fst_ite (tried _) (.fst_ite (tried _) (.fst_ite (persist_keeps (tried _)) (.fst_ite ?_ ?_))))
      · split
        · exact .fst_ite (applySlots_keeps (.ite (releasePort_keeps (persist_keeps (tried _))) (persist_keeps (tried _))))
            (applySlots_keeps (.ite (releasePort_keeps (persist_keeps (tried _))) (persist_keeps (tried _))))
        · exact applySlots_keeps (.ite (releasePort_keeps (persist_keeps (tried _))) (persist_keeps (tried _)))
      · exact .same rfl rfl rfl rfl rfl (applySlots_keeps (.ite (releasePort_keeps (persist_keeps (tried _))) (persist_keeps (tried _))))

theorem cmdPortAssign_keeps {r : Req} (h : Keeps s t) : Keeps s (cmdPortAssign r t).1 := by
  unfold cmdPortAssign
  split
  · exact assignPort_keeps h
  · exact assignSlots_keeps h
  · exact h

theorem moveOldOwner_keeps {d : DS} (h : Keeps s t) : Keeps s (moveOldOwner d t) := by
  unfold moveOldOwner
  dsimp only
  split
  · exact h
  · exact .ite h (setMove_keeps (moveHeld_keeps (.when chgPort_keeps (.when chgPort_keeps (advanceTo_keeps h)))))

theorem moveDrained_keeps {d : DS} (h : Keeps s t) : Keeps s (moveDrained d t) := by
  unfold moveDrained
  dsimp only
  split
  · exact h
  · exact .ite h (portEvent_keeps (finalCpl_keeps (by
        split
        · exact withholdSs_keeps (moveShown_keeps (movedPort_keeps (.fork keepMoved_keeps releaseMoved_keeps (setMove_keeps (setOwner_keeps
            h)))))
        · exact moveShown_keeps (movedPort_keeps (.fork keepMoved_keeps releaseMoved_keeps (setMove_keeps (setOwner_keeps h)))))))

theorem partnerLost_keeps {p : US} (h : Keeps s t) : Keeps s (partnerLost p t) := by
  unfold partnerLost
  exact .ite h (.ite (hubTo_keeps (modVigHub_keeps (.foldl (fun _ _ k => setHome_keeps (setOwner_keeps (beginEpisode_keeps (holdPort_keeps
    k)))) h _))) (modVigHub_keeps (.foldl (fun _ _ k => setHome_keeps (setOwner_keeps (beginEpisode_keeps (holdPort_keeps k)))) h _)))

theorem hostLost_keeps {u : US} (h : Keeps s t) : Keeps s (hostLost u t) := by
  unfold hostLost
  dsimp only
  split
  · exact .when (fun k => k) (modFo_keeps (enterVigil_keeps (modHub_keeps (partnerLost_keeps h))))
  · exact .when (fun k => k) (modFo_keeps (enterVigil_keeps (modHub_keeps (partnerLost_keeps h))))
  · exact h

theorem startMove_keeps {d : DS} {dest old : US} {keep : Bool} {cause : Nat} (h : Keeps s t) :
    Keeps s (startMove d dest old keep cause t) := by
  unfold startMove
  exact moveHeld_keeps (.same rfl rfl rfl rfl rfl (.when chgPort_keeps (.ite (chgPort_keeps h) h)))

theorem foNext_keeps {u p : US} {n : Nat} (h : Keeps s t) : Keeps s (foNext u p n t) := by
  induction n generalizing t with
  | zero => exact h
  | succ n ih =>
    unfold foNext
    dsimp only
    split
    · exact h
    · split
      · exact h
      · split
        · exact ih (modFo_keeps h)
        · exact modFo_keeps (hubTo_keeps (setHome_keeps (startMove_keeps (modFo_keeps h))))

theorem backDone_keeps {u : US} (h : Keeps s t) : Keeps s (backDone u t) := by
  unfold backDone
  split
  · exact h
  · exact .ite (finalCpl_keeps (modFo_keeps h)) h

theorem backNext_keeps {u : US} {n : Nat} (h : Keeps s t) : Keeps s (backNext u n t) := by
  induction n generalizing t with
  | zero => exact h
  | succ n ih =>
    unfold backNext
    dsimp only
    split
    · exact h
    · split
      · exact backDone_keeps h
      · split
        · exact h
        · split
          · exact ih (modFo_keeps h)
          · split
            · exact ih (setHome_keeps (modFo_keeps h))
            · split
              · exact ih (modFo_keeps h)
              · exact modFo_keeps (setHome_keeps (startMove_keeps (modFo_keeps h)))

theorem failoverMoved_keeps {d : DS} {m : Option Move} (h : Keeps s t) : Keeps s (failoverMoved d m t) := by
  unfold failoverMoved
  dsimp only
  split
  · exact h
  · exact .ite h (.ite (vigilEvent_keeps h) (.ite (backDone_keeps (modFo_keeps (vigilEvent_keeps h))) (by
        split
        · exact h
        · exact .ite (hubTo_keeps (setHome_keeps h)) (setHome_keeps h))))

theorem cmdFailoverSet_keeps {r : Req} (h : Keeps s t) : Keeps s (cmdFailoverSet r t).1 := by
  unfold cmdFailoverSet
  dsimp only
  split
  · exact h
  · exact .fst_ite h (.fst_ite h (.fst_ite (persist_keeps h) (modFo_keeps (persist_keeps h))))

theorem endTransaction_keeps {d : DS} {l : HsLatch} {fromHost : Bool} {r : Hsk} (h : Keeps s t) :
    Keeps s (endTransaction d l fromHost r t) := by
  unfold endTransaction
  dsimp only
  split
  · exact .fork (fun k => .ite (captureData_keeps k) k) (fun k => .ite k (availGo_keeps h)) (modEp_keeps (availGo_keeps h))
  · exact availGo_keeps h

theorem mirrorTt_keeps {d : DS} {addr ep : Nat} {r : UsbResp} {time : Nat} (h : Keeps s t) : Keeps s (mirrorTt d addr ep r time t) := by
  unfold mirrorTt
  split
  · exact .ite (captureData_keeps h) h
  · exact h

theorem applySetting_keeps {q : Nat} (h : Keeps s t) : Keeps s (applySetting q t) := by
  unfold applySetting
  dsimp only
  split
  · exact h
  · split
    · split
      · exact h
      · exact finalCpl_keeps (modEpq_keeps h)
    · exact finalCpl_keeps (modEpq_keeps (by
          split
          · exact h
          · exact finalCpl_keeps (modEpq_keeps h)))

theorem doTick_keeps {n k : Nat} (h : Keeps s t) : Keeps s (doTick n k t) := by
  unfold doTick
  refine .foldl (fun _ _ k => touchEpq_keeps (raiseTags_keeps k)) ?_ _
  exact .same rfl rfl rfl rfl rfl (Keeps.foldl (fun _ _ k => applySetting_keeps k) (advanceTo_keeps h).withSched _)

theorem dueTick_keeps (h : Keeps s t) : Keeps s (dueTick t) := by
  unfold dueTick
  exact .ite (doTick_keeps h) h

theorem ackFromHost_keeps {d : DS} {hd : SsHeader} (h : Keeps s t) : Keeps s (ackFromHost d hd t) := by
  unfold ackFromHost
  dsimp only
  split
  · exact h
  · split
    · exact modEp_keeps h
    · exact modEpq_keeps (.when (fun k => .foldl (fun _ _ k => captureData_keeps k) k _) (modEp_keeps h))

theorem routeDown_keeps {u : US} {hd : SsHeader} (h : Keeps s t) : Keeps s (routeDown u hd t) := by
  unfold routeDown
  exact .ite (.ite h (discardHeader_keeps h)) (by
      split
      · exact h
      · exact .ite (forwardDown_keeps (.ite (ackFromHost_keeps h) h)) (discardHeader_keeps h)
      · exact discardHeader_keeps h)

theorem overtaken_keeps {q : Nat} {e : Epq} {p : Pkt} (h : Keeps s t) : Keeps s (overtaken q e p t) := by
  unfold overtaken
  split
  · exact .ite (captureData_keeps h) (countDiscard_keeps h)
  · exact countDiscard_keeps h

theorem serveQueue_keeps {p : Port} (h : Keeps s t) : Keeps s (serveQueue p t) := by
  unfold serveQueue
  extract_lets s1
  have tagged : Keeps s s1 := .foldl (fun _ _ k => tagHead_keeps k) h _
  refine .ite tagged ?_
  split
  · exact tagged
  · split
    · exact tagged
    · exact .ite (settle_keeps (touchEpq_keeps (tagHead_keeps (popHead_keeps (sendData_keeps (availGo_keeps tagged))))))
        (settle_keeps (tagHead_keeps (popHead_keeps (overtaken_keeps tagged))))

theorem pollData_keeps {c : Nat} {x : Ctx} {e : EpRec} {seq : Nat} {l : List Byte} (h : Keeps s t) : Keeps s (pollData c x e seq l t) := by
  unfold pollData
  exact .ite (by
      split
      · exact police_keeps h
      · exact h) (modEp_keeps (captureData_keeps (by
      split
      · exact police_keeps h
      · exact h)))

theorem pollResult_keeps {c : Nat} {x : Ctx} {e : EpRec} {r : PollResp} (h : Keeps s t) : Keeps s (pollResult c x e r t) := by
  unfold pollResult
  dsimp only
  split
  · exact pollData_keeps h
  · exact .when (fun k => k) (modEp_keeps h)
  · exact modEp_keeps (capture_keeps h)
  · exact .unless (fun k => modEp_keeps (capture_keeps k)) (modEp_keeps h)

theorem holdExpiry_keeps {u : US} (h : Keeps s t) : Keeps s (holdExpiry u t) := by
  unfold holdExpiry
  dsimp only
  split
  · exact h
  · exact .ite h (.ite (hubTo_keeps (modVigHub_keeps (.foldl (fun _ _ k => releaseCtx_keeps k) (advanceTo_keeps h) _))) (modVigHub_keeps
      (.foldl (fun _ _ k => releaseCtx_keeps k) (advanceTo_keeps h) _)))

theorem holdDue_keeps {u : US} (h : Keeps s t) : Keeps s (holdDue u t) := by
  unfold holdDue
  split
  · exact .ite (holdExpiry_keeps h) h
  · exact h

theorem endEpisode_keeps {c : Nat} {x : Ctx} (h : Keeps s t) : Keeps s (endEpisode c x t) := by
  unfold endEpisode
  exact vigilEvent_keeps (capture_keeps h)

theorem freeCtx_keeps {c : Nat} {x : Ctx} (h : Keeps s t) : Keeps s (freeCtx c x t) := by
  unfold freeCtx
  exact .ite (releaseCtx_keeps h) (trClear_keeps (modVig_keeps (.ite (endEpisode_keeps h) h)).withEpqs)

theorem forwardReset_keeps {d : DS} {hubPort : Option Nat} {ss : Bool} (h : Keeps s t) : Keeps s (forwardReset d hubPort ss t) := by
  unfold forwardReset
  exact modVig_keeps (.foldl (fun _ _ k => freeCtx_keeps k) (closeWhere_keeps h) _)

theorem reqQueues_keeps {d : DS} {hubPort a ctx : Nat} {ss : Bool} {q : Setup} {eps : List EpDesc} (h : Keeps s t) :
    Keeps s (reqQueues d hubPort a ctx ss q eps t) := by
  unfold reqQueues
  exact .ite (openAll_keeps (closeWhere_keeps h)) (.ite (.ite (closeWhere_keeps h) (openAll_keeps (closeWhere_keeps h))) (.ite
    (openAll_keeps (closeWhere_keeps h)) h))

theorem hubFollow_keeps {d : DS} {ss : Bool} {q : Setup} {data : List Byte} (h : Keeps s t) : Keeps s (hubFollow d ss q data t) := by
  unfold hubFollow
  dsimp only
  have seen : Keeps s (if (tabGet t.vig.seen (d.val * 256 + q.index % 256)).isNone then putSeen d (q.index % 256) {} t else t) :=
    .ite (putSeen_keeps h) h
  refine .ite (giveCtx_keeps (forwardReset_keeps h)) (.ite (.ite ?_ (modVig_keeps (closeWhere_keeps ?_))) (.ite ?_ (.ite ?_ h)))
  · split
    · exact modCtx_keeps seen
    · exact giveCtx_keeps seen
  · split
    · exact releaseCtx_keeps (capture_keeps h)
    · exact h
  · split
    · exact modCtx_keeps h
    · exact h
  · split
    · exact modCtx_keeps h
    · exact h

theorem forwardReq_keeps {d : DS} {hubPort : Nat} {ss : Bool} {addr : Nat} {q : Setup} {data : List Byte} {fin : CtlEnd}
    {eps : List EpDesc} (h : Keeps s t) : Keeps s (forwardReq d hubPort ss addr q data fin eps t) := by
  unfold forwardReq
  extract_lets c a s1 s2 s3 s4
  have sent : Keeps s s1 := emit_keeps h
  have queued : Keeps s s4 := reqQueues_keeps (.when (fun k => matchSeen_keeps (noteDesc_keeps k)) (availGo_keeps sent))
  clear_value s4 s3 s2 s1 a c
  split
  · split
    · exact modCtx_keeps sent
    · exact sent
  · split
    · exact .ite (.when modCtx_keeps (modCtx_keeps sent)) sent
    · exact sent
  · split
    · exact .when hubFollow_keeps queued
    · extract_lets was s5 s6
      have kept : Keeps s s5 := retranslate_keeps (modCtx_keeps queued)
      have ended : Keeps s s6 := by
        unfold s6
        split
        · exact .when endEpisode_keeps kept
        · exact kept
      exact .when hubFollow_keeps ended

theorem cmdVigilPolicySet_keeps {r : Req} (h : Keeps s t) : Keeps s (cmdVigilPolicySet r t).1 := by
  unfold cmdVigilPolicySet
  dsimp only
  exact .fst_ite (.fst_ite h (.fst_ite (persist_keeps h) (modVig_keeps (persist_keeps h)))) (by
      split
      · exact h
      · split
        · exact h
        · exact .fst_ite h (.fst_ite (persist_keeps h) (.fork (fun k => .foldl (fun _ _ k => releaseCtx_keeps k) k _) armGive_keeps
            (modVig_keeps (persist_keeps h)))))

theorem armPort_keeps {on : Bool} {d : DS} (h : Keeps s t) : Keeps s (armPort on d t) := by
  unfold armPort
  exact .ite (armGive_keeps (modVig_keeps h)) (.foldl (fun _ _ k => releaseCtx_keeps k) (modVig_keeps h) _)

theorem cmdVigilArm_keeps {r : Req} (h : Keeps s t) : Keeps s (cmdVigilArm r t).1 := by
  unfold cmdVigilArm
  dsimp only
  exact .fst_ite h (.fst_ite h (.fst_ite h (.foldl (fun _ _ k => armPort_keeps k) h _)))

theorem contractEvent_keeps {p : Port} {kind : Nat} {c : Contract} (h : Keeps s t) : Keeps s (contractEvent p kind c t) := by
  unfold contractEvent
  exact eventOn_keeps h

theorem vconnOff_keeps {p : Port} (h : Keeps s t) : Keeps s (vconnOff p t) := by
  unfold vconnOff
  exact .ite (modTc_keeps h (fun _ r => r)) (emit_keeps (modTc_keeps h (fun _ r => r)))

theorem vconnOn_keeps {p : Port} (h : Keeps s t) : Keeps s (vconnOn p t) := by
  unfold vconnOn
  exact emit_keeps (modTc_keeps h (fun _ r => r))

theorem pscLow_keeps {p : Port} (h : Keeps s t) : Keeps s (pscLow p t) := by
  unfold pscLow
  exact .ite (vconnOff_keeps h) (writeLimits_keeps (writeVolt_keeps (vconnOff_keeps (modPwr_keeps h))))

theorem dpLeaveOne_keeps {i : Fin 2} {cause : Nat} (h : Keeps s t) : Keeps s (dpLeaveOne i cause t) := by
  unfold dpLeaveOne
  dsimp only
  split
  · exact h
  · exact .ite h (eventOn_keeps (.unless finalCpl_keeps (.when emit_keeps (.same rfl rfl rfl rfl rfl h))))

theorem dpLeave_keeps {p : Port} {cause : Nat} (h : Keeps s t) : Keeps s (dpLeave p cause t) := by
  unfold dpLeave
  dsimp only
  split
  · exact h
  · exact .when dpLeaveOne_keeps (.ite (dpLeaveOne_keeps h) h)

theorem swapFinal_keeps {u : US} {result : Nat} (h : Keeps s t) : Keeps s (swapFinal u result t) := by
  unfold swapFinal
  exact finalCpl_keeps (modPwr_keeps h)

theorem swapFail_keeps {p : Port} (h : Keeps s t) : Keeps s (swapFail p t) := by
  unfold swapFail
  split
  · exact swapFinal_keeps h
  · exact h

theorem dataOff_keeps {p : Port} (h : Keeps s t) : Keeps s (dataOff p t) := by
  unfold dataOff
  split
  · exact detachData_keeps (modDs_keeps h)
  · exact hubDisconnect_keeps h
  · exact h

theorem cutPower_keeps {p : Port} (h : Keeps s t) : Keeps s (cutPower p t) := by
  unfold cutPower
  exact dataOff_keeps (flushPd_keeps (pscLow_keeps (endContract_keeps (swapFail_keeps (dpLeave_keeps h)))))

theorem toUnattached_keeps {p : Port} (h : Keeps s t) : Keeps s (toUnattached p t) := by
  unfold toUnattached
  exact modTc_keeps h (fun _ _ => nofun)

theorem errorRecovery_keeps {p : Port} (h : Keeps s t) : Keeps s (errorRecovery p t) := by
  unfold errorRecovery
  exact modTc_keeps (toUnattached_keeps (cutPower_keeps h)) (fun _ _ => nofun)

theorem shedPort_keeps {p : Port} (h : Keeps s t) : Keeps s (shedPort p t) := by
  unfold shedPort
  exact .ite h (.ite (modPwr_keeps (pscLow_keeps h)) (contractEvent_keeps (modPwr_keeps (toUnattached_keeps (cutPower_keeps h)))))

theorem setGrant_keeps {p : Port} {g : Nat} (h : Keeps s t) : Keeps s (setGrant p g t) := by
  unfold setGrant
  exact .ite (.when (fun k => modTc_keeps k (fun _ r => r)) (modPwr_keeps h)) (.ite h (.ite (.same rfl rfl rfl rfl rfl h) (.when (fun k =>
    contractEvent_keeps (capsAt_keeps k)) (modPwr_keeps h))))

theorem applyGrants_keeps {l : List (Port × Nat)} (h : Keeps s t) : Keeps s (applyGrants l t) := by
  unfold applyGrants
  exact .foldl (fun _ _ k => setGrant_keeps k) (.foldl (fun _ _ k => setGrant_keeps k) h _) _

theorem unshed_keeps {p : Port} (h : Keeps s t) : Keeps s (unshed p t) := by
  unfold unshed
  exact .ite h (.when (fun k => modTc_keeps k (fun _ _ => nofun)) (contractEvent_keeps (modPwr_keeps h)))

theorem runAlloc_keeps (h : Keeps s t) : Keeps s (runAlloc t) := by
  unfold runAlloc
  exact .ite h (.foldl (fun _ _ k => unshed_keeps k) (applyGrants_keeps (.foldl (fun _ _ k => shedPort_keeps k) h _)) _)

theorem budgetDone_keeps (h : Keeps s t) : Keeps s (budgetDone t) := by
  unfold budgetDone
  exact .ite h (finalCpl_keeps h)

theorem reduced_keeps {p : Port} (h : Keeps s t) : Keeps s (reduced p t) := by
  unfold reduced
  exact .ite h (.unless (fun k => budgetDone_keeps (.ite (runAlloc_keeps k.withLane) k)) (modPwr_keeps h))

theorem recover_keeps {p : Port} (h : Keeps s t) : Keeps s (recover p t) := by
  unfold recover
  exact runAlloc_keeps (reduced_keeps (modPwr_keeps (errorRecovery_keeps h)))

theorem eprEnd_keeps {p : Port} (h : Keeps s t) : Keeps s (eprEnd p t) := by
  unfold eprEnd
  exact .ite (contractEvent_keeps (modPwr_keeps h)) h

theorem initialRole_keeps {p : Port} (h : Keeps s t) : Keeps s (initialRole p t) := by
  unfold initialRole
  dsimp only
  split
  · exact h
  · next open_ =>
    have us : (portUs p).isSome = true := by
      cases e : portUs p <;> simp_all
    obtain ⟨u, e⟩ := Option.isSome_iff_exists.mp us
    rw [← portUs_some e]
    split
    · exact emit_keeps (modPwr_keeps h.modTc_us)
    · exact emit_keeps (modPwr_keeps (Keeps.modTc_us (pscLow_keeps h)))

theorem hardReset_keeps {p : Port} (h : Keeps s t) : Keeps s (hardReset p t) := by
  unfold hardReset
  dsimp only
  have start (f : Pwr → Pwr) : Keeps s (modPwr p f (contractEvent p 4 (pwrOf (initialRole p t) p).con
      (eprEnd p (dpLeave p 5 (swapFail p (resetPd p (flushPd p 4 (initialRole p t)))))))) :=
    modPwr_keeps (contractEvent_keeps (eprEnd_keeps (dpLeave_keeps (swapFail_keeps (resetPd_keeps (flushPd_keeps (initialRole_keeps h)))))))
  split
  · split
    · exact recover_keeps (modPwr_keeps (start _))
    · split
      · exact reduced_keeps (hubDisconnect_keeps (modTc_keeps (modPwr_keeps (start _)) (fun _ ok at_ => ⟨(ok at_).1, rfl⟩)))
      · exact reduced_keeps (modPwr_keeps (start _))
  · split
    · next u e =>
      rw [← portUs_some e] at start ⊢
      exact Keeps.modTc_us (.ite (hubDisconnect_keeps (start _)) (start _))
    · exact start _

theorem sendHardReset_keeps {p : Port} (h : Keeps s t) : Keeps s (sendHardReset p t) := by
  unfold sendHardReset
  exact hardReset_keeps (emit_keeps h)

theorem partnerGone_keeps {p : Port} (h : Keeps s t) : Keeps s (partnerGone p t) := by
  unfold partnerGone
  split
  · exact hostLost_keeps h
  · exact h

theorem detachPort_keeps {p : Port} (h : Keeps s t) : Keeps s (detachPort p t) := by
  unfold detachPort
  exact runAlloc_keeps (partnerGone_keeps (reduced_keeps (toUnattached_keeps (modPhy_keeps (modPwr_keeps (cutPower_keeps h))))))

theorem portOff_keeps {p : Port} (h : Keeps s t) : Keeps s (portOff p t) := by
  unfold portOff
  exact .ite (runAlloc_keeps (reduced_keeps (modPwr_keeps (toUnattached_keeps (cutPower_keeps h))))) (modPwr_keeps (pscLow_keeps h))

theorem repower_keeps {p : Port} (h : Keeps s t) : Keeps s (repower p t) := by
  unfold repower
  exact .ite h (.when (fun k => modTc_keeps k (fun _ _ => nofun)) (modPwr_keeps h))

theorem provisional_keeps {p : Port} (h : Keeps s t) : Keeps s (provisional p t) := by
  unfold provisional
  exact .ite (modPwr_keeps h) (runAlloc_keeps (modPwr_keeps h))

theorem dsSees_keeps {p : Port} {c : CcPattern} (h : Keeps s t) : Keeps s (dsSees p c t) := by
  unfold dsSees
  exact .fork (fun k => .when (fun k1 => modTc_keeps k1 (fun _ _ => nofun)) (portEvent_keeps k)) (fun k => .ite (modTc_keeps k (fun _ _ =>
    nofun)) k) (modTc_keeps h (fun _ r => r))

theorem usSees_keeps {p : Port} {c : CcPattern} (h : Keeps s t) : Keeps s (usSees p c t) := by
  unfold usSees
  exact .ite (modTc_keeps h (fun _ _ => nofun)) (.ite (modTc_keeps h (fun _ _ => nofun)) h)

theorem endLoop_keeps {unit bits errors status : Nat} (h : Keeps s t) : Keeps s (endLoop unit bits errors status t) := by
  unfold endLoop
  dsimp only
  split
  · exact h
  · exact finalCpl_keeps (by
        split
        · exact .when modDs_keeps (.same rfl rfl rfl rfl rfl h)
        · exact .same rfl rfl rfl rfl rfl h)

theorem cutLoop_keeps {unit status : Nat} (h : Keeps s t) : Keeps s (cutLoop unit status t) := by
  unfold cutLoop
  exact endLoop_keeps (.same rfl rfl rfl rfl rfl h)

theorem endPattern_keeps {dmc : Bool} {errors first status : Nat} (h : Keeps s t) : Keeps s (endPattern dmc errors first status t) := by
  unfold endPattern
  dsimp only
  split
  · split
    · exact finalCpl_keeps (.parts (t := t) id id id (zeroFill_ok _ _) id h)
    · exact h
  · split
    · exact finalCpl_keeps (.parts (t := t) id id id (zeroFill_ok _ _) id h)
    · exact h

theorem cutPattern_keeps {dmc : Bool} {status : Nat} (h : Keeps s t) : Keeps s (cutPattern dmc status t) := by
  unfold cutPattern
  exact .ite (endPattern_keeps (.same rfl rfl rfl rfl rfl h)) (by
      split
      · exact endPattern_keeps h
      · exact h)

theorem testFences_keeps (h : Keeps s t) : Keeps s (testFences t) := by
  unfold testFences
  exact .ite (cutPattern_keeps (.foldl (fun _ _ k => cutLoop_keeps k) h _)) (.foldl (fun _ _ k => cutLoop_keeps k) h _)

theorem serviceTestsEnd_keeps (h : Keeps s t) : Keeps s (serviceTestsEnd t) := by
  unfold serviceTestsEnd
  exact .when cutPattern_keeps (.when cutPattern_keeps (.foldl (fun _ _ k => cutLoop_keeps k) h _))

theorem loseCtx_keeps {c : Nat} (h : Keeps s t) : Keeps s (loseCtx c t) := by
  unfold loseCtx
  exact modVig_keeps (releaseCtx_keeps h)

theorem loseUnit_keeps {n : Nat} (h : Keeps s t) : Keeps s (loseUnit n t) := by
  unfold loseUnit
  dsimp only
  split
  · exact resetEpq_keeps h
  · exact loseCtx_keeps h
  · exact damageUnit_keeps h
  · exact resetEpq_keeps h
  · exact h

theorem loseInPage_keeps {at_ : Option Nat} {page : Nat} {regions : List Nat} (h : Keeps s t) :
    Keeps s (loseInPage at_ page regions t) := by
  unfold loseInPage
  split
  · exact loseUnit_keeps h
  · split
    · exact loseUnit_keeps (.same rfl rfl rfl rfl rfl h)
    · exact h

theorem dataLost_keeps {at_ : Option Nat} {b : Block} {src unit : Nat} (h : Keeps s t) : Keeps s (dataLost at_ b src unit t) := by
  unfold dataLost
  dsimp only
  split
  · exact .parts id id (fun k => k) id id h
  · exact loseCell_keeps h
  · exact loseInPage_keeps h
  · exact loseCtx_keeps h
  · exact loseInPage_keeps h
  · exact releaseCtx_keeps h
  · exact loseCrossing_keeps h
  · exact loseCrossing_keeps h
  · exact correctPd_keeps h
  · exact correctPd_keeps h
  · exact losePd_keeps h
  · exact losePd_keeps h
  · exact h

end

end Sys2Proof.Machine
end

section
/-! SUPPORT. The operations that change a part of which the invariants speak, from the Vigil and the connectors to the commands of
Martar: each by the operations it is made of. -/

set_option Elab.async false

namespace Sys2Proof.Machine

section
variable {s t : State}

theorem fencePort_keeps {p : Port} {was2 was3 cut : Bool} (h : Keeps s t) : Keeps s (fencePort p was2 was3 cut t) := by
  unfold fencePort
  extract_lets s1
  have cutOff : Keeps s s1 := by
    unfold s1
    split
    · exact modDs_keeps (ttClear_keeps (dropPort_keeps (.when chgPort_keeps (.when chgPort_keeps h))))
    · exact dropHost_keeps (hubDisconnect_keeps h)
    · exact h
  exact .ite (toUnattached_keeps (cutPower_keeps cutOff)) (.when pscLow_keeps cutOff)

theorem readmitPort_keeps {p : Port} {cut : Bool} (h : Keeps s t) : Keeps s (readmitPort p cut t) := by
  unfold readmitPort
  exact .ite (.ite (modTc_keeps h (fun _ _ => nofun)) h) (by
      split
      · exact .ite (chgPort_keeps h) h
      · exact .ite (hubConnect_keeps h) h
      · exact h)

theorem thymeBack_keeps {i : Fin 6} (h : Keeps s t) : Keeps s (thymeBack i t) := by
  unfold thymeBack
  refine .foldl (fun t p k => ?_) h _
  split
  · exact detachPort_keeps (modTc_keeps k (fun _ ok => ok))
  · split
    · exact modPhy_keeps (pdCtl_keeps (resetPd_keeps k))
    · exact .ite (.ite (dsSees_keeps k) (usSees_keeps k)) k

theorem spreadFences_keeps {s1 : State} {cut forced : Bool} (h : Keeps s t) : Keeps s (spreadFences s1 cut forced t) := by
  unfold spreadFences
  exact modeSync_keeps (testFences_keeps (.foldl (fun _ _ k => rePlace_keeps k) (.foldl (fun _ _ k => fencePort_keeps k) (availStop_keeps h)
    _) _))

theorem spreadReadmits_keeps {s0 : State} (h : Keeps s t) : Keeps s (spreadReadmits s0 t) := by
  unfold spreadReadmits
  have ports (f : Port → Bool) : Keeps s (allPorts.foldl (fun u p => if f p then readmitPort p (cutBy s0 p) u else u) t) :=
    .foldl (fun _ _ k => .ite (readmitPort_keeps k) k) h _
  have ports (l : List Port) : Keeps s (l.foldl (fun u p => readmitPort p (cutBy s0 p) u) t) :=
    .foldl (fun _ _ k => readmitPort_keeps k) h _
  have place (l : List Port) (c : Prop) [Decidable c] (f : Place → Place) : Keeps s (if c then l.foldl (fun u p => readmitPort p (cutBy s0 p) u) t
      else settle (placeUnplaced (modPlace f (l.foldl (fun u p => readmitPort p (cutBy s0 p) u) t)))) :=
    .ite (ports l) (settle_keeps (placeUnplaced_keeps (modPlace_keeps (ports l))))
  exact modeSync_keeps (settle_keeps (Keeps.withMbx (.foldl (fun _ _ k => thymeBack_keeps k) (place _ _ _) _)
    (foldl_mbxOk (fun _ i => ringReset_ok _ _ i) _)))

theorem allPscLow_keeps (h : Keeps s t) : Keeps s (allPscLow t) := by
  unfold allPscLow
  exact .foldl (fun _ _ k => .ite (toUnattached_keeps (cutPower_keeps k)) (pscLow_keeps k)) h _

theorem unitEffects_keeps {b : Block} {ft : Bool} {unit : Nat} (h : Keeps s t) : Keeps s (unitEffects b ft unit t) := by
  unfold unitEffects
  dsimp only
  split
  · exact .ite (dpLeaveOne_keeps (dpLeaveOne_keeps h)) (.ite (dpLeaveOne_keeps h) (dpLeaveOne_keeps h))
  · exact .ite (kickLow_keeps (kickLow_keeps h)) (.ite (kickLow_keeps h) (kickLow_keeps h))
  · exact .foldl (fun _ _ k => .ite k (detachData_keeps k)) (modUs_keeps (modUs_keeps h.withClk)) _
  · exact .ite (allPscLow_keeps h) h
  · exact .ite (allPscLow_keeps h) h
  · exact h

theorem raiseFaultAt_keeps {at_ : Option Nat} {b : Block} {src unit : Nat} {forced persistent : Bool} (h : Keeps s t) :
    Keeps s (raiseFaultAt at_ b src unit forced persistent t) := by
  unfold raiseFaultAt
  dsimp only
  split
  · exact .unless (fun k => .when allPscLow_keeps (spreadFences_keeps (availStop_keeps (unitEffects_keeps (fenceCtxPage_keeps k))))) (.when
      (fun k => dataLost_keeps (raiseRec_keeps k)) (noteLevel_keeps h))
  · exact .unless (fun k => .when allPscLow_keeps (spreadFences_keeps (availStop_keeps (unitEffects_keeps k)))) (.when (fun k =>
      dataLost_keeps (raiseRec_keeps k)) (noteLevel_keeps h))
  · exact .when (fun k => dataLost_keeps (raiseRec_keeps k)) (noteLevel_keeps h)

theorem raiseFault_keeps {b : Block} {src unit : Nat} {forced persistent : Bool} (h : Keeps s t) :
    Keeps s (raiseFault b src unit forced persistent t) := by
  unfold raiseFault
  exact raiseFaultAt_keeps h

theorem fault_keeps {b : Block} {src unit : Nat} (h : Keeps s t) : Keeps s (fault b src unit t) := by
  unfold fault
  exact raiseFault_keeps h

theorem retest_keeps {b : Block} {reads : List ReadBack} (h : Keeps s t) : Keeps s (retest b reads t) := by
  unfold retest
  dsimp only
  have clean (l : List Nat) (k : MemOk t.memb) : MemOk (l.foldl (fun m n => cleanUnit b n m) t.memb) := by
    generalize t.memb = m at k ⊢
    induction l generalizing m with
    | nil => exact k
    | cons n l ih => exact ih _ (cleanUnit_ok b n k)
  have cells (l : List Nat) (x y : List Nat) (k : MemOk t.memb) :
      MemOk { l.foldl (fun m n => cleanUnit b n m) t.memb with retiredCells := x, retiredPages := y } := clean l k
  split
  · exact h.withMemb (cells _ _ _)
  · exact h.withMemb (cells _ _ _)
  · exact h

theorem retireLimit_keeps {b : Block} {before : MemBlk} (h : Keeps s t) : Keeps s (retireLimit b before t) := by
  unfold retireLimit
  exact .ite (fault_keeps h) (.ite (fault_keeps h) h)

theorem suspendWake_keeps {cls port detail : Nat} (h : Keeps s t) : Keeps s (suspendWake cls port detail t) := by
  unfold suspendWake
  dsimp only
  split
  · split
    · exact .ite (latchWake_keeps h) h
    · exact h
  · exact .ite h (modeFollow_keeps (trialTick_keeps (writeWake_keeps h).withPmu))

theorem guardEvent_keeps {p : Port} {pin reading : Nat} (h : Keeps s t) : Keeps s (guardEvent p pin reading t) := by
  unfold guardEvent
  exact eventOn_keeps h

theorem guardTo_keeps {p : Port} {st dry pin reading : Nat} (h : Keeps s t) : Keeps s (guardTo p st dry pin reading t) := by
  unfold guardTo
  exact .unless (fun k => suspendWake_keeps (guardEvent_keeps k)) (modGuard_keeps h)

theorem guardRemoval_keeps {p : Port} (h : Keeps s t) : Keeps s (guardRemoval p t) := by
  unfold guardRemoval
  exact .ite h (modGuard_keeps (.ite (detachPort_keeps h) (toUnattached_keeps h)))

theorem becomeWet_keeps {p : Port} {pin reading : Nat} (h : Keeps s t) : Keeps s (becomeWet p pin reading t) := by
  unfold becomeWet
  exact .when guardRemoval_keeps (guardTo_keeps h)

theorem serviceEnds_keeps (h : Keeps s t) : Keeps s (serviceEnds t) := by
  unfold serviceEnds
  dsimp only
  split
  · exact h
  · exact .foldl (fun _ _ k => .ite (detachPort_keeps k) k) (serviceTestsEnd_keeps h.withPmu) _

theorem pendRequest_keeps {x : Machine.Trans} (h : Keeps s t) : Keeps s (pendRequest x t) := by
  unfold pendRequest
  exact modeFinal_keeps (.same rfl rfl rfl rfl rfl h)

theorem requestSleep_keeps {x : Machine.Trans} (h : Keeps s t) : Keeps s (requestSleep x t).1 := by
  unfold requestSleep
  dsimp only
  exact .fst_ite (pendRequest_keeps (.same rfl rfl rfl rfl rfl h)) (reached_keeps (beginSleep_keeps (modeFinal_keeps (.same rfl rfl rfl rfl
    rfl (.same rfl rfl rfl rfl rfl h)))))

theorem setTarget_keeps {m : Mode} (h : Keeps s t) : Keeps s (setTarget m t) := by
  unfold setTarget
  dsimp only
  split
  · exact .same rfl rfl rfl rfl rfl (serviceEnds_keeps h)
  · exact .same rfl rfl rfl rfl rfl h

theorem requestRun_keeps {m : Mode} (h : Keeps s t) : Keeps s (requestRun m t).1 := by
  unfold requestRun
  dsimp only
  exact .fst_ite (pendRequest_keeps (.same rfl rfl rfl rfl rfl h)) (.fst_ite (modeSync_keeps (pendRequest_keeps (.same rfl rfl rfl rfl rfl
    (setTarget_keeps (.same rfl rfl rfl rfl rfl h))))) (reached_keeps (modeSync_keeps (modeFinal_keeps (.same rfl rfl rfl rfl rfl
    (setTarget_keeps (.same rfl rfl rfl rfl rfl h)))))))

theorem cmdModeRequest_keeps {r : Req} (h : Keeps s t) : Keeps s (cmdModeRequest r t).1 := by
  unfold cmdModeRequest
  dsimp only
  split
  · exact h
  · exact .fst_ite h (.fst_ite h (.fst_ite (requestSleep_keeps h) (.fst_ite h (.fst_ite (by
        split
        · exact .fst_ite (persist_keeps h) h
        · exact h) (requestRun_keeps (by
        split
        · exact .fst_ite (persist_keeps h) h
        · exact h))))))

theorem transitionEnds_keeps {skip : List (Fin 8)} (h : Keeps s t) : Keeps s (transitionEnds skip t) := by
  unfold transitionEnds
  dsimp only
  split
  · exact .ite (modeFinal_keeps (beginSleep_keeps (.same rfl rfl rfl rfl rfl (modeEvent_keeps h)))) (modeFollow_keeps (modeEvent_keeps h))
  · exact modeFollow_keeps (modeEvent_keeps h)

theorem attachEndsLoop_keeps {p : Port} (h : Keeps s t) : Keeps s (attachEndsLoop p t) := by
  unfold attachEndsLoop
  exact .ite (cutLoop_keeps h) h

theorem attachSrc_keeps {p : Port} (h : Keeps s t) : Keeps s (attachSrc p t) := by
  unfold attachSrc
  have source (f : Tc → Tc) (src : ∀ x, (f x).src = true) (dfp : ∀ x, (f x).dfp = true) :
      Keeps s (modTc p f (attachEndsLoop p t)) :=
    modTc_keeps (attachEndsLoop_keeps h) (fun x _ _ => ⟨src x, dfp x⟩)
  have level (n : Nat) {u : State} (k : Keeps s u) : Keeps s (modTc p (fun t => { t with rp := n }) u) := modTc_keeps k (fun _ ok => ok)
  have settled (f : Tc → Tc) (g : Pwr → Pwr) (src : ∀ x, (f x).src = true) (dfp : ∀ x, (f x).dfp = true) :
      Keeps s (pscHigh p (provisional p (modPwr p g (modTc p f (attachEndsLoop p t))))) :=
    pscHigh_keeps (provisional_keeps (modPwr_keeps (source f src dfp)))
  exact .ite (vconnOn_keeps (writeOc_keeps (modPwr_keeps (level _ (modPhy_keeps (settled _ _ (fun _ => rfl) (fun _ => rfl)))))))
    (writeOc_keeps (modPwr_keeps (level _ (modPhy_keeps (settled _ _ (fun _ => rfl) (fun _ => rfl))))))

theorem attachSnk_keeps {u : US} (h : Keeps s t) : Keeps s (attachSnk (usPort u) t) := by
  unfold attachSnk
  exact emit_keeps (modPhy_keeps (modPwr_keeps h.modTc_us))

theorem tryTo_keeps {p : Port} {st : CcState} (way : st ≠ .attached) (h : Keeps s t) : Keeps s (tryTo p st t) := by
  unfold tryTo
  exact modTc_keeps h (fun _ _ at_ => absurd at_ way)

theorem discoverIdentity_keeps {p : Port} (h : Keeps s t) : Keeps s (discoverIdentity p t) := by
  unfold discoverIdentity
  exact modPhy_keeps (modTc_keeps (pdSend_keeps h) (fun _ r => r))

theorem discoveryEnds_keeps {p : Port} (h : Keeps s t) : Keeps s (discoveryEnds p t) := by
  unfold discoveryEnds
  exact .when capsAt_keeps (modTc_keeps (modPhy_keeps h) (fun _ r => r))

theorem discoveryResumes_keeps {p : Port} (h : Keeps s t) : Keeps s (discoveryResumes p t) := by
  unfold discoveryResumes
  exact .ite (discoverIdentity_keeps h) h

theorem discardTx_keeps {p : Port} (h : Keeps s t) : Keeps s (discardTx p t) := by
  unfold discardTx
  dsimp only
  split
  · exact h
  · exact .ite h (.when swapFail_keeps (modPhy_keeps h))

theorem setDataRole_keeps {u : US} {dfp : Bool} (h : Keeps s t) : Keeps s (setDataRole u dfp t) := by
  unfold setDataRole
  exact .ite (hubDisconnect_keeps h.modTc_us) (hubConnect_keeps h.modTc_us)

theorem txSent_keeps {p : Port} {m : PdMsg} (h : Keeps s t) : Keeps s (txSent p m t) := by
  unfold txSent
  exact .unless (fun k => .ite (by
      split
      · exact .ite (startTransition_keeps k) (by
            split
            · exact setDataRole_keeps (modPwr_keeps k)
            · exact .ite (vconnOff_keeps (modPwr_keeps k)) (pdCtl_keeps (vconnOn_keeps (modPwr_keeps k)))
            · exact swapPhase_keeps k)
      · exact startTransition_keeps k) k) (modPhy_keeps h)

theorem txLost_keeps {p : Port} {m : PdMsg} (h : Keeps s t) : Keeps s (txLost p m t) := by
  unfold txLost
  exact .ite h (.ite (sendHardReset_keeps h) (.ite (modPhy_keeps h) (softReset_keeps h)))

theorem cableAnswer_keeps {p : Port} {m : PdMsg} (h : Keeps s t) : Keeps s (cableAnswer p m t) := by
  unfold cableAnswer
  exact .ite (.fork (fun k => capsAt_keeps (modPhy_keeps k)) discoveryEnds_keeps (modTc_keeps h (fun _ r => r))) h

theorem sinkContract_keeps {p : Port} (h : Keeps s t) : Keeps s (sinkContract p t) := by
  unfold sinkContract
  dsimp only
  split
  · exact h
  · exact .when (fun k => modPhy_keeps (pdCtl_keeps k)) (contractEvent_keeps (modPwr_keeps h))

theorem thymeReply_keeps {p : Port} {m : PdMsg} (h : Keeps s t) : Keeps s (thymeReply p m t) := by
  unfold thymeReply
  exact .ite (cableAnswer_keeps h) (.ite (.ite (.when capsAt_keeps (modPhy_keeps h)) h) (.ite (modPwr_keeps (modPhy_keeps h)) (.ite (.ite h
    (sinkContract_keeps h)) (.ite (.ite (capsAt_keeps h) (notSupported_keeps h)) (.ite (pdData_keeps h) (.ite (.ite (notSupported_keeps h)
    (sinkRequest_keeps h)) (.ite h (.ite (extMessage_keeps h) (notSupported_keeps h)))))))))

theorem laneIoEvent_keeps {kind index level edges : Nat} (h : Keeps s t) : Keeps s (laneIoEvent kind index level edges t) := by
  unfold laneIoEvent
  exact eventAll_keeps h

theorem gpioEvent_keeps {n : Nat} (h : Keeps s t) : Keeps s (gpioEvent n t) := by
  unfold gpioEvent
  exact laneIoEvent_keeps (.same rfl rfl rfl rfl rfl h)

theorem gpioFlush_keeps (h : Keeps s t) : Keeps s (gpioFlush t) := by
  unfold gpioFlush
  exact .foldl (fun _ _ k => .ite (gpioEvent_keeps k) k) h _

theorem dpStop_keeps {i : Fin 2} {cause : Nat} (h : Keeps s t) : Keeps s (dpStop i cause t) := by
  unfold dpStop
  dsimp only
  split
  · exact h
  · exact dpLeaveOne_keeps (modPhy_keeps (.ite (vdm_keeps h) h))

theorem dpEntered_keeps {i : Fin 2} {d : DS} (h : Keeps s t) : Keeps s (dpEntered i d t) := by
  unfold dpEntered
  exact .when hpdState_keeps (eventOn_keeps (emit_keeps (finalCpl_keeps (modDp_keeps (modPhy_keeps h)))))

theorem dpConfigure_keeps {i : Fin 2} {d : DS} (h : Keeps s t) : Keeps s (dpConfigure i d t) := by
  unfold dpConfigure
  dsimp only
  split
  · exact dpStop_keeps h
  · exact .when detachData_keeps (dpStep_keeps (modDp_keeps h))

theorem dpAck_keeps {i : Fin 2} {d : DS} {m : PdMsg} (h : Keeps s t) : Keeps s (dpAck i d m t) := by
  unfold dpAck
  dsimp only
  split
  · exact dpStep_keeps h
  · exact .ite (dpStep_keeps h) (modDp_keeps (modPhy_keeps h))
  · exact .ite (dpStop_keeps h) (dpStep_keeps (modDp_keeps h))
  · exact dpStep_keeps h
  · exact dpConfigure_keeps (modDp_keeps h)
  · exact dpEntered_keeps h

theorem cmdDpRoute_keeps {r : Req} (h : Keeps s t) : Keeps s (cmdDpRoute r t).1 := by
  unfold cmdDpRoute
  dsimp only
  exact .fst_ite h (by
      split
      · exact h
      · exact .fst_ite h (.fst_ite (.fst_ite (persist_keeps h) h) (modDp_keeps (dpStop_keeps (finalCpl_keeps (.fst_ite (persist_keeps h)
          h))))))

theorem dpCleared_keeps {i : Fin 2} (h : Keeps s t) : Keeps s (dpCleared i t) := by
  unfold dpCleared
  exact .ite (finalCpl_keeps h) h

theorem kickEnds_keeps {i : Fin 2} {t0 t1 : Nat} (h : Keeps s t) : Keeps s (kickEnds i t0 t1 t) := by
  unfold kickEnds
  exact .unless finalCpl_keeps (modKick_keeps h)

theorem acceptRequest_keeps {p : Port} {c : Contract} {mis : Bool} {at_ : Nat} (h : Keeps s t) : Keeps s (acceptRequest p c mis at_ t) := by
  unfold acceptRequest
  exact runAlloc_keeps (modPwr_keeps (pdCtl_keeps h))

theorem judgeRequest_keeps {p : Port} {m : PdMsg} (h : Keeps s t) : Keeps s (judgeRequest p m t) := by
  unfold judgeRequest
  dsimp only
  split
  · exact rejectRequest_keeps h
  · exact .unless (fun k => .ite (acceptRequest_keeps h) (.ite (runAlloc_keeps (modPwr_keeps k)) (rejectRequest_keeps h))) (pdCtl_keeps h)

theorem sendSwap_keeps {p : Port} {kind : Nat} (h : Keeps s t) : Keeps s (sendSwap p kind t) := by
  unfold sendSwap
  exact modPhy_keeps (pdCtl_keeps (.ite (modTc_keeps h (fun _ r => r)) h))

theorem swapOver_keeps {u : US} {result : Nat} (h : Keeps s t) : Keeps s (swapOver u result t) := by
  unfold swapOver
  exact swapFinal_keeps (modTc_keeps (modPhy_keeps h) (fun _ r => r))

theorem swapAccepted_keeps {u : US} {w : Swap} (h : Keeps s t) : Keeps s (swapAccepted u w t) := by
  unfold swapAccepted
  dsimp only
  split
  · exact swapPhase_keeps h
  · exact swapOver_keeps (setDataRole_keeps h)
  · exact swapOver_keeps (.ite (vconnOff_keeps h) (pdCtl_keeps (vconnOn_keeps h)))

theorem becomeSource_keeps {p : Port} (h : Keeps s t) : Keeps s (becomeSource p t) := by
  unfold becomeSource
  have source : Keeps s (modTc p (fun t => { t with src := true, sinkTxNg := false, vbus5At := none, discDone := true }) t) :=
    modTc_keeps h (fun _ ok at_ => ⟨rfl, (ok at_).2⟩)
  exact capsAt_keeps (writeOc_keeps (modPwr_keeps (modTc_keeps
    (emit_keeps (emit_keeps (provisional_keeps (pscHigh_keeps (modPwr_keeps source))))) (fun _ ok => ok))))

theorem becomeSink_keeps {u : US} (h : Keeps s t) : Keeps s (becomeSink (usPort u) t) := by
  unfold becomeSink
  exact runAlloc_keeps (reduced_keeps (emit_keeps (Keeps.modTc_us (modPwr_keeps (eprEnd_keeps (pscLow_keeps h))))))

theorem establish_keeps {p : Port} {c : Contract} (h : Keeps s t) : Keeps s (establish p c t) := by
  unfold establish
  exact .unless (fun k => .unless (fun k1 => dpWake_keeps (discoveryResumes_keeps k1)) (.when (fun k1 => modPhy_keeps (.ite (sendChunk_keeps
    k1) (pdCtl_keeps k1))) (.when reduced_keeps (contractEvent_keeps (pdCtl_keeps (.ite (modTc_keeps k (fun _ r => r)) k)))))) (modPwr_keeps
    (writeOc_keeps (writeLimits_keeps h)))

theorem transSample_keeps {p : Port} {v : Nat} (h : Keeps s t) : Keeps s (transSample p v t) := by
  unfold transSample
  dsimp only
  split
  · exact .ite h (.when establish_keeps (.ite (emit_keeps (modPwr_keeps h)) h))
  · exact h

theorem zeroSample_keeps {p : Port} (h : Keeps s t) : Keeps s (zeroSample p t) := by
  unfold zeroSample
  dsimp only
  split
  · exact modPwr_keeps (.ite (runAlloc_keeps (modPwr_keeps h)) h)
  · exact .ite (runAlloc_keeps (modPwr_keeps h)) h

theorem fiveSample_keeps {p : Port} (h : Keeps s t) : Keeps s (fiveSample p t) := by
  unfold fiveSample
  dsimp only
  have watch {u : State} (k : Keeps s u) : Keeps s (match portDs p with
      | some d => modDs d (fun y => { y with watch := true }) u
      | none => u) := by
    split
    · exact modDs_keeps k
    · exact k
  have five {x : Option Nat} {u : State} (k : Keeps s u) : Keeps s (modTc p (fun t => { t with vbus5At := x }) u) :=
    modTc_keeps k (fun _ ok => ok)
  split
  · exact h
  · split
    · exact capsAt_keeps (five (.ite (vconnOn_keeps (modPwr_keeps (watch h))) (modPwr_keeps (watch h))))
    · exact h
    · exact .ite h (.ite (capsAt_keeps (watch (five h))) (watch (five h)))

theorem vbsSample_keeps {p : Port} {v : Nat} (h : Keeps s t) : Keeps s (vbsSample p v t) := by
  unfold vbsSample
  exact transSample_keeps (.ite (zeroSample_keeps (modPwr_keeps h)) (.when fiveSample_keeps (modPwr_keeps h)))

theorem ocShutdown_keeps {p : Port} (h : Keeps s t) : Keeps s (ocShutdown p t) := by
  unfold ocShutdown
  exact .ite h (recover_keeps (modPwr_keeps (emit_keeps (portEvent_keeps (overCurrent_keeps h)))))

theorem psfActs_keeps {p : Port} (h : Keeps s t) : Keeps s (psfActs p t) := by
  unfold psfActs
  exact fault_keeps (.when recover_keeps (overCurrent_keeps (pscLow_keeps h)))

theorem cmdPowerBudgetSet_keeps {bad : Option Nat} {r : Req} (h : Keeps s t) : Keeps s (cmdPowerBudgetSet bad r t).1 := by
  unfold cmdPowerBudgetSet
  dsimp only
  exact .fst_ite h (.fst_ite (.fst_ite (persist_keeps h) h) (runAlloc_keeps (.same rfl rfl rfl rfl rfl (finalCpl_keeps (.fst_ite
    (persist_keeps h) h)))))

theorem unpopulate_keeps {p : Port} (h : Keeps s t) : Keeps s (unpopulate p t) := by
  unfold unpopulate
  split
  · exact portOff_keeps h
  · exact .ite (portOff_keeps h) (modPwr_keeps (detachPort_keeps h))
  · exact toUnattached_keeps (portOff_keeps h)

theorem policyApply_keeps {p : Port} {fields : Nat} {new : PwrPol} (h : Keeps s t) : Keeps s (policyApply p fields new t) := by
  unfold policyApply
  exact runAlloc_keeps (.when psfActs_keeps (.when (fun k => modPwr_keeps (emit_keeps (pscLow_keeps k))) (.fork unpopulate_keeps (fun k =>
    .ite (.ite (portOff_keeps k) k) (.ite (repower_keeps k) k)) (.unless emit_keeps (modPwr_keeps h)))))

theorem cmdPortPowerPolicy_keeps {bad : Option Nat} {r : Req} (h : Keeps s t) : Keeps s (cmdPortPowerPolicy bad r t).1 := by
  unfold cmdPortPowerPolicy
  dsimp only
  split
  · exact h
  · exact .fst_ite h (by
        split
        · exact h
        · exact .fst_ite (.fst_ite (persist_keeps h) h) (policyApply_keeps (.fst_ite (persist_keeps h) h)))

theorem cmdRoleSwap_keeps {r : Req} (h : Keeps s t) : Keeps s (cmdRoleSwap r t).1 := by
  unfold cmdRoleSwap
  dsimp only
  split
  · exact h
  · exact .fst_ite h (.fst_ite h (.fst_ite h (.fst_ite h (.fst_ite h (sendSwap_keeps (modPwr_keeps h))))))

theorem roleSwapDone_keeps {u : US} (h : Keeps s t) : Keeps s (roleSwapDone u t) := by
  unfold roleSwapDone
  exact .ite (swapFinal_keeps h) h

theorem coldState_keeps (h : Keeps s t) : Keeps s (coldState t) := by
  obtain ⟨⟨mbx, _, _, memb⟩, roles, _⟩ := reservedStateHoldsAtReset
  unfold coldState
  exact .parts (t := t) (fun _ => mbx) (fun k => ⟨k.1, rfl⟩) id (fun _ => memb) (fun _ => roles) h

theorem porActs_keeps (h : Keeps s t) : Keeps s (porActs t) := by
  unfold porActs
  exact (coldState_keeps h).withSup

theorem newEpoch_keeps (h : Keeps s t) : Keeps s (newEpoch t) := by
  unfold newEpoch
  dsimp only
  split
  · exact h.withClk
  · exact Keeps.withClk (h.withAlm almWrite1_ok)

theorem bootFaults_keeps (h : Keeps s t) : Keeps s (bootFaults t) := by
  unfold bootFaults
  exact .foldl (fun _ _ k => readmitPort_keeps k) h.withFlt _

theorem bootFresh_keeps (h : Keeps s t) : Keeps s (bootFresh t) := by
  unfold bootFresh
  refine .parts (t := t) id (fun k => ⟨k.1, rfl⟩) id id (fun ok d => ?_) h
  change RoleOk (t.tc.map _)[dsPort d]
  rw [Fin.getElem_fin, Vector.getElem_map]
  split
  · next free =>
    intro at_
    have attached : t.tc[(dsPort d).val].st = .attached := at_
    simp [attached] at free
  · exact ok d

theorem sleepPorts_keeps (h : Keeps s t) : Keeps s (sleepPorts t) := by
  unfold sleepPorts
  refine .parts (t := t) id id id id (fun _ d => ?_) h
  change RoleOk (t.tc.map _)[dsPort d]
  rw [Fin.getElem_fin, Vector.getElem_map]
  exact nofun

theorem ringsRestart_keeps (h : Keeps s t) : Keeps s (ringsRestart t) := by
  unfold ringsRestart
  exact h.withMbx (fun k => setIrq_ok 10 (foldl_mbxOk (fun _ i => flushCpl_ok _ i) _ ⟨k.1, k.2⟩))

theorem dramStarts_keeps {b : BootIn} (h : Keeps s t) : Keeps s (dramStarts b t) := by
  unfold dramStarts
  dsimp only
  split
  · split
    · exact h.withSup
    · exact fault_keeps h.withSup
    · exact fault_keeps h.withSup
  · split
    · exact h.withSup
    · exact fault_keeps h.withSup
    · exact fault_keeps h.withSup
  · exact .ite h.withSup (.foldl (fun _ _ k => fault_keeps k) (.foldl (fun _ _ k => fault_keeps k) h.withSup _) _)

theorem bootRest_keeps {b : BootIn} (h : Keeps s t) : Keeps s (bootRest b t) := by
  unfold bootRest
  exact dramStarts_keeps (ringsRestart_keeps (.same rfl rfl rfl rfl rfl h))

theorem bootImage_keeps {b : BootIn} (h : Keeps s t) : Keeps s (bootImage b t) := by
  unfold bootImage
  dsimp only
  have image : Keeps s { t with fw := (if b.straps = 2 then (t.fw, false) else selectSlot t).1 } := by
    refine h.withFw (fun k => ?_)
    split
    · exact k
    · exact selectSlot_ok k
  exact .ite (bootRest_keeps image) image.withSup

theorem bootBegins_keeps {path : BootPath} {b : BootIn} (h : Keeps s t) : Keeps s (bootBegins path b t) := by
  unfold bootBegins
  exact .parts (fun k => k) id id id id h

theorem bootCold_keeps {b : BootIn} (h : Keeps s t) : Keeps s (bootCold b t) := by
  unfold bootCold
  exact bootImage_keeps (bootBegins_keeps (.same rfl rfl rfl rfl rfl (newEpoch_keeps (coldState_keeps h))))

theorem bootWarm_keeps {path : BootPath} {b : BootIn} (h : Keeps s t) : Keeps s (bootWarm path b t) := by
  unfold bootWarm
  have start : Keeps s (bootBegins path b (bootFaults (bootFresh (if t.reg.absent then t else writeVout 2 t)))) :=
    bootBegins_keeps (bootFaults_keeps (bootFresh_keeps (.ite h (writeVout_keeps h))))
  exact bootImage_keeps (.ite start.withUsd start)

theorem bootWake_keeps {l : WakeLatch} {b : BootIn} (h : Keeps s t) : Keeps s (bootWake l b t) := by
  unfold bootWake
  exact bootImage_keeps (bootBegins_keeps (sleepPorts_keeps (bootFaults_keeps (bootFresh_keeps (writeWake_keeps (restoreLaneTime_keeps
    h)).withWake))))

theorem applyRoute_keeps {i : Fin 2} (h : Keeps s t) : Keeps s (applyRoute i t) := by
  unfold applyRoute
  exact .ite (modDp_keeps h) (modDp_keeps (dpLeaveOne_keeps h))

theorem applyPower_keeps (h : Keeps s t) : Keeps s (applyPower t) := by
  unfold applyPower
  refine .foldl (fun t p k => ?_) h.withLane _
  exact modPwr_keeps (policyApply_keeps (.ite (emit_keeps (emit_keeps k)) k))

theorem applyRegulator_keeps {x : Option RegBoot} (h : Keeps s t) : Keeps s (applyRegulator x t) := by
  unfold applyRegulator
  dsimp only
  split
  · refine h.only ?_
    split <;> simp [invariantParts]
  · exact fault_keeps (.same (t := t) rfl rfl rfl rfl rfl h)

theorem standbyContexts_keeps {s1 : State} (h : Keeps s t) : Keeps s (standbyContexts s1 t) := by
  unfold standbyContexts
  exact modVigHub_keeps (modVigHub_keeps (.foldl (fun _ _ k => releaseCtx_keeps k) h _))

theorem warmHub_keeps {u : US} (h : Keeps s t) : Keeps s (warmHub u t) := by
  unfold warmHub
  exact .ite (.foldl (fun _ _ k => releaseCtx_keeps k) h _) (hubTo_keeps (.foldl (fun _ _ k => beginEpisode_keeps (holdPort_keeps k))
    (modVigHub_keeps (.foldl (fun _ _ k => releaseCtx_keeps k) h _)) _))

theorem warmContexts_keeps (h : Keeps s t) : Keeps s (warmContexts t) := by
  unfold warmContexts
  exact .foldl (fun _ _ k => reopenCtx_keeps k) (warmHub_keeps (warmHub_keeps h)) _

theorem bootContexts_keeps {s1 : State} (h : Keeps s t) : Keeps s (bootContexts s1 t) := by
  unfold bootContexts
  split
  · exact modVig_keeps h
  · exact modVig_keeps h
  · exact standbyContexts_keeps h
  · exact .ite (warmContexts_keeps h) (.foldl (fun _ _ k => releaseCtx_keeps k) h _)
  · exact .ite (warmContexts_keeps h) (.foldl (fun _ _ k => releaseCtx_keeps k) h _)
  · exact .ite (warmContexts_keeps h) (.foldl (fun _ _ k => releaseCtx_keeps k) h _)

theorem bootRequest_keeps (h : Keeps s t) : Keeps s (bootRequest t) := by
  unfold bootRequest
  dsimp only
  split
  · exact h
  · exact .same rfl rfl rfl rfl rfl (setTarget_keeps h)

theorem recovFinish_keeps {b : BootIn} (h : Keeps s t) : Keeps s (recovFinish b t) := by
  unfold recovFinish
  exact .ite h (.ite (.parts id (fun k => k) id id id h) (bootRest_keeps (.parts id (fun k => k) id id id h)))

theorem bootLevels_keeps (h : Keeps s t) : Keeps s (bootLevels t) := by
  unfold bootLevels
  exact .foldl (fun _ _ k => psfActs_keeps k) h _

theorem bootWakes_keeps {l : Option WakeLatch} (h : Keeps s t) : Keeps s (bootWakes l t) := by
  unfold bootWakes
  split
  · exact .ite (laneIoEvent_keeps h) h
  · exact h

theorem bootEnds_keeps {reg : Option RegBoot} (h : Keeps s t) : Keeps s (bootEnds reg t) := by
  have applied : Keeps s (applyRegulator reg (applyIo (applyRoute 1 (applyRoute 0 (layRings t.sup.retained (applyVigil (applyPower (applyOwners t)))))))) :=
    applyRegulator_keeps (applyIo_keeps (applyRoute_keeps (applyRoute_keeps (layRings_keeps (applyVigil_keeps (applyPower_keeps (applyOwners_keeps h)))))))
  unfold bootEnds
  dsimp only
  generalize applyRegulator reg _ = u at applied ⊢
  have contexts := bootContexts_keeps (s1 := t) (applied.withSup (x := { u.sup with enginesHeld := false }))
  generalize bootContexts t _ = v at contexts ⊢
  have thymes : Keeps s (if warmPath t then allThy.foldl (fun s t => thymeBack t s) v else v) :=
    .ite (.foldl (fun _ _ k => thymeBack_keeps k) contexts _) contexts
  generalize (if warmPath t then _ else v) = w at thymes ⊢
  have request := bootRequest_keeps thymes
  generalize bootRequest w = x at request ⊢
  have ended : Keeps s { x with
      pmu := { x.pmu with reported := runMode x, suspendSince := none }
      fw := { x.fw with trialFrom := if x.fw.trial && trialMode (runMode x) then some x.now else none }
      sup := { x.sup with latch := none }
      flt := { x.flt with shadows := [] } } := Keeps.withFlt (Keeps.withSup (Keeps.withFw request.withPmu id))
  have woken := bootWakes_keeps (l := t.sup.latch) (bootLevels_keeps (availClose_keeps (modeFollow_keeps ended)))
  split
  · exact faultEvent_keeps woken
  · exact woken

theorem raiseWake_keeps {cls port detail at_ : Nat} {b : BootIn} (h : Keeps s t) : Keeps s (raiseWake cls port detail at_ b t) := by
  unfold raiseWake
  split
  · exact bootWake_keeps h
  · exact bootWake_keeps h
  · exact .ite (mergeWake_keeps h) (latchWake_keeps h)
  · exact suspendWake_keeps h

theorem sleepStops_keeps {m : Mode} {dmcOk : Bool} (h : Keeps s t) : Keeps s (sleepStops m dmcOk t) := by
  unfold sleepStops
  exact .same rfl rfl rfl rfl rfl (sleepPorts_keeps (dropTests_keeps (abandonRebuild_keeps (upDown_keeps h))))

theorem sleepCapture_keeps {x : Machine.Trans} {phi : Nat} (h : Keeps s t) : Keeps s (sleepCapture x phi t) := by
  unfold sleepCapture
  exact .parts (fun k => k) id id id id h

theorem fallAsleep_keeps {x : Machine.Trans} {phi : Nat} {dmcOk : Bool} (h : Keeps s t) : Keeps s (fallAsleep x phi dmcOk t) := by
  unfold fallAsleep
  exact trialTick_keeps (sleepCapture_keeps (sleepStops_keeps h))

theorem waitKick_keeps {i : Fin 2} (h : Keeps s t) : Keeps s (waitKick i t) := by
  unfold waitKick
  split
  · exact kickEnds_keeps (advanceTo_keeps h)
  · exact h

theorem guardFree_keeps {p : Port} (h : Keeps s t) : Keeps s (guardFree p t) := by
  unfold guardFree
  exact .ite h (.unless (fun k => .ite (usSees_keeps k) (dsSees_keeps k)) (modGuard_keeps h))

theorem guardMoves_keeps {p : Port} {wet : Option (Nat × Nat)} {dry : Bool} (h : Keeps s t) : Keeps s (guardMoves p wet dry t) := by
  unfold guardMoves
  extract_lets g toSt
  have moved (st n pin code : Nat) : Keeps s (toSt st n pin code t) := .ite (modGuard_keeps h) (guardTo_keeps h)
  split
  · split
    · exact .ite (moved _ _ _ _) (becomeWet_keeps h)
    · exact h
  · exact .ite (moved _ _ _ _) h
  · exact .ite (.ite (moved _ _ _ _) (becomeWet_keeps h))
      (.ite (.ite (modGuard_keeps (moved _ _ _ _)) (guardFree_keeps (moved _ _ _ _))) (modGuard_keeps h))

theorem safeEnter_keeps {b : Block} {dmcOk : Bool} (h : Keeps s t) : Keeps s (safeEnter b dmcOk t) := by
  unfold safeEnter
  exact faultEvent_keeps (modeFollow_keeps (trialTick_keeps (selfRefreshIn_keeps (.when allPscLow_keeps (holdEngines_keeps (setRec_keeps
    (availStop_keeps (.parts (fun k => k) id id id id (modeFinal_keeps (.same rfl rfl rfl rfl rfl h))))))))))

theorem fatal_keeps {b : Block} {src : Nat} (h : Keeps s t) : Keeps s (fatal b src t) := by
  unfold fatal
  dsimp only
  split
  · exact .when safeEnter_keeps (fault_keeps h)
  · exact fault_keeps h

theorem detect_keeps {b : Block} {src unit : Nat} {forced persistent : Bool} (h : Keeps s t) :
    Keeps s (detect b src unit forced persistent t) := by
  unfold detect
  exact raiseFault_keeps (.ite (setRec_keeps h) h)

theorem setPkbErr_keeps {word mask : Nat} (h : Keeps s t) : Keeps s (setPkbErr word mask t) := by
  unfold setPkbErr
  exact h.withMemb (fun k => ⟨k.1, k.2.1, sparseSet_wf k.2.2⟩)

theorem markPkb_keeps {word : Nat} {on : Bool} (h : Keeps s t) : Keeps s (markPkb word on t) := by
  unfold markPkb
  exact .parts id id id (fun k => k) id h

theorem scrubUnit_keeps {n : Nat} (h : Keeps s t) : Keeps s (scrubUnit n t) := by
  unfold scrubUnit
  dsimp only
  have back (l : List (Nat × Nat)) (x : List Nat) (k : MemOk t.memb) : MemOk (writeBack l { t.memb with dramSeen := x }) := writeBack_ok l k
  split
  · exact raiseFaultAt_keeps h
  · exact .ite (raiseFaultAt_keeps (.foldl (fun _ _ k => detect_keeps k) (h.withMemb (back _ _)) _))
      (.foldl (fun _ _ k => detect_keeps k) (h.withMemb (back _ _)) _)

theorem quietEnds_keeps {b : Block} {reads : List ReadBack} (h : Keeps s t) : Keeps s (quietEnds b reads t) := by
  unfold quietEnds
  exact .unless (fun k => .unless (fun k1 => retireLimit_keeps (spreadReadmits_keeps (.when setRec_keeps (faultEvent_keeps (setRec_keeps
    (retest_keeps k1)))))) (.ite (faultEvent_keeps k) h)) (setRec_keeps h)

theorem injectFaults_keeps {b : Block} {mask : Nat} {unit : Option Nat} (h : Keeps s t) : Keeps s (injectFaults b mask unit t) := by
  unfold injectFaults
  dsimp only
  split
  · exact h
  · exact .foldl (fun _ _ k => alsoForced_keeps k) (detect_keeps h) _

theorem cmdFaultInject_keeps {r : Req} (h : Keeps s t) : Keeps s (cmdFaultInject r t).1 := by
  unfold cmdFaultInject
  dsimp only
  split
  · exact h
  · exact .fst_ite h (injectFaults_keeps h)

theorem fenceNow_keeps {b : Block} {u : FUnit} {unit : Nat} (h : Keeps s t) : Keeps s (fenceNow b u unit t) := by
  unfold fenceNow
  exact .same rfl rfl rfl rfl rfl (.unless faultEvent_keeps (spreadFences_keeps (.ite (openShadow_keeps (setRec_keeps h)) (unitEffects_keeps
    (setRec_keeps h)))))

theorem cmdFence_keeps {r : Req} (h : Keeps s t) : Keeps s (cmdFence r t).1 := by
  unfold cmdFence
  dsimp only
  split
  · exact h
  · split
    · exact h
    · exact .fst_ite h (.fst_ite h (fenceNow_keeps h))

theorem unfenceNow_keeps {b : Block} (h : Keeps s t) : Keeps s (unfenceNow b t) := by
  unfold unfenceNow
  exact .unless faultEvent_keeps (spreadReadmits_keeps (setRec_keeps h))

theorem cmdUnfence_keeps {r : Req} (h : Keeps s t) : Keeps s (cmdUnfence r t).1 := by
  unfold cmdUnfence
  split
  · exact h
  · exact unfenceNow_keeps h

theorem hubReconnect_keeps {u : US} (h : Keeps s t) : Keeps s (hubReconnect u t) := by
  unfold hubReconnect
  dsimp only
  split
  · exact h
  · exact finalCpl_keeps (finalCpl_keeps (finalCpl_keeps (hubConnect_keeps (modHub_keeps (advanceTo_keeps h)))))

theorem presentConn_keeps {d : DS} {ss : Bool} (h : Keeps s t) : Keeps s (presentConn d ss t) := by
  unfold presentConn
  exact .unless (fun k => portEvent_keeps (deviceArrived_keeps k)) (.ite (modDs_keeps (modDs_keeps h)) (.when chgPort_keeps (modDs_keeps
    h)))

theorem cmdLoopback_keeps {r : Req} (h : Keeps s t) : Keeps s (cmdLoopback r t).1 := by
  unfold cmdLoopback
  dsimp only
  split
  · exact h
  · exact .fst_ite h (by
        split
        · exact h
        · exact .fst_ite (cutLoop_keeps h) (.fst_ite h (.fst_ite h (startLoop_keeps h))))

theorem enterComp_keeps {p : Port} (h : Keeps s t) : Keeps s (enterComp p t) := by
  unfold enterComp
  dsimp only
  split
  · exact modDs_keeps (.when detachData_keeps (.same rfl rfl rfl rfl rfl h))
  · exact modUs_keeps (.same rfl rfl rfl rfl rfl h)
  · exact .same rfl rfl rfl rfl rfl h

theorem fltWrite_keeps {b : Block} {off v : Nat} (h : Keeps s t) : Keeps s (fltWrite b off v t) := by
  unfold fltWrite
  dsimp only
  split
  · exact ackWrite_keeps h
  · exact .ite (injectFaults_keeps h) h
  · exact setRec_keeps h
  · exact h

theorem cmdRegWrite_keeps {r : Req} (h : Keeps s t) : Keeps s (cmdRegWrite r t).1 := by
  unfold cmdRegWrite
  dsimp only
  split
  · exact h
  · split
    · exact h
    · exact .fst_ite (.foldl (fun _ _ k => lioWrite_keeps k) h _) (.fst_ite (persist_keeps h) (.foldl (fun _ _ k => fltWrite_keeps k)
        (persist_keeps h) _))

theorem recovCtrl_keeps {b : BootIn} {v : Nat} (h : Keeps s t) : Keeps s (recovCtrl b v t) := by
  unfold recovCtrl
  exact .when recovAbort_keeps (.when recovFinish_keeps (.ite (recovLoad_keeps h) h))

theorem transportWrite_keeps {b : BootIn} {a v : Nat} (h : Keeps s t) : Keeps s (transportWrite b a v t) := by
  unfold transportWrite
  exact .ite (.ite (.parts id (fun k => k) id id id h) h) (.ite (.ite (.parts id (fun k => k) id id id h) h) (.ite (recovCtrl_keeps h) (.ite
    (.parts (fun k => mbxWrite_ok _ _ _ k) id id id id h) h)))

theorem frameError_keeps (h : Keeps s t) : Keeps s (frameError t) := by
  unfold frameError
  exact .parts (fun k => k) id id id id h

theorem spitWord_keeps {b : BootIn} {a v : Nat} (h : Keeps s t) : Keeps s (spitWord b a v t) := by
  unfold spitWord
  split
  · exact .ite (ackWrite_keeps h) h
  · exact .ite (transportWrite_keeps h) (frameError_keeps h)

theorem spitByteWrite_keeps {a : Nat} {x : Byte} (h : Keeps s t) : Keeps s (spitByteWrite a x t) := by
  unfold spitByteWrite
  exact .ite (h.withMbx (fun k => ⟨sparseSet_wf k.1, k.2⟩)) h

theorem spitWrite_keeps {b : BootIn} : ∀ {n a : Nat} {l : List Byte} {t : State}, Keeps s t → Keeps s (spitWrite b n a l t)
  | 0, _, _, _, h => h
  | _ + 1, _, [], _, h => h
  | n + 1, a, x :: l, t, h => by
    unfold spitWrite
    exact .ite (.ite h (spitWrite_keeps (spitWord_keeps h))) (spitWrite_keeps (spitByteWrite_keeps h))

theorem startReset_keeps {d : DS} {by_ : ResumeKind} (h : Keeps s t) : Keeps s (startReset d by_ t) := by
  unfold startReset
  exact modDs_keeps (forwardReset_keeps (ttClear_keeps h))

theorem startSsReset_keeps {d : DS} {warm : Bool} (h : Keeps s t) : Keeps s (startSsReset d warm t) := by
  unfold startSsReset
  exact modDs_keeps (forwardReset_keeps (dropStored_keeps h))

theorem ssReset_keeps {u : US} {v : Fin 15} {warm : Bool} (h : Keeps s t) : Keeps s (ssReset u v warm t) := by
  unfold ssReset
  dsimp only
  have seen := hostSeen_keeps (u := u) h
  generalize hostSeen u t = x at seen ⊢
  have empty : Keeps s (if warm then chgSlot u v true .bhReset (chgSlot u v true .reset x) else chgSlot u v true .reset x) :=
    .ite (chgSlot_keeps (chgSlot_keeps seen)) (chgSlot_keeps seen)
  split
  · exact h
  · split
    · exact empty
    · refine .ite empty (.ite empty (.ite empty ?_))
      split
      · exact .ite (absorbReset_keeps seen) (startSsReset_keeps seen)
      · exact startSsReset_keeps seen

theorem powerOffAll_keeps {u : US} (h : Keeps s t) : Keeps s (powerOffAll u t) := by
  unfold powerOffAll
  exact .foldl (fun _ _ k => by
      split
      · exact .ite (portOff_keeps (modSlot_keeps k)) k
      · exact k) h _

theorem upstreamReset_keeps {u : US} (h : Keeps s t) : Keeps s (upstreamReset u t) := by
  unfold upstreamReset
  have lmf (x : Vector Lmf 2) : Keeps s { t with mbx := { t.mbx with lmf := x } } := h.withMbx id
  have reset (x : Vector Lmf 2) (f : State → DS → Bool) : Keeps s (allDs.foldl (fun s d => if f s d then ttReset d s else s)
      { t with mbx := { t.mbx with lmf := x } }) := .foldl (fun _ _ k => .ite (ttReset_keeps k) k) (lmf x) _
  exact hostSeen_keeps (modHub_keeps (.foldl (fun _ _ k => .ite (modDs_keeps k) k)
    (.ite (hostRestart_keeps (reset _ _)) (powerOffAll_keeps (reset _ _))) _))

theorem cmdSchedSet_keeps {r : Req} (h : Keeps s t) : Keeps s (cmdSchedSet r t).1 := by
  unfold cmdSchedSet
  dsimp only
  split
  · split
    · exact h
    · exact .fst_ite h (by
          split
          · exact h
          · exact h
          · exact settle_keeps (modEpq_keeps h))
  · exact .fst_ite h (.same rfl rfl rfl rfl rfl h)
  · split
    · exact h
    · exact .fst_ite h (by
          split
          · exact h
          · exact .same rfl rfl rfl rfl rfl (dueTick_keeps h))
  · exact h

theorem cmdShaperSet_keeps {r : Req} (h : Keeps s t) : Keeps s (cmdShaperSet r t).1 := by
  unfold cmdShaperSet
  dsimp only
  split
  · exact h
  · split
    · exact h
    · exact .fst_ite h (by
          split
          · exact h
          · exact modEpq_keeps (finalCpl_keeps (dueTick_keeps h)))

theorem cmdPolicerSet_keeps {r : Req} (h : Keeps s t) : Keeps s (cmdPolicerSet r t).1 := by
  unfold cmdPolicerSet
  dsimp only
  split
  · exact h
  · split
    · exact h
    · exact .fst_ite h (by
          split
          · exact h
          · exact modEpq_keeps (finalCpl_keeps (dueTick_keeps h)))

theorem cmdPlacePin_keeps {r : Req} (h : Keeps s t) : Keeps s (cmdPlacePin r t).1 := by
  unfold cmdPlacePin
  dsimp only
  split
  · exact h
  · split
    · exact h
    · split
      · refine .fst_ite h ?_
        split
        · exact h
        · exact modPlace_keeps (finalCpl_keeps h)
      · exact h

theorem cmdPlaceRebuild_keeps {r : Req} (h : Keeps s t) : Keeps s (cmdPlaceRebuild r t).1 := by
  unfold cmdPlaceRebuild
  exact .fst_ite h (by
      split
      · exact modPlace_keeps (finalCpl_keeps h)
      · exact modPlace_keeps h
      · exact modPlace_keeps h
      · exact h)

theorem refuseTake_keeps {k : Fin 8} {via : Transport} {op status : Nat} {flags : Byte} {tag : Word} {payload : List Byte} (h : Keeps s t) :
    Keeps s (refuseTake k via op status flags tag payload t) := by
  unfold refuseTake
  exact postReply_keeps h

end

end Sys2Proof.Machine
end

section
/-! SUPPORT. The operations that take a continuation, and commands by their frame. -/

set_option Elab.async false

namespace Sys2Proof.Machine

section
variable {s t : State}

theorem takeHand_keeps {p : Port} {ok : PdMsg → Bool} {f : PdMsg → State → State} (h : Keeps s t)
    (step : ∀ m t, Keeps s t → Keeps s (f m t)) : Keeps s (takeHand p ok f t) := by
  unfold takeHand
  split
  · exact h
  · exact .ite (step _ _ (modPhy_keeps h)) h

theorem pslTry_keeps {p : Port} {tries : Nat} {ok : State → State} (h : Keeps s t)
    (step : ∀ t, Keeps s t → Keeps s (ok t)) : Keeps s (pslTry p tries ok t) := by
  unfold pslTry
  have tried (l : List Nat) : Keeps s (l.foldl (fun s _ => fault .psl 8 (portCode p) s) t) := .foldl (fun _ _ k => fault_keeps k) h l
  exact .ite (fault_keeps (pscLow_keeps (tried _))) (step _ (tried _))

theorem tryStep_keeps {p : Port} {ok : Bool} {deb limit : Nat} {att next : State → State} (h : Keeps s t)
    (attStep : ∀ t, Keeps s t → Keeps s (att t)) (nextStep : ∀ t, Keeps s t → Keeps s (next t)) :
    Keeps s (tryStep p ok deb limit att next t) :=
  .ite (attStep _ (advanceTo_keeps h)) (nextStep _ (advanceTo_keeps h))

theorem meetSwap_keeps {u : US} {f : State → State} (h : Keeps s t)
    (step : ∀ t, Keeps s t → Keeps s (f t)) : Keeps s (meetSwap u f t) := by
  unfold meetSwap
  dsimp only
  split
  · exact step _ h
  · exact .ite (step _ (swapOver_keeps (modPhy_keeps h))) (pdCtl_keeps h)

theorem sendLoose_some {p : Port} {x : State} (e : sendLoose p t = some x) (h : Keeps s t) : Keeps s x := by
  unfold sendLoose at e
  split at e
  · split at e
    · exact Option.some.inj e ▸ settle_keeps (sendData_keeps (modLink_keeps h))
    · cases e
  · cases e

theorem KeepsIn.next (h : Keeps s t) : KeepsIn s (.next t) := h

theorem Keeps.into {r : Res} (h : Keeps s t) (k : KeepsIn t r) : KeepsIn s r := by
  cases r with
  | next u => exact h.trans k
  | _ => trivial

theorem fresh_refl (s : State) : Keeps s (fresh s) := fresh_keeps (.refl s)

/-- A command that leaves the parts of which the invariants speak as they were keeps them. -/
theorem KeepsIn.kept {l : List Fld} {r : Res} (k : Kept l s r) (apart : ∀ j ∈ invariantParts, j ∉ l) : KeepsIn s r := by
  cases r with
  | next t => exact (Keeps.refl s).only (fun j hj => k.frame rfl j (apart j hj))
  | _ => trivial

end

end Sys2Proof.Machine
end

section
/-! SUPPORT. Commands that change a part of which the invariants speak keep them: resets, transfers, splits, ports and the Type-C
connectors. -/

set_option Elab.async false

namespace Sys2Proof.Machine

section
variable {s : State}

theorem execPorNAssert_keeps (cycles : Nat) (s : State) : KeepsIn s (execPorNAssert cycles s) := by
  unfold execPorNAssert
  dsimp only
  have start := fresh_refl s
  exact .next (.ite (porActs_keeps start) start)

theorem execPorNRelease_keeps (b : BootIn) (s : State) : KeepsIn s (execPorNRelease b s) := by
  unfold execPorNRelease
  dsimp only
  have start := fresh_refl s
  exact .next (.ite (bootCold_keeps start) start)

theorem execVddAonBrownout_keeps (ns : Nat) (s : State) : KeepsIn s (execVddAonBrownout ns s) := by
  unfold execVddAonBrownout
  dsimp only
  have start := fresh_refl s
  exact .next (.ite (porActs_keeps start) start)

theorem execLaneSupplyLoss_keeps (s : State) : KeepsIn s (execLaneSupplyLoss s) := by
  unfold execLaneSupplyLoss
  dsimp only
  have off := porActs_keeps (fresh_refl s)
  generalize porActs (fresh s) = x at off ⊢
  exact .next (.same (t := x) rfl rfl rfl rfl rfl off)

theorem execSysResetNRise_keeps (b : BootIn) (s : State) : KeepsIn s (execSysResetNRise b s) := by
  unfold execSysResetNRise
  dsimp only
  have start := fresh_refl s
  exact .next (.ite (bootWarm_keeps start) start)

theorem execBootComplete_keeps (reg : Option RegBoot) (s : State) : KeepsIn s (execBootComplete reg s) := by
  unfold execBootComplete
  dsimp only
  have start := fresh_refl s
  exact .next (.ite (bootEnds_keeps start) start)

theorem execRecovLoad_keeps (s : State) : KeepsIn s (execRecovLoad s) := by
  unfold execRecovLoad
  exact .next (recovLoad_keeps (fresh_refl s))

theorem execRecovFinish_keeps (b : BootIn) (s : State) : KeepsIn s (execRecovFinish b s) := by
  unfold execRecovFinish
  exact .next (recovFinish_keeps (fresh_refl s))

theorem execRecovAbort_keeps (s : State) : KeepsIn s (execRecovAbort s) := by
  unfold execRecovAbort
  exact .next (recovAbort_keeps (fresh_refl s))

theorem execTrialConfirm_keeps (s : State) : KeepsIn s (execTrialConfirm s) := by
  unfold execTrialConfirm
  dsimp only
  have start := fresh_refl s
  split
  · exact .next start
  · exact .ite (.next (confirmSteps_keeps (advanceTo_keeps start))) (.next start)

theorem execPlannedWarmRestart_keeps (dmcOk : Bool) (b : BootIn) (s : State) : KeepsIn s (execPlannedWarmRestart dmcOk b s) := by
  unfold execPlannedWarmRestart
  dsimp only
  have start := fresh_refl s
  split
  · exact .next start
  · exact .next (bootWarm_keeps (selfRefreshIn_keeps (holdEngines_keeps (advanceTo_keeps start))))

theorem execVddio1v8Loss_keeps (s : State) : KeepsIn s (execVddio1v8Loss s) := by
  unfold execVddio1v8Loss
  dsimp only
  have start := fresh_refl s
  exact .next (.ite (fault_keeps (kickLow_keeps (kickLow_keeps (allPscLow_keeps (.same rfl rfl rfl rfl rfl start))))) start)

theorem execCorePgLow_keeps (ns : Nat) (s : State) : KeepsIn s (execCorePgLow ns s) := by
  unfold execCorePgLow
  dsimp only
  have start := fresh_refl s
  exact .next (.ite (fatal_keeps (.same rfl rfl rfl rfl rfl start)) start)

theorem execRef25Loss_keeps (ns : Nat) (s : State) : KeepsIn s (execRef25Loss ns s) := by
  unfold execRef25Loss
  dsimp only
  have start := fresh_refl s
  exact .next (.ite (fault_keeps (linksStop_keeps (.same rfl rfl rfl rfl rfl start))) start)

theorem execPllUnlock_keeps (w : Pll) (s : State) : KeepsIn s (execPllUnlock w s) := by
  unfold execPllUnlock
  dsimp only
  have start := fresh_refl s
  exact .ite (.next start) (by
      split
      · exact .next (fault_keeps (.same rfl rfl rfl rfl rfl start))
      · exact .next (fault_keeps (.same rfl rfl rfl rfl rfl start))
      · exact .next (fault_keeps (.same rfl rfl rfl rfl rfl start)))

theorem execXtal32kFail_keeps (ns : Nat) (s : State) : KeepsIn s (execXtal32kFail ns s) := by
  unfold execXtal32kFail
  dsimp only
  have start := fresh_refl s
  exact .next (.ite (fault_keeps (.same rfl rfl rfl rfl rfl start)) start)

theorem execAonLow_keeps (ns : Nat) (s : State) : KeepsIn s (execAonLow ns s) := by
  unfold execAonLow
  dsimp only
  have start := fresh_refl s
  exact .next (.ite (fault_keeps start) start)

theorem execCoreRegStatusPoll_keeps (status : BitVec 16) (iout : Nat) (statusVout statusIout : Byte) (s : State) :
    KeepsIn s (execCoreRegStatusPoll status iout statusVout statusIout s) := by
  unfold execCoreRegStatusPoll
  dsimp only
  have start := fresh_refl s
  exact .ite (.next start) (.next (.when (fun k => pmbWrite_keeps (fault_keeps k)) (.same rfl rfl rfl rfl rfl start)))

theorem execOppChangeStart_keeps (badOrder : Bool) (s : State) : KeepsIn s (execOppChangeStart badOrder s) := by
  unfold execOppChangeStart
  dsimp only
  have start := fresh_refl s
  exact .next (startOpp_keeps (.ite (fault_keeps start) start))

theorem execOppVoltageConfirmed_keeps (mv : Nat) (s : State) : KeepsIn s (execOppVoltageConfirmed mv s) := by
  unfold execOppVoltageConfirmed
  dsimp only
  have start := fresh_refl s
  split
  · exact .next start
  · exact .ite (.next start) (.next (transitionEnds_keeps (modeFinal_keeps (.same rfl rfl rfl rfl rfl start))))

theorem execOppConfirmTimeout_keeps (s : State) : KeepsIn s (execOppConfirmTimeout s) := by
  unfold execOppConfirmTimeout
  dsimp only
  split
  · exact .next (fresh_refl s)
  · next c _ =>
    have at_ := advanceTo_keeps (n := c.startAt + 300000) (fresh_refl s)
    generalize advanceTo _ (fresh s) = x at at_ ⊢
    have failed (p : Pmu) : Keeps s (fault .pmu 10 (blockId .pmu) (writeVout c.fromOpp { x with pmu := p })) :=
      fault_keeps (writeVout_keeps at_.withPmu)
    exact .ite (.next (fresh_refl s)) (.ite (.next (transitionEnds_keeps (modeFinal_keeps (failed _).withPmu))) (.next (failed _).withPmu))

theorem execSuspendEntry_keeps (s : State) : KeepsIn s (execSuspendEntry s) := by
  unfold execSuspendEntry
  dsimp only
  have start := fresh_refl s
  split
  · exact .next start
  · exact .ite (.next start) (.next (modeFollow_keeps (trialTick_keeps (.same rfl rfl rfl rfl rfl (abandonRebuild_keeps (advanceTo_keeps
      start))))))

theorem execSuspendWake_keeps (cls : Fin 16) (port detail : Nat) (s : State) : KeepsIn s (execSuspendWake cls port detail s) := by
  unfold execSuspendWake
  dsimp only
  have start := fresh_refl s
  exact .next (.ite (suspendWake_keeps start) start)

theorem execSleepEntry_keeps (phi : Nat) (dmcOk : Bool) (b : BootIn) (s : State) : KeepsIn s (execSleepEntry phi dmcOk b s) := by
  unfold execSleepEntry
  dsimp only
  have start := fresh_refl s
  split
  · exact .next start
  · exact .ite (.next start) (by
        split
        · exact .next (setAlarm_keeps (fallAsleep_keeps (waitKick_keeps (waitKick_keeps start))))
        · exact .next (bootWake_keeps (setAlarm_keeps (fallAsleep_keeps (waitKick_keeps (waitKick_keeps start))))))

theorem execLovageCcSample_keeps (p : Port) (c : CcPattern) (b : BootIn) (s : State) : KeepsIn s (execLovageCcSample p c b s) := by
  unfold execLovageCcSample
  dsimp only
  have start := fresh_refl s
  exact .ite (.next start) (.ite (.next (.same rfl rfl rfl rfl rfl start)) (.ite (.next (raiseWake_keeps (.same rfl rfl rfl rfl rfl start)))
    (.next (.same rfl rfl rfl rfl rfl start))))

theorem execWakeNPulse_keeps (gap width : Nat) (b : BootIn) (s : State) : KeepsIn s (execWakeNPulse gap width b s) := by
  unfold execWakeNPulse
  dsimp only
  have start := fresh_refl s
  exact .ite (.next start) (.ite (.next (.same rfl rfl rfl rfl rfl start)) (.next (raiseWake_keeps (.when laneIoEvent_keeps (.same rfl rfl
    rfl rfl rfl start)))))

theorem execSpitCsNWake_keeps (b : BootIn) (s : State) : KeepsIn s (execSpitCsNWake b s) := by
  unfold execSpitCsNWake
  dsimp only
  exact .next (raiseWake_keeps (fresh_refl s))

theorem execRtcAlarm_keeps (b : BootIn) (s : State) : KeepsIn s (execRtcAlarm b s) := by
  unfold execRtcAlarm
  dsimp only
  have start := fresh_refl s
  exact .ite (.next start) (.next (raiseWake_keeps (.unless advanceTo_keeps (.same rfl rfl rfl rfl rfl start))))

theorem execPsAlertN_keeps (p : Port) (status : BitVec 16) (feFault : Bool) (tries : Nat) (b : BootIn) (s : State) :
    KeepsIn s (execPsAlertN p status feFault tries b s) := by
  unfold execPsAlertN
  dsimp only
  have start := fresh_refl s
  exact .ite (.next (raiseWake_keeps start)) (.ite (.next (raiseWake_keeps start)) (.next (pslTry_keeps (raiseWake_keeps start) (fun _ k =>
    .unless (fun k1 => .ite (ocShutdown_keeps k1) k1) (modPwr_keeps k)))))

theorem execPkbScrub_keeps (word flips : Nat) (overwritten : Bool) (s : State) : KeepsIn s (execPkbScrub word flips overwritten s) := by
  unfold execPkbScrub
  dsimp only
  have start := fresh_refl s
  exact .ite (.next start) (by
      split
      · exact .next (setPkbErr_keeps (markPkb_keeps start))
      · exact .next (detect_keeps (setPkbErr_keeps (markPkb_keeps start)))
      · exact .next (fault_keeps (setPkbErr_keeps start)))

theorem execDramScrubUnit_keeps (flips : List (Nat × Nat)) (s : State) : KeepsIn s (execDramScrubUnit flips s) := by
  unfold execDramScrubUnit
  dsimp only
  have flipped (u n : Nat) (k : MemOk (fresh s).memb) : MemOk { flipUnit u flips (fresh s).memb with dramUnit := n } := flipUnit_ok u flips k
  exact .ite (.next (fresh_refl s)) (.next (.ite ((fresh_refl s).withMemb (flipped _ _)) (scrubUnit_keeps ((fresh_refl s).withMemb (flipped _ _)))))

theorem execDramRefreshRateRead_keeps (mult : Nat) (s : State) : KeepsIn s (execDramRefreshRateRead mult s) := by
  unfold execDramRefreshRateRead
  dsimp only
  have start := fresh_refl s
  exact .next (.ite start (.parts id id id (fun k => k) id start))

theorem execSsHeaderDownstream_keeps (u : US) (h : SsHeader) (crcOk : Bool) (s : State) :
    KeepsIn s (execSsHeaderDownstream u h crcOk s) := by
  unfold execSsHeaderDownstream
  dsimp only
  have due := dueTick_keeps (fresh_refl s)
  exact .ite (.next due) (.next (.when (fun k => routeDown_keeps (hostSeen_keeps k)) (linkIn_keeps due)))

theorem execSsHeaderUpstream_keeps (d : DS) (h : SsHeader) (crcOk : Bool) (s : State) : KeepsIn s (execSsHeaderUpstream d h crcOk s) := by
  unfold execSsHeaderUpstream
  dsimp only
  have due := dueTick_keeps (fresh_refl s)
  exact .ite (.next due) (.next (.when routeUp_keeps (linkIn_keeps due)))

theorem execDppReceived_keeps (p : Port) (data : List Byte) (crcOk : Bool) (s : State) : KeepsIn s (execDppReceived p data crcOk s) := by
  unfold execDppReceived
  dsimp only
  have due := dueTick_keeps (fresh_refl s)
  split
  · exact .next due
  · split
    · exact .next (linkRested_keeps (modLink_keeps due))
    · exact .next (linkRested_keeps (storeData_keeps (modLink_keeps due)))
    · split
      · exact .next (linkRested_keeps (settle_keeps (sendData_keeps (by
            split
            · exact availGo_keeps (.unless countDiscard_keeps (modLink_keeps due))
            · exact .unless countDiscard_keeps (modLink_keeps due)))))
      · exact .next (linkRested_keeps (settle_keeps (popHead_keeps (sendData_keeps (tagHead_keeps (modEpq_keeps (by
            split
            · exact availGo_keeps (.unless countDiscard_keeps (modLink_keeps due))
            · exact .unless countDiscard_keeps (modLink_keeps due))))))))

theorem execEgressSelect_keeps (p : Port) (prio : Nat) (s : State) : KeepsIn s (execEgressSelect p prio s) := by
  unfold execEgressSelect
  dsimp only
  have due := dueTick_keeps (fresh_refl s)
  generalize dueTick (fresh s) = x at due ⊢
  have rested := linkRested_keeps (p := p) (settle_keeps (modLink_keeps (p := p) (f := fun l => { l with tx := none }) due))
  generalize linkRested p _ = y at rested ⊢
  refine .ite (.next due) (.ite (.next (modLink_keeps rested)) (.next ?_))
  have flushed := flushHdr_keeps (p := p) (x1 := 64) (flushItp_keeps (p := p) rested)
  split
  · next u e => exact sendLoose_some e flushed
  · exact serveQueue_keeps flushed

theorem execFunctionWake_keeps (d : DS) (h : SsHeader) (s : State) : KeepsIn s (execFunctionWake d h s) := by
  unfold execFunctionWake
  dsimp only
  have due := dueTick_keeps (fresh_refl s)
  exact .ite (.next due) (by
      split
      · exact .next (discardHeader_keeps due)
      · exact .next (.ite (sendHeader_keeps (chargeTp_keeps due)) (discardHeader_keeps due)))

theorem execHsPacketRepeat_keeps (f : HsSrc) (k : UsbPkt) (s : State) : KeepsIn s (execHsPacketRepeat f k s) := by
  unfold execHsPacketRepeat
  dsimp only
  have start := fresh_refl s
  split
  · exact .ite (.next start) (.next (.foldl (fun _ _ k => .ite (by
        split
        · exact .unless meterHs_keeps (downPacket_keeps k)
        · exact modU2d_keeps (endTransaction_keeps (downPacket_keeps k))
        · exact downPacket_keeps k) k) (by
        split
        · exact hostSof_keeps (hostSeen_keeps start)
        · exact hostSeen_keeps start) _))
  · exact .ite (.next start) (by
        split
        · exact .next start
        · exact .ite (.next start) (by
              split
              · exact .next (meterHs_keeps (emit_keeps (modU2d_keeps start)))
              · exact .next (modU2d_keeps (endTransaction_keeps (emit_keeps start)))
              · exact .next (emit_keeps start)))

theorem execCsplitNonPeriodic_keeps (u : US) (v : Fin 15) (addr ep : Nat) (dirIn : Bool) (s : State) :
    KeepsIn s (execCsplitNonPeriodic u v addr ep dirIn s) := by
  unfold execCsplitNonPeriodic
  dsimp only
  have start := fresh_refl s
  split
  · exact .next start
  · split
    · exact .next (chargeSplit_keeps (hostSeen_keeps start))
    · split
      · exact .ite (.next (emit_keeps (chargeSplit_keeps (hostSeen_keeps start)))) (.next (emit_keeps (modTt_keeps (.unless mirrorTt_keeps
          (chargeSplit_keeps (hostSeen_keeps start))))))
      · exact .next (chargeSplit_keeps (hostSeen_keeps start))
      · exact .next (emit_keeps (chargeSplit_keeps (hostSeen_keeps start)))

theorem execTtTransactionEnd_keeps (d : DS) (r : Option UsbResp) (s : State) : KeepsIn s (execTtTransactionEnd d r s) := by
  unfold execTtTransactionEnd
  dsimp only
  have start := fresh_refl s
  generalize fresh s = x at start ⊢
  split
  · exact .next start
  · split
    · exact .next start
    · refine .ite (.next (settle_keeps (modTt_keeps start))) ?_
      split
      · exact .next (.ite (captureTt_keeps (settle_keeps (modTt_keeps (spillResult_keeps (meterTt_keeps (ttShadow_keeps (availGo_keeps start)))))))
          (settle_keeps (modTt_keeps (spillResult_keeps (meterTt_keeps (ttShadow_keeps (availGo_keeps start)))))))
      · exact .next (.ite (modTt_keeps start) (modTt_keeps start))

theorem execCsplitPeriodic_keeps (u : US) (v : Fin 15) (addr ep : Nat) (dirIn : Bool) (s : State) :
    KeepsIn s (execCsplitPeriodic u v addr ep dirIn s) := by
  unfold execCsplitPeriodic
  dsimp only
  have start := fresh_refl s
  split
  · exact .next start
  · split
    · exact .next (emit_keeps (chargeSplit_keeps (hostSeen_keeps start)))
    · split
      · exact .next (emit_keeps (chargeSplit_keeps (hostSeen_keeps start)))
      · exact .ite (.next (chargeSplit_keeps (hostSeen_keeps start))) (.next (emit_keeps (modTt_keeps (.unless mirrorTt_keeps
          (chargeSplit_keeps (hostSeen_keeps start))))))

theorem execTtSlotResultExpiry_keeps (d : DS) (s : State) : KeepsIn s (execTtSlotResultExpiry d s) := by
  unfold execTtSlotResultExpiry
  dsimp only
  exact .next (settle_keeps (modTt_keeps (.foldl (fun _ _ k => by
      split
      · exact .ite (captureData_keeps k) k
      · exact k) (fresh_refl s) _)))

theorem execBabbleDetect_keeps (d : DS) (cutPacket : Bool) (s : State) : KeepsIn s (execBabbleDetect d cutPacket s) := by
  unfold execBabbleDetect
  dsimp only
  have start := fresh_refl s
  exact .ite (.next start) (.next (portEvent_keeps (settle_keeps (modTt_keeps (by
      split
      · exact emit_keeps (chgPort_keeps (modDs_keeps start))
      · exact chgPort_keeps (modDs_keeps start))))))

theorem execPortResetRequest_keeps (u : US) (v : Fin 15) (s : State) : KeepsIn s (execPortResetRequest u v s) := by
  unfold execPortResetRequest
  dsimp only
  have start := fresh_refl s
  exact .ite (.next start) (by
      split
      · exact .next (modSlot_keeps (hostSeen_keeps start))
      · split
        · exact .next (.ite (absorbReset_keeps (hostSeen_keeps start)) (startReset_keeps (hostSeen_keeps start)))
        · exact .next (startReset_keeps (hostSeen_keeps start)))

theorem execUpstreamUsb2Reset_keeps (u : US) (chirpAnswered : Bool) (s : State) : KeepsIn s (execUpstreamUsb2Reset u chirpAnswered s) := by
  unfold execUpstreamUsb2Reset
  dsimp only
  have start := fresh_refl s
  exact .ite (.next start) (.next (.ite (modUs_keeps (modHub_keeps (upstreamReset_keeps (.foldl (fun _ _ k => .ite (modDs_keeps k) k) start
    _)))) (usb2Up_keeps (modUs_keeps (modHub_keeps (upstreamReset_keeps (.foldl (fun _ _ k => .ite (modDs_keeps k) k) start _)))))))

theorem execSsHotReset_keeps (u : US) (v : Fin 15) (s : State) : KeepsIn s (execSsHotReset u v s) := by
  unfold execSsHotReset
  exact .next (ssReset_keeps (fresh_refl s))

theorem execSsWarmReset_keeps (u : US) (v : Fin 15) (s : State) : KeepsIn s (execSsWarmReset u v s) := by
  unfold execSsWarmReset
  exact .next (ssReset_keeps (fresh_refl s))

theorem execSsResetComplete_keeps (d : DS) (reached : Bool) (s : State) : KeepsIn s (execSsResetComplete d reached s) := by
  unfold execSsResetComplete
  dsimp only
  have start := fresh_refl s
  split
  · exact .next start
  · exact .ite (.next (.fork deviceArrived_keeps presentConn_keeps (chgPort_keeps (.when chgPort_keeps (modLink_keeps (modDs_keeps
      start)))))) (.ite (.next (modDs_keeps (advanceTo_keeps start))) (.next (detachData_keeps (advanceTo_keeps start))))

theorem execRefillTick_keeps (s : State) : KeepsIn s (execRefillTick s) := by
  unfold execRefillTick
  dsimp only
  have start := fresh_refl s
  exact .ite (.next start) (.next (gpioFlush_keeps (doTick_keeps start)))

theorem execEquinoxSwap_keeps (s : State) : KeepsIn s (execEquinoxSwap s) := by
  unfold execEquinoxSwap
  dsimp only
  have start := fresh_refl s
  split
  · exact .next (.ite (equinoxSwap_keeps (advanceTo_keeps start)) start)
  · exact .next start

theorem execHostAbsence_keeps (u : US) (c : AbsCause) (s : State) : KeepsIn s (execHostAbsence u c s) := by
  unfold execHostAbsence
  dsimp only
  have start := fresh_refl s
  split
  · exact .next (hostLost_keeps start)
  · exact .next (.ite (hostLost_keeps start) start)
  · exact .ite (.next start) (.next (hostLost_keeps (advanceTo_keeps start)))

theorem execKeptPortSuspend_keeps (u : US) (s : State) : KeepsIn s (execKeptPortSuspend u s) := by
  unfold execKeptPortSuspend
  dsimp only
  have start := fresh_refl s
  exact .ite (.next start) (.next (modeSync_keeps (.foldl (fun _ _ k => .ite (modDs_keeps (modU2d_keeps k)) k) (modU2u_keeps start) _)))

theorem execProxyPoll_keeps (c : Fin 96) (ep : Nat) (r : PollResp) (s : State) : KeepsIn s (execProxyPoll c ep r s) := by
  unfold execProxyPoll
  dsimp only
  have start := fresh_refl s
  split
  · exact .next start
  · split
    · exact .next start
    · exact .ite (.next start) (.next (pollResult_keeps (availGo_keeps (modEp_keeps (emit_keeps (pollServed_keeps (advanceTo_keeps
        start)))))))

theorem execHubSetConfiguration_keeps (u : US) (ss : Bool) (addr value : Nat) (s : State) :
    KeepsIn s (execHubSetConfiguration u ss addr value s) := by
  unfold execHubSetConfiguration
  dsimp only
  have start := fresh_refl s
  exact .ite (.next start) (.ite (.next (modHub_keeps (modHub_keeps (hostSeen_keeps (holdDue_keeps start))))) (by
      split
      · exact .next (hubPresence_keeps (modHub_keeps (modHub_keeps (hostSeen_keeps (holdDue_keeps start)))))
      · exact .next (hubPresence_keeps (modHub_keeps (modHub_keeps (hostSeen_keeps (holdDue_keeps start)))))
      · exact .next (presentWaiting_keeps (hubTo_keeps (modFo_keeps (modHub_keeps (modHub_keeps (hostSeen_keeps (holdDue_keeps start)))))))))

theorem execDeviceControlRequest_keeps (u : US) (d : DS) (hubPort : Nat) (ss : Bool) (addr : Nat) (q : Setup) (data : List Byte) (fin : CtlEnd) (eps : List EpDesc) (s : State) :
    KeepsIn s (execDeviceControlRequest u d hubPort ss addr q data fin eps s) := by
  unfold execDeviceControlRequest
  dsimp only
  refine .ite (.next (fresh_refl s)) ?_
  have seen := hostSeen_keeps (u := u) (fresh_refl s)
  generalize hostSeen u (fresh s) = x at seen ⊢
  split
  · exact .next (.ite seen (forwardReq_keeps seen))
  · refine .ite (.next seen) (.ite (.next seen) (.ite (.next (.fst_ite (hubRequest_keeps seen) seen)) (.ite ?_ (.next (forwardReq_keeps seen)))))
    split
    · exact .next (.same (t := x) rfl rfl rfl rfl rfl seen)
    · split
      · exact .next (.ite (endEpisode_keeps (retranslate_keeps (modCtx_keeps (emit_keeps seen)))) (retranslate_keeps (modCtx_keeps (emit_keeps seen))))
      · exact .next (forwardReq_keeps seen)

theorem execHoldExpiry_keeps (u : US) (b : BootIn) (s : State) : KeepsIn s (execHoldExpiry u b s) := by
  unfold execHoldExpiry
  dsimp only
  have start := fresh_refl s
  exact .ite (.next start) (by
      split
      · exact .next (raiseWake_keeps start)
      · exact .next start
      · exact .next start
      · exact .next start
      · exact .ite (.next (suspendWake_keeps start)) (.next (.ite (holdExpiry_keeps (suspendWake_keeps start)) start)))

theorem execFailoverPortStart_keeps (u : US) (s : State) : KeepsIn s (execFailoverPortStart u s) := by
  unfold execFailoverPortStart
  dsimp only
  have start := fresh_refl s
  split
  · exact .ite (.next (backNext_keeps (modFo_keeps (advanceTo_keeps start)))) (.next start)
  · split
    · exact .next start
    · exact .ite (.next (.ite (startFailover_keeps start) start)) (.next (foNext_keeps (advanceTo_keeps (.ite (startFailover_keeps start)
        start))))

theorem execFailbackDeferTimeout_keeps (d : DS) (s : State) : KeepsIn s (execFailbackDeferTimeout d s) := by
  unfold execFailbackDeferTimeout
  dsimp only
  have start := fresh_refl s
  split
  · exact .next start
  · split
    · exact .next start
    · split
      · exact .next start
      · exact .ite (.next (advanceTo_keeps start)) (.next (backNext_keeps (modFo_keeps (advanceTo_keeps start))))

theorem execMoveOldOwnerDisconnect_keeps (d : DS) (s : State) : KeepsIn s (execMoveOldOwnerDisconnect d s) := by
  unfold execMoveOldOwnerDisconnect
  exact .next (moveOldOwner_keeps (fresh_refl s))

theorem execMoveDrainComplete_keeps (d : DS) (s : State) : KeepsIn s (execMoveDrainComplete d s) := by
  unfold execMoveDrainComplete
  dsimp only
  exact .next (failoverMoved_keeps (moveDrained_keeps (fresh_refl s)))

theorem execHubReconnect_keeps (u : US) (s : State) : KeepsIn s (execHubReconnect u s) := by
  unfold execHubReconnect
  exact .next (hubReconnect_keeps (fresh_refl s))

theorem execSetPortPower_keeps (u : US) (ss : Bool) (v : Fin 15) (s : State) : KeepsIn s (execSetPortPower u ss v s) := by
  unfold execSetPortPower
  dsimp only
  have start := fresh_refl s
  exact .ite (.next start) (.next (by
      split
      · exact repower_keeps (modSlot_keeps start)
      · exact modSlot_keeps start))

theorem execClearPortPower_keeps (u : US) (ss : Bool) (v : Fin 15) (s : State) : KeepsIn s (execClearPortPower u ss v s) := by
  unfold execClearPortPower
  dsimp only
  have start := fresh_refl s
  exact .ite (.next start) (.next (by
      split
      · exact portOff_keeps (modDs_keeps (modSlot_keeps start))
      · exact modSlot_keeps start))

theorem execCompanionUpstreamSuspend_keeps (u : US) (s : State) : KeepsIn s (execCompanionUpstreamSuspend u s) := by
  unfold execCompanionUpstreamSuspend
  dsimp only
  have start := fresh_refl s
  exact .ite (.next start) (.next (hubPresence_keeps (.foldl (fun _ _ k => .ite (modDs_keeps k) k) (modUs_keeps start) _)))

theorem execSsUpstreamU3_keeps (u : US) (s : State) : KeepsIn s (execSsUpstreamU3 u s) := by
  unfold execSsUpstreamU3
  dsimp only
  have start := fresh_refl s
  exact .ite (.next start) (.next (enterU3_keeps (modUs_keeps start)))

theorem execHostResumeK_keeps (u : US) (ns : Nat) (s : State) : KeepsIn s (execHostResumeK u ns s) := by
  unfold execHostResumeK
  dsimp only
  have start := fresh_refl s
  exact .ite (.next start) (.next (hubPresence_keeps (.foldl (fun _ _ k => .ite (modDs_keeps k) k) (modUs_keeps (hostResumeWake_keeps
    start)) _)))

theorem execHostU3Exit_keeps (u : US) (s : State) : KeepsIn s (execHostU3Exit u s) := by
  unfold execHostU3Exit
  dsimp only
  have start := fresh_refl s
  exact .ite (.next start) (.next (presentWaiting_keeps (hubPresence_keeps (.foldl (fun _ _ k => .ite (modDs_keeps k) (.ite (modDs_keeps k)
    k)) (modUs_keeps (hostResumeWake_keeps start)) _))))

theorem execDeviceRemoteWake_keeps (d : DS) (ss : Bool) (ns : Nat) (s : State) : KeepsIn s (execDeviceRemoteWake d ss ns s) := by
  unfold execDeviceRemoteWake
  dsimp only
  have start := fresh_refl s
  exact .ite (.next start) (.ite (.next start) (by
      split
      · exact .next (modDs_keeps (suspendWake_keeps start))
      · exact .ite (.next (modDs_keeps (suspendWake_keeps start))) (.ite (.next (modDs_keeps (modDs_keeps (suspendWake_keeps start))))
          (.next (modDs_keeps (modDs_keeps (suspendWake_keeps start)))))))

theorem execHubEventRemoteWake_keeps (d : DS) (ss : Bool) (ev : WakeEvent) (s : State) : KeepsIn s (execHubEventRemoteWake d ss ev s) := by
  unfold execHubEventRemoteWake
  dsimp only
  have start := fresh_refl s
  split
  · exact .next start
  · exact .ite (.next start) (.next (modUs_keeps (emit_keeps (suspendWake_keeps start))))

theorem execUsb2Connect_keeps (d : DS) (low : Bool) (ns : Nat) (s : State) : KeepsIn s (execUsb2Connect d low ns s) := by
  unfold execUsb2Connect
  dsimp only
  have start := fresh_refl s
  exact .ite (.next start) (.next (.ite (modDs_keeps (modDs_keeps start)) (presentConn_keeps (modDs_keeps start))))

theorem execSsLinkUp_keeps (d : DS) (gen2 : Bool) (s : State) : KeepsIn s (execSsLinkUp d gen2 s) := by
  unfold execSsLinkUp
  dsimp only
  have start := fresh_refl s
  exact .ite (.next (flushHdr_keeps (resend_keeps (modDs_keeps start)))) (.ite (.next start) (.next (.fork modDs_keeps presentConn_keeps
    (modLink_keeps (modDs_keeps start)))))

theorem execIdentityProbe_keeps (d : DS) (id : DevId) (s : State) : KeepsIn s (execIdentityProbe d id s) := by
  unfold execIdentityProbe
  dsimp only
  have start := fresh_refl s
  exact .ite (.next start) (.next (.when presentConn_keeps (.when presentConn_keeps (modDs_keeps (putSeen_keeps (modDs_keeps
    (applyRules_keeps start)))))))

theorem execUsb2Disconnect_keeps (d : DS) (ns : Nat) (s : State) : KeepsIn s (execUsb2Disconnect d ns s) := by
  unfold execUsb2Disconnect
  dsimp only
  have start := fresh_refl s
  exact .ite (.next start) (.next (detachData_keeps start))

theorem execSsDisconnect_keeps (d : DS) (noTerm : Bool) (s : State) : KeepsIn s (execSsDisconnect d noTerm s) := by
  unfold execSsDisconnect
  dsimp only
  have start := fresh_refl s
  exact .ite (.next start) (.ite (.next (detachData_keeps start)) (.next (chgPort_keeps (dropStored_keeps (modDs_keeps start)))))

theorem execCcPatternChange_keeps (p : Port) (pattern : CcPattern) (flip : Bool) (s : State) :
    KeepsIn s (execCcPatternChange p pattern flip s) := by
  have marked : Keeps s (modTc p (fun t => if t.st == .attached then { t with pattern := pattern }
      else markPattern pattern flip t (fresh s).now) (fresh s)) :=
    modTc_keeps (fresh_refl s) (fun x ok => by split <;> exact ok)
  unfold execCcPatternChange
  dsimp only
  generalize modTc p _ (fresh s) = x at marked ⊢
  have shed : Keeps s (if pattern == .opn then modPwr p (fun x => { x with shed := false }) x else x) := .ite (modPwr_keeps marked) marked
  refine .ite (.next marked) ?_
  split
  · exact .ite (.next shed) (.next (suspendWake_keeps (.ite (dsSees_keeps shed) (usSees_keeps shed))))
  · exact .next shed
  · exact .next shed
  · exact .next shed
  · exact .next shed
  · exact .next shed
  · exact .next (suspendWake_keeps (modTc_keeps shed (fun _ ok => ok)))

theorem execCcAttachDebounce_keeps (p : Port) (vbs : Nat) (wet : Option (Fin 4 × Nat)) (s : State) :
    KeepsIn s (execCcAttachDebounce p vbs wet s) := by
  unfold execCcAttachDebounce
  dsimp only
  have start := fresh_refl s
  exact .ite (.next start) (.ite (.next (.unless (fun k => modTc_keeps k (fun _ r => r)) (modPwr_keeps (advanceTo_keeps start)))) (by
      split
      · exact .ite (.ite (.next (modGuard_keeps (becomeWet_keeps (modPwr_keeps (advanceTo_keeps start))))) (.next (attachSrc_keeps
          (becomeWet_keeps (modPwr_keeps (advanceTo_keeps start)))))) (.next (attachSrc_keeps (modPwr_keeps (advanceTo_keeps start))))
      · exact .next (attachSrc_keeps (modPwr_keeps (advanceTo_keeps start)))))

theorem execCcDetachDebounce_keeps (p : Port) (s : State) : KeepsIn s (execCcDetachDebounce p s) := by
  unfold execCcDetachDebounce
  dsimp only
  have start := fresh_refl s
  split
  · exact .next start
  · exact .ite (.next start) (by
        split
        · exact .next (toUnattached_keeps (advanceTo_keeps start))
        · exact .next (toUnattached_keeps (advanceTo_keeps start))
        · exact .next (.when detachPort_keeps (advanceTo_keeps start))
        · exact .next (advanceTo_keeps start))

theorem execErrorRecoveryEnd_keeps (p : Port) (s : State) : KeepsIn s (execErrorRecoveryEnd p s) := by
  unfold execErrorRecoveryEnd
  dsimp only
  have start := fresh_refl s
  split
  · exact .next (.unless (fun k => .ite (dsSees_keeps k) (usSees_keeps k)) (toUnattached_keeps (advanceTo_keeps start)))
  · exact .next start

theorem execDrpToggle_keeps (u : US) (s : State) : KeepsIn s (execDrpToggle u s) := by
  unfold execDrpToggle
  dsimp only
  have start := fresh_refl s
  exact .ite (.next start) (.next (usSees_keeps (modTc_keeps (advanceTo_keeps start) (fun _ r => r))))

theorem execDrpAttachDebounce_keeps (u : US) (vbs : Nat) (s : State) : KeepsIn s (execDrpAttachDebounce u vbs s) := by
  have read : Keeps s (modPwr (usPort u) (fun x => { x with vbs := vbs }) (fresh s)) := modPwr_keeps (fresh_refl s)
  unfold execDrpAttachDebounce
  dsimp only
  generalize modPwr (usPort u) _ (fresh s) = x at read ⊢
  have tryAs (st : CcState) (way : st ≠ .attached) (t : State) (k : Keeps s t) : Keeps s (tryTo (usPort u) st t) := tryTo_keeps way k
  refine .ite (.next (fresh_refl s)) ?_
  split
  · have waited := advanceTo_keeps (n := (tcOf (fresh s) (usPort u)).since + 120000000) read
    exact .ite (.next (fresh_refl s)) (.next (.ite (.ite waited (modTc_keeps waited (fun _ ok => ok)))
      (.ite (tryAs .trySnk nofun _ waited) (.ite (attachSrc_keeps waited) waited))))
  · have waited := advanceTo_keeps (n := (tcOf (fresh s) (usPort u)).since + 120000000) read
    exact .ite (.next read) (.next (.ite (tryAs .trySrc nofun _ waited) (attachSnk_keeps waited)))
  · exact .next (tryStep_keeps read (fun _ k => attachSrc_keeps k) (tryAs .tryWaitSnk nofun))
  · exact .next (tryStep_keeps read (fun _ k => attachSnk_keeps k) (fun _ k => toUnattached_keeps k))
  · exact .next (tryStep_keeps read (fun _ k => attachSnk_keeps k) (tryAs .tryWaitSrc nofun))
  · exact .next (tryStep_keeps read (fun _ k => attachSrc_keeps k) (fun _ k => toUnattached_keeps k))
  · exact .next (fresh_refl s)

theorem execUsPartnerRpChange_keeps (u : US) (level : Fin 4) (s : State) : KeepsIn s (execUsPartnerRpChange u level s) := by
  unfold execUsPartnerRpChange
  dsimp only
  have start := fresh_refl s
  exact .next (.ite (modTc_keeps start (fun _ r => r)) start)

theorem execUsSinkVbusLoss_keeps (u : US) (s : State) : KeepsIn s (execUsSinkVbusLoss u s) := by
  unfold execUsSinkVbusLoss
  dsimp only
  have start := fresh_refl s
  exact .ite (.next start) (.ite (.next (modPwr_keeps start)) (.next (detachPort_keeps start)))

theorem execHardwareDetachGuard_keeps (p : Port) (s : State) : KeepsIn s (execHardwareDetachGuard p s) := by
  unfold execHardwareDetachGuard
  dsimp only
  have start := fresh_refl s
  split
  · exact .next start
  · exact .ite (.next start) (.next (modTc_keeps (pscLow_keeps (advanceTo_keeps start)) (fun _ r => r)))

theorem execFastRemoval_keeps (p : Port) (vbs : Nat) (s : State) : KeepsIn s (execFastRemoval p vbs s) := by
  unfold execFastRemoval
  dsimp only
  have start := fresh_refl s
  split
  · exact .next start
  · exact .ite (.next start) (.next (portEvent_keeps (.fork (fun k => modTc_keeps (pscLow_keeps k) (fun _ r => r)) (fun k => modTc_keeps
      (modPwr_keeps (modPhy_keeps (detachPort_keeps (notice_keeps k)))) (fun _ r => r)) (modPwr_keeps (modTc_keeps start (fun _ r => r))))))

theorem execVconnStable_keeps (p : Port) (s : State) : KeepsIn s (execVconnStable p s) := by
  unfold execVconnStable
  dsimp only
  have start := fresh_refl s
  split
  · exact .next start
  · exact .ite (.next start) (.next (.unless discoverIdentity_keeps (modTc_keeps (advanceTo_keeps start) (fun _ r => r))))

theorem execDiscoverIdentityRetry_keeps (p : Port) (s : State) : KeepsIn s (execDiscoverIdentityRetry p s) := by
  unfold execDiscoverIdentityRetry
  dsimp only
  have start := fresh_refl s
  split
  · exact .next start
  · exact .ite (.next start) (.next (.ite (discoveryEnds_keeps (advanceTo_keeps start)) (discoverIdentity_keeps (advanceTo_keeps start))))

theorem execDiscoveryCutoff_keeps (p : Port) (s : State) : KeepsIn s (execDiscoveryCutoff p s) := by
  unfold execDiscoveryCutoff
  dsimp only
  have start := fresh_refl s
  split
  · exact .next start
  · exact .ite (.next start) (.next (discoveryEnds_keeps (advanceTo_keeps start)))

theorem execPdMessageReceived_keeps (p : Port) (sop : Fin 5) (header : BitVec 16) (data : List Byte) (crcOk : Bool) (s : State) :
    KeepsIn s (execPdMessageReceived p sop header data crcOk s) := by
  unfold execPdMessageReceived
  dsimp only
  have start := fresh_refl s
  exact .ite (.next start) (.ite (.next (modPhy_keeps (discardTx_keeps (modPhy_keeps (suspendWake_keeps start))))) (.ite (.next (emit_keeps
    (discardTx_keeps (modPhy_keeps (suspendWake_keeps start))))) (.next (deliverRx_keeps (restartTimers_keeps (modPhy_keeps (emit_keeps
    (discardTx_keeps (modPhy_keeps (suspendWake_keeps start))))))))))

theorem execPdTxGoodcrcTimeout_keeps (p : Port) (s : State) : KeepsIn s (execPdTxGoodcrcTimeout p s) := by
  unfold execPdTxGoodcrcTimeout
  dsimp only
  have start := fresh_refl s
  split
  · exact .next start
  · exact .ite (.next start) (.ite (.next (startTx_keeps (advanceTo_keeps start))) (.next (txLost_keeps (notice_keeps (modPhy_keeps
      (advanceTo_keeps start))))))

theorem execPdTxDone_keeps (p : Port) (s : State) : KeepsIn s (execPdTxDone p s) := by
  unfold execPdTxDone
  dsimp only
  have start := fresh_refl s
  split
  · exact .next start
  · exact .ite (.next start) (.next (txSent_keeps (notice_keeps (modPhy_keeps start))))

theorem execThymeNotice_keeps (p : Port) (s : State) : KeepsIn s (execThymeNotice p s) := by
  unfold execThymeNotice
  dsimp only
  have start := fresh_refl s
  exact .ite (.next start) (by
      split
      · exact .next start
      · split
        · split
          · exact .next (deliverRx_keeps (modPhy_keeps start))
          · exact .ite (.next (sendHardReset_keeps (deliverRx_keeps (modPhy_keeps (modPhy_keeps start))))) (.ite (.next (.when modPhy_keeps
              (gatherCaps_keeps (deliverRx_keeps (modPhy_keeps (modPhy_keeps start)))))) (.ite (.next (modPhy_keeps (deliverRx_keeps
              (modPhy_keeps (modPhy_keeps start))))) (.next (thymeReply_keeps (deliverRx_keeps (modPhy_keeps (modPhy_keeps start)))))))
        · exact .next (deliverRx_keeps (hardReset_keeps (modPhy_keeps start)))
        · exact .next (deliverRx_keeps (cableReset_keeps (modPhy_keeps start)))
        · exact .next (deliverRx_keeps (modPhy_keeps start)))

theorem execHardResetReceived_keeps (p : Port) (s : State) : KeepsIn s (execHardResetReceived p s) := by
  unfold execHardResetReceived
  dsimp only
  have start := fresh_refl s
  exact .ite (.next start) (.next (.fork (fun k => notice_keeps (flushPd_keeps k)) hardReset_keeps (modPhy_keeps (suspendWake_keeps
    start))))

theorem execHardResetSent_keeps (p : Port) (s : State) : KeepsIn s (execHardResetSent p s) := by
  unfold execHardResetSent
  dsimp only
  have start := fresh_refl s
  exact .next (.ite (sendHardReset_keeps start) start)

theorem execThymeActivation_keeps (t : Fin 6) (s : State) : KeepsIn s (execThymeActivation t s) := by
  unfold execThymeActivation
  dsimp only
  have start := fresh_refl s
  split
  · exact .next start
  · exact .ite (.next start) (.next (.when finalCpl_keeps (.parts id (fun k => k) id id id start)))

theorem execPdRequest_keeps (p : Port) (s : State) : KeepsIn s (execPdRequest p s) := by
  unfold execPdRequest
  dsimp only
  exact .next (takeHand_keeps (fresh_refl s) (fun _ _ k => .ite (softReset_keeps (modPhy_keeps k)) (.ite (rejectRequest_keeps (modPhy_keeps
    k)) (judgeRequest_keeps (modPhy_keeps k)))))

theorem execReductionResponseTimeout_keeps (p : Port) (s : State) : KeepsIn s (execReductionResponseTimeout p s) := by
  unfold execReductionResponseTimeout
  dsimp only
  have start := fresh_refl s
  split
  · exact .ite (.next start) (.next (sendHardReset_keeps (advanceTo_keeps start)))
  · exact .next start

theorem execSinkCapabilitiesReceived_keeps (p : Port) (s : State) : KeepsIn s (execSinkCapabilitiesReceived p s) := by
  unfold execSinkCapabilitiesReceived
  dsimp only
  exact .next (takeHand_keeps (fresh_refl s) (fun _ _ k => .fork (fun k1 => runAlloc_keeps (modPwr_keeps k1)) armFrs_keeps (modTc_keeps
    (modPhy_keeps k) (fun _ r => r))))

theorem execEprModeEnter_keeps (p : Port) (s : State) : KeepsIn s (execEprModeEnter p s) := by
  unfold execEprModeEnter
  dsimp only
  exact .next (takeHand_keeps (fresh_refl s) (fun _ _ k => .unless (fun k1 => .ite k1 (.ite k1 (capsAt_keeps (contractEvent_keeps
    (modPwr_keeps (eprMode_keeps k1)))))) (eprMode_keeps k)))

theorem execEprModeExit_keeps (p : Port) (s : State) : KeepsIn s (execEprModeExit p s) := by
  unfold execEprModeExit
  exact .next (takeHand_keeps (fresh_refl s) (fun _ _ k => .ite (capsAt_keeps (eprEnd_keeps k)) k))

theorem execPpsTimeout_keeps (p : Port) (s : State) : KeepsIn s (execPpsTimeout p s) := by
  unfold execPpsTimeout
  dsimp only
  have start := fresh_refl s
  exact .ite (.next start) (.next (sendHardReset_keeps (advanceTo_keeps start)))

theorem execEprKeepaliveTimeout_keeps (p : Port) (s : State) : KeepsIn s (execEprKeepaliveTimeout p s) := by
  unfold execEprKeepaliveTimeout
  dsimp only
  have start := fresh_refl s
  exact .ite (.next start) (.next (sendHardReset_keeps (advanceTo_keeps start)))

theorem execPrSwapReceived_keeps (p : Port) (s : State) : KeepsIn s (execPrSwapReceived p s) := by
  unfold execPrSwapReceived
  exact .next (takeHand_keeps (fresh_refl s) (fun _ _ k => by
      split
      · exact pdCtl_keeps k
      · exact meetSwap_keeps k (fun _ k => .ite (acceptSwap_keeps k) (pdCtl_keeps k))))

theorem execDrSwapReceived_keeps (p : Port) (s : State) : KeepsIn s (execDrSwapReceived p s) := by
  unfold execDrSwapReceived
  exact .next (takeHand_keeps (fresh_refl s) (fun _ _ k => by
      split
      · exact pdCtl_keeps k
      · exact meetSwap_keeps k (fun _ k => .ite (acceptSwap_keeps k) (pdCtl_keeps k))))

theorem execVconnSwapReceived_keeps (p : Port) (s : State) : KeepsIn s (execVconnSwapReceived p s) := by
  unfold execVconnSwapReceived
  exact .next (takeHand_keeps (fresh_refl s) (fun _ _ k => by
      split
      · exact pdCtl_keeps k
      · exact meetSwap_keeps k (fun _ k => acceptSwap_keeps k)))

theorem execSwapResponseReceived_keeps (u : US) (s : State) : KeepsIn s (execSwapResponseReceived u s) := by
  unfold execSwapResponseReceived
  dsimp only
  exact .next (takeHand_keeps (fresh_refl s) (fun _ _ k => by
      split
      · exact k
      · exact .ite (swapAccepted_keeps (modPhy_keeps k)) (.ite (swapOver_keeps (modPhy_keeps k)) (.ite (swapOver_keeps (modPhy_keeps k))
          (.ite (swapOver_keeps (modPhy_keeps k)) (modTc_keeps (modPwr_keeps (modPhy_keeps k)) (fun _ r => r)))))))

theorem execSwapWaitRetry_keeps (u : US) (jitter : Fin 51) (s : State) : KeepsIn s (execSwapWaitRetry u jitter s) := by
  unfold execSwapWaitRetry
  dsimp only
  have start := fresh_refl s
  split
  · exact .ite (.next start) (.next (sendSwap_keeps (swapPhase_keeps (advanceTo_keeps start))))
  · exact .next start

theorem execPrSwapSequence_keeps (u : US) (s : State) : KeepsIn s (execPrSwapSequence u s) := by
  unfold execPrSwapSequence
  dsimp only
  have start := fresh_refl s
  split
  · exact .ite (.next start) (.next (swapOver_keeps (.ite (pdCtl_keeps (becomeSink_keeps (resetPd_keeps start))) (pdCtl_keeps
      (becomeSource_keeps (advanceTo_keeps (resetPd_keeps start)))))))
  · exact .next start

theorem execDataRoleSwapRequest_keeps (u : US) (s : State) : KeepsIn s (execDataRoleSwapRequest u s) := by
  unfold execDataRoleSwapRequest
  dsimp only
  have start := fresh_refl s
  exact .ite (.next start) (.next (sendSwap_keeps (modPwr_keeps start)))

theorem execFrsSignal_keeps (u : US) (s : State) : KeepsIn s (execFrsSignal u s) := by
  unfold execFrsSignal
  dsimp only
  have start := fresh_refl s
  exact .ite (.next start) (.next (emit_keeps (modPwr_keeps (swapFail_keeps (notice_keeps start)))))

theorem execFrSwapReceived_keeps (u : US) (s : State) : KeepsIn s (execFrSwapReceived u s) := by
  unfold execFrSwapReceived
  dsimp only
  exact .next (takeHand_keeps (fresh_refl s) (fun _ _ k => .ite (notSupported_keeps k) (pdCtl_keeps (becomeSource_keeps (resetPd_keeps
    (modPwr_keeps (pdCtl_keeps k)))))))

theorem execFrSwapInitTimeout_keeps (u : US) (s : State) : KeepsIn s (execFrSwapInitTimeout u s) := by
  unfold execFrSwapInitTimeout
  dsimp only
  have start := fresh_refl s
  split
  · exact .next start
  · exact .next (.when detachPort_keeps (modPwr_keeps (sendHardReset_keeps (advanceTo_keeps start))))

theorem execAdcConversion_keeps (volts : List Nat) (s : State) : KeepsIn s (execAdcConversion volts s) := by
  unfold execAdcConversion
  dsimp only
  have at_ := advanceTo_keeps (n := (fresh s).lane.adcAt + 1000) (fresh_refl s)
  generalize advanceTo _ (fresh s) = x at at_ ⊢
  refine .ite ?_ ?_
  · split
    · exact .next at_
    · exact .next (.ite at_.withLane (vbsSample_keeps at_.withLane))
  · split
    · exact .next (.ite at_.withLane (vbsSample_keeps at_.withLane))
    · exact .next at_.withLane

theorem execTransitionTimeout_keeps (p : Port) (s : State) : KeepsIn s (execTransitionTimeout p s) := by
  unfold execTransitionTimeout
  dsimp only
  have start := fresh_refl s
  split
  · exact .next start
  · exact .ite (.next start) (.next (fault_keeps (.unless sendHardReset_keeps (advanceTo_keeps start))))

end

end Sys2Proof.Machine
end

section
/-! SUPPORT. Commands that change a part of which the invariants speak keep them: power contracts, guard, lane I/O, modes and the
commands of Martar. -/

set_option Elab.async false

namespace Sys2Proof.Machine

section
variable {s : State}

theorem execVbusOvpTrip_keeps (p : Port) (s : State) : KeepsIn s (execVbusOvpTrip p s) := by
  unfold execVbusOvpTrip
  exact .next (fault_keeps (pscLow_keeps (fresh_refl s)))

theorem execVbusUvpTrip_keeps (p : Port) (s : State) : KeepsIn s (execVbusUvpTrip p s) := by
  unfold execVbusUvpTrip
  dsimp only
  have start := fresh_refl s
  exact .next (.ite start (ocShutdown_keeps start))

theorem execPsfRise_keeps (p : Port) (status : Byte) (s : State) : KeepsIn s (execPsfRise p status s) := by
  unfold execPsfRise
  dsimp only
  have start := fresh_refl s
  exact .next (.when (fun k => psfActs_keeps (suspendWake_keeps k)) (modPwr_keeps start))

theorem execStageOcShutdown_keeps (p : Port) (s : State) : KeepsIn s (execStageOcShutdown p s) := by
  unfold execStageOcShutdown
  exact .next (ocShutdown_keeps (suspendWake_keeps (fresh_refl s)))

theorem execStageStatusPoll_keeps (p : Port) (status : BitVec 16) (tries : Nat) (s : State) :
    KeepsIn s (execStageStatusPoll p status tries s) := by
  unfold execStageStatusPoll
  dsimp only
  have start := fresh_refl s
  exact .ite (.next start) (.next (pslTry_keeps start (fun _ k => .when ocShutdown_keeps (modPwr_keeps k))))

theorem execStageVoutIoutPoll_keeps (p : Port) (vout iout tries : Nat) (s : State) :
    KeepsIn s (execStageVoutIoutPoll p vout iout tries s) := by
  unfold execStageVoutIoutPoll
  dsimp only
  have start := fresh_refl s
  exact .ite (.next start) (.next (pslTry_keeps start (fun _ k => modPwr_keeps k)))

theorem execStageTempPoll_keeps (p : Port) (temp : ℤ) (tries : Nat) (s : State) : KeepsIn s (execStageTempPoll p temp tries s) := by
  unfold execStageTempPoll
  dsimp only
  have start := fresh_refl s
  exact .ite (.next start) (.next (pslTry_keeps start (fun _ k => modPwr_keeps k)))

theorem execPsi2cBusStuck_keeps (s : State) : KeepsIn s (execPsi2cBusStuck s) := by
  unfold execPsi2cBusStuck
  exact .next (fault_keeps (fresh_refl s))

theorem execHardResetVbusOff_keeps (p : Port) (s : State) : KeepsIn s (execHardResetVbusOff p s) := by
  unfold execHardResetVbusOff
  dsimp only
  have start := fresh_refl s
  split
  · exact .next (modPwr_keeps (dataOff_keeps (pscLow_keeps (advanceTo_keeps start))))
  · exact .next start

theorem execHardResetRecover_keeps (p : Port) (s : State) : KeepsIn s (execHardResetRecover p s) := by
  unfold execHardResetRecover
  dsimp only
  have start := fresh_refl s
  split
  · exact .next (modPwr_keeps (pscHigh_keeps (modTc_keeps (advanceTo_keeps start) (fun _ r => r))))
  · exact .next start

theorem execGuardReading_keeps (p : Port) (first again : List Nat) (b : BootIn) (s : State) :
    KeepsIn s (execGuardReading p first again b s) := by
  unfold execGuardReading
  dsimp only
  have start := fresh_refl s
  generalize fresh s = x at start ⊢
  have cleared : Keeps s (if (guardOf x p).st = 0 then x else if asleep x then modGuard p (fun g => { g with st := 0, dry := 0 }) x
      else guardTo p 0 0 0 0xFFFF x) := .ite start (.ite (modGuard_keeps start) (guardTo_keeps start))
  have checked : Keeps s (modTc p (fun t => { t with preCheck := false }) x) := modTc_keeps start (fun _ ok => ok)
  generalize modTc p _ x = y at checked ⊢
  have kept (l : List (Nat × Nat × Nat)) (f : Nat × Nat × Nat → Nat) : Keeps s (l.foldl (fun s x =>
      keepReading p x.1 (f x) (if isWet x.2.1 then keepReading p x.1 x.2.1 s else s)) y) :=
    .foldl (fun _ _ k => keepReading_keeps (.ite (keepReading_keeps k) k)) checked l
  refine .ite (.next start) (.ite (.next (.ite (modGuard_keeps cleared) (guardFree_keeps cleared))) (.next ?_))
  have moved : ∀ (c : Prop) [Decidable c] (a : Option (Nat × Nat)) (b : Bool) (l : List (Nat × Nat × Nat)) (f : Nat × Nat × Nat → Nat),
      Keeps s (if c then guardFree p (guardMoves p a b (l.foldl (fun s x =>
        keepReading p x.1 (f x) (if isWet x.2.1 then keepReading p x.1 x.2.1 s else s)) y))
      else guardMoves p a b (l.foldl (fun s x => keepReading p x.1 (f x) (if isWet x.2.1 then keepReading p x.1 x.2.1 s else s)) y)) :=
    fun _ _ _ _ l f => .ite (guardFree_keeps (guardMoves_keeps (kept l f))) (guardMoves_keeps (kept l f))
  exact .ite (raiseWake_keeps (moved _ _ _ _ _)) (moved _ _ _ _ _)

theorem execDpVdmAck_keeps (d : DS) (s : State) : KeepsIn s (execDpVdmAck d s) := by
  unfold execDpVdmAck
  dsimp only
  exact .next (takeHand_keeps (fresh_refl s) (fun _ _ k => by
      split
      · exact k
      · exact .ite k (.ite (dpAck_keeps k) (dpStop_keeps k))))

theorem execDpVdmTimeout_keeps (d : DS) (s : State) : KeepsIn s (execDpVdmTimeout d s) := by
  unfold execDpVdmTimeout
  dsimp only
  have start := fresh_refl s
  split
  · exact .next start
  · exact .ite (.next start) (.next (dpStop_keeps (advanceTo_keeps start)))

theorem execDpExitMode_keeps (d : DS) (s : State) : KeepsIn s (execDpExitMode d s) := by
  unfold execDpExitMode
  dsimp only
  exact .next (takeHand_keeps (fresh_refl s) (fun _ _ k => by
      split
      · exact vdm_keeps k
      · exact .ite (dpLeaveOne_keeps (vdm_keeps k)) (vdm_keeps k)))

theorem execKickPulseEnd_keeps (i : Fin 2) (s : State) : KeepsIn s (execKickPulseEnd i s) := by
  unfold execKickPulseEnd
  dsimp only
  have start := fresh_refl s
  split
  · exact .next start
  · exact .next (kickEnds_keeps (advanceTo_keeps start))

theorem execDrawerReport_keeps (i : Fin 2) (s : State) : KeepsIn s (execDrawerReport i s) := by
  unfold execDrawerReport
  dsimp only
  have start := fresh_refl s
  split
  · exact .next start
  · exact .next (.unless laneIoEvent_keeps (modKick_keeps (advanceTo_keeps start)))

theorem execLioSenseChange_keeps (n : Fin 2) (level : Bool) (b : BootIn) (s : State) : KeepsIn s (execLioSenseChange n level b s) := by
  unfold execLioSenseChange
  dsimp only
  have start := fresh_refl s
  exact .ite (.next start) (.next (.when raiseWake_keeps (.unless laneIoEvent_keeps (modKick_keeps (.same rfl rfl rfl rfl rfl start)))))

theorem execGpioEdge_keeps (n : Fin 16) (rising : Bool) (s : State) : KeepsIn s (execGpioEdge n rising s) := by
  unfold execGpioEdge
  dsimp only
  have start := fresh_refl s
  split
  · exact .next start
  · exact .next start
  · exact .next start
  · exact .ite (.next start) (.ite (.next (.same rfl rfl rfl rfl rfl start)) (.next (.fork (fun k => .same rfl rfl rfl rfl rfl k)
      gpioEvent_keeps (.same rfl rfl rfl rfl rfl (.same rfl rfl rfl rfl rfl start)))))

theorem execFaultLatch_keeps (b : Block) (src : Fin 32) (unit : Nat) (persistent : Bool) (s : State) :
    KeepsIn s (execFaultLatch b src unit persistent s) := by
  unfold execFaultLatch
  dsimp only
  have start := fresh_refl s
  exact .next (.ite (detect_keeps start) start)

theorem execLevelFaultRepeat_keeps (b : Block) (src : Fin 32) (lasts : Bool) (s : State) :
    KeepsIn s (execLevelFaultRepeat b src lasts s) := by
  unfold execLevelFaultRepeat
  dsimp only
  have start := fresh_refl s
  split
  · exact .next start
  · exact .ite (.next (levelOver_keeps start)) (.next (raiseFault_keeps (advanceTo_keeps start)))

theorem execSageLockstepMismatch_keeps (s : State) : KeepsIn s (execSageLockstepMismatch s) := by
  unfold execSageLockstepMismatch
  exact .next (fatal_keeps (fresh_refl s))

theorem execSageWatchdog_keeps (ms : Nat) (s : State) : KeepsIn s (execSageWatchdog ms s) := by
  unfold execSageWatchdog
  dsimp only
  have start := fresh_refl s
  exact .next (.ite (fault_keeps start) start)

theorem execSageTaskLate_keeps (service : Nat) (s : State) : KeepsIn s (execSageTaskLate service s) := by
  unfold execSageTaskLate
  dsimp only
  have start := fresh_refl s
  exact .next (.ite (fault_keeps start) start)

theorem execChervilHang_keeps (c : Fin 8) (us : Nat) (s : State) : KeepsIn s (execChervilHang c us s) := by
  unfold execChervilHang
  dsimp only
  have start := fresh_refl s
  exact .next (.ite (fault_keeps start) start)

theorem execThymeHang_keeps (t : Fin 6) (us : Nat) (s : State) : KeepsIn s (execThymeHang t us s) := by
  unfold execThymeHang
  dsimp only
  have start := fresh_refl s
  exact .next (.ite (fault_keeps start) start)

theorem execFabArbStall_keeps (us : Nat) (s : State) : KeepsIn s (execFabArbStall us s) := by
  unfold execFabArbStall
  dsimp only
  have start := fresh_refl s
  exact .next (.ite (fault_keeps start) start)

theorem execTjSample_keeps (tenths : ℤ) (s : State) : KeepsIn s (execTjSample tenths s) := by
  unfold execTjSample
  dsimp only
  have start := fresh_refl s
  exact .next (.when fault_keeps (.when fault_keeps (.same rfl rfl rfl rfl rfl start)))

theorem execSafeEntry_keeps (dmcOk : Bool) (s : State) : KeepsIn s (execSafeEntry dmcOk s) := by
  unfold execSafeEntry
  dsimp only
  have start := fresh_refl s
  split
  · exact .next start
  · exact .next (.ite (safeEnter_keeps start) start)

theorem execSafeExit_keeps (b : BootIn) (s : State) : KeepsIn s (execSafeExit b s) := by
  unfold execSafeExit
  dsimp only
  have start := fresh_refl s
  split
  · exact .next start
  · exact .ite (.next start) (.ite (.next (bootWarm_keeps (setRec_keeps (advanceTo_keeps start)))) (.ite (.next (advanceTo_keeps start))
      (.next (faultEvent_keeps (setRec_keeps (advanceTo_keeps start))))))

theorem execQuietPeriodEnd_keeps (b : Block) (reads : List ReadBack) (s : State) : KeepsIn s (execQuietPeriodEnd b reads s) := by
  unfold execQuietPeriodEnd
  dsimp only
  have start := fresh_refl s
  split
  · exact .next start
  · exact .ite (.next start) (.next (quietEnds_keeps (advanceTo_keeps start)))

theorem execFltForceWrite_keeps (b : Block) (v : Word) (s : State) : KeepsIn s (execFltForceWrite b v s) := by
  unfold execFltForceWrite
  dsimp only
  have start := fresh_refl s
  exact .next (.ite (injectFaults_keeps start) start)

theorem execAvailabilityCheckpoint_keeps (s : State) : KeepsIn s (execAvailabilityCheckpoint s) := by
  unfold execAvailabilityCheckpoint
  exact .ite (.next (fresh_refl s)) (.next (.parts (t := fresh s) id id almWriteAll_ok id id (fresh_refl s)))

theorem execSpitFrame_keeps (setup : Nat) (instr : Byte) (addr : Word) (data : List Byte) (reads : Nat) (b : BootIn) (s : State) :
    KeepsIn s (execSpitFrame setup instr addr data reads b s) := by
  unfold execSpitFrame
  dsimp only
  have start := fresh_refl s
  exact .ite (.next start) (.ite (.next (frameError_keeps (.ite (suspendWake_keeps start) start))) (.ite (.next (emit_keeps (.when
    frameError_keeps (.parts (fun k => k) id id id id (.ite (suspendWake_keeps start) start))))) (.next (.fork spitWrite_keeps
    frameError_keeps (emit_keeps (.parts (fun k => k) id id id id (.ite (suspendWake_keeps start) start)))))))

theorem execRingTailWrite_keeps (r : Fin 16) (v : BitVec 16) (s : State) : KeepsIn s (execRingTailWrite r v s) := by
  exact .next (onMbx_keeps (fun _ k => tailReg_ok r _ k) (.refl s))

theorem execRingHeadWrite_keeps (r : Fin 16) (v : BitVec 16) (s : State) : KeepsIn s (execRingHeadWrite r v s) := by
  exact .next (onMbx_keeps (fun _ k => headReg_ok _ r _ k) (.refl s))

theorem execRingCtrlRun_keeps (r : Fin 16) (on : Bool) (s : State) : KeepsIn s (execRingCtrlRun r on s) := by
  exact .next (onMbx_keeps (fun _ k => runReg_ok _ r on k) (.refl s))

theorem execRingCtrlReset_keeps (r : Fin 16) (s : State) : KeepsIn s (execRingCtrlReset r s) := by
  exact .next (onMbx_keeps (fun _ k => resetReg_ok _ r k) (.refl s))

theorem execRingGeomWrite_keeps (r : Fin 16) (base : BitVec 10) (log2 : BitVec 4) (s : State) :
    KeepsIn s (execRingGeomWrite r base log2 s) := by
  exact .next (onMbx_keeps (fun _ k => geomWrite_ok r _ _ k) (.refl s))

theorem execRingAssignWrite_keeps (v : BitVec 6) (s : State) : KeepsIn s (execRingAssignWrite v s) := by
  exact .next (onMbx_keeps (fun _ k => assignWrite_ok _ k) (.refl s))

theorem execIrqStatusClear_keeps (v : BitVec 12) (s : State) : KeepsIn s (execIrqStatusClear v s) := by
  exact .next (onMbx_keeps (fun _ k => ⟨k.1, k.2⟩) (.refl s))

theorem execPrioDoorbell_keeps (n : BitVec 5) (s : State) : KeepsIn s (execPrioDoorbell n s) := by
  exact .next (onMbx_keeps (fun _ k => prioDoorbell_ok _ k) (.refl s))

theorem execRegisterWrite_keeps (addr v : Word) (b : BootIn) (s : State) : KeepsIn s (execRegisterWrite addr v b s) := by
  unfold execRegisterWrite
  dsimp only
  have start := fresh_refl s
  exact .ite (.next start) (by
      split
      · exact .next (.ite (fltWrite_keeps start) start)
      · exact .next (.ite (transportWrite_keeps start) start))

theorem execCpl0EntryExpiry_keeps (s : State) : KeepsIn s (execCpl0EntryExpiry s) := by
  unfold execCpl0EntryExpiry
  dsimp only
  split
  · exact .next (fresh_refl s)
  · refine .next ((advanceTo_keeps (fresh_refl s)).withMbx (fun k => flushCpl_ok _ 0 (trimCpl0_ok ?_)))
    have kept {c : Prop} [Decidable c] {x y : Mbx} (ok : MbxOk x) (mem : y.mem = x.mem) (stage : y.stage = x.stage) :
        MbxOk (if c then y else x) := mbxOk_ite ⟨mem ▸ ok.1, stage ▸ ok.2⟩ ok
    exact kept (kept (kept (kept k rfl rfl) rfl rfl) rfl rfl) rfl rfl

theorem execI2ctStatus_keeps (addr : BitVec 7) (pec : Bool) (s : State) : KeepsIn s (execI2ctStatus addr pec s) := by
  unfold execI2ctStatus
  dsimp only
  have start := fresh_refl s
  generalize fresh s = x at start ⊢
  exact .ite (.next start) (.ite (.next (emit_keeps start)) (.ite (.next (pecError_keeps start))
    (.next ((emit_keeps start).withMbx (fun k => ⟨k.1, k.2⟩)))))

theorem execI2ctCmd4Submit_keeps (addr : BitVec 7) (data : List Byte) (pec : Bool) (s : State) :
    KeepsIn s (execI2ctCmd4Submit addr data pec s) := by
  unfold execI2ctCmd4Submit
  dsimp only
  have start := fresh_refl s
  exact .ite (.next start) (.ite (.next (emit_keeps start)) (.ite (.next (pecError_keeps start)) (.ite (.next (emit_keeps start)) (.next
    (.parts (fun k => ringAppend_ok _ _ k) id id id id start)))))

theorem execI2ctCpl4Fetch_keeps (addr : BitVec 7) (pec : Bool) (s : State) : KeepsIn s (execI2ctCpl4Fetch addr pec s) := by
  unfold execI2ctCpl4Fetch
  dsimp only
  have start := fresh_refl s
  generalize fresh s = x at start ⊢
  refine .ite (.next start) (.ite (.next (emit_keeps start)) (.ite (.next (pecError_keeps start)) ?_))
  split
  · exact .next (emit_keeps start)
  · exact .next ((emit_keeps start).withMbx (headWrite_ok _ _ _))

theorem execI2ctCmd0Submit_keeps (addr : BitVec 7) (data : List Byte) (pec : Bool) (s : State) :
    KeepsIn s (execI2ctCmd0Submit addr data pec s) := by
  unfold execI2ctCmd0Submit
  dsimp only
  have start := fresh_refl s
  generalize fresh s = x at start ⊢
  exact .ite (.next start) (.ite (.next (emit_keeps start)) (.ite (.next (pecError_keeps start)) (.ite (.next (emit_keeps start))
    (.next (.ite (start.withMbx (cmd0Append_ok _ _)) (emit_keeps start))))))

theorem execI2ctCpl0Fetch_keeps (addr : BitVec 7) (pec : Bool) (s : State) : KeepsIn s (execI2ctCpl0Fetch addr pec s) := by
  unfold execI2ctCpl0Fetch
  dsimp only
  have start := fresh_refl s
  generalize fresh s = x at start ⊢
  refine .ite (.next start) (.ite (.next (emit_keeps start)) (.ite (.next (pecError_keeps start)) ?_))
  split
  · exact .next (emit_keeps start)
  · exact .next ((emit_keeps start).withMbx (fun k => flushCpl_ok _ _ (cpl0Consume_ok _ _ k)))

theorem execLmfCmd0Submit_keeps (u : US) (wLength : Nat) (data : List Byte) (s : State) :
    KeepsIn s (execLmfCmd0Submit u wLength data s) := by
  unfold execLmfCmd0Submit
  dsimp only
  have due := dueTick_keeps (fresh_refl s)
  generalize dueTick (fresh s) = x at due ⊢
  exact .ite (.next due) (.ite (.next (emit_keeps due)) (.ite (.next (emit_keeps due))
    (.next (.ite ((emit_keeps (prioCharge_keeps due)).withMbx (cmd0Append_ok _ _)) (emit_keeps due)))))

theorem execLmfCpl0Fetch_keeps (u : US) (wLength : Nat) (s : State) : KeepsIn s (execLmfCpl0Fetch u wLength s) := by
  unfold execLmfCpl0Fetch
  dsimp only
  have due := dueTick_keeps (fresh_refl s)
  generalize dueTick (fresh s) = x at due ⊢
  refine .ite (.next due) (.ite (.next (emit_keeps due)) ?_)
  split
  · exact .next (emit_keeps due)
  · exact .ite (.next (emit_keeps due)) (.ite (.next (emit_keeps due))
      (.next ((emit_keeps (prioCharge_keeps due)).withMbx (fun k => flushCpl_ok _ _ (cpl0Consume_ok _ _ k)))))

theorem execLmfRingStatus_keeps (u : US) (s : State) : KeepsIn s (execLmfRingStatus u s) := by
  unfold execLmfRingStatus
  dsimp only
  have due := dueTick_keeps (fresh_refl s)
  generalize dueTick (fresh s) = x at due ⊢
  exact .ite (.next due) (.next ((emit_keeps due).withMbx (setLmf_ok _ _)))

theorem execLmfRingReset_keeps (u : US) (s : State) : KeepsIn s (execLmfRingReset u s) := by
  unfold execLmfRingReset
  dsimp only
  have due := dueTick_keeps (fresh_refl s)
  generalize dueTick (fresh s) = x at due ⊢
  exact .ite (.next due) (.next ((emit_keeps due).withMbx (ringReset_ok _ _ _)))

theorem execLmfBulkOut_keeps (u : US) (packet : List Byte) (last : Bool) (s : State) : KeepsIn s (execLmfBulkOut u packet last s) := by
  unfold execLmfBulkOut
  dsimp only
  have due := dueTick_keeps (fresh_refl s)
  generalize dueTick (fresh s) = x at due ⊢
  exact .ite (.next due) (.ite (.next due) (.ite (.next (emit_keeps due))
    (.ite (.next ((emit_keeps due).withMbx (fun k => setLmf_ok _ _ (ringAppend_ok _ _ k)))) (.next ((emit_keeps due).withMbx (setLmf_ok _ _))))))

theorem execLmfBulkIn_keeps (u : US) (s : State) : KeepsIn s (execLmfBulkIn u s) := by
  unfold execLmfBulkIn
  dsimp only
  have due := dueTick_keeps (fresh_refl s)
  generalize dueTick (fresh s) = x at due ⊢
  refine .ite (.next due) (.ite (.next (emit_keeps due)) (.next ?_))
  have sent := lmfPackets_keeps (u := u) (data := readSlots x.mbx.rings[cplRing (lmfPair u)] x.mbx.mem x.mbx.rings[cplRing (lmfPair u)].head
    (ringCount x.mbx.rings[cplRing (lmfPair u)])) due
  have same := mbx_of_only (lmfPackets_only .mbx u (readSlots x.mbx.rings[cplRing (lmfPair u)] x.mbx.mem
    x.mbx.rings[cplRing (lmfPair u)].head (ringCount x.mbx.rings[cplRing (lmfPair u)])) x (by decide))
  generalize lmfPackets u _ x = y at sent same ⊢
  exact sent.withMbx (fun k => headWrite_ok _ _ _ (same ▸ k))

theorem execLmfInterruptReport_keeps (u : US) (s : State) : KeepsIn s (execLmfInterruptReport u s) := by
  unfold execLmfInterruptReport
  dsimp only
  have due := dueTick_keeps (fresh_refl s)
  generalize dueTick (fresh s) = x at due ⊢
  exact .ite (.next due) (.ite (.next (emit_keeps due)) (.next ((emit_keeps due).withMbx (setLmf_ok _ _))))

theorem execLmfSetConfiguration_keeps (u : US) (s : State) : KeepsIn s (execLmfSetConfiguration u s) := by
  unfold execLmfSetConfiguration
  dsimp only
  have due := dueTick_keeps (fresh_refl s)
  generalize dueTick (fresh s) = x at due ⊢
  exact .ite (.next due) (.next ((emit_keeps due).withMbx (fun k => mbxOk_ite (ringReset_ok _ _ _ (setLmf_ok _ _ k)) (setLmf_ok _ _ k))))

theorem execIdentify_keeps (r : Req) (s : State) : KeepsIn s (execIdentify r s) := by
  unfold execIdentify
  exact .next (runCmd_keeps (.refl _) (fun _ k => cmdIdentify_keeps k))

theorem execModeRequest_keeps (r : Req) (s : State) : KeepsIn s (execModeRequest r s) := by
  unfold execModeRequest
  exact .next (runCmd_keeps (.refl _) (fun _ k => cmdModeRequest_keeps k))

theorem execModeStatus_keeps (r : Req) (s : State) : KeepsIn s (execModeStatus r s) := by
  unfold execModeStatus
  exact .next (runCmd_keeps (.refl _) (fun _ k => cmdModeStatus_keeps k))

theorem execLaneTimeRead_keeps (r : Req) (s : State) : KeepsIn s (execLaneTimeRead r s) := by
  unfold execLaneTimeRead
  exact .next (runCmd_keeps (.refl _) (fun _ k => cmdLaneTimeRead_keeps k))

theorem execWakeRecordRead_keeps (r : Req) (s : State) : KeepsIn s (execWakeRecordRead r s) := by
  unfold execWakeRecordRead
  exact .next (runCmd_keeps (.refl _) (fun _ k => cmdWakeRecordRead_keeps k))

theorem execPortAssign_keeps (r : Req) (s : State) : KeepsIn s (execPortAssign r s) := by
  unfold execPortAssign
  exact .next (runCmd_keeps (.refl _) (fun _ k => cmdPortAssign_keeps k))

theorem execPortStatus_keeps (r : Req) (s : State) : KeepsIn s (execPortStatus r s) := by
  unfold execPortStatus
  exact .next (runCmd_keeps (.refl _) (fun _ k => cmdPortStatus_keeps k))

theorem execGuardRuleSet_keeps (r : Req) (s : State) : KeepsIn s (execGuardRuleSet r s) := by
  unfold execGuardRuleSet
  exact .next (runCmd_keeps (.refl _) (fun _ k => cmdGuardRuleSet_keeps k))

theorem execSchedSet_keeps (r : Req) (s : State) : KeepsIn s (execSchedSet r s) := by
  unfold execSchedSet
  exact .next (runCmd_keeps (.refl _) (fun _ k => cmdSchedSet_keeps k))

theorem execShaperSet_keeps (r : Req) (s : State) : KeepsIn s (execShaperSet r s) := by
  unfold execShaperSet
  exact .next (runCmd_keeps (.refl _) (fun _ k => cmdShaperSet_keeps k))

theorem execPolicerSet_keeps (r : Req) (s : State) : KeepsIn s (execPolicerSet r s) := by
  unfold execPolicerSet
  exact .next (runCmd_keeps (.refl _) (fun _ k => cmdPolicerSet_keeps k))

theorem execObserveRead_keeps (r : Req) (s : State) : KeepsIn s (execObserveRead r s) := by
  unfold execObserveRead
  exact .next (runCmd_keeps (.refl _) (fun _ k => cmdObserveRead_keeps k))

theorem execPlaceStatus_keeps (r : Req) (s : State) : KeepsIn s (execPlaceStatus r s) := by
  unfold execPlaceStatus
  exact .next (runCmd_keeps (.refl _) (fun _ k => cmdPlaceStatus_keeps k))

theorem execPlacePin_keeps (r : Req) (s : State) : KeepsIn s (execPlacePin r s) := by
  unfold execPlacePin
  exact .next (runCmd_keeps (.refl _) (fun _ k => cmdPlacePin_keeps k))

theorem execPlaceRebuild_keeps (r : Req) (s : State) : KeepsIn s (execPlaceRebuild r s) := by
  unfold execPlaceRebuild
  exact .next (runCmd_keeps (.refl _) (fun _ k => cmdPlaceRebuild_keeps k))

theorem execVigilPolicySet_keeps (r : Req) (s : State) : KeepsIn s (execVigilPolicySet r s) := by
  unfold execVigilPolicySet
  exact .next (runCmd_keeps (.refl _) (fun _ k => cmdVigilPolicySet_keeps k))

theorem execVigilArm_keeps (r : Req) (s : State) : KeepsIn s (execVigilArm r s) := by
  unfold execVigilArm
  exact .next (runCmd_keeps (.refl _) (fun _ k => cmdVigilArm_keeps k))

theorem execVigilStatus_keeps (r : Req) (s : State) : KeepsIn s (execVigilStatus r s) := by
  unfold execVigilStatus
  exact .next (runCmd_keeps (.refl _) (fun _ k => cmdVigilStatus_keeps k))

theorem execCaptureRead_keeps (r : Req) (s : State) : KeepsIn s (execCaptureRead r s) := by
  unfold execCaptureRead
  exact .next (runCmd_keeps (.refl _) (fun _ k => cmdCaptureRead_keeps k))

theorem execFailoverSet_keeps (r : Req) (s : State) : KeepsIn s (execFailoverSet r s) := by
  unfold execFailoverSet
  exact .next (runCmd_keeps (.refl _) (fun _ k => cmdFailoverSet_keeps k))

theorem execFailback_keeps (r : Req) (s : State) : KeepsIn s (execFailback r s) := by
  unfold execFailback
  exact .next (runCmd_keeps (.refl _) (fun _ k => cmdFailback_keeps k))

theorem execPowerBudgetSet_keeps (r : Req) (s : State) : KeepsIn s (execPowerBudgetSet r s) := by
  unfold execPowerBudgetSet
  exact .next (budgetDone_keeps (runCmd_keeps (.refl _) (fun _ k => cmdPowerBudgetSet_keeps k)))

theorem execPortPowerPolicy_keeps (r : Req) (s : State) : KeepsIn s (execPortPowerPolicy r s) := by
  unfold execPortPowerPolicy
  exact .next (runCmd_keeps (.refl _) (fun _ k => cmdPortPowerPolicy_keeps k))

theorem execContractStatus_keeps (r : Req) (s : State) : KeepsIn s (execContractStatus r s) := by
  unfold execContractStatus
  exact .next (runCmd_keeps (.refl _) (fun _ k => cmdContractStatus_keeps k))

theorem execRoleSwap_keeps (r : Req) (s : State) : KeepsIn s (execRoleSwap r s) := by
  unfold execRoleSwap
  exact .next (roleSwapDone_keeps (roleSwapDone_keeps (runCmd_keeps (.refl _) (fun _ k => cmdRoleSwap_keeps k))))

theorem execGuardStatus_keeps (r : Req) (s : State) : KeepsIn s (execGuardStatus r s) := by
  unfold execGuardStatus
  exact .next (runCmd_keeps (.refl _) (fun _ k => cmdGuardStatus_keeps k))

theorem execDpRoute_keeps (r : Req) (s : State) : KeepsIn s (execDpRoute r s) := by
  unfold execDpRoute
  exact .next (dpCleared_keeps (dpCleared_keeps (runCmd_keeps (.refl _) (fun _ k => cmdDpRoute_keeps k))))

theorem execDrawerKick_keeps (r : Req) (s : State) : KeepsIn s (execDrawerKick r s) := by
  unfold execDrawerKick
  exact .next (runCmd_keeps (.refl _) (fun _ k => cmdDrawerKick_keeps k))

theorem execFaultRead_keeps (r : Req) (s : State) : KeepsIn s (execFaultRead r s) := by
  unfold execFaultRead
  exact .next (runCmd_keeps (.refl _) (fun _ k => cmdFaultRead_keeps k))

theorem execFaultAck_keeps (r : Req) (s : State) : KeepsIn s (execFaultAck r s) := by
  unfold execFaultAck
  exact .next (runCmd_keeps (.refl _) (fun _ k => cmdFaultAck_keeps k))

theorem execFaultInject_keeps (r : Req) (s : State) : KeepsIn s (execFaultInject r s) := by
  unfold execFaultInject
  exact .next (runCmd_keeps (.refl _) (fun _ k => cmdFaultInject_keeps k))

theorem execFence_keeps (r : Req) (s : State) : KeepsIn s (execFence r s) := by
  unfold execFence
  exact .next (runCmd_keeps (.refl _) (fun _ k => cmdFence_keeps k))

theorem execUnfence_keeps (r : Req) (s : State) : KeepsIn s (execUnfence r s) := by
  unfold execUnfence
  exact .next (runCmd_keeps (.refl _) (fun _ k => cmdUnfence_keeps k))

theorem execAlmanacRead_keeps (r : Req) (s : State) : KeepsIn s (execAlmanacRead r s) := by
  unfold execAlmanacRead
  exact .next (runCmd_keeps (.refl _) (fun _ k => cmdAlmanacRead_keeps k))

theorem execAlmanacWrite_keeps (r : Req) (s : State) : KeepsIn s (execAlmanacWrite r s) := by
  unfold execAlmanacWrite
  exact .next (runCmd_keeps (.refl _) (fun _ k => cmdAlmanacWrite_keeps k))

theorem execAlmanacWear_keeps (r : Req) (s : State) : KeepsIn s (execAlmanacWear r s) := by
  unfold execAlmanacWear
  exact .next (runCmd_keeps (.refl _) (fun _ k => cmdAlmanacWear_keeps k))

theorem execFwStage_keeps (r : Req) (s : State) : KeepsIn s (execFwStage r s) := by
  unfold execFwStage
  exact .next (doFwStage_keeps (.refl _))

theorem execFwActivate_keeps (r : Req) (s : State) : KeepsIn s (execFwActivate r s) := by
  unfold execFwActivate
  exact .next (doFwActivate_keeps (.refl _))

theorem execFwStatus_keeps (r : Req) (s : State) : KeepsIn s (execFwStatus r s) := by
  unfold execFwStatus
  exact .next (runCmd_keeps (.refl _) (fun _ k => cmdFwStatus_keeps k))

theorem execLoopback_keeps (r : Req) (s : State) : KeepsIn s (execLoopback r s) := by
  unfold execLoopback
  exact .next (runCmd_keeps (.refl _) (fun _ k => cmdLoopback_keeps k))

theorem execEcho_keeps (r : Req) (s : State) : KeepsIn s (execEcho r s) := by
  unfold execEcho
  exact .next (runCmd_keeps (.refl _) (fun _ k => cmdEcho_keeps k))

theorem execPattern_keeps (r : Req) (s : State) : KeepsIn s (execPattern r s) := by
  unfold execPattern
  exact .next (runCmd_keeps (.refl _) (fun _ k => cmdPattern_keeps k))

theorem execRegRead_keeps (r : Req) (s : State) : KeepsIn s (execRegRead r s) := by
  unfold execRegRead
  exact .next (runCmd_keeps (.refl _) (fun _ k => cmdRegRead_keeps k))

theorem execRegWrite_keeps (r : Req) (s : State) : KeepsIn s (execRegWrite r s) := by
  unfold execRegWrite
  exact .next (runCmd_keeps (.refl _) (fun _ k => cmdRegWrite_keeps k))

theorem execLoopbackEnd_keeps (unit : Fin 19) (errors : Nat) (sink : Bool) (s : State) :
    KeepsIn s (execLoopbackEnd unit errors sink s) := by
  unfold execLoopbackEnd
  dsimp only
  have start := fresh_refl s
  generalize fresh s = x at start ⊢
  split
  · exact .next start
  · next l _ =>
    have early (a b c : Nat) : Keeps s (endLoop unit.val a b c { x with freeSeq := x.freeSeq + 1 }) := endLoop_keeps (.same (t := x) rfl rfl rfl rfl rfl start)
    have late := advanceTo_keeps (n := l.startAt + l.dur) start
    generalize advanceTo (l.startAt + l.dur) x = y at late ⊢
    exact .ite (.next (early _ _ _)) (.ite (.next (.ite (early _ _ _) start)) (.ite (.next start)
      (.next (endLoop_keeps (.same (t := y) rfl rfl rfl rfl rfl late)))))

theorem execPatternComplete_keeps (dmc : Bool) (errors corrected first : Nat) (s : State) :
    KeepsIn s (execPatternComplete dmc errors corrected first s) := by
  unfold execPatternComplete
  dsimp only
  have start := fresh_refl s
  exact .ite (.next (.ite (endPattern_keeps (countTest_keeps start)) start)) (by
      split
      · exact .next start
      · exact .next (.ite (endPattern_keeps start) start))

theorem execPkbPatternTimeout_keeps (s : State) : KeepsIn s (execPkbPatternTimeout s) := by
  unfold execPkbPatternTimeout
  dsimp only
  have start := fresh_refl s
  split
  · exact .next start
  · exact .next (.ite start (cutPattern_keeps (advanceTo_keeps start)))

theorem execComplianceEntry_keeps (u : US) (v : Option (Fin 15)) (s : State) : KeepsIn s (execComplianceEntry u v s) := by
  unfold execComplianceEntry
  dsimp only
  have start := fresh_refl s
  split
  · exact .next (.ite (enterComp_keeps start) start)
  · exact .ite (.next start) (.next (by
        split
        · exact .when enterComp_keeps (hostSeen_keeps (emit_keeps start))
        · exact hostSeen_keeps (emit_keeps start)))

theorem execUpstreamLinkTrained_keeps (u : US) (gen2 : Bool) (lanes : Nat) (s : State) :
    KeepsIn s (execUpstreamLinkTrained u gen2 lanes s) := by
  unfold execUpstreamLinkTrained
  dsimp only
  have start := fresh_refl s
  exact .ite (.next start) (by
      split
      · exact .next (hubPresence_keeps (flushHdr_keeps (ssUp_keeps (modLink_keeps (modUs_keeps start)))))
      · exact .next (hubPresence_keeps (flushHdr_keeps (ssUp_keeps (modLink_keeps (modUs_keeps start)))))
      · exact .next (hubPresence_keeps (flushHdr_keeps (ssUp_keeps (modLink_keeps (modUs_keeps start)))))
      · exact .next (hubPresence_keeps (flushHdr_keeps (linkBack_keeps start)))
      · exact .next (hubPresence_keeps (flushHdr_keeps (linkBack_keeps start)))
      · exact .next (hubPresence_keeps (flushHdr_keeps (linkBack_keeps start)))
      · exact .next (hubPresence_keeps (flushHdr_keeps (linkBack_keeps start)))
      · exact .next start)

theorem execUpstreamLinkInactive_keeps (u : US) (noTerm : Bool) (s : State) : KeepsIn s (execUpstreamLinkInactive u noTerm s) := by
  unfold execUpstreamLinkInactive
  dsimp only
  have start := fresh_refl s
  split
  · exact .next start
  · exact .next start
  · exact .next (hubPresence_keeps (modVigHub_keeps (settle_keeps (modUs_keeps (dropLink_keeps start)))))

theorem execUpstreamSsReset_keeps (u : US) (warm : Bool) (s : State) : KeepsIn s (execUpstreamSsReset u warm s) := by
  unfold execUpstreamSsReset
  dsimp only
  have start := fresh_refl s
  exact .ite (.next start) (.next (.unless ssUp_keeps (settle_keeps (modLink_keeps (modUs_keeps (dropLink_keeps (modHub_keeps
    (upstreamReset_keeps start))))))))

theorem execLinkCommandReceived_keeps (p : Port) (c : LinkCmd) (s : State) : KeepsIn s (execLinkCommandReceived p c s) := by
  unfold execLinkCommandReceived
  dsimp only
  have start := fresh_refl s
  split
  · exact .next (by
        split
        · exact .ite (linkRested_keeps (modLink_keeps start)) (setLink_keeps start)
        · exact start)
  · exact .next (resend_keeps (emit_keeps start))
  · exact .next (modLink_keeps start)
  · exact .next (.ite (flushHdr_keeps (modLink_keeps start)) (setLink_keeps start))

theorem execHostChirpKj_keeps (u : US) (ns : Nat) (s : State) : KeepsIn s (execHostChirpKj u ns s) := by
  unfold execHostChirpKj
  dsimp only
  have start := fresh_refl s
  exact .next (.ite (usb2Up_keeps (modUs_keeps start)) start)

theorem execPdSenderResponseTimeout_keeps (p : Port) (s : State) : KeepsIn s (execPdSenderResponseTimeout p s) := by
  unfold execPdSenderResponseTimeout
  dsimp only
  have start := fresh_refl s
  exact .ite (.next start) (by
      split
      · exact .next (sendHardReset_keeps (advanceTo_keeps start))
      · exact .next (softReset_keeps (swapFail_keeps (advanceTo_keeps start)))
      · exact .next (modPhy_keeps (advanceTo_keeps start))
      · exact .next (modPhy_keeps (advanceTo_keeps start))
      · exact .next (softReset_keeps (advanceTo_keeps start)))

theorem serveOp_keeps {op : Nat} {r : Req} {x : Res} (h : serveOp op r s = some x) : KeepsIn s x := by
  unfold serveOp at h
  split at h
  · cases h; exact execIdentify_keeps r s
  · cases h; exact execModeRequest_keeps r s
  · cases h; exact execModeStatus_keeps r s
  · cases h; exact execLaneTimeRead_keeps r s
  · cases h; exact execWakeRecordRead_keeps r s
  · cases h; exact execPortAssign_keeps r s
  · cases h; exact execPortStatus_keeps r s
  · cases h; exact execGuardRuleSet_keeps r s
  · cases h; exact execSchedSet_keeps r s
  · cases h; exact execShaperSet_keeps r s
  · cases h; exact execPolicerSet_keeps r s
  · cases h; exact execObserveRead_keeps r s
  · cases h; exact execPlaceStatus_keeps r s
  · cases h; exact execPlacePin_keeps r s
  · cases h; exact execPlaceRebuild_keeps r s
  · cases h; exact execVigilPolicySet_keeps r s
  · cases h; exact execVigilArm_keeps r s
  · cases h; exact execVigilStatus_keeps r s
  · cases h; exact execCaptureRead_keeps r s
  · cases h; exact execFailoverSet_keeps r s
  · cases h; exact execFailback_keeps r s
  · cases h; exact execPowerBudgetSet_keeps r s
  · cases h; exact execPortPowerPolicy_keeps r s
  · cases h; exact execContractStatus_keeps r s
  · cases h; exact execRoleSwap_keeps r s
  · cases h; exact execGuardStatus_keeps r s
  · cases h; exact execDpRoute_keeps r s
  · cases h; exact execDrawerKick_keeps r s
  · cases h; exact execFaultRead_keeps r s
  · cases h; exact execFaultAck_keeps r s
  · cases h; exact execFaultInject_keeps r s
  · cases h; exact execFence_keeps r s
  · cases h; exact execUnfence_keeps r s
  · cases h; exact execAlmanacRead_keeps r s
  · cases h; exact execAlmanacWrite_keeps r s
  · cases h; exact execAlmanacWear_keeps r s
  · cases h; exact execFwStage_keeps r s
  · cases h; exact execFwActivate_keeps r s
  · cases h; exact execFwStatus_keeps r s
  · cases h; exact execLoopback_keeps r s
  · cases h; exact execEcho_keeps r s
  · cases h; exact execPattern_keeps r s
  · cases h; exact execRegRead_keeps r s
  · cases h; exact execRegWrite_keeps r s
  · cases h

theorem takeFrom_keeps (k : Fin 8) (badWord : Option Nat) (s : State) : KeepsIn s (takeFrom k badWord s) := by
  unfold takeFrom
  dsimp only
  have consumed (n : Nat) : Keeps s { s with mbx := consume k n s.mbx } := (Keeps.refl s).withMbx (consume_ok k n)
  split
  · exact .next (refuseTake_keeps (consumed _))
  · exact .next (refuseTake_keeps (consumed _))
  · split
    · next e => exact (consumed _).into (serveOp_keeps e)
    · exact .next (refuseTake_keeps (consumed _))

theorem execCommandTake_keeps (badWord : Option Nat) (s : State) : KeepsIn s (execCommandTake badWord s) := by
  unfold execCommandTake
  refine .ite (.next (fresh_refl s)) ?_
  split
  · exact .next (fresh_refl s)
  · exact (fresh_refl s).into (takeFrom_keeps _ badWord (fresh s))

end

end Sys2Proof.Machine
end

section
/-! SUPPORT. Every step keeps the canonical form of the memories and the roles of the downstream ports (R350, R473, R474). -/

set_option Elab.async false

namespace Sys2Proof.Machine

/-- Every command keeps both invariants: a command that changes a part of which they speak by its own lemma, and every other by its frame. -/
theorem exec_keeps (i : Instr) (s : State) : KeepsIn s (exec i s) := match i with
  | .porNAssert cycles => execPorNAssert_keeps cycles s
  | .porNRelease b => execPorNRelease_keeps b s
  | .vddAonBrownout ns => execVddAonBrownout_keeps ns s
  | .laneSupplyLoss => execLaneSupplyLoss_keeps s
  | .sysResetNFall cycles dmcOk => .kept (execSysResetNFall_kept cycles dmcOk s) (by decide)
  | .sysResetNRise b => execSysResetNRise_keeps b s
  | .bootComplete reg => execBootComplete_keeps reg s
  | .upstreamConnect u => .kept (execUpstreamConnect_kept u s) (by decide)
  | .recovLoad => execRecovLoad_keeps s
  | .recovFinish b => execRecovFinish_keeps b s
  | .recovAbort => execRecovAbort_keeps s
  | .trialConfirm => execTrialConfirm_keeps s
  | .plannedWarmRestart dmcOk b => execPlannedWarmRestart_keeps dmcOk b s
  | .vddio1v8Loss => execVddio1v8Loss_keeps s
  | .corePgLow ns => execCorePgLow_keeps ns s
  | .ref25Loss ns => execRef25Loss_keeps ns s
  | .pllUnlock w => execPllUnlock_keeps w s
  | .xtal32kFail ns => execXtal32kFail_keeps ns s
  | .xtal32kSwitchToCrystal stableNs => .kept (execXtal32kSwitchToCrystal_kept stableNs s) (by decide)
  | .aonRcCalibration ratioE6 => .kept (execAonRcCalibration_kept ratioE6 s) (by decide)
  | .aonLow ns => execAonLow_keeps ns s
  | .coreRegStatusPoll status iout vout iout2 => execCoreRegStatusPoll_keeps status iout vout iout2 s
  | .coreRegTempPoll temp => .kept (execCoreRegTempPoll_kept temp s) (by decide)
  | .oppChangeStart badOrder => execOppChangeStart_keeps badOrder s
  | .oppVoltageConfirmed mv => execOppVoltageConfirmed_keeps mv s
  | .oppConfirmTimeout => execOppConfirmTimeout_keeps s
  | .suspendEntry => execSuspendEntry_keeps s
  | .suspendWake cls port detail => execSuspendWake_keeps cls port detail s
  | .sleepEntry phi dmcOk b => execSleepEntry_keeps phi dmcOk b s
  | .lovageCcSample p pattern b => execLovageCcSample_keeps p pattern b s
  | .wakeNPulse gap width b => execWakeNPulse_keeps gap width b s
  | .spitCsNWake b => execSpitCsNWake_keeps b s
  | .rtcAlarm b => execRtcAlarm_keeps b s
  | .psAlertN p status feFault tries b => execPsAlertN_keeps p status feFault tries b s
  | .laneTimeEdgeCorrection => .kept (execLaneTimeEdgeCorrection_kept s) (by decide)
  | .pkbScrub word flips overwritten => execPkbScrub_keeps word flips overwritten s
  | .dramScrubUnit flips => execDramScrubUnit_keeps flips s
  | .dramRefreshRateRead mult => execDramRefreshRateRead_keeps mult s
  | .spillRefill epq => .kept (execSpillRefill_kept epq s) (by decide)
  | .ssHeaderDownstream u h crcOk => execSsHeaderDownstream_keeps u h crcOk s
  | .ssHeaderUpstream d h crcOk => execSsHeaderUpstream_keeps d h crcOk s
  | .dppReceived p data crcOk => execDppReceived_keeps p data crcOk s
  | .itpReceived u stamp => .kept (execItpReceived_kept u stamp s) (by decide)
  | .deferredHeaderDelivery d => .kept (execDeferredHeaderDelivery_kept d s) (by decide)
  | .egressSelect p prio => execEgressSelect_keeps p prio s
  | .egressRecoveryCut p => .kept (execEgressRecoveryCut_kept p s) (by decide)
  | .functionWake d h => execFunctionWake_keeps d h s
  | .dsLinkIdleTimeout d isU2 => .kept (execDsLinkIdleTimeout_kept d isU2 s) (by decide)
  | .dsDeviceLpmRequest d isU2 => .kept (execDsDeviceLpmRequest_kept d isU2 s) (by decide)
  | .usLinkLpmRequest u isU2 => .kept (execUsLinkLpmRequest_kept u isU2 s) (by decide)
  | .usLinkIdleTimeout u isU2 => .kept (execUsLinkIdleTimeout_kept u isU2 s) (by decide)
  | .dsLinkLeavesU0 d c => .kept (execDsLinkLeavesU0_kept d c s) (by decide)
  | .hsPacketRepeat f k => execHsPacketRepeat_keeps f k s
  | .ssplitNonPeriodic u v addr ep dirIn setup ctl low pid data crcOk => .kept (execSsplitNonPeriodic_kept u v addr ep dirIn setup ctl low pid data crcOk s) (by decide)
  | .csplitNonPeriodic u v addr ep dirIn => execCsplitNonPeriodic_keeps u v addr ep dirIn s
  | .ttTransactionStart d => .kept (execTtTransactionStart_kept d s) (by decide)
  | .ttTransactionEnd d r => execTtTransactionEnd_keeps d r s
  | .ssplitPeriodic u v addr ep dirIn iso low pid data => .kept (execSsplitPeriodic_kept u v addr ep dirIn iso low pid data s) (by decide)
  | .csplitPeriodic u v addr ep dirIn => execCsplitPeriodic_keeps u v addr ep dirIn s
  | .ttPeriodicSlotRun d rs => .kept (execTtPeriodicSlotRun_kept d rs s) (by decide)
  | .ttSlotResultExpiry d => execTtSlotResultExpiry_keeps d s
  | .ttFsFrameStart u frame => .kept (execTtFsFrameStart_kept u frame s) (by decide)
  | .spilledResultFetch d addr ep => .kept (execSpilledResultFetch_kept d addr ep s) (by decide)
  | .babbleDetect d cutPacket => execBabbleDetect_keeps d cutPacket s
  | .clearTtBuffer u wValue wIndex => .kept (execClearTtBuffer_kept u wValue wIndex s) (by decide)
  | .resetTt u wIndex => .kept (execResetTt_kept u wIndex s) (by decide)
  | .getTtState u wIndex => .kept (execGetTtState_kept u wIndex s) (by decide)
  | .stopTt u wIndex => .kept (execStopTt_kept u wIndex s) (by decide)
  | .companionSetInterface u alt => .kept (execCompanionSetInterface_kept u alt s) (by decide)
  | .portResetRequest u v => execPortResetRequest_keeps u v s
  | .deviceChirpK d ns => .kept (execDeviceChirpK_kept d ns s) (by decide)
  | .chirpTimeout d => .kept (execChirpTimeout_kept d s) (by decide)
  | .portResetEnd d hsIdle => .kept (execPortResetEnd_kept d hsIdle s) (by decide)
  | .upstreamUsb2Reset u chirpAnswered => execUpstreamUsb2Reset_keeps u chirpAnswered s
  | .ssHotReset u v => execSsHotReset_keeps u v s
  | .ssWarmReset u v => execSsWarmReset_keeps u v s
  | .ssResetComplete d reached => execSsResetComplete_keeps d reached s
  | .emptySlotResetComplete u v => .kept (execEmptySlotResetComplete_kept u v s) (by decide)
  | .dsLpmToken d viaTt addr answer besl remoteWake => .kept (execDsLpmToken_kept d viaTt addr answer besl remoteWake s) (by decide)
  | .clearPortL1 u v => .kept (execClearPortL1_kept u v s) (by decide)
  | .l1DeviceWake d => .kept (execL1DeviceWake_kept d s) (by decide)
  | .companionLpm u linkState besl remoteWake => .kept (execCompanionLpm_kept u linkState besl remoteWake s) (by decide)
  | .companionL1Exit u byDev => .kept (execCompanionL1Exit_kept u byDev s) (by decide)
  | .refillTick => execRefillTick_keeps s
  | .observeSample => .kept (execObserveSample_kept s) (by decide)
  | .placementAgentSample loads waits => .kept (execPlacementAgentSample_kept loads waits s) (by decide)
  | .rebuildStart => .kept (execRebuildStart_kept s) (by decide)
  | .deltaLogMerge => .kept (execDeltaLogMerge_kept s) (by decide)
  | .equinoxSwap => execEquinoxSwap_keeps s
  | .minimalSwap => .kept (execMinimalSwap_kept s) (by decide)
  | .hostAbsence u c => execHostAbsence_keeps u c s
  | .sofKeepingStart u => .kept (execSofKeepingStart_kept u s) (by decide)
  | .keptSof u => .kept (execKeptSof_kept u s) (by decide)
  | .keptPortSuspend u => execKeptPortSuspend_keeps u s
  | .proxyPoll c ep r => execProxyPoll_keeps c ep r s
  | .heldDeviceRemoteWake d => .kept (execHeldDeviceRemoteWake_kept d s) (by decide)
  | .proxyLpmIdle d answer => .kept (execProxyLpmIdle_kept d answer s) (by decide)
  | .hubSetConfiguration u ss addr value => execHubSetConfiguration_keeps u ss addr value s
  | .returningHostFirstPacket u => .kept (execReturningHostFirstPacket_kept u s) (by decide)
  | .deviceControlRequest u d hubPort ss addr q data fin eps => execDeviceControlRequest_keeps u d hubPort ss addr q data fin eps s
  | .absorbedResetComplete d hubPort ss => .kept (execAbsorbedResetComplete_kept d hubPort ss s) (by decide)
  | .holdExpiry u b => execHoldExpiry_keeps u b s
  | .failoverDecision u => .kept (execFailoverDecision_kept u s) (by decide)
  | .failoverPortStart u => execFailoverPortStart_keeps u s
  | .failbackAuto u => .kept (execFailbackAuto_kept u s) (by decide)
  | .failbackDeferTimeout d => execFailbackDeferTimeout_keeps d s
  | .moveOldOwnerDisconnect d => execMoveOldOwnerDisconnect_keeps d s
  | .moveDrainComplete d => execMoveDrainComplete_keeps d s
  | .hubReconnect u => execHubReconnect_keeps u s
  | .getPortVendorStatus u ss wIndex => .kept (execGetPortVendorStatus_kept u ss wIndex s) (by decide)
  | .clearPortVendorStatus u ss wIndex mask => .kept (execClearPortVendorStatus_kept u ss wIndex mask s) (by decide)
  | .setPortPower u ss v => execSetPortPower_keeps u ss v s
  | .clearPortPower u ss v => execClearPortPower_keeps u ss v s
  | .setHubDepth u depth => .kept (execSetHubDepth_kept u depth s) (by decide)
  | .setPortU1U2Timeout u v isU2 value => .kept (execSetPortU1U2Timeout_kept u v isU2 value s) (by decide)
  | .setPortRemoteWakeMask u v mask => .kept (execSetPortRemoteWakeMask_kept u v mask s) (by decide)
  | .clearPortChangeFeature u ss v c => .kept (execClearPortChangeFeature_kept u ss v c s) (by decide)
  | .hubStatusPoll u ss => .kept (execHubStatusPoll_kept u ss s) (by decide)
  | .portSuspendRequest u ss v => .kept (execPortSuspendRequest_kept u ss v s) (by decide)
  | .usb2PortResumeRequest u v => .kept (execUsb2PortResumeRequest_kept u v s) (by decide)
  | .usb2PortResumeEnd d => .kept (execUsb2PortResumeEnd_kept d s) (by decide)
  | .ssPortResumeRequest u v => .kept (execSsPortResumeRequest_kept u v s) (by decide)
  | .companionUpstreamSuspend u => execCompanionUpstreamSuspend_keeps u s
  | .ssUpstreamU3 u => execSsUpstreamU3_keeps u s
  | .hostResumeK u ns => execHostResumeK_keeps u ns s
  | .hostU3Exit u => execHostU3Exit_keeps u s
  | .deviceRemoteWake d ss ns => execDeviceRemoteWake_keeps d ss ns s
  | .hubEventRemoteWake d ss ev => execHubEventRemoteWake_keeps d ss ev s
  | .ssReceiverDetectStart d => .kept (execSsReceiverDetectStart_kept d s) (by decide)
  | .usb2Connect d low ns => execUsb2Connect_keeps d low ns s
  | .ssLinkUp d gen2 => execSsLinkUp_keeps d gen2 s
  | .ssTrainingFail d => .kept (execSsTrainingFail_kept d s) (by decide)
  | .identityProbe d id => execIdentityProbe_keeps d id s
  | .usb2Disconnect d ns => execUsb2Disconnect_keeps d ns s
  | .ssDisconnect d noTerm => execSsDisconnect_keeps d noTerm s
  | .ccPatternChange p pattern flip => execCcPatternChange_keeps p pattern flip s
  | .ccAttachDebounce p vbs wet => execCcAttachDebounce_keeps p vbs wet s
  | .ccDetachDebounce p => execCcDetachDebounce_keeps p s
  | .errorRecoveryEnd p => execErrorRecoveryEnd_keeps p s
  | .drpToggle u => execDrpToggle_keeps u s
  | .drpAttachDebounce u vbs => execDrpAttachDebounce_keeps u vbs s
  | .usPartnerRpChange u level => execUsPartnerRpChange_keeps u level s
  | .usSinkVbusLoss u => execUsSinkVbusLoss_keeps u s
  | .hardwareDetachGuard p => execHardwareDetachGuard_keeps p s
  | .fastRemoval p vbs => execFastRemoval_keeps p vbs s
  | .vconnStable p => execVconnStable_keeps p s
  | .discoverIdentityRetry p => execDiscoverIdentityRetry_keeps p s
  | .discoveryCutoff p => execDiscoveryCutoff_keeps p s
  | .pdMessageReceived p sop header data crcOk => execPdMessageReceived_keeps p sop header data crcOk s
  | .pdTxHandover p => .kept (execPdTxHandover_kept p s) (by decide)
  | .pdTxGoodcrcTimeout p => execPdTxGoodcrcTimeout_keeps p s
  | .pdTxDone p => execPdTxDone_keeps p s
  | .thymeNotice p => execThymeNotice_keeps p s
  | .hardResetReceived p => execHardResetReceived_keeps p s
  | .hardResetSent p => execHardResetSent_keeps p s
  | .cableResetReceived u => .kept (execCableResetReceived_kept u s) (by decide)
  | .softResetReceived p => .kept (execSoftResetReceived_kept p s) (by decide)
  | .thymeActivation t => execThymeActivation_keeps t s
  | .getRevision p => .kept (execGetRevision_kept p s) (by decide)
  | .pdRequest p => execPdRequest_keeps p s
  | .budgetReduction p => .kept (execBudgetReduction_kept p s) (by decide)
  | .reductionResponseTimeout p => execReductionResponseTimeout_keeps p s
  | .sourceCapsSend p => .kept (execSourceCapsSend_kept p s) (by decide)
  | .sourceCapsRetry p => .kept (execSourceCapsRetry_kept p s) (by decide)
  | .sinkCapabilitiesReceived p => execSinkCapabilitiesReceived_keeps p s
  | .eprModeEnter p => execEprModeEnter_keeps p s
  | .eprModeExit p => execEprModeExit_keeps p s
  | .eprKeepalive p => .kept (execEprKeepalive_kept p s) (by decide)
  | .ppsTimeout p => execPpsTimeout_keeps p s
  | .eprKeepaliveTimeout p => execEprKeepaliveTimeout_keeps p s
  | .getSinkCapOnDs d => .kept (execGetSinkCapOnDs_kept d s) (by decide)
  | .prSwapReceived p => execPrSwapReceived_keeps p s
  | .drSwapReceived p => execDrSwapReceived_keeps p s
  | .vconnSwapReceived p => execVconnSwapReceived_keeps p s
  | .swapResponseReceived u => execSwapResponseReceived_keeps u s
  | .swapWaitRetry u jitter => execSwapWaitRetry_keeps u jitter s
  | .prSwapSequence u => execPrSwapSequence_keeps u s
  | .dataRoleSwapRequest u => execDataRoleSwapRequest_keeps u s
  | .frsSignal u => execFrsSignal_keeps u s
  | .frSwapReceived u => execFrSwapReceived_keeps u s
  | .frSwapInitTimeout u => execFrSwapInitTimeout_keeps u s
  | .transitionLimitsWrite p => .kept (execTransitionLimitsWrite_kept p s) (by decide)
  | .adcConversion volts => execAdcConversion_keeps volts s
  | .transitionTimeout p => execTransitionTimeout_keeps p s
  | .vbusOvpTrip p => execVbusOvpTrip_keeps p s
  | .vbusUvpTrip p => execVbusUvpTrip_keeps p s
  | .psfRise p status => execPsfRise_keeps p status s
  | .stageOcShutdown p => execStageOcShutdown_keeps p s
  | .stageStatusPoll p status tries => execStageStatusPoll_keeps p status tries s
  | .stageVoutIoutPoll p vout iout tries => execStageVoutIoutPoll_keeps p vout iout tries s
  | .stageTempPoll p temp tries => execStageTempPoll_keeps p temp tries s
  | .psi2cBusStuck => execPsi2cBusStuck_keeps s
  | .hardResetVbusOff p => execHardResetVbusOff_keeps p s
  | .hardResetRecover p => execHardResetRecover_keeps p s
  | .guardReading p first again b => execGuardReading_keeps p first again b s
  | .guardWeekEnd => .kept (execGuardWeekEnd_kept s) (by decide)
  | .dpVdmAck d => execDpVdmAck_keeps d s
  | .dpEntryStart d => .kept (execDpEntryStart_kept d s) (by decide)
  | .dpVdmTimeout d => execDpVdmTimeout_keeps d s
  | .dpAttention d => .kept (execDpAttention_kept d s) (by decide)
  | .hpdTimer x => .kept (execHpdTimer_kept x s) (by decide)
  | .dpExitMode d => execDpExitMode_keeps d s
  | .kickPulseEnd x => execKickPulseEnd_keeps x s
  | .drawerReport x => execDrawerReport_keeps x s
  | .lioSenseChange n level b => execLioSenseChange_keeps n level b s
  | .gpioEdge n rising => execGpioEdge_keeps n rising s
  | .faultLatch b src unit persistent => execFaultLatch_keeps b src unit persistent s
  | .levelFaultRepeat b src lasts => execLevelFaultRepeat_keeps b src lasts s
  | .sageLockstepMismatch => execSageLockstepMismatch_keeps s
  | .sageWatchdog ms => execSageWatchdog_keeps ms s
  | .sageTaskLate service => execSageTaskLate_keeps service s
  | .chervilHang c us => execChervilHang_keeps c us s
  | .thymeHang t us => execThymeHang_keeps t us s
  | .fabArbStall us => execFabArbStall_keeps us s
  | .tjSample tenths => execTjSample_keeps tenths s
  | .safeEntry dmcOk => execSafeEntry_keeps dmcOk s
  | .safeExit b => execSafeExit_keeps b s
  | .quietPeriodEnd b reads => execQuietPeriodEnd_keeps b reads s
  | .faultAutoAck b => .kept (execFaultAutoAck_kept b s) (by decide)
  | .fltAckWrite b v => .kept (execFltAckWrite_kept b v s) (by decide)
  | .fltForceWrite b v => execFltForceWrite_keeps b v s
  | .availabilityCheckpoint => execAvailabilityCheckpoint_keeps s
  | .spitFrame setup instr addr data reads b => execSpitFrame_keeps setup instr addr data reads b s
  | .ringTailWrite r v => execRingTailWrite_keeps r v s
  | .ringHeadWrite r v => execRingHeadWrite_keeps r v s
  | .ringCtrlRun r on => execRingCtrlRun_keeps r on s
  | .ringCtrlReset r => execRingCtrlReset_keeps r s
  | .ringGeomWrite r base log2 => execRingGeomWrite_keeps r base log2 s
  | .ringAssignWrite v => execRingAssignWrite_keeps v s
  | .irqStatusClear v => execIrqStatusClear_keeps v s
  | .prioDoorbell n => execPrioDoorbell_keeps n s
  | .registerWrite addr v b => execRegisterWrite_keeps addr v b s
  | .commandTake badWord => execCommandTake_keeps badWord s
  | .cpl0EntryExpiry => execCpl0EntryExpiry_keeps s
  | .i2ctStatus addr pec => execI2ctStatus_keeps addr pec s
  | .i2ctCmd4Submit addr data pec => execI2ctCmd4Submit_keeps addr data pec s
  | .i2ctCpl4Fetch addr pec => execI2ctCpl4Fetch_keeps addr pec s
  | .i2ctCmd0Submit addr data pec => execI2ctCmd0Submit_keeps addr data pec s
  | .i2ctCpl0Fetch addr pec => execI2ctCpl0Fetch_keeps addr pec s
  | .i2ctBusTimeout ms => .kept (execI2ctBusTimeout_kept ms s) (by decide)
  | .lmfCmd0Submit u wLength data => execLmfCmd0Submit_keeps u wLength data s
  | .lmfCpl0Fetch u wLength => execLmfCpl0Fetch_keeps u wLength s
  | .lmfRingStatus u => execLmfRingStatus_keeps u s
  | .lmfRingReset u => execLmfRingReset_keeps u s
  | .lmfBulkOut u packet last => execLmfBulkOut_keeps u packet last s
  | .lmfBulkIn u => execLmfBulkIn_keeps u s
  | .lmfInterruptReport u => execLmfInterruptReport_keeps u s
  | .lmfSetConfiguration u => execLmfSetConfiguration_keeps u s
  | .identify r => execIdentify_keeps r s
  | .modeRequest r => execModeRequest_keeps r s
  | .modeStatus r => execModeStatus_keeps r s
  | .laneTimeRead r => execLaneTimeRead_keeps r s
  | .wakeRecordRead r => execWakeRecordRead_keeps r s
  | .portAssign r => execPortAssign_keeps r s
  | .portStatus r => execPortStatus_keeps r s
  | .guardRuleSet r => execGuardRuleSet_keeps r s
  | .schedSet r => execSchedSet_keeps r s
  | .shaperSet r => execShaperSet_keeps r s
  | .policerSet r => execPolicerSet_keeps r s
  | .observeRead r => execObserveRead_keeps r s
  | .placeStatus r => execPlaceStatus_keeps r s
  | .placePin r => execPlacePin_keeps r s
  | .placeRebuild r => execPlaceRebuild_keeps r s
  | .vigilPolicySet r => execVigilPolicySet_keeps r s
  | .vigilArm r => execVigilArm_keeps r s
  | .vigilStatus r => execVigilStatus_keeps r s
  | .captureRead r => execCaptureRead_keeps r s
  | .failoverSet r => execFailoverSet_keeps r s
  | .failback r => execFailback_keeps r s
  | .powerBudgetSet r => execPowerBudgetSet_keeps r s
  | .portPowerPolicy r => execPortPowerPolicy_keeps r s
  | .contractStatus r => execContractStatus_keeps r s
  | .roleSwap r => execRoleSwap_keeps r s
  | .guardStatus r => execGuardStatus_keeps r s
  | .dpRoute r => execDpRoute_keeps r s
  | .drawerKick r => execDrawerKick_keeps r s
  | .faultRead r => execFaultRead_keeps r s
  | .faultAck r => execFaultAck_keeps r s
  | .faultInject r => execFaultInject_keeps r s
  | .fence r => execFence_keeps r s
  | .unfence r => execUnfence_keeps r s
  | .almanacRead r => execAlmanacRead_keeps r s
  | .almanacWrite r => execAlmanacWrite_keeps r s
  | .almanacWear r => execAlmanacWear_keeps r s
  | .fwStage r => execFwStage_keeps r s
  | .fwActivate r => execFwActivate_keeps r s
  | .fwStatus r => execFwStatus_keeps r s
  | .loopback r => execLoopback_keeps r s
  | .echo r => execEcho_keeps r s
  | .pattern r => execPattern_keeps r s
  | .regRead r => execRegRead_keeps r s
  | .regWrite r => execRegWrite_keeps r s
  | .loopbackEnd unit errors sink => execLoopbackEnd_keeps unit errors sink s
  | .patternComplete dmc errors corrected first => execPatternComplete_keeps dmc errors corrected first s
  | .pkbPatternCellFree cell errors corrected first => .kept (execPkbPatternCellFree_kept cell errors corrected first s) (by decide)
  | .pkbPatternTimeout => execPkbPatternTimeout_keeps s
  | .remoteLoopbackRequest u => .kept (execRemoteLoopbackRequest_kept u s) (by decide)
  | .complianceEntry u v => execComplianceEntry_keeps u v s
  | .compliancePingLfps p => .kept (execCompliancePingLfps_kept p s) (by decide)
  | .usb2PortTest u v mode => .kept (execUsb2PortTest_kept u v mode s) (by decide)
  | .usb2TestModeUpstream u mode => .kept (execUsb2TestModeUpstream_kept u mode s) (by decide)
  | .bistMessage p => .kept (execBistMessage_kept p s) (by decide)
  | .bistCarrierEnd p => .kept (execBistCarrierEnd_kept p s) (by decide)
  | .jtagInstruction x trst cells => .kept (execJtagInstruction_kept x trst cells s) (by decide)
  | .ref25Return => .kept (execRef25Return_kept s) (by decide)
  | .ssPllRelock => .kept (execSsPllRelock_kept s) (by decide)
  | .upstreamLinkTrained u gen2 lanes => execUpstreamLinkTrained_keeps u gen2 lanes s
  | .upstreamLinkInactive u noTerm => execUpstreamLinkInactive_keeps u noTerm s
  | .upstreamSsReset u warm => execUpstreamSsReset_keeps u warm s
  | .linkCommandReceived p c => execLinkCommandReceived_keeps p c s
  | .hubSetFeature u f on => .kept (execHubSetFeature_kept u f on s) (by decide)
  | .hostResumeEop u => .kept (execHostResumeEop_kept u s) (by decide)
  | .hostChirpKj u ns => execHostChirpKj_keeps u ns s
  | .u3ExitComplete d reached => .kept (execU3ExitComplete_kept d reached s) (by decide)
  | .u3EntryComplete d acked => .kept (execU3EntryComplete_kept d acked s) (by decide)
  | .pdSenderResponseTimeout p => execPdSenderResponseTimeout_keeps p s

/-- A step is a tick, or the front command on the state with the rest of the queue. -/
theorem step_keeps {s t : State} (h : step s = .next t) : Keeps s t := by
  unfold step at h
  split at h
  · exact Host.Outcome.next.inj h ▸ tick_keeps (.refl s)
  · next c rest _ =>
    have ran := exec_keeps c { s with pending := rest }
    rw [h] at ran
    exact ran

/-- Settles O47: the canonical form is the first of the two invariants that a step keeps. -/
theorem everyStepKeepsCanon : Obligations.EveryStepKeepsCanon :=
  fun _ _ canon h => (step_keeps h).1 canon

theorem portUs_dsPort (d : DS) : portUs (dsPort d) = none := by
  cases h : portUs (dsPort d) with
  | none => rfl
  | some u => exact absurd (portUs_some h).symm (dsPort_ne_usPort d u)

theorem rev_handed (p : Port) (s : State) : (phyOf (handed p s) p).rev = (phyOf s p).rev := by
  unfold handed
  rw [phyOf_modPhy_self]
  rfl

/-- A downstream port answers Get_Sink_Cap with the message that says it is not supported (R350). -/
theorem execGetSinkCapOnDs_next {s : State} {d : DS} {m : PdMsg} (hand : (phyOf s (dsPort d)).inHand = some m)
    (up : thymeDown s (dsPort d) = false) (asked : isCtl m 8 = true) :
    execGetSinkCapOnDs d s =
      .next (pdCtl (dsPort d) (if (phyOf s (dsPort d)).rev = 3 then 16 else 4) (handed (dsPort d) s)) := by
  refine congrArg _ ((takeHand_some (ok := fun m => isCtl m 8) hand up asked).trans ?_)
  rw [notSupported, rev3, rev_handed]
  simp only [beq_iff_eq]

/-- No TARGET names both a downstream and an upstream port. -/
theorem targetUs_of_ds {r : Req} {d : DS} (h : targetDs r = some d) : targetUs r = none := by
  obtain ⟨p, named, ds⟩ := targetPort_of_ds h
  cases up : targetUs r with
  | none => rfl
  | some u =>
    obtain ⟨q, named', us⟩ := targetPort_of_us up
    obtain rfl : p = q := Option.some.inj (named.symm.trans named')
    exact absurd ((portDs_of_us us).symm.trans ds) nofun

theorem cmdRoleSwap_ds {r : Req} {d : DS} (target : targetDs r = some d) (s : State) : cmdRoleSwap r s = (s, errR stBadTarget) := by
  simp only [cmdRoleSwap, targetUs_of_ds target]

/-- Settles O58: the roles are the second of the two invariants that a step keeps; a downstream port is no upstream port, and the
answers to the swaps and to ROLE_SWAP follow from that. -/
theorem downstreamPortsStaySources : Obligations.DownstreamPortsStaySources := by
  refine ⟨fun s t roles h => (step_keeps h).2 roles, fun d s m hand up => ⟨?_, ?_, ?_, ?_⟩, fun r s d pass target => ?_⟩
  · exact fun swap => execPrSwapReceived_ds hand up swap (portUs_dsPort d)
  · exact fun swap => execDrSwapReceived_ds hand up swap (portUs_dsPort d)
  · exact fun swap => execVconnSwapReceived_ds hand up swap (portUs_dsPort d)
  · exact execGetSinkCapOnDs_next hand up
  · exact congrArg (fun t => Host.Outcome.next (afterCmd (.roleSwap r) t)) (runCmd_status pass (cmdRoleSwap_ds target (fresh s)))

end Sys2Proof.Machine
end
